-- ==== Sys2Proof/Syntax.lean ====
section
/-!
DEFINITION. The commands of the HK7, one constructor per row of opcode_table.json, with the operands
that the spec's text gives the step. An operand names WHAT the step is about (a lane, a command, a message) and
carries what the outside world supplies (a cell's bytes, a measured value, the outcome of an outside event);
everything the device itself decides is computed from State by the meaning of the row.
-/

namespace Sys2Proof

/-- A dictionary request as it reaches the service (R69, R72). `path` and `who` name the session as R603 does; for CAN, `bus` is the bus
and `ident` the 11-bit identifier of the frame (R71); on the other paths that carry a body, `ident` is its CLIENT byte (R72). -/
structure DictReq where
  path : Nat
  who : Nat
  seq : Nat
  bus : Nat
  ident : Nat
  idx : Nat
  sub : Nat
  data : List Nat
deriving DecidableEq, Repr

/-- What the fuse work of an accepted commit came to (R89, R91): every limited-change write of it done, or the write, counted from 0 among
those that need a fuse, whose counter fuse failed to blow, or during whose work power was lost. -/
inductive FuseOutcome where
  | blown
  | failed (write : Nat)
  | cut (write : Nat)
deriving DecidableEq, Repr

/-- The header of a PTP message as it arrives (R40): Ethernet lane (4 × die + lane), domain, identity of the sending clock,
and the interval in ns that its logMessageInterval gives. -/
structure PtpHdr where
  lane : Nat
  dom : Nat
  src : Nat
  intervalNs : Nat
deriving DecidableEq, Repr

/-- What a PTP Announce message says of its grandmaster beside its identity (R40): priority1, clockClass, clockAccuracy,
offsetScaledLogVariance, priority2, and the stepsRemoved to it. -/
structure AnnounceData where
  priority1 : Nat
  clockClass : Nat
  accuracy : Nat
  variance : Nat
  priority2 : Nat
  steps : Nat
deriving DecidableEq, Repr

/-- Where a UDP datagram goes and where it comes from (R79): IPv4 addresses and ports. -/
structure UdpHdr where
  destIp : Nat
  destPort : Nat
  sourceIp : Nat
  sourcePort : Nat
deriving DecidableEq, Repr

/-- What arrived in place of a cell (R98, R100): whether it touches an uncorrectable codeword, and its 256 bytes. -/
structure BadCell where
  codeword : Bool
  bytes : List Nat
deriving DecidableEq, Repr

/-- A cell that arrived on an inflow lane without error (R99, R100), reserved bits left out (R103); `payload` holds its bytes in
use. -/
structure Cell where
  die : Nat
  lane : Nat
  type : Nat
  ver : Nat
  spring : Nat
  band : Nat
  len : Nat
  cidx : Nat
  lseq : Nat
  frame : Nat
  payload : List Nat
deriving DecidableEq, Repr

/-- The part of a camera's control cell that every message shares (R100, R119): its lane, VER, LSEQ and MSEQ. -/
structure CtlHdr where
  die : Nat
  lane : Nat
  ver : Nat
  lseq : Nat
  mseq : Nat
deriving DecidableEq, Repr

/-- A command of a submission queue: controller (CNTLID), SQ and command identifier (R282). -/
structure CmdRef where
  cntl : Nat
  sqid : Nat
  cid : Nat
deriving DecidableEq, Repr

/-- The header of a received Wildela frame (R495) with the lane of the sender that its source address names (R494) and the result of its
authentication (R496). -/
structure LakeHdr where
  die : Nat
  lane : Nat
  srcLane : Nat
  ver : Nat
  level : Nat
  retry : Bool
  lake : Nat
  src : Nat
  dst : Nat
  seq : Nat
  epoch : Nat
  phase : Nat
  tagOk : Bool
deriving DecidableEq, Repr

/-- The body of a HEARTBEAT (R499). -/
structure HeartbeatBody where
  state : Nat
  lowLevel : Nat
  highLevel : Nat
  aligned : Bool
  tbState : Nat
  source : Nat
  leader : Nat
  generation : Nat
  gm : Nat
  rate : Nat
  firmware : Nat
  members : List Nat
deriving DecidableEq, Repr

/-- One entry of a lake transaction's write list (R499, R521). -/
structure LakeWrite where
  idx : Nat
  sub : Nat
  data : List Nat
deriving DecidableEq, Repr

/-- What a flash read came to (R223): the step of the escalation that succeeded (1 to 5), with the retries made at step 2 or the bits of the soft
decode at step 3 and the corrected bits at step 1; none; or, of a read of many granules, those that no step recovered. -/
inductive ReadOutcome where
  | decoded (step detail correctedBits : Nat)
  | unrecoverable
  | lost (granules : List Nat)
deriving DecidableEq, Repr

/-- The status of a flash program (R26, R209, R233): it passed, the member of a channel failed, or the tag of a granule did not match on the
way in. -/
inductive ProgramOutcome where
  | passed
  | failed (channel : Nat)
  | tagMismatch
deriving DecidableEq, Repr

/-- One housekeeping round (R549): readings in 0.1 °C, mV and mA, and whether it completed over 1 ms late. -/
structure Round where
  temps : List Int
  volts : List Nat
  amps : List Nat
  late : Bool
deriving DecidableEq, Repr

/-- What a die's scrub met in one window (R542): corrected words of SRAM and DRAM, poisoned words of SRAM, failing
SRAM rows, the DRAM regions that delivered poisoned words, each with the number of code words; the granules of the staging areas rebuilt
from their groups (R524); the poisoned words of task segments and pond buffers by address; and whether a full pass over SRAM, and over
DRAM, ended. -/
structure ScrubFindings where
  sramCorrected : Nat
  dramCorrected : Nat
  sramPoisoned : Nat
  rows : List Nat
  regions : List (Nat × Nat)
  rebuilt : Nat
  words : List Nat
  sramPass : Bool
  dramPass : Bool
deriving DecidableEq, Repr

/-- What the links of a die report with its heartbeat, since the one before (R25, R525, R543): code words corrected and poisoned, flits
retried, and wires whose corrected flits exceeded the limit over an epoch. -/
structure LinkReport where
  die : Nat
  corrected : Nat
  poisoned : Nat
  retries : Nat
  wires : Nat
deriving DecidableEq, Repr

/-- What a round of heartbeats brought the lead (R525): the dies that answered, and what their links report. -/
structure HeartbeatRound where
  answered : List Nat
  links : List LinkReport
deriving DecidableEq, Repr

/-- What the boot flash holds, as the ROM and the first stage find it (R569, R570, R572): validity of the two
first-stage copies, of the boot configuration block, and of the four firmware slots with the reason of 0x1805:03,
security version and revision of each; the digests for the image records. -/
structure BootImages where
  copyA : Bool
  copyB : Bool
  slots : List (Nat × Nat × Nat)
  stageDigest : List Nat
  stageSecver : Nat
  stageRevision : Nat
  stageBodyLen : Nat
  fwDigest : List Nat
  fwSsDigest : List Nat
  fwBodyLen : Nat
  fwVersion : Nat
deriving DecidableEq, Repr

/-- A die's flash as discovery finds it (R249 to R256). `rates` has for each channel the highest rate that its parts support and the eye margin at
each rung of the ladder of R256; `present` the targets that answer, each 16 × channel + CE; `luns` the LUNs per CE; `operations` that the
part has the operations of R250 other than erase suspend. -/
structure Population where
  interface : Nat
  counts : List Nat
  samePart : Bool
  parameterOk : Bool
  profile : Option Nat
  eraseSuspend : Bool
  planes : Nat
  pageBytes : Nat
  spareBytes : Nat
  pagesPerBlock : Nat
  blocksPerPlane : Nat
  cellType : Nat
  ratedNative : Nat
  ratedSlc : Nat
  programUs : Nat
  eraseUs : Nat
  readUs : Nat
  maxProgramUs : Nat
  maxEraseUs : Nat
  maxReadUs : Nat
  resetUs : Nat
  factoryBad : List (Nat × List Nat)
  maxBad : Nat
  rates : List (Nat × List Nat)
  slcRate : Nat
  present : List Nat
  manufacturer : Nat
  model : List Nat
  luns : Nat
  operations : Bool
deriving DecidableEq, Repr

/-- The commands: one constructor per row of the table. -/
inductive Instr where

  /-- PHASE_ADVANCE (R34): Each overflow of the phase accumulator advances a die's phase by one unit. -/
  | phaseAdvance (die : Nat)
  /-- EPOCH_BOUNDARY (R34): The phase counter wraps from 65,535 to 0 and the epoch number increases by one. -/
  | epochBoundary (offsetsPs : List Int)
  /-- FRAME_SYNC_EDGE (R38): A qualifying edge on FRAME_SYNC_IN marks a source-2 boundary. -/
  | frameSyncEdge (rising : Bool)
  /-- LTC_FRAME (R41): The end of an LTC sync word marks a source-4 boundary and updates device timecode. -/
  | ltcFrame (rate timecode userBits : Nat)
  /-- PTP_SYNC_MESSAGE (R40): A PTP Sync message is taken by the slave-only clock. -/
  | ptpSyncMessage (h : PtpHdr) (seq : Nat) (twoStep : Bool) (originNs arrivalNs : Nat)
  /-- PTP_FOLLOW_UP_MESSAGE (R40): A two-step PTP Follow_Up message completes a Sync measurement. -/
  | ptpFollowUpMessage (h : PtpHdr) (seq originNs : Nat)
  /-- PTP_ANNOUNCE_MESSAGE (R40): A PTP Announce message feeds the best master clock algorithm and the UTC offset. -/
  | ptpAnnounceMessage (h : PtpHdr) (data : AnnounceData) (gm : Nat) (utcOffset : Option Int)
  /-- PTP_DELAY_RESP_MESSAGE (R40): A PTP Delay_Resp message completes an end-to-end delay measurement. -/
  | ptpDelayRespMessage (h : PtpHdr) (seq sentNs receivedNs : Nat)
  /-- SOURCE_LOST (R38): A source's loss timeout expires, the source is declared lost and holdover begins. -/
  | sourceLost (src : Nat)
  /-- HOLDOVER_EXPIRY (R42): Holdover time expires, and the time base adopts another qualified source or runs free. -/
  | holdoverExpiry
  /-- RETURN_TIME_EXPIRY (R42): An earlier-listed source has stayed qualified for the return time and is adopted. -/
  | returnTimeExpiry (src : Nat)
  /-- READ (R74): A dictionary READ request of a non-DOMAIN value is judged and answered. -/
  | read (r : DictReq)
  /-- WRITE (R74): A dictionary WRITE request is judged and then staged, committed implicitly or acted on at once; this is also the write of registers with no row of their own. -/
  | write (r : DictReq)
  /-- DOMAIN_READ (R76): A DOMAIN READ starts a segmented read of a DOMAIN object. -/
  | domainRead (r : DictReq)
  /-- DOMAIN_WRITE (R76): A DOMAIN WRITE starts a segmented write of the stated length. -/
  | domainWrite (r : DictReq)
  /-- SEGMENT (R76): A segment of a DOMAIN transfer is received and acknowledged in its window. -/
  | segment (r : DictReq) (counter : Nat)
  /-- DOMAIN_ABORT (R74): The session's DOMAIN transfer ends and is answered 0x0303. -/
  | domainAbort (r : DictReq)
  /-- SEGMENT_ACK (R76): The client's acknowledgement of DOMAIN READ segments moves the device's send window. -/
  | segmentAck (r : DictReq) (counter : Nat)
  /-- UNKNOWN_COMMAND (R74): A request with an unknown CMD is answered 0x0101 at once and counted. -/
  | unknownCommand (r : DictReq) (cmd : Nat)
  /-- DOMAIN_TRANSFER_TIMEOUT (R76): A transfer with no segment for 100 ms ends with 0x0303. -/
  | domainTransferTimeout (session : Nat)
  /-- CAN_HEARTBEAT (R77): The heartbeat period expires and a heartbeat frame is sent on both buses. -/
  | canHeartbeat
  /-- UDP_DATAGRAM (R79): A UDP dictionary datagram is verified and its bodies are executed in order, or it is dropped. -/
  | udpDatagram (lane : Nat) (h : UdpHdr) (bytes : List Nat)
  /-- TXN_BEGIN (R81): A write of 1 to 0x1F00:01 opens a transaction in a free slot. -/
  | txnBegin (r : DictReq)
  /-- TXN_COMMIT_NEXT (R81): A write of 2 to 0x1F00:01 commits the transaction for the next permitted boundary. -/
  | txnCommitNext (r : DictReq)
  /-- TXN_COMMIT_AT_EPOCH (R53): A write of 3 to 0x1F00:01 commits the transaction for the named epoch. -/
  | txnCommitAtEpoch (r : DictReq)
  /-- TXN_ROLLBACK (R81): A write of 4 to 0x1F00:01 rolls the transaction back. -/
  | txnRollback (r : DictReq)
  /-- TXN_TIMEOUT (R86): An open transaction not committed within 0x1F10:01 rolls back with state 8. -/
  | txnTimeout (slot : Nat)
  /-- CAN_SESSION_TIMEOUT (R86): 10 s without a frame from a CAN client ends its session and rolls back its transaction. -/
  | canSessionTimeout (node : Nat)
  /-- LIMITED_CHANGE_FUSE_BLOW (R89): Before the boundary, the lead blows a count fuse, stores the value and a ledger entry, and extends MS7, or rolls the commit back. -/
  | limitedChangeFuseBlow (commit : Nat) (outcome : FuseOutcome)
  /-- CODEWORD_RECEIVED (R98): An RS(544,514) codeword is decoded on an inflow lane, and codeword lock is declared or lost. -/
  | codewordReceived (die lane : Nat) (correctable : Bool) (corrected : Nat)
  /-- BAND_START_CELL (R104): A band-start cell is received, checked, acknowledged and charged. -/
  | bandStartCell (c : Cell)
  /-- BAND_DATA_CELL (R105): A band-data cell is received, ordered by CIDX, held in the pond and acknowledged. -/
  | bandDataCell (c : Cell)
  /-- BAND_END_CELL (R106): A band-end cell is received and may complete its band. -/
  | bandEndCell (c : Cell)
  /-- FRAME_MARKER (R107): A frame marker is received and its arrival stamp is taken. -/
  | frameMarker (c : Cell)
  /-- CELL_IN_ERROR (R111): A cell with a bad HCRC or PCRC or an uncorrectable codeword increments NAKCNT and later cells are discarded until the expected LSEQ. -/
  | cellInError (die lane : Nat) (cell : BadCell)
  /-- NAK_TIMEOUT (R111): The expected cell has not arrived 8 µs after a NAKCNT increment, and NAKCNT increments again. -/
  | nakTimeout (die lane : Nat)
  /-- CREDIT_REFRESH (R118): The credit refresh interval expires and a credit cell is sent on every lane of the port. -/
  | creditRefresh (die first : Nat)
  /-- SIGNAL_DETECT (R109): Signal present for 100 µs on an inflow lane starts training. -/
  | signalDetect (die lane : Nat)
  /-- TRAINING_STEP_COMPLETE (R109): A lane training step ends and the next step begins. -/
  | trainingStepComplete (die lane : Nat)
  /-- TRAINING_STEP_TIMEOUT (R109): A training step overruns its bound and training restarts at step 1. -/
  | trainingStepTimeout (die lane : Nat)
  /-- BOND_DEADLINE (R109): 10 ms after the first lane reaches step 6, the port bonds without the late lanes. -/
  | bondDeadline (die first : Nat)
  /-- HELLO (R120): A HELLO from the camera gives its versions, lane, width and replay depth. -/
  | hello (m : CtlHdr) (lowVer highVer laneIndex width replay camera : Nat)
  /-- ECHO (R120): An ECHO is answered with ECHO REPLY. -/
  | echo (m : CtlHdr) (timePs : Nat)
  /-- ECHO_REPLY (R121): An ECHO REPLY yields a round trip used for the one-way delay. -/
  | echoReply (m : CtlHdr) (timePs heldPs nowPs : Nat)
  /-- CONTROL_ACK (R119): An ACK from the camera acknowledges a device control message. -/
  | controlAck (m : CtlHdr) (acked status : Nat)
  /-- DICT_REQUEST (R120): A DICT REQUEST on the inflow control channel carries a dictionary request of the camera class. -/
  | dictRequest (m : CtlHdr) (body : List Nat)
  /-- PORT_RESET_MESSAGE (R127): A PORT RESET from the camera resets the inflow port. -/
  | portResetMessage (m : CtlHdr) (cause : Nat)
  /-- UNKNOWN_CONTROL_MESSAGE (R120): A control message with an unknown MSG is acknowledged with status 1. -/
  | unknownControlMessage (m : CtlHdr) (msg : Nat)
  /-- CONTROL_RETRY_EXPIRY (R119): An unacknowledged control message is repeated at the retry interval. -/
  | controlRetryExpiry (die first mseq : Nat)
  /-- RESERVE_SEND (R122): RESERVE is sent at least once per second to a port used by an open take. -/
  | reserveSend (die first : Nat)
  /-- BAND_END_TIMEOUT (R123): The band-end timeout completes a band with zero fill, and unattached band data is discarded. -/
  | bandEndTimeout (die first spring frame band : Nat)
  /-- SIGNAL_LOSS (R125): Signal lost for 0x2106 on a lane fails the lane. -/
  | signalLoss (die lane : Nat)
  /-- LANE_RETRAIN_TIMER (R125): Once per second a failed lane is retrained. -/
  | laneRetrainTimer (die lane : Nat)
  /-- INFLOW_PORT_RESET (R127): A manager write to 0x210F resets the named inflow port. -/
  | inflowPortReset (r : DictReq)
  /-- TAKE_OPEN (R137): A commit writing 1 to 0x2220:01 runs admission at acceptance. -/
  | takeOpen (r : DictReq)
  /-- TAKE_CLOSE (R139): A commit writing 2 closes the named take at its boundary. -/
  | takeClose (r : DictReq)
  /-- TAKE_DELETE (R141): A commit writing 3 deallocates a closed take's segments and manifest. -/
  | takeDelete (r : DictReq)
  /-- TAKE_ABORT (R140): A write to 0x2220:06 clears the take's unrecorded frames and seals it aborted. -/
  | takeAbort (r : DictReq)
  /-- FRAME_RECORD (R153): A frame whose bands are durable and whose filters are settled enters the manifest. -/
  | frameRecord (nsid take spring frame : Nat)
  /-- TAKE_SEAL (R158): A closing take becomes closed, is sealed, written to the directory and custody slot. -/
  | takeSeal (nsid take : Nat)
  /-- GET (R184): The pond manager answers a GET for a buffer of a pool. -/
  | get (owner cls fromDie die pool : Nat)
  /-- ADDREF (R187): A holder appends a reference for another owner in a reference-count pool. -/
  | addref (holder handle newHolder : Nat)
  /-- PASS (R188): The last owner names the next owner in a named-last-owner pool. -/
  | pass (holder handle nextOwner : Nat)
  /-- PUT (R187): A holder removes one reference, and the buffer frees when its list empties. -/
  | put (holder handle : Nat)
  /-- QUERY (R186): A handle's generation, holders and quarantine are reported without change. -/
  | query (handle : Nat)
  /-- PASSED_NOTICE (R188): A PASSED notice reaches the next owner's die. -/
  | passedNotice (handle owner : Nat)
  /-- POND_QUERY_REGISTER (R196): A write to 0x5204 queries a handle and fills 0x5205. -/
  | pondQueryRegister (r : DictReq)
  /-- RESERVATIONS_LOAD (R182): A 0x5203 load registers, changes or removes owners and targets. -/
  | reservationsLoad (r : DictReq)
  /-- OWNER_WALK_COMPLETE (R193): An owner walk ends and the owner's GETs are judged normally again. -/
  | ownerWalkComplete (owner : Nat)
  /-- POND_AUDIT (R194): Every 0x5200 epochs a die's pools are audited in the scrub window. -/
  | pondAudit (die : Nat)
  /-- MERGE_WINDOW_EXPIRY (R203): The merge window passes and merged host writes are placed. -/
  | mergeWindowExpiry (nsid unit : Nat)
  /-- HEAT_HALVING (R206): Every 0x3004 s HEAT halves and cold units are queued for demotion. -/
  | heatHalving (die : Nat)
  /-- JOURNAL_FLUSH (R208): Pending journal records are programmed at least every 100 µs. -/
  | journalFlush (die : Nat)
  /-- CHECKPOINT_PASS_COMPLETE (R211): A checkpoint pass ends with its end record and held host writes resume. -/
  | checkpointPassComplete (die : Nat)
  /-- DIE_STRIPE_HOLD_EXPIRY (R216): A die stripe's hold time expires, missing contributions become null units and parity is programmed. -/
  | dieStripeHoldExpiry (stripe : Nat)
  /-- FLASH_PROGRAM_COMPLETE (R209): A flash program finishes and its granules may become durable. -/
  | flashProgramComplete (die op : Nat) (outcome : ProgramOutcome)
  /-- FLASH_ERASE_COMPLETE (R229): A block erase finishes and adds to the pre-erased reserve. -/
  | flashEraseComplete (die op : Nat) (failed : Option Nat)
  /-- FLASH_READ_COMPLETE (R223): A flash read and decode finish and the granule is delivered or escalated. -/
  | flashReadComplete (die op : Nat) (outcome : ReadOutcome)
  /-- SEEP_WINDOW_START (R227): The seep window opens and background work is issued within the budget. -/
  | seepWindowStart (die : Nat)
  /-- PLW_N_ASSERT (R240): PLW_N falls and every die runs the power-loss commit. -/
  | plwNAssert (lowNs : Nat) (recognised : Bool)
  /-- HOLDUP_OK_CHANGE (R595): A change of HOLDUP_OK switches the dies between write-back and write-through. -/
  | holdupOkChange (level : Bool) (stableNs : Nat)
  /-- CHANNEL_CHECK (R257): A channel repeats ZQ calibration and its eye check and may step down. -/
  | channelCheck (die channel margin : Nat)
  /-- FLASH_OPERATION_TIMEOUT (R264): A target fails to report ready in time and the channel resets it. -/
  | flashOperationTimeout (die channel ce : Nat) (retrainOk : Bool)
  /-- TARGET_RESET_WAIT_EXPIRY (R264): After the reset time the target's ID is read and the operation retried or the target failed. -/
  | targetResetWaitExpiry (die channel ce : Nat) (idOk retryOk : Bool)
  /-- LINK_UP (R268): A PCIe port's link comes up and EV d.072 is raised. -/
  | linkUp (port speed width : Nat)
  /-- LINK_DOWN (R271): A PCIe port's link goes down and its controllers are reset. -/
  | linkDown (port : Nat)
  /-- COMPLETION_TIMEOUT (R271): A poisoned TLP or completion timeout on a host read ends its command with 00/04h. -/
  | completionTimeout (q : CmdRef) (uncorrectable : Bool)
  /-- SQ_TAIL_DOORBELL (R282): A host writes an SQ tail doorbell. -/
  | sqTailDoorbell (cntl qid tail : Nat)
  /-- CQ_HEAD_DOORBELL (R287): A host writes a CQ head doorbell, freeing completion room. -/
  | cqHeadDoorbell (cntl qid head : Nat)
  /-- COMMAND_FETCH (R282): The fetch arbiters select and fetch a submission entry. -/
  | commandFetch (port cid bytesToHost bytesFromHost : Nat)
  /-- CREATE_IO_SQ (R281): Create I/O Submission Queue makes an ordinary SQ. -/
  | createIoSq (q : CmdRef) (qid size cqid prio base : Nat)
  /-- CREATE_IO_CQ (R281): Create I/O Completion Queue makes a CQ. -/
  | createIoCq (q : CmdRef) (qid size vector base : Nat) (interrupts : Bool)
  /-- DELETE_IO_SQ (R287): Delete I/O Submission Queue sets the reset fence and completes the SQ's commands with 00/08h. -/
  | deleteIoSq (q : CmdRef) (qid : Nat)
  /-- DELETE_IO_CQ (R288): Delete I/O Completion Queue deletes a CQ, or fails while an SQ uses it. -/
  | deleteIoCq (q : CmdRef) (qid : Nat)
  /-- GET_LOG_PAGE (R274): Get Log Page returns a supported log page. -/
  | getLogPage (q : CmdRef) (lid bytes offset : Nat) (retainAsync : Bool)
  /-- IDENTIFY (R274): Identify returns controller or namespace data. -/
  | identify (q : CmdRef) (cns nsid cntl : Nat)
  /-- ABORT_COMMAND (R287): Abort completes reporting the command not aborted and affects nothing. -/
  | abortCommand (q : CmdRef) (sqid cid : Nat)
  /-- SET_FEATURES (R274): Set Features sets a supported feature. -/
  | setFeatures (q : CmdRef) (fid value : Nat)
  /-- GET_FEATURES (R274): Get Features returns a supported feature. -/
  | getFeatures (q : CmdRef) (fid select : Nat)
  /-- ASYNC_EVENT_REQUEST (R535): An Asynchronous Event Request is held outstanding for a later event. -/
  | asyncEventRequest (q : CmdRef)
  /-- NAMESPACE_CREATE (R276): Namespace Management create makes a general or capture namespace. -/
  | namespaceCreate (q : CmdRef) (kind nsze ncap flbas : Nat)
  /-- NAMESPACE_DELETE (R279): Namespace Management delete removes a namespace unless a take is open or closing. -/
  | namespaceDelete (q : CmdRef) (nsid : Nat)
  /-- NAMESPACE_ATTACH (R280): Namespace Attachment attaches a namespace to controllers. -/
  | namespaceAttach (q : CmdRef) (nsid : Nat) (cntls : List Nat)
  /-- NAMESPACE_DETACH (R310): Namespace Attachment detaches a namespace from controllers. -/
  | namespaceDetach (q : CmdRef) (nsid : Nat) (cntls : List Nat)
  /-- FORMAT_NVM (R279): Format NVM with SES 0 deallocates every block of the namespace. -/
  | formatNvm (q : CmdRef) (nsid : Nat)
  /-- FORMAT_NVM_CRYPTO_ERASE (R443): Format NVM with SES 2 also raises the namespace key generation. -/
  | formatNvmCryptoErase (q : CmdRef) (nsid : Nat)
  /-- FIRMWARE_IMAGE_DOWNLOAD (R274): Firmware Image Download receives a piece of an image. -/
  | firmwareImageDownload (q : CmdRef) (offset : Nat) (data : List Nat)
  /-- FW_COMMIT_REPLACE (R292): Firmware Commit action 0 stores the image in a slot. -/
  | fwCommitReplace (q : CmdRef) (slot : Nat)
  /-- FW_COMMIT_REPLACE_ACTIVATE_RESET (R292): Firmware Commit action 1 stores the image and activates it at the next reset. -/
  | fwCommitReplaceActivateReset (q : CmdRef) (slot : Nat)
  /-- FW_COMMIT_ACTIVATE_RESET (R292): Firmware Commit action 2 activates a slot at the next reset. -/
  | fwCommitActivateReset (q : CmdRef) (slot : Nat)
  /-- FW_COMMIT_ACTIVATE_NOW (R293): Firmware Commit action 3 pauses fetching and activates the image without reset. -/
  | fwCommitActivateNow (q : CmdRef) (slot : Nat)
  /-- FIRMWARE_ACTIVATION_RESUME (R293): Commands in flight have completed, the new image is activated and fetching resumes. -/
  | firmwareActivationResume (pauseUs : Nat)
  /-- VQ_RESOURCE_ASSIGN (R308): Virtualization Management assigns VQ flexible resources to a VF. -/
  | vqResourceAssign (q : CmdRef) (cntl count : Nat)
  /-- SECONDARY_ONLINE (R308): Virtualization Management sets a VF online at the next permitted boundary. -/
  | secondaryOnline (q : CmdRef) (cntl : Nat)
  /-- SECONDARY_OFFLINE (R308): Virtualization Management sets a VF offline and resets its controller. -/
  | secondaryOffline (q : CmdRef) (cntl : Nat)
  /-- DICTIONARY_WRITE (R295): Vendor Dictionary Write carries a dictionary write or DOMAIN piece. -/
  | dictionaryWrite (q : CmdRef) (ndt index sub offset : Nat) (last : Bool) (total : Nat) (data : List Nat)
  /-- DICTIONARY_READ (R295): Vendor Dictionary Read carries a dictionary read. -/
  | dictionaryRead (q : CmdRef) (ndt index sub offset : Nat)
  /-- CREATE_ORDERED_IO_SQ (R281): Create Ordered I/O SQ makes an ordered SQ. -/
  | createOrderedIoSq (q : CmdRef) (qid size cqid prio base : Nat) (contiguous : Bool)
  /-- PROGRAM_LOAD (R380): Program Load assembles an image and checks, measures and loads it at the last piece. -/
  | programLoad (q : CmdRef) (handle offset : Nat) (last : Bool) (data : List Nat)
  /-- PROGRAM_UNLOAD (R296): Program Unload refuses new runs and frees the handle when its last task ends. -/
  | programUnload (q : CmdRef) (handle : Nat)
  /-- LAKE_JOIN (R503): Lake Control operation 1 commits a join. -/
  | lakeJoin (q : CmdRef) (lake node : Nat)
  /-- LAKE_LEAVE (R504): Lake Control operation 2 commits a leave. -/
  | lakeLeave (q : CmdRef)
  /-- LAKE_STATUS (R519): Lake Status returns the lake status structure. -/
  | lakeStatus (q : CmdRef) (ndt : Nat)
  /-- FLUSH (R290): Flush completes when every covered write is durable. -/
  | flush (q : CmdRef) (nsid : Nat)
  /-- NVM_WRITE (R283): Write stores host data in a general namespace. -/
  | nvmWrite (q : CmdRef) (nsid slba nlb : Nat) (data : List Nat)
  /-- NVM_READ (R283): Read returns host data. -/
  | nvmRead (q : CmdRef) (nsid slba nlb sglBytes : Nat)
  /-- COMPARE (R274): Compare checks host data against stored data. -/
  | compare (q : CmdRef) (nsid slba nlb : Nat) (data : List Nat)
  /-- WRITE_ZEROES (R278): Write Zeroes zeroes a range. -/
  | writeZeroes (q : CmdRef) (nsid slba nlb : Nat)
  /-- DATASET_MANAGEMENT_DEALLOCATE (R202): Dataset Management with AD deallocates ranges. -/
  | datasetManagementDeallocate (q : CmdRef) (nsid : Nat) (ranges : List (Nat × Nat))
  /-- VERIFY (R274): Verify reads and checks a range without transfer. -/
  | verify (q : CmdRef) (nsid slba nlb : Nat)
  /-- SEARCH (R436): Search looks up a 144-bit key in a table at the named scope. -/
  | search (q : CmdRef) (key table scope : Nat)
  /-- SEARCH_WIDE (R436): Search Wide looks up a 288- or 576-bit key. -/
  | searchWide (q : CmdRef) (ndt key table scope : Nat)
  /-- RUN_PROGRAM (R399): Run Program creates a near-data task over a source. -/
  | runProgram (q : CmdRef) (nsid ndt handle group arg source take slba blocks : Nat)
  /-- VERIFY_FRAME (R299): Verify Frame recomputes band and frame digests and compares them. -/
  | verifyFrame (q : CmdRef) (nsid take spring frame band : Nat)
  /-- VERIFY_TAKE_SEAL (R299): Verify Take Seal recomputes the take's HMAC and compares it. -/
  | verifyTakeSeal (q : CmdRef) (nsid take : Nat)
  /-- VERIFY_RANGE_DIGEST (R298): Verify Range Digest hashes a range and compares the expected digest. -/
  | verifyRangeDigest (q : CmdRef) (nsid slba blocks alg : Nat) (expected : List Nat)
  /-- COMPUTE_RANGE_DIGEST (R298): Compute Range Digest returns the digest of a range. -/
  | computeRangeDigest (q : CmdRef) (nsid slba blocks alg : Nat)
  /-- READ_FRAME (R300): Read Frame returns a recorded frame's stored bytes. -/
  | readFrame (q : CmdRef) (nsid take spring frame band offset bytes : Nat)
  /-- READ_FRAME_ENTRY (R298): Read Frame Entry returns a frame's manifest entry. -/
  | readFrameEntry (q : CmdRef) (nsid take spring frame ndt : Nat)
  /-- CONTROLLER_ENABLE (R291): Setting CC.EN makes the controller ready. -/
  | controllerEnable (cntl : Nat)
  /-- CONTROLLER_DISABLE (R291): Clearing CC.EN resets the controller. -/
  | controllerDisable (cntl : Nat)
  /-- SHUTDOWN_NOTIFICATION (R291): CC.SHN makes completed writes durable and reports shutdown complete. -/
  | shutdownNotification (cntl : Nat)
  /-- NVM_SUBSYSTEM_RESET (R291): A write of 4E564D65h to NSSR resets every controller. -/
  | nvmSubsystemReset (value : Nat)
  /-- VF_ENABLE_CHANGE (R306): VF Enable or NumVFs changes, and clearing VF Enable resets every VF. -/
  | vfEnableChange (port : Nat) (enable : Bool) (numVfs : Nat)
  /-- FUNCTION_LEVEL_RESET (R315): An FLR fences the function, stops its engine work, ends its tasks and clears its controller. -/
  | functionLevelReset (fn : Nat)
  /-- BUCKET_REFILL (R313): Every 0x4105 phase units each capped function's byte bucket gains its cap. -/
  | bucketRefill
  /-- PROGRAM_HOLD_EXPIRY (R311): A Run Program held for quota beyond 0x4106 completes with Busy. -/
  | programHoldExpiry (q : CmdRef)
  /-- DIRTY_LOG_HARVEST (R320): A write to 0x410E clears and swaps a function's dirty-log bitmaps. -/
  | dirtyLogHarvest (r : DictReq)
  /-- QUIESCE (R321): Operation 1 of 0x4108 stops fetching for a function until it is quiesced. -/
  | quiesce (r : DictReq)
  /-- QUIESCE_RESUME (R321): Operation 2 of 0x4108 resumes a quiesced function. -/
  | quiesceResume (r : DictReq)
  /-- QUIESCE_LIMIT_EXPIRY (R321): The quiesce limit expires with commands running, and fetching resumes. -/
  | quiesceLimitExpiry (fn : Nat)
  /-- STATE_RESTORE (R324): A write to 0x410B restores a saved function state or refuses it. -/
  | stateRestore (r : DictReq)
  /-- UNDEFINED_INSTRUCTION (R339): An undefined instruction word traps with cause 0x01. -/
  | undefinedInstruction (die core : Nat)
  /-- ADD (R338): D := S + T. -/
  | add (die core : Nat)
  /-- SUB (R338): D := S − T. -/
  | sub (die core : Nat)
  /-- AND (R338): D := S AND T. -/
  | and (die core : Nat)
  /-- OR (R338): D := S OR T. -/
  | or (die core : Nat)
  /-- XOR (R338): D := S XOR T. -/
  | xor (die core : Nat)
  /-- ANDN (R338): D := S AND NOT T. -/
  | andn (die core : Nat)
  /-- SLT (R338): Signed less-than compare into D. -/
  | slt (die core : Nat)
  /-- SLTU (R338): Unsigned less-than compare into D. -/
  | sltu (die core : Nat)
  /-- MIN (R338): Signed minimum. -/
  | min (die core : Nat)
  /-- MAX (R338): Signed maximum. -/
  | max (die core : Nat)
  /-- MINU (R338): Unsigned minimum. -/
  | minu (die core : Nat)
  /-- MAXU (R338): Unsigned maximum. -/
  | maxu (die core : Nat)
  /-- NEG (R338): D := −S. -/
  | neg (die core : Nat)
  /-- ABS (R338): D := |S|. -/
  | abs (die core : Nat)
  /-- SLL (R338): Shift left by a register amount. -/
  | sll (die core : Nat)
  /-- SRL (R338): Logical shift right by a register amount. -/
  | srl (die core : Nat)
  /-- SRA (R338): Arithmetic shift right by a register amount. -/
  | sra (die core : Nat)
  /-- SLLI (R338): Shift left by an immediate amount. -/
  | slli (die core : Nat)
  /-- SRLI (R338): Logical shift right by an immediate amount. -/
  | srli (die core : Nat)
  /-- SRAI (R338): Arithmetic shift right by an immediate amount. -/
  | srai (die core : Nat)
  /-- CLZ (R338): Count leading zero bits. -/
  | clz (die core : Nat)
  /-- POPC (R338): Count set bits. -/
  | popc (die core : Nat)
  /-- SEXTB (R338): Sign-extend the low byte. -/
  | sextb (die core : Nat)
  /-- SEXTH (R338): Sign-extend the low halfword. -/
  | sexth (die core : Nat)
  /-- BSWAP (R338): Reverse the bytes of S. -/
  | bswap (die core : Nat)
  /-- PACKL (R338): Pack the low halves of T and S. -/
  | packl (die core : Nat)
  /-- PACKH (R338): Pack the high halves of T and S. -/
  | packh (die core : Nat)
  /-- MUL (R344): Low 32 bits of the signed product. -/
  | mul (die core : Nat)
  /-- MULH (R344): High bits of the signed product. -/
  | mulh (die core : Nat)
  /-- MULHU (R344): High bits of the unsigned product. -/
  | mulhu (die core : Nat)
  /-- MULHSU (R344): High bits of the signed-by-unsigned product. -/
  | mulhsu (die core : Nat)
  /-- DIV (R345): Signed division with defined divide-by-zero results. -/
  | div (die core : Nat)
  /-- DIVU (R345): Unsigned division. -/
  | divu (die core : Nat)
  /-- REM (R345): Signed remainder. -/
  | rem (die core : Nat)
  /-- REMU (R345): Unsigned remainder. -/
  | remu (die core : Nat)
  /-- QMUL (R348): Fixed-point Q31 or packed Q15 multiply with rounding. -/
  | qmul (die core : Nat)
  /-- QRSHR (R348): Rounding arithmetic shift right by a register amount. -/
  | qrshr (die core : Nat)
  /-- QRSHRI (R348): Rounding arithmetic shift right by an immediate amount. -/
  | qrshri (die core : Nat)
  /-- QNARROW (R348): Round and pack two values into 16-bit halves. -/
  | qnarrow (die core : Nat)
  /-- QSAT16 (R348): Limit S to the 16-bit signed range. -/
  | qsat16 (die core : Nat)
  /-- AMUL (R349): Load an accumulator with a product. -/
  | amul (die core : Nat)
  /-- AMAC (R349): Add a product to an accumulator. -/
  | amac (die core : Nat)
  /-- AMSU (R349): Subtract a product from an accumulator. -/
  | amsu (die core : Nat)
  /-- AMACQ (R349): Add twice a product to an accumulator. -/
  | amacq (die core : Nat)
  /-- AMSUQ (R349): Subtract twice a product from an accumulator. -/
  | amsuq (die core : Nat)
  /-- ACLR (R349): Clear an accumulator. -/
  | aclr (die core : Nat)
  /-- ASET (R349): Set an accumulator from T and S. -/
  | aset (die core : Nat)
  /-- AEXT (R349): Extract a rounded, fitted value from an accumulator. -/
  | aext (die core : Nat)
  /-- AGETL (R349): Read accumulator bits [31:0]. -/
  | agetl (die core : Nat)
  /-- AGETH (R349): Read accumulator bits [63:32]. -/
  | ageth (die core : Nat)
  /-- AGETG (R349): Read accumulator guard bits. -/
  | agetg (die core : Nat)
  /-- ADDI (R342): Add a sign-extended immediate. -/
  | addi (die core : Nat)
  /-- ANDI (R342): AND with a zero-extended immediate. -/
  | andi (die core : Nat)
  /-- ORI (R342): OR with a zero-extended immediate. -/
  | ori (die core : Nat)
  /-- XORI (R342): XOR with a zero-extended immediate. -/
  | xori (die core : Nat)
  /-- SLTI (R342): Signed compare with an immediate. -/
  | slti (die core : Nat)
  /-- SLTIU (R342): Unsigned compare with a sign-extended immediate. -/
  | sltiu (die core : Nat)
  /-- LUI (R342): Load an upper immediate. -/
  | lui (die core : Nat)
  /-- LB (R343): Load a sign-extended byte. -/
  | lb (die core : Nat)
  /-- LBU (R343): Load a zero-extended byte. -/
  | lbu (die core : Nat)
  /-- LH (R343): Load a sign-extended halfword. -/
  | lh (die core : Nat)
  /-- LHU (R343): Load a zero-extended halfword. -/
  | lhu (die core : Nat)
  /-- LW (R343): Load a word. -/
  | lw (die core : Nat)
  /-- SB (R343): Store a byte. -/
  | sb (die core : Nat)
  /-- SH (R343): Store a halfword. -/
  | sh (die core : Nat)
  /-- SW (R343): Store a word. -/
  | sw (die core : Nat)
  /-- BEQ (R346): Branch if equal. -/
  | beq (die core : Nat)
  /-- BNE (R346): Branch if not equal. -/
  | bne (die core : Nat)
  /-- BLT (R346): Branch if signed less. -/
  | blt (die core : Nat)
  /-- BGE (R346): Branch if signed greater or equal. -/
  | bge (die core : Nat)
  /-- BLTU (R346): Branch if unsigned less. -/
  | bltu (die core : Nat)
  /-- BGEU (R346): Branch if unsigned greater or equal. -/
  | bgeu (die core : Nat)
  /-- J (R346): Jump relative. -/
  | j (die core : Nat)
  /-- JAL (R346): Jump relative and link into G31. -/
  | jal (die core : Nat)
  /-- JALR (R346): Jump to S + IMM and link into D. -/
  | jalr (die core : Nat)
  /-- B (R369): Selkel-1 conditional branch. -/
  | b (die core : Nat)
  /-- BL (R369): Selkel-1 branch and link into G15. -/
  | bl (die core : Nat)
  /-- BR (R369): Selkel-1 register branch with link. -/
  | br (die core : Nat)
  /-- CRD (R352): Read a control register. -/
  | crd (die core : Nat)
  /-- CWR (R352): Write a control register. -/
  | cwr (die core : Nat)
  /-- CSET (R352): Set bits of a control register. -/
  | cset (die core : Nat)
  /-- CCLR (R352): Clear bits of a control register. -/
  | cclr (die core : Nat)
  /-- TRAP (R352): Software trap with cause 0x09. -/
  | trap (die core : Nat)
  /-- ERET (R352): Return from a trap handler to EPC. -/
  | eret (die core : Nat)
  /-- WAIT (R384): Wait on event flags, or yield the core with mask 0. -/
  | wait (die core : Nat)
  /-- FENCE (R352): Order earlier memory and coprocessor effects before later ones and expose output entries. -/
  | fence (die core : Nat)
  /-- EXIT (R385): End the task with a result word. -/
  | exit (die core : Nat)
  /-- VADD (R401): Vector lane add. -/
  | vadd (die core : Nat)
  /-- VSUB (R401): Vector lane subtract. -/
  | vsub (die core : Nat)
  /-- VAND (R401): Vector bitwise AND. -/
  | vand (die core : Nat)
  /-- VOR (R401): Vector bitwise OR. -/
  | vor (die core : Nat)
  /-- VXOR (R401): Vector bitwise XOR. -/
  | vxor (die core : Nat)
  /-- VMIN (R401): Vector signed minimum. -/
  | vmin (die core : Nat)
  /-- VMAX (R401): Vector signed maximum. -/
  | vmax (die core : Nat)
  /-- VMINU (R401): Vector unsigned minimum. -/
  | vminu (die core : Nat)
  /-- VMAXU (R401): Vector unsigned maximum. -/
  | vmaxu (die core : Nat)
  /-- VNEG (R401): Vector negate. -/
  | vneg (die core : Nat)
  /-- VABS (R401): Vector absolute value. -/
  | vabs (die core : Nat)
  /-- VSLL (R401): Vector shift left by lane. -/
  | vsll (die core : Nat)
  /-- VSRL (R401): Vector logical shift right by lane. -/
  | vsrl (die core : Nat)
  /-- VSRA (R401): Vector arithmetic shift right by lane. -/
  | vsra (die core : Nat)
  /-- VQMUL (R401): Vector fixed-point multiply. -/
  | vqmul (die core : Nat)
  /-- VQRSHR (R401): Vector rounding shift right. -/
  | vqrshr (die core : Nat)
  /-- VCMPEQ (R401): Vector compare equal. -/
  | vcmpeq (die core : Nat)
  /-- VCMPLT (R401): Vector compare signed less. -/
  | vcmplt (die core : Nat)
  /-- VCMPLTU (R401): Vector compare unsigned less. -/
  | vcmpltu (die core : Nat)
  /-- VSEL (R401): Vector bitwise select. -/
  | vsel (die core : Nat)
  /-- VMUL (R401): Vector lane multiply. -/
  | vmul (die core : Nat)
  /-- VPOPC (R401): Vector lane population count. -/
  | vpopc (die core : Nat)
  /-- VMAC (R402): Vector multiply-accumulate. -/
  | vmac (die core : Nat)
  /-- VMSU (R402): Vector multiply-subtract. -/
  | vmsu (die core : Nat)
  /-- VMACQ (R402): Vector multiply-accumulate doubled. -/
  | vmacq (die core : Nat)
  /-- VMULA (R402): Load vector accumulator with products. -/
  | vmula (die core : Nat)
  /-- VACLR (R402): Clear a vector accumulator. -/
  | vaclr (die core : Nat)
  /-- VLD (R403): Load 64 bytes into a vector register. -/
  | vld (die core : Nat)
  /-- VST (R403): Store 64 bytes from a vector register. -/
  | vst (die core : Nat)
  /-- VBCAST (R403): Broadcast a G register into every lane. -/
  | vbcast (die core : Nat)
  /-- VGET (R403): Move a lane into a G register. -/
  | vget (die core : Nat)
  /-- VPUT (R403): Move a G register into a lane. -/
  | vput (die core : Nat)
  /-- VREDADD (R403): Sum the lanes into a G register. -/
  | vredadd (die core : Nat)
  /-- VREDMIN (R403): Minimum lane into a G register. -/
  | vredmin (die core : Nat)
  /-- VREDMAX (R403): Maximum lane into a G register. -/
  | vredmax (die core : Nat)
  /-- VPERM (R403): Byte permute. -/
  | vperm (die core : Nat)
  /-- VZIPL (R403): Interleave the low halves. -/
  | vzipl (die core : Nat)
  /-- VZIPH (R403): Interleave the high halves. -/
  | vziph (die core : Nat)
  /-- VWIDENL (R403): Sign-extend the low half to wider lanes. -/
  | vwidenl (die core : Nat)
  /-- VWIDENH (R403): Sign-extend the high half to wider lanes. -/
  | vwidenh (die core : Nat)
  /-- VACCOUT (R403): Round and fit vector accumulator lanes into a vector. -/
  | vaccout (die core : Nat)
  /-- VACCIN (R403): Load vector accumulator lanes from a vector. -/
  | vaccin (die core : Nat)
  /-- SRCH (R365): Search a 144-bit key with the package cascade. -/
  | srch (die core : Nat)
  /-- SRCH288 (R365): Search a 288-bit key. -/
  | srch288 (die core : Nat)
  /-- SRCH576 (R365): Search a 576-bit key. -/
  | srch576 (die core : Nat)
  /-- SINS (R429): Queue an ordered insertion. -/
  | sins (die core : Nat)
  /-- SPUT (R433): Queue a write at the lowest free address. -/
  | sput (die core : Nat)
  /-- SWR (R432): Write a record at a free address or update a matching entry's data. -/
  | swr (die core : Nat)
  /-- SDEL (R432): Delete a matching entry at an address. -/
  | sdel (die core : Nat)
  /-- SRD (R433): Read an entry record. -/
  | srd (die core : Nat)
  /-- SCLR (R433): Queue invalidation of every entry of a table. -/
  | sclr (die core : Nat)
  /-- SSTAT (R433): Report a table's entries, queue and move state. -/
  | sstat (die core : Nat)
  /-- PGET (R363): Task GET of a pond buffer. -/
  | pget (die core : Nat)
  /-- PADDREF (R363): Task ADDREF of a buffer. -/
  | paddref (die core : Nat)
  /-- PPASS (R363): Task PASS of a buffer. -/
  | ppass (die core : Nat)
  /-- PPUT (R363): Task PUT of a buffer, unmapping it. -/
  | pput (die core : Nat)
  /-- PQUERY (R363): Task QUERY of a handle. -/
  | pquery (die core : Nat)
  /-- PMAP (R377): Map a held buffer into a pond window. -/
  | pmap (die core : Nat)
  /-- PUNMAP (R377): Unmap a pond window after earlier stores arrive. -/
  | punmap (die core : Nat)
  /-- JSUB_CIPHER (R364): Submit a cipher job descriptor. -/
  | jsubCipher (die core : Nat)
  /-- JSUB_DIGEST (R364): Submit a digest job descriptor. -/
  | jsubDigest (die core : Nat)
  /-- JSUB_CODEC (R364): Submit a codec job descriptor. -/
  | jsubCodec (die core : Nat)
  /-- JPOLL (R364): Report the state of a job ticket. -/
  | jpoll (die core : Nat)
  /-- COP3_INSTRUCTION (R367): A major 0x3F instruction traps with cause 0x07 on standard parts. -/
  | cop3Instruction (die core : Nat)
  /-- DISPATCH (R387): The dispatcher places a ready task on a free eligible core. -/
  | dispatch (die : Nat)
  /-- TIME_SLICE_EXPIRY (R388): A compute task that has run a full slice with a waiter returns to its ready list. -/
  | timeSliceExpiry (die core : Nat)
  /-- HELD_POST_LANDS (R389): A post held by a full ready list lands when space frees. -/
  | heldPostLands (die : Nat)
  /-- FILTER_DEADLINE (R393): A filter frame's deadline phase unit begins unretired and the frame misses. -/
  | filterDeadline (die slot : Nat)
  /-- COMPUTE_CORE_FAILURE (R407): A core poisoned or without progress for 1 ms is replaced by a spare or removed. -/
  | computeCoreFailure (die core : Nat)
  /-- TASK_RESET_REGISTER (R385): A write to 0x5100 + d resets a task slot. -/
  | taskResetRegister (r : DictReq)
  /-- CLEAR_DISPATCHER_HISTOGRAMS (R408): A write of 1 to 0x5012 clears histograms and high-water marks. -/
  | clearDispatcherHistograms (r : DictReq)
  /-- CODEC_JOB_COMPLETE (R406): A codec job ends, writes back its status and posts its flag. -/
  | codecJobComplete (die ticket : Nat) (poisoned : Bool)
  /-- CASCADE_KEY (R422): A board-cascade key arrives on CASC_IN and is searched and passed on. -/
  | cascadeKey (issuer width table key : Nat) (carried : Option Nat) (count : Nat)
  /-- CASCADE_IDLE_TOKEN (R423): Die 0 sends an idle token round the ring every 1 µs. -/
  | cascadeIdleToken
  /-- CASCADE_SILENCE_TIMEOUT (R423): 10 µs without ring traffic makes board scope unavailable. -/
  | cascadeSilenceTimeout (conflict : Bool)
  /-- ROW_REWRITE_COMPLETE (R427): A suspect row's rewrite completes, clears it or retires the row. -/
  | rowRewriteComplete (die row : Nat) (agrees poisoned : Bool)
  /-- MAINTENANCE_OPERATION_COMPLETE (R431): A queued table maintenance operation or insertion move ends and posts its flag. -/
  | maintenanceOperationComplete (table : Nat)
  /-- SEARCH_ARRAY_SCRUB (R428): Every 0x7004 epochs the array is compared with its key copies. -/
  | searchArrayScrub (die : Nat) (mismatched : List Nat)
  /-- CLEAR_KEY_SLOT (R449): A write to 0x6007 clears a key slot on the named dies. -/
  | clearKeySlot (r : DictReq)
  /-- REMOVE_STORED_KEY (R451): A write to 0x600E removes a persistent key from the store. -/
  | removeStoredKey (r : DictReq)
  /-- COUNTER_BLOCK_JOURNALLED (R454): A GCM counter block's end becomes durable and encryption may proceed. -/
  | counterBlockJournalled (die slot : Nat)
  /-- CIPHER_URGENCY_EXPIRY (R459): A capture cipher job waits 0x6003 and becomes urgent. -/
  | cipherUrgencyExpiry (die ticket : Nat)
  /-- CIPHER_PREEMPT_AT_BOUNDARY (R459): The victim reaches its 4 KiB boundary, its context is saved and the urgent job starts. -/
  | cipherPreemptAtBoundary (die core : Nat)
  /-- CIPHER_JOB_COMPLETE (R462): A cipher job ends, writes back its status and posts its flag. -/
  | cipherJobComplete (die core : Nat) (poisoned : Bool)
  /-- AES_CORE_TIMEOUT (R463): An AES core without progress for 100 µs or poisoned is removed from service. -/
  | aesCoreTimeout (die core : Nat)
  /-- EMPTY_KEY_STATE_SLOT (R468): A write to 0x6404 empties a key-state slot. -/
  | emptyKeyStateSlot (r : DictReq)
  /-- DIGEST_URGENCY_EXPIRY (R472): A capture digest job waits 0x6402 and becomes urgent. -/
  | digestUrgencyExpiry (die ticket : Nat)
  /-- DIGEST_JOB_COMPLETE (R477): A digest job ends, writes back status and result and posts its flag. -/
  | digestJobComplete (die core : Nat) (poisoned : Bool) (comparators : Option (Bool × Bool × Bool × Bool))
  /-- SHA_CORE_TIMEOUT (R484): A SHA-2 core without progress or poisoned is removed from service. -/
  | shaCoreTimeout (die core : Nat)
  /-- DCTL_START (R479): DCTL START begins a register-interface digest job. -/
  | dctlStart (die set dctl dlen : Nat) (dexp : List Nat)
  /-- DCTL_ABORT (R479): DCTL ABORT ends the job in progress. -/
  | dctlAbort (die set : Nat)
  /-- DDATA_WRITE (R482): A message word is written to DDATA. -/
  | ddataWrite (die set word : Nat)
  /-- DRES_READ (R483): A DRES read returns the digest, or ends the job with 0x0A if early. -/
  | dresRead (die set index : Nat)
  /-- REGISTER_JOB_DONE (R482): A register-interface job finishes and DONE rises. -/
  | registerJobDone (die set : Nat)
  /-- MEASUREMENT_EXTEND (R485): A manager write to 0x640F extends MS8–MS15. -/
  | measurementExtend (r : DictReq)
  /-- REPORT_REQUEST (R490): A write to 0x6409 builds a tagged report of the selected slots. -/
  | reportRequest (r : DictReq)
  /-- LAKE_HEARTBEAT (R500): A Wildela HEARTBEAT updates the member set and leader. -/
  | lakeHeartbeat (h : LakeHdr) (b : HeartbeatBody)
  /-- HEARTBEAT_SEND (R501): A member sends its heartbeat at its grid phase. -/
  | heartbeatSend (k : Nat)
  /-- NODE_LOST (R502): No heartbeat from a node for 0x900A intervals marks it lost. -/
  | nodeLost (node : Nat)
  /-- JOIN_LISTEN_EXPIRY (R503): After 3 intervals of listening the joiner requests or forms the lake. -/
  | joinListenExpiry
  /-- JOIN_REQUEST (R503): The leader checks a joiner and answers. -/
  | joinRequest (h : LakeHdr) (lowLevel highLevel serial gm rate : Nat)
  /-- JOIN_ANSWER (R503): A joiner receives acceptance or refusal. -/
  | joinAnswer (h : LakeHdr) (result runLevel leader generation : Nat) (members : List Nat)
  /-- JOIN_ANSWER_TIMEOUT (R503): No JOIN ANSWER within 1 s refuses the join with 0x0B. -/
  | joinAnswerTimeout
  /-- LEAVE (R504): A LEAVE removes the leaver and ends its peer sessions. -/
  | leave (h : LakeHdr) (cause : Nat)
  /-- LAKE_ACK (R498): An ACK acknowledges a Wildela message. -/
  | lakeAck (h : LakeHdr) (seq status : Nat)
  /-- LAKE_RETRY_EXPIRY (R498): An unacknowledged Wildela message is resent with RETRY. -/
  | lakeRetryExpiry (node seq : Nat)
  /-- LAKE_DICT_REQUEST (R499): A lake peer's dictionary request is executed. -/
  | lakeDictRequest (h : LakeHdr) (body : List Nat)
  /-- LAKE_DICT_RESPONSE (R499): A dictionary response from a peer is delivered. -/
  | lakeDictResponse (h : LakeHdr) (body : List Nat)
  /-- LXN_BEGIN (R507): Command 1 of 0x900D opens a lake transaction. -/
  | lxnBegin (r : DictReq)
  /-- LXN_COMMIT_NEXT (R508): Command 2 of 0x900D commits for the first lake boundary after the lead time. -/
  | lxnCommitNext (r : DictReq)
  /-- LXN_COMMIT_AT_EPOCH (R508): Command 3 of 0x900D commits at the named epoch. -/
  | lxnCommitAtEpoch (r : DictReq)
  /-- LXN_ROLLBACK (R507): Command 4 of 0x900D rolls the lake transaction back. -/
  | lxnRollback (r : DictReq)
  /-- LXN_PREPARE (R509): A participant checks the writes, runs admission and votes. -/
  | lxnPrepare (h : LakeHdr) (ident epoch : Nat) (participants : List Nat) (writes : List LakeWrite)
  /-- LXN_VOTE (R510): The coordinator records a participant's vote. -/
  | lxnVote (h : LakeHdr) (ident vote admission status index sub : Nat)
  /-- LXN_COMMIT (R509): A participant accepts the writes as one commit for E. -/
  | lxnCommit (h : LakeHdr) (ident epoch : Nat)
  /-- LXN_ABORT (R509): A participant releases what it set aside. -/
  | lxnAbort (h : LakeHdr) (ident cause : Nat)
  /-- LXN_QUERY (R509): The coordinator repeats the outcome to a participant. -/
  | lxnQuery (h : LakeHdr) (ident : Nat)
  /-- LXN_VOTE_DEADLINE (R510): At E − 0x900C the coordinator sends COMMIT or ABORT. -/
  | lxnVoteDeadline (ident : Nat)
  /-- LXN_QUERY_DEADLINE (R509): A yes voter without outcome at E − 0x900C/2 sends LXN QUERY. -/
  | lxnQueryDeadline (ident : Nat)
  /-- LXN_OUTCOME_DEADLINE (R509): A yes voter without outcome at E − 4,096 discards its writes. -/
  | lxnOutcomeDeadline (ident : Nat)
  /-- SEARCH_REQUEST (R517): A member searches its package for a lake search and answers. -/
  | searchRequest (h : LakeHdr) (ident table width key : Nat)
  /-- SEARCH_RESULT (R517): The issuer merges a member's answer. -/
  | searchResult (h : LakeHdr) (ident result count status : Nat)
  /-- LAKE_SEARCH_RESEND (R518): At 2 ms the request is resent to silent members. -/
  | lakeSearchResend (ident : Nat)
  /-- LAKE_SEARCH_TIMEOUT (R518): At 4.5 ms a missing answer fails the search. -/
  | lakeSearchTimeout (ident : Nat)
  /-- PART_READY (R514): The anchor records a carrier's ready part. -/
  | partReady (h : LakeHdr) (lakeTake spring frame bands : Nat)
  /-- FRAME_COMMIT (R514): A carrier writes its frame entry for the committed bands. -/
  | frameCommit (h : LakeHdr) (lakeTake spring frame bands : Nat)
  /-- FRAME_COMMIT_TIMEOUT (R514): 0x900B after the first ready part, the anchor commits what is ready. -/
  | frameCommitTimeout (lakeTake spring frame : Nat)
  /-- EVENT_MESSAGE (R499): An EVENT message delivers a routed event to a sink node. -/
  | eventMessage (h : LakeHdr) (body : List Nat)
  /-- DIE_HEARTBEAT (R525): The lead exchanges a heartbeat with every die every 50 µs. -/
  | dieHeartbeat (round : HeartbeatRound)
  /-- DIE_SILENCE_TIMEOUT (R525): 300 µs without traffic from a die fails it. -/
  | dieSilenceTimeout (die : Nat)
  /-- LOCKSTEP_MISMATCH (R526): A die steward halts on a lockstep mismatch. -/
  | lockstepMismatch (die : Nat)
  /-- STEWARD_RESTART_COMPLETE (R526): The restarted die steward resumes and routes held events. -/
  | stewardRestartComplete (die : Nat)
  /-- LEAD_SILENCE_TIMEOUT (R527): The standby hears nothing from the lead for 200 µs and polls the dies. -/
  | leadSilenceTimeout (heardBy : List Nat) (leadHealthy : Bool) (takeoverUs : Nat)
  /-- STANDBY_SYNC_COMPLETE (R527): The new standby holds a full journal copy and EV P.34 is raised. -/
  | standbySyncComplete
  /-- PACKAGE_SOFT_RESET (R531): 0x534F_4654 in 0xA001 resets the package once no take is open. -/
  | packageSoftReset (r : DictReq)
  /-- PACKAGE_SOFT_RESET_FORCED (R531): 0x534F_4655 in 0xA001 aborts or closes takes and resets the package. -/
  | packageSoftResetForced (r : DictReq)
  /-- DIE_RESET (R532): A write to 0xA002 or lead recovery resets one die. -/
  | dieReset (r : DictReq)
  /-- DIE_RESET_TIMEOUT (R532): A die not answering 4 s after its reset is failed. -/
  | dieResetTimeout (die : Nat)
  /-- CIPHER_ENGINE_RESET (R532): Engine code 1 of 0xA003 resets the cipher engine. -/
  | cipherEngineReset (r : DictReq)
  /-- DIGEST_ENGINE_RESET (R532): Engine code 2 of 0xA003 resets the digest engine. -/
  | digestEngineReset (r : DictReq)
  /-- CODEC_ENGINE_RESET (R532): Engine code 3 of 0xA003 resets the codec. -/
  | codecEngineReset (r : DictReq)
  /-- SEARCH_ENGINE_RESET (R532): Engine code 4 of 0xA003 resets the search unit. -/
  | searchEngineReset (r : DictReq)
  /-- ENGINE_STALL_TIMEOUT (R532): An engine scheduler without progress for 1 ms is reset by the die steward. -/
  | engineStallTimeout (die engine : Nat)
  /-- EMERGENCY_REPEAT_EXPIRY (R537): The repeat interval ends and one CAN emergency frame carries the counted repeats. -/
  | emergencyRepeatExpiry (event : Nat)
  /-- CLEAR_EVENT_LOG (R538): A write of 1 to 0xA005 empties the event log. -/
  | clearEventLog (r : DictReq)
  /-- ACKNOWLEDGE_EVENTS (R544): A write of 1 to 0xA00E acknowledges earlier events for FAULT_N. -/
  | acknowledgeEvents (r : DictReq)
  /-- SCRUB_WINDOW_START (R542): The scrub window opens and the steward scrubs SRAM and DRAM. -/
  | scrubWindowStart (die : Nat) (found : ScrubFindings)
  /-- HOUSEKEEPING_ROUND (R551): An 8 ms housekeeping round completes and is evaluated. -/
  | housekeepingRound (die : Nat) (round : Round)
  /-- HOUSEKEEPING_READOUT (R551): At the readout phase the objects, history and SMART figures are updated. -/
  | housekeepingReadout (die : Nat)
  /-- GRACE_EXPIRY (R557): The grace time expires and enforcement begins or waits for takes. -/
  | graceExpiry
  /-- TRIP_CHECK (R562): Every 64 µs the trip comparators are checked. -/
  | tripCheck (die : Nat) (readings : List Int)
  /-- DOMAIN_WAKE_COMPLETE (R546): A switched-on domain becomes usable after its wake latency. -/
  | domainWakeComplete (die domain wakeUs : Nat)
  /-- POWER_ON (R530): Supplies ramp and every volatile state is cleared. -/
  | powerOn
  /-- AON_POWER_FAIL (R562): VDD_AON falls below its power-on threshold and clears the trip latch. -/
  | aonPowerFail
  /-- PORST_N_ASSERT (R567): PORST_N asserted for 10 µs resets the package. -/
  | porstNAssert (lowNs : Nat)
  /-- PORST_N_RELEASE (R572): PORST_N release starts the boot ROM, which samples the straps and extends MS0. -/
  | porstNRelease (gpio : Nat)
  /-- FIRST_STAGE_LOADED (R572): The first stage is loaded and verified, and it loads the firmware. -/
  | firstStageLoaded (image : BootImages)
  /-- DICTIONARY_READY (R572): The lead answers the dictionary and sends its first heartbeat. -/
  | dictionaryReady (ms : Nat)
  /-- FIRMWARE_VERIFIED (R572): The firmware body is verified, MS2 extended and the die section distributed. -/
  | firmwareVerified (bodyOk : Bool)
  /-- DRAM_TRAINING_COMPLETE (R572): A die's DRAM training ends, or fails it. -/
  | dramTrainingComplete (die : Nat) (trained : Bool) (ms gib rate : Nat)
  /-- FLASH_DISCOVERY_COMPLETE (R256): A die's flash discovery ends and its population is judged. -/
  | flashDiscoveryComplete (die : Nat) (population : Population)
  /-- DIE_SECTION_TIMEOUT (R573): A die that runs no die section within 100 ms is failed. -/
  | dieSectionTimeout (die : Nat)
  /-- MAP_RESTORE_COMPLETE (R575): A die finishes loading its checkpoint and replaying its journal. -/
  | mapRestoreComplete (die marker readable ms : Nat) (powerOff : Nat)
  /-- DEVICE_READY (R572): Keys are reloaded, pending values applied, takes sealed, and the device becomes ready. -/
  | deviceReady (ms : Nat)
  /-- IDCODE (R590): JTAG IDCODE selects the identification register. -/
  | idcode (die : Nat)
  /-- BYPASS (R590): JTAG BYPASS selects the 1-bit register. -/
  | bypass (die opcode : Nat)
  /-- SAMPLE_PRELOAD (R590): JTAG SAMPLE/PRELOAD selects the boundary register. -/
  | samplePreload (die : Nat)
  /-- EXTEST (R590): JTAG EXTEST drives the boundary balls while PORST_N is asserted. -/
  | extest (die : Nat)
  /-- BOOTSTAT (R590): JTAG BOOTSTAT selects the boot status register. -/
  | bootstat (die : Nat)
  /-- PLW_N_RELEASE (R240): PLW_N is released during or after the power-loss commit, and the device completes the commit and then brings itself up as after a power loss. -/
  | plwNRelease
  /-- MEDIA_CORE_FAILURE (R523): A media core delivers a poisoned word or makes no progress for 1 ms with work pending, and the spare media core takes its number or the die runs on three cores at a 3/4 ceiling. -/
  | mediaCoreFailure (die core : Nat)
  /-- DIE_LINK_FAILURE (R17): A die link or bridge link fails, traffic reroutes through the lowest-numbered healthy die of the quad, and EV d.003 is raised. -/
  | dieLinkFailure (dieA dieB : Nat)
  /-- ETHERNET_LINK_UP (R493): A lake lane's Ethernet link comes up after auto-negotiation and training, and it becomes usable for heartbeats and unicast messages. -/
  | ethernetLinkUp (die lane : Nat)
  /-- ETHERNET_LINK_DOWN (R494): A lake lane's Ethernet link goes down, and unicast traffic moves to the next lake lane whose link is up. -/
  | ethernetLinkDown (die lane : Nat)
  /-- FUNCTION_LEVEL_RESET_COMPLETE (R315): Step 7 of an FLR is reached, configuration requests stop answering CRS, and EV d.080 is raised. -/
  | functionLevelResetComplete (fn durationUs : Nat)
  /-- CONFIGURATION_REQUEST (R572): A PCIe configuration request reaches a port and is answered with Configuration Request Retry Status during bring-up or an FLR, or served from configuration space otherwise. -/
  | configurationRequest (fn : Nat)
  /-- FRAME_COMPLETION_TIMEOUT (R152): The band-end timeout has elapsed since a frame's marker, or since its first band-start cell, and the frame completes with its missing bands. -/
  | frameCompletionTimeout (spring frame : Nat)
  /-- DIGEST_BLOCK_COMPRESSED (R482): The block compression of a register-interface digest job ends and BUSY falls. -/
  | digestBlockCompressed (die set : Nat)
  /-- ENTRY_MOVE (R430): One entry of an ordered insertion's move is written at its new address and its old row is invalidated, between two search cycles. -/
  | entryMove (table : Nat)
deriving DecidableEq, Repr

end Sys2Proof
end

