-- ==== Sys2Proof/Decode.lean ====
section
/-!
DEFINITION. The command that a word of the command table spells. No row of the table gives bits (every row's field list is
empty), so no word spells a command.
-/

namespace Sys2Proof

/-- The command that `nbits` bits spell by the table: none, because the table gives no row any bits. -/
def decodeTableWord (_nbits _w : Nat) : Option Instr := none

end Sys2Proof
end

