-- ==== Sys2Proof/Machine/Data.lean ====
section
/-!
DEFINITION. Sparse tables, bytes and numbers, and the circle of epoch numbers: what every meaning is written with that is no State.
-/

namespace Sys2Proof.Machine

/-! ### Sparse tables -/

/-- The value at a key. -/
def tget {α : Type} : Tab α → Nat → Option α
  | [], _ => none
  | (k', v) :: t, k => if k' = k then some v else tget t k

/-- The table with a value at a key, keys kept strictly rising. -/
def tset {α : Type} : Tab α → Nat → α → Tab α
  | [], k, v => [(k, v)]
  | (k', v') :: t, k, v =>
    if k < k' then (k, v) :: (k', v') :: t
    else if k = k' then (k, v) :: t
    else (k', v') :: tset t k v

/-- The table without a key. -/
def tdel {α : Type} (t : Tab α) (k : Nat) : Tab α := t.filter (fun e => e.1 ≠ k)

/-- The table with the value at a key changed, where it has one. -/
def tmod {α : Type} (t : Tab α) (k : Nat) (f : α → α) : Tab α :=
  match tget t k with
  | none => t
  | some v => tset t k (f v)

/-- The value at a key, or a default. -/
def tgetD {α : Type} (t : Tab α) (k : Nat) (d : α) : α := (tget t k).getD d

/-! ### Bytes and numbers -/

/-- n bytes of a number, little-endian (R61). -/
def leBytes : Nat → Nat → List Nat
  | 0, _ => []
  | n + 1, v => v % 256 :: leBytes n (v / 256)

/-- The number that little-endian bytes hold. -/
def ofLe : List Nat → Nat
  | [] => 0
  | b :: t => b + 256 * ofLe t

/-- n bytes of a number, big-endian. -/
def beBytes (n v : Nat) : List Nat := (leBytes n v).reverse

/-- The number that big-endian bytes hold. -/
def ofBe (l : List Nat) : Nat := ofLe l.reverse

/-- n zero bytes. -/
def zeros (n : Nat) : List Nat := List.replicate n 0

/-- A list cut or filled with zeros to n entries. -/
def fit (n : Nat) (l : List Nat) : List Nat := l.take n ++ zeros (n - l.length)

/-- Bytes `from` to `from + n - 1` of a list, zero past its end. -/
def slice (start n : Nat) (l : List Nat) : List Nat := fit n (l.drop start)

/-- The little-endian field of n bytes at an offset. -/
def field (l : List Nat) (start n : Nat) : Nat := ofLe (slice start n l)

/-- Two's complement of a number in so many bits. -/
def twos (bits : Nat) (i : Int) : Nat := (i % (2 ^ bits : Int)).toNat

/-- The signed value that so many bits hold. -/
def signed (bits n : Nat) : Int :=
  let m := n % 2 ^ bits
  if m < 2 ^ (bits - 1) then m else (m : Int) - 2 ^ bits

/-- The nearest value between lo and hi (R63). -/
def clampNat (lo hi v : Nat) : Nat := if v < lo then lo else if hi < v then hi else v

/-- The nearest integer between lo and hi. -/
def clampInt (lo hi v : Int) : Int := if v < lo then lo else if hi < v then hi else v

/-- a divided by b, rounded up. -/
def ceilDiv (a b : Nat) : Nat := (a + b - 1) / b

/-- The number whose lanes of w bits are given. -/
def ofLanes (w : Nat) : List Nat → Nat
  | [] => 0
  | l :: rest => l % 2 ^ w + 2 ^ w * ofLanes w rest

/-- Bit k of a number. -/
def bitOf (n k : Nat) : Bool := n / 2 ^ k % 2 = 1

/-- A number with bit k set. -/
def setBit (n k : Nat) : Nat := if bitOf n k then n else n + 2 ^ k

/-- A number with bit k clear. -/
def clearBit (n k : Nat) : Nat := if bitOf n k then n - 2 ^ k else n

/-- 1 for true. -/
def b2n (b : Bool) : Nat := if b then 1 else 0

/-- The positions of the bits set among the low n bits, rising. -/
def bitsOf (n v : Nat) : List Nat := (List.range n).filter (bitOf v)

/-- The number whose set bits are listed. -/
def ofBits (l : List Nat) : Nat := l.foldl setBit 0

/-- The ASCII bytes of a text. -/
def ascii (t : String) : List Nat := t.toList.map Char.toNat

/-- Sum of a list. -/
def sum (l : List Nat) : Nat := l.foldl (· + ·) 0

/-- n mod 2^48, the circle of epoch numbers (R36). -/
def wrap48 (n : Nat) : Nat := n % 2 ^ 48

/-- How many epochs N lies ahead of C on the circle of R36; 2^47 or more means that it lies in the past. -/
def aheadOf (n c : Nat) : Nat := (n + 2 ^ 48 - c % 2 ^ 48) % 2 ^ 48

/-- N lies in the future of C on the circle of R36. -/
def isAhead (n c : Nat) : Bool := 1 ≤ aheadOf n c && aheadOf n c < 2 ^ 47

/-- N is C or lies ahead of it. -/
def atOrAhead (n c : Nat) : Bool := aheadOf n c < 2 ^ 47

/-- An instant a, an epoch number followed by a phase, lies before b: the comparison of R36 on the circle of such instants. -/
def isBefore (a b : Nat) : Bool :=
  let k := (b + 2 ^ 64 - a % 2 ^ 64) % 2 ^ 64
  1 ≤ k && k < 2 ^ 63

/-- Bytes with others written over them from an offset on. -/
def patch (l : List Nat) (off : Nat) (b : List Nat) : List Nat := l.take off ++ b ++ l.drop (off + b.length)

/-- A record of n bytes, zero but for the fields given as offset, size and value (little-endian). -/
def record (n : Nat) (fields : List (Nat × Nat × Nat)) : List Nat :=
  fields.foldl (fun l f => patch l f.1 (leBytes f.2.1 f.2.2)) (zeros n)

end Sys2Proof.Machine
end

