-- ==== Sys2Proof/Machine/Crypto.lean ====
section
/-!
DEFINITION. The checks and cryptographic functions that the spec names by their public standards: the link's CRC-16
(R102), CRC-32C, the CRC-64 of the granule tag (R26), SHA-256, SHA-384 and SHA-512, HMAC, and AES with the XTS,
CTR, GCM and key-wrap modes. Bytes are numbers below 256.
-/

namespace Sys2Proof.Machine

/-! ### CRCs -/

/-- One bit step of a CRC that shifts left. -/
def crcLeftBit (width poly : Nat) (c : Nat) : Nat :=
  if c / 2 ^ (width - 1) % 2 = 1 then Nat.xor (c * 2 % 2 ^ width) poly else c * 2 % 2 ^ width

/-- The CRC-16 of R102: x^16 + x^12 + x^5 + 1, initial value 0xFFFF, no reflection, no final inversion. -/
def crc16 (l : List Nat) : Nat :=
  l.foldl (fun c b => (List.range 8).foldl (fun c _ => crcLeftBit 16 0x1021 c) (Nat.xor c (b * 256))) 0xFFFF

/-- One bit step of a reflected CRC. -/
def crcRightBit (poly : Nat) (c : Nat) : Nat := if c % 2 = 1 then Nat.xor (c / 2) poly else c / 2

/-- A reflected CRC with all-ones initial value and final inversion. -/
def crcReflected (ones poly : Nat) (l : List Nat) : Nat :=
  Nat.xor (l.foldl (fun c b => (List.range 8).foldl (fun c _ => crcRightBit poly c) (Nat.xor c b)) ones) ones

/-- CRC-32C. -/
def crc32c (l : List Nat) : Nat := crcReflected 0xFFFFFFFF 0x82F63B78 l

/-- The 64-bit guard CRC of the NVM Command Set Specification (R26). -/
def crc64 (l : List Nat) : Nat := crcReflected 0xFFFFFFFFFFFFFFFF 0x9A6C9329AC4BC9B5 l

/-! ### SHA-2 -/

/-- The numbers from which SHA-2 takes its constants: the first 80 primes. -/
def shaPrimes : List Nat := (List.range 410).filter fun n => 2 ≤ n && (List.range n).all fun d => d < 2 || n % d ≠ 0

/-- The integer k-th root of a number, bit by bit. -/
def intRoot (k x : Nat) : Nat := (List.range 72).reverse.foldl (fun r i => if (r + 2 ^ i) ^ k ≤ x then r + 2 ^ i else r) 0

/-- The first w bits of the fractional part of the k-th root of a prime. -/
def rootBits (k w p : Nat) : Nat := intRoot k (p * 2 ^ (k * w)) % 2 ^ w

/-- A hash of the SHA-2 family: bits of its word, its round constants, its initial value, its digest bytes, and the amounts of its four word functions:
two of three rotations, two of two rotations and a shift. -/
structure ShaAlg where
  w : Nat
  consts : List Nat
  init : List Nat
  out : Nat
  turns : List (List Nat)
  shifts : List (Nat × List Nat)

/-- The round constants for 32-bit and for 64-bit words: cube roots. -/
def shaConsts32 : List Nat := (shaPrimes.take 64).map (rootBits 3 32)
def shaConsts64 : List Nat := shaPrimes.map (rootBits 3 64)

/-- SHA-256; its initial value comes from the square roots of the first eight primes. -/
def sha256A : ShaAlg :=
  ⟨32, shaConsts32, (shaPrimes.take 8).map (rootBits 2 32), 32, [[2, 13, 22], [6, 11, 25]], [(3, [7, 18]), (10, [17, 19])]⟩

/-- SHA-512, and SHA-384, whose initial value comes from the next eight primes. -/
def sha512A : ShaAlg :=
  ⟨64, shaConsts64, (shaPrimes.take 8).map (rootBits 2 64), 64, [[28, 34, 39], [14, 18, 41]], [(7, [1, 8]), (6, [19, 61])]⟩
def sha384A : ShaAlg := { sha512A with init := ((shaPrimes.drop 8).take 8).map (rootBits 2 64), out := 48 }

/-- Bytes of a block. -/
def ShaAlg.block (a : ShaAlg) : Nat := 2 * a.w

/-- The exclusive or of a word turned right by each of some amounts. -/
def ShaAlg.turned (a : ShaAlg) (amounts : List Nat) (x : Nat) : Nat :=
  (amounts.map fun n => (x + x * 2 ^ a.w) / 2 ^ n % 2 ^ a.w).foldl Nat.xor 0

/-- The k-th word function with rotations alone, and the k-th with a shift. -/
def ShaAlg.sum (a : ShaAlg) (k x : Nat) : Nat := a.turned (a.turns.getD k []) x
def ShaAlg.sigma (a : ShaAlg) (k x : Nat) : Nat :=
  let s := a.shifts.getD k (0, [])
  Nat.xor (x / 2 ^ s.1) (a.turned s.2 x)

/-- The message words of a block, newest first, after so many more steps of the schedule. -/
def ShaAlg.schedule (a : ShaAlg) : Nat → List Nat → List Nat
  | 0, l => l
  | n + 1, l =>
    a.schedule n ((a.sigma 1 (l.getD 1 0) + l.getD 6 0 + a.sigma 0 (l.getD 14 0) + l.getD 15 0) % 2 ^ a.w :: l)

/-- One round. The eight variables are two runs of four, newest first: each round adds a value to each run and drops its oldest. -/
def ShaAlg.round (a : ShaAlg) (v : List Nat × List Nat) (wk : Nat) : List Nat × List Nat :=
  let x := fun k => v.1.getD k 0
  let y := fun k => v.2.getD k 0
  let choice := Nat.xor (y 2) (Nat.land (y 0) (Nat.xor (y 1) (y 2)))
  let vote := Nat.lor (Nat.land (x 0) (x 1)) (Nat.land (x 2) (Nat.lor (x 0) (x 1)))
  let t := y 3 + a.sum 1 (y 0) + choice + wk
  ((t + a.sum 0 (x 0) + vote) % 2 ^ a.w :: v.1.take 3, (x 3 + t) % 2 ^ a.w :: v.2.take 3)

/-- The hash value after one block. -/
def ShaAlg.compress (a : ShaAlg) (h block : List Nat) : List Nat :=
  let n := a.w / 8
  let first := ((List.range 16).map fun i => ofBe (slice (n * i) n block)).reverse
  let words := (a.schedule (a.consts.length - 16) first).reverse
  let v := (words.zip a.consts).foldl (fun v x => a.round v (x.1 + x.2)) (h.take 4, h.drop 4)
  (h.zip (v.1 ++ v.2)).map fun x => (x.1 + x.2) % 2 ^ a.w

/-- The hash value after so many whole blocks. -/
def ShaAlg.absorb (a : ShaAlg) : Nat → List Nat → List Nat → List Nat
  | 0, h, _ => h
  | n + 1, h, l => a.absorb n (a.compress h (l.take a.block)) (l.drop a.block)

/-- The hash value as bytes. -/
def ShaAlg.bytes (a : ShaAlg) (h : List Nat) : List Nat := h.flatMap (beBytes (a.w / 8))

/-- The digest of a message whose first `prior` bytes, whole blocks, have been absorbed into a hash value: the rest is filled up with 80h, zeros and
the bit length. -/
def ShaAlg.finish (a : ShaAlg) (h : List Nat) (prior : Nat) (l : List Nat) : List Nat :=
  let tail := a.w / 4
  let blocks := ceilDiv (l.length + 1 + tail) a.block
  let m := l ++ 0x80 :: zeros (blocks * a.block - l.length - 1 - tail) ++ beBytes tail (8 * (prior + l.length))
  (a.bytes (a.absorb blocks h m)).take a.out

/-- The digest of a message. -/
def ShaAlg.hash (a : ShaAlg) (l : List Nat) : List Nat := a.finish a.init 0 l

/-- SHA-256, SHA-384 and SHA-512. -/
def sha256 (l : List Nat) : List Nat := sha256A.hash l
def sha384 (l : List Nat) : List Nat := sha384A.hash l
def sha512 (l : List Nat) : List Nat := sha512A.hash l

/-- The key block of HMAC, combined with a pad byte. -/
def ShaAlg.keyBlock (a : ShaAlg) (pad : Nat) (key : List Nat) : List Nat :=
  (fit a.block (if a.block < key.length then a.hash key else key)).map (Nat.xor pad)

/-- HMAC. -/
def ShaAlg.hmac (a : ShaAlg) (key msg : List Nat) : List Nat :=
  a.hash (a.keyBlock 0x5C key ++ a.hash (a.keyBlock 0x36 key ++ msg))

/-- HMAC-SHA-256, HMAC-SHA-384 and HMAC-SHA-512. -/
def hmac256 (key msg : List Nat) : List Nat := sha256A.hmac key msg
def hmac384 (key msg : List Nat) : List Nat := sha384A.hmac key msg
def hmac512 (key msg : List Nat) : List Nat := sha512A.hmac key msg

/-! ### AES-128 and AES-256 -/

/-- The substitution box of AES and its inverse: the byte of x stands at bits 8x + 7 to 8x of the number. -/
def aesBox : Nat :=
  0x16bb54b00f2d99416842e6bf0d89a18cdf2855cee9871e9b948ed9691198f8e19e1dc186b95735610ef6034866b53e708a8bbd4b1f74dde8c6b4a61c2e2578ba08ae7a65eaf4566ca94ed58d6d37c8e779e4959162acd3c25c2406490a3a32e0db0b5ede14b8ee4688902a22dc4f816073195d643d7ea7c41744975fec130ccdd2f3ff1021dab6bcf5389d928f40a351a89f3c507f02f94585334d43fbaaefd0cf584c4a39becb6a5bb1fc20ed00d153842fe329b3d63b52a05a6e1b1a2c830975b227ebe28012079a059618c323c7041531d871f1e5a534ccf73f362693fdb7c072a49cafa2d4adf04759fa7dc982ca76abd7fe2b670130c56f6bf27b777c63
def aesBoxInv : Nat :=
  0x7d0c2155631469e126d677ba7e042b17619953833cbbebc8b0f52aae4d3be0a0ef9cc9939f7ae52d0d4ab519a97f51605fec8027591012b131c7078833a8dd1ff45acd78fec0db9a2079d2c64b3e56fc1bbe18aa0e62b76f89c5291d711af1476edf751ce837f9e28535ade72274ac9673e6b4f0cecff297eadc674f4111913a6b8a130103bdafc1020f3fca8f1e2cd00645b3b80558e4f70ad3bc8c00abd890849d8da75746155edab9edfd5048706c92b6655dcc5ca4d41698688664f6f87225d18b6d49a25b76b224d92866a12e084ec3fa420b954cee3d23c2a632947b54cbe9dec444438e3487ff2f9b8239e37cfbd7f3819ea340bf38a53630d56a0952

/-- The bytes of a list put through a substitution box. -/
def subBytes (box : Nat) (l : List Nat) : List Nat := l.map fun b => box / 2 ^ (8 * b) % 256

/-- Multiplication by x in GF(2^8). -/
def xtime (a : Nat) : Nat := if 128 ≤ a then Nat.xor (a * 2 % 256) 0x1B else a * 2

/-- Multiplication in GF(2^8) by a constant below 16. -/
def gmul (a c : Nat) : Nat :=
  let a2 := xtime a
  let a4 := xtime a2
  let a8 := xtime a4
  Nat.xor (Nat.xor (if c % 2 = 1 then a else 0) (if c / 2 % 2 = 1 then a2 else 0))
    (Nat.xor (if c / 4 % 2 = 1 then a4 else 0) (if c / 8 % 2 = 1 then a8 else 0))

/-- Two byte lists combined by exclusive or. -/
def xorBytes (a b : List Nat) : List Nat := (a.zip b).map fun x => Nat.xor x.1 x.2

/-- Word i of the key schedule of a key of n words: the word before it and the word n before it. -/
def keyWord (n i rcon : Nat) (prev old : List Nat) : List Nat :=
  let t :=
    if i % n = 0 then
      (match subBytes aesBox (prev.drop 1 ++ prev.take 1) with
       | b :: r => Nat.xor b rcon :: r
       | [] => [])
    else if 6 < n ∧ i % n = 4 then subBytes aesBox prev
    else prev
  xorBytes t old

/-- So many more words of the key schedule, newest first. -/
def keyWords (n : Nat) : Nat → Nat → Nat → List (List Nat) → List (List Nat)
  | 0, _, _, ws => ws
  | k + 1, i, rcon, ws =>
    keyWords n k (i + 1) (if i % n = 0 then xtime rcon else rcon) (keyWord n i rcon (ws.headD []) (ws.getD (n - 1) []) :: ws)

/-- The round keys: 11 for a key of 16 bytes, 15 for one of 32. -/
def aesKeys (key : List Nat) : List (List Nat) :=
  let n := max 4 (key.length / 4)
  let first := ((List.range n).map fun i => slice (4 * i) 4 key).reverse
  let words := (keyWords n (4 * (n + 7) - n) n 1 first).reverse
  (List.range (n + 7)).map fun r => (words.drop (4 * r)).take 4 |>.flatten

/-- The rows of a block of 16 bytes in column order turned left by 0 to 3 bytes, and turned back. -/
def shiftRows (l : List Nat) : List Nat :=
  (List.range 16).map fun i => l.getD ((i + 4 * (i % 4)) % 16) 0
def invShiftRows (l : List Nat) : List Nat :=
  (List.range 16).map fun i => l.getD ((i + 16 - 4 * (i % 4)) % 16) 0

/-- Each column multiplied by the circulant of four constants. -/
def mixWith (c : List Nat) (l : List Nat) : List Nat :=
  (List.range 16).map fun i =>
    (List.range 4).foldl (fun a k => Nat.xor a (gmul (l.getD (i / 4 * 4 + k) 0) (c.getD ((k + 4 - i % 4) % 4) 0))) 0

/-- AES encryption of one block. -/
def aesEncrypt (key block : List Nat) : List Nat :=
  match aesKeys key with
  | [] => block
  | k0 :: ks =>
    let mid := ks.dropLast.foldl (fun st k => xorBytes (mixWith [2, 3, 1, 1] (shiftRows (subBytes aesBox st))) k) (xorBytes block k0)
    xorBytes (shiftRows (subBytes aesBox mid)) (ks.getLastD [])

/-- AES decryption of one block. -/
def aesDecrypt (key block : List Nat) : List Nat :=
  match (aesKeys key).reverse with
  | [] => block
  | k0 :: ks =>
    let back := fun st => subBytes aesBoxInv (invShiftRows st)
    let mid := ks.dropLast.foldl (fun st k => mixWith [14, 11, 13, 9] (xorBytes (back st) k)) (xorBytes block k0)
    xorBytes (back mid) (ks.getLastD [])

/-- The blocks of 16 bytes of a message, the last one short if need be. -/
def blocks16 (l : List Nat) : List (List Nat) :=
  (List.range (ceilDiv l.length 16)).map fun i => (l.drop (16 * i)).take 16

/-- AES in counter mode: the low `bits` bits of the big-endian counter block count up by one a block. -/
def aesCtr (bits : Nat) (key ctr data : List Nat) : List Nat :=
  let c := ofBe ctr
  (blocks16 data).zipIdx.flatMap fun x =>
    xorBytes x.1 (aesEncrypt key (beBytes 16 (c / 2 ^ bits * 2 ^ bits + (c + x.2) % 2 ^ bits)))

/-- Multiplication by x in the field of GCM, bit 0 being the most significant. -/
def ghashHalf (v : Nat) : Nat := if v % 2 = 1 then Nat.xor (v / 2) (0xE1 * 2 ^ 120) else v / 2

/-- Multiplication in the field of GCM. -/
def ghashMul (x y : Nat) : Nat :=
  ((List.range 128).foldl (fun (zv : Nat × Nat) i =>
    (if x / 2 ^ (127 - i) % 2 = 1 then Nat.xor zv.1 zv.2 else zv.1, ghashHalf zv.2)) (0, y)).1

/-- GHASH over blocks. -/
def ghash (h : Nat) (l : List Nat) : Nat :=
  (blocks16 l).foldl (fun y b => ghashMul (Nat.xor y (ofBe (fit 16 b))) h) 0

/-- A list filled with zeros to a multiple of 16. -/
def pad16 (l : List Nat) : List Nat := l ++ zeros (ceilDiv l.length 16 * 16 - l.length)

/-- The AES-GCM tag over additional data and ciphertext, for a 96-bit nonce. -/
def gcmTag (key nonce aad cipher : List Nat) : List Nat :=
  let h := ofBe (aesEncrypt key (zeros 16))
  let s := ghash h (pad16 aad ++ pad16 cipher ++ beBytes 8 (8 * aad.length) ++ beBytes 8 (8 * cipher.length))
  xorBytes (beBytes 16 s) (aesEncrypt key (nonce ++ [0, 0, 0, 1]))

/-- AES-GCM encryption or decryption of the data, for a 96-bit nonce. -/
def gcmCrypt (key nonce data : List Nat) : List Nat := aesCtr 32 key (nonce ++ [0, 0, 0, 2]) data

/-- The XTS tweak times x: a shift through 16 little-endian bytes. -/
def xtsNext (t : List Nat) : List Nat :=
  let v := 2 * ofLe t
  leBytes 16 (if 2 ^ 128 ≤ v then Nat.xor (v % 2 ^ 128) 0x87 else v)

/-- The tweaks of successive blocks. -/
def xtsTweaks : Nat → List Nat → List (List Nat)
  | 0, _ => []
  | n + 1, t => t :: xtsTweaks n (xtsNext t)

/-- AES-XTS over whole blocks of a data unit; `unit` is the data unit number. -/
def aesXts (decrypt : Bool) (key1 key2 : List Nat) (unit : Nat) (data : List Nat) : List Nat :=
  let bs := blocks16 data
  let t0 := aesEncrypt key2 (leBytes 16 unit)
  (bs.zip (xtsTweaks bs.length t0)).flatMap fun x =>
    xorBytes ((if decrypt then aesDecrypt else aesEncrypt) key1 (xorBytes x.1 x.2)) x.2

/-- One step of the key-unwrap function of SP 800-38F: the register A and the blocks R, for step t. -/
def unwrapStep (kek : List Nat) (n : Nat) (st : List Nat × List (List Nat)) (t : Nat) : List Nat × List (List Nat) :=
  let i := (t - 1) % n
  let b := aesDecrypt kek (xorBytes st.1 (beBytes 8 t) ++ st.2.getD i [])
  (b.take 8, st.2.set i (b.drop 8))

/-- Key unwrap with padding (RFC 5649, SP 800-38F KWP): the plaintext, or none when the check fails. -/
def kwpUnwrap (kek wrapped : List Nat) : Option (List Nat) :=
  let n := wrapped.length / 8 - 1
  if wrapped.length % 8 ≠ 0 ∨ wrapped.length < 16 then none
  else
    let r :=
      if n = 1 then
        let b := aesDecrypt kek wrapped
        (b.take 8, [b.drop 8])
      else
        ((List.range (6 * n)).map fun k => 6 * n - k).foldl (unwrapStep kek n)
          (wrapped.take 8, (List.range n).map fun i => slice (8 * (i + 1)) 8 wrapped)
    let plain := r.2.flatMap id
    let len := ofBe (r.1.drop 4)
    if r.1.take 4 = [0xA6, 0x59, 0x59, 0xA6] ∧ 8 * (n - 1) < len ∧ len ≤ 8 * n ∧
        (plain.drop len).all (· = 0) then some (plain.take len)
    else none

end Sys2Proof.Machine
end

