-- ==== Sys2Proof/Config.lean ====
section
/-!
DEFINITION. What one part fixes and what the spec leaves open: constants with no body, so that nothing in Lean can
evaluate one or prove a value of one. A statement that mentions the machine holds for EVERY value of these.
-/

namespace Sys2Proof

/-- The free value: the n-th value that the spec leaves open (a result it does not state, an instant it only bounds).
The state holds the counter; every use advances it. -/
opaque Config.free : Nat → Nat

/-- The package serial number of 0x1000:06, fused at package test (R599). -/
opaque Config.packageSerial : Nat

/-- Die d's own serial number, 0x1080 + d:01 (R599). -/
opaque Config.dieSerial : Nat → Nat

/-- The firmware version word of 0x1000:07, "per image" (R93). -/
opaque Config.firmwareVersion : Nat

/-- SHA-384 of the boot ROM contents in the TYPE 1 boot record (R570). -/
opaque Config.romDigest : Nat → BitVec 8

/-- The boot ROM revision of the TYPE 1 boot record (R570). -/
opaque Config.romRevision : Nat

/-- The factory trim of a temperature sensor, by 12 × die + sensor (0x81A0 + d). -/
opaque Config.sensorTrim : Nat → BitVec 32

/-- Whether a pond buffer in DRAM touches a region of its die (R524): by region, pool and index. The spec gives no map from buffers to
regions. -/
opaque Config.regionBuffer : Nat → Nat → Nat → Bool

/-- The spare wires of a die's links (R543): 2 for every 64 wires of each die link and bridge link, whose number of wires the spec does not give. -/
opaque Config.spareWires : Nat → BitVec 16

/-- The vendor's 11-bit JEDEC manufacturer identity in the IDCODE register (R590). -/
opaque Config.jedecVendor : BitVec 11

/-- Boot flash JEDEC identity and size, 0x180A (R577). -/
opaque Config.bootFlashId : Nat
opaque Config.bootFlashBytes : Nat

/-- The class rank of R31 of an unassigned power domain (0x8100) and of an unassigned search table (0x7001), which the spec
places in no class (R605). -/
opaque Config.unstatedRank : Nat → Nat

/-- The device unique key of the cipher engine, 32 bytes read by no path (chapter 14). -/
opaque Config.deviceKey : Nat → BitVec 8

/-- The 384-bit image-verification key, 48 bytes read by no path (R570). -/
opaque Config.imageKey : Nat → BitVec 8

/-- The stream that the codec makes of an input, by OP, LEVEL and FLAGS of the job: the spec names the formats, which
admit many encodings of one input, and no choice among them (R404, R405). -/
opaque Config.compress : Nat → Nat → Nat → List Nat → List Nat

/-- The flash profiles that a manager's DOMAIN of 0x3402 holds: the spec gives the DOMAIN no layout (R258, R267). -/
opaque Config.profileCount : List Nat → Nat

/-- The flash profiles that the image holds, 0x3403:01, "per image" (R267). -/
opaque Config.imageProfiles : Nat

/-- What a part says of its flash: the parameter page of a target, by die, 16 × channel + CE and byte (0x35B8), and the bytes of the population summary 0x3409 by
the figures that it sums up; the spec gives neither a layout (R267). -/
opaque Config.parameterPage : Nat → Nat → Nat → BitVec 8
opaque Config.populationSummary : List Nat → Nat → BitVec 8

/-- What the spec calls "per part" and gives no value for: the PCI identifiers 0x4001:01 to :04 (1 to 4), and the bytes of
the texts 0x4003:01 to :03 and of a namespace's globally unique identifier. -/
opaque Config.pciId : Nat → BitVec 16
opaque Config.partText : Nat → Nat → BitVec 8
opaque Config.nguid : Nat → Nat → BitVec 8

end Sys2Proof
end

