-- ==== Sys2Proof/Machine/TypesBase.lean ====
section
/-!
DEFINITION. The state of the time base (chapter 2), the dictionary service (chapter 3), faults, resets and events
(chapter 17), start-up (chapter 19) and the pins (chapter 20), as plain data.
-/

namespace Sys2Proof.Machine

/-- What a part is: die count 2, 4 or 8 and grade 0 C, 1 I (R11, R93). -/
structure PartCfg where
  dies : Nat
  grade : Nat
deriving DecidableEq, Repr

/-- One die's phase counter (R34): phase, the die's epoch register, the accumulator, its offset record, and the offset in ps that its
slewing removes over the epoch (R37). -/
structure DieClock where
  phase : Nat
  epoch : Nat
  acc : Nat
  offsetPs : Int
  overEpochs : Nat
  withinEpochs : Nat
  excluded : Bool
  slewPs : Int
deriving DecidableEq, Repr

/-- One time source (R38, R39): the run of good and bad boundaries, whether it is qualified or lost, the instant of
its latest boundary, the latest measured period and the latest one within the window of R39, in ns, and since when it has been
qualified. -/
structure Source where
  seen : Bool
  last : Nat
  period : Nat
  goodPeriod : Nat
  good : Nat
  bad : Nat
  qualified : Bool
  since : Nat
deriving DecidableEq, Repr

/-- The PTP slave clock (R40): the master followed with its data set and its grandmaster, the senders of Announce with the instants of their
last, a Sync that waits for its Follow_Up, the pending
delay measurement, the current PTP-to-counter offset, the UTC offset of R57, and the instants of the latest Announce and Sync with
the intervals, in ns, that their headers give (R38). -/
structure Ptp where
  master : Option Nat
  best : AnnounceData
  bestGm : Nat
  foreign : Tab Nat
  sync : Option (Nat × Nat)
  t1 : Nat
  t2 : Nat
  delaySeq : Nat
  delayWaiting : Bool
  haveTime : Bool
  aheadNs : Int
  utc : Option Int
  announceAt : Nat
  announceNs : Nat
  syncAt : Nat
  syncNs : Nat
deriving DecidableEq, Repr

/-- The time base (R34 to R57). `now` counts SYSCLK-derived nanoseconds since reset; `epochStart` is the instant of the
last boundary; `rateN`/`rateD` the epoch rate in use before `ppb`; `stretch` the ns by which the epoch is lengthened (R43), and `lengthened` that it ends on the source being adopted; `following` that the counter
follows its active source, and `heldNs` the period last measured against one that was lost (R42); `tcAt` the
instant to which the device timecode is counted, `tcRem` the part of a frame counted beyond its label, in 1/(1001 × 10⁹) frames, and
`tcLog` its label at the start of each epoch, by epoch number, since the first take now open was admitted (R56, R57); `bandLimits` the values of
0x2101 with the epoch from which each holds, newest first (R54); `tbWrites` the writes held by R45. -/
structure TimeState where
  now : Nat
  epochStart : Nat
  clocks : Tab DieClock
  rateN : Nat
  rateD : Nat
  ppb : Int
  stretch : Nat
  lengthened : Bool
  state : Nat
  active : Nat
  adopting : Option Nat
  lockCount : Nat
  phaseErr : Int
  holdoverFrom : Nat
  heldNs : Option Nat
  following : Bool
  rebasePending : Bool
  sources : Tab Source
  ptp : Ptp
  period : Nat
  timecode : Nat
  tcAt : Nat
  tcRem : Nat
  tcLog : Tab Nat
  bandLimits : List (Nat × Nat)
  tbWrites : List (Nat × Nat)
deriving DecidableEq, Repr

/-- A value staged or committed: object, the bytes held, and the ADJ flag it was answered with (R82). -/
structure Staged where
  idx : Nat
  sub : Nat
  bytes : List Nat
  adj : Bool
  written : List Nat
deriving DecidableEq, Repr

/-- One transaction slot 0x1F00 + n (R81, R93); `limit` is the timeout in ns that held when its transaction began (R54, R86). -/
structure Slot where
  session : Nat
  state : Nat
  staged : List Staged
  target : Nat
  accEpoch : Nat
  accPhase : Nat
  begun : Nat
  limit : Nat
deriving DecidableEq, Repr

/-- An accepted commit not yet applied (R83 to R89). `blown`: its fuse work is done; `inTake`: a take was open at its acceptance (R45). -/
structure Commit where
  ident : Nat
  session : Nat
  cls : Nat
  slot : Nat
  writes : List Staged
  boundary : Nat
  accEpoch : Nat
  late : Bool
  fuse : Bool
  blown : Bool
  inTake : Bool
deriving DecidableEq, Repr

/-- A running DOMAIN transfer (R76): direction, object, total length, bytes moved, next counter expected or sent,
first counter unacknowledged, instant of the last segment. -/
structure Xfer where
  write : Bool
  idx : Nat
  sub : Nat
  total : Nat
  bytes : List Nat
  next : Nat
  acked : Nat
  last : Nat
  bus : Nat
  seq : Nat
  client : Nat
deriving DecidableEq, Repr

/-- What the service keeps of one session (R75, R81, R82): its class when last judged, the state code of its last
transaction, the slot it holds, its session-control values (`selects`: what its WO select objects name), the duplicate record, its transfer, its last
report, and the address that a UDP session serves. -/
structure Session where
  cls : Nat
  state : Nat
  count : Nat
  slot : Nat
  named : Nat
  lakeNamed : Nat
  lakeState : Nat
  selects : Tab Nat
  dupSeq : Option Nat
  dupAt : Nat
  dupCmd : Nat
  dupFlags : Nat
  dupIdx : Nat
  dupSub : Nat
  dupStatus : Nat
  dupEpoch : Nat
  dupData : List Nat
  dupAnswered : Bool
  xfer : Option Xfer
  lastFrame : Nat
  report : List Nat
  source : Nat
deriving DecidableEq, Repr

/-- The dictionary (chapter 3). `store` holds the ACTIVE value of every non-DOMAIN object whose value is not its
default, at key 256 × index + sub; `doms` the DOMAIN objects; `service` the instants at which the requests that the service holds will be
answered, in order (R70); `nonces` the UDP nonces by source address (R80); `fuseCut` the ledger entries of fuse work that a power loss cut
short (R91);
`unassignedLast` and `unassignedNow` the function lists of R85; `log` the last 64 commits (R605). -/
structure DictState where
  store : Tab Nat
  doms : Tab (List Nat)
  sessions : Tab Session
  slots : Tab Slot
  commits : List Commit
  nextCommit : Nat
  nonces : Tab Nat
  unassignedLast : List (Nat × Nat × Nat)
  unassignedNow : List (Nat × Nat × Nat)
  log : List (Nat × Nat × Nat × Nat)
  ledger : List (List Nat)
  fuseStore : Tab (List Nat)
  service : List Nat
  fuseCut : List (List Nat)
deriving DecidableEq, Repr

/-- One raise in the event log (R538). -/
structure EvEntry where
  event : Nat
  cls : Nat
  routes : Nat
  epoch : Nat
  phase : Nat
  detail : Nat
  seq : Nat
  fn : Nat
  dtime : Nat
deriving DecidableEq, Repr

/-- The CAN emergency state of one event (R537): instant of its last frame, and the further occurrences with the
epoch, phase and detail of the latest. -/
structure CanRepeat where
  last : Nat
  repeats : Nat
  epoch : Nat
  phase : Nat
  detail : Nat
deriving DecidableEq, Repr

/-- Faults, resets and events (chapter 17). `logRead` is the highest SEQ that a reader of the log has seen; `onceKeys` holds what was raised in this epoch for the rules that say "at
most once per epoch"; `latched` the events a halted die steward holds, with the controllers they go to (R526); `rowSpares` the spare SRAM rows
used, by 384 × die + sub-array (R543). -/
structure FaultState where
  log : List EvEntry
  nextSeq : Nat
  overwritten : Nat
  logRead : Nat
  plog : List EvEntry
  can : Tab CanRepeat
  unackFault : Bool
  unackCritical : Bool
  onceKeys : List (Nat × Nat)
  counts : Tab Nat
  latched : List (EvEntry × List Nat)
  rowSpares : Tab Nat
  msixThisEpoch : List Nat
  lead : Nat
  standby : Option Nat
  standbySynced : Bool
  leadFenced : List Nat
  safeHold : Bool
  holdSteward : Nat
  failed : List Nat
  resetting : List Nat
  stewardFails : List (Nat × Nat)
  halted : List Nat
  linksDown : List (Nat × Nat)
  softPending : Nat
  dieResetPending : List Nat
  shuttingDown : Bool
  corrected : Tab Nat
deriving DecidableEq, Repr

/-- Start-up (chapter 19): the step reached, the failure code of the boot ROM, the straps, the boot images found, and what each die reached. -/
structure BootState where
  porst : Bool
  running : Bool
  halted : Bool
  powered : Bool
  attempts : Nat
  image : Option BootImages
  bodyVerified : Bool
  sectionsOut : List Nat
  sectionsAt : Nat
  dramUp : List Nat
  flashUp : List Nat
  restored : List Nat
  restricted : Bool
  bootBlock : List Nat
  profile : Nat
  step : Nat
  failure : Nat
  started : Nat
deriving DecidableEq, Repr

/-- The pins the device reads or drives (chapter 20), each die's JTAG instruction register, and the dies that drive Dd_F_WP_N high (R583). -/
structure PinState where
  plw : Bool
  holdupOk : Bool
  fuseVpp : Bool
  frameSync : Bool
  gpio : Nat
  thermTrip : Bool
  jtagIr : Tab Nat
  wpHigh : List Nat
deriving DecidableEq, Repr

end Sys2Proof.Machine
end

