-- ==== Sys2Proof/Machine/Objects.lean ====
section
/-!
DEFINITION. The dictionary's object table: every index and sub-index that the chapters assign, with its type, access
code, default and legal values (R59 to R64, R92, and each chapter's own table).
-/

namespace Sys2Proof.Machine

/-- The types of R61; `str n` is STRING(n), `domain m` a DOMAIN of at most m bytes. -/
inductive ObjTy where
  | bool | u8 | u16 | u32 | u64 | i32 | q15 | q31 | rational | time48 | enum8
  | str (n : Nat)
  | domain (max : Nat)
deriving DecidableEq, Repr

/-- The access codes of R64. -/
inductive Acc where
  | ro | rw | rwt | wo | rwl
deriving DecidableEq, Repr

/-- The legal values of an object, as its table's Range column gives them. -/
inductive Range where
  /-- Every value of the type. -/
  | any
  /-- From lo to hi, clamped (R63). -/
  | between (lo hi : Nat)
  /-- ENUM8 codes lo to hi; any other write is held as the fallback (R61). -/
  | enum (lo hi fallback : Nat)
  /-- ENUM8 codes listed; any other write is held as the fallback. -/
  | codes (list : List Nat) (fallback : Nat)
  /-- A spring of the part, 0 to springs - 1. -/
  | springs
  /-- An epoch or frame rate of R35. -/
  | rate
  /-- A UDP source entry of R600. -/
  | udpSource
  /-- A rate of the channel ladder of R257, MT/s. -/
  | ladder
  /-- 0 to hi, or the value that means none. -/
  | orNone (hi none : Nat)
  /-- A band port of R130: a lane number of the part, or 0xFFFF. -/
  | bandPort
deriving DecidableEq, Repr

/-- One row of a dictionary table: indices lo to hi (`perDie`: one instance for each die, at base + d), sub-indices
`subLo` to `subHi`, type, access code, default and legal values. -/
structure ObjRow where
  lo : Nat
  hi : Nat
  perDie : Bool
  subLo : Nat
  subHi : Nat
  ty : ObjTy
  acc : Acc
  dflt : Nat
  range : Range
deriving DecidableEq, Repr

/-- Objects 0x1000–0x1FFF, part 1: the dictionary tables of R58. -/
def objTime1 : List ObjRow := [
  ⟨0x1100, 0x1100, false, 1, 1, .enum8, .rw, 1, .enum 0 5 0⟩, -- Source order
  ⟨0x1100, 0x1100, false, 2, 2, .enum8, .rw, 2, .enum 0 5 0⟩, -- Source order
  ⟨0x1100, 0x1100, false, 3, 3, .enum8, .rw, 3, .enum 0 5 0⟩, -- Source order
  ⟨0x1100, 0x1100, false, 4, 4, .enum8, .rw, 4, .enum 0 5 0⟩, -- Source order
  ⟨0x1100, 0x1100, false, 5, 5, .enum8, .rw, 5, .enum 0 5 0⟩, -- Source order
  ⟨0x1101, 0x1101, false, 0, 0, .u8, .rw, 0, .springs⟩, -- Reference spring
  ⟨0x1102, 0x1102, false, 0, 0, .rational, .rw, 4294967320, .rate⟩, -- Nominal epoch rate N/D
  ⟨0x1103, 0x1103, false, 0, 0, .u32, .rw, 10000, .between 1000 100000⟩, -- Free-running period, µs
  ⟨0x1104, 0x1104, false, 0, 0, .u32, .rw, 10000, .between 0 3600000⟩, -- Holdover time, ms
  ⟨0x1105, 0x1105, false, 0, 0, .u32, .rw, 5000, .between 1000 60000⟩, -- Return time, ms
  ⟨0x1106, 0x1106, false, 0, 0, .u32, .rw, 100, .between 20 10000⟩, -- Lock window, ns
  ⟨0x1107, 0x1107, false, 0, 0, .enum8, .rw, 0, .enum 0 1 0⟩, -- FRAME_SYNC_IN edge
  ⟨0x1110, 0x1110, false, 1, 1, .enum8, .ro, 5, .any⟩, -- Active source
  ⟨0x1110, 0x1110, false, 2, 2, .enum8, .ro, 0, .any⟩, -- State
  ⟨0x1110, 0x1110, false, 3, 3, .i32, .ro, 0, .any⟩, -- Phase error, ns: positive when the counter's boundary lies after the source's boundary
  ⟨0x1110, 0x1110, false, 4, 4, .i32, .ro, 0, .any⟩, -- Rate offset, ppb: positive when the counter runs faster than the nominal rate
  ⟨0x1110, 0x1110, false, 5, 5, .u32, .ro, 0, .any⟩, -- Time in holdover, ms
  ⟨0x1110, 0x1110, false, 6, 6, .u8, .ro, 0, .any⟩, -- Dies excluded from swaps
  ⟨0x1110, 0x1110, false, 7, 7, .bool, .ro, 0, .any⟩, -- Time-base write pending
  ⟨0x1120, 0x1120, false, 0, 0, .time48, .ro, 0, .any⟩, -- Epoch number
  ⟨0x1121, 0x1121, false, 0, 0, .u16, .ro, 0, .any⟩, -- Phase at read
  ⟨0x1122, 0x1122, false, 0, 0, .u64, .ro, 0, .any⟩, -- Measured epoch period, ps
  ⟨0x1130, 0x1130, false, 1, 1, .u8, .rw, 127, .between 0 127⟩, -- PTP domain
  ⟨0x1130, 0x1130, false, 2, 2, .u8, .rw, 0, .between 0 31⟩] -- PTP lane, 4 × die + lane

/-- Objects 0x1000–0x1FFF, part 2: the dictionary tables of R58, R93. -/
def objTime2 : List ObjRow := [
  ⟨0x1130, 0x1130, false, 3, 3, .u32, .rw, 0, .any⟩, -- PTP IPv4 address; 0 disables PTP
  ⟨0x1130, 0x1130, false, 4, 4, .u64, .ro, 0, .any⟩, -- Grandmaster identity
  ⟨0x1130, 0x1130, false, 5, 5, .i32, .ro, 0, .any⟩, -- Offset from master, ns: the device's PTP time less the master's, as IEEE 1588 defines offsetFromMaster
  ⟨0x1130, 0x1130, false, 6, 6, .u32, .ro, 0, .any⟩, -- Mean path delay, ns
  ⟨0x1140, 0x1140, false, 1, 1, .enum8, .rw, 0, .enum 0 5 0⟩, -- Timecode rate
  ⟨0x1140, 0x1140, false, 2, 2, .u32, .ro, 0, .any⟩, -- Last LTC user bits
  ⟨0x1150, 0x1150, false, 1, 1, .u32, .ro, 0, .any⟩, -- Device timecode
  ⟨0x1160, 0x1160, false, 1, 6, .u32, .ro, 0, .any⟩, -- Time-base event counts, EV P.00–EV P.05
  ⟨0x1180, 0x1187, true, 0, 0, .i32, .ro, 0, .any⟩, -- Die d phase offset from lead, ps
  ⟨0x1000, 0x1000, false, 1, 1, .u32, .ro, 1297370190, .any⟩, -- Vendor code
  ⟨0x1000, 0x1000, false, 2, 2, .u8, .ro, 2, .any⟩, -- Die count
  ⟨0x1000, 0x1000, false, 3, 3, .enum8, .ro, 0, .any⟩, -- Grade
  ⟨0x1000, 0x1000, false, 4, 4, .str 4, .ro, 0, .any⟩, -- Silicon revision
  ⟨0x1000, 0x1000, false, 5, 5, .u16, .ro, 0, .any⟩, -- Object count
  ⟨0x1000, 0x1000, false, 6, 6, .u64, .ro, 0, .any⟩, -- Package serial number
  ⟨0x1000, 0x1000, false, 7, 7, .u32, .ro, 0, .any⟩, -- Firmware version: major [31:24], minor [23:16], patch [15:8], build [7:0]
  ⟨0x1001, 0x1001, false, 0, 0, .str 32, .rw, 0, .any⟩, -- Device name
  ⟨0x1002, 0x1002, false, 0, 0, .u16, .ro, 1792, .any⟩, -- Dictionary layout version
  ⟨0x1003, 0x1003, false, 1, 6, .u32, .ro, 0, .any⟩, -- Requests served per path, CAN to steward
  ⟨0x1010, 0x1010, false, 1, 5, .u32, .ro, 0, .any⟩, -- Adjusted writes per class, camera to service
  ⟨0x1011, 0x1011, false, 1, 1, .u16, .ro, 0, .any⟩, -- Last adjusted write: index, sub, class, epoch
  ⟨0x1011, 0x1011, false, 2, 3, .u8, .ro, 0, .any⟩, -- Last adjusted write: index, sub, class, epoch
  ⟨0x1011, 0x1011, false, 4, 4, .time48, .ro, 0, .any⟩, -- Last adjusted write: index, sub, class, epoch
  ⟨0x1020, 0x1020, false, 1, 1, .u8, .ro, 0, .any⟩] -- Service queue high-water mark

/-- Objects 0x1000–0x1FFF, part 3: the dictionary tables of R93. -/
def objTime3 : List ObjRow := [
  ⟨0x1030, 0x1030, false, 1, 1, .u8, .rw, 64, .between 1 127⟩, -- CAN node number
  ⟨0x1030, 0x1030, false, 2, 2, .enum8, .rw, 1, .enum 0 1 1⟩, -- CAN arbitration rate
  ⟨0x1030, 0x1030, false, 3, 3, .enum8, .rw, 0, .enum 0 3 0⟩, -- CAN data rate
  ⟨0x1030, 0x1030, false, 4, 4, .u8, .rw, 3, .between 1 3⟩, -- CAN buses enabled
  ⟨0x1030, 0x1030, false, 5, 5, .u16, .rw, 100, .between 10 10000⟩, -- Heartbeat period, ms
  ⟨0x1031, 0x1031, false, 1, 2, .u8, .ro, 0, .any⟩, -- Bus A and B error states, frames received, frames in error
  ⟨0x1031, 0x1031, false, 3, 4, .u32, .ro, 0, .any⟩, -- Bus A and B error states, frames received, frames in error
  ⟨0x1032, 0x1032, false, 1, 1, .u8, .rw, 1, .between 0 127⟩, -- CAN manager node numbers; 0 unused
  ⟨0x1032, 0x1032, false, 2, 8, .u8, .rw, 0, .between 0 127⟩, -- CAN manager node numbers; 0 unused
  ⟨0x1040, 0x1040, false, 1, 1, .bool, .rw, 0, .any⟩, -- UDP access enable
  ⟨0x1040, 0x1040, false, 2, 2, .u8, .rw, 0, .between 0 31⟩, -- UDP lane, 4 × die + lane
  ⟨0x1040, 0x1040, false, 3, 3, .u32, .rw, 0, .any⟩, -- UDP IPv4 address
  ⟨0x1040, 0x1040, false, 4, 4, .u16, .rw, 47110, .between 1024 65535⟩, -- UDP port
  ⟨0x1040, 0x1040, false, 5, 5, .u8, .rw, 0, .between 0 63⟩, -- HMAC key-state slot, on the die of the UDP lane
  ⟨0x1040, 0x1040, false, 6, 6, .u32, .ro, 0, .any⟩, -- Datagrams dropped
  ⟨0x1041, 0x1041, false, 1, 8, .u64, .rw, 0, .udpSource⟩, -- UDP sources, per R600: IPv4 [63:32], reserved [31:8], class [7:0] as in R90; 0 unused
  ⟨0x1080, 0x1087, true, 1, 1, .u64, .ro, 0, .any⟩, -- Die d serial number, per R599; die position in package
  ⟨0x1080, 0x1087, true, 2, 2, .u8, .ro, 0, .any⟩, -- Die d serial number, per R599; die position in package
  ⟨0x1088, 0x108F, true, 1, 2, .u32, .ro, 0, .any⟩, -- Die d requests relayed, relay errors
  ⟨0x1F00, 0x1F00, false, 1, 1, .enum8, .wo, 0, .enum 1 4 4⟩, -- Transaction command
  ⟨0x1F00, 0x1F00, false, 2, 2, .time48, .rw, 0, .any⟩, -- Named epoch
  ⟨0x1F00, 0x1F00, false, 3, 3, .enum8, .ro, 0, .any⟩, -- State per R87, staged count, slot
  ⟨0x1F00, 0x1F00, false, 4, 4, .u16, .ro, 0, .any⟩, -- State per R87, staged count, slot
  ⟨0x1F00, 0x1F00, false, 5, 5, .u8, .ro, 0, .any⟩] -- State per R87, staged count, slot

/-- Objects 0x1000–0x1FFF, part 4: the dictionary tables of R93. -/
def objTime4 : List ObjRow := [
  ⟨0x1F00, 0x1F00, false, 6, 6, .domain 16384, .ro, 0, .any⟩, -- Staged values, per R605, max 16,384 bytes
  ⟨0x1F01, 0x1F08, false, 1, 1, .u32, .ro, 0, .any⟩, -- Slot n: session per R603, state, staged count, target epoch, acceptance epoch, acceptance phase
  ⟨0x1F01, 0x1F08, false, 2, 2, .enum8, .ro, 0, .any⟩, -- Slot n: session per R603, state, staged count, target epoch, acceptance epoch, acceptance phase
  ⟨0x1F01, 0x1F08, false, 3, 3, .u16, .ro, 0, .any⟩, -- Slot n: session per R603, state, staged count, target epoch, acceptance epoch, acceptance phase
  ⟨0x1F01, 0x1F08, false, 4, 5, .time48, .ro, 0, .any⟩, -- Slot n: session per R603, state, staged count, target epoch, acceptance epoch, acceptance phase
  ⟨0x1F01, 0x1F08, false, 6, 6, .u16, .ro, 0, .any⟩, -- Slot n: session per R603, state, staged count, target epoch, acceptance epoch, acceptance phase
  ⟨0x1F10, 0x1F10, false, 1, 1, .u16, .rw, 60, .between 1 3600⟩, -- Open transaction timeout, s
  ⟨0x1F11, 0x1F11, false, 1, 4, .u32, .ro, 0, .any⟩, -- Rollbacks by overlap, timeout, session end; commits applied late
  ⟨0x1F12, 0x1F12, false, 0, 0, .u8, .ro, 0, .any⟩, -- Commits accepted and not yet applied
  ⟨0x1F13, 0x1F13, false, 0, 0, .time48, .ro, 0, .any⟩, -- Next boundary open to a commit now
  ⟨0x1F20, 0x1F20, false, 0, 0, .domain 65536, .ro, 0, .any⟩, -- Unassigned list of the last commit accepted, per R85 and R605
  ⟨0x1F21, 0x1F21, false, 0, 0, .domain 65536, .ro, 0, .any⟩, -- Functions unassigned by the latest boundary fit, per R85 and R605
  ⟨0x1F30, 0x1F30, false, 0, 0, .domain 65536, .ro, 0, .any⟩, -- Last 64 commits, per R605
  ⟨0x1F40, 0x1F40, false, 1, 8, .u32, .ro, 0, .any⟩, -- Sessions holding slots 1–8, per R603; 0 none
  ⟨0x1F80, 0x1F80, false, 1, 1, .domain 65536, .ro, 0, .any⟩, -- Remaining counts, per R88
  ⟨0x1F80, 0x1F80, false, 2, 2, .u8, .ro, 4, .any⟩, -- Remaining counts, per R88
  ⟨0x1F80, 0x1F80, false, 3, 3, .u8, .ro, 1, .any⟩, -- Remaining counts, per R88
  ⟨0x1F80, 0x1F80, false, 4, 4, .u8, .ro, 8, .any⟩, -- Remaining counts, per R88
  ⟨0x1F80, 0x1F80, false, 5, 5, .u8, .ro, 64, .any⟩, -- Remaining counts, per R88
  ⟨0x1F80, 0x1F80, false, 6, 6, .u8, .ro, 2, .any⟩, -- Remaining counts, per R88
  ⟨0x1F81, 0x1F81, false, 0, 0, .domain 16384, .ro, 0, .any⟩, -- Limited-change ledger, 32 bytes per entry
  ⟨0x1F82, 0x1F82, false, 0, 0, .u16, .ro, 0, .any⟩, -- Ledger entries written
  ⟨0x1F83, 0x1F83, false, 0, 0, .bool, .ro, 0, .any⟩, -- FUSE_VPP within range
  ⟨0x1F84, 0x1F84, false, 0, 0, .domain 48, .ro, 0, .any⟩] -- SHA-384 over the whole ledger

/-- Objects 0x1000–0x1FFF, part 5: the dictionary tables of R577. -/
def objTime5 : List ObjRow := [
  ⟨0x1800, 0x1800, false, 0, 0, .enum8, .ro, 0, .any⟩, -- Bring-up state
  ⟨0x1801, 0x1801, false, 0, 0, .u32, .rwl, 0, .between 0 64⟩, -- Firmware security version
  ⟨0x1802, 0x1802, false, 1, 4, .u32, .ro, 0, .any⟩, -- Times of steps 5, 8, 9, 11, ms
  ⟨0x1803, 0x1803, false, 0, 0, .u8, .ro, 0, .any⟩, -- Straps sampled, GPIO[3:0]
  ⟨0x1804, 0x1804, false, 0, 0, .u8, .ro, 0, .any⟩, -- Lane profile in force
  ⟨0x1805, 0x1805, false, 1, 3, .u8, .ro, 0, .any⟩, -- First-stage copy; firmware slot; fallback reason
  ⟨0x1806, 0x1806, false, 1, 2, .enum8, .ro, 0, .any⟩, -- Bring-up kind; shutdown found
  ⟨0x1807, 0x1807, false, 0, 0, .domain 65536, .rw, 0, .any⟩, -- Boot configuration block
  ⟨0x1808, 0x1808, false, 1, 2, .u32, .ro, 0, .any⟩, -- Readiness bounds, clean and power loss, ms
  ⟨0x1809, 0x1809, false, 1, 2, .u32, .ro, 0, .any⟩, -- Bring-ups; after power loss
  ⟨0x180A, 0x180A, false, 1, 1, .u32, .ro, 0, .any⟩, -- Boot flash JEDEC ID; size, bytes
  ⟨0x180A, 0x180A, false, 2, 2, .u64, .ro, 0, .any⟩, -- Boot flash JEDEC ID; size, bytes
  ⟨0x180B, 0x180B, false, 0, 0, .u8, .ro, 1, .any⟩, -- Boot ROM attempts, last bring-up
  ⟨0x180C, 0x180C, false, 0, 0, .domain 1024, .ro, 0, .any⟩, -- Bring-up log: per step, step 1, die 1, reserved 2, µs 4
  ⟨0x180D, 0x180D, false, 1, 1, .u32, .ro, 0, .any⟩, -- Booted firmware SECVER; REVISION
  ⟨0x180D, 0x180D, false, 2, 2, .u64, .ro, 0, .any⟩, -- Booted firmware SECVER; REVISION
  ⟨0x1840, 0x1847, true, 0, 0, .enum8, .ro, 0, .any⟩, -- Die bring-up state
  ⟨0x1848, 0x184F, true, 1, 1, .u16, .ro, 0, .any⟩, -- DRAM: training time ms; fitted GiB; rate MT/s
  ⟨0x1848, 0x184F, true, 2, 2, .u8, .ro, 0, .any⟩, -- DRAM: training time ms; fitted GiB; rate MT/s
  ⟨0x1848, 0x184F, true, 3, 3, .u16, .ro, 0, .any⟩, -- DRAM: training time ms; fitted GiB; rate MT/s
  ⟨0x1850, 0x1857, true, 1, 1, .enum8, .ro, 0, .any⟩, -- Map restore: marker found; records replayed; time ms
  ⟨0x1850, 0x1857, true, 2, 2, .u64, .ro, 0, .any⟩, -- Map restore: marker found; records replayed; time ms
  ⟨0x1850, 0x1857, true, 3, 3, .u32, .ro, 0, .any⟩] -- Map restore: marker found; records replayed; time ms

/-- Every object row of 0x1000–0x1FFF. -/
def objTime : List ObjRow := objTime1 ++ objTime2 ++ objTime3 ++ objTime4 ++ objTime5

/-- Objects 0x2100–0x21FF, part 1: the dictionary tables of R129. -/
def objInflow1 : List ObjRow := [
  ⟨0x2100, 0x2100, false, 1, 2, .u8, .ro, 1, .any⟩, -- Link versions supported, lowest and highest
  ⟨0x2101, 0x2101, false, 0, 0, .u32, .rw, 50, .between 1 1000⟩, -- Band-end timeout, ms
  ⟨0x2102, 0x2102, false, 0, 0, .u8, .rw, 2, .between 1 16⟩, -- Camera stamp tolerance, epochs
  ⟨0x2103, 0x2103, false, 0, 0, .u16, .rw, 1000, .between 250 2000⟩, -- Credit refresh interval, ns
  ⟨0x2104, 0x2104, false, 0, 0, .u8, .rw, 8, .between 2 32⟩, -- Replay limit
  ⟨0x2105, 0x2105, false, 1, 1, .u16, .rw, 200, .between 50 10000⟩, -- Control retry interval µs, retry count
  ⟨0x2105, 0x2105, false, 2, 2, .u8, .rw, 16, .between 1 255⟩, -- Control retry interval µs, retry count
  ⟨0x2106, 0x2106, false, 0, 0, .u16, .rw, 1000, .between 100 10000⟩, -- Signal-loss filter, ns
  ⟨0x2107, 0x2107, false, 0, 0, .bool, .rw, 1, .any⟩, -- Fast retrain enable
  ⟨0x2108, 0x2108, false, 0, 0, .u16, .rw, 250, .between 100 1000⟩, -- Equalisation limit, ms
  ⟨0x2109, 0x2109, false, 0, 0, .u8, .ro, 0, .any⟩, -- Inflow ports up
  ⟨0x210A, 0x210A, false, 0, 0, .u8, .rw, 1, .between 1 64⟩, -- TIME interval, epochs
  ⟨0x210B, 0x210B, false, 0, 0, .u64, .ro, 0, .any⟩, -- Cells discarded, spring in no open take
  ⟨0x210C, 0x210C, false, 0, 0, .u64, .ro, 0, .any⟩, -- Cells discarded or counted under R103, R105, R124
  ⟨0x210D, 0x210D, false, 1, 2, .u32, .ro, 0, .any⟩, -- Bands completed short, long
  ⟨0x210E, 0x210E, false, 0, 0, .u32, .ro, 0, .any⟩, -- Camera stamps replaced
  ⟨0x210F, 0x210F, false, 0, 0, .u8, .wo, 0, .between 0 31⟩, -- Inflow port reset, 4 × die + first lane
  ⟨0x2110, 0x2110, false, 1, 1, .u8, .ro, 0, .any⟩, -- Last mismatch: spring, frame, band, DECLEN, L
  ⟨0x2110, 0x2110, false, 2, 2, .u32, .ro, 0, .any⟩, -- Last mismatch: spring, frame, band, DECLEN, L
  ⟨0x2110, 0x2110, false, 3, 3, .u8, .ro, 0, .any⟩, -- Last mismatch: spring, frame, band, DECLEN, L
  ⟨0x2110, 0x2110, false, 4, 5, .u32, .ro, 0, .any⟩, -- Last mismatch: spring, frame, band, DECLEN, L
  ⟨0x2111, 0x2111, false, 0, 0, .bool, .rw, 1, .any⟩, -- Spare lane joining enable
  ⟨0x2120, 0x2127, true, 1, 4, .enum8, .rw, 0, .enum 0 3 0⟩, -- Lane mode, lanes 0–3
  ⟨0x2128, 0x212F, true, 1, 4, .u8, .rw, 0, .between 0 4⟩] -- Inflow port width from lane 0–3

/-- Objects 0x2100–0x21FF, part 2: the dictionary tables of R129. -/
def objInflow2 : List ObjRow := [
  ⟨0x2130, 0x2137, true, 0, 0, .u8, .rw, 0, .between 0 15⟩, -- Spare inflow lanes, bit n for lane n
  ⟨0x2138, 0x213F, true, 1, 4, .enum8, .ro, 0, .any⟩, -- Lane state: 0 off, 1–7 training step reached, 8 failed, 9 PCIe, 10 Ethernet
  ⟨0x2140, 0x2147, true, 1, 4, .u64, .ro, 0, .any⟩, -- Codewords corrected
  ⟨0x2148, 0x214F, true, 1, 4, .u64, .ro, 0, .any⟩, -- Codewords uncorrectable
  ⟨0x2150, 0x2157, true, 1, 8, .u32, .ro, 0, .any⟩, -- HCRC errors lanes 0–3, PCRC errors lanes 0–3
  ⟨0x2158, 0x215F, true, 1, 4, .u32, .ro, 0, .any⟩, -- Replay requests
  ⟨0x2160, 0x2167, true, 1, 4, .u64, .ro, 0, .any⟩, -- Cells received
  ⟨0x2168, 0x216F, true, 1, 4, .u32, .ro, 0, .any⟩, -- Camera transmitter settings: pre, main, post taps
  ⟨0x2170, 0x2177, true, 1, 4, .q15, .ro, 0, .any⟩, -- Receiver eye margin
  ⟨0x2178, 0x217F, true, 1, 4, .u32, .ro, 0, .any⟩, -- Lane failures
  ⟨0x2180, 0x2187, true, 0, 0, .domain 1024, .ro, 0, .any⟩, -- Credit state, per R607
  ⟨0x2188, 0x218F, true, 1, 4, .u8, .ro, 0, .any⟩, -- Inflow pool number per port
  ⟨0x2190, 0x2197, true, 1, 4, .u32, .ro, 0, .any⟩, -- Measured one-way delay, ps
  ⟨0x2198, 0x219F, true, 1, 4, .u32, .ro, 0, .any⟩] -- Inflow port resets

/-- Every object row of 0x2100–0x21FF. -/
def objInflow : List ObjRow := objInflow1 ++ objInflow2

/-- Objects 0x2200–0x2FFF, part 1: the dictionary tables of R171. -/
def objTakes1 : List ObjRow := [
  ⟨0x2200, 0x221F, false, 1, 1, .enum8, .rw, 0, .enum 0 3 0⟩, -- Spring s kind
  ⟨0x2200, 0x221F, false, 2, 2, .rational, .rw, 4294967320, .rate⟩, -- Frame rate
  ⟨0x2200, 0x221F, false, 3, 3, .u8, .rw, 1, .between 1 64⟩, -- Band count
  ⟨0x2200, 0x221F, false, 4, 4, .u32, .rw, 16777216, .between 1 268435456⟩, -- Maximum band length, bytes
  ⟨0x2200, 0x221F, false, 5, 5, .enum8, .rw, 0, .enum 0 3 0⟩, -- Packing
  ⟨0x2200, 0x221F, false, 6, 6, .enum8, .rw, 0, .enum 0 1 0⟩, -- JUSTIFY
  ⟨0x2200, 0x221F, false, 7, 7, .u32, .rw, 0, .any⟩, -- Capture namespace
  ⟨0x2200, 0x221F, false, 8, 8, .u8, .rw, 2, .between 1 255⟩, -- Late limit, frame periods
  ⟨0x2200, 0x221F, false, 16, 79, .u16, .rw, 65535, .bandPort⟩, -- Band port
  ⟨0x2200, 0x221F, false, 80, 143, .u16, .rw, 65535, .bandPort⟩, -- Band alternate port
  ⟨0x2220, 0x2220, false, 1, 1, .enum8, .rw, 0, .enum 0 3 0⟩, -- Take command
  ⟨0x2220, 0x2220, false, 2, 2, .u16, .rw, 0, .between 0 65535⟩, -- Take number for close or delete
  ⟨0x2220, 0x2220, false, 3, 3, .u32, .rw, 0, .any⟩, -- Namespace for open
  ⟨0x2220, 0x2220, false, 4, 4, .u32, .rw, 0, .any⟩, -- Springs for open
  ⟨0x2220, 0x2220, false, 5, 5, .u32, .rw, 0, .any⟩, -- Minimum duration, s
  ⟨0x2220, 0x2220, false, 6, 6, .u16, .wo, 0, .between 1 65535⟩, -- Abort take
  ⟨0x2220, 0x2220, false, 7, 7, .u64, .rw, 0, .any⟩, -- Lake take identity
  ⟨0x2221, 0x2221, false, 1, 1, .u16, .ro, 0, .any⟩, -- Last result: take, result, reason, die or port, duration, coverage, acceptance epoch
  ⟨0x2221, 0x2221, false, 2, 2, .enum8, .ro, 0, .any⟩, -- Last result: take, result, reason, die or port, duration, coverage, acceptance epoch
  ⟨0x2221, 0x2221, false, 3, 4, .u8, .ro, 0, .any⟩, -- Last result: take, result, reason, die or port, duration, coverage, acceptance epoch
  ⟨0x2221, 0x2221, false, 5, 5, .u32, .ro, 0, .any⟩, -- Last result: take, result, reason, die or port, duration, coverage, acceptance epoch
  ⟨0x2221, 0x2221, false, 6, 6, .u8, .ro, 0, .any⟩, -- Last result: take, result, reason, die or port, duration, coverage, acceptance epoch
  ⟨0x2221, 0x2221, false, 7, 7, .time48, .ro, 0, .any⟩, -- Last result: take, result, reason, die or port, duration, coverage, acceptance epoch
  ⟨0x2222, 0x2222, false, 1, 1, .u32, .rw, 120, .between 0 1000⟩] -- Minimum seep, MB/s

/-- Objects 0x2200–0x2FFF, part 2: the dictionary tables of R171. -/
def objTakes2 : List ObjRow := [
  ⟨0x2222, 0x2222, false, 2, 2, .u8, .rw, 5, .between 0 20⟩, -- Thermal margin, °C
  ⟨0x2222, 0x2222, false, 3, 3, .u16, .rw, 1500, .between 500 5000⟩, -- Power coefficient k_w, mW per GB/s
  ⟨0x2222, 0x2222, false, 4, 4, .u32, .rw, 60, .between 10 86400⟩, -- Reserve warning, s
  ⟨0x2222, 0x2222, false, 5, 5, .u8, .rw, 50, .between 10 95⟩, -- Ring warning, percent
  ⟨0x2223, 0x2223, false, 1, 8, .u64, .ro, 0, .any⟩, -- Take slot n: NSID [63:32], take [31:16], state [7:0]
  ⟨0x2224, 0x2224, false, 0, 0, .u32, .ro, 0, .any⟩, -- Guaranteed duration, s
  ⟨0x2225, 0x2225, false, 0, 0, .enum8, .ro, 0, .any⟩, -- Reserve level
  ⟨0x2226, 0x2226, false, 0, 0, .enum8, .rwl, 0, .enum 0 1 0⟩, -- Sealed-capture policy
  ⟨0x2227, 0x2227, false, 0, 0, .u16, .rw, 65535, .orNone 1023 0xFFFF⟩, -- Sealing key slot, die 0
  ⟨0x2228, 0x2228, false, 1, 3, .u32, .ro, 0, .any⟩, -- Takes admitted, refused, ended early; frames recorded; duplicates; gaps
  ⟨0x2228, 0x2228, false, 4, 6, .u64, .ro, 0, .any⟩, -- Takes admitted, refused, ended early; frames recorded; duplicates; gaps
  ⟨0x2229, 0x2229, false, 1, 10, .u64, .ro, 0, .any⟩, -- Frames per flag, bits 0–9 of R155
  ⟨0x222A, 0x222A, false, 0, 0, .domain 64, .ro, 0, .any⟩, -- Last take-end record
  ⟨0x222B, 0x222B, false, 1, 1, .u16, .wo, 0, .between 1 65535⟩, -- Select take, this session
  ⟨0x222B, 0x222B, false, 2, 2, .domain 128, .ro, 0, .any⟩, -- Directory entry of selected take
  ⟨0x222C, 0x222C, false, 1, 1, .u8, .ro, 0, .any⟩, -- Custody slot and extension ordinal of selected take
  ⟨0x222C, 0x222C, false, 2, 2, .u32, .ro, 0, .any⟩, -- Custody slot and extension ordinal of selected take
  ⟨0x222D, 0x222D, false, 0, 0, .domain 1024, .ro, 0, .any⟩, -- Last admission inputs and margins per die, per R608
  ⟨0x2800, 0x2807, true, 1, 1, .u16, .ro, 64, .any⟩, -- Ring size MiB, occupancy bytes, high-water bytes, times full
  ⟨0x2800, 0x2807, true, 2, 4, .u32, .ro, 0, .any⟩, -- Ring size MiB, occupancy bytes, high-water bytes, times full
  ⟨0x2808, 0x280F, true, 1, 5, .u64, .ro, 0, .any⟩, -- Pre-erased reserve, allowance, reclaim rate, admitted write rate, seep budget
  ⟨0x2810, 0x2817, true, 1, 5, .u64, .ro, 0, .any⟩, -- Bands received, short, long, missing; containers with overflow
  ⟨0x2818, 0x281F, true, 1, 2, .u64, .ro, 0, .any⟩, -- Ceiling, ceiling after worst fault, worst fault case, estimated capture power mW
  ⟨0x2818, 0x281F, true, 3, 3, .enum8, .ro, 0, .any⟩] -- Ceiling, ceiling after worst fault, worst fault case, estimated capture power mW

/-- Objects 0x2200–0x2FFF, part 3: the dictionary tables of R171. -/
def objTakes3 : List ObjRow := [
  ⟨0x2818, 0x281F, true, 4, 4, .u32, .ro, 0, .any⟩] -- Ceiling, ceiling after worst fault, worst fault case, estimated capture power mW

/-- Every object row of 0x2200–0x2FFF. -/
def objTakes : List ObjRow := objTakes1 ++ objTakes2 ++ objTakes3

/-- Objects 0x3000–0x33FF, part 1: the dictionary tables of R248. -/
def objMedia1 : List ObjRow := [
  ⟨0x3000, 0x3000, false, 0, 0, .enum8, .rw, 0, .enum 0 1 0⟩, -- Cross-die protection
  ⟨0x3001, 0x3001, false, 0, 0, .u64, .ro, 0, .any⟩, -- Conversion bytes remaining
  ⟨0x3002, 0x3002, false, 0, 0, .u8, .rw, 2, .between 1 255⟩, -- Promotion threshold
  ⟨0x3003, 0x3003, false, 0, 0, .u32, .rw, 600, .between 10 86400⟩, -- Cooling time, s
  ⟨0x3004, 0x3004, false, 0, 0, .u32, .rw, 60, .between 1 86400⟩, -- HEAT halving interval, s
  ⟨0x3005, 0x3005, false, 0, 0, .u8, .rw, 100, .between 0 100⟩, -- Fine limit, percent of 1/64
  ⟨0x3006, 0x3006, false, 0, 0, .u32, .rw, 2000, .between 0 100000⟩, -- Merge window, µs
  ⟨0x3007, 0x3007, false, 0, 0, .u16, .rw, 128, .between 0 1024⟩, -- Dirty limit, MiB
  ⟨0x3008, 0x3008, false, 0, 0, .u16, .rw, 256, .between 64 1024⟩, -- Journal limit, MiB
  ⟨0x3009, 0x3009, false, 0, 0, .u16, .rw, 0, .between 0 65535⟩, -- Seep window start, phase
  ⟨0x300A, 0x300A, false, 0, 0, .u32, .rw, 65536, .between 1 65536⟩, -- Seep window length, phase units
  ⟨0x300B, 0x300B, false, 0, 0, .u8, .rw, 25, .between 5 90⟩, -- Seep floor outside takes, percent of ceiling
  ⟨0x300C, 0x300C, false, 0, 0, .u8, .rw, 60, .between 30 95⟩, -- Refresh threshold, percent of hard-decode capability
  ⟨0x300D, 0x300D, false, 0, 0, .u16, .rw, 180, .between 7 3650⟩, -- Retention refresh age, days
  ⟨0x300E, 0x300E, false, 0, 0, .u16, .rw, 100, .between 10 10000⟩, -- Read-disturb limit, thousands of reads
  ⟨0x300F, 0x300F, false, 0, 0, .u16, .rw, 168, .between 24 8760⟩, -- Scrub period, h
  ⟨0x3010, 0x3010, false, 0, 0, .u8, .rw, 10, .between 1 40⟩, -- Reserve target, percent of usable
  ⟨0x3011, 0x3011, false, 0, 0, .u32, .rw, 3600, .between 60 86400⟩, -- Reclaim horizon, s
  ⟨0x3012, 0x3012, false, 0, 0, .u16, .rw, 4, .between 2 64⟩, -- Spare floor, blocks per target
  ⟨0x3013, 0x3013, false, 0, 0, .u8, .rw, 10, .between 1 50⟩, -- Available spare threshold, percent
  ⟨0x3014, 0x3014, false, 0, 0, .u16, .rw, 20, .between 1 1000⟩, -- Die-stripe hold time, ms
  ⟨0x3015, 0x3015, false, 0, 0, .u64, .ro, 0, .any⟩, -- Device time, s
  ⟨0x3016, 0x3016, false, 1, 1, .u64, .ro, 0, .any⟩, -- Power-off interval s; source 0 none, 1 PTP, 2 calibration
  ⟨0x3016, 0x3016, false, 2, 2, .enum8, .ro, 0, .any⟩] -- Power-off interval s; source 0 none, 1 PTP, 2 calibration

/-- Objects 0x3000–0x33FF, part 2: the dictionary tables of R248. -/
def objMedia2 : List ObjRow := [
  ⟨0x3017, 0x3017, false, 1, 1, .enum8, .ro, 0, .any⟩, -- Last commit: result 0 none, 1 complete, 2 incomplete; duration µs; bytes
  ⟨0x3017, 0x3017, false, 2, 2, .u32, .ro, 0, .any⟩, -- Last commit: result 0 none, 1 complete, 2 incomplete; duration µs; bytes
  ⟨0x3017, 0x3017, false, 3, 3, .u64, .ro, 0, .any⟩, -- Last commit: result 0 none, 1 complete, 2 incomplete; duration µs; bytes
  ⟨0x3018, 0x3018, false, 0, 0, .enum8, .ro, 1, .any⟩, -- Write mode
  ⟨0x3019, 0x3019, false, 1, 3, .u8, .ro, 0, .any⟩, -- Dies worn, degraded, failed, bit d
  ⟨0x301A, 0x301A, false, 1, 3, .u8, .ro, 0, .any⟩, -- Critical warning, available spare, percentage used
  ⟨0x301B, 0x301B, false, 0, 0, .domain 4096, .ro, 0, .any⟩, -- Extended health log
  ⟨0x301C, 0x301C, false, 0, 0, .u32, .wo, 0, .any⟩, -- Select block, this session: die [31:29], channel [27:24], CE [23:20], block [19:0]
  ⟨0x301D, 0x301D, false, 0, 0, .domain 16, .ro, 0, .any⟩, -- Write stamp of selected block
  ⟨0x3100, 0x3107, true, 0, 0, .u64, .ro, 0, .any⟩, -- Usable bytes
  ⟨0x3108, 0x310F, true, 0, 0, .u64, .ro, 0, .any⟩, -- Raw bytes populated
  ⟨0x3110, 0x3117, true, 1, 2, .u32, .ro, 0, .any⟩, -- Map memory in use, MiB; bound of R207, MiB
  ⟨0x3118, 0x311F, true, 1, 2, .u64, .ro, 0, .any⟩, -- Mapping cache hits, misses
  ⟨0x3120, 0x3127, true, 1, 2, .u32, .ro, 0, .any⟩, -- Fine-mapped units; fine limit
  ⟨0x3128, 0x312F, true, 1, 2, .u64, .ro, 0, .any⟩, -- Promotions, demotions
  ⟨0x3130, 0x3137, true, 0, 0, .u64, .ro, 0, .any⟩, -- Partial overwrites by copy
  ⟨0x3138, 0x313F, true, 1, 2, .u64, .ro, 0, .any⟩, -- Journal bytes since checkpoint; last SEQ
  ⟨0x3140, 0x3147, true, 1, 1, .u64, .ro, 0, .any⟩, -- Checkpoint passes; epoch of last
  ⟨0x3140, 0x3147, true, 2, 2, .time48, .ro, 0, .any⟩, -- Checkpoint passes; epoch of last
  ⟨0x3148, 0x314F, true, 1, 2, .u16, .ro, 0, .any⟩, -- Stripe groups; degraded
  ⟨0x3150, 0x3157, true, 1, 2, .u16, .ro, 0, .any⟩, -- Hot-spare targets left; in use
  ⟨0x3158, 0x315F, true, 0, 0, .u16, .ro, 0, .any⟩, -- Targets failed
  ⟨0x3160, 0x3167, true, 1, 2, .u32, .ro, 0, .any⟩, -- Spare blocks left; at first format
  ⟨0x3168, 0x316F, true, 1, 2, .u32, .ro, 0, .any⟩] -- Grown, factory bad blocks

/-- Objects 0x3000–0x33FF, part 3: the dictionary tables of R248. -/
def objMedia3 : List ObjRow := [
  ⟨0x3170, 0x3177, true, 1, 2, .u32, .ro, 0, .any⟩, -- PEC average, maximum
  ⟨0x3178, 0x317F, true, 0, 0, .u8, .ro, 0, .any⟩, -- Percentage used
  ⟨0x3180, 0x3187, true, 1, 2, .u32, .ro, 0, .any⟩, -- Erased block stripes; wholly invalid block stripes
  ⟨0x3188, 0x318F, true, 1, 2, .u64, .ro, 0, .any⟩, -- Erase capability, bytes/s; wholly invalid bytes
  ⟨0x3190, 0x3197, true, 1, 2, .u64, .ro, 0, .any⟩, -- Seep budget this epoch; used, bytes
  ⟨0x3198, 0x319F, true, 1, 11, .u64, .ro, 0, .any⟩, -- Background bytes by rank 1–11
  ⟨0x31A0, 0x31A7, true, 0, 0, .u32, .ro, 0, .any⟩, -- Copies redirected
  ⟨0x31A8, 0x31AF, true, 0, 0, .u64, .ro, 0, .any⟩, -- Codewords corrected, hard
  ⟨0x31B0, 0x31B7, true, 0, 0, .u64, .ro, 0, .any⟩, -- Codewords corrected, soft
  ⟨0x31B8, 0x31BF, true, 0, 0, .u64, .ro, 0, .any⟩, -- Granules recovered by target parity
  ⟨0x31C0, 0x31C7, true, 0, 0, .u64, .ro, 0, .any⟩, -- Granules recovered cross-die
  ⟨0x31C8, 0x31CF, true, 0, 0, .u64, .ro, 0, .any⟩, -- Unrecoverable granules
  ⟨0x31D0, 0x31D7, true, 1, 6, .u32, .ro, 0, .any⟩, -- Refreshes by trigger, rows of R224
  ⟨0x31D8, 0x31DF, true, 1, 2, .u32, .ro, 0, .any⟩, -- Program, erase failures
  ⟨0x31E0, 0x31E7, true, 1, 3, .u64, .ro, 0, .any⟩, -- Bytes programmed: host, capture, background
  ⟨0x31E8, 0x31EF, true, 1, 2, .u64, .ro, 0, .any⟩, -- Bytes read: host, background
  ⟨0x31F0, 0x31F7, true, 1, 8, .u32, .ro, 0, .any⟩, -- Reads by age bin 0–7
  ⟨0x31F8, 0x31FF, true, 0, 0, .u64, .ro, 0, .any⟩, -- Read retries, step 2 of R223
  ⟨0x3200, 0x3207, true, 0, 0, .domain 304, .ro, 0, .any⟩, -- Temperature history, per R246
  ⟨0x3208, 0x320F, true, 0, 0, .enum8, .ro, 0, .any⟩, -- Die state
  ⟨0x3210, 0x3217, true, 1, 1, .u64, .ro, 0, .any⟩, -- Staged host bytes; effective dirty limit, MiB
  ⟨0x3210, 0x3217, true, 2, 2, .u32, .ro, 0, .any⟩, -- Staged host bytes; effective dirty limit, MiB
  ⟨0x3218, 0x321F, true, 1, 1, .u32, .ro, 0, .any⟩, -- SLC staging blocks; SLC program rate, bytes/s
  ⟨0x3218, 0x321F, true, 2, 2, .u64, .ro, 0, .any⟩] -- SLC staging blocks; SLC program rate, bytes/s

/-- Objects 0x3000–0x33FF, part 4: the dictionary tables of R248. -/
def objMedia4 : List ObjRow := [
  ⟨0x3220, 0x3227, true, 1, 1, .u32, .ro, 0, .any⟩, -- Commits; last bytes; last duration, µs
  ⟨0x3220, 0x3227, true, 2, 2, .u64, .ro, 0, .any⟩, -- Commits; last bytes; last duration, µs
  ⟨0x3220, 0x3227, true, 3, 3, .u32, .ro, 0, .any⟩, -- Commits; last bytes; last duration, µs
  ⟨0x3228, 0x322F, true, 1, 3, .u32, .ro, 0, .any⟩, -- Journal replays; last records; last duration, ms
  ⟨0x3230, 0x3237, true, 1, 1, .u8, .ro, 4, .any⟩, -- Media cores active; spare media core in use
  ⟨0x3230, 0x3237, true, 2, 2, .u8, .ro, 0, .any⟩, -- Media cores active; spare media core in use
  ⟨0x3238, 0x323F, true, 1, 2, .u64, .ro, 0, .any⟩] -- Die stripes completed; null units

/-- Every object row of 0x3000–0x33FF. -/
def objMedia : List ObjRow := objMedia1 ++ objMedia2 ++ objMedia3 ++ objMedia4

/-- Objects 0x3400–0x37FF, part 1: the dictionary tables of R267. -/
def objFlash1 : List ObjRow := [
  ⟨0x3400, 0x3400, false, 1, 1, .u8, .ro, 3, .any⟩, -- Interfaces supported, bit 0 ONFI, bit 1 toggle; highest rate, MT/s
  ⟨0x3400, 0x3400, false, 2, 2, .u16, .ro, 3600, .any⟩, -- Interfaces supported, bit 0 ONFI, bit 1 toggle; highest rate, MT/s
  ⟨0x3401, 0x3401, false, 0, 0, .u16, .rw, 3600, .ladder⟩, -- Channel rate cap, MT/s
  ⟨0x3402, 0x3402, false, 0, 0, .domain 65536, .rw, 0, .any⟩, -- Manager flash profiles
  ⟨0x3403, 0x3403, false, 1, 2, .u16, .ro, 0, .any⟩, -- Profiles in image; in 0x3402
  ⟨0x3404, 0x3404, false, 0, 0, .u16, .rw, 150, .between 110 400⟩, -- Operation timeout, percent of maximum
  ⟨0x3405, 0x3405, false, 0, 0, .u8, .rw, 3, .between 2 16⟩, -- Consecutive failing operations
  ⟨0x3406, 0x3406, false, 0, 0, .u32, .rw, 600, .between 10 86400⟩, -- Channel check interval, s
  ⟨0x3407, 0x3407, false, 0, 0, .q15, .rw, 4096, .between 1024 16384⟩, -- Eye margin threshold
  ⟨0x3408, 0x3408, false, 0, 0, .u8, .rw, 0, .between 0 4⟩, -- Hot-spare targets per channel
  ⟨0x3409, 0x3409, false, 0, 0, .domain 256, .ro, 0, .any⟩, -- Package population summary, 32 bytes per die
  ⟨0x340A, 0x340A, false, 1, 3, .u32, .ro, 0, .any⟩, -- Target recoveries, step-downs, channel failures
  ⟨0x340B, 0x340B, false, 0, 0, .enum8, .rw, 1, .enum 0 1 1⟩, -- Soft-read depth
  ⟨0x3440, 0x3447, true, 0, 0, .enum8, .ro, 0, .any⟩, -- Interface in use
  ⟨0x3448, 0x344F, true, 1, 1, .u8, .ro, 0, .any⟩, -- Manufacturer ID; model; profile number
  ⟨0x3448, 0x344F, true, 2, 2, .str 20, .ro, 0, .any⟩, -- Manufacturer ID; model; profile number
  ⟨0x3448, 0x344F, true, 3, 3, .u16, .ro, 0, .any⟩, -- Manufacturer ID; model; profile number
  ⟨0x3450, 0x3457, true, 1, 1, .u32, .ro, 0, .any⟩, -- Page data bytes; spare bytes; pages per block; blocks per plane; planes; cell type; rated PEC native; rated PEC SLC
  ⟨0x3450, 0x3457, true, 2, 3, .u16, .ro, 0, .any⟩, -- Page data bytes; spare bytes; pages per block; blocks per plane; planes; cell type; rated PEC native; rated PEC SLC
  ⟨0x3450, 0x3457, true, 4, 4, .u32, .ro, 0, .any⟩, -- Page data bytes; spare bytes; pages per block; blocks per plane; planes; cell type; rated PEC native; rated PEC SLC
  ⟨0x3450, 0x3457, true, 5, 5, .u8, .ro, 0, .any⟩, -- Page data bytes; spare bytes; pages per block; blocks per plane; planes; cell type; rated PEC native; rated PEC SLC
  ⟨0x3450, 0x3457, true, 6, 6, .enum8, .ro, 0, .any⟩, -- Page data bytes; spare bytes; pages per block; blocks per plane; planes; cell type; rated PEC native; rated PEC SLC
  ⟨0x3450, 0x3457, true, 7, 8, .u32, .ro, 0, .any⟩, -- Page data bytes; spare bytes; pages per block; blocks per plane; planes; cell type; rated PEC native; rated PEC SLC
  ⟨0x3458, 0x345F, true, 1, 3, .u32, .ro, 0, .any⟩] -- Mean program, erase, read time, µs; program rate, bytes/s

/-- Objects 0x3400–0x37FF, part 2: the dictionary tables of R267. -/
def objFlash2 : List ObjRow := [
  ⟨0x3458, 0x345F, true, 4, 4, .u64, .ro, 0, .any⟩, -- Mean program, erase, read time, µs; program rate, bytes/s
  ⟨0x3460, 0x3467, true, 1, 3, .u8, .ro, 0, .any⟩, -- Targets per channel t; hot spares h; excluded per channel
  ⟨0x3468, 0x346F, true, 0, 0, .enum8, .ro, 0, .any⟩, -- Population state
  ⟨0x3470, 0x3477, true, 1, 1, .u64, .ro, 0, .any⟩, -- Data rate of stripe-group targets, bytes/s; targets for 6 GB/s
  ⟨0x3470, 0x3477, true, 2, 2, .u16, .ro, 0, .any⟩, -- Data rate of stripe-group targets, bytes/s; targets for 6 GB/s
  ⟨0x3478, 0x347F, true, 1, 2, .u64, .ro, 0, .any⟩, -- Staging region bytes; erased staging bytes; journal blocks
  ⟨0x3478, 0x347F, true, 3, 3, .u32, .ro, 0, .any⟩, -- Staging region bytes; erased staging bytes; journal blocks
  ⟨0x3480, 0x34FF, true, 1, 1, .enum8, .ro, 0, .any⟩, -- Channel c: state; rate MT/s; eye margin; trainings; step-downs; pending step-down
  ⟨0x3480, 0x34FF, true, 2, 2, .u16, .ro, 0, .any⟩, -- Channel c: state; rate MT/s; eye margin; trainings; step-downs; pending step-down
  ⟨0x3480, 0x34FF, true, 3, 3, .q15, .ro, 0, .any⟩, -- Channel c: state; rate MT/s; eye margin; trainings; step-downs; pending step-down
  ⟨0x3480, 0x34FF, true, 4, 5, .u32, .ro, 0, .any⟩, -- Channel c: state; rate MT/s; eye margin; trainings; step-downs; pending step-down
  ⟨0x3480, 0x34FF, true, 6, 6, .bool, .ro, 0, .any⟩, -- Channel c: state; rate MT/s; eye margin; trainings; step-downs; pending step-down
  ⟨0x3500, 0x357F, true, 1, 16, .enum8, .ro, 0, .any⟩, -- Channel c target on CE 0–15
  ⟨0x3580, 0x3587, true, 0, 0, .u32, .ro, 0, .any⟩, -- Target recoveries
  ⟨0x3588, 0x358F, true, 0, 0, .u32, .ro, 0, .any⟩, -- Operation timeouts
  ⟨0x3590, 0x3597, true, 0, 0, .u32, .ro, 0, .any⟩, -- Channel step-downs
  ⟨0x3598, 0x359F, true, 0, 0, .u64, .ro, 0, .any⟩, -- Erase suspends
  ⟨0x35A0, 0x35A7, true, 1, 2, .u64, .ro, 0, .any⟩, -- Soft decodes at 2 bits, at 3 bits
  ⟨0x35A8, 0x35AF, true, 0, 0, .u64, .ro, 0, .any⟩, -- Soft decodes failed
  ⟨0x35B0, 0x35B7, true, 0, 0, .u8, .wo, 0, .any⟩, -- Select target, this session: channel [7:4], CE [3:0]
  ⟨0x35B8, 0x35BF, true, 0, 0, .domain 512, .ro, 0, .any⟩] -- Parameter page of selected target

/-- Every object row of 0x3400–0x37FF. -/
def objFlash : List ObjRow := objFlash1 ++ objFlash2

/-- Objects 0x4000–0x40FF, part 1: the dictionary tables of R304. -/
def objHost1 : List ObjRow := [
  ⟨0x4000, 0x4000, false, 0, 0, .u32, .ro, 131072, .any⟩, -- NVMe version, VS
  ⟨0x4001, 0x4001, false, 1, 4, .u16, .ro, 0, .any⟩, -- PCI vendor, device, subsystem vendor, subsystem device IDs
  ⟨0x4002, 0x4002, false, 0, 0, .str 48, .ro, 0, .any⟩, -- Subsystem NQN
  ⟨0x4003, 0x4003, false, 1, 1, .str 20, .ro, 0, .any⟩, -- SN, MN, FR
  ⟨0x4003, 0x4003, false, 2, 2, .str 40, .ro, 0, .any⟩, -- SN, MN, FR
  ⟨0x4003, 0x4003, false, 3, 3, .str 8, .ro, 0, .any⟩, -- SN, MN, FR
  ⟨0x4004, 0x4004, false, 0, 0, .u16, .ro, 0, .any⟩, -- Controllers enabled
  ⟨0x4005, 0x4005, false, 1, 2, .u16, .ro, 0, .any⟩, -- Namespaces, general and capture
  ⟨0x4006, 0x4006, false, 1, 2, .u64, .ro, 0, .any⟩, -- TNVMCAP, UNVMCAP, bytes
  ⟨0x4007, 0x4007, false, 0, 0, .u8, .ro, 9, .any⟩, -- MDTS
  ⟨0x4008, 0x4008, false, 0, 0, .u8, .rw, 16, .between 0 128⟩, -- Ordered SQs per controller
  ⟨0x4009, 0x4009, false, 0, 0, .u64, .ro, 0, .any⟩, -- Abort commands received
  ⟨0x400A, 0x400A, false, 0, 0, .u32, .ro, 0, .any⟩, -- Queue resets with outstanding commands
  ⟨0x400B, 0x400B, false, 0, 0, .u64, .ro, 0, .any⟩, -- Commands completed 00/08h
  ⟨0x400C, 0x400C, false, 0, 0, .u32, .ro, 0, .any⟩, -- Ordered SQ freezes
  ⟨0x400D, 0x400D, false, 1, 2, .u8, .ro, 1, .any⟩, -- Active slot, slot at next reset, slot 1 read-only
  ⟨0x400D, 0x400D, false, 3, 3, .bool, .ro, 1, .any⟩, -- Active slot, slot at next reset, slot 1 read-only
  ⟨0x400E, 0x400E, false, 1, 4, .str 8, .ro, 0, .any⟩, -- Firmware revision in slots 1–4
  ⟨0x400F, 0x400F, false, 1, 2, .u32, .ro, 0, .any⟩, -- Activations, refusals
  ⟨0x4010, 0x4010, false, 0, 0, .u32, .ro, 0, .any⟩, -- Last activation pause, µs
  ⟨0x4011, 0x4011, false, 0, 0, .u64, .ro, 0, .any⟩, -- Error Information log entries
  ⟨0x4012, 0x4015, false, 0, 0, .u64, .ro, 0, .any⟩, -- Completions: Unrecovered Read Error, Capacity Exceeded, write-protected, capture-namespace refusals
  ⟨0x4016, 0x4016, false, 0, 0, .domain 256, .ro, 0, .any⟩, -- Vendor admin commands by opcode, U32 per opcode C0h–FFh
  ⟨0x4017, 0x4017, false, 0, 0, .domain 512, .ro, 0, .any⟩] -- Vendor I/O commands by opcode, U32 per opcode 80h–FFh

/-- Objects 0x4000–0x40FF, part 2: the dictionary tables of R304. -/
def objHost2 : List ObjRow := [
  ⟨0x4018, 0x4018, false, 0, 0, .u32, .wo, 0, .between 1 1024⟩, -- Select namespace, this session
  ⟨0x4019, 0x4019, false, 1, 1, .enum8, .ro, 0, .any⟩, -- Selected namespace: kind, NSZE, blocks in use, attached CNTLIDs, write-protected
  ⟨0x4019, 0x4019, false, 2, 3, .u64, .ro, 0, .any⟩, -- Selected namespace: kind, NSZE, blocks in use, attached CNTLIDs, write-protected
  ⟨0x4019, 0x4019, false, 4, 4, .domain 0, .ro, 0, .any⟩, -- Selected namespace: kind, NSZE, blocks in use, attached CNTLIDs, write-protected
  ⟨0x4019, 0x4019, false, 5, 5, .bool, .ro, 0, .any⟩, -- Selected namespace: kind, NSZE, blocks in use, attached CNTLIDs, write-protected
  ⟨0x401A, 0x401A, false, 0, 0, .u32, .ro, 0, .any⟩, -- Namespace creates and deletes
  ⟨0x401B, 0x401B, false, 0, 0, .u16, .ro, 0, .any⟩, -- Program handles loaded
  ⟨0x401C, 0x401C, false, 1, 1, .u64, .ro, 0, .any⟩, -- Flushes; longest Flush, µs
  ⟨0x401C, 0x401C, false, 2, 2, .u32, .ro, 0, .any⟩, -- Flushes; longest Flush, µs
  ⟨0x401D, 0x401D, false, 0, 0, .u32, .ro, 0, .any⟩, -- Controller resets
  ⟨0x401E, 0x401E, false, 0, 0, .bool, .ro, 1, .any⟩, -- Firmware activation permitted now
  ⟨0x401F, 0x401F, false, 0, 0, .u64, .ro, 0, .any⟩, -- Safe-hold refusals
  ⟨0x4020, 0x4020, false, 0, 0, .u32, .ro, 0, .any⟩, -- NVM subsystem resets
  ⟨0x4021, 0x4021, false, 1, 2, .u8, .ro, 0, .any⟩, -- Last vendor status: opcode, status, CNTLID
  ⟨0x4021, 0x4021, false, 3, 3, .u16, .ro, 0, .any⟩, -- Last vendor status: opcode, status, CNTLID
  ⟨0x4040, 0x4047, true, 0, 0, .enum8, .rw, 0, .codes [0, 1, 2, 4] 0⟩, -- Port width
  ⟨0x4048, 0x404F, true, 1, 2, .u8, .ro, 0, .any⟩, -- Link speed GT/s, width, link state
  ⟨0x4048, 0x404F, true, 3, 3, .enum8, .ro, 0, .any⟩, -- Link speed GT/s, width, link state
  ⟨0x4050, 0x4057, true, 0, 0, .enum8, .rw, 6, .enum 1 6 6⟩, -- Target speed cap
  ⟨0x4058, 0x405F, true, 0, 0, .u8, .ro, 0, .any⟩, -- Controllers enabled on port
  ⟨0x4060, 0x4067, true, 1, 2, .u32, .ro, 0, .any⟩, -- Link-downs, retrains
  ⟨0x4068, 0x406F, true, 1, 2, .u32, .ro, 0, .any⟩, -- PCIe correctable, uncorrectable errors
  ⟨0x4070, 0x4077, true, 1, 2, .u64, .ro, 0, .any⟩, -- FLIT replays, FEC corrections
  ⟨0x4078, 0x407F, true, 1, 3, .u16, .ro, 0, .any⟩] -- I/O SQs, CQs, ordered SQs on port

/-- Objects 0x4000–0x40FF, part 3: the dictionary tables of R304. -/
def objHost3 : List ObjRow := [
  ⟨0x4080, 0x4087, true, 0, 0, .u64, .ro, 0, .any⟩, -- Commands fetched
  ⟨0x4088, 0x408F, true, 0, 0, .u64, .ro, 0, .any⟩, -- Commands completed with error
  ⟨0x4090, 0x4097, true, 0, 0, .u32, .ro, 0, .any⟩, -- Longest doorbell-to-fetch at the queue's turn, ns
  ⟨0x4098, 0x409F, true, 0, 0, .u32, .ro, 0, .any⟩, -- Outstanding commands now
  ⟨0x40A0, 0x40A7, true, 0, 0, .u64, .ro, 0, .any⟩, -- Bytes read by hosts
  ⟨0x40A8, 0x40AF, true, 0, 0, .u64, .ro, 0, .any⟩, -- Bytes written by hosts
  ⟨0x40B0, 0x40B7, true, 0, 0, .u64, .ro, 0, .any⟩, -- Urgent-class commands fetched
  ⟨0x40B8, 0x40BF, true, 0, 0, .u16, .ro, 0, .any⟩, -- Ordered SQs frozen now
  ⟨0x40C0, 0x40C7, true, 0, 0, .u64, .ro, 0, .any⟩, -- Take-relative reads served
  ⟨0x40C8, 0x40CF, true, 1, 3, .u64, .ro, 0, .any⟩, -- Vendor I/O: compute, search, digest commands
  ⟨0x40D0, 0x40D7, true, 0, 0, .u64, .ro, 0, .any⟩, -- MSI-X messages sent
  ⟨0x40D8, 0x40DF, true, 0, 0, .u32, .ro, 0, .any⟩] -- Error Information log entries from this port

/-- Every object row of 0x4000–0x40FF. -/
def objHost : List ObjRow := objHost1 ++ objHost2 ++ objHost3

/-- Objects 0x4100–0x41FF, part 1: the dictionary tables of R326. -/
def objFunc1 : List ObjRow := [
  ⟨0x4100, 0x4100, false, 1, 2, .u16, .ro, 0, .any⟩, -- Functions enabled; VFs enabled
  ⟨0x4101, 0x4101, false, 0, 0, .u8, .wo, 0, .between 0 255⟩, -- Select function, this session
  ⟨0x4102, 0x4102, false, 1, 2, .u8, .ro, 0, .any⟩, -- Selected function's target shares, codes 1–8 of R309
  ⟨0x4102, 0x4102, false, 3, 4, .u16, .ro, 0, .any⟩, -- Selected function's target shares, codes 1–8 of R309
  ⟨0x4102, 0x4102, false, 5, 6, .u8, .ro, 0, .any⟩, -- Selected function's target shares, codes 1–8 of R309
  ⟨0x4102, 0x4102, false, 7, 8, .u16, .ro, 0, .any⟩, -- Selected function's target shares, codes 1–8 of R309
  ⟨0x4103, 0x4103, false, 0, 0, .domain 2052, .rw, 0, .any⟩, -- Share changes: entries 2 bytes, reserved 2; per entry function 1, code 1, reserved 2, value 4
  ⟨0x4104, 0x4104, false, 1, 2, .u8, .ro, 0, .any⟩, -- Selected function's effective shares, codes 1–8
  ⟨0x4104, 0x4104, false, 3, 4, .u16, .ro, 0, .any⟩, -- Selected function's effective shares, codes 1–8
  ⟨0x4104, 0x4104, false, 5, 6, .u8, .ro, 0, .any⟩, -- Selected function's effective shares, codes 1–8
  ⟨0x4104, 0x4104, false, 7, 8, .u16, .ro, 0, .any⟩, -- Selected function's effective shares, codes 1–8
  ⟨0x4105, 0x4105, false, 0, 0, .u16, .rw, 1024, .between 256 16384⟩, -- Bucket refill interval, phase units
  ⟨0x4106, 0x4106, false, 0, 0, .u16, .rw, 100, .between 1 10000⟩, -- Program hold limit, ms
  ⟨0x4107, 0x4107, false, 0, 0, .u16, .rw, 100, .between 10 10000⟩, -- Quiesce limit, ms
  ⟨0x4108, 0x4108, false, 0, 0, .u16, .wo, 0, .any⟩, -- Quiesce command: function [7:0], operation [15:8]
  ⟨0x4109, 0x4109, false, 1, 1, .enum8, .ro, 0, .any⟩, -- Selected function: quiesce state, commands running, epoch quiesced
  ⟨0x4109, 0x4109, false, 2, 2, .u32, .ro, 0, .any⟩, -- Selected function: quiesce state, commands running, epoch quiesced
  ⟨0x4109, 0x4109, false, 3, 3, .time48, .ro, 0, .any⟩, -- Selected function: quiesce state, commands running, epoch quiesced
  ⟨0x410A, 0x410A, false, 0, 0, .domain 14668, .ro, 0, .any⟩, -- Saved state of selected function
  ⟨0x410B, 0x410B, false, 0, 0, .domain 14668, .wo, 0, .any⟩, -- Restore into selected function
  ⟨0x410C, 0x410C, false, 1, 1, .enum8, .ro, 0, .any⟩, -- Last restore: result, function
  ⟨0x410C, 0x410C, false, 2, 2, .u8, .ro, 0, .any⟩, -- Last restore: result, function
  ⟨0x410D, 0x410D, false, 0, 0, .domain 4096, .rw, 0, .any⟩, -- Dirty-log windows: per entry function 1, window 1, reserved 2, base 8, length in 128 MiB units 4
  ⟨0x410E, 0x410E, false, 0, 0, .u8, .wo, 0, .between 0 255⟩] -- Harvest function

/-- Objects 0x4100–0x41FF, part 2: the dictionary tables of R326. -/
def objFunc2 : List ObjRow := [
  ⟨0x410F, 0x410F, false, 1, 8, .domain 2097152, .ro, 0, .any⟩, -- Harvested bitmap, windows 1–8 of selected function
  ⟨0x4110, 0x4110, false, 1, 1, .u32, .ro, 0, .any⟩, -- Selected function: harvests; writes outside windows; last harvest instant, epoch and phase
  ⟨0x4110, 0x4110, false, 2, 3, .u64, .ro, 0, .any⟩, -- Selected function: harvests; writes outside windows; last harvest instant, epoch and phase
  ⟨0x4111, 0x4111, false, 1, 3, .u32, .ro, 0, .any⟩, -- FLRs; last FLR duration, µs; longest, µs
  ⟨0x4112, 0x4112, false, 0, 0, .u64, .ro, 0, .any⟩, -- Jobs abandoned by FLR
  ⟨0x4113, 0x4113, false, 1, 2, .u32, .ro, 0, .any⟩, -- Share commits applied; reductions below present use
  ⟨0x4140, 0x4147, true, 1, 1, .u8, .ro, 0, .any⟩, -- NumVFs; TotalVFs
  ⟨0x4140, 0x4147, true, 2, 2, .u8, .ro, 31, .any⟩, -- NumVFs; TotalVFs
  ⟨0x4148, 0x414F, true, 1, 1, .u16, .ro, 2048, .any⟩, -- VQ resources: flexible total, assigned, PF private
  ⟨0x4148, 0x414F, true, 2, 2, .u16, .ro, 0, .any⟩, -- VQ resources: flexible total, assigned, PF private
  ⟨0x4148, 0x414F, true, 3, 3, .u16, .ro, 129, .any⟩, -- VQ resources: flexible total, assigned, PF private
  ⟨0x4150, 0x4157, true, 0, 0, .u16, .rw, 256, .between 0 1024⟩, -- Dirty-log area, MiB
  ⟨0x4158, 0x415F, true, 0, 0, .u16, .ro, 0, .any⟩, -- Dirty-log area in use, MiB
  ⟨0x4160, 0x4167, true, 1, 32, .u8, .ro, 8, .any⟩, -- Effective fetch weight, functions 0–31 of the port
  ⟨0x4168, 0x416F, true, 1, 2, .u64, .ro, 0, .any⟩, -- Arbitration rounds a function was passed over by its read cap; by its write cap
  ⟨0x4170, 0x4177, true, 0, 0, .u32, .ro, 0, .any⟩, -- Functions quiesced, bit f
  ⟨0x4178, 0x417F, true, 0, 0, .u32, .ro, 0, .any⟩, -- FLRs on port
  ⟨0x4180, 0x4187, true, 1, 6, .u64, .ro, 0, .any⟩, -- Jobs abandoned: cipher, digest, codec, dispatcher, search, media
  ⟨0x4188, 0x418F, true, 0, 0, .u32, .ro, 0, .any⟩, -- Faults confined
  ⟨0x4190, 0x4197, true, 0, 0, .u64, .ro, 0, .any⟩, -- Run Programs held for quota
  ⟨0x4198, 0x419F, true, 0, 0, .u32, .ro, 0, .any⟩] -- Hold limits expired with Busy

/-- Every object row of 0x4100–0x41FF. -/
def objFunc : List ObjRow := objFunc1 ++ objFunc2

/-- Objects 0x5000–0x51FF, part 1: the dictionary tables of R374, R410. -/
def objCompute1 : List ObjRow := [
  ⟨0x5000, 0x5000, false, 0, 0, .u32, .ro, 33751359, .any⟩, -- Instruction-set version, as ISAVER
  ⟨0x5001, 0x5001, false, 0, 0, .enum8, .rwl, 0, .enum 0 1 0⟩, -- Default instruction-set mode
  ⟨0x5002, 0x5002, false, 0, 0, .u8, .rw, 0, .between 0 63⟩, -- Program-signing HMAC key-state slot, on the lead's die
  ⟨0x5003, 0x5003, false, 0, 0, .u32, .rw, 0, .any⟩, -- Minimum program security version
  ⟨0x5004, 0x5004, false, 0, 0, .domain 4096, .ro, 0, .any⟩, -- Loaded handles: handle 1, state 1, mode 1, timing 1, SECVER 4, IDENT 8
  ⟨0x5005, 0x5005, false, 0, 0, .u8, .wo, 0, .between 0 255⟩, -- Select handle, this session
  ⟨0x5006, 0x5006, false, 1, 1, .enum8, .ro, 0, .any⟩, -- Selected handle: state, USE, TEXTLEN, SEGLEN, tasks running, runs started
  ⟨0x5006, 0x5006, false, 2, 2, .u8, .ro, 0, .any⟩, -- Selected handle: state, USE, TEXTLEN, SEGLEN, tasks running, runs started
  ⟨0x5006, 0x5006, false, 3, 4, .u32, .ro, 0, .any⟩, -- Selected handle: state, USE, TEXTLEN, SEGLEN, tasks running, runs started
  ⟨0x5006, 0x5006, false, 5, 5, .u16, .ro, 0, .any⟩, -- Selected handle: state, USE, TEXTLEN, SEGLEN, tasks running, runs started
  ⟨0x5006, 0x5006, false, 6, 6, .u64, .ro, 0, .any⟩, -- Selected handle: state, USE, TEXTLEN, SEGLEN, tasks running, runs started
  ⟨0x5007, 0x5007, false, 1, 2, .u32, .ro, 0, .any⟩, -- Images loaded, refused
  ⟨0x5008, 0x5008, false, 0, 0, .domain 2048, .rw, 0, .any⟩, -- Filter attachments, per R390
  ⟨0x5009, 0x5009, false, 0, 0, .bool, .ro, 0, .any⟩, -- Attachment change held
  ⟨0x500A, 0x500A, false, 1, 3, .u64, .ro, 0, .any⟩, -- Filter frames retired, missed, not created
  ⟨0x500B, 0x500B, false, 0, 0, .domain 5120, .ro, 0, .any⟩, -- Filter result records: spring 1, frame 4, die 1, reserved 2, inline 12; last 256
  ⟨0x500C, 0x500C, false, 0, 0, .u32, .rw, 1000, .between 10 100000⟩, -- Time slice, µs
  ⟨0x500D, 0x500D, false, 0, 0, .domain 1152, .ro, 0, .any⟩, -- Last 64 task ends: die 1, slot 2, cause 1, handle 1, reserved 1, result 4, trap cause 1, reserved 1, epoch 6
  ⟨0x500E, 0x500E, false, 1, 5, .u64, .ro, 0, .any⟩, -- Task ends by cause 0–4
  ⟨0x500F, 0x500F, false, 1, 3, .u64, .ro, 0, .any⟩, -- Run Programs started, completed, refused Busy
  ⟨0x5010, 0x5010, false, 0, 0, .u16, .rw, 64, .between 16 512⟩, -- Program store per die, MiB
  ⟨0x5011, 0x5011, false, 0, 0, .u8, .rw, 23, .between 20 27⟩, -- Zstandard maximum window, log₂ bytes
  ⟨0x5012, 0x5012, false, 0, 0, .bool, .wo, 0, .any⟩, -- Clear dispatcher histograms
  ⟨0x5013, 0x5013, false, 0, 0, .u16, .rw, 256, .between 0 1024⟩] -- Task slots reserved for filters per die

/-- Objects 0x5000–0x51FF, part 2: the dictionary tables of R410. -/
def objCompute2 : List ObjRow := [
  ⟨0x5014, 0x5014, false, 1, 2, .u8, .ro, 0, .any⟩, -- Last refusal: handle, reason per R380, epoch
  ⟨0x5014, 0x5014, false, 3, 3, .time48, .ro, 0, .any⟩, -- Last refusal: handle, reason per R380, epoch
  ⟨0x5015, 0x5015, false, 0, 0, .u32, .ro, 0, .any⟩, -- MS4 extensions
  ⟨0x5040, 0x5047, true, 1, 16, .u8, .rw, 16, .between 1 255⟩, -- Group weight
  ⟨0x5048, 0x504F, true, 1, 16, .u16, .rw, 65535, .between 1 65535⟩, -- Group core mask
  ⟨0x5050, 0x5057, true, 1, 16, .u16, .rw, 256, .between 1 4096⟩, -- Ready-list capacity
  ⟨0x5058, 0x505F, true, 1, 16, .u16, .ro, 0, .any⟩, -- Ready-list depth now
  ⟨0x5060, 0x5067, true, 1, 16, .u16, .ro, 0, .any⟩, -- Ready-list high-water
  ⟨0x5068, 0x506F, true, 0, 0, .domain 1024, .ro, 0, .any⟩, -- Waiting-time histograms, 16 groups × 16 bins, U32
  ⟨0x5070, 0x5077, true, 1, 16, .u8, .ro, 0, .any⟩, -- Core busy percent, last epoch
  ⟨0x5078, 0x507F, true, 1, 16, .u64, .ro, 0, .any⟩, -- Core busy cycles
  ⟨0x5080, 0x5087, true, 1, 1, .u16, .ro, 4096, .any⟩, -- Tasks free, waiting, ready, running, ended
  ⟨0x5080, 0x5087, true, 2, 5, .u16, .ro, 0, .any⟩, -- Tasks free, waiting, ready, running, ended
  ⟨0x5088, 0x508F, true, 0, 0, .u64, .ro, 0, .any⟩, -- Dispatches
  ⟨0x5090, 0x5097, true, 1, 2, .u64, .ro, 0, .any⟩, -- Preemptions by slice, by capture
  ⟨0x5098, 0x509F, true, 1, 2, .u64, .ro, 0, .any⟩, -- Hardware posts held; software requests refused
  ⟨0x50A0, 0x50A7, true, 0, 0, .u64, .ro, 0, .any⟩, -- Filter deadline misses
  ⟨0x50A8, 0x50AF, true, 1, 11, .u32, .ro, 0, .any⟩, -- Traps by cause 0x01–0x0B
  ⟨0x50B0, 0x50B7, true, 1, 1, .u8, .ro, 0, .any⟩, -- Physical core of logical core c
  ⟨0x50B0, 0x50B7, true, 2, 2, .u8, .ro, 1, .any⟩, -- Physical core of logical core c
  ⟨0x50B0, 0x50B7, true, 3, 3, .u8, .ro, 2, .any⟩, -- Physical core of logical core c
  ⟨0x50B0, 0x50B7, true, 4, 4, .u8, .ro, 3, .any⟩, -- Physical core of logical core c
  ⟨0x50B0, 0x50B7, true, 5, 5, .u8, .ro, 4, .any⟩, -- Physical core of logical core c
  ⟨0x50B0, 0x50B7, true, 6, 6, .u8, .ro, 5, .any⟩] -- Physical core of logical core c

/-- Objects 0x5000–0x51FF, part 3: the dictionary tables of R410. -/
def objCompute3 : List ObjRow := [
  ⟨0x50B0, 0x50B7, true, 7, 7, .u8, .ro, 6, .any⟩, -- Physical core of logical core c
  ⟨0x50B0, 0x50B7, true, 8, 8, .u8, .ro, 7, .any⟩, -- Physical core of logical core c
  ⟨0x50B0, 0x50B7, true, 9, 9, .u8, .ro, 8, .any⟩, -- Physical core of logical core c
  ⟨0x50B0, 0x50B7, true, 10, 10, .u8, .ro, 9, .any⟩, -- Physical core of logical core c
  ⟨0x50B0, 0x50B7, true, 11, 11, .u8, .ro, 10, .any⟩, -- Physical core of logical core c
  ⟨0x50B0, 0x50B7, true, 12, 12, .u8, .ro, 11, .any⟩, -- Physical core of logical core c
  ⟨0x50B0, 0x50B7, true, 13, 13, .u8, .ro, 12, .any⟩, -- Physical core of logical core c
  ⟨0x50B0, 0x50B7, true, 14, 14, .u8, .ro, 13, .any⟩, -- Physical core of logical core c
  ⟨0x50B0, 0x50B7, true, 15, 15, .u8, .ro, 14, .any⟩, -- Physical core of logical core c
  ⟨0x50B0, 0x50B7, true, 16, 16, .u8, .ro, 15, .any⟩, -- Physical core of logical core c
  ⟨0x50B8, 0x50BF, true, 0, 0, .u8, .ro, 2, .any⟩, -- Spare compute cores left
  ⟨0x50C0, 0x50C7, true, 1, 2, .u64, .ro, 0, .any⟩, -- Codec jobs done, ended in error
  ⟨0x50C8, 0x50CF, true, 1, 2, .u64, .ro, 0, .any⟩, -- Codec bytes in, out
  ⟨0x50D0, 0x50D7, true, 1, 2, .u16, .ro, 0, .any⟩, -- Codec queue depth now, high-water
  ⟨0x50D8, 0x50DF, true, 0, 0, .u64, .ro, 0, .any⟩, -- Program store in use, bytes
  ⟨0x50E0, 0x50E7, true, 1, 16, .u8, .ro, 0, .any⟩, -- Resident tasks per core
  ⟨0x50E8, 0x50EF, true, 1, 16, .u32, .ro, 0, .any⟩, -- Instruction memory in use per core, bytes
  ⟨0x50F0, 0x50F7, true, 0, 0, .u16, .wo, 0, .between 0 4095⟩, -- Select task slot, this session
  ⟨0x50F8, 0x50FF, true, 1, 1, .enum8, .ro, 0, .any⟩, -- Selected task: state, handle, group, class, core, wait mask, flags, cycles
  ⟨0x50F8, 0x50FF, true, 2, 3, .u8, .ro, 0, .any⟩, -- Selected task: state, handle, group, class, core, wait mask, flags, cycles
  ⟨0x50F8, 0x50FF, true, 4, 4, .enum8, .ro, 0, .any⟩, -- Selected task: state, handle, group, class, core, wait mask, flags, cycles
  ⟨0x50F8, 0x50FF, true, 5, 5, .u8, .ro, 0, .any⟩, -- Selected task: state, handle, group, class, core, wait mask, flags, cycles
  ⟨0x50F8, 0x50FF, true, 6, 7, .u32, .ro, 0, .any⟩, -- Selected task: state, handle, group, class, core, wait mask, flags, cycles
  ⟨0x50F8, 0x50FF, true, 8, 8, .u64, .ro, 0, .any⟩] -- Selected task: state, handle, group, class, core, wait mask, flags, cycles

/-- Objects 0x5000–0x51FF, part 4: the dictionary tables of R410. -/
def objCompute4 : List ObjRow := [
  ⟨0x5100, 0x5107, true, 0, 0, .u16, .wo, 0, .between 0 4095⟩, -- Reset task slot
  ⟨0x5108, 0x510F, true, 1, 3, .u64, .ro, 0, .any⟩, -- JSUB busy answers: cipher, digest, codec
  ⟨0x5110, 0x5117, true, 0, 0, .u64, .ro, 0, .any⟩, -- Filter frames missed by ring reclaim
  ⟨0x5118, 0x511F, true, 0, 0, .u64, .ro, 0, .any⟩, -- Filter input entries written
  ⟨0x5120, 0x5127, true, 0, 0, .domain 64, .ro, 0, .any⟩, -- Filter slack histogram: retire-to-deadline, 16 bins in the bins of R408
  ⟨0x5128, 0x512F, true, 0, 0, .u16, .ro, 0, .any⟩] -- Task slots in use, high-water

/-- Every object row of 0x5000–0x51FF. -/
def objCompute : List ObjRow := objCompute1 ++ objCompute2 ++ objCompute3 ++ objCompute4

/-- Objects 0x5200–0x52FF, part 1: the dictionary tables of R196. -/
def objPond1 : List ObjRow := [
  ⟨0x5200, 0x5200, false, 0, 0, .u16, .rw, 16, .between 1 1024⟩, -- Audit interval, epochs
  ⟨0x5201, 0x5201, false, 0, 0, .u16, .wo, 0, .between 0 511⟩, -- Select pool, this session: 64 × die + pool
  ⟨0x5202, 0x5202, false, 0, 0, .domain 3072, .ro, 0, .any⟩, -- Owner table of selected pool: per owner, ID 4 bytes, target 2, effective 2, held 2, departing 1, reserved 1
  ⟨0x5203, 0x5203, false, 0, 0, .domain 2052, .rw, 0, .any⟩, -- Reservations: die 1 byte, pool 1, entries 2; per entry, owner ID 4, target 2 (0xFFFF removes), reserved 2; refusals per R182
  ⟨0x5204, 0x5204, false, 0, 0, .u32, .wo, 0, .any⟩, -- Query handle
  ⟨0x5205, 0x5205, false, 1, 2, .u8, .ro, 0, .any⟩, -- Query result: status, generation, holder IDs, quarantined
  ⟨0x5205, 0x5205, false, 3, 3, .domain 0, .ro, 0, .any⟩, -- Query result: status, generation, holder IDs, quarantined
  ⟨0x5205, 0x5205, false, 4, 4, .bool, .ro, 0, .any⟩, -- Query result: status, generation, holder IDs, quarantined
  ⟨0x5206, 0x5206, false, 1, 3, .u64, .ro, 0, .any⟩, -- Misuse totals: non-owner, stale, double free
  ⟨0x5207, 0x5207, false, 0, 0, .domain 18, .ro, 0, .any⟩, -- Last misuse: handle 4, owner ID 4, operation 1 (0 GET, 1 ADDREF, 2 PASS, 3 PUT), status 1, epoch 6, phase 2
  ⟨0x5240, 0x5247, true, 1, 64, .enum8, .rw, 0, .enum 0 2 0⟩, -- Pool kind
  ⟨0x5248, 0x524F, true, 1, 64, .u8, .rw, 0, .between 8 22⟩, -- Buffer size, log₂ bytes
  ⟨0x5250, 0x5257, true, 1, 64, .u16, .rw, 0, .between 1 32768⟩, -- Buffer count
  ⟨0x5258, 0x525F, true, 1, 64, .enum8, .rw, 0, .enum 0 2 0⟩, -- Span
  ⟨0x5260, 0x5267, true, 1, 64, .enum8, .rw, 0, .enum 0 4 4⟩, -- Pool class
  ⟨0x5268, 0x526F, true, 1, 64, .u16, .rw, 0, .between 0 32768⟩, -- W1
  ⟨0x5270, 0x5277, true, 1, 64, .u16, .rw, 0, .between 0 32768⟩, -- W2
  ⟨0x5278, 0x527F, true, 1, 64, .u16, .rw, 0, .between 0 32768⟩, -- W3
  ⟨0x5280, 0x5287, true, 1, 64, .enum8, .ro, 0, .any⟩, -- Pool state
  ⟨0x5288, 0x528F, true, 1, 64, .enum8, .ro, 0, .any⟩, -- Release discipline
  ⟨0x5290, 0x5297, true, 1, 64, .u16, .ro, 0, .any⟩, -- Free buffers
  ⟨0x5298, 0x529F, true, 1, 64, .u16, .ro, 0, .any⟩, -- Held buffers
  ⟨0x52A0, 0x52A7, true, 1, 64, .u16, .ro, 0, .any⟩, -- Quarantined buffers
  ⟨0x52A8, 0x52AF, true, 1, 64, .u16, .ro, 0, .any⟩] -- Fill high-water mark

/-- Objects 0x5200–0x52FF, part 2: the dictionary tables of R196. -/
def objPond2 : List ObjRow := [
  ⟨0x52B0, 0x52B7, true, 1, 64, .u16, .ro, 0, .any⟩, -- Owners registered
  ⟨0x52B8, 0x52BF, true, 1, 64, .u64, .ro, 0, .any⟩, -- GETs granted
  ⟨0x52C0, 0x52C7, true, 1, 64, .u64, .ro, 0, .any⟩, -- GETs answered EMPTY
  ⟨0x52C8, 0x52CF, true, 1, 64, .u32, .ro, 0, .any⟩, -- Non-owner misuse
  ⟨0x52D0, 0x52D7, true, 1, 64, .u32, .ro, 0, .any⟩, -- Stale handles
  ⟨0x52D8, 0x52DF, true, 1, 64, .u32, .ro, 0, .any⟩, -- Double frees
  ⟨0x52E0, 0x52E7, true, 1, 64, .u32, .ro, 0, .any⟩, -- Operations answered DISCIPLINE
  ⟨0x52E8, 0x52EF, true, 0, 0, .u32, .rw, 2048, .between 256 4294967295⟩, -- DRAM pond region, MiB
  ⟨0x52F0, 0x52F7, true, 1, 4, .u32, .ro, 0, .any⟩, -- Pool SRAM in use KiB, SRAM free KiB, DRAM in use MiB, DRAM free MiB
  ⟨0x52F8, 0x52FF, true, 1, 64, .u32, .ro, 0, .any⟩] -- Audit mismatches

/-- Every object row of 0x5200–0x52FF. -/
def objPond : List ObjRow := objPond1 ++ objPond2

/-- Objects 0x6000–0x63FF, part 1: the dictionary tables of R465. -/
def objCipher1 : List ObjRow := [
  ⟨0x6000, 0x6000, false, 1, 1, .u8, .ro, 4, .any⟩, -- AES cores per die; key slots per die; context stores
  ⟨0x6000, 0x6000, false, 2, 2, .u16, .ro, 1024, .any⟩, -- AES cores per die; key slots per die; context stores
  ⟨0x6000, 0x6000, false, 3, 3, .u8, .ro, 16, .any⟩, -- AES cores per die; key slots per die; context stores
  ⟨0x6001, 0x6001, false, 0, 0, .enum8, .rw, 1, .enum 0 1 1⟩, -- XTS key size for new namespaces
  ⟨0x6002, 0x6002, false, 1, 1, .u8, .rw, 8, .between 1 255⟩, -- Class weights: host I/O, lake, compute, diagnostics
  ⟨0x6002, 0x6002, false, 2, 2, .u8, .rw, 4, .between 1 255⟩, -- Class weights: host I/O, lake, compute, diagnostics
  ⟨0x6002, 0x6002, false, 3, 3, .u8, .rw, 2, .between 1 255⟩, -- Class weights: host I/O, lake, compute, diagnostics
  ⟨0x6002, 0x6002, false, 4, 4, .u8, .rw, 1, .between 1 255⟩, -- Class weights: host I/O, lake, compute, diagnostics
  ⟨0x6003, 0x6003, false, 0, 0, .u32, .rw, 4000, .between 500 1000000⟩, -- Urgency wait, ns
  ⟨0x6004, 0x6004, false, 0, 0, .u16, .ro, 0, .any⟩, -- Persistent keys stored
  ⟨0x6005, 0x6005, false, 0, 0, .domain 3200, .rw, 0, .any⟩, -- Key blob load, per R447
  ⟨0x6006, 0x6006, false, 1, 1, .u16, .ro, 0, .any⟩, -- Last load: slot, dies accepted, reason 0–6, epoch
  ⟨0x6006, 0x6006, false, 2, 3, .u8, .ro, 0, .any⟩, -- Last load: slot, dies accepted, reason 0–6, epoch
  ⟨0x6006, 0x6006, false, 4, 4, .time48, .ro, 0, .any⟩, -- Last load: slot, dies accepted, reason 0–6, epoch
  ⟨0x6007, 0x6007, false, 0, 0, .u32, .wo, 0, .any⟩, -- Clear slot: dies [31:24], slot [9:0]
  ⟨0x6008, 0x6008, false, 0, 0, .u16, .wo, 0, .any⟩, -- Select slot, this session: die [12:10], slot [9:0]
  ⟨0x6009, 0x6009, false, 1, 1, .enum8, .ro, 0, .any⟩, -- Selected slot: state, TYPE, POLICY, OWNER, KEYID, counter, jobs running
  ⟨0x6009, 0x6009, false, 2, 2, .u8, .ro, 0, .any⟩, -- Selected slot: state, TYPE, POLICY, OWNER, KEYID, counter, jobs running
  ⟨0x6009, 0x6009, false, 3, 4, .u16, .ro, 0, .any⟩, -- Selected slot: state, TYPE, POLICY, OWNER, KEYID, counter, jobs running
  ⟨0x6009, 0x6009, false, 5, 6, .u64, .ro, 0, .any⟩, -- Selected slot: state, TYPE, POLICY, OWNER, KEYID, counter, jobs running
  ⟨0x6009, 0x6009, false, 7, 7, .u16, .ro, 0, .any⟩, -- Selected slot: state, TYPE, POLICY, OWNER, KEYID, counter, jobs running
  ⟨0x600A, 0x600A, false, 1, 8, .domain 32, .rwl, 0, .any⟩, -- Production slot values
  ⟨0x600B, 0x600B, false, 1, 8, .u32, .ro, 0, .any⟩, -- Production slot check values
  ⟨0x600C, 0x600C, false, 1, 8, .u8, .ro, 0, .any⟩] -- Production slot rotation ordinals

/-- Objects 0x6000–0x63FF, part 2: the dictionary tables of R465. -/
def objCipher2 : List ObjRow := [
  ⟨0x600D, 0x600D, false, 0, 0, .domain 3072, .ro, 0, .any⟩, -- Key store: per key, slot 2, dies 1, TYPE 1, KEYID 8
  ⟨0x600E, 0x600E, false, 0, 0, .u16, .wo, 0, .between 0 1023⟩, -- Remove stored key: slot
  ⟨0x600F, 0x600F, false, 0, 0, .u32, .ro, 0, .any⟩, -- Key generation of the namespace selected by 0x4018
  ⟨0x6010, 0x6010, false, 1, 5, .u64, .ro, 0, .any⟩, -- Jobs by class
  ⟨0x6011, 0x6011, false, 1, 5, .u64, .ro, 0, .any⟩, -- Bytes by class
  ⟨0x6012, 0x6012, false, 0, 0, .u64, .ro, 0, .any⟩, -- Preemptions
  ⟨0x6013, 0x6013, false, 0, 0, .u64, .ro, 0, .any⟩, -- GCM tag failures
  ⟨0x6014, 0x6014, false, 0, 0, .u64, .ro, 0, .any⟩, -- Policy refusals
  ⟨0x6015, 0x6015, false, 0, 0, .u32, .ro, 0, .any⟩, -- Slots that became decrypt-only
  ⟨0x6016, 0x6016, false, 1, 6, .u32, .ro, 0, .any⟩, -- Blobs refused by reason 1–6
  ⟨0x6017, 0x6017, false, 0, 0, .u32, .ro, 0, .any⟩, -- Namespace key derivations
  ⟨0x6018, 0x6018, false, 1, 2, .u32, .ro, 0, .any⟩, -- Stored keys reloaded, dropped
  ⟨0x6019, 0x6019, false, 1, 1, .u8, .ro, 0, .any⟩, -- Last job error: die, slot, status, epoch
  ⟨0x6019, 0x6019, false, 2, 2, .u16, .ro, 0, .any⟩, -- Last job error: die, slot, status, epoch
  ⟨0x6019, 0x6019, false, 3, 3, .u8, .ro, 0, .any⟩, -- Last job error: die, slot, status, epoch
  ⟨0x6019, 0x6019, false, 4, 4, .time48, .ro, 0, .any⟩, -- Last job error: die, slot, status, epoch
  ⟨0x6100, 0x6107, true, 1, 2, .u16, .ro, 0, .any⟩, -- Slots active; slots decrypt-only
  ⟨0x6108, 0x610F, true, 1, 4, .u8, .ro, 0, .any⟩, -- Core busy percent, last epoch
  ⟨0x6110, 0x6117, true, 1, 4, .u64, .ro, 0, .any⟩, -- Bytes per core
  ⟨0x6118, 0x611F, true, 1, 5, .u16, .ro, 0, .any⟩, -- Queue depth by class
  ⟨0x6120, 0x6127, true, 1, 5, .u16, .ro, 0, .any⟩, -- Queue high-water by class
  ⟨0x6128, 0x612F, true, 1, 2, .u8, .ro, 0, .any⟩, -- Context stores in use; high-water
  ⟨0x6130, 0x6137, true, 0, 0, .u64, .ro, 0, .any⟩, -- Preemptions on die
  ⟨0x6138, 0x613F, true, 0, 0, .u64, .ro, 0, .any⟩] -- GCM encryptions

/-- Objects 0x6000–0x63FF, part 3: the dictionary tables of R465. -/
def objCipher3 : List ObjRow := [
  ⟨0x6140, 0x6147, true, 0, 0, .u64, .ro, 0, .any⟩, -- GCM tag failures on die
  ⟨0x6148, 0x614F, true, 0, 0, .u64, .ro, 0, .any⟩, -- Jobs abandoned by reset
  ⟨0x6150, 0x6157, true, 0, 0, .u8, .ro, 4, .any⟩, -- AES cores in service
  ⟨0x6158, 0x615F, true, 1, 2, .u32, .ro, 0, .any⟩, -- Blobs unwrapped; refused
  ⟨0x6160, 0x6167, true, 0, 0, .u32, .ro, 0, .any⟩, -- Longest capture-job wait, ns
  ⟨0x6168, 0x616F, true, 0, 0, .u64, .ro, 0, .any⟩] -- Counter blocks journalled

/-- Every object row of 0x6000–0x63FF. -/
def objCipher : List ObjRow := objCipher1 ++ objCipher2 ++ objCipher3

/-- Objects 0x6400–0x66FF, part 1: the dictionary tables of R492. -/
def objDigest1 : List ObjRow := [
  ⟨0x6400, 0x6400, false, 1, 1, .u8, .ro, 2, .any⟩, -- SHA-2 cores per die; key-state slots per die; measurement slots; context stores per die
  ⟨0x6400, 0x6400, false, 2, 2, .u8, .ro, 64, .any⟩, -- SHA-2 cores per die; key-state slots per die; measurement slots; context stores per die
  ⟨0x6400, 0x6400, false, 3, 3, .u8, .ro, 24, .any⟩, -- SHA-2 cores per die; key-state slots per die; measurement slots; context stores per die
  ⟨0x6400, 0x6400, false, 4, 4, .u8, .ro, 16, .any⟩, -- SHA-2 cores per die; key-state slots per die; measurement slots; context stores per die
  ⟨0x6401, 0x6401, false, 1, 1, .u8, .rw, 8, .between 1 255⟩, -- Class weights: host I/O, lake, compute, diagnostics
  ⟨0x6401, 0x6401, false, 2, 2, .u8, .rw, 4, .between 1 255⟩, -- Class weights: host I/O, lake, compute, diagnostics
  ⟨0x6401, 0x6401, false, 3, 3, .u8, .rw, 2, .between 1 255⟩, -- Class weights: host I/O, lake, compute, diagnostics
  ⟨0x6401, 0x6401, false, 4, 4, .u8, .rw, 1, .between 1 255⟩, -- Class weights: host I/O, lake, compute, diagnostics
  ⟨0x6402, 0x6402, false, 0, 0, .u32, .rw, 4000, .between 500 1000000⟩, -- Urgency wait, ns
  ⟨0x6403, 0x6403, false, 0, 0, .domain 512, .rw, 0, .any⟩, -- Key-state load: per entry dies 1, slot 1, ALG 1, reserved 1, cipher slot 2, reserved 2
  ⟨0x6404, 0x6404, false, 0, 0, .u32, .wo, 0, .any⟩, -- Empty key-state slot: dies [31:24], slot [5:0]
  ⟨0x6405, 0x6405, false, 0, 0, .u16, .wo, 0, .any⟩, -- Select key-state slot, this session: die [10:8], slot [5:0]
  ⟨0x6406, 0x6406, false, 1, 1, .enum8, .ro, 0, .any⟩, -- Selected slot: state, ALG, cipher slot, KEYID, load generation, jobs
  ⟨0x6406, 0x6406, false, 2, 2, .u8, .ro, 0, .any⟩, -- Selected slot: state, ALG, cipher slot, KEYID, load generation, jobs
  ⟨0x6406, 0x6406, false, 3, 3, .u16, .ro, 0, .any⟩, -- Selected slot: state, ALG, cipher slot, KEYID, load generation, jobs
  ⟨0x6406, 0x6406, false, 4, 4, .u64, .ro, 0, .any⟩, -- Selected slot: state, ALG, cipher slot, KEYID, load generation, jobs
  ⟨0x6406, 0x6406, false, 5, 5, .u32, .ro, 0, .any⟩, -- Selected slot: state, ALG, cipher slot, KEYID, load generation, jobs
  ⟨0x6406, 0x6406, false, 6, 6, .u64, .ro, 0, .any⟩, -- Selected slot: state, ALG, cipher slot, KEYID, load generation, jobs
  ⟨0x6407, 0x6407, false, 1, 3, .u8, .ro, 0, .any⟩, -- Last load: slot, dies accepted, reason 0–3, epoch
  ⟨0x6407, 0x6407, false, 4, 4, .time48, .ro, 0, .any⟩, -- Last load: slot, dies accepted, reason 0–3, epoch
  ⟨0x6408, 0x6408, false, 0, 0, .u8, .rw, 255, .orNone 63 0xFF⟩, -- Attestation key-state slot, die 0
  ⟨0x6409, 0x6409, false, 0, 0, .domain 36, .wo, 0, .any⟩, -- Report request: nonce 32, mask 4
  ⟨0x640A, 0x640A, false, 0, 0, .domain 1360, .ro, 0, .any⟩, -- Report of this session
  ⟨0x640B, 0x640B, false, 1, 24, .domain 48, .ro, 0, .any⟩] -- Slot values MS0–MS23

/-- Objects 0x6400–0x66FF, part 2: the dictionary tables of R492. -/
def objDigest2 : List ObjRow := [
  ⟨0x640C, 0x640C, false, 1, 24, .u32, .ro, 0, .any⟩, -- Extension counts MS0–MS23
  ⟨0x640D, 0x640D, false, 0, 0, .u8, .wo, 0, .between 0 23⟩, -- Select slot for log, this session
  ⟨0x640E, 0x640E, false, 0, 0, .domain 589880, .ro, 0, .any⟩, -- Log of selected slot, per R488
  ⟨0x640F, 0x640F, false, 1, 8, .domain 128, .wo, 0, .any⟩, -- Extend MS8–MS15
  ⟨0x6410, 0x6410, false, 1, 24, .u32, .ro, 0, .any⟩, -- Records pushed out of log, MS0–MS23
  ⟨0x6411, 0x6411, false, 1, 5, .u64, .ro, 0, .any⟩, -- Jobs by class
  ⟨0x6412, 0x6412, false, 1, 5, .u64, .ro, 0, .any⟩, -- Bytes by class
  ⟨0x6413, 0x6413, false, 1, 3, .u64, .ro, 0, .any⟩, -- Comparisons equal, not equal, comparator faults
  ⟨0x6414, 0x6414, false, 0, 0, .u32, .ro, 0, .any⟩, -- Register jobs ended 0x01 or 0x0B
  ⟨0x6415, 0x6415, false, 0, 0, .u32, .ro, 0, .any⟩, -- Register jobs ended 0x0A
  ⟨0x6416, 0x6416, false, 0, 0, .u32, .ro, 0, .any⟩, -- Contexts refused
  ⟨0x6417, 0x6417, false, 0, 0, .u64, .ro, 0, .any⟩, -- Preemptions
  ⟨0x6418, 0x6418, false, 0, 0, .u64, .ro, 0, .any⟩, -- Policy refusals
  ⟨0x6419, 0x6419, false, 1, 2, .u8, .ro, 0, .any⟩, -- Last job error: die, status, epoch
  ⟨0x6419, 0x6419, false, 3, 3, .time48, .ro, 0, .any⟩, -- Last job error: die, status, epoch
  ⟨0x641A, 0x641A, false, 0, 0, .domain 512, .ro, 0, .any⟩, -- Boot records of MS0–MS3
  ⟨0x641B, 0x641B, false, 0, 0, .u32, .ro, 0, .any⟩, -- Reports issued
  ⟨0x641C, 0x641C, false, 1, 2, .u64, .ro, 0, .any⟩, -- Register jobs, set 0 and set 1, all dies
  ⟨0x641D, 0x641D, false, 0, 0, .u8, .ro, 0, .any⟩, -- Take-key registers in use, bit n − 1 for take slot n
  ⟨0x641E, 0x641E, false, 0, 0, .u32, .ro, 0, .any⟩, -- Key-state slots emptied by source change
  ⟨0x641F, 0x641F, false, 0, 0, .u64, .ro, 0, .any⟩, -- Keyed jobs taking the key from a cipher slot
  ⟨0x6420, 0x6420, false, 1, 3, .u64, .ro, 0, .any⟩, -- Jobs by ALG 1–3
  ⟨0x6421, 0x6421, false, 1, 1, .u8, .ro, 0, .any⟩, -- Last extension: slot, ordinal, epoch, phase
  ⟨0x6421, 0x6421, false, 2, 2, .u32, .ro, 0, .any⟩] -- Last extension: slot, ordinal, epoch, phase

/-- Objects 0x6400–0x66FF, part 3: the dictionary tables of R492. -/
def objDigest3 : List ObjRow := [
  ⟨0x6421, 0x6421, false, 3, 3, .time48, .ro, 0, .any⟩, -- Last extension: slot, ordinal, epoch, phase
  ⟨0x6421, 0x6421, false, 4, 4, .u16, .ro, 0, .any⟩, -- Last extension: slot, ordinal, epoch, phase
  ⟨0x6600, 0x6607, true, 1, 2, .u8, .ro, 0, .any⟩, -- Core busy percent, last epoch
  ⟨0x6608, 0x660F, true, 1, 2, .u64, .ro, 0, .any⟩, -- Bytes per core
  ⟨0x6610, 0x6617, true, 1, 5, .u16, .ro, 0, .any⟩, -- Queue depth by class
  ⟨0x6618, 0x661F, true, 0, 0, .u8, .ro, 0, .any⟩, -- Key-state slots loaded
  ⟨0x6620, 0x6627, true, 1, 2, .u8, .ro, 0, .any⟩, -- Context stores in use; high-water
  ⟨0x6628, 0x662F, true, 0, 0, .u8, .ro, 2, .any⟩] -- SHA-2 cores in service

/-- Every object row of 0x6400–0x66FF. -/
def objDigest : List ObjRow := objDigest1 ++ objDigest2 ++ objDigest3

/-- Objects 0x7000–0x70FF, part 1: the dictionary tables of R439. -/
def objSearch1 : List ObjRow := [
  ⟨0x7000, 0x7000, false, 1, 1, .u16, .ro, 32768, .any⟩, -- Rows per die; spare rows per die; tables; widths, bit 0 144, bit 1 288, bit 2 576
  ⟨0x7000, 0x7000, false, 2, 2, .u16, .ro, 1024, .any⟩, -- Rows per die; spare rows per die; tables; widths, bit 0 144, bit 1 288, bit 2 576
  ⟨0x7000, 0x7000, false, 3, 3, .u8, .ro, 64, .any⟩, -- Rows per die; spare rows per die; tables; widths, bit 0 144, bit 1 288, bit 2 576
  ⟨0x7000, 0x7000, false, 4, 4, .u8, .ro, 7, .any⟩, -- Rows per die; spare rows per die; tables; widths, bit 0 144, bit 1 288, bit 2 576
  ⟨0x7001, 0x7001, false, 0, 0, .domain 1024, .rw, 0, .any⟩, -- Table definitions, per R415
  ⟨0x7002, 0x7002, false, 1, 1, .u8, .rw, 0, .between 0 3⟩, -- Package position; packages in ring; ring state 0 none, 1 up, 2 down, 3 position conflict
  ⟨0x7002, 0x7002, false, 2, 2, .u8, .rw, 1, .between 1 4⟩, -- Package position; packages in ring; ring state 0 none, 1 up, 2 down, 3 position conflict
  ⟨0x7002, 0x7002, false, 3, 3, .enum8, .ro, 0, .any⟩, -- Package position; packages in ring; ring state 0 none, 1 up, 2 down, 3 position conflict
  ⟨0x7003, 0x7003, false, 0, 0, .domain 512, .ro, 0, .any⟩, -- Table states: per table, state 0 off, 1 active, 2 changing, 3 unassigned (1 byte), valid entries 4, queued 1, reserved 2
  ⟨0x7004, 0x7004, false, 0, 0, .u32, .rw, 1024, .between 16 1000000⟩, -- Array scrub period, epochs
  ⟨0x7005, 0x7005, false, 0, 0, .u32, .wo, 0, .between 0 1048575⟩, -- Select address, this session
  ⟨0x7006, 0x7006, false, 0, 0, .domain 192, .ro, 0, .any⟩, -- Entry record at selected address, per R434
  ⟨0x7007, 0x7007, false, 0, 0, .domain 3145732, .rw, 0, .any⟩, -- Entry load: table 1, op 1 (0 insert, 1 clear first), count 2; records per R434
  ⟨0x7008, 0x7008, false, 1, 5, .u64, .ro, 0, .any⟩, -- Searches: package, board, lake, host, coprocessor
  ⟨0x7009, 0x7009, false, 1, 5, .u64, .ro, 0, .any⟩, -- False hits; repeats; unreliable searches; entries lost; output keys discarded
  ⟨0x700A, 0x700A, false, 0, 0, .domain 256, .ro, 0, .any⟩, -- Move counter per table, U32 × 64
  ⟨0x700B, 0x700B, false, 1, 2, .u8, .ro, 0, .any⟩, -- Last refusal: table, status, address, epoch
  ⟨0x700B, 0x700B, false, 3, 3, .u32, .ro, 0, .any⟩, -- Last refusal: table, status, address, epoch
  ⟨0x700B, 0x700B, false, 4, 4, .time48, .ro, 0, .any⟩, -- Last refusal: table, status, address, epoch
  ⟨0x7080, 0x7087, true, 0, 0, .u64, .ro, 0, .any⟩, -- Searches served on die
  ⟨0x7088, 0x708F, true, 1, 1, .u8, .ro, 0, .any⟩, -- Search cycles used, percent of last epoch; cycles a requester waited
  ⟨0x7088, 0x708F, true, 2, 2, .u64, .ro, 0, .any⟩, -- Search cycles used, percent of last epoch; cycles a requester waited
  ⟨0x7090, 0x7097, true, 0, 0, .u16, .ro, 0, .any⟩, -- Valid rows
  ⟨0x7098, 0x709F, true, 0, 0, .u16, .ro, 0, .any⟩] -- Suspect rows now

/-- Objects 0x7000–0x70FF, part 2: the dictionary tables of R439. -/
def objSearch2 : List ObjRow := [
  ⟨0x70A0, 0x70A7, true, 0, 0, .u32, .ro, 0, .any⟩, -- Rows rewritten
  ⟨0x70A8, 0x70AF, true, 0, 0, .u16, .ro, 1024, .any⟩, -- Spare rows left
  ⟨0x70B0, 0x70B7, true, 0, 0, .u16, .ro, 0, .any⟩, -- Rows retired
  ⟨0x70B8, 0x70BF, true, 0, 0, .u32, .ro, 0, .any⟩, -- Key-copy words corrected
  ⟨0x70C0, 0x70C7, true, 1, 2, .u64, .ro, 0, .any⟩, -- Entries moved; moves across a die boundary
  ⟨0x70C8, 0x70CF, true, 1, 2, .u64, .ro, 0, .any⟩] -- Rows scrubbed; scrub mismatches

/-- Every object row of 0x7000–0x70FF. -/
def objSearch : List ObjRow := objSearch1 ++ objSearch2

/-- Objects 0x8000–0x82FF, part 1: the dictionary tables of R565. -/
def objPower1 : List ObjRow := [
  ⟨0x8000, 0x8000, false, 1, 1, .u8, .ro, 10, .any⟩, -- Domains per die; housekeeping channels; round period, ms
  ⟨0x8000, 0x8000, false, 2, 2, .u8, .ro, 32, .any⟩, -- Domains per die; housekeeping channels; round period, ms
  ⟨0x8000, 0x8000, false, 3, 3, .u8, .ro, 8, .any⟩, -- Domains per die; housekeeping channels; round period, ms
  ⟨0x8001, 0x8001, false, 0, 0, .enum8, .rwl, 0, .enum 0 6 0⟩, -- Maximum power class
  ⟨0x8002, 0x8002, false, 1, 2, .u32, .ro, 0, .any⟩, -- Class limit mW; enforced limit mW; enforcement step
  ⟨0x8002, 0x8002, false, 3, 3, .u8, .ro, 0, .any⟩, -- Class limit mW; enforced limit mW; enforcement step
  ⟨0x8003, 0x8003, false, 1, 3, .u32, .ro, 0, .any⟩, -- Package power mW: last round, 32-round average, peak
  ⟨0x8004, 0x8004, false, 1, 2, .enum8, .ro, 0, .any⟩, -- Thermal level; cause; epoch entered
  ⟨0x8004, 0x8004, false, 3, 3, .time48, .ro, 0, .any⟩, -- Thermal level; cause; epoch entered
  ⟨0x8005, 0x8005, false, 1, 1, .i32, .ro, 0, .any⟩, -- Hottest junction; die; sensor; greatest rise
  ⟨0x8005, 0x8005, false, 2, 3, .u8, .ro, 0, .any⟩, -- Hottest junction; die; sensor; greatest rise
  ⟨0x8005, 0x8005, false, 4, 4, .i32, .ro, 0, .any⟩, -- Hottest junction; die; sensor; greatest rise
  ⟨0x8006, 0x8006, false, 1, 1, .i32, .ro, 950, .any⟩, -- Thresholds: warning, throttle, critical, trip; rise warning, rise throttle
  ⟨0x8006, 0x8006, false, 2, 2, .i32, .ro, 1000, .any⟩, -- Thresholds: warning, throttle, critical, trip; rise warning, rise throttle
  ⟨0x8006, 0x8006, false, 3, 3, .i32, .ro, 1100, .any⟩, -- Thresholds: warning, throttle, critical, trip; rise warning, rise throttle
  ⟨0x8006, 0x8006, false, 4, 4, .i32, .ro, 1180, .any⟩, -- Thresholds: warning, throttle, critical, trip; rise warning, rise throttle
  ⟨0x8006, 0x8006, false, 5, 5, .i32, .ro, 150, .any⟩, -- Thresholds: warning, throttle, critical, trip; rise warning, rise throttle
  ⟨0x8006, 0x8006, false, 6, 6, .i32, .ro, 400, .any⟩, -- Thresholds: warning, throttle, critical, trip; rise warning, rise throttle
  ⟨0x8007, 0x8007, false, 0, 0, .u8, .rw, 3, .between 1 10⟩, -- Hysteresis, °C
  ⟨0x8008, 0x8008, false, 0, 0, .u32, .rw, 2000, .between 100 30000⟩, -- Grace time, ms
  ⟨0x8009, 0x8009, false, 0, 0, .u32, .rw, 1000, .between 100 10000⟩, -- Step interval, ms
  ⟨0x800A, 0x800A, false, 0, 0, .u16, .rw, 10, .between 1 600⟩, -- Release time, s
  ⟨0x800B, 0x800B, false, 1, 1, .q15, .rw, 24576, .between 4096 32767⟩, -- Requested fraction at throttle, at critical
  ⟨0x800B, 0x800B, false, 2, 2, .q15, .rw, 16384, .between 4096 32767⟩] -- Requested fraction at throttle, at critical

/-- Objects 0x8000–0x82FF, part 2: the dictionary tables of R565. -/
def objPower2 : List ObjRow := [
  ⟨0x800C, 0x800C, false, 0, 0, .u16, .rw, 0, .between 0 65535⟩, -- Readout phase
  ⟨0x800D, 0x800D, false, 1, 1, .bool, .ro, 0, .any⟩, -- Enforcement waiting for takes; grace left, ms; steps made
  ⟨0x800D, 0x800D, false, 2, 3, .u32, .ro, 0, .any⟩, -- Enforcement waiting for takes; grace left, ms; steps made
  ⟨0x800E, 0x800E, false, 1, 5, .u32, .ro, 0, .any⟩, -- Entries to level 1, 2, 3; power-limit requests; trips
  ⟨0x800F, 0x800F, false, 0, 0, .domain 14, .ro, 0, .any⟩, -- Last trip: die 1, sensor 1, reserved 2, epoch 6, reading 4
  ⟨0x8100, 0x8107, true, 0, 0, .u16, .rw, 1023, .between 0 1023⟩, -- Domains requested on, bit n for PD d.n
  ⟨0x8108, 0x810F, true, 0, 0, .u16, .ro, 1023, .any⟩, -- Domains on now
  ⟨0x8110, 0x8117, true, 0, 0, .u16, .ro, 0, .any⟩, -- Domain requests unassigned
  ⟨0x8118, 0x811F, true, 1, 10, .u32, .ro, 0, .any⟩, -- Transitions per domain
  ⟨0x8120, 0x8127, true, 1, 12, .i32, .ro, 0, .any⟩, -- Temperature T0–T11
  ⟨0x8128, 0x812F, true, 1, 12, .enum8, .ro, 0, .any⟩, -- Sensor state
  ⟨0x8130, 0x8137, true, 1, 4, .i32, .ro, 0, .any⟩, -- Greatest rise per group
  ⟨0x8138, 0x813F, true, 1, 4, .i32, .ro, 0, .any⟩, -- Hottest per group
  ⟨0x8140, 0x8147, true, 1, 14, .u16, .ro, 0, .any⟩, -- Voltage V0–V13, mV
  ⟨0x8148, 0x814F, true, 1, 14, .u16, .ro, 0, .any⟩, -- Voltage low limits, mV
  ⟨0x8150, 0x8157, true, 1, 14, .u16, .ro, 0, .any⟩, -- Voltage high limits, mV
  ⟨0x8158, 0x815F, true, 1, 6, .u32, .ro, 0, .any⟩, -- Current I0–I5, mA
  ⟨0x8160, 0x8167, true, 1, 6, .u32, .ro, 0, .any⟩, -- Current limits, mA
  ⟨0x8168, 0x816F, true, 1, 3, .u32, .ro, 0, .any⟩, -- Die power mW: last round, average, peak
  ⟨0x8170, 0x8177, true, 0, 0, .u32, .ro, 0, .any⟩, -- Idle power for admission, mW
  ⟨0x8178, 0x817F, true, 0, 0, .u16, .ro, 2000, .any⟩, -- Compute clock, MHz
  ⟨0x8180, 0x8187, true, 1, 1, .i32, .ro, 0, .any⟩, -- Die hottest junction; sensor
  ⟨0x8180, 0x8187, true, 2, 2, .u8, .ro, 0, .any⟩, -- Die hottest junction; sensor
  ⟨0x8188, 0x818F, true, 0, 0, .i32, .ro, 0, .any⟩] -- Peak junction since power-on

/-- Objects 0x8000–0x82FF, part 3: the dictionary tables of R565. -/
def objPower3 : List ObjRow := [
  ⟨0x8190, 0x8197, true, 0, 0, .u64, .ro, 0, .any⟩, -- Rounds completed
  ⟨0x8198, 0x819F, true, 0, 0, .u32, .ro, 0, .any⟩, -- Rounds late
  ⟨0x81A0, 0x81A7, true, 1, 12, .i32, .ro, 0, .any⟩, -- Sensor trim offsets
  ⟨0x81A8, 0x81AF, true, 1, 14, .u32, .ro, 0, .any⟩, -- Voltage out-of-limit rounds
  ⟨0x81B0, 0x81B7, true, 1, 6, .u32, .ro, 0, .any⟩, -- Current over-limit rounds
  ⟨0x81B8, 0x81BF, true, 1, 3, .u32, .ro, 0, .any⟩, -- Seconds at level 1, 2, 3 or above
  ⟨0x81C0, 0x81C7, true, 1, 2, .u32, .ro, 0, .any⟩, -- Rate-level entries: warning, throttle
  ⟨0x81C8, 0x81CF, true, 1, 10, .u32, .ro, 0, .any⟩, -- Last wake latency per domain, µs
  ⟨0x81D0, 0x81D7, true, 1, 10, .u32, .ro, 0, .any⟩, -- Estimated power per domain, mW
  ⟨0x81D8, 0x81DF, true, 0, 0, .u8, .ro, 0, .any⟩, -- Governor actions in force: bit 0 seep floor, bit 1 clock, bit 2 host caps
  ⟨0x81E0, 0x81E7, true, 1, 2, .u32, .ro, 0, .any⟩, -- Host caps applied, read and write, MB/s; 0 none
  ⟨0x81E8, 0x81EF, true, 1, 1, .u16, .ro, 4095, .any⟩, -- Trip comparators armed; sensor of last trip
  ⟨0x81E8, 0x81EF, true, 2, 2, .u8, .ro, 0, .any⟩, -- Trip comparators armed; sensor of last trip
  ⟨0x81F0, 0x81F7, true, 1, 1, .time48, .ro, 0, .any⟩, -- Last readout: epoch, phase
  ⟨0x81F0, 0x81F7, true, 2, 2, .u16, .ro, 0, .any⟩, -- Last readout: epoch, phase
  ⟨0x81F8, 0x81FF, true, 0, 0, .u32, .ro, 0, .any⟩, -- Sensor failures
  ⟨0x8200, 0x8207, true, 1, 2, .u16, .ro, 0, .any⟩, -- VDD_CORE lowest, highest since power-on, mV
  ⟨0x8208, 0x820F, true, 1, 6, .u32, .ro, 0, .any⟩, -- Peak current per channel, mA
  ⟨0x8210, 0x8217, true, 0, 0, .u32, .ro, 0, .any⟩, -- Seconds under enforcement
  ⟨0x8218, 0x821F, true, 1, 8, .u8, .ro, 0, .any⟩, -- Sensor group of flash channel c
  ⟨0x8218, 0x821F, true, 9, 16, .u8, .ro, 1, .any⟩] -- Sensor group of flash channel c

/-- Every object row of 0x8000–0x82FF. -/
def objPower : List ObjRow := objPower1 ++ objPower2 ++ objPower3

/-- Objects 0x9000–0x90FF, part 1: the dictionary tables of R521. -/
def objLake1 : List ObjRow := [
  ⟨0x9000, 0x9000, false, 0, 0, .u64, .rwl, 0, .between 0 281474976710655⟩, -- Lake identity
  ⟨0x9001, 0x9001, false, 0, 0, .u16, .rw, 0, .between 0 511⟩, -- Node number
  ⟨0x9002, 0x9002, false, 1, 1, .enum8, .rw, 0, .enum 0 2 0⟩, -- Lake command; rejoin after activation
  ⟨0x9002, 0x9002, false, 2, 2, .bool, .rw, 1, .any⟩, -- Lake command; rejoin after activation
  ⟨0x9003, 0x9003, false, 0, 0, .u32, .rw, 0, .any⟩, -- Lake lanes, bit 4 × die + lane
  ⟨0x9004, 0x9004, false, 0, 0, .u16, .rw, 34997, .between 1536 65535⟩, -- EtherType
  ⟨0x9005, 0x9005, false, 1, 1, .bool, .rw, 0, .any⟩, -- 802.1Q tag enable, VID, PCP
  ⟨0x9005, 0x9005, false, 2, 2, .u16, .rw, 1, .between 1 4094⟩, -- 802.1Q tag enable, VID, PCP
  ⟨0x9005, 0x9005, false, 3, 3, .u8, .rw, 5, .between 0 7⟩, -- 802.1Q tag enable, VID, PCP
  ⟨0x9006, 0x9006, false, 0, 0, .u16, .rw, 65535, .orNone 1023 0xFFFF⟩, -- Lake key slot
  ⟨0x9007, 0x9007, false, 1, 1, .u8, .ro, 1, .any⟩, -- Levels supported, lowest and highest
  ⟨0x9007, 0x9007, false, 2, 2, .u8, .ro, 2, .any⟩, -- Levels supported, lowest and highest
  ⟨0x9008, 0x9008, false, 0, 0, .u8, .ro, 0, .any⟩, -- Running level
  ⟨0x9009, 0x9009, false, 1, 1, .u16, .rw, 2000, .between 500 20000⟩, -- Retry interval µs; retries
  ⟨0x9009, 0x9009, false, 2, 2, .u8, .rw, 4, .between 1 16⟩, -- Retry interval µs; retries
  ⟨0x900A, 0x900A, false, 0, 0, .u8, .rw, 3, .between 2 10⟩, -- Heartbeat miss limit, intervals
  ⟨0x900B, 0x900B, false, 0, 0, .u16, .rw, 100, .between 10 1000⟩, -- Frame commit timeout, ms
  ⟨0x900C, 0x900C, false, 0, 0, .u16, .rw, 16384, .between 8192 49152⟩, -- Vote margin, phase units
  ⟨0x900D, 0x900D, false, 1, 1, .enum8, .wo, 0, .any⟩, -- Lake transaction command; named epoch; state; identity
  ⟨0x900D, 0x900D, false, 2, 2, .time48, .rw, 0, .any⟩, -- Lake transaction command; named epoch; state; identity
  ⟨0x900D, 0x900D, false, 3, 3, .enum8, .ro, 0, .any⟩, -- Lake transaction command; named epoch; state; identity
  ⟨0x900D, 0x900D, false, 4, 4, .u32, .ro, 0, .any⟩, -- Lake transaction command; named epoch; state; identity
  ⟨0x900E, 0x900E, false, 0, 0, .domain 262144, .rw, 0, .any⟩, -- Lake transaction writes: per entry node 2, index 2, sub-index 1, length 1, reserved 2, data 56
  ⟨0x900F, 0x900F, false, 0, 0, .u8, .rwt, 0, .between 1 255⟩] -- Requested lake level

/-- Objects 0x9000–0x90FF, part 2: the dictionary tables of R521. -/
def objLake2 : List ObjRow := [
  ⟨0x9010, 0x9010, false, 0, 0, .u16, .rw, 50, .between 10 1000⟩, -- Lake transaction lead time, ms
  ⟨0x9011, 0x9011, false, 0, 0, .domain 2061, .ro, 0, .any⟩, -- Last lake transaction: identity 4, E 6, result 1, participants 2; per participant node 2, vote 1, acknowledged 1
  ⟨0x9012, 0x9012, false, 0, 0, .u16, .ro, 0, .any⟩, -- Members
  ⟨0x9013, 0x9013, false, 0, 0, .domain 64, .ro, 0, .any⟩, -- Member bitmap
  ⟨0x9014, 0x9014, false, 0, 0, .u16, .ro, 0, .any⟩, -- Leader
  ⟨0x9015, 0x9015, false, 0, 0, .u32, .ro, 0, .any⟩, -- Generation
  ⟨0x9016, 0x9016, false, 0, 0, .enum8, .ro, 0, .any⟩, -- Lake state
  ⟨0x9017, 0x9017, false, 0, 0, .u8, .ro, 0, .any⟩, -- Last refusal reason
  ⟨0x9018, 0x9018, false, 1, 8, .u16, .rw, 65535, .orNone 511 0xFFFF⟩, -- Event sink nodes; 0xFFFF unused
  ⟨0x9019, 0x9019, false, 0, 0, .domain 168, .ro, 0, .any⟩, -- Lake status structure
  ⟨0x901A, 0x901A, false, 1, 5, .u64, .ro, 0, .any⟩, -- Messages sent; received; authentication failures; retransmissions; dropped
  ⟨0x901B, 0x901B, false, 0, 0, .domain 192, .ro, 0, .any⟩] -- Lake take parts: identity 8, take 2, anchor 2, frames committed 4, committed partial 4, reserved 4

/-- Every object row of 0x9000–0x90FF. -/
def objLake : List ObjRow := objLake1 ++ objLake2

/-- Objects 0xA000–0xA8FF, part 1: the dictionary tables of R545. -/
def objFault1 : List ObjRow := [
  ⟨0xA000, 0xA000, false, 1, 4, .u64, .ro, 0, .any⟩, -- Occurrences by class, every event of the package, per R537
  ⟨0xA001, 0xA001, false, 0, 0, .u32, .wo, 0, .any⟩, -- Package soft reset
  ⟨0xA002, 0xA002, false, 0, 0, .u8, .wo, 0, .between 0 7⟩, -- Die reset
  ⟨0xA003, 0xA003, false, 0, 0, .u16, .wo, 0, .any⟩, -- Engine reset: die [10:8], engine [3:0]
  ⟨0xA004, 0xA004, false, 0, 0, .domain 131136, .ro, 0, .any⟩, -- Event log, per R538
  ⟨0xA005, 0xA005, false, 0, 0, .bool, .wo, 0, .any⟩, -- Clear event log
  ⟨0xA006, 0xA006, false, 0, 0, .domain 8192, .ro, 0, .any⟩, -- Persistent fault log, 32 bytes per entry
  ⟨0xA007, 0xA007, false, 0, 0, .domain 4800, .rw, 0, .any⟩, -- Route overrides: per entry event 2, routes 1, reserved 1; routes held with bit 0 set under R535
  ⟨0xA008, 0xA008, false, 1, 1, .u8, .rw, 1, .any⟩, -- Route masks, info to critical
  ⟨0xA008, 0xA008, false, 2, 2, .u8, .rw, 13, .any⟩, -- Route masks, info to critical
  ⟨0xA008, 0xA008, false, 3, 4, .u8, .rw, 31, .any⟩, -- Route masks, info to critical
  ⟨0xA009, 0xA009, false, 0, 0, .u16, .rw, 100, .between 10 10000⟩, -- CAN emergency repeat interval, ms
  ⟨0xA00A, 0xA00A, false, 1, 1, .enum8, .ro, 0, .any⟩, -- Last interruption: fault kind, epoch, µs
  ⟨0xA00A, 0xA00A, false, 2, 2, .time48, .ro, 0, .any⟩, -- Last interruption: fault kind, epoch, µs
  ⟨0xA00A, 0xA00A, false, 3, 3, .u32, .ro, 0, .any⟩, -- Last interruption: fault kind, epoch, µs
  ⟨0xA00B, 0xA00B, false, 0, 0, .u32, .ro, 0, .any⟩, -- Longest interruption since reset, µs
  ⟨0xA00C, 0xA00C, false, 1, 2, .u8, .ro, 0, .any⟩, -- Lead die; standby die; takeovers; last takeover µs
  ⟨0xA00C, 0xA00C, false, 3, 4, .u32, .ro, 0, .any⟩, -- Lead die; standby die; takeovers; last takeover µs
  ⟨0xA00D, 0xA00D, false, 1, 1, .enum8, .ro, 0, .any⟩, -- Safe hold: state, hold steward die, epoch entered
  ⟨0xA00D, 0xA00D, false, 2, 2, .u8, .ro, 0, .any⟩, -- Safe hold: state, hold steward die, epoch entered
  ⟨0xA00D, 0xA00D, false, 3, 3, .time48, .ro, 0, .any⟩, -- Safe hold: state, hold steward die, epoch entered
  ⟨0xA00E, 0xA00E, false, 0, 0, .bool, .wo, 0, .any⟩, -- Acknowledge events
  ⟨0xA00F, 0xA00F, false, 1, 1, .bool, .ro, 0, .any⟩, -- FAULT_N state, 1 while asserted; causes, bits in the order of R544
  ⟨0xA00F, 0xA00F, false, 2, 2, .u8, .ro, 0, .any⟩] -- FAULT_N state, 1 while asserted; causes, bits in the order of R544

/-- Objects 0xA000–0xA8FF, part 2: the dictionary tables of R545. -/
def objFault2 : List ObjRow := [
  ⟨0xA010, 0xA010, false, 0, 0, .u8, .rw, 1, .between 0 1⟩, -- FAULT_N on fault class
  ⟨0xA011, 0xA011, false, 1, 12, .u32, .ro, 0, .any⟩, -- Resets by kind 1–12
  ⟨0xA012, 0xA012, false, 1, 1, .u8, .ro, 0, .any⟩, -- Last reset: kind, target, epoch; soft reset pending
  ⟨0xA012, 0xA012, false, 2, 2, .u16, .ro, 0, .any⟩, -- Last reset: kind, target, epoch; soft reset pending
  ⟨0xA012, 0xA012, false, 3, 3, .time48, .ro, 0, .any⟩, -- Last reset: kind, target, epoch; soft reset pending
  ⟨0xA012, 0xA012, false, 4, 4, .bool, .ro, 0, .any⟩, -- Last reset: kind, target, epoch; soft reset pending
  ⟨0xA013, 0xA013, false, 0, 0, .u16, .rw, 32768, .between 0 65535⟩, -- Scrub window start, phase
  ⟨0xA014, 0xA014, false, 0, 0, .u32, .rw, 8192, .between 1024 65536⟩, -- Scrub window length, phase units
  ⟨0xA015, 0xA015, false, 0, 0, .u8, .ro, 0, .any⟩, -- Failed dies, bit d
  ⟨0xA100, 0xA107, true, 0, 0, .enum8, .ro, 0, .any⟩, -- Die state
  ⟨0xA108, 0xA10F, true, 1, 4, .u64, .ro, 0, .any⟩, -- Occurrences by class, events of die d, per R537
  ⟨0xA110, 0xA117, true, 0, 0, .domain 576, .ro, 0, .any⟩, -- Occurrences per event, U32 × 144
  ⟨0xA118, 0xA11F, true, 1, 3, .u64, .ro, 0, .any⟩, -- Corrected words: SRAM, DRAM, die links
  ⟨0xA120, 0xA127, true, 1, 3, .u64, .ro, 0, .any⟩, -- Poisoned words: SRAM, DRAM, die links
  ⟨0xA128, 0xA12F, true, 0, 0, .u32, .rw, 1024, .between 1 1000000⟩, -- Corrected-word event threshold per epoch
  ⟨0xA130, 0xA137, true, 1, 1, .u16, .ro, 0, .any⟩, -- SRAM rows repaired; spare SRAM rows left
  ⟨0xA130, 0xA137, true, 2, 2, .u16, .ro, 768, .any⟩, -- SRAM rows repaired; spare SRAM rows left
  ⟨0xA138, 0xA13F, true, 0, 0, .u64, .ro, 0, .any⟩, -- DRAM regions retired, bit per region
  ⟨0xA140, 0xA147, true, 0, 0, .u64, .ro, 0, .any⟩, -- Usable DRAM, bytes
  ⟨0xA148, 0xA14F, true, 0, 0, .u64, .ro, 0, .any⟩, -- Staging parity reconstructions
  ⟨0xA150, 0xA157, true, 1, 2, .u16, .ro, 0, .any⟩, -- Die-link spare wires in use; left
  ⟨0xA158, 0xA15F, true, 1, 1, .u64, .ro, 0, .any⟩, -- Die-link retries; link failures
  ⟨0xA158, 0xA15F, true, 2, 2, .u32, .ro, 0, .any⟩, -- Die-link retries; link failures
  ⟨0xA160, 0xA167, true, 1, 2, .u32, .ro, 0, .any⟩] -- Lockstep mismatches; steward restarts

/-- Objects 0xA000–0xA8FF, part 3: the dictionary tables of R545. -/
def objFault3 : List ObjRow := [
  ⟨0xA168, 0xA16F, true, 0, 0, .enum8, .ro, 0, .any⟩, -- Die steward state
  ⟨0xA170, 0xA177, true, 1, 2, .time48, .ro, 0, .any⟩, -- Last full scrub pass: SRAM epoch, DRAM epoch
  ⟨0xA178, 0xA17F, true, 1, 2, .u8, .ro, 0, .any⟩, -- Scrub progress, SRAM and DRAM, percent
  ⟨0xA180, 0xA187, true, 1, 1, .u16, .ro, 2, .any⟩, -- Spares left, rows of R543
  ⟨0xA180, 0xA187, true, 2, 2, .u16, .ro, 1, .any⟩, -- Spares left, rows of R543
  ⟨0xA180, 0xA187, true, 3, 3, .u16, .ro, 1024, .any⟩, -- Spares left, rows of R543
  ⟨0xA180, 0xA187, true, 4, 4, .u16, .ro, 768, .any⟩, -- Spares left, rows of R543
  ⟨0xA180, 0xA187, true, 5, 8, .u16, .ro, 0, .any⟩, -- Spares left, rows of R543
  ⟨0xA188, 0xA18F, true, 1, 8, .u32, .ro, 0, .any⟩, -- Spares brought in, rows of R543
  ⟨0xA190, 0xA197, true, 1, 4, .u32, .ro, 0, .any⟩, -- Engine resets: cipher, digest, codec, search
  ⟨0xA198, 0xA19F, true, 1, 1, .u8, .ro, 0, .any⟩, -- Last engine reset: engine, epoch, jobs abandoned
  ⟨0xA198, 0xA19F, true, 2, 2, .time48, .ro, 0, .any⟩, -- Last engine reset: engine, epoch, jobs abandoned
  ⟨0xA198, 0xA19F, true, 3, 3, .u32, .ro, 0, .any⟩, -- Last engine reset: engine, epoch, jobs abandoned
  ⟨0xA1A0, 0xA1A7, true, 0, 0, .u32, .ro, 0, .any⟩, -- Die resets
  ⟨0xA1A8, 0xA1AF, true, 1, 2, .u32, .ro, 0, .any⟩, -- Write-path interruptions; longest, µs
  ⟨0xA1B0, 0xA1B7, true, 0, 0, .u32, .ro, 0, .any⟩, -- Heartbeats missed by the lead
  ⟨0xA1B8, 0xA1BF, true, 1, 1, .u16, .ro, 0, .any⟩, -- Last event raised: code, epoch, detail
  ⟨0xA1B8, 0xA1BF, true, 2, 2, .time48, .ro, 0, .any⟩, -- Last event raised: code, epoch, detail
  ⟨0xA1B8, 0xA1BF, true, 3, 3, .u32, .ro, 0, .any⟩, -- Last event raised: code, epoch, detail
  ⟨0xA1C0, 0xA1C7, true, 1, 2, .u16, .ro, 0, .any⟩, -- Occurrences queued on routes now; high-water
  ⟨0xA1C8, 0xA1CF, true, 0, 0, .u32, .ro, 0, .any⟩, -- PCIe width downgrades
  ⟨0xA1D0, 0xA1D7, true, 1, 3, .u64, .ro, 0, .any⟩, -- Poisoned data refused: by flash, by host interface, as address or key
  ⟨0xA1D8, 0xA1DF, true, 0, 0, .u32, .ro, 0, .any⟩] -- Persistent fault log entries from this die

/-- Every object row of 0xA000–0xA8FF. -/
def objFault : List ObjRow := objFault1 ++ objFault2 ++ objFault3

/-- The rows of the area that holds an index (R92). -/
def areaRows (idx : Nat) : List ObjRow :=
  if idx < 0x2100 then objTime
  else if idx < 0x2200 then objInflow
  else if idx < 0x3000 then objTakes
  else if idx < 0x3400 then objMedia
  else if idx < 0x4000 then objFlash
  else if idx < 0x4100 then objHost
  else if idx < 0x5000 then objFunc
  else if idx < 0x5200 then objCompute
  else if idx < 0x6000 then objPond
  else if idx < 0x6400 then objCipher
  else if idx < 0x7000 then objDigest
  else if idx < 0x8000 then objSearch
  else if idx < 0x9000 then objPower
  else if idx < 0xA000 then objLake
  else objFault

/-- A row gives the index, on a part with so many dies: a per-die row gives only the instances of dies present (R60). -/
def rowHasIndex (dies idx : Nat) (r : ObjRow) : Bool :=
  r.lo ≤ idx && idx ≤ r.hi && (!r.perDie || (idx - r.lo) % 8 < dies)

/-- The rows of one object. -/
def objRows (dies idx : Nat) : List ObjRow := (areaRows idx).filter (rowHasIndex dies idx)

/-- The part has the object (R60). -/
def objExists (dies idx : Nat) : Bool := (areaRows idx).any (rowHasIndex dies idx)

/-- The row of index:sub, if the tables give one. -/
def findRow (dies idx sub : Nat) : Option ObjRow :=
  (areaRows idx).find? fun r => rowHasIndex dies idx r && r.subLo ≤ sub && sub ≤ r.subHi

/-- The highest sub-index of an object (R59). -/
def highestSub (dies idx : Nat) : Nat := (objRows dies idx).foldl (fun m r => max m r.subHi) 0

/-- Size in bytes of a value of a type (R61); a DOMAIN has no fixed size. -/
def tyBytes : ObjTy → Nat
  | .bool => 1 | .u8 => 1 | .u16 => 2 | .u32 => 4 | .u64 => 8 | .i32 => 4
  | .q15 => 2 | .q31 => 4 | .rational => 8 | .time48 => 6 | .enum8 => 1
  | .str n => n
  | .domain _ => 0

/-- The type is a DOMAIN. -/
def isDomain : ObjTy → Bool
  | .domain _ => true
  | _ => false

end Sys2Proof.Machine
end

