-- ==== Sys2Proof/Machine/Output.lean ====
section
/-!
DEFINITION. Everything the device sends: the messages, frames, completions and pin changes that the outside world sees.
-/

namespace Sys2Proof.Machine

/-- The PCIe capabilities that a function presents; it has no other (R269). -/
inductive PciCap where
  | powerManagement | pciExpress | msix | advancedErrors | deviceSerial | ari | sriov | physical64 | flitLogging
deriving DecidableEq, Repr

/-- The SR-IOV capability of a PF (R305, R306): InitialVFs and TotalVFs, First VF Offset, VF Stride, VF Device ID, the bytes of VF BAR0 and BAR1, and NumVFs. -/
structure SriovView where
  total : Nat
  offset : Nat
  stride : Nat
  device : Nat
  barBytes : Nat
  numVfs : Nat
deriving DecidableEq, Repr

/-- The configuration space that a function presents (R269, R270, R305): its identifiers and class code, its capabilities, the power state, Max_Payload_Size
and Max_Read_Request_Size with the largest that it supports, its MSI-X vectors, its AER status, the Device Serial Number, and the bytes of BAR0 and BAR1. -/
structure PciView where
  ids : List Nat
  classCode : Nat
  caps : List PciCap
  power : Nat
  payload : Nat × Nat
  readRequest : Nat × Nat
  vectors : Nat
  errors : Nat
  serial : Nat
  barBytes : Nat
  sriov : Option SriovView
deriving DecidableEq, Repr

/-- A message that left the device. `out` of the state lists them, oldest first. -/
inductive Output where
  /-- A CAN FD frame on a bus (R71): identifier and bytes, as many as its DLC gives. -/
  | canFrame (bus ident : Nat) (bytes : List Nat)
  /-- A dictionary response or segment in the body of R73 and R76, on a path whose framing carries nothing more; `path` is the access
  path of R90. -/
  | dictBody (path who : Nat) (bytes : List Nat)
  /-- A UDP response datagram (R79): address, port and bytes. -/
  | udpDatagram (ip port : Nat) (bytes : List Nat)
  /-- The PTP Delay_Req of the end-to-end delay mechanism (R40). -/
  | ptpDelayReq (dom seq : Nat)
  /-- A cell of 256 bytes on an inflow lane (R99): credit cells, control messages, idle cells. -/
  | cell (die lane : Nat) (bytes : List Nat)
  /-- A lane begins or ends sending (R96, R109): the training step whose pattern it sends, 0 electrical idle. -/
  | laneStep (die lane step : Nat)
  /-- The answer of the pond manager to an operation of R183 to R188: status and value. -/
  | pondAnswer (owner op status value : Nat)
  /-- A PASSED notice to an owner's die (R188). -/
  | passedNotice (route : List Nat) (handle owner : Nat)
  /-- A holder query's answer (R186). -/
  | pondQuery (handle status gen : Nat) (holders : List Nat) (quarantined : Bool)
  /-- A flash command issued on a channel: die, channel, target, kind (1 program, 2 erase, 3 RESET, 4 erase suspend, 5 erase
  resume) and block stripe. -/
  | flashCommand (die channel ce kind row : Nat)
  /-- A flash read issued at a block stripe and position, with the keys of its read-threshold table: mode, PEC band, age bin and ΔT bin
  (R222). -/
  | flashRead (die channel ce stripe pos mode pecBand ageBin dtBin : Nat)
  /-- A further read of a page for soft decoding, at one of the profile's offsets nearest to the selected threshold, counted from 1 (R261). -/
  | softRead (die channel ce stripe pos offset : Nat)
  /-- An NVMe completion entry (R282): controller, CQ, SQ, identifier, status type, code, DNR, DW0, DW1. -/
  | nvmeCompletion (cntl cqid sqid cid sct sc : Nat) (dnr : Bool) (dw0 dw1 : Nat)
  /-- Data that a command returns to the host, as bytes. -/
  | nvmeData (cntl sqid cid : Nat) (bytes : List Nat)
  /-- An MSI-X message (R535): controller and vector. -/
  | msix (cntl vector : Nat)
  /-- The answer of a function to a configuration request (R315, R572): Configuration Request Retry Status, or what its configuration space holds. -/
  | configReply (fn : Nat) (space : Option PciView)
  /-- A Wildela frame (R494) on a lake lane: its bytes from the destination address to the GCM tag. -/
  | wildela (die lane : Nat) (bytes : List Nat)
  /-- A key, result or idle token sent on CASC_OUT (R422, R423). -/
  | cascade (kind issuer table key : Nat) (carried : Option Nat) (count : Nat)
  /-- A JTAG scan result (R590): die, instruction and the register's bits. -/
  | jtag (die instr value : Nat)
  /-- A pin of the device changes level: 0 FAULT_N, 1 THERM_TRIP_N, 2 + d Dd_F_WP_N. -/
  | pin (name : Nat) (level : Bool)
  /-- An internal notice of a pond misuse to an engine's or steward's firmware (R536). -/
  | internalNotice (die owner event : Nat)
  /-- A report of measurement slots becomes readable by its session (R490). -/
  | report (session : Nat) (bytes : List Nat)
  /-- A register-interface read of the digest engine is answered (R483). -/
  | digestWord (die set index value : Nat)
deriving DecidableEq, Repr

end Sys2Proof.Machine
end

