-- ==== Sys2Proof/Machine/TypesCapture.lean ====
section
/-!
DEFINITION. The state of the ponds (chapter 6), the inflow link (chapter 4) and springs and takes (chapter 5), as
plain data.
-/

namespace Sys2Proof.Machine

/-- A pond buffer that is not in its first state (R179, R187, R192): generation, holder list (owner identifiers, one
entry per reference), quarantine, whether it was quarantined before the running audit began (R194), and whether its quarantine is
permanent, its DRAM region being retired (R524). -/
structure Buf where
  gen : Nat
  holders : List Nat
  quar : Bool
  mark : Bool
  lost : Bool
deriving DecidableEq, Repr

/-- An entry of a pool's owner table (R180 to R182). -/
structure Owner where
  ident : Nat
  target : Nat
  eff : Nat
  held : Nat
  departing : Bool
deriving DecidableEq, Repr

/-- What configures a pool (R172, R176, R177): kind 0 off, 1 SRAM, 2 DRAM; log2 of the buffer size; count; span;
class. -/
structure PoolCfg where
  kind : Nat
  size : Nat
  count : Nat
  span : Nat
  cls : Nat
deriving DecidableEq, Repr

/-- One pool (R172 to R183). State 0 off, 1 active, 2 draining, 3 unassigned; `want` the configuration that waits for
a drain (R175); `place` the SRAM slices it holds (R173); `bufs` the buffers that are not free at generation 1; `armed1`/`armed3` the re-arming of EV d.040 and
EV d.041; `slot` the round-robin pointer of R29. -/
structure Pool where
  cfg : PoolCfg
  want : Option PoolCfg
  state : Nat
  place : List Nat
  bufs : Tab Buf
  owners : List Owner
  hwm : Nat
  armed1 : Bool
  armed3 : Bool
  pointer : Nat
deriving DecidableEq, Repr

/-- The pond managers: pools at key 64 × die + pool, the owners being walked (R193), the die whose audit runs and the
epoch its last audit started (R194), and the last misuse (R192). -/
structure PondState where
  pools : Tab Pool
  walked : List Nat
  audits : Tab Nat
  lastMisuse : List Nat
  queryHolders : List Nat
deriving DecidableEq, Repr

/-- A cell of a lane that waits for a pond buffer (R185), with the epoch, the phase and the instant of its arrival. -/
structure Arrival where
  cell : Cell
  epoch : Nat
  phase : Nat
  ns : Nat
deriving DecidableEq, Repr

/-- One inflow lane (R98, R109, R111): training state as in 0x2138 and the instant it entered it, the instant until which it stays in
electrical idle (R96), run counts of codeword lock and of valid and invalid HCRCs, the LSEQ expected, the cells received in order
that still wait for a pond buffer (R185), NAKCNT, its increments for one LSEQ, that LSEQ (R112) and the instant of the
last, whether later cells are being discarded, stored transmitter settings, signal, agreed version, replay depth, ECHO round
trips, and the port that it trains for as a spare (R125). -/
structure Lane where
  state : Nat
  since : Nat
  idleTill : Nat
  goodCw : Nat
  badCw : Nat
  lock : Bool
  goodH : Nat
  badH : Nat
  waiting : List Arrival
  nakAt : Nat
  spareFor : Option Nat
  expSeq : Nat
  nakCnt : Nat
  nakRuns : Nat
  nakSeq : Nat
  inError : Bool
  stored : Bool
  signal : Bool
  fast : Bool
  fastFailed : Bool
  version : Nat
  helloSeen : Bool
  replay : Nat
  echoes : List Nat
  delayPs : Nat
deriving DecidableEq, Repr

/-- A band being received (R104 to R106, R123): its start header, the data cells by CIDX, the trailer as
SENTLEN, n and the CIDX of the band-end cell, and when its band-start, or else its first cell, arrived. `given` counts the stored bytes whose
chunks the die's filters have had, and `woff` is where the ring window shows the band once some have (R392). -/
structure Band where
  spring : Nat
  frame : Nat
  band : Nat
  started : Bool
  declen : Nat
  timecode : Nat
  phase : Nat
  epoch : Nat
  nbands : Nat
  since : Nat
  cells : Tab (List Nat)
  trailer : Option (Nat × Nat × Nat)
  given : Nat
  woff : Nat
deriving DecidableEq, Repr

/-- A control message of the device that waits for its ACK (R119): the lanes it went out on, how often it was repeated, and when it last
went out. -/
structure CtlMsg where
  msg : Nat
  body : List Nat
  lanes : List Nat
  retries : Nat
  sent : Nat
deriving DecidableEq, Repr

/-- A pond buffer that waits for ring space (R151): its handle, the spring, frame and band of its cell, and the bytes it holds. -/
structure HeldCell where
  handle : Nat
  spring : Nat
  frame : Nat
  band : Nat
  bytes : Nat
deriving DecidableEq, Repr

/-- One inflow port at key 4 × die + first lane (R95, R115, R119): its lanes in bond order, whether it is up, GRANTED
and the buffers freed since it came up, by spring, the pond buffers that wait for ring space, the control window (H, executed marks, the
record of responses), the device's own messages and those that wait for the limit of 127, the camera's identity, bands in progress, the markers received last, by spring and frame (R114), and the frames
found to lie before their take (R138). -/
structure Port where
  lanes : List Nat
  up : Bool
  granted : Tab Nat
  freed : Tab Nat
  held : List HeldCell
  mseqH : Option Nat
  marks : List Nat
  record : Tab (Nat × List Nat)
  nextMseq : Nat
  unacked : Tab CtlMsg
  queued : List (List Nat × Nat × List Nat)
  camera : Nat
  bands : List Band
  markers : List (Nat × Nat)
  early : List (Nat × Nat)
deriving DecidableEq, Repr

/-- The inflow links: lanes at key 4 × die + lane, ports at key 4 × die + first lane. -/
structure InflowState where
  lanes : Tab Lane
  ports : Tab Port
deriving DecidableEq, Repr

/-- A completed band of a frame (R123, R156, R166): its stored bytes until they are durable, its digest, place and
flags, and the bytes of it that came into the staging ring (R151). -/
structure BandRec where
  num : Nat
  die : Nat
  flags : Nat
  stored : List Nat
  digest : List Nat
  offset : Nat
  ring : Nat
deriving DecidableEq, Repr

/-- A frame segment being written by a die (R134, R151): its first coarse unit, the units it has, those given to flash programs, those that are
durable, and the ring bytes that became durable with them. -/
structure FrameSeg where
  die : Nat
  unit : Nat
  units : Nat
  issued : Nat
  done : Nat
  counted : Nat
deriving DecidableEq, Repr

/-- A frame of an open or closing take that is not recorded yet (R108, R152 to R155): its stamp, the
marker's arrival and camera stamps, the stamps of band-starts that came before the marker, NBANDS, bands, the segments that dies write, the dies
whose programs are still to verify, what its filters came to, the ring bytes that durable bands keep for filters, whether it carries device timecode, and
for a lake take the bands committed (R514) and whether its part was offered (1) and acknowledged (2). -/
structure Frame where
  spring : Nat
  frame : Nat
  epoch : Nat
  phase : Nat
  aEpoch : Nat
  aPhase : Nat
  cEpoch : Nat
  cPhase : Nat
  starts : List (Nat × Nat)
  stamped : Bool
  replaced : Bool
  nbands : Nat
  timecode : Nat
  since : Nat
  bands : List BandRec
  segs : List FrameSeg
  missing : List Nat
  complete : Bool
  waiting : List Nat
  late : Bool
  filterSkipped : Bool
  filtersOpen : Nat
  ringHeld : List (Nat × Nat)
  deviceTimed : Bool
  committed : Option Nat
  offered : Nat
deriving DecidableEq, Repr

/-- The declared profile of one spring of a take: the definition as it stood at the open boundary (R130, R132). -/
structure SpringDef where
  spring : Nat
  kind : Nat
  rate : Nat
  nbands : Nat
  maxLen : Nat
  packing : Nat
  justify : Nat
  lateLimit : Nat
  ports : List Nat
  alternates : List Nat
deriving DecidableEq, Repr

/-- A take (R137 to R142, R162). State 1 open, 2 closed, 3 deleted, 4 closing, 5 admitted and not yet open. `minima` lists the pond minima that
its admission raised: port, spring, and the target before. -/
structure Take where
  nsid : Nat
  num : Nat
  slot : Nat
  state : Nat
  springs : List SpringDef
  openEpoch : Nat
  closeEpoch : Nat
  reason : Nat
  frames : List Frame
  recorded : List (Nat × Nat)
  records : List (List Nat)
  written : Nat
  extents : List Nat
  extFill : Nat
  closeNs : Nat
  ringBytes : Nat
  duration : Nat
  coverage : Nat
  minDuration : Nat
  minima : List (Nat × Nat × Nat)
  lakeTake : Nat
  sealTag : List Nat
  sealFlags : Nat
  firstTc : Nat
  lastTc : Nat
  flagged : Nat
  custodyOrdinal : Nat
deriving DecidableEq, Repr

/-- Springs and takes: every take that has existed, the spring definitions held by R132, when the guaranteed duration
was last computed, the dies whose ring stands above the warning, the
takes that are to close at a boundary: namespace, take, reason and epoch (R140, R150, R168), and for recorded frames that came again the
parts that the present copy has brought (R154); `faulted` says that flash units failed since the margins were computed (R144), `levelTold` that a RESERVE carried the present
level 1 (R170). -/
structure TakeState where
  takes : List Take
  heldDefs : List (Nat × Nat × Nat × Bool)
  lastCompute : Nat
  ringWarned : List Nat
  closing : List (Nat × Nat × Nat × Nat)
  dups : List (Nat × Nat × List Nat)
  faulted : Bool
  levelTold : Bool
deriving DecidableEq, Repr

end Sys2Proof.Machine
end

