-- ==== Sys2Proof/Machine/TypesCompute.lean ====
section
/-!
DEFINITION. The state of the compute cores, their tasks and the dispatcher (chapters 11 and 12) and of the job queues of
the cipher, digest and codec engines, as plain data.
-/

namespace Sys2Proof.Machine

/-- A program of the store (R379 to R381): state 1 loading, 2 loaded, 3 unloading. `text` holds the instruction words. -/
structure Program where
  state : Nat
  mode : Nat
  timing : Nat
  text : List Nat
  data : List Nat
  segLen : Nat
  entry : Nat
  inRing : Nat
  outRing : Nat
  inPool : Nat
  use : Nat
  secver : Nat
  ident : Nat
  runs : Nat
  bytes : Nat
deriving DecidableEq, Repr

/-- A register write that is not visible yet (R357, R358, R360): register code, the bits it writes, their values, the
position of its instruction in execution order, and the position of the first instruction that reads it. -/
structure PendWrite where
  reg : Nat
  mask : Nat
  val : Nat
  seq : Nat
  due : Nat
deriving DecidableEq, Repr

/-- A frame that a filter task has been given (R392, R393): frame number, its deadline (epoch × 65,536 + phase) once the
frame completed, and 0 in hand, 1 retired, 2 missed. -/
structure FilterFrame where
  frame : Nat
  deadline : Option Nat
  state : Nat
deriving DecidableEq, Repr

/-- An input entry outstanding to a filter (R378, R397): its ring-window offset, its bytes, its frame, and whether the
ring took the space back. -/
structure RingChunk where
  woff : Nat
  bytes : List Nat
  frame : Nat
  reclaimed : Bool
deriving DecidableEq, Repr

/-- A chunk of near-data input that waits for a buffer (R399): its namespace, byte offset and length, its frame, band and
flags, and the LBA field of its entry. -/
structure InChunk where
  nsid : Nat
  off : Nat
  len : Nat
  frame : Nat
  band : Nat
  flags : Nat
  lba : Nat
deriving DecidableEq, Repr

/-- What a near-data task works for (R399, R400): its command, NDT, the bytes offered to the host, the namespace, the
chunks still to be delivered, whether the end of input was posted, and the status, 256 × SCT + SC, that an output
leaves to the command's end, 0 none (R25, R278). -/
structure NearData where
  q : CmdRef
  ndt : Nat
  offered : Nat
  nsid : Nat
  input : List InChunk
  ended : Bool
  badStatus : Nat
deriving DecidableEq, Repr

/-- What a filter task works for (R390 to R393): its spring, attachment number, output namespace, chunk size, deadline,
take, frames, outstanding chunks, and output entries kept until their frame retires. -/
structure FilterWork where
  spring : Nat
  attach : Nat
  outNs : Nat
  chunk : Nat
  deadline : Nat
  takeNs : Nat
  take : Nat
  frames : List FilterFrame
  chunks : List RingChunk
  entries : List (List Nat)
deriving DecidableEq, Repr

/-- A task (R328, R330, R382 to R389). State 1 waiting, 2 ready, 3 running, 4 ended. `regs` holds every register that is
not 0 by its code, `pend` the writes that are not visible yet, `avail` the cycle at which L mode lets a register be
read, `slice` the time slice in µs that its dispatch sampled (R54, R388), `count` the instructions executed, `charged` the cycles already counted for its core (R408). `windows` maps a pond window to its handle; `waitIn` holds input entries that
wait for room in the input ring. -/
structure Task where
  state : Nat
  handle : Nat
  group : Nat
  cls : Nat
  fn : Nat
  core : Option Nat
  selkel1 : Bool
  nMode : Bool
  segLen : Nat
  pc : Nat
  regs : Tab Nat
  pend : List PendWrite
  avail : Tab Nat
  count : Nat
  cycles : Nat
  charged : Nat
  inTrap : Bool
  flags : Nat
  waitMask : Nat
  waitAll : Bool
  waitReg : Nat
  windows : Tab Nat
  heldPost : Nat
  readyAt : Nat
  startedAt : Nat
  slice : Nat
  inSeq : Nat
  waitIn : List (List Nat)
  near : Option NearData
  filter : Option FilterWork
  result : Nat
  cause : Nat
deriving DecidableEq, Repr

/-- A job of the cipher (0), digest (1) or codec (2) engine (R364, R404, R452, R469): its task and event flag, class,
function, descriptor address and copied bytes; state 0 queued, 1 running, 2 done, 3 failed with a status; when it was
submitted and started, the urgency wait in ns and the codec's window limit that it sampled (R54), whether a context store holds it after a preemption, the key it sampled, and the
core it runs on. -/
structure Job where
  engine : Nat
  slot : Nat
  flag : Nat
  cls : Nat
  fn : Nat
  addr : Nat
  desc : List Nat
  state : Nat
  status : Nat
  since : Nat
  limit : Nat
  urgent : Bool
  abandoned : Bool
  saved : Bool
  core : Nat
  key : List Nat
  start : Nat
  window : Nat
deriving DecidableEq, Repr

/-- One die's compute side: tasks by slot, ready lists by group (oldest first), the physical core of each logical core,
cores out of service, spare cores left, jobs by ticket, the dispatcher's pointer, the running digest and cipher cores'
tickets, the write position of the staging ring, output entries of no kind discarded (R398), and the filters that could
not be created, by take, spring and attachment (R391), the busy cycles of each core in this epoch (R408), and the posts that engines hold because a
ready list is full, with their engine and task slot (R389). -/
structure ComputeDie where
  tasks : Tab Task
  ready : Tab (List Nat)
  lost : List Nat
  jobs : Tab Job
  nextTicket : Nat
  pointer : Nat
  round : List (Nat × Nat)
  ringPos : Nat
  badEntries : Nat
  noFilter : List (Nat × Nat × Nat × Nat)
  busy : Tab Nat
  engineHeld : List (Nat × Nat)
deriving DecidableEq, Repr

/-- The programs of the package by handle, the compute side of each die, and the filter attachments that R390 holds. -/
structure ComputeState where
  programs : Tab Program
  dies : Tab ComputeDie
  heldAttach : Option (List Nat)
deriving DecidableEq, Repr

end Sys2Proof.Machine
end

