-- ==== Sys2Proof/Machine/TypesHost.lean ====
section
/-!
DEFINITION. The state of the host interface (chapter 9) and of functions, tenants and shares (chapter 10), as plain
data.
-/

namespace Sys2Proof.Machine

/-- A submission queue (R281, R285, R323): entries, base, its CQ, priority, whether ordered and frozen, the entry to
fetch next, the tail doorbell, the identifiers fetched and not yet posted, in submission order, the failing command
that froze it, and when its doorbell was last written. -/
structure Sq where
  size : Nat
  base : Nat
  cqid : Nat
  prio : Nat
  ordered : Bool
  frozen : Bool
  head : Nat
  tail : Nat
  order : List Nat
  failCid : Option Nat
  rung : Nat
deriving DecidableEq, Repr

/-- A completion entry that waits for room in its CQ, or that an ordered SQ withholds (R285). -/
structure Cqe where
  sqid : Nat
  cid : Nat
  sct : Nat
  sc : Nat
  dnr : Bool
  dw0 : Nat
  dw1 : Nat
deriving DecidableEq, Repr

/-- A completion queue (R281, R323): entries, base, vector, interrupts, the host's head, the next entry to post, its
phase tag, the entries that wait for room, and how many SQs use it. -/
structure Cq where
  size : Nat
  base : Nat
  vector : Nat
  ints : Bool
  head : Nat
  tail : Nat
  phase : Bool
  waiting : List Cqe
deriving DecidableEq, Repr

/-- A fetched command (R282, R288): started or not, its result once its work ended, its byte counts, and its place in the fetch order of the
subsystem. -/
structure Cmd where
  sqid : Nat
  cid : Nat
  started : Bool
  result : Option Cqe
  toHost : Nat
  fromHost : Nat
  seq : Nat
deriving DecidableEq, Repr

/-- A Dictionary Write or Program Load being assembled from pieces (R295, R296). -/
structure Pieces where
  key : Nat
  total : Nat
  bytes : List Nat
deriving DecidableEq, Repr

/-- An entry of the Error Information log. -/
structure ErrEntry where
  count : Nat
  sqid : Nat
  cid : Nat
  status : Nat
  nsid : Nat
  specific : Nat
deriving DecidableEq, Repr

/-- An NVMe controller (R272, R281, R291, R308, R313, R321): registers, queues, commands, features, asynchronous
events, Error Information log, virtualisation resources, quiesce state and byte buckets. `served` counts the fetches of
the weighted round by class, `rr` the queue last served of each class and `burst` its fetches in a row, `changed` the namespaces of log page 04h, `msix` the MSI-X table and pending bits, `held` the completions of each vector that wait for an interrupt and since when (Feature 08h), and
`deleting` the Delete I/O SQ commands that wait for room in the CQ of their queue. -/
structure Ctrl where
  en : Bool
  rdy : Bool
  shst : Nat
  pp : Bool
  regs : Tab Nat
  sqs : Tab Sq
  cqs : Tab Cq
  cmds : List Cmd
  feats : Tab Nat
  aers : List Nat
  aeMasked : Bool
  aePending : List (Nat × Nat)
  errs : List ErrEntry
  errCount : Nat
  vq : Nat
  online : Bool
  pendingVq : Option (Nat × Nat × CmdRef)
  quiesce : Nat
  quiesceEpoch : Nat
  quiesceLeft : Nat
  quiesceAt : Nat
  flr : Bool
  readBucket : Int
  writeBucket : Int
  pieces : Option Pieces
  served : Nat
  rr : Tab Nat
  burst : Tab Nat
  changed : List Nat
  deleting : List (CmdRef × Nat)
  msix : List Nat
  held : Tab (Nat × Nat)
deriving DecidableEq, Repr

/-- A namespace (R276 to R278, R443): kind 0 general, 1 capture; blocks; attached controllers; write protection; key
generation; the highest take number; its coarse units in use with their dies; the policy of its header; and the XTS key
size fixed at creation (R441). -/
structure Ns where
  kind : Nat
  nsze : Nat
  attached : List Nat
  wp : Bool
  keyGen : Nat
  lastTake : Nat
  units : Tab Nat
  policy : Nat
  xts : Nat
deriving DecidableEq, Repr

/-- A firmware image in a slot (R292, R570): security version, revision, and whether it verifies. -/
structure FwImage where
  secver : Nat
  revision : Nat
  valid : Bool
  bytes : List Nat
deriving DecidableEq, Repr

/-- A dirty-log window (R318): base, length in 128 MiB units, whether the area holds it, the pages of the active and of
the harvested bitmap. -/
structure Window where
  win : Nat
  base : Nat
  units : Nat
  fits : Bool
  active : List Nat
  harvested : List Nat
deriving DecidableEq, Repr

/-- What a function keeps across resets of its controller (R309, R315, R318, R320). -/
structure Fn where
  target : Tab Nat
  eff : Tab Nat
  windows : List Window
  harvests : Nat
  outside : Nat
  harvestEpoch : Nat
  harvestPhase : Nat
deriving DecidableEq, Repr

/-- A Run Program that waits for its function's task-slot quota (R311). -/
structure HeldRun where
  q : CmdRef
  nsid : Nat
  ndt : Nat
  handle : Nat
  group : Nat
  arg : Nat
  source : Nat
  take : Nat
  slba : Nat
  blocks : Nat
  since : Nat
deriving DecidableEq, Repr

/-- A Read, Compare or Verify that waits for flash reads: its command, namespace, first block and blocks, 0 read
1 compare 2 verify, the host's data, the granules still to be read, those that were unrecoverable, and the data of the granules it has: a read uses the mapping as it
stood at its start (R232). -/
structure HeldRead where
  q : CmdRef
  nsid : Nat
  slba : Nat
  blocks : Nat
  kind : Nat
  data : List Nat
  left : Nat
  lost : Nat
  got : Tab (List Nat)
deriving DecidableEq, Repr

/-- A change of a namespace that is accepted and not staged yet (R227, R262, R283): its command, namespace, first block, blocks and data, where no
data stands for zero bytes; a deallocation has ranges instead. A task's write also names the owner and handle of the buffer that the dispatcher puts
once it is applied (R398). `seq` is its place in the fetch order (R283, R290). -/
structure StalledWrite where
  q : CmdRef
  nsid : Nat
  slba : Nat
  blocks : Nat
  data : List Nat
  ranges : List (Nat × Nat)
  buf : Option (Nat × Nat)
  seq : Nat
deriving DecidableEq, Repr

/-- A Flush that waits (R290): its command, namespace or FFFFFFFFh, its place in the fetch order, and since when. -/
structure HeldFlush where
  q : CmdRef
  nsid : Nat
  seq : Nat
  since : Nat
deriving DecidableEq, Repr

/-- Staged data of a command that is not durable (R290): the command, the die and the identifier of the staged unit, and the place in the fetch
order. -/
structure WriteWait where
  q : CmdRef
  die : Nat
  unit : Nat
  seq : Nat
deriving DecidableEq, Repr

/-- The configuration registers of a function that its host sets (R269): the power state (0 D0, 3 D3hot), Max_Payload_Size and
Max_Read_Request_Size in bytes, and the status bits of Advanced Error Reporting. -/
structure PciState where
  power : Nat
  payload : Nat
  readRequest : Nat
  errors : Nat
deriving DecidableEq, Repr

/-- The host interface: controllers by CNTLID, namespaces, functions by number, firmware slots 1 to 4, the image being
downloaded by offset, an activation in progress (its command, slot and start), Flushes that wait, Run Programs held for quota, enabled VFs of each port, the fetch arbiters' rounds, ports
whose link is up, `fetches` the commands fetched so far, `fetchAt` each port's last fetch, `refilled` when the byte buckets last gained, commands fetched before a detach (controller, SQ and identifier, namespace), `writeWait` the commands whose data is not durable yet, `throughs` the staged writes that have not completed with their dies, `stalled`
the writes that wait to be staged, `exits` the Run Programs whose task has exited while a namespace write of it waits (R400: the command, the
status that an output left, the result word, the bytes offered), reads that wait for flash, the figures of the health log that no object holds, the
configuration registers of functions that differ from their reset values, and the instant before which the link of a port does not come up (R271). -/
structure HostState where
  ctrls : Tab Ctrl
  nss : Tab Ns
  fns : Tab Fn
  fw : Tab FwImage
  download : Tab (List Nat)
  activating : Option (CmdRef × Nat × Nat)
  flushes : List HeldFlush
  heldRuns : List HeldRun
  numVfs : Tab Nat
  round : Tab (List (Nat × Nat))
  linkUp : List Nat
  fetches : Nat
  fetchAt : Tab Nat
  refilled : Nat
  detached : List (Nat × Nat × Nat)
  writeWait : List WriteWait
  throughs : List (CmdRef × List Nat)
  stalled : List StalledWrite
  exits : List (CmdRef × Nat × Nat × Nat)
  reads : List HeldRead
  smart : Tab Nat
  pci : Tab PciState
  retrainAt : Tab Nat
deriving DecidableEq, Repr

end Sys2Proof.Machine
end

