-- ==== Sys2Proof/Machine/TypesLake.lean ====
section
/-!
DEFINITION. The state of the lake (chapter 16) and of power and thermal management (chapter 18), as plain data.
-/

namespace Sys2Proof.Machine

/-- A peer node as last heard (R499 to R502): instant, state, levels, aligned, leader, generation, grandmaster, rate, and the
lane of its own that its latest heartbeat came from. -/
structure Peer where
  heard : Nat
  state : Nat
  low : Nat
  high : Nat
  aligned : Bool
  leader : Nat
  gen : Nat
  gm : Nat
  rate : Nat
  lane : Nat
deriving DecidableEq, Repr

/-- A message to be sent on a lane, 4 × die + lane (R494, R495). -/
structure LakeOut where
  lane : Nat
  dst : Nat
  ty : Nat
  seq : Nat
  retry : Bool
  body : List Nat
deriving DecidableEq, Repr

/-- A message that waits for its ACK (R498): destination, type, sequence, body, resends made, and the instant it was last sent. -/
structure LakeMsg where
  dst : Nat
  ty : Nat
  seq : Nat
  body : List Nat
  retries : Nat
  sent : Nat
deriving DecidableEq, Repr

/-- A write staged for a lake transaction (R507): the node it goes to (0xFFFF every member), object and bytes. -/
structure LxnWrite where
  node : Nat
  idx : Nat
  sub : Nat
  bytes : List Nat
deriving DecidableEq, Repr

/-- A lake transaction that this device coordinates (R507 to R510): identity, session, target epoch, state (1 open,
2 prepared, 3 committed), late, writes, participants, votes, and who acknowledged COMMIT. -/
structure Lxn where
  ident : Nat
  session : Nat
  target : Nat
  state : Nat
  late : Bool
  writes : List LxnWrite
  participants : List Nat
  votes : Tab Nat
  acked : List Nat
deriving DecidableEq, Repr

/-- A yes vote that this device holds (R509): identity, coordinator, target epoch and the writes it accepted, as they are to be staged. -/
structure LakeVote where
  ident : Nat
  coord : Nat
  target : Nat
  writes : List Staged
deriving DecidableEq, Repr

/-- A lake-scope search under way (R517, R518): identity, command, table, key, the members asked, their answers: node, result word and
count, and the instant its request was sent. -/
structure LakeSearch where
  ident : Nat
  q : CmdRef
  table : Nat
  width : Nat
  key : Nat
  asked : List Nat
  answers : Tab (Nat × Nat)
  since : Nat
deriving DecidableEq, Repr

/-- A part of a lake-take frame that its anchor holds as ready (R514): take, spring, frame, node, bands, and since when. -/
structure LakePart where
  take : Nat
  spring : Nat
  frame : Nat
  node : Nat
  bands : Nat
  since : Nat
deriving DecidableEq, Repr

/-- A join or leave under way (R503, R504): the Lake Control command that waits for it. `listening` until the join's listening ends;
`since` is the instant the listening, or the wait for the answer, began. -/
structure LakeJoin where
  q : Option CmdRef
  listening : Bool
  asked : Bool
  since : Nat
deriving DecidableEq, Repr

/-- The lake (R493 to R519). State 0 none, 1 joining, 2 member, 3 leader, 4 leaving. `seqOut` holds the last sequence
number by destination, `seqIn` the highest accepted and those accepted within 64 of it, by 1,024 × destination class + source, `held` the
messages that wait for a block of counter values (R454), `beat` the epoch and k of the last heartbeat sent (R501), `joinedAt` the instant of
the last join. -/
structure LakeState where
  state : Nat
  ident : Nat
  node : Nat
  level : Nat
  leader : Nat
  gen : Nat
  members : List Nat
  changed : Nat
  refusal : Nat
  peers : Tab Peer
  seqOut : Tab Nat
  seqIn : Tab (Nat × List Nat)
  unacked : List LakeMsg
  held : List LakeOut
  beat : Option (Nat × Nat)
  joinedAt : Nat
  join : Option LakeJoin
  rejoin : Bool
  lxns : List Lxn
  votes : List LakeVote
  ended : Tab Nat
  nextIdent : Nat
  searches : List LakeSearch
  parts : List LakePart
  tagWarned : Bool
deriving DecidableEq, Repr

/-- The housekeeping of one die (R549 to R553): the readings of the last 33 rounds, newest first, the rounds in a row in which each
sensor disagreed, failed sensors, the last 32 die powers in mW and written bytes, the latest round's voltages and currents, the domains that are on and
waking with the instants they were switched on, what the objects are set to at the next readout, and ns at each level and under enforcement. -/
structure PowerDie where
  temps : List (List Int)
  runs : List Nat
  failed : List Nat
  powers : List Nat
  wrote : List Nat
  volts : List Nat
  amps : List Nat
  on : Nat
  waking : Tab Nat
  tally : Tab Nat
  levelNs : Tab Nat
deriving DecidableEq, Repr

/-- Power and thermal management of the package (R554 to R563): the absolute and the rate level, the cause, whether a power-limit
request stands and the rounds it has been met, the thermal level, SLOWDOWN level and fraction last announced, the instant the grace time ends, whether enforcement waits for takes or is due, the
enforcement step and when it changed, since when the level is 0, the governor's actions in force and wanted, the rounds of calm, the
caps it applies by function and the rates they are taken from, bytes moved by function since the last round, the trip latch and record. -/
structure PowerState where
  dies : Tab PowerDie
  absLevel : Nat
  rateLevel : Nat
  cause : Nat
  request : Bool
  met : Nat
  told : Nat × Nat × Nat
  grace : Option Nat
  waiting : Bool
  due : Bool
  step : Nat
  stepAt : Nat
  zeroFrom : Option Nat
  actions : Nat
  wanted : Nat
  calm : Nat
  caps : Tab (Nat × Nat)
  rates : Tab (Nat × Nat)
  moved : Tab (Nat × Nat)
  tripped : Bool
deriving DecidableEq, Repr

end Sys2Proof.Machine
end

