-- ==== Sys2Proof/Machine/TypesSearch.lean ====
section
/-!
DEFINITION. The state of the search unit (chapter 13), as plain data.
-/

namespace Sys2Proof.Machine

/-- An entry of the array at its lowest row (R411 to R414): the key copy's VALUE, MASK and associated-data word, what the
array itself holds, whether it is suspect, whether a rewrite is scheduled (R427), and how many rewrites have failed. -/
structure SRow where
  value : Nat
  mask : Nat
  data : Nat
  arrValue : Nat
  arrMask : Nat
  suspect : Bool
  rewrite : Bool
  tries : Nat
deriving DecidableEq, Repr

/-- An accepted maintenance operation (R431): 0 insertion, 1 clear; the record's VALUE, MASK and data; the task whose
flag its completion posts, by die, slot and flag. -/
structure MaintOp where
  kind : Nat
  value : Nat
  mask : Nat
  data : Nat
  flag : Option (Nat × Nat × Nat)
deriving DecidableEq, Repr

/-- A move that runs (R429): the free place that the next entry moves into, the place where the new entry goes, and
whether entries move up. Places are counted from the table's first address. -/
structure Move where
  gap : Nat
  goal : Nat
  up : Bool
deriving DecidableEq, Repr

/-- A table (R415, R416). State 0 off, 1 active, 2 changing, 3 unassigned; `change` the definition that waits. -/
structure STable where
  width : Nat
  order : Nat
  access : Nat
  base : Nat
  rows : Nat
  state : Nat
  change : Option (List Nat)
  queue : List MaintOp
  move : Option Move
  moves : Nat
deriving DecidableEq, Repr

/-- The search units of the package: each die's entries by row, the tables, board-scope searches under way, by
command, table and key, the epoch of each die's last scrub (R428), each die's search cycles of this epoch, and the instants of the last idle token sent
and of the last ring traffic received (R423), and the host searches that wait for a search unit to wake, by command, key, table and scope (R548). -/
structure SearchState where
  dies : Tab (Tab SRow)
  tables : Tab STable
  board : List (CmdRef × Nat × Nat)
  scrubs : Tab Nat
  cycles : Tab Nat
  tokenAt : Option Nat
  heardAt : Option Nat
  waits : List (CmdRef × Nat × Nat × Nat)
deriving DecidableEq, Repr

end Sys2Proof.Machine
end

