-- ==== Sys2Proof/Machine/TypesSecure.lean ====
section
/-!
DEFINITION. The state of the cipher engine and keys (chapter 14) and of the digest engine and measurement slots
(chapter 15), as plain data.
-/

namespace Sys2Proof.Machine

/-- A key slot of a die (R447 to R455): state 1 active, 2 decrypt-only; the fields of its blob, the key material, the
GCM invocation counter and the end of the block of values that is journalled. -/
structure KeySlot where
  state : Nat
  type : Nat
  policy : Nat
  owner : Nat
  salt : Nat
  keyId : Nat
  material : List Nat
  counter : Nat
  blockEnd : Nat
deriving DecidableEq, Repr

/-- An HMAC key-state slot of a die (R468): whether it is loaded, the ALG, the cipher slot it came from, and what it
copied from it; `key` stands for the two states computed from it. -/
structure KeyState where
  loaded : Bool
  alg : Nat
  slot : Nat
  keyId : Nat
  classes : Nat
  owner : Nat
  gen : Nat
  jobs : Nat
  key : List Nat
deriving DecidableEq, Repr

/-- A persistent key (R451): its header with the material, and whether the stored wrapping still verifies. -/
structure StoredKey where
  slot : Nat
  blob : List Nat
  intact : Bool
deriving DecidableEq, Repr

/-- A register set of the digest engine (R478 to R483): DCTL's fields as written, the declared length, the words taken,
the expected value, the status, result and digest, and whether it is active, busy and done; `words` holds the message
bytes taken, `left` the words still to be taken; `job` says that a job was started and not aborted, and `key` is the key that it sampled at START
(R468). -/
structure RegSet where
  job : Bool
  dctl : Nat
  key : List Nat
  dlen : Nat
  dexp : List Nat
  words : List Nat
  left : Nat
  active : Bool
  busy : Bool
  done : Bool
  status : Nat
  result : Nat
  digest : List Nat
deriving DecidableEq, Repr

/-- The engines of one die: the AES and SHA-2 cores out of service, the preempted jobs' context stores in use (high-water),
and the register sets. -/
structure SecureDie where
  aesLost : List Nat
  shaLost : List Nat
  aesContexts : Nat
  shaContexts : Nat
  sets : Tab RegSet
deriving DecidableEq, Repr

/-- A measurement slot (R485, R488): its value, the base value, the extensions counted, the log of the last 4,096, and
how many were pushed out. -/
structure Measure where
  value : List Nat
  base : List Nat
  count : Nat
  log : List (List Nat)
  pushed : Nat
deriving DecidableEq, Repr

/-- Keys and measurements: key slots at 1,024 × die + slot, key-state slots at 64 × die + slot, the production slots'
values with their rotation ordinals, the key store, the journalled ends of counter blocks by KEYID, the random value
behind the context key, the take-key registers by take slot, measurement slots, boot records and the engines. -/
structure SecureState where
  slots : Tab KeySlot
  keyStates : Tab KeyState
  production : Tab (Nat × List Nat)
  store : List StoredKey
  marks : Tab Nat
  contextSeed : Nat
  takeKeys : Tab (List Nat)
  measures : Tab Measure
  bootRecords : List (List Nat)
  dies : Tab SecureDie
deriving DecidableEq, Repr

end Sys2Proof.Machine
end

