-- ==== Sys2Proof/Machine/TypesStorage.lean ====
section
/-!
DEFINITION. The state of media management (chapter 7) and flash attachment (chapter 8), as plain data.
-/

namespace Sys2Proof.Machine

/-- A coarse entry (R200) without its reserved bits: STATE, XD, STRIPE, POS and HEAT; DIE is the die whose map holds
the entry. `last` is the device time, in s, of the latest partial write (R206). -/
structure CoarseEntry where
  state : Nat
  xd : Bool
  stripe : Nat
  pos : Nat
  heat : Nat
  last : Nat
deriving DecidableEq, Repr

/-- A journal record (R210) before its encoding in 48 bytes. -/
structure JRec where
  seq : Nat
  ty : Nat
  flags : Nat
  count : Nat
  nsid : Nat
  addr : Nat
  new : Nat
  old : Nat
deriving DecidableEq, Repr

/-- The half of a block's write stamp that changes (R221): RDCNT, STRIPE, STATE and FLAGS. -/
structure Block where
  rdcnt : Nat
  stripe : Nat
  state : Nat
  flags : Nat
deriving DecidableEq, Repr

/-- The half of a block's write stamp that its first program after an erase fixes (R221): STIME, TPROG in 0.1 °C, MODE and PEC. -/
structure Birth where
  stime : Nat
  tprog : Int
  mode : Nat
  pec : Nat
deriving DecidableEq, Repr

/-- The maps of a die (R207): coarse entries by coarse unit, fine tables by coarse unit, the granules that the SLC staging region holds for
units that are not fine-mapped (R240), and the block table by 16 × block stripe + channel. -/
structure Maps where
  coarse : Tab CoarseEntry
  fine : Tab (Tab (Nat × Nat))
  slcMap : Tab (Tab (Nat × Nat))
  blocks : Tab Block
deriving DecidableEq, Repr

/-- A checkpoint (R211, R212): the SEQ of its begin record, the maps that its pages hold, and the block stripe and position of each map page by the
page's key. -/
structure Checkpoint where
  seq : Nat
  maps : Maps
  places : Tab (Nat × Nat)
deriving DecidableEq, Repr

/-- A block stripe (R198, R213): its stripe group, the data positions used, its size, whether it takes fine data, the
positions that are valid, its block state as in R221, whether it is degraded, whether it runs in SLC mode (R262), the channels
whose member a target of another channel replaces (R214), the channels whose member stood on a target that has failed and is not rebuilt (R213), and the
flash scrub's next row and last visit, in s of device time (R225). -/
structure Stripe where
  group : Nat
  used : Nat
  size : Nat
  fine : Bool
  valid : Nat
  state : Nat
  degraded : Bool
  slc : Bool
  donors : Tab Nat
  lost : List Nat
  scrubRow : Nat
  visited : Nat
deriving DecidableEq, Repr

/-- What a flash operation is for. -/
inductive OpKind where
  /-- The segment of a frame that the die writes (R134): namespace, take, spring, frame, bytes, and the placement of each of its coarse
  units: unit, block stripe, position. -/
  | frameSegment (nsid take spring frame bytes : Nat) (places : List (Nat × Nat × Nat))
  /-- The unwritten granules of a partly overwritten coarse unit are read (R202): namespace, coarse unit, the HEAT it will have, and the granules with
  the die, block stripe and position of each when the read began. -/
  | mergeRead (nsid unit heat : Nat) (src : Tab (Nat × Nat × Nat))
  /-- Staged writes of one coarse unit (R203): namespace, coarse unit, the HEAT it will have, whether it is promoted, its new coarse
  placement or the positions of its fine units, and 0 for host writes, 1 for folding, 2 for the read that verifies folded data. -/
  | hostWrite (nsid unit heat : Nat) (promote : Bool) (coarse : Option (Nat × Nat)) (fine : Tab (Nat × Nat)) (fold : Nat)
  /-- Journal records up to a sequence number (R208). -/
  | journal (upTo : Nat)
  /-- The map pages that a checkpoint pass programs (R211), each with its block stripe and position. -/
  | mapPages (pages : Tab (Nat × Nat))
  /-- A copy (R231): rank, namespace, unit, the die of the source, the granules with their source positions, the granules with their
  destinations, and whether the destination is being read back. -/
  | copy (rank nsid unit from' : Nat) (src dst : Tab (Nat × Nat)) (verify : Bool)
  /-- The erase of a block stripe (R229). -/
  | erase (stripe : Nat)
  /-- The read of a granule: namespace, LBA, the die that holds it, and the command that waits for it (controller, SQ, identifier). -/
  | read (nsid lba from' : Nat) (cntl sqid cid : Nat)
  /-- A read of a copy's source by background work: its rank, the kind of the work, namespace and unit, the die of the source, and the granules
  with their source positions. -/
  | bgRead (rank kind nsid unit from' : Nat) (src : Tab (Nat × Nat))
  /-- A row of one block read by the flash scrub (R225). -/
  | scrubRead (stripe row : Nat)
  /-- The parity chunk, or the mirror copy, of a die stripe (R215, R216); at a rank where background work moves it. -/
  | parityChunk (stripe : Nat) (rank : Option Nat)
  /-- The block of a block stripe's member on a channel is rebuilt onto the hot spare that took the failed target's place (R214): its row mates and
  parity read, its program, or with `verify` the read that verifies it. -/
  | rebuild (stripe channel phase : Nat)
  /-- Staged data and records programmed by a power-loss commit (R240). -/
  | commit (bytes : Nat)
deriving DecidableEq, Repr

/-- A flash operation: what for, the channel of the member it addresses, the stripe group whose targets it holds, its data bytes,
its block stripe and position, when it was issued, whether it is an erase that is suspended, and whether it waits for its
target (R228). -/
structure FlashOp where
  kind : OpKind
  channel : Nat
  group : Nat
  bytes : Nat
  stripe : Nat
  pos : Nat
  issued : Nat
  suspended : Bool
  waits : Bool
deriving DecidableEq, Repr

/-- Background work that waits (R226): rank, what it is about, and its bytes. `kind` 0 rebuild of a target, 1 refresh of a block, 2 checkpoint
pass, 3 erase, 4 garbage collection of a block stripe, 5 demotion, 6 conversion, 7 folding, 8 scrub of a block stripe, 9 wear levelling of a block stripe,
10 the copy of a coarse unit, of its granules in block stripe `source` where it is fine-mapped, 11 rebuild of a coarse unit of the failed die `source`, 12 rebuild of a
block onto the hot spare that took its target's place, 13 a parity chunk or mirror copy to be freed, 14 one to be moved. `unit` is the coarse unit, the block
stripe, the block (16 × stripe + channel), the member of a stripe group (16 × channel + group) or the die stripe. -/
structure BgWork where
  rank : Nat
  kind : Nat
  nsid : Nat
  unit : Nat
  bytes : Nat
  source : Option Nat
deriving DecidableEq, Repr

/-- Writes to one coarse unit held in host write staging (R203): an identifier, its granules, when the first was accepted, the merge window in force then, in ns (R54), the granules that one
buffer of pond pool 4 holds and the buffers by their place in the unit, 0 held, 1 its merge read under way, 2 its program issued, whether
it is to be placed as soon as an earlier placement of the unit ends, whether it is folded out of the SLC staging region, and then the positions that its granules were
read from, and the coarse entry then, and whether its writes complete only when they are durable, as those that are larger than the dirty limit do (R239). -/
structure StagedUnit where
  id : Nat
  nsid : Nat
  unit : Nat
  granules : List Nat
  since : Nat
  window : Nat
  per : Nat
  bufs : Tab Nat
  phase : Nat
  due : Bool
  fold : Bool
  src : Tab (Nat × Nat)
  old : Nat
  through : Bool
deriving DecidableEq, Repr

/-- A die stripe that waits for contributions (R215, R216): the dies whose chunk is whole, since when, and the hold time in force then, in ns (R54). -/
structure DieStripe where
  contributed : List Nat
  since : Nat
  hold : Nat
deriving DecidableEq, Repr

/-- The media manager and flash channels of one die. `awaiting` lists what becomes durable when the journal record of
that sequence number is programmed (R209), with the positions that become invalid then, by block stripe; `journal` the records on flash since the
newest checkpoint's begin record, `pendingRecs` those not programmed yet; `passPages` the places of the map pages that the running checkpoint pass has programmed, `dirty` the map pages changed since the last pass, `cache` the pages that the mapping
cache holds, most recently used first (R207); `lastFail` the instant of a target's last timeout or failure (R265), `failRuns`
the distinct blocks of its operations with failing status in a row, `badBlocks` its factory and grown bad blocks (R263, R264) and `programTimes` its last
1,024 program times in ns (R253), each at key 16 × channel + CE; `eraseTimes` the last 1,024 erase times of the die (R230); `groups` the stripe groups formed at
first format and `place` the CE of a member of one, at key 16 × channel + group, where it is not the group's number (R213, R214); `swaps` the block index and
channel of the block that a member of a block stripe uses where it is not its own (R233), at key 16 × stripe + channel; `later` background operations that wait
for the seep (R227); `journalAt` the journal stripe in use and `journalSpan` the last SEQ that a journal stripe holds (R208); `chunk` the die's die chunk, `chunkFill`
its granules so far, `chunks` the positions of the die's chunks by die stripe and granule, `skipped` the die stripes closed before the die reached them (R215, R216);
`parity` where the parity chunk or mirror copy of a die stripe stands; `calibrated` the device time at which the calibration stripe was last programmed
(R220). -/
structure MediaDie where
  maps : Maps
  births : Tab Birth
  stripes : Tab Stripe
  openCoarse : Option Nat
  openFine : Option Nat
  leftover : List Nat
  openSlc : Option Nat
  nextSeq : Nat
  pendingRecs : List JRec
  journal : List JRec
  ckpt : Option Checkpoint
  nextCkpt : Option (Nat × Checkpoint)
  passRunning : Bool
  passBegin : Nat
  passIssued : Bool
  passPages : Tab (Nat × Nat)
  dirty : List (Nat × Nat)
  cache : List (Nat × Nat)
  awaiting : List (Nat × Option OpKind × List (Nat × Nat))
  ops : Tab FlashOp
  nextOp : Nat
  staged : List StagedUnit
  nextStage : Nat
  bg : List BgWork
  later : List FlashOp
  journalAt : Option Nat
  journalSpan : Tab Nat
  dieStripes : Tab DieStripe
  parity : Tab (Nat × Nat)
  chunk : Nat
  chunkFill : Nat
  chunks : Tab (Tab (Nat × Nat))
  skipped : List Nat
  population : Option Population
  spareFirst : Nat
  lastFail : Tab Nat
  resetting : Tab Nat
  failRuns : Tab (List Nat)
  badBlocks : Tab Nat
  programTimes : Tab (List Nat)
  eraseTimes : List Nat
  groups : Nat
  place : Tab Nat
  swaps : Tab (Nat × Nat)
  calibrated : Option Nat
  worn : Bool
  hostBytes : Nat
  hostPrev : Nat
  heldBack : Bool
  unrecoverable : List (Nat × Nat)
  checked : Tab Nat
  halvedAt : Nat
  marker : Nat
  halted : Bool
deriving DecidableEq, Repr

/-- Media of all dies, and what the lead keeps: device time in ps, the write mode, whether a power-loss commit runs,
the instant of its falling edge, the dies whose conversion of R218 runs as bits, the TAI time stored with device time, the package marker,
the device time last stored (R219, R220), in ps, and from bring-up until PTP qualifies the TAI time in ns and the device time in ps that were stored before. -/
structure MediaState where
  dies : Tab MediaDie
  devTimePs : Nat
  commitRunning : Bool
  commitFrom : Nat
  convert : Nat
  taiStored : Option Nat
  marker : Nat
  devStored : Nat
  taiOwed : Option (Nat × Nat)
deriving DecidableEq, Repr

end Sys2Proof.Machine
end

