-- ==== Sys2Proof/Machine/State.lean ====
section
/-!
DEFINITION. The whole state of the HK7 as plain data, the reasons a command can stop, and the state after reset.
-/

namespace Sys2Proof.Machine

/-- The faults: a command that names something the part does not have, so that the spec gives it no effect. A completion, timer or
message of something that is not in progress, or before its instant, is no fault: it leaves the machine as it is (DESIGN CHOICE,
log 227). -/
inductive Fault where
  /-- A command names a die, lane, channel, target or unit that the part does not have; raised by every meaning that
  takes one. Safe: the outside world cannot send such a command. -/
  | absentUnit
  /-- An NVMe row runs a command that no COMMAND_FETCH has fetched; raised by every NVMe row. Safe: a command is
  executed only after it is fetched (R282). -/
  | notFetched
deriving DecidableEq, Repr

/-- The refusals. -/
inductive Refusal where
  /-- The command has no meaning yet. Safe. -/
  | notModelled (mnemonic : String)
  /-- An instruction row names a core whose next word is another instruction, or a core that runs no task; a cell row names a cell of
  another row's TYPE, and CELL_IN_ERROR a cell without error; raised by those rows. Safe: the core executes what its task's text
  holds and the receiver goes by the cell's own bytes, so that row's step does not happen. -/
  | notThisWord
deriving DecidableEq, Repr

/-- The state of the block. `out` lists what the device has sent, oldest first; `freeCtr` counts the free values used
(the model's own field); `pending` is the queue of waiting commands. `mem` holds the byte-addressed spaces (task
segments, pond buffers, staged granules, codewords of the flash) in one canonical list; `poison` lists the addresses whose code word is poisoned (R25). -/
structure State where
  cfg : PartCfg
  time : TimeState
  dict : DictState
  fault : FaultState
  boot : BootState
  pins : PinState
  pond : PondState
  inflow : InflowState
  take : TakeState
  media : MediaState
  host : HostState
  comp : ComputeState
  search : SearchState
  secure : SecureState
  lake : LakeState
  power : PowerState
  mem : List Host.Cell
  poison : List Nat
  out : List Output
  freeCtr : Nat
  pending : List Instr
deriving DecidableEq, Repr

/-- A die's phase counter after reset (R34, R58): phase 0, epoch 0. -/
def DieClock.reset : DieClock := ⟨0, 0, 0, 0, 0, 0, false, 0⟩

/-- Every die's clock after reset. -/
def clocksReset : Nat → Tab DieClock
  | 0 => []
  | n + 1 => clocksReset n ++ [(n, DieClock.reset)]

/-- The time base after reset (R42, R58): Acquiring, on the free-running source at the default 10 ms. -/
def TimeState.reset (dies : Nat) : TimeState :=
  { now := 0, epochStart := 0, clocks := clocksReset dies, rateN := 100, rateD := 1, ppb := 0, stretch := 0, lengthened := false
    state := 0, active := 5, adopting := none, lockCount := 0, phaseErr := 0, holdoverFrom := 0, heldNs := none, following := false
    rebasePending := false, sources := []
    ptp := ⟨none, ⟨0, 0, 0, 0, 0, 0⟩, 0, [], none, 0, 0, 0, false, false, 0, none, 0, 0, 0, 0⟩
    period := 0, timecode := 0, tcAt := 0, tcRem := 0, tcLog := [], bandLimits := [], tbWrites := [] }

/-- The dictionary after reset: every object at its default, no session, no transaction. -/
def DictState.reset : DictState := ⟨[], [], [], [], [], 1, [], [], [], [], [], [], [], []⟩

/-- Faults and events after reset: lead on die 0, standby per R20, nothing logged. -/
def FaultState.reset (dies : Nat) : FaultState :=
  { log := [], nextSeq := 1, overwritten := 0, logRead := 0, plog := [], can := [], unackFault := false
    unackCritical := false, onceKeys := [], counts := [], latched := [], rowSpares := [], msixThisEpoch := [], lead := 0
    standby := some (if dies = 8 then 4 else 1), standbySynced := true, leadFenced := [], safeHold := false
    holdSteward := 0, failed := [], resetting := [], stewardFails := [], halted := [], linksDown := []
    softPending := 0, dieResetPending := [], shuttingDown := false, corrected := [] }

/-- Start-up after reset: PORST_N asserted and the boot ROM not yet started (R567, R572). -/
def BootState.reset : BootState :=
  { porst := true, running := false, halted := false, powered := true, attempts := 0, image := none
    bodyVerified := false, sectionsOut := [], sectionsAt := 0, dramUp := [], flashUp := [], restored := [], restricted := false
    bootBlock := [], profile := 0, step := 0, failure := 0, started := 0 }

/-- The pins at reset: PLW_N released, the others low. -/
def PinState.reset : PinState := ⟨true, false, false, false, 0, false, [], []⟩

/-- The lake after reset: no membership (R504, R530). -/
def LakeState.reset : LakeState :=
  { state := 0, ident := 0, node := 0, level := 0, leader := 0, gen := 0, members := [], changed := 0, refusal := 0, peers := []
    seqOut := [], seqIn := [], unacked := [], held := [], beat := none, joinedAt := 0, join := none, rejoin := false, lxns := [], votes := [], ended := [], nextIdent := 1
    searches := [], parts := [], tagWarned := false }

/-- Power management after reset: level 0, step 0, no trip latched. -/
def PowerState.reset : PowerState :=
  { dies := [], absLevel := 0, rateLevel := 0, cause := 0, request := false, met := 0, told := (0, 0, 0x7FFF), grace := none, waiting := false, due := false
    step := 0, stepAt := 0, zeroFrom := some 0, actions := 0, wanted := 0, calm := 0, caps := [], rates := [], moved := []
    tripped := false }

/-- The machine right after power-on of a part, PORST_N asserted: every volatile state clear (R530). -/
def State.resetOf (cfg : PartCfg) : State :=
  { cfg := cfg, time := TimeState.reset cfg.dies, dict := DictState.reset, fault := FaultState.reset cfg.dies
    boot := BootState.reset, pins := PinState.reset
    pond := ⟨[], [], [], [], []⟩
    inflow := ⟨[], []⟩
    take := ⟨[], [], 0, [], [], [], false, false⟩
    media := ⟨[], 0, false, 0, 0, none, 0, 0, none⟩
    host := ⟨[], [], [], [], [], none, [], [], [], [], [], 0, [], 0, [], [], [], [], [], [], [], [], []⟩
    comp := ⟨[], [], none⟩
    search := ⟨[], [], [], [], [], none, none, []⟩
    secure := ⟨[], [], [], [], [], 0, [], [], [], []⟩
    lake := LakeState.reset, power := PowerState.reset
    mem := [], poison := [], out := [], freeCtr := 0, pending := [] }

/-- The machine right after reset: the HK7-2 of grade C (the part is the model's choice; the statements about the
machine hold for the state of every part). -/
def State.reset : State := State.resetOf ⟨2, 0⟩

end Sys2Proof.Machine
end

