-- ==== Sys2Proof/Machine/Ops.lean ====
section
/-!
DEFINITION. The named operations over memory, the dictionary's store, outputs, free values, phase counters, Wildela frames and events,
which every meaning is written with.
-/

namespace Sys2Proof.Machine

/-! ### Memory: one canonical list of cells (an unlisted byte reads 0) -/

/-- One byte of memory. -/
def memByte : List Host.Cell → Nat → BitVec 8
  | [], _ => 0
  | (a', b) :: t, a => if a' = a then b else if a < a' then 0 else memByte t a

/-- Memory with one byte written; a byte of 0 is not listed. -/
def memSet : List Host.Cell → Nat → BitVec 8 → List Host.Cell
  | [], a, b => if b = 0 then [] else [(a, b)]
  | (a', b') :: t, a, b =>
    if a < a' then (if b = 0 then (a', b') :: t else (a, b) :: (a', b') :: t)
    else if a = a' then (if b = 0 then t else (a, b) :: t)
    else (a', b') :: memSet t a b

/-- Memory with bytes written from an address upward. -/
def memWrite : List Host.Cell → Nat → List Nat → List Host.Cell
  | m, _, [] => m
  | m, a, b :: t => memWrite (memSet m a (BitVec.ofNat 8 b)) (a + 1) t

/-- n bytes of memory from an address upward. -/
def memRead (m : List Host.Cell) (a n : Nat) : List Nat :=
  (List.range n).map fun k => (memByte m (a + k)).toNat

/-- Memory with the bytes of a range all zero. -/
def memClear (m : List Host.Cell) (a n : Nat) : List Host.Cell := m.filter fun c => c.1 < a || a + n ≤ c.1

/-- A code word of 16 data bytes lies whole in a range (R23). -/
def wordIn (w a n : Nat) : Bool := a ≤ w / 16 * 16 && w / 16 * 16 + 16 ≤ a + n

/-- The state with bytes written to memory. A poisoned code word that they overwrite whole holds good data again (R25). -/
def State.write (s : State) (a : Nat) (b : List Nat) : State :=
  { s with mem := memWrite s.mem a b, poison := s.poison.filter fun w => !wordIn w a b.length }

/-- The state with a range of memory zeroed. -/
def State.wipe (s : State) (a n : Nat) : State :=
  { s with mem := memClear s.mem a n, poison := s.poison.filter fun w => !wordIn w a n }

/-- Addresses strictly rising and no entry 0: the canonical form of memory. -/
def Memory.wf : List Host.Cell → Bool
  | [] => true
  | [c] => c.2 ≠ 0
  | c :: c' :: t => c.2 ≠ 0 && c.1 < c'.1 && Memory.wf (c' :: t)

/-- The address of a byte of a task's segment. -/
def taskAddr (die slot off : Nat) : Nat := (2 ^ 40 + die * 4096 + slot) * 2 ^ 64 + off

/-- The address of a byte of a pond buffer. -/
def bufAddr (die pool index off : Nat) : Nat :=
  (2 ^ 41 + (die * 64 + pool) * 32768 + index) * 2 ^ 64 + off

/-- The address of a byte of a compute core's local data memory of a task. -/
def localAddr (die slot off : Nat) : Nat := (2 ^ 42 + die * 4096 + slot) * 2 ^ 64 + off

/-! ### The part -/

/-- A die of the part. -/
def State.hasDie (s : State) (d : Nat) : Bool := d < s.cfg.dies

/-- The springs of the part, 4 per die (R11). -/
def State.springs (s : State) : Nat := 4 * s.cfg.dies

/-- The dies of the part, in order. -/
def State.dies (s : State) : List Nat := List.range s.cfg.dies

/-! ### The dictionary's store -/

/-- The key of index:sub. -/
def okey (idx sub : Nat) : Nat := 256 * idx + sub

/-- The class rank of R31, 0 to 4, of a function that the spec places in no class (R605). -/
def unstatedRank (idx : Nat) : Nat := Config.unstatedRank idx % 5

/-- The housekeeping limits of the voltage channels V0 to V13, in whole mV within the ranges of R586. -/
def railLow : List Nat := [728, 728, 728, 728, 825, 825, 760, 873, 1164, 1140, 470, 1010, 1710, 0]
def railHigh : List Nat := [772, 772, 772, 772, 875, 875, 840, 927, 1236, 1260, 570, 1120, 1890, 300]

/-- The package's maximum currents of the channels I0 to I5, in mA (R587). -/
def railCurrents (dies : Nat) : List Nat :=
  if dies = 2 then [36000, 6000, 1000, 4000, 3000, 600]
  else if dies = 4 then [70000, 12000, 2000, 7800, 6000, 1200]
  else [144000, 24000, 4000, 16900, 12000, 2400]

/-- Defaults that the tables give "per part" (R92, R93, R177, R545, R577). -/
def partDefault (cfg : PartCfg) (idx sub : Nat) : Option Nat :=
  if idx = 0x1000 then
    if sub = 2 then some cfg.dies
    else if sub = 3 then some cfg.grade
    else if sub = 4 then some 0x3142
    else if sub = 5 then some (392 + 294 * cfg.dies)
    else if sub = 6 then some Config.packageSerial
    else if sub = 7 then some Config.firmwareVersion
    else none
  else if 0x1080 ≤ idx ∧ idx < 0x1088 then
    if sub = 1 then some (Config.dieSerial (idx - 0x1080)) else if sub = 2 then some (idx - 0x1080) else none
  else if idx = 0x1808 then
    if sub = 1 then some (if cfg.dies = 2 then 1200 else if cfg.dies = 4 then 1800 else 2500)
    else if sub = 2 then some 6000 else none
  else if idx = 0x180A then
    if sub = 1 then some Config.bootFlashId else if sub = 2 then some Config.bootFlashBytes else none
  else if 0x8148 ≤ idx ∧ idx < 0x8150 then some (railLow.getD (sub - 1) 0)
  else if 0x8150 ≤ idx ∧ idx < 0x8158 then some (railHigh.getD (sub - 1) 0)
  else if 0x8160 ≤ idx ∧ idx < 0x8168 then some ((railCurrents cfg.dies).getD (sub - 1) 0 / max 1 cfg.dies)
  else if 0x81A0 ≤ idx ∧ idx < 0x81A8 then some (Config.sensorTrim (12 * (idx - 0x81A0) + sub - 1)).toNat
  else if idx = 0x8002 ∧ sub ≠ 3 then some (if cfg.dies = 2 then 44000 else if cfg.dies = 4 then 86000 else 176000)
  else if idx = 0xA00C ∧ sub = 2 then some (if cfg.dies = 8 then 4 else 1)
  else if 0x5240 ≤ idx ∧ idx < 0x5248 then
    (if sub = 5 ∨ sub = 8 then some 2 else if sub = 6 ∨ sub = 7 then some 1 else some 0)
  else if 0x5248 ≤ idx ∧ idx < 0x5250 then
    (if sub = 5 then some 20 else if sub = 6 then some 12 else if sub = 7 ∨ sub = 8 then some 16 else none)
  else if 0x5250 ≤ idx ∧ idx < 0x5258 then
    (if sub = 5 then some 1024 else if sub = 6 then some 512 else if sub = 7 then some 64
     else if sub = 8 then some 4096 else none)
  else if 0x5258 ≤ idx ∧ idx < 0x5260 then (if sub = 5 then some 2 else none)
  else if 0x5260 ≤ idx ∧ idx < 0x5268 then
    (if sub = 5 ∨ sub = 6 then some 1 else if sub = 7 then some 3 else if sub = 8 then some 2 else none)
  else none

/-- The default of index:sub. -/
def objDefault (cfg : PartCfg) (idx sub : Nat) : Nat :=
  match partDefault cfg idx sub with
  | some v => v
  | none =>
    match findRow cfg.dies idx sub with
    | some r => r.dflt
    | none => 0

/-- The active value of a non-DOMAIN object. -/
def State.obj (s : State) (idx sub : Nat) : Nat :=
  (tget s.dict.store (okey idx sub)).getD (objDefault s.cfg idx sub)

/-- The active bytes of a DOMAIN object. -/
def State.dom (s : State) (idx sub : Nat) : List Nat := (tget s.dict.doms (okey idx sub)).getD []

/-! ### Dies and their links (R16, R17, R525) -/

/-- A die that has not failed (R525); with cross-die protection on, a die counts as failed while its die reset runs (R532). -/
def State.healthy (s : State) (d : Nat) : Bool :=
  s.hasDie d && !s.fault.failed.contains d && !(s.fault.resetting.contains d && s.obj 0x3000 0 == 1)

/-- A die link, or a bridge link, between two dies works: it has not failed and both dies are healthy (R16, R17). -/
def State.linkUp (s : State) (a b : Nat) : Bool :=
  s.healthy a && s.healthy b && !s.fault.linksDown.contains (min a b, max a b)

/-- The die whose bridge link traffic from die a to the other quad uses (R17, R541): die a's own where its link is healthy, else that of the
lowest-numbered die of die a's quad whose link is. -/
def State.bridgeOf (s : State) (a : Nat) : Nat :=
  let up := fun d => s.linkUp d ((d + 4) % 8)
  if up a then a else ((s.dies.filter fun d => d / 4 = a / 4 && up d).head?).getD a

/-- The dies that traffic from die a to die b passes, both ends included (R17): inside a quad the direct link; across the bridge one hop
inside each quad at most. -/
def State.route (s : State) (a b : Nat) : List Nat :=
  if a / 4 = b / 4 then [a, b].eraseDups
  else
    let x := s.bridgeOf a
    [a, x, (x + 4) % 8, b].eraseDups

/-! ### Changes of the store -/

/-- The state with an object's active value set. -/
def State.setObj (s : State) (idx sub v : Nat) : State :=
  { s with dict := { s.dict with store := tset s.dict.store (okey idx sub) v } }

/-- The state with a DOMAIN object's bytes set. -/
def State.setDom (s : State) (idx sub : Nat) (v : List Nat) : State :=
  { s with dict := { s.dict with doms := tset s.dict.doms (okey idx sub) v } }

/-- The state with a counter object increased. A counter is read modulo its type's size. -/
def State.addObj (s : State) (idx sub n : Nat) : State := s.setObj idx sub (s.obj idx sub + n)

/-- The state with a counter object increased by one. -/
def State.bump (s : State) (idx sub : Nat) : State := s.addObj idx sub 1

/-- The state with a high-water mark raised to a value. -/
def State.highWater (s : State) (idx sub v : Nat) : State :=
  if s.obj idx sub < v then s.setObj idx sub v else s

/-! ### Outputs and free values -/

/-- The state after the device sent a message. -/
def State.emit (s : State) (o : Output) : State := { s with out := s.out ++ [o] }

/-- The state after the device sent several messages. -/
def State.emitAll (s : State) (os : List Output) : State := { s with out := s.out ++ os }

/-- The next free value: a value that the spec leaves open. -/
def State.freeValue (s : State) : Nat := Config.free s.freeCtr

/-- The state after a free value was used. -/
def State.useFree (s : State) : State := { s with freeCtr := s.freeCtr + 1 }

/-! ### CAN FD frames (R71, R77) -/

/-- The smallest CAN FD length that holds so many bytes. -/
def canLength (n : Nat) : Nat := if n ≤ 8 then n else ([12, 16, 20, 24, 32, 48, 64].find? fun m => n ≤ m).getD 64

/-- A CAN bus is enabled (0x1030:04). -/
def State.busOn (s : State) (bus : Nat) : Bool := bitOf (s.obj 0x1030 4) bus

/-- A frame of a function with the device's node number goes out on a bus. -/
def State.emitCanOn (s : State) (bus fn : Nat) (body : List Nat) : State :=
  s.emit (.canFrame bus (fn * 128 + s.obj 0x1030 1) (fit (canLength body.length) body))

/-- A frame of a function goes out on both buses, where they are enabled. -/
def State.emitCan (s : State) (fn : Nat) (body : List Nat) : State :=
  ([0, 1].filter s.busOn).foldl (fun s bus => s.emitCanOn bus fn body) s

/-! ### Phase and epoch -/

/-- A die's phase counter. -/
def State.clock (s : State) (d : Nat) : DieClock := tgetD s.time.clocks d DieClock.reset

/-- The lead's epoch number (R21). -/
def State.epoch (s : State) : Nat := (s.clock s.fault.lead).epoch

/-- The lead's phase. -/
def State.phase (s : State) : Nat := (s.clock s.fault.lead).phase

/-- The epoch period in use, in ns: D × 10⁹ / N, rounded down, at least 1. -/
def State.periodNs (s : State) : Nat := max 1 (s.time.rateD * 1000000000 / max 1 s.time.rateN)

/-- A heartbeat with a state code (R77): error-passive is code 1 of 0x1031:01 and :02 (log entry 161). -/
def State.heartbeat (s : State) (code : Nat) : State :=
  s.emitCan 3 ([code] ++ leBytes 6 s.epoch ++ [b2n (s.obj 0x1031 1 = 1) + 2 * b2n (s.obj 0x1031 2 = 1)])

/-- A die's clock stands in a window given as start phase and length, which ends at the boundary at the latest (R49, R50). -/
def State.inWindow (s : State) (d start len : Nat) : Bool :=
  start ≤ (s.clock d).phase && (s.clock d).phase < min 65536 (start + len)

/-- A die's clock stands in the scrub window (R542). -/
def State.inScrub (s : State) (d : Nat) : Bool := s.inWindow d (s.obj 0xA013 0) (s.obj 0xA014 0)

/-- Device time in whole milliseconds (R219, R538). -/
def State.dtimeMs (s : State) : Nat := s.media.devTimePs / 1000000000

/-- Device time in whole seconds. -/
def State.dtimeS (s : State) : Nat := s.media.devTimePs / 1000000000000

/-- Some take is open (R142): 1 open. -/
def State.anyOpen (s : State) : Bool := s.take.takes.any fun t => t.state = 1

/-- Some take is open or closing. -/
def State.anyOpenOrClosing (s : State) : Bool := s.take.takes.any fun t => t.state = 1 || t.state = 4

/-- The class of each die event EV d.000 to EV d.143 (R534 and each chapter's event table); an event that no chapter
raises stands as 0. -/
def dieEventClasses : List Nat :=
  [0, 2, 1, 2, 0, 2, 0, 2, 2, 2, 3, 0, 0, 1, 0, 0,
   0, 1, 2, 0, 1, 1, 1, 1, 0, 1, 0, 0, 0, 0, 0, 0,
   1, 2, 0, 0, 0, 0, 0, 0, 1, 1, 1, 2, 0, 1, 0, 0,
   0, 1, 1, 2, 1, 2, 0, 1, 1, 3, 1, 1, 0, 3, 0, 0,
   0, 1, 2, 3, 1, 0, 0, 0, 0, 1, 1, 0, 1, 0, 0, 0,
   0, 1, 1, 0, 1, 0, 0, 0, 1, 1, 1, 0, 2, 1, 0, 0,
   1, 0, 2, 2, 2, 0, 1, 0, 1, 1, 1, 0, 2, 0, 0, 0,
   2, 1, 1, 2, 0, 0, 0, 0, 1, 1, 2, 0, 0, 0, 3, 1,
   0, 0, 0, 0, 0, 0, 0, 0, 0, 1, 3, 2, 0, 0, 0, 0]

/-- The class of each package event EV P.00 to EV P.47. -/
def packageEventClasses : List Nat :=
  [1, 1, 0, 0, 2, 2, 0, 0, 0, 0, 1, 1, 3, 1, 1, 0,
   3, 0, 1, 1, 0, 1, 0, 1, 0, 0, 0, 2, 1, 0, 1, 1,
   1, 2, 0, 3, 0, 2, 1, 0, 1, 1, 3, 0, 1, 0, 1, 0]

/-! ### Records -/

/-- The state with a manifest record appended to every take that is open or closing (R164). -/
def State.recordInTakes (s : State) (r : List Nat) : State :=
  { s with take := { s.take with takes := s.take.takes.map fun t =>
      if t.state = 1 ∨ t.state = 4 then { t with records := t.records ++ [r] } else t } }

/-! ### Completion entries (R282) -/

/-- The state with a controller changed. -/
def State.modCtrl (s : State) (c : Nat) (f : Ctrl → Ctrl) : State :=
  { s with host := { s.host with ctrls := tmod s.host.ctrls c f } }

/-- A CQ has room for one more entry. -/
def Cq.room (q : Cq) : Bool := (q.tail + 1) % max 1 q.size ≠ q.head

/-- The port of a controller (R272). -/
def portOf (cntl : Nat) : Nat := (cntl - 1) / 32

/-- The CQ that a submission queue posts to. -/
def Ctrl.cqOf (c : Ctrl) (sqid : Nat) : Nat :=
  match tget c.sqs sqid with
  | some q => q.cqid
  | none => 0

/-- The state after a memory write request of a function touches a page of host memory: the active bit of a window that
holds it is set, and a write outside every window is counted (R318, R319). -/
def State.touchHost (s : State) (fn addr : Nat) : State :=
  match tget s.host.fns fn with
  | none => s
  | some f =>
    if f.windows.isEmpty then s
    else
      let inside := fun w : Window => w.fits && w.base ≤ addr && addr < w.base + w.units * 134217728
      let mark := fun w : Window =>
        let p := (addr - w.base) / 4096
        if inside w && !w.active.contains p then { w with active := p :: w.active } else w
      let f' := { f with windows := f.windows.map mark, outside := if f.windows.any inside then f.outside else f.outside + 1 }
      { s with host := { s.host with fns := tset s.host.fns fn f' } }

/-- A vector is masked in the MSI-X table (R270). -/
def Ctrl.masked (c : Ctrl) (vector : Nat) : Bool := bitOf (c.msix.getD (16 * vector + 12) 0) 0

/-- The MSI-X table and pending bits with the bit of a vector set (R270). -/
def Ctrl.setPending (c : Ctrl) (vector : Nat) : Ctrl :=
  let l := fit 2088 c.msix
  let at' := 2064 + vector / 8
  let old := l.getD at' 0
  { c with msix := patch l at' [if bitOf old (vector % 8) then old else old + 2 ^ (vector % 8)] }

/-- An MSI-X message goes out, or its pending bit is set while the vector is masked (R270); a function sends none during its reset (R315). -/
def State.sendMsix (s : State) (cntl vector : Nat) : State :=
  match tget s.host.ctrls cntl with
  | none => s
  | some c =>
    if c.flr then s
    else if c.masked vector then s.modCtrl cntl fun c => c.setPending vector
    else (s.emit (.msix cntl vector)).bump (0x40D0 + portOf cntl) 0

/-- A completion entry interrupts: at once, or coalesced as Feature 08h has it, up to its threshold; entries of the admin queue and of vectors that
Feature 09h excepts are never coalesced (R274). -/
def State.signalVector (s : State) (cntl cqid vector : Nat) : State :=
  match tget s.host.ctrls cntl with
  | none => s
  | some c =>
    let f := tgetD c.feats 8 0
    if cqid = 0 ∨ f % 256 = 0 ∨ f / 256 % 256 = 0 ∨ bitOf (tgetD c.feats (9 * 65536 + vector) 0) 16 then s.sendMsix cntl vector
    else
      let h := tgetD c.held vector (0, s.time.now)
      if f % 256 < h.1 + 1 then (s.modCtrl cntl fun c => { c with held := tdel c.held vector }).sendMsix cntl vector
      else s.modCtrl cntl fun c => { c with held := tset c.held vector (h.1 + 1, h.2) }

/-- Coalesced interrupts whose aggregation time, in units of 100 µs, has passed go out (R274). -/
def State.releaseInterrupts (s : State) : State :=
  s.host.ctrls.foldl (fun s c =>
    let due := c.2.held.filter fun h => h.2.2 + 100000 * (tgetD c.2.feats 8 0 / 256 % 256) ≤ s.time.now
    due.foldl (fun s h => (s.modCtrl c.1 fun c => { c with held := tdel c.held h.1 }).sendMsix c.1 h.1) s) s

/-- The state after a completion entry is posted, or set to wait for room in its CQ (R287, R288). -/
def State.postCqe (s : State) (cntl : Nat) (e : Cqe) : State :=
  match tget s.host.ctrls cntl with
  | none => s
  | some c =>
    let cqid := c.cqOf e.sqid
    match tget c.cqs cqid with
    | none => s
    | some q =>
      if q.room then
        let tail := (q.tail + 1) % max 1 q.size
        let q' := { q with tail := tail, phase := if tail = 0 then !q.phase else q.phase }
        let s0 := s.touchHost (cntl - 1) (q.base + 16 * q.tail)
        let s1 := s0.modCtrl cntl fun c => { c with cqs := tset c.cqs cqid q' }
        let s2 := s1.emit (.nvmeCompletion cntl cqid e.sqid e.cid e.sct e.sc e.dnr e.dw0 e.dw1)
        let s3 := if e.sct = 0 ∧ e.sc = 0 then s2 else s2.bump (0x4088 + portOf cntl) 0
        if q.ints then s3.signalVector cntl cqid q.vector else s3
      else s.modCtrl cntl fun c => { c with cqs := tset c.cqs cqid { q with waiting := q.waiting ++ [e] } }

/-- The state after an asynchronous event reaches a controller: an outstanding Asynchronous Event Request completes
with type, information and log page, or the event waits for one (R535). -/
def State.asyncEvent (s : State) (cntl ty info page : Nat) : State :=
  match tget s.host.ctrls cntl with
  | none => s
  | some c =>
    if ty = 7 ∧ c.aeMasked then s
    else
      let dw0 := ty + 256 * info + 65536 * page
      match c.aers with
      | [] => s.modCtrl cntl fun c =>
          { c with aePending := if c.aePending.contains (ty, dw0) then c.aePending else c.aePending ++ [(ty, dw0)] }
      | cid :: rest =>
        let s1 := s.modCtrl cntl fun c =>
          { c with aers := rest, aeMasked := c.aeMasked || ty == 7
                   cmds := c.cmds.filter fun m => !(m.sqid == 0 && m.cid == cid) }
        s1.postCqe cntl ⟨0, cid, 0, 0, false, dw0, 0⟩

/-! ### Events (R534 to R541) -/

/-- The code of die event EV d.n (R78). -/
def evDie (d n : Nat) : Nat := d * 4096 + n

/-- The code of package event EV P.n. -/
def evPkg (n : Nat) : Nat := 0xF000 + n

/-- The class of an event (R534). -/
def evClass (code : Nat) : Nat :=
  if code / 4096 = 15 then packageEventClasses.getD (code % 4096) 0 else dieEventClasses.getD (code % 4096) 0

/-- The die whose clock stamps an event: the die itself, or the lead for a package event. -/
def State.evDieOf (s : State) (code : Nat) : Nat := if code / 4096 = 15 then s.fault.lead else code / 4096

/-- The routes of 0xA007 for an event, if it has an entry there: entries of event 2, routes 1, reserved 1. -/
def routeOverride : Nat → List Nat → Option Nat
  | code, a :: b :: r :: _ :: t => if a + 256 * b = code then some r else routeOverride code t
  | _, _ => none

/-- The routes taken by an event: its override in 0xA007, else the mask of its class in 0xA008, bit 0 always. -/
def State.routesOf (s : State) (code : Nat) : Nat :=
  let m := (routeOverride code (s.dom 0xA007 0)).getD (s.obj 0xA008 (evClass code + 1))
  setBit (m % 32) 0

/-- The causes of FAULT_N, bits in the order of R544. -/
def State.faultCauses (s : State) : Nat :=
  ofBits ((if s.fault.safeHold then [0] else []) ++ (if s.fault.failed ≠ [] then [1] else []) ++
    (if s.fault.unackCritical then [2] else []) ++
    (if s.fault.unackFault ∧ s.obj 0xA010 0 = 1 then [3] else []) ++ (if s.pins.thermTrip then [4] else []))

/-- FAULT_N is asserted: a cause holds, and the dictionary has answered since PORST_N (R544). -/
def State.faultN (s : State) : Bool := !s.boot.porst && 2 ≤ s.obj 0x1800 0 && s.faultCauses ≠ 0

/-- The FAULT_N ball follows its causes; a change of level is sent (pin 0; level false is asserted). -/
def State.driveFaultN (s : State) : State :=
  let now := b2n s.faultN
  if s.obj 0xA00F 1 = now then s.setObj 0xA00F 2 s.faultCauses
  else ((s.setObj 0xA00F 1 now).setObj 0xA00F 2 s.faultCauses).emit (.pin 0 (!s.faultN))

/-- The enabled PF controllers, the targets of an event that is not confined to one function (R536). -/
def State.enabledPfs (s : State) : List Nat :=
  (s.host.ctrls.filter fun c => c.1 % 32 == 1 && c.2.en).map (·.1)

/-- The event log keeps the newest 4,096 raises (R538). -/
def logKeep : Nat := 4096

/-- The state after an occurrence is written into the event log, and into the persistent fault log for the classes
fault and critical (R538, R539). -/
def State.logEvent (s : State) (e : EvEntry) : State :=
  let e' := { e with seq := s.fault.nextSeq }
  let full := logKeep ≤ s.fault.log.length
  let unread : Bool := match s.fault.log.head? with
    | some o => decide (s.fault.logRead < o.seq)
    | none => false
  let s1 := { s with fault := { s.fault with
    log := (if full then s.fault.log.drop 1 else s.fault.log) ++ [e']
    nextSeq := s.fault.nextSeq + 1
    overwritten := if full ∧ unread then s.fault.overwritten + 1 else s.fault.overwritten
    unackFault := s.fault.unackFault || e.cls == 2
    unackCritical := s.fault.unackCritical || e.cls == 3 } }
  if 2 ≤ e.cls then
    let kept := if 256 ≤ s1.fault.plog.length then s1.fault.plog.drop 1 else s1.fault.plog
    { s1 with fault := { s1.fault with plog := kept ++ [e'] } }.bump (0xA1D8 + s.evDieOf e.event) 0
  else s1

/-- The state with the CAN emergency state of an event set. -/
def State.setCan (s : State) (code : Nat) (r : CanRepeat) : State :=
  { s with fault := { s.fault with can := tset s.fault.can code r } }

/-- The emergency body of R78, 16 bytes. -/
def emergencyBody (e : EvEntry) (repeats : Nat) : List Nat :=
  leBytes 2 e.event ++ [e.cls, repeats] ++ leBytes 6 e.epoch ++ leBytes 2 e.phase ++ leBytes 4 e.detail

/-- The CAN emergency route (R78, R537): a frame at once, or a further occurrence counted within 0xA009 of the last. -/
def State.canRoute (s : State) (e : EvEntry) : State :=
  let fresh : CanRepeat := ⟨s.time.now, 0, e.epoch, e.phase, e.detail⟩
  match tget s.fault.can e.event with
  | some r =>
    if s.time.now < r.last + s.obj 0xA009 0 * 1000000 then
      s.setCan e.event ⟨r.last, min 255 (r.repeats + 1), e.epoch, e.phase, e.detail⟩
    else (s.setCan e.event fresh).emitCan 1 (emergencyBody e 0)
  | none => (s.setCan e.event fresh).emitCan 1 (emergencyBody e 0)

/-- The MSI-X route: vector 0 of a target controller, at most once per epoch per controller (R535). -/
def State.msixRoute (s : State) (c : Nat) : State :=
  if s.fault.msixThisEpoch.contains c then s
  else ({ s with fault := { s.fault with msixThisEpoch := s.fault.msixThisEpoch ++ [c] } }).sendMsix c 0

/-- The nodes of 0x9018 that are in use (R535, R545). -/
def State.sinkNodes (s : State) : List Nat :=
  ((List.range 8).map fun k => s.obj 0x9018 (k + 1)).filter (· < 512)

/-- The state after an occurrence is delivered on its routes to the controllers given (R535, R536); `lake` is the lake route. -/
def State.deliverVia (lake : State → EvEntry → State) (s : State) (e : EvEntry) (targets : List Nat) : State :=
  let s1 := s.logEvent e
  let s2 := if bitOf e.routes 1 then targets.foldl State.msixRoute s1 else s1
  let s3 := if bitOf e.routes 2 then targets.foldl (fun s c => s.asyncEvent c 7 e.cls 0xC0) s2 else s2
  let s4 := if bitOf e.routes 3 then s3.canRoute e else s3
  let s5 := if bitOf e.routes 4 then lake s4 e else s4
  let mark := 2 ≤ e.cls || (e.event / 4096 < 8 && (e.event % 4096 == 17 || e.event % 4096 == 18))
  let s6 := if mark then s5.recordInTakes (record 32 [(0, 1, 5), (1, 1, e.cls), (2, 2, e.event), (6, 2, 32),
      (8, 6, e.epoch), (14, 2, e.phase), (16, 4, e.detail)]) else s5
  s6.driveFaultN

/-- Every occurrence is counted by event, by class for the package and by class for its die (R537). -/
def State.countEvent (s : State) (code : Nat) : State :=
  let c := evClass code
  let s1 := { s with fault := { s.fault with counts := tset s.fault.counts code (tgetD s.fault.counts code 0 + 1) } }
  let s2 := s1.bump 0xA000 (c + 1)
  if code / 4096 < 8 then
    let d := code / 4096
    (((s2.bump (0xA108 + d) (c + 1)).setObj (0xA1B8 + d) 1 code).setObj (0xA1B8 + d) 2 (s.clock d).epoch)
  else if code ≤ 0xF005 then s2.bump 0x1160 (code - 0xF000 + 1)
  else s2

/-- The log entry of an occurrence now. -/
def State.evEntry (s : State) (code detail fn : Nat) : EvEntry :=
  let d := s.evDieOf code
  ⟨code, evClass code, s.routesOf code, (s.clock d).epoch, (s.clock d).phase, detail % 2 ^ 32, 0, fn, s.dtimeMs⟩

/-- The events whose chapter states a detail word: EV P.27 (R516), EV P.40 to EV P.42 (chapter 18). The detail word of every
other event is not stated: a free value. -/
def detailStated (code : Nat) : Bool := [0xF000 + 27, 0xF000 + 40, 0xF000 + 41, 0xF000 + 42].contains code

/-- The state after an event is raised, for one function (0xFFFF: none) and the controllers given; `told` is its detail
word where its chapter states one. Events of a die whose steward is halted are held in its latches (R526). -/
def State.raiseOneVia (lake : State → EvEntry → State) (s0 : State) (code told fn : Nat) (targets : List Nat) : State :=
  let detail := if detailStated code then told else s0.freeValue % 2 ^ 32
  let s := if detailStated code then s0 else s0.useFree
  let s1 := s.countEvent code
  let s2 := if code / 4096 < 8 then s1.setObj (0xA1B8 + code / 4096) 3 detail else s1
  if s.fault.halted.contains (s.evDieOf code) ∧ code / 4096 < 8 then
    let d := code / 4096
    let s3 : State := { s2 with fault := { s2.fault with latched := s2.fault.latched ++ [(s2.evEntry code detail fn, targets)] } }
    let n := (s3.fault.latched.filter fun l => l.1.event / 4096 = d).length
    (s3.setObj (0xA1C0 + d) 1 n).highWater (0xA1C0 + d) 2 n
  else s2.deliverVia lake (s2.evEntry code detail fn) targets

/-- An event is raised as `raiseOneVia` says; when that overwrites an entry of the event log that nobody has read, EV P.38 is raised, at
most once per epoch (R538, R541). -/
def State.raiseVia (lake : State → EvEntry → State) (s : State) (code told fn : Nat) (targets : List Nat) : State :=
  let s1 := s.raiseOneVia lake code told fn targets
  let key := (0xF000 + 38, 0)
  if s.fault.overwritten < s1.fault.overwritten ∧ !s1.fault.onceKeys.contains key then
    ({ s1 with fault := { s1.fault with onceKeys := s1.fault.onceKeys ++ [key] } } : State).raiseOneVia lake (0xF000 + 38) 0 0xFFFF
      s1.enabledPfs
  else s1

/-! ### Wildela frames (R494 to R496) -/

/-- The key of a lane. -/
def laneKey (d lane : Nat) : Nat := 4 * d + lane

/-- A lane that has not been trained. -/
def Lane.off : Lane :=
  { state := 0, since := 0, idleTill := 0, goodCw := 0, badCw := 0, lock := false, goodH := 0, badH := 0, waiting := [], nakAt := 0
    spareFor := none, expSeq := 0, nakCnt := 0, nakRuns := 0, nakSeq := 0, inError := false
    stored := false, signal := false, fast := false, fastFailed := false, version := 0, helloSeen := false, replay := 0
    echoes := [], delayPs := 0 }

/-- A lane. -/
def State.lane (s : State) (d lane : Nat) : Lane := tgetD s.inflow.lanes (laneKey d lane) Lane.off

/-- The mode of a lane, 0x2120 + d (R94). -/
def State.laneMode (s : State) (d lane : Nat) : Nat := s.obj (0x2120 + d) (lane + 1)

/-- A lane is a lake lane: in Ethernet mode and named in 0x9003. -/
def State.lakeLane (s : State) (d lane : Nat) : Bool := s.laneMode d lane = 3 && bitOf (s.obj 0x9003 0) (4 * d + lane)

/-- The lake lanes whose link is up, in ascending order. -/
def State.lakeLanesUp (s : State) : List Nat :=
  (List.range (4 * s.cfg.dies)).filter fun k => s.lakeLane (k / 4) (k % 4) && (s.lane (k / 4) (k % 4)).signal

/-- A key slot of a die. -/
def State.keySlot (s : State) (d n : Nat) : Option KeySlot := tget s.secure.slots (1024 * d + n)

/-- The state with a key slot set. -/
def State.setKeySlot (s : State) (d n : Nat) (k : KeySlot) : State :=
  { s with secure := { s.secure with slots := tset s.secure.slots (1024 * d + n) k } }

/-- A key slot carries what R496 asks of a lake key slot: POLICY bits 0, 1, 3 and 7, class bit lake, and OWNER 0xFFFF. -/
def KeySlot.lakeOk (k : KeySlot) : Bool := k.state = 1 && [0, 1, 3, 7, 10].all (bitOf k.policy) && k.owner = 0xFFFF

/-- Message types whose ACK the sender waits for (R499). -/
def acked (ty : Nat) : Bool := [2, 3, 0x10, 0x11, 0x20, 0x21, 0x22, 0x23, 0x24, 0x40, 0x41].contains ty

/-- The lane address of a node's lake lane (R494). -/
def laneAddress (node lane : Nat) : List Nat := [0x02, 0x4D, 0x4C, 0x4B] ++ beBytes 2 (node * 32 + lane)

/-- Where a message for a destination goes: the group address, or the lane address from which the peer's latest heartbeat arrived; none
where no heartbeat of that node has arrived (R494). -/
def State.lakeAddress (s : State) (dst : Nat) : Option (List Nat) :=
  if dst = 0x1FF then some [0x01, 0x4D, 0x4C, 0x4B, 0, 0] else (tget s.lake.peers dst).map fun p => laneAddress dst p.lane

/-- The Wildela header of R495 that this device sends now, with a GCM IV. -/
def State.lakeHeader (s : State) (m : LakeOut) (iv : List Nat) : List Nat :=
  [1, m.ty, s.lake.level, b2n (acked m.ty) + 2 * b2n m.retry] ++ leBytes 6 (s.obj 0x9000 0) ++ leBytes 2 s.lake.node ++ leBytes 2 m.dst ++
    leBytes 4 m.seq ++ leBytes 6 s.epoch ++ leBytes 2 s.phase ++ leBytes 2 m.body.length ++ iv

/-- The 802.1Q tag where 0x9005:01 is 1, and the EtherType (R494). -/
def State.lakeType (s : State) : List Nat :=
  (if s.obj 0x9005 1 = 1 then beBytes 2 0x8100 ++ beBytes 2 (s.obj 0x9005 3 * 8192 + s.obj 0x9005 2) else []) ++ beBytes 2 (s.obj 0x9004 0)

/-- A Wildela frame with a GCM IV and key (R494, R496). -/
def State.lakeFrame (s : State) (m : LakeOut) (dst key iv : List Nat) : List Nat :=
  let h := s.lakeHeader m iv
  let c := gcmCrypt key iv m.body
  dst ++ laneAddress s.lake.node m.lane ++ s.lakeType ++ h ++ c ++ gcmTag key iv h c

/-- A key slot's counter rises after a GCM encryption; after its last value the slot is decrypt-only, with EV d.104, whose own EVENT
message this slot can no longer encrypt (R453, R455). -/
def State.countIv (s : State) (d slot : Nat) (k : KeySlot) : State :=
  if k.counter + 1 = 2 ^ 64 then
    let s1 := (s.setKeySlot d slot { k with state := 2 }).bump 0x6015 0
    s1.raiseVia (fun s _ => s) (evDie d 104) 0 0xFFFF s1.enabledPfs
  else s.setKeySlot d slot { k with counter := k.counter + 1 }

/-- A message leaves on its lane, encrypted by the lake key slot of that lane's die; it waits where the slot's next block of counter values
is not yet journalled (R454, R496). Nothing leaves without a key or an address. -/
def State.lakeOut (s : State) (m : LakeOut) : State :=
  let d := m.lane / 4
  let slot := s.obj 0x9006 0
  match s.keySlot d slot, s.lakeAddress m.dst with
  | some k, some dst =>
    if !k.lakeOk then s
    else if k.blockEnd ≤ k.counter then { s with lake := { s.lake with held := s.lake.held ++ [m] } }
    else
      let iv := beBytes 4 k.salt ++ beBytes 8 k.counter
      (s.emit (.wildela d (m.lane % 4) (s.lakeFrame m dst k.material iv))).countIv d slot k
  | _, _ => s

/-- The messages that waited for a counter block of a die's lake slot leave, in order (R454). -/
def State.lakeRelease (s : State) (d : Nat) : State :=
  (s.lake.held.filter fun m => m.lane / 4 = d).foldl State.lakeOut
    { s with lake := { s.lake with held := s.lake.held.filter fun m => m.lane / 4 ≠ d } }

/-- A Wildela message is sent, with the next sequence number of its destination (R495): a heartbeat on every lake lane that is up, any
other message on the first (R494). -/
def State.lakeEmit (s : State) (dst ty : Nat) (retry : Bool) (body : List Nat) : State :=
  let n := (tgetD s.lake.seqOut dst 0 + 1) % 2 ^ 32
  let up := s.lakeLanesUp
  let on := if ty = 1 then up else up.take 1
  let s1 : State := { s with lake := { s.lake with seqOut := tset s.lake.seqOut dst n } }
  if on.isEmpty then s1 else on.foldl (fun s k => s.lakeOut ⟨k, dst, ty, n, retry, body⟩) (s1.bump 0x901A 1)

/-- The lake route: an EVENT message to each sink node, at running level 2 only (R499, R535). -/
def State.lakeRoute (s : State) (e : EvEntry) : State :=
  if s.lake.level < 2 ∨ s.lake.state < 2 then s
  else s.sinkNodes.foldl (fun s n => s.lakeEmit n 0x50 false (emergencyBody e 0)) s

/-! ### Raising an event -/

/-- The state after an occurrence is delivered on its routes to the controllers given (R535, R536). -/
def State.deliver (s : State) (e : EvEntry) (targets : List Nat) : State := s.deliverVia State.lakeRoute e targets

/-- The state after an event is raised, for one function (0xFFFF: none) and the controllers given (R534 to R541). -/
def State.raiseTo (s : State) (code told fn : Nat) (targets : List Nat) : State := s.raiseVia State.lakeRoute code told fn targets

/-- The state after an event of the package or of a die is raised to every enabled PF (R536). -/
def State.raise (s : State) (code detail : Nat) : State := s.raiseTo code detail 0xFFFF s.enabledPfs

/-- The state after an event confined to one function is raised to that function's controller (R314, R536). -/
def State.raiseFn (s : State) (code detail fn : Nat) : State :=
  s.raiseTo code detail fn (match tget s.host.ctrls (fn + 1) with | some _ => [fn + 1] | none => [])

/-- A fault is confined to one function (R314): counted on its port, EV d.081. -/
def State.confine (s : State) (fn : Nat) : State :=
  (s.bump (0x4188 + portOf (fn + 1)) 0).raiseFn (evDie (portOf (fn + 1)) 81) fn fn

/-- The state after an event that its chapter raises at most once per epoch: a later occurrence in the epoch is
counted and not raised (R537). `key` tells the occurrences that share the limit apart. -/
def State.raiseOnce (s : State) (code detail key : Nat) : State :=
  if s.fault.onceKeys.contains (code, key) then s.countEvent code
  else { s with fault := { s.fault with onceKeys := s.fault.onceKeys ++ [(code, key)] } }.raise code detail

/-- A reset of a kind of R530 is made on a target: counted, and reported as the last (0xA011, 0xA012). -/
def State.countReset (s : State) (kind target : Nat) : State :=
  (((s.bump 0xA011 kind).setObj 0xA012 1 kind).setObj 0xA012 2 target).setObj 0xA012 3 s.epoch

/-- A write-path interruption of a fault kind of R523 (1 to 9) on a die is recorded, while a take is open or closing; one
longer than 1 ms raises EV P.37 (R522). Its length is not stated: a free value within the bound, in µs, that R523 gives. -/
def State.interrupt (s0 : State) (d kind bound : Nat) : State :=
  if !s0.anyOpenOrClosing then s0
  else
    let us := s0.freeValue % (bound + 1)
    let s := s0.useFree
    let s1 := (((s.setObj 0xA00A 1 kind).setObj 0xA00A 2 s.epoch).setObj 0xA00A 3 us).highWater 0xA00B 0 us
    let s2 := (s1.bump (0xA1A8 + d) 1).highWater (0xA1A8 + d) 2 us
    if 1000 < us then s2.raise (evPkg 37) us else s2

/-- A spare of a row of R543 is brought in on a die: 0xA188 + d counts it. -/
def State.countSpare (s : State) (d row : Nat) : State := s.bump (0xA188 + d) row

/-- A code word at one of n bytes of memory is poisoned (R25). -/
def State.poisonedAt (s : State) (a n : Nat) : Bool := s.poison.any fun p => a ≤ p && p < a + n

/-- The state after poisoned data is delivered on a die (R25, EV d.001). -/
def State.deliverPoison (s : State) (d consumer : Nat) : State :=
  (s.bump (0xA1D0 + d) consumer).raiseOnce (evDie d 1) consumer d

/-! ### Answers of a meaning -/

/-- What a meaning answers. -/
abbrev Res := Host.Outcome State Fault Refusal

/-- Go on when the part has the die; otherwise the command names an absent unit. -/
def onDie (s : State) (d : Nat) (f : Unit → Res) : Res := if s.hasDie d then f () else .fault .absentUnit

/-- Go on when the part has the die and the lane. -/
def onLane (s : State) (d lane : Nat) (f : Unit → Res) : Res :=
  if s.hasDie d ∧ lane < 4 then f () else .fault .absentUnit

end Sys2Proof.Machine
end

