-- ==== Sys2Proof/Machine/Cells.lean ====
section
/-!
DEFINITION. The cells of an inflow lane byte for byte (R99 to R102, R116, R119): header, CRCs, and the cells that the device
sends.
-/

namespace Sys2Proof.Machine

/-- The header bits [127:32] that a cell's fields give (R100), the CRCs left out and the reserved bits zero. -/
def cellWord (c : Cell) : Nat :=
  2 ^ 124 * (c.type % 16) + 2 ^ 122 * (c.ver % 4) + 2 ^ 117 * (c.spring % 32) + 2 ^ 111 * (c.band % 64) + 2 ^ 103 * (c.len % 256) +
    2 ^ 80 * (c.cidx % 2 ^ 21) + 2 ^ 64 * (c.lseq % 2 ^ 16) + 2 ^ 32 * (c.frame % 2 ^ 32)

/-- The 256 bytes of a cell (R99, R100): header with HCRC and PCRC, then 240 payload bytes, those past LEN sent as zero. -/
def cellBytes (c : Cell) : List Nat :=
  let payload := fit 240 (c.payload.take c.len)
  let rest := leBytes 2 (crc16 payload) ++ (leBytes 16 (cellWord c)).drop 4
  leBytes 2 (crc16 rest) ++ rest ++ payload

/-- A cell's HCRC is valid: it covers header bytes 2 to 15 (R100, R102). -/
def hcrcOk (b : List Nat) : Bool := field b 0 2 = crc16 (slice 2 14 b)

/-- A cell's PCRC is valid: it covers the 240 payload bytes. -/
def pcrcOk (b : List Nat) : Bool := field b 2 2 = crc16 (slice 16 240 b)

/-- A cell that the device sends: link version 0b01, LSEQ 0, and 0 in the fields that only the camera fills (R100). -/
def deviceCell (d lane type len : Nat) (payload : List Nat) : Output :=
  .cell d lane (cellBytes ⟨d, lane, type, 1, 0, 0, len, 0, 0, 0, payload⟩)

/-- An idle cell (R99, R101). -/
def idleCell (d lane : Nat) : Output := deviceCell d lane 0 0 []

/-- A credit cell (R116): ACKSEQ, NAKCNT, and SPRING and GRANTED of each entry; LEN is 4 + 4 × NCRED. -/
def creditCellOf (d lane ackSeq nakCnt : Nat) (granted : List (Nat × Nat)) : Output :=
  deviceCell d lane 6 (4 + 4 * granted.length) (leBytes 2 ackSeq ++ [nakCnt, granted.length] ++
    granted.flatMap fun g => [g.1] ++ leBytes 3 g.2)

/-- A control cell (R119): MSG, MSEQ, BLEN and the body. -/
def controlCell (d lane msg mseq : Nat) (body : List Nat) : Output :=
  deviceCell d lane 5 (4 + body.length) ([msg, mseq] ++ leBytes 2 body.length ++ body)

end Sys2Proof.Machine
end

