-- ==== Sys2Proof/Machine/Pond.lean ====
section
/-!
DEFINITION. Chapter 6: the pond managers' operations, their misuse handling, owner walks and audits.
-/

namespace Sys2Proof.Machine

/-! ### Pools, buffers and marks -/

/-- The key of a pool. -/
def poolKey (d p : Nat) : Nat := 64 * d + p

/-- A pool, if it was ever configured. -/
def State.pool (s : State) (d p : Nat) : Option Pool := tget s.pond.pools (poolKey d p)

/-- The state with a pool set. -/
def State.setPool (s : State) (d p : Nat) (q : Pool) : State :=
  { s with pond := { s.pond with pools := tset s.pond.pools (poolKey d p) q } }

/-- A buffer that was never used: generation 1, free. -/
def Buf.fresh : Buf := ⟨1, [], false, false, false⟩

/-- A buffer of a pool. -/
def Pool.buf (q : Pool) (i : Nat) : Buf := tgetD q.bufs i Buf.fresh

/-- The pool with a buffer set. -/
def Pool.setBuf (q : Pool) (i : Nat) (b : Buf) : Pool := { q with bufs := tset q.bufs i b }

/-- The buffers a pool offers: its count while it is active or draining. -/
def Pool.count (q : Pool) : Nat := if q.state = 1 ∨ q.state = 2 then q.cfg.count else 0

/-- Held buffers: those with a holder. -/
def Pool.held (q : Pool) : Nat := (q.bufs.filter fun b => b.2.holders ≠ []).length

/-- Quarantined buffers that nobody holds. -/
def Pool.quarantined (q : Pool) : Nat := (q.bufs.filter fun b => b.2.quar && b.2.holders.isEmpty).length

/-- The fill: held plus quarantined. -/
def Pool.fill (q : Pool) : Nat := q.held + q.quarantined

/-- Free buffers: those of the count that are neither held nor quarantined. A buffer at or above a count that fell leaves as it is freed. -/
def Pool.free (q : Pool) : Nat := q.count - (q.bufs.filter fun b => b.1 < q.count && (b.2.holders ≠ [] || b.2.quar)).length

/-- A pool that is off, for a pool never configured. -/
def Pool.off : Pool := ⟨⟨0, 8, 0, 0, 0⟩, none, 0, [], [], [], 0, true, true, 0⟩

/-- The three weir marks in force (R183): automatic for 0, clamped in order otherwise. -/
def weirMarks (count w1 w2 w3 : Nat) : Nat × Nat × Nat :=
  let a := if w1 = 0 then count / 2 else clampNat 1 count w1
  let b := if w2 = 0 then max a (3 * count / 4) else clampNat (max 1 a) count w2
  let c := if w3 = 0 then max b (9 * count / 10) else clampNat (max 1 b) count w3
  (a, b, c)

/-- The marks of a pool. -/
def State.marks (s : State) (d p : Nat) (q : Pool) : Nat × Nat × Nat :=
  weirMarks q.count (s.obj (0x5268 + d) (p + 1)) (s.obj (0x5270 + d) (p + 1)) (s.obj (0x5278 + d) (p + 1))

/-- The named-last-owner discipline: an HK7-8 pool of span package (R187, R188). -/
def State.lastOwner (s : State) (q : Pool) : Bool := s.cfg.dies = 8 && q.cfg.span = 2

/-! ### Owners -/

/-- The KIND field of an owner identifier (R180). -/
def ownerKind (o : Nat) : Nat := o / 2 ^ 28 % 16

/-- The DIE field of an owner identifier. -/
def ownerDie (o : Nat) : Nat := o / 2 ^ 25 % 8

/-- The NUMBER field of an owner identifier. -/
def ownerNumber (o : Nat) : Nat := o % 4096

/-- The owner identifier of a KIND, DIE and NUMBER. -/
def ownerId (kind die number : Nat) : Nat := kind * 2 ^ 28 + die * 2 ^ 25 + number

/-- The owner-table entry of an owner. -/
def Pool.owner (q : Pool) (o : Nat) : Option Owner := q.owners.find? fun e => e.ident = o

/-- The pool with one owner's entry changed; a departing entry that holds nothing goes (R181). -/
def Pool.modOwner (q : Pool) (o : Nat) (f : Owner → Owner) : Pool :=
  { q with owners := (q.owners.map fun e => if e.ident = o then f e else e).filter fun e =>
      !(e.departing && e.held = 0) }

/-- An owner's unused reservation (R182). -/
def Owner.unused (e : Owner) : Nat := e.eff - e.held

/-- Every owner's unused reservation together. -/
def Pool.unusedAll (q : Pool) : Nat := sum (q.owners.map Owner.unused)

/-- The next owner in the order of R29 among candidates, after the pointer. -/
def nextOwner (l : List Owner) (pointer : Nat) : Option Owner :=
  let pick (l : List Owner) : Option Owner :=
    l.foldl (fun m e => match m with | none => some e | some b => if e.ident < b.ident then some e else some b) none
  match pick (l.filter fun e => pointer < e.ident) with
  | some e => some e
  | none => pick l

/-- The task that an owner of KIND 4 is. -/
def State.ownerTask (s : State) (o : Nat) : Option Task :=
  if ownerKind o ≠ 4 then none
  else
    match tget s.comp.dies (ownerDie o) with
    | some c => tget c.tasks (ownerNumber o)
    | none => none

/-- The filter tasks among a pool's owners: KIND 4, class capture (R182, R383). -/
def State.filtersOf (s : State) (q : Pool) : List Nat :=
  (q.owners.map (·.ident)).filter fun o => match s.ownerTask o with
    | some t => t.cls = 0
    | none => false

/-- A capture-class owner (R182): a spring, or one of the filter tasks given. -/
def captureOwner (filters : List Nat) (e : Owner) : Bool := ownerKind e.ident = 1 || filters.contains e.ident

/-- One buffer of effective minimum rises, where the pool has a free buffer that no unused reservation claims (R182). -/
def Pool.riseOnce (filters : List Nat) (q : Pool) : Option Pool :=
  if q.free ≤ q.unusedAll then none
  else
    let want := q.owners.filter fun e => e.eff < e.target
    let cap := want.filter (captureOwner filters)
    match nextOwner (if cap.isEmpty then want else cap) q.pointer with
    | none => none
    | some e => some { q.modOwner e.ident (fun e => { e with eff := e.eff + 1 }) with pointer := e.ident }

/-- Effective minima rise while they may. -/
def Pool.rise (filters : List Nat) : Nat → Pool → Pool
  | 0, q => q
  | n + 1, q =>
    match q.riseOnce filters with
    | none => q
    | some q' => Pool.rise filters n q'

/-- Effective minima settle: they fall with their targets and rise as far as free buffers allow (R182). -/
def Pool.settle (filters : List Nat) (q : Pool) : Pool :=
  let q1 := { q with owners := q.owners.map fun e => { e with eff := min e.eff e.target } }
  Pool.rise filters (sum (q1.owners.map fun e => e.target - e.eff)) q1

/-- Effective minima settle in a pool of the device (R182). -/
def State.settle (s : State) (q : Pool) : Pool := q.settle (s.filtersOf q)

/-! ### Handles -/

/-- The handle of a buffer (R178). -/
def handleOf (gen d p i : Nat) : Nat := gen * 2 ^ 24 + d * 2 ^ 21 + p * 2 ^ 15 + i

/-- The fields GEN, DIE, POOL and INDEX of a handle. -/
def handleGen (h : Nat) : Nat := h / 2 ^ 24 % 256
def handleDie (h : Nat) : Nat := h / 2 ^ 21 % 8
def handlePool (h : Nat) : Nat := h / 2 ^ 15 % 64
def handleIndex (h : Nat) : Nat := h % 2 ^ 15

/-- The next generation, from 255 to 1 (R179). -/
def nextGen (g : Nat) : Nat := if 255 ≤ g then 1 else g + 1

/-- The lowest-index buffer that is free (R184). -/
def lowestFree : Tab Buf → Nat → Nat
  | [], n => n
  | (k, b) :: t, n => if n < k then n else if b.holders.isEmpty && !b.quar then k else lowestFree t (k + 1)

/-! ### Weir-mark events and credits -/

/-- EV d.040 and EV d.041 on a rising fill, re-armed count/16 below the mark (R183, R195). -/
def State.weir (s : State) (d p : Nat) (before : Nat) : State :=
  match s.pool d p with
  | none => s
  | some q =>
    let (w1, _, w3) := s.marks d p q
    let f := q.fill
    let rise1 := before < w1 && w1 ≤ f && q.armed1
    let rise3 := before < w3 && w3 ≤ f && q.armed3
    let a1 := if rise1 then false else q.armed1 || 16 * f + q.count ≤ 16 * w1
    let a3 := if rise3 then false else q.armed3 || 16 * f + q.count ≤ 16 * w3
    let s1 := (s.setPool d p { q with armed1 := a1, armed3 := a3, hwm := max q.hwm f }).highWater (0x52A8 + d) (p + 1) f
    let s2 := if rise1 then s1.raiseOnce (evDie d 40) p p else s1
    if rise3 then s2.raiseOnce (evDie d 41) p p else s2

/-- The springs that map a band, or an alternate band, to an inflow port (R130). -/
def State.springsOnPort (s : State) (port : Nat) : List Nat :=
  (List.range s.springs).filter fun sp =>
    s.obj (0x2200 + sp) 1 ≠ 0 &&
      (List.range (s.obj (0x2200 + sp) 3)).any fun b =>
        s.obj (0x2200 + sp) (0x10 + b) = port || s.obj (0x2200 + sp) (0x50 + b) = port

/-- The owner identifier of a spring on an inflow port (R180). -/
def springOwner (port spring : Nat) : Nat := ownerId 1 (port / 4) (port % 4 * 32 + spring)

/-- The surplus that each spring of a port may be credited while the fill lies below W1 (R117): its share of one quarter of the pool's
unreserved buffers. -/
def State.surplus (s : State) (port : Nat) (q : Pool) : Nat :=
  let (w1, _, _) := s.marks (port / 4) (port % 4) q
  if q.fill < w1 then (q.count - sum (q.owners.map (·.eff))) / 4 / max 1 (s.springsOnPort port).length else 0

/-- The credit window of a spring on a port, its GRANTED at step 7 (R117): its reserved minimum and the surplus. -/
def State.creditWindow (s : State) (port spring : Nat) : Nat :=
  match s.pool (port / 4) (port % 4) with
  | none => 0
  | some q =>
    if q.state ≠ 1 then 0
    else ((q.owner (springOwner port spring)).map (·.eff)).getD 0 + s.surplus port q

/-- The credit total of a spring on a port (R117): buffers freed, plus its reserved minimum, plus its share of the
surplus while the fill lies below W1; unchanged while the fill lies at or above W2 and the spring holds its reserved
minimum. Credits granted are never revoked. -/
def State.creditTotal (s : State) (port spring : Nat) (pt : Port) : Nat :=
  let d := port / 4
  let now := tgetD pt.granted spring 0
  match s.pool d (port % 4) with
  | none => now
  | some q =>
    if q.state ≠ 1 then now
    else
      let (_, w2, _) := s.marks d (port % 4) q
      let o := (q.owner (springOwner port spring)).getD ⟨0, 0, 0, 0, false⟩
      if w2 ≤ q.fill ∧ o.eff ≤ o.held then now
      else max now (tgetD pt.freed spring 0 + o.eff + s.surplus port q)

/-- ACKSEQ of a lane (R111, R116): the LSEQ before that of the first cell that is not held in the pond yet, else before the one expected. -/
def Lane.ackSeq (x : Lane) : Nat :=
  match x.waiting with
  | w :: _ => (w.cell.lseq + 65535) % 65536
  | [] => (x.expSeq + 65535) % 65536

/-- The credit cell of one lane (R116): it carries an entry for every spring mapped to the port (R118). -/
def State.creditCell (s : State) (port lane : Nat) (pt : Port) : Output :=
  let d := port / 4
  let ln := tget s.inflow.lanes (4 * d + lane)
  creditCellOf d lane ((ln.map (·.ackSeq)).getD 0xFFFF) ((ln.map (·.nakCnt)).getD 0)
    ((s.springsOnPort port).map fun sp => (sp, tgetD pt.granted sp 0 % 2 ^ 24))

/-- A credit cell on every lane of a port that is up (R118). -/
def State.sendCredits (s : State) (port : Nat) : State :=
  match tget s.inflow.ports port with
  | none => s
  | some pt =>
    if pt.up ∧ !s.media.commitRunning then s.emitAll (pt.lanes.map fun l => s.creditCell port l pt) else s

/-- Credits that have become returnable on a port are returned, in a credit cell on each of its lanes (R117, R118). -/
def State.returnCredits (s : State) (port : Nat) : State :=
  match tget s.inflow.ports port with
  | none => s
  | some pt =>
    if !pt.up then s
    else
      let g := (s.springsOnPort port).foldl (fun g sp => tset g sp (s.creditTotal port sp pt)) pt.granted
      if g = pt.granted then s
      else ({ s with inflow := { s.inflow with ports := tset s.inflow.ports port { pt with granted := g } } }).sendCredits port

/-- A freed inflow buffer is counted for its spring before credits return. -/
def State.countFreed (s : State) (owner : Nat) : State :=
  if ownerKind owner ≠ 1 then s
  else
    let port := 4 * ownerDie owner + ownerNumber owner / 32 % 4
    let sp := ownerNumber owner % 32
    { s with inflow := { s.inflow with ports := tmod s.inflow.ports port fun pt =>
      { pt with freed := tset pt.freed sp (tgetD pt.freed sp 0 + 1) } } }

/-! ### GET (R184) -/

/-- What a pool operation came to: status of R186 and handle. -/
structure PondAnswer where
  status : Nat
  handle : Nat
deriving DecidableEq, Repr

/-- Misuse statuses are counted in the pool's counter and in the totals (R192, R196). -/
def misuseCounter (status : Nat) : Nat × Nat :=
  if status = 3 then (0x52C8, 1) else if status = 4 then (0x52D0, 2) else (0x52D8, 3)

/-- The controllers and notices a misuse event goes to, by the offender's KIND: a task's is the function that it serves (R536). -/
def State.misuseEvent (s : State) (d p owner : Nat) : State :=
  let code := evDie d 42
  let ctl := fun fn => match tget s.host.ctrls (fn + 1) with | some _ => [fn + 1] | none => []
  if s.fault.onceKeys.contains (code, p) then s.countEvent code
  else
    let s1 := { s with fault := { s.fault with onceKeys := s.fault.onceKeys ++ [(code, p)] } }
    match ownerKind owner with
    | 3 => s1.raiseTo code owner (ownerNumber owner) (ctl (ownerNumber owner))
    | 4 =>
      match s1.ownerTask owner with
      | some t => s1.raiseTo code owner t.fn (ctl t.fn)
      | none => s1.raiseTo code owner 0xFFFF []
    | 5 =>
      let s2 := s1.raiseTo code owner 0xFFFF []
      s2.lakeEmit (ownerNumber owner) 0x50 false (emergencyBody (s2.evEntry code owner 0xFFFF) 0)
    | 2 => (s1.raiseTo code owner 0xFFFF []).emit (.internalNotice (ownerDie owner) owner code)
    | 6 => (s1.raiseTo code owner 0xFFFF []).emit (.internalNotice (ownerDie owner) owner code)
    | _ => s1.raiseTo code owner 0xFFFF []

/-- A misuse: counted, recorded in 0x5207 and reported; `quarantine` names the buffer that leaves service, which raises the fill where it
was free (R183, R192). `op` is 0 GET, 1 ADDREF, 2 PASS, 3 PUT. -/
def State.misuse (s : State) (d p owner handle op status : Nat) (quarantine : Option Nat) : State :=
  let c := misuseCounter status
  let s1 := (s.bump (c.1 + d) (p + 1)).bump 0x5206 c.2
  let rec18 := leBytes 4 handle ++ leBytes 4 owner ++ [op, status] ++ leBytes 6 s.epoch ++ leBytes 2 s.phase
  let s2 := { s1 with pond := { s1.pond with lastMisuse := rec18 } }
  let s3 :=
    match quarantine, s2.pool d p with
    | some i, some q => (s2.setPool d p (q.setBuf i { q.buf i with quar := true, mark := false })).weir d p q.fill
    | _, _ => s2
  let s4 := s3.misuseEvent d p owner
  -- a misuse of a function is confined to it (R314)
  match ownerKind owner, s4.ownerTask owner with
  | 3, _ => s4.confine (ownerNumber owner)
  | 4, some t => s4.confine t.fn
  | _, _ => s4

/-- GET (R184): the answer and the state after it. `cls` 0 is the capture class. -/
def State.pondGet (s : State) (owner cls d p : Nat) : PondAnswer × State :=
  if !s.healthy d then (⟨2, 0⟩, s)
  else
    match s.pool d p with
    | none => (⟨2, 0⟩, s)
    | some q =>
      if q.state ≠ 1 then (⟨2, 0⟩, s)
      else
        match q.owner owner with
        | none => (⟨3, 0⟩, s.misuse d p owner 0 0 3 none)
        | some o =>
          let empty := (⟨1, 0⟩, s.bump (0x52C0 + d) (p + 1))
          if o.departing ∨ s.pond.walked.contains owner then empty
          else
            let (_, w2, w3) := s.marks d p q
            if w3 ≤ q.fill ∧ cls ≠ 0 then empty
            else if o.unused = 0 ∧ w2 ≤ q.fill then empty
            else if o.unused = 0 ∧ q.free ≤ q.unusedAll then empty
            else
              let i := lowestFree q.bufs 0
              if q.cfg.count ≤ i then empty
              else
                let b := { q.buf i with holders := [owner], mark := false }
                let q' := (q.setBuf i b).modOwner owner fun e => { e with held := e.held + 1 }
                let s1 := (s.setPool d p q').bump (0x52B8 + d) (p + 1)
                (⟨0, handleOf b.gen d p i⟩, s1.weir d p q.fill)

/-! ### The outlet (R186 to R189) -/

/-- How an outlet operation by a party on a handle is judged before its own checks: none when the party holds the
buffer under the current generation, else the status of R186. DESIGN CHOICE: the generation before 1 is taken for both 255 and 0, so a handle
other than the null handle with GEN 0 on a free buffer of generation 1 is a double free (log entry 226). -/
def Pool.judge (q : Pool) (h holder : Nat) : Option Nat :=
  let i := handleIndex h
  let b := q.buf i
  if h = 0 then some 4
  else if q.count ≤ i ∧ b.holders.isEmpty then some 4
  else if b.holders.isEmpty then (if nextGen (handleGen h) = b.gen then some 5 else some 4)
  else if b.gen ≠ handleGen h then some 4
  else if b.holders.contains holder then none
  else some 3

/-- A handle that names no buffer of the pool: the null handle, or an INDEX at or above the count that nobody holds (R192). -/
def Pool.noBuffer (q : Pool) (h : Nat) : Bool := h = 0 || (q.count ≤ handleIndex h && (q.buf (handleIndex h)).holders.isEmpty)

/-- The buffer that a misuse on a handle quarantines: none for the null handle and for an INDEX beyond the count. -/
def Pool.quarantineOf (q : Pool) (h : Nat) : Option Nat :=
  if h = 0 ∨ q.count ≤ handleIndex h then none else some (handleIndex h)

/-- A reference is removed from a buffer; the last one frees it: the generation advances and the buffer is free, or
quarantined, or leaves a pool that has shrunk (R176, R187, R192). -/
def Pool.release (q : Pool) (i holder : Nat) : Pool :=
  let b := q.buf i
  let hs := b.holders.erase holder
  let q1 := q.modOwner holder fun e => { e with held := e.held - 1 }
  if hs.isEmpty then
    if q.count ≤ i then { q1 with bufs := tdel q1.bufs i }
    else q1.setBuf i { b with holders := [], gen := nextGen b.gen }
  else q1.setBuf i { b with holders := hs }

/-- A pool that lost its memory while it held buffers becomes unassigned when the last of them is freed (R609). -/
def Pool.drained (q : Pool) : Pool := if q.state = 2 ∧ q.want.isNone ∧ q.fill = 0 then { q with state := 3, place := [] } else q

/-- The effects of a freed buffer: marks re-arm, effective minima rise, credits return, a pool without memory has drained (R117, R182, R183,
R609). -/
def State.afterFree (s : State) (d p holder before : Nat) : State :=
  match s.pool d p with
  | none => s
  | some q =>
    let s1 := (s.setPool d p (s.settle q).drained).weir d p before
    if p < 4 then (s1.countFreed holder).returnCredits (4 * d + p) else s1

/-- PUT (R187, R188). DESIGN CHOICE: an outlet operation or QUERY on a handle whose DIE the part does not have answers POOL_OFF, as on a failed die
(log entry 225). -/
def State.pondPut (s : State) (holder h : Nat) : PondAnswer × State :=
  let d := handleDie h
  let p := handlePool h
  if !s.healthy d then (⟨2, 0⟩, s)
  else
    let q := (s.pool d p).getD Pool.off
    match q.judge h holder with
    | some st => (⟨st, 0⟩, s.misuse d p holder h 3 st (q.quarantineOf h))
    | none => (⟨0, 0⟩, (s.setPool d p (q.release (handleIndex h) holder)).afterFree d p holder q.fill)

/-- ADDREF (R187, R189); the new holder's unused reservation falls, and effective minima may rise (R182). DESIGN CHOICE: where the holder list is
full and the new owner is not registered, REF_LIMIT comes before NOT_OWNER (log entry 224). -/
def State.pondAddref (s : State) (holder h newHolder : Nat) : PondAnswer × State :=
  let d := handleDie h
  let p := handlePool h
  if !s.healthy d then (⟨2, 0⟩, s)
  else
    let q := (s.pool d p).getD Pool.off
    if q.noBuffer h then (⟨4, 0⟩, s.misuse d p holder h 1 4 none)
    else if s.lastOwner q then (⟨6, 0⟩, s.bump (0x52E0 + d) (p + 1))
    else
      match q.judge h holder with
      | some st => (⟨st, 0⟩, s.misuse d p holder h 1 st (q.quarantineOf h))
      | none =>
        let i := handleIndex h
        if 4 ≤ (q.buf i).holders.length then (⟨7, 0⟩, s)
        else
          match q.owner newHolder with
          | none => (⟨3, 0⟩, s.misuse d p holder h 1 3 none)
          | some _ =>
            let q' := (q.setBuf i { q.buf i with holders := (q.buf i).holders ++ [newHolder] }).modOwner newHolder
              fun e => { e with held := e.held + 1 }
            (⟨0, 0⟩, s.setPool d p (s.settle q'))

/-- PASS (R188, R189); a PASSED notice goes to the next owner's die. -/
def State.pondPass (s : State) (holder h next : Nat) : PondAnswer × State :=
  let d := handleDie h
  let p := handlePool h
  if !s.healthy d then (⟨2, 0⟩, s)
  else
    let q := (s.pool d p).getD Pool.off
    if q.noBuffer h then (⟨4, 0⟩, s.misuse d p holder h 2 4 none)
    else if !s.lastOwner q then (⟨6, 0⟩, s.bump (0x52E0 + d) (p + 1))
    else
      match q.judge h holder with
      | some st => (⟨st, 0⟩, s.misuse d p holder h 2 st (q.quarantineOf h))
      | none =>
        match q.owner next with
        | none => (⟨3, 0⟩, s.misuse d p holder h 2 3 none)
        | some _ =>
          let i := handleIndex h
          let q1 := q.setBuf i { q.buf i with holders := [next] }
          let q2 := q1.modOwner next fun e => { e with held := e.held + 1 }
          let q3 := q2.modOwner holder fun e => { e with held := e.held - 1 }
          (⟨0, 0⟩, (s.setPool d p (s.settle q3)).emit (.passedNotice (s.route d (ownerDie next)) h next))

/-- QUERY (R186, R192): status, generation, holders and quarantine of the handle's buffer; nothing changes. -/
def State.pondQuery (s : State) (h : Nat) : Nat × Buf :=
  let d := handleDie h
  let p := handlePool h
  if !s.healthy d then (2, ⟨0, [], false, false, false⟩)
  else
    match s.pool d p with
    | none => (4, ⟨0, [], false, false, false⟩)
    | some q =>
      let b := q.buf (handleIndex h)
      if h = 0 ∨ b.holders.isEmpty ∨ b.gen ≠ handleGen h then (4, ⟨b.gen, [], b.quar, false, false⟩) else (0, b)

/-! ### Owner walks (R193) -/

/-- The holder entries of an owner in a pool, as buffer indexes in ascending order, one for each reference. -/
def Pool.entriesOf (q : Pool) (o : Nat) : List Nat := q.bufs.flatMap fun b => List.replicate (b.2.holders.count o) b.1

/-- A walk reaches so many holder entries of an owner in every pool together: each is removed as a PUT would remove it. Answers the
entries that it had left to reach, and the state. -/
def State.walkEntries (s : State) (o n : Nat) : Nat × State :=
  s.pond.pools.foldl (fun (acc : Nat × State) e =>
    let l := (e.2.entriesOf o).take acc.1
    if l.isEmpty then acc
    else
      let q' := l.foldl (fun q i => q.release i o) e.2
      (acc.1 - l.length, (acc.2.setPool (e.1 / 64) (e.1 % 64) q').afterFree (e.1 / 64) (e.1 % 64) o e.2.fill)) (n, s)

/-- The holder entries of an owner in every pool. -/
def State.entriesHeld (s : State) (o : Nat) : Nat := sum (s.pond.pools.map fun e => (e.2.entriesOf o).length)

/-- The walk of an owner begins: its GETs answer EMPTY until OWNER_WALK_COMPLETE. The entries go one at a time, in an order and at instants
that the spec does not give: how many are gone before the next command is a free value (log entry 165), and the rest go by the walk's end. -/
def State.ownerWalk (s : State) (o : Nat) : State :=
  let s1 := { s with pond := { s.pond with walked := if s.pond.walked.contains o then s.pond.walked else o :: s.pond.walked } }
  let n := s1.entriesHeld o
  if n = 0 then s1 else (s1.useFree.walkEntries o (s1.freeValue % (n + 1))).2

/-- The owners that a test names and that hold buffers anywhere are walked (R193, R533). -/
def State.walkWhere (s : State) (f : Nat → Bool) : State :=
  let owners := (s.pond.pools.flatMap fun e => (e.2.owners.map (·.ident)).filter f).eraseDups
  (owners.filter fun o => s.entriesHeld o ≠ 0).foldl State.ownerWalk s

/-- The walk's end: every entry that is left goes. -/
def State.walkOut (s : State) (o : Nat) : State :=
  let s1 := (s.walkEntries o (s.entriesHeld o)).2
  { s1 with pond := { s1.pond with walked := s1.pond.walked.erase o } }

/-! ### Registration (R181, R182) -/

/-- An owner is registered with a target, or its target changes; the sum of targets stays within the count, and an inflow pool without a port
keeps targets as written (R176). A full table refuses it with
TABLE_FULL, and EV d.045 is raised. Answers the status of R186. -/
def State.registerOwner (s : State) (d p o target : Nat) : Nat × State :=
  match s.pool d p with
  | none => (2, s)
  | some q =>
    let others := sum ((q.owners.filter fun e => e.ident ≠ o).map (·.target))
    let cfg := q.want.getD q.cfg
    let t := if p < 4 ∧ cfg.kind = 0 then target else min target (cfg.count - others)
    match q.owner o with
    | some _ => (0, s.setPool d p (s.settle (q.modOwner o fun e => { e with target := t, departing := false })))
    | none =>
      if 256 ≤ q.owners.length then (8, s.raise (evDie d 45) o)
      else (0, s.setPool d p (s.settle { q with owners := q.owners ++ [⟨o, t, 0, 0, false⟩] }))

/-- An owner is removed from a pool: departing while it holds buffers there, which a walk removes (R181, R193). -/
def State.removeOwner (s : State) (d p o : Nat) : State :=
  match s.pool d p with
  | none => s
  | some q =>
    let s1 := s.setPool d p (s.settle (q.modOwner o fun e => { e with target := 0, eff := 0, departing := true }))
    if q.entriesOf o = [] then s1 else s1.ownerWalk o

/-- The owners that the device registers itself in a pool (R181): springs of an inflow pool's port, the engine
controllers of every die in the span, the steward of the home die. -/
def State.ownOwners (s : State) (d p : Nat) (q : Pool) : List Nat :=
  let springs := if p < 4 then (s.springsOnPort (4 * d + p)).map (springOwner (4 * d + p)) else []
  let reach := s.dies.filter fun e => q.cfg.span = 2 || (q.cfg.span = 1 && e / 4 = d / 4) || e = d
  springs ++ reach.flatMap (fun e => (List.range 7).map fun n => ownerId 2 e n) ++ [ownerId 6 d 0]

/-- The device's own owners are registered; springs no longer mapped, and engine controllers of dies that have left the span, depart. -/
def State.registerOwn (s : State) (d p : Nat) : State :=
  match s.pool d p with
  | none => s
  | some q =>
    let own := s.ownOwners d p q
    let gone := (q.owners.filter fun e => (ownerKind e.ident = 1 || ownerKind e.ident = 2) && !own.contains e.ident).map (·.ident)
    let s1 := gone.foldl (fun s o => s.removeOwner d p o) s
    (own.filter fun o => (q.owner o).isNone).foldl (fun s o => (s.registerOwner d p o 0).2) s1

/-! ### Audit (R194) -/

/-- One pool's audit: owners' held counts rebuilt from the holder lists; buffers that were quarantined before the
audit began and that nobody holds return to the free list. Answers whether steps 1 and 2 agreed. -/
def Pool.audit (q : Pool) : Bool × Pool :=
  let heldOf := fun o => sum (q.bufs.map fun b => b.2.holders.count o)
  let owners := q.owners.map fun e => { e with held := heldOf e.ident }
  let inRange := fun (f : Buf → Bool) => (q.bufs.filter fun b => b.1 < q.count && f b.2).length
  let ok := owners = q.owners &&
    q.free + inRange (fun b => b.holders ≠ []) + inRange (fun b => b.quar && b.holders.isEmpty) = q.count
  let bufs := q.bufs.map fun b =>
    (b.1, if b.2.quar && b.2.mark && !b.2.lost && b.2.holders.isEmpty then { b.2 with quar := false, mark := false } else b.2)
  (ok, { q with owners := owners, bufs := bufs })

/-- The quarantined buffers of a pool are marked when an audit begins. -/
def Pool.markQuarantine (q : Pool) : Pool :=
  { q with bufs := q.bufs.map fun b => (b.1, { b.2 with mark := b.2.quar }) }

/-- The audit of one pool of a die. -/
def State.auditPool (s : State) (d p : Nat) : State :=
  match s.pool d p with
  | none => s
  | some q =>
    if q.state ≠ 1 ∧ q.state ≠ 2 then s
    else
      let (ok, q') := q.markQuarantine.audit
      let s1 := (s.setPool d p q').afterFree d p 0 q.fill
      if ok then s1 else (s1.bump (0x52F8 + d) (p + 1)).raise (evDie d 43) p

/-! ### Meanings -/

/-- GET (R184, R185): the pond manager of the pool's home die answers. -/
def execGet (owner cls fromDie die pool : Nat) (s : State) : Res :=
  if s.hasDie die ∧ s.hasDie fromDie ∧ pool < 64 then
    let r := s.pondGet owner cls die pool
    .next (r.2.emit (.pondAnswer owner 0 r.1.status r.1.handle))
  else .fault .absentUnit

/-- ADDREF (R187, R189). -/
def execAddref (holder handle newHolder : Nat) (s : State) : Res :=
  let r := s.pondAddref holder handle newHolder
  .next (r.2.emit (.pondAnswer holder 1 r.1.status 0))

/-- PASS (R188, R189). -/
def execPass (holder handle nextOwner : Nat) (s : State) : Res :=
  let r := s.pondPass holder handle nextOwner
  .next (r.2.emit (.pondAnswer holder 2 r.1.status 0))

/-- QUERY (R186): the generation, holders and quarantine, nothing changed. -/
def execQuery (handle : Nat) (s : State) : Res :=
  let r := s.pondQuery handle
  .next (s.emit (.pondQuery handle r.1 r.2.gen r.2.holders r.2.quar))

/-- PASSED_NOTICE (R188): the notice reaches the next owner's die, which learns that it is last owner; the record at
the home die stands as the PASS left it. -/
def execPassedNotice (handle owner : Nat) (s : State) : Res :=
  onDie s (ownerDie owner) fun _ => .next (s.emit (.internalNotice (ownerDie owner) owner handle))

/-- The pools of a die are audited, and the epoch of the audit is kept (R194). -/
def State.auditDie (s : State) (die : Nat) : State :=
  let s1 := (List.range 64).foldl (fun s p => s.auditPool die p) s
  { s1 with pond := { s1.pond with audits := tset s1.pond.audits die s.epoch } }

/-- A die's audit is due: the scrub window is open, and none has started since the reset, or 0x5200 epochs have passed since the last
started (R194). -/
def State.auditDue (s : State) (d : Nat) : Bool :=
  s.healthy d && s.inScrub d &&
    match tget s.pond.audits d with
    | some e => atOrAhead s.epoch (wrap48 (e + s.obj 0x5200 0))
    | none => true

end Sys2Proof.Machine
end

