-- ==== Sys2Proof/Machine/PondFit.lean ====
section
/-!
DEFINITION. Inflow ports as the lane modes and widths form them (R95), and the fit of a die's pools into SRAM and the
DRAM pond region at a boundary (R172 to R176, R609).
-/

namespace Sys2Proof.Machine

/-! ### Inflow ports (R95) -/

/-- Contiguous inflow lanes from a lane upward, at most n. -/
def State.inflowRun (s : State) (d lane : Nat) : Nat → Nat
  | 0 => 0
  | n + 1 => if lane < 4 ∧ s.laneMode d lane = 1 then 1 + s.inflowRun d (lane + 1) n else 0

/-- The inflow ports of a die as first lane and width, in ascending lane order: a width entry covers contiguous inflow
lanes, and an uncovered inflow lane forms a port of width 1. -/
def State.formPorts (s : State) (d : Nat) : Nat → Nat → List (Nat × Nat)
  | 0, _ => []
  | n + 1, lane =>
    if 4 ≤ lane then []
    else if s.laneMode d lane ≠ 1 then s.formPorts d n (lane + 1)
    else
      let w := max 1 (s.inflowRun d lane (s.obj (0x2128 + d) (lane + 1)))
      (lane, w) :: s.formPorts d n (lane + w)

/-- The inflow ports of a die. -/
def State.portsOf (s : State) (d : Nat) : List (Nat × Nat) := s.formPorts d 4 0

/-- The width of the inflow port whose first lane is given, 0 if there is none. -/
def State.portWidth (s : State) (d first : Nat) : Nat :=
  match (s.portsOf d).find? fun p => p.1 = first with
  | some p => p.2
  | none => 0

/-- The first lane of the inflow port that a lane belongs to. -/
def State.portOfLane (s : State) (d lane : Nat) : Option Nat :=
  ((s.portsOf d).find? fun p => p.1 ≤ lane && lane < p.1 + p.2).map (·.1)

/-! ### The configuration a pool is to have -/

/-- A buffer size held to its kind's range: SRAM 8 to 16, DRAM 16 to 22 (R172). -/
def heldSize (kind size : Nat) : Nat :=
  if kind = 1 then clampNat 8 16 size else if kind = 2 then clampNat 16 22 size else clampNat 8 22 size

/-- The configuration that the settings give a pool: an inflow pool follows its port (R176). -/
def State.wantedCfg (s : State) (d p : Nat) : PoolCfg :=
  if p < 4 then
    let w := s.portWidth d p
    if w = 0 then ⟨0, 8, 3328, 0, 0⟩ else ⟨1, 8, 3328 * w, 0, 0⟩
  else
    let kind := s.obj (0x5240 + d) (p + 1)
    ⟨kind, heldSize kind (s.obj (0x5248 + d) (p + 1)), s.obj (0x5250 + d) (p + 1), s.obj (0x5258 + d) (p + 1),
      s.obj (0x5260 + d) (p + 1)⟩

/-- Bytes of a pool's buffers. -/
def PoolCfg.bytes (c : PoolCfg) : Nat := c.count * 2 ^ c.size

/-- SRAM slices of 64 KiB that a pool takes. -/
def PoolCfg.slices (c : PoolCfg) : Nat := if c.kind = 1 then ceilDiv c.bytes 65536 else 0

/-- DRAM bytes that a pool takes. -/
def PoolCfg.dram (c : PoolCfg) : Nat := if c.kind = 2 then c.bytes else 0

/-- The 64 KiB slices of the pond banks that pools may have, lowest first: banks 0 to 27 and 32 to 63, four slices each; banks 28 to 31 are
the mapping cache's (R14, R173). -/
def poolSlices : List Nat := List.range 112 ++ (List.range 128).map (· + 128)

/-- The slices that pools may have. -/
def sramSlices : Nat := 240

/-- General SRAM of a die in KiB, as R13 divides its 24 MiB: pond memory, the local memories of 18 compute cores, the memories of 5 media
cores, the steward's memory, and the mapping and queue SRAM. -/
def sramKiB : List Nat := [16384, 18 * 192, 5 * 256, 1024, 2432]

/-- The mapping cache of a die in KiB (R14): its part of the mapping and queue SRAM, and banks 28 to 31. What is left of the mapping and
queue SRAM holds host and inflow queue state. -/
def mapCacheKiB : Nat := 2048 + 4 * 256
def queueStateKiB : Nat := 2432 - 2048

/-- The DRAM pond region of a die in bytes: 0x52E8 held to half the usable DRAM (R609). -/
def State.pondRegion (s : State) (d : Nat) : Nat :=
  min (s.obj (0x52E8 + d) 0 * 1048576) (s.obj (0xA140 + d) 0 / 2)

/-- The owner whose target falls next (R176): the highest-numbered spring that has one; with none left, the highest owner that has one. -/
def highestTarget (l : List Owner) : Option Nat :=
  let top := fun (f : Owner → Nat) (l : List Owner) =>
    l.foldl (fun (m : Option Owner) e => match m with
      | none => some e
      | some b => if f b < f e then some e else some b) none
  let have' := l.filter fun e => e.target ≠ 0
  match top (fun e => e.ident % 32) (have'.filter fun e => ownerKind e.ident = 1) with
  | some e => some e.ident
  | none => (top (·.ident) have').map (·.ident)

/-- That owner's target is lowered by one buffer. -/
def lowerHighest (l : List Owner) : List Owner :=
  match highestTarget l with
  | some o => l.map fun e => if e.ident = o then { e with target := e.target - 1 } else e
  | none => l

/-- Targets lowered until their sum is within a count (R176). -/
def fitTargets (count : Nat) : Nat → List Owner → List Owner
  | 0, l => l
  | n + 1, l => if sum (l.map (·.target)) ≤ count then l else fitTargets count n (lowerHighest l)

/-- A nonzero weir mark above a new count is held at the count (R176, R183). -/
def State.holdMarks (s : State) (d p count : Nat) : State :=
  [0x5268, 0x5270, 0x5278].foldl (fun s base =>
    if count < s.obj (base + d) (p + 1) then s.setObj (base + d) (p + 1) count else s) s

/-- Two configurations differ in nothing that R175 drains a pool for: kind, buffer size, count and span. -/
def PoolCfg.sameLayout (a b : PoolCfg) : Bool := a.kind = b.kind && a.size = b.size && a.count = b.count && a.span = b.span

/-- An empty pool takes a configuration, and waits for the fit. -/
def State.takeCfg (s : State) (d p : Nat) (q : Pool) (want : PoolCfg) : State :=
  let owners := if want.kind = 0 then q.owners else fitTargets want.count (sum (q.owners.map (·.target))) q.owners
  s.setPool d p { q with cfg := want, want := none, state := 3, place := [], owners := owners.map fun e => { e with eff := 0 } }

/-- A pool takes its configuration at a boundary: an empty pool at once, an inflow pool's new lane count at once, a new class at once, and a
pool with held or quarantined buffers when it has drained (R175, R176). -/
def State.reconfigure (s : State) (d p : Nat) : State :=
  let q := (s.pool d p).getD Pool.off
  let want := s.wantedCfg d p
  if q.state = 2 then
    if q.fill = 0 then s.takeCfg d p q want
    else
      let wait := if q.want.isNone ∧ q.cfg.sameLayout want then none else some want
      s.setPool d p { q with cfg := { q.cfg with cls := want.cls }, want := wait }
  else if q.cfg.sameLayout want then s.setPool d p { q with cfg := want }
  else if p < 4 ∧ q.cfg.kind = 1 ∧ want.kind = 1 ∧ q.state = 1 then
    let owners := fitTargets want.count (sum (q.owners.map (·.target))) q.owners
    let bufs := q.bufs.filter fun b => b.1 < want.count || !b.2.holders.isEmpty
    (s.holdMarks d p want.count).setPool d p { q with cfg := want, owners := owners, bufs := bufs }
  else if q.fill ≠ 0 then s.setPool d p { q with state := 2, want := some want }
  else s.takeCfg d p q want

/-- Pools in the rank order of R31: by class, then by number. -/
def rankOrder (s : State) (d : Nat) : List Nat :=
  [0, 1, 2, 3, 4].flatMap fun c => (List.range 64).filter fun p => ((s.pool d p).getD Pool.off).cfg.cls = c

/-- A pool holds its memory: it is active or draining. -/
def Pool.holds (q : Pool) : Bool := q.state = 1 || q.state = 2

/-- The slices that no pool of a die holds. -/
def State.freeSlices (s : State) (d : Nat) : List Nat :=
  let held := (List.range 64).flatMap fun p => ((s.pool d p).getD Pool.off).place
  poolSlices.filter fun n => !held.contains n

/-- DRAM that a die's pools hold, in bytes. -/
def State.pondDram (s : State) (d : Nat) : Nat :=
  sum ((List.range 64).map fun p =>
    match s.pool d p with
    | some q => if q.holds then q.cfg.dram else 0
    | none => 0)

/-- The slices that a pool's buffers reach: those of its count, and those of the buffers at or above it that are still held. -/
def Pool.reach (q : Pool) : Nat :=
  let last := (q.bufs.map (·.1)).foldl max 0
  if q.bufs.isEmpty then q.cfg.slices else max q.cfg.slices (ceilDiv ((last + 1) * 2 ^ q.cfg.size) 65536)

/-- A pool loses its memory: at once when no buffer is held or quarantined, else when it has drained (R609). It waits for no configuration. -/
def Pool.displaced (q : Pool) : Pool := if q.fill = 0 then { q with state := 3, place := [] } else { q with state := 2, want := none }

/-- An active pool of a die at the fit. An SRAM pool that has grown takes further slices, and one that has shrunk gives back those that no
buffer reaches (R176); where none are left for the growth, or the DRAM region no longer reaches to the pool, it is displaced (R609, log
entry 166). `room` is what the region leaves to it. -/
def State.keepPool (s : State) (d : Nat) (room : Nat) (q : Pool) : Pool :=
  if q.cfg.kind = 1 then
    let more := (s.freeSlices d).take (q.cfg.slices - q.place.length)
    if q.place.length + more.length < q.cfg.slices then q.displaced
    else s.settle { q with place := (q.place ++ more).take q.reach }
  else if q.cfg.dram ≤ room then s.settle q
  else q.displaced

/-- A pool without memory becomes active where what it needs is free (R32, R173). -/
def State.admitPool (s : State) (d : Nat) (q : Pool) : Pool :=
  let free := s.freeSlices d
  if q.cfg.kind = 0 then { q with state := 0 }
  else if !s.healthy d then q
  else if q.cfg.kind = 1 then
    (if q.cfg.slices ≤ free.length then s.settle { q with state := 1, place := free.take q.cfg.slices } else q)
  else if s.pondDram d + q.cfg.dram ≤ s.pondRegion d then s.settle { q with state := 1 }
  else q

/-- The fit of a die's pools (R32, R174): pools that hold memory keep it, in rank order as far as the DRAM region reaches, and what is free
then goes to the others in rank order. Answers the state, the pools left unassigned, and those displaced. -/
def State.fitPools (s : State) (d : Nat) : State × List Nat × List Nat :=
  let order := rankOrder s d
  let is := fun (s : State) (n p : Nat) => ((s.pool d p).getD Pool.off).state = n
  let drained := sum ((order.filter (is s 2)).map fun p => ((s.pool d p).getD Pool.off).cfg.dram)
  let kept := (order.filter (is s 1)).foldl (fun (acc : State × Nat) p =>
    let q := acc.1.keepPool d (acc.1.pondRegion d - acc.2) ((acc.1.pool d p).getD Pool.off)
    (acc.1.setPool d p q, if q.state = 1 then acc.2 + q.cfg.dram else acc.2)) (s, drained)
  let displaced := (order.filter (is s 1)).filter fun p => !is kept.1 1 p
  let s1 := (order.filter (is kept.1 3)).foldl (fun s p => s.setPool d p (s.admitPool d ((s.pool d p).getD Pool.off))) kept.1
  (s1, order.filter (is s1 3), displaced)

/-- A write configures a pool by any of its settings (R85). -/
def poolWrite (d p : Nat) (w : Staged) : Bool := 0x5240 ≤ w.idx && w.idx < 0x5268 && w.idx % 8 = d && w.sub = p + 1

/-- Every pool of a die is reconfigured, fitted, and its own owners registered. EV d.044 is raised once when a pool is newly left
unassigned or displaced, or when the writes that apply configure a pool that is left unassigned (R174, R195, R609). Answers the unassigned
pools as index, sub-index and rank for 0x1F21. -/
def State.refitDie (s : State) (d : Nat) (ws : List Staged) : State × List (Nat × Nat × Nat) :=
  let s0 :=
    let half := s.obj (0xA140 + d) 0 / 2 / 1048576
    if half < s.obj (0x52E8 + d) 0 ∧ 0 < half then s.setObj (0x52E8 + d) 0 half else s
  let s1 := (List.range 64).foldl (fun s p => s.reconfigure d p) s0
  let (s2, un, out) := s1.fitPools d
  let s3 := (List.range 64).foldl (fun s p => s.registerOwn d p) s2
  let known := fun (p : Nat) => match s.pool d p with
    | some q => q.state = 3 || (q.state = 2 && q.want.isNone)
    | none => false
  let told := (un.filter fun p => !known p || ws.any (poolWrite d p)) ++ out
  let s4 := if told.isEmpty then s3 else s3.raise (evDie d 44) (told.headD 0)
  (s4, un.map fun p => (0x5240 + d, p + 1, ((s4.pool d p).getD Pool.off).cfg.cls))

/-- SRAM slices that a die's pools hold. -/
def State.slicesUsed (s : State) (d : Nat) : Nat :=
  sum ((List.range 64).map fun p => ((s.pool d p).getD Pool.off).place.length)

/-- A pool that holds memory has a slice in banks 32 to 63 (R173); a draining pool's buffers are still held there. -/
def State.upperBanksUsed (s : State) (d : Nat) : Bool :=
  (List.range 64).any fun p => ((s.pool d p).getD Pool.off).place.any fun n => 128 ≤ n

/-- Every pool homed on a failed die ends at once (R173). -/
def State.endPools (s : State) (d : Nat) : State :=
  { s with pond := { s.pond with pools := s.pond.pools.filter fun e => e.1 / 64 ≠ d } }

end Sys2Proof.Machine
end

