-- ==== Sys2Proof/Machine/PowerBase.lean ====
section
/-!
DEFINITION. The part of power and thermal management that other chapters ask for: the readings of a die, the hottest
junction, the power classes and the enforced limit (R549 to R553, R557).
-/

namespace Sys2Proof.Machine

/-- A die's housekeeping before its first round: every domain on. -/
def PowerDie.fresh : PowerDie := ⟨[], [], [], [], [], [], [], 0x3FF, [], [], []⟩

/-- A die's housekeeping. -/
def State.pd (s : State) (d : Nat) : PowerDie := tgetD s.power.dies d PowerDie.fresh

/-- The state with a die's housekeeping set. -/
def State.setPd (s : State) (d : Nat) (p : PowerDie) : State :=
  { s with power := { s.power with dies := tset s.power.dies d p } }

/-- A switched domain of a die is usable: on, and no longer waking (R546). -/
def State.usable (s : State) (d n : Nat) : Bool := bitOf (s.pd d).on n && (tget (s.pd d).waking n).isNone

/-- The physical core that stands for a logical core of a die (R15, R386, 0x50B0 + d). -/
def State.physical (s : State) (d core : Nat) : Nat := s.obj (0x50B0 + d) (core + 1)

/-- The working sensors of a round's readings: sensor and reading in 0.1 °C (R550). -/
def PowerDie.working (p : PowerDie) (l : List Int) : List (Nat × Int) :=
  ((List.range 12).filter fun k => !p.failed.contains k && k < l.length).map fun k => (k, l.getD k 0)

/-- The greater of two readings, the earlier where they are equal. -/
def hotter (a b : Nat × Int) : Nat × Int := if a.2 < b.2 then b else a

/-- The hottest of some readings. -/
def hottestOf : List (Nat × Int) → Option (Nat × Int)
  | [] => none
  | x :: t => some (t.foldl hotter x)

/-- A die's hottest working sensor in its latest round. -/
def PowerDie.hottest (p : PowerDie) : Option (Nat × Int) := hottestOf (p.working (p.temps.headD []))

/-- The reading of a sensor group (R550): its hottest working sensor, or the die's hottest plus 10 °C. -/
def PowerDie.group (p : PowerDie) (g : Nat) : Int :=
  match hottestOf ((p.working (p.temps.headD [])).filter fun k => k.1 / 3 = g) with
  | some k => k.2
  | none => ((p.hottest.map (·.2)).getD (-100)) + 100

/-- The hottest junction of the package (R550): die, sensor and reading in 0.1 °C. -/
def State.hottest (s : State) : Option (Nat × Nat × Int) :=
  s.dies.foldl (fun best d =>
    match (s.pd d).hottest, best with
    | none, b => b
    | some k, none => some (d, k.1, k.2)
    | some k, some b => if b.2.2 < k.2 then some (d, k.1, k.2) else some b) none

/-- The hottest junction's reading; 0 before the first round. -/
def State.junction (s : State) : Int := (s.hottest.map (·.2.2)).getD 0

/-- The power limit of a class, in mW (R552). -/
def classLimit (dies cls : Nat) : Nat :=
  let c := min cls 6
  if dies = 2 then 44000 - 4000 * c else if dies = 4 then 86000 - 8000 * c else 176000 - 16000 * c

/-- The class limit in force. -/
def State.classLimit (s : State) : Nat := Sys2Proof.Machine.classLimit s.cfg.dies (s.obj 0x8001 0)

/-- The enforced limit: at enforcement step k, the class limit × (10 − k) / 10 (R552, R557). -/
def State.enforcedLimit (s : State) : Nat := s.classLimit * (10 - min 5 s.power.step) / 10

end Sys2Proof.Machine
end

