-- ==== Sys2Proof/Machine/FlashMem.lean ====
section
/-!
DEFINITION. What a die's flash and its maps hold: the media manager's state, the codewords on the pages (R259), encryption at rest (R441,
R442), the maps with their journal records (R200, R201, R207 to R212), and what a namespace reads as.
-/

namespace Sys2Proof.Machine

/-! ### A die's media manager -/

/-- Maps that map nothing. -/
def Maps.none : Maps := ⟨[], [], [], []⟩

/-- A media manager that has found no flash. -/
def MediaDie.empty : MediaDie :=
  { maps := Maps.none, births := [], stripes := [], openCoarse := none, openFine := none, leftover := [], openSlc := none
    nextSeq := 1, pendingRecs := [], journal := [], ckpt := none, nextCkpt := none, passRunning := false, passBegin := 0
    passIssued := false, passPages := [], dirty := [], cache := [], awaiting := [], ops := [], nextOp := 1, staged := [], nextStage := 0, bg := [], later := [], journalAt := none, journalSpan := []
    dieStripes := [], parity := [], chunk := 0, chunkFill := 0, chunks := [], skipped := [], population := none, spareFirst := 0, lastFail := [], resetting := []
    failRuns := [], badBlocks := [], programTimes := [], eraseTimes := [], groups := 0, place := [], swaps := [], calibrated := none, worn := false, hostBytes := 0, hostPrev := 0, heldBack := false
    unrecoverable := [], checked := [], halvedAt := 0, marker := 0, halted := false }

/-- A die's media manager. -/
def State.md (s : State) (d : Nat) : MediaDie := tgetD s.media.dies d MediaDie.empty

/-- The state with a die's media manager set. -/
def State.setMd (s : State) (d : Nat) (m : MediaDie) : State :=
  { s with media := { s.media with dies := tset s.media.dies d m } }

/-- The key of a coarse unit of a namespace. -/
def cuKey (nsid unit : Nat) : Nat := nsid * 2 ^ 40 + unit

/-- Bytes of a coarse unit and of a granule (R197). -/
def cuBytes : Nat := 2097152

/-- One XTS run of the data at rest of so many bytes, in the class of the traffic it serves (R457, R465). -/
def State.xtsRun (s : State) (cls bytes : Nat) : State := (s.bump 0x6010 (cls + 1)).addObj 0x6011 (cls + 1) bytes

/-- A digest of so many bytes that the device makes for a class itself, by its ALG (R471, R492). -/
def State.digestRun (s : State) (cls alg bytes : Nat) : State :=
  ((s.bump 0x6411 (cls + 1)).addObj 0x6412 (cls + 1) bytes).bump 0x6420 alg

def granuleBytes : Nat := 4096

/-! ### Geometry (R198, R213, R250) -/

/-- Data positions of one block stripe (R250). -/
def Population.positions (p : Population) : Nat := 15 * p.planes * (p.pageBytes / 4096) * p.pagesPerBlock

/-- Data positions of a block stripe of a die, at least 512 so that a placement fits. -/
def MediaDie.positions (m : MediaDie) : Nat := ((m.population.map Population.positions).getD 512)

/-- Granules of one page of a die's blocks. -/
def MediaDie.pageGranules (m : MediaDie) : Nat := ((m.population.map fun p => p.planes * (p.pageBytes / 4096)).getD 1)

/-- The member of a block stripe that holds a data position: row by row, within a row by channel in ascending order without the parity
member on channel (S mod 16), within a page by granule (R198, R213). -/
def MediaDie.channelOf (m : MediaDie) (stripe pos : Nat) : Nat :=
  let member := pos % (15 * max 1 m.pageGranules) / max 1 m.pageGranules
  if stripe % 16 ≤ member then member + 1 else member

/-- The row of a data position. -/
def MediaDie.rowOf (m : MediaDie) (pos : Nat) : Nat := pos / (15 * max 1 m.pageGranules)

/-- The granule slot of a data position among those of its row's parity page, counted through the rows (R213). -/
def MediaDie.paritySlot (m : MediaDie) (pos : Nat) : Nat := m.rowOf pos * max 1 m.pageGranules + pos % max 1 m.pageGranules

/-- The data positions in the same granule slot of the row's other members. -/
def MediaDie.rowMates (m : MediaDie) (pos : Nat) : List Nat :=
  let g := max 1 m.pageGranules
  ((List.range 15).map fun k => (m.rowOf pos * 15 + k) * g + pos % g).filter (· ≠ pos)

/-- The CE of a stripe group's member on a channel: that of the group's number, or of the hot spare that took its place (R213, R214). -/
def MediaDie.ceOf (m : MediaDie) (channel group : Nat) : Nat := tgetD m.place (16 * channel + group) group

/-- The stripe group whose member stands on a target. -/
def MediaDie.groupOf (m : MediaDie) (channel ce : Nat) : Option Nat := (List.range 16).find? fun g => m.ceOf channel g = ce

/-- The block index and the channel of the block that a member of a block stripe uses: its own, which stands at the stripe's place on every target, or one
that takes the place of a bad one (R233, R263). -/
def MediaDie.blockOf (m : MediaDie) (stripe channel : Nat) : Nat × Nat :=
  (tget m.swaps (16 * stripe + channel)).getD (stripe / max 1 m.groups, channel)

/-- The key of a block in the block table: its block index, CE and channel. -/
def blockKey (block ce channel : Nat) : Nat := 16 * (16 * block + ce) + channel

/-- The key of the block of a block stripe's member. -/
def MediaDie.keyOf (m : MediaDie) (stripe channel : Nat) : Nat :=
  let q := m.blockOf stripe channel
  blockKey q.1 (m.ceOf q.2 (stripe % max 1 m.groups)) q.2

/-! ### Codewords (R26, R259) -/

/-- The address of the codeword at a data position of a die's block stripe. -/
def flashAddr (d stripe pos : Nat) : Nat := ((d * 2 ^ 24 + stripe % 2 ^ 24) * 2 ^ 20 + pos % 2 ^ 20) * 8192

/-- The META bytes of a codeword: block stripe, data position and kind. -/
def wordMeta (stripe pos kind : Nat) : Nat := stripe % 2 ^ 24 * 2 ^ 40 + pos % 2 ^ 20 * 2 ^ 20 + kind % 16 * 2 ^ 16

/-- The protection tag of a granule: the 64-bit guard over its data and its 8-byte logical address (R26). -/
def granuleTag (data : List Nat) (lba : Nat) : Nat := crc64 (data ++ leBytes 8 lba)

/-- DATA, TAG and META of the parity page's codeword for a data position (R213); parity pages stand apart from the data positions. -/
def State.parityAt (s : State) (d stripe pos : Nat) : Nat := flashAddr (d + 8) stripe ((s.md d).paritySlot pos)

/-- DATA and TAG of a position, 4,104 bytes. -/
def State.wordAt (s : State) (a : Nat) : List Nat := memRead s.mem a 4104

/-- A codeword is programmed: DATA, TAG and META. Its row's parity page stays the XOR of the row's data pages, in DATA and TAG alike (R213, R259). -/
def State.writeWord (s : State) (d stripe pos kind : Nat) (word : List Nat) : State :=
  let a := flashAddr d stripe pos
  let p := s.parityAt d stripe pos
  let parity := xorBytes (s.wordAt p) (xorBytes (s.wordAt a) word)
  (s.write a (word ++ leBytes 8 (wordMeta stripe pos kind))).write p
    (parity ++ leBytes 8 (wordMeta stripe ((s.md d).paritySlot pos) 1))

/-- A granule's codeword is programmed: kind 0 data, 2 journal, 3 map page, 4 filler, 5 unrecoverable; the tag of an unrecoverable one never verifies
(R231). -/
def State.putCodeword (s : State) (d stripe pos kind lba : Nat) (data : List Nat) : State :=
  let b := fit 4096 data
  let tag := granuleTag b lba
  s.writeWord d stripe pos kind (b ++ leBytes 8 (if kind = 5 then Nat.xor tag 1 else tag))

/-- DATA, TAG and kind of the codeword at a position. -/
def State.codewordKind (s : State) (d stripe pos : Nat) : Nat := ofLe (memRead s.mem (flashAddr d stripe pos + 4104) 8) / 2 ^ 16 % 16

/-! ### Reconstruction (R213, R217, R223 steps 4 and 5) -/

/-- A position's DATA and TAG by XOR of its row's other data pages and the parity page (R213). -/
def State.rowXor (s : State) (d stripe pos : Nat) : List Nat :=
  ((s.md d).rowMates pos).foldl (fun w p => xorBytes w (s.wordAt (flashAddr d stripe p))) (s.wordAt (s.parityAt d stripe pos))

/-- The die stripe and the granule of it that a die's position is in. -/
def MediaDie.chunkOf (m : MediaDie) (stripe pos : Nat) : Option (Nat × Nat) :=
  m.chunks.findSome? fun k => (k.2.find? fun g => g.2 = (stripe, pos)).map fun g => (k.1, g.1)

/-- The address of a granule of a die stripe's accumulator in the DRAM of the die that keeps it (R215). -/
def accAddr (d k i : Nat) : Nat := (2 ^ 45 + d * 2 ^ 33 + k) * 2 ^ 64 + 8192 * i

/-- A die keeps the parity chunk, the mirror copy or the accumulator of a die stripe. -/
def MediaDie.protects (m : MediaDie) (k : Nat) : Bool :=
  (tget m.parity k).isSome || (tget m.dieStripes k).isSome || (m.ops.any fun o => match o.2.kind with
    | .parityChunk j _ => j = k
    | _ => false)

/-- The healthy die that protects a die's chunk: the other die of an HK7-2, else the one that keeps the die stripe's parity. -/
def State.protector (s : State) (d k : Nat) : Option Nat :=
  s.dies.find? fun e => e ≠ d && s.healthy e && (s.md e).protects k

/-- A granule of a die stripe's parity chunk, mirror copy or accumulator. -/
def State.chunkWord (s : State) (home k i : Nat) : List Nat :=
  match tget (s.md home).parity k with
  | some p => s.wordAt (flashAddr home p.1 (p.2 + i))
  | none => s.wordAt (accAddr home k i)

/-- A position's DATA and TAG from the mirror copy, or by XOR of the die stripe's other chunks and its parity (R217); none where the position is in no
die stripe, or another die of it has failed as well. -/
def State.crossDie (s : State) (d stripe pos : Nat) : Option (List Nat) :=
  ((s.md d).chunkOf stripe pos).bind fun c =>
    (s.protector d c.1).bind fun home =>
      let others := if s.cfg.dies = 2 then [] else s.dies.filter fun e => e ≠ d && e ≠ home && ((tget (s.md e).chunks c.1).bind fun t => tget t c.2).isSome
      if others.all s.healthy then
        some (others.foldl (fun w e =>
          match (tget (s.md e).chunks c.1).bind fun t => tget t c.2 with
          | some p => xorBytes w (s.wordAt (flashAddr e p.1 p.2))
          | none => w) (s.chunkWord home c.1 c.2))
      else none

/-- The members of a block stripe that cannot be read: their target has failed and is not rebuilt. -/
def MediaDie.lostOf (m : MediaDie) (stripe : Nat) : List Nat := ((tget m.stripes stripe).map (·.lost)).getD []

/-- The step of R223 that a position needs at least: 1 where its own page can be read, 4 where its row alone recovers it, 5 where another die does. -/
def State.leastStep (s : State) (d stripe pos : Nat) : Nat :=
  let m := s.md d
  let lost := m.lostOf stripe
  if !s.healthy d then 5
  else if !lost.contains (m.channelOf stripe pos) then 1
  else if lost.length = 1 then 4
  else 5

/-- DATA and TAG that the device can still give of a position, and its kind; a reconstructed word of zero bytes is filler. -/
def State.recovered (s : State) (d stripe pos : Nat) : Option (List Nat × Nat) :=
  let again := fun (w : List Nat) => (w, if w.take 4096 = zeros 4096 then 4 else 0)
  match s.leastStep d stripe pos with
  | 1 => some (s.wordAt (flashAddr d stripe pos), s.codewordKind d stripe pos)
  | 4 => some (again (s.rowXor d stripe pos))
  | _ => (s.crossDie d stripe pos).map again

/-- The data of a position as the device recovers it, zero bytes where it cannot. -/
def State.codewordData (s : State) (d stripe pos : Nat) : List Nat :=
  match s.recovered d stripe pos with
  | some w => w.1.take 4096
  | none => zeros 4096

/-- A codeword that holds a granule's data as good: it is recovered, its tag verifies, or it is filler, and it is no unrecoverable marker (R26, R213,
R231). -/
def State.codewordGood (s : State) (d stripe pos lba : Nat) : Bool :=
  match s.recovered d stripe pos with
  | none => false
  | some w => w.2 == 4 || (w.2 != 5 && ofLe (w.1.drop 4096) == granuleTag (w.1.take 4096) lba)

/-- A codeword is copied from a position, of the same die or of one that is reconstructed, to another (R217, R231); its tag covers data and LBA, which
stay. -/
def State.copyCodeword (s : State) (d from' fromStripe fromPos stripe pos lba : Nat) : State :=
  let kind := if s.codewordGood from' fromStripe fromPos lba then ((s.recovered from' fromStripe fromPos).map (·.2)).getD 5 else 5
  s.putCodeword d stripe pos kind lba (s.codewordData from' fromStripe fromPos)

/-! ### Encryption at rest (R441, R442, R444) -/

/-- The device-unique key (R444). -/
def duk : List Nat := (List.range 32).map fun k => (Config.deviceKey k).toNat

/-- The device key DK (R444). -/
def deviceKey : List Nat := (hmac384 duk (ascii "HK7DEV")).take 32

/-- The XTS key pair of a namespace for its key generation and size (R441): data key and tweak key; size 0 is XTS-128. -/
def nsKeys (nsid gen size : Nat) : List Nat × List Nat :=
  let r := hmac512 deviceKey (ascii "HK7NSX" ++ leBytes 4 nsid ++ leBytes 4 gen)
  let n := if size = 0 then 16 else 32
  (r.take n, (r.drop 32).take n)

/-- A granule under its namespace's XTS key pair: the tweak holds the LBA in bits 63:0 and the NSID in bits 95:64 (R442). -/
def State.atRest (s : State) (decrypt : Bool) (nsid lba : Nat) (data : List Nat) : List Nat :=
  let n := tget s.host.nss nsid
  let k := nsKeys nsid ((n.map (·.keyGen)).getD 1) ((n.map (·.xts)).getD 1)
  aesXts decrypt k.1 k.2 (lba % 2 ^ 64 + nsid % 2 ^ 32 * 2 ^ 64) data

/-! ### Entries of the maps (R200, R201) -/

/-- A coarse entry of an unmapped unit. -/
def CoarseEntry.unmapped : CoarseEntry := ⟨0, false, 0, 0, 0, 0⟩

/-- The coarse entry of a unit. -/
def Maps.entry (x : Maps) (key : Nat) : CoarseEntry := tgetD x.coarse key CoarseEntry.unmapped
def MediaDie.entry (m : MediaDie) (key : Nat) : CoarseEntry := m.maps.entry key

/-- The 64-bit word of a coarse entry (R200); that of an unmapped unit names no die. -/
def CoarseEntry.word (d : Nat) (e : CoarseEntry) : Nat :=
  e.state * 2 ^ 62 + (if e.state = 0 then 0 else d) * 2 ^ 59 + b2n e.xd * 2 ^ 58 + e.stripe % 2 ^ 24 * 2 ^ 32 + e.pos % 2 ^ 20 * 2 ^ 12 + e.heat % 256 * 16

/-- The coarse entry that a word spells. -/
def CoarseEntry.ofWord (w last : Nat) : CoarseEntry :=
  ⟨w / 2 ^ 62 % 4, bitOf w 58, w / 2 ^ 32 % 2 ^ 24, w / 2 ^ 12 % 2 ^ 20, w / 16 % 256, last⟩

/-- The 64-bit word of a mapped fine entry (R201). -/
def fineWord (stripe pos : Nat) : Nat := 2 ^ 62 + stripe % 2 ^ 24 * 2 ^ 32 + pos % 2 ^ 20 * 2 ^ 12

/-- The fine entry of a granule as a word, or for a unit that is not fine-mapped the word of its place in the SLC staging region; 0 where there is none. -/
def Maps.fineWordOf (x : Maps) (key g : Nat) : Nat :=
  match (tget (if (x.entry key).state = 2 then x.fine else x.slcMap) key).bind fun t => tget t g with
  | some p => fineWord p.1 p.2
  | none => 0

/-- The bits [63:0] of a write stamp: RDCNT, STRIPE, STATE and FLAGS (R221). -/
def Block.word (b : Block) : Nat :=
  min b.rdcnt (2 ^ 24 - 1) * 2 ^ 40 + b.stripe % 2 ^ 20 * 2 ^ 20 + b.state % 16 * 2 ^ 16 + b.flags % 256 * 256

/-- The changing half of a write stamp from its word. -/
def Block.ofWord (w : Nat) : Block := ⟨w / 2 ^ 40 % 2 ^ 24, w / 2 ^ 20 % 2 ^ 20, w / 2 ^ 16 % 16, w / 256 % 256⟩

/-- The bits [127:64] of a write stamp: STIME, TPROG, MODE and PEC (R221). -/
def Birth.word (b : Birth) : Nat :=
  b.stime % 2 ^ 32 * 2 ^ 32 + twos 8 (b.tprog / 10) * 2 ^ 24 + b.mode % 16 * 2 ^ 20 + b.pec % 2 ^ 16

/-- A block nothing has been programmed into. -/
def Block.erased (stripe : Nat) : Block := ⟨0, stripe, 1, 0⟩
def Birth.none : Birth := ⟨0, 0, 1, 0⟩

/-- The address of a block: die, channel, CE and block in the layout of 0x301C. -/
def blockAddress (d key : Nat) : Nat := d % 8 * 2 ^ 29 + key % 16 * 2 ^ 24 + key / 16 % 16 * 2 ^ 20 + key / 256 % 2 ^ 20

/-- The key of the block that a block address names. -/
def addressKey (addr : Nat) : Nat := blockKey (addr % 2 ^ 20) (addr / 2 ^ 20 % 16) (addr / 2 ^ 24 % 16)

/-! ### Journal records and what they do to the maps (R208, R210, R212) -/

/-- The 48 bytes of a journal record (R210). -/
def JRec.bytes (r : JRec) : List Nat :=
  let body := leBytes 8 r.seq ++ [r.ty, r.flags] ++ leBytes 2 r.count ++ leBytes 4 r.nsid ++ leBytes 8 r.addr ++
    leBytes 8 r.new ++ leBytes 8 r.old ++ zeros 4
  body ++ leBytes 4 (crc32c body)

/-- The FLAGS of a record: member of a group, conditional, capture namespace. -/
def JRec.grouped (r : JRec) : Bool := bitOf r.flags 0
def JRec.conditional (r : JRec) : Bool := bitOf r.flags 1

/-- A record that gives a coarse entry, TYPE 1 and 5. Granules of the unit in the SLC staging region stay mapped there through a copy and
through a change that leaves the placement; a new placement holds them. -/
def Maps.putCoarse (x : Maps) (d key : Nat) (r : JRec) : Maps :=
  let e := x.entry key
  let e' := CoarseEntry.ofWord r.new e.last
  if r.conditional ∧ e.word d ≠ r.old then x
  else
    let stays := r.conditional || (e'.state == e.state && e'.stripe == e.stripe && e'.pos == e.pos)
    { x with coarse := tset x.coarse key e'
             fine := if e'.state = 2 then x.fine else tdel x.fine key
             slcMap := if stays then x.slcMap else tdel x.slcMap key }

/-- A record that gives fine entries, TYPE 2: COUNT granules from an LBA at COUNT positions; for a unit that is not fine-mapped they are granules
in the SLC staging region. -/
def Maps.putFine (x : Maps) (key g : Nat) (r : JRec) : Maps :=
  if r.conditional ∧ x.fineWordOf key g ≠ r.old then x
  else
    let e := x.entry key
    let place := fun (t : Tab (Nat × Nat)) (i : Nat) =>
      if r.new = 0 then tdel t (g + i) else tset t (g + i) (r.new / 2 ^ 32 % 2 ^ 24, r.new / 2 ^ 12 % 2 ^ 20 + i)
    let put := fun (t : Tab (Tab (Nat × Nat))) => tset t key ((List.range r.count).foldl place (tgetD t key []))
    if e.state = 2 then { x with fine := put x.fine } else { x with slcMap := put x.slcMap }

/-- A promotion, TYPE 4: the fine table points at the granules' positions (R204). -/
def Maps.promote (x : Maps) (key : Nat) (r : JRec) : Maps :=
  let e := x.entry key
  if e.state ≠ 1 then x
  else
    let held := tgetD x.slcMap key []
    let tab := (List.range 512).map fun g => (g, (tget held g).getD (e.stripe, e.pos + g))
    { x with coarse := tset x.coarse key (CoarseEntry.ofWord r.new e.last), fine := tset x.fine key tab, slcMap := tdel x.slcMap key }

/-- What a journal record does to the maps: the change when it is appended, and again at replay (R208, R212). -/
def Maps.apply (d : Nat) (x : Maps) (r : JRec) : Maps :=
  let key := cuKey r.nsid r.addr
  match r.ty with
  | 1 => x.putCoarse d key r
  | 2 => x.putFine (cuKey r.nsid (r.addr / 512)) (r.addr % 512) r
  | 3 => { x with coarse := tdel x.coarse key, fine := tdel x.fine key, slcMap := tdel x.slcMap key }
  | 4 => x.promote key r
  | 5 => x.putCoarse d key r
  | 6 => { x with blocks := tset x.blocks (addressKey r.addr) (Block.ofWord r.new) }
  | _ => x

/-- The records that replay uses: in SEQ order from one after another, up to the first gap (R212). -/
def usableRecs : Nat → List JRec → List JRec
  | _, [] => []
  | n, r :: t => if r.seq = n then r :: usableRecs (n + 1) t else []

/-- Replay (R212): each record is applied; the records of a group are held until its group-end record is met. -/
def Maps.replay (d : Nat) : List JRec → Maps → List JRec → Maps
  | _, x, [] => x
  | held, x, r :: t =>
    if r.ty = 9 then Maps.replay d [] (held.foldl (Maps.apply d) x) t
    else if r.grouped then Maps.replay d (held ++ [r]) x t
    else Maps.replay d held (x.apply d r) t

/-- The map page that a record changes (R207): coarse entries 512 to a page, a fine table, block stamps 256 to a page. -/
def JRec.pages (r : JRec) : List (Nat × Nat) :=
  match r.ty with
  | 2 => [(1, cuKey r.nsid (r.addr / 512))]
  | 4 => [(0, cuKey r.nsid r.addr / 512), (1, cuKey r.nsid r.addr)]
  | 6 => [(2, addressKey r.addr / 256)]
  | 1 => [(0, cuKey r.nsid r.addr / 512)]
  | 3 => [(0, cuKey r.nsid r.addr / 512)]
  | 5 => [(0, cuKey r.nsid r.addr / 512)]
  | _ => []

/-! ### The mapping cache (R14, R207) -/

/-- Map pages of the coarse units that open takes are writing, at most 256 of a die: they stay in the cache. -/
def MediaDie.pinned (m : MediaDie) : List (Nat × Nat) :=
  let of := fun (o : Nat × FlashOp) => match o.2.kind with
    | .frameSegment nsid _ _ _ _ places => places.map fun p => ((0, cuKey nsid p.1 / 512) : Nat × Nat)
    | _ => []
  (m.ops.flatMap of).eraseDups.take 256

/-- The key of a map page: coarse entries, fine table or block stamps, and its number. -/
def pageKey (p : Nat × Nat) : Nat := p.1 * 2 ^ 72 + p.2

/-- The 4 KiB of a map page (R207): 512 coarse entries, a fine table, or 256 write stamps. -/
def MediaDie.pageBytes (m : MediaDie) (d key : Nat) : List Nat :=
  let n := key % 2 ^ 72
  match key / 2 ^ 72 with
  | 0 => (List.range 512).flatMap fun k => leBytes 8 ((m.maps.entry (512 * n + k)).word d)
  | 1 => (List.range 512).flatMap fun k => leBytes 8 (m.maps.fineWordOf n k)
  | _ => (List.range 256).flatMap fun k =>
      match tget m.maps.blocks (256 * n + k) with
      | some b => leBytes 8 b.word ++ leBytes 8 (tgetD m.births (256 * n + k) Birth.none).word
      | none => zeros 16

/-- Pages beyond 768 leave the cache, the least recently used that is not pinned first. -/
def evictPages (pinned : List (Nat × Nat)) (l : List (Nat × Nat)) : List (Nat × Nat) :=
  if l.length ≤ 768 then l
  else
    match (l.reverse).find? fun p => !pinned.contains p with
    | some p => l.erase p
    | none => l.take 768

/-- A map page is used: a hit or a miss, counted in 0x3118 + d. -/
def State.usePage (s : State) (d : Nat) (p : Nat × Nat) : State :=
  let m := s.md d
  let s1 := s.setMd d { m with cache := evictPages m.pinned (p :: m.cache.erase p) }
  s1.bump (0x3118 + d) (if m.cache.contains p then 1 else 2)

/-- Stripe groups of a die (R213). -/
def State.groups (s : State) (d : Nat) : Nat := s.obj (0x3148 + d) 1

/-- A change of the maps: its record is appended with the next sequence number and applied, and its map pages are used and changed
(R208, R211). -/
def State.logMap (s : State) (d ty flags count nsid addr new old : Nat) : State :=
  let m := s.md d
  let r : JRec := ⟨m.nextSeq, ty, flags, count, nsid, addr, new, old⟩
  let pages := r.pages
  let dirty := pages.foldl (fun l p => if l.contains p then l else l ++ [p]) m.dirty
  let s1 := s.setMd d { m with nextSeq := m.nextSeq + 1, pendingRecs := m.pendingRecs ++ [r], marker := 0, dirty := dirty
                               maps := m.maps.apply d r }
  pages.foldl (fun s p => s.usePage d p) (s1.setObj (0x3138 + d) 2 m.nextSeq)

/-- What becomes durable with the last record appended waits for it, with the positions that become invalid then (R209, R231). -/
def State.awaitJournal (s : State) (d : Nat) (k : Option OpKind) (old : List (Nat × Nat)) : State :=
  let m := s.md d
  s.setMd d { m with awaiting := m.awaiting ++ [(m.nextSeq - 1, k, old)] }

/-! ### Where coarse units lie (R18, R198) -/

/-- The die a coarse unit of a general namespace is placed on (R198): die (c mod n), or the next healthy one above. -/
def State.placeDie (s : State) (unit : Nat) : Nat :=
  let n := max 1 s.cfg.dies
  let c := unit % n
  match ((List.range n).map fun k => (c + k) % n).find? s.healthy with
  | some d => d
  | none => c

/-- The die that holds a coarse unit: where it lies, or where its first write places it. -/
def State.unitDie (s : State) (nsid unit : Nat) : Nat :=
  match tget s.host.nss nsid with
  | some n => (tget n.units unit).getD (s.placeDie unit)
  | none => s.placeDie unit

/-- The state with a unit of a namespace recorded as in use on a die. -/
def State.setUnit (s : State) (nsid unit d : Nat) : State :=
  { s with host := { s.host with nss := tmod s.host.nss nsid fun n => { n with units := tset n.units unit d } } }

/-- The state with a unit of a namespace no longer in use. -/
def State.clearUnit (s : State) (nsid unit : Nat) : State :=
  { s with host := { s.host with nss := tmod s.host.nss nsid fun n => { n with units := tdel n.units unit } } }

/-- Where a granule of a unit is mapped on a die: in the SLC staging region, in its fine table or in its coarse placement. -/
def MediaDie.placeOf (m : MediaDie) (key g : Nat) : Option (Nat × Nat) :=
  let e := m.entry key
  match (tget m.maps.slcMap key).bind fun t => tget t g with
  | some p => some p
  | none =>
    if e.state = 1 then some (e.stripe, e.pos + g)
    else if e.state = 2 then (tget m.maps.fine key).bind fun t => tget t g
    else none

/-- Where a granule of a namespace is mapped: die, block stripe and position; on its unit's die, or on a failed one that a die stripe reconstructs
(R217). -/
def State.granuleAt (s : State) (nsid lba : Nat) : Option (Nat × Nat × Nat) :=
  let key := cuKey nsid (lba / 512)
  let on := fun (d : Nat) => ((s.md d).placeOf key (lba % 512)).map fun p => (d, p.1, p.2)
  let d := s.unitDie nsid (lba / 512)
  match on d with
  | some p => some p
  | none => (s.fault.failed.filter (· ≠ d)).findSome? fun f => (on f).filter fun p => (s.crossDie f p.2.1 p.2.2).isSome

/-- A granule is listed as unrecoverable on a die (R223). -/
def State.isLost (s : State) (nsid lba : Nat) : Bool := s.dies.any fun d => (s.md d).unrecoverable.contains (nsid, lba)

/-! ### Host write staging as a place (R203) -/

/-- The address of a byte that host write staging holds outside the pond. -/
def stageAddr (d id off : Nat) : Nat := (2 ^ 43 + d * 2 ^ 32 + id) * 2 ^ 64 + off

/-- The address of a granule of a staged unit: in its pond buffer, or in the media manager's own memory. -/
def StagedUnit.addr (u : StagedUnit) (d g : Nat) : Nat :=
  match (if u.per = 0 then none else tget u.bufs (g / u.per)) with
  | some h => bufAddr (handleDie h) (handlePool h) (handleIndex h) (4096 * (g % u.per))
  | none => stageAddr d u.id (4096 * g)

/-- The newest staged writes that hold a granule. -/
def MediaDie.stagedFor (m : MediaDie) (nsid unit g : Nat) : Option StagedUnit :=
  m.staged.reverse.find? fun u => u.nsid = nsid && u.unit = unit && u.granules.contains g

/-- The data of a staged granule. -/
def State.stagedGranule (s : State) (d : Nat) (u : StagedUnit) (g : Nat) : List Nat := memRead s.mem (u.addr d g) 4096

/-- A staged granule holds a poisoned code word (R25). -/
def State.stagedPoisoned (s : State) (d : Nat) (u : StagedUnit) (g : Nat) : Bool :=
  s.poison.any fun w => u.addr d g ≤ w && w < u.addr d g + 4096

/-- A granule of a namespace that no read recovers (R25, R223, R525): staged with a poisoned code word; or else listed as unrecoverable, or where nothing
recovers its position. -/
def State.unreadable (s : State) (nsid lba : Nat) : Bool :=
  let d := s.unitDie nsid (lba / 512)
  match (s.md d).stagedFor nsid (lba / 512) (lba % 512) with
  | some u => s.stagedPoisoned d u (lba % 512)
  | none => s.isLost nsid lba || (match s.granuleAt nsid lba with
      | some p => (s.recovered p.1 p.2.1 p.2.2).isNone
      | none => false)

/-! ### What a namespace reads as (R197, R442) -/

/-- The plain data of a granule on flash; filler reads as zero bytes (R134, R259). -/
def State.flashGranule (s : State) (d nsid lba : Nat) (p : Nat × Nat) : List Nat :=
  if ((s.recovered d p.1 p.2).map (·.2)).getD 4 = 4 then zeros 4096 else s.atRest true nsid lba (s.codewordData d p.1 p.2)

/-- The data of a granule: staged, mapped, or zero bytes where it is neither. -/
def State.nsGranule (s : State) (nsid lba : Nat) : List Nat :=
  let d := s.unitDie nsid (lba / 512)
  let m := s.md d
  match m.stagedFor nsid (lba / 512) (lba % 512) with
  | some u => s.stagedGranule d u (lba % 512)
  | none =>
    match s.granuleAt nsid lba with
    | some p => s.flashGranule p.1 nsid lba p.2
    | none => zeros 4096

/-- Bytes of a namespace. -/
def State.nsRead (s : State) (nsid off len : Nat) : List Nat :=
  let first := off / 4096
  let all := (List.range (ceilDiv (off % 4096 + len) 4096)).flatMap fun k => s.nsGranule nsid (first + k)
  (all.drop (off % 4096)).take len

end Sys2Proof.Machine
end

