-- ==== Sys2Proof/Machine/BandData.lean ====
section
/-!
DEFINITION. The data of bands and frame segments (R105, R114, R123, R134, R135, R151): received bytes, packing, the bytes of a segment that
are at hand, and the staging ring's use.
-/

namespace Sys2Proof.Machine

/-! ### Received bytes -/

/-- The highest CIDX of a data cell received. -/
def Band.highest (b : Band) : Nat := b.cells.foldl (fun m c => max m c.1) 0

/-- The received length L (R123). -/
def Band.received (b : Band) : Nat :=
  let n := (Band.highest b)
  if n = 0 then 0 else 240 * (n - 1) + (tgetD b.cells n []).length

/-- The band's bytes as received, missing cells and short ones filled with zero bytes (R105, R123). -/
def Band.bytes (b : Band) : List Nat :=
  let n := (Band.highest b)
  ((List.range n).flatMap fun k => fit 240 (tgetD b.cells (k + 1) [])).take (Band.received b)

/-- The lowest CIDX of a band that is missing (R114): the band-start is CIDX 0. -/
def Band.lowest (b : Band) : Nat :=
  if !b.started then 0
  else ((List.range (b.cells.length + 1)).find? fun j => (tget b.cells (j + 1)).isNone).getD b.cells.length + 1

/-- A band's ring bytes, as its cells brought them. -/
def Band.ring (b : Band) : Nat := sum (b.cells.map (·.2.length))

/-- The cells of a band in progress. -/
def Band.cellCount (b : Band) : Nat := b2n b.started + b.cells.length + b2n b.trailer.isSome

/-! ### Packing (R135) -/

/-- Sample bits of a width code. -/
def packBits (code : Nat) : Nat := if code = 1 then 10 else if code = 2 then 12 else if code = 3 then 14 else 16

/-- The 16-bit containers of received bytes; an odd length ends with a high byte of zero. -/
def containers : Nat → List Nat → List Nat
  | 0, _ => []
  | n + 1, l => field l 0 2 :: containers n (l.drop 2)

/-- The sample of a container, and whether bits outside it are not zero. -/
def sampleOf (n : Nat) (justify : Bool) (c : Nat) : Nat × Bool :=
  if justify then (c / 2 ^ (16 - n), c % 2 ^ (16 - n) ≠ 0) else (c % 2 ^ n, c / 2 ^ n ≠ 0)

/-- The packed bytes of received bytes and how many containers had bits outside their sample. -/
def packBytes (code : Nat) (justify : Bool) (l : List Nat) : List Nat × Nat :=
  if code = 0 then (l, 0)
  else
    let n := packBits code
    let s := (containers (ceilDiv l.length 2) l).map (sampleOf n justify)
    (leBytes (ceilDiv (s.length * n) 8) (ofLanes n (s.map (·.1))), (s.filter (·.2)).length)

/-! ### The segment of a frame (R134) -/

/-- The packed sample width of a picture spring; 0 for data stored as received (R135). -/
def SpringDef.width (p : SpringDef) : Nat := if p.kind = 1 ∧ p.packing ≠ 0 then 8 + 2 * p.packing else 0

/-- The stored length of a band of so many received bytes (R136). -/
def SpringDef.stored (p : SpringDef) (len : Nat) : Nat :=
  if (SpringDef.width p) = 0 then len else ceilDiv (ceilDiv len 2 * (SpringDef.width p)) 8

/-- The definition of a spring in a take. -/
def Take.springDef (t : Take) (spring : Nat) : Option SpringDef := t.springs.find? fun p => p.spring = spring

/-- The bands of a frame that map to a local port (R152). -/
def localBands (p : SpringDef) (nbands : Nat) : List Nat :=
  (List.range nbands).filter fun b => p.ports.getD b 0xFFFF < 32

/-- The stored bytes of a band in progress that no later cell changes: those of the cells before the lowest one that is missing. -/
def Band.fixed (b : Band) (p : SpringDef) : List Nat :=
  let raw := ((List.range (Band.lowest b - 1)).flatMap fun k => fit 240 (tgetD b.cells (k + 1) [])).take (min b.declen p.maxLen)
  (packBytes (if p.kind = 1 then p.packing else 0) (p.justify = 1) raw).1

/-- The bytes of bands in order, up to the first that is not all there: `piece` gives what is at hand of each, and whether that is all. -/
def gatherBands (piece : Nat → Bool × List Nat) : List Nat → List Nat
  | [] => []
  | b :: rest => if (piece b).1 then (piece b).2 ++ gatherBands piece rest else (piece b).2

/-- The started band of a frame in progress on a die. -/
def State.bandOnDie (s : State) (d : Nat) (f : Frame) (b : Nat) : Option Band :=
  (s.inflow.ports.filter fun p => p.1 / 4 = d).findSome? fun p =>
    p.2.bands.find? fun x => x.spring = f.spring && x.frame = f.frame && x.band = b && x.started

/-- What is at hand of a band of a die's segment, and whether that is all of it. A band that comes to the die by its alternate port, while its
own die is out, is placed only when the frame is complete. -/
def State.segPiece (s : State) (p : SpringDef) (f : Frame) (d b : Nat) : Bool × List Nat :=
  let home := p.ports.getD b 0 / 4 = d
  match f.bands.find? fun r => r.num = b with
  | some r => if r.die = d then (home, if home then r.stored else []) else (true, [])
  | none =>
    match s.bandOnDie d f b with
    | some x => (false, if home then Band.fixed x p else [])
    | none => (!home, [])

/-- The bytes of a die's segment of a frame that are at hand, from its first on. -/
def State.segPrefix (s : State) (p : SpringDef) (f : Frame) (d : Nat) : List Nat :=
  if f.complete then ((List.range 64).flatMap fun b => f.bands.filter fun r => r.num = b && r.die = d).flatMap (·.stored)
  else gatherBands (s.segPiece p f d) (localBands p f.nbands)

/-- The most bytes that a die's segment of a frame can come to, as its bands are known so far. -/
def State.segMost (s : State) (p : SpringDef) (f : Frame) (d : Nat) : Nat :=
  sum (((localBands p f.nbands).filter fun b => p.ports.getD b 0 / 4 = d).map fun b =>
    match f.bands.find? fun r => r.num = b with
    | some r => r.stored.length
    | none => SpringDef.stored p (((s.bandOnDie d f b).map fun x => min x.declen p.maxLen).getD p.maxLen))

/-! ### The staging ring (R151) -/

/-- Bytes of a die's staging ring. -/
def ringBytes : Nat := 67108864

/-- The bytes of a band in progress that are in the ring: those of its cells whose buffers do not wait for room. -/
def Port.entered (p : Port) (b : Band) : Nat :=
  Band.ring b - sum ((p.held.filter fun h => h.spring = b.spring && h.frame = b.frame && h.band = b.band).map (·.bytes))

/-- The ring bytes of a die for the bands of a frame, in progress and complete. -/
def State.frameRing (s : State) (f : Frame) (d : Nat) : Nat :=
  sum ((f.bands.filter fun r => r.die = d).map (·.ring)) +
    sum ((s.inflow.ports.filter fun p => p.1 / 4 = d).map fun p =>
      sum ((p.2.bands.filter fun b => b.spring = f.spring && b.frame = f.frame).map (Port.entered p.2)))

/-- Every frame of a take that is not recorded yet. -/
def State.openFrames (s : State) : List Frame := s.take.takes.flatMap (·.frames)

/-- The bytes a die's ring holds: those of bands in progress, those of complete bands that are not durable yet, and those of durable bands that
it keeps for filters. -/
def State.ringUsed (s : State) (d : Nat) : Nat :=
  let fs := s.openFrames
  sum ((s.inflow.ports.filter fun p => p.1 / 4 = d).map fun p => sum (p.2.bands.map (Port.entered p.2))) +
    sum (fs.map fun f => sum ((f.bands.filter fun r => r.die = d).map (·.ring)) + sum ((f.ringHeld.filter fun r => r.1 = d).map (·.2))) -
    sum (fs.map fun f => sum ((f.segs.filter fun g => g.die = d).map (·.counted)))

end Sys2Proof.Machine
end

