-- ==== Sys2Proof/Machine/Media.lean ====
section
/-!
DEFINITION. Chapter 7: reserve and ceiling, flash operations and the targets they hold, block stripes and placement, bad blocks, spares and worn
dies, targets that fail.
-/

namespace Sys2Proof.Machine

/-! ### Reserve and rates (R229, R230, R253) -/

/-- The pre-erased reserve of a die in data bytes: its erased block stripes (R229). -/
def State.erasedBytes (s : State) (d : Nat) : Nat :=
  if (s.md d).worn then 0 else s.obj (0x3180 + d) 1 * (s.md d).positions * granuleBytes

/-- The fault allowance: the reserve on the fullest channel, one sixteenth of the erased raw bytes (R229). -/
def State.allowance (s : State) (d : Nat) : Nat := s.erasedBytes d / 15 * 15 / 16

/-- The reclaim rate min(E, S / H) (R230). -/
def State.reclaimRate (s : State) (d : Nat) : Nat :=
  min (s.obj (0x3188 + d) 1) (s.obj (0x3188 + d) 2 / max 1 (s.obj 0x3011 0))

/-- A target holds a place in a stripe group, by its code in 0x3500 (1 and 3). -/
def State.activeTarget (s : State) (d c ce : Nat) : Bool :=
  s.obj (0x3500 + 8 * c + d) (ce + 1) = 1 || s.obj (0x3500 + 8 * c + d) (ce + 1) = 3

/-- The active targets of one channel, and of a die. -/
def State.channelTargets (s : State) (d c : Nat) : Nat := ((List.range 16).filter fun ce => s.activeTarget d c ce).length
def State.activeTargets (s : State) (d : Nat) : Nat := sum ((List.range 16).map fun c => s.channelTargets d c)

/-- The data bytes of one native program operation (R253). -/
def Population.programBytes (p : Population) : Nat := p.planes * p.pageBytes * (if p.cellType = 2 then 4 else 3)

/-- The program rate of a target: the bytes of one native program over the mean of its last 1,024 programs, the profile's typical
time standing in until there are as many (R253). -/
def MediaDie.targetRate (m : MediaDie) (c ce : Nat) : Nat :=
  match m.population with
  | none => 0
  | some p =>
    let times := tgetD m.programTimes (16 * c + ce) []
    if times.length < 1024 then Population.programBytes p * 1000000 / max 1 p.programUs
    else Population.programBytes p * 1000000000 * times.length / max 1 (sum times)

/-- The program rates of a channel's targets that hold a place in a stripe group. -/
def State.channelRate (s : State) (d c : Nat) : Nat :=
  sum ((List.range 16).map fun ce => if s.activeTarget d c ce then (s.md d).targetRate c ce else 0)

/-- The data rate of a die: 15/16 of the sum of the program rates of its targets that hold a place in a stripe group (R253). -/
def State.dataRate (s : State) (d : Nat) : Nat := sum ((List.range 16).map (s.channelRate d)) * 15 / 16

/-- The write ceiling of a die: 6 GB/s or its data rate, 0 for a die that takes no data (R143, R252). -/
def State.ceiling (s : State) (d : Nat) : Nat :=
  if !s.healthy d ∨ 1 < s.obj (0x3468 + d) 0 then 0 else min 6000000000 (s.dataRate d)

/-- The reserve, allowance and reclaim figures of 0x2808 + d are brought up to date. -/
def State.reportReserve (s : State) (d : Nat) : State :=
  ((s.setObj (0x2808 + d) 1 (s.erasedBytes d)).setObj (0x2808 + d) 2 (s.allowance d)).setObj (0x2808 + d) 3 (s.reclaimRate d)

/-- The erase capability of a die (R230): the data bytes of the blocks that its targets, each erasing one after another, erase in a second, from the mean of the
last 1,024 erase times measured, the profile's typical time standing in until there is one. -/
def State.eraseRate (s : State) (d : Nat) : Nat :=
  let m := s.md d
  match m.population with
  | none => s.obj (0x3188 + d) 1
  | some p =>
    let blocks := s.activeTargets d * p.planes * p.pageBytes * p.pagesPerBlock
    let n := m.eraseTimes.length
    (if n = 0 then blocks * 1000000 / max 1 p.eraseUs else blocks * 1000000000 * n / max 1 (sum m.eraseTimes)) * 15 / 16

/-- The erase capability is brought up to date, with the figures that follow from it. -/
def State.reportErase (s : State) (d : Nat) : State := (s.setObj (0x3188 + d) 1 (s.eraseRate d)).reportReserve d

/-- An erase's time is measured (R230). -/
def State.recordErase (s : State) (d ns : Nat) : State :=
  let m := s.md d
  let times := (m.eraseTimes ++ [ns]).drop (m.eraseTimes.length + 1 - 1024)
  ((s.setMd d { m with eraseTimes := times }).setObj (0x3458 + d) 2 (sum times / times.length / 1000)).reportErase d

/-! ### Read thresholds (R222) -/

/-- The age bin of a read, from the age in seconds. -/
def ageBin (age : Nat) : Nat :=
  if age < 3600 then 0 else if age < 86400 then 1 else if age < 604800 then 2 else if age < 2592000 then 3
  else if age < 7776000 then 4 else if age < 15552000 then 5 else if age < 31536000 then 6 else 7

/-- The ΔT bin of a read, from the difference in °C. -/
def dtBin (dt : Int) : Nat := if dt ≤ -30 then 0 else if dt ≤ -10 then 1 else if dt ≤ 9 then 2 else if dt ≤ 29 then 3 else 4

/-- The quarter of the rated cycle count in which a block's PEC lies. -/
def pecBand (pec rated : Nat) : Nat := min 3 (4 * pec / max 1 rated)

/-- The write stamp of a member of a block stripe. -/
def MediaDie.block (m : MediaDie) (stripe channel : Nat) : Block := tgetD m.maps.blocks (m.keyOf stripe channel) (Block.erased stripe)

def MediaDie.birth (m : MediaDie) (stripe channel : Nat) : Birth := tgetD m.births (m.keyOf stripe channel) Birth.none

/-- The present hottest sensor of a channel's sensor group, in °C. -/
def State.channelTemp (s : State) (d c : Nat) : Int := (s.pd d).group (c / 8) / 10

/-- The four keys of a read's threshold table: MODE, PEC band, age bin and ΔT bin of the block it reads. -/
def State.readKeys (s : State) (d stripe channel : Nat) : Nat × Nat × Nat × Nat :=
  let b := (s.md d).birth stripe channel
  let rated := s.obj (0x3450 + d) (if b.mode = 0 then 8 else 7)
  (b.mode, pecBand b.pec rated, ageBin (s.dtimeS - b.stime), dtBin (s.channelTemp d channel - b.tprog / 10))

/-! ### Flash operations and their targets (R228, R240) -/

/-- Kinds of operations: a capture program, an erase, a background program, any background operation, a program of a power-loss commit, a read. -/
def OpKind.isCapture : OpKind → Bool
  | .frameSegment .. => true
  | _ => false
def OpKind.isErase : OpKind → Bool
  | .erase _ => true
  | _ => false
def OpKind.isBgProgram : OpKind → Bool
  | .mapPages _ => true
  | .rebuild _ _ phase => phase = 1
  | .parityChunk _ rank => rank.isSome
  | .copy _ _ _ _ _ _ verify => !verify
  | .hostWrite _ _ _ _ _ _ fold => fold = 1
  | _ => false
def OpKind.isRead : OpKind → Bool
  | .mergeRead .. => true
  | .read .. => true
  | .bgRead .. => true
  | .scrubRead .. => true
  | .copy _ _ _ _ _ _ verify => verify
  | .hostWrite _ _ _ _ _ _ fold => fold = 2
  | .rebuild _ _ phase => phase ≠ 1
  | _ => false
def OpKind.isBg (k : OpKind) : Bool :=
  k.isErase || k.isBgProgram || (match k with
    | .bgRead .. => true
    | .scrubRead .. => true
    | .copy .. => true
    | .rebuild .. => true
    | .hostWrite _ _ _ _ _ _ fold => fold ≠ 0
    | _ => false)
def OpKind.isCommit : OpKind → Bool
  | .commit _ => true
  | _ => false

/-- The die, block stripe and position of the granules that a read takes; the row mates of a member that a rebuild reads (R214). -/
def MediaDie.readsOf (m : MediaDie) (d : Nat) (o : FlashOp) : List (Nat × Nat × Nat) :=
  match o.kind with
  | .read _ _ from' _ _ _ => [(from', o.stripe, o.pos)]
  | .mergeRead _ _ _ src => src.map (·.2)
  | .bgRead _ _ _ _ from' src => src.map fun g => (from', g.2)
  | .copy _ _ _ _ _ dst true => dst.map fun g => (d, g.2)
  | .hostWrite _ _ _ _ coarse fine 2 =>
    match coarse with
    | some p => (List.range 512).map fun g => (d, p.1, p.2 + g)
    | none => fine.map fun g => (d, g.2)
  | .rebuild k c 0 => ((List.range (15 * max 1 m.pageGranules)).filter fun p => m.channelOf k p ≠ c).map fun p => (d, k, p)
  | _ => [(d, o.stripe, o.pos)]

/-- The blocks that a read of granules takes pages of, each with its first position: those of the granules themselves, and the rest of the row, or the other dies'
chunks, where a granule can only be reconstructed (R213, R217). -/
def State.blocksRead (s : State) (l : List (Nat × Nat × Nat)) : List (Nat × Nat × Nat × Nat) :=
  let of := fun (p : Nat × Nat × Nat) => (p.1, p.2.1, ((s.md p.1).channelOf p.2.1 p.2.2), p.2.2)
  let all := l.flatMap fun p =>
    match s.leastStep p.1 p.2.1 p.2.2 with
    | 1 => [of p]
    | 4 => ((s.md p.1).rowMates p.2.2).map fun q => of (p.1, p.2.1, q)
    | _ =>
      match (s.md p.1).chunkOf p.2.1 p.2.2 with
      | none => []
      | some c => (s.dies.filter fun e => e ≠ p.1).filterMap fun e =>
          ((tget (s.md e).chunks c.1).bind fun t => tget t c.2).map fun q => of (e, q.1, q.2)
  all.foldl (fun l x => if l.any fun y => y.1 = x.1 && y.2.1 = x.2.1 && y.2.2.1 = x.2.2.1 then l else l ++ [x]) []

/-- An operation is issued on its channel: a read with the four keys of every block that it takes pages of (R222). -/
def State.launch (s : State) (d : Nat) (o : FlashOp) : State :=
  let ce := fun (e stripe c : Nat) => (s.md e).ceOf c (stripe % max 1 (s.md e).groups)
  let read := fun (s : State) (b : Nat × Nat × Nat × Nat) =>
    let k := s.readKeys b.1 b.2.1 b.2.2.1
    s.emit (.flashRead b.1 b.2.2.1 (ce b.1 b.2.1 b.2.2.1) b.2.1 b.2.2.2 k.1 k.2.1 k.2.2.1 k.2.2.2)
  match o.kind with
  | .scrubRead .. => read s (d, o.stripe, o.channel, o.pos)
  | _ =>
    if o.kind.isRead then (s.blocksRead ((s.md d).readsOf d o)).foldl read s
    else s.emit (.flashCommand d o.channel (ce d o.stripe o.channel) (if o.kind.isErase then 2 else 1) o.stripe)

/-- Background erases that run on a stripe group's targets are suspended (R228). -/
def State.suspendErases (s : State) (d g : Nat) : State :=
  ((s.md d).ops.filter fun o => o.2.kind.isErase && o.2.group = g && !o.2.suspended && !o.2.waits).foldl (fun s o =>
    let m := s.md d
    (((s.setMd d { m with ops := tset m.ops o.1 { o.2 with suspended := true } }).bump (0x3598 + d) 0).emit
      (.flashCommand d o.2.channel (m.ceOf o.2.channel g) 4 o.2.stripe))) s

/-- The member of a block stripe for a data position, or the channel of the target that stands in for it (R214). -/
def MediaDie.memberOf (m : MediaDie) (stripe pos : Nat) : Nat :=
  let c := m.channelOf stripe pos
  match tget m.stripes stripe with
  | some x => tgetD x.donors c c
  | none => c

/-- A flash operation is issued. During a power-loss commit only the commit's own programs are (R240 steps 2 and 7). A capture program suspends
a background erase of its targets and waits for a background program of them; while it waits, no background operation is issued to
them (R228). -/
def State.issueOn (s : State) (d : Nat) (k : OpKind) (bytes stripe pos channel : Nat) : State :=
  if s.media.commitRunning ∧ !k.isCommit then s
  else
    let m := s.md d
    let g := ((tget m.stripes stripe).map (·.group)).getD 0
    let on := fun (f : FlashOp → Bool) => m.ops.any fun o => o.2.group = g && f o.2
    let waits := (k.isCapture && on fun o => o.kind.isBgProgram && !o.waits) || (k.isBg && on fun o => o.kind.isCapture && o.waits)
    let o : FlashOp := ⟨k, channel, g, bytes, stripe, pos, s.time.now, false, waits⟩
    let s1 := s.setMd d { m with ops := tset m.ops m.nextOp o, nextOp := m.nextOp + 1 }
    if waits then s1
    else if k.isCapture then (s1.suspendErases d g).launch d o
    else s1.launch d o

/-- A flash operation at a data position. -/
def State.issueOp (s : State) (d : Nat) (k : OpKind) (bytes stripe pos : Nat) : State :=
  s.issueOn d k bytes stripe pos ((s.md d).memberOf stripe pos)

/-- An operation that waited is issued. -/
def State.wake (s : State) (d : Nat) (o : Nat × FlashOp) : State :=
  let m := s.md d
  let o' := { o.2 with waits := false, issued := s.time.now }
  let s1 := s.setMd d { m with ops := tset m.ops o.1 o' }
  (if o'.kind.isCapture then s1.suspendErases d o'.group else s1).launch d o'

/-- The targets of a stripe group after an operation of theirs has ended: capture programs that waited are issued, then background
operations that waited for those, and suspended erases resume when no capture program holds the targets (R228). -/
def State.settleTarget (s : State) (d g : Nat) : State :=
  let waiting := fun (s : State) (f : OpKind → Bool) => (s.md d).ops.filter fun o => o.2.group = g && o.2.waits && f o.2.kind
  let running := fun (s : State) (f : OpKind → Bool) => (s.md d).ops.any fun o => o.2.group = g && !o.2.waits && f o.2.kind
  let s1 := if running s OpKind.isBgProgram then s else (waiting s OpKind.isCapture).foldl (fun s o => s.wake d o) s
  let s2 := if (waiting s1 OpKind.isCapture).isEmpty then (waiting s1 OpKind.isBg).foldl (fun s o => s.wake d o) s1 else s1
  if running s2 OpKind.isCapture then s2
  else
    ((s2.md d).ops.filter fun o => o.2.group = g && o.2.suspended).foldl (fun s o =>
      let m := s.md d
      (s.setMd d { m with ops := tset m.ops o.1 { o.2 with suspended := false } }).emit (.flashCommand d o.2.channel (m.ceOf o.2.channel g) 5 o.2.stripe)) s2

/-- The state without an operation in flight; its targets go on. -/
def State.endOp (s : State) (d op : Nat) : State :=
  let m := s.md d
  match tget m.ops op with
  | none => s
  | some o => (s.setMd d { m with ops := tdel m.ops op }).settleTarget d o.group

/-! ### Background work that waits (R224, R226) -/

/-- Two works are about the same thing. -/
def BgWork.same (x y : BgWork) : Bool := x.kind == y.kind && x.nsid == y.nsid && x.unit == y.unit && x.source == y.source

/-- A list of works with one more: queued once, a later trigger of higher priority moves it up. -/
def joinBg (l : List BgWork) (w : BgWork) : List BgWork :=
  match l.find? w.same with
  | some x => if w.rank < x.rank then l.map fun y => if w.same y then { y with rank := w.rank } else y else l
  | none => l ++ [w]

/-- Background work is queued. -/
def State.queueBg (s : State) (d : Nat) (w : BgWork) : State :=
  let m := s.md d
  s.setMd d { m with bg := joinBg m.bg w }

/-! ### The seep (R227) -/

/-- Takes that are admitted, open or closing draw on the margin of their dies. -/
def State.takesDraw (s : State) : Bool := s.take.takes.any fun t => t.state = 1 || t.state = 4 || t.state = 5

/-- The minimum seep of an epoch in bytes, within the budget. -/
def State.minSeep (s : State) (d : Nat) : Nat := min (s.obj (0x3190 + d) 1) (s.obj 0x2222 1 * 1000000 * s.periodNs / 1000000000)

/-- What background work of a die may use of its budget now: all of it outside takes; in a take first the minimum seep, and beyond it what the
host writes of the epoch and those that wait leave. -/
def State.bgLimit (s : State) (d : Nat) : Nat :=
  if s.takesDraw then
    (if (s.md d).heldBack then s.minSeep d else max (s.minSeep d) (s.obj (0x3190 + d) 1 - (s.md d).hostBytes))
  else s.obj (0x3190 + d) 1

/-- The seep window of a die: phase 0x3009 for 0x300A phase units. -/
def State.inSeep (s : State) (d : Nat) : Bool := s.inWindow d (s.obj 0x3009 0) (s.obj 0x300A 0)

/-- A die may issue background work: its window is open, budget is left, and no power-loss commit runs. -/
def State.seepOpen (s : State) (d : Nat) : Bool :=
  s.inSeep d && s.obj (0x3190 + d) 2 < s.bgLimit d && !s.media.commitRunning && !(s.md d).halted

/-- The rank of a background operation (R226). -/
def OpKind.rank : OpKind → Nat
  | .copy rank .. => rank
  | .bgRead rank .. => rank
  | .erase _ => 4
  | .mapPages _ => 3
  | .scrubRead .. => 10
  | .rebuild .. => 1
  | .parityChunk _ rank => rank.getD 9
  | _ => 9

/-- What an operation of b bytes charges: a program and an erase b, a read b/4. -/
def OpKind.charge (k : OpKind) (bytes : Nat) : Nat := if k.isRead then bytes / 4 else bytes

/-- The seep budget and the bytes of a rank are charged. -/
def State.chargeSeep (s : State) (d : Nat) (k : OpKind) (bytes : Nat) : State :=
  (s.addObj (0x3190 + d) 2 (k.charge bytes)).addObj (0x3198 + d) k.rank (k.charge bytes)

/-- A background operation is issued and charged, or waits for the next window or budget. -/
def State.bgOn (s : State) (d : Nat) (k : OpKind) (bytes stripe pos channel : Nat) : State :=
  if s.seepOpen d then (s.chargeSeep d k bytes).issueOn d k bytes stripe pos channel
  else
    let m := s.md d
    s.setMd d { m with later := m.later ++ [⟨k, channel, 0, bytes, stripe, pos, 0, false, false⟩] }

/-- A background operation at a data position. -/
def State.bgOp (s : State) (d : Nat) (k : OpKind) (bytes stripe pos : Nat) : State :=
  s.bgOn d k bytes stripe pos ((s.md d).memberOf stripe pos)

/-! ### Block stripes (R198, R199, R213, R221, R262) -/

/-- The stripe numbers of a die's data stripes. -/
def MediaDie.stripeCount (m : MediaDie) : Nat :=
  (m.population.map fun p => p.blocksPerPlane * max 1 m.groups).getD (m.stripes.length + 1)

/-- A stripe is not in use: nothing of it is programmed, and it is not set aside. -/
def MediaDie.idle (m : MediaDie) (k : Nat) : Bool :=
  match tget m.stripes k with
  | some x => x.state = 1 && !x.slc
  | none => true

/-- A block serves: it is not retired (R233, R263). -/
def MediaDie.sound (m : MediaDie) (key : Nat) : Bool := ((tget m.maps.blocks key).map (·.state)).getD 0 ≠ 4

/-- The blocks of one target that members of other stripes, or of other channels, use. -/
def MediaDie.lent (m : MediaDie) (group block channel : Nat) : Bool :=
  m.swaps.any fun e => e.2 = (block, channel) && e.1 / 16 % max 1 m.groups = group

/-- A block that takes the place of a member's on a channel: a sound one of the same stripe group, of the highest stripe that is not in use. -/
def MediaDie.standIn (m : MediaDie) (stripe channel : Nat) : Option Nat :=
  let n := max 1 m.groups
  let g := stripe % n
  (((List.range m.stripeCount).reverse.filter fun j => j % n = g && j ≠ stripe && m.idle j).map (· / n)).find? fun b =>
    m.sound (blockKey b (m.ceOf channel g) channel) && !m.lent g b channel

/-- The blocks of a stripe about to be opened, for the members whose own block does not serve or whose channel another one replaces; none where a member
has no block left. -/
def MediaDie.membersOf (m : MediaDie) (stripe : Nat) (donors : Tab Nat) : Option (Tab (Nat × Nat)) :=
  let g := stripe % max 1 m.groups
  let own := stripe / max 1 m.groups
  (List.range 16).foldl (fun (a : Option (Tab (Nat × Nat))) c => a.bind fun t =>
    let x := tgetD donors c c
    let now := m.blockOf stripe c
    let fits := fun (q : Nat × Nat) => q.2 = x && m.sound (blockKey q.1 (m.ceOf x g) x)
    if fits now && (now ≠ (own, c) || !m.lent g own c) then some (if now = (own, c) then t else tset t (16 * stripe + c) now)
    else (({ m with swaps := m.swaps ++ t } : MediaDie).standIn stripe x).map fun b => tset t (16 * stripe + c) (b, x)) (some [])

/-- The lowest idle stripe number whose members all have a block. -/
def MediaDie.nextStripe (m : MediaDie) (donors : Nat → Tab Nat) : Nat :=
  let n := max 1 m.groups
  let idle := (List.range m.stripeCount).filter m.idle
  (idle.find? fun k => (m.membersOf k (donors (k % n))).isSome).getD (idle.headD m.stripeCount)

/-- The block table's entries of every member of a stripe take a state and the stripe's FLAGS, bit 1 degraded and bit 2 parity member; RDCNT counts from the first program
after an erase; the records follow (R208, R221). -/
def State.setBlocks (s : State) (d stripe state : Nat) : State :=
  (List.range 16).foldl (fun s c =>
    let m := s.md d
    let b := m.block stripe c
    if b.state = 4 then s
    else
      let x := tget m.stripes stripe
      let degraded := (x.map (·.degraded)).getD false
      let base := if (x.map (·.used)).getD 0 = 0 then Block.erased stripe else b
      let b' : Block := if state = 1 then Block.erased stripe
        else { base with stripe := stripe, state := state, flags := base.flags % 2 + 2 * b2n degraded + 4 * b2n (stripe % 16 = c) }
      s.logMap d 6 0 1 0 (blockAddress d (m.keyOf stripe c)) b'.word 0) s

/-- The blocks of a stripe's members are chosen anew as it is opened: those that are not its own are noted. -/
def State.chooseBlocks (s : State) (d stripe : Nat) (donors : Tab Nat) : State :=
  let m := s.md d
  match m.membersOf stripe donors with
  | some t => s.setMd d { m with swaps := t.foldl (fun t e => tset t e.1 e.2) (m.swaps.filter fun e => e.1 / 16 ≠ stripe) }
  | none => s

/-- The first program after an erase stamps every member of a stripe: STIME, TPROG, MODE; PEC is that of the erase (R221). -/
def State.stampStripe (s : State) (d stripe mode : Nat) : State :=
  (List.range 16).foldl (fun s c =>
    let m := s.md d
    let b : Birth := ⟨s.dtimeS, (s.pd d).group (c / 8), mode, (m.birth stripe c).pec⟩
    s.setMd d { m with births := tset m.births (m.keyOf stripe c) b }) s

/-- Channels of a stripe group whose target holds no place any more or is being reset, each with the healthy channel that stands in: the one with the most erased
blocks, which is the one with the fewest bad ones (R214). -/
def State.donorsOf (s : State) (d g : Nat) : Tab Nat :=
  let m := s.md d
  let gone := (List.range 16).filter fun c => (tget m.resetting (16 * c + m.ceOf c g)).isSome || s.obj (0x3500 + 8 * c + d) (m.ceOf c g + 1) = 4
  let bad := fun (c : Nat) => sum ((List.range 16).map fun ce => tgetD m.badBlocks (16 * c + ce) 0)
  let sound := (List.range 16).filter fun c => s.obj (0x3480 + 8 * c + d) 1 ≠ 2 && !gone.contains c
  let best := sound.foldl (fun (b : Option Nat) c => match b with
    | some x => if bad c < bad x then some c else some x
    | none => some c) none
  gone.filterMap fun c => best.map fun x => (c, x)

/-- The block stripes that a die can form (R199, R214, R233): in each stripe group as many as the target with the fewest good blocks has, and half of those of a
target that stands in for another. -/
def State.formable (s : State) (d : Nat) : Nat :=
  let m := s.md d
  match m.population with
  | none => 0
  | some p =>
    sum ((List.range m.groups).map fun g =>
      let donors := s.donorsOf d g
      let good := fun (c : Nat) =>
        let n := p.blocksPerPlane - tgetD m.badBlocks (16 * c + m.ceOf c g) 0
        if donors.any fun e => e.2 = c then n / 2 else n
      (((List.range 16).filter fun c => (tget donors c).isNone).map good).foldl Nat.min p.blocksPerPlane)

/-- The count of erased block stripes follows the stripes that the die can form. -/
def State.reform (s before : State) (d : Nat) : State :=
  let lost := before.formable d - s.formable d
  if lost = 0 then s else (s.setObj (0x3180 + d) 1 (s.obj (0x3180 + d) 1 - lost)).reportReserve d

/-- A block stripe is opened from the erased ones, of sound blocks, with its write stamps. -/
def State.openStripe (s : State) (d : Nat) (fine : Bool) : State × Nat :=
  let m := s.md d
  let n := m.nextStripe (s.donorsOf d)
  let g := n % max 1 m.groups
  let donors := s.donorsOf d g
  let st : Stripe := ⟨g, 0, m.positions, fine, 0, 2, !donors.isEmpty, false, donors, [], 0, s.dtimeS⟩
  let m' := { m with stripes := tset m.stripes n st
                     openCoarse := if fine then m.openCoarse else some n
                     openFine := if fine then some n else m.openFine }
  let s1 := (((s.setMd d m').chooseBlocks d n donors).stampStripe d n ((m.population.map (·.cellType)).getD 1)).setBlocks d n 2
  ((s1.setObj (0x3180 + d) 1 (s1.obj (0x3180 + d) 1 - 1)).reportReserve d, n)

/-- Rank 4 work for a stripe that holds nothing valid: its erase (R226, R229). -/
def State.awaitErase (s : State) (d stripe : Nat) (x : Stripe) : State :=
  let bytes := x.size * granuleBytes
  let s1 := s.queueBg d ⟨4, 3, 0, stripe, bytes, none⟩
  if x.slc then s1 else ((s1.bump (0x3180 + d) 2).addObj (0x3188 + d) 2 bytes).reportReserve d

/-- Positions of a stripe become invalid; a closed stripe with none valid awaits erase. -/
def State.invalidate (s : State) (d stripe n : Nat) : State :=
  let m := s.md d
  match tget m.stripes stripe with
  | none => s
  | some x =>
    let x' := { x with valid := x.valid - n }
    let s1 := s.setMd d { m with stripes := tset m.stripes stripe x' }
    if x'.valid = 0 ∧ x.valid ≠ 0 ∧ x.state = 3 then s1.awaitErase d stripe x' else s1

/-- A stripe closes; positions that nothing takes are filler (R199, R259). -/
def State.closeStripe (s : State) (d k : Nat) : State :=
  let m := s.md d
  match tget m.stripes k with
  | none => s
  | some x =>
    if x.state ≠ 2 then s
    else
      let off := fun (o : Option Nat) => if o = some k then none else o
      let m' := { m with stripes := tset m.stripes k { x with state := 3, used := x.size }, openCoarse := off m.openCoarse
                         openFine := off m.openFine, leftover := m.leftover.filter (· ≠ k), openSlc := off m.openSlc }
      let s0 := (List.range (x.size - x.used)).foldl (fun s i => s.putCodeword d k (x.used + i) 4 0 (zeros 4096)) (s.setMd d m')
      let s1 := s0.setBlocks d k (if x.slc then 5 else 3)
      if x.valid = 0 then s1.awaitErase d k { x with state := 3 } else s1

/-- Room of a stripe in data positions. -/
def MediaDie.room (m : MediaDie) (k : Option Nat) : Nat :=
  match k.bind fun k => tget m.stripes k with
  | some x => x.size - x.used
  | none => 0

/-- Positions of a stripe are taken; a full stripe closes. -/
def State.takePositions (s : State) (d k n : Nat) : State × Nat × Nat :=
  let m := s.md d
  match tget m.stripes k with
  | none => (s, k, 0)
  | some x =>
    let s1 := s.setMd d { m with stripes := tset m.stripes k { x with used := x.used + n, valid := x.valid + n } }
    (if x.size ≤ x.used + n then s1.closeStripe d k else s1, k, x.used)

/-- Fine units wait on a die: staged writes of fine-mapped units that have no positions yet (R199). -/
def MediaDie.fineWaits (m : MediaDie) : Bool := m.staged.any fun u => u.phase ≠ 2 && (m.entry (cuKey u.nsid u.unit)).state = 2

/-- The open coarse stripe has no room for a placement: its positions take waiting fine units, or filler where none waits (R199). -/
def State.retireCoarse (s : State) (d k : Nat) : State :=
  let m := s.md d
  if m.fineWaits ∧ m.room (some k) ≠ 0 then s.setMd d { m with openCoarse := none, leftover := m.leftover ++ [k] } else s.closeStripe d k

/-- 512 data positions for a coarse placement: in the open stripe, or in a new one. -/
def State.allocateCoarse (s : State) (d : Nat) : State × Nat × Nat :=
  match (s.md d).openCoarse with
  | some k =>
    if 512 ≤ (s.md d).room (some k) then s.takePositions d k 512
    else
      let x := (s.retireCoarse d k).openStripe d false
      x.1.takePositions d x.2 512
  | none =>
    let x := s.openStripe d false
    x.1.takePositions d x.2 512

/-- One data position of the fine log: left over in a coarse stripe, in the open fine stripe, or in a new one (R199, R201). -/
def State.allocateFine (s : State) (d : Nat) : State × Nat × Nat :=
  let m := s.md d
  match m.leftover with
  | k :: _ => s.takePositions d k 1
  | [] =>
    match m.openFine with
    | some k => s.takePositions d k 1
    | none =>
      let x := s.openStripe d true
      x.1.takePositions d x.2 1

/-- Positions of the fine log for granules, in order of arrival. -/
def State.allocateEach (s : State) (d : Nat) (gs : List Nat) : State × Tab (Nat × Nat) :=
  gs.foldl (fun (a : State × Tab (Nat × Nat)) g =>
    let x := a.1.allocateFine d
    (x.1, a.2 ++ [(g, x.2)])) (s, [])

/-- An erased SLC stripe of the staging region is opened (R262). -/
def State.openSlcStripe (s : State) (d : Nat) : Option (State × Nat) :=
  let m := s.md d
  (m.stripes.find? fun e => e.2.slc && e.2.state = 1).map fun e =>
    let donors := s.donorsOf d e.2.group
    let x := { e.2 with state := 2, used := 0, valid := 0, lost := [], donors := donors, degraded := !donors.isEmpty }
    let m' := { m with stripes := tset m.stripes e.1 x, openSlc := some e.1 }
    ((((s.setMd d m').chooseBlocks d e.1 donors).stampStripe d e.1 0).setBlocks d e.1 5, e.1)

/-- One data position of the SLC staging region; none where nothing of it is erased. -/
def State.allocateSlc (s : State) (d : Nat) : Option (State × Nat × Nat) :=
  match (s.md d).openSlc with
  | some k => some (s.takePositions d k 1)
  | none => (s.openSlcStripe d).map fun x => x.1.takePositions d x.2 1

/-- A journal stripe with room for n data positions: the one in use, or the next erased one (R208, R211). -/
def MediaDie.journalRoom (m : MediaDie) (n : Nat) : Option Nat :=
  let free := fun (e : Nat × Stripe) => e.2.state = 6 && e.2.used = 0
  match m.journalAt with
  | some k => if n ≤ m.room (some k) then some k else (m.stripes.find? free).map (·.1)
  | none => (m.stripes.find? free).map (·.1)

/-- Positions of the journal for records up to a sequence number; none where no journal stripe is erased. -/
def State.allocateJournal (s : State) (d n upTo : Nat) : Option (State × Nat × Nat) :=
  let m := s.md d
  (m.journalRoom n).bind fun k => (tget m.stripes k).map fun x =>
    let donors := s.donorsOf d x.group
    let first : Bool := x.used = 0
    let x' := { x with used := x.used + n, donors := if first then donors else x.donors, degraded := if first then !donors.isEmpty else x.degraded }
    let m' := { m with stripes := tset m.stripes k x', journalAt := some k, journalSpan := tset m.journalSpan k upTo }
    let s1 := s.setMd d m'
    (if first then (s1.chooseBlocks d k donors).stampStripe d k 0 else s1, k, x.used)

/-- Erased bytes of the SLC staging region (R262). -/
def State.slcErased (s : State) (d : Nat) : Nat :=
  granuleBytes * sum ((s.md d).stripes.map fun e => if !e.2.slc then 0 else if e.2.state = 1 then e.2.size else if e.2.state = 2 then e.2.size - e.2.used else 0)

/-- The figure of 0x3478 + d:02. -/
def State.reportSlc (s : State) (d : Nat) : State := s.setObj (0x3478 + d) 2 (s.slcErased d)

/-- Room for n data positions of a kind without another erase. -/
def State.hasRoom (s : State) (d : Nat) (fine : Bool) (n : Nat) : Bool :=
  let m := s.md d
  0 < s.obj (0x3180 + d) 1 || n ≤ m.room (if fine then m.leftover.head?.or m.openFine else m.openCoarse)

/-! ### Spares, retired blocks and worn dies (R233, R234, R237) -/

/-- A die that has not failed has a degraded stripe group (R214). -/
def State.degraded (s : State) (d : Nat) : Bool := !s.fault.failed.contains d && s.obj (0x3148 + d) 2 ≠ 0

/-- The state of a die for the health logs: 0 normal, 1 degraded, 2 worn, 3 failed. -/
def State.mediaState (s : State) (d : Nat) : Nat :=
  if s.fault.failed.contains d then 3 else if (s.md d).worn then 2 else if s.degraded d then 1 else 0

/-- Available spare of a die, percent. -/
def State.availableSpare (s : State) (d : Nat) : Nat :=
  if (s.md d).spareFirst = 0 then 100 else s.obj (0x3160 + d) 1 * 100 / (s.md d).spareFirst

/-- General namespaces with data on a worn die become write-protected (R237). -/
def State.protectWorn (s : State) (d : Nat) : State :=
  let hit := s.host.nss.filter fun n => n.2.kind = 0 && !n.2.wp && n.2.units.any fun u => u.2 = d
  let s1 := { s with host := { s.host with nss := s.host.nss.map fun n =>
    (n.1, if n.2.kind = 0 && n.2.units.any (fun u => u.2 = d) then { n.2 with wp := true } else n.2) } }
  hit.foldl (fun s n => s.raise (evPkg 16) n.1) s1

/-- A die whose spare blocks fall below 0x3012 times its target count becomes worn (R237). -/
def State.checkWorn (s : State) (d : Nat) : State :=
  let m := s.md d
  if m.worn ∨ s.obj 0x3012 0 * s.activeTargets d ≤ s.obj (0x3160 + d) 1 then s
  else (((s.setMd d { m with worn := true }).raise (evDie d 57) 0).protectWorn d).reportReserve d

/-- The available spare of a die falls below the threshold: EV d.056 (R234). -/
def State.checkSpare (s before : State) (d : Nat) : State :=
  if before.obj 0x3013 0 ≤ before.availableSpare d ∧ s.availableSpare d < s.obj 0x3013 0 then s.raise (evDie d 56) (s.availableSpare d) else s

/-! ### Targets (R214, R263, R264) -/

/-- The code of a target in 0x3500. -/
def State.targetCode (s : State) (d c ce : Nat) : Nat := s.obj (0x3500 + 8 * c + d) (ce + 1)

/-- The first hot-spare target left on a channel. -/
def State.spareOn (s : State) (d c : Nat) : Option Nat := (List.range 16).find? fun ce => s.targetCode d c ce = 2

/-- New rows avoid a stripe group: its open stripes close, and the next stripe opened takes its targets as they then stand (R264). -/
def State.closeGroup (s : State) (d g : Nat) : State :=
  ((s.md d).stripes.filter fun e => e.2.state = 2 && e.2.group = g && !e.2.slc).foldl (fun s e => s.closeStripe d e.1) s

/-- Where the next program of a power-loss commit goes: the open stripe of the SLC staging region, or its first erased one (R240). -/
def MediaDie.commitStripe (m : MediaDie) : Nat :=
  (m.openSlc.or ((m.stripes.find? fun e => e.2.slc && e.2.state = 1).map (·.1))).getD 0

/-- New positions for a program whose data is still held (R233, R264). -/
def State.reprogram (s : State) (d : Nat) (o : FlashOp) : State :=
  match o.kind with
  | .frameSegment nsid take spring frame bytes places =>
    let r := places.foldl (fun (a : State × List (Nat × Nat × Nat)) p =>
      let x := (a.1.invalidate d p.2.1 512).allocateCoarse d
      (x.1, a.2 ++ [(p.1, x.2)])) (s, [])
    let first := (r.2.headD (0, 0, 0)).2
    r.1.issueOp d (.frameSegment nsid take spring frame bytes r.2) o.bytes first.1 first.2
  | .hostWrite nsid unit heat promote coarse fine fold =>
    let issue := fun (s : State) => if fold = 0 then s.issueOp d else s.bgOp d
    match coarse with
    | some p =>
      let x := (s.invalidate d p.1 512).allocateCoarse d
      issue x.1 (.hostWrite nsid unit heat promote (some x.2) fine fold) o.bytes x.2.1 x.2.2
    | none =>
      let x := (fine.foldl (fun s g => s.invalidate d g.2.1 1) s).allocateEach d (fine.map (·.1))
      let first := (x.2.headD (0, 0, 0)).2
      issue x.1 (.hostWrite nsid unit heat promote none x.2 fold) o.bytes first.1 first.2
  | .copy rank nsid unit from' src dst _ =>
    if dst.length = 512 then
      let p := (dst.headD (0, 0, 0)).2
      let x := (s.invalidate d p.1 512).allocateCoarse d
      x.1.bgOp d (.copy rank nsid unit from' src ((List.range 512).map fun g => (g, (x.2.1, x.2.2 + g))) false) o.bytes x.2.1 x.2.2
    else
      let x := (dst.foldl (fun s g => s.invalidate d g.2.1 1) s).allocateEach d (dst.map (·.1))
      let first := (x.2.headD (0, 0, 0)).2
      x.1.bgOp d (.copy rank nsid unit from' src x.2 false) o.bytes first.1 first.2
  | .parityChunk k rank =>
    let x := (s.invalidate d o.stripe 512).allocateCoarse d
    (if rank.isSome then x.1.bgOp d else x.1.issueOp d) (.parityChunk k rank) o.bytes x.2.1 x.2.2
  | .mapPages pages =>
    let x := (pages.foldl (fun s g => s.invalidate d g.2.1 1) s).allocateEach d (pages.map (·.1))
    let first := (x.2.headD (0, 0, 0)).2
    x.1.bgOp d (.mapPages x.2) o.bytes first.1 first.2
  | .journal upTo =>
    match s.allocateJournal d (ceilDiv o.bytes granuleBytes) upTo with
    | some x => x.1.issueOp d (.journal upTo) o.bytes x.2.1 x.2.2
    | none => s
  | .commit bytes => s.issueOp d (.commit bytes) o.bytes (s.md d).commitStripe 0
  | .rebuild k c _ => s.queueBg d ⟨1, 12, 0, 16 * k + c, o.bytes, none⟩
  | k => s.issueOp d k o.bytes o.stripe o.pos

/-- Programs in flight on a stripe group whose target has failed go elsewhere: the data is still held; its erases are given up (R264). -/
def State.reissue (s : State) (d g : Nat) : State :=
  ((s.md d).ops.filter fun o => o.2.group = g && !o.2.kind.isRead).foldl (fun s o =>
    let m := s.md d
    let s1 := s.setMd d { m with ops := tdel m.ops o.1 }
    match o.2.kind with
    | .erase k => s1.queueBg d ⟨4, 3, 0, k, o.2.bytes, none⟩
    | _ => s1.reprogram d o.2) s

/-- The block stripes of a group lose the member that stood on a target: what it holds is reconstructed until it is rebuilt; with no spare the stripes are
degraded, and the stamps of their blocks say so (R213, R214, R221). -/
def State.loseMember (s : State) (d c g : Nat) (degraded : Bool) : State :=
  let m := s.md d
  let hit := fun (x : Stripe) => x.group = g && x.state ≠ 1 && (x.state ≠ 6 || x.used ≠ 0)
  let lose := fun (x : Stripe) =>
    let gone := (List.range 16).filter fun k => tgetD x.donors k k = c && !x.lost.contains k
    { x with lost := x.lost ++ gone, degraded := x.degraded || degraded }
  let changed := (m.stripes.filter fun e => hit e.2 && degraded && !e.2.degraded).map fun e => (e.1, e.2.state, e.2.slc)
  let s1 := s.setMd d { m with stripes := m.stripes.map fun (e : Nat × Stripe) => (e.1, if hit e.2 then lose e.2 else e.2) }
  changed.foldl (fun s e => s.setBlocks d e.1 (if e.2.2 ∧ e.2.1 ≠ 6 then 5 else e.2.1)) s1

/-- A target fails: a hot spare of its channel takes its place, or its stripe group becomes degraded; the data is
rebuilt as rank 1 work (R214). -/
def State.failOne (s : State) (d c ce : Nat) : State :=
  let code := s.targetCode d c ce
  if code ≠ 1 ∧ code ≠ 3 ∧ code ≠ 2 then s
  else
    let m := s.md d
    let i := 0x3500 + 8 * c + d
    let s0 := ({ s with take := { s.take with faulted := true } } : State).setMd d
      { m with lastFail := tset m.lastFail (16 * c + ce) s.time.now, resetting := tdel m.resetting (16 * c + ce) }
    let s1 := ((s0.setObj i (ce + 1) 4).bump (0x3158 + d) 0).raise (evDie d 53) (16 * c + ce)
    if code = 2 then s1.setObj (0x3150 + d) 1 (s1.obj (0x3150 + d) 1 - 1)
    else
      let g := (m.groupOf c ce).getD ce
      let s2 := (if code = 3 then s1.setObj (0x3150 + d) 2 (s1.obj (0x3150 + d) 2 - 1) else s1).closeGroup d g
      let s3 := match s2.spareOn d c with
        | some h =>
          let m2 := s2.md d
          let t := (s2.setMd d { m2 with place := tset m2.place (16 * c + g) h }).loseMember d c g false
          ((((t.setObj i (h + 1) 3).setObj (0x3150 + d) 1 (t.obj (0x3150 + d) 1 - 1)).bump (0x3150 + d) 2).countSpare d 8).raise (evDie d 54) (16 * c + h)
        | none =>
          let old : Bool := (List.range 16).any fun x => x ≠ c && s2.targetCode d x (m.ceOf x g) = 4
          let t := s2.loseMember d c g true
          if old then t else (t.bump (0x3148 + d) 2).raise (evDie d 55) g
      let work : BgWork := ⟨1, 0, 0, 16 * c + g, s3.obj (0x3100 + d) 0 / max 1 (s3.activeTargets d), none⟩
      ((((s3.queueBg d work).reissue d g).reform s d).reportErase d).interrupt d 1 1000

/-- A channel fails: its hot spares and every other target on it fail, with EV d.066, and every stripe group of the die is degraded (R265, R266). -/
def State.failChannel (s : State) (d c : Nat) : State :=
  let s1 := ((s.setObj (0x3480 + 8 * c + d) 1 2).bump 0x340A 3).raise (evDie d 66) c
  let (spares, rest) := (List.range 16).partition fun ce => s.targetCode d c ce = 2
  let s2 := (spares ++ rest).foldl (fun s ce => s.failOne d c ce) s1
  (s2.setObj (0x3148 + d) 2 (s2.obj (0x3148 + d) 1)).interrupt d 2 1000

/-- The ladder of data rates (R256). -/
def rateLadder : List Nat := [3600, 3200, 2800, 2400, 2000, 1600]

/-- How a channel settles (R256 steps 5 to 7): the highest rung within the cap that the part supports and whose eye margin reaches the
threshold, its margin, and the rungs tried; rate 0 where none does. `margins` has the margin at each rung. -/
def settledRate (supported cap threshold : Nat) (margins : List Nat) : Nat × Nat × Nat :=
  let rungs := (rateLadder.zipIdx.filter fun r => r.1 ≤ min supported cap).map fun r => (r.1, margins.getD r.2 0)
  let bad := (rungs.takeWhile fun r => r.2 < threshold).length
  match rungs[bad]? with
  | some r => (r.1, r.2, bad + 1)
  | none => (0, (rungs.getLast?.map (·.2)).getD 0, bad)

/-- A channel trains from step 5 of R256 within a rate cap: its rate and margin settle again, and each rung tried is a training; one that fails at 1,600 MT/s has failed
(R265). -/
def State.trainAt (s : State) (d c cap : Nat) : State :=
  let i := 0x3480 + 8 * c + d
  match (s.md d).population.bind fun p => p.rates[c]? with
  | some r =>
    let x := settledRate r.1 cap (s.obj 0x3407 0) r.2
    if x.1 = 0 then (s.addObj i 4 x.2.2).failChannel d c else ((s.addObj i 4 x.2.2).setObj i 2 x.1).setObj i 3 x.2.1
  | none => (s.bump i 4).setObj i 2 cap

def State.trainChannel (s : State) (d c : Nat) : State := s.trainAt d c (s.obj 0x3401 0)

/-- The channels that are up train again within a changed rate cap (R257). -/
def State.recap (s : State) : State :=
  s.dies.foldl (fun s d => (List.range 16).foldl (fun s c =>
    if s.obj (0x3480 + 8 * c + d) 1 = 1 then s.trainChannel d c else s) s) s

/-- Another target of the channel timed out or failed in the last 100 ms (R265). -/
def State.secondFailure (s : State) (d c ce : Nat) : Bool :=
  (s.md d).lastFail.any fun e => e.1 / 16 = c && e.1 % 16 ≠ ce && s.time.now ≤ e.2 + 100000000

/-- After a second failure within 100 ms a channel retrains, or has failed (R265). -/
def State.retrainChannel (s : State) (d c : Nat) (ok : Bool) : State := if ok then s.trainChannel d c else s.failChannel d c

/-- A target fails (R214); the second of its channel within 100 ms makes the channel retrain, and whether that passes is a free value (R265). -/
def State.failTarget (s : State) (d c ce : Nat) : State :=
  let s1 := s.failOne d c ce
  if s.secondFailure d c ce ∧ s.obj (0x3480 + 8 * c + d) 1 = 1 then s1.useFree.retrainChannel d c (s1.freeValue % 2 = 0) else s1

/-- A grown bad block is counted for its target; beyond twice the profile's maximum the target fails (R263). -/
def State.countBad (s : State) (d c ce : Nat) : State :=
  let m := s.md d
  let n := tgetD m.badBlocks (16 * c + ce) 0 + 1
  let s1 := s.setMd d { m with badBlocks := tset m.badBlocks (16 * c + ce) n }
  match m.population with
  | some p => if 2 * p.maxBad < n then s1.failTarget d c ce else s1
  | none => s1

/-- An operation of a stripe group ends on one of its targets: consecutive operations with failing status in 0x3405 distinct blocks fail the target
(R264). -/
def State.targetStatus (s : State) (d c ce stripe : Nat) (passed : Bool) : State :=
  let m := s.md d
  let run := tgetD m.failRuns (16 * c + ce) []
  let run' := if passed then [] else if run.contains stripe then run else run ++ [stripe]
  let s1 := s.setMd d { m with failRuns := tset m.failRuns (16 * c + ce) run' }
  if s.obj 0x3405 0 ≤ run'.length then s1.failTarget d c ce else s1

/-- The status of an operation for every target of its stripe group: the named channel's failed, the others passed. -/
def State.groupStatus (s : State) (d g stripe : Nat) (failed : Option Nat) : State :=
  (List.range 16).foldl (fun s c => s.targetStatus d c ((s.md d).ceOf c g) stripe (failed ≠ some c)) s

/-- A block is retired: EV d.052, one spare block consumed, EV d.056 below the threshold, its stripe takes no new rows, and the pages already
programmed are queued for urgent refresh (R233, R234). -/
def State.retireBlock (s : State) (d stripe channel : Nat) : State :=
  let m := s.md d
  let b := { m.block stripe channel with stripe := stripe, state := 4 }
  let s1 := (s.closeStripe d stripe).logMap d 6 0 1 0 (blockAddress d (m.keyOf stripe channel)) b.word 0
  let s2 := (((s1.bump (0x3168 + d) 1).setObj (0x3160 + d) 1 (s1.obj (0x3160 + d) 1 - 1)).countSpare d 7).raise (evDie d 52) stripe
  let group := ((tget m.stripes stripe).map (·.group)).getD 0
  let s4 := (s2.checkSpare s d).queueBg d ⟨2, 1, 0, 16 * stripe + channel, m.positions / 15 * granuleBytes, none⟩
  let q := (m.blockOf stripe channel).2
  ((s4.checkWorn d).countBad d q (m.ceOf q group)).reform s d

/-- The program time of a stripe group's targets: the mean of the last 1,024 of each, and the figures that 0x3458 + d shows (R253). -/
def State.recordProgram (s : State) (d g ns : Nat) : State :=
  let m := s.md d
  let add := fun (t : Tab (List Nat)) (c : Nat) =>
    let key := 16 * c + m.ceOf c g
    let old := tgetD t key []
    tset t key ((old ++ [ns]).drop (old.length + 1 - 1024))
  let times := (List.range 16).foldl add m.programTimes
  let s1 := s.setMd d { m with programTimes := times }
  let all := (times.filter fun e => e.2.length = 1024).flatMap (·.2)
  if all = [] then s1
  else (s1.setObj (0x3458 + d) 1 (sum all / all.length / 1000)).setObj (0x3458 + d) 4 ((s1.md d).targetRate 0 ((s1.md d).ceOf 0 g))

/-! ### Refresh triggers (R224) -/

/-- A refresh of a block is queued for a trigger row of R224, 1 to 6, at its priority's rank; FLAGS bit 0 of its stamp shows it. -/
def State.refresh (s : State) (d row stripe channel : Nat) : State :=
  let m := s.md d
  let rank := if row = 1 then 2 else if row = 2 ∨ row = 3 then 5 else 7
  let b := m.block stripe channel
  let s1 := if bitOf b.flags 0 then s
    else s.logMap d 6 0 1 0 (blockAddress d (m.keyOf stripe channel)) ({ b with stripe := stripe, flags := setBit b.flags 0 } : Block).word 0
  (s1.bump (0x31D0 + d) row).queueBg d ⟨rank, 1, 0, 16 * stripe + channel, m.positions / 15 * granuleBytes, none⟩

/-- Corrected bits at or above the refresh threshold: 0x300C percent of 96 (R224, R260). -/
def State.refreshDue (s : State) (corrected : Nat) : Bool := s.obj 0x300C 0 * 96 ≤ corrected * 100

/-- A read is counted in its block's stamp, and RDCNT at its limit queues a refresh (R221, R224). -/
def State.countRead (s : State) (d stripe channel : Nat) : State :=
  let b := (s.md d).block stripe channel
  let b' : Block := { b with stripe := stripe, rdcnt := min (b.rdcnt + 1) (2 ^ 24 - 1) }
  let s1 := s.logMap d 6 0 1 0 (blockAddress d ((s.md d).keyOf stripe channel)) b'.word 0
  if b.rdcnt < s.obj 0x300E 0 * 1000 ∧ s.obj 0x300E 0 * 1000 ≤ b'.rdcnt then s1.refresh d 3 stripe channel else s1

end Sys2Proof.Machine
end

