-- ==== Sys2Proof/Machine/MediaHost.lean ====
section
/-!
DEFINITION. Chapter 7: writes on their way to flash: host write staging and placement (R202 to R206, R238, R239), cross-die protection (R215 to
R217), what durability brings (R209), the journal's flushes and checkpoints (R208, R211), and the power-loss commit's program (R240).
-/

namespace Sys2Proof.Machine

/-! ### Units and their positions -/

/-- A capture namespace. -/
def State.isCapture (s : State) (nsid : Nat) : Bool := ((tget s.host.nss nsid).map (·.kind)).getD 0 = 1

/-- The FLAGS of a record of a namespace: bit 0 in a group, bit 1 conditional, bit 2 of a capture namespace (R210). -/
def State.recFlags (s : State) (nsid : Nat) (grouped conditional : Bool) : Nat :=
  b2n grouped + 2 * b2n conditional + 4 * b2n (s.isCapture nsid)

/-- The positions that hold a unit, by block stripe. -/
def MediaDie.unitPositions (m : MediaDie) (key : Nat) : List (Nat × Nat) :=
  let e := m.entry key
  (if e.state = 1 then [(e.stripe, 512)] else (tgetD m.maps.fine key []).map fun g => (g.2.1, 1)) ++
    (tgetD m.maps.slcMap key []).map fun g => (g.2.1, 1)

/-- The present positions of some granules of a unit, by block stripe. -/
def MediaDie.granulePositions (m : MediaDie) (key : Nat) (gs : List Nat) : List (Nat × Nat) :=
  gs.filterMap fun g => (m.placeOf key g).map fun p => (p.1, 1)

/-- The data positions of a coarse placement. -/
def placement (p : Nat × Nat) : List (Nat × Nat) := (List.range 512).map fun g => (p.1, p.2 + g)

/-- Granules of a unit that a write does not cover and that are mapped. -/
def State.unwritten (s : State) (nsid unit : Nat) (gs : List Nat) : List Nat :=
  (List.range 512).filter fun g => !gs.contains g && (s.granuleAt nsid (512 * unit + g)).isSome

/-- Positions become invalid. -/
def State.invalidateAll (s : State) (d : Nat) (l : List (Nat × Nat)) : State := l.foldl (fun s p => s.invalidate d p.1 p.2) s

/-- A group of journal records ends (R210, R212, R243). -/
def State.endGroup (s : State) (d nsid : Nat) : State := s.logMap d 9 (s.recFlags nsid true false) 1 nsid 0 0 0

/-- The device time of a unit's latest partial write (R205, R206). -/
def State.touchUnit (s : State) (d key : Nat) : State :=
  let m := s.md d
  s.setMd d { m with maps := { m.maps with coarse := tmod m.maps.coarse key fun e => { e with last := s.dtimeS } } }

/-- Fine-mapped units of a die, and the fine limit floor(U / 64 × percent / 100) (R205). -/
def MediaDie.fineUnits (m : MediaDie) : Nat := (m.maps.coarse.filter fun e => e.2.state = 2).length
def State.fineLimit (s : State) (d : Nat) : Nat := s.obj (0x3100 + d) 0 / cuBytes * s.obj 0x3005 0 / 6400

/-- Fine-mapped units with the promotions under way. -/
def MediaDie.fineTaken (m : MediaDie) : Nat :=
  m.fineUnits + (m.ops.filter fun o => match o.2.kind with
    | .hostWrite _ _ _ promote _ _ _ => promote
    | _ => false).length

/-- The lowest fine table number not in use (R200). -/
def MediaDie.freeTable (m : MediaDie) : Nat :=
  let used := (m.maps.coarse.filter fun e => e.2.state = 2).map fun e => e.2.stripe
  ((List.range (used.length + 1)).find? fun n => !used.contains n).getD 0

/-- The coldest fine-mapped unit: lowest HEAT, and among equals the one longest without a partial write (R205). -/
def MediaDie.coldest (m : MediaDie) : Option (Nat × CoarseEntry) :=
  (m.maps.coarse.filter fun e => e.2.state = 2).foldl (fun b e =>
    match b with
    | none => some e
    | some c => if e.2.heat < c.2.heat ∨ (e.2.heat = c.2.heat ∧ e.2.last < c.2.last) then some e else some c) none

/-- A unit has nothing any more on the dies that have failed (R217). -/
def State.forgetLost (s : State) (key : Nat) : State :=
  s.fault.failed.foldl (fun s f =>
    let m := s.md f
    let x := m.maps
    s.setMd f { m with maps := { x with coarse := tdel x.coarse key, fine := tdel x.fine key, slcMap := tdel x.slcMap key } }) s

/-- A whole unit is unmapped: it reads as zero, and its positions are invalid once the record is durable (R202). -/
def State.unmapUnit (s : State) (d nsid unit : Nat) : State :=
  let key := cuKey nsid unit
  let m := s.md d
  let e := m.entry key
  let old := m.unitPositions key
  let s1 := (s.clearUnit nsid unit).forgetLost key
  if e.state = 0 ∧ old = [] then s1
  else (s1.logMap d 3 (s.recFlags nsid false false) 512 nsid unit 0 (e.word d)).awaitJournal d none old

/-! ### Staging (R203, R238, R239, R262) -/

/-- The effective dirty limit of a die in bytes (R239): min(0x3007, floor(R × 18 ms / 1 MiB) − 16) MiB. -/
def State.dirtyLimit (s : State) (d : Nat) : Nat :=
  min (s.obj 0x3007 0) (s.obj (0x3218 + d) 2 * 18 / 1000 / 1048576 - 16) * 1048576

/-- Bytes of staged host data on a die: accepted into staging and not given to a program. -/
def State.stagedBytes (s : State) (d : Nat) : Nat :=
  granuleBytes * sum ((s.md d).staged.map fun u => if u.phase = 2 ∨ u.through ∨ s.isCapture u.nsid then 0 else u.granules.length)

/-- The figures of 0x3210 + d. -/
def State.reportStaged (s : State) (d : Nat) : State :=
  (s.setObj (0x3210 + d) 1 (s.stagedBytes d)).setObj (0x3210 + d) 2 (s.dirtyLimit d / 1048576)

/-- The owner under which the media manager of a die holds staging buffers (R180). -/
def stagingOwner (d : Nat) : Nat := ownerId 2 d 0

/-- The state with a staged unit changed. -/
def State.modStaged (s : State) (d id : Nat) (f : StagedUnit → StagedUnit) : State :=
  let m := s.md d
  s.setMd d { m with staged := m.staged.map fun u => if u.id = id then f u else u }

/-- Staged writes leave staging: their buffers go back to the pond, the bytes outside it are cleared, and the commands that wait for them
wait no longer. -/
def State.unstage (s : State) (d : Nat) (u : StagedUnit) : State :=
  let m := s.md d
  let s1 := s.setMd d { m with staged := m.staged.filter fun x => x.id ≠ u.id }
  let s2 := u.bufs.foldl (fun s b => (s.pondPut (stagingOwner d) b.2).2) s1
  let s3 := s2.wipe (stageAddr d u.id 0) cuBytes
  ({ s3 with host := { s3.host with writeWait := s3.host.writeWait.filter fun w => !(w.die = d && w.unit = u.id) } }).reportStaged d

/-- The pond buffers that granules of a staged unit need beyond those it has; none where the pool does not give them. -/
def State.stageBuffers (s : State) (d : Nat) (u : StagedUnit) (gs : List Nat) : Option (Tab Nat × State) :=
  if u.per = 0 then some (u.bufs, s)
  else
    let need := ((gs.map (· / u.per)).filter fun i => (tget u.bufs i).isNone).eraseDups
    let r := need.foldl (fun (a : Bool × Tab Nat × State) i =>
      if !a.1 then a
      else
        let x := a.2.2.pondGet (stagingOwner d) 1 d 4
        if x.1.status = 0 then (true, tset a.2.1 i x.1.handle, x.2) else (false, a.2.1, x.2)) (true, u.bufs, s)
    if r.1 then some r.2 else none

/-- Granules that a buffer of pond pool 4 holds. -/
def State.stagePer (s : State) (d : Nat) : Nat :=
  match s.pool d 4 with
  | some q => min 512 (2 ^ q.cfg.size / 4096)
  | none => 0

/-- The staged unit that takes further granules of a coarse unit, or a new one. -/
def State.stagedUnit (s : State) (d nsid unit : Nat) (buffered through : Bool) : StagedUnit :=
  let m := s.md d
  (m.staged.find? fun u => u.nsid = nsid && u.unit = unit && u.phase = 0 && !u.fold).getD
    ⟨m.nextStage, nsid, unit, [], s.time.now, 1000 * s.obj 0x3006 0, if buffered then s.stagePer d else 0, [], 0, false, false, [], 0, through⟩

/-- Granules are put into staging: 4,096 bytes each. Answers none where the pond gives no buffer for them. -/
def State.putStaged (s : State) (d nsid unit : Nat) (buffered through : Bool) (parts : Tab (List Nat)) : Option State :=
  let u := s.stagedUnit d nsid unit buffered through
  if buffered ∧ u.per = 0 ∧ u.granules = [] then none
  else
    (s.stageBuffers d u (parts.map (·.1))).map fun r =>
      let gs := parts.foldl (fun l p => if l.contains p.1 then l else l ++ [p.1]) u.granules
      let u' := { u with granules := gs, bufs := r.1 }
      let s1 := parts.foldl (fun s p => s.write (u'.addr d p.1) (fit 4096 p.2)) r.2
      let m := s1.md d
      let rest := m.staged.filter fun x => x.id ≠ u.id
      (s1.setMd d { m with staged := rest ++ [u'], nextStage := max m.nextStage (u.id + 1) }).reportStaged d

/-! ### Placement (R202 to R205) -/

/-- A program of staged writes is issued: a host write at once, folding as background work. -/
def State.issuePlaced (s : State) (d : Nat) (fold : Bool) (k : OpKind) (bytes stripe pos : Nat) : State :=
  if fold then s.bgOp d k bytes stripe pos else s.issueOp d k bytes stripe pos

/-- A new coarse placement of a staged unit is programmed. -/
def State.beginCoarse (s : State) (d : Nat) (u : StagedUnit) (heat : Nat) : State :=
  let x := s.allocateCoarse d
  let s1 := (x.1.modStaged d u.id fun u => { u with phase := 2, due := false }).reportStaged d
  s1.issuePlaced d u.fold (.hostWrite u.nsid u.unit heat false (some x.2) [] (b2n u.fold)) cuBytes x.2.1 x.2.2

/-- A whole new placement of a partly written unit: the unwritten granules are read from where they are mapped first (R202). -/
def State.beginCopy (s : State) (d : Nat) (u : StagedUnit) (heat : Nat) : State :=
  let src := (s.unwritten u.nsid u.unit u.granules).filterMap fun g => (s.granuleAt u.nsid (512 * u.unit + g)).map fun p => (g, p)
  match src with
  | [] => s.beginCoarse d u heat
  | g :: _ =>
    (s.modStaged d u.id fun u => { u with phase := 1, due := false }).issueOp d (.mergeRead u.nsid u.unit heat src)
      (granuleBytes * src.length) g.2.2.1 g.2.2.2

/-- The written granules go to the fine log; a promotion gives the unit its fine table (R202, R204). -/
def State.beginFine (s : State) (d : Nat) (u : StagedUnit) (heat : Nat) (promote : Bool) : State :=
  let x := s.allocateEach d u.granules
  let first := (x.2.headD (0, 0, 0)).2
  let s1 := (x.1.modStaged d u.id fun u => { u with phase := 2, due := false }).reportStaged d
  s1.issuePlaced d u.fold (.hostWrite u.nsid u.unit heat promote none x.2 (b2n u.fold)) (granuleBytes * x.2.length) first.1 first.2

/-- A promotion would pass the fine limit (R205): EV d.048, and the coldest unit is queued for demotion where it is colder than the
candidate. -/
def State.fineFull (s : State) (d unit heat : Nat) : State :=
  let s1 := s.raiseOnce (evDie d 48) unit d
  match (s.md d).coldest with
  | some c => if c.2.heat < heat then s1.queueBg d ⟨8, 5, c.1 / 2 ^ 40, c.1 % 2 ^ 40, cuBytes, none⟩ else s1
  | none => s1

/-- The merged writes of a unit are placed by the state of the unit (R202, R204, R205); folding leaves HEAT, and moves a unit that is not fine-mapped as a
whole. -/
def State.placeUnit (s : State) (d : Nat) (u : StagedUnit) : State :=
  let key := cuKey u.nsid u.unit
  let m := s.md d
  let e := m.entry key
  let heat := min 255 (e.heat + 1)
  if u.fold then (if e.state = 2 then s.beginFine d u e.heat false else s.beginCoarse d u e.heat)
  else if u.granules.length = 512 then s.beginCoarse d u e.heat
  else if e.state = 0 then s.beginCopy d u 0
  else if e.state = 2 then (s.touchUnit d key).beginFine d u heat false
  else
    let s1 := s.touchUnit d key
    if heat < s.obj 0x3002 0 ∨ s.isCapture u.nsid then (s1.bump (0x3130 + d) 0).beginCopy d u heat
    else if m.fineTaken < s.fineLimit d then s1.beginFine d u heat true
    else ((s1.fineFull d u.unit heat).bump (0x3130 + d) 0).beginCopy d u heat

/-- Staged writes are to be placed: at once, or when an earlier placement of the unit has ended. -/
def State.placeStaged (s : State) (d id : Nat) : State :=
  let m := s.md d
  match m.staged.find? fun u => u.id = id with
  | none => s
  | some u =>
    if u.phase ≠ 0 then s
    else if m.staged.any fun x => x.nsid = u.nsid && x.unit = u.unit && x.phase ≠ 0 then s.modStaged d id fun u => { u with due := true }
    else s.placeUnit d u

/-- Every staged write of a die is placed, in order of acceptance. -/
def State.drainDie (s : State) (d : Nat) : State := (s.md d).staged.foldl (fun s u => s.placeStaged d u.id) s

/-- What staging a write leads to: a whole unit is placed, staged data that reaches the dirty limit is placed, and in write-through mode
everything is (R203, R238). -/
def State.placeDue (s : State) (d nsid unit : Nat) : State :=
  let u := s.stagedUnit d nsid unit false false
  if s.obj 0x3018 0 = 1 ∨ s.dirtyLimit d ≤ s.stagedBytes d then s.drainDie d
  else if u.through ∨ u.granules.length = 512 then s.placeStaged d u.id
  else s

/-- A die's merged writes of a unit are placed. -/
def State.placeMerged (s : State) (d nsid unit : Nat) : State :=
  ((s.md d).staged.filter fun u => u.nsid = nsid && u.unit = unit && u.phase = 0).foldl (fun s u => s.placeStaged d u.id) s

/-- Bytes are written by the device into a namespace through the media manager of a die: into staging, and to flash as R203 and R238 say. -/
def State.deviceWrite (s : State) (d nsid off : Nat) (bytes : List Nat) : State :=
  let first := off / 4096
  let n := ceilDiv (off % 4096 + bytes.length) 4096
  let all := patch ((List.range n).flatMap fun k => s.nsGranule nsid (first + k)) (off % 4096) bytes
  let parts := (List.range n).map fun k => (first + k, slice (4096 * k) 4096 all)
  ((parts.map fun p => p.1 / 512).eraseDups).foldl (fun s u =>
    let mine := (parts.filter fun p => p.1 / 512 = u).map fun p => (p.1 % 512, p.2)
    match (s.setUnit nsid u d).putStaged d nsid u false false mine with
    | some t => t.placeDue d nsid u
    | none => s) s

/-! ### Cross-die protection (R215 to R217) -/

/-- The parity die of a die stripe: die (k mod n), or the next healthy die above it (R215, R217). -/
def State.parityDie (s : State) (k : Nat) : Nat :=
  let n := max 1 s.cfg.dies
  (((List.range n).map fun i => (k + i) % n).find? s.healthy).getD (k % n)

/-- The die that holds what protects a die's chunk: the other die of an HK7-2, else the parity die of the die stripe. -/
def State.chunkHome (s : State) (d k : Nat) : Nat := if s.cfg.dies = 2 then 1 - d else s.parityDie k

/-- The next die stripe from k on of which the die is not the parity die and that was not closed before the die reached it. -/
def State.nextChunk (s : State) (d k : Nat) : Nat :=
  let m := s.md d
  (((List.range (m.skipped.length + s.cfg.dies + 1)).map (· + k)).find? fun i =>
    !m.skipped.contains i && (s.cfg.dies = 2 || s.parityDie i ≠ d)).getD k

/-- The dies whose chunks make up a die stripe. -/
def State.contributors (s : State) (home k : Nat) : List Nat :=
  if s.cfg.dies = 2 then [1 - home] else s.dies.filter fun e => s.healthy e && e ≠ s.parityDie k

/-- A die stripe is complete: its parity chunk, or the mirror copy, is programmed (R215, R216). -/
def State.writeParity (s : State) (home k : Nat) : State :=
  let m := s.md home
  let x := (s.setMd home { m with dieStripes := tdel m.dieStripes k }).allocateCoarse home
  (x.1.issueOp home (.parityChunk k none) cuBytes x.2.1 x.2.2).bump (0x3238 + home) 1

/-- A die's chunk has filled, or waits no longer: it goes on with the next one. -/
def State.chunkDone (s : State) (d : Nat) : State :=
  let m := s.md d
  let k := s.nextChunk d m.chunk
  s.setMd d { m with chunk := k + 1, chunkFill := 0, skipped := m.skipped.filter fun i => k < i }

/-- A programmed position joins its die's chunk: its codeword goes to the accumulator of the die stripe, or of the mirror copy; a die stripe whose chunks
are all full gets its parity (R215). -/
def State.contributeOne (s : State) (d : Nat) (p : Nat × Nat) : State :=
  if s.obj 0x3000 0 = 0 ∨ (s.cfg.dies = 2 ∧ !s.healthy (1 - d)) then s
  else
    let m := s.md d
    let k := s.nextChunk d m.chunk
    let home := s.chunkHome d k
    let h := s.md home
    let ds := tgetD h.dieStripes k ⟨[], s.time.now, 1000000 * s.obj 0x3014 0⟩
    let full : Bool := 512 ≤ m.chunkFill + 1
    let ds' := { ds with contributed := if full && !ds.contributed.contains d then ds.contributed ++ [d] else ds.contributed }
    let a := accAddr home k m.chunkFill
    let s1 := s.write a (xorBytes (s.wordAt a) (s.wordAt (flashAddr d p.1 p.2)))
    let s2 := s1.setMd home { h with dieStripes := tset h.dieStripes k ds' }
    let m2 := s2.md d
    let s3 := s2.setMd d { m2 with chunk := k, chunkFill := m.chunkFill + 1, chunks := tset m2.chunks k (tset (tgetD m2.chunks k []) m.chunkFill p) }
    if !full then s3
    else
      let s4 := s3.chunkDone d
      if (s.contributors home k).all ds'.contributed.contains then s4.writeParity home k else s4

/-- Programmed positions of a die join its die chunks in the order of programming (R215). -/
def State.contribute (s : State) (d : Nat) (places : List (Nat × Nat)) : State := places.foldl (fun s p => s.contributeOne d p) s

/-- A die stripe that waited its hold time is closed: contributions still missing are null units, which their dies never make (R216). -/
def State.closeDieStripe (s : State) (stripe home : Nat) : State :=
  let ds := tgetD (s.md home).dieStripes stripe ⟨[], 0, 0⟩
  let gone := (s.contributors home stripe).filter fun e => !ds.contributed.contains e
  let s1 := gone.foldl (fun s e =>
    let m := s.md e
    if s.nextChunk e m.chunk = stripe then s.chunkDone e else s.setMd e { m with skipped := m.skipped ++ [stripe] }) s
  (s1.writeParity home stripe).addObj (0x3238 + home) 2 gone.length

/-- A parity chunk or mirror copy protects nothing any more: its positions are free. -/
def State.freeParity (s : State) (home k : Nat) : State :=
  let m := s.md home
  match tget m.parity k with
  | none => s
  | some p => (s.setMd home { m with parity := tdel m.parity k }).invalidate home p.1 512

/-- A granule leaves its die stripe as its block is erased: the stripe's parity holds it no longer; a parity chunk without any granule is freed. -/
def State.leaveChunk (s : State) (d k i : Nat) (p : Nat × Nat) : State :=
  let m := s.md d
  let rest := tdel (tgetD m.chunks k []) i
  let s1 := s.setMd d { m with chunks := if rest = [] then tdel m.chunks k else tset m.chunks k rest }
  match s.protector d k with
  | none => s1
  | some home =>
    let word := xorBytes (s.chunkWord home k i) (s.wordAt (flashAddr d p.1 p.2))
    let s2 := match tget (s.md home).parity k with
      | some q => s1.writeWord home q.1 (q.2 + i) 1 word
      | none => s1.write (accAddr home k i) word
    if s2.dies.any fun e => e ≠ home && (tget (s2.md e).chunks k).isSome then s2 else s2.freeParity home k

/-- The granules that a block stripe holds of die stripes leave them. -/
def State.leaveChunks (s : State) (d stripe : Nat) : State :=
  let hit := (s.md d).chunks.flatMap fun k => (k.2.filter fun g => g.2.1 = stripe).map fun g => (k.1, g.1, g.2)
  hit.foldl (fun s x => s.leaveChunk d x.1 x.2.1 x.2.2) s

/-- The parity chunk or mirror copy of a die stripe has been programmed at its place: it takes what the accumulator held, or what stood at the place before
(R215). -/
def State.parityPassed (s : State) (home k stripe pos : Nat) : State :=
  let words := (List.range 512).map fun i => (i, s.chunkWord home k i)
  let s1 := words.foldl (fun s w => s.writeWord home stripe (pos + w.1) 1 w.2) s
  let s2 := match tget (s.md home).parity k with
    | some q => s1.invalidate home q.1 512
    | none => s1.wipe (accAddr home k 0) (8192 * 512)
  let m := s2.md home
  s2.setMd home { m with parity := tset m.parity k (stripe, pos) }

/-! ### Conversion of cross-die protection (R218) -/

/-- The coarse units of a die's map whose protection is not that of 0x3000. -/
def State.unconverted (s : State) (d : Nat) : List Nat :=
  ((s.md d).maps.coarse.filter fun e => e.2.state ≠ 0 && e.2.xd ≠ (s.obj 0x3000 0 = 1 : Bool)).map (·.1)

/-- A die whose data all has the protection of 0x3000, and that after a conversion to off keeps nothing that protects other dies, ends its conversion:
EV d.062. -/
def State.checkConvert (s : State) (d : Nat) : State :=
  if bitOf s.media.convert d ∧ s.unconverted d = [] ∧ (s.obj 0x3000 0 = 1 ∨ (s.md d).parity = []) then
    ({ s with media := { s.media with convert := clearBit s.media.convert d } } : State).raise (evDie d 62) 0
  else s

/-- Chunks of die stripes that the change to off leaves without parity are chunks no more. -/
def State.forgetChunks (s : State) : State :=
  if s.obj 0x3000 0 = 1 then s
  else s.dies.foldl (fun s d =>
    let m := s.md d
    let held := fun (e : Nat) (k : Nat) => (tget (s.md e).parity k).isSome
    s.setMd d { m with chunks := m.chunks.filter fun k => s.dies.any fun e => e ≠ d && held e k.1 }) s

/-- 0x3000 has changed: data already written is converted, and after a change to off what protects other dies is freed, by background work of rank 9
(R218). -/
def State.beginConvert (s : State) : State :=
  s.dies.foldl (fun s d =>
    let us := s.unconverted d
    let parity := if s.obj 0x3000 0 = 1 then [] else (s.md d).parity.map (·.1)
    if (us = [] ∧ parity = []) ∨ !s.healthy d then s
    else
      let m := s.md d
      let s1 := ({ s with media := { s.media with convert := setBit s.media.convert d } } : State).setMd d
        (if s.obj 0x3000 0 = 1 then m else { m with dieStripes := [] })
      let s2 := us.foldl (fun s k => s.queueBg d ⟨9, 6, k / 2 ^ 40, k % 2 ^ 40, cuBytes, none⟩) s1
      parity.foldl (fun s k => s.queueBg d ⟨9, 13, 0, k, 0, none⟩) s2) s.forgetChunks

/-- The coarse entry of a unit changes in place: HEAT or XD (R208). -/
def State.changeEntry (s : State) (d key : Nat) (e' : CoarseEntry) : State :=
  let e := (s.md d).entry key
  if e' = e then s
  else s.logMap d 1 (s.recFlags (key / 2 ^ 40) false false) 512 (key / 2 ^ 40) (key % 2 ^ 40) (e'.word d) (e.word d)

/-- A unit's protection is given up: the conversion to off copies nothing. -/
def State.freeProtection (s : State) (d nsid unit : Nat) : State :=
  let key := cuKey nsid unit
  let e := (s.md d).entry key
  if e.state = 0 then s else (s.changeEntry d key { e with xd := false }).checkConvert d

/-- A parity chunk or mirror copy is freed after the conversion to off; its die stripe protects nothing any more (R218). -/
def State.dropParity (s : State) (d k : Nat) : State :=
  let s1 := s.freeParity d k
  let others := if s.cfg.dies = 2 then [1 - d] else s.dies
  (others.foldl (fun s e =>
    let m := s.md e
    s.setMd e { m with chunks := tdel m.chunks k }) s1).checkConvert d

/-! ### Codewords of a program (R26, R134, R202, R231, R442) -/

/-- A granule is lost or good again in a die's list of unrecoverable granules. -/
def State.markLost (s : State) (d nsid lba : Nat) (lost : Bool) : State :=
  let m := s.md d
  let rest := m.unrecoverable.filter fun x => x ≠ (nsid, lba)
  s.setMd d { m with unrecoverable := if lost then rest ++ [(nsid, lba)] else rest }

/-- A granule of a placed unit is programmed: staged data encrypted, a poisoned granule as unrecoverable; an unwritten one from where it is
mapped, or zero bytes. -/
def State.programGranule (s : State) (d : Nat) (u : StagedUnit) (g : Nat) (p : Nat × Nat) : State :=
  let lba := 512 * u.unit + g
  if u.granules.contains g then
    if s.stagedPoisoned d u g then
      ((s.putCodeword d p.1 p.2 5 lba (zeros 4096)).markLost d u.nsid lba true).deliverPoison d 1
    else (s.putCodeword d p.1 p.2 0 lba (s.atRest false u.nsid lba (s.stagedGranule d u g))).markLost d u.nsid lba false
  else
    match s.granuleAt u.nsid lba with
    | some q =>
      if s.isLost u.nsid lba then s.putCodeword d p.1 p.2 5 lba (zeros 4096)
      else s.copyCodeword d q.1 q.2.1 q.2.2 p.1 p.2 lba
    | none => s.putCodeword d p.1 p.2 0 lba (s.atRest false u.nsid lba (zeros 4096))

/-- The granules of a frame's segment in one coarse unit: its stored bytes encrypted granule by granule, filler behind them (R134, R442). -/
def State.programSegment (s : State) (d nsid unit : Nat) (p : Nat × Nat) (bytes : List Nat) : State :=
  (List.range 512).foldl (fun s g =>
    let lba := 512 * unit + g
    let part := (bytes.drop (4096 * g)).take 4096
    if part = [] then s.putCodeword d p.1 (p.2 + g) 4 lba (zeros 4096)
    else s.putCodeword d p.1 (p.2 + g) 0 lba (s.atRest false nsid lba (fit 4096 part))) s

/-- A copy's destination: each granule from its source, zero bytes where it has none (R206, R231). -/
def State.programCopy (s : State) (d nsid unit from' : Nat) (src dst : Tab (Nat × Nat)) : State :=
  dst.foldl (fun s g =>
    let lba := 512 * unit + g.1
    match tget src g.1 with
    | some q =>
      if s.isLost nsid lba then s.putCodeword d g.2.1 g.2.2 5 lba (zeros 4096)
      else s.copyCodeword d from' q.1 q.2 g.2.1 g.2.2 lba
    | none => s.putCodeword d g.2.1 g.2.2 0 lba (s.atRest false nsid lba (zeros 4096))) s

/-! ### What a program that passed brings (R208 to R210, R243) -/

/-- Runs of granules at consecutive positions: first granule, block stripe, position and count. -/
def fineRuns : Tab (Nat × Nat) → List (Nat × Nat × Nat × Nat)
  | [] => []
  | (g, p) :: t =>
    match fineRuns t with
    | (g', st, pos, n) :: rest =>
      if g' = g + 1 ∧ st = p.1 ∧ pos = p.2 + 1 then (g, p.1, p.2, n + 1) :: rest else (g, p.1, p.2, 1) :: (g', st, pos, n) :: rest
    | [] => [(g, p.1, p.2, 1)]

/-- Fine-map records for granules at their positions, as members of a group. -/
def State.recordFine (s : State) (d nsid unit : Nat) (tab : Tab (Nat × Nat)) : State :=
  (fineRuns tab).foldl (fun s r =>
    s.logMap d 2 (s.recFlags nsid true false) r.2.2.2 nsid (512 * unit + r.1) (fineWord r.2.1 r.2.2.1) 0) s

/-- The program of a placed unit has passed: its codewords are on flash, the records of its new mapping form one group, and the granules are
durable when those are (R209, R210, R243). -/
def State.placedPassed (s : State) (d : Nat) (u : StagedUnit) (k : OpKind) (heat : Nat) (promote : Bool)
    (coarse : Option (Nat × Nat)) (fine : Tab (Nat × Nat)) : State :=
  let key := cuKey u.nsid u.unit
  let m := s.md d
  let e := m.entry key
  let flags := s.recFlags u.nsid true false
  let xd : Bool := s.obj 0x3000 0 = 1
  match coarse with
  | some p =>
    let e' : CoarseEntry := ⟨1, xd, p.1, p.2, heat, e.last⟩
    let s1 := s.logMap d (if e.state = 2 then 5 else 1) flags u.granules.length u.nsid u.unit (e'.word d) (e.word d)
    let s2 := if e.state = 2 then s1.bump (0x3128 + d) 2 else s1
    ((s2.endGroup d u.nsid).awaitJournal d (some k) (m.unitPositions key)).forgetLost key
  | none =>
    let old := m.granulePositions key (fine.map (·.1))
    let e' : CoarseEntry := if promote then ⟨2, xd, m.freeTable, 0, heat, e.last⟩ else { e with heat := heat }
    let s1 := if promote then (s.logMap d 4 flags 512 u.nsid u.unit (e'.word d) (e.word d)).bump (0x3128 + d) 1
      else s.logMap d 1 flags 512 u.nsid u.unit (e'.word d) (e.word d)
    ((s1.recordFine d u.nsid u.unit fine).endGroup d u.nsid).awaitJournal d (some k) old

/-- A folded unit's destination is verified (R231 steps 4 and 5, R240): conditional records map it with the source as OLD, and the granules that stood in the SLC
staging region leave it; the source positions are invalid once the records are durable. A unit that has changed since is left as it is (R232). -/
def State.foldPassed (s : State) (d : Nat) (u : StagedUnit) (k : OpKind) (coarse : Option (Nat × Nat)) (fine : Tab (Nat × Nat)) : State :=
  let key := cuKey u.nsid u.unit
  let m := s.md d
  let e := m.entry key
  let flags := s.recFlags u.nsid false true
  let xd : Bool := s.obj 0x3000 0 = 1
  let slc := fun (p : Nat × Nat) => ((tget m.stripes p.1).map (·.slc)).getD false
  match coarse with
  | some p =>
    let s1 := s.logMap d 1 flags 512 u.nsid u.unit ((⟨1, xd, p.1, p.2, e.heat, e.last⟩ : CoarseEntry).word d) u.old
    let s2 := (u.src.filter fun g => slc g.2).foldl (fun s g =>
      s.logMap d 2 flags 1 u.nsid (512 * u.unit + g.1) 0 (fineWord g.2.1 g.2.2)) s1
    s2.awaitJournal d (some k) (m.unitPositions key)
  | none =>
    let now := tgetD m.maps.fine key []
    let s1 := fine.foldl (fun s g =>
      let q := (tget u.src g.1).getD (0, 0)
      s.logMap d 2 flags 1 u.nsid (512 * u.unit + g.1) (fineWord g.2.1 g.2.2) (fineWord q.1 q.2)) s
    let (still, gone) := fine.partition fun g => tget u.src g.1 = tget now g.1
    (gone.foldl (fun s g => s.invalidate d g.2.1 1) s1).awaitJournal d (some k) (still.filterMap fun g => (tget u.src g.1).map fun q => (q.1, 1))

/-- The staged writes whose program is in flight. -/
def MediaDie.placing (m : MediaDie) (nsid unit : Nat) : Option StagedUnit :=
  m.staged.find? fun u => u.nsid = nsid && u.unit = unit && u.phase = 2

/-- The positions of a program that is no longer wanted are invalid. -/
def State.dropDest (s : State) (d : Nat) (coarse : Option (Nat × Nat)) (fine : Tab (Nat × Nat)) : State :=
  match coarse with
  | some p => s.invalidate d p.1 512
  | none => fine.foldl (fun s g => s.invalidate d g.2.1 1) s

/-- The first coarse unit of a die's segment of a frame, and the bytes at hand of it; none where the frame is gone, or has no segment there. -/
def State.segmentBytes (s : State) (d nsid take spring frame : Nat) : Option (Nat × List Nat) :=
  (s.take.takes.find? fun t => t.nsid = nsid && t.num = take).bind fun t =>
    (t.frames.find? fun f => f.spring = spring && f.frame = frame).bind fun f =>
      match f.segs.find? fun g => g.die = d, Take.springDef t spring with
      | some g, some p => some (g.unit, s.segPrefix p f d)
      | _, _ => none

/-- Units of a frame's segment have been programmed: a coarse-map record of the capture namespace for each of them (R134, R209). -/
def State.segmentPassed (s : State) (d : Nat) (k : OpKind) (nsid take spring frame : Nat) (places : List (Nat × Nat × Nat)) : State :=
  match s.segmentBytes d nsid take spring frame with
  | none => places.foldl (fun s p => s.invalidate d p.2.1 512) s
  | some (first, bytes) =>
    let s1 := places.foldl (fun s p =>
      if p.1 < first then s.invalidate d p.2.1 512
      else
        let off := cuBytes * (p.1 - first)
        let e := (s.md d).entry (cuKey nsid p.1)
        let n := min 512 (ceilDiv (bytes.length - off) 4096)
        let e' : CoarseEntry := ⟨1, s.obj 0x3000 0 = 1, p.2.1, p.2.2, 0, s.dtimeS⟩
        (s.programSegment d nsid p.1 p.2 (bytes.drop off)).logMap d 1 (s.recFlags nsid true false) n nsid p.1 (e'.word d) (e.word d)) s
    (s1.endGroup d nsid).awaitJournal d (some k) []

/-! ### What durability brings (R153, R209) -/

/-- Units of a frame's segment on a die are durable; with the last of a complete frame the frame no longer waits for that die. Their ring space
is kept for the frame's filters until R394 lets it go. -/
def Frame.unitsDurable (f : Frame) (d total bytes units : Nat) : Frame :=
  match f.segs.find? fun g => g.die = d with
  | none => f
  | some g =>
    let last := f.complete && g.units ≤ g.done + units
    let n := if last then total - g.counted else min bytes (total - g.counted)
    { f with segs := f.segs.map fun x => if x.die = d then { x with done := x.done + units, counted := x.counted + n } else x
             waiting := if last then f.waiting.erase d else f.waiting, ringHeld := f.ringHeld ++ [(d, n)] }

/-- Units of a frame's segment on a die are durable. -/
def State.segmentDurable (s : State) (d nsid take spring frame bytes units : Nat) : State :=
  let upd := fun f : Frame =>
    if f.spring = spring ∧ f.frame = frame then f.unitsDurable d (s.frameRing f d) bytes units else f
  let takes := s.take.takes.map fun t =>
    if t.nsid = nsid ∧ t.num = take then { t with frames := t.frames.map upd } else t
  { s with take := { s.take with takes := takes } }

/-- A placement has ended: staging lets the writes go, and later writes of the unit that are due are placed. -/
def State.placementEnds (s : State) (d nsid unit : Nat) : State :=
  match (s.md d).placing nsid unit with
  | none => s
  | some u =>
    let s1 := s.unstage d u
    ((s1.md d).staged.filter fun x => x.nsid = nsid && x.unit = unit && x.due).foldl (fun s x => s.placeStaged d x.id) s1

/-- What a durable journal record brings. -/
def State.madeDurable (s : State) (d : Nat) (k : OpKind) : State :=
  match k with
  | .frameSegment nsid take spring frame bytes places => s.segmentDurable d nsid take spring frame bytes places.length
  | .hostWrite nsid unit .. => s.placementEnds d nsid unit
  | _ => s

/-! ### Journal and checkpoints (R208, R211) -/

/-- A checkpoint pass begins: a checkpoint-begin record, and rank 3 work (R211, R226). -/
def State.beginPass (s : State) (d : Nat) : State :=
  let m := s.md d
  if m.passRunning then s
  else
    let s1 := s.logMap d 7 0 1 0 0 0 0
    let m1 := s1.md d
    (s1.setMd d { m1 with passRunning := true, passBegin := m.nextSeq, passIssued := false }).queueBg d
      ⟨3, 2, 0, 0, 4096 * m.dirty.length, none⟩

/-- Journal bytes since the last complete pass. -/
def State.journalBytes (s : State) (d : Nat) : Nat := s.obj (0x3138 + d) 1

/-- The journal limit in bytes. -/
def State.journalLimit (s : State) : Nat := s.obj 0x3008 0 * 1048576

/-- Host writes to general namespaces on a die wait for a checkpoint pass (R211). -/
def State.journalFull (s : State) (d : Nat) : Bool := (s.md d).passRunning && s.journalLimit ≤ s.journalBytes d

/-- A checkpoint whose end record is on flash is the newest complete one: map pages that it replaces are invalid, the journal before its begin record is not
needed any more, and journal stripes that hold nothing else await erase (R211, R212). -/
def State.adoptCheckpoint (s : State) (d upTo : Nat) : State :=
  let m := s.md d
  match m.nextCkpt with
  | none => s
  | some (seq, c) =>
    if upTo < seq then s
    else
      let kept := m.journal.filter fun r => c.seq ≤ r.seq
      let gone := ((m.ckpt.map (·.places)).getD []).filter fun g => tget c.places g.1 ≠ some g.2
      let idle := m.journalSpan.filter fun e => e.2 < c.seq
      let at' := m.journalAt.filter fun k => (tget idle k).isNone
      let s1 := (s.setMd d { m with ckpt := some c, nextCkpt := none, journal := kept, journalAt := at' }).setObj (0x3138 + d) 1 (48 * kept.length)
      idle.foldl (fun s e => s.queueBg d ⟨4, 3, 0, e.1, m.positions * granuleBytes, none⟩) (s1.invalidateAll d (gone.map fun g => (g.2.1, 1)))

/-- Journal records up to a sequence number are durable, and all that waited for them. -/
def State.journalDurable (s : State) (d upTo : Nat) : State :=
  let m := s.md d
  let (ready, rest) := m.awaiting.partition fun a => a.1 ≤ upTo
  let (done, left) := m.pendingRecs.partition fun r => r.seq ≤ upTo
  let s1 := (s.setMd d { m with awaiting := rest, pendingRecs := left, journal := m.journal ++ done }).addObj
    (0x3138 + d) 1 (48 * done.length)
  let s2 := ready.foldl (fun s a =>
    let s1 := match a.2.1 with
      | some k => s.madeDurable d k
      | none => s
    s1.invalidateAll d a.2.2) s1
  let s3 := s2.adoptCheckpoint d upTo
  let s4 := if s3.journalLimit ≤ 2 * s3.journalBytes d then s3.beginPass d else s3
  if s4.journalFull d ∧ !s.journalFull d then s4.raise (evDie d 49) 0 else s4

/-! ### The power-loss commit (R219, R240) -/

/-- Device time is stored, with the TAI time where PTP is qualified (R219, R220). -/
def State.storeTime (s : State) : State :=
  let ptp := ((tget s.time.sources 3).map (·.qualified)).getD false && s.time.ptp.haveTime
  let tai := if ptp then some ((s.time.now : Int) + s.time.ptp.aheadNs).toNat else none
  { s with media := { s.media with taiStored := tai, devStored := s.media.devTimePs } }

/-- The time since a power-loss commit began, in µs. -/
def State.commitTime (s : State) : Nat := (s.time.now - s.media.commitFrom) / 1000

/-- When every healthy die of the part has its power-loss commit on flash, the commit is complete (R240). -/
def State.commitReported (s : State) : State :=
  if s.dies.all fun d => !s.healthy d || (s.md d).marker = 1 then
    let s1 := (s.setObj 0x3017 1 1).setObj 0x3017 2 s.commitTime
    ({ s1 with media := { s1.media with marker := 1 } }).storeTime
  else s

/-- Staged writes of a unit are programmed into the SLC staging region and mapped there (R240). -/
def State.commitUnit (s : State) (d : Nat) (u : StagedUnit) : State :=
  let old := (s.md d).granulePositions (cuKey u.nsid u.unit) u.granules
  let r := u.granules.foldl (fun (a : State × Tab (Nat × Nat)) g =>
    match a.1.allocateSlc d with
    | some x => (x.1.programGranule d u g x.2, a.2 ++ [(g, x.2)])
    | none => a) (s, [])
  let inRegion := fun (p : Nat × Nat) => ((tget (s.md d).stripes p.1).map (·.slc)).getD false || ((s.md d).entry (cuKey u.nsid u.unit)).state = 2
  (((r.1.recordFine d u.nsid u.unit r.2).endGroup d u.nsid).awaitJournal d none (old.filter inRegion)).unstage d u

/-- A staged unit's program is in flight. -/
def MediaDie.inFlight (m : MediaDie) (u : StagedUnit) : Bool :=
  m.ops.any fun o => match o.2.kind with
    | .hostWrite nsid unit .. => nsid = u.nsid && unit = u.unit
    | _ => false

/-- Journal records are programmed: their bytes fill codewords of kind 2 from a position on (R208, R259). -/
def State.journalWords (s : State) (d upTo : Nat) (places : List (Nat × Nat)) : State :=
  let bytes := ((s.md d).pendingRecs.filter fun r => r.seq ≤ upTo).flatMap JRec.bytes
  (places.zipIdx).foldl (fun s p =>
    let part := (bytes.drop (4096 * p.2)).take 4096
    if part = [] then s else s.putCodeword d p.1.1 p.1.2 2 0 part) s

/-- The journal tail of a power-loss commit stands in the SLC staging region, where nothing maps it (R240 step 5). -/
def State.commitJournal (s : State) (d : Nat) : State :=
  let m := s.md d
  let r := (List.range (ceilDiv (48 * m.pendingRecs.length) 4096)).foldl (fun (a : State × List (Nat × Nat)) _ =>
    match a.1.allocateSlc d with
    | some x => (x.1.invalidate d x.2.1 1, a.2 ++ [x.2])
    | none => a) (s, [])
  r.1.journalWords d (m.nextSeq - 1) r.2

/-- The program of a die's power-loss commit has passed (R240 steps 5 and 6): its staged data and its journal are durable
and it programs its power-loss marker; after the last die the lead programs the package marker, and the commit is complete. -/
def State.commitDone (s : State) (d bytes : Nat) : State :=
  let s1 := ((s.md d).staged.filter fun u => u.phase ≠ 2 || (s.md d).inFlight u).foldl (fun s u => s.commitUnit d u) s
  let s2 := (s1.logMap d 10 0 1 0 0 0 0).commitJournal d
  let s3 := (s2.journalDurable d ((s2.md d).nextSeq - 1)).addObj 0x3017 3 bytes
  let m := s3.md d
  let s4 := s3.setMd d { m with marker := 1, passRunning := false, calibrated := some s.dtimeS }
  (((s4.bump (0x3220 + d) 1).setObj (0x3220 + d) 2 bytes).setObj (0x3220 + d) 3 s4.commitTime).commitReported

/-! ### The ends of programs (R209, R215, R231, R233) -/

/-- Map pages are programmed, each as a codeword of kind 3 (R211, R259). -/
def State.pagesPassed (s : State) (d : Nat) (pages : Tab (Nat × Nat)) : State :=
  let s1 := pages.foldl (fun s p => s.putCodeword d p.2.1 p.2.2 3 0 ((s.md d).pageBytes d p.1)) s
  let m := s1.md d
  let gone := pages.filterMap fun p => (tget m.passPages p.1).map fun q => (q.1, 1)
  (s1.setMd d { m with passPages := pages.foldl (fun t p => tset t p.1 p.2) m.passPages }).invalidateAll d gone

/-- A member's block has been programmed anew from its row mates and parity: what they did not give is marked unrecoverable (R214, R231). -/
def State.memberRebuilt (s : State) (d k c : Nat) : State :=
  let m := s.md d
  let used := ((tget m.stripes k).map (·.used)).getD 0
  ((List.range used).filter fun p => m.channelOf k p = c && (s.recovered d k p).isNone).foldl (fun s p => s.putCodeword d k p 5 0 (zeros 4096)) s

/-- A program that passed. -/
def State.programPassed (s : State) (d : Nat) (o : FlashOp) : State :=
  match o.kind with
  | .frameSegment nsid take spring frame _ places =>
    (((s.segmentPassed d o.kind nsid take spring frame places).contribute d (places.flatMap fun p => placement p.2)).addObj (0x31E0 + d) 2 o.bytes).xtsRun
      0 o.bytes
  | .hostWrite nsid unit heat promote coarse fine fold =>
    match (s.md d).placing nsid unit with
    | none => s.dropDest d coarse fine
    | some u =>
      let gs := match coarse with
        | some p => (List.range 512).map fun g => (g, (p.1, p.2 + g))
        | none => fine
      let s1 := gs.foldl (fun s g => s.programGranule d u g.1 g.2) s
      let s2 := (s1.contribute d (gs.map (·.2))).addObj (0x31E0 + d) (if fold = 0 then 1 else 3) o.bytes
      if fold = 0 then (s2.xtsRun 1 o.bytes).placedPassed d u o.kind heat promote coarse fine
      else s2.bgOp d (.hostWrite nsid unit heat promote coarse fine 2) o.bytes o.stripe o.pos
  | .journal upTo =>
    (s.journalWords d upTo ((List.range (ceilDiv o.bytes granuleBytes)).map fun i => (o.stripe, o.pos + i))).journalDurable d upTo
  | .commit bytes => s.commitDone d bytes
  | .copy rank nsid unit from' src dst _ =>
    let s1 := ((s.programCopy d nsid unit from' src dst).contribute d (dst.map (·.2))).addObj (0x31E0 + d) 3 o.bytes
    s1.bgOp d (.copy rank nsid unit from' src dst true) o.bytes o.stripe o.pos
  | .mapPages pages => (s.pagesPassed d pages).contribute d (pages.map (·.2))
  | .parityChunk k _ => if s.obj 0x3000 0 = 0 then s.invalidate d o.stripe 512 else s.parityPassed d k o.stripe o.pos
  | .rebuild k c _ => ((s.memberRebuilt d k c).addObj (0x31E0 + d) 3 o.bytes).bgOn d (.rebuild k c 2) o.bytes k 0 c
  | _ => s

/-- A copy sent to a newly chosen block is counted, with EV d.058 (R231). -/
def State.redirected (s : State) (d : Nat) (o : FlashOp) : State :=
  match o.kind with
  | .copy .. => (s.bump (0x31A0 + d) 0).raise (evDie d 58) o.stripe
  | .hostWrite _ _ _ _ _ _ fold => if fold = 0 then s else (s.bump (0x31A0 + d) 0).raise (evDie d 58) o.stripe
  | _ => s

/-- A program that failed in a power-loss commit is not issued again: host data goes back to staging, which the commit programs, and the positions are
invalid (R240). -/
def State.giveUp (s : State) (d : Nat) (o : FlashOp) : State :=
  match o.kind with
  | .hostWrite nsid unit _ _ coarse fine _ =>
    match (s.md d).placing nsid unit with
    | some u => (s.dropDest d coarse fine).modStaged d u.id fun u => { u with phase := 0 }
    | none => s.dropDest d coarse fine
  | .copy _ _ _ _ _ dst _ => s.dropDest d none dst
  | .mapPages pages => s.dropDest d none pages
  | .frameSegment _ _ _ _ _ places => places.foldl (fun s p => s.invalidate d p.2.1 512) s
  | .parityChunk _ _ => s.invalidate d o.stripe 512
  | .commit _ => s.reprogram d o
  | _ => s

/-- A program that failed on a channel's member: the block is retired and the data, still held, is programmed elsewhere (R233); a copy is
redirected (R231). -/
def State.programFailed (s : State) (d channel : Nat) (o : FlashOp) : State :=
  let s1 := (s.bump (0x31D8 + d) 1).retireBlock d o.stripe channel
  if s.media.commitRunning then s1.giveUp d o else (s1.redirected d o).reprogram d o

end Sys2Proof.Machine
end

