-- ==== Sys2Proof/Machine/MediaWork.lean ====
section
/-!
DEFINITION. Chapter 7: background work and the seep (R225 to R229), copies (R206, R231, R232), reads and what they lead to (R222 to
R224), bring-up from the journal (R212), and the rows of the media manager's own instants.
-/

namespace Sys2Proof.Machine

/-! ### Reads (R222 to R224) -/

/-- A read of granules is counted: bytes for the host (1) or background work (2), and the age bin of the block it reads (R222). -/
def State.noteRead (s : State) (d what : Nat) (o : FlashOp) : State :=
  let age := s.dtimeS - ((s.md d).birth o.stripe o.channel).stime
  (s.addObj (0x31E8 + d) what o.bytes).bump (0x31F0 + d) (ageBin age + 1)

/-- What a read's step leads to in counters, refreshes and events (R223, R224, R261). Step 2 took `detail` retries, step 3 a decode on `detail` bits; from step 4
on, where the page itself could be read (`tried`), four retries and a soft decode have failed. -/
def State.readStep (s : State) (d stripe channel lba step detail corrected : Nat) (tried : Bool) : State :=
  let soft := fun (s : State) => s.bump (0x35A0 + d) (if detail = 3 then 2 else 1)
  let failed := fun (s : State) => if tried then (s.addObj (0x31F8 + d) 0 4).bump (0x35A8 + d) 0 else s
  let parity := fun (counter : Nat) =>
    (((failed s).bump (counter + d) 0).refresh d 1 stripe channel).raise (evDie d 50) (lba % 2 ^ 32)
  match step with
  | 1 =>
    let s1 := if corrected = 0 then s else s.bump (0x31A8 + d) 0
    if s.refreshDue corrected then s1.refresh d 4 stripe channel else s1
  | 2 => ((s.addObj (0x31F8 + d) 0 (max 1 (min 4 detail))).bump (0x31A8 + d) 0).refresh d 5 stripe channel
  | 3 => (soft ((s.addObj (0x31F8 + d) 0 4).bump (0x31B0 + d) 0)).refresh d 2 stripe channel
  | 4 => parity 0x31B8
  | _ => parity 0x31C0

/-- A granule that no step recovers is unrecoverable (R223). -/
def State.lostGranule (s : State) (d nsid lba : Nat) : State :=
  ((s.markLost d nsid lba true).bump (0x31C8 + d) 0).raise (evDie d 51) (lba % 2 ^ 32)

/-- An outcome that the decoders can come to (R223, R260, R261): the hard decoder corrects every codeword with at most 96 bit errors and no other, 3-bit soft
decode comes only where 0x340B asks for it, and step 5 only under cross-die protection. -/
def State.stepTaken (s : State) (step detail corrected : Nat) : Bool :=
  match step with
  | 1 => corrected ≤ 96
  | 2 => corrected ≤ 96
  | 3 => 96 < corrected && (detail ≠ 3 || s.obj 0x340B 0 = 1)
  | 4 => true
  | 5 => s.obj 0x3000 0 = 1
  | _ => false

/-- A read's outcome is one that its granules allow: a page that cannot be read needs at least the step that reconstructs it (R213, R217, R223). -/
def State.outcomeOk (s : State) (d : Nat) (o : FlashOp) (outcome : ReadOutcome) : Bool :=
  match outcome with
  | .decoded step detail corrected =>
    let least := match o.kind with
      | .scrubRead .. => []
      | _ => ((s.md d).readsOf d o).map fun (p : Nat × Nat × Nat) => s.leastStep p.1 p.2.1 p.2.2
    s.stepTaken step detail corrected && least.all fun n => n ≤ step
  | _ => true

/-- The granules, among some, that a read did not recover: those the outcome names, all where no step succeeded, and every one whose codeword does not
verify or is the unrecoverable marker (R26, R223, R231). -/
def State.lostOf (s : State) (nsid unit from' : Nat) (outcome : ReadOutcome) (src : Tab (Nat × Nat)) : List Nat :=
  let bad := fun (g : Nat × Nat × Nat) => !s.codewordGood from' g.2.1 g.2.2 (512 * unit + g.1) || s.isLost nsid (512 * unit + g.1)
  match outcome with
  | .unrecoverable => src.map (·.1)
  | .lost gs => (src.filter fun g => gs.contains g.1 || bad g).map (·.1)
  | .decoded .. => (src.filter bad).map (·.1)

/-- The further reads that soft decoding took: at the two nearest offsets, and for a decode on 3 bits at four more (R261). -/
def State.softReads (s : State) (d stripe channel pos detail : Nat) : State :=
  let m := s.md d
  let ce := m.ceOf channel (stripe % max 1 m.groups)
  (List.range (if detail = 3 then 6 else 2)).foldl (fun s k => s.emit (.softRead d channel ce stripe pos (k + 1))) s

/-- A read of a unit's granules, each with its die, block stripe and position, has ended: its step is counted for the first of them, the read counts in the stamps of
the blocks it touched, and granules not recovered are unrecoverable, after a failed soft decode where their page could be read. A granule of a failed die is
counted and reported by the die that reads it. -/
def State.judgeReads (s : State) (d nsid unit : Nat) (outcome : ReadOutcome) (src : Tab (Nat × Nat × Nat)) : State :=
  let s1 := (s.blocksRead (src.map (·.2))).foldl (fun s b => s.countRead b.1 b.2.1 b.2.2.1) s
  let s2 := match outcome, src with
    | .decoded step detail corrected, g :: _ =>
      let lba := 512 * unit + g.1
      let c := (s.md g.2.1).channelOf g.2.2.1 g.2.2.2
      if g.2.1 ≠ d then (s1.bump (0x31C0 + d) 0).raise (evDie d 50) (lba % 2 ^ 32)
      else
        let t := if step = 3 then s1.softReads d g.2.2.1 c g.2.2.2 detail else s1
        t.readStep d g.2.2.1 c lba step detail corrected (s.leastStep d g.2.2.1 g.2.2.2 = 1)
    | _, _ => s1
  let bad := fun (g : Nat × Nat × Nat × Nat) =>
    (s.lostOf nsid unit g.2.1 outcome [(g.1, g.2.2)]) ≠ [] && !s.isLost nsid (512 * unit + g.1)
  (src.filter bad).foldl (fun s g =>
    let t := if s.leastStep g.2.1 g.2.2.1 g.2.2.2 = 1 then (s.addObj (0x31F8 + d) 0 4).bump (0x35A8 + d) 0 else s
    t.lostGranule d nsid (512 * unit + g.1)) s2

/-! ### Copies (R206, R231, R232) -/

/-- The granules of a unit with the positions they have on a die. -/
def MediaDie.granulesOf (m : MediaDie) (key : Nat) : Tab (Nat × Nat) :=
  (List.range 512).filterMap fun g => (m.placeOf key g).map fun p => (g, p)

/-- The granules of a unit that stand where its map has them: in its coarse placement or its fine table. -/
def MediaDie.mapOf (m : MediaDie) (key : Nat) : Tab (Nat × Nat) :=
  let e := m.entry key
  if e.state = 1 then (List.range 512).map fun g => (g, (e.stripe, e.pos + g))
  else if e.state = 2 then tgetD m.maps.fine key [] else []

/-- The granules that a background work on a unit reads, with their positions and die; a unit that the work's block stripe no longer holds has none. Folding moves
a unit that is not fine-mapped as a whole. -/
def State.workSource (s : State) (d : Nat) (w : BgWork) : Nat × Tab (Nat × Nat) :=
  let key := cuKey w.nsid w.unit
  let m := s.md d
  match w.kind with
  | 7 =>
    let all := m.granulesOf key
    let slc := all.filter fun g => ((tget m.stripes g.2.1).map (·.slc)).getD false
    (d, if slc = [] ∨ (m.entry key).state = 2 then slc else all)
  | 11 =>
    let f := w.source.getD d
    (f, (s.md f).granulesOf key)
  | _ =>
    let here := m.mapOf key
    match w.source with
    | some k =>
      let there := here.filter fun g => g.2.1 = k
      (d, if (m.entry key).state = 2 then there else if there = [] then [] else here)
    | none => (d, here)

/-- A copy's source has been read: its destination is programmed (R231 step 2): a new coarse placement, or positions of the fine log for granules of a
unit that stays fine-mapped. Without room the work waits again. -/
def State.copyProgram (s : State) (d rank kind nsid unit from' : Nat) (src : Tab (Nat × Nat)) : State :=
  let fine : Bool := kind ≠ 5 && kind ≠ 11 && ((s.md d).entry (cuKey nsid unit)).state = 2
  if src = [] ∧ kind ≠ 5 then s
  else if !s.hasRoom d fine (if fine then src.length else 512) then
    s.queueBg d ⟨rank, kind, nsid, unit, cuBytes, if kind = 11 then some from' else if kind = 10 then src.head?.map fun g => g.2.1 else none⟩
  else if fine then
    let x := s.allocateEach d (src.map (·.1))
    let first := (x.2.headD (0, 0, 0)).2
    x.1.bgOp d (.copy rank nsid unit from' src x.2 false) (granuleBytes * src.length) first.1 first.2
  else
    let x := s.allocateCoarse d
    x.1.bgOp d (.copy rank nsid unit from' src ((List.range 512).map fun g => (g, (x.2.1, x.2.2 + g))) false) cuBytes x.2.1 x.2.2

/-- Granules out of the SLC staging region are folded: they are placed like staged writes of their unit, those that the host has written anew left
out (R202, R240). -/
def State.foldUnit (s : State) (d nsid unit : Nat) (src : Tab (Nat × Nat)) : State :=
  let m := s.md d
  let gs := (src.map (·.1)).filter fun g => (m.stagedFor nsid unit g).isNone && !s.isLost nsid (512 * unit + g)
  if gs = [] then s
  else
    let old := (m.entry (cuKey nsid unit)).word d
    let u : StagedUnit := ⟨m.nextStage, nsid, unit, gs, s.time.now, 0, 0, [], 0, false, true, src, old, false⟩
    let data := gs.map fun g => (g, s.nsGranule nsid (512 * unit + g))
    let s1 := data.foldl (fun s g => s.write (u.addr d g.1) g.2) s
    (s1.setMd d { m with staged := m.staged ++ [u], nextStage := m.nextStage + 1 }).placeStaged d u.id

/-- A write of the unit is under way, so that its copy is discarded (R232). -/
def MediaDie.writing (m : MediaDie) (nsid unit : Nat) : Bool := m.staged.any fun u => u.nsid = nsid && u.unit = unit && u.phase ≠ 0

/-- A copy's destination is verified (R231 steps 4 and 5): conditional records map the destination where the source is still current, and the source
positions are invalid once they are durable; what is no longer current is discarded (R232). -/
def State.copyVerified (s : State) (d nsid unit from' : Nat) (src dst : Tab (Nat × Nat)) : State :=
  let key := cuKey nsid unit
  let m := s.md d
  let e := m.entry key
  let xd : Bool := s.obj 0x3000 0 = 1
  let p := (dst.headD (0, 0, 0)).2
  let give := fun (ty : Nat) (e' : CoarseEntry) (old : List (Nat × Nat)) =>
    (((s.logMap d ty (s.recFlags nsid false true) 512 nsid unit (e'.word d) (e.word d)).awaitJournal d none old).checkConvert d)
  if m.writing nsid unit then s.dropDest d none dst
  else if from' ≠ d then
    if e.state = 0 ∧ s.unitDie nsid unit = d then (give 1 ⟨1, xd, p.1, p.2, 0, s.dtimeS⟩ []).forgetLost key else s.dropDest d none dst
  else if dst.length = 512 ∧ m.mapOf key = src ∧ e.state ≠ 0 then
    let t := give (if e.state = 2 then 5 else 1) { e with state := 1, xd := xd, stripe := p.1, pos := p.2 } (src.map fun g => (g.2.1, 1))
    if e.state = 2 then t.bump (0x3128 + d) 2 else t
  else if e.state = 2 ∧ dst.length = src.length then
    let still := dst.filter fun g => tget src g.1 = tget (tgetD m.maps.fine key []) g.1
    let gone := dst.filter fun g => tget src g.1 ≠ tget (tgetD m.maps.fine key []) g.1
    let s1 := still.foldl (fun s g =>
      let q := (tget src g.1).getD (0, 0)
      s.logMap d 2 (s.recFlags nsid false true) 1 nsid (512 * unit + g.1) (fineWord g.2.1 g.2.2) (fineWord q.1 q.2)) s
    let s2 := s1.awaitJournal d none (still.filterMap fun g => (tget src g.1).map fun q => (q.1, 1))
    ((s2.dropDest d none gone).changeEntry d key { e with xd := xd }).checkConvert d
  else s.dropDest d none dst

/-- The read that verifies a destination has ended: every codeword decodes at step 1 below the refresh threshold (R231 step 3). -/
def State.verifies (s : State) (outcome : ReadOutcome) : Bool :=
  match outcome with
  | .decoded step _ corrected => step = 1 && !s.refreshDue corrected
  | _ => false

/-! ### Background work (R206, R214, R224 to R229) -/

/-- The coarse units that have granules in positions of a die, each with a block stripe that holds some. -/
def State.unitsIn (s : State) (d : Nat) (f : Nat → Nat → Bool) : List (Nat × Nat) :=
  let m := s.md d
  m.maps.coarse.flatMap fun e =>
    ((((m.mapOf e.1).filter fun g => f g.2.1 g.2.2).map fun g => g.2.1).eraseDups).map fun k => (e.1, k)

/-- A member's block is rebuilt onto the target that stands at its place now, where that one works (R214). -/
def State.memberStands (s : State) (d k c : Nat) : Bool :=
  let m := s.md d
  let q := (m.blockOf k c).2
  s.targetCode d q (m.ceOf q (k % max 1 m.groups)) ≠ 4

/-- The works that a rebuild of the lost members of a block stripe asks for (R214): onto the hot spare that stands in their place, or else of every unit that the
stripe no longer protects, into new block stripes. -/
def State.rebuildWorks (s : State) (d k : Nat) : List BgWork :=
  let m := s.md d
  let lost := m.lostOf k
  let (back, gone) := lost.partition fun c => s.memberStands d k c
  let hit := fun (j p : Nat) => j = k && (gone.contains (m.channelOf k p) || gone.contains (k % 16))
  back.map (fun c => (⟨1, 12, 0, 16 * k + c, m.positions / 15 * granuleBytes, none⟩ : BgWork)) ++
    (if gone = [] then [] else (s.unitsIn d hit).map fun x => ⟨1, 10, x.1 / 2 ^ 40, x.1 % 2 ^ 40, cuBytes, some x.2⟩)

/-- The parity chunks and mirror copies that stand in a block stripe. -/
def MediaDie.parityIn (m : MediaDie) (k : Nat) : List Nat := (m.parity.filter fun p => p.2.1 = k).map (·.1)

/-- What a work on a target, a block or a block stripe asks for: copies of units, of parity chunks and mirror copies, and rebuilds of members; any other work stays
itself. -/
def State.expand (s : State) (d : Nat) (w : BgWork) : List BgWork :=
  let m := s.md d
  let all := fun (k : Nat) (f : Nat → Nat → Bool) =>
    (s.unitsIn d fun j p => j = k && f j p).map (fun x => (⟨w.rank, 10, x.1 / 2 ^ 40, x.1 % 2 ^ 40, cuBytes, some x.2⟩ : BgWork)) ++
      (m.parityIn k).map fun j => ⟨w.rank, 14, 0, j, cuBytes, none⟩
  match w.kind with
  | 0 =>
    let mine := m.stripes.filter fun e => e.2.group = w.unit % 16 && e.2.lost.any fun c => tgetD e.2.donors c c = w.unit / 16
    mine.flatMap fun e => s.rebuildWorks d e.1
  | 1 => all (w.unit / 16) fun k p => m.memberOf k p = w.unit % 16
  | 4 => all w.unit fun _ _ => true
  | 9 => all w.unit fun _ _ => true
  | _ => [w]

/-- Map pages that stand in the block stripes that works on blocks and stripes are about are programmed anew by a checkpoint pass (R211, R231). -/
def State.redirty (s : State) (d : Nat) (l : List BgWork) : State :=
  let m := s.md d
  let at' := fun (w : BgWork) => if w.kind = 1 then [w.unit / 16] else if w.kind = 4 ∨ w.kind = 9 then [w.unit] else []
  let ks := l.flatMap at'
  let pages := (((m.ckpt.map (·.places)).getD []).filter fun g => ks.contains g.2.1).map fun g => (g.1 / 2 ^ 72, g.1 % 2 ^ 72)
  if pages = [] then s
  else (s.setMd d { m with dirty := pages.foldl (fun l p => if l.contains p then l else l ++ [p]) m.dirty }).beginPass d

/-- The works that wait become works on units (R226). -/
def State.expandAll (s : State) (d : Nat) : State :=
  let s1 := s.redirty d (s.md d).bg
  let m := s1.md d
  s1.setMd d { m with bg := (m.bg.flatMap (s1.expand d)).foldl joinBg [] }

/-- Bytes of one row of a block stripe with its parity page. -/
def MediaDie.rowBytes (m : MediaDie) : Nat := 16 * m.pageGranules * granuleBytes

/-- A visit of the flash scrub: the next row is read on every member (R225). -/
def State.scrubStripe (s : State) (d k : Nat) : State :=
  let m := s.md d
  match tget m.stripes k with
  | none => s
  | some x =>
    let rows := max 1 (x.used / (15 * max 1 m.pageGranules))
    let s1 := s.setMd d { m with stripes := tset m.stripes k { x with scrubRow := (x.scrubRow + 1) % rows, visited := s.dtimeS } }
    let pos := x.scrubRow % rows * 15 * m.pageGranules
    ((List.range 16).filter fun c => !x.lost.contains c).foldl (fun s c =>
      s.bgOn d (.scrubRead k (x.scrubRow % rows)) (m.rowBytes / 16) k pos c) s1

/-- A read of some die takes pages of a block stripe. -/
def State.beingRead (s : State) (d k : Nat) : Bool :=
  s.dies.any fun e => (s.md e).ops.any fun o => o.2.kind.isRead && (s.blocksRead ((s.md e).readsOf e o.2)).any fun b => b.1 = d && b.2.1 = k

/-- A stripe may be erased: it is closed and holds nothing valid, or its journal records lie before the newest checkpoint, and no read of it is in flight
(R211, R231). -/
def State.erasable (s : State) (d k : Nat) : Bool :=
  let m := s.md d
  let seq := (m.ckpt.map (·.seq)).getD 0
  (match tget m.stripes k with
    | some x => (x.state = 3 && x.valid = 0) || (x.state = 6 && x.used ≠ 0 && (tgetD m.journalSpan k 0) < seq && m.journalAt ≠ some k)
    | none => false) && !s.beingRead d k

/-- A work on a unit begins: its source is read. A unit of the fine map that holds no granule any more goes on without a read, and one that needs no copy takes its new
protection at once. -/
def State.startCopy (s : State) (d : Nat) (w : BgWork) : State :=
  let x := s.workSource d w
  match x.2 with
  | [] =>
    let e := (s.md d).entry (cuKey w.nsid w.unit)
    if w.kind = 5 ∧ e.state = 2 then s.copyProgram d w.rank 5 w.nsid w.unit d []
    else if w.kind = 6 ∧ e.state = 2 then (s.changeEntry d (cuKey w.nsid w.unit) { e with xd := s.obj 0x3000 0 = 1 }).checkConvert d
    else s
  | g :: _ => s.bgOp d (.bgRead w.rank w.kind w.nsid w.unit x.1 x.2) (granuleBytes * x.2.length) g.2.1 g.2.2

/-- The map pages of a checkpoint pass are programmed (R211). -/
def State.startPass (s : State) (d : Nat) : State :=
  let m := s.md d
  let s1 := s.setMd d { m with dirty := [], passIssued := true }
  if m.dirty = [] then s1
  else
    let x := s1.allocateEach d (m.dirty.map pageKey)
    let first := (x.2.headD (0, 0, 0)).2
    x.1.bgOp d (.mapPages x.2) (4096 * m.dirty.length) first.1 first.2

/-- A parity chunk or mirror copy is programmed at another place. -/
def State.moveParity (s : State) (d rank k : Nat) : State :=
  if (tget (s.md d).parity k).isNone then s
  else
    let x := s.allocateCoarse d
    x.1.bgOp d (.parityChunk k (some rank)) cuBytes x.2.1 x.2.2

/-- A work has the room that its programs need. -/
def State.bgRoom (s : State) (d : Nat) (w : BgWork) : Bool :=
  if w.kind = 2 then s.hasRoom d true (s.md d).dirty.length
  else if w.kind = 5 ∨ w.kind = 6 ∨ w.kind = 7 ∨ w.kind = 10 ∨ w.kind = 11 ∨ w.kind = 14 then s.hasRoom d false 512
  else true

/-- A work begins: its first flash operation is issued; without room, or where a stripe may not be erased yet, it goes on waiting. -/
def State.startBg (s : State) (d : Nat) (w : BgWork) : State :=
  let m := s.md d
  let s1 := s.setMd d { m with bg := m.bg.erase w }
  let block := m.positions / 15 * granuleBytes
  if !s.bgRoom d w then s
  else
    match w.kind with
    | 2 => s1.startPass d
    | 3 => if s.erasable d w.unit then s1.bgOp d (.erase w.unit) w.bytes w.unit 0 else s
    | 8 => s1.scrubStripe d w.unit
    | 12 =>
      if (m.lostOf (w.unit / 16)).contains (w.unit % 16) then
        s1.bgOn d (.rebuild (w.unit / 16) (w.unit % 16) 0) (15 * block) (w.unit / 16) 0 (w.unit % 16)
      else s1
    | 13 => s1.dropParity d w.unit
    | 14 => s1.moveParity d w.rank w.unit
    | _ => if w.kind = 6 ∧ s.obj 0x3000 0 = 0 then s1.freeProtection d w.nsid w.unit else s1.startCopy d w

/-- Background operations of a rank that waited for the seep are issued while it is open, oldest first. -/
def State.issueLater (s : State) (d rank : Nat) : State :=
  ((s.md d).later.filter fun o => o.kind.rank = rank).foldl (fun s o =>
    if s.seepOpen d then
      let m := s.md d
      (((s.setMd d { m with later := m.later.erase o }).chargeSeep d o.kind o.bytes).issueOn d o.kind o.bytes o.stripe o.pos o.channel)
    else s) s

/-- Works of a rank begin while the seep is open, oldest first (R226). -/
def State.issueBg (s : State) (d rank : Nat) : State :=
  ((s.md d).bg.filter fun w => w.rank = rank).foldl (fun s w => if s.seepOpen d then s.startBg d w else s) (s.issueLater d rank)

/-- Block stripes whose scrub is due are queued (R225). -/
def State.queueScrubs (s : State) (d : Nat) : State :=
  let m := s.md d
  let due := m.stripes.filter fun e => (e.2.state = 2 || e.2.state = 3) && e.2.used ≠ 0 && e.2.visited + 3600 * s.obj 0x300F 0 ≤ s.dtimeS
  due.foldl (fun s e => s.queueBg d ⟨10, 8, 0, e.1, m.rowBytes, none⟩) s

/-- Closed stripes that hold something valid, of the data stripes. -/
def MediaDie.closedStripes (m : MediaDie) : Tab Stripe := m.stripes.filter fun e => e.2.state = 3 && !e.2.slc && e.2.valid ≠ 0

/-- The stripe of a list with the lowest figure. -/
def lowestBy (f : Nat × Stripe → Nat) (l : Tab Stripe) : Option (Nat × Stripe) :=
  l.foldl (fun (b : Option (Nat × Stripe)) e => match b with
    | some x => if f e < f x then some e else some x
    | none => some e) none

/-- Outside takes the reserve is kept at its target: while it is below, and no erase of a wholly invalid stripe waits, the closed stripe with the fewest
valid positions is collected (R226, R229). -/
def State.fillReserve (s : State) (d : Nat) : State :=
  let m := s.md d
  let target := s.obj (0x3100 + d) 0 * s.obj 0x3010 0 / 100
  if s.takesDraw ∨ target ≤ s.erasedBytes d ∨ m.bg.any fun w => w.rank = 4 ∨ w.rank = 6 then s
  else
    match lowestBy (fun e => e.2.valid) (m.closedStripes.filter fun e => e.2.valid < e.2.size) with
    | some e => s.queueBg d ⟨6, 4, 0, e.1, e.2.valid * granuleBytes, none⟩
    | none => s

/-- The cycle counts of a stripe's members. -/
def MediaDie.pecs (m : MediaDie) (k : Nat) : List Nat := (List.range 16).map fun c => (m.birth k c).pec

/-- The highest and the lowest PEC of a stripe's members. -/
def MediaDie.pecOf (m : MediaDie) (k : Nat) : Nat := (m.pecs k).foldl max 0
def MediaDie.pecLow (m : MediaDie) (k : Nat) : Nat := (m.pecs k).foldl min (m.pecOf k)

/-- The data stripes of a die, opened or not. -/
def MediaDie.dataStripes (m : MediaDie) : List Nat := (List.range m.stripeCount).filter fun k => !((tget m.stripes k).map (·.slc)).getD false

/-- Wear levelling (R226 rank 11): where the die's highest and lowest PEC differ by more than 10% of the rated count, the closed stripe with the lowest PEC is
moved. -/
def State.levelWear (s : State) (d : Nat) : State :=
  let m := s.md d
  let top := (m.births.map fun b => b.2.pec).foldl max 0
  if 10 * top ≤ s.obj (0x3450 + d) 7 then s
  else
    let low := m.dataStripes.foldl (fun n k => min n (m.pecLow k)) top
    match lowestBy (fun e => m.pecLow e.1) m.closedStripes with
    | some e => if s.obj (0x3450 + d) 7 < 10 * (top - low) then s.queueBg d ⟨11, 9, 0, e.1, e.2.valid * granuleBytes, none⟩ else s
    | none => s

/-- Blocks whose age reaches 0x300D days are queued for refresh (R224). -/
def State.queueAged (s : State) (d : Nat) : State :=
  let m := s.md d
  m.closedStripes.foldl (fun s e => (List.range 16).foldl (fun s c =>
    let b := m.birth e.1 c
    let x := m.block e.1 c
    if x.state = 3 ∧ !bitOf x.flags 0 ∧ b.stime + 86400 * s.obj 0x300D 0 ≤ s.dtimeS then s.refresh d 6 e.1 c else s) s) s

/-- The seep window of a die opens: scrubs and refreshes that are due join the queue, works on blocks become copies of their units, and operations and works are
issued by rank while budget is left (R224 to R227). -/
def State.seep (s : State) (d : Nat) : State :=
  (List.range 12).foldl (fun s r => s.issueBg d r) (((s.queueScrubs d).queueAged d).expandAll d)

/-! ### Bring-up from the journal (R207, R212) -/

/-- The maps of a die as its newest checkpoint and the journal behind it give them, with the records replayed; `readable` of the journal's records verify
their CRC, from the first on. -/
def MediaDie.replayed (m : MediaDie) (d readable : Nat) : Maps × List JRec :=
  let base := (m.ckpt.map (·.maps)).getD Maps.none
  let from' := (m.ckpt.map (·.seq + 1)).getD 1
  let recs := usableRecs from' ((m.journal.filter fun r => from' ≤ r.seq).take readable)
  (Maps.replay d [] base recs, recs)

/-- The valid positions of each stripe as maps, the checkpoint's map pages and parity have them. -/
def MediaDie.countValid (m : MediaDie) (k : Nat) : Nat :=
  sum (m.maps.coarse.map fun e => if e.2.state = 1 ∧ e.2.stripe = k then 512 else 0) +
    sum (m.maps.fine.map fun t => (t.2.filter fun g => g.2.1 = k).length) +
    sum (m.maps.slcMap.map fun t => (t.2.filter fun g => g.2.1 = k).length) + 512 * (m.parity.filter fun p => p.2.1 = k).length +
    (((m.ckpt.map (·.places)).getD []).filter fun p => p.2.1 = k).length

/-- The accumulator of a die stripe from the chunks that the other dies have on flash (R240). -/
def State.rebuildAcc (s : State) (home k : Nat) : State :=
  (List.range 512).foldl (fun s i =>
    let word := s.dies.foldl (fun w e =>
      match (if e = home then none else (tget (s.md e).chunks k).bind fun t => tget t i) with
      | some p => xorBytes w (s.wordAt (flashAddr e p.1 p.2))
      | none => w) (zeros 4104)
    s.write (accAddr home k i) word) s

/-- After bring-up a die's accumulators are rebuilt from durable chunks; a die stripe whose chunks are all whole gets its parity (R240). -/
def State.restoreChunks (s : State) (d : Nat) : State :=
  let mine := fun (e : Nat) => ((s.md e).chunks.map (·.1)).filter fun k => s.chunkHome e k = d
  let ks := ((s.dies.filter (· ≠ d)).flatMap mine).eraseDups.filter fun k => (tget (s.md d).parity k).isNone
  ks.foldl (fun s k =>
    let all := s.contributors d k
    let whole := all.filter fun e => k < (s.md e).chunk || (s.md e).skipped.contains k
    let s1 := s.rebuildAcc d k
    let m := s1.md d
    let s2 := s1.setMd d { m with dieStripes := tset m.dieStripes k ⟨whole, s.time.now, 1000000 * s.obj 0x3014 0⟩ }
    if all = whole then s2.writeParity d k else s2) s

/-- The rebuilds that a die still owes its stripes are queued again (R214). -/
def State.queueLost (s : State) (d : Nat) : State :=
  (s.md d).stripes.foldl (fun s e => e.2.lost.foldl (fun s c =>
    s.queueBg d ⟨1, 0, 0, 16 * tgetD e.2.donors c c + e.2.group, s.obj (0x3100 + d) 0 / max 1 (s.activeTargets d), none⟩) s) s

/-- A die loads its checkpoint and replays its journal (R212): open stripes are closed, stripes that hold nothing valid await erase, units that nothing
maps are free again, granules in the SLC staging region are queued for folding, accumulators and rebuilds go on. Answers the records replayed. -/
def State.restoreMaps (s : State) (d readable : Nat) : State × Nat :=
  let m := s.md d
  let r := m.replayed d readable
  let last := (r.2.getLast?.map (·.seq)).getD ((m.ckpt.map (·.seq)).getD 0)
  let m1 := { m with maps := r.1, journal := m.journal.filter fun x => x.seq ≤ last, pendingRecs := [], awaiting := []
                     dirty := (r.2.flatMap JRec.pages).eraseDups, nextSeq := last + 1, openCoarse := none, openFine := none, leftover := [], openSlc := none, cache := [] }
  let count := fun (e : Nat × Stripe) => (e.1, if e.2.state = 1 ∨ e.2.state = 6 then e.2 else { e.2 with valid := m1.countValid e.1 })
  let stripes := m1.stripes.map count
  let s1 := (((s.setMd d { m1 with stripes := stripes }).setObj (0x3138 + d) 2 last).setObj (0x3180 + d) 2 0).setObj (0x3188 + d) 2 0
  let s2 := stripes.foldl (fun s e =>
    if e.2.state = 2 then s.closeStripe d e.1 else if e.2.state = 3 ∧ e.2.valid = 0 then s.awaitErase d e.1 e.2 else s) s1
  let mapped := fun (key : Nat) => (r.1.entry key).state ≠ 0 || (tgetD r.1.slcMap key []) ≠ []
  let keep := fun (n : Nat × Ns) => (n.1, { n.2 with units := n.2.units.filter fun u => u.2 ≠ d || mapped (cuKey n.1 u.1) })
  let s3 : State := { s2 with host := { s2.host with nss := s2.host.nss.map keep } }
  let inSlc := fun (t : Nat × Tab (Nat × Nat)) => t.2.any fun g => ((tget stripes g.2.1).map (·.slc)).getD false
  let folds := ((r.1.slcMap.filter inSlc) ++ (r.1.fine.filter inSlc)).map (·.1)
  let s4 := folds.eraseDups.foldl (fun s k => s.queueBg d ⟨9, 7, k / 2 ^ 40, k % 2 ^ 40, cuBytes, none⟩) s3
  ((((s4.queueLost d).restoreChunks d).reportErase d).reportSlc d, r.2.length)

/-! ### Erases (R229, R233, R262) -/

/-- A stripe has been erased: its granules leave their die stripes, every member has one cycle more, its codewords are gone. A journal stripe stays one
(R262). -/
def State.stripeErased (s0 : State) (d k : Nat) : State :=
  let s := s0.leaveChunks d k
  let s1 := (List.range 16).foldl (fun s c =>
    let m := s.md d
    let b := m.birth k c
    s.setMd d { m with births := tset m.births (m.keyOf k c) { b with pec := b.pec + 1 } }) s
  let m := s1.md d
  let state := if ((tget m.stripes k).map (·.state)).getD 1 = 6 then 6 else 1
  let clear := fun (x : Stripe) => { x with state := state, used := 0, valid := 0, degraded := false, donors := [], lost := [] }
  let s2 := s1.setMd d { m with stripes := tmod m.stripes k clear, journalSpan := tdel m.journalSpan k }
  let s3 := (s2.wipe (flashAddr d k 0) (2 ^ 20 * 8192)).wipe (flashAddr (d + 8) k 0) (2 ^ 20 * 8192)
  (s3.setBlocks d k (if ((tget m.stripes k).map (·.slc)).getD false ∧ state = 1 then 5 else state)).highWater (0x3170 + d) 2 ((s3.md d).pecOf k)

/-- SLC-mode blocks at their rated cycle count are retired: the stripe leaves the staging region, or the journal (R262). -/
def State.slcWorn (s : State) (d k : Nat) : State :=
  let rated := s.obj (0x3450 + d) 8
  if rated = 0 ∨ (s.md d).pecOf k < rated then s
  else
    let m := s.md d
    let x := tget m.stripes k
    let less := fun (s : State) (i sub n : Nat) => s.setObj i sub (s.obj i sub - n)
    let s1 := if (x.map (·.state)).getD 1 = 6 then less s (0x3478 + d) 3 16
      else less (less s (0x3218 + d) 1 16) (0x3478 + d) 1 (((x.map (·.size)).getD 0) * granuleBytes)
    (List.range 16).foldl (fun s c => s.retireBlock d k c)
      (s1.setMd d { m with stripes := tdel m.stripes k, journalAt := m.journalAt.filter (· ≠ k) })

/-- An erase ends: its time is measured, the stripe joins the reserve, the SLC staging region or the journal; a member that failed is retired and a spare block takes its
place (R229, R230, R233, R234). -/
def State.eraseEnds (s : State) (d op k : Nat) (o : FlashOp) (failed : Option Nat) : State :=
  let s1 := ((s.endOp d op).groupStatus d o.group k failed).recordErase d (s.time.now - o.issued)
  let slc := ((tget (s1.md d).stripes k).map (·.slc)).getD false
  let s2 := match failed with
    | some c => (s1.bump (0x31D8 + d) 2).retireBlock d k c
    | none => s1
  let s3 := s2.stripeErased d k
  if slc then (s3.slcWorn d k).reportSlc d
  else
    let s4 := (s3.bump (0x3180 + d) 1).setObj (0x3180 + d) 2 (s.obj (0x3180 + d) 2 - 1)
    (s4.setObj (0x3188 + d) 2 (s.obj (0x3188 + d) 2 - o.bytes)).reportReserve d

/-! ### Meanings -/

/-- MERGE_WINDOW_EXPIRY (R54, R203): the 0x3006 of its acceptance after the first of them was accepted, the merged writes of a unit are placed. -/
def execMergeWindowExpiry (nsid unit : Nat) (s : State) : Res :=
  let d := s.unitDie nsid unit
  match (s.md d).staged.find? fun u => u.nsid = nsid && u.unit = unit && u.phase = 0 with
  | none => .next s
  | some u => if s.time.now < u.since + u.window then .next s else .next (s.placeStaged d u.id)

/-- Heats halve, each change journalled, and a fine-mapped unit that has gone cold is queued for demotion (R206, R208). -/
def State.halveHeat (s : State) (die : Nat) : State :=
  let m := s.md die
  let s1 := m.maps.coarse.foldl (fun s e => s.changeEntry die e.1 { e.2 with heat := e.2.heat / 2 }) s
  let m1 := s1.md die
  let cold := m1.maps.coarse.filter fun e => e.2.state = 2 && e.2.heat = 0 && e.2.last + s.obj 0x3003 0 ≤ s.dtimeS
  cold.foldl (fun s e => s.queueBg die ⟨8, 5, e.1 / 2 ^ 40, e.1 % 2 ^ 40, cuBytes, none⟩) (s1.setMd die { m1 with halvedAt := s.dtimeS })

/-- HEAT_HALVING (R206): every 0x3004 s of device time HEAT halves, rounding down, and fine-mapped units that are cold are queued for demotion. -/
def execHeatHalving (die : Nat) (s : State) : Res :=
  onDie s die fun _ =>
    if s.dtimeS < (s.md die).halvedAt + s.obj 0x3004 0 then .next s else .next (s.halveHeat die)

/-- The pending records of a die are programmed into its journal blocks (R208, R262). -/
def State.flushJournal (s : State) (die : Nat) : State :=
  let m := s.md die
  let bytes := 48 * m.pendingRecs.length
  match s.allocateJournal die (ceilDiv bytes granuleBytes) (m.nextSeq - 1) with
  | some x => x.1.issueOp die (.journal (m.nextSeq - 1)) bytes x.2.1 x.2.2
  | none => s

/-- JOURNAL_FLUSH (R208): the pending records are programmed into the journal blocks. -/
def execJournalFlush (die : Nat) (s : State) : Res :=
  onDie s die fun _ => if (s.md die).pendingRecs.isEmpty then .next s else .next (s.flushJournal die)

/-- DIE_STRIPE_HOLD_EXPIRY (R54, R216): the 0x3014 of the first contribution after it, missing contributions become null units, and the parity chunk is
programmed. -/
def execDieStripeHoldExpiry (stripe : Nat) (s : State) : Res :=
  match s.dies.find? fun d => (tget (s.md d).dieStripes stripe).isSome with
  | none => .next s
  | some d =>
    let ds := tgetD (s.md d).dieStripes stripe ⟨[], 0, 0⟩
    if s.time.now < ds.since + ds.hold then .next s else .next (s.closeDieStripe stripe d)

/-- FLASH_ERASE_COMPLETE (R229, R233): the stripe joins the reserve with one cycle more; a member that failed is retired. -/
def execFlashEraseComplete (die op : Nat) (failed : Option Nat) (s : State) : Res :=
  onDie s die fun _ =>
    match tget (s.md die).ops op with
    | some o =>
      match o.kind with
      | .erase k => if o.suspended ∨ o.waits then .next s else .next (s.eraseEnds die op k o failed)
      | _ => .next s
    | none => .next s

/-- SEEP_WINDOW_START (R226, R227): in the seep window background work is issued by rank within the epoch's budget; none while a
power-loss commit runs (R240). -/
def execSeepWindowStart (die : Nat) (s : State) : Res :=
  onDie s die fun _ =>
    if !s.inSeep die then .next s
    else if (s.md die).halted ∨ s.media.commitRunning then .next s
    else .next (s.seep die)

end Sys2Proof.Machine
end

