-- ==== Sys2Proof/Machine/Flash.lean ====
section
/-!
DEFINITION. Chapter 8: discovery and population of a die's flash, channel checks, and the failure of targets and channels.
-/

namespace Sys2Proof.Machine

/-! ### Population (R250 to R256) -/

/-- Targets on the fullest channel. -/
def Population.t (p : Population) : Nat := p.counts.foldl Nat.max 0

/-- A part's geometry lies within R250. -/
def Population.geometryOk (p : Population) : Bool :=
  (p.cellType == 1 || p.cellType == 2) && [1, 2, 4, 8].contains p.planes && [16384, 32768].contains p.pageBytes &&
    2048 * (p.pageBytes / 16384) ≤ p.spareBytes && (Population.positions p) ≤ 1048576

/-- Raw bytes of one target. -/
def Population.targetBytes (p : Population) : Nat := p.planes * p.pageBytes * p.pagesPerBlock * p.blocksPerPlane

/-- The largest raw flash of a die (R254). -/
def rawLimit : Nat := 64000000000000

/-- Targets kept per channel of the t found, hot spares among them: data targets are excluded from the highest CE down until the raw bytes of the
remaining ones are within R254. -/
def keptTargets (p : Population) : Nat → Nat
  | 0 => 0
  | t + 1 => if 16 * (t + 1) * (Population.targetBytes p) ≤ rawLimit then t + 1 else keptTargets p t

/-- The data targets of a channel that are kept, in CE order (R251, R254). -/
def Population.dataCes (p : Population) (h : Nat) : List Nat := List.range (keptTargets p (Population.t p) - h)

/-- The hot-spare targets of a channel (R251). -/
def Population.spareCes (p : Population) (h : Nat) : List Nat := (List.range h).map (· + (Population.t p - h))

/-- A target has more factory bad blocks than the profile's maximum: it fails at format (R263). -/
def Population.bad (p : Population) (c ce : Nat) : Bool := p.factoryBad.any fun b => b.1 = 16 * c + ce && p.maxBad < b.2.length

/-- The data targets of a channel that do not fail at format: its members of the stripe groups, in CE order (R213). -/
def Population.members (p : Population) (h c : Nat) : List Nat := (Population.dataCes p h).filter fun ce => !Population.bad p c ce

/-- Hot spares of a channel that do not fail at format. -/
def Population.spares (p : Population) (h c : Nat) : List Nat := (Population.spareCes p h).filter fun ce => !Population.bad p c ce

/-- How a channel settles at discovery (R256). -/
def Population.settled (p : Population) (cap threshold c : Nat) : Nat × Nat × Nat :=
  match p.rates[c]? with
  | some r => settledRate r.1 cap threshold r.2
  | none => (0, 0, 0)

/-- The population state at first format, as 0x3468 names the cause, for the hot-spare count, the rate cap and the eye margin threshold (R250, R251, R252, R256,
R263). -/
def Population.judge (p : Population) (h cap threshold : Nat) : Nat :=
  let t := Population.t p
  let found := (List.range 16).flatMap fun c => (List.range t).map fun ce => 16 * c + ce
  if p.counts.all (· = 0) ∨ (p.interface ≠ 1 ∧ p.interface ≠ 2) then 2
  else if !p.parameterOk then 7
  else if !(p.counts.length = 16 && p.counts.all (· = t) && t ≤ 16 && found.all p.present.contains && p.present.all found.contains) then 3
  else if !p.samePart then 4
  else if !(Population.geometryOk p) ∨ p.luns ≠ 1 ∨ !p.operations then 7
  else if p.profile.isNone then 5
  else if !p.eraseSuspend then 6
  else if t ≤ h then 3
  else if (List.range 16).any fun c => (Population.settled p cap threshold c).1 = 0 then 8
  else if (List.range 16).any fun c => (Population.members p h c).length ≠ (Population.members p h 0).length || (Population.spares p h c).length ≠ (Population.spares p h 0).length then 3
  else if keptTargets p t < t then 1 else 0

/-- The code of a CE of 0x3500 at first format: data, hot spare, failed, excluded or absent. -/
def Population.code (p : Population) (h c ce : Nat) : Nat :=
  if (Population.t p) ≤ ce then 0
  else if (Population.members p h c).contains ce then 1
  else if (Population.spares p h c).contains ce then 2
  else if Population.bad p c ce && ((Population.dataCes p h).contains ce || (Population.spareCes p h).contains ce) then 4 else 5

/-- What discovery reports of the interface, the part, the geometry and the times. -/
def State.reportPart (s : State) (d : Nat) (p : Population) (h : Nat) : State :=
  let set := fun (s : State) (x : Nat × Nat × Nat) => s.setObj x.1 x.2.1 x.2.2
  [(0x3440 + d, 0, p.interface), (0x3448 + d, 3, p.profile.getD 0), (0x3450 + d, 1, p.pageBytes),
   (0x3450 + d, 2, p.spareBytes), (0x3450 + d, 3, p.pagesPerBlock), (0x3450 + d, 4, p.blocksPerPlane),
   (0x3450 + d, 5, p.planes), (0x3450 + d, 6, p.cellType), (0x3450 + d, 7, p.ratedNative), (0x3450 + d, 8, p.ratedSlc),
   (0x3458 + d, 1, p.programUs), (0x3458 + d, 2, p.eraseUs), (0x3458 + d, 3, p.readUs),
   (0x3458 + d, 4, (Population.programBytes p) * 1000000 / max 1 p.programUs),
   (0x3448 + d, 1, p.manufacturer), (0x3448 + d, 2, ofLe (fit 20 p.model)),
   (0x3460 + d, 1, (Population.t p)), (0x3460 + d, 2, h), (0x3460 + d, 3, (Population.t p) - keptTargets p (Population.t p))].foldl set s

/-- The channels as they settled (R256): state, rate, margin, and each rung tried a training; EV d.064 below the cap, and EV d.066 for one that fails, with its targets
where they are recorded. -/
def State.reportChannels (s : State) (d : Nat) (p : Population) (recorded : Bool) : State :=
  (List.range 16).foldl (fun s c =>
    let i := 0x3480 + 8 * c + d
    let x := Population.settled p (s.obj 0x3401 0) (s.obj 0x3407 0) c
    let s1 := (((s.setObj i 1 (if x.1 = 0 then 2 else 1)).setObj i 2 x.1).setObj i 3 x.2.1).addObj i 4 x.2.2
    if x.1 = 0 then (if recorded then s1.failChannel d c else (s1.bump 0x340A 3).raise (evDie d 66) c)
    else if x.1 < s.obj 0x3401 0 then s1.raise (evDie d 64) c else s1) s

/-- The codes of every target of a die. -/
def State.setTargets (s : State) (d : Nat) (code : Nat → Nat → Nat) : State :=
  (List.range 16).foldl (fun s c => (List.range 16).foldl (fun s ce => s.setObj (0x3500 + 8 * c + d) (ce + 1) (code c ce)) s) s

/-- Stripe groups that a part forms at first format: its data targets on one channel (R213, R251, R254). -/
def Population.groups (p : Population) (h : Nat) : Nat := (Population.members p h 0).length

/-- Good blocks of the data targets (R234). -/
def Population.goodBlocks (p : Population) (h : Nat) : Nat :=
  let bad := sum ((p.factoryBad.filter fun b => (Population.members p h (b.1 / 16)).contains (b.1 % 16)).map (·.2.length))
  16 * (Population.groups p h) * p.blocksPerPlane - bad

/-- Raw bytes of one block. -/
def Population.blockBytes (p : Population) : Nat := p.planes * p.pageBytes * p.pagesPerBlock

/-- Data positions of a block stripe in SLC mode: one bit of each cell (R262). -/
def Population.slcPositions (p : Population) : Nat := Population.positions p / (if p.cellType = 2 then 4 else 3)

/-- Block stripes of the SLC staging region: for the largest effective dirty limit that 0x3007 can ask for, twice that and 32 MiB (R239, R262). -/
def Population.stagingStripes (p : Population) (h : Nat) : Nat :=
  let limit := min 1024 (p.slcRate * 16 * (Population.groups p h) * 18 / 1000 / 1048576 - 16)
  ceilDiv ((2 * limit + 32) * 1048576) (max 1 ((Population.slcPositions p) * granuleBytes))

/-- Block stripes of the journal: twice the largest limit that 0x3008 can ask for (R211, R262). -/
def Population.journalStripes (p : Population) : Nat := ceilDiv (2048 * 1048576) (max 1 ((Population.slcPositions p) * granuleBytes))

/-- The SLC-mode block stripes set aside at format: the highest numbers of the die (R262). -/
def slcTable (p : Population) (groups total ks kj : Nat) : Tab Stripe :=
  (List.range (ks + kj)).map fun i =>
    let k := total - (ks + kj) + i
    (k, ⟨k % max 1 groups, 0, (Population.slcPositions p), false, 0, if i < ks then 1 else 6, false, true, [], [], 0, 0⟩)

/-- Factory bad blocks stand in the block table as retired from the first (R263). -/
def factoryTable (bad : List (Nat × List Nat)) : Tab Block :=
  bad.foldl (fun t b => b.2.foldl (fun t k => tset t (blockKey k (b.1 % 16) (b.1 / 16)) ⟨0, 0, 4, 0⟩) t) []

/-- The CE of each member of the stripe groups, where it is not the group's number (R213). -/
def Population.placeTable (p : Population) (h : Nat) : Tab Nat :=
  (List.range 16).foldl (fun t c => ((Population.members p h c).zipIdx).foldl (fun t e => if e.1 = e.2 then t else tset t (16 * c + e.2) e.1) t) []

/-- The die's media manager at first format (R213, R262, R263): stripe groups, the SLC-mode stripes set aside with sound blocks of their own, and the block table, which a
first checkpoint holds. -/
def Population.formatted (p : Population) (h ks kj total : Nat) (m : MediaDie) : MediaDie :=
  let data := Population.groups p h
  let m1 : MediaDie :=
    { m with
      population := some p, groups := data, place := Population.placeTable p h, stripes := slcTable p data total ks kj
      maps := { Maps.none with blocks := factoryTable p.factoryBad }
      badBlocks := p.factoryBad.foldl (fun t b => tset t b.1 b.2.length) [] }
  let m2 := m1.stripes.foldl (fun (m : MediaDie) e =>
    match m.membersOf e.1 [] with
    | some t => { m with swaps := t.foldl (fun t e => tset t e.1 e.2) m.swaps }
    | none => m) m1
  let aside := fun (t : Tab Block) (e : Nat × Stripe) => (List.range 16).foldl (fun t c =>
    tset t (m2.keyOf e.1 c) ⟨0, e.1, if e.2.state = 6 then 6 else 5, 4 * b2n (e.1 % 16 = c)⟩) t
  let maps := { m2.maps with blocks := m2.stripes.foldl aside m2.maps.blocks }
  { m2 with maps := maps, ckpt := some ⟨0, maps, []⟩ }

/-- First format (R213, R234, R235, R262, R263): stripe groups, usable capacity, spare blocks, the SLC-mode stripes set aside, and the erased stripes
that are left; targets with too many factory bad blocks have failed. -/
def State.firstFormat (s : State) (d : Nat) (p : Population) (h : Nat) : State :=
  let goodBlocks := Population.goodBlocks p h
  let usable := goodBlocks * Population.blockBytes p * 15 / 16 * 93 / 100
  let spare := goodBlocks - ceilDiv (goodBlocks * 93) 100
  let data := (Population.groups p h)
  let total := p.blocksPerPlane * data
  let ks := Population.stagingStripes p h
  let kj := Population.journalStripes p
  let failed := (List.range 256).filter fun k => Population.code p h (k / 16) (k % 16) = 4
  let s1 := s.setMd d { Population.formatted p h ks kj total (s.md d) with spareFirst := spare }
  let set := fun (s : State) (x : Nat × Nat × Nat) => s.setObj x.1 x.2.1 x.2.2
  let s2 := [(0x3100 + d, 0, usable), (0x3108 + d, 0, 16 * (Population.t p) * (Population.targetBytes p)), (0x3148 + d, 1, data), (0x3148 + d, 2, 0),
    (0x3150 + d, 1, 16 * (Population.spares p h 0).length), (0x3150 + d, 2, 0), (0x3158 + d, 0, failed.length), (0x3160 + d, 1, spare), (0x3160 + d, 2, spare),
    (0x3168 + d, 2, sum (p.factoryBad.map (·.2.length))), (0x3180 + d, 1, s1.formable d - ks - kj), (0x3180 + d, 2, 0),
    (0x3218 + d, 1, 16 * ks), (0x3478 + d, 1, ks * (Population.slcPositions p) * granuleBytes), (0x3478 + d, 3, 16 * kj)].foldl set s1
  ((failed.foldl (fun s k => s.raise (evDie d 53) k) s2).reportErase d).reportSlc d

/-- A later bring-up (R255, R256): recorded targets that do not answer fail, and targets not recorded are excluded, without a change of the population state; a target
without a valid parameter page makes it 7, and a failed channel 8. -/
def State.compareRecorded (s : State) (d : Nat) (p : Population) : State :=
  let s1 := (List.range 256).foldl (fun s k =>
    let c := k / 16
    let ce := k % 16
    let code := s.targetCode d c ce
    if (code = 1 ∨ code = 2 ∨ code = 3) ∧ !p.present.contains k then s.failOne d c ce
    else if code = 0 ∧ p.present.contains k then s.setObj (0x3500 + 8 * c + d) (ce + 1) 5
    else s) s
  let st := if !p.parameterOk then 7 else if (List.range 16).any fun c => s.obj (0x3480 + 8 * c + d) 1 = 2 then 8 else 0
  if st = 0 then s1 else (s1.setObj (0x3468 + d) 0 st).raise (evDie d 67) st

/-- The figures that follow from the population: data rate, targets for 6 GB/s, SLC rate and the effective dirty limit (R239, R253). -/
def State.reportRates (s : State) (d : Nat) (p : Population) : State :=
  let s1 := s.setObj (0x3470 + d) 1 (s.dataRate d)
  let need := ceilDiv (6000000000 * 16) (15 * max 1 ((s.md d).targetRate 0 ((s.md d).ceOf 0 0)))
  let s2 := (s1.setObj (0x3470 + d) 2 need).setObj (0x3218 + d) 2 (p.slcRate * s.activeTargets d)
  ((s2.reportStaged d).reportSlc d).reportReserve d

/-! ### Channel checks (R257) -/

/-- The next lower rung of the ladder of R256. -/
def rungBelow (rate : Nat) : Nat := (rateLadder.find? fun r => r < rate).getD 1600

/-- A channel's step-down is made: it trains one rung lower (R257). -/
def State.stepDown (s : State) (d c : Nat) : State :=
  let i := 0x3480 + 8 * c + d
  let s1 := (((s.setObj i 6 0).bump i 5).bump (0x3590 + d) 0).bump 0x340A 2
  (s1.raise (evDie d 68) c).trainAt d c (rungBelow (s.obj i 2))

/-- A channel's eye margin is recorded and judged (R257). -/
def State.checkChannel (s : State) (die channel margin : Nat) : State :=
  let i := 0x3480 + 8 * channel + die
  let s1 := s.setObj i 3 margin
  if s.obj 0x3407 0 ≤ margin ∨ s.obj i 1 ≠ 1 then s1
  else
    let s2 := s1.raise (evDie die 68) channel
    (if s.anyOpenOrClosing then s2.setObj i 6 1 else s2.stepDown die channel)

/-- CHANNEL_CHECK (R257): every 0x3406 s of device time, inside the seep window, the margin is measured; below 0x3407 the channel steps down one
rung, at once outside takes and else after the last take closes; EV d.068 for the need and again when it is made. -/
def execChannelCheck (die channel margin : Nat) (s : State) : Res :=
  if !s.hasDie die ∨ 16 ≤ channel then .fault .absentUnit
  else
    let m := s.md die
    if !s.inSeep die ∨ s.dtimeS < tgetD m.checked channel 0 + s.obj 0x3406 0 then .next s
    else .next ((s.setMd die { m with checked := tset m.checked channel s.dtimeS }).checkChannel die channel margin)

/-- Pending step-downs are made once no take is open or closing (R257). -/
def State.makeStepDowns (s : State) : State :=
  if s.anyOpenOrClosing then s
  else s.dies.foldl (fun s d => (List.range 16).foldl (fun s c =>
    if s.obj (0x3480 + 8 * c + d) 6 = 1 then s.stepDown d c else s) s) s

/-! ### Timeouts and failures (R264, R265) -/

/-- The profile's maximum time of an operation, in µs (R258). -/
def Population.maxUs (p : Population) (k : OpKind) : Nat := if k.isErase then p.maxEraseUs else if k.isRead then p.maxReadUs else p.maxProgramUs

/-- An operation on a target has not ended within 0x3404 percent of the profile's maximum time (R264). -/
def State.timedOut (s : State) (d channel ce : Nat) : Bool :=
  let m := s.md d
  match m.population, m.groupOf channel ce with
  | some p, some g =>
    m.ops.any fun o => o.2.group = g && !o.2.waits && !o.2.suspended && (!o.2.kind.isRead || o.2.channel = channel) &&
      o.2.issued + Population.maxUs p o.2.kind * s.obj 0x3404 0 * 10 ≤ s.time.now
  | _, _ => false

/-- A target that did not end its operation takes no new rows and is reset, and a second failure retrains or fails the channel (R264, R265). -/
def State.opTimesOut (s : State) (die channel ce : Nat) (retrainOk : Bool) : State :=
  let m := s.md die
  let s1 := ((s.setMd die { m with resetting := tset m.resetting (16 * channel + ce) s.time.now
                                   lastFail := tset m.lastFail (16 * channel + ce) s.time.now }).bump (0x3588 + die) 0).closeGroup die
    ((m.groupOf channel ce).getD ce)
  let s2 := s1.emit (.flashCommand die channel ce 3 0)
  if s.secondFailure die channel ce then s2.retrainChannel die channel retrainOk else s2

/-- FLASH_OPERATION_TIMEOUT (R264, R265): new rows avoid the target, the channel issues RESET to it; a second target
of the channel within 100 ms retrains the channel, and a failed training fails it. -/
def execFlashOperationTimeout (die channel ce : Nat) (retrainOk : Bool) (s : State) : Res :=
  if !s.hasDie die ∨ 16 ≤ channel ∨ 16 ≤ ce then .fault .absentUnit
  else if (tget (s.md die).resetting (16 * channel + ce)).isSome then .next s
  else if !s.timedOut die channel ce then .next s
  else .next (s.opTimesOut die channel ce retrainOk)

/-- A reset target answers and works again, its operation retried, or it has failed (R264). -/
def State.targetBack (s : State) (die channel ce : Nat) (m : MediaDie) (idOk retryOk : Bool) : State :=
  let again := m.ops.map fun o => (o.1, if m.groupOf channel ce = some o.2.group then { o.2 with issued := s.time.now } else o.2)
  let s1 := s.setMd die { m with resetting := tdel m.resetting (16 * channel + ce), ops := again }
  if idOk ∧ retryOk then (((s1.bump (0x3580 + die) 0).bump 0x340A 1).raise (evDie die 65) (16 * channel + ce))
  else ((s1.failTarget die channel ce).reportReserve die)

/-- TARGET_RESET_WAIT_EXPIRY (R264): the profile's maximum reset time after RESET, a target that answers and whose retry passes takes new rows
again, with EV d.065; any other fails, with EV d.053. -/
def execTargetResetWaitExpiry (die channel ce : Nat) (idOk retryOk : Bool) (s : State) : Res :=
  if !s.hasDie die ∨ 16 ≤ channel ∨ 16 ≤ ce then .fault .absentUnit
  else
    let m := s.md die
    match tget m.resetting (16 * channel + ce) with
    | none => .next s
    | some at' =>
      if s.time.now < at' + ((m.population.map (·.resetUs)).getD 0) * 1000 then .next s
      else .next (s.targetBack die channel ce m idOk retryOk)

end Sys2Proof.Machine
end

