-- ==== Sys2Proof/Machine/HostBase.lean ====
section
/-!
DEFINITION. What every family that ends host commands shares: how a command completes on an ordinary and on an ordered
SQ (R284, R285, R288), data to and from a host, and writes to general namespaces.
-/

namespace Sys2Proof.Machine

/-! ### Commands and their completions -/

/-- A controller. -/
def State.ctrl (s : State) (c : Nat) : Option Ctrl := tget s.host.ctrls c

/-- A fetched command that has not completed. -/
def Ctrl.cmd (c : Ctrl) (sqid cid : Nat) : Option Cmd := c.cmds.find? fun m => m.sqid = sqid && m.cid = cid

/-- A command that has been fetched and not completed. -/
def State.fetched (s : State) (q : CmdRef) : Bool :=
  match s.ctrl q.cntl with
  | some c => (c.cmd q.sqid q.cid).isSome
  | none => false

/-- The state with a submission queue changed. -/
def State.modSq (s : State) (cntl qid : Nat) (f : Sq → Sq) : State := s.modCtrl cntl fun c => { c with sqs := tmod c.sqs qid f }

/-- The state with a fetched command changed. -/
def State.modCmd (s : State) (q : CmdRef) (f : Cmd → Cmd) : State :=
  s.modCtrl q.cntl fun c => { c with cmds := c.cmds.map fun m => if m.sqid = q.sqid && m.cid = q.cid then f m else m }

/-- A command leaves its controller's list, and its SQ's order; a namespace detached meanwhile is no longer its (R310). -/
def State.dropCmd (s : State) (cntl sqid cid : Nat) : State :=
  let s1 := s.modCtrl cntl fun c =>
    { c with cmds := c.cmds.filter fun m => !(m.sqid = sqid && m.cid = cid)
             sqs := tmod c.sqs sqid fun (k : Sq) => { k with order := k.order.filter (· ≠ cid) } }
  { s1 with host := { s1.host with detached := s1.host.detached.filter fun e => !(e.1 = cntl && e.2.1 = sqid * 65536 + cid) } }

/-- Withheld completions of an ordered SQ are posted in submission order, up to the first command without a result; a
frozen SQ posts nothing after its failing command (R285). -/
def State.postOrdered (s : State) (cntl sqid : Nat) : Nat → State
  | 0 => s
  | n + 1 =>
    match s.ctrl cntl with
    | none => s
    | some c =>
      match tget c.sqs sqid with
      | none => s
      | some k =>
        match k.order with
        | [] => s
        | cid :: _ =>
          let open' := match k.failCid with
            | none => true
            | some f => k.order.contains f
          match open', (c.cmd sqid cid).bind (·.result) with
          | true, some e => State.postOrdered ((s.dropCmd cntl sqid cid).postCqe cntl e) cntl sqid n
          | _, _ => s

/-- An entry of the Error Information log (R284, R285). -/
def State.logError (s : State) (cntl sqid cid sct sc nsid specific : Nat) : State :=
  let s1 := s.modCtrl cntl fun c =>
    { c with errs := (⟨c.errCount + 1, sqid, cid, sct * 256 + sc, nsid, specific⟩ : ErrEntry) :: c.errs.take 255
             errCount := c.errCount + 1 }
  (s1.bump 0x4011 0).bump (0x40D8 + portOf cntl) 0

/-- A controller that is quiescing is quiesced once no command of it but Asynchronous Event Requests
and what a frozen SQ withholds runs (R321). -/
def State.settleQuiesce (s : State) (cntl : Nat) : State :=
  match s.ctrl cntl with
  | some c =>
    let still := fun (m : Cmd) => match tget c.sqs m.sqid with
      | some k => m.result.isSome || (k.frozen && !m.started)
      | none => false
    if c.quiesce = 1 ∧ c.cmds.all fun m => (m.sqid = 0 && c.aers.contains m.cid) || still m then
      s.modCtrl cntl fun c => { c with quiesce := 2, quiesceEpoch := s.epoch, quiesceLeft := 0 }
    else s
  | none => s

/-- Commands that fail are counted by their status (0x4012, 0x4013, 0x4014). -/
def State.countStatus (s : State) (sct sc : Nat) : State :=
  if sct = 2 ∧ sc = 0x81 then s.bump 0x4012 0
  else if sct = 0 ∧ sc = 0x81 then s.bump 0x4013 0
  else if sct = 0 ∧ sc = 0x20 then s.bump 0x4014 0 else s

/-- A write of a function outside its dirty-log windows raises EV d.083 (R319). -/
def State.warnOutside (s : State) (before : State) (cntl : Nat) : State :=
  let n := fun (x : State) => ((tget x.host.fns (cntl - 1)).map (·.outside)).getD 0
  if n before < n s then s.raiseOnce (evDie (portOf cntl) 83) (cntl - 1) (cntl - 1) else s

/-- A command that has not ended ends with a status: its completion is posted, or waits for its turn on an ordered SQ; a failing command
leaves an Error Information log entry and freezes an ordered SQ (R284, R285, R288). -/
def State.endCmd (s : State) (q : CmdRef) (sct sc : Nat) (dnr : Bool) (dw0 dw1 : Nat) : State :=
  let e : Cqe := ⟨q.sqid, q.cid, sct, sc, dnr, dw0, dw1⟩
  let fails := sct ≠ 0 || sc ≠ 0
  match s.ctrl q.cntl with
  | none => s
  | some c =>
    if ((c.cmd q.sqid q.cid).map (·.result.isNone)) ≠ some true then s
    else
      match tget c.sqs q.sqid with
      | none => (s.dropCmd q.cntl q.sqid q.cid).settleQuiesce q.cntl
      | some k =>
        let s := s.countStatus sct sc
        if !k.ordered then
          let s1 := if fails then s.logError q.cntl q.sqid q.cid sct sc 0 0 else s
          (((s1.dropCmd q.cntl q.sqid q.cid).postCqe q.cntl e).warnOutside s1 q.cntl).settleQuiesce q.cntl
        else
          let s1 := s.modCmd q fun m => { m with result := some e }
          let s2 :=
            if fails ∧ !k.frozen then
              let withheld := (k.order.dropWhile (· ≠ q.cid)).length - 1
              (((s1.modSq q.cntl q.sqid fun k => { k with frozen := true, failCid := some q.cid }).logError q.cntl q.sqid
                q.cid sct sc 0 withheld).bump 0x400C 0).raise (evDie (portOf q.cntl) 74) (q.sqid + 65536 * q.cntl)
            else s1
          ((s2.postOrdered q.cntl q.sqid k.order.length).warnOutside s q.cntl).settleQuiesce q.cntl

/-- A command's data is not durable yet. -/
def State.writing (s : State) (q : CmdRef) : Bool := s.host.writeWait.any fun w => w.q = q

/-- A fetched command has not started; one of a frozen ordered SQ never will (R285). -/
def State.unstarted (s : State) (q : CmdRef) : Bool :=
  match s.ctrl q.cntl with
  | some c =>
    !(((tget c.sqs q.sqid).map (·.frozen)).getD false) && match c.cmd q.sqid q.cid with
      | some m => !m.started && m.result.isNone
      | none => false
  | none => false

/-- The place of a command in the fetch order; what no controller fetched, a task's write, stands behind all that has been fetched. -/
def State.seqOf (s : State) (q : CmdRef) : Nat := (((s.ctrl q.cntl).bind fun c => c.cmd q.sqid q.cid).map (·.seq)).getD s.host.fetches

/-- A command fetched before a place, of the ports that a test admits, may still change stored data: it has not started, and it returns no data. -/
def State.earlier (s : State) (port : Nat → Bool) (seq : Nat) : Bool :=
  s.host.ctrls.any fun c => port (portOf c.1) && c.2.cmds.any fun m =>
    m.seq < seq && m.sqid ≠ 0 && m.toHost = 0 && s.unstarted ⟨c.1, m.sqid, m.cid⟩

/-- A Flush covers the namespace. -/
def HeldFlush.mine (f : HeldFlush) (nsid : Nat) : Bool := f.nsid = 2 ^ 32 - 1 || nsid = f.nsid

/-- A Flush waits for a command fetched before it that has not started, or whose write to the namespace is not durable (R290). -/
def State.flushWaits (s : State) (f : HeldFlush) : Bool :=
  s.earlier (fun _ => true) f.seq || (s.host.stalled.any fun w => w.seq < f.seq && f.mine w.nsid) ||
    s.host.writeWait.any fun w =>
      w.seq < f.seq && (((s.md w.die).staged.find? fun u => u.id = w.unit).map fun u => f.mine u.nsid).getD true

/-- Flushes complete when every write that they cover is durable (R290). -/
def State.settleFlushes (s : State) : State :=
  let done := s.host.flushes.filter fun f => !s.flushWaits f
  let s1 := { s with host := { s.host with flushes := s.host.flushes.filter fun f => !done.contains f } }
  done.foldl (fun s f => (s.endCmd f.q 0 0 false 0 0).highWater 0x401C 2 ((s.time.now - f.since) / 1000)) s1

/-- A command ends, and a Flush that waited for it goes on (R284, R288, R290). -/
def State.complete (s : State) (q : CmdRef) (sct sc : Nat) (dnr : Bool) (dw0 dw1 : Nat) : State :=
  (s.endCmd q sct sc dnr dw0 dw1).settleFlushes

/-- Go on when the command has been fetched and has not completed. -/
def onCmd (s : State) (q : CmdRef) (f : Unit → Res) : Res := if s.fetched q then f () else .fault .notFetched

/-! ### Writes to general namespaces (R202, R203, R236, R237) -/

/-- Coarse units of a namespace. -/
def Ns.cus (n : Ns) : Nat := ceilDiv n.nsze 512

/-- Usable units not in use on a die. -/
def State.freeUnits (s : State) (d : Nat) : Nat :=
  s.obj (0x3100 + d) 0 / cuBytes -
    sum (s.host.nss.map fun n => (n.2.units.filter fun u => u.2 = d).length)

/-- The blocks of a namespace that a coarse unit stands for, and its utilisation: those of the units in use. -/
def Ns.unitBlocks (n : Ns) (unit : Nat) : Nat := min 512 (n.nsze - 512 * unit)
def Ns.used (n : Ns) : Nat := sum (n.units.map fun u => n.unitBlocks u.1)

/-- The granules of a range that lie in a unit. -/
def granulesIn (slba blocks unit : Nat) : List Nat :=
  (List.range 512).filter fun g => slba ≤ 512 * unit + g && 512 * unit + g < slba + blocks

/-- The units that a range touches. -/
def unitsOf (slba blocks : Nat) : List Nat :=
  if blocks = 0 then [] else (List.range ((slba + blocks - 1) / 512 - slba / 512 + 1)).map (· + slba / 512)

/-- The die that takes a write of a unit: its own, or where that has failed the one that takes the unit over (R198, R217). -/
def State.writeDie (s : State) (nsid unit : Nat) : Nat :=
  let d := s.unitDie nsid unit
  if s.healthy d then d else s.placeDie unit

/-- A write of a range would raise the namespace's utilisation above its capacity, or needs new capacity on a die that is worn or that has no usable units
left (R236, R237). -/
def State.tooFull (s : State) (nsid slba blocks : Nat) : Bool :=
  match tget s.host.nss nsid with
  | none => true
  | some n =>
    let us := unitsOf slba blocks
    let fresh := us.filter fun u => (tget n.units u).isNone
    let moved := us.filter fun u => tget n.units u ≠ some (s.writeDie nsid u)
    n.nsze < n.used + sum (fresh.map n.unitBlocks) || s.dies.any fun d =>
      let k := (moved.filter fun u => s.writeDie nsid u = d).length
      k ≠ 0 && ((s.md d).worn || s.freeUnits d < k)

/-- A die completes host writes only when they are durable (R238, R239). -/
def State.through (s : State) (d : Nat) : Bool := s.obj 0x3018 0 = 1 || s.dirtyLimit d = 0

/-- A staged unit that a command waits for completes only when it is durable. -/
def State.waitsThrough (s : State) (q : CmdRef) : Bool :=
  s.host.writeWait.any fun w => w.q = q && (s.md w.die).staged.any fun u => u.id = w.unit && u.through

/-- A staged write may complete (R211, R238, R239): no die of it has a full journal, and where it runs write-through its data is durable. -/
def State.mayComplete (s : State) (t : CmdRef × List Nat) : Bool :=
  !(t.2.any s.journalFull) && (!(t.2.any s.through || s.waitsThrough t.1) || !s.writing t.1)

/-- Every controller of the subsystem is disabled or shut down: a full checkpoint pass begins (R291). -/
def State.allQuiet (s : State) : State :=
  if s.host.ctrls.all fun c => !c.2.en || c.2.shst = 2 then s.dies.foldl (fun s d => if s.healthy d then s.beginPass d else s) s
  else s

/-- A shutdown is complete once every completed write of its controller is durable (R291). -/
def State.settleShut (s : State) : State :=
  let done := (s.host.ctrls.filter fun c => c.2.shst = 1 && !(s.host.writeWait.any fun w => w.q.cntl = c.1)).map (·.1)
  if done = [] then s
  else (done.foldl (fun s c => s.modCtrl c fun c => { c with shst := 2 }) s).allQuiet

/-- Staged writes complete when they may (R211, R238), Flushes when every write they cover is durable (R290), and shutdowns (R291). -/
def State.settleWrites (s : State) : State :=
  let ready := s.host.throughs.filter s.mayComplete
  let s1 := { s with host := { s.host with throughs := s.host.throughs.filter fun t => !ready.contains t } }
  (ready.foldl (fun s t => s.complete t.1 0 0 false 0 0) s1).settleFlushes.settleShut

/-- A unit is in use on the die that takes its writes. What a failed die holds of it and nothing reconstructs is unrecoverable (R217, R525). -/
def State.homeUnit (s : State) (nsid unit : Nat) : State :=
  let old := s.unitDie nsid unit
  let d := s.writeDie nsid unit
  let lost := fun (g : Nat) => match (s.md old).placeOf (cuKey nsid unit) g with
    | some p => (s.recovered old p.1 p.2).isNone
    | none => false
  let gone := if old = d then [] else (List.range 512).filter lost
  (gone.foldl (fun s g => s.markLost d nsid (512 * unit + g) true) s).setUnit nsid unit d

/-- Granules of a unit are staged on its die for a command, which waits for them to be durable; none where the pond gives no buffers. -/
def State.stageGranules (s : State) (q : CmdRef) (seq nsid unit : Nat) (buffered through : Bool) (parts : Tab (List Nat)) : Option State :=
  let s1 := s.homeUnit nsid unit
  let d := s1.unitDie nsid unit
  let id := (s1.stagedUnit d nsid unit buffered through).id
  (s1.putStaged d nsid unit buffered through parts).map fun t =>
    { t with host := { t.host with writeWait := t.host.writeWait ++ [⟨q, d, id, seq⟩] } }

/-- The granules of a write that lie in a unit, with their data. -/
def StalledWrite.parts (w : StalledWrite) (unit : Nat) : Tab (List Nat) :=
  (granulesIn w.slba w.blocks unit).map fun g => (g, fit 4096 (slice (4096 * (512 * unit + g - w.slba)) 4096 w.data))

/-- What a die's host writes may use of an epoch's budget in a take (R227): what the background work within the minimum seep leaves. -/
def State.hostShare (s : State) (d : Nat) : Nat := s.obj (0x3190 + d) 1 - max (s.obj (0x3190 + d) 2) (s.minSeep d)

/-- A write of bytes to a die is written through: the die runs so, or the write is larger than the effective dirty limit (R239). -/
def State.throughWrite (s : State) (d bytes : Nat) : Bool := s.dirtyLimit d = 0 || s.dirtyLimit d < bytes

/-- Why a write of bytes to a die waits: 0 it does not, 1 a power-loss commit runs, 2 its share of the epoch is used up (R227), 3 no erased block
stripe is left, 4 the erased staging capacity (R262), 5 the effective dirty limit (R239). -/
def State.writeHeld (s : State) (d bytes : Nat) : Nat :=
  if s.media.commitRunning then 1
  else if s.takesDraw ∧ s.hostShare d ≤ (s.md d).hostBytes then 2
  else if !s.hasRoom d false 512 then 3
  else if s.dirtyLimit d = 0 then 0
  else if s.throughWrite d bytes then (if s.stagedBytes d = 0 then 0 else 5)
  else if s.slcErased d - 16777216 < s.stagedBytes d + bytes then 4
  else if s.dirtyLimit d < s.stagedBytes d + bytes then 5
  else 0

/-- The bytes of a write on each of its dies. -/
def State.writeBytes (s : State) (w : StalledWrite) : Tab Nat :=
  (unitsOf w.slba w.blocks).foldl (fun t u =>
    let d := s.writeDie w.nsid u
    tset t d (tgetD t d 0 + 4096 * (granulesIn w.slba w.blocks u).length)) []

/-- Granules of a fine-mapped unit are deallocated: their fine entries read zero, and the records form a group (R201, R243). -/
def State.dropFine (s : State) (d nsid unit : Nat) (granules : List Nat) : State :=
  let key := cuKey nsid unit
  let m := s.md d
  let gone := granules.filterMap fun g => (m.placeOf key g).map fun p => (g, p)
  if gone = [] then s
  else
    let s1 := (fineRuns gone).foldl (fun s r =>
      s.logMap d 2 (s.recFlags nsid true false) r.2.2.2 nsid (512 * unit + r.1) 0 (fineWord r.2.1 r.2.2.1)) s
    let s2 := gone.foldl (fun s g => s.markLost d nsid (512 * unit + g.1) false) s1
    (s2.endGroup d nsid).awaitJournal d none (gone.map fun g => (g.2.1, 1))

/-- Granules of a unit are overwritten with zero bytes, which need no buffers; writes already staged for them are placed first where the pond gives
their unit no further buffer. -/
def State.zeroGranules (s : State) (q : CmdRef) (seq nsid unit : Nat) (gs : List Nat) : State :=
  let parts := gs.map fun g => (g, zeros 4096)
  let put := fun (s : State) => s.stageGranules q seq nsid unit false false parts
  if gs = [] then s
  else
    match put s with
    | some t => t.placeDue (t.unitDie nsid unit) nsid unit
    | none => (put (s.placeMerged (s.unitDie nsid unit) nsid unit)).getD s

/-- One range is deallocated (R202): whole units are unmapped, a part of a coarse-mapped unit is overwritten with zero
bytes, a part of a fine-mapped unit loses its granules; of a part, granules that are staged are overwritten. -/
def State.deallocate (s : State) (q : CmdRef) (seq nsid slba blocks : Nat) : State :=
  (unitsOf slba blocks).foldl (fun s u =>
    let d := s.unitDie nsid u
    let gs := granulesIn slba blocks u
    let m := s.md d
    let key := cuKey nsid u
    let staged := gs.filter fun g => (m.stagedFor nsid u g).isSome
    let state := (m.entry key).state
    if gs.length = 512 then
      let s1 := (m.staged.filter fun x => x.nsid = nsid && x.unit = u).foldl (fun s x => s.unstage d x) s
      let s2 := gs.foldl (fun s g => s.markLost d nsid (512 * u + g) false) s1
      s2.unmapUnit d nsid u
    else if state = 2 then (s.dropFine d nsid u (gs.filter fun g => !staged.contains g)).zeroGranules q seq nsid u staged
    else if state = 0 then s.zeroGranules q seq nsid u (gs.filter fun g => staged.contains g || (s.granuleAt nsid (512 * u + g)).isSome)
    else s.zeroGranules q seq nsid u gs) s

/-- The blocks that a change touches. -/
def StalledWrite.spans (w : StalledWrite) : List (Nat × Nat) := if w.ranges = [] then [(w.slba, w.blocks)] else w.ranges

/-- Two changes of one namespace overlap. -/
def StalledWrite.meets (w x : StalledWrite) : Bool :=
  w.nsid = x.nsid && w.spans.any fun a => x.spans.any fun b => a.1 < b.1 + b.2 && b.1 < a.1 + a.2

/-- The ranges of a change are deallocated. -/
def State.deallocAll (s : State) (w : StalledWrite) : State :=
  let s1 := w.ranges.foldl (fun s r => s.deallocate w.q w.seq w.nsid r.1 r.2) s
  let dies := (w.ranges.flatMap fun r => (unitsOf r.1 r.2).map (s1.unitDie w.nsid)).eraseDups
  { s1 with host := { s1.host with throughs := s1.host.throughs ++ [(w.q, dies)] } }

/-- A write is staged on its dies and placed as R203 and R238 say; none where a die holds it back or gives no buffers, or where an earlier change
that overlaps it waits or a command of its port fetched before it has not started and might be one (R283, R285). -/
def State.tryWrite (s : State) (before : List StalledWrite) (w : StalledWrite) : Option State :=
  let by' := s.writeBytes w
  let s0 := by'.foldl (fun s b => if s.writeHeld b.1 b.2 = 5 then s.drainDie b.1 else s) s
  if before.any w.meets ∨ (w.q.cntl ≠ 0 ∧ s.earlier (· = portOf w.q.cntl) w.seq) then none
  else if w.ranges ≠ [] then some (s.deallocAll w)
  else if by'.any fun b => s0.writeHeld b.1 b.2 ≠ 0 then none
  else
    ((unitsOf w.slba w.blocks).foldl (fun (a : Option State) u => a.bind fun t =>
        let d := t.writeDie w.nsid u
        t.stageGranules w.q w.seq w.nsid u true (s0.throughWrite d (tgetD by' d 0)) (w.parts u)) (some s0)).map fun t =>
      let t1 := by'.foldl (fun s b =>
        let m := s.md b.1
        s.setMd b.1 { m with hostBytes := m.hostBytes + b.2 }) t
      let t2 := (unitsOf w.slba w.blocks).foldl (fun s u => s.placeDue (s.unitDie w.nsid u) w.nsid u) t1
      let dies := by'.map (·.1)
      let t3 := { t2 with host := { t2.host with throughs := t2.host.throughs ++ [(w.q, dies)] } }
      if t3.host.flushes.any fun f => w.seq < f.seq && f.mine w.nsid then
        (unitsOf w.slba w.blocks).foldl (fun s u => s.placeMerged (s.unitDie w.nsid u) w.nsid u) t3
      else t3

/-- The name under which a task's writes wait: no controller, and the command of a near-data task, or none for a filter. -/
def taskWriter : Option CmdRef → CmdRef
  | none => ⟨0, 0, 0⟩
  | some q => ⟨0, 65536 * q.cntl + q.sqid, q.cid⟩

/-- A namespace write of a near-data command has not been applied yet. -/
def State.writesWait (s : State) (q : CmdRef) : Bool := s.host.stalled.any fun w => w.q = taskWriter (some q)

/-- A near-data command whose task has exited completes (R400): with the status, 256 × SCT + SC, that its outputs met (R25, R278), or with
none. -/
def State.exitDone (s : State) (q : CmdRef) (bad result offered : Nat) : State :=
  (s.complete q (bad / 256) (bad % 256) (bad ≠ 0) result offered).bump 0x500F 2

/-- Near-data commands whose last output entry has been applied complete (R400). -/
def State.settleExits (s : State) : State :=
  (s.host.exits.filter fun e => !s.writesWait e.1).foldl (fun s e =>
    let s1 : State := { s with host := { s.host with exits := s.host.exits.filter (· ≠ e) } }
    if s1.fetched e.1 then s1.exitDone e.1 e.2.1 e.2.2.1 e.2.2.2 else s1) s

/-- Changes that wait are made where nothing holds them back any more, in order of acceptance. -/
def State.retryStalled (s : State) : State :=
  (s.host.stalled.foldl (fun s w =>
    let s0 : State := { s with host := { s.host with stalled := s.host.stalled.erase w } }
    match s0.tryWrite (s.host.stalled.takeWhile (· ≠ w)) w with
    | some t =>
      let t1 := match w.buf with
        | some b => (t.pondPut b.1 b.2).2
        | none => t
      t1.settleWrites
    | none => s) s).settleExits

/-- A command ends, and what waited for it goes on: Flushes and changes fetched after it (R283, R284, R288, R290). -/
def State.finish (s : State) (q : CmdRef) (sct sc : Nat) (dnr : Bool) (dw0 dw1 : Nat) : State :=
  (s.complete q sct sc dnr dw0 dw1).retryStalled

/-- A command is marked as started, and what waited for that goes on (R283, R290). -/
def State.started (s : State) (q : CmdRef) : State := (s.modCmd q fun m => { m with started := true }).settleFlushes.retryStalled

/-- A command completes successfully. -/
def State.succeed (s : State) (q : CmdRef) (dw0 : Nat) : State := s.finish q 0 0 false dw0 0

/-- A command fails with a generic status that a retry would repeat. -/
def State.failCmd (s : State) (q : CmdRef) (sct sc : Nat) : State := s.finish q sct sc true 0 0

/-- The last vendor status and its command (0x4021). -/
def State.noteVendor (s : State) (q : CmdRef) (op sc : Nat) : State := ((s.setObj 0x4021 1 op).setObj 0x4021 2 sc).setObj 0x4021 3 q.cntl

/-- A command that has not ended fails with a vendor status (R288, R302), which 0x4021 reports; DNR but for Busy. -/
def State.failVendor (s : State) (q : CmdRef) (op sc dw0 : Nat) : State :=
  if s.fetched q then (s.noteVendor q op sc).finish q 7 sc (sc ≠ 0xCD) dw0 0 else s

/-- A command that changes stored data fails in safe hold (R286). -/
def State.safeFail (s : State) (q : CmdRef) (op : Nat) : State := (s.bump 0x401F 0).failVendor q op 0xCA 0

/-- Data of a command goes to the host, page by page; where the pages lie in host memory is the host's choice, free values here (R319). -/
def State.dataOut (s : State) (q : CmdRef) (bytes : List Nat) : State :=
  let s1 := (List.range (ceilDiv bytes.length 4096)).foldl (fun s _ => (s.touchHost (q.cntl - 1) s.freeValue).useFree) s
  (s1.emit (.nvmeData q.cntl q.sqid q.cid bytes)).warnOutside s q.cntl

/-- A vendor command is counted by its opcode (0x4016, 0x4017). -/
def State.countVendor (s : State) (admin : Bool) (op : Nat) : State :=
  let i := if admin then 0x4016 else 0x4017
  let off := 4 * (op - if admin then 0xC0 else 0x80)
  let l := fit (if admin then 256 else 512) (s.dom i 0)
  s.setDom i 0 (patch l off (leBytes 4 (field l off 4 + 1)))

/-- The ordered SQ of a command is frozen (R285). -/
def State.frozenSq (s : State) (q : CmdRef) : Bool :=
  match (s.ctrl q.cntl).bind fun c => tget c.sqs q.sqid with
  | some k => k.frozen
  | none => false

/-- A command is executed: fetched, not started yet, and not one of a frozen ordered SQ (R285, R288). -/
def startCmd (s : State) (q : CmdRef) (f : Unit → Res) : Res :=
  onCmd s q fun _ => if s.unstarted q then f () else .next s

/-- A change fetched later from the same port stands behind a change (R283). -/
def StalledWrite.ahead (w x : StalledWrite) : Bool := w.q.cntl ≠ 0 && x.q.cntl ≠ 0 && portOf w.q.cntl = portOf x.q.cntl && w.seq < x.seq

/-- A write waits: in a take its die's further background work goes first, and erased staging capacity below the dirty limit is reported (R227,
R262). -/
def State.stall (s : State) (w : StalledWrite) : State :=
  let by' := s.writeBytes w
  let s1 := by'.foldl (fun s b =>
    let why := s.writeHeld b.1 b.2
    let m := s.md b.1
    let s1 := if why = 2 then s.setMd b.1 { m with heldBack := true } else s
    if why = 4 ∧ s.slcErased b.1 - 16777216 < s.dirtyLimit b.1 then s1.raiseOnce (evDie b.1 69) 0 b.1 else s1) s
  { s1 with host := { s1.host with stalled := (s1.host.stalled.takeWhile fun x => !w.ahead x) ++ w :: s1.host.stalled.dropWhile fun x => !w.ahead x } }

/-- A change of a general namespace is accepted: made, or waiting to be. -/
def State.acceptWrite (s : State) (w : StalledWrite) : State :=
  let w' := { w with seq := s.seqOf w.q }
  match s.tryWrite (s.host.stalled.takeWhile fun x => !w'.ahead x) w' with
  | some t => (t.started w.q).settleWrites
  | none => (s.stall w').started w.q

/-- Blocks that a task's output entry writes into a general namespace: host writes, which wait as those do (R395, R398). -/
def State.taskWrite (s : State) (by' : Option CmdRef) (buf : Nat × Nat) (nsid slba blocks : Nat) (bytes : List Nat) : State :=
  s.acceptWrite ⟨taskWriter by', nsid, slba, blocks, bytes, [], some buf, 0⟩

/-- A range is within a namespace. -/
def State.inRange (s : State) (nsid slba blocks : Nat) : Bool :=
  match tget s.host.nss nsid with
  | some n => slba + blocks ≤ n.nsze
  | none => false

/-! ### Granules that no read gives -/

/-- The die that reads a unit: its own, or one that holds the mirror or reconstructs it when that die has failed. -/
def State.readDie (s : State) (d : Nat) : Nat :=
  if s.healthy d then d else (s.dies.find? s.healthy).getD d

/-- A granule that no read gives is counted and reported: a poisoned one as refused by its consumer (1 flash, 2 the host interface, 3 as an address or key),
another as unrecoverable where it was not yet (R25, R223). -/
def State.noteUnreadable (s : State) (consumer nsid lba : Nat) : State :=
  let d := s.unitDie nsid (lba / 512)
  match (s.md d).stagedFor nsid (lba / 512) (lba % 512) with
  | some _ => s.deliverPoison d consumer
  | none => if s.isLost nsid lba then s else s.lostGranule (s.readDie d) nsid lba

/-! ### Counts behind the health logs (R244) -/

/-- The figures of the SMART log that no object holds, by key: 1 host reads, 2 host writes, 3 busy minutes, 4 power cycles,
5 powered ns, 6 unsafe shutdowns, 7 unrecoverable granules reported, 8 and 9 ns at the warning and the critical temperature, 10 and 11
transitions, 12 and 13 ns in each thermal state, 14 and 15 bytes that hosts read and wrote, 20 the critical warning that a missing marker leaves; 3 counts minutes, and 30 holds the minute last counted, plus 1. -/
def State.addSmart (s : State) (k n : Nat) : State :=
  { s with host := { s.host with smart := tset s.host.smart k (tgetD s.host.smart k 0 + n) } }

/-- The minute now counts as one in which an I/O queue held a command, once. -/
def State.noteBusy (s : State) : State :=
  let m := s.time.now / 60000000000 + 1
  if tgetD s.host.smart 30 0 = m then s
  else
    let s1 := s.addSmart 3 1
    { s1 with host := { s1.host with smart := tset s1.host.smart 30 m } }

end Sys2Proof.Machine
end

