-- ==== Sys2Proof/Machine/TaskBase.lean ====
section
/-!
DEFINITION. Tasks of the compute cores: event flags and posts (R384, R389), ready lists, dispatching (R386 to R388), and
how a task ends (R385, R400).
-/

namespace Sys2Proof.Machine

/-! ### Access -/

/-- A die's compute side with no task. -/
def ComputeDie.empty : ComputeDie := ⟨[], [], [], [], 1, 0, [], 0, 0, [], [], []⟩

/-- A die's compute side. -/
def State.cd (s : State) (d : Nat) : ComputeDie := tgetD s.comp.dies d ComputeDie.empty

/-- The state with a die's compute side set. -/
def State.setCd (s : State) (d : Nat) (c : ComputeDie) : State :=
  { s with comp := { s.comp with dies := tset s.comp.dies d c } }

/-- A task of a die. -/
def State.task (s : State) (d slot : Nat) : Option Task := tget (s.cd d).tasks slot

/-- The state with a task set. -/
def State.setTask (s : State) (d slot : Nat) (t : Task) : State :=
  s.setCd d { s.cd d with tasks := tset (s.cd d).tasks slot t }

/-- The owner identifier of a task (R363). -/
def taskOwner (d slot : Nat) : Nat := ownerId 4 d slot

/-- A program of the store. -/
def State.program (s : State) (h : Nat) : Option Program := tget s.comp.programs h

/-- A new task at creation (R328, R383): registers 0 but for those the dispatcher loads. -/
def Task.create (p : Program) (handle group cls fn : Nat) (selkel1 : Bool) (arg source take spring : Nat) : Task :=
  { state := 1, handle := handle, group := group, cls := cls, fn := fn, core := none, selkel1 := selkel1
    nMode := p.timing = 1, segLen := p.segLen, pc := p.entry
    regs := ([(1, arg % 2 ^ 32), (2, source), (3, take), (4, spring), (29, p.segLen)].filter fun r => r.2 ≠ 0)
    pend := [], avail := [], count := 0, cycles := 0, charged := 0, inTrap := false, flags := 0, waitMask := 0, waitAll := false
    waitReg := 0, windows := [], heldPost := 0, readyAt := 0, startedAt := 0, slice := 0, inSeq := 0, waitIn := [], near := none, filter := none
    result := 0, cause := 0 }

/-! ### Ready lists (R387, R389) -/

/-- The ready list of a group. -/
def State.readyList (s : State) (d g : Nat) : List Nat := tgetD (s.cd d).ready g []

/-- A group's ready list is full. -/
def State.listFull (s : State) (d g : Nat) : Bool := s.obj (0x5050 + d) (g + 1) ≤ (s.readyList d g).length

/-- A task joins the tail of its group's ready list. -/
def State.enqueue (s : State) (d slot : Nat) (t : Task) : State :=
  let l := s.readyList d t.group ++ [slot]
  let s1 := s.setTask d slot { t with state := 2, readyAt := s.time.now }
  (s1.setCd d { s1.cd d with ready := tset (s1.cd d).ready t.group l }).highWater (0x5060 + d) (t.group + 1) l.length

/-- The mask of flags that a post would make set. -/
def flagBit (flag : Nat) : Nat := 2 ^ (flag % 32)

/-- The condition of a WAIT holds (R384). -/
def Task.waitHolds (t : Task) : Bool :=
  let m := Nat.land t.flags t.waitMask
  if t.waitMask = 0 then false else if t.waitAll then m = t.waitMask else m ≠ 0

/-- A blocked task's WAIT ends: D receives the set flags of the mask, and they are cleared. -/
def Task.wake (t : Task) : Task :=
  let m := Nat.land t.flags t.waitMask
  { t with flags := t.flags - m, waitMask := 0, regs := if t.waitReg = 0 then t.regs else tset t.regs t.waitReg m }

/-- The bit of `heldPost` that stands for the start of a task that a full ready list holds back. -/
def startBit : Nat := 2 ^ 32

/-- A post of hardware that a full ready list holds (R389): it lands later, and EV d.089 is raised. -/
def State.holdPost (s : State) (d slot : Nat) (t : Task) (bits : Nat) : State :=
  ((s.setTask d slot { t with heldPost := Nat.lor t.heldPost bits }).bump (0x5098 + d) 1).raiseOnce (evDie d 89) slot d

/-- Flags are posted to a task; a waiting task whose condition then holds becomes ready (R384, R389). -/
def State.post (s : State) (d slot bits : Nat) : State :=
  match s.task d slot with
  | none => s
  | some t =>
    if t.state = 4 then s
    else
      let t' := { t with flags := Nat.lor t.flags bits }
      if t.state = 1 ∧ t'.waitHolds then
        if s.listFull d t.group then s.holdPost d slot t bits else s.enqueue d slot t'.wake
      else s.setTask d slot t'

/-- A created task becomes ready to start; with a full list the dispatcher holds the start. -/
def State.makeReady (s : State) (d slot : Nat) : State :=
  match s.task d slot with
  | none => s
  | some t => if s.listFull d t.group then s.holdPost d slot t startBit else s.enqueue d slot t

/-- A post would make its task ready while the ready list is full (R389). -/
def State.postHeld (s : State) (d slot bits : Nat) : Bool :=
  match s.task d slot with
  | none => false
  | some t => t.state = 1 && ({ t with flags := Nat.lor t.flags bits } : Task).waitHolds && s.listFull d t.group

/-- A held post lands if the group's list has space. -/
def State.landPost (s : State) (d slot : Nat) : State :=
  match s.task d slot with
  | none => s
  | some t =>
    if t.heldPost = 0 ∨ s.listFull d t.group then s
    else
      let s := s.setCd d { s.cd d with engineHeld := (s.cd d).engineHeld.filter fun h => h.2 ≠ slot }
      let t' := { t with heldPost := 0, flags := Nat.lor t.flags (t.heldPost % startBit) }
      if t.state ≠ 1 then s.setTask d slot t'
      else if startBit ≤ t.heldPost then s.enqueue d slot t'
      else if t'.waitHolds then s.enqueue d slot t'.wake
      else s.setTask d slot t'

/-! ### Cores (R386, R387, R407) -/

/-- The task that runs on a logical core. -/
def State.running (s : State) (d core : Nat) : Option (Nat × Task) :=
  (s.cd d).tasks.find? fun t => t.2.state = 3 && t.2.core = some core

/-- The tasks resident on a core. -/
def State.resident (s : State) (d core : Nat) : List (Nat × Task) :=
  (s.cd d).tasks.filter fun t => t.2.core = some core && t.2.state ≠ 4

/-- Free local data memory of a core. -/
def State.freeLocal (s : State) (d core : Nat) : Nat := 131072 - sum ((s.resident d core).map fun t => t.2.segLen)

/-- The handles whose text a core holds. -/
def State.textsOn (s : State) (d core : Nat) : List Nat :=
  ((s.resident d core).map fun t => t.2.handle).eraseDups

/-- Bytes of a program's text. -/
def State.textBytes (s : State) (h : Nat) : Nat := ((s.program h).map fun p => 4 * p.text.length).getD 0

/-- Instruction memory in use on a core. -/
def State.textUse (s : State) (d core : Nat) : Nat := sum ((s.textsOn d core).map s.textBytes)

/-- A core is in service, and the domain of its physical core's cluster usable (R546). -/
def State.coreUp (s : State) (d core : Nat) : Bool :=
  core < 16 && !(s.cd d).lost.contains core && s.usable d (s.physical d core / 9)

/-- A task fits on a core as a new resident (R386). -/
def State.fits (s : State) (d core : Nat) (t : Task) : Bool :=
  let texts := s.textsOn d core
  (s.resident d core).length < 8 && t.segLen ≤ s.freeLocal d core &&
    (texts.contains t.handle || s.textUse d core + s.textBytes t.handle ≤ 65536)

/-- The cores that a ready task may use: its own when resident, else those of its group's mask on which it fits. -/
def State.coresFor (s : State) (d : Nat) (t : Task) : List Nat :=
  match t.core with
  | some c => if s.coreUp d c then [c] else []
  | none => (List.range 16).filter fun c =>
      s.coreUp d c && bitOf (s.obj (0x5048 + d) (t.group + 1)) c && s.fits d c t

/-- The better of two cores: one that holds the text, then the one with more free local data memory, then the lower. -/
def State.better (s : State) (d h a b : Nat) : Bool :=
  let ta := (s.textsOn d a).contains h
  let tb := (s.textsOn d b).contains h
  if ta ≠ tb then ta else s.freeLocal d b ≤ s.freeLocal d a

/-- The best core of a list. -/
def State.bestCore (s : State) (d h : Nat) : List Nat → Option Nat
  | [] => none
  | c :: t =>
    match State.bestCore s d h t with
    | none => some c
    | some b => some (if s.better d h c b then c else b)

/-- Where a group's head task can start now: a free eligible core, or, for a capture-class task, a core on which a
compute-class task runs (R388). -/
def State.placeFor (s : State) (d : Nat) (t : Task) : Option Nat :=
  let cores := s.coresFor d t
  match s.bestCore d t.handle (cores.filter fun c => (s.running d c).isNone) with
  | some c => some c
  | none =>
    if t.cls ≠ 0 then none
    else s.bestCore d t.handle (cores.filter fun c =>
      match s.running d c with
      | some r => r.2.cls ≠ 0
      | none => false)

/-- The groups whose head can start, with head and core; none while a power-loss commit has the cores halted (R240). -/
def State.candidates (s : State) (d : Nat) : List (Nat × Nat × Task × Nat) :=
  if s.media.commitRunning then [] else (List.range 16).filterMap fun g =>
    match s.readyList d g with
    | [] => none
    | slot :: _ =>
      match s.task d slot with
      | none => none
      | some t => (s.placeFor d t).map fun c => (g, slot, t, c)

/-- Dispatches that a group has had in this round. -/
def roundUse (r : List (Nat × Nat)) (g : Nat) : Nat := ((r.find? fun e => e.1 = g).map (·.2)).getD 0

/-- The group served next: capture class first, weights over successive rounds, the pointer between equals (R29). -/
def State.winner (s : State) (d : Nat) : Option (Nat × Nat × Task × Nat) :=
  let all := s.candidates d
  let cap := all.filter fun x => x.2.2.1.cls = 0
  let c := s.cd d
  let pool := if cap.isEmpty then
      let fresh := all.filter fun x => roundUse c.round x.1 < s.obj (0x5040 + d) (x.1 + 1)
      if fresh.isEmpty then all else fresh
    else cap
  match pool.find? fun x => c.pointer ≤ x.1 with
  | some x => some x
  | none => pool.head?

/-- The bin of a waiting time in ns (R408). -/
def waitBin (ns : Nat) : Nat :=
  if ns < 1000 then 0 else ((List.range 15).filter fun n => 2 ^ n * 1000 ≤ ns).length

/-- A histogram of U32 bins with one bin counted. -/
def countBin (l : List Nat) (bytes k : Nat) : List Nat :=
  let l' := fit bytes l
  patch l' (4 * k) (leBytes 4 (field l' (4 * k) 4 + 1))

/-- A running task returns to the tail of its ready list. -/
def State.yieldCore (s : State) (d slot : Nat) : State :=
  match s.task d slot with
  | none => s
  | some t => s.enqueue d slot t

/-- The cycles that a task has run since the last count are counted for its core (R408). -/
def State.charge (s : State) (d slot : Nat) : State :=
  match s.task d slot with
  | none => s
  | some t =>
    let n := t.cycles - t.charged
    match t.core with
    | none => s
    | some core =>
      if n = 0 then s
      else
        let s1 := s.setTask d slot { t with charged := t.cycles }
        let c := s1.cd d
        (s1.setCd d { c with busy := tset c.busy core (tgetD c.busy core 0 + n) }).addObj (0x5078 + d) (core + 1) n

/-- The busy counts of a die are brought up to an epoch boundary: each core's busy percentage of the epoch that ends (R408). -/
def State.chargeDie (s : State) (d epochNs : Nat) : State :=
  let s1 := (s.cd d).tasks.foldl (fun s t => s.charge d t.1) s
  let s2 := (List.range 16).foldl (fun s c =>
    s.setObj (0x5070 + d) (c + 1) (min 100 (tgetD (s.cd d).busy c 0 * 100000 / max 1 (epochNs * s.obj (0x8178 + d) 0)))) s1
  s2.setCd d { s2.cd d with busy := [] }

/-- A task starts on a core (R376, R386); one that resumes has been off its core for a free number of core cycles. -/
def State.startTask (s : State) (d g slot : Nat) (t0 : Task) (core : Nat) : State :=
  let s := s.charge d slot
  let t := (s.task d slot).getD t0
  let wait := s.time.now - t.readyAt
  let resumed := t.core.isSome
  let away := if resumed then s.freeValue else 0
  let s0 := if resumed then s.useFree else s
  let s1 := s0.setTask d slot { t with state := 3, core := some core, startedAt := s.time.now, slice := s.obj 0x500C 0, cycles := t.cycles + away, charged := t.cycles + away }
  let c := s1.cd d
  let use := roundUse c.round g + 1
  let reset := (s.candidates d).all fun x => s.obj (0x5040 + d) (x.1 + 1) ≤ roundUse c.round x.1
  let round := (g, if reset then 1 else use) :: (if reset then [] else c.round.filter fun e => e.1 ≠ g)
  let s2 := s1.setCd d { c with ready := tset c.ready g ((tgetD c.ready g []).erase slot), pointer := (g + 1) % 16, round := round }
  let hist := countBin (s2.dom (0x5068 + d) 0) 1024 (16 * g + waitBin wait)
  (s2.setDom (0x5068 + d) 0 hist).bump (0x5088 + d) 0

/-- DISPATCH (R386, R387, R388): the arbiter's winner starts on its core; a capture-class task preempts a compute-class
task there. -/
def execDispatch (die : Nat) (s : State) : Res :=
  onDie s die fun _ =>
    match s.winner die with
    | none => .next s
    | some (g, slot, t, core) =>
      let s1 := s.startTask die g slot t core
      match s.running die core with
      | none => .next s1
      | some (other, o) => .next ((s1.enqueue die other o).bump (0x5090 + die) 2)

/-- TIME_SLICE_EXPIRY (R388): a compute-class task that has run a full slice returns to its ready list while a ready task
waits for its core. -/
def execTimeSliceExpiry (die core : Nat) (s : State) : Res :=
  onDie s die fun _ =>
    match s.running die core with
    | none => .next s
    | some (slot, t) =>
      let waits := (List.range 16).any fun g => (s.readyList die g).any fun o =>
        match s.task die o with
        | some u => (s.coresFor die u).contains core
        | none => false
      if t.cls ≠ 0 ∧ waits ∧ t.startedAt + t.slice * 1000 ≤ s.time.now then
        .next ((s.yieldCore die slot).bump (0x5090 + die) 1)
      else .next s

/-! ### How a task ends (R385, R400) -/

/-- An 18-byte record of the task-end log (0x500D). -/
def endRecord (d slot cause handle result trap epoch : Nat) : List Nat :=
  [d] ++ leBytes 2 slot ++ [cause, handle, 0] ++ leBytes 4 result ++ [trap, 0] ++ leBytes 6 epoch

/-- A record appended to a log of at most so many bytes, oldest first. -/
def appendLog (l rec : List Nat) (bytes : Nat) : List Nat :=
  let all := l ++ rec
  all.drop (all.length - bytes)

/-- The jobs of a task stop: queued ones end as abandoned, running ones at their next block boundary (R316, R385). -/
def ComputeDie.abandon (c : ComputeDie) (slot : Nat) : ComputeDie :=
  { c with jobs := (c.jobs.filter fun j => !(j.2.slot = slot && j.2.state = 0)).map fun j =>
      (j.1, if j.2.slot = slot ∧ j.2.state = 1 then { j.2 with abandoned := true } else j.2) }

/-- A slot whose task has ended is free once its pond entries are walked and its jobs have stopped (R382). -/
def State.freeSlot (s : State) (d slot : Nat) : State :=
  match s.task d slot with
  | none => s
  | some t =>
    let c := s.cd d
    if t.state = 4 ∧ !s.pond.walked.contains (taskOwner d slot) ∧ !c.jobs.any (fun j => j.2.slot = slot && j.2.state = 1) then
      let jobs := c.jobs.filter fun j => j.2.slot ≠ slot
      let s1 := (s.setCd d { c with tasks := tdel c.tasks slot, jobs := jobs }).wipe (taskAddr d slot 0) 131072
      -- an unloading program whose last task has ended is freed (R296)
      let left := s1.dies.any fun e => (s1.cd e).tasks.any fun u => u.2.handle = t.handle
      match s1.program t.handle with
      | some p => if p.state = 3 ∧ !left then { s1 with comp := { s1.comp with programs := tdel s1.comp.programs t.handle } } else s1
      | none => s1
    else s

/-- How a near-data command completes when its task ends (R400): exit, which waits for the task's namespace writes, trapped, lost, reset, function reset. A task
reset through 0x5100 leaves the command's status open: a free value. -/
def State.endCommand (s : State) (n : NearData) (cause result trap : Nat) : State :=
  if !s.fetched n.q then s
  else if cause = 0 ∧ s.writesWait n.q then { s with host := { s.host with exits := s.host.exits ++ [(n.q, n.badStatus, result, n.offered)] } }
  else if cause = 0 then s.exitDone n.q n.badStatus result n.offered
  else if cause = 1 then ((s.noteVendor n.q 0x82 0xC5).finish n.q 7 0xC5 true trap n.offered).confine (n.q.cntl - 1)
  else if cause = 2 then (s.noteVendor n.q 0x82 0xCD).finish n.q 7 0xCD false 0 n.offered
  else if cause = 3 then (s.finish n.q (s.freeValue % 8) (s.freeValue / 8 % 256) false 0 n.offered).useFree
  else s

/-- A task ends (R385): it is logged and counted, its jobs stop, its pond entries are walked, its filter frames miss. -/
def State.endTask (s0 : State) (d slot cause result trap : Nat) : State :=
  let s := s0.charge d slot
  match s.task d slot with
  | none => s
  | some t =>
    if t.state = 4 then s
    else
      let c := (s.cd d).abandon slot
      let ready := c.ready.map fun g => (g.1, g.2.filter (· ≠ slot))
      let held := c.engineHeld.filter fun h => h.2 ≠ slot
      let t' := { t with state := 4, result := result, cause := cause, windows := [], heldPost := 0 }
      let s1 := s.setCd d { c with tasks := tset c.tasks slot t', ready := ready, engineHeld := held }
      let log := appendLog (s1.dom 0x500D 0) (endRecord d slot cause t.handle result trap s.epoch) 1152
      let s2 := (s1.setDom 0x500D 0 log).bump 0x500E (cause + 1)
      let s3 := if cause = 1 then s2.raiseTo (evDie d 90) (slot + 65536 * trap) t.fn s2.enabledPfs else s2
      let s4 := s3.ownerWalk (taskOwner d slot)
      match t.near with
      | some n => s4.endCommand n cause result trap
      | none => s4

/-! ### Job queues -/

/-- The jobs of an engine in the order in which they are served: capture class first (R29). -/
def ComputeDie.queue (c : ComputeDie) (engine : Nat) : List (Nat × Job) :=
  let q := c.jobs.filter fun j => j.2.engine = engine && j.2.state = 0
  q.filter (fun j => j.2.cls = 0) ++ q.filter (fun j => j.2.cls ≠ 0)

/-- The jobs of an engine that run. -/
def ComputeDie.active (c : ComputeDie) (engine : Nat) : List (Nat × Job) :=
  c.jobs.filter fun j => j.2.engine = engine && j.2.state = 1

/-- The state with a job set. -/
def State.setJob (s : State) (d ticket : Nat) (j : Job) : State :=
  s.setCd d { s.cd d with jobs := tset (s.cd d).jobs ticket j }

/-- The pond buffer of a handle that a holder holds: its bytes' address and size; none when stale or not held. -/
def State.heldBuffer (s : State) (holder h : Nat) : Option (Nat × Nat) :=
  let d := handleDie h
  let p := handlePool h
  match s.pool d p with
  | none => none
  | some q =>
    match q.judge h holder with
    | none => some (bufAddr d p (handleIndex h) 0, 2 ^ q.cfg.size)
    | some _ => none

end Sys2Proof.Machine
end

