-- ==== Sys2Proof/Machine/Search.lean ====
section
/-!
DEFINITION. Chapter 13: searches over the array and its cascade, false hits, tables and their maintenance.
-/

namespace Sys2Proof.Machine

/-! ### Tables and places -/

/-- Rows of one entry of a table. -/
def STable.span (t : STable) : Nat := if t.width = 1 then 1 else if t.width = 2 then 2 else 4

/-- Key bits of a table. -/
def STable.keyBits (t : STable) : Nat := 144 * t.span

/-- A table that finds and takes entries: active, or changing and not yet cleared. -/
def State.table (s : State) (n : Nat) : Option STable :=
  match tget s.search.tables n with
  | some t => if t.width ≠ 0 ∧ (t.state = 1 ∨ t.state = 2) then some t else none
  | none => none

/-- The state with a table set. -/
def State.setTable (s : State) (n : Nat) (t : STable) : State :=
  { s with search := { s.search with tables := tset s.search.tables n t } }

/-- Entry places of a table on each die, and in the package. -/
def STable.perDie (t : STable) : Nat := t.rows / t.span
def State.places (s : State) (t : STable) : Nat := s.cfg.dies * t.perDie

/-- The die and lowest row of a place of a table. -/
def STable.at (t : STable) (k : Nat) : Nat × Nat := (k / max 1 t.perDie, t.base + k % max 1 t.perDie * t.span)

/-- The entries of a die. -/
def State.rowsOf (s : State) (d : Nat) : Tab SRow := tgetD s.search.dies d []

/-- The state with a die's entries set. -/
def State.setRows (s : State) (d : Nat) (r : Tab SRow) : State :=
  { s with search := { s.search with dies := tset s.search.dies d r } }

/-- The entry at a place. -/
def State.entryAt (s : State) (t : STable) (k : Nat) : Option SRow := tget (s.rowsOf (t.at k).1) (t.at k).2

/-- The state with an entry written, or invalidated, at a place. -/
def State.writeEntry (s : State) (t : STable) (k : Nat) (e : Option SRow) : State :=
  let (d, r) := t.at k
  match e with
  | some x => s.setRows d (tset (s.rowsOf d) r x)
  | none => s.setRows d (tdel (s.rowsOf d) r)

/-- A fresh entry: VALUE bits are 0 where MASK is 0 (R412), and the array holds what the key copy holds (R414). -/
def SRow.make (value mask data : Nat) : SRow :=
  let v := Nat.land value mask
  ⟨v, mask, data % 2 ^ 56 % 2 ^ 48 + data / 2 ^ 56 % 256 * 2 ^ 56, v, mask, false, false, 0⟩

/-- PRIO of an entry (R414). -/
def SRow.prio (e : SRow) : Nat := e.data / 2 ^ 56

/-- The address word of a die and row at this package's position (R418). -/
def State.addrWord (s : State) (d row : Nat) : Nat := s.obj 0x7002 1 * 2 ^ 18 + d * 2 ^ 15 + row

/-- Places of a table that hold no entry. -/
def State.freePlaces (s : State) (t : STable) : List Nat := (List.range (s.places t)).filter fun k => (s.entryAt t k).isNone

/-- Valid entries of a table. -/
def State.validEntries (s : State) (t : STable) : Nat := s.places t - (s.freePlaces t).length

/-! ### Searches (R412, R419, R420, R421, R426) -/

/-- A row that is not suspect matches a key in the array. -/
def SRow.matches (e : SRow) (key : Nat) : Bool := !e.suspect && Nat.land (Nat.xor key e.arrValue) e.arrMask = 0

/-- The key copy of a row matches a key. -/
def SRow.copyMatches (e : SRow) (key : Nat) : Bool := Nat.land (Nat.xor key e.value) e.mask = 0

/-- The rows of a table on a die, in ascending order. -/
def State.tableRows (s : State) (d : Nat) (t : STable) : List (Nat × SRow) :=
  (s.rowsOf d).filter fun r => t.base ≤ r.1 && r.1 < t.base + t.rows

/-- A row is marked suspect and a rewrite is scheduled (R426). -/
def State.markSuspect (s : State) (d row : Nat) : State :=
  s.setRows d (tmod (s.rowsOf d) row fun (e : SRow) => { e with suspect := true, rewrite := true })

/-- The percentage of search cycles that each die used in the epoch that ends, of one cycle per ns (R411, R439). -/
def State.searchBoundary (s : State) (epochNs : Nat) : State :=
  let s1 := s.dies.foldl (fun s d => s.setObj (0x7088 + d) 1 (min 100 (tgetD s.search.cycles d 0 * 100 / max 1 epochNs))) s
  { s1 with search := { s1.search with cycles := [] } }

/-- A die's search of a table uses its search cycles (R411). -/
def State.countCycles (s : State) (d : Nat) (t : STable) : State :=
  { s with search := { s.search with cycles := tset s.search.cycles d (tgetD s.search.cycles d 0 + t.span) } }

/-- A die's search: status 0 or 5 (unreliable), the first match's row, the count, and the state after false hits. At most
so many false hits are passed over. -/
def State.searchDie (s : State) (d : Nat) (t : STable) (key : Nat) : Nat → Nat × Option Nat × Nat × State
  | 0 => (5, none, 0, s.raise (evDie d 100) 0)
  | n + 1 =>
    let s := s.countCycles d t
    let hits := (s.tableRows d t).filter fun r => r.2.matches key
    match hits with
    | [] => (0, none, 0, s)
    | (row, e) :: _ =>
      if e.copyMatches key then (0, some row, hits.length, s)
      else
        let s1 := ((s.markSuspect d row).bump 0x7009 1).raiseOnce (evDie d 96) row d
        State.searchDie (if n = 0 then s1 else s1.bump 0x7009 2) d t key n

/-- A package-scope search: every die is searched, the lowest die's match wins, the counts are summed; a fifth false hit
on one die ends it unreliable. -/
def State.searchPackage (s : State) (t : STable) (key : Nat) : Nat × Option Nat × Nat × State :=
  let step := fun (acc : Nat × Option Nat × Nat × State) (d : Nat) =>
    let (st, found, count, s) := acc
    let (st', row, c, s') := (s.bump (0x7080 + d) 0).searchDie d t (key % 2 ^ t.keyBits) 5
    (max st st', match found with
      | some f => some f
      | none => row.map fun r => s'.addrWord d r, count + c, s')
  let r := ((s.dies.filter fun d => s.healthy d).foldl step (0, none, 0, s))
  (r.1, r.2.1, r.2.2.1, if r.1 = 5 then r.2.2.2.bump 0x7009 3 else r.2.2.2)

/-- The search result word (R418). -/
def resultWord (node : Nat) (found : Option Nat) : Nat :=
  match found with
  | some a => node * 2 ^ 20 + a
  | none => 2 ^ 31

/-! ### Maintenance (R429 to R433) -/

/-- A refusal is recorded (0x700B). -/
def State.refuseSearch (s : State) (table status addr : Nat) : State :=
  (((s.setObj 0x700B 1 table).setObj 0x700B 2 status).setObj 0x700B 3 addr).setObj 0x700B 4 s.epoch

/-- One past the highest place that holds a valid entry of at least a priority (R429). -/
def State.insertPoint (s : State) (t : STable) (prio : Nat) : Nat :=
  (List.range (s.places t)).foldl (fun p k =>
    match s.entryAt t k with
    | some e => if prio ≤ e.prio then k + 1 else p
    | none => p) 0

/-- The move with which an ordered insertion begins; none when its place is free. -/
def State.planMove (s : State) (t : STable) (prio : Nat) : Option Move :=
  let p := s.insertPoint t prio
  if p < s.places t ∧ (s.entryAt t p).isNone then none
  else
    let free := s.freePlaces t
    match free.find? fun k => p < k with
    | some h => some ⟨h, p, true⟩
    | none =>
      match (free.filter fun k => k < p).getLast? with
      | some h => some ⟨h, p - 1, false⟩
      | none => none

/-- The head of a table's queue begins: an ordered insertion plans its move. -/
def State.beginMaint (s : State) (n : Nat) : State :=
  match tget s.search.tables n with
  | none => s
  | some t =>
    match t.queue with
    | [] => s
    | op :: _ =>
      if op.kind = 0 ∧ t.order = 1 then s.setTable n { t with move := s.planMove t (op.data / 2 ^ 56) }
      else s.setTable n { t with move := none }

/-- An operation joins a table's queue. -/
def State.queueMaint (s : State) (n : Nat) (t : STable) (op : MaintOp) : State :=
  let s1 := s.setTable n { t with queue := t.queue ++ [op] }
  if t.queue.isEmpty then s1.beginMaint n else s1

/-- How an insertion or a clear is answered at acceptance (R416, R431, R435): 0x00, or 0x03 full, 0x06 queue full, or an insertion into a changing
table. -/
def State.acceptMaint (s : State) (n : Nat) (t : STable) (op : MaintOp) : Nat × State :=
  if (t.state = 2 ∧ op.kind = 0) ∨ 16 ≤ t.queue.length then (6, s.refuseSearch n 6 0)
  else if op.kind = 0 ∧ (s.freePlaces t).length ≤ (t.queue.filter fun o => o.kind = 0).length then (3, s.refuseSearch n 3 0)
  else (0, s.queueMaint n t op)

/-- One entry moves to the gap: written at its new place, its old row invalidated, all between two search cycles
(R430). -/
def State.moveStep (s : State) (n : Nat) (t : STable) (m : Move) : State :=
  let src := if m.up then m.gap - 1 else m.gap + 1
  match s.entryAt t src with
  | none => s.setTable n { t with move := some { m with gap := src } }
  | some e =>
    let s1 := ((s.writeEntry t m.gap (some e)).writeEntry t src none).setTable n { t with move := some { m with gap := src } }
    let d := (t.at m.gap).1
    let s2 := s1.bump (0x70C0 + d) 1
    if (t.at src).1 ≠ d then s2.bump (0x70C0 + d) 2 else s2

/-- A move runs to its end. -/
def State.runMove (s : State) (n : Nat) : Nat → State
  | 0 => s
  | k + 1 =>
    match tget s.search.tables n with
    | some t => match t.move with
      | some m => if m.gap = m.goal then s else State.runMove (s.moveStep n t m) n k
      | none => s
    | none => s

/-- The head of a table's queue ends: the new entry is written, or the table cleared; its flag is posted and the next
operation begins. -/
def State.endMaint (s : State) (n : Nat) : State :=
  match tget s.search.tables n with
  | none => s
  | some t =>
    match t.queue with
    | [] => s
    | op :: rest =>
      let s1 :=
        if op.kind = 1 then (List.range (s.places t)).foldl (fun s k => s.writeEntry t k none) s
        else
          let k := match t.move with
            | some m => some m.goal
            | none => if t.order = 1 then some (s.insertPoint t (op.data / 2 ^ 56)) else (s.freePlaces t).head?
          match k with
          | some k => s.writeEntry t k (some (SRow.make op.value op.mask op.data))
          | none => s
      let s2 := s1.setTable n { t with queue := rest, move := none, moves := if t.move.isSome then t.moves + 1 else t.moves }
      let s3 := match op.flag with
        | some (d, slot, f) => s2.post d slot (flagBit f)
        | none => s2
      s3.beginMaint n

/-- Everything queued for a table is executed, as SWR, SDEL and SRD wait for (R431). -/
def State.drainTable (s : State) (n : Nat) : Nat → State
  | 0 => s
  | k + 1 =>
    match tget s.search.tables n with
    | some t => if t.queue.isEmpty then s else State.drainTable ((s.runMove n (s.places t)).endMaint n) n k
    | none => s

/-- The table and place of an entry address of this package; none outside every table. -/
def State.placeOf (s : State) (addr : Nat) : Option (Nat × STable × Nat) :=
  let d := addr / 2 ^ 15 % 8
  let row := addr % 2 ^ 15
  if addr / 2 ^ 18 % 4 ≠ s.obj 0x7002 1 ∨ !s.hasDie d then none
  else
    ((List.range 64).filterMap fun n =>
      match s.table n with
      | some t => if t.base ≤ row ∧ row < t.base + t.rows ∧ (row - t.base) % t.span = 0 then
          some (n, t, d * t.perDie + (row - t.base) / t.span) else none
      | none => none).head?

/-- An entry at a place keeps the PRIO order of its ordered table (R432). -/
def State.orderOk (s : State) (t : STable) (k prio : Nat) : Bool :=
  (List.range (s.places t)).all fun j =>
    match s.entryAt t j with
    | none => true
    | some e => if j < k then prio ≤ e.prio else if k < j then e.prio ≤ prio else true

/-- The state with a table's definition in force: empty, in the state given. -/
def STable.ofDef (b : List Nat) (state : Nat) : STable :=
  ⟨field b 0 1, field b 1 1, field b 2 1, field b 4 4, field b 8 4, state, none, [], none, 0⟩

/-- The 16 bytes of a table's definition in 0x7001. -/
def State.tableDef (s : State) (n : Nat) : List Nat := slice (16 * n) 16 (s.dom 0x7001 0)

/-- Two row ranges overlap. -/
def overlaps (b1 r1 b2 r2 : Nat) : Bool := b1 < b2 + r2 && b2 < b1 + r1

/-- Tables are fitted in ascending number; one that runs past the last row or overlaps a lower one is unassigned
(R416), and so is one that R415 does not allow (log entry 174). Answers the numbers left unassigned. -/
def State.unassignedTables (s : State) : List Nat :=
  (List.range 64).foldl (fun out n =>
    let b := s.tableDef n
    if field b 0 1 = 0 then out
    else
      let past := 32768 < field b 4 4 + field b 8 4 || 3 < field b 0 1 || 1 < field b 1 1 || field b 4 4 % 64 ≠ 0 || field b 8 4 % 64 ≠ 0 ||
        field b 8 4 = 0
      let hit := (List.range n).any fun m =>
        let c := s.tableDef m
        field c 0 1 ≠ 0 && !out.contains m && overlaps (field b 4 4) (field b 8 4) (field c 4 4) (field c 8 4)
      if past || hit then out ++ [n] else out) []

/-- Every entry of a table is invalidated. -/
def State.clearTable (s : State) (t : STable) : State :=
  (List.range (s.places t)).foldl (fun s k => s.writeEntry t k none) s

/-- A table whose rows still hold entries or operations of its old definition keeps a new table off them until its own change takes effect. -/
def State.rowsTaken (s : State) (n : Nat) (fresh : STable) : Bool :=
  s.search.tables.any fun t => t.1 ≠ n && t.2.width ≠ 0 && t.2.state ≠ 3 && !t.2.queue.isEmpty &&
    overlaps t.2.base t.2.rows fresh.base fresh.rows

/-- Table definitions take effect at a boundary: a change of ACCESS at once, any other change with the table empty once
no maintenance operation of it, or of a table whose rows it takes over, is queued or running (R416). -/
def State.fitTables (s : State) : State :=
  let un := s.unassignedTables
  (List.range 64).foldl (fun s n =>
    let b := s.tableDef n
    let fresh := STable.ofDef b (if field b 0 1 = 0 then 0 else if un.contains n then 3 else 1)
    let wait := fresh.state = 1 && s.rowsTaken n fresh
    match tget s.search.tables n with
    | none =>
      if fresh.state = 0 then s
      else if wait then s.setTable n { STable.ofDef [] 2 with change := some b } else s.setTable n fresh
    | some t =>
      let same := t.width = fresh.width && t.order = fresh.order && t.base = fresh.base && t.rows = fresh.rows &&
        (t.state = fresh.state || (t.state = 2 && fresh.state = 1 && t.change.isNone))
      if same then s.setTable n { t with access := fresh.access }
      else if !t.queue.isEmpty then s.setTable n { t with state := 2, change := some b }
      else if wait then (s.clearTable t).setTable n { STable.ofDef [] 2 with moves := t.moves, change := some b }
      else (s.clearTable t).setTable n { fresh with moves := t.moves }) s

/-! ### Meanings -/

/-- ENTRY_MOVE (R430). -/
def execEntryMove (table : Nat) (s : State) : Res :=
  match tget s.search.tables table with
  | some t => match t.move with
    | some m => if m.gap = m.goal then .next s else .next (s.moveStep table t m)
    | none => .next s
  | none => .next s

/-- MAINTENANCE_OPERATION_COMPLETE (R429, R431): the operation at the head of the queue ends, with what was left of its
move, and posts its flag. -/
def execMaintenanceOperationComplete (table : Nat) (s : State) : Res :=
  match tget s.search.tables table with
  | some t => if t.queue.isEmpty then .next s
      else .next ((s.runMove table (s.places t)).endMaint table)
  | none => .next s

/-- A rewritten row agrees, is tried again, gets a spare, or is lost (R427). -/
def State.rowRewritten (s : State) (die row : Nat) (e : SRow) (agrees poisoned : Bool) : State :=
  if poisoned then (((s.setRows die (tdel (s.rowsOf die) row)).bump 0x7009 4).raise (evDie die 99) row)
  else
    let good := { e with suspect := false, rewrite := false, tries := 0, arrValue := e.value, arrMask := e.mask }
    let s1 := s.bump (0x70A0 + die) 0
    if agrees then (s1.setRows die (tset (s1.rowsOf die) row good))
    else if e.tries + 1 < 3 then
      (s1.setRows die (tset (s1.rowsOf die) row { e with suspect := true, tries := e.tries + 1 }))
    else
      let s2 := s1.bump (0x70B0 + die) 0
      if s.obj (0x70A8 + die) 0 = 0 then
        ((s2.setRows die (tset (s2.rowsOf die) row { e with suspect := true, rewrite := false, tries := 3 })).raise (evDie die 98) row)
      else
        ((((s2.setRows die (tset (s2.rowsOf die) row good)).setObj (0x70A8 + die) 0
          (s.obj (0x70A8 + die) 0 - 1)).countSpare die 3).raise (evDie die 97) row)

/-- ROW_REWRITE_COMPLETE (R427): a poisoned key copy loses the entry; agreement clears the suspect mark; a third failure
brings in a spare row, or leaves the row suspect for good. -/
def execRowRewriteComplete (die row : Nat) (agrees poisoned : Bool) (s : State) : Res :=
  onDie s die fun _ =>
    match tget (s.rowsOf die) row with
    | none => .next s
    | some e => if e.rewrite then .next (s.rowRewritten die row e agrees poisoned) else .next s

/-- A rewrite of a row is scheduled. -/
def State.scheduleRewrite (s : State) (d row : Nat) : State :=
  s.setRows d (tmod (s.rowsOf d) row fun (e : SRow) => { e with rewrite := true })

/-- A row whose array content is found to differ from its key copy: what the array holds is a free value until the row is rewritten (R428). -/
def State.upsetRow (s : State) (d row : Nat) : State :=
  (s.setRows d (tmod (s.rowsOf d) row fun (e : SRow) =>
    if e.arrValue = e.value ∧ e.arrMask = e.mask then { e with arrValue := s.freeValue, arrMask := s.useFree.freeValue } else e)).useFree.useFree

/-- A scrub pass of a die's search rows schedules a rewrite of those that differ (R428). -/
def State.scrubRows (s0 : State) (die : Nat) (mismatched : List Nat) : State :=
  let s := mismatched.foldl (fun s r => s.upsetRow die r) s0
  let rows := s.rowsOf die
  let bad := (rows.filter fun r => mismatched.contains r.1 || r.2.arrValue ≠ r.2.value || r.2.arrMask ≠ r.2.mask).map (·.1)
  let s1 := (s.addObj (0x70C8 + die) 1 rows.length).addObj (0x70C8 + die) 2 bad.length
  bad.foldl (fun s r => s.scheduleRewrite die r) { s1 with search := { s1.search with scrubs := tset s1.search.scrubs die s.epoch } }

/-- A die's scrub of its array is due: the scrub window is open, and none has been made since the reset, or 0x7004 epochs have passed since the last
(R428). -/
def State.searchScrubDue (s : State) (d : Nat) : Bool :=
  s.healthy d && s.inScrub d &&
    match tget s.search.scrubs d with
    | some e => atOrAhead s.epoch (wrap48 (e + s.obj 0x7004 0))
    | none => true

/-- SEARCH_ARRAY_SCRUB (R428): every valid row is compared with its key copy; a mismatch is rewritten. -/
def execSearchArrayScrub (die : Nat) (mismatched : List Nat) (s : State) : Res :=
  onDie s die fun _ => if s.searchScrubDue die then .next (s.scrubRows die mismatched) else .next s

/-- The ring state of the board cascade changes, with EV 0.102 (R423). -/
def State.setRing (s : State) (st : Nat) : State :=
  if s.obj 0x7002 3 = st then s else (s.setObj 0x7002 3 st).raise (evDie 0 102) st

/-- Ring traffic has reached die 0 (R423): the ring is up unless two packages claim one position. -/
def State.hearRing (s : State) : State :=
  let s1 : State := { s with search := { s.search with heardAt := some s.time.now } }
  if s.obj 0x7002 2 = 1 ∨ s.obj 0x7002 3 = 3 then s1 else s1.setRing 1

/-- The opcode of a host's search of a table: Search for width 144, else Search Wide (R436). -/
def State.searchOp (s : State) (table : Nat) : Nat :=
  match s.table table with
  | some t => if t.width = 1 then 0x80 else 0x85
  | none => 0x80

/-- Board scope is available (R423). -/
def State.boardUp (s : State) : Bool := s.obj 0x7002 2 ≠ 1 && s.obj 0x7002 3 = 1

/-- The completion of a host search: unreliable ends with Internal Error (R436). -/
def State.answerSearch (s : State) (q : CmdRef) (status node : Nat) (found : Option Nat) (count : Nat) : State :=
  if status = 5 then s.finish q 0 6 false 0 0 else s.finish q 0 0 false (resultWord node found) count

/-- The lower of two addresses. -/
def lowerAddr (a b : Option Nat) : Option Nat :=
  match a, b with
  | some x, some y => some (min x y)
  | some x, none => some x
  | none, y => y

/-- A key token on the ring: the device's own ends its search, another's is answered and passed on (R422, R423). -/
def State.cascadeKey (s : State) (issuer width table key : Nat) (carried : Option Nat) (count : Nat) : State :=
  let s0 := s.hearRing
  if issuer = s.obj 0x7002 1 then
    match s0.search.board.find? fun b => b.2.1 = table && b.2.2 = key with
    | none => s0
    | some b =>
      let s1 := { s0 with search := { s0.search with board := s0.search.board.erase b } }
      (s1.answerSearch b.1 0 0 carried count)
  else
    match s0.table table with
    | none => (s0.emit (.cascade 0 issuer table key carried count))
    | some t =>
      if t.width ≠ width then (s0.emit (.cascade 0 issuer table key carried count))
      else
        let (_, found, c, s1) := s0.searchPackage t key
        ((s1.bump 0x7008 2).emit (.cascade 0 issuer table key (lowerAddr carried found) (count + c)))

/-- CASCADE_KEY (R422): a key of another package is searched and passed on with the lower address and the summed count;
the package's own key has come round and answers its search. -/
def execCascadeKey (issuer width table key : Nat) (carried : Option Nat) (count : Nat) (s : State) : Res :=
  .next (s.cascadeKey issuer width table key carried count)

/-- Die 0 sends an idle token; `heard` says that ring traffic has reached it since the last one. -/
def State.sendToken (s : State) (heard : Bool) : State :=
  let s1 := if heard then s.hearRing else s
  { s1 with search := { s1.search with tokenAt := some s1.time.now } }.emit (.cascade 2 (s1.obj 0x7002 1) 0 0 none 0)

/-- CASCADE_IDLE_TOKEN (R423): every 1 µs. Whether traffic of the ring has come round since the last token is a free value (log entry 206). -/
def execCascadeIdleToken (s : State) : Res :=
  if s.obj 0x7002 2 = 1 then .next s
  else if s.search.tokenAt.any (s.time.now < · + 1000) then .next s else .next (s.useFree.sendToken (s.freeValue % 2 = 1))

/-- The ring is broken, and searches that wait on it fail (R423). -/
def State.ringBreaks (s : State) (conflict : Bool) : State :=
  let s1 := s.setRing (if conflict then 3 else 2)
  let s2 := s1.search.board.foldl (fun s b => s.failVendor b.1 (s.searchOp b.2.1) 0xC8 0) s1
  { s2 with search := { s2.search with board := [] } }

/-- CASCADE_SILENCE_TIMEOUT (R423): board scope is unavailable, and board-scope searches under way answer so. -/
def execCascadeSilenceTimeout (conflict : Bool) (s : State) : Res :=
  if s.obj 0x7002 2 = 1 then .next s
  else if !conflict ∧ s.search.heardAt.any (s.time.now < · + 10000) then .next s
  else .next (s.ringBreaks conflict)

end Sys2Proof.Machine
end

