-- ==== Sys2Proof/Machine/Filter.lean ====
section
/-!
DEFINITION. The rings of a task (R396 to R398), near-data input (R399) and in-line filters (R390 to R395).
-/

namespace Sys2Proof.Machine

/-! ### The rings -/

/-- The 32-bit word of a task's segment at an offset. -/
def State.segWord (s : State) (d slot off : Nat) : Nat := ofLe (memRead s.mem (taskAddr d slot off) 4)

/-- The state with bytes of a task's segment written. -/
def State.segWrite (s : State) (d slot off : Nat) (b : List Nat) : State :=
  s.write (taskAddr d slot off) b

/-- The offset of a task's input ring, and of its output ring. -/
def State.inRing (s : State) (t : Task) : Nat := ((s.program t.handle).map (·.inRing)).getD 0
def State.outRing (s : State) (t : Task) : Nat := ((s.program t.handle).map (·.outRing)).getD 0

/-- How many entries of a ring are produced and not consumed (counts are modulo 2^32). -/
def State.ringUse (s : State) (d slot base : Nat) : Nat :=
  (s.segWord d slot base + 2 ^ 32 - s.segWord d slot (base + 4)) % 2 ^ 32

/-- An input entry (R397); SEQ is filled when the entry is written. -/
def inputEntry (handle woff bytes frame band flags lba : Nat) : List Nat :=
  record 32 [(0, 4, handle), (4, 4, woff), (8, 4, bytes), (16, 4, frame), (20, 1, band), (21, 1, flags), (24, 8, lba)]

/-- An entry is written to the input ring, and its producer count moves on. -/
def State.produce (s : State) (d slot : Nat) (t : Task) (e : List Nat) : State :=
  let base := s.inRing t
  let n := s.segWord d slot base
  let s0 := if t.filter.isSome then s.bump (0x5118 + d) 0 else s
  let s1 := s0.segWrite d slot (base + 8 + 32 * (n % 16)) (patch e 12 (leBytes 4 t.inSeq))
  (s1.segWrite d slot base (leBytes 4 (n + 1))).setTask d slot { t with inSeq := t.inSeq + 1 }

/-- Entries that wait for room are written while fewer than 16 are outstanding; answers how many were. -/
def State.fillRing (s : State) (d slot : Nat) : Nat → Nat × State
  | 0 => (0, s)
  | k + 1 =>
    match s.task d slot with
    | none => (0, s)
    | some t =>
      match t.waitIn with
      | [] => (0, s)
      | e :: rest =>
        if 16 ≤ s.ringUse d slot (s.inRing t) then (0, s)
        else
          let r := State.fillRing (s.produce d slot { t with waitIn := rest } e) d slot k
          (r.1 + 1, r.2)

/-- The dispatcher writes what it can of a task's waiting input and posts flag 0 (R384). -/
def State.feedInput (s : State) (d slot : Nat) : State :=
  let r := s.fillRing d slot 16
  if r.1 = 0 then r.2 else r.2.post d slot (flagBit 0)

/-! ### Near-data input (R399) -/

/-- Granules of a range of namespace bytes that are unrecoverable. -/
def State.lostIn (s : State) (nsid off len : Nat) : List Nat :=
  let first := off / 4096
  ((List.range (ceilDiv (off % 4096 + len) 4096)).map (first + ·)).filter (s.unreadable nsid)

/-- Bytes of a namespace with unrecoverable granules read as zero. -/
def State.readForTask (s : State) (nsid off len : Nat) : List Nat :=
  let lost := s.lostIn nsid off len
  let b := s.nsRead nsid off len
  if lost.isEmpty then b
  else (b.zipIdx).map fun x => if lost.contains ((off + x.2) / 4096) then 0 else x.1

/-- A near-data task's next chunk is read into a buffer of INPOOL, at most 2 MiB and at most one buffer; input stops
while the pool answers EMPTY. Answers whether a chunk was read. -/
def State.feedChunk (s : State) (d slot : Nat) (t : Task) (n : NearData) : Bool × State :=
  match n.input with
  | [] => (false, s)
  | c :: rest =>
    let pool := ((s.program t.handle).map (·.inPool)).getD 0xFF
    let r := s.pondGet (taskOwner d slot) 3 d pool
    if r.1.status ≠ 0 then (false, r.2)
    else
      let s1 := r.2
      match s1.heldBuffer (taskOwner d slot) r.1.handle with
      | none => (false, s1)
      | some (addr, size) =>
        let len := min c.len (min 2097152 size)
        let whole := len = c.len
        let lost := s1.lostIn n.nsid c.off len
        let flags := (if whole then c.flags % 8 else 0) + (if whole ∧ rest = [] then (if bitOf c.flags 1 then 0 else 2) else 0) +
          (if lost.isEmpty then 0 else 8)
        let e := inputEntry r.1.handle 0 len c.frame c.band flags c.lba
        let lba := if c.frame = 0 then (c.off + len) / 4096 else c.off + len
        let next := if whole then rest else { c with off := c.off + len, len := c.len - len, lba := lba } :: rest
        let s2 := (lost.foldl (fun s lba => s.noteUnreadable 2 n.nsid lba) s1).write addr (s1.readForTask n.nsid c.off len)
        (true, (s2.xtsRun 3 len).produce d slot { t with near := some { n with input := next } } e)

/-- A near-data task's input ring is filled as far as the ring and INPOOL allow; answers how many entries were written. -/
def State.feedChunks (s : State) (d slot : Nat) : Nat → Nat × State
  | 0 => (0, s)
  | k + 1 =>
    match s.task d slot with
    | none => (0, s)
    | some t =>
      match t.near with
      | none => (0, s)
      | some n =>
        if t.state = 4 ∨ 16 ≤ s.ringUse d slot (s.inRing t) then (0, s)
        else
          let g := s.feedChunk d slot t n
          if !g.1 then (0, g.2)
          else
            let r := State.feedChunks g.2 d slot k
            (r.1 + 1, r.2)

/-- Input of a near-data task: flag 0 for the entries written, flag 1 once at the end of its input (R384). -/
def State.feedNear (s : State) (d slot : Nat) : State :=
  let r := s.feedChunks d slot 16
  let s1 := if r.1 = 0 then r.2 else r.2.post d slot (flagBit 0)
  match s1.task d slot with
  | none => s1
  | some t =>
    match t.near with
    | none => s1
    | some n =>
      if n.input = [] ∧ !n.ended then
        (s1.setTask d slot { t with near := some { n with ended := true } }).post d slot (flagBit 1)
      else s1

/-- Every task of a die is given the input that it has room for. -/
def State.feedDie (s : State) (d : Nat) : State :=
  (s.cd d).tasks.foldl (fun s t => (s.feedInput d t.1).feedNear d t.1) s

/-! ### Output entries (R398) -/

/-- The dispatcher as a pond owner: the host-queue controller of a die. -/
def dispatcherOwner (d : Nat) : Nat := ownerId 2 d 1

/-- The bytes of an output entry's buffer that the dispatcher holds; none when it does not hold it or the range lies
outside it. -/
def State.entryBytes (s : State) (d : Nat) (e : List Nat) : Option (List Nat) :=
  match s.heldBuffer (dispatcherOwner d) (field e 4 4) with
  | none => none
  | some (addr, size) =>
    if field e 8 4 + field e 12 4 ≤ size then some (memRead s.mem (addr + field e 8 4) (field e 12 4)) else none

/-- The dispatcher puts an entry's buffer, unless a namespace write of it still waits (R398). -/
def State.putEntry (s : State) (d : Nat) (e : List Nat) (fn : Nat) : State :=
  if field e 4 4 = 0 ∨ (s.host.stalled.any fun w => w.buf = some (dispatcherOwner d, field e 4 4)) then s else (s.pondPut (dispatcherOwner d) (field e 4 4)).2

/-- Keys of 18 bytes. -/
def keys18 : Nat → List Nat → List Nat
  | 0, _ => []
  | n + 1, l => ofLe (l.take 18) :: keys18 n (l.drop 18)

/-- One key is inserted with an all-ones MASK, PRIO 0 and DATA holding FRAME; a full queue is drained first (R437). -/
def State.insertKey (s : State) (n frame key : Nat) : State :=
  let s1 := match s.table n with
    | some t => if 16 ≤ t.queue.length then s.drainTable n 16 else s
    | none => s
  match s1.table n with
  | some t => (s1.acceptMaint n t ⟨0, key, 2 ^ 144 - 1, frame, none⟩).2
  | none => s1

/-- The keys of a KIND 3 entry are inserted, or discarded and counted (R437). -/
def State.insertKeys (s : State) (e b : List Nat) : State :=
  let n := field e 20 4
  let keys := keys18 (b.length / 18) b
  match s.table n with
  | some t =>
    if bitOf t.access 3 ∧ t.width = 1 then keys.foldl (fun s k => s.insertKey n (field e 16 4) k) s
    else s.addObj 0x7009 5 keys.length
  | none => s.addObj 0x7009 5 keys.length

/-- A KIND 2 entry writes whole granules to a general namespace that is not write-protected; answers 0, or the status, 256 × SCT + SC, of a write that
safe hold refuses or that the namespace does not admit (R278, R286). -/
def State.writeEntryTo (s : State) (d : Nat) (by' : Option CmdRef) (nsid : Nat) (e b : List Nat) : Nat × State :=
  match tget s.host.nss nsid with
  | none => (0, s)
  | some ns =>
    if s.fault.safeHold then (0x7CA, s.bump 0x401F 0)
    else if ns.kind = 1 ∨ ns.wp then (0x20, s)
    else
      let lba := field e 20 8
      let n := b.length / 4096
      if b.length % 4096 ≠ 0 ∨ field e 8 4 % 4096 ≠ 0 ∨ !s.inRange nsid lba n ∨
          s.tooFull nsid lba n then (0, s)
      else (0, s.taskWrite by' (dispatcherOwner d, field e 4 4) nsid lba n b)

/-- Bytes are offered to the host of a near-data command; those past NDT are discarded (R301, R400). -/
def State.offerHost (s : State) (d slot : Nat) (t : Task) (n : NearData) (b : List Nat) : State :=
  let room := n.ndt - n.offered
  let s1 := s.setTask d slot { t with near := some { n with offered := n.offered + b.length } }
  if min room b.length = 0 then s1 else s1.dataOut n.q (b.take room)

/-- An entry's bytes hold a poisoned word (R25). -/
def State.entryPoisoned (s : State) (d : Nat) (e : List Nat) : Bool :=
  match s.heldBuffer (dispatcherOwner d) (field e 4 4) with
  | none => false
  | some (addr, _) => s.poisonedAt (addr + field e 8 4) (field e 12 4)

/-- An output whose bytes are poisoned is refused: by the host interface, by flash, or as keys (R25). -/
def State.refuseEntry (s : State) (d : Nat) (e : List Nat) : State :=
  s.deliverPoison d (if field e 0 1 = 1 then 2 else if field e 0 1 = 3 then 3 else 1)

/-- An entry of KIND 1, 2, 3 or 5 of a near-data task takes effect. A refused one, and a write that the namespace does not admit, leave their
status to the command's end. -/
def State.applyNear (s : State) (d slot : Nat) (t : Task) (n : NearData) (e : List Nat) : State :=
  let kind := field e 0 1
  if kind = 5 then s.offerHost d slot t n (slice 20 12 e)
  else
    match s.entryBytes d e with
    | none => s
    | some b =>
      if s.entryPoisoned d e then (s.setTask d slot { t with near := some { n with badStatus := 0x281 } }).refuseEntry d e
      else if kind = 1 then s.offerHost d slot t n b
      else if kind = 3 then s.insertKeys e b
      else
        let r := s.writeEntryTo d (some n.q) n.nsid e b
        if r.1 = 0 then r.2 else r.2.setTask d slot { t with near := some { n with badStatus := r.1 } }

/-- A result record of a filter (0x500B). -/
def resultRecord (spring frame d : Nat) (e : List Nat) : List Nat :=
  [spring] ++ leBytes 4 frame ++ [d, 0, 0] ++ slice 20 12 e

/-- An entry of KIND 2, 3 or 5 of a filter takes effect (R393, R395). -/
def State.applyFilter (s : State) (d : Nat) (w : FilterWork) (e : List Nat) : State :=
  let kind := field e 0 1
  if kind = 5 then
    s.setDom 0x500B 0 (appendLog (s.dom 0x500B 0) (resultRecord w.spring (field e 16 4) d e) 5120)
  else
    match s.entryBytes d e with
    | none => s
    | some b =>
      if s.entryPoisoned d e then s.refuseEntry d e
      else if kind = 3 then s.insertKeys e b else if kind = 2 then (s.writeEntryTo d none w.outNs e b).2 else s

/-! ### Frames of filters (R391 to R394) -/

/-- The state with a frame of a take changed. -/
def State.modFrame (s : State) (nsid take spring frame : Nat) (f : Frame → Frame) : State :=
  { s with take := { s.take with takes := s.take.takes.map fun t =>
      if t.nsid = nsid ∧ t.num = take then
        { t with frames := t.frames.map fun x => if x.spring = spring ∧ x.frame = frame then f x else x }
      else t } }

/-- A frame of a take that is not recorded yet. -/
def State.frameOf (s : State) (nsid take spring frame : Nat) : Option Frame :=
  (s.take.takes.find? fun t => t.nsid = nsid && t.num = take).bind fun t =>
    t.frames.find? fun f => f.spring = spring && f.frame = frame

/-- The chunks of a frame are marked as reclaimed in every filter task of a die (R378). -/
def State.reclaimChunks (s : State) (d spring frame : Nat) : State :=
  s.setCd d { s.cd d with tasks := (s.cd d).tasks.map fun t =>
    match t.2.filter with
    | none => t
    | some w =>
      if w.spring ≠ spring then t
      else (t.1, { t.2 with filter := some { w with chunks := w.chunks.map fun c =>
        if c.frame = frame then { c with reclaimed := true } else c } }) }

/-- The ring space that a frame's durable bands kept for its filters is reclaimed once none has it in hand (R394). -/
def State.reclaimFrame (s : State) (nsid take spring frame : Nat) : State :=
  match s.frameOf nsid take spring frame with
  | none => s
  | some f =>
    if f.filtersOpen ≠ 0 then s
    else
      let s1 := f.ringHeld.foldl (fun s r => s.reclaimChunks r.1 spring frame) s
      s1.modFrame nsid take spring frame fun f => { f with ringHeld := [] }

/-- A filter is done with a frame, having retired it or missed it. -/
def State.filterDone (s : State) (w : FilterWork) (frame : Nat) (skipped : Bool) : State :=
  (s.modFrame w.takeNs w.take w.spring frame fun f =>
    { f with filtersOpen := f.filtersOpen - 1, filterSkipped := f.filterSkipped || skipped }).reclaimFrame
      w.takeNs w.take w.spring frame

/-- The work with a frame's state changed. -/
def FilterWork.mark (w : FilterWork) (frame st : Nat) : FilterWork :=
  { w with frames := w.frames.map fun x => if x.frame = frame ∧ x.state = 0 then { x with state := st } else x }

/-- The entries kept for a frame, and the others. -/
def FilterWork.ofFrame (w : FilterWork) (frame : Nat) : List (List Nat) := w.entries.filter fun e => field e 16 4 = frame
def FilterWork.without (w : FilterWork) (frame : Nat) : List (List Nat) := w.entries.filter fun e => field e 16 4 ≠ frame

/-- A frame of a filter is missed (R393): flagged, its outputs discarded, flag 3 posted. `late`: its deadline passed. -/
def State.missFrame (s : State) (d slot frame : Nat) (late : Bool) : State :=
  match s.task d slot with
  | none => s
  | some t =>
    match t.filter with
    | none => s
    | some w =>
      if !w.frames.any (fun x => x.frame = frame && x.state = 0) then s
      else
        let w' := { w.mark frame 2 with entries := w.without frame }
        let s1 := s.setTask d slot { t with filter := some w' }
        let s2 := (w.ofFrame frame).foldl (fun s e => s.putEntry d e t.fn) s1
        let s3 := ((s2.filterDone w frame true).bump (0x50A0 + d) 0).bump 0x500A 2
        let s4 := if late then s3.raiseOnce (evDie d 88) 0 (256 * w.spring + w.attach) else s3
        s4.post d slot (flagBit 3)

/-- A frame is missed by every filter that has it in hand, as when the ring needs its space (R394). -/
def State.missEverywhere (s : State) (nsid take spring frame : Nat) : State :=
  s.dies.foldl (fun s d => (s.cd d).tasks.foldl (fun s t =>
    match t.2.filter with
    | some w => if w.takeNs = nsid ∧ w.take = take ∧ w.spring = spring then s.missFrame d t.1 frame false else s
    | none => s) s) s

/-- The filters that miss a frame because the ring needs its space are counted (R394). -/
def State.countReclaimed (s : State) (nsid take spring frame : Nat) : State :=
  s.dies.foldl (fun s d => (s.cd d).tasks.foldl (fun s t =>
    match t.2.filter with
    | some w =>
      if w.takeNs = nsid ∧ w.take = take ∧ w.spring = spring ∧ w.frames.any (fun x => x.frame = frame && x.state = 0) then
        s.bump (0x5110 + d) 0
      else s
    | none => s) s) s

/-- The instant of a die's clock as FRAMEDL counts it. -/
def State.instant (s : State) (d : Nat) : Nat := (s.clock d).epoch * 65536 + (s.clock d).phase

/-- KIND 4: the frame is retired when the dispatcher takes the entry before the phase unit of its deadline; its kept
outputs then take effect. -/
def State.retireFrame (s : State) (d slot : Nat) (t : Task) (w : FilterWork) (frame : Nat) : State :=
  match w.frames.find? fun x => x.frame = frame && x.state = 0 with
  | none => s
  | some x =>
    let inTime := match x.deadline with
      | some n => isBefore (s.instant d) n
      | none => true
    if !inTime then s.missFrame d slot frame true
    else
      let s1 := s.setTask d slot { t with filter := some { w.mark frame 1 with entries := w.without frame } }
      let s2 := (w.ofFrame frame).foldl (fun s e => (s.applyFilter d w e).putEntry d e t.fn) s1
      let s3 := match x.deadline with
        | some n =>
          let bin := waitBin ((n + 2 ^ 64 - s2.instant d) % 2 ^ 64 * s2.periodNs / 65536)
          s2.setDom (0x5120 + d) 0 (countBin (s2.dom (0x5120 + d) 0) 64 bin)
        | none => s2
      (s3.filterDone w frame false).bump 0x500A 1

/-- One output entry is taken: applied, kept until its frame retires, or discarded. -/
def State.takeEntry (s : State) (d slot : Nat) (e : List Nat) : State :=
  match s.task d slot with
  | none => s
  | some t =>
    let kind := field e 0 1
    if kind = 0 ∨ 5 < kind then
      let s1 := s.setCd d { s.cd d with badEntries := (s.cd d).badEntries + 1 }
      s1.putEntry d e t.fn
    else
      match t.near, t.filter with
      | some n, _ => (if kind = 4 then s else s.applyNear d slot t n e).putEntry d e t.fn
      | none, some w =>
        if kind = 4 then (s.retireFrame d slot t w (field e 16 4)).putEntry d e t.fn
        else if kind = 1 then s.putEntry d e t.fn
        else if bitOf (field e 1 1) 0 then
          let inHand := w.frames.any fun x => x.frame = field e 16 4 && x.state = 0
          if inHand then s.setTask d slot { t with filter := some { w with entries := w.entries ++ [e] } }
          else s.putEntry d e t.fn
        else (s.applyFilter d w e).putEntry d e t.fn
      | none, none => s.putEntry d e t.fn

/-- The output entries that a task has produced are taken in order; answers how many. -/
def State.takeEntries (s : State) (d slot base : Nat) : Nat → Nat × State
  | 0 => (0, s)
  | k + 1 =>
    if s.ringUse d slot base = 0 then (0, s)
    else
      let n := s.segWord d slot (base + 4)
      let e := memRead s.mem (taskAddr d slot (base + 8 + 32 * (n % 16))) 32
      let s1 := (s.segWrite d slot (base + 4) (leBytes 4 (n + 1))).takeEntry d slot e
      let r := State.takeEntries s1 d slot base k
      (r.1 + 1, r.2)

/-- At a FENCE, WAIT or EXIT the dispatcher takes the new output entries, at most a ring's 16, posts flag 2 for them
(R384, R396), and gives the task the input that it has room for. -/
def State.consumeOutput (s : State) (d slot : Nat) : State :=
  match s.task d slot with
  | none => s
  | some t =>
    let r := s.takeEntries d slot (s.outRing t) 16
    let s1 := if r.1 = 0 then r.2 else r.2.post d slot (flagBit 2)
    (s1.feedInput d slot).feedNear d slot

/-- The output entries that a filter still keeps are discarded and their buffers put. -/
def State.dropEntries (s : State) (d slot : Nat) : State :=
  match s.task d slot with
  | none => s
  | some t =>
    match t.filter with
    | none => s
    | some w =>
      w.entries.foldl (fun s e => s.putEntry d e t.fn) (s.setTask d slot { t with filter := some { w with entries := [] } })

/-- A task stops: its frames in hand miss, and it ends (R385, R407). -/
def State.stopTask (s : State) (d slot cause result trap : Nat) : State :=
  match s.task d slot with
  | none => s
  | some t =>
    let frames := match t.filter with
      | some w => (w.frames.filter fun (x : FilterFrame) => x.state = 0).map fun (x : FilterFrame) => x.frame
      | none => []
    let s1 := (frames.foldl (fun (s : State) f => s.missFrame d slot f false) s).dropEntries d slot
    (s1.endTask d slot cause result trap).freeSlot d slot

/-! ### Attachments and filter tasks (R390, R391) -/

/-- The attachments in force, each with its number. -/
def State.attachments (s : State) : List (Nat × List Nat) :=
  let l := s.dom 0x5008 0
  (List.range (l.length / 32)).map fun k => (k, slice (32 * k) 32 l)

/-- The attachments of a spring: at most four. -/
def State.attachOf (s : State) (spring : Nat) : List (Nat × List Nat) := (s.attachments.filter fun a => field a.2 0 1 = spring).take 4

/-- An attachment within the ranges of R390. -/
def attachFits (a : List Nat) : Bool :=
  field a 2 1 < 16 && 16 ≤ field a 3 1 && field a 3 1 ≤ 22 && 1 ≤ field a 4 4 && field a 4 4 ≤ 65535

/-- A slot that no task uses, in a range. -/
def State.freeTaskSlot (s : State) (d lo hi : Nat) : Option Nat :=
  (List.range (hi - lo)).find? (fun k => (s.task d (lo + k)).isNone) |>.map (· + lo)

/-- The mode in which a program's new task runs (R374). -/
def State.modeOf (s : State) (p : Program) : Bool := if p.mode = 2 then s.obj 0x5001 0 = 1 else p.mode = 1

/-- A created task has its data segment, its pond registrations and its slot (R376, R383). -/
def State.placeTask (s : State) (d slot : Nat) (p : Program) (t : Task) : State :=
  let s0 := (s.setTask d slot t).highWater (0x5128 + d) 0 ((s.cd d).tasks.length + b2n ((s.task d slot).isNone))
  let c := s0.wipe (taskAddr d slot 0) 131072
  let s1 := c.write (taskAddr d slot 0) p.data
  let pools := (if p.inPool < 64 ∧ !(4 ≤ p.inPool ∧ p.inPool < 8) then [p.inPool] else []) ++ [4, 5, 6, 7]
  let s2 := pools.foldl (fun (s : State) q => (s.registerOwner d q (taskOwner d slot) 0).2) s1
  { s2 with comp := { s2.comp with programs := tmod s2.comp.programs t.handle fun p => { p with runs := p.runs + 1 } } }

/-- The dies that receive bands of a spring of a take. -/
def SpringDef.dies (p : SpringDef) : List Nat := ((p.ports.filter (· < 32)).map (· / 4)).eraseDups

/-- One filter task is created, or EV d.093 is raised (R391). -/
def State.createFilter (s : State) (d nsid take : Nat) (spring k : Nat) (a : List Nat) : Bool × State :=
  let fail := (false, s.raise (evDie d 93) 0)
  match s.program (field a 1 1) with
  | none => fail
  | some p =>
    if p.state ≠ 2 ∨ !bitOf p.use 1 ∨ p.timing ≠ 1 ∨ !attachFits a then fail
    else
      match s.freeTaskSlot d 0 (s.obj 0x5013 0) with
      | none => fail
      | some slot =>
        let t := Task.create p (field a 1 1) (field a 2 1) 0 0 (s.modeOf p) (field a 8 4) 3 take spring
        let w : FilterWork := ⟨spring, k, field a 12 4, field a 3 1, field a 4 4, nsid, take, [], [], []⟩
        (true, (s.placeTask d slot p { t with filter := some w }).makeReady d slot)

/-- The filter task of an attachment of a take on a die. -/
def State.filterTask (s : State) (d nsid take spring k : Nat) : Option (Nat × Task) :=
  (s.cd d).tasks.find? fun t => t.2.state ≠ 4 &&
    match t.2.filter with
    | some w => w.takeNs = nsid && w.take = take && w.spring = spring && w.attach = k
    | none => false

/-- At a take's opening, each die that receives a band of an attached spring gets its filter tasks. -/
def State.createFilters (s : State) (nsid take : Nat) (springs : List SpringDef) : State :=
  springs.foldl (fun s p => p.dies.foldl (fun s d => (s.attachOf p.spring).foldl (fun s a =>
    let r := s.createFilter d nsid take p.spring a.1 a.2
    if r.1 then r.2
    else r.2.setCd d { r.2.cd d with noFilter := (r.2.cd d).noFilter ++ [(nsid, take, p.spring, a.1)] }) s) s) s

/-- A filter task is given a frame that starts. -/
def State.giveFrame (s : State) (d slot frame : Nat) (t : Task) (w : FilterWork) : State :=
  (s.setTask d slot { t with filter := some { w with frames := w.frames ++ [⟨frame, none, 0⟩] } }).modFrame w.takeNs w.take
    w.spring frame fun f => { f with filtersOpen := f.filtersOpen + 1 }

/-- A frame of a spring starts: each filter of the take has it in hand; one that ended is created again for it with
EV d.093, and a filter that was not created leaves the frame flagged (R391). -/
def State.startFilters (s : State) (nsid take frame : Nat) (p : SpringDef) : State :=
  p.dies.foldl (fun s d => (s.attachOf p.spring).foldl (fun s a =>
    let skip := fun s : State => (s.bump 0x500A 3).modFrame nsid take p.spring frame fun f => { f with filterSkipped := true }
    let give := fun (s : State) (x : Nat × Task) => match x.2.filter with
      | some w => s.giveFrame d x.1 frame x.2 w
      | none => s
    match s.filterTask d nsid take p.spring a.1 with
    | some x => give s x
    | none =>
      if (s.cd d).noFilter.contains (nsid, take, p.spring, a.1) then skip s
      else
        let r := s.createFilter d nsid take p.spring a.1 a.2
        if !r.1 then skip r.2
        else
          match r.2.filterTask d nsid take p.spring a.1 with
          | some x => give (r.2.raise (evDie d 93) 0) x
          | none => skip r.2) s) s

/-- The pieces into which a band's bytes are cut, with their offsets. -/
def cutChunks (size : Nat) : Nat → Nat → List Nat → List (Nat × List Nat)
  | 0, _, _ => []
  | n + 1, off, l =>
    if l = [] then [] else (off, l.take size) :: cutChunks size n (off + size) (l.drop size)

/-- Band data of a frame is given to the filters of a die that have the frame, one input entry per chunk (R392): `bytes` are the stored bytes
at hand of a band of `total`, whose chunks up to `before` were given when they landed; `done` says that the band is complete, and `last` that it is
the last of its frame on the die. The chunk that ends a band waits for its completion, which alone tells whether the frame ends with it. The bytes
stand in the ring from `woff` on. -/
def State.filterBand (s : State) (d nsid take spring frame band woff : Nat) (bytes : List Nat) (before total : Nat) (done last : Bool) : State :=
  (s.cd d).tasks.foldl (fun s x =>
    match s.task d x.1 with
    | none => s
    | some t =>
      match t.filter with
      | none => s
      | some w =>
        if t.state = 4 ∨ w.takeNs ≠ nsid ∨ w.take ≠ take ∨ w.spring ≠ spring ∨ !w.frames.any (fun y => y.frame = frame) then s
        else
          let size := 2 ^ w.chunk
          let landed := fun (off upto : Nat) => off + size ≤ upto && off + size < total
          let cuts := (cutChunks size (ceilDiv bytes.length size) 0 bytes).filter fun c =>
            !landed c.1 before && (done || landed c.1 bytes.length)
          let entry := fun (c : Nat × List Nat) =>
            let final := c.1 + c.2.length = total
            inputEntry 0 ((woff + c.1) % 67108864) c.2.length frame band (b2n final + if final ∧ last then 4 else 0)
              (s.freeValue % 2 ^ 64)
          let chunks := cuts.map fun c => (⟨(woff + c.1) % 67108864, c.2, frame, false⟩ : RingChunk)
          let t' := { t with waitIn := t.waitIn ++ cuts.map entry, filter := some { w with chunks := chunks.reverse ++ w.chunks } }
          if cuts.isEmpty then s else ((s.useFree).setTask d x.1 t').feedInput d x.1) s

/-- A frame completes: its deadlines run from now (R392). -/
def State.setDeadlines (s : State) (nsid take spring frame : Nat) : State :=
  s.dies.foldl (fun s d => s.setCd d { s.cd d with tasks := (s.cd d).tasks.map fun t =>
    match t.2.filter with
    | none => t
    | some w =>
      if w.takeNs ≠ nsid ∨ w.take ≠ take ∨ w.spring ≠ spring then t
      else (t.1, { t.2 with filter := some { w with frames := w.frames.map fun x =>
        if x.frame = frame then { x with deadline := some ((s.instant d + w.deadline) % 2 ^ 64) } else x } }) }) s

/-- The take of a filter takes no more frames of its spring. -/
def State.filterOver (s : State) (w : FilterWork) : Bool :=
  match s.take.takes.find? fun k => k.nsid = w.takeNs && k.num = w.take with
  | some k => k.state = 2 || k.state = 3 || (k.state = 4 && !k.frames.any fun f => f.spring = w.spring && !f.complete)
  | none => true

/-- A filter task whose take is over is reset once it has no frame in hand (R391). -/
def State.endFilter (s : State) (d slot : Nat) : State :=
  match s.task d slot with
  | none => s
  | some t =>
    match t.filter with
    | none => s
    | some w =>
      if t.state ≠ 4 ∧ s.filterOver w ∧ !w.frames.any (fun y => y.state = 0) then s.stopTask d slot 3 0 0 else s

/-- Every filter task whose take is over and that has no frame in hand is reset. -/
def State.endFilters (s : State) : State :=
  s.dies.foldl (fun s d => (s.cd d).tasks.foldl (fun s x => s.endFilter d x.1) s) s

/-- FILTER_DEADLINE (R393): the phase unit of the oldest frame's deadline begins and the frame is not retired. -/
def execFilterDeadline (die slot : Nat) (s : State) : Res :=
  onDie s die fun _ =>
    match (s.task die slot).bind (·.filter) with
    | none => .next s
    | some w =>
      match w.frames.find? fun x => x.state = 0 with
      | some ⟨frame, some n, _⟩ =>
        if !isBefore (s.instant die) n then .next (s.missFrame die slot frame true).endFilters else .next s
      | _ => .next s

/-- A change of the attachments (R390): those of a spring of an open take keep their entries, and the change is held. -/
def State.setAttachments (s : State) (want : List Nat) : State :=
  let inOpen := fun (sp : Nat) => s.take.takes.any fun t => t.state = 1 && t.springs.any fun p => p.spring = sp
  let entries := (List.range (want.length / 32)).map fun k => slice (32 * k) 32 want
  let kept := (s.attachments.map (·.2)).filter fun e => inOpen (field e 0 1)
  let now := kept ++ entries.filter fun e => !inOpen (field e 0 1)
  let held := (entries.filter fun e => inOpen (field e 0 1)) ≠ kept
  let s1 := (s.setDom 0x5008 0 now.flatten).setObj 0x5009 0 (b2n held)
  { s1 with comp := { s1.comp with heldAttach := if held then some want else none } }

end Sys2Proof.Machine
end

