-- ==== Sys2Proof/Machine/Operands.lean ====
section
/-!
DEFINITION. The Selkel instruction words: operations, formats, reserved fields (R335 to R339, R352, R362 to R369), the
registers of a task as its instructions read and write them (R328 to R334, R357 to R361), and data addresses (R343, R375).
-/

namespace Sys2Proof.Machine

/-- The operations of the instruction set. -/
inductive Op where
  | add | sub | and | or | xor | andn | slt | sltu | min | max | minu | maxu | neg | abs | sll | srl | sra
  | slli | srli | srai | clz | popc | sextb | sexth | bswap | packl | packh | mul | mulh | mulhu | mulhsu
  | div | divu | rem | remu | qmul | qrshr | qrshri | qnarrow | qsat16 | amul | amac | amsu | amacq | amsuq
  | aclr | aset | aext | agetl | ageth | agetg | addi | andi | ori | xori | slti | sltiu | lui | lb | lbu
  | lh | lhu | lw | sb | sh | sw | beq | bne | blt | bge | bltu | bgeu | j | jal | jalr | b | bl | br | crd
  | cwr | cset | cclr | trap | eret | wait | fence | exit | vadd | vsub | vand | vor | vxor | vmin | vmax
  | vminu | vmaxu | vneg | vabs | vsll | vsrl | vsra | vqmul | vqrshr | vcmpeq | vcmplt | vcmpltu | vsel
  | vmul | vpopc | vmac | vmsu | vmacq | vmula | vaclr | vld | vst | vbcast | vget | vput | vredadd | vredmin
  | vredmax | vperm | vzipl | vziph | vwidenl | vwidenh | vaccout | vaccin | srch | srch288 | srch576 | sins
  | sput | swr | sdel | srd | sclr | sstat | pget | paddref | ppass | pput | pquery | pmap | punmap
  | jsubCipher | jsubDigest | jsubCodec | jpoll | cop3
deriving DecidableEq, Repr

/-- A row of an operation table: major, function code, operation, the element widths allowed, whether SAT and RND are
used, and the T field: 0 register, 1 amount, 2 reserved. -/
structure FuncRow where
  major : Nat
  func : Nat
  op : Op
  ewLo : Nat
  ewHi : Nat
  sat : Bool
  rnd : Bool
  tMode : Nat
deriving DecidableEq, Repr

/-- Major 0x00 (R338). -/
def intRows : List FuncRow := [
  ⟨0x00, 0x01, .add, 0, 2, true, false, 0⟩,
  ⟨0x00, 0x02, .sub, 0, 2, true, false, 0⟩,
  ⟨0x00, 0x03, .and, 0, 0, false, false, 0⟩,
  ⟨0x00, 0x04, .or, 0, 0, false, false, 0⟩,
  ⟨0x00, 0x05, .xor, 0, 0, false, false, 0⟩,
  ⟨0x00, 0x06, .andn, 0, 0, false, false, 0⟩,
  ⟨0x00, 0x07, .slt, 0, 0, false, false, 0⟩,
  ⟨0x00, 0x08, .sltu, 0, 0, false, false, 0⟩,
  ⟨0x00, 0x09, .min, 0, 2, false, false, 0⟩,
  ⟨0x00, 0x0A, .max, 0, 2, false, false, 0⟩,
  ⟨0x00, 0x0B, .minu, 0, 2, false, false, 0⟩,
  ⟨0x00, 0x0C, .maxu, 0, 2, false, false, 0⟩,
  ⟨0x00, 0x0D, .neg, 0, 2, true, false, 2⟩,
  ⟨0x00, 0x0E, .abs, 0, 2, true, false, 2⟩,
  ⟨0x00, 0x10, .sll, 0, 2, true, false, 0⟩,
  ⟨0x00, 0x11, .srl, 0, 2, false, false, 0⟩,
  ⟨0x00, 0x12, .sra, 0, 2, false, false, 0⟩,
  ⟨0x00, 0x14, .slli, 0, 2, true, false, 1⟩,
  ⟨0x00, 0x15, .srli, 0, 2, false, false, 1⟩,
  ⟨0x00, 0x16, .srai, 0, 2, false, false, 1⟩,
  ⟨0x00, 0x18, .clz, 0, 0, false, false, 2⟩,
  ⟨0x00, 0x19, .popc, 0, 0, false, false, 2⟩,
  ⟨0x00, 0x1A, .sextb, 0, 0, false, false, 2⟩,
  ⟨0x00, 0x1B, .sexth, 0, 0, false, false, 2⟩,
  ⟨0x00, 0x1C, .bswap, 0, 0, false, false, 2⟩,
  ⟨0x00, 0x1D, .packl, 0, 0, false, false, 0⟩,
  ⟨0x00, 0x1E, .packh, 0, 0, false, false, 0⟩]

/-- Majors 0x01 and 0x02 (R344, R348). -/
def fixRows : List FuncRow := [
  ⟨0x01, 0x01, .qmul, 0, 1, true, true, 0⟩,
  ⟨0x01, 0x02, .qrshr, 0, 2, false, true, 0⟩,
  ⟨0x01, 0x03, .qrshri, 0, 2, false, true, 1⟩,
  ⟨0x01, 0x04, .qnarrow, 0, 0, true, true, 0⟩,
  ⟨0x01, 0x05, .qsat16, 0, 0, false, false, 2⟩,
  ⟨0x02, 0x01, .mul, 0, 1, true, false, 0⟩,
  ⟨0x02, 0x02, .mulh, 0, 0, false, false, 0⟩,
  ⟨0x02, 0x03, .mulhu, 0, 0, false, false, 0⟩,
  ⟨0x02, 0x04, .mulhsu, 0, 0, false, false, 0⟩,
  ⟨0x02, 0x08, .div, 0, 0, true, false, 0⟩,
  ⟨0x02, 0x09, .divu, 0, 0, false, false, 0⟩,
  ⟨0x02, 0x0A, .rem, 0, 0, false, false, 0⟩,
  ⟨0x02, 0x0B, .remu, 0, 0, false, false, 0⟩]

/-- Major 0x03 (R349). -/
def accRows : List FuncRow := [
  ⟨0x03, 0x01, .amul, 0, 1, false, false, 0⟩,
  ⟨0x03, 0x02, .amac, 0, 1, true, false, 0⟩,
  ⟨0x03, 0x03, .amsu, 0, 1, true, false, 0⟩,
  ⟨0x03, 0x04, .amacq, 0, 1, true, false, 0⟩,
  ⟨0x03, 0x05, .amsuq, 0, 1, true, false, 0⟩,
  ⟨0x03, 0x08, .aclr, 0, 0, false, false, 2⟩,
  ⟨0x03, 0x09, .aset, 0, 0, false, false, 0⟩,
  ⟨0x03, 0x0A, .aext, 0, 0, true, true, 1⟩,
  ⟨0x03, 0x0B, .agetl, 0, 0, false, false, 2⟩,
  ⟨0x03, 0x0C, .ageth, 0, 0, false, false, 2⟩,
  ⟨0x03, 0x0D, .agetg, 0, 0, false, false, 2⟩]

/-- Major 0x38 (R401). -/
def laneRows : List FuncRow := [
  ⟨0x38, 0x01, .vadd, 0, 2, true, false, 0⟩,
  ⟨0x38, 0x02, .vsub, 0, 2, true, false, 0⟩,
  ⟨0x38, 0x03, .vand, 0, 0, false, false, 0⟩,
  ⟨0x38, 0x04, .vor, 0, 0, false, false, 0⟩,
  ⟨0x38, 0x05, .vxor, 0, 0, false, false, 0⟩,
  ⟨0x38, 0x06, .vmin, 0, 2, false, false, 0⟩,
  ⟨0x38, 0x07, .vmax, 0, 2, false, false, 0⟩,
  ⟨0x38, 0x08, .vminu, 0, 2, false, false, 0⟩,
  ⟨0x38, 0x09, .vmaxu, 0, 2, false, false, 0⟩,
  ⟨0x38, 0x0A, .vneg, 0, 2, true, false, 2⟩,
  ⟨0x38, 0x0B, .vabs, 0, 2, true, false, 2⟩,
  ⟨0x38, 0x0C, .vsll, 0, 2, true, false, 0⟩,
  ⟨0x38, 0x0D, .vsrl, 0, 2, false, false, 0⟩,
  ⟨0x38, 0x0E, .vsra, 0, 2, false, false, 0⟩,
  ⟨0x38, 0x0F, .vqmul, 1, 2, true, true, 0⟩,
  ⟨0x38, 0x10, .vqrshr, 0, 2, false, true, 0⟩,
  ⟨0x38, 0x11, .vcmpeq, 0, 2, false, false, 0⟩,
  ⟨0x38, 0x12, .vcmplt, 0, 2, false, false, 0⟩,
  ⟨0x38, 0x13, .vcmpltu, 0, 2, false, false, 0⟩,
  ⟨0x38, 0x14, .vsel, 0, 0, false, false, 0⟩,
  ⟨0x38, 0x15, .vmul, 0, 2, true, false, 0⟩,
  ⟨0x38, 0x16, .vpopc, 0, 2, false, false, 2⟩]

/-- Majors 0x39 to 0x3B (R402, R403). -/
def vecRows : List FuncRow := [
  ⟨0x39, 0x01, .vmac, 0, 1, true, false, 0⟩,
  ⟨0x39, 0x02, .vmsu, 0, 1, true, false, 0⟩,
  ⟨0x39, 0x03, .vmacq, 0, 1, true, false, 0⟩,
  ⟨0x39, 0x04, .vmula, 0, 1, false, false, 0⟩,
  ⟨0x39, 0x05, .vaclr, 0, 0, false, false, 2⟩,
  ⟨0x3A, 0x01, .vld, 0, 0, false, false, 2⟩,
  ⟨0x3A, 0x02, .vst, 0, 0, false, false, 2⟩,
  ⟨0x3B, 0x01, .vbcast, 0, 2, false, false, 2⟩,
  ⟨0x3B, 0x02, .vget, 0, 2, false, false, 0⟩,
  ⟨0x3B, 0x03, .vput, 0, 2, false, false, 0⟩,
  ⟨0x3B, 0x04, .vredadd, 0, 2, true, false, 2⟩,
  ⟨0x3B, 0x05, .vredmin, 0, 2, false, false, 2⟩,
  ⟨0x3B, 0x06, .vredmax, 0, 2, false, false, 2⟩,
  ⟨0x3B, 0x07, .vperm, 0, 0, false, false, 0⟩,
  ⟨0x3B, 0x08, .vzipl, 0, 2, false, false, 0⟩,
  ⟨0x3B, 0x09, .vziph, 0, 2, false, false, 0⟩,
  ⟨0x3B, 0x0A, .vwidenl, 1, 2, false, false, 2⟩,
  ⟨0x3B, 0x0B, .vwidenh, 1, 2, false, false, 2⟩,
  ⟨0x3B, 0x0C, .vaccout, 1, 1, true, true, 0⟩,
  ⟨0x3B, 0x0D, .vaccin, 1, 1, false, false, 2⟩]

/-- The rows of majors 0x00 to 0x03. -/
def scalarRows : List FuncRow := intRows ++ fixRows ++ accRows

/-- The rows of the vector majors. -/
def vectorRows : List FuncRow := laneRows ++ vecRows

/-- The row of a major and function code. -/
def findFunc (l : List FuncRow) (major func : Nat) : Option FuncRow := l.find? fun r => r.major = major && r.func = func

/-- A decoded instruction: operation, fields, condition and F of Selkel-1, the immediate or offset sign-extended, and
whether a reserved field is nonzero. -/
structure Dec where
  op : Op
  d : Nat
  s : Nat
  t : Nat
  sat : Bool
  rnd : Nat
  ew : Nat
  imm : Int
  ctl : Nat
  cond : Nat
  setF : Bool
  bad : Bool
deriving DecidableEq, Repr

/-- Bits [hi:lo] of a word. -/
def bits (w hi lo : Nat) : Nat := w / 2 ^ lo % 2 ^ (hi + 1 - lo)

/-- A row of majors 0x00 to 0x03 decoded from its fields. -/
def decScalar (r : FuncRow) (d s t sat rnd ew cond f : Nat) (junk : Bool) : Dec :=
  let bad := junk || (!r.sat && sat ≠ 0) || (!r.rnd && rnd ≠ 0) || ew < r.ewLo || r.ewHi < ew || (r.tMode = 2 && t ≠ 0) ||
    (r.op == .aclr && s ≠ 0)
  ⟨r.op, d, s, t, sat = 1, rnd, ew, 0, 0, cond, f = 1, bad⟩

/-- The operations of majors 0x04 to 0x1A. -/
def immOps : List (Nat × Op) :=
  [(0x04, .addi), (0x05, .andi), (0x06, .ori), (0x07, .xori), (0x08, .slti), (0x09, .sltiu), (0x0A, .lui), (0x10, .lb),
   (0x11, .lbu), (0x12, .lh), (0x13, .lhu), (0x14, .lw), (0x18, .sb), (0x19, .sh), (0x1A, .sw)]

/-- The operations of major 0x30 by FUNC (R352). -/
def sysOps : List Op := [.crd, .cwr, .cset, .cclr, .trap, .eret, .wait, .fence, .exit]

/-- A system instruction from its fields; its reserved fields are those of R352. -/
def decSys (d s ctl func cond : Nat) : Option Dec :=
  match sysOps[func]? with
  | none => none
  | some op =>
    let bad := match op with
      | .crd => s ≠ 0
      | .cwr => d ≠ 0
      | .cset => d ≠ 0
      | .cclr => d ≠ 0
      | .trap => d ≠ 0 || s ≠ 0
      | .eret => d ≠ 0 || s ≠ 0 || ctl ≠ 0
      | .wait => 1 < ctl
      | .fence => d ≠ 0 || s ≠ 0 || ctl ≠ 0
      | _ => d ≠ 0 || ctl ≠ 0
    some ⟨op, d, s, 0, false, 0, 0, 0, ctl, cond, false, bad⟩

/-- An operation of the coprocessor majors 0x3C to 0x3E by CFUNC, with whether its table names D, S and T (R363 to R365,
R433). -/
def copOp (major c : Nat) : Option (Op × Bool × Bool × Bool) :=
  if major = 0x3C then
    if c = 0 then some (.srch, true, true, true) else if c = 1 then some (.srch288, true, true, true)
    else if c = 2 then some (.srch576, true, true, true) else if c = 0x10 then some (.sins, false, true, true)
    else if c = 0x11 then some (.sput, false, true, true) else if c = 0x12 then some (.swr, false, true, true)
    else if c = 0x13 then some (.sdel, false, true, true) else if c = 0x14 then some (.srd, true, true, true)
    else if c = 0x15 then some (.sclr, false, false, true) else if c = 0x16 then some (.sstat, true, false, true)
    else none
  else if major = 0x3D then
    if c = 0 then some (.pget, true, true, false) else if c = 1 then some (.paddref, false, true, true)
    else if c = 2 then some (.ppass, false, true, true) else if c = 3 then some (.pput, false, true, false)
    else if c = 4 then some (.pquery, true, true, false)
    else if 0x10 ≤ c ∧ c ≤ 0x13 then some (.pmap, true, true, false)
    else if 0x18 ≤ c ∧ c ≤ 0x1B then some (.punmap, false, false, false) else none
  else if c = 0 then some (.jsubCipher, true, true, true) else if c = 1 then some (.jsubDigest, true, true, true)
  else if c = 2 then some (.jsubCodec, true, true, true) else if c = 0x10 then some (.jpoll, true, true, false)
  else none

/-- A coprocessor instruction from its fields; `ctl` holds CFUNC. -/
def decCop (major d s t c cond : Nat) : Option Dec :=
  if major = 0x3F then some ⟨.cop3, d, s, t, false, 0, 0, 0, c, cond, false, false⟩
  else
    match copOp major c with
    | none => none
    | some (op, nd, ns, nt) =>
      let bad := (!nd && d ≠ 0) || (!ns && s ≠ 0) || (!nt && t ≠ 0) || (op == .srch576 && s = 31)
      some ⟨op, d, s, t, false, 0, 0, 0, c, cond, false, bad⟩

/-- A Selkel-2 word (R336, R337); none when it is undefined (R339). -/
def decode2 (w : Nat) : Option Dec :=
  let major := bits w 31 26
  let d := bits w 25 21
  let s := bits w 20 16
  let t := bits w 15 11
  if major ≤ 2 then
    (findFunc scalarRows major (bits w 5 0)).map fun r =>
      decScalar r d s t (bits w 10 10) (bits w 9 8) (bits w 7 6) 0 0 false
  else if major = 3 then
    -- in format C the accumulator stands in D, and S and T follow
    (findFunc scalarRows major (bits w 5 0)).map fun r =>
      { decScalar r (bits w 25 23) (bits w 22 18) (bits w 17 13) (bits w 12 12) (bits w 11 10) (bits w 7 6) 0 0
          (bits w 9 8 ≠ 0) with ctl := bits w 25 23 }
  else if major = 0x28 then some ⟨.jalr, d, s, 0, false, 0, 0, signed 16 w, 0, 0, false, false⟩
  else if 0x20 ≤ major ∧ major ≤ 0x25 then
    ([Op.beq, .bne, .blt, .bge, .bltu, .bgeu][major - 0x20]?).map fun op =>
      ⟨op, 0, d, s, false, 0, 0, signed 16 w, 0, 0, false, false⟩
  else if major = 0x26 then some ⟨.j, 0, 0, 0, false, 0, 0, signed 26 w, 0, 0, false, false⟩
  else if major = 0x27 then some ⟨.jal, 0, 0, 0, false, 0, 0, signed 26 w, 0, 0, false, false⟩
  else if major = 0x30 then decSys d s (bits w 15 4) (bits w 3 0) 0
  else if 0x38 ≤ major ∧ major ≤ 0x3B then
    (findFunc vectorRows major (bits w 5 0)).map fun r =>
      let sat := bits w 8 8
      let rnd := bits w 7 6
      let ew := bits w 10 9
      let junk := (major = 0x39 && d % 8 ≠ 0) || (r.op == .vaclr && (s ≠ 0 || t ≠ 0)) || (r.op == .vaccout && 4 ≤ s) ||
        (r.op == .vaccin && 4 ≤ d)
      decScalar r d s t sat rnd ew 0 0 junk
  else if 0x3C ≤ major then decCop major d s t (bits w 10 0) 0
  else
    match immOps.find? fun r => r.1 = major with
    | some r => some ⟨r.2, d, s, 0, false, 0, 0, signed 16 w, 0, 0, false, r.2 == .lui && s ≠ 0⟩
    | none => none

/-- A Selkel-1 word (R368, R369, R372); none when it is undefined. -/
def decode1 (w : Nat) : Option Dec :=
  let cond := bits w 31 28
  let major := bits w 27 22
  let f := bits w 21 21
  let d := bits w 20 17
  let s := bits w 16 13
  if major ≤ 2 then
    (findFunc scalarRows major (bits w 5 0)).map fun r =>
      decScalar r d s (bits w 12 9) (bits w 8 8) (bits w 7 6) 0 cond f false
  else if major = 3 then
    (findFunc scalarRows major (bits w 5 0)).map fun r =>
      { decScalar r (bits w 20 19) (bits w 18 15) (bits w 14 11) (bits w 10 10) (bits w 9 8) (bits w 7 6) cond 0
          (f = 1 || bits w 7 6 ≠ 0) with ctl := bits w 20 19 }
  else if major = 0x20 then some ⟨.b, 0, 0, 0, false, 0, 0, signed 22 w, 0, cond, false, false⟩
  else if major = 0x21 then some ⟨.bl, 0, 0, 0, false, 0, 0, signed 22 w, 0, cond, false, false⟩
  else if major = 0x22 then some ⟨.br, d, s, 0, false, 0, 0, signed 13 w, 0, cond, false, f = 1⟩
  else if major = 0x30 then decSys (bits w 21 18) (bits w 17 14) (bits w 13 4) (bits w 3 0) cond
  else if 0x3D ≤ major then decCop major (bits w 21 18) (bits w 17 14) (bits w 13 10) (bits w 9 0) cond
  else
    match immOps.find? fun r => r.1 = major with
    | some r =>
      let noF := f = 1 && (major = 0x0A || 0x10 ≤ major)
      some ⟨r.2, d, s, 0, false, 0, 0, signed 13 w, 0, cond, f = 1 && !noF, noF || (r.2 == .lui && s ≠ 0)⟩
    | none => none

/-- The instruction that a word is in a task's mode. -/
def decodeWord (selkel1 : Bool) (w : Nat) : Option Dec := if selkel1 then decode1 w else decode2 w

/-! ### The words of instructions -/

/-- The compare-and-branch operations of majors 0x20 to 0x25 (R346). -/
def branchOps : List Op := [.beq, .bne, .blt, .bge, .bltu, .bgeu]

/-- A word from values and the lowest bit of each one's field. -/
def ofFields (l : List (Nat × Nat)) : Nat := l.foldl (fun n f => n + f.1 * 2 ^ f.2) 0

/-- The major of a coprocessor operation (R362). -/
def copMajor (op : Op) : Nat :=
  if op = .cop3 then 0x3F
  else if [Op.jsubCipher, .jsubDigest, .jsubCodec, .jpoll].contains op then 0x3E
  else if [Op.pget, .paddref, .ppass, .pput, .pquery, .pmap, .punmap].contains op then 0x3D
  else 0x3C

/-- The Selkel-2 word of an instruction (R336, R337). -/
def encode2 (x : Dec) : Nat :=
  match (scalarRows ++ vectorRows).find? fun r => r.op = x.op with
  | some r =>
    if r.major = 3 then
      ofFields [(3, 26), (x.ctl, 23), (x.s, 18), (x.t, 13), (b2n x.sat, 12), (x.rnd, 10), (x.ew, 6), (r.func, 0)]
    else if r.major ≤ 2 then
      ofFields [(r.major, 26), (x.d, 21), (x.s, 16), (x.t, 11), (b2n x.sat, 10), (x.rnd, 8), (x.ew, 6), (r.func, 0)]
    else ofFields [(r.major, 26), (x.d, 21), (x.s, 16), (x.t, 11), (x.ew, 9), (b2n x.sat, 8), (x.rnd, 6), (r.func, 0)]
  | none =>
    match immOps.find? fun r => r.2 = x.op, branchOps.idxOf? x.op, sysOps.idxOf? x.op with
    | some r, _, _ => ofFields [(r.1, 26), (x.d, 21), (x.s, 16), (twos 16 x.imm, 0)]
    | none, some k, _ => ofFields [(0x20 + k, 26), (x.s, 21), (x.t, 16), (twos 16 x.imm, 0)]
    | none, none, some k => ofFields [(0x30, 26), (x.d, 21), (x.s, 16), (x.ctl, 4), (k, 0)]
    | none, none, none =>
      if x.op = .jalr then ofFields [(0x28, 26), (x.d, 21), (x.s, 16), (twos 16 x.imm, 0)]
      else if x.op = .j then ofFields [(0x26, 26), (twos 26 x.imm, 0)]
      else if x.op = .jal then ofFields [(0x27, 26), (twos 26 x.imm, 0)]
      else ofFields [(copMajor x.op, 26), (x.d, 21), (x.s, 16), (x.t, 11), (x.ctl, 0)]

/-- The Selkel-1 word of an instruction (R368, R369). -/
def encode1 (x : Dec) : Nat :=
  let c := (x.cond, 28)
  let f := (b2n x.setF, 21)
  match scalarRows.find? fun r => r.op = x.op with
  | some r =>
    if r.major = 3 then
      ofFields [c, (3, 22), (x.ctl, 19), (x.s, 15), (x.t, 11), (b2n x.sat, 10), (x.rnd, 8), (x.ew, 6), (r.func, 0)]
    else ofFields [c, (r.major, 22), f, (x.d, 17), (x.s, 13), (x.t, 9), (b2n x.sat, 8), (x.rnd, 6), (r.func, 0)]
  | none =>
    match immOps.find? fun r => r.2 = x.op, sysOps.idxOf? x.op with
    | some r, _ => ofFields [c, (r.1, 22), f, (x.d, 17), (x.s, 13), (twos 13 x.imm, 0)]
    | none, some k => ofFields [c, (0x30, 22), (x.d, 18), (x.s, 14), (x.ctl, 4), (k, 0)]
    | none, none =>
      if x.op = .b then ofFields [c, (0x20, 22), (twos 22 x.imm, 0)]
      else if x.op = .bl then ofFields [c, (0x21, 22), (twos 22 x.imm, 0)]
      else if x.op = .br then ofFields [c, (0x22, 22), (x.d, 17), (x.s, 13), (twos 13 x.imm, 0)]
      else ofFields [c, (copMajor x.op, 22), (x.d, 18), (x.s, 14), (x.t, 10), (x.ctl, 0)]

/-- The word of an instruction in a task's mode. -/
def encodeWord (selkel1 : Bool) (x : Dec) : Nat := if selkel1 then encode1 x else encode2 x

/-! ### Registers -/

/-- Register codes: G0 to G31 are 0 to 31; A n 32 + n, and 48 + n as AEXT and AGETL to AGETG read it; V n 64 + n; VA n
96 + n, and 104 + n as major 0x3B reads it; a control register 0x1000 + its number. -/
def rA (n : Nat) : Nat := 32 + n
def rARead (n : Nat) : Nat := 48 + n
def rV (n : Nat) : Nat := 64 + n
def rVA (n : Nat) : Nat := 96 + n
def rVARead (n : Nat) : Nat := 104 + n
def rC (n : Nat) : Nat := 0x1000 + n

/-- The code under which a wait for a pond-window load is kept until it falls due (R359). -/
def rStall : Nat := 0x2000

/-- FXCTL, PSTAT's flags, COPSTAT and SRCHCNT. -/
def rFx : Nat := rC 2
def rPs : Nat := rC 1
def rCop : Nat := rC 3
def rCnt : Nat := rC 4

/-- The code under which L mode keeps when a write of FXCTL lets a division read DZTE; it holds no value. -/
def rDzte : Nat := rC 0x2002

/-- The bits of a register. -/
def regBits (r : Nat) : Nat := if r < 32 then 32 else if r < 64 then 80 else if r < 96 then 512 else if r < 0x1000 then 1536 else 32

/-- All bits of a register. -/
def regMask (r : Nat) : Nat := 2 ^ regBits r - 1

/-- A register's value as instructions read it. -/
def Task.reg (t : Task) (r : Nat) : Nat := tgetD t.regs r 0

/-- Bits of a number replaced under a mask. -/
def putBits (old mask val : Nat) : Nat := old - Nat.land old mask + Nat.land val mask

/-- A register's bits are written now; G0 discards writes (R328). -/
def Task.setReg (t : Task) (r mask val : Nat) : Task :=
  if r = 0 then t
  else
    let v := putBits (t.reg r) mask val
    { t with regs := if v = 0 then tdel t.regs r else tset t.regs r v }

/-- A pending write becomes visible, and nothing older of its register is waited for; bits of earlier writes to the same register are discarded
(R360). -/
def Task.land (t : Task) (p : PendWrite) : Task :=
  if p.reg = rStall then { t with cycles := t.cycles + p.val }
  else
    let t1 := ({ t with avail := tdel t.avail p.reg } : Task).setReg p.reg p.mask p.val
    { t1 with pend := t1.pend.map fun q =>
        if q.reg = p.reg ∧ q.seq < p.seq then { q with mask := q.mask - Nat.land q.mask p.mask } else q }

/-- Pending writes that are due become visible, in program order. -/
def Task.settleList (t : Task) : List PendWrite → Task
  | [] => t
  | p :: rest =>
    match t.pend.find? fun q => q.reg = p.reg && q.seq = p.seq && q.due = p.due with
    | some q => Task.settleList ((({ t with pend := t.pend.erase q } : Task)).land q) rest
    | none => Task.settleList t rest

/-- The task as the instruction at its present position reads it (R357, R358). -/
def Task.settle (t : Task) : Task := t.settleList (t.pend.filter fun p => p.due ≤ t.count)

/-- Every pending write becomes visible, as before a trap (R355, R361). -/
def Task.settleAll (t : Task) : Task := t.settleList t.pend

/-- A register write of an instruction: code, bits, value, the distance at which N mode reads it, and the distance at
which L mode reads it: 3 for a load into a G register, else 1 with an interlock until it is ready. -/
structure RegWrite where
  reg : Nat
  mask : Nat
  val : Nat
  dist : Nat
  load : Bool
deriving DecidableEq, Repr

/-- A whole register is written. -/
def wr (r v dist : Nat) : RegWrite := ⟨r, regMask r, v % 2 ^ regBits r, dist, false⟩

/-- A write takes its place: visible at its distance, and in L mode at once with the cycle at which it may be read. -/
def Task.write (t : Task) (issue : Nat) (w : RegWrite) : Task :=
  let d := if t.nMode then w.dist else if w.load then 3 else 1
  let t1 := if !t.nMode ∧ !w.load then { t with avail := tset t.avail w.reg (issue + w.dist) } else t
  if w.reg = 0 then t
  else if d = 1 then
    ({ t1 with pend := t1.pend.map fun q => if q.reg = w.reg then { q with mask := q.mask - Nat.land q.mask w.mask } else q } : Task).setReg
      w.reg w.mask w.val
  else { t1 with pend := t1.pend ++ [⟨w.reg, w.mask, w.val, t.count, t.count + d⟩] }

/-- The registers that an instruction reads, for the interlock of L mode. -/
def Dec.sources (x : Dec) : List Nat :=
  let c := if x.cond = 0 then [] else [rPs]
  let own := match x.op with
    | .amul => [x.s, x.t]
    | .amac => [x.s, x.t, rA x.ctl]
    | .amsu => [x.s, x.t, rA x.ctl]
    | .amacq => [x.s, x.t, rA x.ctl]
    | .amsuq => [x.s, x.t, rA x.ctl]
    | .aclr => []
    | .aext => [rARead x.ctl]
    | .agetl => [rARead x.ctl]
    | .ageth => [rARead x.ctl]
    | .agetg => [rARead x.ctl]
    | .sb => [x.s, x.d]
    | .sh => [x.s, x.d]
    | .sw => [x.s, x.d]
    | .crd => [rC x.ctl]
    | .cset => [rC x.ctl, x.s]
    | .cclr => [rC x.ctl, x.s]
    | .eret => [rC 0x11]
    | .vsel => [rV x.s, rV x.t, rV x.d]
    | .vmac => [rV x.s, rV x.t, rVA (x.d / 8)]
    | .vmsu => [rV x.s, rV x.t, rVA (x.d / 8)]
    | .vmacq => [rV x.s, rV x.t, rVA (x.d / 8)]
    | .vld => [x.s]
    | .vst => [x.s, rV x.d]
    | .vbcast => [x.s]
    | .vget => [x.t, rV x.s]
    | .vput => [x.s, x.t, rV x.d]
    | .vaccout => [rVARead x.s]
    | .srch => [rV x.s, x.t]
    | .srch288 => [rV x.s, x.t]
    | .srch576 => [rV x.s, rV (x.s + 1), x.t]
    | .div => [x.s, x.t, rDzte]
    | .divu => [x.s, x.t, rDzte]
    | .rem => [x.s, x.t, rDzte]
    | .remu => [x.s, x.t, rDzte]
    | .slli => [x.s]
    | .srli => [x.s]
    | .srai => [x.s]
    | .qrshri => [x.s]
    | op =>
      if (vectorRows.any fun r => r.op == op) then [rV x.s, rV x.t] else [x.s, x.t]
  c ++ own.filter (· ≠ 0)

/-- The cycles an instruction waits in L mode until what it reads is ready. -/
def Task.waitCycles (t : Task) (x : Dec) : Nat :=
  if t.nMode then 0 else (x.sources.foldl (fun m r => max m (tgetD t.avail r 0)) 0) - t.cycles

/-! ### Control registers (R330 to R334) -/

/-- Numbers of the control registers, and those that may be written in Selkel-2. -/
def ctlNumbers : List Nat := [0x000, 0x001, 0x002, 0x003, 0x004, 0x010, 0x011, 0x012, 0x013, 0x020, 0x021, 0x022, 0x023,
  0x024, 0x030, 0x031, 0x032]

/-- A control register that CWR, CSET and CCLR may name in a task's mode. -/
def Task.ctlWritable (t : Task) (n : Nat) : Bool := [0x002, 0x010, 0x011, 0x012].contains n || (t.selkel1 && n = 0x001)

/-- The bits of a control register that a write changes. -/
def ctlMask (n : Nat) : Nat := if n = 0x002 then 0x10F else if n = 0x001 then 0x1F else 0xFFFFFFFF

/-- FRAMEDL (R392): the deadline of the oldest frame neither retired nor missed. -/
def Task.framedl (t : Task) : Nat :=
  match t.filter with
  | none => 0xFFFFFFFF
  | some f =>
    match f.frames.find? fun x => x.state = 0 with
    | some x => match x.deadline with
      | some n => n / 65536 % 65536 * 65536 + n % 65536
      | none => 0xFFFFFFFF
    | none => 0xFFFFFFFF

/-- ISAVER (R373). -/
def isaver : Nat := 0x0203013F

/-- The value that CRD reads. -/
def State.ctlRead (s : State) (d slot core : Nat) (t : Task) (n : Nat) : Nat :=
  if n = 0x000 then isaver
  else if n = 0x001 then b2n t.inTrap * 2 ^ 31 + b2n t.selkel1 * 2 ^ 30 + b2n t.nMode * 2 ^ 29 +
    (if t.selkel1 then t.reg rPs % 32 else 0)
  else if n = 0x020 then t.cycles % 2 ^ 32
  else if n = 0x022 then (s.clock d).epoch % 2 ^ 32
  else if n = 0x030 then d * 256 + core
  else if n = 0x031 then slot
  else if n = 0x032 then t.framedl
  else t.reg (rC n)

/-! ### The data address space (R343, R375 to R378) -/

/-- Where a data address leads. -/
inductive Place where
  /-- The task's segment, at a byte of memory. -/
  | seg (addr : Nat)
  /-- The ring window, at a ring offset. -/
  | ring (off : Nat)
  /-- A pond buffer through a window, at a byte of memory. -/
  | pond (addr : Nat)
deriving DecidableEq, Repr

/-- The place of n bytes at a data address; none outside every region or its mapped part. -/
def State.place (s : State) (d slot : Nat) (t : Task) (a n : Nat) : Option Place :=
  if a + n ≤ t.segLen then some (.seg (taskAddr d slot a))
  else if 0x08000000 ≤ a ∧ a + n ≤ 0x10000000 ∧ t.filter.isSome then some (.ring (a - 0x08000000))
  else if 0x10000000 ≤ a ∧ a + n ≤ 0x11000000 then
    let w := (a - 0x10000000) / 0x400000
    let off := (a - 0x10000000) % 0x400000
    match tget t.windows w with
    | none => none
    | some h =>
      match s.heldBuffer (taskOwner d slot) h with
      | some (base, size) => if off + n ≤ size then some (.pond (base + off)) else none
      | none => none
  else none

/-- One byte of the ring window (R378): of an outstanding input entry, zero when its frame's space was reclaimed; a
byte of no entry is not stated: a free value. -/
def State.ringByte (s : State) (t : Task) (off : Nat) : Nat :=
  match t.filter with
  | none => 0
  | some f =>
    let o := off % 67108864
    let hit := f.chunks.find? fun c => (o + 67108864 - c.woff) % 67108864 < c.bytes.length
    match hit with
    | some c => if c.reclaimed then 0 else c.bytes.getD ((o + 67108864 - c.woff) % 67108864) 0
    | none => s.freeValue % 256

/-- The bytes at a place. -/
def State.placeRead (s : State) (t : Task) (p : Place) (n : Nat) : List Nat :=
  match p with
  | .seg a => memRead s.mem a n
  | .pond a => memRead s.mem a n
  | .ring o => (List.range n).map fun k => s.ringByte t (o + k)

/-- The poisoned state of a place. -/
def State.placePoisoned (s : State) (p : Place) (n : Nat) : Bool :=
  match p with
  | .seg a => s.poisonedAt a n
  | .pond a => s.poisonedAt a n
  | .ring _ => false

end Sys2Proof.Machine
end

