-- ==== Sys2Proof/Machine/Flags.lean ====
section
/-!
DEFINITION. The arithmetic of the instruction set (R340, R341, R347, R350), the Selkel-1 flags (R370, R372), and how an
instruction of a running task is executed or traps (R353 to R361).
-/

namespace Sys2Proof.Machine

/-! ### Fitting, rounding, lanes -/

/-- A result and the sticky bits it sets: FXCTL.V wrapped, FXCTL.S saturated, FXCTL.AV an accumulator wrapped. -/
structure Fit where
  val : Nat
  v : Bool
  s : Bool
  av : Bool
deriving DecidableEq, Repr

/-- A result that sets nothing. -/
def Fit.plain (n : Nat) : Fit := ⟨n, false, false, false⟩

/-- The smallest and the largest signed number of a width. -/
def minSigned (w : Nat) : Int := -(2 ^ (w - 1) : Int)
def maxSigned (w : Nat) : Int := (2 ^ (w - 1) : Int) - 1

/-- An exact signed result in w bits: saturated with SAT 1, wrapped with SAT 0 (R340). -/
def fitSigned (w : Nat) (sat : Bool) (x : Int) : Fit :=
  if minSigned w ≤ x ∧ x ≤ maxSigned w then .plain (twos w x)
  else if sat then ⟨twos w (clampInt (minSigned w) (maxSigned w) x), false, true, false⟩
  else ⟨twos w x, true, false, false⟩

/-- An accumulator result in w bits (R350). -/
def fitAcc (w : Nat) (sat : Bool) (x : Int) : Fit :=
  if minSigned w ≤ x ∧ x ≤ maxSigned w then .plain (twos w x)
  else if sat then ⟨twos w (clampInt (minSigned w) (maxSigned w) x), false, true, false⟩
  else ⟨twos w x, false, false, true⟩

/-- x ÷ 2^k rounded as RND gives (R347). -/
def roundShift (rnd k : Nat) (x : Int) : Int :=
  if k = 0 then x
  else
    let p : Int := 2 ^ k
    let floor := x / p
    let rest := x % p
    if rnd = 0 then floor
    else if rnd = 1 then (x + p / 2) / p
    else if rnd = 2 then (if rest * 2 < p then floor else if p < rest * 2 then floor + 1 else if floor % 2 = 0 then floor else floor + 1)
    else (if x < 0 ∧ rest ≠ 0 then floor + 1 else floor)

/-- The n lanes of w bits of a number, lowest first. -/
def lanesOf (w n x : Nat) : List Nat := (List.range n).map fun k => x / 2 ^ (w * k) % 2 ^ w

/-- Lane results put together; a sticky bit is set when any lane sets it (R341). -/
def joinFits (w : Nat) (l : List Fit) : Fit :=
  ⟨ofLanes w (l.map fun f => f.val), l.any fun f => f.v, l.any fun f => f.s, l.any fun f => f.av⟩

/-- An operation on each lane of two operands. -/
def lanewise (w n : Nat) (f : Nat → Nat → Fit) (a b : Nat) : Fit :=
  joinFits w (((lanesOf w n a).zip (lanesOf w n b)).map fun p => f p.1 p.2)

/-- An operation on each lane of one operand. -/
def lanewise1 (w n : Nat) (f : Nat → Fit) (a : Nat) : Fit := joinFits w ((lanesOf w n a).map f)

/-- The lane width and the number of lanes of a 32-bit register (R336). -/
def ewWidth (ew : Nat) : Nat := if ew = 0 then 32 else if ew = 1 then 16 else 8
def ewLanes (ew : Nat) : Nat := 32 / ewWidth ew

/-- The lane width and the number of lanes of a V register. -/
def vWidth (ew : Nat) : Nat := if ew = 0 then 8 else if ew = 1 then 16 else 32
def vLanes (ew : Nat) : Nat := 512 / vWidth ew

/-! ### The lane operations -/

/-- A signed operation on two lanes, fitted. -/
def laneInt (w : Nat) (sat : Bool) (f : Int → Int → Int) (a b : Nat) : Fit := fitSigned w sat (f (signed w a) (signed w b))

/-- A left shift of a lane by any amount (R340, R341). -/
def laneSll (w : Nat) (sat : Bool) (amount a : Nat) : Fit :=
  if !sat then .plain (if w ≤ amount then 0 else a * 2 ^ amount % 2 ^ w)
  else if a = 0 then .plain 0
  else fitSigned w true (signed w a * 2 ^ (min amount w))

/-- A right shift of a lane with zero fill. -/
def laneSrl (w amount a : Nat) : Fit := .plain (if w ≤ amount then 0 else a / 2 ^ amount)

/-- A right shift of a lane with sign fill. -/
def laneSra (w amount a : Nat) : Fit := .plain (twos w (signed w a / 2 ^ (min amount w)))

/-- A rounded right shift of a lane; an amount of at least the width gives the sign fill (R348). -/
def laneQrshr (w rnd amount a : Nat) : Fit :=
  if w ≤ amount then laneSra w amount a else .plain (twos w (roundShift rnd amount (signed w a)))

/-- A fractional product of two lanes (R348). -/
def laneQmul (w : Nat) (sat : Bool) (rnd a b : Nat) : Fit :=
  fitSigned w sat (roundShift rnd (w - 1) (signed w a * signed w b))

/-- The smaller or the larger of two lanes as signed numbers. -/
def laneMin (w a b : Nat) : Fit := .plain (if signed w a ≤ signed w b then a else b)
def laneMax (w a b : Nat) : Fit := .plain (if signed w a ≤ signed w b then b else a)

/-- The set bits of a lane. -/
def popcount (w a : Nat) : Nat := (bitsOf w a).length

/-- The leading zero bits of a 32-bit word. -/
def leadingZeros (a : Nat) : Nat :=
  match (bitsOf 32 a).getLast? with
  | some k => 31 - k
  | none => 32

/-! ### Execution -/

/-- What an instruction sees: the state with its task as it reads registers, die, core, slot, and the decoded word. -/
structure Ctx where
  s : State
  die : Nat
  core : Nat
  slot : Nat
  t : Task
  w : Nat
  x : Dec

/-- What an instruction does: the state after its effect, its register writes, the FXCTL bits it sets, the Selkel-1
flags it sets as mask and value, whether it saturates, where the pc goes, its core cycles and the cycles it waits. -/
structure Effect where
  after : State
  writes : List RegWrite
  sticky : Nat
  flags : Nat × Nat
  q : Bool
  next : Nat
  cost : Nat
  wait : Nat

/-- An instruction takes effect, or traps with a cause and value. -/
inductive Act where
  | done (e : Effect)
  | trap (cause val : Nat)

/-- The effect of an instruction that only advances the pc. -/
def Ctx.plain (c : Ctx) : Effect := ⟨c.s, [], 0, (0, 0), false, c.t.pc + 4, 1, 0⟩

/-- Operands as an instruction reads them: the registers that the S, T and D fields name. -/
def Ctx.sv (c : Ctx) : Nat := c.t.reg c.x.s
def Ctx.tv (c : Ctx) : Nat := c.t.reg c.x.t
def Ctx.dv (c : Ctx) : Nat := c.t.reg c.x.d

/-- The address that a load, a store or JALR computes. -/
def Ctx.ea (c : Ctx) : Nat := twos 32 (c.sv + c.x.imm)

/-- The sticky bits that a result sets, as FXCTL holds them. -/
def Fit.sticky (f : Fit) : Nat := b2n f.v + 2 * b2n f.s + 8 * b2n f.av

/-- N and Z of a result, as PSTAT holds them (R372). -/
def nzFlags (r : Nat) : Nat × Nat := (12, (if bitOf r 31 then 8 else 0) + (if r % 2 ^ 32 = 0 then 4 else 0))

/-- A result is written to a G register, with its sticky bits, and with N and Z where F is 1; `more` gives the further
flags as mask and value. -/
def Ctx.resultOf (c : Ctx) (f : Fit) (dist : Nat) (more : Nat × Nat) : Effect :=
  let nz := nzFlags f.val
  { c.plain with
    writes := [wr c.x.d f.val dist]
    sticky := f.sticky
    flags := if c.x.setF then (nz.1 + more.1, nz.2 + more.2) else (0, 0)
    q := f.s }

/-- An instruction that only has a result. -/
def Ctx.result (c : Ctx) (f : Fit) (dist : Nat) (more : Nat × Nat) : Act := .done (c.resultOf f dist more)

/-- Carry and overflow of an addition or subtraction, and carry of a shift, as mask and value. -/
def cvFlags (carry overflow : Bool) : Nat × Nat := (3, 2 * b2n carry + b2n overflow)
def carryFlag (carry : Bool) : Nat × Nat := (2, 2 * b2n carry)

/-- The exact result of 32 bits overflows. -/
def overflows (x : Int) : Bool := x < minSigned 32 || maxSigned 32 < x

/-- A COND holds with the flags of PSTAT: N 8, Z 4, C 2, V 1, Q 16 (R370). -/
def condHolds (cond ps : Nat) : Bool :=
  let n := bitOf ps 3
  let z := bitOf ps 2
  let c := bitOf ps 1
  let v := bitOf ps 0
  let q := bitOf ps 4
  match cond with
  | 0 => true
  | 1 => z
  | 2 => !z
  | 3 => n
  | 4 => !n
  | 5 => c
  | 6 => !c
  | 7 => v
  | 8 => !v
  | 9 => n != v
  | 10 => n == v
  | 11 => !z && n == v
  | 12 => z || n != v
  | 13 => c && !z
  | 14 => !c || z
  | _ => q

/-- A task takes a trap (R355, R356): every earlier write becomes visible; EPC, TRAPCAUSE and TRAPVAL are written and the
pc goes to TRAPBASE, or the task ends. Cause 6 sets DZ. -/
def State.takeTrap (s : State) (d slot pc cause val : Nat) : State :=
  match s.task d slot with
  | none => s
  | some t0 =>
    let t1 := t0.settleAll
    let t2 := if cause = 6 then t1.setReg rFx 4 4 else t1
    let t := { t2 with cycles := t2.cycles + 3, count := t2.count + 1, avail := [] }
    let code := if t.inTrap then 0x0B else cause
    let shown := if t.inTrap then cause else val
    let t' := ((t.setReg (rC 0x11) 0xFFFFFFFF pc).setReg (rC 0x12) 0xFFFFFFFF code).setReg (rC 0x13) 0xFFFFFFFF shown
    let s1 := (s.setTask d slot { t' with inTrap := true }).bump (0x50A8 + d) code
    if t.inTrap ∨ t.reg (rC 0x10) = 0 then s1.stopTask d slot 1 0 code
    else s1.setTask d slot { t' with inTrap := true, pc := t.reg (rC 0x10) }

/-- The effect of an instruction is committed to its task. -/
def Ctx.commit (c : Ctx) (e : Effect) : State :=
  match e.after.task c.die c.slot with
  | none => e.after
  | some t =>
    if t.state = 4 then e.after
    else
      let issue := c.t.cycles + c.t.waitCycles c.x
      let sticky : List RegWrite := if e.sticky = 0 then [] else [⟨rFx, e.sticky, e.sticky, 3, false⟩]
      let q : List RegWrite := if e.q ∧ c.t.selkel1 then [⟨rPs, 16, 16, 3, false⟩] else []
      let fl : List RegWrite := if e.flags.1 = 0 then [] else [⟨rPs, e.flags.1, e.flags.2, 2, false⟩]
      let t1 := (e.writes ++ fl ++ sticky ++ q).foldl (fun (t : Task) w => t.write issue w) t
      e.after.setTask c.die c.slot { t1 with pc := e.next, count := t1.count + 1, cycles := issue + e.cost + e.wait }

/-- A decoded instruction executes (R339, R354, R367, R371); ERET outside a trap is undefined, whatever its other fields (R352). -/
def Ctx.run (c : Ctx) (f : Ctx → Act) : State :=
  if c.x.op = .eret ∧ !c.t.inTrap then c.s.takeTrap c.die c.slot c.t.pc 1 c.w
  else if c.x.bad then c.s.takeTrap c.die c.slot c.t.pc 2 c.w
  else if c.x.op = .cop3 then c.s.takeTrap c.die c.slot c.t.pc 7 c.w
  else if !condHolds c.x.cond (c.t.reg rPs) then
    let wait := if c.t.nMode then 0 else tgetD c.t.avail rPs 0 - c.t.cycles
    c.s.setTask c.die c.slot { c.t with pc := c.t.pc + 4, count := c.t.count + 1, cycles := c.t.cycles + wait + 1 }
  else
    match f c with
    | .done e => c.commit e
    | .trap cause val =>
      let t := { c.t with cycles := c.t.cycles + c.t.waitCycles c.x }
      (c.s.setTask c.die c.slot t).takeTrap c.die c.slot c.t.pc cause val

/-- The word that a task executes next: none when its pc cannot be fetched (R335, R353); 0 past its text. -/
def State.fetchWord (s : State) (t : Task) : Option Nat :=
  if t.pc % 4 ≠ 0 ∨ 65536 ≤ t.pc then none
  else some (((s.program t.handle).bind fun p => p.text[t.pc / 4]?).getD 0)

/-- The instruction rows: the running task of a core executes its next word, which must be this operation. -/
def execOp (op : Op) (die core : Nat) (s : State) (f : Ctx → Act) : Res :=
  onDie s die fun _ =>
    match s.running die core with
    | none => .refused .notThisWord
    | some (slot, t0) =>
      let t := t0.settle
      match s.fetchWord t with
      | none => .refused .notThisWord
      | some w =>
        match decodeWord t.selkel1 w with
        | none => .refused .notThisWord
        | some x =>
          if x.op ≠ op then .refused .notThisWord
          else .next (Ctx.run ⟨s.setTask die slot t, die, core, slot, t, w, x⟩ f)

/-- UNDEFINED_INSTRUCTION (R339, R346, R353): the running task's next word is undefined, or its pc cannot be fetched, and
it traps. -/
def execUndefinedInstruction (die core : Nat) (s : State) : Res :=
  onDie s die fun _ =>
    match s.running die core with
    | none => .refused .notThisWord
    | some (slot, t0) =>
      let t := t0.settle
      let s1 := s.setTask die slot t
      match s.fetchWord t with
      | none => .next (s1.takeTrap die slot t.pc 5 t.pc)
      | some w =>
        match decodeWord t.selkel1 w with
        | none => .next (s1.takeTrap die slot t.pc 1 w)
        | some _ => .refused .notThisWord

/-! ### Operands and results of a family -/

/-- An integer operation on packed lanes with a register T. -/
def Ctx.packed (c : Ctx) (f : Nat → Bool → Nat → Nat → Fit) : Fit :=
  let w := ewWidth c.x.ew
  lanewise w (ewLanes c.x.ew) (f w c.x.sat) c.sv c.tv

/-- An operation of one operand on packed lanes. -/
def Ctx.packed1 (c : Ctx) (f : Nat → Bool → Nat → Fit) : Fit :=
  let w := ewWidth c.x.ew
  lanewise1 w (ewLanes c.x.ew) (f w c.x.sat) c.sv

/-- A shift of packed lanes by an amount. -/
def Ctx.shift (c : Ctx) (f : Nat → Nat → Fit) : Fit :=
  let w := ewWidth c.x.ew
  lanewise1 w (ewLanes c.x.ew) (f w) c.sv

/-- The carry of a shift in Selkel-1: the last bit shifted out, 0 above 32, unchanged for 0 (R372). -/
def shiftCarry (left : Bool) (amount a : Nat) : Nat × Nat :=
  if amount = 0 then (0, 0)
  else if 32 < amount then carryFlag false
  else carryFlag (if left then bitOf a (32 - amount) else bitOf a (amount - 1))

/-- An operation on V lanes of two registers. -/
def Ctx.vec2 (c : Ctx) (f : Nat → Bool → Nat → Nat → Fit) : Fit :=
  let w := vWidth c.x.ew
  lanewise w (vLanes c.x.ew) (f w c.x.sat) (c.t.reg (rV c.x.s)) (c.t.reg (rV c.x.t))

/-- An operation on V lanes of one register. -/
def Ctx.vec1 (c : Ctx) (f : Nat → Bool → Nat → Fit) : Fit :=
  let w := vWidth c.x.ew
  lanewise1 w (vLanes c.x.ew) (f w c.x.sat) (c.t.reg (rV c.x.s))

/-- A result goes to the V register that VD names, at distance 4. -/
def Ctx.toV (c : Ctx) (f : Fit) : Act := .done { c.plain with writes := [wr (rV c.x.d) f.val 4], sticky := f.sticky, q := f.s }

/-- A result goes to a G register from a V register, at distance 3. -/
def Ctx.fromV (c : Ctx) (f : Fit) : Act := .done { c.plain with writes := [wr c.x.d f.val 3], sticky := f.sticky, q := f.s }

/-- The lanes of the V register that VS names, as signed numbers. -/
def Ctx.vsLanes (c : Ctx) : List Nat := lanesOf (vWidth c.x.ew) (vLanes c.x.ew) (c.t.reg (rV c.x.s))

/-- The branch or jump to a target (R346): a target outside the instruction space traps; `link` names the register that
receives the address after the instruction. -/
def Ctx.jump (c : Ctx) (target : Int) (link : Option Nat) : Act :=
  if target % 4 ≠ 0 ∨ target < 0 ∨ 65536 ≤ target then .trap 5 (twos 32 target)
  else
    let writes := match link with
      | some r => [wr r (c.t.pc + 4) 1]
      | none => []
    .done { c.plain with next := target.toNat, cost := 3, writes := writes }

/-- A compare-and-branch. -/
def Ctx.branch (c : Ctx) (taken : Bool) : Act :=
  if taken then c.jump (c.t.pc + c.x.imm * 4) none else .done c.plain

/-- The wait for an outside resource (R359): a free number of cycles. -/
def Ctx.waits (c : Ctx) (e : Effect) : Act := .done { e with after := e.after.useFree, wait := c.s.freeValue }

/-- What a load does with the value of a place: a register write, after a free wait for a pond window; a ring window's bytes may be
free (R359). -/
def Ctx.loaded (c : Ctx) (p : Place) (write : RegWrite) : Effect :=
  match p with
  | .seg _ => { c.plain with writes := [write] }
  | .ring _ => { c.plain with writes := [write], after := c.s.useFree }
  | .pond _ =>
    -- the wait falls due at the instruction at distance 3 from the load
    { c.plain with writes := [write, ⟨rStall, 0, c.s.freeValue, 3, true⟩], after := c.s.useFree }

/-- A load of n bytes (R343, R354, R357, R359): alignment, place and poison are checked in that order. -/
def Ctx.load (c : Ctx) (n : Nat) (f : Nat → Nat) : Act :=
  let a := c.ea
  if a % n ≠ 0 then .trap 3 a
  else
    match c.s.place c.die c.slot c.t a n with
    | none => .trap 4 a
    | some p =>
      if c.s.placePoisoned p n then .trap 0x0A a
      else .done (c.loaded p { wr c.x.d (f (ofLe (c.s.placeRead c.t p n))) 3 with load := true })

/-- The effect of bytes stored at an address of memory. -/
def Ctx.stored (c : Ctx) (m : Nat) (b : List Nat) : Effect := { c.plain with after := c.s.write m b }

/-- A store of n bytes (R343); the ring window may not be written. A store through a pond window waits at itself. -/
def Ctx.store (c : Ctx) (n : Nat) (b : List Nat) : Act :=
  let a := c.ea
  if a % n ≠ 0 then .trap 3 a
  else
    match c.s.place c.die c.slot c.t a n with
    | none => .trap 4 a
    | some (.ring _) => .trap 4 a
    | some (.seg m) => .done (c.stored m b)
    | some (.pond m) => c.waits (c.stored m b)

/-- A coprocessor answers: D where its operation has a result, and COPSTAT, at distance 2, after a wait (R333, R358,
R359). -/
def Ctx.answer (c : Ctx) (after : State) (major status : Nat) (d : Option Nat) (more : List RegWrite) : Act :=
  let e := { c.plain with
    after := after
    writes := (match d with
      | some v => [wr c.x.d v 2]
      | none => []) ++ more ++ [wr rCop (256 * major + status) 2] }
  .done { e with after := after.useFree, wait := after.freeValue }

end Sys2Proof.Machine
end

