-- ==== Sys2Proof/Machine/Measure.lean ====
section
/-!
DEFINITION. Measurement slots (R485 to R488) and the keys of the cipher engine: device key, transport keys, key blobs,
key store, production slots and key-state slots (R441 to R455, R468 to R470).
-/

namespace Sys2Proof.Machine

/-! ### Measurement slots -/

/-- A slot after power-on. -/
def Measure.reset : Measure := ⟨zeros 48, zeros 48, 0, [], 0⟩

/-- A measurement slot. -/
def State.measure (s : State) (n : Nat) : Measure := tgetD s.secure.measures n Measure.reset

/-- A 144-byte log record (R488). -/
def State.extendRecord (s : State) (ordinal source : Nat) (input : List Nat) : List Nat :=
  leBytes 4 ordinal ++ leBytes 6 s.epoch ++ leBytes 2 s.phase ++ leBytes 2 input.length ++ [source, 0] ++ fit 128 input

/-- An extension (R485, R488): the value becomes SHA-384 of the old value and the input; source 0 boot ROM, 1 first
stage, 2 lead, 3 manager. The log keeps the last 4,096. -/
def State.extend (s : State) (n source : Nat) (input : List Nat) : State :=
  let m := s.measure n
  let ordinal := m.count + 1
  let log := m.log ++ [s.extendRecord ordinal source input]
  let full := 4096 < log.length
  -- the record that leaves the log keeps its effect in the base value
  let first := log.headD []
  let base := if full then sha384 (m.base ++ slice 16 (field first 12 2) first) else m.base
  let m' : Measure := ⟨sha384 (m.value ++ input), base, ordinal, if full then log.drop 1 else log, m.pushed + b2n full⟩
  let s1 := { s with secure := { s.secure with measures := tset s.secure.measures n m' } }
  (((s1.setObj 0x6421 1 n).setObj 0x6421 2 ordinal).setObj 0x6421 3 s.epoch).setObj 0x6421 4 s.phase

/-- Every slot is set to zero and every log emptied (R485). -/
def State.clearMeasures (s : State) : State := { s with secure := { s.secure with measures := [] } }

/-! ### Keys -/

/-- The value of a production slot with its rotation ordinal; none when never written (R445). -/
def State.production (s : State) (n : Nat) : Option (Nat × List Nat) := tget s.secure.production n

/-- A production slot takes a new value (R445). -/
def State.rotateProduction (s : State) (n : Nat) (v : List Nat) : State :=
  let ordinal := ((s.production n).map (·.1)).getD 0 + 1
  let s1 := { s with secure := { s.secure with production := tset s.secure.production n (ordinal, fit 32 v) } }
  ((s1.setObj 0x600B (n + 1) (ofLe ((sha256 (fit 32 v)).take 4))).setObj 0x600C (n + 1) ordinal).raise (evPkg 22) 0

/-- The transport key of a production slot value (R446). -/
def transportKey (n : Nat) (value : List Nat) : List Nat :=
  (hmac384 value (ascii "HK7KEK" ++ [n] ++ leBytes 8 Config.packageSerial)).take 32

/-- A key-state slot of a die. -/
def State.keyState (s : State) (d n : Nat) : Option KeyState := tget s.secure.keyStates (64 * d + n)

/-- The state with a key-state slot set. -/
def State.setKeyState (s : State) (d n : Nat) (k : KeyState) : State :=
  { s with secure := { s.secure with keyStates := tset s.secure.keyStates (64 * d + n) k } }

/-- A key-state slot is emptied; its load generation stays. -/
def State.emptyKeyState (s : State) (d n : Nat) : State :=
  match s.keyState d n with
  | some k => s.setKeyState d n { k with loaded := false, key := [] }
  | none => s

/-- The key-state slots of a die that came from a cipher slot are emptied, each with EV d.116 (R468). -/
def State.dropSourced (s : State) (d slot : Nat) : State :=
  (List.range 64).foldl (fun s n =>
    match s.keyState d n with
    | some k => if k.loaded ∧ k.slot = slot then ((s.emptyKeyState d n).bump 0x641E 0).raise (evDie d 116) 0 else s
    | none => s) s

/-! ### Key blobs (R447, R448) -/

/-- Bytes of key material by TYPE; none for an unknown one. -/
def materialBytes (ty : Nat) : Option Nat :=
  if ty = 1 then some 16 else if ty = 2 ∨ ty = 3 then some 32 else if ty = 4 ∨ ty = 5 then some 64 else none

/-- Reason 6 of R448: a reserved field is nonzero, or TYPE and POLICY do not go together. -/
def blobBad (h : List Nat) : Bool :=
  let ty := field h 11 1
  let pol := field h 16 2
  pol / 8192 ≠ 0 || (slice 48 16 h).any (· ≠ 0) || 1024 ≤ field h 12 2 || (ty == 5 && pol / 4 % 8 ≠ 0) ||
    ((ty == 3 || ty == 4) && pol / 8 % 4 ≠ 0)

/-- How one blob is judged: a reason, or its key material. -/
def State.judgeBlob (s : State) (b : List Nat) (m : Nat) : Nat × List Nat :=
  let h := b.take 64
  let n := field h 10 1
  if h.take 8 ≠ ascii "HK7KEYBL" ∨ field h 8 2 ≠ 1 ∨ b.length ≠ 152 + (m - 16) then (1, [])
  else
    match s.production n with
    | none => (2, [])
    | some (ordinal, value) =>
      if field h 15 1 ≠ ordinal then (2, [])
      else
        match kwpUnwrap (transportKey n value) (b.drop 64) with
        | none => (3, [])
        | some p =>
          if p.length ≠ 64 + m then (3, [])
          else if p.take 64 ≠ h then (4, [])
          else if field h 40 8 ≠ Config.packageSerial % 2 ^ 64 then (5, [])
          else if blobBad h then (6, [])
          else (0, p.drop 64)

/-- The dies of this part that a mask names. -/
def State.maskDies (s : State) (mask : Nat) : List Nat := s.dies.filter (bitOf mask)

/-- A key goes into its slot on each die it names; key-state slots that came from the slot empty (R449, R453, R468). -/
def State.loadKey (s : State) (h material : List Nat) : State :=
  let slot := field h 12 2
  let id := field h 24 8
  (s.maskDies (field h 14 1)).foldl (fun s d =>
    let c := max (field h 32 8) (tgetD s.secure.marks id 0)
    let k : KeySlot := ⟨1, field h 11 1, field h 16 2, field h 18 2, field h 20 4, id, material, c, c⟩
    (s.setKeySlot d slot k).dropSourced d slot) s

/-- The input of MS5 for an accepted blob (R486). -/
def blobRecord (h : List Nat) : List Nat :=
  slice 24 8 h ++ slice 12 2 h ++ slice 14 1 h ++ slice 11 1 h ++ slice 16 2 h ++ slice 40 8 h ++ slice 10 1 h ++ slice 15 1 h

/-- The listing of the key store (0x600D). -/
def State.reportStore (s : State) : State :=
  let entry := fun (k : StoredKey) => leBytes 2 k.slot ++ slice 14 1 k.blob ++ slice 11 1 k.blob ++ slice 24 8 k.blob
  (s.setDom 0x600D 0 (s.secure.store.flatMap entry)).setObj 0x6004 0 s.secure.store.length

/-- A persistent key enters the store, in place of the one of its slot (R451). -/
def State.storeKey (s : State) (h material : List Nat) : State :=
  let slot := field h 12 2
  let rest := s.secure.store.filter fun k => k.slot ≠ slot
  ({ s with secure := { s.secure with store := rest ++ [(⟨slot, h ++ material, true⟩ : StoredKey)] } }).reportStore

/-- What 0x6006 reports of a blob. -/
def State.reportBlob (s : State) (h : List Nat) (dies reason : Nat) : State :=
  (((s.setObj 0x6006 1 (field h 12 2)).setObj 0x6006 2 dies).setObj 0x6006 3 reason).setObj 0x6006 4 s.epoch

/-- One blob is taken: loaded on every die it names and measured into MS5, or refused with EV P.21. -/
def State.takeBlob (s : State) (b : List Nat) (m : Nat) : State :=
  let h := b.take 64
  let slot := field h 12 2
  let persistent := bitOf (field h 16 2) 6
  let full := persistent && 256 ≤ (s.secure.store.filter fun k => k.slot ≠ slot).length
  let (r0, material) := s.judgeBlob b m
  let reason := if r0 = 0 ∧ full then 6 else r0
  let mask := ofBits (s.maskDies (field h 14 1))
  let count := fun (s : State) (sub : Nat) => (s.maskDies (field h 14 1)).foldl (fun s d => s.bump (0x6158 + d) sub) s
  if reason = 0 then
    let s1 := ((count s 1).loadKey h material).extend 5 2 (blobRecord h)
    (if persistent then s1.storeKey h material else s1).reportBlob h mask 0
  else (((count s 2).reportBlob h 0 reason).bump 0x6016 reason).raise (evPkg 21) 0

/-- The blobs of a write of 0x6005, at the boundary of the write (R448). What follows a blob whose TYPE is wrong cannot
be cut and is refused with it. -/
def State.loadBlobs (s : State) : Nat → List Nat → State
  | 0, _ => s
  | n + 1, b =>
    if b = [] then s
    else
      match materialBytes (field b 11 1) with
      | none => s.takeBlob b 16
      | some m => State.loadBlobs (s.takeBlob (b.take (136 + m)) m) n (b.drop (136 + m))

/-- The stored keys are reloaded into their slots at bring-up; one that fails its check is dropped with EV P.23 (R451). -/
def State.reloadKeys (s : State) : State :=
  s.secure.store.foldl (fun s k =>
    if k.intact then (s.loadKey (k.blob.take 64) (k.blob.drop 64)).bump 0x6018 1
    else
      (({ s with secure := { s.secure with store := s.secure.store.filter fun x => x.slot ≠ k.slot } }.reportStore).bump
        0x6018 2).raise (evPkg 23) 0) s

/-! ### Key-state slots (R468) -/

/-- One 8-byte entry of 0x6403: dies, key-state slot, ALG, reserved, cipher slot, reserved. -/
def State.loadKeyState (s : State) (e : List Nat) : State :=
  let mask := field e 0 1
  let n := field e 1 1 % 64
  let alg := field e 2 1
  let slot := field e 4 2
  let dies := s.maskDies mask
  let okOn := fun (d : Nat) => match s.keySlot d slot with
    | some k => k.type = 5
    | none => false
  let reason := if !dies.all okOn then 1 else if alg = 0 ∨ 3 < alg then 2 else if dies ≠ bitsOf 8 mask then 3 else 0
  let report := fun (s : State) (ds : Nat) =>
    (((s.setObj 0x6407 1 n).setObj 0x6407 2 ds).setObj 0x6407 3 reason).setObj 0x6407 4 s.epoch
  if reason ≠ 0 then report s 0
  else
    report (dies.foldl (fun s d =>
      match s.keySlot d slot with
      | none => s
      | some k =>
        let old := s.keyState d n
        let gen := (old.map (·.gen)).getD 0 + 1
        s.setKeyState d n ⟨true, alg, slot, k.keyId, k.policy / 256 % 32, k.owner, gen, (old.map (·.jobs)).getD 0, k.material⟩) s) mask

/-- The entries of a write of 0x6403, at its boundary. -/
def State.loadKeyStates (s : State) (b : List Nat) : State :=
  (List.range (b.length / 8)).foldl (fun s k => s.loadKeyState (slice (8 * k) 8 b)) s

/-- HMAC of an ALG: the full digest. -/
def hmacAlg (alg : Nat) (key msg : List Nat) : List Nat :=
  if alg = 1 then hmac256 key msg else if alg = 2 then hmac384 key msg else hmac512 key msg

/-- HMAC under a loaded key-state slot of a die that holds an ALG. -/
def State.slotHmac (s : State) (d n alg : Nat) (msg : List Nat) : Option (List Nat) :=
  match s.keyState d n with
  | some k => if n < 64 ∧ k.loaded ∧ k.alg = alg then some (hmacAlg alg k.key msg) else none
  | none => none

/-- The sealing key of a take: die 0's slot that 0x2227 names, with POLICY bit 5 (R157, R470). -/
def State.sealingKey (s : State) : Option (List Nat) :=
  match s.keySlot 0 (s.obj 0x2227 0) with
  | some k => if k.type = 5 ∧ bitOf k.policy 5 then some k.material else none
  | none => none

/-- The take key (R157). -/
def State.takeKey (s : State) (nsid num openEpoch : Nat) : Option (List Nat) :=
  s.sealingKey.map fun k =>
    hmac384 k ([1] ++ ascii "TAKE" ++ leBytes 4 nsid ++ leBytes 2 num ++ leBytes 6 openEpoch ++ leBytes 8 Config.packageSerial)

end Sys2Proof.Machine
end

