-- ==== Sys2Proof/Machine/NearData.lean ====
section
/-!
DEFINITION. Shares of functions (R309) and the creation of near-data tasks (R311, R399).
-/

namespace Sys2Proof.Machine

/-! ### Shares (R305, R309) -/

/-- A function that was never configured. -/
def Fn.fresh : Fn := ⟨[], [], [], 0, 0, 0, 0⟩

/-- A function by its number. -/
def State.fn (s : State) (f : Nat) : Fn := tgetD s.host.fns f Fn.fresh

/-- The state with a function changed. -/
def State.modFn (s : State) (f : Nat) (g : Fn → Fn) : State :=
  { s with host := { s.host with fns := tset s.host.fns f (g (s.fn f)) } }

/-- A controller of a virtual function. -/
def isVf (cntl : Nat) : Bool := (cntl - 1) % 32 ≠ 0

/-- VQ resources of a controller. -/
def State.vqOf (s : State) (cntl : Nat) : Nat := ((s.ctrl cntl).map (·.vq)).getD (if isVf cntl then 0 else 129)

/-- The default of a share of R309. -/
def State.shareDefault (s : State) (f code : Nat) : Nat :=
  let vf := f % 32 ≠ 0
  match code with
  | 1 => 8
  | 2 => if vf then s.vqOf (f + 1) - 1 else 128
  | 5 => 8
  | 6 => 8
  | 7 => if vf then 1 else 0xFFFF
  | 8 => if vf then 64 else 1024
  | _ => 0

/-- The cap that the governor applies to a function, 0 none (R558). -/
def State.governorCap (s : State) (f code : Nat) : Nat :=
  match tget s.power.caps f with
  | some c => if code = 3 then c.1 else if code = 4 then c.2 else 0
  | none => 0

/-- A share in force, the governor's caps among them, and a target share. -/
def State.share (s : State) (f code : Nat) : Nat :=
  let v := (tget (s.fn f).eff code).getD (s.shareDefault f code)
  let g := s.governorCap f code
  if g = 0 then v else if v = 0 then g else min v g
def State.shareTarget (s : State) (f code : Nat) : Nat := (tget (s.fn f).target code).getD (s.shareDefault f code)

/-! ### Near-data tasks (R301, R311, R383, R399) -/

/-- Near-data tasks that hold a slot of a function's quota. -/
def State.slotsHeld (s : State) (f : Nat) : Nat :=
  sum (s.dies.map fun d => ((s.cd d).tasks.filter fun t => t.2.near.isSome && t.2.fn = f).length)

/-- The chunks of one recorded frame: its bands in band order, the last chunk of each marked. -/
def frameChunks (nsid : Nat) (r : List Nat) : List InChunk :=
  let n := field r 5 1
  let bands := ((List.range n).map fun k => slice (64 + 48 * k) 48 r).filter fun b => field b 40 4 ≠ 0
  (bands.zipIdx).map fun b =>
    ⟨nsid, field b.1 32 8, field b.1 40 4, field r 8 4, field b.1 46 2, 1 + (if b.2 + 1 = bands.length then 4 else 0), field b.1 32 8⟩

/-- The input of a near-data task: an LBA range, the recorded frames of a take in manifest order, or a namespace. -/
def State.nearInput (s : State) (r : HeldRun) : List InChunk :=
  if r.source = 1 then
    match s.take.takes.find? fun t => t.nsid = r.nsid && t.num = r.take with
    | some t => (t.records.filter fun x => x.headD 0 = 1).flatMap (frameChunks r.nsid)
    | none => []
  else if r.source = 2 then
    let n := ((tget s.host.nss r.nsid).map (·.nsze)).getD 0
    if n = 0 then [] else [⟨r.nsid, 0, 4096 * n, 0, 0, 0, 0⟩]
  else [⟨r.nsid, 4096 * r.slba, 4096 * r.blocks, 0, 0, 0, r.slba⟩]

/-- A near-data task starts on the die of the command's port: Busy when its ready list is full or no slot is free. -/
def State.startNear (s : State) (r : HeldRun) : State :=
  let d := portOf r.q.cntl
  let busy := (s.failVendor r.q 0x82 0xCD 0).bump 0x500F 3
  match s.program r.handle with
  | none => s.failVendor r.q 0x82 0xC3 0
  | some p =>
    if p.state ≠ 2 then s.failVendor r.q 0x82 0xC3 0
    else if s.listFull d r.group then busy.bump (0x5098 + d) 2
    else
      match s.freeTaskSlot d (s.obj 0x5013 0) 4096 with
      | none => busy
      | some slot =>
        let t := Task.create p r.handle r.group 3 (r.q.cntl - 1) (s.modeOf p) r.arg r.source (if r.source = 1 then r.take else 0) 0
        let n : NearData := ⟨r.q, r.ndt, 0, r.nsid, s.nearInput r, false, 0⟩
        let s1 := (s.placeTask d slot p { t with near := some n }).makeReady d slot
        (s1.feedNear d slot).bump 0x500F 1

/-- Run Programs held for their function's quota start while slots are free, oldest first (R311). -/
def State.startHeld (s : State) : State :=
  s.host.heldRuns.foldl (fun s r =>
    if s.slotsHeld (r.q.cntl - 1) < s.share (r.q.cntl - 1) 8 then
      ({ s with host := { s.host with heldRuns := s.host.heldRuns.filter fun x => x.q ≠ r.q } }).startNear r
    else s) s

/-- An owner's walk ends: a task's slot is free for the next one (R193). -/
def State.walkEnds (s : State) (owner : Nat) : State :=
  let s1 := s.walkOut owner
  (if ownerKind owner = 4 then (s1.freeSlot (ownerDie owner) (ownerNumber owner)).startHeld else s1)

end Sys2Proof.Machine
end

