-- ==== Sys2Proof/Machine/Engines.lean ====
section
/-!
DEFINITION. Jobs that tasks submit to the cipher, digest and codec engines (R364, R404 to R406, R452 to R463, R471 to
R477): submission, start, and what an ending job writes back.
-/

namespace Sys2Proof.Machine

/-! ### Queues and cores -/

/-- The engines of a die as chapters 14 and 15 hold them. -/
def SecureDie.empty : SecureDie := ⟨[], [], 0, 0, []⟩

/-- A die's engines. -/
def State.sd (s : State) (d : Nat) : SecureDie := tgetD s.secure.dies d SecureDie.empty

/-- The state with a die's engines set. -/
def State.setSd (s : State) (d : Nat) (x : SecureDie) : State :=
  { s with secure := { s.secure with dies := tset s.secure.dies d x } }

/-- The jobs of one class that one queue holds: at most 256 (R457, R471; the model's size for the codec's queue). -/
def queueLimit : Nat := 256

/-- Jobs of an engine and class that wait. -/
def State.waitingJobs (s : State) (d engine cls : Nat) : Nat :=
  ((s.cd d).jobs.filter fun j => j.2.engine = engine && j.2.state = 0 && j.2.cls = cls).length

/-- The cores of an engine that are in service: 4 AES cores, 2 SHA-2 cores, 1 codec. -/
def State.engineCores (s : State) (d engine : Nat) : List Nat :=
  if engine = 0 then (List.range 4).filter fun c => !(s.sd d).aesLost.contains c
  else if engine = 1 then (List.range 2).filter fun c => !(s.sd d).shaLost.contains c
  else [0]

/-- The job that runs on a core of an engine. -/
def State.jobOn (s : State) (d engine core : Nat) : Option (Nat × Job) :=
  ((s.cd d).active engine).find? fun j => j.2.core = core

/-- The lowest free core of an engine. -/
def State.freeCore (s : State) (d engine : Nat) : Option Nat :=
  (s.engineCores d engine).find? fun c => (s.jobOn d engine c).isNone

/-- The status under which a GCM encryption waits for its block of counter values (R454). -/
def waitBlock : Nat := 0x100

/-! ### What a job names -/

/-- The bytes that a job names by handle, offset and length: status 0 and their address; status 5 for a handle that the task does not
hold or that is stale, 6 for a range that leaves its buffer, 8 for a buffer whose home die has failed: its data is lost (R173, R461). -/
def State.jobRange (s : State) (holder h off len : Nat) : Nat × Nat :=
  match s.heldBuffer holder h with
  | none => (if s.fault.failed.contains (handleDie h) then 8 else 5, 0)
  | some (addr, size) => if off + len ≤ size then (0, addr + off) else (6, 0)

/-- The status of several ranges: the first that is not 0. -/
def firstStatus (l : List Nat) : Nat := (l.find? (· ≠ 0)).getD 0

/-! ### The cipher engine (R452 to R462) -/

/-- Fields of a cipher job: OP, SLOT, LEN. -/
def Job.cop (j : Job) : Nat := field j.desc 0 1
def Job.cslot (j : Job) : Nat := field j.desc 2 2
def Job.clen (j : Job) : Nat := field j.desc 12 4

/-- Bytes that a cipher job reads and writes beyond LEN: the tag of GCM. -/
def Job.srcExtra (j : Job) : Nat := if j.cop = 4 then 16 else 0
def Job.dstExtra (j : Job) : Nat := if j.cop = 3 then 16 else 0

/-- A reserved or out-of-range field of a cipher descriptor (R460, R461). -/
def Job.cipherBad (j : Job) : Bool :=
  let gcm := j.cop = 3 || j.cop = 4
  j.cop = 0 || 5 < j.cop || field j.desc 1 1 ≠ 0 || 1024 ≤ j.cslot || 65536 < field j.desc 32 4 ||
    (!gcm && (slice 24 12 j.desc).any (· ≠ 0)) || (j.cop ≤ 2 && (j.clen < 16 || j.clen % 16 ≠ 0))

/-- The status of the buffers that a cipher job names. -/
def State.cipherRanges (s : State) (d : Nat) (j : Job) : Nat :=
  let o := taskOwner d j.slot
  let aad := if field j.desc 32 4 = 0 then 0 else (s.jobRange o (field j.desc 24 4) (field j.desc 28 4) (field j.desc 32 4)).1
  firstStatus [(s.jobRange o (field j.desc 4 4) (field j.desc 8 4) (j.clen + j.srcExtra)).1,
    (s.jobRange o (field j.desc 16 4) (field j.desc 20 4) (j.clen + j.dstExtra)).1, aad]

/-- The function number under which a job is judged: a filter counts as no function (R452). -/
def ownerAllows (owner : Nat) (j : Job) : Bool := owner = 0xFFFF || (j.cls ≠ 0 && owner = j.fn)

/-- The POLICY bits that a cipher job needs: the direction, the mode and the class (R447, R452). CTR needs encrypt. -/
def Job.policyOk (j : Job) (k : KeySlot) : Bool :=
  let dir := if j.cop = 2 ∨ j.cop = 4 then 1 else 0
  let mode := if j.cop ≤ 2 then 2 else if j.cop ≤ 4 then 3 else 4
  let pair := k.type = 3 || k.type = 4
  k.type ≠ 5 && bitOf k.policy dir && bitOf k.policy mode && bitOf k.policy (8 + j.cls) && ownerAllows k.owner j &&
    (if j.cop ≤ 2 then pair else !pair)

/-- The status with which a cipher job starts; 0 lets it run. -/
def State.cipherCheck (s : State) (d : Nat) (j : Job) : Nat :=
  if j.cipherBad then 6
  else if s.cipherRanges d j ≠ 0 then s.cipherRanges d j
  else
    match s.keySlot d j.cslot with
    | none => 2
    | some k =>
      if !j.policyOk k then 3
      else if j.cop = 3 ∧ k.state = 2 then 4
      else if j.cop = 5 ∧ 2 ^ 128 < ofBe (slice 36 16 j.desc) + ceilDiv j.clen 16 then 9
      else 0

/-- A GCM encryption takes the counter's value of its slot: the IV goes into the descriptor and the counter rises; after
the last value the slot becomes decrypt-only (R453, R455). -/
def State.takeCounter (s : State) (d : Nat) (j : Job) (k : KeySlot) : Job × State :=
  let iv := beBytes 4 k.salt ++ beBytes 8 k.counter
  let j' := { j with desc := patch j.desc 36 iv, status := 0 }
  if k.counter + 1 = 2 ^ 64 then
    (j', ((s.setKeySlot d j.cslot { k with state := 2 }).bump 0x6015 0).raise (evDie d 104) 0)
  else (j', s.setKeySlot d j.cslot { k with counter := k.counter + 1 })

/-- A cipher job starts: its slot is judged and its key sampled (R449, R452); a GCM encryption takes its IV, or waits for
its block of values to be journalled (R454). -/
def State.cipherBegin (s : State) (d : Nat) (j : Job) : Job × State :=
  if j.start ≠ 0 then (j, s)
  else
    let st := s.cipherCheck d j
    if st = 3 then ({ j with status := 3 }, (s.bump 0x6014 0).raiseOnce (evDie d 106) 0 d)
    else if st ≠ 0 then ({ j with status := st }, s)
    else
      match s.keySlot d j.cslot with
      | none => ({ j with status := 2 }, s)
      | some k =>
        let j' := { j with key := k.material }
        if j.cop ≠ 3 then (j', s)
        else if k.blockEnd ≤ k.counter then ({ j' with status := waitBlock }, s)
        else s.takeCounter d j' k

/-- The data that a cipher job writes: bytes, and its status (R461, R462). -/
def Job.cipherData (j : Job) (src aad : List Nat) : List Nat × Nat :=
  let data := src.take j.clen
  let iv := slice 36 12 j.desc
  if j.cop ≤ 2 then
    let half := j.key.length / 2
    let unit := fun (c : Nat × List Nat) =>
      let t := slice 36 16 j.desc
      let tweak := leBytes 8 (field t 0 8 + c.1 / 4096) ++ t.drop 8
      aesXts (j.cop = 2) (j.key.take half) (j.key.drop half) (ofLe tweak) c.2
    (((cutChunks 4096 (ceilDiv data.length 4096) 0 data).map unit).flatten, 0)
  else if j.cop = 3 then
    let c := gcmCrypt j.key iv data
    (c ++ gcmTag j.key iv aad c, 0)
  else if j.cop = 4 then
    if gcmTag j.key iv aad data = src.drop j.clen then (gcmCrypt j.key iv data, 0) else (zeros j.clen, 1)
  else (aesCtr 128 j.key (slice 36 16 j.desc) data, 0)

/-! ### The digest engine (R469, R473 to R477) -/

/-- The hash of an ALG. -/
def algOf (alg : Nat) : ShaAlg := if alg = 1 then sha256A else if alg = 2 then sha384A else sha512A

/-- The hash value after the key block of HMAC, inner or outer. -/
def hmacState (alg pad : Nat) (key : List Nat) : List Nat :=
  let a := algOf alg
  a.compress a.init (a.keyBlock pad key)

/-- Fields of a digest job. -/
def Job.dop (j : Job) : Nat := field j.desc 0 1
def Job.dalg (j : Job) : Nat := field j.desc 1 1
def Job.restores (j : Job) : Bool := bitOf (field j.desc 2 1) 0
def Job.saves (j : Job) : Bool := bitOf (field j.desc 2 1) 1
def Job.keySrc (j : Job) : Nat := field j.desc 3 1
def Job.dkey (j : Job) : Nat := field j.desc 4 2
def Job.cmpLen (j : Job) : Nat := field j.desc 6 2
def Job.dlen (j : Job) : Nat := field j.desc 16 4

/-- The load generation that a job sampled with its key, kept past the bytes that the engine copied. -/
def Job.gen (j : Job) : Nat := field j.desc 44 4

/-- A combination that ends with status 0x06 (R473, R474). -/
def Job.digestBad (j : Job) : Bool :=
  let out := (algOf j.dalg).out
  let block := (algOf j.dalg).block
  j.dop = 0 || 2 < j.dop || j.dalg = 0 || 3 < j.dalg || 4 ≤ field j.desc 2 1 || 2 < j.keySrc ||
    (j.dop = 1 && j.keySrc ≠ 0) || (j.dop = 2 && j.keySrc = 0) || (j.keySrc = 1 && 64 ≤ j.dkey) ||
    (j.keySrc = 2 && 1024 ≤ j.dkey) || (j.saves && (j.dlen % block ≠ 0 || j.cmpLen ≠ 0)) ||
    (j.cmpLen ≠ 0 && (j.cmpLen < 16 || out < j.cmpLen || j.cmpLen % 4 ≠ 0))

/-- The status of the buffers that a digest job names. -/
def State.digestRanges (s : State) (d : Nat) (j : Job) : Nat :=
  let o := taskOwner d j.slot
  let out := (algOf j.dalg).out
  let at4 := fun (k n : Nat) => (s.jobRange o (field j.desc k 4) (field j.desc (k + 4) 4) n).1
  firstStatus [(s.jobRange o (field j.desc 8 4) (field j.desc 12 4) j.dlen).1, at4 20 (if j.saves then 128 else out),
    if j.restores then at4 28 128 else 0, if j.cmpLen ≠ 0 then at4 36 j.cmpLen else 0]

/-- The key that a digest job takes at its start: status, key material and load generation (R469). -/
def State.digestKey (s : State) (d : Nat) (j : Job) : Nat × List Nat × Nat :=
  if j.keySrc = 0 then (0, [], 0)
  else if j.keySrc = 1 then
    match s.keyState d j.dkey with
    | none => (2, [], 0)
    | some k =>
      if !k.loaded then (2, [], 0)
      else if k.alg ≠ j.dalg then (6, [], 0)
      else if bitOf k.classes j.cls && ownerAllows k.owner j then (0, k.key, k.gen) else (3, [], 0)
  else
    match s.keySlot d j.dkey with
    | none => (2, [], 0)
    | some k =>
      if k.type = 5 && bitOf (k.policy / 256) j.cls && ownerAllows k.owner j then (0, k.material, 0) else (3, [], 0)

/-- A digest job starts. -/
def State.digestBegin (s : State) (d : Nat) (j : Job) : Job × State :=
  if j.start ≠ 0 then (j, s)
  else
    if j.digestBad then ({ j with status := 6 }, s)
    else if s.digestRanges d j ≠ 0 then ({ j with status := s.digestRanges d j }, s)
    else
      let (st, key, gen) := s.digestKey d j
      let s1 := if st = 3 then s.bump 0x6418 0 else s
      let s2 := if st = 0 ∧ j.keySrc = 2 then s1.bump 0x641F 0 else s1
      let s3 := match (if st = 0 ∧ j.keySrc = 1 then s2.keyState d j.dkey else none) with
        | some k => s2.setKeyState d j.dkey { k with jobs := k.jobs + 1 }
        | none => s2
      ({ j with status := st, key := key, desc := patch j.desc 44 (leBytes 4 gen) }, s3)

/-- The context key of this bring-up (R475): its derivation with a fresh random value is not stated, so its bytes are. -/
def State.contextKey (s : State) : List Nat := leBytes 32 s.secure.contextSeed

/-- A saved context (R475). -/
def State.contextOf (s : State) (j : Job) (h : List Nat) (count : Nat) : List Nat :=
  let body := ascii "HK7DGCTX" ++ [j.dalg, j.keySrc] ++ leBytes 2 j.dkey ++ leBytes 8 count ++ leBytes 4 j.gen ++ zeros 8 ++
    fit 64 ((algOf j.dalg).bytes h)
  fit 128 (body ++ (hmac256 s.contextKey body).take 16)

/-- A context is accepted for a job: its state and count. -/
def State.acceptContext (s : State) (j : Job) (c : List Nat) : Option (List Nat × Nat) :=
  let nb := (algOf j.dalg).w / 8
  let body := c.take 96
  if c.take 8 = ascii "HK7DGCTX" ∧ slice 96 16 c = (hmac256 s.contextKey body).take 16 ∧ field c 8 1 = j.dalg ∧
      field c 9 1 = j.keySrc ∧ field c 10 2 = j.dkey ∧ field c 20 4 = j.gen then
    some ((List.range 8).map fun i => ofBe (slice (32 + nb * i) nb c), field c 12 8)
  else none

/-- The pattern of a comparison by two comparators that work, and its status: MATCH, MATCH_N, MATCH2, MATCH2_N in bits
3 to 0 (R476). -/
def comparePattern (equal : Bool) : Option (Bool × Bool × Bool × Bool) → Nat × Nat
  | none => (if equal then 0b1010 else 0b0101, 0)
  | some (m, mn, m2, m2n) =>
    let r := 8 * b2n m + 4 * b2n mn + 2 * b2n m2 + b2n m2n
    (r, if r = 0b1010 ∨ r = 0b0101 ∨ r = 0 then 0 else 9)

/-- What a digest job comes to: the bytes for its destination, the comparison result and the status. -/
def State.digestData (s : State) (j : Job) (src ctx expected : List Nat) (comparators : Option (Bool × Bool × Bool × Bool)) :
    List Nat × Nat × Nat :=
  let a := algOf j.dalg
  let start : Option (List Nat × Nat) :=
    if j.restores then s.acceptContext j ctx
    else some (if j.dop = 2 then hmacState j.dalg 0x36 j.key else a.init, 0)
  match start with
  | none => ([], 0, 4)
  | some (h, count) =>
    if j.saves then (s.contextOf j (a.absorb (src.length / a.block) h src) (count + src.length), 0, 0)
    else
      let keyed := if j.dop = 2 then a.block else 0
      let inner := a.finish h (keyed + count) src
      let digest := if j.dop = 2 then a.finish (hmacState j.dalg 0x5C j.key) a.block inner else inner
      if j.cmpLen = 0 then (digest, 0, 0)
      else
        let (r, st) := comparePattern (digest.take j.cmpLen = expected) comparators
        (digest, if st = 0 then r else 0, st)

/-! ### Starting jobs -/

/-- A job of the queue of an engine starts on a core; the codec's window limit is the one that stands then (R54). -/
def State.beginJob (s : State) (d ticket core : Nat) (j : Job) : State :=
  let j0 := { j with state := 1, core := core, urgent := false }
  let (j1, s1) := if j.engine = 0 then s.cipherBegin d j0 else if j.engine = 1 then s.digestBegin d j0 else (j0, s)
  let wait := s.time.now - j.since
  let s2 := if j.engine = 0 ∧ j.cls = 0 then s1.highWater (0x6160 + d) 0 wait else s1
  s2.setJob d ticket { j1 with start := s.time.now + 1, saved := false, window := s.obj 0x5011 0 }

/-- An engine that holds 16 posts stalls until one lands (R389). -/
def State.engineStalled (s : State) (d engine : Nat) : Bool := 16 ≤ ((s.cd d).engineHeld.filter fun h => h.1 = engine).length

/-- Free cores of an engine take the heads of its queues, capture class first (R457, R458). -/
def State.startJobs (s : State) (d engine : Nat) : Nat → State
  | 0 => s
  | n + 1 =>
    match s.freeCore d engine, (s.cd d).queue engine with
    | some core, (ticket, j) :: _ =>
      if s.engineStalled d engine then s
      else
      -- a preempted job that starts again leaves its context store
      let x := s.sd d
      let s1 := if !j.saved then s
        else if engine = 0 then (s.setSd d { x with aesContexts := x.aesContexts - 1 }).setObj (0x6128 + d) 1 (x.aesContexts - 1)
        else (s.setSd d { x with shaContexts := x.shaContexts - 1 }).setObj (0x6620 + d) 1 (x.shaContexts - 1)
      State.startJobs (s1.beginJob d ticket core j) d engine n
    | _, _ => s

/-- The next ticket after one: nonzero, 32 bits. -/
def nextTicketAfter (t : Nat) : Nat := if 0xFFFFFFFF ≤ t then 1 else t + 1

/-- The class of the jobs of a task. -/
def Ctx.jobClass (c : Ctx) : Nat := if c.t.cls = 0 then 0 else 3

/-- A descriptor is copied and its job queued under a new ticket. -/
def Ctx.accepted (c : Ctx) (engine copied : Nat) (p : Place) : Act :=
  let addr := match p with
    | .seg m => m
    | .pond m => m
    | .ring _ => 0
  let cls := c.jobClass
  let x := c.s.cd c.die
  let ticket := x.nextTicket
  let full := c.s.ringUsed c.die * 100 > ringBytes * c.s.obj 0x2222 5
  let j : Job := ⟨engine, c.slot, c.tv % 32, cls, c.t.fn, addr, (c.s.placeRead c.t p 64).take copied, 0, 0, c.s.time.now, c.s.obj (if engine = 0 then 0x6003 else 0x6402) 0,
    cls = 0 && engine = 0 && full, false, false, 0, [], 0, 0⟩
  let s1 := c.s.setCd c.die { x with jobs := tset x.jobs ticket j, nextTicket := nextTicketAfter ticket }
  let s1 := if engine = 2 then s1.highWater (0x50D0 + c.die) 2 ((List.range 4).foldl (fun n k => n + s1.waitingJobs c.die 2 k) 0) else s1
  let s2 := if engine = 0 then s1.highWater (0x6120 + c.die) (cls + 1) (s1.waitingJobs c.die 0 cls) else s1
  c.answer (s2.startJobs c.die engine 4) 0x3E 0 (some ticket) []

/-- JSUB (R364): the descriptor's bytes are copied and the job queued, or it is answered busy. -/
def Ctx.submit (c : Ctx) (engine copied : Nat) : Act :=
  let a := c.sv
  if a % 64 ≠ 0 then .trap 3 a
  else
    match c.s.place c.die c.slot c.t a 64 with
    | none => .trap 4 a
    | some (.ring _) => .trap 4 a
    | some p =>
      if c.s.placePoisoned p 64 then .trap 0x0A a
      else
        if queueLimit ≤ c.s.waitingJobs c.die engine c.jobClass then c.answer (c.s.bump (0x5108 + c.die) (engine + 1)) 0x3E 0x20 (some 0) []
        else c.accepted engine copied p

/-- An engine posts the flag of a job that ended; with a full ready list it holds the post (R389). -/
def State.enginePost (s : State) (d engine slot flag : Nat) : State :=
  let s1 := if s.postHeld d slot (flagBit flag) then s.setCd d { s.cd d with engineHeld := (s.cd d).engineHeld ++ [(engine, slot)] } else s
  s1.post d slot (flagBit flag)

/-- HELD_POST_LANDS (R389): posts held by full lists land where space has freed, and engines that stalled go on. -/
def execHeldPostLands (die : Nat) (s : State) : Res :=
  onDie s die fun _ =>
    let s1 := (s.cd die).tasks.foldl (fun s t => s.landPost die t.1) s
    .next ([0, 1, 2].foldl (fun s e => s.startJobs die e 4) s1)

/-- An ended job's write-back lands in its descriptor, its flag is posted, and the next job starts; an abandoned job
writes nothing back (R385, R404, R460, R473). -/
def State.endJob (s : State) (d ticket : Nat) (j : Job) (status back : Nat) (bytes : List Nat) : State :=
  if j.abandoned then
    let x := s.cd d
    let s1 := s.setCd d { x with jobs := tdel x.jobs ticket }
    let s2 := if j.engine = 0 then s1.bump (0x6148 + d) 0 else s1
    ((s2.startJobs d j.engine 4).freeSlot d j.slot).startHeld
  else
    let s1 := (s.setJob d ticket { j with state := if status = 0 then 2 else 3, status := status }).startJobs d j.engine 4
    let s2 := (s1.write (j.addr + back) bytes).enginePost d j.engine j.slot j.flag
    -- an error of a function's job is confined to that function (R314)
    if status ≠ 0 ∧ j.cls ≠ 0 then s2.confine j.fn else s2

/-- JSUB_CIPHER (R364, R460). -/
def execJsubCipher (die core : Nat) (s : State) : Res := execOp .jsubCipher die core s fun c => c.submit 0 52

/-- JSUB_DIGEST (R364, R473). -/
def execJsubDigest (die core : Nat) (s : State) : Res := execOp .jsubDigest die core s fun c => c.submit 1 44

/-- JSUB_CODEC (R364, R404). -/
def execJsubCodec (die core : Nat) (s : State) : Res := execOp .jsubCodec die core s fun c => c.submit 2 32

/-- JPOLL (R364): the state of a ticket of this task, with the engine's status when it failed. -/
def execJpoll (die core : Nat) (s : State) : Res :=
  execOp .jpoll die core s fun c =>
    match tget (c.s.cd c.die).jobs c.sv with
    | some j =>
      if j.slot = c.slot then c.answer c.s 0x3E 0 (some (j.state + (if j.state = 3 then 256 * j.status else 0))) []
      else c.answer c.s 0x3E 0x21 (some 0xFFFFFFFF) []
    | none => c.answer c.s 0x3E 0x21 (some 0xFFFFFFFF) []

end Sys2Proof.Machine
end

