-- ==== Sys2Proof/Machine/Inflate.lean ====
section
/-!
DEFINITION. The decoding of raw deflate streams (RFC 1951), which the codec's decompress job names (R405), and what it shares with the
decoding of Zstandard frames: bit streams, prefix codes and the bytes decoded so far.
-/

namespace Sys2Proof.Machine

/-! ### Bits -/

/-- The bits of a byte, least significant first. -/
def byteBits (b : Nat) : List Bool := (List.range 8).map (bitOf b)

/-- The bits of bytes in the order in which RFC 1951 packs them. -/
def streamBits (l : List Nat) : List Bool := l.flatMap byteBits

/-- A number of k bits, least significant first, and the bits after it; none where the stream ends before. -/
def lowBits : Nat → List Bool → Option (Nat × List Bool)
  | 0, l => some (0, l)
  | _ + 1, [] => none
  | k + 1, x :: t => (lowBits k t).map fun r => (b2n x + 2 * r.1, r.2)

/-- A number of k bits, most significant first. -/
def highBits : Nat → Nat → List Bool → Option (Nat × List Bool)
  | 0, v, l => some (v, l)
  | _ + 1, _, [] => none
  | k + 1, v, x :: t => highBits k (2 * v + b2n x) t

/-! ### Bytes decoded so far -/

/-- What a decoder has made: the bytes decoded, newest first, the room left in the destination, the bits not yet read, and 0, or the status
of R406 with which decoding stopped: 1 destination full, 2 corrupt input. -/
structure Unpacked where
  out : List Nat
  room : Nat
  bits : List Bool
  status : Nat
deriving DecidableEq, Repr

/-- Decoding stops with corrupt input. -/
def Unpacked.bad (u : Unpacked) : Unpacked := { u with status := 2 }

/-- A byte is decoded; it stops decoding where the destination is full. -/
def Unpacked.byte (u : Unpacked) (b : Nat) : Unpacked :=
  if u.status ≠ 0 then u
  else if u.room = 0 then { u with status := 1 }
  else { u with out := b :: u.out, room := u.room - 1 }

/-- Several bytes are decoded. -/
def Unpacked.bytes (u : Unpacked) (l : List Nat) : Unpacked := l.foldl Unpacked.byte u

/-- n bytes are repeated from a distance back. -/
def Unpacked.repeated (u : Unpacked) (distance : Nat) : Nat → Unpacked
  | 0 => u
  | n + 1 => if u.status ≠ 0 then u else (u.byte (u.out.getD (distance - 1) 0)).repeated distance n

/-! ### Prefix codes (RFC 1951, 3.2.2) -/

/-- A prefix code by its code lengths: how many symbols have each length from 1 up, and the symbols by length and number. -/
structure PrefixCode where
  counts : List Nat
  symbols : List Nat
deriving DecidableEq, Repr

/-- The code of a list of lengths by symbol, none above `most`; none at all where the lengths ask for more codes than there are. -/
def prefixCode (most : Nat) (lengths : List Nat) : Option PrefixCode :=
  let of := fun (k : Nat) => (lengths.zipIdx.filter fun e => e.1 = k + 1).map (·.2)
  let groups := (List.range most).map of
  let used := sum (groups.zipIdx.map fun g => g.1.length * 2 ^ (most - 1 - g.2))
  if 2 ^ most < used then none else some ⟨groups.map List.length, groups.flatten⟩

/-- The place of the next code among the symbols: `first` is the first code of the present length, `passed` the symbols of shorter ones. -/
def codePlace : List Nat → Nat → Nat → Nat → List Bool → Option (Nat × List Bool)
  | [], _, _, _, _ => none
  | _ :: _, _, _, _, [] => none
  | n :: more, code, first, passed, x :: t =>
    let c := 2 * code + b2n x
    if c < first + n then some (passed + (c - first), t) else codePlace more c (2 * (first + n)) (passed + n) t

/-- The next symbol of a stream. -/
def PrefixCode.next (p : PrefixCode) (bits : List Bool) : Option (Nat × List Bool) :=
  match codePlace p.counts 0 0 0 bits with
  | none => none
  | some (k, t) => p.symbols[k]?.map fun v => (v, t)

/-! ### Blocks (RFC 1951, 3.2.3 to 3.2.7) -/

/-- The length that a length symbol from 257 on begins with, and its extra bits. -/
def lengthStart (sym : Nat) : Nat × Nat :=
  let c := sym - 257
  if c < 8 then (3 + c, 0)
  else if c = 28 then (258, 0)
  else (3 + (4 + c % 4) * 2 ^ (c / 4 - 1), c / 4 - 1)

/-- The distance that a distance symbol begins with, and its extra bits. -/
def distanceStart (sym : Nat) : Nat × Nat :=
  if sym < 4 then (1 + sym, 0) else (1 + (2 + sym % 2) * 2 ^ (sym / 2 - 1), sym / 2 - 1)

/-- The distance code and extra bits of a repeat of n bytes. -/
def Unpacked.backward (u : Unpacked) (dist : PrefixCode) (n : Nat) (bits : List Bool) : Unpacked :=
  match dist.next bits with
  | none => u.bad
  | some (sym, b1) =>
    if 30 ≤ sym then u.bad
    else
      match lowBits (distanceStart sym).2 b1 with
      | none => u.bad
      | some (x, b2) =>
        let d := (distanceStart sym).1 + x
        if u.out.length < d then u.bad else Unpacked.repeated { u with bits := b2 } d n

/-- The symbols of a compressed block up to its end; every symbol takes at least one bit of the fuel. -/
def Unpacked.block (lit dist : PrefixCode) : Nat → Unpacked → Unpacked
  | 0, u => u.bad
  | fuel + 1, u =>
    if u.status ≠ 0 then u
    else
      match lit.next u.bits with
      | none => u.bad
      | some (sym, b1) =>
        if sym < 256 then Unpacked.block lit dist fuel (Unpacked.byte { u with bits := b1 } sym)
        else if sym = 256 then { u with bits := b1 }
        else if 286 ≤ sym then u.bad
        else
          match lowBits (lengthStart sym).2 b1 with
          | none => u.bad
          | some (x, b2) => Unpacked.block lit dist fuel (u.backward dist ((lengthStart sym).1 + x) b2)

/-- A stored block: the rest of the byte is passed over, then LEN, its complement and LEN bytes. -/
def Unpacked.stored (u : Unpacked) : Unpacked :=
  let at' := u.bits.drop (u.bits.length % 8)
  match lowBits 32 at' with
  | none => u.bad
  | some (v, rest) =>
    let n := v % 65536
    if v / 65536 ≠ 65535 - n then u.bad
    else
      let whole := rest.length / 8
      let data := (List.range (min n whole)).map fun k => ((lowBits 8 (rest.drop (8 * k))).map (·.1)).getD 0
      let u' := Unpacked.bytes { u with bits := rest.drop (8 * n) } data
      if whole < n ∧ u'.status = 0 then u'.bad else u'

/-- The fixed codes. -/
def fixedLiterals : Option PrefixCode :=
  prefixCode 15 (List.replicate 144 8 ++ List.replicate 112 9 ++ List.replicate 24 7 ++ List.replicate 8 8)
def fixedDistances : Option PrefixCode := prefixCode 15 (List.replicate 32 5)

/-- The order in which a dynamic block gives the lengths of its code-length code. -/
def lengthOrder : List Nat := [16, 17, 18, 0, 8, 7, 9, 6, 10, 5, 11, 4, 12, 3, 13, 2, 14, 1, 15]

/-- n numbers of three bits. -/
def tripleBits : Nat → List Bool → Option (List Nat × List Bool)
  | 0, l => some ([], l)
  | n + 1, l => (lowBits 3 l).bind fun r => (tripleBits n r.2).map fun q => (r.1 :: q.1, q.2)

/-- The code lengths of a dynamic block, `want` of them: symbols 16, 17 and 18 repeat. -/
def dynamicLengths (p : PrefixCode) (want : Nat) : Nat → List Nat → List Bool → Option (List Nat × List Bool)
  | 0, _, _ => none
  | fuel + 1, got, bits =>
    if got.length = want then some (got, bits)
    else if want < got.length then none
    else
      match p.next bits with
      | none => none
      | some (sym, b1) =>
        if sym < 16 then dynamicLengths p want fuel (got ++ [sym]) b1
        else
          let shape : Nat × Nat := if sym = 16 then (2, 3) else if sym = 17 then (3, 3) else (7, 11)
          match lowBits shape.1 b1, (if sym = 16 then got.getLast? else some 0) with
          | some (x, b2), some v => dynamicLengths p want fuel (got ++ List.replicate (shape.2 + x) v) b2
          | _, _ => none

/-- The two codes of a dynamic block, and the bits after them. -/
def dynamicCodes (bits : List Bool) : Option (PrefixCode × PrefixCode × List Bool) :=
  match lowBits 14 bits with
  | none => none
  | some (v, b1) =>
    let literals := v % 32 + 257
    let distances := v / 32 % 32 + 1
    if 286 < literals then none
    else
      match tripleBits (v / 1024 + 4) b1 with
      | none => none
      | some (ls, b2) =>
        let lens := (List.range 19).map fun k => ls.getD (lengthOrder.idxOf k) 0
        match (prefixCode 7 lens).bind fun p => dynamicLengths p (literals + distances) 400 [] b2 with
        | none => none
        | some (all, b3) =>
          match prefixCode 15 (all.take literals), prefixCode 15 (all.drop literals) with
          | some a, some b => some (a, b, b3)
          | _, _ => none

/-- The fixed codes, or those that a dynamic block gives, and the bits after them. -/
def blockCodes (kind : Nat) (bits : List Bool) : Option (PrefixCode × PrefixCode × List Bool) :=
  if kind = 2 then dynamicCodes bits
  else fixedLiterals.bind fun a => fixedDistances.map fun b => (a, b, bits)

/-- A block of a kind: 0 stored, 1 fixed codes, 2 dynamic codes. -/
def Unpacked.blockOf (u : Unpacked) (kind : Nat) : Unpacked :=
  if kind = 0 then u.stored
  else if kind = 3 then u.bad
  else
    match blockCodes kind u.bits with
    | some (a, b, bits) => Unpacked.block a b bits.length { u with bits := bits }
    | none => u.bad

/-- The blocks of a deflate stream up to its final one. -/
def inflateBlocks : Nat → Unpacked → Unpacked
  | 0, u => u.bad
  | fuel + 1, u =>
    match lowBits 3 u.bits with
    | none => u.bad
    | some (v, b1) =>
      let u2 := Unpacked.blockOf { u with bits := b1 } (v / 2)
      if u2.status ≠ 0 ∨ v % 2 = 1 then u2 else inflateBlocks fuel u2

/-- A raw deflate stream decoded into a destination of so many bytes: the bytes, the source bytes consumed, and status 0, 1 or 2. -/
def inflate (room : Nat) (src : List Nat) : List Nat × Nat × Nat :=
  let bits := streamBits src
  let u := inflateBlocks bits.length ⟨[], room, bits, 0⟩
  (u.out.reverse, (bits.length - u.bits.length + 7) / 8, u.status)

/-- A raw deflate stream of stored blocks that holds so many bytes at most. -/
def storedStream : Nat → List Nat → List Nat
  | 0, _ => []
  | fuel + 1, l =>
    let n := min l.length 65535
    let last := l.length ≤ 65535
    b2n last :: leBytes 2 n ++ leBytes 2 (65535 - n) ++ l.take n ++ (if last then [] else storedStream fuel (l.drop n))

end Sys2Proof.Machine
end

