-- ==== Sys2Proof/Machine/Zstandard.lean ====
section
/-!
DEFINITION. The decoding of Zstandard frames (RFC 8878), which the codec's decompress job names (R405): frames, blocks, literals,
sequences, and the content checksum.
-/

namespace Sys2Proof.Machine

/-! ### The content checksum: XXH64 with seed 0 -/

/-- Arithmetic modulo 2^64. -/
def w64 (n : Nat) : Nat := n % 2 ^ 64

/-- Rotation to the left in 64 bits. -/
def rol64 (k n : Nat) : Nat := w64 (n * 2 ^ k) + w64 n / 2 ^ (64 - k)

/-- The five primes of XXH64. -/
def xxPrime1 : Nat := 0x9E3779B185EBCA87
def xxPrime2 : Nat := 0xC2B2AE3D27D4EB4F
def xxPrime3 : Nat := 0x165667B19E3779F9
def xxPrime4 : Nat := 0x85EBCA77C2B2AE63
def xxPrime5 : Nat := 0x27D4EB2F165667C5

/-- One lane of an accumulator takes in a word. -/
def xxLane (acc word : Nat) : Nat := w64 (rol64 31 (w64 (acc + word * xxPrime2)) * xxPrime1)

/-- Whole stripes of 32 bytes go into the four accumulators; answers them and the bytes left. -/
def xxStripes : Nat → List Nat → List Nat → List Nat × List Nat
  | 0, accs, l => (accs, l)
  | n + 1, accs, l => xxStripes n (accs.zipIdx.map fun a => xxLane a.1 (field l (8 * a.2) 8)) (l.drop 32)

/-- The bytes left go in by eight, by four and singly. -/
def xxTail : Nat → Nat → List Nat → Nat
  | 0, h, _ => h
  | fuel + 1, h, l =>
    if 8 ≤ l.length then
      xxTail fuel (w64 (rol64 27 (Nat.xor h (xxLane 0 (field l 0 8))) * xxPrime1 + xxPrime4)) (l.drop 8)
    else if 4 ≤ l.length then
      xxTail fuel (w64 (rol64 23 (Nat.xor h (w64 (field l 0 4 * xxPrime1))) * xxPrime2 + xxPrime3)) (l.drop 4)
    else
      match l with
      | [] => h
      | b :: t => xxTail fuel (w64 (rol64 11 (Nat.xor h (w64 (b * xxPrime5))) * xxPrime1)) t

/-- XXH64 of bytes with seed 0. -/
def xxh64 (l : List Nat) : Nat :=
  let start :=
    if l.length < 32 then (xxPrime5, l)
    else
      let r := xxStripes (l.length / 32) [w64 (xxPrime1 + xxPrime2), xxPrime2, 0, w64 (2 ^ 64 - xxPrime1)] l
      let mixed := w64 (sum ((r.1.zip [1, 7, 12, 18]).map fun a => rol64 a.2 a.1))
      (r.1.foldl (fun h a => w64 (Nat.xor h (xxLane 0 a) * xxPrime1 + xxPrime4)) mixed, r.2)
  let h1 := xxTail (l.length + 1) (w64 (start.1 + l.length)) start.2
  let h2 := w64 (Nat.xor h1 (h1 / 2 ^ 33) * xxPrime2)
  let h3 := w64 (Nat.xor h2 (h2 / 2 ^ 29) * xxPrime3)
  Nat.xor h3 (h3 / 2 ^ 32)

/-! ### Bit streams read backward (RFC 8878, 4.1) -/

/-- The bits of a stream that is read from its end, without the padding up to the highest bit set of its last byte; none where that byte
is 0, or where there is no byte at all. -/
def backBits (l : List Nat) : Option (List Bool) :=
  let all := l.reverse.flatMap fun b => (byteBits b).reverse
  let padding := (all.takeWhile (!·)).length
  if l.isEmpty ∨ 8 ≤ padding then none else some (all.drop (padding + 1))

/-! ### Finite state entropy (RFC 8878, 4.1.1) -/

/-- A decoding table: its accuracy, and symbol, bits to read and baseline of each state. -/
structure FseTable where
  accuracy : Nat
  cells : List (Nat × Nat × Nat)
deriving DecidableEq, Repr

/-- The states that symbols of a probability take, in the order of the spread. -/
def spreadSymbols (probs : List Int) : List Nat :=
  probs.zipIdx.flatMap fun p => if 0 < p.1 then List.replicate p.1.toNat p.2 else []

/-- The positions of the spread below `top` in a table of a size. -/
def spreadPositions (size top : Nat) : List Nat :=
  let step := size / 2 + size / 8 + 3
  ((List.range size).map fun k => k * step % size).filter (· < top)

/-- The decoding table of probabilities (−1 for less than one). -/
def fseTable (accuracy : Nat) (probs : List Int) : FseTable :=
  let size := 2 ^ accuracy
  let rare := (probs.zipIdx.filter fun p => p.1 < 0).map (·.2)
  let top := size - rare.length
  let placed := (spreadPositions size top).zip (spreadSymbols probs)
  let symbolAt := fun (k : Nat) => if top ≤ k then rare.getD (size - 1 - k) 0 else (tgetD placed k 0)
  let r := (List.range size).foldl (fun (acc : List (Nat × Nat × Nat) × Tab Nat) k =>
    let v := symbolAt k
    let n := tgetD acc.2 v (max 1 ((probs.getD v 0).toNat))
    let bits := accuracy - Nat.log2 n
    ((v, bits, n * 2 ^ bits - size) :: acc.1, tset acc.2 v (n + 1))) ([], [])
  ⟨accuracy, r.1.reverse⟩

/-- A table of one symbol that takes no bits. -/
def rleTable (v : Nat) : FseTable := ⟨0, [(v, 0, 0)]⟩

/-- The symbol of a state. -/
def FseTable.symbol (t : FseTable) (state : Nat) : Nat := (t.cells.getD state (0, 0, 0)).1

/-- The state after one, with the bits after those it reads. -/
def FseTable.step (t : FseTable) (state : Nat) (bits : List Bool) : Option (Nat × List Bool) :=
  let c := t.cells.getD state (0, 0, 0)
  (highBits c.2.1 0 bits).map fun r => (c.2.2 + r.1, r.2)

/-- Runs of symbols of probability 0 after one: two bits each, 3 meaning that another two follow. -/
def zeroRun : Nat → List Bool → Option (Nat × List Bool)
  | 0, _ => none
  | fuel + 1, l =>
    match lowBits 2 l with
    | none => none
    | some (3, t) => (zeroRun fuel t).map fun r => (3 + r.1, r.2)
    | some (n, t) => some (n, t)

/-- The probabilities of a table description: `left` of them still to give. -/
def fseProbs : Nat → Nat → List Int → List Bool → Option (List Int × List Bool)
  | 0, _, _, _ => none
  | _ + 1, 0, got, l => some (got, l)
  | fuel + 1, left + 1, got, l =>
    let bits := Nat.log2 (left + 2) + 1
    let half := 2 ^ (bits - 1)
    let short := 2 ^ bits - 1 - (left + 2)
    match lowBits (bits - 1) l with
    | none => none
    | some (low, t) =>
      let r : Option (Nat × List Bool) :=
        if low < short then some (low, t)
        else match t with
          | [] => none
          | x :: t' => some (if x then low + half - short else low, t')
      match r with
      | none => none
      | some (v, t) =>
        if v = 0 then fseProbs fuel left (got ++ [-1]) t
        else if v = 1 then
          match zeroRun 256 t with
          | none => none
          | some (n, t') => fseProbs fuel (left + 1) (got ++ List.replicate (n + 1) 0) t'
        else if left + 1 < v - 1 then none
        else fseProbs fuel (left + 1 - (v - 1)) (got ++ [(v : Int) - 1]) t

/-- A table description: the table and the bytes after it. -/
def fseDescription (most symbols : Nat) (l : List Nat) : Option (FseTable × List Nat) :=
  let bits := streamBits (l.take 512)
  match lowBits 4 bits with
  | none => none
  | some (a, b1) =>
    let accuracy := a + 5
    if most < accuracy then none
    else
      match fseProbs 600 (2 ^ accuracy) [] b1 with
      | none => none
      | some (probs, rest) =>
        if symbols < probs.length then none
        else some (fseTable accuracy probs, l.drop ((bits.length - rest.length + 7) / 8))

/-! ### Huffman codes of literals (RFC 8878, 4.2) -/

/-- The weights that two interleaved states give, until the stream is exhausted. -/
def weightPairs (t : FseTable) : Nat → Nat → Nat → List Bool → List Nat
  | 0, _, _, _ => []
  | fuel + 1, a, b, bits =>
    match t.step a bits with
    | none => [t.symbol a, t.symbol b]
    | some (a', rest) => t.symbol a :: weightPairs t fuel b a' rest

/-- The weights of a tree description, and the bytes after it. -/
def treeWeights (l : List Nat) : Option (List Nat × List Nat) :=
  match l with
  | [] => none
  | h :: t =>
    if 128 ≤ h then
      let n := h - 127
      let m := (n + 1) / 2
      if t.length < m then none
      else some (((t.take m).flatMap fun b => [b / 16, b % 16]).take n, t.drop m)
    else if t.length < h then none
    else
      match fseDescription 6 256 (t.take h) with
      | none => none
      | some (table, rest) =>
        match backBits rest with
        | none => none
        | some bits =>
          match (highBits table.accuracy 0 bits).bind fun a => (highBits table.accuracy 0 a.2).map fun b => (a.1, b.1, b.2) with
          | none => none
          | some (a, b, bits') => some (weightPairs table 256 a b bits', t.drop h)

/-- The prefix code of weights: the last weight completes the sum to a power of two; a weight w stands for a code of most + 1 − w bits. The
codes of one length rise with the symbol, and longer codes come first, so a code's complement is that of a code in which shorter ones come
first and symbols fall. -/
def treeCode (weights : List Nat) : Option (PrefixCode × Nat) :=
  let total := sum (weights.map fun w => if w = 0 then 0 else 2 ^ (w - 1))
  if total = 0 ∨ 255 < weights.length ∨ weights.any (11 < ·) then none
  else
    let most := Nat.log2 total + 1
    let left := 2 ^ most - total
    if 11 < most ∨ 2 ^ Nat.log2 left ≠ left then none
    else
      let all := weights ++ [Nat.log2 left + 1]
      let lengths := all.map fun w => if w = 0 then 0 else most + 1 - w
      (prefixCode most lengths.reverse).map fun p => (⟨p.counts, p.symbols.map fun v => all.length - 1 - v⟩, all.length)

/-- n symbols of a Huffman stream, which they exhaust; the bits are complemented for `treeCode`. -/
def huffmanRun (p : PrefixCode) : Nat → List Bool → Option (List Nat)
  | 0, l => if l.isEmpty then some [] else none
  | n + 1, l => (p.next l).bind fun r => (huffmanRun p n r.2).map (r.1 :: ·)

/-- The symbols of one Huffman stream. -/
def huffmanStream (p : PrefixCode) (n : Nat) (l : List Nat) : Option (List Nat) :=
  (backBits l).bind fun b => huffmanRun p n (b.map (!·))

/-! ### Literals of a block (RFC 8878, 3.1.1.3.1) -/

/-- What a frame keeps from block to block: the Huffman code, the tables of literal lengths, offsets and match lengths, and the three
recent offsets. -/
structure ZstdKept where
  tree : Option PrefixCode
  lengths : Option FseTable
  offsets : Option FseTable
  matches' : Option FseTable
  recent : Nat × Nat × Nat
deriving DecidableEq, Repr

/-- The four streams, or the one, of compressed literals. -/
def huffmanLiterals (p : PrefixCode) (four : Bool) (n : Nat) (l : List Nat) : Option (List Nat) :=
  if !four then huffmanStream p n l
  else if l.length < 10 then none
  else
    let a := field l 0 2
    let b := field l 2 2
    let c := field l 4 2
    let body := l.drop 6
    let each := (n + 3) / 4
    if body.length < a + b + c ∨ n < 3 * each then none
    else
      match huffmanStream p each (body.take a), huffmanStream p each ((body.drop a).take b),
          huffmanStream p each ((body.drop (a + b)).take c), huffmanStream p (n - 3 * each) (body.drop (a + b + c)) with
      | some w, some x, some y, some z => some (w ++ x ++ y ++ z)
      | _, _, _, _ => none

/-- The literals section of a block: the literals, the code that stays for treeless literals, and the bytes after the section. -/
def zstdLiterals (kept : Option PrefixCode) (l : List Nat) : Option (List Nat × Option PrefixCode × List Nat) :=
  let h := field l 0 5
  let kind := h % 4
  let form := h / 4 % 4
  if kind < 2 then
    let size : Nat × Nat := if form % 2 = 0 then (1, h % 2 ^ 8 / 8) else if form = 1 then (2, h % 2 ^ 16 / 16) else (3, h % 2 ^ 24 / 16)
    let rest := l.drop size.1
    if l.length < size.1 then none
    else if kind = 0 then (if rest.length < size.2 then none else some (rest.take size.2, kept, rest.drop size.2))
    else match rest with
      | [] => none
      | b :: t => some (List.replicate size.2 b, kept, t)
  else
    let size : Nat × Nat := if form < 2 then (3, 10) else if form = 2 then (4, 14) else (5, 18)
    let n := h / 16 % 2 ^ size.2
    let len := h / 2 ^ (4 + size.2) % 2 ^ size.2
    let rest := l.drop size.1
    if l.length < size.1 ∨ rest.length < len then none
    else
      let body := rest.take len
      let code : Option (PrefixCode × List Nat) :=
        if kind = 3 then kept.map fun p => (p, body)
        else (treeWeights body).bind fun w => (treeCode w.1).map fun c => (c.1, w.2)
      match code with
      | none => none
      | some (p, streams) => (huffmanLiterals p (form ≠ 0) n streams).map fun lits => (lits, some p, rest.drop len)

/-! ### Sequences of a block (RFC 8878, 3.1.1.3.2 to 3.1.1.5) -/

/-- The predefined distributions of literal lengths, match lengths and offsets. -/
def defaultLengths : List Int :=
  [4, 3] ++ List.replicate 11 2 ++ [1, 1, 1] ++ List.replicate 9 2 ++ [3, 2] ++ List.replicate 5 1 ++ List.replicate 4 (-1)
def defaultMatches : List Int := [1, 4, 3] ++ List.replicate 6 2 ++ List.replicate 37 1 ++ List.replicate 7 (-1)
def defaultOffsets : List Int := List.replicate 6 1 ++ [2, 2, 2] ++ List.replicate 15 1 ++ List.replicate 5 (-1)

/-- The extra bits of the literal-length codes from 16 on, and of the match-length codes from 32 on. -/
def lengthExtra : List Nat := [1, 1, 1, 1, 2, 2, 3, 3, 4, 6, 7, 8, 9, 10, 11, 12, 13, 14, 15, 16]
def matchExtra : List Nat := [1, 1, 1, 1, 2, 2, 3, 3, 4, 4, 5, 7, 8, 9, 10, 11, 12, 13, 14, 15, 16]

/-- Baseline and extra bits of a code: codes below `plain` stand for themselves, later ones begin where the one before ends. -/
def codeStart (plain base : Nat) (extra : List Nat) (code : Nat) : Nat × Nat :=
  if code < plain then (base + code, 0)
  else (base + plain + sum ((extra.take (code - plain)).map (2 ^ ·)), extra.getD (code - plain) 0)

/-- One of the three tables by its mode: predefined, one symbol, described, or the one before. -/
def sequenceTable (mode most symbols : Nat) (predefined : FseTable) (kept : Option FseTable) (l : List Nat) : Option (FseTable × List Nat) :=
  match mode with
  | 0 => some (predefined, l)
  | 1 => match l with
    | [] => none
    | v :: t => if symbols ≤ v then none else some (rleTable v, t)
  | 2 => fseDescription most symbols l
  | _ => kept.map fun t => (t, l)

/-- The offset that an offset value stands for after so many literals, and the recent offsets then. -/
def offsetOf (value literals : Nat) (r : Nat × Nat × Nat) : Nat × (Nat × Nat × Nat) :=
  if 3 < value then (value - 3, (value - 3, r.1, r.2.1))
  else
    match value + b2n (literals = 0) with
    | 1 => (r.1, r)
    | 2 => (r.2.1, (r.2.1, r.1, r.2.2))
    | 3 => (r.2.2, (r.2.2, r.1, r.2.1))
    | _ => (r.1 - 1, (r.1 - 1, r.1, r.2.1))

/-- The sequences of a block, executed one after the other on its literals: states of the literal-length, offset and match-length tables, and
the sequences left. Answers what is decoded, the recent offsets and the literals left. -/
def runSequences (tl to' tm : FseTable) (window : Nat) :
    Nat → Nat → Nat → Nat → List Bool → List Nat → (Nat × Nat × Nat) → Unpacked → Unpacked × (Nat × Nat × Nat) × List Nat
  | 0, _, _, _, bits, lits, r, u => (if bits.isEmpty then u else u.bad, r, lits)
  | n + 1, sl, so, sm, bits, lits, r, u =>
    let oc := to'.symbol so
    let ms := codeStart 32 3 matchExtra (tm.symbol sm)
    let ls := codeStart 16 0 lengthExtra (tl.symbol sl)
    match highBits oc (1 : Nat) bits with
    | none => (u.bad, r, lits)
    | some (value, b1) =>
      match highBits ms.2 0 b1 with
      | none => (u.bad, r, lits)
      | some (mx, b2) =>
        match highBits ls.2 0 b2 with
        | none => (u.bad, r, lits)
        | some (lx, b3) =>
          let ll := ls.1 + lx
          let o := offsetOf value ll r
          let u1 := u.bytes (lits.take ll)
          if lits.length < ll ∨ o.1 = 0 ∨ u1.out.length < o.1 ∨ window < o.1 then (if u1.status = 0 then u1.bad else u1, r, lits)
          else
            let u2 := u1.repeated o.1 (ms.1 + mx)
            let rest := lits.drop ll
            if u2.status ≠ 0 then (u2, o.2, rest)
            else if n = 0 then runSequences tl to' tm window 0 sl so sm b3 rest o.2 u2
            else
              match (tl.step sl b3).bind fun x => (tm.step sm x.2).bind fun y => (to'.step so y.2).map fun z => (x.1, y.1, z.1, z.2) with
              | none => (u2.bad, o.2, rest)
              | some (sl', sm', so', b4) => runSequences tl to' tm window n sl' so' sm' b4 rest o.2 u2

/-- The number of sequences at the head of their section, and the bytes after it. -/
def sequenceCount (l : List Nat) : Option (Nat × List Nat) :=
  match l with
  | [] => none
  | a :: t =>
    if a < 128 then some (a, t)
    else match t with
      | [] => none
      | b :: t' =>
        if a < 255 then some ((a - 128) * 256 + b, t')
        else match t' with
          | [] => none
          | c :: t'' => some (b + 256 * c + 0x7F00, t'')

/-- A compressed block. -/
def compressedBlock (window : Nat) (k : ZstdKept) (l : List Nat) (u : Unpacked) : Unpacked × ZstdKept :=
  match zstdLiterals k.tree l with
  | none => (u.bad, k)
  | some (lits, tree, rest) =>
    let k1 := { k with tree := tree }
    match sequenceCount rest with
    | none => (u.bad, k1)
    | some (0, t) => (if t.isEmpty then u.bytes lits else u.bad, k1)
    | some (_, []) => (u.bad, k1)
    | some (n, mode :: t) =>
      let tables : Option (FseTable × FseTable × FseTable × List Nat) :=
        if mode % 4 ≠ 0 then none
        else (sequenceTable (mode / 64) 9 36 (fseTable 6 defaultLengths) k.lengths t).bind fun a =>
          (sequenceTable (mode / 16 % 4) 8 32 (fseTable 5 defaultOffsets) k.offsets a.2).bind fun b =>
            (sequenceTable (mode / 4 % 4) 9 53 (fseTable 6 defaultMatches) k.matches' b.2).map fun c => (a.1, b.1, c.1, c.2)
      match tables with
      | none => (u.bad, k1)
      | some (tl, to', tm, stream) =>
        let k2 := { k1 with lengths := some tl, offsets := some to', matches' := some tm }
        let first := (backBits stream).bind fun bits => (highBits tl.accuracy 0 bits).bind fun a =>
          (highBits to'.accuracy 0 a.2).bind fun b => (highBits tm.accuracy 0 b.2).map fun c => (a.1, b.1, c.1, c.2)
        match first with
        | none => (u.bad, k2)
        | some (sl, so, sm, bits) =>
          let r := runSequences tl to' tm window n sl so sm bits lits k.recent u
          (if r.1.status = 0 then r.1.bytes r.2.2 else r.1, { k2 with recent := r.2.1 })

/-! ### Frames (RFC 8878, 3.1.1 and 3.1.2) -/

/-- The blocks of a frame up to its last: what is decoded, and the bytes after the last block. -/
def zstdBlocks (window : Nat) : Nat → ZstdKept → List Nat → Unpacked → Unpacked × List Nat
  | 0, _, l, u => (u.bad, l)
  | fuel + 1, k, l, u =>
    let h := field l 0 3
    let size := h / 8
    let kind := h / 2 % 4
    let most := min window 131072
    let body := l.drop 3
    let takes := if kind = 1 then 1 else size
    if l.length < 3 ∨ kind = 3 ∨ most < size ∨ body.length < takes then (u.bad, l)
    else
      let r : Unpacked × ZstdKept :=
        if kind = 0 then (u.bytes (body.take size), k)
        else if kind = 1 then (u.bytes (List.replicate size (body.headD 0)), k)
        else compressedBlock window k (body.take size) u
      let u1 := if r.1.status = 0 ∧ u.out.length + most < r.1.out.length then r.1.bad else r.1
      if u1.status ≠ 0 then (u1, l)
      else if h % 2 = 1 then (u1, body.drop takes)
      else zstdBlocks window fuel r.2 (body.drop takes) u1

/-- The fields of a frame header after the magic number: bytes taken, window, content size where given, dictionary identifier, and
whether a checksum follows. -/
def frameHeader (l : List Nat) : Option (Nat × Nat × Option Nat × Nat × Bool) :=
  let d := field l 0 1
  let single := bitOf d 5
  let dictBytes := [0, 1, 2, 4].getD (d % 4) 0
  let sizeBytes := if d / 64 = 0 then b2n single else 2 ^ (d / 64)
  let at' := 1 + b2n (!single)
  let total := at' + dictBytes + sizeBytes
  if l.length < total ∨ bitOf d 3 then none
  else
    let size := field l (at' + dictBytes) sizeBytes + (if sizeBytes = 2 then 256 else 0)
    let w := field l 1 1
    let base := 2 ^ (10 + w / 8)
    some (total, if single then size else base + base / 8 * (w % 8), if sizeBytes = 0 then none else some size, field l at' dictBytes, bitOf d 2)

/-- Skippable frames before a frame are passed over. -/
def skipFrames : Nat → List Nat → List Nat
  | 0, l => l
  | fuel + 1, l =>
    if field l 0 4 / 16 = 0x184D2A5 ∧ 8 + field l 4 4 ≤ l.length then skipFrames fuel (l.drop (8 + field l 4 4)) else l

/-- A Zstandard frame decoded into a destination of so many bytes, with a window of at most 2^limit (R405, R406): the bytes, the source bytes
consumed, and status 0, 1 destination full, 2 corrupt, 7 checksum mismatch, 8 window too large or dictionary named. -/
def unzstd (limit room : Nat) (src : List Nat) : List Nat × Nat × Nat :=
  let l := skipFrames src.length src
  if l.length < 5 ∨ field l 0 4 ≠ 0xFD2FB528 then ([], 0, 2)
  else
    match frameHeader (l.drop 4) with
    | none => ([], 0, 2)
    | some (taken, window, size, dict, check) =>
      if 2 ^ limit < window ∨ dict ≠ 0 then ([], 0, 8)
      else
        let r := zstdBlocks window l.length ⟨none, none, none, none, (1, 4, 8)⟩ (l.drop (4 + taken)) ⟨[], room, [], 0⟩
        let out := r.1.out.reverse
        let rest := if check then r.2.drop 4 else r.2
        let status :=
          if r.1.status ≠ 0 then r.1.status
          else if size.any (· ≠ out.length) ∨ (check ∧ r.2.length < 4) then 2
          else if check ∧ field r.2 0 4 ≠ xxh64 out % 2 ^ 32 then 7
          else 0
        (out, src.length - rest.length, status)

/-- The raw blocks of a frame that holds bytes. -/
def rawBlocks : Nat → List Nat → List Nat
  | 0, _ => []
  | fuel + 1, l =>
    let n := min l.length 131072
    let last := l.length ≤ 131072
    leBytes 3 (8 * n + b2n last) ++ l.take n ++ (if last then [] else rawBlocks fuel (l.drop n))

/-- A frame of raw blocks with the checksum and content size that flags ask for (R404): bit 0 checksum, bit 1 content size. -/
def rawFrame (flags : Nat) (l : List Nat) : List Nat :=
  leBytes 4 0xFD2FB528 ++ [4 * b2n (bitOf flags 0) + (if bitOf flags 1 then 0xC0 else 0), 0x38] ++
    (if bitOf flags 1 then leBytes 8 l.length else []) ++ rawBlocks (l.length + 1) l ++
    (if bitOf flags 0 then leBytes 4 (xxh64 l) else [])

/-- A frame carries the checksum and the content size exactly as flags ask for. -/
def frameAsAsked (flags : Nat) (l : List Nat) : Bool :=
  match frameHeader (l.drop 4) with
  | some (_, _, size, _, check) => size.isSome = bitOf flags 1 && check = bitOf flags 0
  | none => false

end Sys2Proof.Machine
end

