-- ==== Sys2Proof/Machine/Cipher.lean ====
section
/-!
DEFINITION. The cipher engine's rows (R449 to R463) and the codec's (R135, R404 to R406).
-/

namespace Sys2Proof.Machine

/-! ### The ends of cipher jobs -/

/-- A cipher job ends with a status and the bytes it wrote: counted, and written back. -/
def State.endCipher (s : State) (d ticket core : Nat) (j : Job) (status done : Nat) : State :=
  let s1 := (s.bump 0x6010 (j.cls + 1)).addObj 0x6011 (j.cls + 1) done
  let s2 := s1.addObj (0x6110 + d) (core + 1) done
  let s3 := if status = 0 ∧ j.cop = 3 then s2.bump (0x6138 + d) 0 else s2
  let s4 := if status = 1 then ((s3.bump 0x6013 0).bump (0x6140 + d) 0).raiseOnce (evDie d 105) 0 d else s3
  let s5 := if status = 0 then s4
    else (((s4.setObj 0x6019 1 d).setObj 0x6019 2 j.cslot).setObj 0x6019 3 status).setObj 0x6019 4 s.epoch
  let s6 := if status = 8 then s5.raiseOnce (evDie d 1) 0 d else s5
  s6.endJob d ticket j status 36 (slice 36 16 j.desc ++ leBytes 4 done ++ [status])

/-- A cipher job that started without a refusal runs to its end: its source is read, its destination written. -/
def State.runCipher (s : State) (d ticket core : Nat) (j : Job) (poisoned : Bool) : State :=
  let o := taskOwner d j.slot
  let src := s.jobRange o (field j.desc 4 4) (field j.desc 8 4) (j.clen + j.srcExtra)
  let dst := s.jobRange o (field j.desc 16 4) (field j.desc 20 4) (j.clen + j.dstExtra)
  let aad := s.jobRange o (field j.desc 24 4) (field j.desc 28 4) (field j.desc 32 4)
  let st := s.cipherRanges d j
  if st ≠ 0 then s.endCipher d ticket core j st 0
  else if poisoned || s.poisonedAt src.2 (j.clen + j.srcExtra) || (field j.desc 32 4 ≠ 0 && s.poisonedAt aad.2 (field j.desc 32 4)) then s.endCipher d ticket core j 8 0
  else
    let extra := if field j.desc 32 4 = 0 then [] else memRead s.mem aad.2 (field j.desc 32 4)
    let (b, status) := j.cipherData (memRead s.mem src.2 (j.clen + j.srcExtra)) extra
    (s.write dst.2 b).endCipher d ticket core j status b.length

/-- CIPHER_JOB_COMPLETE (R440, R456, R458, R460, R462): the job of an AES core ends. -/
def execCipherJobComplete (die core : Nat) (poisoned : Bool) (s : State) : Res :=
  onDie s die fun _ =>
    match s.jobOn die 0 core with
    | none => .next s
    | some (ticket, j) =>
      if s.engineStalled die 0 then .next s
      else if j.abandoned then .next (s.endJob die ticket j 7 36 [])
      else if j.status = waitBlock then .next s
      else if j.status ≠ 0 then .next (s.endCipher die ticket core j j.status 0)
      else .next (s.runCipher die ticket core j poisoned)

/-- CIPHER_URGENCY_EXPIRY (R459): a waiting capture job becomes urgent. -/
def execCipherUrgencyExpiry (die ticket : Nat) (s : State) : Res :=
  onDie s die fun _ =>
    match tget (s.cd die).jobs ticket with
    | none => .next s
    | some j =>
      let ring := s.ringUsed die * 100 > ringBytes * s.obj 0x2222 5
      if j.engine = 0 ∧ j.state = 0 ∧ j.cls = 0 ∧ (j.since + j.limit ≤ s.time.now ∨ ring) then
        .next (s.setJob die ticket { j with urgent := true })
      else .next s

/-- The victim of an urgent job: the running job of lowest class rank, and of those the one that started last (R459). -/
def ComputeDie.victim (c : ComputeDie) (engine : Nat) : Option (Nat × Job) :=
  ((c.active engine).filter fun j => j.2.cls ≠ 0).foldl (fun best j =>
    match best with
    | none => some j
    | some b => if b.2.cls < j.2.cls ∨ (b.2.cls = j.2.cls ∧ b.2.start < j.2.start) then some j else some b) none

/-- The urgent job takes the core of the job that is saved (R459). -/
def State.preemptCipher (s : State) (die core ticket vt : Nat) (j v : Job) (x : SecureDie) : State :=
  let n := x.aesContexts + 1
  let s1 := (s.setJob die vt { v with state := 0, saved := true }).setSd die { x with aesContexts := n }
  let s2 := ((s1.setObj (0x6128 + die) 1 n).highWater (0x6128 + die) 2 n).bump 0x6012 0
  (((s2.bump (0x6130 + die) 0).raiseOnce (evDie die 107) 0 die).beginJob die ticket core j)

/-- CIPHER_PREEMPT_AT_BOUNDARY (R459): the victim's context is saved and the urgent job takes its core. -/
def execCipherPreemptAtBoundary (die core : Nat) (s : State) : Res :=
  onDie s die fun _ =>
    let c := s.cd die
    let x := s.sd die
    match (c.queue 0).find? fun j => j.2.urgent, c.victim 0 with
    | some (ticket, j), some (vt, v) =>
      if v.core ≠ core ∨ 16 ≤ x.aesContexts then .next s
      else
        .next (s.preemptCipher die core ticket vt j v x)
    | _, _ => .next s

/-- An AES core is lost and its job waits again (R463). -/
def State.aesCoreLost (s : State) (die core : Nat) : State :=
  let x := s.sd die
  let s1 := (s.setSd die { x with aesLost := x.aesLost ++ [core] }).setObj (0x6150 + die) 0 (3 - x.aesLost.length)
  let s2 := s1.raise (evDie die 108) 0
  let s3 := match s2.jobOn die 0 core with
    | some (ticket, j) => s2.setJob die ticket { j with state := 0 }
    | none => s2
  (s3.startJobs die 0 4)

/-- AES_CORE_TIMEOUT (R463): the core leaves service and its job restarts on another. -/
def execAesCoreTimeout (die core : Nat) (s : State) : Res :=
  onDie s die fun _ =>
    if !(s.engineCores die 0).contains core then .fault .absentUnit
    else
      .next (s.aesCoreLost die core)

/-- The jobs that wait for a block of a slot, and so have not used it yet, are judged again with what the slot holds now and take their values in
core order (R449, R453). -/
def State.takeWaiting (s : State) (d slot : Nat) : State :=
  [0, 1, 2, 3].foldl (fun s core =>
    match s.jobOn d 0 core with
    | some (ticket, j) =>
      if j.status = waitBlock ∧ j.cslot = slot then
        let r := s.cipherBegin d { j with start := 0, status := 0 }
        r.2.setJob d ticket { r.1 with start := j.start }
      else s
    | none => s) s

/-- A key's counter mark is durable, and jobs that waited for it start (R454). -/
def State.counterMarked (s : State) (die slot : Nat) (k : KeySlot) : State :=
  let stop := (k.counter / 65536 + 1) * 65536
  let s1 := { s with secure := { s.secure with marks := tset s.secure.marks k.keyId (max stop (tgetD s.secure.marks k.keyId 0)) } }
  let s2 := ((s1.setKeySlot die slot { k with blockEnd := stop }).bump (0x6168 + die) 0).takeWaiting die slot
  if slot = s.obj 0x9006 0 then s2.lakeRelease die else s2

/-- COUNTER_BLOCK_JOURNALLED (R454): the end of a slot's block of counter values is durable. -/
def execCounterBlockJournalled (die slot : Nat) (s : State) : Res :=
  onDie s die fun _ =>
    let waits := (((s.cd die).active 0).any fun j => j.2.status = waitBlock && j.2.cslot = slot) ||
      (slot = s.obj 0x9006 0 && s.lake.held.any fun m => m.lane / 4 = die)
    match s.keySlot die slot with
    | none => .next s
    | some k =>
      if !waits then .next s
      else
        .next (s.counterMarked die slot k)

/-- A cleared slot (R449): queued jobs that name it end with status 2, as do jobs that still wait for a block of its counter, and key-state slots that came from it empty. -/
def State.clearSlot (s : State) (d slot : Nat) : State :=
  let s1 := { s with secure := { s.secure with slots := tdel s.secure.slots (1024 * d + slot) } }
  let queued := ((s1.cd d).queue 0).filter fun j => j.2.start = 0 && j.2.cslot = slot
  ((queued.foldl (fun s j => s.endCipher d j.1 0 j.2 2 0) s1).takeWaiting d slot).dropSourced d slot

/-- What CLEAR_KEY_SLOT does with its value: dies [31:24], slot [9:0]. -/
def State.clearKeySlots (s : State) (v : Nat) : State :=
  (s.maskDies (v / 2 ^ 24 % 256)).foldl (fun s d => s.clearSlot d (v % 1024)) s

/-- What REMOVE_STORED_KEY does with its slot number (R451). -/
def State.removeStored (s : State) (slot : Nat) : State :=
  { s with secure := { s.secure with store := s.secure.store.filter fun k => k.slot ≠ slot } }.reportStore

/-! ### Packing (R135, R136) -/

/-- Samples unpacked into containers, placed low or high. -/
def unpackBytes (code : Nat) (justify : Bool) (l : List Nat) : List Nat :=
  let n := packBits code
  (lanesOf n (l.length * 8 / n) (ofLe l)).flatMap fun x => leBytes 2 (if justify then x * 2 ^ (16 - n) else x)

/-! ### The codec (R404 to R406) -/

/-- Fields of a codec job. -/
def Job.kop (j : Job) : Nat := field j.desc 0 1
def Job.klevel (j : Job) : Nat := field j.desc 1 1
def Job.kpack (j : Job) : Nat := field j.desc 2 1
def Job.kflags (j : Job) : Nat := field j.desc 3 1

/-- An invalid field of a codec descriptor. -/
def Job.codecBad (j : Job) : Bool :=
  let level := j.klevel
  j.kop = 0 || 6 < j.kop || field j.desc 4 4 ≠ 0 ||
    (if j.kop = 1 then level = 0 || 9 < level else if j.kop = 3 then level = 0 || 15 < level else level ≠ 0) ||
    (if 5 ≤ j.kop then j.kpack % 4 = 0 || j.kpack / 4 % 4 ≠ 0 || 32 ≤ j.kpack else j.kpack ≠ 0) ||
    (if j.kop = 3 then 4 ≤ j.kflags else j.kflags ≠ 0)

/-- The stream that a compression makes: the part's own, where it is a whole stream of the format that gives the source back, with the
checksum and content size that a Zstandard job asks for; otherwise one that stores the source (R405). -/
def Job.compressed (j : Job) (src : List Nat) : List Nat :=
  let own := (Config.compress j.kop j.klevel j.kflags src).map (· % 256)
  if j.kop = 1 then (if inflate src.length own = (src, own.length, 0) then own else storedStream (src.length + 1) src)
  else if unzstd 20 src.length own = (src, own.length, 0) ∧ frameAsAsked j.kflags own then own
  else rawFrame j.kflags src

/-- What a codec job makes of its source for a destination of so many bytes: bytes, source bytes consumed, status 0, 1, 2, 7 or 8. -/
def Job.codecData (j : Job) (room : Nat) (src : List Nat) : List Nat × Nat × Nat :=
  let whole := fun (b : List Nat) => (b.take room, src.length, if room < b.length then 1 else 0)
  if j.kop = 5 then whole (packBytes (j.kpack % 4) (bitOf j.kpack 4) src).1
  else if j.kop = 6 then whole (unpackBytes (j.kpack % 4) (bitOf j.kpack 4) src)
  else if j.kop % 2 = 1 then whole (j.compressed src)
  else if j.kop = 2 then inflate room src
  else
    let r := unzstd j.window room src
    if r.2.2 = 8 then ([], r.2) else r

/-- A codec job ends: counted, and written back. -/
def State.endCodec (s : State) (d ticket : Nat) (j : Job) (status done used : Nat) : State :=
  let s1 := s.bump (0x50C0 + d) (if status = 0 then 1 else 2)
  let s2 := (s1.addObj (0x50C8 + d) 1 used).addObj (0x50C8 + d) 2 done
  let s3 := if status = 6 then s2.raiseOnce (evDie d 1) 0 d else s2
  s3.endJob d ticket j status 32 (leBytes 4 done ++ leBytes 4 used ++ [status])

/-- A codec job reads its source and writes its result (R406). Where it stops short of a whole stream, the spec does not state how many source
bytes it had consumed: a free value. -/
def State.runCodec (s : State) (die ticket : Nat) (j : Job) (poisoned : Bool) : State :=
  let o := taskOwner die j.slot
  let len := field j.desc 16 4
  let cap := field j.desc 28 4
  let src := s.jobRange o (field j.desc 8 4) (field j.desc 12 4) len
  let dst := s.jobRange o (field j.desc 20 4) (field j.desc 24 4) cap
  if src.1 = 5 ∨ dst.1 = 5 then (s.endCodec die ticket j 3 0 0)
  else if src.1 = 6 ∨ dst.1 = 6 then (s.endCodec die ticket j 4 0 0)
  else if poisoned || src.1 = 8 || dst.1 = 8 || s.poisonedAt src.2 len then (s.endCodec die ticket j 6 0 0)
  else
    let (b, used, st) := j.codecData cap (memRead s.mem src.2 len)
    let s1 := s.write dst.2 b
    if st = 0 ∨ st = 7 then (s1.endCodec die ticket j st b.length used)
    else (s1.useFree.endCodec die ticket j st b.length (s.freeValue % (len + 1)))

/-- CODEC_JOB_COMPLETE (R404 to R406). -/
def execCodecJobComplete (die ticket : Nat) (poisoned : Bool) (s : State) : Res :=
  onDie s die fun _ =>
    match tget (s.cd die).jobs ticket with
    | none => .next s
    | some j =>
      if j.engine ≠ 2 ∨ j.state ≠ 1 then .next s
      else if s.engineStalled die 2 then .next s
      else if j.abandoned then .next (s.endJob die ticket j 5 32 [])
      else if j.codecBad then .next (s.endCodec die ticket j 4 0 0)
      else
        .next (s.runCodec die ticket j poisoned)

end Sys2Proof.Machine
end

