-- ==== Sys2Proof/Machine/TimeBase.lean ====
section
/-!
DEFINITION. Chapter 2: time sources and their qualification, the time-base state machine, the PTP slave clock, and
device timecode. The epoch boundary itself is in Boundary.lean.
-/

namespace Sys2Proof.Machine

/-! ### Rates and periods -/

/-- The numerator and denominator of a RATIONAL (R61); a zero denominator is held as 1. -/
def ratNum (v : Nat) : Nat := v % 2 ^ 32
def ratDen (v : Nat) : Nat := max 1 (v / 2 ^ 32)

/-- The nominal period of 0x1102 in ns. -/
def State.nominalNs (s : State) : Nat :=
  ratDen (s.obj 0x1102 0) * 1000000000 / max 1 (ratNum (s.obj 0x1102 0))

/-- A measured period, in ns, lies within 100 ppm of the exact nominal one of 0x1102 (R39). -/
def State.withinPpm (s : State) (period : Nat) : Bool :=
  let exact := ratDen (s.obj 0x1102 0) * 1000000000
  let got := period * max 1 (ratNum (s.obj 0x1102 0))
  (max exact got - min exact got) * 10000 ≤ exact

/-- So many halves of a nominal period have passed since an instant (R38). -/
def State.halvesPassed (s : State) (halves since : Nat) : Bool :=
  halves * (ratDen (s.obj 0x1102 0) * 1000000000) ≤ 2 * ((s.time.now - since) * max 1 (ratNum (s.obj 0x1102 0)))

/-- The epoch rate in force as a fraction (R34, R43): N/D with the correction of the epoch, and lengthened where the epoch is. -/
def State.rateNow (s : State) : Nat × Nat :=
  let a := if s.time.ppb = 0 then (s.time.rateN, s.time.rateD)
    else (s.time.rateN * (1000000000 + s.time.ppb).toNat, s.time.rateD * 1000000000)
  if s.time.stretch = 0 then a else (a.1 * s.periodNs, a.2 * (s.periodNs + s.time.stretch))

/-- What the slewing of a die's counter adds to its accumulator over each phase unit (R37): a positive offset makes it run faster (DESIGN CHOICE: the
spec gives an offset no sign). -/
def State.slewOf (s : State) (c : DieClock) : Int := c.slewPs * (s.rateNow.1 : Int) / 1000

/-- Ticks until a counter that has `units` units to go overflows for the last of them (R34, R37). -/
def State.ticksFor (s : State) (c : DieClock) (units : Nat) : Nat :=
  let r := s.rateNow
  ceilDiv (((units * (r.2 * 1000000000) : Nat) : Int) - c.acc - units * s.slewOf c).toNat (max 1 (r.1 * 65536))

/-- The accumulator after those ticks. -/
def State.accAfter (s : State) (c : DieClock) (units : Nat) : Nat :=
  let r := s.rateNow
  ((c.acc : Int) + s.ticksFor c units * (r.1 * 65536) + units * s.slewOf c - (units * (r.2 * 1000000000) : Nat)).toNat

/-- The instant of the next epoch boundary on the lead's counter, in ns. -/
def State.nextBoundary (s : State) : Nat :=
  let c := s.clock s.fault.lead
  s.time.now + s.ticksFor c (65536 - c.phase)

/-! ### Sources -/

/-- A source that has delivered nothing. -/
def Source.none : Source := ⟨false, 0, 0, 0, 0, 0, false, 0⟩

/-- A source 1 to 4. -/
def State.source (s : State) (k : Nat) : Source := tgetD s.time.sources k Source.none

/-- The state with a source set. -/
def State.setSource (s : State) (k : Nat) (x : Source) : State :=
  { s with time := { s.time with sources := tset s.time.sources k x } }

/-- A source is qualified; source 5 always is (R39). -/
def State.isQualified (s : State) (k : Nat) : Bool := k = 5 || (s.source k).qualified

/-- The source order 0x1100:01 to :05 without its zero entries. -/
def State.sourceOrder (s : State) : List Nat :=
  ((List.range 5).map fun k => s.obj 0x1100 (k + 1)).filter (· ≠ 0)

/-- The first-listed qualified source. -/
def State.firstQualified (s : State) : Option Nat := s.sourceOrder.find? s.isQualified

/-- The manifest's time-base record (R47, R167): new state, active source, previous source, epoch and phase. -/
def State.timeRecord (s : State) (previous : Nat) : State :=
  s.recordInTakes (record 16 [(0, 1, 2), (1, 1, s.time.state), (2, 1, s.time.active), (3, 1, previous), (6, 2, 16),
    (8, 6, s.epoch), (14, 2, s.phase)])

/-- The time base enters a state (R42), which a take's manifest records. -/
def State.enterTime (s : State) (st : Nat) : State :=
  if s.time.state = st then s
  else ({ s with time := { s.time with state := st } }).timeRecord s.time.active

/-- A source becomes active and the counter follows it (R43); PTP is to re-base the epoch number (R44). -/
def State.setActive (s : State) (k : Nat) : State :=
  { s with time := { s.time with adopting := none, lockCount := 0, active := k, following := true, rebasePending := k = 3 } }

/-- A change of the active source raises EV P.02 and is recorded in the manifests (R43, R46, R47). A source adopted again that was the
active one is no change (log entry 16). -/
def State.tellActive (s : State) (old : Nat) : State :=
  if old = s.time.active then s else (s.raise (evPkg 2) s.time.active).timeRecord old

/-- A source becomes active while the epoch goes on (R43). -/
def State.becomeActive (s : State) (k : Nat) : State := (s.setActive k).tellActive s.time.active

/-- The time base adopts a source (R43): at the boundary that ends a lengthened epoch, or, while a take is open, at once and by
slewing. -/
def State.adopt (s : State) (k : Nat) : State :=
  if s.anyOpen then s.becomeActive k else { s with time := { s.time with adopting := some k } }

/-- PTP has become qualified (R220): where a TAI time was stored with the device time that bring-up resumed from, the power-off interval is the difference
in TAI time, and device time is corrected forward by it. -/
def State.ptpInterval (s : State) : State :=
  match s.media.taiOwed with
  | none => s
  | some (tai, stored) =>
    let now := ((s.time.now : Int) + s.time.ptp.aheadNs).toNat
    let dev := stored + (now - tai) * 1000
    let s1 : State := { s with media := { s.media with taiOwed := none } }
    if now ≤ tai ∨ !s.time.ptp.haveTime then s1
    else
      let up := s.media.devTimePs - stored - s.obj 0x3016 1 * 1000000000000
      let off := ((now - tai) * 1000 - up) / 1000000000000
      let s2 : State := if s.media.devTimePs < dev then { s1 with media := { s1.media with devTimePs := dev } } else s1
      (s2.setObj 0x3016 1 off).setObj 0x3016 2 1

/-- In Acquiring and Free the first-listed qualified source is adopted (R42), unless the counter follows it already. -/
def State.selectSource (s : State) : State :=
  if s.time.adopting.isSome ∨ (s.time.state ≠ 0 ∧ s.time.state ≠ 3) then s
  else
    match s.firstQualified with
    | some k => if k = s.time.active ∧ s.time.following then s else s.adopt k
    | none => s

/-- A source has become qualified: Acquiring and Free adopt the first-listed qualified source, Holdover the source it
lost (R42). -/
def State.onQualified (s : State) (k : Nat) : State :=
  if s.time.adopting.isNone ∧ s.time.state = 2 ∧ k = s.time.active ∧ !s.time.following then s.adopt k else s.selectSource

/-- The period that a source marks, in ns: the last one measured within the window of R39 (R38, R42). -/
def State.sourcePeriod (s : State) (k : Nat) : Nat :=
  if (s.source k).goodPeriod = 0 then max 1 s.nominalNs else (s.source k).goodPeriod

/-- A source is lost (R38, R42): it is no longer qualified; the active one raises EV P.00, and from Locked the time
base enters Holdover with EV P.01, keeping the rate last measured. -/
def State.loseSource (s : State) (k : Nat) : State :=
  let s1 := s.setSource k { s.source k with qualified := false, good := 0, bad := 0, seen := false }
  let s2 := if s1.time.adopting = some k then { s1 with time := { s1.time with adopting := none } } else s1
  if s.time.active ≠ k ∨ !s.time.following then s2
  else
    let held := if s.time.state = 0 then s.time.heldNs else some (s.sourcePeriod k)
    let s3 := ({ s2 with time := { s2.time with following := false, lockCount := 0, heldNs := held } } : State).raise (evPkg 0) k
    if s.time.state = 1 then (({ s3 with time := { s3.time with holdoverFrom := s.time.now } }).enterTime 2).raise (evPkg 1) k
    else s3

/-- A source 1 to 4 delivers a boundary at an instant (R39): 8 good periods qualify it, 4 bad ones lose it. A source lost so goes on delivering boundaries, and the next one's period counts. A
change of 0x1101 or 0x1107 leaves the source's qualification and its run as they stand (log entry 160). -/
def State.sourceBoundary (s : State) (k at' : Nat) (countable : Bool) : State :=
  let x := s.source k
  let period := at' - x.last
  let good := countable && x.seen && s.withinPpm period
  let goods := if good then x.good + 1 else 0
  let bads := if good || !x.seen then 0 else x.bad + 1
  let q := (x.qualified || 8 ≤ goods) && countable
  let x' : Source := ⟨true, at', if x.seen then period else x.period, if good then period else x.goodPeriod, goods, bads, q,
    if q && !x.qualified then at' else x.since⟩
  let s1 := s.setSource k x'
  if x.qualified ∧ (4 ≤ bads ∨ !countable) then
    let s2 := s1.loseSource k
    s2.setSource k { s2.source k with seen := true }
  else if q ∧ !x.qualified then (if k = 3 then s1.ptpInterval else s1).onQualified k
  else s1

/-! ### Device timecode (R57) -/

/-- Frames per second of a timecode rate code as a fraction, and its count base. -/
def tcRate (code : Nat) : Nat × Nat × Nat :=
  match code with
  | 0 => (24, 1, 24)
  | 1 => (25, 1, 25)
  | 2 => (30, 1, 30)
  | 3 => (24000, 1001, 24)
  | _ => (30000, 1001, 30)

/-- Two decimal digits in BCD. -/
def bcd (n : Nat) : Nat := n / 10 % 10 * 16 + n % 10

/-- The number that two BCD digits hold. -/
def unbcd (n : Nat) : Nat := n / 16 * 10 + n % 16

/-- The labels that drop-frame counting has skipped before frame n of a day are added back. -/
def dropAdjust (n : Nat) : Nat :=
  let d := n / 17982
  let m := n % 17982
  n + 18 * d + (if m < 2 then 0 else 2 * ((m - 2) / 1798))

/-- The timecode word of frame n of a day at a rate code (R57): hours wrap at 24. -/
def tcLabel (code src n : Nat) : Nat :=
  let base := (tcRate code).2.2
  let k := if code = 4 then dropAdjust n else n
  let f := k % base
  let sec := k / base % 60
  let min := k / base / 60 % 60
  let h := k / base / 3600 % 24
  b2n (code = 4) * 2 ^ 31 + bcd h * 2 ^ 24 + bcd min * 2 ^ 16 + bcd sec * 2 ^ 8 + src * 64 + bcd f

/-- The frame of the day that a timecode word labels. -/
def tcFrame (code w : Nat) : Nat :=
  let base := (tcRate code).2.2
  let h := unbcd (w / 2 ^ 24 % 128)
  let m := unbcd (w / 2 ^ 16 % 256)
  let sec := unbcd (w / 2 ^ 8 % 256)
  let f := unbcd (w % 64)
  let k := ((h * 60 + m) * 60 + sec) * base + f
  if code = 4 then
    let mins := h * 60 + m
    k - 2 * (mins - mins / 10)
  else k

/-- PTP time now, in ns, when the clock has it. -/
def State.ptpNow (s : State) : Int := (s.time.now : Int) + s.time.ptp.aheadNs

/-- 1/(1001 × 10⁹) frames, the unit in which every rate of `tcRate` counts whole in one ns. -/
def tcUnits : Nat := 1001000000000

/-- Counting on at the timecode rate from the last label, with the part of a frame that has passed. -/
def State.countOn (s : State) (code n d : Nat) : State :=
  let e := (s.time.now - s.time.tcAt) * (n * (1001 / d)) + s.time.tcRem
  let k := e / tcUnits
  { s with time := { s.time with tcAt := s.time.now, tcRem := e % tcUnits
                                 timecode := if k = 0 then s.time.timecode else tcLabel code 3 (tcFrame code s.time.timecode + k) } }

/-- The device timecode is brought up to now: from PTP while PTP is qualified and a UTC offset has been received,
otherwise counted on from the last value (R57). While LTC is qualified it stands as LTC gave it. -/
def State.updateTimecode (s : State) : State :=
  let code := s.obj 0x1140 1
  let (n, d, _) := tcRate code
  if (s.source 4).qualified then s
  else
    match s.time.ptp.utc with
    | some off =>
      if (s.source 3).qualified then
        let secNs := ((s.ptpNow - off * 1000000000) % 86400000000000).toNat
        { s with time := { s.time with timecode := tcLabel code 2 (secNs * n / (d * 1000000000)), tcAt := s.time.now
                                       tcRem := secNs * (n * (1001 / d)) % tcUnits } }
      else s.countOn code n d
    | none => s.countOn code n d

/-! ### Meanings -/

/-- The instant of an edge on a pin: a free one within the lead's phase unit, to which commands are placed (R38). -/
def State.edgeAt (s : State) : Nat := s.time.now + s.freeValue % max 1 (s.ticksFor (s.clock s.fault.lead) 1)

/-- FRAME_SYNC_EDGE (R38): an edge of the kind 0x1107 selects, sampled at 1.0 GHz, is a boundary of source 2. -/
def execFrameSyncEdge (rising : Bool) (s : State) : Res :=
  let s1 := { s with pins := { s.pins with frameSync := rising } }
  if b2n (!rising) = s.obj 0x1107 0 then .next (s1.useFree.sourceBoundary 2 s.edgeAt true) else .next s1

/-- LTC_FRAME (R38, R41, R57): the end of an LTC sync word is a boundary of source 4; LTC at another rate than
0x1140:01, by the codes of that object, is unqualified (log entry 13). While LTC is qualified it gives the device timecode. -/
def execLtcFrame (rate timecode userBits : Nat) (s : State) : Res :=
  let s1 := (s.setObj 0x1140 2 (userBits % 2 ^ 32)).useFree.sourceBoundary 4 s.edgeAt (rate = s.obj 0x1140 1)
  if (s1.source 4).qualified then
    let w := clearBit (clearBit (timecode % 2 ^ 32) 6) 7 + 64
    .next { s1 with time := { s1.time with timecode := w, tcAt := s.time.now, tcRem := 0 } }
  else .next s1

/-- PTP runs on the lane of 0x1130:02 while that lane is in Ethernet mode and an address is set, in the domain of 0x1130:01 (R40). -/
def State.ptpTakes (s : State) (h : PtpHdr) : Bool :=
  s.obj 0x1130 3 ≠ 0 && h.dom = s.obj 0x1130 1 && h.lane = s.obj 0x1130 2 && s.obj (0x2120 + h.lane / 4) (h.lane % 4 + 1) = 3

/-- A message of the clock taken from the master that is followed (R40). -/
def State.fromMaster (s : State) (h : PtpHdr) : Bool := s.ptpTakes h && s.time.ptp.master == some h.src

/-- The state with the PTP clock's record changed. -/
def State.modPtp (s : State) (f : Ptp → Ptp) : State := { s with time := { s.time with ptp := f s.time.ptp } }

/-- A Sync measurement is complete: the device's PTP time is set from the origin, the mean path delay and the arrival,
and its offset from the master before that is reported (R40, 0x1130:05). A Delay_Req follows. -/
def State.ptpMeasured (s : State) (seq origin arrival : Nat) : State :=
  let delay := s.obj 0x1130 6
  let p := s.time.ptp
  let off : Int := if p.haveTime then (arrival : Int) + p.aheadNs - (origin + delay) else 0
  ((s.modPtp fun p => { p with t1 := origin, t2 := arrival, sync := none, haveTime := true
                               aheadNs := (origin : Int) + delay - arrival, delaySeq := seq, delayWaiting := true }).setObj
    0x1130 5 (twos 32 off)).emit (.ptpDelayReq (s.obj 0x1130 1) seq)

/-- A Sync of the master has been heard at this instant (R38). -/
def State.heardSync (s : State) (intervalNs : Nat) : State := s.modPtp fun p => { p with syncAt := s.time.now, syncNs := intervalNs }

/-- PTP_SYNC_MESSAGE (R40): a one-step Sync of the master completes a measurement; a two-step Sync waits for its Follow_Up. -/
def execPtpSyncMessage (h : PtpHdr) (seq : Nat) (twoStep : Bool) (originNs arrivalNs : Nat) (s : State) : Res :=
  if !s.fromMaster h then .next s
  else if twoStep then .next ((s.heardSync h.intervalNs).modPtp fun p => { p with sync := some (seq, arrivalNs) })
  else .next ((s.heardSync h.intervalNs).ptpMeasured seq originNs arrivalNs)

/-- PTP_FOLLOW_UP_MESSAGE (R40): the master's Follow_Up of the waiting Sync completes its measurement. -/
def execPtpFollowUpMessage (h : PtpHdr) (seq originNs : Nat) (s : State) : Res :=
  match s.time.ptp.sync with
  | some (q, arrival) => if s.fromMaster h ∧ q = seq then .next (s.ptpMeasured seq originNs arrival) else .next s
  | none => .next s

/-- One data set is better than another, at the first of their terms that differ, by the lower (IEEE 1588, the default best master clock
algorithm): of one grandmaster by the steps to it and then the sender, of two by their qualities and then their identities. -/
def AnnounceData.better (a : AnnounceData) (gmA srcA : Nat) (b : AnnounceData) (gmB srcB : Nat) : Bool :=
  let terms := fun (x : AnnounceData) (gm src : Nat) =>
    if gmA = gmB then [x.steps, src] else [x.priority1, x.clockClass, x.accuracy, x.variance, x.priority2, gm]
  match ((terms a gmA srcA).zip (terms b gmB srcB)).find? fun t => t.1 ≠ t.2 with
  | some t => t.1 < t.2
  | none => false

/-- A foreign master is qualified (IEEE 1588): its last Announce came within 4 announce intervals of this one, and its steps are below 255. -/
def State.foreignKnown (s : State) (h : PtpHdr) (x : AnnounceData) : Bool :=
  x.steps < 255 && (match tget s.time.ptp.foreign h.src with
    | some at' => s.time.now ≤ at' + 4 * h.intervalNs
    | none => false)

/-- The clock record with a master followed: of another one's exchanges nothing stays. -/
def Ptp.follow (p : Ptp) (src gm : Nat) (x : AnnounceData) : Ptp :=
  if p.master = some src then { p with best := x, bestGm := gm }
  else { p with master := some src, best := x, bestGm := gm, sync := none, delayWaiting := false, syncAt := p.announceAt }

/-- The best master clock algorithm follows the sender: it is the master already, or it is qualified and there is none or a worse one. -/
def State.follows (s : State) (h : PtpHdr) (x : AnnounceData) (gm : Nat) : Bool :=
  let p := s.time.ptp
  match p.master with
  | none => s.foreignKnown h x
  | some m => m = h.src || (s.foreignKnown h x && AnnounceData.better x gm h.src p.best p.bestGm m)

/-- PTP_ANNOUNCE_MESSAGE (R40, R57): the sender is noted as a foreign master; the best one is followed, and its valid UTC offset is taken. -/
def execPtpAnnounceMessage (h : PtpHdr) (data : AnnounceData) (gm : Nat) (utcOffset : Option Int) (s : State) : Res :=
  if !s.ptpTakes h then .next s
  else
    let noted := s.modPtp fun p => { p with foreign := tset p.foreign h.src s.time.now }
    if !s.follows h data gm then .next noted
    else
      let heard := noted.modPtp fun p => Ptp.follow { p with announceAt := s.time.now, announceNs := h.intervalNs } h.src gm data
      .next ((heard.modPtp fun p => { p with utc := if utcOffset.isSome then utcOffset else p.utc }).setObj 0x1130 4 (gm % 2 ^ 64))

/-- PTP_DELAY_RESP_MESSAGE (R40): the end-to-end measurement gives the mean path delay. -/
def execPtpDelayRespMessage (h : PtpHdr) (seq sentNs receivedNs : Nat) (s : State) : Res :=
  let p := s.time.ptp
  if !s.fromMaster h ∨ !p.delayWaiting ∨ p.delaySeq ≠ seq then .next s
  else
    let mean := (((p.t2 : Int) - p.t1) + ((receivedNs : Int) - sentNs)) / 2
    .next ((s.modPtp fun p => { p with delayWaiting := false }).setObj 0x1130 6 (clampInt 0 0xFFFFFFFF mean).toNat)

/-- The announce receipt timeout in announce intervals (the example under R47). -/
def announceReceipt : Nat := 3

/-- A source's loss limit has passed (R38): 2, 1.5 and 2.5 nominal periods after the latest boundary of sources 1, 2 and 4; for PTP the
announce receipt timeout, or 3 sync intervals without a Sync. -/
def State.lossDue (s : State) (k : Nat) : Bool :=
  let x := s.source k
  let p := s.time.ptp
  if k = 3 then
    p.master.isSome && (p.announceAt + announceReceipt * p.announceNs ≤ s.time.now || p.syncAt + 3 * p.syncNs ≤ s.time.now)
  else x.seen && s.halvesPassed (if k = 1 then 4 else if k = 2 then 3 else 5) x.last

/-- SOURCE_LOST (R38, R42): the source's loss timeout expires. Source 5 is never lost. -/
def execSourceLost (src : Nat) (s : State) : Res :=
  if src = 0 ∨ 5 ≤ src then .fault .absentUnit
  else if !s.lossDue src then .next s
  else
    let s1 := if src = 3 then s.modPtp fun p => { p with haveTime := false, master := none } else s
    .next (s1.loseSource src)

/-- The holdover time 0x1104 has passed since holdover began, with no source adopted (R42). -/
def State.holdoverDue (s : State) : Bool :=
  s.time.state = 2 && s.time.adopting.isNone && !s.time.following && s.time.holdoverFrom + s.obj 0x1104 0 * 1000000 ≤ s.time.now

/-- HOLDOVER_EXPIRY (R42): the first-listed qualified source is adopted, or the device runs free with EV P.04. -/
def execHoldoverExpiry (s : State) : Res :=
  if !s.holdoverDue then .next s
  else
    match s.firstQualified with
    | some k => .next (s.adopt k)
    | none => .next ((s.enterTime 3).raise (evPkg 4) s.time.active)

/-- A source listed earlier than the active one has stayed qualified for the return time 0x1105 (R42). -/
def State.returnDue (s : State) (src : Nat) : Bool :=
  s.time.state = 1 && s.time.adopting.isNone && (s.sourceOrder.takeWhile (· ≠ s.time.active)).contains src && s.isQualified src &&
    (s.source src).since + s.obj 0x1105 0 * 1000000 ≤ s.time.now

/-- RETURN_TIME_EXPIRY (R42): a qualified source listed earlier than the active one is adopted; the state stays
Locked. -/
def execReturnTimeExpiry (src : Nat) (s : State) : Res :=
  if s.returnDue src then .next (s.adopt src) else .next s

end Sys2Proof.Machine
end

