-- ==== Sys2Proof/Machine/Takes.lean ====
section
/-!
DEFINITION. Chapter 5: spring definitions, admission, the guaranteed duration, opening, closing, deleting and sealing
takes, manifests and the formats on media; and the device's own control messages to a port (R119).
-/

namespace Sys2Proof.Machine

/-! ### Control messages of the device (R119) -/

/-- A port by its key, 4 × die + first lane. -/
def State.port (s : State) (k : Nat) : Option Port := tget s.inflow.ports k

/-- The state with a port set. -/
def State.setPort (s : State) (k : Nat) (p : Port) : State :=
  { s with inflow := { s.inflow with ports := tset s.inflow.ports k p } }

/-- Messages that need no ACK: ECHO, ECHO REPLY, ACK, TIME. -/
def unackedMsg (msg : Nat) : Bool := [2, 3, 4, 0x20].contains msg

/-- The lanes of a port that are up (state 7 of 0x2138). -/
def State.upLanes (s : State) (k : Nat) (p : Port) : List Nat :=
  p.lanes.filter fun l => ((tget s.inflow.lanes (4 * (k / 4) + l)).map (·.state)).getD 0 = 7

/-- A message goes out at once on lanes of a port, under one MSEQ, the port's next; one that needs an ACK waits for it. -/
def State.sendNow (s : State) (k : Nat) (lanes : List Nat) (msg : Nat) (body : List Nat) : State :=
  match s.port k with
  | none => s
  | some p =>
    let n := p.nextMseq
    let un := if unackedMsg msg then p.unacked else tset p.unacked n ⟨msg, body, lanes, 0, s.time.now⟩
    (s.setPort k { p with nextMseq := (n + 1) % 256, unacked := un }).emitAll
      (lanes.map fun l => controlCell (k / 4) l msg n body)

/-- A message goes out on lanes of a port; with 127 messages unacknowledged, one that needs an ACK is queued. -/
def State.sendOn (s : State) (k : Nat) (lanes : List Nat) (msg : Nat) (body : List Nat) : State :=
  match s.port k with
  | none => s
  | some p =>
    if !unackedMsg msg ∧ 127 ≤ p.unacked.length then s.setPort k { p with queued := p.queued ++ [(lanes, msg, body)] }
    else s.sendNow k lanes msg body

/-- A control message goes out on a port that is up, on its first lane that is up. -/
def State.sendControl (s : State) (k msg : Nat) (body : List Nat) : State :=
  match s.port k with
  | none => s
  | some p => if !p.up then s else s.sendOn k [((s.upLanes k p).head?).getD (k % 4)] msg body

/-- A control message goes out on every port that is up. -/
def State.sendAllPorts (s : State) (msg : Nat) (body : List Nat) : State :=
  s.inflow.ports.foldl (fun s p => s.sendControl p.1 msg body) s

/-! ### Boundaries that R52 permits -/

/-- The first boundary permitted for a commit accepted now (R52): the next one, at least 40 µs and 4,096 phase units
ahead, else the one after it. -/
def State.permitted (s : State) : Nat :=
  if s.time.now + 40000 ≤ s.nextBoundary ∧ s.phase + 4096 ≤ 65536 then wrap48 (s.epoch + 1) else wrap48 (s.epoch + 2)

/-- The first boundary that R52 permits and that lies at least 1 ms after acceptance (R137). -/
def State.openBoundary (s : State) : Nat :=
  let wait := s.time.now + 1000000 - s.nextBoundary
  let k := 1 + ceilDiv wait s.periodNs
  if k = 1 then s.permitted else wrap48 (s.epoch + k)

/-! ### Spring definitions (R130 to R136) -/

/-- The definition of a spring as the settings stand. An audio or metadata spring has one band (R131). -/
def State.springDef (s : State) (sp : Nat) : SpringDef :=
  let i := 0x2200 + sp
  let kind := s.obj i 1
  let n := if 2 ≤ kind then 1 else s.obj i 3
  { spring := sp, kind := kind, rate := s.obj i 2, nbands := n, maxLen := s.obj i 4, packing := s.obj i 5
    justify := s.obj i 6, lateLimit := s.obj i 8, ports := (List.range n).map fun b => s.obj i (0x10 + b)
    alternates := (List.range n).map fun b => s.obj i (0x50 + b) }

/-- Frames per second. -/
def SpringDef.fps (p : SpringDef) : Rat := (ratNum p.rate : Rat) / (ratDen p.rate : Rat)

/-- A band entry names an inflow port of the part (R130). -/
def State.localPort (s : State) (v : Nat) : Bool := v < 32 && v / 4 < s.cfg.dies && s.portWidth (v / 4) (v % 4) ≠ 0

/-- A band entry names a lake member. -/
def lakePort (v : Nat) : Bool := 0x4000 ≤ v && v < 0x4200

/-- The port that receives a band while die `lost` is out of service: the alternate takes over for it. -/
def SpringDef.portOf (p : SpringDef) (lost : Option Nat) (b : Nat) : Option Nat :=
  let v := p.ports.getD b 0xFFFF
  let a := p.alternates.getD b 0xFFFF
  if v < 32 ∧ lost ≠ some (v / 4) then some v else if v < 32 ∧ a < 32 then some a else none

/-- The bands of a spring on a die, and on a port. -/
def SpringDef.onDie (p : SpringDef) (lost : Option Nat) (d : Nat) : Nat :=
  ((List.range p.nbands).filter fun b => ((SpringDef.portOf p lost b).map (· / 4)) = some d).length
def SpringDef.onPort (p : SpringDef) (k : Nat) : Nat :=
  ((List.range p.nbands).filter fun b => (SpringDef.portOf p none b) = some k).length

/-! ### The loads of admission (R143) -/

/-- Sum of rationals. -/
def ratSum (l : List Rat) : Rat := l.foldl (· + ·) 0

/-- The smallest integer not below a rational, as a natural number. -/
def ratCeil (q : Rat) : Nat := q.ceil.toNat

/-- Cells per second that a spring sends on a port: bands with their headers and trailers, and the frame marker. -/
def SpringDef.cells (p : SpringDef) (k : Nat) : Rat :=
  (SpringDef.fps p) * ((SpringDef.onPort p k * (ceilDiv p.maxLen 240 + 2) + b2n ((SpringDef.portOf p none 0) = some k) : Nat) : Rat)

/-- Bytes per second that a spring's segments write on a die, padding included. -/
def SpringDef.segRate (p : SpringDef) (lost : Option Nat) (d : Nat) : Rat :=
  (SpringDef.fps p) * ((ceilDiv (SpringDef.onDie p lost d * (SpringDef.stored p p.maxLen)) cuBytes * cuBytes : Nat) : Rat)

/-- Bytes per second written on a die: segments, and the manifest on the lead's die. -/
def demand (lead : Nat) (springs : List SpringDef) (lost : Option Nat) (d : Nat) : Rat :=
  ratSum (springs.map fun p =>
    SpringDef.segRate p lost d + if d = lead then (SpringDef.fps p) * ((64 + 48 * p.nbands : Nat) : Rat) else 0)

/-- Bytes per second programmed on a die for a demand, protection included. -/
def State.written (s : State) (dem : Nat → Rat) (d : Nat) : Rat :=
  let n := s.cfg.dies
  let all := ratSum (s.dies.map dem)
  if s.obj 0x3000 0 = 0 then dem d
  else if n = 2 then all
  else dem d + all / ((n * (n - 1) : Nat) : Rat)

/-- Received bytes per second to be packed on a die. -/
def packRate (springs : List SpringDef) (d : Nat) : Rat :=
  ratSum (springs.map fun p =>
    if (SpringDef.width p) = 0 then 0 else (SpringDef.fps p) * ((SpringDef.onDie p none d * p.maxLen : Nat) : Rat))

/-- A die's ceiling after the loss of the channel that carries most of its data rate. -/
def State.ceilingChannel (s : State) (d : Nat) : Nat :=
  let rates := (List.range 16).map (s.channelRate d)
  if s.ceiling d = 0 then 0 else min 6000000000 ((sum rates - rates.foldl Nat.max 0) * 15 / 16)

/-- No spare media core is left on a die (0x3230). -/
def State.noMediaSpare (s : State) (d : Nat) : Bool := s.obj (0x3230 + d) 2 ≠ 0

/-- The ceiling of a die as it is now, three quarters of R143's with three media cores (R523). -/
def State.ceilingNow (s : State) (d : Nat) : Nat :=
  if s.obj (0x3230 + d) 1 < 4 then s.ceiling d * 3 / 4 else s.ceiling d

/-- The fault cases of a die with the ceiling and demand that each leaves: 0 none, 1 channel, 2 media core, 3 die. -/
def State.faultCases (s : State) (springs : List SpringDef) (d : Nat) : List (Nat × Rat × (Nat → Rat)) :=
  let dem := demand s.fault.lead springs none
  let c : Rat := (s.ceilingNow d : Nat)
  let deaths := if s.obj 0x3000 0 = 0 then [] else (s.dies.filter fun e => e ≠ d && s.healthy e)
  [(1, ((min (s.ceilingNow d) (s.ceilingChannel d) : Nat) : Rat), dem)] ++
    (if s.noMediaSpare d then [(2, c * 3 / 4, dem)] else []) ++
    deaths.map fun e => (3, c, demand s.fault.lead springs (some e))

/-- The margin of a die without a fault. -/
def State.margin (s : State) (springs : List SpringDef) (d : Nat) : Rat :=
  ((s.ceilingNow d : Nat) : Rat) - s.written (demand s.fault.lead springs none) d

/-- The worst case of a die: case, ceiling and margin, the smallest margin over every case. -/
def State.worst (s : State) (springs : List SpringDef) (d : Nat) : Nat × Rat × Rat :=
  (s.faultCases springs d).foldl (fun b f =>
    let m := f.2.1 - s.written f.2.2 d
    if m < b.2.2 then (f.1, f.2.1, m) else b) (0, ((s.ceilingNow d : Nat) : Rat), s.margin springs d)

/-! ### Duration (R143, R149) -/

/-- The springs of the takes that draw on the reserve: open and admitted ones. -/
def State.drawing (s : State) : List Take := s.take.takes.filter fun t => t.state = 1 || t.state = 5
def State.drawingSprings (s : State) : List SpringDef := s.drawing.flatMap (·.springs)

/-- Free bytes of a namespace, its directory area apart. -/
def State.nsFree (s : State) (nsid : Nat) : Nat :=
  match tget s.host.nss nsid with
  | none => 0
  | some n => (Ns.cus n - 5 - (n.units.filter fun u => 5 ≤ u.1).length) * cuBytes

/-- What is left of a die's reserve beyond its allowance and two epochs of writes. -/
def State.reserveLeft (s : State) (w : Rat) (d : Nat) : Rat :=
  ((s.erasedBytes d : Nat) : Rat) - ((s.allowance d : Nat) : Rat) - 2 * w * ((s.periodNs : Nat) : Rat) / 1000000000

/-- How many seconds a die's reserve lasts; none when reclaim keeps up. -/
def State.dieTime (s : State) (springs : List SpringDef) (d : Nat) : Option Rat :=
  let w := s.written (demand s.fault.lead springs none) d
  let m := (s.worst springs d).2.2
  let reclaim : Rat := (s.reclaimRate d : Nat)
  let net := w - min reclaim m
  if 0 < net then some (s.reserveLeft w d / net) else none

/-- A die whose reserve is exhausted for a demand (0x0C). -/
def State.exhausted (s : State) (springs : List SpringDef) : Option Nat :=
  (s.dies.filter s.healthy).find? fun d => s.reserveLeft (s.written (demand s.fault.lead springs none) d) d ≤ 0

/-- How many seconds a namespace lasts for the springs written to it; none when nothing is. -/
def State.nsTime (s : State) (nsid : Nat) (springs : List SpringDef) : Option Rat :=
  let rate := ratSum (s.dies.map (demand s.fault.lead springs none))
  if rate = 0 then none else some (((s.nsFree nsid : Nat) : Rat) / rate)

/-- The guaranteed duration in whole seconds for groups of springs by namespace; 0xFFFFFFFF when unbounded. -/
def State.duration (s : State) (groups : List (Nat × List SpringDef)) : Nat :=
  let springs := groups.flatMap (·.2)
  let names := (groups.map (·.1)).eraseDups
  let ofNs := fun n => (groups.filter fun g => g.1 = n).flatMap (·.2)
  let times := (s.dies.filter s.healthy).filterMap (s.dieTime springs) ++ names.filterMap fun n => s.nsTime n (ofNs n)
  match times with
  | [] => 0xFFFFFFFF
  | t :: ts => min 0xFFFFFFFF (ts.foldl min t).floor.toNat

/-- The takes that draw on the reserve, by namespace. -/
def State.drawGroups (s : State) : List (Nat × List SpringDef) := s.drawing.map fun t => (t.nsid, t.springs)

/-! ### Admission (R143 to R146) -/

/-- What a take asks for: namespace, spring mask, minimum duration, lake take. -/
structure TakeAsk where
  nsid : Nat
  mask : Nat
  minimum : Nat
  lake : Nat
deriving DecidableEq, Repr

/-- The springs asked for, by their definitions. -/
def State.asked (s : State) (a : TakeAsk) : List SpringDef := (bitsOf 32 a.mask).map s.springDef

/-- Springs of takes that are open or admitted. -/
def State.taken (s : State) : List Nat := s.drawingSprings.map (·.spring)

/-- A band entry that maps to no port, local or of a lake member. -/
def State.unmapped (s : State) (v : Nat) : Bool := !s.localPort v && !lakePort v

/-- A band of local ports with no alternate port on another die. -/
def State.noAlternate (s : State) (p : SpringDef) : Bool :=
  (List.range p.nbands).any fun b =>
    let v := p.ports.getD b 0xFFFF
    let a := p.alternates.getD b 0xFFFF
    s.localPort v && !(s.localPort a && a / 4 ≠ v / 4)

/-- The number of the next take of a namespace (R138): the lowest that none of its takes has used. -/
def State.nextTake (s : State) (nsid : Nat) : Nat :=
  let used := (s.take.takes.filter fun t => t.nsid = nsid).map (·.num)
  (((List.range (used.length + 1)).map (· + 1)).find? fun n => !used.contains n).getD 0

/-- The structural checks in their order; `refused` says that a lake member refused its part. Answers code and place. -/
def State.structural (s : State) (a : TakeAsk) (refused : Bool) : Option (Nat × Nat) :=
  let springs := s.asked a
  let off := fun (p : SpringDef) => p.kind = 0 || s.springs ≤ p.spring || p.ports.any s.unmapped
  if springs.any off then some (1, 0)
  else if springs.any fun p => s.taken.contains p.spring then some (2, 0)
  else if 8 ≤ (s.take.takes.filter fun t => t.state = 1 || t.state = 4 || t.state = 5).length then some (3, 0)
  else
    match tget s.host.nss a.nsid with
    | none => some (4, 0)
    | some n =>
      if n.kind ≠ 1 then some (4, 0)
      else if s.obj 0x2226 0 = 1 ∧ s.sealingKey.isNone then some (0x0E, 0)
      else if s.obj 0x3000 0 = 1 ∧ springs.any s.noAlternate then some (0x0F, 0)
      else if s.fault.safeHold then some (0x10, 0)
      else if 65535 < s.nextTake a.nsid then some (0x11, 0)
      else if refused then some (0x12, 0) else none

/-- The lanes of a port that admission counts on: one less when a port of several lanes has no spare (R143). -/
def State.sureLanes (s : State) (k : Nat) : Nat :=
  let w := s.portWidth (k / 4) (k % 4)
  if 1 < w ∧ s.obj (0x2130 + k / 4) 0 = 0 then w - 1 else w

/-- The reserved minimum of a spring in an inflow pool. -/
def State.reserved (s : State) (k sp : Nat) : Nat :=
  match s.pool (k / 4) (k % 4) with
  | none => 0
  | some q => ((q.owner (springOwner k sp)).map (·.target)).getD 0

/-- The ports of the part, by key. -/
def State.portKeys (s : State) : List Nat := s.dies.flatMap fun d => (s.portsOf d).map fun p => 4 * d + p.1

/-- The estimated power of a demand, in mW. -/
def State.estimate (s : State) (dem : Nat → Rat) : Rat :=
  ratSum (s.dies.map fun d =>
    ((s.obj (0x8170 + d) 0 : Nat) : Rat) + ((s.obj 0x2222 3 : Nat) : Rat) * s.written dem d / 1000000000)

/-- The checks of rates, power, heat and reserve, in their order; answers code and place. DESIGN CHOICE: a namespace with no free unit refuses a
new take with 0x0C at the lead's die, as R150 gives that refusal no code or place (log entry 220). -/
def State.quantities (s : State) (a : TakeAsk) : Option (Nat × Nat) :=
  let all := s.drawingSprings ++ s.asked a
  let live := s.dies.filter s.healthy
  let dem := demand s.fault.lead all none
  let least : Rat := (s.obj 0x2222 1 * 1000000 : Nat)
  let groups := s.drawGroups ++ [(a.nsid, s.asked a)]
  let wanted := (s.drawing.map (·.minDuration)).foldl Nat.max a.minimum
  match s.dies.find? fun d => s.margin all d < 0 with
  | some d => some (5, d)
  | none =>
    match live.find? fun d => (s.worst all d).2.2 < least with
    | some d => some (6, d)
    | none =>
      match s.portKeys.find? fun k => ((s.sureLanes k * 51670000 : Nat) : Rat) < ratSum (all.map fun p => SpringDef.cells p k) with
      | some k => some (7, k)
      | none =>
        match s.portKeys.find? fun k => all.any fun p => s.reserved k p.spring < ratCeil (SpringDef.cells p k * 8 / 1000000) with
        | some k => some (8, k)
        | none =>
          match s.dies.find? fun d => 8000000000 < packRate all d with
          | some d => some (9, d)
          | none =>
            if ((s.enforcedLimit : Nat) : Rat) < s.estimate dem then some (0x0A, 0)
            else if 1000 - 10 * (s.obj 0x2222 2 : Int) < s.junction then some (0x0B, (s.hottest.map (·.1)).getD 0)
            else
              match s.exhausted all with
              | some d => some (0x0C, d)
              | none =>
                if s.nsFree a.nsid = 0 then some (0x0C, s.fault.lead)
                else if s.duration groups < wanted then some (0x0D, 0) else none

/-- The whole admission: code 0 when admitted, and the die or port of the first check that failed. -/
def State.admission (s : State) (a : TakeAsk) (refused : Bool) : Nat × Nat :=
  match s.structural a refused with
  | some r => r
  | none => (s.quantities a).getD (0, 0)

/-- The coverage of a take (R146): a port of one lane, no cross-die protection, a band on a lake member. -/
def State.coverage (s : State) (springs : List SpringDef) : Nat :=
  let ports := springs.flatMap (·.ports)
  b2n (ports.any fun v => s.localPort v && s.portWidth (v / 4) (v % 4) = 1) + 2 * b2n (s.obj 0x3000 0 = 0 || s.media.convert ≠ 0) + 4 * b2n (ports.any lakePort)

/-- One die's 80 bytes of 0x222D (R608). -/
def State.admitDie (s : State) (all : List SpringDef) (d : Nat) : List Nat :=
  let dem := demand s.fault.lead all none
  let w := s.worst all d
  let t := match s.dieTime all d with
    | none => 0xFFFFFFFF
    | some q => min 0xFFFFFFFE q.floor.toNat
  [d, w.1] ++ zeros 6 ++ leBytes 8 (s.ceilingNow d) ++ leBytes 8 w.2.1.floor.toNat ++ leBytes 8 (dem d).floor.toNat ++
    leBytes 8 (s.written dem d).floor.toNat ++ leBytes 8 (twos 64 w.2.2.floor) ++ leBytes 8 (s.erasedBytes d) ++
    leBytes 8 (s.allowance d) ++ leBytes 8 (s.reclaimRate d) ++ leBytes 4 (s.obj (0x8170 + d) 0) ++ leBytes 4 t

/-- The report of an admission: 0x222D and 0x2818 + d, and for an admitted take the rates of 0x2808 + d. -/
def State.reportAdmission (s c : State) (a : TakeAsk) (code : Nat) : State :=
  let all := c.drawingSprings ++ c.asked a
  let dem := demand c.fault.lead all none
  let power := (c.estimate dem).floor.toNat
  let head := leBytes 6 s.epoch ++ [code, s.cfg.dies] ++ leBytes 4 (twos 32 s.junction) ++ leBytes 4 power
  let s1 := s.setDom 0x222D 0 (head ++ c.dies.flatMap (c.admitDie all))
  s.dies.foldl (fun s d =>
    let w := c.worst all d
    let diePower := (((c.obj (0x8170 + d) 0 : Nat) : Rat) + ((c.obj 0x2222 3 : Nat) : Rat) * c.written dem d / 1000000000).floor.toNat
    let s2 := (((s.setObj (0x2818 + d) 1 (c.ceilingNow d)).setObj (0x2818 + d) 2 w.2.1.floor.toNat).setObj (0x2818 + d) 3 w.1).setObj
      (0x2818 + d) 4 diePower
    if code = 0 then
      ((s2.setObj (0x2808 + d) 4 (c.written dem d).floor.toNat).setObj (0x2808 + d) 5 w.2.2.floor.toNat).reportReserve d
    else s2) s1

/-- The last result of a take command (0x2221). -/
def State.takeResult (s : State) (l : List Nat) : State :=
  (l.zipIdx).foldl (fun s x => s.setObj 0x2221 (x.2 + 1) x.1) s

/-- The lowest take slot that no open, closing or admitted take holds (R142). -/
def State.takeSlot (s : State) : Nat :=
  ((List.range 8).map (· + 1)).find? (fun n =>
    !s.take.takes.any fun t => t.slot = n && (t.state = 1 || t.state = 4 || t.state = 5)) |>.getD 8

/-- A take as it is admitted. -/
def Take.admitted (nsid num slot boundary dur cov : Nat) (springs : List SpringDef) (a : TakeAsk) : Take :=
  { nsid := nsid, num := num, slot := slot, state := 5, springs := springs, openEpoch := boundary, closeEpoch := 0
    reason := 0, frames := [], recorded := [], records := [], written := 0, extents := [], extFill := 0, closeNs := 0
    ringBytes := 0, duration := dur, coverage := cov, minDuration := a.minimum, minima := [], lakeTake := a.lake
    sealTag := zeros 48, sealFlags := 0, firstTc := 0, lastTc := 0, flagged := 0, custodyOrdinal := 0 }

/-- The seep budget of the coming epoch, in bytes (R227): outside takes the greater of the floor and what the host left, the floor
alone under the governor's first action (R558); while a take is admitted or open (R137), what the host left of the die's margin, at least the minimum
seep. -/
def State.seepBudget (s : State) (d : Nat) : Nat :=
  let p := s.periodNs
  let host := (s.md d).hostPrev * 1000000000 / p
  let top := s.ceilingNow d
  let floor := top * s.obj 0x300B 0 / 100
  let rate :=
    if s.drawing ≠ [] then
      s.obj (0x2808 + d) 5
    else if 1 ≤ s.power.actions then floor
    else max floor (top - host)
  rate * p / 1000000000

/-- The seep budgets of this epoch follow an admission at once (R137). -/
def State.setBudgets (s : State) : State := s.dies.foldl (fun s d => s.setObj (0x3190 + d) 1 (s.seepBudget d)) s

/-- The pond minima of a take's springs that will stand higher at its boundary than they do now: port, spring, now and then. -/
def State.risingMinima (s c : State) (a : TakeAsk) : List (Nat × Nat × Nat × Nat) :=
  (c.asked a).flatMap fun p =>
    (s.portKeys.filter fun k => SpringDef.onPort p k ≠ 0 && s.reserved k p.spring < c.reserved k p.spring).map fun k =>
      (k, p.spring, s.reserved k p.spring, c.reserved k p.spring)

/-- The target of a spring in its port's pool. -/
def State.setMinimum (s : State) (k sp target : Nat) : State := (s.registerOwner (k / 4) (k % 4) (springOwner k sp) target).2

/-- The pond minima of an admitted take are set aside at acceptance (R137). -/
def State.setMinima (s : State) (nsid num : Nat) (l : List (Nat × Nat × Nat × Nat)) : State :=
  let s1 := l.foldl (fun s m => s.setMinimum m.1 m.2.1 m.2.2.2) s
  { s1 with take := { s1.take with takes := s1.take.takes.map fun t =>
    if t.nsid = nsid ∧ t.num = num then { t with minima := l.map fun m => (m.1, m.2.1, m.2.2.1) } else t } }

/-- An admitted take that does not open is released with what its admission set aside, its number among it (R137, R138). -/
def State.releaseTake (s : State) (t : Take) : State :=
  let left := s.take.takes.filter fun x => !(x.nsid = t.nsid && x.num = t.num)
  let last := ((left.filter fun x => x.nsid = t.nsid).map (·.num)).foldl Nat.max 0
  let s1 := t.minima.foldl (fun s m => s.setMinimum m.1 m.2.1 m.2.2) s
  { s1 with take := { s1.take with takes := left }
            host := { s1.host with nss := tmod s1.host.nss t.nsid fun n => { n with lastTake := if n.lastTake = t.num then last else n.lastTake } } }

/-- Every admitted take that has not opened is released. -/
def State.releaseAdmitted (s : State) : State :=
  (s.take.takes.filter fun t => t.state = 5).foldl (fun s t => s.releaseTake t) s

/-- Admission of an open accepted now, on the configuration `c` of its boundary (R137, R145): an admitted take is set
aside, a refused one is reported with EV P.10. -/
def State.openTake (s c : State) (a : TakeAsk) (boundary : Nat) (refused : Bool) : State :=
  let (code, place) := c.admission a refused
  let s1 := s.reportAdmission c a code
  if code = 0 then
    let num := s.nextTake a.nsid
    let dur := c.duration (c.drawGroups ++ [(a.nsid, c.asked a)])
    let cov := c.coverage (c.asked a)
    let t := Take.admitted a.nsid num s.takeSlot boundary dur cov (c.asked a) a
    let minima := s.risingMinima c a
    let s2 := { s1 with take := { s1.take with takes := s1.take.takes ++ [t] }
                        host := { s1.host with nss := tmod s1.host.nss a.nsid fun n => { n with lastTake := max n.lastTake num } } }
    ((s2.setMinima a.nsid num minima).setBudgets.bump 0x2228 1).takeResult [num, 1, 0, 0, dur, cov, s.epoch]
  else ((s1.bump 0x2228 2).takeResult [0, 2, code, place, 0, 0, s.epoch]).raise (evPkg 10) code

/-- The margin of a die with the faults that have happened (R143, R144): the ceiling that is left, and with cross-die protection the bands
of a lost die on their alternate ports. -/
def State.marginNow (s : State) (d : Nat) : Rat :=
  let lost := if s.obj 0x3000 0 = 0 then none else s.fault.failed.head?
  ((s.ceilingNow d : Nat) : Rat) - s.written (demand s.fault.lead s.drawingSprings lost) d

/-- The margins of the latest admission recomputed after a covered fault (R144): the seep budgets follow. -/
def State.recomputeMargins (s : State) : State :=
  if s.drawing.isEmpty then s
  else ((s.dies.filter s.healthy).foldl (fun s d => s.setObj (0x2808 + d) 5 (max 0 (s.marginNow d).floor).toNat) s).setBudgets

/-! ### Media of capture namespaces (R133, R134, R160 to R163) -/

/-- The first of k consecutive free coarse units from `start` on, given the units in use in rising order. -/
def freeRun (k : Nat) : Tab Nat → Nat → Nat
  | [], start => start
  | (u, _) :: t, start => if start + k ≤ u then start else freeRun k t (if start ≤ u then u + 1 else start)

/-- The lowest run of k free coarse units of a namespace outside its directory area. -/
def State.findUnits (s : State) (nsid k : Nat) : Option Nat :=
  match tget s.host.nss nsid with
  | none => none
  | some n =>
    let u := freeRun k n.units 5
    if u + k ≤ Ns.cus n then some u else none

/-- Bytes are written by the device into a capture namespace through the media manager of a die. -/
def State.captureWrite (s : State) (d nsid off : Nat) (bytes : List Nat) : State := s.deviceWrite d nsid off bytes

/-- The capture header of R161. -/
def State.captureHeader (s : State) (nsid lastTake policy : Nat) : List Nat :=
  let body := ascii "HK7CAPNS" ++ leBytes 2 1 ++ zeros 2 ++ leBytes 4 nsid ++ leBytes 4 cuBytes ++ leBytes 4 16 ++
    leBytes 4 2560 ++ leBytes 2 lastTake ++ [policy, 0] ++ leBytes 8 Config.packageSerial ++ leBytes 6 (s.obj 0x9000 0) ++ zeros 78
  body ++ leBytes 4 (crc32c body)

/-- The header of a capture namespace is written with the policy in force. -/
def State.writeHeader (s : State) (nsid : Nat) : State :=
  let used := ((tget s.host.nss nsid).map (·.lastTake)).getD 0
  let last := (s.take.takes.filter fun t => t.nsid = nsid && t.state = 5).foldl (fun m t => min m (t.num - 1)) used
  let s1 := s.captureWrite (s.unitDie nsid 0) nsid 0 (s.captureHeader nsid last (s.obj 0x2226 0))
  { s1 with host := { s1.host with nss := tmod s1.host.nss nsid fun n => { n with policy := s.obj 0x2226 0 } } }

/-- A directory entry (R162). -/
def Take.entry (t : Take) : List Nat :=
  let st := if t.state = 4 then 1 else t.state
  let ext := fun (u : Option Nat) => leBytes 8 (512 * u.getD 0)
  let body := [st, if t.state = 1 then 0 else t.reason] ++ leBytes 2 t.num ++ leBytes 4 (ofBits (t.springs.map (·.spring))) ++
    leBytes 6 t.openEpoch ++ leBytes 6 (if t.state = 1 then 0 else t.closeEpoch) ++ leBytes 4 t.records.length ++
    ext t.extents.head? ++ ext t.extents.getLast? ++ leBytes 8 (sum (t.records.map (·.length))) ++ [15 + t.slot, t.sealFlags] ++
    zeros 2 ++ leBytes 8 t.lakeTake ++ leBytes 4 t.duration ++ fit 48 t.sealTag ++ leBytes 4 t.firstTc ++ leBytes 4 t.lastTc ++ zeros 4
  body ++ leBytes 4 (crc32c body)

/-- The state with a take changed. -/
def State.modTake (s : State) (nsid num : Nat) (f : Take → Take) : State :=
  { s with take := { s.take with takes := s.take.takes.map fun t => if t.nsid = nsid ∧ t.num = num then f t else t } }

/-- A take by namespace and number. -/
def State.takeOf (s : State) (nsid num : Nat) : Option Take := s.take.takes.find? fun t => t.nsid = nsid && t.num = num

/-- A take's directory entry is written. -/
def State.writeTakeEntry (s : State) (nsid num : Nat) : State :=
  match s.takeOf nsid num with
  | none => s
  | some t =>
    let off := 65536 + 128 * (num - 1)
    s.captureWrite (s.unitDie nsid (off / cuBytes)) nsid off (Take.entry t)

/-- A new manifest extent on the lead's die, with its header (R163), and the directory entry anew. -/
def State.newExtent (s : State) (nsid num : Nat) : State :=
  match s.takeOf nsid num, s.findUnits nsid 1 with
  | some t, some u =>
    let prev := match t.extents.getLast? with
      | some p => 512 * p
      | none => 2 ^ 64 - 1
    let head := ascii "HK7MANEX" ++ leBytes 2 num ++ zeros 2 ++ leBytes 4 t.extents.length ++ leBytes 8 prev ++ leBytes 4 nsid ++ zeros 36
    let s1 := (s.setUnit nsid u s.fault.lead).captureWrite s.fault.lead nsid (u * cuBytes) head
    (s1.modTake nsid num fun t => { t with extents := t.extents ++ [u], extFill := 64 }).writeTakeEntry nsid num
  | _, _ => s

/-- A take's last extent has room for a record, which never crosses an extent (R163). -/
def Take.fits (t : Take) (r : List Nat) : Bool := t.extents ≠ [] && t.extFill + r.length ≤ cuBytes

/-- One record of a take goes to its last extent. -/
def State.writeRecord (s : State) (nsid num : Nat) (t : Take) (r : List Nat) : State :=
  let u := t.extents.getLast?.getD 0
  (s.captureWrite s.fault.lead nsid (u * cuBytes + t.extFill) r).modTake nsid num fun t =>
    { t with extFill := t.extFill + r.length, written := t.written + 1 }

/-- Records of a take are written in order; one that finds no room in the last extent goes to a new one, and it and those behind it
wait while the namespace has no unit for that. -/
def State.writeRecords (s : State) (nsid num : Nat) : List (List Nat) → State
  | [] => s
  | r :: rest =>
    let room := ((s.takeOf nsid num).map fun t => t.fits r).getD false
    let s1 := if room then s else s.newExtent nsid num
    match s1.takeOf nsid num with
    | none => s1
    | some t => if t.fits r then State.writeRecords (s1.writeRecord nsid num t r) nsid num rest else s1

/-- The manifest records of a take not yet on media are written. -/
def State.flushManifest (s : State) (nsid num : Nat) : State :=
  match s.takeOf nsid num with
  | none => s
  | some t => s.writeRecords nsid num (t.records.drop t.written)

/-- A record is appended to a take's manifest. -/
def State.appendRecord (s : State) (nsid num : Nat) (r : List Nat) : State :=
  s.modTake nsid num fun t => { t with records := t.records ++ [r] }

/-! ### Opening (R138, R161, R162, R164, R167) -/

/-- The take-open record. -/
def State.openRecord (s : State) (t : Take) : List Nat :=
  [3, t.slot] ++ leBytes 2 t.num ++ zeros 2 ++ leBytes 2 64 ++ leBytes 4 t.nsid ++ leBytes 4 (ofBits (t.springs.map (·.spring))) ++
    leBytes 6 t.openEpoch ++ leBytes 4 t.duration ++ [t.coverage, s.obj 0x2226 0] ++ leBytes 4 s.time.timecode ++
    leBytes 8 Config.packageSerial ++ leBytes 6 (s.obj 0x9000 0) ++ zeros 2 ++ leBytes 8 t.lakeTake ++ zeros 8

/-- The spring record. -/
def SpringDef.record (p : SpringDef) : List Nat :=
  [6, p.spring, p.kind, p.packing + 16 * p.justify, p.nbands, 0] ++ leBytes 2 32 ++ leBytes 8 p.rate ++ leBytes 4 p.maxLen ++ zeros 12

/-- The take slots as 0x2223 reports them. -/
def State.reportSlots (s : State) : State :=
  (List.range 8).foldl (fun s n =>
    let v := match s.take.takes.find? fun t => t.slot = n + 1 && (t.state = 1 || t.state = 4) with
      | some t => t.nsid * 2 ^ 32 + t.num * 65536 + (if t.state = 1 then 1 else 2)
      | none => 0
    s.setObj 0x2223 (n + 1) v) s

/-- An admitted take opens at its boundary: header, directory entry, first records, filter tasks, the take key, EV P.08. -/
def State.applyOpen (s : State) (nsid num : Nat) : State :=
  match s.takeOf nsid num with
  | none => s
  | some t0 =>
    let t := { t0 with state := 1, openEpoch := s.epoch, springs := t0.springs.map fun p => s.springDef p.spring }
    let s1 := (s.modTake nsid num fun _ => t).writeHeader nsid
    let recs := s.openRecord t :: t.springs.map SpringDef.record
    let s2 := recs.foldl (fun s r => s.appendRecord nsid num r) s1
    let s3 := (s2.flushManifest nsid num).writeTakeEntry nsid num
    let key := s.takeKey nsid num s.epoch
    let keys := match key with
      | some k => tset s3.secure.takeKeys t.slot k
      | none => tdel s3.secure.takeKeys t.slot
    let s4 : State := { s3 with secure := { s3.secure with takeKeys := keys } }
    ((s4.createFilters nsid num t.springs).reportSlots).raise (evPkg 8) num

/-- Every admitted take whose boundary this is opens. -/
def State.applyOpens (s : State) : State :=
  (s.take.takes.filter fun t => t.state = 5 && atOrAhead s.epoch t.openEpoch).foldl (fun s t => s.applyOpen t.nsid t.num) s

/-! ### Closing, aborting and deleting (R139 to R141, R150, R168) -/

/-- Stored bytes of a frame's bands that were given a place, by coarse unit. -/
def bandUnits (off len : Nat) : List Nat :=
  if len = 0 then [] else (List.range ((off + len - 1) / cuBytes - off / cuBytes + 1)).map (· + off / cuBytes)

/-- Coarse units of a namespace are deallocated, and staged writes of them dropped. -/
def State.freeUnitsOf (s : State) (nsid : Nat) (units : List Nat) : State :=
  units.foldl (fun s u =>
    let d := s.unitDie nsid u
    let s1 := ((s.md d).staged.filter fun x => x.nsid = nsid && x.unit = u).foldl (fun s x => s.unstage d x) s
    s1.unmapUnit d nsid u) s

/-- A frame that is not to be recorded goes: its units are released, its ring space is free, its filters miss it. -/
def State.dropFrame (s : State) (nsid num : Nat) (f : Frame) : State :=
  let placed := f.bands.flatMap fun b => if f.complete then bandUnits b.offset b.stored.length else []
  let reserved := f.segs.flatMap fun g => (List.range g.units).map (· + g.unit)
  let s1 := s.missEverywhere nsid num f.spring f.frame
  let s2 := s1.reclaimFrame nsid num f.spring f.frame
  let s3 := s2.freeUnitsOf nsid (placed ++ reserved).eraseDups
  s3.modTake nsid num fun t => { t with frames := t.frames.filter fun x => !(x.spring = f.spring && x.frame = f.frame) }

/-- A take closes at this boundary: frames of later epochs leave it, the others complete (R139); EV P.12 for reasons 1 to 3 (R168, R170).
DESIGN CHOICE: those are the takes that 0x2228:03 counts as ended early; an abort and a take sealed at bring-up are not (log entry 221). -/
def State.applyClose (s : State) (nsid num reason : Nat) : State :=
  match s.takeOf nsid num with
  | none => s
  | some t =>
    if t.state ≠ 1 then s
    else
      let later := t.frames.filter fun f => f.stamped && atOrAhead f.epoch s.epoch
      let s1 := later.foldl (fun s f => s.dropFrame nsid num f) s
      let s2 := s1.modTake nsid num fun t =>
        { t with state := 4, reason := reason, closeEpoch := s.epoch, closeNs := s.time.now }
      let s3 := if reason = 0 ∨ reason = 4 then s2 else s2.bump 0x2228 3
      let s4 := if 1 ≤ reason ∧ reason ≤ 3 then s3.raise (evPkg 12) num else s3
      s4.reportSlots

/-- The take that a command names: in the namespace of 0x2220:03 if it has such a take, else in any. -/
def State.namedTake (s : State) (num : Nat) (ok : Take → Bool) : Option Take :=
  let l := s.take.takes.filter fun t => t.num = num && ok t
  (l.find? fun t => t.nsid = s.obj 0x2220 3).or l.head?

/-- The coarse units of a recorded frame entry's bands. -/
def entryUnits (r : List Nat) : List Nat :=
  ((List.range (field r 5 1)).flatMap fun k =>
    let b := slice (64 + 48 * k) 48 r
    bandUnits (field b 32 8) (field b 40 4)).eraseDups

/-- A delete at its boundary (R141): the segments and manifest of a closed take are deallocated; refused for an open
take and under the sealed-capture policy. -/
def State.applyDelete (s : State) (num : Nat) : State :=
  match s.namedTake num fun t => t.state = 2 with
  | some t =>
    if s.obj 0x2226 0 = 1 then s.takeResult [num, 5, 0, 0, 0, 0, s.epoch]
    else
      let frames := t.records.filter fun r => r.headD 0 = 1
      let units := (frames.flatMap entryUnits).eraseDups ++ t.extents
      let s1 := s.freeUnitsOf t.nsid units
      let s2 := s1.modTake t.nsid num fun t => { t with state := 3 }
      (s2.writeTakeEntry t.nsid num).takeResult [num, 4, 0, 0, 0, 0, s.epoch]
  | none =>
    if s.obj 0x2226 0 = 1 ∨ (s.namedTake num fun t => t.state = 1 || t.state = 4).isSome then
      s.takeResult [num, 5, 0, 0, 0, 0, s.epoch]
    else s

/-- A take is to close at the next boundary that R52 permits, and for reasons 2 and 3 at the next epoch boundary (R168). -/
def State.closeLater (s : State) (t : Take) (reason : Nat) : State :=
  let due := if reason = 2 ∨ reason = 3 then wrap48 (s.epoch + 1) else s.permitted
  let same := fun (c : Nat × Nat × Nat × Nat) => c.1 == t.nsid && c.2.1 == t.num
  let sooner := (s.take.closing.find? same).all fun c => aheadOf due s.epoch < aheadOf c.2.2.2 s.epoch
  if !sooner then s
  else { s with take := { s.take with closing := (s.take.closing.filter fun c => !same c) ++ [(t.nsid, t.num, reason, due)] } }

/-- Every open take is to close (R150, R168). -/
def State.closeAllLater (s : State) (reason : Nat) : State :=
  (s.take.takes.filter fun t => t.state = 1).foldl (fun s t => s.closeLater t reason) s

/-- The closings whose boundary this is. -/
def State.applyClosings (s : State) : State :=
  let (due, rest) := s.take.closing.partition fun c => atOrAhead s.epoch c.2.2.2
  due.foldl (fun s c => s.applyClose c.1 c.2.1 c.2.2.1) { s with take := { s.take with closing := rest } }

/-- A take records frames: it is open, or closing and not aborted (R139, R140). -/
def Take.recording (t : Take) : Bool := t.state = 1 || (t.state = 4 && t.reason ≠ 4)

/-- The local ports of a take's bands, by key: those that its entries and its alternates name (R130). -/
def Take.ports (t : Take) : List Nat :=
  ((t.springs.flatMap fun p => p.ports ++ p.alternates).filter (· < 32)).eraseDups

/-- Bands of a spring in progress go, and the buffers that hold their cells are put back: those of the frames that `which` names. -/
def State.dropBands (s : State) (sp : Nat) (which : Nat → Bool) : State :=
  s.inflow.ports.foldl (fun s p =>
    let gone := p.2.held.filter fun h => h.spring = sp && which h.frame
    let s1 := match s.port p.1 with
      | some q => s.setPort p.1 { q with bands := q.bands.filter fun b => !(b.spring = sp && which b.frame)
                                         held := q.held.filter fun h => !(h.spring = sp && which h.frame) }
      | none => s
    gone.foldl (fun s h => (s.pondPut (springOwner p.1 sp) h.handle).2) s1) s

/-- A take that is aborted has the bands in progress of a spring for a frame: it has the frame, or no other take that records frames has
the spring. -/
def State.clearsBands (s : State) (t : Take) (sp frame : Nat) : Bool :=
  t.frames.any (fun f => f.spring = sp && f.frame = frame) ||
    !s.take.takes.any fun x => (x.nsid, x.num) ≠ (t.nsid, t.num) && (x.state = 1 || (x.state = 4 && x.reason ≠ 4)) &&
      x.springs.any fun p => p.spring = sp

/-- Take abort (R140): at once, frames not recorded and bands in progress go with their buffers; under the
sealed-capture policy the take closes instead at the next permitted boundary. -/
def State.abortTake (s : State) (num : Nat) : State :=
  match s.namedTake num fun t => t.state = 1 || t.state = 4 with
  | none => s
  | some t =>
    if s.obj 0x2226 0 = 1 then s.closeLater t 0
    else
      let s1 := t.frames.foldl (fun s f => s.dropFrame t.nsid num f) s
      let s2 := t.springs.foldl (fun s p => s.dropBands p.spring (s.clearsBands t p.spring)) s1
      let s3 := s2.modTake t.nsid num fun t => { t with state := 4, reason := 4, closeEpoch := s.epoch, closeNs := s.time.now }
      (s3.countReset 12 num).reportSlots

/-! ### Recording (R153 to R156, R164 to R166) -/

/-- A band record (R166). -/
def BandRec.bytes (b : BandRec) : List Nat :=
  fit 32 b.digest ++ leBytes 8 b.offset ++ leBytes 4 b.stored.length ++ [b.die, b.flags] ++ leBytes 2 b.num

/-- Bands of a spring are sent to lake members, or the take is a part of a lake take (R130, R132). -/
def Take.onLake (t : Take) (spring : Nat) : Bool :=
  t.lakeTake ≠ 0 || t.springs.any fun p => p.spring = spring && p.ports.any lakePort

/-- A frame entry's flags (R155) for the bands it holds; `lake` says that other bands are on lake members. -/
def Frame.flags (f : Frame) (bands : List BandRec) (lake : Bool) : Nat :=
  let any := fun k => b2n (bands.any fun b => bitOf b.flags k)
  any 0 + 2 * any 1 + 4 * b2n f.late + 8 * any 2 + 16 * b2n f.filterSkipped + 32 * b2n f.deviceTimed +
    64 * b2n f.replaced + 128 * any 4 + 256 * any 3 + 512 * b2n (lake && bands.length < f.nbands)

/-- A frame entry (R156, R165). -/
def Frame.entry (f : Frame) (bands : List BandRec) (flags : Nat) : List Nat :=
  [1, f.nbands] ++ leBytes 2 flags ++ [f.spring, bands.length] ++ leBytes 2 (64 + 48 * bands.length) ++
    leBytes 4 f.frame ++ leBytes 6 f.epoch ++ leBytes 2 f.phase ++ leBytes 6 f.aEpoch ++ leBytes 2 f.aPhase ++
    leBytes 4 f.timecode ++ sha256 (bands.flatMap (·.digest)) ++ bands.flatMap BandRec.bytes

/-- A frame is recorded: its entry enters the manifest (R153), flags are counted, EV P.13 is raised once per epoch for
LATE or MISSING_BAND. `mask` holds the bands committed; the other own bands are released. -/
def State.recordFrame (s : State) (nsid num : Nat) (f : Frame) (mask : Nat) : State :=
  let bands := f.bands.filter fun b => bitOf mask b.num
  let gone := f.bands.filter fun b => !bitOf mask b.num
  let kept := bands.flatMap fun b => bandUnits b.offset b.stored.length
  let free := ((gone.flatMap fun b => bandUnits b.offset b.stored.length).filter fun u => !kept.contains u).eraseDups
  let lake := ((s.takeOf nsid num).map fun t => t.onLake f.spring).getD false
  let flags := Frame.flags f bands lake
  let s1 := (s.freeUnitsOf nsid free).appendRecord nsid num (Frame.entry f bands flags)
  let s2 := s1.modTake nsid num fun t =>
    { t with recorded := t.recorded ++ [(f.spring, f.frame)], flagged := t.flagged + b2n (flags ≠ 0)
             firstTc := if t.recorded.isEmpty then f.timecode else t.firstTc, lastTc := f.timecode
             frames := t.frames.filter fun x => !(x.spring = f.spring && x.frame = f.frame) }
  let s3 := ((List.range 10).filter (bitOf flags)).foldl (fun s k => s.bump 0x2229 (k + 1)) (s2.bump 0x2228 4)
  let s4 := s3.flushManifest nsid num
  if bitOf flags 2 ∨ bitOf flags 3 then s4.raiseOnce (evPkg 13) 0 0 else s4

/-- A complete frame whose bands are durable and whose filters are settled can be recorded (R153, R394). -/
def Frame.settled (f : Frame) : Bool := f.complete && f.waiting.isEmpty && f.filtersOpen = 0

/-! ### Sealing (R139, R157, R158) -/

/-- Frame numbers of a spring that were skipped between the first and the last recorded. -/
def gapsOf (frames : List Nat) : Nat :=
  match frames with
  | [] => 0
  | f :: t =>
    let lo := t.foldl min f
    let hi := t.foldl max f
    hi - lo + 1 - frames.eraseDups.length

/-- Gaps of a take, over its springs. -/
def Take.gaps (t : Take) : Nat :=
  sum (t.springs.map fun p => gapsOf ((t.recorded.filter fun r => r.1 = p.spring).map (·.2)))

/-- The take-end record (R167). -/
def State.endRecordOf (s : State) (t : Take) : List Nat :=
  [4, t.reason] ++ leBytes 2 t.num ++ zeros 2 ++ leBytes 2 64 ++ leBytes 6 t.closeEpoch ++ leBytes 4 t.recorded.length ++
    leBytes 4 t.flagged ++ leBytes 4 (Take.gaps t) ++ leBytes 4 (s.obj 0x2224 0) ++ leBytes 4 s.time.timecode ++ zeros 30

/-- TAKE END goes to every port that the take used (R122); none for reason 5. -/
def State.sendTakeEnd (s : State) (t : Take) : State :=
  if t.reason = 5 then s
  else (Take.ports t).foldl (fun s k =>
    s.sendControl k 0x23 (leBytes 2 t.num ++ [t.reason] ++ leBytes 6 (wrap48 (t.closeEpoch + 2 ^ 48 - 1)))) s

/-- A closing take becomes closed (R158): frames that are not recorded are released, the take-end record and every
pending record are written, the seal and the directory entry follow, and the custody slot is extended. -/
def State.sealTake (s : State) (nsid num : Nat) : State :=
  match s.takeOf nsid num with
  | none => s
  | some t0 =>
    let s0 := t0.frames.foldl (fun s f => s.dropFrame nsid num f) s
    let s1 := (s0.appendRecord nsid num (s.endRecordOf t0)).flushManifest nsid num
    match s1.takeOf nsid num with
    | none => s1
    | some t =>
      let tag := (tget s.secure.takeKeys t.slot).map fun k => hmac384 k t.records.flatten
      let t' := { t with state := 2, sealTag := tag.getD (zeros 48), sealFlags := if tag.isSome then 1 else 2 }
      let s2 := (s1.modTake nsid num fun _ => t').writeTakeEntry nsid num
      let s3 := s2.extend (15 + t.slot) 2 (Take.entry t')
      let ordinal := (s3.measure (15 + t.slot)).count
      let s4 := s3.modTake nsid num fun t => { t with custodyOrdinal := ordinal }
      let s5 := { s4 with secure := { s4.secure with takeKeys := tdel s4.secure.takeKeys t.slot } }
      let s6 := ((s5.addObj 0x2228 6 (Take.gaps t0)).setDom 0x222A 0 (s.endRecordOf t0)).reportSlots
      let s7 := if t.reason = 0 then s6.takeResult [num, 3, 0, 0, s.obj 0x2224 0, t.coverage, s.epoch] else s6
      let s8 := (s7.sendTakeEnd t').raise (evPkg 9) num
      (if tag.isSome then s8 else s8.raise (evPkg 14) num).endFilters

/-- A closing take may be sealed: no frame of it is left to complete, or the band-end timeout has passed since its
boundary (R139). -/
def State.sealable (s : State) (t : Take) : Bool :=
  t.state = 4 && (t.frames.isEmpty || t.closeNs + s.obj 0x2101 0 * 1000000 ≤ s.time.now)

/-! ### The guaranteed duration (R149, R150) -/

/-- RESERVE goes to a port for every open take that uses it (R120, R122); the first that carries a level of 1 raises EV P.11 (R170). -/
def State.sendReserve (s : State) (k : Nat) : State :=
  let mine := s.take.takes.filter fun t => t.state = 1 && (Take.ports t).contains k
  let s1 := mine.foldl (fun s t => s.sendControl k 0x22 (leBytes 2 t.num ++ leBytes 4 (s.obj 0x2224 0) ++ [s.obj 0x2225 0, 0])) s
  if s.obj 0x2225 0 = 1 ∧ !s.take.levelTold ∧ mine ≠ [] ∧ ((s.port k).map (·.up)).getD false then
    ({ s1 with take := { s1.take with levelTold := true } } : State).raise (evPkg 11) 0
  else s1

/-- The reserve level changes: RESERVE goes out at once on the ports that open takes use. -/
def State.setReserveLevel (s : State) (level : Nat) : State :=
  if s.obj 0x2225 0 = level then s
  else
    let s1 : State := { s.setObj 0x2225 0 level with take := { s.take with levelTold := false } }
    let ports := ((s.take.takes.filter fun t => t.state = 1).flatMap Take.ports).eraseDups
    ports.foldl State.sendReserve s1

/-- The reserve of a take's namespace is gone with its own space (R150). -/
def State.nsGone (s : State) (t : Take) : Bool := s.nsFree t.nsid = 0

/-- The guaranteed duration is computed anew (R149); an exhausted reserve closes every open take (R150). -/
def State.recomputeDuration (s : State) : State :=
  if s.drawing.isEmpty then { (s.setReserveLevel 0).setObj 0x2224 0 0 with take := { s.take with lastCompute := s.time.now } }
  else
    let dur := s.duration s.drawGroups
    let gone := (s.exhausted s.drawingSprings).isSome
    let s1 := { (s.setObj 0x2224 0 (if gone then 0 else dur)) with take := { s.take with lastCompute := s.time.now } }
    if gone then (s1.setReserveLevel 2).closeAllLater 1
    else
      let s2 := s1.setReserveLevel (if dur ≤ s.obj 0x2222 4 then 1 else 0)
      (s.take.takes.filter fun t => t.state = 1 && s.nsGone t).foldl (fun s t => s.closeLater t 1) s2

/-- At a boundary the duration is recomputed a second after the last time, and at every open or close. -/
def State.boundaryDuration (s before : State) : State :=
  let open' := fun (x : State) => (x.take.takes.filter fun t => t.state = 1).map fun t => (t.nsid, t.num)
  if open' s ≠ open' before ∨ s.take.lastCompute + 1000000000 ≤ s.time.now then s.recomputeDuration else s

/-- RESERVE_SEND (R122): RESERVE goes to a port that an open take uses. -/
def execReserveSend (die first : Nat) (s : State) : Res :=
  onLane s die first fun _ =>
    if s.take.takes.any fun t => t.state = 1 && (Take.ports t).contains (4 * die + first) then
      .next (s.sendReserve (4 * die + first))
    else .next s

end Sys2Proof.Machine
end

