-- ==== Sys2Proof/Machine/Bands.lean ====
section
/-!
DEFINITION. Bands and frames (R104 to R108, R123, R124, R134, R148, R151, R152): the staging ring, the completion of a
band and of a frame.
-/

namespace Sys2Proof.Machine

/-! ### The staging ring (R151, R394) -/

/-- A die's ring has taken bytes: high-water mark, and EV d.032 as it passes the warning. -/
def State.noteRing (s : State) (d : Nat) : State :=
  let used := s.ringUsed d
  let s1 := s.highWater (0x2800 + d) 3 used
  let above := ringBytes * s.obj 0x2222 5 < used * 100
  if above ∧ !s.take.ringWarned.contains d then
    ({ s1 with take := { s1.take with ringWarned := d :: s1.take.ringWarned } } : State).raise (evDie d 32) used
  else s1

/-- Every frame whose durable bands the ring of a die keeps for filters. -/
def State.heldFrames (s : State) (d : Nat) : List (Nat × Nat × Frame) :=
  s.take.takes.flatMap fun t => (t.frames.filter fun f => f.ringHeld.any fun r => r.1 = d).map fun f => (t.nsid, t.num, f)

/-- The ring takes space of durable bands: their frames miss in every filter that has them in hand (R394). -/
def State.takeBack (s : State) (d n : Nat) : State :=
  (s.heldFrames d).foldl (fun s h =>
    if s.ringUsed d + n ≤ ringBytes then s
    else ((s.countReclaimed h.1 h.2.1 h.2.2.spring h.2.2.frame).missEverywhere h.1 h.2.1 h.2.2.spring h.2.2.frame).reclaimFrame h.1 h.2.1 h.2.2.spring h.2.2.frame) s

/-- A die's ring has room for bytes; one that is full stops taking buffers, with EV d.033. -/
def State.intoRing (s : State) (d n : Nat) : Bool × State :=
  let s1 := if s.ringUsed d + n ≤ ringBytes then s else s.takeBack d n
  if s1.ringUsed d + n ≤ ringBytes then (true, s1)
  else if s1.inflow.ports.any fun p => p.1 / 4 = d && p.2.held ≠ [] then (false, s1)
  else (false, (s1.bump (0x2800 + d) 4).raise (evDie d 33) 0)

/-- The warning of a ring that fell below its mark again is re-armed. -/
def State.ringFell (s : State) : State :=
  let still := s.take.ringWarned.filter fun d => ringBytes * s.obj 0x2222 5 < s.ringUsed d * 100
  { s with take := { s.take with ringWarned := still } }

/-- The cell of a buffer that enters the ring after its band is complete adds to the band's ring bytes, up to those stored. -/
def State.enterLate (s : State) (d : Nat) (h : HeldCell) : State :=
  let upd := fun r : BandRec => if r.num = h.band ∧ r.die = d then { r with ring := min r.stored.length (r.ring + h.bytes) } else r
  { s with take := { s.take with takes := s.take.takes.map fun t => { t with frames := t.frames.map fun f =>
    if f.spring = h.spring ∧ f.frame = h.frame ∧ (!f.complete ∨ f.waiting.contains d) then { f with bands := f.bands.map upd } else f } } }

/-- Buffers that wait for ring space enter it while it has room, and go back to the pond. -/
def State.drainPort (s : State) (k : Nat) : Nat → State
  | 0 => s
  | n + 1 =>
    match s.port k with
    | none => s
    | some p =>
      match p.held with
      | [] => s
      | h :: rest =>
        if ringBytes < s.ringUsed (k / 4) + h.bytes then s
        else
          let s1 := ((s.setPort k { p with held := rest }).enterLate (k / 4) h).noteRing (k / 4)
          State.drainPort (s1.pondPut (springOwner k h.spring) h.handle).2 k n

/-- A program in native mode: the journal and power-loss commits run in SLC mode (R240, R253, R262). -/
def OpKind.isNative : OpKind → Bool
  | .journal _ => false
  | .commit _ => false
  | _ => true

/-! ### Frames -/

/-- An epoch lies in a take (R138, R139). -/
def Take.holds (t : Take) (epoch : Nat) : Bool :=
  atOrAhead epoch t.openEpoch && (t.state = 1 || !atOrAhead epoch t.closeEpoch)

/-- The take that a frame of a spring belongs to by its epoch (R138, R139). -/
def State.takeFor (s : State) (spring epoch : Nat) : Option Take :=
  s.take.takes.find? fun t =>
    t.recording && t.springs.any (fun p => p.spring = spring) && t.holds epoch

/-- A spring belongs to a take that records frames. -/
def State.inTake (s : State) (spring : Nat) : Bool :=
  s.take.takes.any fun t => t.recording && t.springs.any fun p => p.spring = spring

/-- The take and frame that are under way for a spring's frame number. -/
def State.findFrame (s : State) (spring frame : Nat) : Option (Take × Frame) :=
  s.take.takes.findSome? fun t =>
    if t.recording then
      (t.frames.find? fun f => f.spring = spring && f.frame = frame).map fun f => (t, f)
    else none

/-- A frame number already recorded in a take under way (R154). -/
def State.isRecorded (s : State) (spring frame : Nat) : Bool :=
  s.take.takes.any fun t => t.recording && t.recorded.contains (spring, frame)

/-- A new frame of a spring (R152). DESIGN CHOICE: AEPOCH and APHASE of a frame whose marker never comes stay 0, as R165 states no value for
them (log entry 216). -/
def Frame.fresh (spring frame nbands epoch phase now : Nat) : Frame :=
  { spring := spring, frame := frame, epoch := epoch, phase := phase, aEpoch := 0, aPhase := 0, cEpoch := 0, cPhase := 0
    starts := [], stamped := false
    replaced := false, nbands := nbands, timecode := 0, since := now, bands := [], segs := [], missing := [], complete := false
    waiting := [], late := false, filterSkipped := false, filtersOpen := 0, ringHeld := [], deviceTimed := false
    committed := none, offered := 0 }

/-- A frame starts in a take, with its filters (R391). -/
def State.startFrame (s : State) (t : Take) (f : Frame) : State :=
  let s1 := s.modTake t.nsid t.num fun t => { t with frames := t.frames ++ [f] }
  match Take.springDef t f.spring with
  | some p => s1.startFilters t.nsid t.num f.frame p
  | none => s1

/-- A frame's missing bands (R152): stored length 0, the digest of the empty message. Their offset is not stated: a free
value. -/
def State.addMissing (s : State) (t : Take) (f : Frame) (p : SpringDef) : State :=
  let gone := (localBands p f.nbands).filter fun b => !f.bands.any fun r => r.num = b
  gone.foldl (fun s b =>
    let d := p.ports.getD b 0 / 4
    let r : BandRec := ⟨b, d, 4, [], sha256 [], s.freeValue % 2 ^ 64, 0⟩
    ((s.useFree).modFrame t.nsid t.num f.spring f.frame fun f =>
      { f with bands := f.bands ++ [r], missing := f.missing ++ [b] }).bump (0x2810 + d) 4) s

/-- Band records in band order. -/
def sortBands (l : List BandRec) : List BandRec := (List.range 64).flatMap fun b => l.filter fun r => r.num = b

/-- Bands of a segment with their offsets from its first byte on. -/
def placeBands : Nat → List BandRec → List BandRec
  | _, [] => []
  | off, b :: t => { b with offset := off } :: placeBands (off + b.stored.length) t

/-- Coarse units of a frame's segment are programmed, from the unit `from'` of it on. -/
def State.issueSegment (s : State) (nsid num spring frame d unit from' n bytes : Nat) : State :=
  let r := (List.range n).foldl (fun (a : State × List (Nat × Nat × Nat)) i =>
    let x := (a.1.setUnit nsid (unit + from' + i) d).allocateCoarse d
    (x.1, a.2 ++ [(unit + from' + i, x.2)])) (s, [])
  let first := (r.2.headD (0, 0, 0)).2
  if n = 0 then s else r.1.issueOp d (.frameSegment nsid num spring frame bytes r.2) (n * cuBytes) first.1 first.2

/-- The coarse units of a frame's segment that are filled by bytes at hand are programmed while the frame still comes in, so that the ring
drains (R147, R151). DESIGN CHOICE: a unit is programmed as soon as its bytes are there; the segment has as many units as its bands can fill
(log entry 217). -/
def State.drainFrame (s : State) (spring frame d : Nat) : State :=
  match s.findFrame spring frame with
  | none => s
  | some (t, f) =>
    match Take.springDef t spring with
    | none => s
    | some p =>
      let whole := (s.segPrefix p f d).length / cuBytes
      if f.complete ∨ whole = 0 then s
      else
        let put := fun (s : State) (g : FrameSeg) =>
          s.modFrame t.nsid t.num spring frame fun f => { f with segs := (f.segs.filter fun x => x.die ≠ d) ++ [g] }
        match f.segs.find? fun g => g.die = d with
        | some g =>
          (put s { g with issued := max g.issued whole }).issueSegment t.nsid t.num spring frame d g.unit g.issued (whole - g.issued)
            ((whole - g.issued) * cuBytes)
        | none =>
          let k := ceilDiv (s.segMost p f d) cuBytes
          match s.findUnits t.nsid k with
          | none => s
          | some u =>
            let s1 := (List.range k).foldl (fun s i => s.setUnit t.nsid (u + i) d) s
            (put s1 ⟨d, u, k, whole, 0, 0⟩).issueSegment t.nsid t.num spring frame d u 0 whole (whole * cuBytes)

/-- A die writes its segment of a complete frame (R134): consecutive coarse units of the namespace on that die, the bands one
after the other; those that were programmed while the frame came in stand. A namespace with no room loses the frame and closes its take
(R150). DESIGN CHOICE: a band without stored bytes has offset 0 in its record, as R166 states none for it (log entry 218). -/
def State.writeSegment (s : State) (t : Take) (p : SpringDef) (frame d : Nat) : State :=
  match s.frameOf t.nsid t.num p.spring frame with
  | none => s
  | some f =>
    let mine := (sortBands f.bands).filter fun b => b.die = d && b.stored ≠ []
    let bytes := sum (mine.map (·.stored.length))
    let k := ceilDiv bytes cuBytes
    let moved := mine.any fun b => p.ports.getD b.num 0 / 4 ≠ d
    let put := fun (s : State) (g : FrameSeg) =>
      let placed := placeBands (g.unit * cuBytes) mine
      s.modFrame t.nsid t.num p.spring frame fun f =>
        { f with segs := (f.segs.filter fun x => x.die ≠ d) ++ [g]
                 bands := f.bands.map fun b => (placed.find? fun x => x.num = b.num).getD b }
    let units := fun (g : FrameSeg) (from' : Nat) => (List.range (g.units - from')).map fun i => g.unit + from' + i
    let old := f.segs.find? fun g => g.die = d
    let stale := if k = 0 ∨ moved then old else none
    let s0 := match stale with
      | some g => (s.freeUnitsOf t.nsid (units g 0)).modFrame t.nsid t.num p.spring frame fun f =>
        { f with segs := f.segs.filter fun x => x.die ≠ d }
      | none => s
    if k = 0 then s0
    else
      match if moved then none else old with
      | some g =>
        let s1 := put (s0.freeUnitsOf t.nsid (units g k)) { g with units := k, issued := k }
        if g.issued < k then s1.issueSegment t.nsid t.num p.spring frame d g.unit g.issued (k - g.issued) (bytes - g.issued * cuBytes)
        else s1.segmentDurable d t.nsid t.num p.spring frame 0 0
      | none =>
        match s0.findUnits t.nsid k with
        | none => (s0.dropFrame t.nsid t.num f).closeLater t 1
        | some u => (put s0 ⟨d, u, k, k, 0, 0⟩).issueSegment t.nsid t.num p.spring frame d u 0 k bytes

/-- The device timecode of an epoch (R56): the label at its start where it is kept, else the present one. -/
def State.timecodeAt (s : State) (epoch : Nat) : Nat := tgetD s.time.tcLog epoch s.time.timecode

/-- A frame is complete (R152): missing bands are named, LATE is judged (R155), a frame without camera timecode takes
the device's of its epoch (R56), filters' deadlines run from now, and each die writes its segment. A frame whose epoch turns out to lie
outside its take belongs to none (R138, R139). -/
def State.completeFrame (s : State) (t : Take) (spring frame : Nat) : State :=
  match s.frameOf t.nsid t.num spring frame, Take.springDef t spring with
  | some f, some p =>
    if f.complete then s
    else if !(((s.takeOf t.nsid t.num).map fun t => t.holds f.epoch).getD false) then s.dropFrame t.nsid t.num f
    else
      let s0 := s.updateTimecode
      let late := p.lateLimit * ratDen p.rate * 1000000000 < (s.time.now - f.since) * ratNum p.rate
      let timed := f.timecode / 64 % 4 = 0
      let dies := (s0.dies.filter fun d => f.bands.any fun b => b.die = d && b.stored ≠ [])
      let s1 := (s0.addMissing t f p).modFrame t.nsid t.num spring frame fun f =>
        { f with complete := true, late := late, deviceTimed := timed, waiting := dies
                 timecode := if timed then s0.timecodeAt f.epoch else f.timecode, bands := sortBands f.bands }
      let s2 := s1.setDeadlines t.nsid t.num spring frame
      s.dies.foldl (fun s d => s.writeSegment t p frame d) s2
  | _, _ => s

/-- Every local band of a frame is complete: the frame is. -/
def State.checkFrame (s : State) (spring frame : Nat) : State :=
  match s.findFrame spring frame with
  | none => s
  | some (t, f) =>
    match Take.springDef t spring with
    | none => s
    | some p =>
      if f.nbands ≠ 0 ∧ (localBands p f.nbands).all fun b => f.bands.any fun r => r.num = b then
        s.completeFrame t spring frame
      else s

/-! ### Bands (R123, R124, R135, R148, R156) -/

/-- A band in progress on a port. -/
def Port.band (p : Port) (spring frame band : Nat) : Option Band :=
  p.bands.find? fun b => b.spring = spring && b.frame = frame && b.band = band

/-- The port with a band in progress set. -/
def Port.setBand (p : Port) (b : Band) : Port :=
  { p with bands := (p.bands.filter fun x => !(x.spring = b.spring && x.frame = b.frame && x.band = b.band)) ++ [b] }

/-- The port without a band in progress. -/
def Port.dropBand (p : Port) (b : Band) : Port :=
  { p with bands := p.bands.filter fun x => !(x.spring = b.spring && x.frame = b.frame && x.band = b.band) }

/-- Data cells other than the last that came short of 240 bytes (R105). -/
def Band.shortCells (b : Band) : Nat :=
  let n := (Band.highest b)
  (b.cells.filter fun c => c.1 < n && c.2.length < 240).length

/-- A band whose frame is in no take, or that never started, is discarded with its ring space and buffers, and its cells are counted (R103, R124). -/
def State.discardBand (s : State) (k : Nat) (b : Band) : State :=
  match s.port k with
  | none => s
  | some p =>
    let mine := fun h : HeldCell => h.spring = b.spring && h.frame = b.frame && h.band = b.band
    let s1 := s.setPort k { Port.dropBand p b with held := p.held.filter fun h => !mine h }
    let s2 := (p.held.filter mine).foldl (fun s h => (s.pondPut (springOwner k h.spring) h.handle).2) s1
    s2.ringFell.addObj 0x210C 0 (Band.cellCount b)

/-- The trailer differs from what was received (R124). -/
def Band.differs (b : Band) : Bool :=
  match b.trailer with
  | some (sent, n, _) => sent ≠ (Band.received b) || n ≠ (Band.highest b)
  | none => false

/-- The flags of a band record (R166) for a band judged against its declared length. -/
def bandFlags (short long timeout overflow alternate : Bool) : Nat :=
  b2n short + 2 * b2n long + 8 * b2n timeout + 16 * b2n overflow + 32 * b2n alternate

/-- What a completed band adds to counters and events (R123, R124, R135, R171). -/
def State.countBand (s : State) (d : Nat) (b : Band) (declen len : Nat) (short long timeout : Bool) (overflow : Nat) : State :=
  let s1 := s.bump (0x2810 + d) 1
  let s2 := if short then ((s1.bump 0x210D 1).bump (0x2810 + d) 2).raise (evDie d 20) b.frame else s1
  let s3 := if long then ((s2.bump 0x210D 2).bump (0x2810 + d) 3).raise (evDie d 21) b.frame else s2
  let s4 := if short ∨ long then
      ((((s3.setObj 0x2110 1 b.spring).setObj 0x2110 2 b.frame).setObj 0x2110 3 b.band).setObj 0x2110 4 declen).setObj 0x2110 5 len
    else s3
  let s5 := if timeout then s4.raise (evDie d 22) b.frame else s4
  let s6 := s5.addObj 0x210C 0 ((Band.shortCells b) + b2n (Band.differs b))
  if overflow = 0 then s6 else (s6.addObj (0x2810 + d) 5 overflow).raiseOnce (evDie d 34) 0 d

/-- Where the ring window shows a band of so many stored bytes (R378): its place, or the next one for a band that has none yet. -/
def State.windowFor (s : State) (d : Nat) (b : Band) (total : Nat) : Nat × State :=
  if b.given ≠ 0 then (b.woff, s)
  else ((s.cd d).ringPos, s.setCd d { s.cd d with ringPos := ((s.cd d).ringPos + total) % ringBytes })

/-- The chunks of a band in progress that have landed whole in a die's ring are given to its filters (R392). -/
def State.landChunks (s : State) (k spring frame band : Nat) : State :=
  match s.findFrame spring frame, (s.port k).bind fun q => (Port.band q spring frame band).map fun b => (q, b) with
  | some (t, _), some (q, b) =>
    match Take.springDef t spring with
    | none => s
    | some p =>
      let bytes := Band.fixed b p
      if bytes.length ≤ b.given then s
      else
        let total := SpringDef.stored p (min b.declen p.maxLen)
        let (woff, s1) := s.windowFor (k / 4) b total
        (s1.setPort k (Port.setBand q { b with given := bytes.length, woff := woff })).filterBand (k / 4) t.nsid t.num spring frame band woff bytes
          b.given total false false
  | _, _ => s

/-- A band completes on a port (R123): padded or cut to its declared length, packed, digested, and given to the frame
and to its filters. -/
def State.completeBand (s : State) (k : Nat) (b : Band) (timeout : Bool) : State :=
  match s.findFrame b.spring b.frame with
  | none => s.discardBand k b
  | some (t, f) =>
    match Take.springDef t b.spring with
    | none => s.discardBand k b
    | some p =>
      if !b.started then s.discardBand k b
      else
        let d := k / 4
        let declen := min b.declen p.maxLen
        let len := (Band.received b)
        let short := len < declen
        let long := declen < len || p.maxLen < b.declen
        let (stored, overflow) := packBytes (if p.kind = 1 then p.packing else 0) (p.justify = 1) (fit declen (Band.bytes b))
        let entered := ((s.port k).map fun q => Port.entered q b).getD 0
        let r : BandRec := ⟨b.band, d, bandFlags short long timeout (overflow ≠ 0) (p.ports.getD b.band 0xFFFF ≠ k), stored,
          sha256 stored, 0, min stored.length entered⟩
        let s1 := match s.port k with
          | some q => s.setPort k (Port.dropBand q b)
          | none => s
        let s2 := (s1.countBand d b declen len short long timeout overflow).digestRun 0 1 stored.length
        let s3 := s2.modFrame t.nsid t.num b.spring b.frame fun f => { f with bands := f.bands ++ [r] }
        let (woff, s4) := s3.windowFor d b stored.length
        let last := !(localBands p f.nbands).any fun x =>
          x ≠ b.band && p.ports.getD x 0 / 4 = d && !f.bands.any fun y => y.num = x
        ((s4.filterBand d t.nsid t.num b.spring b.frame b.band woff stored b.given stored.length true last).drainFrame b.spring b.frame d).checkFrame b.spring b.frame

/-- A band is complete by arrival: its end cell and every cell of lower CIDX are there. -/
def Band.whole (b : Band) : Bool :=
  b.started &&
    match b.trailer with
    | some (_, _, last) => 1 ≤ last && (b.cells.filter fun c => c.1 < last).length = last - 1
    | none => false

/-- The bands in progress of a port complete at once (R126, R127). -/
def State.completeAll (s : State) (k : Nat) : State :=
  match s.port k with
  | none => s
  | some p => p.bands.foldl (fun s b => s.completeBand k b false) s

/-- The band-end timeout 0x2101 active in an epoch, in ns (R54). -/
def State.bandLimit (s : State) (epoch : Nat) : Nat :=
  ((s.time.bandLimits.find? fun e => atOrAhead epoch e.1).map (·.2)).getD (s.obj 0x2101 0) * 1000000

/-- The band-end timeout of a frame's bands: that of its epoch, or the present one for cells of no frame. -/
def State.frameLimit (s : State) (spring frame : Nat) : Nat :=
  match s.findFrame spring frame with
  | some (_, f) => s.bandLimit f.epoch
  | none => s.obj 0x2101 0 * 1000000

/-- BAND_END_TIMEOUT (R123, R124): the band-end timeout has passed since the band's first cell. -/
def execBandEndTimeout (die first spring frame band : Nat) (s : State) : Res :=
  onLane s die first fun _ =>
    match (s.port (4 * die + first)).bind fun p => Port.band p spring frame band with
    | none => .next s
    | some b =>
      if s.time.now < b.since + s.frameLimit spring frame then .next s
      else .next (s.completeBand (4 * die + first) b true)

/-- The bands of a frame that have started complete, and then the frame (R152). -/
def State.closeFrame (s : State) (t : Take) (spring frame : Nat) : State :=
  let s1 := s.inflow.ports.foldl (fun s p =>
    (p.2.bands.filter fun b => b.spring = spring && b.frame = frame && b.started).foldl (fun s b => s.completeBand p.1 b true) s) s
  (s1.completeFrame t spring frame)

/-- FRAME_COMPLETION_TIMEOUT (R152): the band-end timeout has passed since the frame's marker or first band-start; its
bands in progress complete by timeout, and the frame is complete with its missing bands. -/
def execFrameCompletionTimeout (spring frame : Nat) (s : State) : Res :=
  match s.findFrame spring frame with
  | none => .next s
  | some (t, f) =>
    if f.complete then .next s
    else if s.time.now < f.since + s.bandLimit f.epoch then .next s
    else
      .next (s.closeFrame t spring frame)

end Sys2Proof.Machine
end

