-- ==== Sys2Proof/Machine/Digest.lean ====
section
/-!
DEFINITION. The digest engine's rows: jobs, the data-register interface (R471 to R484), and what the measurement and
report requests do (R485 to R490).
-/

namespace Sys2Proof.Machine

/-! ### Jobs -/

/-- A comparison's outcome is counted: equal, not equal, comparator fault with EV d.112; a pattern of zeros says that none was made (R476). -/
def State.countCompare (s : State) (d pattern : Nat) : State :=
  if pattern = 0b1010 then s.bump 0x6413 1
  else if pattern = 0b0101 then s.bump 0x6413 2
  else if pattern = 0 then s
  else (s.bump 0x6413 3).raise (evDie d 112) 0

/-- A digest job ends: counted, and written back; DONE and the result are 0 with a nonzero status (R474, R477). -/
def State.endDigest (s : State) (d ticket core : Nat) (j : Job) (status result : Nat) : State :=
  let n := if status = 0 then j.dlen else 0
  let s1 := ((s.bump 0x6411 (j.cls + 1)).addObj 0x6412 (j.cls + 1) n).addObj (0x6608 + d) (core + 1) n
  let s2 := if j.dalg = 0 ∨ 3 < j.dalg then s1 else s1.bump 0x6420 j.dalg
  let s3 := if status = 0 then s2 else ((s2.setObj 0x6419 1 d).setObj 0x6419 2 status).setObj 0x6419 3 s.epoch
  let s4 := if status = 4 then (s3.bump 0x6416 0).raise (evDie d 114) 0 else s3
  let s5 := if status = 8 then s4.raiseOnce (evDie d 1) 0 d else s4
  s5.endJob d ticket j status 44 (leBytes 4 n ++ [status, if status = 0 then result else 0])

/-- A digest job that started without a refusal runs to its end. -/
def State.runDigest (s : State) (d ticket core : Nat) (j : Job) (poisoned : Bool)
    (comparators : Option (Bool × Bool × Bool × Bool)) : State :=
  let o := taskOwner d j.slot
  let out := (algOf j.dalg).out
  let at4 := fun (k n : Nat) => s.jobRange o (field j.desc k 4) (field j.desc (k + 4) 4) n
  let src := at4 8 j.dlen
  let dst := at4 20 (if j.saves then 128 else out)
  let ctx := at4 28 128
  let cmp := at4 36 j.cmpLen
  let st := s.digestRanges d j
  if st ≠ 0 then s.endDigest d ticket core j st 0
  else if poisoned || s.poisonedAt src.2 j.dlen || (j.restores && s.poisonedAt ctx.2 128) || (j.cmpLen ≠ 0 && s.poisonedAt cmp.2 j.cmpLen) then s.endDigest d ticket core j 8 0
  else
    let (b, result, status) := s.digestData j (memRead s.mem src.2 j.dlen) (memRead s.mem ctx.2 128)
      (memRead s.mem cmp.2 j.cmpLen) comparators
    let s1 := if status = 0 then s.write dst.2 b else s
    let s2 := if j.cmpLen = 0 then s1 else if status = 0 then s1.countCompare d result
      else if status = 9 then s1.countCompare d 0b1111 else s1
    s2.endDigest d ticket core j status result

/-- DIGEST_JOB_COMPLETE (R466, R473 to R477): the job of a SHA-2 core ends; `comparators` gives the four lines of a
comparison whose comparators do not agree. -/
def execDigestJobComplete (die core : Nat) (poisoned : Bool) (comparators : Option (Bool × Bool × Bool × Bool)) (s : State) : Res :=
  onDie s die fun _ =>
    match s.jobOn die 1 core with
    | none => .next s
    | some (ticket, j) =>
      if s.engineStalled die 1 then .next s
      else if j.abandoned then .next (s.endJob die ticket j 7 44 [])
      else if j.status ≠ 0 then .next (s.endDigest die ticket core j j.status 0)
      else .next (s.runDigest die ticket core j poisoned comparators)

/-- A digest job that waited too long is urgent, and takes a core where one can be saved (R472). -/
def State.digestUrgent (s : State) (die ticket : Nat) (j : Job) : State :=
  let x := s.sd die
  match (s.cd die).victim 1 with
  | none => (s.setJob die ticket { j with urgent := true })
  | some (vt, v) =>
    if 16 ≤ x.shaContexts then (s.setJob die ticket { j with urgent := true })
    else
      let n := x.shaContexts + 1
      let s1 := (s.setJob die vt { v with state := 0, saved := true }).setSd die { x with shaContexts := n }
      let s2 := ((s1.setObj (0x6620 + die) 1 n).highWater (0x6620 + die) 2 n).bump 0x6417 0
      (s2.beginJob die ticket v.core j)

/-- DIGEST_URGENCY_EXPIRY (R472): a waiting capture job becomes urgent; where a victim runs and a context store is free,
the victim stops at its next block boundary and the urgent job takes its core. -/
def execDigestUrgencyExpiry (die ticket : Nat) (s : State) : Res :=
  onDie s die fun _ =>
    match tget (s.cd die).jobs ticket with
    | none => .next s
    | some j =>
      if j.engine = 1 ∧ j.state = 0 ∧ j.cls = 0 ∧ j.since + j.limit ≤ s.time.now then
        .next (s.digestUrgent die ticket j)
      else .next s

/-- A SHA-2 core is lost and its job waits again (R484). -/
def State.shaCoreLost (s : State) (die core : Nat) : State :=
  let x := s.sd die
  let s1 := (s.setSd die { x with shaLost := x.shaLost ++ [core] }).setObj (0x6628 + die) 0 (1 - x.shaLost.length)
  let s2 := s1.raise (evDie die 115) 0
  let s3 := match s2.jobOn die 1 core with
    | some (ticket, j) => s2.setJob die ticket { j with state := 0 }
    | none => s2
  (s3.startJobs die 1 4)

/-- SHA_CORE_TIMEOUT (R484): the core leaves service and its job restarts on the other. -/
def execShaCoreTimeout (die core : Nat) (s : State) : Res :=
  onDie s die fun _ =>
    if !(s.engineCores die 1).contains core then .fault .absentUnit
    else
      .next (s.shaCoreLost die core)

/-! ### The data-register interface (R478 to R483) -/

/-- A register set after reset. -/
def RegSet.reset : RegSet := ⟨false, 0, [], 0, [], [], 0, false, false, false, 0, 0, []⟩

/-- A register set of a die. -/
def State.regSet (s : State) (d k : Nat) : RegSet := tgetD (s.sd d).sets k RegSet.reset

/-- The state with a register set changed. -/
def State.setRegSet (s : State) (d k : Nat) (r : RegSet) : State :=
  s.setSd d { s.sd d with sets := tset (s.sd d).sets k r }

/-- Fields of DCTL: ALG, KEYED, KSLOT, CMPWORDS (R479). -/
def RegSet.alg (r : RegSet) : Nat := bits r.dctl 29 27
def RegSet.keyed (r : RegSet) : Bool := bitOf r.dctl 26
def RegSet.kslot (r : RegSet) : Nat := bits r.dctl 25 20
def RegSet.cmpWords (r : RegSet) : Nat := bits r.dctl 19 15

/-- DSTAT of a register set (R480). -/
def RegSet.dstat (r : RegSet) : Nat :=
  r.status * 2 ^ 24 + b2n r.done * 2 ^ 23 + b2n r.busy * 2 ^ 22 + b2n r.active * 2 ^ 21 + r.result * 2 ^ 16

/-- A job of a register set ends with a status and no result. -/
def RegSet.stop (r : RegSet) (status : Nat) : RegSet :=
  { r with active := false, busy := false, done := true, status := status, result := 0, digest := [], words := [], left := 0 }

/-- The set pads and finishes its job: the digest, and the comparison of the first CMPWORDS words. -/
def State.finishSet (s : State) (d k : Nat) (r : RegSet) : State :=
  let msg := r.words.take r.dlen
  let digest := if r.keyed then hmacAlg r.alg r.key msg else (algOf r.alg).hash msg
  let n := 4 * r.cmpWords
  let pattern := (comparePattern (digest.take n = (r.dexp.flatMap (leBytes 4)).take n) none).1
  let result := if n = 0 then 0 else pattern
  let s1 := s.setRegSet d k
    { r with active := false, busy := false, done := true, status := 0, result := result, digest := digest, words := [], left := 0 }
  if n = 0 then s1 else s1.countCompare d pattern

/-- A named register set of a die. -/
def onSet (s : State) (d k : Nat) (f : Unit → Res) : Res := onDie s d fun _ => if k < 2 then f () else .fault .absentUnit

/-- A job of the register interface begins, or stops with its status (R478, R479, R482). -/
def State.startSet (s : State) (die set dctl dlen : Nat) (dexp : List Nat) : State :=
  let r0 : RegSet := { RegSet.reset with job := true, dctl := dctl % 2 ^ 30, dlen := dlen, dexp := dexp }
  let r : RegSet := { r0 with key := ((s.keyState die r0.kslot).map (·.key)).getD [] }
  let s1 := s.bump 0x641C (set + 1)
  let out := (algOf r.alg).out
  let cmp := r.cmpWords
  if r.alg = 0 ∨ 3 < r.alg ∨ (cmp ≠ 0 ∧ (cmp < 4 ∨ 16 < cmp ∨ out < 4 * cmp)) then (s1.setRegSet die set (r.stop 6))
  else
    let key : Nat := if r.keyed then
        match s.keyState die r.kslot with
        | some x => if !x.loaded then 2 else if x.alg ≠ r.alg then 6 else 0
        | none => 2
      else 0
    if key ≠ 0 then (s1.setRegSet die set (r.stop key))
    else if dlen = 0 then (s1.finishSet die set r)
    else (s1.setRegSet die set { r with active := true, left := ceilDiv dlen 4 })

/-- DCTL_START (R478, R479, R482): a job begins, ending any job in progress; `dctl` is the word written to DCTL, `dexp` the
words of DEXP. -/
def execDctlStart (die set dctl dlen : Nat) (dexp : List Nat) (s : State) : Res :=
  onSet s die set fun _ =>
    .next (s.startSet die set dctl dlen dexp)

/-- DCTL_ABORT (R479): the job in progress ends; STATUS and DONE read 0. -/
def execDctlAbort (die set : Nat) (s : State) : Res :=
  onSet s die set fun _ =>
    let r := s.regSet die set
    .next (s.setRegSet die set { RegSet.reset with dctl := r.dctl, dlen := r.dlen, dexp := r.dexp })

/-- A misuse ends a register set's job with a status, counted, with EV d.113 (R483). -/
def State.misuseSet (s : State) (d k : Nat) (r : RegSet) (status : Nat) : State :=
  ((s.setRegSet d k (r.stop status)).bump (if status = 0x0A then 0x6415 else 0x6414) 0).raiseOnce (evDie d 113) 0 d

/-- A word of the message is taken, or is a misuse (R482, R483); one for a job that has ended with a status is ignored. -/
def State.feedSet (s : State) (die set word : Nat) : State :=
  let r := s.regSet die set
  if !r.job ∨ (r.done ∧ r.status ≠ 0) then s
  else if !r.active then (s.misuseSet die set r 1)
  else if r.busy then (s.misuseSet die set r 0x0B)
  else
    let words := r.words ++ leBytes 4 word
    let block := (algOf r.alg).block
    (s.setRegSet die set { r with words := words, left := r.left - 1, active := r.left ≠ 1, busy := min words.length r.dlen % block = 0 })

/-- DDATA_WRITE (R481 to R483): a message word is taken, or the misuse ends the job. -/
def execDdataWrite (die set word : Nat) (s : State) : Res :=
  onSet s die set fun _ =>
    .next (s.feedSet die set word)

/-- DRES_READ (R481, R483): a word of the digest; a read before the digest is complete returns 0 and ends the job. -/
def execDresRead (die set index : Nat) (s : State) : Res :=
  onSet s die set fun _ =>
    let r := s.regSet die set
    if r.job ∧ !r.done then .next ((s.misuseSet die set r 0x0A).emit (.digestWord die set index 0))
    else .next (s.emit (.digestWord die set index (field r.digest (4 * index) 4)))

/-- DIGEST_BLOCK_COMPRESSED (R480, R482): BUSY falls. -/
def execDigestBlockCompressed (die set : Nat) (s : State) : Res :=
  onSet s die set fun _ =>
    let r := s.regSet die set
    if r.busy then .next (s.setRegSet die set { r with busy := false }) else .next s

/-- REGISTER_JOB_DONE (R476, R480, R482): the set has finished a job whose last word was accepted. -/
def execRegisterJobDone (die set : Nat) (s : State) : Res :=
  onSet s die set fun _ =>
    let r := s.regSet die set
    if r.job ∧ !r.active ∧ !r.done then .next (s.finishSet die set r) else .next s

/-! ### Key-state slots and measurement requests -/

/-- What EMPTY_KEY_STATE_SLOT does with its value: dies [31:24], slot [5:0] (R468). -/
def State.emptyKeyStates (s : State) (v : Nat) : State :=
  (s.maskDies (v / 2 ^ 24 % 256)).foldl (fun s d => s.emptyKeyState d (v % 64)) s

/-- What MEASUREMENT_EXTEND does: slot MS8 + k, source manager, EV P.24 (R486, R491). -/
def State.extendManager (s : State) (k : Nat) (input : List Nat) : State := (s.extend (8 + k) 3 input).raise (evPkg 24) 0

/-- The report of R490 but for its tag. -/
def State.reportBody (s : State) (nonce : List Nat) (mask : Nat) : List Nat :=
  ascii "HK7QUOTE" ++ leBytes 2 1 ++ [0, 0] ++ leBytes 4 mask ++ nonce ++ leBytes 8 Config.packageSerial ++ leBytes 6 s.epoch ++
    [0, 0] ++ ((bitsOf 24 mask).flatMap fun n => (s.measure n).value ++ leBytes 4 (s.measure n).count)

/-- A report for a nonce and mask; none when the key-state slot that 0x6408 names on die 0 does not hold ALG 2. -/
def State.makeReport (s : State) (nonce : List Nat) (mask : Nat) : Option (List Nat) :=
  let body := s.reportBody nonce mask
  (s.slotHmac 0 (s.obj 0x6408 0) 2 body).map fun tag => body ++ tag

end Sys2Proof.Machine
end

