-- ==== Sys2Proof/Machine/Session.lean ====
section
/-!
DEFINITION. What the dictionary service keeps of a session, and the end of a session (R81, R86, R603).
-/

namespace Sys2Proof.Machine

/-- A session as a U32: path code and identity (R603). -/
def sessionKey (path who : Nat) : Nat := path * 2 ^ 24 + who

/-- A session that has made no request. -/
def Session.fresh : Session :=
  { cls := 2, state := 0, count := 0, slot := 0, named := 0, lakeNamed := 0, lakeState := 0, selects := [], dupSeq := none
    dupAt := 0, dupCmd := 0, dupFlags := 0, dupIdx := 0, dupSub := 0, dupStatus := 0, dupEpoch := 0, dupData := [], dupAnswered := false
    xfer := none, lastFrame := 0, report := [], source := 0 }

/-- A session by its key. -/
def State.session (s : State) (k : Nat) : Session := tgetD s.dict.sessions k Session.fresh

/-- The state with a session set. -/
def State.setSession (s : State) (k : Nat) (x : Session) : State :=
  { s with dict := { s.dict with sessions := tset s.dict.sessions k x } }

/-- A transaction slot that no session holds. -/
def Slot.free : Slot := ⟨0, 0, [], 0, 0, 0, 0, 0⟩

/-- Slot n, 1 to 8. -/
def State.slot (s : State) (n : Nat) : Slot := tgetD s.dict.slots n Slot.free

/-- The state with a slot set. -/
def State.setSlot (s : State) (n : Nat) (x : Slot) : State :=
  { s with dict := { s.dict with slots := tset s.dict.slots n x } }

/-- The counter of 0x1F11 that a rollback with a state code adds to: overlap, timeout, session end (R93). -/
def rollBackCounter (code : Nat) : Option Nat :=
  if code = 6 then some 1 else if code = 8 then some 2 else if code = 9 then some 3 else none

/-- The open transaction of a session, if it has one, rolls back with a state code; its slot is freed and its staged values
are discarded (R86, R87). -/
def State.rollBack (s : State) (k code : Nat) : State :=
  let x := s.session k
  if x.slot = 0 ∨ x.state ≠ 1 then s
  else
    let s1 := s.setSession k { x with slot := 0, state := code, count := 0 }
    let s2 := s1.setSlot x.slot { Slot.free with state := code }
    match rollBackCounter code with
    | some n => s2.bump 0x1F11 n
    | none => s2

/-- A session ends (R86): its open transaction rolls back with state 9 and its transfer ends. -/
def State.endSession (s : State) (k : Nat) : State :=
  match tget s.dict.sessions k with
  | none => s
  | some _ =>
    let s1 := s.rollBack k 9
    s1.setSession k { s1.session k with xfer := none, dupSeq := none }

end Sys2Proof.Machine
end

