-- ==== Sys2Proof/Machine/Host.lean ====
section
/-!
DEFINITION. Chapter 9: ports and links, controllers and their resets, queues and their arbitration, features and
asynchronous events.
-/

namespace Sys2Proof.Machine

/-! ### What a function presents to PCI Express (R269, R270, R274) -/

/-- The class code, the largest payload and read request in bytes, the vectors of MSI-X, and the Device Serial Number, which is the package's
(R269, R599). -/
def pciClassCode : Nat := 0x010802
def maxPayload : Nat := 512
def maxReadRequest : Nat := 4096
def msixVectors : Nat := 129
def deviceSerialNumber : Nat := Config.packageSerial

/-- The capabilities of a function: SR-IOV is the PF's (R269, R305). -/
def pciCapabilities (pf : Bool) : List PciCap :=
  [.powerManagement, .pciExpress, .msix, .advancedErrors, .deviceSerial, .ari] ++ (if pf then [.sriov] else []) ++ [.physical64, .flitLogging]

/-- The configuration registers of a function after a conventional reset: D0, 128 bytes of payload and 512 of read request (R269; PCI Express's reset values,
PRESUMED, log 228). -/
def PciState.reset : PciState := ⟨0, 128, 512, 0⟩

def State.pciOf (s : State) (fn : Nat) : PciState := tgetD s.host.pci fn PciState.reset

/-- The state with the configuration registers of a function changed. -/
def State.modPci (s : State) (fn : Nat) (f : PciState → PciState) : State :=
  { s with host := { s.host with pci := tset s.host.pci fn (f (s.pciOf fn)) } }

/-- A write of a configuration register (R269): the power state D0 or D3hot, the sizes of payload and read request up to what the function supports,
or AER status bits written 1, which clear. Which register, and with what, is the host's: `v` is a free value (log 228). -/
def PciState.write (x : PciState) (v : Nat) : PciState :=
  match v % 4 with
  | 1 => { x with power := if v / 4 % 2 = 1 then 3 else 0 }
  | 2 => { x with payload := min maxPayload (128 * 2 ^ (v / 4 % 3)), readRequest := min maxReadRequest (128 * 2 ^ (v / 16 % 6)) }
  | 3 => { x with errors := if bitOf v 2 && bitOf x.errors 14 then x.errors - 2 ^ 14 else x.errors }
  | _ => x

/-! ### Controllers and shares (R272, R305, R309) -/

/-- A controller of a function. -/
def Ctrl.fresh (vq : Nat) (online : Bool) : Ctrl :=
  { en := false, rdy := false, shst := 0, pp := false, regs := [], sqs := [], cqs := [], cmds := [], feats := [], aers := []
    aeMasked := false, aePending := [], errs := [], errCount := 0, vq := vq, online := online, pendingVq := none
    quiesce := 0, quiesceEpoch := 0, quiesceLeft := 0, quiesceAt := 0, flr := false, readBucket := 0, writeBucket := 0, pieces := none
    served := 0, rr := [], burst := [], changed := [], deleting := [], msix := [], held := [] }

/-- BAR0 and BAR1: their bytes, and the places of the doorbells, the MSI-X table and the pending bits (R270). -/
def barBytes : Nat := 32768
def doorbellAt (qid : Nat) (completion : Bool) : Nat := 0x1000 + 4 * (2 * qid + b2n completion)
def msixTableAt (vector : Nat) : Nat := 0x4000 + 16 * vector
def msixPendingAt : Nat := 0x5000

/-- The controller capabilities: MQES, CQR, AMS, TO, DSTRD, NSSRS, CSS, MPSMIN and MPSMAX; and the version (R274). -/
def capRegister : Nat := 0x0FFF + 2 ^ 16 + 2 ^ 17 + 16 * 2 ^ 24 + 2 ^ 36 + 2 ^ 37
def vsRegister : Nat := 0x00020000

/-- The controller's status: RDY, SHST and PP (R274, R291, R293). -/
def Ctrl.csts (c : Ctrl) : Nat := b2n c.rdy + 4 * c.shst + 32 * b2n c.pp

/-- The SR-IOV capability of a PF: InitialVFs and TotalVFs, First VF Offset, VF Stride, VF Device ID, and the bytes of VF BAR0 and BAR1 (R305). -/
def totalVfs : Nat := 31
def firstVfOffset : Nat := 1
def vfStride : Nat := 1
def vfDeviceId : Nat := (Config.pciId 4).toNat
def vfBarBytes : Nat := barBytes

/-- The configuration space of a function (R269, R270, R305). -/
def State.pciView (s : State) (fn : Nat) : PciView :=
  let pf := fn % 32 = 0
  let x := s.pciOf fn
  { ids := [(Config.pciId 1).toNat, (Config.pciId 2).toNat, (Config.pciId 3).toNat, (Config.pciId 4).toNat], classCode := pciClassCode
    caps := pciCapabilities pf, power := x.power, payload := (x.payload, maxPayload), readRequest := (x.readRequest, maxReadRequest)
    vectors := msixVectors, errors := x.errors, serial := deviceSerialNumber, barBytes := barBytes
    sriov := if pf then some ⟨totalVfs, firstVfOffset, vfStride, vfDeviceId, vfBarBytes, tgetD s.host.numVfs (fn / 32) 0⟩ else none }

/-- A dword of BAR0 of a controller (R270, R274): CAP, VS, CC, CSTS, AQA, ASQ and ACQ, the MSI-X table and the pending bits; the doorbells and every other place
read zero. -/
def Ctrl.barDword (c : Ctrl) (off : Nat) : Nat :=
  let dword := fun (v k : Nat) => v / 2 ^ (32 * k) % 2 ^ 32
  let size := fun (n : Option Nat) => n.getD 1 - 1
  let base := fun (b : Option Nat) => b.getD 0
  let sq := tget c.sqs 0
  let cq := tget c.cqs 0
  match off with
  | 0x00 => dword capRegister 0
  | 0x04 => dword capRegister 1
  | 0x08 => vsRegister
  | 0x14 => tgetD c.regs 0x14 0 / 2 * 2 + b2n c.en
  | 0x1C => c.csts
  | 0x24 => 65536 * size (cq.map (·.size)) + size (sq.map (·.size))
  | 0x28 => dword (base (sq.map (·.base))) 0
  | 0x2C => dword (base (sq.map (·.base))) 1
  | 0x30 => dword (base (cq.map (·.base))) 0
  | 0x34 => dword (base (cq.map (·.base))) 1
  | _ =>
    if msixTableAt 0 ≤ off ∧ off < msixTableAt msixVectors then ofLe (slice (off - msixTableAt 0) 4 (fit 2088 c.msix))
    else if msixPendingAt ≤ off ∧ off < msixPendingAt + 24 then ofLe (slice (2064 + off - msixPendingAt) 4 (fit 2088 c.msix))
    else 0

/-- The lanes of a PCIe port by the code of 0x4040 (R95, R268). -/
def widthLanes (code : Nat) : Nat := if code = 1 then 1 else if code = 2 then 2 else if code = 3 ∨ code = 4 then 4 else 0

/-- Die p forms port p: a width, and its lanes in PCIe mode (R268). -/
def State.portFormed (s : State) (p : Nat) : Bool :=
  let w := widthLanes (s.obj (0x4040 + p) 0)
  s.healthy p && w ≠ 0 && (List.range w).all fun l => s.laneMode p l = 2

/-- The controllers of a port. -/
def State.portCtrls (s : State) (p : Nat) : List Nat := (s.host.ctrls.map (·.1)).filter fun c => portOf c = p

/-- The device is ready for hosts (R572 step 11). -/
def State.deviceReady (s : State) : Bool := s.obj 0x1800 0 = 5

/-! ### Work of a controller's commands, and its resets (R287, R291, R315) -/

/-- Tasks of a die that work for the commands of a test. -/
def State.tasksFor (s : State) (d : Nat) (mine : CmdRef → Bool) : List Nat :=
  ((s.cd d).tasks.filter fun t =>
    t.2.state ≠ 4 && match t.2.near with
      | some n => mine n.q
      | none => false).map (·.1)

/-- A reference to a command of a controller, of one SQ or of all. -/
def ofQueue (cntl : Nat) (sqid : Option Nat) (q : CmdRef) : Bool := q.cntl = cntl && (sqid.isNone || sqid = some q.sqid)

/-- Tasks of a die that work for commands of a controller, of one SQ or of all. -/
def State.nearSlots (s : State) (d cntl : Nat) (sqid : Option Nat) : List Nat := s.tasksFor d (ofQueue cntl sqid)

/-- What waits inside the device for the commands of a test is forgotten, searches of every scope among it, and their tasks are ended with a cause;
a join or leave that one of them began goes on by itself (R287, R291, R315). -/
def State.forgetWork (s : State) (mine : CmdRef → Bool) (cause : Nat) : State :=
  let h := { s.host with
    flushes := s.host.flushes.filter fun f => !mine f.q
    heldRuns := s.host.heldRuns.filter fun r => !mine r.q
    throughs := s.host.throughs.filter fun t => !mine t.1
    stalled := s.host.stalled.filter fun w => !mine w.q
    exits := s.host.exits.filter fun e => !mine e.1
    reads := s.host.reads.filter fun r => !mine r.q
    detached := s.host.detached.filter fun e => !mine ⟨e.1, e.2.1 / 65536, e.2.1 % 65536⟩ }
  let x := { s.search with
    board := s.search.board.filter fun b => !mine b.1
    waits := s.search.waits.filter fun w => !mine w.1 }
  let l := { s.lake with
    searches := s.lake.searches.filter fun y => !mine y.q
    join := s.lake.join.map fun j => { j with q := j.q.filter fun q => !mine q } }
  s.dies.foldl (fun s d => (s.tasksFor d mine).foldl (fun s t => s.stopTask d t cause 0 0) s) { s with host := h, search := x, lake := l }

/-- The work of a controller's commands, of one SQ or of all, is forgotten. -/
def State.purge (s : State) (cntl : Nat) (sqid : Option Nat) (cause : Nat) : State := s.forgetWork (ofQueue cntl sqid) cause

/-- A controller's queues, commands, features and registers are cleared; its resources, online state and function-level
reset stay. -/
def Ctrl.clear (c : Ctrl) (keepErrors : Bool) : Ctrl :=
  { Ctrl.fresh c.vq c.online with flr := c.flr, errs := if keepErrors then c.errs else []
                                  errCount := if keepErrors then c.errCount else 0, quiesce := c.quiesce
                                  quiesceEpoch := c.quiesceEpoch, quiesceLeft := c.quiesceLeft, quiesceAt := c.quiesceAt }

/-- A controller reset (R291): every outstanding command ends without a completion entry, its function's pond entries are walked (R533);
EV d.075. -/
def State.resetCtrl (s : State) (cntl : Nat) : State :=
  match s.ctrl cntl with
  | none => s
  | some _ =>
    let s0 := s.modCtrl cntl fun c => { c with cmds := [] }
    let s1 := (s0.purge cntl none 3).modCtrl cntl fun c => c.clear true
    let s2 := s1.walkWhere fun o => o = ownerId 3 (portOf cntl) (cntl - 1)
    (((s2.endSession (sessionKey 1 cntl)).bump 0x401D 0).raise (evDie (portOf cntl) 75) cntl).settleFlushes.retryStalled

/-- A port gains its PF when it is formed. -/
def State.formPf (s : State) (p : Nat) : State :=
  if !s.portFormed p ∨ (s.ctrl (32 * p + 1)).isSome then s
  else { s with host := { s.host with ctrls := tset s.host.ctrls (32 * p + 1) (Ctrl.fresh 129 true) } }

/-- A port goes down (R271): every controller of it is reset as by a conventional reset, EV d.073. -/
def State.hostPortDown (s : State) (p : Nat) : State :=
  if !s.host.linkUp.contains p then s
  else
    let s1 := (s.portCtrls p).foldl (fun s c => (s.resetCtrl c).countReset 6 c) s
    let s2 := { s1 with host := { s1.host with linkUp := s1.host.linkUp.filter (· ≠ p), pci := s1.host.pci.filter fun e => portOf (e.1 + 1) ≠ p } }
    (((s2.setObj (0x4048 + p) 3 0).bump (0x4060 + p) 1).raise (evDie p 73) p).allQuiet

/-- The link of a port whose width changes stays down for 1 ms (R271). -/
def State.holdDown (s : State) (p : Nat) : State := { s with host := { s.host with retrainAt := tset s.host.retrainAt p (s.time.now + 1000000) } }

/-- Line rates of the codes of 0x4050, in GT/s rounded down. -/
def speedCap (code : Nat) : Nat :=
  match code with
  | 1 => 2
  | 2 => 5
  | 3 => 8
  | 4 => 16
  | 5 => 32
  | _ => 64

/-- A port's link is up at a speed and width (R268). -/
def State.linkComesUp (s : State) (port speed width : Nat) : State :=
  let full := widthLanes (s.obj (0x4040 + port) 0)
  let s1 := (s.formPf port).setObj (0x4048 + port) 1 (min speed (speedCap (s.obj (0x4050 + port) 0)))
  let s2 := (s1.setObj (0x4048 + port) 2 (min width full)).setObj (0x4048 + port) 3 2
  let s3 := { s2 with host := { s2.host with linkUp := s2.host.linkUp ++ [port] } }
  let s4 := (s3.bump (0x4060 + port) 2).raise (evDie port 72) port
  (if width < full then (s4.bump (0xA1C8 + port) 0).raise (evDie port 13) width else s4)

/-- LINK_UP (R268): the link of a formed port comes up at a speed and width within its caps, EV d.072; EV d.013 below
the configured width (R541); the SerDes domain must be usable (R548), and after a change of the width the link has been down for 1 ms (R271). -/
def execLinkUp (port speed width : Nat) (s : State) : Res :=
  onDie s port fun _ =>
    if !s.portFormed port ∨ s.host.linkUp.contains port ∨ s.time.now < tgetD s.host.retrainAt port 0 then .next s
    else if !s.usable port 7 then .next s
    else
      .next (s.linkComesUp port speed width)

/-- LINK_DOWN (R271). -/
def execLinkDown (port : Nat) (s : State) : Res :=
  onDie s port fun _ => if s.host.linkUp.contains port then .next (s.hostPortDown port) else .next s

/-- A command whose DMA did not complete fails, and its function is confined (R271). -/
def State.dmaLost (s : State) (q : CmdRef) (uncorrectable : Bool) : State :=
  let p := portOf q.cntl
  let s1 := if uncorrectable then s.modPci (q.cntl - 1) fun x => { x with errors := if bitOf x.errors 14 then x.errors else x.errors + 2 ^ 14 } else s
  let s2 := ((s1.forgetWork (· = q) 5).finish q 0 4 false 0 0).confine (q.cntl - 1)
  (if uncorrectable then (s2.bump (0x4068 + p) 2).raise (evDie p 76) q.cntl else s2)

/-- COMPLETION_TIMEOUT (R271, R314): the command ends with Data Transfer Error; the fault is confined to its function,
EV d.081, and an uncorrectable PCIe error raises EV d.076. -/
def execCompletionTimeout (q : CmdRef) (uncorrectable : Bool) (s : State) : Res :=
  onCmd s q fun _ =>
    .next (s.dmaLost q uncorrectable)

/-- A controller is enabled with the admin queues its host has set up (R291). -/
def State.enableCtrl (s : State) (cntl : Nat) : State :=
  let n := 2 + s.freeValue % 4095
  let sq : Sq := ⟨n, s.useFree.freeValue % 2 ^ 64, 0, 0, false, false, 0, 0, [], none, 0⟩
  let cq : Cq := ⟨n, s.useFree.useFree.freeValue % 2 ^ 64, 0, true, 0, 0, true, []⟩
  let cc := s.useFree.useFree.useFree.freeValue % 2 ^ 32 / 2 * 2 + 1
  (s.useFree.useFree.useFree.useFree.modCtrl cntl fun c =>
    { c with en := true, regs := [(0x14, cc)], rdy := s.deviceReady, shst := 0, sqs := [(0, sq)], cqs := [(0, cq)] })

/-- CONTROLLER_ENABLE (R291, R308): the controller becomes ready with its admin queues, whose sizes and bases are the
host's, not stated by the command: free values, as are the fields of CC beside EN. A VF must be online. -/
def execControllerEnable (cntl : Nat) (s : State) : Res :=
  match s.ctrl cntl with
  | none => .fault .absentUnit
  | some c =>
    if c.en ∨ !c.online ∨ c.flr ∨ (s.pciOf (cntl - 1)).power ≠ 0 then .next s
    else
      .next (s.enableCtrl cntl)

/-- CONTROLLER_DISABLE (R291): CC.EN is cleared. -/
def execControllerDisable (cntl : Nat) (s : State) : Res :=
  match s.ctrl cntl with
  | none => .fault .absentUnit
  | some c => if c.en then .next ((s.resetCtrl cntl).countReset 6 cntl).allQuiet else .next s

/-- A controller shuts down: staged data is drained, and CSTS.SHST reads in progress until the controller's writes are durable (R291). -/
def State.shutCtrl (s : State) (cntl : Nat) : State :=
  let s1 := s.dies.foldl (fun s d => s.drainDie d) s
  (s1.modCtrl cntl fun c => { c with shst := 1 }).settleWrites

/-- SHUTDOWN_NOTIFICATION (R291): staged writes are programmed, and CSTS.SHST reads complete once they are durable. -/
def execShutdownNotification (cntl : Nat) (s : State) : Res :=
  match s.ctrl cntl with
  | none => .fault .absentUnit
  | some c =>
    if !c.en then .next s
    else
      .next (s.shutCtrl cntl)

/-- Every controller on every port is reset at once (R291). -/
def State.subsystemReset (s : State) : State := ((s.host.ctrls.map (·.1)).foldl State.resetCtrl s).bump 0x4020 0

/-- NVM_SUBSYSTEM_RESET (R291): only 4E564D65h resets. -/
def execNvmSubsystemReset (value : Nat) (s : State) : Res :=
  if value = 0x4E564D65 then .next (s.subsystemReset.countReset 5 0).allQuiet else .next s

/-! ### Doorbells and fetching (R281, R282, R312, R313) -/

/-- Entries of a submission queue that wait to be fetched. -/
def Sq.waiting (k : Sq) : Nat := (k.tail + k.size - k.head) % max 1 k.size

/-- SQ_TAIL_DOORBELL (R282): the tail is recorded, and when. A doorbell of a queue that does not exist, or a value outside the
queue, is reported to the host as an asynchronous event and has no other effect. In D3hot a function accepts no
memory write (R269). -/
def execSqTailDoorbell (cntl qid tail : Nat) (s : State) : Res :=
  match s.ctrl cntl with
  | none => .fault .absentUnit
  | some c =>
    if (s.pciOf (cntl - 1)).power ≠ 0 then .next s else
    match tget c.sqs qid with
    | none => .next (s.asyncEvent cntl 0 0 1)
    | some k => if tail < k.size then .next (s.modSq cntl qid fun k => { k with tail := tail, rung := s.time.now }) else .next (s.asyncEvent cntl 0 1 1)

/-- Entries that wait for room in a CQ are posted. -/
def State.postWaiting (s : State) (cntl cqid : Nat) : State :=
  match (s.ctrl cntl).bind fun c => tget c.cqs cqid with
  | none => s
  | some q =>
    let s1 := s.modCtrl cntl fun c => { c with cqs := tmod c.cqs cqid fun q => { q with waiting := [] } }
    q.waiting.foldl (fun s e => s.postCqe cntl e) s1

/-- Delete I/O SQ commands whose last completion entry has found room complete (R287). -/
def State.endDeletes (s : State) (cntl : Nat) : State :=
  match s.ctrl cntl with
  | none => s
  | some c =>
    let held := fun (e : CmdRef × Nat) => c.cqs.any fun q => q.2.waiting.any fun w => w.sqid = e.2
    let done := c.deleting.filter fun e => !held e
    let s1 := s.modCtrl cntl fun c =>
      { c with deleting := c.deleting.filter held, sqs := done.foldl (fun t e => tdel t e.2) c.sqs }
    done.foldl (fun s e => s.succeed e.1 0) s1

/-- CQ_HEAD_DOORBELL (R287, R288): entries are consumed, and those that waited for room are posted. -/
def execCqHeadDoorbell (cntl qid head : Nat) (s : State) : Res :=
  match s.ctrl cntl with
  | none => .fault .absentUnit
  | some c =>
    if (s.pciOf (cntl - 1)).power ≠ 0 then .next s else
    match tget c.cqs qid with
    | none => .next (s.asyncEvent cntl 0 0 1)
    | some k =>
      if head < k.size then
        .next (((s.modCtrl cntl fun c => { c with cqs := tmod c.cqs qid fun q => { q with head := head } }).postWaiting
          cntl qid).endDeletes cntl)
      else .next (s.asyncEvent cntl 0 1 1)

/-- The arbiter passes over the I/O SQs of a function while a bucket is below zero (R313). -/
def State.overCap (s : State) (cntl : Nat) (c : Ctrl) (code : Nat) : Bool :=
  s.share (cntl - 1) code ≠ 0 && (if code = 3 then c.readBucket else c.writeBucket) < 0

/-- The queues of a controller that have an entry to fetch. -/
def State.fetchable (s : State) (cntl : Nat) (c : Ctrl) : List (Nat × Sq) :=
  if s.media.commitRunning ∨ (s.pciOf (cntl - 1)).power ≠ 0 ∨ !c.en ∨ !c.rdy ∨ c.pp ∨ c.flr ∨ c.quiesce = 1 ∨ c.quiesce = 2 then []
  else c.sqs.filter fun k =>
    0 < k.2.waiting && !k.2.frozen && !(c.deleting.any fun e => e.2 = k.1) &&
      (k.1 = 0 || !(s.overCap cntl c 3 || s.overCap cntl c 4))

/-- The class of a queue: 0 admin, 1 urgent, 2 high, 3 medium, 4 low. -/
def sqClass (k : Nat × Sq) : Nat := if k.1 = 0 then 0 else k.2.prio % 4 + 1

/-- The fetches of a weighted round that a class has used, and its weight, one more than its field of Feature 01h. -/
def Ctrl.usedOf (c : Ctrl) (cls : Nat) : Nat := c.served / 1024 ^ (cls - 2) % 1024
def Ctrl.weightOf (c : Ctrl) (cls : Nat) : Nat := tgetD c.feats 1 0 / 2 ^ (8 * (5 - cls)) % 256 + 1

/-- The queue after the one last served in its class. -/
def nextInClass (l : List (Nat × Sq)) (last : Nat) : Option Nat :=
  ((l.map (·.1)).find? fun q => last < q).or (l.map (·.1)).head?

/-- The arbitration burst of Feature 01h: fetches in a row from one queue; 7 stands for no limit (R282). -/
def Ctrl.burstLimit (c : Ctrl) : Option Nat :=
  let ab := tgetD c.feats 1 0 % 8
  if ab = 7 then none else some (2 ^ ab)

/-- The queue that a class serves next: the one last served, within its burst, or the one after it (R282). -/
def Ctrl.nextOf (c : Ctrl) (cls : Nat) (l : List (Nat × Sq)) : Option Nat :=
  let last := tgetD c.rr cls 0
  let more : Bool := match c.burstLimit with
    | none => true
    | some n => tgetD c.burst cls 0 < n
  if more ∧ tgetD c.burst cls 0 ≠ 0 ∧ (l.any fun q => q.1 = last) then some last else nextInClass l last

/-- The queue that a controller's own arbitration selects (R282): admin, urgent, then the weighted classes; answers class,
queue and the round's count. -/
def Ctrl.select (c : Ctrl) (l : List (Nat × Sq)) : Option (Nat × Nat × Nat) :=
  let inClass := fun k => l.filter fun q => sqClass q = k
  let pick := fun k => c.nextOf k (inClass k)
  match pick 0, pick 1 with
  | some q, _ => some (0, q, c.served)
  | none, some q => some (1, q, c.served)
  | none, none =>
    let has := [2, 3, 4].filter fun k => (inClass k) ≠ []
    match has.find? fun k => c.usedOf k < c.weightOf k with
    | some k => (pick k).map fun q => (k, q, c.served + 1024 ^ (k - 2))
    | none =>
      match has.head? with
      | some k => (pick k).map fun q => (k, q, 1024 ^ (k - 2))
      | none => none

/-- The fetches in a row of a class once a queue of it has been served. -/
def Ctrl.burstAfter (c : Ctrl) (cls qid : Nat) : Tab Nat :=
  let goes : Bool := match c.burstLimit with
    | none => true
    | some n => tgetD c.burst cls 0 < n
  tset c.burst cls (if tgetD c.rr cls 0 = qid ∧ goes then tgetD c.burst cls 0 + 1 else 1)

/-- Controllers of a port with something to fetch, in ascending order. -/
def State.askers (s : State) (p : Nat) : List (Nat × Ctrl) :=
  s.host.ctrls.filter fun c => portOf c.1 = p && s.fetchable c.1 c.2 ≠ []

/-- Functions passed over by a cap are counted as a round begins. -/
def State.countPassed (s : State) (p : Nat) : State :=
  s.host.ctrls.foldl (fun s c =>
    if portOf c.1 ≠ p then s
    else
      let s1 := if s.overCap c.1 c.2 3 then s.bump (0x4168 + p) 1 else s
      if s.overCap c.1 c.2 4 then s1.bump (0x4168 + p) 2 else s1) s

/-- Fetch weights apply from the arbitration round that begins (R309, R311). -/
def State.adoptWeights (s : State) (p : Nat) : State :=
  s.host.fns.foldl (fun s f => if f.1 / 32 = p then s.modFn f.1 fun x => match tget x.target 1 with
    | some w => { x with eff := tset x.eff 1 w }
    | none => { x with eff := tdel x.eff 1 } else s) s

/-- A command of a queue is fetched: its place in the round, its buckets and its counts, and how long its entry waited at its turn, from
its doorbell or the port's fetch before it (R282, R304, R306). -/
def State.fetchFrom (s : State) (port cid bytesToHost bytesFromHost cntl cls qid served : Nat) (fresh : Bool) (round : List (Nat × Nat)) : State :=
  let base := if fresh then [] else round
  let round' := (base.filter fun e => e.1 ≠ cntl) ++ [(cntl, ((base.find? fun e => e.1 = cntl).map (·.2)).getD 0 + 1)]
  let s0 := if fresh then (s.countPassed port).adoptWeights port else s
  let s1 := { s0 with host := { s0.host with round := tset s0.host.round port round' } }
  let toSq := fun (k : Sq) => { k with head := (k.head + 1) % max 1 k.size, order := if k.ordered then k.order ++ [cid] else k.order }
  let cmd : Cmd := ⟨qid, cid, false, none, bytesToHost, bytesFromHost, s1.host.fetches⟩
  let rung := (((s.ctrl cntl).bind fun c => tget c.sqs qid).map (·.rung)).getD 0
  let waited := s.time.now - max rung (tgetD s.host.fetchAt port 0)
  let s1' : State := { s1 with host := { s1.host with fetches := s1.host.fetches + 1, fetchAt := tset s1.host.fetchAt port s.time.now } }
  let s2 := (s1'.highWater (0x4090 + port) 0 waited).modCtrl cntl fun c =>
    { c with sqs := tmod c.sqs qid toSq, cmds := c.cmds ++ [cmd], served := served, rr := tset c.rr cls qid, burst := c.burstAfter cls qid
             readBucket := if s.share (cntl - 1) 3 = 0 then c.readBucket else c.readBucket - bytesToHost
             writeBucket := if s.share (cntl - 1) 4 = 0 then c.writeBucket else c.writeBucket - bytesFromHost }
  let m := tgetD s.power.moved (cntl - 1) (0, 0)
  let moved := tset s.power.moved (cntl - 1) (m.1 + bytesToHost, m.2 + bytesFromHost)
  let s3' := { s2 with power := { s2.power with moved := moved } }.bump (0x4080 + port) 0
  let s3 := if qid = 0 then s3' else s3'.noteBusy
  (if cls = 1 then s3.bump (0x40B0 + port) 0 else s3)

/-- What a port's arbiter selects next (R312, R313): controller, class, queue, the class's new count, and whether a round begins. -/
def State.nextFetch (s : State) (port : Nat) : Option (Nat × Nat × Nat × Nat × Bool) :=
  let asking := s.askers port
  let round := tgetD s.host.round port []
  let used := fun (c : Nat) => ((round.find? fun e => e.1 = c).map (·.2)).getD 0
  let within := asking.find? fun c => used c.1 < s.share (c.1 - 1) 1
  (within.or asking.head?).bind fun c =>
    (c.2.select (s.fetchable c.1 c.2)).map fun q => (c.1, q.1, q.2.1, q.2.2, within.isNone)

/-- COMMAND_FETCH (R282, R312, R313): the port's arbiter selects a controller and a queue, and fetches its next entry;
`cid` and the byte counts are what the entry says. The buckets are charged. -/
def execCommandFetch (port cid bytesToHost bytesFromHost : Nat) (s : State) : Res :=
  onDie s port fun _ =>
    match s.nextFetch port with
    | none => .next s
    | some (cntl, cls, qid, served, fresh) =>
      .next (s.fetchFrom port cid bytesToHost bytesFromHost cntl cls qid served fresh (tgetD s.host.round port []))

/-! ### Creating and deleting queues (R281, R287, R288) -/

/-- I/O queues that a function may have: its share, at most its VQ resources less the admin pair. -/
def State.queueLimit (s : State) (cntl : Nat) : Nat := min (s.share (cntl - 1) 2) (s.vqOf cntl - 1)

/-- A submission queue is made, or the command fails; sizes are given as entries - 1. -/
def State.makeSq (s : State) (q : CmdRef) (qid size cqid prio base : Nat) (ordered : Bool) : State :=
  match s.ctrl q.cntl with
  | none => s
  | some c =>
    let orders := (c.sqs.filter fun k => k.2.ordered).length
    if (tget c.cqs cqid).isNone ∨ cqid = 0 then s.failCmd q 1 0
    else if qid = 0 ∨ s.queueLimit q.cntl < qid ∨ (tget c.sqs qid).isSome then s.failCmd q 1 1
    else if ordered ∧ s.obj 0x4008 0 ≤ orders then s.failCmd q 1 1
    else if size = 0 ∨ 4095 < size then s.failCmd q 1 2
    else
      let k : Sq := ⟨size + 1, base, cqid, prio % 4, ordered, false, 0, 0, [], none, 0⟩
      (s.modCtrl q.cntl fun c => { c with sqs := tset c.sqs qid k }).succeed q 0

/-- CREATE_IO_SQ (R281). -/
def execCreateIoSq (q : CmdRef) (qid size cqid prio base : Nat) (s : State) : Res :=
  startCmd s q fun _ => .next (s.makeSq q qid size cqid prio base false)

/-- CREATE_ORDERED_IO_SQ (R281, R294): PC must be 1, and a controller holds at most 0x4008 ordered SQs. -/
def execCreateOrderedIoSq (q : CmdRef) (qid size cqid prio base : Nat) (contiguous : Bool) (s : State) : Res :=
  startCmd s q fun _ =>
    let s1 := s.countVendor true 0xC5
    .next (if contiguous then s1.makeSq q qid size cqid prio base true else s1.failCmd q 0 2)

/-- CREATE_IO_CQ (R281). -/
def execCreateIoCq (q : CmdRef) (qid size vector base : Nat) (interrupts : Bool) (s : State) : Res :=
  startCmd s q fun _ =>
    match s.ctrl q.cntl with
    | none => .fault .notFetched
    | some c =>
      if qid = 0 ∨ s.queueLimit q.cntl < qid ∨ (tget c.cqs qid).isSome then .next (s.failCmd q 1 1)
      else if size = 0 ∨ 4095 < size then .next (s.failCmd q 1 2)
      else if msixVectors ≤ vector then .next (s.failCmd q 1 8)
      else
        let k : Cq := ⟨size + 1, base, vector, interrupts, 0, 0, true, []⟩
        .next ((s.modCtrl q.cntl fun c => { c with cqs := tset c.cqs qid k }).succeed q 0)

/-- Entries not fetched before the reset fence are fetched and completed unexecuted; their identifiers are the host's:
free values. -/
def State.abortWaiting (s : State) (cntl qid : Nat) : Nat → State
  | 0 => s
  | n + 1 => State.abortWaiting ((s.useFree).postCqe cntl ⟨qid, s.freeValue % 65536, 0, 8, false, 0, 0⟩) cntl qid n

/-- A submission queue is reset and deleted (R287). -/
def State.deleteSq (s : State) (q : CmdRef) (qid : Nat) (c : Ctrl) (k : Sq) : State :=
  let open' := c.cmds.filter fun m => m.sqid = qid
  let n := k.waiting + open'.length
  let s1 := s.modCtrl q.cntl fun c => { c with cmds := c.cmds.filter fun m => m.sqid ≠ qid }
  let s2 := (s1.purge q.cntl (some qid) 3).abortWaiting q.cntl qid k.waiting
  let s3 := open'.foldl (fun s m => s.postCqe q.cntl ⟨qid, m.cid, 0, 8, false, 0, 0⟩) s2
  let s4 := (s3.addObj 0x400B 0 n).modSq q.cntl qid fun k => { k with head := k.tail, order := [], frozen := false, failCid := none }
  let s5 := if n = 0 then s4 else (s4.bump 0x400A 0).raise (evDie (portOf q.cntl) 77) qid
  (((s5.countReset 8 qid).modCtrl q.cntl fun c => { c with deleting := c.deleting ++ [(q, qid)] }).endDeletes q.cntl)

/-- DELETE_IO_SQ (R287, R288): the reset fence. Waiting entries and every fetched command not posted complete with
00/08h, the engines' work for them stops, and the Delete completes once the entries have found room. -/
def execDeleteIoSq (q : CmdRef) (qid : Nat) (s : State) : Res :=
  startCmd s q fun _ =>
    match (s.ctrl q.cntl).bind fun c => (tget c.sqs qid).map fun k => (c, k) with
    | none => .next (s.failCmd q 1 1)
    | some (c, k) =>
      if qid = 0 then .next (s.failCmd q 1 1)
      else
        .next (s.deleteSq q qid c k)

/-- DELETE_IO_CQ (R288): fails while an SQ still uses the CQ. -/
def execDeleteIoCq (q : CmdRef) (qid : Nat) (s : State) : Res :=
  startCmd s q fun _ =>
    match s.ctrl q.cntl with
    | none => .fault .notFetched
    | some c =>
      if qid = 0 ∨ (tget c.cqs qid).isNone then .next (s.failCmd q 1 1)
      else if c.sqs.any fun k => k.2.cqid = qid then .next (s.failCmd q 1 0x0C)
      else .next ((s.modCtrl q.cntl fun c => { c with cqs := tdel c.cqs qid }).succeed q 0)

/-- ABORT_COMMAND (R287): always succeeds, reporting the command as not aborted, and affects nothing. -/
def execAbortCommand (q : CmdRef) (_sqid _cid : Nat) (s : State) : Res :=
  startCmd s q fun _ => .next ((s.bump 0x4009 0).succeed q 1)

/-! ### Features and asynchronous events (R274, R275, R535) -/

/-- The features supported. -/
def featureKnown (fid : Nat) : Bool := [1, 2, 4, 5, 7, 8, 9, 0x0B].contains fid

/-- The key of a feature value: temperature thresholds by sensor and kind, vectors by number. -/
def featureKey (fid value : Nat) : Nat :=
  if fid = 4 then 4 * 65536 + value / 65536 % 64 else if fid = 9 then 9 * 65536 + value % 65536 else fid

/-- The default of a feature: the over-temperature thresholds stand at WCTEMP, every other value at 0. -/
def featureDefault (key : Nat) : Nat := if key / 65536 = 4 ∧ key / 16 % 4 = 0 then 368 else 0

/-- A feature's value in force. -/
def Ctrl.feature (c : Ctrl) (key : Nat) : Nat := (tget c.feats key).getD (featureDefault key)

/-- A notice that Feature 0Bh enables by a bit (R274). -/
def State.notice (s : State) (cntl bit info page : Nat) : State :=
  match s.ctrl cntl with
  | some c => if c.en ∧ bitOf (c.feature 0x0B) bit then s.asyncEvent cntl 2 info page else s
  | none => s

/-- A namespace attribute notice (R280). -/
def State.nsNotice (s : State) (cntl nsid : Nat) : State :=
  let s1 := s.modCtrl cntl fun c => { c with changed := if c.changed.contains nsid then c.changed else c.changed ++ [nsid] }
  s1.notice cntl 8 0 4

/-- SET_FEATURES (R274): one power state; a temperature threshold of one sensor, or of all for TMPSEL Fh (R275); Number of Queues answers what
the function may have. -/
def execSetFeatures (q : CmdRef) (fid value : Nat) (s : State) : Res :=
  startCmd s q fun _ =>
    if !featureKnown fid ∨ (fid = 2 ∧ value % 32 ≠ 0) ∨ (fid = 4 ∧ ((8 < value / 65536 % 16 ∧ value / 65536 % 16 ≠ 15) ∨ 1 < value / 1048576 % 4)) ∨ (fid = 5 ∧ bitOf value 16) then
      .next (s.failCmd q 0 2)
    else if fid = 7 then
      let n := s.queueLimit q.cntl - 1
      let v := min n (value % 65536) + 65536 * min n (value / 65536)
      .next ((s.modCtrl q.cntl fun c => { c with feats := tset c.feats 7 v }).succeed q v)
    else
      let keys := if fid = 4 ∧ value / 65536 % 16 = 15 then (List.range 9).map fun k => featureKey 4 (value - 15 * 65536 + k * 65536)
        else [featureKey fid value]
      .next ((s.modCtrl q.cntl fun c => { c with feats := keys.foldl (fun t k => tset t k value) c.feats }).succeed q 0)

/-- GET_FEATURES (R274): the value in force, the default, the saved value (no feature is saved: its default), or its
capabilities (changeable). `fid` is the feature identifier in bits 7:0 and Dword 11 above them: the sensor and kind of a temperature threshold, the
vector of Feature 09h. -/
def execGetFeatures (q : CmdRef) (fid select : Nat) (s : State) : Res :=
  startCmd s q fun _ =>
    let f := fid % 256
    let d11 := fid / 256
    if !featureKnown f ∨ 3 < select ∨ (f = 4 ∧ (8 < d11 / 65536 % 16 ∨ 1 < d11 / 1048576 % 4)) ∨ (f = 9 ∧ msixVectors ≤ d11 % 65536) then
      .next (s.failCmd q 0 2)
    else
      let key := featureKey f d11
      let now := ((s.ctrl q.cntl).map fun c => c.feature key).getD 0
      .next (s.succeed q (if select = 0 then now else if select = 3 then 4 else featureDefault key))

/-- ASYNC_EVENT_REQUEST (R535): held outstanding, or completed at once by an event that waits; at most 16. -/
def execAsyncEventRequest (q : CmdRef) (s : State) : Res :=
  startCmd s q fun _ =>
    match s.ctrl q.cntl with
    | none => .fault .notFetched
    | some c =>
      match c.aePending with
      | e :: rest =>
        .next ((s.modCtrl q.cntl fun c => { c with aePending := rest, aeMasked := c.aeMasked || e.1 == 7 }).succeed q e.2)
      | [] =>
        if 16 ≤ c.aers.length then .next (s.failCmd q 1 5)
        else .next ((s.modCtrl q.cntl fun c => { c with aers := c.aers ++ [q.cid] }).started q)

/-! ### Firmware (R292, R293, R570) -/

/-- The image-verification key (R570). -/
def imageKey : List Nat := (List.range 48).map fun k => (Config.imageKey k).toNat

/-- How an image is judged (R570): 0 valid, 1 format, 2 tag, 3 digest, 4 security version. -/
def judgeImage (b : List Nat) (ty fused : Nat) : Nat :=
  let ss := field b 24 4
  let len := field b 28 4
  if b.take 8 ≠ ascii "HK7FWIMG" ∨ field b 8 2 ≠ 1 ∨ field b 10 1 ≠ ty ∨ 1048576 < ss ∨ len < ss ∨ b.length ≠ 256 + len ∨
      (ty = 2 ∧ ss ≠ 0) then 1
  else if hmac384 imageKey (b.take 208) ≠ slice 208 48 b then 2
  else if sha384 ((b.drop 256).take ss) ≠ slice 32 48 b ∨ sha384 (b.drop 256) ≠ slice 80 48 b then 3
  else if field b 12 4 < fused then 4 else 0

/-- FIRMWARE_IMAGE_DOWNLOAD (R274, R307): a piece of an image. -/
def execFirmwareImageDownload (q : CmdRef) (offset : Nat) (data : List Nat) (s : State) : Res :=
  startCmd s q fun _ =>
    if isVf q.cntl then .next (s.failCmd q 0 1)
    else if data.length % 4 ≠ 0 ∨ offset % 4 ≠ 0 then .next (s.failCmd q 0 2)
    else .next ({ s with host := { s.host with download := tset s.host.download offset data } }.succeed q 0)

/-- The image assembled from the pieces downloaded, which must be contiguous from 0. -/
def joinPieces : Tab (List Nat) → Nat → Option (List Nat)
  | [], _ => some []
  | (o, b) :: t, at' => if o = at' then (joinPieces t (at' + b.length)).map (b ++ ·) else none

/-- A part of an open lake take is held here (R292). -/
def State.holdsLake (s : State) : Bool := s.take.takes.any fun t => (t.state = 1 || t.state = 4) && t.lakeTake ≠ 0

/-- The reported firmware objects: activation permitted now (0x401E). -/
def State.activationAllowed (s : State) : Bool := !s.anyOpenOrClosing && !s.holdsLake

/-- A firmware commit is refused with EV P.18. -/
def State.refuseFw (s : State) (q : CmdRef) (sc : Nat) : State := ((s.failCmd q 1 sc).bump 0x400F 2).raise (evPkg 18) sc

/-- The image in a slot. -/
def State.fwSlot (s : State) (slot : Nat) : Option FwImage := tget s.host.fw slot

/-- The downloaded image goes into a slot, or the commit is refused: a slot 2 to 4, a valid image. -/
def State.replaceFw (s : State) (q : CmdRef) (slot : Nat) (k : State → State) : State :=
  if isVf q.cntl then s.failCmd q 0 1
  else if slot < 2 ∨ 4 < slot then s.refuseFw q 6
  else
    match joinPieces s.host.download 0 with
    | none => s.refuseFw q 7
    | some b =>
      if judgeImage b 3 (s.obj 0x1801 0) ≠ 0 then s.refuseFw q 7
      else
        let img : FwImage := ⟨field b 12 4, field b 16 8, true, b⟩
        k { s with host := { s.host with fw := tset s.host.fw slot img, download := [] } }

/-- FW_COMMIT_REPLACE (R292): action 0. -/
def execFwCommitReplace (q : CmdRef) (slot : Nat) (s : State) : Res :=
  startCmd s q fun _ => .next (s.replaceFw q slot fun s => s.succeed q 0)

/-- FW_COMMIT_REPLACE_ACTIVATE_RESET (R292): action 1. -/
def execFwCommitReplaceActivateReset (q : CmdRef) (slot : Nat) (s : State) : Res :=
  startCmd s q fun _ => .next (s.replaceFw q slot fun s => (s.setObj 0x400D 2 slot).succeed q 0)

/-- An image in a slot can be activated: slot 1 always, another when it is valid. -/
def State.slotValid (s : State) (slot : Nat) : Bool :=
  slot = 1 || match s.fwSlot slot with
    | some f => f.valid && s.obj 0x1801 0 ≤ f.secver
    | none => false

/-- FW_COMMIT_ACTIVATE_RESET (R292): action 2; prohibited while a take is open or closing. -/
def execFwCommitActivateReset (q : CmdRef) (slot : Nat) (s : State) : Res :=
  startCmd s q fun _ =>
    if isVf q.cntl then .next (s.failCmd q 0 1)
    else if slot = 0 ∨ 4 < slot then .next (s.refuseFw q 6)
    else if !s.slotValid slot then .next (s.refuseFw q 7)
    else if !s.activationAllowed then .next (s.refuseFw q 0x13)
    else .next ((s.setObj 0x400D 2 slot).succeed q 0)

/-! ### Virtual functions (R306, R308) -/

/-- VQ resources that the VFs of a port hold. -/
def State.vqUsed (s : State) (p : Nat) : Nat :=
  sum ((s.host.ctrls.filter fun c => portOf c.1 = p && isVf c.1).map (·.2.vq))

/-- The commands of Virtualization Management are the PF's own, about a VF of its port. -/
def State.ownVf (s : State) (q : CmdRef) (cntl : Nat) : Bool :=
  isVf cntl && portOf cntl = portOf q.cntl && (s.ctrl cntl).isSome

/-- A change of a VF waits for the first boundary that R52 permits; the command completes there (R308). `pendingVq` holds
the epoch and what is to be done: 0 to 129 resources, 1000 online, 1001 offline. -/
def State.holdVq (s : State) (q : CmdRef) (cntl what : Nat) : State :=
  (s.modCtrl cntl fun c => { c with pendingVq := some (s.permitted, what, q) }).started q

/-- VQ_RESOURCE_ASSIGN (R307, R308): to a VF that is offline, at most 129, from 2,048 of the port. -/
def execVqResourceAssign (q : CmdRef) (cntl count : Nat) (s : State) : Res :=
  startCmd s q fun _ =>
    if isVf q.cntl then .next (s.failCmd q 0 1)
    else if !s.ownVf q cntl then .next (s.failCmd q 1 0x1F)
    else
      match s.ctrl cntl with
      | none => .next (s.failCmd q 1 0x1F)
      | some c =>
        if c.online then .next (s.failCmd q 1 0x20)
        else if 129 < count ∨ 2048 < s.vqUsed (portOf cntl) - c.vq + count then .next (s.failCmd q 1 0x21)
        else .next (s.holdVq q cntl count)

/-- SECONDARY_ONLINE (R308): a VF with at least 2 VQ resources. -/
def execSecondaryOnline (q : CmdRef) (cntl : Nat) (s : State) : Res :=
  startCmd s q fun _ =>
    if isVf q.cntl then .next (s.failCmd q 0 1)
    else if !s.ownVf q cntl then .next (s.failCmd q 1 0x1F)
    else if s.vqOf cntl < 2 then .next (s.failCmd q 1 0x20)
    else .next (s.holdVq q cntl 1000)

/-- SECONDARY_OFFLINE (R308): the VF's controller is reset. -/
def execSecondaryOffline (q : CmdRef) (cntl : Nat) (s : State) : Res :=
  startCmd s q fun _ =>
    if isVf q.cntl then .next (s.failCmd q 0 1)
    else if !s.ownVf q cntl then .next (s.failCmd q 1 0x1F)
    else .next (s.holdVq q cntl 1001)

/-- The changes of VFs whose boundary this is (R308). -/
def State.applyVqs (s : State) : State :=
  s.host.ctrls.foldl (fun s c =>
    match c.2.pendingVq with
    | some (e, what, q) =>
      if !atOrAhead s.epoch e then s
      else
        let s1 := s.modCtrl c.1 fun c => { c with pendingVq := none }
        let s2 :=
          if what = 1000 then s1.modCtrl c.1 fun c => { c with online := true }
          else if what = 1001 then (s1.resetCtrl c.1).modCtrl c.1 fun c => { c with online := false }
          else s1.modCtrl c.1 fun c => { c with vq := what }
        let s3 := s2.setObj (0x4148 + portOf c.1) 2 (s2.vqUsed (portOf c.1))
        if s3.fetched q then s3.succeed q (if what < 1000 then what else 0) else s3
    | none => s) s

end Sys2Proof.Machine
end

