-- ==== Sys2Proof/Machine/HostData.lean ====
section
/-!
DEFINITION. Identify, namespace management and attachment, and Format NVM (chapter 9). Field offsets inside the Identify
structures, and the status codes of Namespace Attachment, are those of NVM Express 2.0c (PRESUMED, log entry 78).
-/

namespace Sys2Proof.Machine

/-! ### Capacity and visibility (R276, R310) -/

/-- TNVMCAP: the dies' usable bytes, halved under the mirror, 3/4 or 7/8 of them under 3+1 or 7+1 (R276). -/
def State.tnvmcap (s : State) : Nat :=
  let all := sum (s.dies.map fun d => s.obj (0x3100 + d) 0)
  if s.obj 0x3000 0 ≠ 1 then all
  else if s.cfg.dies = 2 then all / 2
  else all * (s.cfg.dies - 1) / s.cfg.dies

/-- UNVMCAP: TNVMCAP less the whole coarse units that every namespace is charged. -/
def State.unvmcap (s : State) : Nat := s.tnvmcap - sum (s.host.nss.map fun n => n.2.cus * cuBytes)

/-- The figures of 0x4005 and 0x4006. -/
def State.reportNss (s : State) : State :=
  let n := fun k => (s.host.nss.filter fun x => x.2.kind = k).length
  (((s.setObj 0x4005 1 (n 0)).setObj 0x4005 2 (n 1)).setObj 0x4006 1 s.tnvmcap).setObj 0x4006 2 s.unvmcap

/-- The namespace that a command names: attached to its controller, or attached when the command was fetched (R310). -/
def State.seen (s : State) (q : CmdRef) (nsid : Nat) : Option Ns :=
  match tget s.host.nss nsid with
  | some n => if n.attached.contains q.cntl || s.host.detached.contains (q.cntl, q.sqid * 65536 + q.cid, nsid) then some n else none
  | none => none

/-! ### Identify (R272, R274, R277) -/

/-- Fields at their offsets in a structure of 4,096 bytes: offset, width and value. -/
def structure4k (fields : List (Nat × Nat × Nat)) : List Nat :=
  fields.foldl (fun l f => patch l f.1 (leBytes f.2.1 f.2.2)) (zeros 4096)

/-- The package serial number as 16 uppercase hexadecimal digits (R272, R599). -/
def serialText : List Nat :=
  (List.range 16).map fun k => let v := Config.packageSerial / 16 ^ (15 - k) % 16; if v < 10 then 48 + v else 55 + v

/-- The subsystem's NQN (R272). -/
def subsystemNqn : List Nat := ascii "nqn.2024-01.com.mirtalon:hk7-" ++ serialText

/-- A text of 0x4003: SN is the package serial number (R599), in the digits of the NQN and padded with spaces; MN and FR are what the part carries. -/
def partTextOf (k n : Nat) : List Nat :=
  if k = 1 then (serialText ++ List.replicate n 32).take n else (List.range n).map fun i => (Config.partText k i).toNat

/-- The Identify Controller structure (CNS 01h). -/
def State.identifyController (s : State) (cntl : Nat) : List Nat :=
  let l := structure4k [(0, 2, (Config.pciId 1).toNat), (2, 2, (Config.pciId 3).toNat), (72, 1, 6), (76, 1, 7), (77, 1, 9),
    (78, 2, cntl), (80, 4, 0x20000), (84, 4, 2500000), (88, 4, 2000000), (92, 4, 0x300), (111, 1, 1), (256, 2, 0x8E),
    (258, 1, 3), (259, 1, 15), (260, 1, 0x19), (261, 1, 6), (262, 1, 255), (263, 1, 0), (264, 1, 1), (266, 2, 368),
    (268, 2, 383), (270, 2, 4), (280, 16, s.tnvmcap), (296, 16, s.unvmcap), (512, 1, 0x66), (513, 1, 0x44), (516, 4, 1024),
    (520, 2, 0x8D), (524, 1, 4), (525, 1, 0), (526, 2, 31), (528, 2, 31), (530, 1, 1), (536, 4, 1)]
  patch (patch (patch (patch l 4 (partTextOf 1 20)) 24 (partTextOf 2 40)) 64 (partTextOf 3 8)) 768 subsystemNqn

/-- NSATTR and byte 3073 bit 0: the namespace is write-protected; NSATTR is also set for every capture namespace. -/
def Ns.nsattr (n : Ns) : Nat := if n.kind = 1 ∨ n.wp then 1 else 0

/-- The globally unique identifier of a namespace. -/
def nguidOf (nsid : Nat) : List Nat := (List.range 16).map fun i => (Config.nguid nsid i).toNat

/-- LASTTAKE as the capture header shows it (R161). -/
def State.lastTakeOf (s : State) (nsid : Nat) (n : Ns) : Nat :=
  (s.take.takes.filter fun t => t.nsid = nsid && t.state = 5).foldl (fun m t => min m (t.num - 1)) n.lastTake

/-- The fields of Identify Namespace that every namespace has alike, with the atomic write unit that each one offers at least. -/
def nsCommon (awun : Nat) : List (Nat × Nat × Nat) :=
  [(24, 1, 0x12), (30, 1, 1), (33, 1, 9), (34, 2, awun), (36, 2, awun), (64, 2, 511), (66, 2, 511), (68, 2, 511), (70, 2, 511), (72, 2, 511),
   (128, 4, 12 * 65536)]

/-- The capabilities common to all namespaces (CNS 00h with NSID FFFFFFFFh). -/
def commonNs : List Nat := structure4k (nsCommon 31)

/-- The Identify Namespace structure (CNS 00h and 11h). -/
def State.identifyNs (s : State) (nsid : Nat) (n : Ns) : List Nat :=
  let l := structure4k (nsCommon (if n.kind = 1 then 511 else 31) ++ [(0, 8, n.nsze), (8, 8, n.nsze), (16, 8, n.used),
    (48, 16, n.cus * cuBytes), (99, 1, n.nsattr), (3072, 1, n.kind), (3073, 1, b2n n.wp),
    (3074, 2, if n.kind = 1 then s.lastTakeOf nsid n else 0)])
  patch l 104 (nguidOf nsid)

/-- A list of namespace identifiers above `nsid`. -/
def nsList (l : List Nat) (nsid : Nat) : List Nat := fit 4096 (((l.filter fun n => nsid < n).take 1024).flatMap (leBytes 4))

/-- A list of controller identifiers from `cntl` on. -/
def ctrlList (l : List Nat) (cntl : Nat) : List Nat :=
  let m := (l.filter fun c => cntl ≤ c).take 2047
  fit 4096 (leBytes 2 m.length ++ m.flatMap (leBytes 2))

/-- What Identify answers: data, or a generic status. CNS 00h of NSID FFFFFFFFh gives what every namespace has in common. -/
def State.identifyData (s : State) (q : CmdRef) (cns nsid cntl : Nat) : List Nat ⊕ Nat :=
  let attached := (s.host.nss.filter fun n => n.2.attached.contains q.cntl).map (·.1)
  let valid := 1 ≤ nsid ∧ nsid ≤ 1024
  let blank := zeros 4096
  if cns = 0 then
    if nsid = 2 ^ 32 - 1 then .inl commonNs
    else if !valid then .inr 0x0B else .inl (((s.seen q nsid).map (s.identifyNs nsid)).getD blank)
  else if cns = 1 then .inl (s.identifyController q.cntl)
  else if cns = 2 then if nsid < 2 ^ 32 - 2 then .inl (nsList attached nsid) else .inr 0x0B
  else if cns = 3 then
    if valid ∧ (s.seen q nsid).isSome then .inl (fit 4096 ([2, 16, 0, 0] ++ nguidOf nsid)) else .inr 0x0B
  else if cns = 0x10 then if nsid < 2 ^ 32 - 2 then .inl (nsList (s.host.nss.map (·.1)) nsid) else .inr 0x0B
  else if cns = 0x11 then
    if !valid then .inr 0x0B else .inl (((tget s.host.nss nsid).map (s.identifyNs nsid)).getD blank)
  else if cns = 0x12 then
    if !valid then .inr 0x0B else .inl (ctrlList (((tget s.host.nss nsid).map (·.attached)).getD []) cntl)
  else if cns = 0x13 then .inl (ctrlList (s.host.ctrls.map (·.1)) cntl)
  else .inr 2

/-- IDENTIFY (R274, R277). -/
def execIdentify (q : CmdRef) (cns nsid cntl : Nat) (s : State) : Res :=
  startCmd s q fun _ =>
    match s.identifyData q cns nsid cntl with
    | .inl b => .next ((s.dataOut q b).succeed q 0)
    | .inr sc => .next (s.failCmd q 0 sc)

/-! ### Namespace management (R276, R279, R280, R286, R307) -/

/-- The lowest namespace identifier not in use. -/
def State.freeNsid (s : State) : Option Nat :=
  ((List.range 1024).map (· + 1)).find? fun n => (tget s.host.nss n).isNone

/-- A namespace is created (R276). -/
def State.createNs (s : State) (q : CmdRef) (kind nsze nsid : Nat) : State :=
  let n : Ns := ⟨kind, nsze, [], false, 1, 0, [], s.obj 0x2226 0, s.obj 0x6001 0⟩
  let s1 := (({ s with host := { s.host with nss := tset s.host.nss nsid n } }.bump 0x401A 0).bump 0x6017 0).reportNss
  ((if kind = 1 then s1.writeHeader nsid else s1).succeed q nsid)

/-- NAMESPACE_CREATE (R276): checks, capacity, a capture header, and the identifier in DW0. -/
def execNamespaceCreate (q : CmdRef) (kind nsze ncap flbas : Nat) (s : State) : Res :=
  startCmd s q fun _ =>
    if isVf q.cntl then .next (s.failCmd q 0 1)
    else if s.fault.safeHold then .next (s.safeFail q 0x0D)
    else if 1 < kind ∨ flbas ≠ 0 ∨ ncap ≠ nsze ∨ (kind = 1 ∧ (nsze % 512 ≠ 0 ∨ nsze < 32768)) then .next (s.failCmd q 0 2)
    else if s.unvmcap < ceilDiv nsze 512 * cuBytes then .next (s.failCmd q 1 0x15)
    else
      match s.freeNsid with
      | none => .next (s.failCmd q 1 0x16)
      | some nsid =>
        .next (s.createNs q kind nsze nsid)

/-- Every block of a namespace is deallocated, and staged writes of it are dropped. -/
def State.deallocNs (s : State) (nsid : Nat) : State :=
  match tget s.host.nss nsid with
  | none => s
  | some n =>
    let s1 := s.dies.foldl (fun s d => ((s.md d).staged.filter fun u => u.nsid = nsid).foldl (fun s u => s.unstage d u) s) s
    let s2 := n.units.foldl (fun s u => s.unmapUnit u.2 nsid u.1) s1
    -- what tasks would still write there is discarded (R398)
    let lost := s2.host.stalled.filter fun w => w.q.cntl = 0 && w.nsid = nsid
    let s2 : State := { s2 with host := { s2.host with stalled := s2.host.stalled.filter fun w => !(w.q.cntl = 0 && w.nsid = nsid) } }
    let s2 := (lost.foldl (fun (s : State) w => match w.buf with
      | some b => (s.pondPut b.1 b.2).2
      | none => s) s2).settleExits
    { s2 with take := { s2.take with takes := s2.take.takes.filter fun t => t.nsid ≠ nsid } }.settleWrites

/-- A take of the namespace is open or closing, so that it can be neither deleted nor formatted (R279). -/
def State.inUse (s : State) (nsid : Nat) : Bool := s.take.takes.any fun t => t.nsid = nsid && (t.state = 1 || t.state = 4)

/-- One namespace is deleted. -/
def State.deleteNs (s : State) (nsid : Nat) : State :=
  let seen := ((tget s.host.nss nsid).map (·.attached)).getD []
  let s1 := s.deallocNs nsid
  let s2 := { s1 with host := { s1.host with nss := tdel s1.host.nss nsid } }
  (seen.foldl (fun s c => s.nsNotice c nsid) s2).bump 0x401A 0

/-- NAMESPACE_DELETE (R279): one namespace, or every one for FFFFFFFFh. -/
def execNamespaceDelete (q : CmdRef) (nsid : Nat) (s : State) : Res :=
  startCmd s q fun _ =>
    let all := if nsid = 2 ^ 32 - 1 then s.host.nss.map (·.1) else [nsid]
    if isVf q.cntl then .next (s.failCmd q 0 1)
    else if s.fault.safeHold then .next (s.safeFail q 0x0D)
    else if nsid ≠ 2 ^ 32 - 1 ∧ (tget s.host.nss nsid).isNone then .next (s.failCmd q 0 0x0B)
    else if all.any s.inUse then .next (s.failVendor q 0x0D 0xC0 0)
    else .next (((all.foldl State.deleteNs s).reportNss).succeed q 0)

/-- The controllers of a list exist and may be attached. -/
def State.ctrlsOk (s : State) (cntls : List Nat) : Bool := cntls ≠ [] && cntls.all fun c => (s.ctrl c).isSome

/-- Controllers are attached to a namespace (R280). -/
def State.attachNs (s : State) (q : CmdRef) (nsid : Nat) (cntls : List Nat) (n : Ns) : State :=
  let attached := (List.range 257).filter fun c => n.attached.contains c || cntls.contains c
  let s1 := { s with host := { s.host with nss := tset s.host.nss nsid { n with attached := attached } } }
  ((cntls.foldl (fun s c => s.nsNotice c nsid) s1).succeed q 0)

/-- NAMESPACE_ATTACH (R280): visible at once, with a notice. -/
def execNamespaceAttach (q : CmdRef) (nsid : Nat) (cntls : List Nat) (s : State) : Res :=
  startCmd s q fun _ =>
    if isVf q.cntl then .next (s.failCmd q 0 1)
    else
      match tget s.host.nss nsid with
      | none => .next (s.failCmd q 0 0x0B)
      | some n =>
        if !s.ctrlsOk cntls then .next (s.failCmd q 1 0x1C)
        else if cntls.any n.attached.contains then .next (s.failCmd q 1 0x18)
        else
          .next (s.attachNs q nsid cntls n)

/-- Controllers are detached from a namespace (R310). -/
def State.detachNs (s : State) (q : CmdRef) (nsid : Nat) (cntls : List Nat) (n : Ns) : State :=
  let old := cntls.flatMap fun c => (((s.ctrl c).map (·.cmds)).getD []).map fun m => (c, m.sqid * 65536 + m.cid, nsid)
  let n' := { n with attached := n.attached.filter fun c => !cntls.contains c }
  let s1 := { s with host := { s.host with nss := tset s.host.nss nsid n', detached := s.host.detached ++ old } }
  ((cntls.foldl (fun s c => s.nsNotice c nsid) s1).succeed q 0)

/-- NAMESPACE_DETACH (R310): commands fetched before it may still name the namespace. -/
def execNamespaceDetach (q : CmdRef) (nsid : Nat) (cntls : List Nat) (s : State) : Res :=
  startCmd s q fun _ =>
    if isVf q.cntl then .next (s.failCmd q 0 1)
    else
      match tget s.host.nss nsid with
      | none => .next (s.failCmd q 0 0x0B)
      | some n =>
        if !s.ctrlsOk cntls then .next (s.failCmd q 1 0x1C)
        else if cntls.any fun c => !n.attached.contains c then .next (s.failCmd q 1 0x1A)
        else
          .next (s.detachNs q nsid cntls n)

/-- One namespace is formatted: its blocks are deallocated, and a cryptographic erase takes a new key (R279, R443). -/
def State.formatOne (crypto : Bool) (s : State) (n : Nat) : State :=
  let s1 := if crypto then (s.deallocNs n).bump 0x6017 0 else s.deallocNs n
  { s1 with host := { s1.host with nss := tmod s1.host.nss n fun x => { x with keyGen := x.keyGen + b2n crypto } } }

/-- A worn die on which no namespace has data any more, those that had being deleted, is worn no longer once a format runs (R237). -/
def State.unwear (s : State) : State :=
  s.dies.foldl (fun s d =>
    let m := s.md d
    if m.worn ∧ m.maps.coarse.isEmpty ∧ m.staged.isEmpty then (s.setMd d { m with worn := false }).reportReserve d else s) s

/-- A Format NVM of one namespace or of all attached: checks, deallocation, and the key generation under SES 2. -/
def State.format (s : State) (q : CmdRef) (nsid : Nat) (crypto : Bool) : State :=
  let mine := (s.host.nss.filter fun n => n.2.attached.contains q.cntl).map (·.1)
  let all := if nsid = 2 ^ 32 - 1 then mine else [nsid]
  let kind := fun n => ((tget s.host.nss n).map (·.kind)).getD 0
  let alone := fun n => ((tget s.host.nss n).map (·.attached)).getD [] = [q.cntl]
  if s.fault.safeHold then s.safeFail q 0x80
  else if isVf q.cntl ∧ all.any fun n => !alone n then s.failCmd q 0 2
  else if nsid ≠ 2 ^ 32 - 1 ∧ (tget s.host.nss nsid).isNone then s.failCmd q 0 0x0B
  else if all.any s.inUse then s.failVendor q 0x80 0xC0 0
  else if s.obj 0x2226 0 = 1 ∧ all.any fun n => kind n = 1 then s.failVendor q 0x80 0xC9 0
  else
    (all.foldl (State.formatOne crypto) s.unwear).succeed q 0

/-- FORMAT_NVM (R279): SES 0. -/
def execFormatNvm (q : CmdRef) (nsid : Nat) (s : State) : Res := startCmd s q fun _ => .next (s.format q nsid false)

/-- FORMAT_NVM_CRYPTO_ERASE (R279, R443): SES 2. -/
def execFormatNvmCryptoErase (q : CmdRef) (nsid : Nat) (s : State) : Res := startCmd s q fun _ => .next (s.format q nsid true)

end Sys2Proof.Machine
end

