-- ==== Sys2Proof/Machine/Nvm.lean ====
section
/-!
DEFINITION. The NVM commands, the reads they wait for, and the vendor commands that read takes and ranges (chapters 7
and 9).
-/

namespace Sys2Proof.Machine

/-! ### Writes (R202, R236 to R238, R278, R283, R286) -/

/-- The checks of a command that changes a namespace: the failing state, or the namespace. -/
def State.judgeChange (s : State) (q : CmdRef) (op nsid : Nat) (ranges : List (Nat × Nat)) : State ⊕ Ns :=
  if s.fault.safeHold then .inl (s.safeFail q op)
  else
    match s.seen q nsid with
    | none => .inl (s.failCmd q 0 0x0B)
    | some n =>
      if n.kind = 1 then .inl ((s.failCmd q 0 0x20).bump 0x4015 0)
      else if n.wp then .inl (s.failCmd q 0 0x20)
      else if ranges.any fun r => n.nsze < r.1 + r.2 then .inl (s.failCmd q 0 0x80)
      else .inr n

/-- NVM_WRITE (R202, R278, R283, R286). -/
def execNvmWrite (q : CmdRef) (nsid slba nlb : Nat) (data : List Nat) (s : State) : Res :=
  startCmd s q fun _ =>
    let blocks := nlb + 1
    match s.judgeChange q 1 nsid [(slba, blocks)] with
    | .inl t => .next t
    | .inr _ =>
      if 512 < blocks then .next (s.failCmd q 0 2)
      else if data.length ≠ 4096 * blocks then .next (s.failCmd q 0 0x0F)
      else if s.tooFull nsid slba blocks then .next (s.failCmd q 0 0x81)
      else .next ((((s.addSmart 2 1).addSmart 15 (4096 * blocks)).addObj (0x40A8 + portOf q.cntl) 0 (4096 * blocks)).acceptWrite ⟨q, nsid, slba, blocks, data, [], none, 0⟩)

/-- WRITE_ZEROES (R202, R278). -/
def execWriteZeroes (q : CmdRef) (nsid slba nlb : Nat) (s : State) : Res :=
  startCmd s q fun _ =>
    let blocks := nlb + 1
    match s.judgeChange q 8 nsid [(slba, blocks)] with
    | .inl t => .next t
    | .inr _ =>
      if s.tooFull nsid slba blocks then .next (s.failCmd q 0 0x81)
      else .next (s.acceptWrite ⟨q, nsid, slba, blocks, [], [], none, 0⟩)

/-- DATASET_MANAGEMENT_DEALLOCATE (R202, R278). -/
def execDatasetManagementDeallocate (q : CmdRef) (nsid : Nat) (ranges : List (Nat × Nat)) (s : State) : Res :=
  startCmd s q fun _ =>
    match s.judgeChange q 9 nsid ranges with
    | .inl t => .next t
    | .inr _ =>
      if ranges = [] ∨ 256 < ranges.length then .next (s.failCmd q 0 2)
      else .next (s.acceptWrite ⟨q, nsid, 0, 0, [], ranges, none, 0⟩)

/-! ### Reads and what they wait for (R217, R223, R278, R284) -/

/-- The coarse units of a capture namespace that an ordinary read shows: the directory area, manifest extents, and the
segments of recorded frames (R278). -/
def State.shownUnits (s : State) (nsid : Nat) : List Nat :=
  let of := s.take.takes.filter fun t => t.nsid = nsid && t.state ≠ 3 && t.state ≠ 5
  List.range 5 ++ of.flatMap fun t => t.extents ++ (t.records.filter fun r => r.headD 0 = 1).flatMap entryUnits

/-- An ordinary read shows a coarse unit of a namespace (R278). -/
def State.shows (s : State) (nsid unit : Nat) : Bool :=
  match tget s.host.nss nsid with
  | some n => n.kind ≠ 1 || (s.shownUnits nsid).contains unit
  | none => true

/-- The blocks of a range. -/
def rangeLbas (slba blocks : Nat) : List Nat := (List.range blocks).map (· + slba)

/-- Bytes that a command has read. -/
def HeldRead.bytes (r : HeldRead) (off len : Nat) : List Nat :=
  let all := (List.range (ceilDiv (off % 4096 + len) 4096)).flatMap fun k => tgetD r.got (off / 4096 + k) (zeros 4096)
  (all.drop (off % 4096)).take len

/-- The bytes of the range of a command. -/
def HeldRead.range (r : HeldRead) : List Nat := r.bytes (4096 * r.slba) (4096 * r.blocks)

/-- Bytes of a command go to the host and are counted. -/
def State.sendBytes (s : State) (q : CmdRef) (bytes : List Nat) : State :=
  ((s.dataOut q bytes).addObj (0x40A0 + portOf q.cntl) 0 bytes.length).addSmart 14 bytes.length

/-- A comparison result completes a verify command (R299). -/
def State.endVerify (s : State) (q : CmdRef) (op : Nat) (equal : Bool) : State :=
  let (pattern, _) := comparePattern equal none
  let s1 := s.countCompare (portOf q.cntl) pattern
  if pattern = 0b1010 then s1.succeed q pattern else s1.failVendor q op 0xC7 pattern

/-- The manifest entry of a recorded frame. -/
def Take.frameEntry (t : Take) (spring frame : Nat) : Option (List Nat) :=
  t.records.find? fun r => r.headD 0 = 1 && field r 4 1 = spring && field r 8 4 = frame

/-- The band records of a frame entry, or the one named. -/
def entryBands (r : List Nat) (band : Nat) : List (List Nat) :=
  let all := (List.range (field r 5 1)).map fun k => slice (64 + 48 * k) 48 r
  if band = 255 then all else all.filter fun b => field b 46 2 = band

/-- The bytes of a band that is stored. -/
def HeldRead.bandBytes (r : HeldRead) (b : List Nat) : List Nat := r.bytes (field b 32 8) (field b 40 4)

/-- The LBAs that hold the bytes of bands. -/
def bandLbas (bands : List (List Nat)) : List Nat :=
  (bands.flatMap fun b =>
    if field b 40 4 = 0 then []
    else (List.range (ceilDiv (field b 32 8 % 4096 + field b 40 4) 4096)).map (· + field b 32 8 / 4096)).eraseDups

/-- Verify Frame (R299): every stored band is recomputed, and for a whole frame the frame digest. -/
def HeldRead.frameGood (r : HeldRead) (e : List Nat) (band : Nat) : Bool :=
  let stored := fun (b : List Nat) => !bitOf (field b 45 1) 2
  let again := fun (b : List Nat) => if stored b then sha256 (r.bandBytes b) else b.take 32
  let bands := entryBands e band
  (bands.all fun b => again b = b.take 32) && (band ≠ 255 || sha256 (bands.flatMap again) = slice 32 32 e)

/-- The digest of a range by algorithm: 0 SHA-256, 1 SHA-384, 2 SHA-512. -/
def rangeDigest (alg : Nat) (l : List Nat) : List Nat := if alg = 0 then sha256 l else if alg = 1 then sha384 l else sha512 l
def rangeDigestBytes (alg : Nat) : Nat := if alg = 0 then 32 else if alg = 1 then 48 else 64

/-- The work of a command whose reads are done; `kind` 0 Read, 1 Compare, 2 Verify, 3 Verify Frame, 4 Verify Range
Digest, 5 Compute Range Digest, 6 Read Frame. The parameters of 3 and 6 stand in `data`: take, spring, frame, band, offset, bytes. -/
def State.finishRead (s0 : State) (r : HeldRead) : State :=
  let s := s0.xtsRun 1 (r.range).length
  let q := r.q
  let arg := fun k => r.data.getD k 0
  let entry := (s.takeOf r.nsid (arg 0)).bind fun t => Take.frameEntry t (arg 1) (arg 2)
  if r.lost ≠ 0 then (s.failCmd q 2 0x81).addSmart 7 r.lost
  else
    match r.kind with
    | 0 => ((s.sendBytes q (r.range)).addSmart 1 1).succeed q 0
    | 1 => if r.range = r.data then s.succeed q 0 else s.failCmd q 2 0x85
    | 2 => s.succeed q 0
    | 3 =>
      match entry with
      | some e => (s.digestRun 1 1 (r.range).length).endVerify q 0x88 (r.frameGood e (arg 3))
      | none => s.failVendor q 0x88 0xC1 0
    | 4 =>
      match r.data with
      | alg :: expected => (s.digestRun 1 (alg + 1) (r.range).length).endVerify q 0x8D (rangeDigest alg (r.range) = expected)
      | [] => s.failCmd q 0 2
    | 5 => ((s.digestRun 1 (arg 0 + 1) (r.range).length).sendBytes q (rangeDigest (arg 0) (r.range))).succeed q 0
    | _ =>
      match entry with
      | none => s.failVendor q 0x92 0xC1 0
      | some e =>
        let bands := entryBands e (arg 3)
        let all := bands.flatMap r.bandBytes
        let moved := min (arg 5) (all.length - arg 4)
        -- the band flags of a whole frame are not stated but for MISSING: a free value
        let lacks := bands.any fun b => bitOf (field b 45 1) 2
        let flags := if arg 3 = 255 then s.freeValue % 256 / 8 * 8 + 4 * b2n lacks + s.freeValue % 4 else field (bands.headD []) 45 1
        let s1 := if arg 3 = 255 then s.useFree else s
        let s2 := (s1.sendBytes q (fit (arg 5) (all.drop (arg 4)))).bump (0x40C0 + portOf q.cntl) 0
        s2.finish q 0 0 false moved (field e 2 2 + 65536 * flags)

/-- The map pages that the lookup of a granule uses (R207). -/
def State.lookUp (s : State) (nsid lba : Nat) : State :=
  let d := s.readDie (s.unitDie nsid (lba / 512))
  let key := cuKey nsid (lba / 512)
  let s1 := s.usePage d (0, key / 512)
  if ((s.md d).entry key).state = 2 then s1.usePage d (1, key) else s1

/-- What a command has of a granule when it starts: staged bytes, or zero bytes where the granule is mapped nowhere or an ordinary read does not show it; none where
the flash has it. -/
def State.atStart (s : State) (r : HeldRead) (lba : Nat) : Option (List Nat) :=
  let d := s.unitDie r.nsid (lba / 512)
  if r.kind ≠ 3 ∧ r.kind ≠ 6 ∧ !s.shows r.nsid (lba / 512) then some (zeros 4096)
  else
    match (s.md d).stagedFor r.nsid (lba / 512) (lba % 512) with
    | some u => some (s.stagedGranule d u (lba % 512))
    | none => if (s.granuleAt r.nsid lba).isNone then some (zeros 4096) else none

/-- A command's granules are read: what staging or no place holds as it stands now, the rest from flash; it ends at once when nothing is on flash, or when one is
unrecoverable or staged with a poisoned word (R25, R223, R232). -/
def State.startRead (s : State) (r : HeldRead) (lbas : List Nat) : State :=
  let wanted := lbas.filter fun lba => r.kind = 3 || r.kind = 6 || s.shows r.nsid (lba / 512)
  let bad := wanted.filter (s.unreadable r.nsid)
  let got := lbas.filterMap fun lba => (s.atStart r lba).map fun b => (lba, b)
  let r' : HeldRead := { r with got := got.foldl (fun (t : Tab (List Nat)) e => tset t e.1 e.2) [] }
  let rest := wanted.filter fun lba => (s.atStart r lba).isNone
  if rest.isEmpty ∨ bad ≠ [] then (bad.foldl (fun s lba => s.noteUnreadable 2 r.nsid lba) s).finishRead { r' with left := 0, lost := bad.length }
  else
    let s1 := { s with host := { s.host with reads := s.host.reads ++ [{ r' with left := rest.length }] } }
    rest.foldl (fun s lba =>
      match s.granuleAt r.nsid lba with
      | none => s
      | some p => (s.lookUp r.nsid lba).issueOp (s.readDie p.1) (.read r.nsid lba p.1 r.q.cntl r.q.sqid r.q.cid) 4096 p.2.1 p.2.2) (s1.started r.q)

/-- The checks of a command that reads a range. -/
def State.readRange (s : State) (q : CmdRef) (nsid slba blocks : Nat) (k : Ns → State) : State :=
  match s.seen q nsid with
  | none => s.failCmd q 0 0x0B
  | some n => if n.nsze < slba + blocks then s.failCmd q 0 0x80 else k n

/-- NVM_READ (R278, R283, R284). -/
def execNvmRead (q : CmdRef) (nsid slba nlb sglBytes : Nat) (s : State) : Res :=
  startCmd s q fun _ =>
    let blocks := nlb + 1
    .next (s.readRange q nsid slba blocks fun _ =>
      if 512 < blocks then s.failCmd q 0 2
      else if sglBytes ≠ 4096 * blocks then s.failCmd q 0 0x0F
      else s.startRead ⟨q, nsid, slba, blocks, 0, [], 0, 0, []⟩ (rangeLbas slba blocks))

/-- COMPARE (R274). -/
def execCompare (q : CmdRef) (nsid slba nlb : Nat) (data : List Nat) (s : State) : Res :=
  startCmd s q fun _ =>
    let blocks := nlb + 1
    .next (s.readRange q nsid slba blocks fun _ =>
      if 512 < blocks then s.failCmd q 0 2
      else if data.length ≠ 4096 * blocks then s.failCmd q 0 0x0F
      else s.startRead ⟨q, nsid, slba, blocks, 1, data, 0, 0, []⟩ (rangeLbas slba blocks))

/-- VERIFY (R274). -/
def execVerify (q : CmdRef) (nsid slba nlb : Nat) (s : State) : Res :=
  startCmd s q fun _ =>
    .next (s.readRange q nsid slba (nlb + 1) fun _ =>
      s.startRead ⟨q, nsid, slba, nlb + 1, 2, [], 0, 0, []⟩ (rangeLbas slba (nlb + 1)))

/-- A granule that a command waits for has been read: its data, or none where it is unrecoverable. -/
def State.granuleRead (s : State) (nsid lba : Nat) (q : CmdRef) (data : Option (List Nat)) : State :=
  let step := fun (r : HeldRead) =>
    if r.q = q ∧ r.nsid = nsid then
      { r with left := r.left - 1, lost := if data.isNone then r.lost + 1 else r.lost, got := tset r.got lba (data.getD (zeros 4096)) }
    else r
  let s1 := { s with host := { s.host with reads := s.host.reads.map step } }
  let done := s1.host.reads.filter fun r => r.left = 0
  let s2 := { s1 with host := { s1.host with reads := s1.host.reads.filter fun r => r.left ≠ 0 } }
  done.foldl State.finishRead s2

/-- The granules whose codewords a row of a block stripe's member holds, by namespace key, granule and position. -/
def MediaDie.rowGranules (m : MediaDie) (stripe row channel : Nat) : List (Nat × Nat × Nat) :=
  m.maps.coarse.flatMap fun e =>
    ((m.mapOf e.1).filter fun g => g.2.1 = stripe && m.rowOf g.2.2 = row && m.memberOf stripe g.2.2 = channel).map fun g => (e.1, g.1, g.2.2)

/-- A row that the flash scrub has read (R225): its result counts like any other read's. -/
def State.scrubRead (s : State) (d stripe row : Nat) (o : FlashOp) (outcome : ReadOutcome) : State :=
  let s1 := s.countRead d stripe o.channel
  let s2 := match outcome with
    | .decoded step detail corrected =>
      (if step = 3 then s1.softReads d stripe o.channel o.pos detail else s1).readStep d stripe o.channel 0 step detail corrected true
    | _ => s1
  let hit := fun (g : Nat × Nat × Nat) =>
    let bad := !s.codewordGood d stripe g.2.2 (512 * (g.1 % 2 ^ 40) + g.2.1)
    match outcome with
    | .unrecoverable => true
    | .lost ps => ps.contains g.2.2 || bad
    | .decoded .. => bad
  (((s.md d).rowGranules stripe row o.channel).filter fun g => hit g && !s.isLost (g.1 / 2 ^ 40) (512 * (g.1 % 2 ^ 40) + g.2.1)).foldl
    (fun s g => ((s.addObj (0x31F8 + d) 0 4).bump (0x35A8 + d) 0).lostGranule d (g.1 / 2 ^ 40) (512 * (g.1 % 2 ^ 40) + g.2.1)) s2

/-- A copy's or a folding's destination did not verify: its block is retired, and the copy goes to a newly chosen one (R231). -/
def State.verifyFails (s : State) (d : Nat) (o : FlashOp) : State :=
  let s1 := (s.retireBlock d o.stripe o.channel).redirected d o
  match o.kind with
  | .hostWrite nsid unit heat promote coarse fine _ => s1.reprogram d { o with kind := .hostWrite nsid unit heat promote coarse fine 1 }
  | _ => s1.reprogram d o

/-- The merged writes of a unit whose merge read has ended are placed (R202). -/
def State.merged (s : State) (d nsid unit heat : Nat) (src : Tab (Nat × Nat × Nat)) (outcome : ReadOutcome) : State :=
  match (s.md d).staged.find? fun u => u.nsid = nsid && u.unit = unit && u.phase = 1 with
  | none => s
  | some u => (s.judgeReads d nsid unit outcome src).beginCoarse d u heat

/-- Folded data has been verified: it is mapped, unless the unit has changed since (R231, R232). -/
def State.folded (s : State) (d : Nat) (u : StagedUnit) (k : OpKind) (coarse : Option (Nat × Nat)) (fine : Tab (Nat × Nat)) : State :=
  let key := cuKey u.nsid u.unit
  let m := s.md d
  if coarse.isSome ∧ ((m.entry key).word d ≠ u.old ∨ u.src.any fun g => m.placeOf key g.1 ≠ some g.2) then
    (s.dropDest d coarse fine).placementEnds d u.nsid u.unit
  else s.foldPassed d u k coarse fine

/-- The blocks of a stripe's member programmed anew have been read back (R214, R231): the member stands, or its block is retired and the rebuild begins again. -/
def State.memberVerified (s : State) (d k c : Nat) (ok : Bool) : State :=
  let m := s.md d
  if ok then
    s.setMd d { m with stripes := tmod m.stripes k fun x => { x with lost := x.lost.filter (· ≠ c) } }
  else (s.retireBlock d k c).queueBg d ⟨1, 12, 0, 16 * k + c, m.positions / 15 * granuleBytes, none⟩

/-- What the end of a read leads to (R202, R214, R223, R225, R231). -/
def State.readEnds (s : State) (d : Nat) (o : FlashOp) (outcome : ReadOutcome) : State :=
  match o.kind with
  | .read nsid lba from' cntl sqid cid =>
    let lost := s.lostOf nsid (lba / 512) from' outcome [(lba % 512, o.stripe, o.pos)] ≠ []
    let data := if lost then none else some (s.flashGranule from' nsid lba (o.stripe, o.pos))
    ((s.noteRead d 1 o).judgeReads d nsid (lba / 512) outcome [(lba % 512, from', o.stripe, o.pos)]).granuleRead nsid lba ⟨cntl, sqid, cid⟩ data
  | .mergeRead nsid unit heat src => (s.noteRead d 1 o).merged d nsid unit heat src outcome
  | .hostWrite nsid unit heat promote coarse fine _ =>
    match (s.md d).placing nsid unit with
    | none => s.dropDest d coarse fine
    | some u =>
      if s.verifies outcome then (s.noteRead d 2 o).folded d u o.kind coarse fine
      else (s.noteRead d 2 o).verifyFails d o
  | .copy _ nsid unit from' src dst _ =>
    if s.verifies outcome then (s.noteRead d 2 o).copyVerified d nsid unit from' src dst else (s.noteRead d 2 o).verifyFails d o
  | .bgRead rank kind nsid unit from' src =>
    let s1 := (s.noteRead d 2 o).judgeReads d nsid unit outcome (src.map fun g => (g.1, from', g.2))
    if kind = 7 then s1.foldUnit d nsid unit src else s1.copyProgram d rank kind nsid unit from' src
  | .scrubRead stripe row => (s.noteRead d 2 o).scrubRead d stripe row o outcome
  | .rebuild k c phase =>
    if phase = 2 then (s.noteRead d 2 o).memberVerified d k c (s.verifies outcome)
    else (s.noteRead d 2 o).bgOn d (.rebuild k c 1) ((s.md d).positions / 15 * granuleBytes) k 0 c
  | _ => s

/-- FLASH_READ_COMPLETE (R202, R223, R224, R225, R231, R260, R261): a read ends with the step that recovered its granules, one that the decoders can come to, or without some of
them. -/
def execFlashReadComplete (die op : Nat) (outcome : ReadOutcome) (s : State) : Res :=
  onDie s die fun _ =>
    match tget (s.md die).ops op with
    | none => .next s
    | some o =>
      if o.waits ∨ !o.kind.isRead ∨ !s.outcomeOk die o outcome then .next s
      else .next ((s.endOp die op).readEnds die o outcome)

/-! ### Flush and the checkpoint pass (R203, R211, R290) -/

/-- Staged data of the namespace is placed, and the Flush waits for every command fetched before it that writes there or has not started (R290). -/
def State.flushNs (s : State) (q : CmdRef) (nsid : Nat) : State :=
  let f : HeldFlush := ⟨q, nsid, s.seqOf q, s.time.now⟩
  let s1 := s.dies.foldl (fun s d =>
    ((s.md d).staged.filter fun u => f.mine u.nsid).foldl (fun s u => s.placeStaged d u.id) s) s
  let s2 := { s1 with host := { s1.host with flushes := s1.host.flushes ++ [f] } }
  (s2.started q).settleWrites

/-- FLUSH (R290): staged writes are ordered out; the command waits for every write to the namespace fetched before it. -/
def execFlush (q : CmdRef) (nsid : Nat) (s : State) : Res :=
  startCmd s q fun _ =>
    let all := nsid = 2 ^ 32 - 1
    if !all ∧ (s.seen q nsid).isNone then .next (s.failCmd q 0 0x0B)
    else
      let s0 := s.bump 0x401C 1
      if ((tget s.host.nss nsid).map (·.kind)).getD 0 = 1 then .next (s0.succeed q 0)
      else .next (s0.flushNs q nsid)

/-- The places of all map pages as a pass leaves them. -/
def MediaDie.passPlaces (m : MediaDie) : Tab (Nat × Nat) := m.passPages.foldl (fun t p => tset t p.1 p.2) ((m.ckpt.map (·.places)).getD [])

/-- A checkpoint pass ends (R211, R219): the checkpoint-end record locates the new map-page directory (a free value: the spec gives no form for it), and
the checkpoint holds once that record is on flash; device time is stored with it. -/
def State.passEnds (s : State) (die : Nat) (m : MediaDie) : State :=
  let s1 := ((s.logMap die 8 0 1 0 m.passBegin (s.freeValue % 2 ^ 64) 0).useFree).storeTime
  let m1 := s1.md die
  let quiet := s.host.ctrls.all fun c => !c.2.en || c.2.shst = 2
  let s2 := s1.setMd die { m1 with passRunning := false, passIssued := false, passPages := []
                                   nextCkpt := some (m1.nextSeq - 1, ⟨m.passBegin, m1.maps, m1.passPlaces⟩)
                                   calibrated := if quiet then some s.dtimeS else m1.calibrated
                                   bg := m1.bg.filter fun w => w.kind ≠ 2, marker := if quiet then 2 else 0 }
  (((s2.bump (0x3140 + die) 1).setObj (0x3140 + die) 2 s.epoch).settleWrites).retryStalled

/-- The map pages of a checkpoint pass are on flash. -/
def MediaDie.pagesDone (m : MediaDie) : Bool :=
  let isPages := fun (k : OpKind) => match k with
    | .mapPages _ => true
    | _ => false
  m.passIssued && !(m.ops.any fun o => isPages o.2.kind) && !(m.later.any fun o => isPages o.kind)

/-- CHECKPOINT_PASS_COMPLETE (R211): once every changed map page is programmed, the checkpoint-end record is appended, and host writes held by a full
journal complete. -/
def execCheckpointPassComplete (die : Nat) (s : State) : Res :=
  onDie s die fun _ =>
    let m := s.md die
    if !m.passRunning ∨ !m.pagesDone then .next s
    else
      .next (s.passEnds die m)

/-! ### Vendor commands on takes and ranges (R298 to R300) -/

/-- A vendor I/O command is counted by opcode and, with `k`, by kind: 1 compute, 2 search, 3 digest. -/
def State.countIo (s : State) (q : CmdRef) (op k : Nat) : State :=
  let s1 := s.countVendor false op
  if k = 0 then s1 else s1.bump (0x40C8 + portOf q.cntl) k

/-- A take-relative command needs a capture namespace and a take of it that exists. -/
def State.onTake (s : State) (q : CmdRef) (op nsid take : Nat) (k : Take → State) : State :=
  match s.seen q nsid with
  | none => s.failCmd q 0 0x0B
  | some n =>
    if n.kind ≠ 1 then s.failCmd q 0 2
    else
      match s.takeOf nsid take with
      | some t => if t.state = 3 ∨ t.state = 5 then s.failVendor q op 0xC2 0 else k t
      | none => s.failVendor q op 0xC2 0

/-- A command about a recorded frame: it fails when the frame has no manifest entry. -/
def State.onFrame (s : State) (q : CmdRef) (op nsid take spring frame : Nat) (k : List Nat → State) : State :=
  s.onTake q op nsid take fun t =>
    match Take.frameEntry t spring frame with
    | some r => k r
    | none => s.failVendor q op 0xC1 0

/-- A named band is one of the frame's, and its record is here. -/
def bandNamed (r : List Nat) (band : Nat) : Option Nat :=
  if band = 255 then none
  else if field r 1 1 ≤ band then some 0
  else if (entryBands r band).isEmpty then some 1 else none

/-- VERIFY_FRAME (R299). -/
def execVerifyFrame (q : CmdRef) (nsid take spring frame band : Nat) (s : State) : Res :=
  startCmd s q fun _ =>
    let s0 := s.countIo q 0x88 3
    .next (s0.onFrame q 0x88 nsid take spring frame fun r =>
      match bandNamed r band with
      | some 0 => s0.failCmd q 0 2
      | some _ => s0.failVendor q 0x88 0xC1 0
      | none => s0.startRead ⟨q, nsid, 0, 0, 3, [take, spring, frame, band], 0, 0, []⟩ (bandLbas (entryBands r band)))

/-- VERIFY_TAKE_SEAL (R299): the HMAC of R158 is recomputed under the take key. -/
def execVerifyTakeSeal (q : CmdRef) (nsid take : Nat) (s : State) : Res :=
  startCmd s q fun _ =>
    let s0 := s.countIo q 0x8C 3
    .next (s0.onTake q 0x8C nsid take fun t =>
      if !bitOf t.sealFlags 0 then s0.failVendor q 0x8C 0xCC 0
      else
        let tag := (s0.takeKey nsid take t.openEpoch).map fun k => hmac384 k t.records.flatten
        s0.endVerify q 0x8C (tag = some t.sealTag))

/-- VERIFY_RANGE_DIGEST (R298). -/
def execVerifyRangeDigest (q : CmdRef) (nsid slba blocks alg : Nat) (expected : List Nat) (s : State) : Res :=
  startCmd s q fun _ =>
    let s0 := s.countIo q 0x8D 3
    .next (s0.readRange q nsid slba blocks fun _ =>
      if 2 < alg then s0.failCmd q 0 2
      else if expected.length ≠ rangeDigestBytes alg then s0.failCmd q 0 0x0F
      else s0.startRead ⟨q, nsid, slba, blocks, 4, alg :: expected, 0, 0, []⟩ (rangeLbas slba blocks))

/-- COMPUTE_RANGE_DIGEST (R298). -/
def execComputeRangeDigest (q : CmdRef) (nsid slba blocks alg : Nat) (s : State) : Res :=
  startCmd s q fun _ =>
    let s0 := s.countIo q 0x8E 3
    .next (s0.readRange q nsid slba blocks fun _ =>
      if 2 < alg then s0.failCmd q 0 2
      else s0.startRead ⟨q, nsid, slba, blocks, 5, [alg], 0, 0, []⟩ (rangeLbas slba blocks))

/-- READ_FRAME (R300). -/
def execReadFrame (q : CmdRef) (nsid take spring frame band offset bytes : Nat) (s : State) : Res :=
  startCmd s q fun _ =>
    let s0 := s.countIo q 0x92 0
    .next (s0.onFrame q 0x92 nsid take spring frame fun r =>
      if 2097152 < bytes then s0.failCmd q 0 2
      else
        match bandNamed r band with
        | some 0 => s0.failCmd q 0 2
        | some _ => s0.failVendor q 0x92 0xC1 0
        | none =>
          s0.startRead ⟨q, nsid, 0, 0, 6, [take, spring, frame, band, offset, bytes], 0, 0, []⟩ (bandLbas (entryBands r band)))

/-- READ_FRAME_ENTRY (R298): the entry, cut or zero-filled to NDT dwords; DW0 its length. -/
def execReadFrameEntry (q : CmdRef) (nsid take spring frame ndt : Nat) (s : State) : Res :=
  startCmd s q fun _ =>
    let s0 := s.countIo q 0x96 0
    .next (s0.onFrame q 0x96 nsid take spring frame fun r =>
      ((s0.sendBytes q (fit (4 * ndt) r)).bump (0x40C0 + portOf q.cntl) 0).succeed q r.length)

end Sys2Proof.Machine
end

