-- ==== Sys2Proof/Machine/Programs.lean ====
section
/-!
DEFINITION. Program Load and Unload, Run Program and its hold for quota (chapters 9, 10 and 12).
-/

namespace Sys2Proof.Machine

/-! ### Loading and unloading (R296, R379 to R381) -/

/-- The header checks of R380: 0, or the reason 1 to 3. -/
def judgeProgram (b : List Nat) : Nat :=
  let text := field b 12 4
  let data := field b 16 4
  let seg := field b 20 4
  let ring := fun off => field b off 4 % 8 ≠ 0 || seg < field b off 4 + 520
  if b.take 8 ≠ ascii "HK7PROGI" ∨ field b 8 2 ≠ 1 then 1
  else if 2 < field b 10 1 ∨ 1 < field b 11 1 ∨ text % 4 ≠ 0 ∨ text < 4 ∨ 65536 < text ∨ seg < data ∨ seg % 64 ≠ 0 ∨
      131072 < seg ∨ field b 24 4 % 4 ≠ 0 ∨ text ≤ field b 24 4 ∨ ring 28 ∨ ring 32 then 2
  else if b.length ≠ 128 + text + data + 48 then 3 else 0

/-- The program of an image that passed its checks. -/
def programOf (b : List Nat) : Program :=
  let text := field b 12 4
  let data := field b 16 4
  { state := 2, mode := field b 10 1, timing := field b 11 1
    text := (List.range (text / 4)).map fun k => field b (128 + 4 * k) 4
    data := slice (128 + text) data b, segLen := field b 20 4, entry := field b 24 4, inRing := field b 28 4
    outRing := field b 32 4, inPool := field b 36 1, use := field b 37 1, secver := field b 40 4, ident := field b 44 8
    runs := 0, bytes := b.length }

/-- A program that is being loaded. -/
def Program.loading : Program :=
  { state := 1, mode := 0, timing := 0, text := [], data := [], segLen := 0, entry := 0, inRing := 0, outRing := 0
    inPool := 255, use := 0, secver := 0, ident := 0, runs := 0, bytes := 0 }

/-- The checks of R380 on a whole image: 0, or the reason. -/
def State.judgeImage (s : State) (handle : Nat) (b : List Nat) : Nat :=
  let r := judgeProgram b
  let n := b.length - 48
  let used := sum ((s.comp.programs.filter fun p => p.1 ≠ handle).map (·.2.bytes))
  if r ≠ 0 then r
  else if s.slotHmac s.fault.lead (s.obj 0x5002 0) 2 (b.take n) ≠ some (b.drop n) then 4
  else if field b 40 4 < s.obj 0x5003 0 then 5
  else if s.obj 0x5010 0 * 1048576 < used + (programOf b).bytes then 6 else 0

/-- The MS4 record of R381. -/
def programRecord (handle : Nat) (b : List Nat) : List Nat :=
  sha384 (b.take (b.length - 48)) ++ [handle, field b 10 1, field b 11 1, 0] ++ leBytes 4 (field b 40 4) ++ leBytes 8 (field b 44 8)

/-- The count of loaded handles (0x401B). -/
def State.reportHandles (s : State) : State := s.setObj 0x401B 0 (s.comp.programs.filter fun p => p.2.state = 2).length

/-- The state with a program handle set. -/
def State.setProgram (s : State) (h : Nat) (p : Option Program) : State :=
  { s with comp := { s.comp with programs := match p with
    | some x => tset s.comp.programs h x
    | none => tdel s.comp.programs h } }

/-- An image is refused (R380): the handle is empty, the reason stands in 0x5014, EV P.19. -/
def State.refuseProgram (s : State) (q : CmdRef) (handle reason : Nat) : State :=
  let s1 := (((s.bump 0x5007 2).setProgram handle none).setObj 0x5014 1 handle).setObj 0x5014 2 reason
  ((s1.setObj 0x5014 3 s.epoch).failVendor q 0xC9 0xC4 0).raise (evPkg 19) handle

/-- A program that passed its checks is measured and loaded (R380, R381). -/
def State.programLoaded (s1 : State) (q : CmdRef) (handle : Nat) (b : List Nat) : State :=
  let s2 := (((s1.extend 4 2 (programRecord handle b)).bump 0x5015 0).bump 0x5007 1).setProgram handle (some (programOf b))
  ((s2.reportHandles.succeed q b.length).raise (evPkg 20) handle)

/-- PROGRAM_LOAD (R296, R380): pieces at increasing offsets; the last one is judged, measured and loaded. -/
def execProgramLoad (q : CmdRef) (handle offset : Nat) (last : Bool) (data : List Nat) (s : State) : Res :=
  startCmd s q fun _ =>
    let s0 := s.countVendor true 0xC9
    if s.fault.safeHold then .next (s0.safeFail q 0xC9) else
    let key := 65536 * 256 + handle
    let have' := ((s0.ctrl q.cntl).bind (·.pieces)).getD ⟨0, 0, []⟩
    let setPieces := fun (s : State) (p : Option Pieces) => s.modCtrl q.cntl fun c => { c with pieces := p }
    let busy : Bool := match s0.program handle with
      | some p => p.state ≠ 1
      | none => false
    let sofar := if offset = 0 then [] else have'.bytes
    if 255 < handle ∨ busy then .next (s0.failCmd q 0 2)
    else if offset ≠ 0 ∧ (have'.key ≠ key ∨ have'.bytes.length ≠ offset) then
      .next ((setPieces (s0.setProgram handle none) none).failCmd q 0 2)
    else
      let b := sofar ++ data
      if !last then
        .next (((setPieces s0 (some ⟨key, 0, b⟩)).setProgram handle (some Program.loading)).succeed q b.length)
      else
        let s1 := setPieces s0 none
        let reason := s1.judgeImage handle b
        if reason ≠ 0 then .next (s1.refuseProgram q handle reason)
        else
          .next (s1.programLoaded q handle b)

/-- Every task of a program is reset. -/
def State.resetTasksOf (s : State) (handle : Nat) : State :=
  s.dies.foldl (fun s d =>
    let mine := ((s.cd d).tasks.filter fun t => t.2.handle = handle && t.2.state ≠ 4).map (·.1)
    mine.foldl (fun s slot => s.stopTask d slot 3 0 0) s) s

/-- A loaded program is unloaded (R296). -/
def State.unloadProgram (s0 : State) (q : CmdRef) (handle : Nat) (p : Program) : State :=
  let s1 := (s0.setProgram handle (some { p with state := 3 })).resetTasksOf handle
  let left := s1.dies.any fun d => (s1.cd d).tasks.any fun t => t.2.handle = handle
  let s2 := if left then s1 else s1.setProgram handle none
  (s2.reportHandles.succeed q 0)

/-- PROGRAM_UNLOAD (R296, R385): new runs are refused at once, the program's tasks are reset, and the handle is free
when the last of them has ended. -/
def execProgramUnload (q : CmdRef) (handle : Nat) (s : State) : Res :=
  startCmd s q fun _ =>
    let s0 := s.countVendor true 0xCC
    if s.fault.safeHold then .next (s0.safeFail q 0xCC) else
    match s0.program handle with
    | none => .next (s0.failVendor q 0xCC 0xC3 0)
    | some p =>
      if p.state ≠ 2 then .next (s0.failVendor q 0xCC 0xC3 0)
      else
        .next (s0.unloadProgram q handle p)

/-! ### Run Program (R301, R311, R399) -/

/-- RUN_PROGRAM: checks, the hold of the task-slot quota, and the near-data task. -/
def execRunProgram (q : CmdRef) (nsid ndt handle group arg source take slba blocks : Nat) (s : State) : Res :=
  startCmd s q fun _ =>
    let s0 := s.countIo q 0x82 1
    let f := q.cntl - 1
    let run : HeldRun := ⟨q, nsid, ndt, handle, group, arg, source, take, slba, blocks, s.time.now⟩
    let go := fun (_ : Ns) =>
      match s0.program handle with
      | none => s0.failVendor q 0x82 0xC3 0
      | some p =>
        if p.state ≠ 2 then s0.failVendor q 0x82 0xC3 0
        else if !bitOf p.use 0 ∨ 15 < group ∨ !bitOf (s0.share f 7) group ∨ 2 < source then s0.failCmd q 0 2
        else if s0.share f 8 ≤ s0.slotsHeld f then
          ({ s0 with host := { s0.host with heldRuns := s0.host.heldRuns ++ [run] } }.bump (0x4190 + portOf q.cntl) 0).started q
        else (s0.started q).startNear run
    .next (if source = 1 then s0.onTake q 0x82 nsid take fun _ => go ⟨1, 0, [], false, 0, 0, [], 0, 0⟩
           else s0.readRange q nsid (if source = 0 then slba else 0) (if source = 0 then blocks else 0) go)

/-- A Run Program held for quota fails as Busy (R311). -/
def State.runHoldEnds (s : State) (q : CmdRef) : State :=
  let s1 := { s with host := { s.host with heldRuns := s.host.heldRuns.filter fun r => r.q ≠ q } }
  ((s1.failVendor q 0x82 0xCD 0).bump (0x4198 + portOf q.cntl) 0)

/-- PROGRAM_HOLD_EXPIRY (R311): a run still held after 0x4106 completes with Busy. -/
def execProgramHoldExpiry (q : CmdRef) (s : State) : Res :=
  match s.host.heldRuns.find? fun r => r.q = q with
  | none => .next s
  | some r => if s.time.now < r.since + s.obj 0x4106 0 * 1000000 then .next s else .next (s.runHoldEnds q)

end Sys2Proof.Machine
end

