-- ==== Sys2Proof/Machine/Functions.lean ====
section
/-!
DEFINITION. Chapter 10: share changes, function-level reset, byte buckets, dirty-page logging, and quiesce, save and
restore.
-/

namespace Sys2Proof.Machine

/-! ### Shares (R309, R311, R313) -/

/-- A share value clamped into the range of its code (R63, R309). -/
def State.clampShare (s : State) (f code v : Nat) : Nat :=
  match code with
  | 1 => clampNat 1 255 v
  | 2 => min v (s.vqOf (f + 1) - 1)
  | 3 => min v 32000
  | 4 => min v 32000
  | 5 => clampNat 1 255 v
  | 6 => clampNat 1 255 v
  | 7 => clampNat 1 0xFFFF v
  | _ => min v 4096

/-- A share is set below what the function uses at present. -/
def State.belowUse (s : State) (f code v : Nat) : Bool :=
  let tasks := s.dies.flatMap fun d => ((s.cd d).tasks.filter fun t => t.2.near.isSome && t.2.fn = f).map (·.2.group)
  if code = 2 then v < (((s.ctrl (f + 1)).map (·.sqs)).getD []).length - 1
  else if code = 7 then tasks.any fun g => !bitOf v g
  else if code = 8 then v < tasks.length
  else false

/-- What a capped direction gains in one interval, times a factor, in bytes (R313). -/
def State.bucketGain (s : State) (f code times : Nat) : Nat :=
  let n := times * s.share f code * s.obj 0x4105 0 * s.periodNs
  (n + 32768000) / 65536000

/-- The depth of a bucket: two intervals' gain and 2 MiB. -/
def State.bucketDepth (s : State) (f code : Nat) : Int := s.bucketGain f code 2 + 2097152

/-- The buckets of a function are clamped to their depth. -/
def State.clampBuckets (s : State) (f : Nat) : State :=
  s.modCtrl (f + 1) fun c =>
    { c with readBucket := if s.share f 3 = 0 then c.readBucket else min c.readBucket (s.bucketDepth f 3)
             writeBucket := if s.share f 4 = 0 then c.writeBucket else min c.writeBucket (s.bucketDepth f 4) }

/-- One entry of 0x4103 applies at its boundary: fetch weights from the next arbitration round, the rest at once. -/
def State.applyShare (s : State) (f code v : Nat) : State :=
  if code = 0 ∨ 8 < code then s
  else
    let w := s.clampShare f code v
    let s1 := if s.belowUse f code w then s.bump 0x4113 2 else s
    let s2 := s1.modFn f fun x => { x with target := tset x.target code w, eff := if code = 1 then x.eff else tset x.eff code w }
    if code = 3 ∨ code = 4 then s2.clampBuckets f else s2

/-- The share changes of a commit apply (R311). -/
def State.applyShares (s : State) (b : List Nat) : State :=
  let n := field b 0 2
  ((List.range n).foldl (fun s k => s.applyShare (field b (4 + 8 * k) 1) (field b (5 + 8 * k) 1) (field b (8 + 8 * k) 4)) (s.bump 0x4113 1)).startHeld

/-- The buckets of every function gain a millisecond's bytes, up to their depth (R313). -/
def State.refillBuckets (s : State) : State :=
  s.host.ctrls.foldl (fun s c =>
    let f := c.1 - 1
    s.modCtrl c.1 fun c =>
      { c with readBucket := if s.share f 3 = 0 then c.readBucket else min (c.readBucket + s.bucketGain f 3 1) (s.bucketDepth f 3)
               writeBucket := if s.share f 4 = 0 then c.writeBucket else min (c.writeBucket + s.bucketGain f 4 1) (s.bucketDepth f 4) }) s

/-- The nanoseconds of one refill interval, 0x4105 phase units (R313). -/
def State.refillNs (s : State) : Nat := s.obj 0x4105 0 * s.periodNs / 65536

/-- BUCKET_REFILL (R313): an interval after the last one, every bucket of a capped direction gains its cap, up to its depth. -/
def execBucketRefill (s : State) : Res :=
  if s.time.now < s.host.refilled + s.refillNs then .next s
  else
    let s1 := s.refillBuckets
    .next { s1 with host := { s1.host with refilled := s.time.now } }

/-! ### Function-level reset (R315 to R317) -/

/-- Jobs of a function in an engine of the package that are not done. -/
def State.openJobs (s : State) (f engine : Nat) : Nat :=
  sum (s.dies.map fun d => ((s.cd d).jobs.filter fun j => j.2.engine = engine && j.2.fn = f && j.2.state < 2 && !j.2.abandoned).length)

/-- Media reads and searches that a controller's commands wait for. -/
def State.openReads (s : State) (cntl : Nat) : Nat := (s.host.reads.filter fun r => r.q.cntl = cntl).length
def State.openSearches (s : State) (cntl : Nat) : Nat :=
  (s.search.board.filter fun b => b.1.cntl = cntl).length + (s.search.waits.filter fun w => w.1.cntl = cntl).length +
    (s.lake.searches.filter fun x => x.q.cntl = cntl).length

/-- The work of a function that its reset abandons is counted (0x4112, 0x4180). -/
def State.countAbandoned (s : State) (cntl : Nat) : State :=
  let f := cntl - 1
  let tasks := sum (s.dies.map fun d => (s.nearSlots d cntl none).length)
  let l := [s.openJobs f 0, s.openJobs f 1, s.openJobs f 2, tasks, s.openSearches cntl, s.openReads cntl]
  (l.zipIdx).foldl (fun s x => s.addObj (0x4180 + portOf cntl) (x.2 + 1) x.1) (s.addObj 0x4112 0 (sum l))

/-- One function at its FLR fence: nothing more is fetched or posted, its engine work stops, its tasks end, its owner
entries are walked, and its controller state is cleared, the Error Information log with it. -/
def State.flrOne (s : State) (cntl : Nat) : State :=
  let s1 := (s.countAbandoned cntl).modCtrl cntl fun c => { c with cmds := [] }
  let s2 := (s1.purge cntl none 4).ownerWalk (ownerId 3 (portOf cntl) (cntl - 1))
  let s3 := ({ s2 with host := { s2.host with pci := tdel s2.host.pci (cntl - 1) } }).modCtrl cntl fun c =>
    { c.clear false with flr := true, quiesce := 0, quiesceEpoch := 0, quiesceLeft := 0 }
  (((s3.endSession (sessionKey 1 cntl)).bump 0x401D 0).raise (evDie (portOf cntl) 75) cntl).settleFlushes.retryStalled

/-- The controllers that an FLR of a function takes down: a PF's VFs with it. -/
def State.flrSet (s : State) (fn : Nat) : List Nat :=
  if fn % 32 = 0 then s.portCtrls (fn / 32) else [fn + 1]

/-- FUNCTION_LEVEL_RESET (R315). -/
def execFunctionLevelReset (fn : Nat) (s : State) : Res :=
  match s.ctrl (fn + 1) with
  | none => .fault .absentUnit
  | some c => if c.flr then .next s else .next (((s.flrSet fn).foldl State.flrOne s).countReset 7 fn).allQuiet

/-- The VFs of a port change; those that go are reset under function-level reset (R306, R315). -/
def State.setVfs (s : State) (port : Nat) (enable : Bool) (numVfs : Nat) : State :=
  let n := if enable then min 31 numVfs else 0
  let vfs := (s.portCtrls port).filter fun c => isVf c
  let gone := vfs.filter fun c => n < (c - 1) % 32
  let s1 := gone.foldl State.flrOne s
  let s2 := { s1 with host := { s1.host with ctrls := s1.host.ctrls.filter fun c => !gone.contains c.1 } }
  let s3 := (List.range n).foldl (fun s k =>
    let c := 32 * port + k + 2
    if (s.ctrl c).isSome then s else { s with host := { s.host with ctrls := tset s.host.ctrls c (Ctrl.fresh 0 false) } }) s2
  (({ s3 with host := { s3.host with numVfs := tset s3.host.numVfs port n } }).setObj (0x4140 + port) 1 n).settleFlushes

/-- VF_ENABLE_CHANGE (R306): VFs up to NumVFs answer; clearing VF Enable resets every VF of the port. -/
def execVfEnableChange (port : Nat) (enable : Bool) (numVfs : Nat) (s : State) : Res :=
  onDie s port fun _ =>
    .next (s.setVfs port enable numVfs)

/-- A function-level reset ends (R315). -/
def State.flrDone (s : State) (fn durationUs : Nat) : State :=
  let s1 := (s.flrSet fn).foldl (fun s c => s.modCtrl c fun c => { c with flr := false }) s
  let s2 := (((s1.bump 0x4111 1).setObj 0x4111 2 durationUs).highWater 0x4111 3 durationUs).bump (0x4178 + fn / 32) 0
  (s2.raise (evDie (fn / 32) 80) fn)

/-- FUNCTION_LEVEL_RESET_COMPLETE (R315 step 7): at most 1 ms after the fence; EV d.080. -/
def execFunctionLevelResetComplete (fn durationUs : Nat) (s : State) : Res :=
  match s.ctrl (fn + 1) with
  | none => .fault .absentUnit
  | some c =>
    if !c.flr then .next s
    else if 1000 < durationUs then .next s
    else
      .next (s.flrDone fn durationUs)

/-- CONFIGURATION_REQUEST (R269, R306, R315, R572): Configuration Request Retry Status during an FLR and before the device is
ready; no answer while PORST_N is asserted or in a restricted bring-up (R563). A served request writes a register of the function or none, which the row
does not state, and is answered with the function's configuration space. -/
def execConfigurationRequest (fn : Nat) (s : State) : Res :=
  let there := if fn % 32 = 0 then s.hasDie (fn / 32) && s.portFormed (fn / 32) else (s.ctrl (fn + 1)).isSome
  let flr := ((s.ctrl (fn + 1)).map (·.flr)).getD false
  if s.boot.porst ∨ s.boot.restricted then .next s
  else if !there then .fault .absentUnit
  else if flr || !s.deviceReady then .next (s.emit (.configReply fn none))
  else
    let s1 := if s.freeValue % 4 = 0 then s.useFree else s.useFree.modPci fn fun x => x.write s.freeValue
    .next (s1.emit (.configReply fn (some (s1.pciView fn))))

/-! ### Dirty-page logging (R318 to R320) -/

/-- One entry of 0x410D: function, window, base and length. -/
def windowEntry (b : List Nat) (k : Nat) : Nat × Nat × Nat × Nat :=
  (field b (16 * k) 1, field b (16 * k + 1) 1, field b (16 * k + 4) 8, field b (16 * k + 12) 4)

/-- An entry that is a window: number 1 to 8, base aligned to 2 MiB, 128 MiB to 64 GiB. -/
def windowOk (e : Nat × Nat × Nat × Nat) : Bool :=
  1 ≤ e.2.1 && e.2.1 ≤ 8 && e.2.2.1 % 2097152 = 0 && 1 ≤ e.2.2.2 && e.2.2.2 ≤ 512

/-- The windows of 0x410D are fitted into the areas of 0x4150 in order: from the first that does not fit its die's area on, those of the die are
unassigned, at the diagnostics rank (R318). Bitmaps of a window that stays are kept. Answers the unassigned functions as 0x1F21 lists them. -/
def State.fitWindows (s : State) : State × List (Nat × Nat × Nat) :=
  let b := s.dom 0x410D 0
  let entries := ((List.range (b.length / 16)).map (windowEntry b)).filter windowOk
  let cleared := { s with host := { s.host with fns := s.host.fns.map fun f => (f.1, { f.2 with windows := [] }) } }
  let area := fun (d : Nat) => s.obj (0x4150 + d) 0 * 1048576
  let step := fun (a : State × List (Nat × Nat) × List (Nat × Nat × Nat)) (e : Nat × Nat × Nat × Nat) =>
    let d := e.1 / 32
    let used := tgetD a.2.1 d 0
    let need := 8192 * e.2.2.2
    let full := (a.1.host.fns.any fun f => f.1 / 32 = d && f.2.windows.any fun w => !w.fits)
    let fits := !full && decide (used + need ≤ area d)
    let old := (s.fn e.1).windows.find? fun w => w.win = e.2.1 && w.base = e.2.2.1 && w.units = e.2.2.2
    let w : Window := ⟨e.2.1, e.2.2.1, e.2.2.2, fits, ((old.map (·.active)).getD []), ((old.map (·.harvested)).getD [])⟩
    let t := a.1.modFn e.1 fun f => { f with windows := (f.windows.filter fun x => x.win ≠ e.2.1) ++ [w] }
    (t, if fits then tset a.2.1 d (used + need) else a.2.1, if fits then a.2.2 else a.2.2 ++ [(0x410D, 0, 4)])
  let r := entries.foldl step (cleared, [], [])
  let t := r.1.dies.foldl (fun s d => s.setObj (0x4158 + d) 0 (ceilDiv (tgetD r.2.1 d 0) 1048576)) r.1
  (t, r.2.2)

/-- A harvest (R320): the harvested bitmaps are cleared, then swap with the active ones at one instant. -/
def State.harvest (s : State) (fn : Nat) : State :=
  s.modFn fn fun f =>
    { f with windows := f.windows.map fun w => { w with active := [], harvested := w.active }
             harvests := f.harvests + 1, harvestEpoch := s.epoch, harvestPhase := s.phase }

/-- A harvested bitmap as 0x410F reads it. -/
def Window.bitmap (w : Window) : List Nat :=
  (List.range (8192 * w.units / 2)).map fun j => ofBits ((w.harvested.filter fun p => p / 8 = j).map (· % 8))

/-! ### Quiesce (R321) -/

/-- Operation 1 of 0x4108. -/
def State.quiesceFn (s : State) (fn : Nat) : State :=
  match s.ctrl (fn + 1) with
  | some c =>
    if c.quiesce = 1 ∨ c.quiesce = 2 then s
    else (s.modCtrl (fn + 1) fun c => { c with quiesce := 1, quiesceLeft := 0, quiesceAt := s.time.now }).settleQuiesce (fn + 1)
  | none => s

/-- Operation 2 of 0x4108. -/
def State.resumeFn (s : State) (fn : Nat) : State :=
  s.modCtrl (fn + 1) fun c => if c.quiesce = 2 then { c with quiesce := 0, quiesceLeft := 0 } else c

/-- Commands of a controller that run: those fetched, but Asynchronous Event Requests. -/
def Ctrl.running (c : Ctrl) : Nat := (c.cmds.filter fun m => !(m.sqid = 0 && c.aers.contains m.cid) && m.result.isNone).length

/-- QUIESCE_LIMIT_EXPIRY (R321): after 0x4107 with commands still running, fetching resumes, EV d.082. -/
def execQuiesceLimitExpiry (fn : Nat) (s : State) : Res :=
  match s.ctrl (fn + 1) with
  | none => .fault .absentUnit
  | some c =>
    if c.quiesce ≠ 1 then .next s
    else if s.time.now < c.quiesceAt + s.obj 0x4107 0 * 1000000 then .next s
    else .next ((s.modCtrl (fn + 1) fun c => { c with quiesce := 3, quiesceLeft := c.running }).raiseFn (evDie (fn / 32) 82) fn fn)

/-! ### Saved state (R322 to R324) -/

/-- A queue record (R323). -/
def sqRecord (c : Ctrl) (qid : Nat) (k : Sq) : List Nat :=
  let ty := if qid = 0 then 0 else if k.ordered then 4 else 2
  let held := if k.frozen then (c.cmds.filter fun m => m.sqid = qid && m.result.isSome).length else 0
  leBytes 2 qid ++ [ty, b2n k.frozen + 8 * (k.prio % 4)] ++ leBytes 2 (k.size - 1) ++ leBytes 2 k.cqid ++ leBytes 8 k.base ++
    leBytes 2 k.head ++ leBytes 2 k.tail ++ leBytes 2 held ++ zeros 10

def cqRecord (qid : Nat) (k : Cq) : List Nat :=
  leBytes 2 qid ++ [if qid = 0 then 1 else 3, 2 * b2n k.phase + 4 * b2n k.ints] ++ leBytes 2 (k.size - 1) ++ leBytes 2 k.vector ++
    leBytes 8 k.base ++ leBytes 2 k.head ++ leBytes 2 k.tail ++ zeros 12

/-- The features section: 01h, 02h, 05h, 07h, 08h, 0Bh, then the thresholds over and under of the composite and sensors. -/
def Ctrl.featureBytes (c : Ctrl) : List Nat :=
  fit 64 (([1, 2, 5, 7, 8, 0x0B].flatMap fun f => leBytes 4 (c.feature f)) ++
    (List.range 9).flatMap fun k => leBytes 2 (c.feature (4 * 65536 + k)) ++ leBytes 2 (c.feature (4 * 65536 + 16 + k)))

/-- The saved state of a quiesced function (R322). -/
def State.savedState (s : State) (fn : Nat) : List Nat :=
  match s.ctrl (fn + 1) with
  | none => []
  | some c =>
    if c.quiesce ≠ 2 then []
    else
      let nss := (s.host.nss.filter fun n => n.2.attached.contains (fn + 1)).map (·.1)
      let recs := (c.sqs.map fun k => sqRecord c k.1 k.2) ++ c.cqs.map fun k => cqRecord k.1 k.2
      let len := 2316 + 4 * nss.length + 32 * recs.length
      let sq := (tget c.sqs 0).getD ⟨1, 0, 0, 0, false, false, 0, 0, [], none, 0⟩
      let cq := (tget c.cqs 0).getD ⟨1, 0, 0, false, 0, 0, true, []⟩
      let head := ascii "HK7FNSTA" ++ leBytes 2 1 ++ leBytes 2 (fn + 1) ++ leBytes 4 len ++ leBytes 2 recs.length ++
        leBytes 2 nss.length ++ leBytes 8 Config.packageSerial ++ leBytes 6 c.quiesceEpoch ++ zeros 30
      let cc := tgetD c.regs 0x14 0 / 2 * 2 + b2n c.en
      let ctl := fit 64 (leBytes 4 cc ++ leBytes 4 (65536 * (cq.size - 1) + (sq.size - 1)) ++ leBytes 8 sq.base ++ leBytes 8 cq.base ++
        leBytes 4 c.csts)
      let masks := (List.range 129).filter fun v => bitOf (c.feature (9 * 65536 + v)) 16
      let events := fit 32 ([c.aers.length] ++ leBytes 3 ((c.aePending.headD (0, 0)).2) ++ leBytes 17 (ofBits masks))
      let body := head ++ ctl ++ c.featureBytes ++ events ++ nss.flatMap (leBytes 4) ++ recs.flatten ++ fit 2088 c.msix
      body ++ leBytes 4 (crc32c body)

/-- The features of a saved state. -/
def featuresOf (b : List Nat) : Tab Nat :=
  let plain := ([1, 2, 5, 7, 8, 0x0B].zipIdx).map fun f => (f.1, field b (4 * f.2) 4)
  let temps := (List.range 9).flatMap fun k => [(4 * 65536 + k, field b (24 + 4 * k) 2), (4 * 65536 + 16 + k, field b (26 + 4 * k) 2)]
  (plain ++ temps).foldl (fun t f => tset t f.1 f.2) []

/-- One queue record is restored; the identifiers of withheld completions are not in it: free values. -/
def State.restoreQueue (s : State) (cntl : Nat) (r : List Nat) : State :=
  let qid := field r 0 2
  let ty := field r 2 1
  let fl := field r 3 1
  if ty = 1 ∨ ty = 3 then
    let k : Cq := ⟨field r 4 2 + 1, field r 8 8, field r 6 2, bitOf fl 2, field r 16 2, field r 18 2, bitOf fl 1, []⟩
    s.modCtrl cntl fun c => { c with cqs := tset c.cqs qid k }
  else
    let k : Sq := ⟨field r 4 2 + 1, field r 8 8, field r 6 2, fl / 8 % 4, ty = 4, bitOf fl 0, field r 16 2, field r 18 2, [], none, 0⟩
    let s1 := s.modCtrl cntl fun c => { c with sqs := tset c.sqs qid k }
    (List.range (field r 20 2)).foldl (fun s _ =>
      let cid := s.freeValue % 65536
      let m : Cmd := ⟨qid, cid, true, some ⟨qid, cid, 0, 8, false, 0, 0⟩, 0, 0, 0⟩
      s.useFree.modCtrl cntl fun c => { c with cmds := c.cmds ++ [m] }) s1

/-- The refusal code of a restore into a function, 0 when it succeeds (R324). -/
def State.judgeRestore (s : State) (fn : Nat) (b : List Nat) : Nat :=
  let n := b.length
  let nrec := field b 16 2
  let nns := field b 18 2
  let nss := (s.host.nss.filter fun n => n.2.attached.contains (fn + 1)).map (·.1)
  let busy := match s.ctrl (fn + 1) with
    | some c => c.en || c.sqs.any (fun k => k.1 ≠ 0) || c.cqs.any (fun k => k.1 ≠ 0)
    | none => false
  if b.take 8 ≠ ascii "HK7FNSTA" ∨ field b 12 4 ≠ n ∨ n ≠ 2316 + 4 * nns + 32 * nrec then 2
  else if crc32c (b.take (n - 4)) ≠ field b (n - 4) 4 then 3
  else if busy = true then 4
  else if (s.ctrl (fn + 1)).isNone ∨ 2 * s.vqOf (fn + 1) < nrec then 5
  else if (List.range nns).map (fun k => field b (224 + 4 * k) 4) ≠ nss then 6
  else if field b 8 2 ≠ 1 then 7 else 0

/-- A saved state is restored into a function, which it leaves quiesced; or it is refused with EV d.084 (R324). -/
def State.restoreState (s : State) (fn : Nat) (b : List Nat) : State :=
  let code := s.judgeRestore fn b
  let s0 := (s.setObj 0x410C 1 (if code = 0 then 1 else code)).setObj 0x410C 2 fn
  if code ≠ 0 then s0.raise (evDie (fn / 32) 84) code
  else
    let nns := field b 18 2
    let recs := (List.range (field b 16 2)).map fun k => slice (224 + 4 * nns + 32 * k) 32 b
    let ev := slice 192 32 b
    let cc := field b 64 4
    let masks := ((List.range 129).filter fun v => bitOf (field ev 4 17) v).map fun v => (9 * 65536 + v, 65536 + v)
    let aers := (List.range (field ev 0 1)).map fun k => Config.free (s0.freeCtr + k) % 65536
    let waits := field ev 1 3
    let s1 := aers.foldl (fun s _ => s.useFree) s0
    let s2 := s1.modCtrl (fn + 1) fun c =>
      { Ctrl.fresh c.vq c.online with
        en := bitOf cc 0, rdy := bitOf cc 0 && bitOf (field b 88 4) 0, shst := field b 88 4 / 4 % 4, regs := [(0x14, cc)]
        feats := masks.foldl (fun t m => tset t m.1 m.2) (featuresOf (slice 128 64 b)), aers := aers
        cmds := aers.map fun k => ⟨0, k, true, none, 0, 0, 0⟩, aePending := if waits = 0 then [] else [(waits % 8, waits)]
        quiesce := 2, quiesceEpoch := s.epoch, msix := slice (224 + 4 * nns + 32 * recs.length) 2088 b }
    recs.foldl (fun s r => s.restoreQueue (fn + 1) r) s2

end Sys2Proof.Machine
end

