-- ==== Sys2Proof/Machine/Inflow.lean ====
section
/-!
DEFINITION. Chapter 4: lanes and their training, cells, acknowledgement and replay, the control channel, lane loss and
port resets.
-/

namespace Sys2Proof.Machine

/-! ### Lanes and ports -/

/-- A port before it comes up. -/
def Port.down (lanes : List Nat) : Port :=
  { lanes := lanes, up := false, granted := [], freed := [], held := [], mseqH := none, marks := [], record := []
    nextMseq := 0, unacked := [], queued := [], camera := 0, bands := [], markers := [], early := [] }

/-- The state with a lane set. -/
def State.setLane (s : State) (d lane : Nat) (x : Lane) : State :=
  { s with inflow := { s.inflow with lanes := tset s.inflow.lanes (laneKey d lane) x } }

/-- The port that a lane trains for as a spare, or that has it among its lanes, else the one that the settings give it (R95, R125). -/
def State.portKeyOf (s : State) (d lane : Nat) : Nat :=
  match (s.lane d lane).spareFor with
  | some k => k
  | none =>
    match s.inflow.ports.find? fun p => p.1 / 4 = d && p.2.lanes.contains lane with
    | some p => p.1
    | none => 4 * d + (s.portOfLane d lane).getD lane

/-- The lanes that the settings give a port. -/
def State.portLanes (s : State) (k : Nat) : List Nat :=
  (List.range (s.portWidth (k / 4) (k % 4))).map (· + k % 4)

/-- A lane starts a fast retrain when 0x2107 allows it and its signal has not been lost since its last training (R110). -/
def State.canFast (s : State) (x : Lane) : Bool := s.obj 0x2107 0 = 1 && x.stored && x.signal && !x.fastFailed

/-- A training step is entered; the state of 0x2138 shows it. From step 4 on the lane sends cells: idle ones while it has nothing to
send (R99). -/
def State.enterStep (s : State) (d lane st : Nat) : State :=
  let x := s.lane d lane
  let s1 := (s.setLane d lane { x with state := st, since := s.time.now }).emit (.laneStep d lane st)
  if st = 4 then s1.emit (idleCell d lane) else s1

/-- A lane's training state starts afresh. -/
def Lane.restart (x : Lane) (fast : Bool) : Lane :=
  { x with fast := fast, lock := false, goodCw := 0, badCw := 0, goodH := 0, badH := 0, waiting := [], version := 0
           helloSeen := false, echoes := [], inError := false, nakRuns := 0 }

/-- A lane retrains: from codeword lock when it may, else from the start (R109, R110). -/
def State.retrain (s : State) (d lane : Nat) : State :=
  let x := s.lane d lane
  let fast := s.canFast x
  (s.setLane d lane (x.restart fast)).enterStep d lane (if fast then 3 else 1)

/-! ### TIME, HELLO and ECHO (R120, R121) -/

/-- The body of TIME on a lane (R120): epoch, phase, rate, one-way delay, time-base state and active source. -/
def State.timeBody (s : State) (d lane : Nat) : List Nat :=
  leBytes 6 (s.clock d).epoch ++ leBytes 2 (s.clock d).phase ++ leBytes 4 s.time.rateN ++ leBytes 4 s.time.rateD ++
    leBytes 4 (s.lane d lane).delayPs ++ [s.time.state, s.time.active]

/-- TIME goes out on a lane of a port. -/
def State.sendTime (s : State) (k lane : Nat) : State := s.sendOn k [lane] 0x20 (s.timeBody (k / 4) lane)

/-- TIME goes out on every lane of every port that is up, once every 0x210A epochs (R121). -/
def State.sendTimes (s : State) : State :=
  if s.epoch % max 1 (s.obj 0x210A 0) ≠ 0 then s
  else s.inflow.ports.foldl (fun s p => if p.2.up then p.2.lanes.foldl (fun s l => s.sendTime p.1 l) s else s) s

/-- The exchange begins: HELLO with the versions, the lane's place in its port, and the serial number. -/
def State.sayHello (s : State) (d lane : Nat) : State :=
  let k := s.portKeyOf d lane
  let w := s.portWidth d (k % 4)
  s.sendOn k [lane] 1 ([s.obj 0x2100 1, s.obj 0x2100 2, (lane + 4 - k % 4) % 4, w] ++ zeros 4 ++ leBytes 8 Config.packageSerial)

/-- Three ECHO round trips begin on a lane. -/
def State.sendEchoes (s : State) (k lane : Nat) : State :=
  (List.range 3).foldl (fun s _ => s.sendOn k [lane] 2 (leBytes 8 (s.time.now * 1000))) s

/-! ### Bonding and coming up (R109) -/

/-- A lane is up: sequence numbers start afresh, it joins its port, EV d.016 is raised; EV d.026 where it joins as a spare. -/
def State.laneUp (s : State) (k lane : Nat) : State :=
  let d := k / 4
  let x := s.lane d lane
  let s1 := s.setLane d lane { x with state := 7, since := s.time.now, expSeq := 0, nakCnt := 0, nakRuns := 0, inError := false
                                      waiting := [], fast := false, fastFailed := false, spareFor := none }
  let s2 := match s1.port k with
    | some p => s1.setPort k { p with lanes := if p.lanes.contains lane then p.lanes else p.lanes ++ [lane] }
    | none => s1.setPort k (Port.down [lane])
  let s3 := (s2.emit (.laneStep d lane 7)).raise (evDie d 16) lane
  if x.spareFor.isSome then (s3.countSpare d 6).raise (evDie d 26) lane else s3

/-- A port that comes up: each of its springs is granted its credit window (R115, R117). -/
def State.startCredits (s : State) (k : Nat) : State :=
  match s.port k with
  | some p =>
    if p.up then s
    else s.setPort k { p with up := true, freed := [], granted := (s.springsOnPort k).foldl (fun g sp => tset g sp (s.creditWindow k sp)) [] }
  | none => s

/-- Lanes come up in their port; a port that was down starts its credits afresh, and its lanes get credits and TIME. -/
def State.bringUp (s : State) (k : Nat) (lanes : List Nat) : State :=
  let s1 := (lanes.foldl (fun s l => s.laneUp k l) s).startCredits k
  lanes.foldl (fun s l => s.sendTime k l) (s1.sendCredits k)

/-- The lanes of a port that stand at step 6. -/
def State.bonding (s : State) (k : Nat) : List Nat := (s.portLanes k).filter fun l => (s.lane (k / 4) l).state = 6

/-- Every lane that the settings give a port stands at step 6 or is up. -/
def State.allBonded (s : State) (k : Nat) : Bool :=
  (s.portLanes k).all fun l => (s.lane (k / 4) l).state = 6 || (s.lane (k / 4) l).state = 7

/-- A lane reaches step 6: the port bonds when every lane of it is there; a port already up takes the lane alone, and so does one
that the lane joins as a spare. -/
def State.reachBond (s : State) (d lane : Nat) : State :=
  let k := s.portKeyOf d lane
  let s1 := s.enterStep d lane 6
  if ((s1.port k).map (·.up)).getD false ∨ (s.lane d lane).spareFor.isSome then s1.bringUp k [lane]
  else if s1.allBonded k then s1.bringUp k (s1.bonding k)
  else s1

/-- The exchange ends when a version is agreed and three round trips are measured. -/
def State.checkExchange (s : State) (d lane : Nat) : State :=
  let x := s.lane d lane
  if x.state = 5 ∧ x.version ≠ 0 ∧ 3 ≤ x.echoes.length then s.reachBond d lane else s

/-- SIGNAL_DETECT (R96, R109): signal has been present for 100 µs on a lane at step 1, since the lane entered the step and left electrical
idle; the SerDes domain must be usable (R548). -/
def execSignalDetect (die lane : Nat) (s : State) : Res :=
  onLane s die lane fun _ =>
    let x := s.lane die lane
    if x.state ≠ 1 then .next s
    else if s.time.now < max x.since x.idleTill + 100000 ∨ !s.usable die 7 then .next s
    else .next (s.enterStep die lane 2)

/-- Delineation is declared: the exchange begins with HELLO (R102, R109). -/
def State.delineated (s : State) (die lane : Nat) : State := (s.enterStep die lane 5).sayHello die lane

/-- TRAINING_STEP_COMPLETE (R109): steps 2 to 5 end; the exchange begins with HELLO, and step 5 ends only with a version
agreed and the delay measured. -/
def execTrainingStepComplete (die lane : Nat) (s : State) : Res :=
  onLane s die lane fun _ =>
    let x := s.lane die lane
    if x.state = 2 then .next ((s.setLane die lane { x with stored := true, signal := true }).enterStep die lane 3)
    else if x.state = 3 then .next ((s.setLane die lane { x with lock := true, badCw := 0 }).enterStep die lane 4)
    else if x.state = 4 then .next (s.delineated die lane)
    else if x.state = 5 ∧ x.version ≠ 0 ∧ 3 ≤ x.echoes.length then .next (s.reachBond die lane)
    else if x.state = 6 ∧ s.allBonded (s.portKeyOf die lane) then
      .next (s.bringUp (s.portKeyOf die lane) (s.bonding (s.portKeyOf die lane)))
    else .next s

/-- BOND_DEADLINE (R109): 10 ms after the first lane, the lanes at step 6 form the port without the others. -/
def execBondDeadline (die first : Nat) (s : State) : Res :=
  onLane s die first fun _ =>
    let k := 4 * die + first
    match s.bonding k with
    | [] => .next s
    | l :: t =>
      if (l :: t).any fun l => (s.lane die l).since + 10000000 ≤ s.time.now then .next (s.bringUp k (l :: t)) else .next s

/-! ### Losing a lane (R125, R126) -/

/-- A port goes down: EV d.018, its bands in progress complete at once. -/
def State.portDown (s : State) (k : Nat) : State :=
  match s.port k with
  | none => s
  | some p =>
    if !p.up then s
    else ((s.setPort k { p with up := false }).completeAll k).raise (evDie (k / 4) 18) (k % 4)

/-- A lane that carries a band of a spring in an open take: one of a port that the take uses, a joined spare among them. -/
def State.laneInTake (s : State) (d lane : Nat) : Bool :=
  s.laneMode d lane = 1 && s.take.takes.any fun t => t.state = 1 && (Take.ports t).contains (s.portKeyOf d lane)

/-- A spare inflow lane of the die that 0x2130 names, that has not failed and that neither this port nor an open take uses. -/
def State.spareLane (s : State) (k : Nat) (p : Port) : Option Nat :=
  if s.obj 0x2111 0 = 0 then none
  else (List.range 4).find? fun l =>
    bitOf (s.obj (0x2130 + k / 4) 0) l && s.laneMode (k / 4) l = 1 && !p.lanes.contains l && (s.lane (k / 4) l).state ≠ 8 &&
      (s.lane (k / 4) l).spareFor.isNone && !s.laneInTake (k / 4) l

/-- A spare lane leaves the port of its own, which goes down with it, and trains for the port that lost a lane (R125, R126). -/
def State.trainSpare (s : State) (k l : Nat) : State :=
  let d := k / 4
  let own := s.portKeyOf d l
  let s1 := s.portDown own
  let s2 := match s1.port own with
    | some p => s1.setPort own { p with lanes := p.lanes.erase l }
    | none => s1
  (s2.setLane d l { s2.lane d l with spareFor := some k }).retrain d l

/-- A lane of a port has failed (R125, R126): counted, LANE DOWN on the survivors, EV d.017 for a multi-lane port, and a spare; without
survivors the port goes down. -/
def State.failLane (s : State) (d lane : Nat) : State :=
  let k := s.portKeyOf d lane
  let x := s.lane d lane
  let s1 := (s.setLane d lane { x.restart false with state := 8, since := s.time.now, spareFor := none }).bump (0x2178 + d) (lane + 1)
  match s.port k with
  | none => s1
  | some p =>
    let left := p.lanes.filter fun l => l ≠ lane
    let s2 := s1.setPort k { p with lanes := left }
    if !p.up ∨ !p.lanes.contains lane then s2
    else
      let s3 := if 1 < s.portWidth d (k % 4) ∨ left ≠ [] then s2.raise (evDie d 17) lane else s2
      let alive := s3.upLanes k { p with lanes := left }
      if alive.isEmpty then s3.portDown k
      else
        let spare := s.spareLane k p
        let body := [(lane + 4 - k % 4) % 4] ++ leBytes 2 x.ackSeq ++ [match spare with
          | some l => (l + 4 - k % 4) % 4
          | none => 0xFF]
        let s4 := (s3.sendOn k alive 0x24 body).interrupt d 5 100
        match spare with
        | some l => s4.trainSpare k l
        | none => s4

/-- A lane retrains in a port that is still up. -/
def State.inUpPort (s : State) (d lane : Nat) : Bool :=
  ((s.port (s.portKeyOf d lane)).map fun p => p.up && p.lanes.contains lane).getD false

/-- A training step does not complete in time: the lane starts again at step 1 (R109). A fast retrain that fails is followed by full
training, and a lane of a port that is up has then failed (R110, R125). -/
def State.stepTimesOut (s : State) (die lane : Nat) (x : Lane) : State :=
  let s1 := s.setLane die lane { x with fastFailed := x.fastFailed || x.fast }
  if x.fast ∧ s.inUpPort die lane then s1.failLane die lane
  else (s1.setLane die lane ({ x with fastFailed := x.fastFailed || x.fast }.restart false)).enterStep die lane 1

/-- A lane loses codeword lock or delineation (R98, R102, R110, R125): during a fast retrain, that has failed; else the lane retrains fast
where it may, or has failed when its port is up, or trains again. -/
def State.loseLane (s : State) (d lane : Nat) : State :=
  let x := s.lane d lane
  if x.fast ∧ x.state < 7 then s.stepTimesOut d lane x
  else if s.canFast x then s.retrain d lane
  else if x.state = 7 then s.failLane d lane
  else s.retrain d lane

/-- SIGNAL_LOSS (R125, R126): signal is lost for the filter time; full training is needed. -/
def execSignalLoss (die lane : Nat) (s : State) : Res :=
  onLane s die lane fun _ =>
    let x := s.lane die lane
    let s1 := s.setLane die lane { x with signal := false }
    if 2 ≤ x.state ∧ x.state ≤ 7 then
      if s.inUpPort die lane then .next (s1.failLane die lane)
      else .next ((s1.setLane die lane ({ x with signal := false }.restart false)).enterStep die lane 1)
    else .next s1

/-- LANE_RETRAIN_TIMER (R125): once per second a failed lane is retrained. -/
def execLaneRetrainTimer (die lane : Nat) (s : State) : Res :=
  onLane s die lane fun _ =>
    let x := s.lane die lane
    if x.state ≠ 8 then .next s
    else if s.time.now < x.since + 1000000000 then .next s
    else .next (s.retrain die lane)

/-- The bound of a training step in ns (R109): none of step 1; a fast retrain has 2 ms for codeword lock (R110, R125; log entry 168). Step 5
has no bound while the two ends list no common version. -/
def State.stepBound (s : State) (x : Lane) : Option Nat :=
  if x.state = 2 then some (s.obj 0x2108 0 * 1000000)
  else if x.state = 3 then some (if x.fast then 2000000 else 20000)
  else if x.state = 4 then some 5000
  else if x.state = 5 ∧ !(x.helloSeen && x.version = 0) then some 1000000
  else none

/-- TRAINING_STEP_TIMEOUT (R109, R110, R125): a step overruns its bound. -/
def execTrainingStepTimeout (die lane : Nat) (s : State) : Res :=
  onLane s die lane fun _ =>
    let x := s.lane die lane
    match s.stepBound x with
    | none => .next s
    | some b => if s.time.now < x.since + b then .next s else .next (s.stepTimesOut die lane x)

/-- A codeword is counted, and lock is declared after 4 good ones and lost after 8 bad ones (R98). -/
def State.takeCodeword (s : State) (die lane : Nat) (correctable : Bool) (corrected : Nat) (x : Lane) : State :=
  let s1 := if correctable then (if corrected = 0 then s else s.bump (0x2140 + die) (lane + 1))
    else s.bump (0x2148 + die) (lane + 1)
  let x1 := { x with goodCw := if correctable then x.goodCw + 1 else 0, badCw := if correctable then 0 else x.badCw + 1 }
  let s2 := s1.setLane die lane x1
  if !x.lock ∧ 4 ≤ x1.goodCw then
    let s3 := s1.setLane die lane { x1 with lock := true }
    (if x.state = 3 then s3.enterStep die lane 4 else s3)
  else if x.lock ∧ 8 ≤ x1.badCw then s2.loseLane die lane
  else s2

/-- CODEWORD_RECEIVED (R98): four correctable codewords in a row declare lock, eight uncorrectable ones lose it. -/
def execCodewordReceived (die lane : Nat) (correctable : Bool) (corrected : Nat) (s : State) : Res :=
  onLane s die lane fun _ =>
    let x := s.lane die lane
    if x.state < 3 ∨ 8 ≤ x.state then .next s
    else
      .next (s.takeCodeword die lane correctable corrected x)

/-! ### Delineation, acknowledgement and replay (R102, R111, R112) -/

/-- A cell's HCRC is judged (R102): eight valid ones in a row declare delineation, four invalid ones lose it. -/
def State.countHcrc (s : State) (d lane : Nat) (ok : Bool) : State :=
  let x := s.lane d lane
  let x1 := { x with goodH := if ok then x.goodH + 1 else 0, badH := if ok then 0 else x.badH + 1 }
  let s1 := s.setLane d lane x1
  if x.state = 4 ∧ 8 ≤ x1.goodH then s1.delineated d lane
  else if 5 ≤ x.state ∧ x.state ≤ 7 ∧ 4 ≤ x1.badH then s1.loseLane d lane
  else s1

/-- A lane asks for a replay: NAKCNT rises, a credit cell goes out, and at 0x2104 increments for one expected LSEQ the lane fails
(R112). -/
def State.nak (s : State) (d lane : Nat) : State :=
  let x := s.lane d lane
  let runs := if x.nakSeq = x.expSeq then x.nakRuns + 1 else 1
  let x' := { x with inError := true, nakCnt := (x.nakCnt + 1) % 256, nakRuns := runs, nakSeq := x.expSeq, nakAt := s.time.now }
  let k := s.portKeyOf d lane
  let s1 := (s.setLane d lane x').bump (0x2158 + d) (lane + 1)
  let s2 := match s1.port k with
    | some p => s1.emit (s1.creditCell k lane p)
    | none => s1
  if s.obj 0x2104 0 ≤ x'.nakRuns then s2.failLane d lane else s2

/-- A cell in error on a lane that is up; while a replay is awaited, later cells are only discarded. -/
def State.cellError (s : State) (d lane : Nat) : State :=
  if (s.lane d lane).state ≠ 7 ∨ (s.lane d lane).inError then s else s.nak d lane

/-- A cell in error is counted by its CRCs, delineates the lane by its HCRC, and asks for a replay where the lane is up (R102, R111). -/
def State.takeBadCell (s : State) (die lane : Nat) (bytes : List Nat) : State :=
  let s1 := if hcrcOk bytes then s else s.bump (0x2150 + die) (lane + 1)
  let s2 := if pcrcOk bytes then s1 else s1.bump (0x2150 + die) (lane + 5)
  (s2.countHcrc die lane (hcrcOk bytes)).cellError die lane

/-- CELL_IN_ERROR (R98, R102, R111): a cell of 256 bytes whose HCRC or PCRC is invalid, or that touches an uncorrectable codeword. -/
def execCellInError (die lane : Nat) (cell : BadCell) (s : State) : Res :=
  onLane s die lane fun _ =>
    if !cell.codeword ∧ hcrcOk cell.bytes ∧ pcrcOk cell.bytes then .refused .notThisWord
    else if (s.lane die lane).state < 4 ∨ 7 < (s.lane die lane).state then .next s
    else .next (s.takeBadCell die lane cell.bytes)

/-- NAK_TIMEOUT (R111, R112): the expected cell has not come 8 µs after a NAKCNT increment. -/
def execNakTimeout (die lane : Nat) (s : State) : Res :=
  onLane s die lane fun _ =>
    let x := s.lane die lane
    if x.state ≠ 7 ∨ !x.inError then .next s
    else if s.time.now < x.nakAt + 8000 then .next s
    else .next (s.nak die lane)

/-! ### Receiving a cell (R103, R111, R114, R115) -/

/-- A numbered cell is in sequence on its lane: none when it is dropped, and the state it leaves. A cell out of sequence is one in
error (log entry 52). -/
def State.inSequence (s : State) (d lane lseq : Nat) : Bool × State :=
  let x := s.lane d lane
  if x.state ≠ 7 then (false, s)
  else if lseq ≠ x.expSeq then (false, s.cellError d lane)
  else
    let same := x.nakSeq = lseq || x.waiting.any fun w => w.cell.lseq = x.nakSeq
    (true, s.setLane d lane { x with expSeq := (x.expSeq + 1) % 65536, inError := false, nakRuns := if same then x.nakRuns else 0 })

/-- The cell is treated as received in error: its number, and those of the cells behind it, are not taken. -/
def State.refuseCell (s : State) (c : Cell) : State :=
  let x := s.lane c.die c.lane
  (s.setLane c.die c.lane { x with expSeq := c.lseq, waiting := [] }).cellError c.die c.lane

/-- A charged cell is discarded: acknowledged, its credit returned. -/
def State.dropCell (s : State) (k : Nat) (c : Cell) : State :=
  (s.countFreed (springOwner k c.spring)).returnCredits k

/-- A cell is discarded under R103: counted in 0x210C, and EV d.024 at most once per epoch per port. -/
def State.countDiscard (s : State) (d k : Nat) : State := (s.bump 0x210C 0).raiseOnce (evDie d 24) 0 k

/-- A charged cell discarded under R103. -/
def State.discardCell (s : State) (k : Nat) (c : Cell) : State := (s.countDiscard c.die k).dropCell k c

/-- A band of a spring is mapped to a port, by its entry or its alternate. -/
def State.bandOn (s : State) (k spring band : Nat) : Bool :=
  let i := 0x2200 + spring
  let n := if 2 ≤ s.obj i 1 then 1 else s.obj i 3
  spring < s.springs && s.obj i 1 ≠ 0 && band < n && (s.obj i (0x10 + band) = k || s.obj i (0x50 + band) = k)

/-- The bytes of a charged cell are held in the pond and go to the ring, or wait for room in it: false when the pool gives no buffer. -/
def State.holdCell (s : State) (k : Nat) (c : Cell) (bytes : Nat) : Bool × State :=
  let o := springOwner k c.spring
  let r := s.pondGet o 0 c.die (k % 4)
  if r.1.status ≠ 0 then (false, r.2)
  else
    let room := r.2.intoRing c.die bytes
    if room.1 then (true, (room.2.pondPut o r.1.handle).2)
    else
      match room.2.port k with
      | some p => (true, room.2.setPort k { p with held := p.held ++ [⟨r.1.handle, c.spring, c.frame, c.band, bytes⟩] })
      | none => (true, room.2)

/-- A cell of a spring in no open take (R103). -/
def State.outside (s : State) (k : Nat) (c : Cell) : State := (s.bump 0x210B 0).dropCell k c

/-- A band whose frame is done with, or never to be: its late cells are discarded copies (R114, R154). -/
def State.bandDone (s : State) (spring frame band : Nat) : Bool :=
  s.isRecorded spring frame ||
    match s.findFrame spring frame with
    | some (_, f) => f.complete || f.bands.any fun b => b.num = band
    | none => false

/-- The bands of earlier frames of a spring and band number complete when a later frame's band starts, on whichever port (R123). -/
def State.closeEarlier (s : State) (spring frame band : Nat) : State :=
  s.inflow.ports.foldl (fun s p =>
    (p.2.bands.filter fun b => b.spring = spring && b.band = band && b.started && b.frame < frame).foldl
      (fun s b => s.completeBand p.1 b false) s) s

/-- A band that has become whole completes. -/
def State.settleBand (s : State) (k spring frame band : Nat) : State :=
  match (s.port k).bind fun p => Port.band p spring frame band with
  | some b => if Band.whole b then s.completeBand k b false else s
  | none => s

/-- A band in progress that has received nothing. -/
def Band.fresh (spring frame band now : Nat) : Band :=
  { spring := spring, frame := frame, band := band, started := false, declen := 0, timecode := 0, phase := 0, epoch := 0
    nbands := 0, since := now, cells := [], trailer := none, given := 0, woff := 0 }

/-- The band in progress of a cell, begun at the cell's arrival if there is none. -/
def State.bandOf (s : State) (k : Nat) (c : Cell) (came : Nat) : Band :=
  ((s.port k).bind fun p => Port.band p c.spring c.frame c.band).getD (Band.fresh c.spring c.frame c.band came)

/-- The state with a band in progress set. -/
def State.putBand (s : State) (k : Nat) (b : Band) : State :=
  match s.port k with
  | some p => s.setPort k (Port.setBand p b)
  | none => s

/-- The frame was found to lie before its take (R138). -/
def State.isEarly (s : State) (k spring frame : Nat) : Bool := ((s.port k).map fun p => p.early.contains (spring, frame)).getD false

/-- A frame is found to lie before its take: the cells that came of it are discarded, and so will its later ones be (R103, R138). -/
def State.noteEarly (s : State) (spring frame : Nat) : State :=
  let early := fun p : Port => { p with early := ((spring, frame) :: p.early).take 16384 }
  let cells := s.inflow.ports.flatMap fun p => (p.2.bands.filter fun b => b.spring = spring && b.frame = frame).map Band.cellCount
  let s1 : State := { s with inflow := { s.inflow with ports := s.inflow.ports.map fun p => (p.1, early p.2) } }
  (s1.addObj 0x210C 0 (sum cells)).dropBands spring fun x => x = frame

/-- A frame marker or band-start that was taken already, or whose frame is done with (R114, R154): the cell is dropped; a frame already
recorded that comes again is a duplicate frame, counted once for each time it comes (log entry 170). `part` is the band, 64 the
marker. -/
def State.duplicatePart (s : State) (k : Nat) (c : Cell) (part : Nat) : State :=
  if !s.isRecorded c.spring c.frame then s.dropCell k c
  else
    let mine := fun x : Nat × Nat × List Nat => x.1 = c.spring && x.2.1 = c.frame
    let seen := ((s.take.dups.find? mine).map (·.2.2)).getD []
    let again := seen.isEmpty || seen.contains part
    let dups := (c.spring, c.frame, if again then [part] else part :: seen) :: s.take.dups.filter fun x => !mine x
    let s1 : State := { s with take := { s.take with dups := dups } }
    (if again then s1.bump 0x2228 5 else s1).dropCell k c

/-- The stamp and count of a band-start header reach its frame (R104, R108, R152): a frame not stamped yet takes band
0's stamp; a stamp that differs from its marker's is counted, when the later of the two comes. -/
def State.noteStart (s : State) (t : Take) (b : Band) : State :=
  let upd := fun f : Frame =>
    let f1 := if f.nbands = 0 then { f with nbands := b.nbands } else f
    let f2 := if f1.stamped then f1 else { f1 with starts := f1.starts ++ [(b.epoch, b.phase)] }
    let f3 := if !f.stamped ∧ b.band = 0 then { f2 with epoch := b.epoch, phase := b.phase } else f2
    if f3.timecode / 64 % 4 = 0 ∧ b.timecode / 64 % 4 ≠ 0 then { f3 with timecode := b.timecode } else f3
  let s1 := s.modFrame t.nsid t.num b.spring b.frame upd
  match s.frameOf t.nsid t.num b.spring b.frame with
  | some f => if f.stamped ∧ (f.cEpoch ≠ b.epoch ∨ f.cPhase ≠ b.phase) then s1.bump 0x210E 0 else s1
  | none => s1

/-- A band-start cell is taken, dropped or discarded (R104, R114, R138, R139); false while the pond gives no buffer. -/
def State.bandStarts (s : State) (k : Nat) (c : Cell) (came : Nat) : Bool × State :=
  if !s.inTake c.spring then (true, s.outside k c)
  else if s.isEarly k c.spring c.frame then (true, s.discardCell k c)
  else
    let h := c.payload
    let old := s.bandOf k c came
    if old.started ∨ s.bandDone c.spring c.frame c.band then (true, s.duplicatePart k c c.band)
    else
      let b := { old with started := true, declen := min 268435456 (field h 0 4), timecode := field h 8 4, phase := field h 12 2
                          epoch := field h 14 6, nbands := clampNat 1 64 (field h 20 1), since := came }
      let found := (s.findFrame c.spring c.frame).map (·.1)
      match found.or (s.takeFor c.spring b.epoch) with
      | none => (true, (s.noteEarly c.spring c.frame).discardCell k c)
      | some t =>
        let held := s.holdCell k c 0
        if !held.1 then held
        else
          let s2 := held.2.closeEarlier c.spring c.frame c.band
          let s3 := if found.isSome then s2
            else s2.startFrame t (Frame.fresh c.spring c.frame b.nbands b.epoch b.phase came)
          (true, (((s3.putBand k b).noteStart t b).landChunks k c.spring c.frame c.band).settleBand k c.spring c.frame c.band)

/-- A band-data cell is taken in its place, refused, dropped or discarded (R105, R114, R138); false while the pond gives no buffer. -/
def State.bandGoesOn (s : State) (k : Nat) (c : Cell) (came : Nat) : Bool × State :=
  if !s.inTake c.spring then (true, s.outside k c)
  else if s.isEarly k c.spring c.frame then (true, s.discardCell k c)
  else
    let b := s.bandOf k c came
    if (tget b.cells c.cidx).isSome ∨ s.bandDone c.spring c.frame c.band ∨ c.cidx = 0 then (true, s.dropCell k c)
    else if b.lowest + 512 < c.cidx then (true, s.refuseCell c)
    else
      let bytes := fit (min 240 c.len) c.payload
      let held := s.holdCell k c bytes.length
      if !held.1 then held
      else
        let s1 := (held.2.putBand k { b with cells := tset b.cells c.cidx bytes }).noteRing c.die
        (true, ((s1.landChunks k c.spring c.frame c.band).drainFrame c.spring c.frame c.die).settleBand k c.spring c.frame c.band)

/-- A band-end cell is taken, refused, dropped or discarded (R106, R114, R138); false while the pond gives no buffer. -/
def State.bandEnds (s : State) (k : Nat) (c : Cell) (came : Nat) : Bool × State :=
  if !s.inTake c.spring then (true, s.outside k c)
  else if s.isEarly k c.spring c.frame then (true, s.discardCell k c)
  else
    let b := s.bandOf k c came
    if b.trailer.isSome ∨ s.bandDone c.spring c.frame c.band then (true, s.dropCell k c)
    else if b.lowest + 512 < c.cidx then (true, s.refuseCell c)
    else
      let held := s.holdCell k c 0
      if !held.1 then held
      else
        let t := (field c.payload 0 4, field c.payload 4 3, c.cidx)
        (true, (held.2.putBand k { b with trailer := some t }).settleBand k c.spring c.frame c.band)

/-- The distance between two epoch numbers on the circle of R36. -/
def epochGap (a b : Nat) : Nat := min (aheadOf a b) (aheadOf b a)

/-- A stamp as a marker gives it (R107, R108): NBANDS, the instant of its arrival, the arrival stamp, the camera's stamp, and whether the arrival stamp replaces it. -/
structure MarkerStamp where
  nbands : Nat
  came : Nat
  aEpoch : Nat
  aPhase : Nat
  cEpoch : Nat
  cPhase : Nat
  replaced : Bool
deriving DecidableEq, Repr

/-- The frame's epoch and phase by its marker (R108). -/
def MarkerStamp.epoch (m : MarkerStamp) : Nat := if m.replaced then m.aEpoch else m.cEpoch
def MarkerStamp.phase (m : MarkerStamp) : Nat := if m.replaced then m.aPhase else m.cPhase

/-- A frame as its marker stamps it. -/
def Frame.stamp (f : Frame) (m : MarkerStamp) : Frame :=
  { f with stamped := true, epoch := m.epoch, phase := m.phase, aEpoch := m.aEpoch, aPhase := m.aPhase, cEpoch := m.cEpoch
           cPhase := m.cPhase, replaced := m.replaced, nbands := m.nbands, since := m.came, starts := [] }

/-- A frame that was begun in another take belongs to the take that its marker's epoch gives. -/
def State.moveFrame (s : State) (t0 t : Take) (f : Frame) : State :=
  if (t0.nsid, t0.num) = (t.nsid, t.num) then s
  else
    let s1 := s.modTake t0.nsid t0.num fun x => { x with frames := x.frames.filter fun g => !(g.spring = f.spring && g.frame = f.frame) }
    s1.modTake t.nsid t.num fun x => { x with frames := x.frames ++ [f] }

/-- The marker of a frame stamps it (R107, R108): band-starts that came before it with another stamp are counted. -/
def State.stampFrame (s : State) (c : Cell) (t : Take) (m : MarkerStamp) : State :=
  let s1 := match s.findFrame c.spring c.frame with
    | some (t0, f) =>
      (s.moveFrame t0 t f).addObj 0x210E 0 (f.starts.filter fun x => x ≠ (m.cEpoch, m.cPhase)).length
    | none => s.startFrame t (Frame.fresh c.spring c.frame m.nbands m.epoch m.phase m.came)
  (s1.modFrame t.nsid t.num c.spring c.frame fun f => f.stamp m).checkFrame c.spring c.frame

/-- A camera stamp that the arrival stamp replaces is counted, with EV d.023 (R108). -/
def State.noteReplaced (s : State) (c : Cell) (m : MarkerStamp) : State :=
  if m.replaced then (s.bump 0x210E 0).raise (evDie c.die 23) c.frame else s

/-- A frame that its marker puts into a take is no frame found outside one. -/
def State.forgetEarly (s : State) (spring frame : Nat) : State :=
  let late := fun p : Port => { p with early := p.early.filter (· ≠ (spring, frame)) }
  { s with inflow := { s.inflow with ports := s.inflow.ports.map fun p => (p.1, late p.2) } }

/-- The marker of a frame under way or new, with its stamp: taken for the take that the stamp lies in, else the frame is discarded (R107,
R108, R138, R139); false while the pond gives no buffer. -/
def State.takeMarker (s : State) (k : Nat) (c : Cell) (m : MarkerStamp) : Bool × State :=
  match s.takeFor c.spring m.epoch with
  | none =>
    let s1 := match s.findFrame c.spring c.frame with
      | some (t, f) => s.dropFrame t.nsid t.num f
      | none => s
    (true, ((s1.noteReplaced c m).noteEarly c.spring c.frame).discardCell k c)
  | some t =>
    let held := s.holdCell k c 0
    if !held.1 then held else (true, ((held.2.forgetEarly c.spring c.frame).noteReplaced c m).stampFrame c t m)

/-- The stamp that a marker's body and its arrival give (R107, R108). -/
def State.stampOf (s : State) (a : Arrival) : MarkerStamp :=
  let c := a.cell
  let epoch := field c.payload 0 6
  { nbands := clampNat 1 64 (field c.payload 8 1), came := a.ns, aEpoch := a.epoch, aPhase := a.phase, cEpoch := epoch
    cPhase := field c.payload 6 2, replaced := s.obj 0x2102 0 < epochGap epoch a.epoch }

/-- A port remembers the marker of a spring's frame, with the last 16,384 (log entry 169). -/
def State.noteMarker (s : State) (k : Nat) (c : Cell) : State :=
  match s.port k with
  | some p => s.setPort k { p with markers := ((c.spring, c.frame) :: p.markers).take 16384 }
  | none => s

/-- A marker has been received on the port before (R114). -/
def State.markerSeen (s : State) (k : Nat) (c : Cell) : Bool := ((s.port k).map fun p => p.markers.contains (c.spring, c.frame)).getD false

/-- A frame marker is taken, dropped or discarded (R107, R114, R154): a copy is dropped; a frame already recorded is a duplicate frame. -/
def State.markerComes (s : State) (k : Nat) (a : Arrival) : Bool × State :=
  let c := a.cell
  if !s.inTake c.spring then (true, (s.noteMarker k c).outside k c)
  else if s.isRecorded c.spring c.frame then (true, (s.noteMarker k c).duplicatePart k c 64)
  else if s.markerSeen k c then (true, s.dropCell k c)
  else
    let r := s.takeMarker k c (s.stampOf a)
    (r.1, if r.1 then r.2.noteMarker k c else r.2)

/-- A charged cell is taken by its TYPE; false while the pond gives no buffer. -/
def State.takeCharged (s : State) (k : Nat) (a : Arrival) : Bool × State :=
  match a.cell.type with
  | 1 => s.bandStarts k a.cell a.ns
  | 2 => s.bandGoesOn k a.cell a.ns
  | 3 => s.bandEnds k a.cell a.ns
  | _ => s.markerComes k a

/-- The cells of a lane that wait for a pond buffer ask for it again, in order (R185). -/
def State.retryCells (s : State) (d lane : Nat) : Nat → State
  | 0 => s
  | n + 1 =>
    match (s.lane d lane).waiting with
    | [] => s
    | a :: rest =>
      let r := s.takeCharged (s.portKeyOf d lane) a
      if !r.1 then r.2
      else
        let x := r.2.lane d lane
        State.retryCells (if x.waiting = [] then r.2 else r.2.setLane d lane { x with waiting := rest }) d lane n

/-- The lanes of a port ask again for their waiting cells. -/
def State.retryPort (s : State) (k : Nat) : State :=
  match s.port k with
  | none => s
  | some p => p.lanes.foldl (fun s l => s.retryCells (k / 4) l (s.lane (k / 4) l).waiting.length) s

/-- Every port asks again for its waiting cells: buffers may have become free (R185). -/
def State.retryWaiting (s : State) : State := s.inflow.ports.foldl (fun s p => s.retryPort p.1) s

/-! ### Freed buffers (R151, R185) -/

/-- PUT (R185, R187, R188): cells that wait for a buffer ask again before any later GET. -/
def execPut (holder handle : Nat) (s : State) : Res :=
  let r := s.pondPut holder handle
  .next (r.2.retryWaiting.emit (.pondAnswer holder 3 r.1.status 0))

/-- POND_AUDIT (R194): every pool of the die in state 1 or 2 is audited, in ascending pool number. -/
def execPondAudit (die : Nat) (s : State) : Res :=
  onDie s die fun _ => if s.auditDue die then .next (s.auditDie die).retryWaiting else .next s

/-- Frames whose filters are done give their ring space back, waiting buffers enter the ring, and cells that wait for a pond buffer ask again
(R151, R185). -/
def State.settleRings (s : State) : State :=
  let s1 := s.take.takes.foldl (fun s t => t.frames.foldl (fun s f =>
    if f.ringHeld ≠ [] ∧ f.filtersOpen = 0 then s.reclaimFrame t.nsid t.num f.spring f.frame else s) s) s
  (s1.inflow.ports.foldl (fun s p => s.drainPort p.1 p.2.held.length) s1.ringFell).retryWaiting

/-- A program operation ends (R26, R209, R253, R264): its time and its status count for its targets; a program that passed or failed goes on, and one
whose tag did not verify on the way in, so that it stopped, is made again. -/
def State.programEnds (s : State) (die op : Nat) (o : FlashOp) (outcome : ProgramOutcome) : State :=
  let s1 := s.endOp die op
  let timed := if o.kind.isNative then s1.recordProgram die o.group (s.time.now - o.issued) else s1
  let s2 := match outcome with
    | .passed => (timed.groupStatus die o.group o.stripe none).programPassed die o
    | .failed channel => (timed.groupStatus die o.group o.stripe (some channel)).programFailed die channel o
    | .tagMismatch => s1.reprogram die o
  s2.settleRings.settleWrites.retryStalled

/-- FLASH_PROGRAM_COMPLETE (R26, R209, R231, R233, R253, R394): a program ends with passing status, with a channel's failing status, or stopped by a
tag that does not verify. The program of a power-loss commit ends after those issued before it (R240 step 4). -/
def execFlashProgramComplete (die op : Nat) (outcome : ProgramOutcome) (s : State) : Res :=
  onDie s die fun _ =>
    match tget (s.md die).ops op with
    | none => .next s
    | some o =>
      if o.waits ∨ o.kind.isRead ∨ o.kind.isErase then .next s
      else if o.kind.isCommit ∧ (s.md die).ops.any fun x => !x.2.kind.isCommit && !x.2.kind.isRead then .next s
      else .next (s.programEnds die op o outcome)

/-- A charged cell joins the cells that wait on its lane, and they are taken as far as the pond gives buffers. -/
def State.queueCell (s : State) (c : Cell) : State :=
  let x := s.lane c.die c.lane
  let w := x.waiting ++ [⟨c, (s.clock c.die).epoch, (s.clock c.die).phase, s.time.now⟩]
  (s.setLane c.die c.lane { x with waiting := w }).retryCells c.die c.lane w.length

/-- A cell whose HCRC is valid arrived: it delineates the lane, and it is counted where the lane is up. -/
def State.cellArrives (s : State) (d lane : Nat) : State :=
  let s1 := s.countHcrc d lane true
  if (s1.lane d lane).state = 7 then s1.bump (0x2160 + d) (lane + 1) else s1

/-- A cell names the lane's version, and a band that the spring maps to the port; a marker names no band. -/
def State.cellFits (s : State) (c : Cell) : Bool :=
  c.ver = (s.lane c.die c.lane).version && s.bandOn (s.portKeyOf c.die c.lane) c.spring (if c.type = 4 then 0 else c.band)

/-- A marker of the reference spring is a boundary of source 1, at its arrival; a copy of one is none (R38, R107, R114). -/
def State.markerBoundary (s : State) (c : Cell) : State :=
  if c.type = 4 ∧ c.spring = s.obj 0x1101 0 ∧ !s.markerSeen (s.portKeyOf c.die c.lane) c then s.sourceBoundary 1 s.time.now true else s

/-- A cell of a row's TYPE is received: in sequence, judged under R103, and taken. A cell whose TYPE the device never receives is
discarded (R103); it has no LSEQ. An idle cell only delineates and is counted (R101, R102). -/
def recvCell (type : Nat) (c : Cell) (s : State) : Res :=
  onLane s c.die c.lane fun _ =>
    let s1 := s.cellArrives c.die c.lane
    let k := s1.portKeyOf c.die c.lane
    if c.type = 0 then .next s1
    else if 6 ≤ c.type then .next (if 5 ≤ (s1.lane c.die c.lane).state ∧ (s1.lane c.die c.lane).state ≤ 7 then s1.countDiscard c.die k else s1)
    else if c.type ≠ type then .refused .notThisWord
    else
      let r := s1.inSequence c.die c.lane c.lseq
      if !r.1 then .next r.2
      else if !s1.cellFits c then .next (r.2.discardCell k c)
      else .next ((r.2.markerBoundary c).queueCell c)

/-- BAND_START_CELL (R103, R104, R108, R114, R123, R148): the header is taken; the band and its frame begin. -/
def execBandStartCell (c : Cell) (s : State) : Res := recvCell 1 c s

/-- BAND_DATA_CELL (R105, R114): the cell is ordered by its CIDX; a copy is discarded, and one more than 512 above the
lowest missing CIDX counts as received in error. -/
def execBandDataCell (c : Cell) (s : State) : Res := recvCell 2 c s

/-- BAND_END_CELL (R106, R123): the trailer is taken, and the band completes when all its cells are there. -/
def execBandEndCell (c : Cell) (s : State) : Res := recvCell 3 c s

/-- FRAME_MARKER (R38, R107, R108, R114, R154): the arrival stamp is taken; a marker of the reference spring is a
boundary of source 1. -/
def execFrameMarker (c : Cell) (s : State) : Res := recvCell 4 c s

/-- CREDIT_REFRESH (R118, R185): waiting cells ask for their buffers again, credits return, and a credit cell goes out on every lane of the
port. -/
def execCreditRefresh (die first : Nat) (s : State) : Res :=
  onLane s die first fun _ =>
    let k := 4 * die + first
    match s.port k with
    | some p => if p.up then .next (((s.retryPort k).returnCredits k).sendCredits k) else .next s
    | none => .next s

/-! ### Control messages of a camera (R119, R120) -/

/-- How far an MSEQ lies behind the highest one received, on the circle of 256. -/
def behind (h m : Nat) : Nat := (h + 256 - m % 256) % 256

/-- A message is judged by its MSEQ: a repeat, or executed and marked. Answers whether it is a repeat, and the port. -/
def Port.takeMseq (p : Port) (m : Nat) : Bool × Port :=
  match p.mseqH with
  | none => (false, { p with mseqH := some m, marks := [m] })
  | some h =>
    if behind h m < 128 then
      if p.marks.contains m then (true, p) else (false, { p with marks := m :: p.marks })
    else
      let keep := fun x : Nat => decide (behind m x < 128)
      (false, { p with mseqH := some m, marks := m :: p.marks.filter keep, record := p.record.filter fun r => keep r.1 })

/-- A control cell in its lane's sequence, and of the version agreed where one is; one of another version is discarded (R103). Whether it is
handled, and the state then. -/
def State.controlIn (s : State) (m : CtlHdr) : Bool × State :=
  let s1 := s.cellArrives m.die m.lane
  let x := s1.lane m.die m.lane
  let r := if x.state = 7 then s1.inSequence m.die m.lane m.lseq else (true, s1)
  if !r.1 then r
  else if x.version = 0 ∨ m.ver = x.version then r
  else (false, r.2.countDiscard m.die (r.2.portKeyOf m.die m.lane))

/-- The marks of a port's messages when a message arrives: whether it is a repeat, and the port then. -/
def State.controlMarks (s : State) (m : CtlHdr) : Bool × Port :=
  (((s.controlIn m).2.port (s.portKeyOf m.die m.lane)).getD (Port.down [])).takeMseq m.mseq

/-- The state in which a new control message is executed. -/
def State.controlFresh (s : State) (m : CtlHdr) : State :=
  (s.controlIn m).2.setPort (s.portKeyOf m.die m.lane) (s.controlMarks m).2

/-- The ACK of a control message with a status, a message of the device on the lane that brought the message (R119, R120). -/
def State.ackControl (s : State) (k lane mseq st : Nat) (acked : Bool) : State :=
  if acked then s.sendOn k [lane] 4 [mseq, st] else s

/-- A control message was executed: its ACK status and response are recorded for repeats, and it is acknowledged. -/
def State.controlOut (k lane mseq : Nat) (acked : Bool) (a : State × Nat × List Nat) : State :=
  (match a.1.port k with
    | some q => a.1.setPort k { q with record := tset q.record mseq (a.2.1, a.2.2) }
    | none => a.1).ackControl k lane mseq a.2.1 acked

/-- A repeat is answered from the record (R119). -/
def State.controlAgain (s : State) (m : CtlHdr) (acked : Bool) : State :=
  let k := s.portKeyOf m.die m.lane
  let p := ((s.controlIn m).2.port k).getD (Port.down [])
  let old := (tget p.record m.mseq).getD (0, [])
  let s1 := (s.controlIn m).2.ackControl k m.lane m.mseq old.1 acked
  if old.2.isEmpty then s1 else s1.sendControl k 0x11 old.2

/-- A control message of a camera: in sequence where its lane is up, and executed once; `act` answers the state, the
status of its ACK and a response to record. `acked` says that the message is to be acknowledged. -/
def control (m : CtlHdr) (acked : Bool) (s : State) (act : Nat → State → State × Nat × List Nat) : Res :=
  onLane s m.die m.lane fun _ =>
    let x := s.lane m.die m.lane
    if x.state < 5 ∨ 7 < x.state then .next s
    else if !(s.controlIn m).1 then .next (s.controlIn m).2
    else if (s.controlMarks m).1 then .next (s.controlAgain m acked)
    else
      let k := s.portKeyOf m.die m.lane
      .next (State.controlOut k m.lane m.mseq acked (act k (s.controlFresh m)))

/-- What HELLO does (R109, R120): the highest version that both ends list is agreed. -/
def State.hello (s : State) (k : Nat) (m : CtlHdr) (lowVer highVer laneIndex width replay camera : Nat) : State × Nat × List Nat :=
  let x := s.lane m.die m.lane
  let s1 := match s.port k with
    | some p => s.setPort k { p with camera := camera % 2 ^ 64 }
    | none => s
  let agreed := min highVer (s.obj 0x2100 2)
  if x.state ≠ 5 ∨ x.helloSeen then (s1, 0, [])
  else if lowVer ≤ agreed ∧ s.obj 0x2100 1 ≤ agreed then
    let s2 := s1.setLane m.die m.lane { x with version := agreed, helloSeen := true, replay := replay }
    ((s2.sendEchoes k m.lane).checkExchange m.die m.lane, 0, [])
  else
    ((s1.setLane m.die m.lane { x with helloSeen := true, replay := replay }).raise (evDie m.die 25) (laneIndex + 256 * width), 0, [])

/-- HELLO (R109, R120): the highest version that both ends list is agreed; without one the lane stays at step 5 with
EV d.025. -/
def execHello (m : CtlHdr) (lowVer highVer laneIndex width replay camera : Nat) (s : State) : Res :=
  control m true s fun k s =>
    s.hello k m lowVer highVer laneIndex width replay camera

/-- ECHO (R120): answered with ECHO REPLY, the time held free. -/
def execEcho (m : CtlHdr) (timePs : Nat) (s : State) : Res :=
  control m false s fun k s =>
    ((s.useFree).sendOn k [m.lane] 3 (leBytes 8 timePs ++ leBytes 8 (s.freeValue % 2 ^ 64)), 0, [])

/-- What ECHO REPLY does (R121). -/
def State.echoReply (s : State) (m : CtlHdr) (timePs heldPs nowPs : Nat) : State × Nat × List Nat :=
  let x := s.lane m.die m.lane
  if 3 ≤ x.echoes.length then (s, 0, [])
  else
    let l := x.echoes ++ [nowPs - timePs - heldPs]
    let delay := if l.length = 3 then sum l / 6 else x.delayPs
    let s1 := (s.setLane m.die m.lane { x with echoes := l, delayPs := delay }).setObj (0x2190 + m.die) (m.lane + 1) delay
    (s1.checkExchange m.die m.lane, 0, [])

/-- ECHO_REPLY (R121): half the mean of three round trips, less the time held, is the one-way delay of the lane. -/
def execEchoReply (m : CtlHdr) (timePs heldPs nowPs : Nat) (s : State) : Res :=
  control m false s fun _ s =>
    s.echoReply m timePs heldPs nowPs

/-- What an ACK of the camera does (R119): the message is acknowledged, and the first that is queued goes out when there is room. -/
def State.controlAcked (s : State) (k acked status : Nat) : State × Nat × List Nat :=
  match s.port k with
  | none => (s, status, [])
  | some p =>
    let left := tdel p.unacked acked
    match p.queued with
    | q :: rest =>
      if 127 ≤ left.length then (s.setPort k { p with unacked := left }, 0, [])
      else ((s.setPort k { p with unacked := left, queued := rest }).sendNow k q.1 q.2.1 q.2.2, 0, [])
    | [] => (s.setPort k { p with unacked := left }, 0, [])

/-- CONTROL_ACK (R119): a message of the device is acknowledged, and one that waited goes out. -/
def execControlAck (m : CtlHdr) (acked status : Nat) (s : State) : Res :=
  control m false s fun k s =>
    s.controlAcked k acked status

/-- UNKNOWN_CONTROL_MESSAGE (R120): acknowledged with status 1, without other effect. -/
def execUnknownControlMessage (m : CtlHdr) (_msg : Nat) (s : State) : Res :=
  control m true s fun _ s => (s, 1, [])

/-! ### Port reset (R127) -/

/-- An inflow port is reset (R127): PORT RESET on each lane that is up, bands in progress complete, link state and control state start
afresh, its dictionary session ends, a spare that trains for it stops doing so, its lanes retrain, EV d.019. -/
def State.resetPort (s : State) (k cause : Nat) : State :=
  let d := k / 4
  match s.port k with
  | none => s
  | some p =>
    let s2 := (s.sendNow k (s.upLanes k p) 0x25 [cause]).completeAll k
    let q := (s2.port k).getD p
    let own := s2.portLanes k
    let s3 := s2.setPort k { Port.down own with held := q.held, camera := q.camera }
    let free := fun (x : Lane) => if x.spareFor = some k then { x with spareFor := none } else x
    let s4 : State := { s3 with inflow := { s3.inflow with lanes := s3.inflow.lanes.map fun x => (x.1, free x.2) } }
    let lanes := (own ++ p.lanes).eraseDups.filter fun l => s.laneMode d l = 1
    let s5 := (lanes.foldl (fun s l => s.retrain d l) s4).endSession (sessionKey 2 k)
    ((s5.bump (0x2198 + d) (k % 4 + 1)).countReset 11 k).raise (evDie d 19) (k % 4)

/-- PORT_RESET_MESSAGE (R127): a camera's PORT RESET resets the port. -/
def execPortResetMessage (m : CtlHdr) (_cause : Nat) (s : State) : Res :=
  control m true s fun k s => (s.resetPort k 0, 0, [])

/-- CONTROL_RETRY_EXPIRY (R119): a message not acknowledged for 0x2105:01 is repeated, up to 0x2105:02 times; then the port is reset,
with EV d.025. -/
def execControlRetryExpiry (die first mseq : Nat) (s : State) : Res :=
  onLane s die first fun _ =>
    let k := 4 * die + first
    match s.port k with
    | none => .next s
    | some p =>
      match tget p.unacked mseq with
      | none => .next s
      | some c =>
        if s.time.now < c.sent + s.obj 0x2105 1 * 1000 then .next s
        else if c.retries < s.obj 0x2105 2 then
          let again := { c with retries := c.retries + 1, sent := s.time.now }
          .next ((s.setPort k { p with unacked := tset p.unacked mseq again }).emitAll
            (c.lanes.map fun l => controlCell die l c.msg mseq c.body))
        else .next ((s.raise (evDie die 25) first).resetPort k 1)

/-! ### Lane modes and widths at a boundary (R95, R96) -/

/-- The state 0x2138 of a lane in a mode other than inflow. -/
def modeState (mode : Nat) : Nat := if mode = 2 then 9 else if mode = 3 then 10 else 0

/-- The lanes of a die take the modes of its settings: one whose mode changes leaves what it did, stays in electrical idle until an
instant, and trains in its new mode. `was` gives the modes before, 0xFF at bring-up. -/
def State.formLanes (s : State) (d : Nat) (was : Nat → Nat) (idleTill : Nat) : State :=
  (List.range 4).foldl (fun s l =>
    let mode := s.laneMode d l
    if mode = was l then s
    else
      let st := if mode = 1 then 1 else modeState mode
      (s.setLane d l { Lane.off with state := st, since := s.time.now, idleTill := idleTill }).emit (.laneStep d l 0)) s

/-- A die's ports at bring-up: those of its settings, down. -/
def State.formFirst (s : State) (d : Nat) : State :=
  let s1 := s.formLanes d (fun _ => 0xFF) 0
  (s1.portsOf d).foldl (fun s w =>
    match s.port (4 * d + w.1) with
    | none => s.setPort (4 * d + w.1) (Port.down ((List.range w.2).map (· + w.1)))
    | some _ => s) s1

/-- The ports of a die follow its settings at a boundary: one that they end or whose lanes they change is reset, with cause 3 (R96,
R127). `was` gives the ports before. -/
def State.formDie (s : State) (d : Nat) (was : List (Nat × Nat)) : State :=
  let want := s.portsOf d
  let moved := s.inflow.ports.filter fun p => p.1 / 4 = d && !want.any fun w => 4 * d + w.1 = p.1 && was.contains w
  let s1 := moved.foldl (fun s p => s.resetPort p.1 3) s
  let kept := s1.inflow.ports.filter fun p => p.1 / 4 ≠ d || want.any fun w => 4 * d + w.1 = p.1
  want.foldl (fun s w =>
    match s.port (4 * d + w.1) with
    | none => s.setPort (4 * d + w.1) (Port.down ((List.range w.2).map (· + w.1)))
    | some _ => s) ({ s1 with inflow := { s1.inflow with ports := kept } } : State)

end Sys2Proof.Machine
end

