-- ==== Sys2Proof/Machine/LakeBase.lean ====
section
/-!
DEFINITION. What the lake's meanings share (chapter 16): lanes, transport of Wildela messages, member sets and levels, the end of
lake transactions, and leaving a lake.
-/

namespace Sys2Proof.Machine

/-! ### Roles -/

/-- The device is a member of a lake: member, leader or leaving. -/
def State.inLake (s : State) : Bool := 2 ≤ s.lake.state

/-- The device leads its lake. -/
def State.leads (s : State) : Bool := s.inLake && s.lake.leader = s.lake.node

/-! ### Sending and receiving (R495 to R498) -/

/-- A message is sent; one that R499 marks ACKREQ waits for its ACK. -/
def State.lakeSend (s : State) (dst ty : Nat) (body : List Nat) : State :=
  let s1 := s.lakeEmit dst ty false body
  if acked ty then
    let m : LakeMsg := ⟨dst, ty, tgetD s1.lake.seqOut dst 0, body, 0, s.time.now⟩
    { s1 with lake := { s1.lake with unacked := s1.lake.unacked ++ [m] } }
  else s1

/-- The level of a message type (R499); SEARCH REQUEST of a wide table is of level 2. -/
def typeLevel (ty width : Nat) : Nat := if ty = 0x50 then 2 else if ty = 0x30 ∧ 1 < width then 2 else 1

/-- The key of what is kept of a sender's sequence numbers, by destination value. -/
def seqKey (h : LakeHdr) : Nat := h.src + 1024 * b2n (h.dst = 0x1FF)

/-- A sequence number is new from its sender: above the highest accepted less 64, and not accepted before (R497). -/
def State.seqNew (s : State) (h : LakeHdr) : Bool :=
  match tget s.lake.seqIn (seqKey h) with
  | none => true
  | some (top, l) =>
    let ahead := (h.seq + 2 ^ 32 - top) % 2 ^ 32
    (ahead < 2 ^ 31 || 2 ^ 32 - ahead < 64) && !l.contains h.seq && h.seq ≠ top

/-- A sequence number is accepted. -/
def State.takeSeq (s : State) (h : LakeHdr) : State :=
  let next : Nat × List Nat :=
    match tget s.lake.seqIn (seqKey h) with
    | none => (h.seq, [h.seq])
    | some (top, l) =>
      let ahead := (h.seq + 2 ^ 32 - top) % 2 ^ 32
      let top' := if ahead < 2 ^ 31 then h.seq else top
      (top', (l ++ [h.seq]).filter fun x => (top' + 2 ^ 32 - x) % 2 ^ 32 < 64)
  { s with lake := { s.lake with seqIn := tset s.lake.seqIn (seqKey h) next } }

/-- Two epoch numbers lie at most 2 apart (R497). -/
def nearEpoch (a b : Nat) : Bool := aheadOf a b ≤ 2 || aheadOf b a ≤ 2

/-- A dropped message is counted (0x901A:05). -/
def State.lakeDrop (s : State) : State := s.bump 0x901A 5

/-- A buffer of pool 7 of the receiving die is taken for the sender's lake session, and freed when the message has been handled
(R497). Answers whether there was one. -/
def State.lakeBuffer (s : State) (d src : Nat) : Bool × State :=
  let o := ownerId 5 d src
  let g := s.pondGet o 2 d 7
  if g.1.status = 0 then (true, (g.2.pondPut o g.1.handle).2) else (false, g.2)

/-- A received Wildela frame of a type is accepted or dropped, on the first reason of R497 that applies. A device that is joining takes
the messages of level 1. -/
def State.lakeReceive (s : State) (h : LakeHdr) (ty width : Nat) : Bool × State :=
  let level := if s.lake.state = 1 then 1 else s.lake.level
  if !s.lakeLane h.die h.lane then (false, s)
  else if h.ver ≠ 1 ∨ h.lake ≠ s.obj 0x9000 0 ∨ (h.dst ≠ s.lake.node ∧ h.dst ≠ 0x1FF) ∨ h.src = s.lake.node then
    (false, s.lakeDrop)
  else if !h.tagOk then (false, ((s.bump 0x901A 3).lakeDrop).raiseOnce (evPkg 32) 0 0)
  else if !nearEpoch h.epoch s.epoch ∨ !s.seqNew h ∨ level < typeLevel ty width then (false, s.lakeDrop)
  else
    let g := s.lakeBuffer h.die h.src
    if !g.1 then (false, g.2.lakeDrop)
    else
      let s1 := (g.2.takeSeq h).bump 0x901A 2
      (true, if acked ty then s1.lakeEmit h.src 5 false (leBytes 4 h.seq ++ [0]) else s1)

/-- Run a meaning on an accepted message. -/
def onMsg (s : State) (h : LakeHdr) (ty width : Nat) (f : State → State) : Res :=
  onLane s h.die h.lane fun _ =>
    let r := s.lakeReceive h ty width
    .next (if r.1 then f r.2 else r.2)

/-! ### Alignment, member sets and levels (R500, R506, R511) -/

/-- The PTP clock is source 3 (R38); the grandmaster identity is 0x1130:04. -/
def State.lockedPtp (s : State) : Bool := s.time.state = 1 && s.time.active = 3

/-- The device is aligned with a grandmaster identity and a rate (R506). -/
def State.alignedWith (s : State) (gm rate : Nat) : Bool :=
  s.lockedPtp && s.obj 0x1130 4 = gm && s.obj 0x1102 0 = rate

/-- The device is aligned with its leader (R506). -/
def State.aligned (s : State) : Bool :=
  if s.leads then s.lockedPtp
  else
    match tget s.lake.peers s.lake.leader with
    | some p => s.alignedWith p.gm p.rate
    | none => false

/-- The member bitmap of R499, 64 bytes. -/
def memberMap (l : List Nat) : List Nat := leBytes 64 (ofBits (l.filter (· < 512)))

/-- A list of nodes in ascending order, without repeats. -/
def nodeSet (l : List Nat) : List Nat := (List.range 512).filter l.contains

/-- The member set is changed; a leader raises the generation (R500). -/
def State.setMembers (s : State) (l : List Nat) : State :=
  let m := nodeSet l
  if m = s.lake.members then s
  else { s with lake := { s.lake with members := m, changed := s.epoch, gen := if s.leads then s.lake.gen + 1 else s.lake.gen } }

/-- The running level changes, with EV P.29 (R511). -/
def State.setLevel (s : State) (v : Nat) : State :=
  if s.lake.level = v then s else ({ s with lake := { s.lake with level := v } }).raise (evPkg 29) v

/-- The levels that the firmware supports, 0x9007. -/
def levelOk (v : Nat) : Bool := 1 ≤ v && v ≤ 2

/-! ### Leaving and losing a member (R502, R504, R509, R510) -/

/-- A take set aside by a yes vote, or by an admission that a lake member undoes, is released: 0x2221 reads refused with code 0x12
(R509, R512). -/
def State.releaseVote (s : State) (v : LakeVote) : State :=
  match s.take.takes.find? fun t => t.state = 5 && t.lakeTake ≠ 0 && t.openEpoch = v.target with
  | none => s
  | some t =>
    if !(v.writes.any fun w => w.idx = 0x2220 && w.sub = 1) then s
    else
      (((s.releaseTake t).bump 0x2228 2).takeResult [0, 2, 0x12, 0, 0, 0, s.epoch]).raise (evPkg 10) 0x12

/-- A yes vote ends as on ABORT: its locks and what it set aside are released (R509). -/
def State.abortVote (s : State) (ident : Nat) : State :=
  match s.lake.votes.find? fun v => v.ident = ident with
  | none => s
  | some v =>
    let s1 : State := { s with lake := { s.lake with votes := s.lake.votes.filter fun x => x.ident ≠ ident
                                                     ended := tset s.lake.ended ident 2 } }
    s1.releaseVote v

/-- The record of the last lake transaction, 0x9011: a result or vote that R521 gives no code for is a free value. -/
def State.recordLxn (s : State) (x : Lxn) : State :=
  let one := fun (n : Nat) =>
    leBytes 2 n ++ [(tget x.votes n).getD (s.freeValue / 256 % 256), b2n (x.acked.contains n)]
  (s.setDom 0x9011 0 (leBytes 4 x.ident ++ leBytes 6 x.target ++ [s.freeValue % 256] ++ leBytes 2 x.participants.length ++
    x.participants.flatMap one)).useFree

/-- The state of a coordinator's lake transaction is shown to its session (0x900D:03). -/
def State.lxnState (s : State) (x : Lxn) (code : Nat) : State :=
  s.setSession x.session { s.session x.session with lakeState := code }

/-- The lake transaction of an identity that this device coordinates. -/
def State.lxn (s : State) (ident : Nat) : Option Lxn := s.lake.lxns.find? fun x => x.ident = ident

/-- The state with a lake transaction changed. -/
def State.modLxn (s : State) (ident : Nat) (f : Lxn → Lxn) : State :=
  { s with lake := { s.lake with lxns := s.lake.lxns.map fun x => if x.ident = ident then f x else x } }

/-- The coordinator aborts: LXN ABORT to each participant, itself included, the outcome recorded, EV P.30 (R510). -/
def State.abortLxn (s : State) (ident cause : Nat) : State :=
  match s.lxn ident with
  | none => s
  | some x =>
    let others := x.participants.filter (· ≠ s.lake.node)
    let s1 := others.foldl (fun s n => s.lakeSend n 0x23 (leBytes 4 ident ++ [cause])) s
    let s2 := (s1.abortVote ident).lxnState x (if cause = 1 then 8 else 6)
    let s3 : State := { s2 with lake := { s2.lake with lxns := s2.lake.lxns.filter fun y => y.ident ≠ ident
                                                       ended := tset s2.lake.ended ident 2 } }
    (s3.recordLxn x).raise (evPkg 30) ident

/-- The nodes that carry bands of a take, by its spring definitions; the device itself among them (R513). -/
def State.carriersOf (s : State) (t : Take) : List Nat :=
  let named := t.springs.flatMap fun p => (List.range p.nbands).filterMap fun b =>
    let v := p.ports.getD b 0xFFFF
    if 0x4000 ≤ v ∧ v < 0x4200 then some (v - 0x4000) else none
  nodeSet (s.lake.node :: named)

/-- The open lake takes that this device holds a part of. -/
def State.lakeTakes (s : State) : List Take :=
  s.take.takes.filter fun t => (t.state = 1 || t.state = 4) && t.lakeTake ≠ 0

/-- The nodes that the device hears as healthy, in ascending order, itself among them: the members and leaders of its lake (R500). -/
def State.healthyNodes (s : State) : List Nat :=
  nodeSet (s.lake.node :: (s.lake.peers.filter fun p => p.2.state = 1 || p.2.state = 2).map (·.1))

/-- A node leaves the member set, lost or by its LEAVE: its sessions end, a leader raises its generation, the lowest-numbered node
still heard leads where the leader is gone, transactions that it coordinated abort, and a carrier of an open lake take raises
EV P.27 (R502, R504, R510, R516). The frame commits that follow are in LakeTake.lean. -/
def State.dropNode (s : State) (node : Nat) (lost : Bool) : State :=
  let wasMember := s.lake.members.contains node
  let wasLeader := s.inLake && s.lake.leader = node
  let carried := (s.lakeTakes).any fun t => (s.carriersOf t).contains node
  let s0 : State := { s with lake := { s.lake with peers := tdel s.lake.peers node
                                                   seqIn := (s.lake.seqIn.filter fun e => e.1 % 1024 ≠ node)
                                                   unacked := s.lake.unacked.filter fun m => m.dst ≠ node } }
  let s1 := (s0.endSession (sessionKey 4 node)).walkWhere fun o => ownerKind o = 5 && ownerNumber o = node
  let s2 :=
    if wasLeader then
      let lead := s1.healthyNodes.headD s1.lake.node
      let st := if s1.lake.state = 4 then 4 else if lead = s1.lake.node then 3 else 2
      ({ s1 with lake := { s1.lake with leader := lead, state := st } }).raise (evPkg 26) lead
    else s1
  let s3 := if s2.leads then s2.setMembers (s2.lake.members.filter (· ≠ node)) else s2
  let s4 := (s3.lake.votes.filter fun v => v.coord = node).foldl (fun s v => (s.abortVote v.ident).raise (evPkg 30) v.ident) s3
  let s5 := if lost ∧ wasMember then s4.raise (evPkg 28) node else s4
  if carried then s5.raise (evPkg 27) node else s5

/-- The vendor command that a lake search serves: Search or Search Wide (R517). -/
def LakeSearch.op (x : LakeSearch) : Nat := if x.width = 1 then 0x80 else 0x85

/-- The device's membership ends: sessions of its peers, transactions that it has prepared and not committed, votes and searches with it (R504,
R510). -/
def State.endMembership (s : State) : State :=
  let s1 := ((s.lake.lxns.filter fun x => x.state = 2).map (·.ident)).foldl (fun s i => s.abortLxn i 2) s
  let s2 := (s1.lake.votes.map (·.ident)).foldl State.abortVote s1
  let s3 := s2.lake.searches.foldl (fun s x => s.failVendor x.q x.op 0xC8 0) s2
  let s4 := ((s3.lake.peers.map (·.1)).foldl (fun s n => s.endSession (sessionKey 4 n)) s3).walkWhere fun o => ownerKind o = 5
  { s4 with lake := { s4.lake with state := 0, level := 0, leader := 0, gen := 0, members := [], changed := s4.epoch, peers := []
                                   seqIn := [], unacked := [], held := [], searches := [], parts := [], join := none } }

/-- A device leaves its lake with a cause: LEAVE to all, then its membership ends, EV P.26 (R504, R529, R531). -/
def State.leaveLake (s : State) (cause : Nat) : State :=
  if s.inLake then ((s.lakeEmit 0x1FF 4 false [cause]).endMembership).raise (evPkg 26) 0 else s

/-- A join or leave is refused: 0x9017, and Lake Control completes with Lake operation refused. -/
def State.refuseLake (s : State) (code : Nat) : State :=
  let q := (s.lake.join.bind (·.q))
  let s1 : State := { s with lake := { s.lake with refusal := code, join := none, state := if s.lake.state = 1 then 0 else s.lake.state
                                                   peers := if s.lake.state = 1 then [] else s.lake.peers } }
  match q with
  | some q => s1.failVendor q 0xD0 0xCB code
  | none => s1

end Sys2Proof.Machine
end

