-- ==== Sys2Proof/Machine/Recover.lean ====
section
/-!
DEFINITION. Chapter 17: the failure of a die, steward restart, lead takeover, safe hold, resets of the package, of dies and of
engines, event repeats, scrub and spares; and the power-loss commit of chapter 7 with PLW_N and HOLDUP_OK (chapter 20).
-/

namespace Sys2Proof.Machine

/-! ### The failure of a die (R523, R525) -/

/-- Lanes of a die that fails or is reset are off, and its ports down with nothing in progress. -/
def State.downLanes (s : State) (d : Nat) : State :=
  let s1 := s.inflow.ports.foldl (fun s p =>
    if p.1 / 4 ≠ d then s
    else
      let s1 := s.setPort p.1 { p.2 with bands := [] }
      (s1.portDown p.1).endSession (sessionKey 2 p.1)) s
  let lanes := s1.inflow.lanes.filter fun l => l.1 / 4 ≠ d
  let ports := s1.inflow.ports.map fun p => if p.1 / 4 = d then (p.1, Port.down p.2.lanes) else p
  { s1 with inflow := { s1.inflow with lanes := lanes, ports := ports } }

/-- The bands of unrecorded frames that a failed die received (R525): without cross-die protection they are missing under
R152; with it the mirror or the die stripe holds them. -/
def State.loseBands (s : State) (d : Nat) : State :=
  let kept := s.obj 0x3000 0 = 1
  s.take.takes.foldl (fun s t =>
    t.frames.foldl (fun s f =>
      let touched := f.bands.any (fun b => b.die = d) || f.waiting.contains d
      if !touched then s
      else
        let drop := fun f : Frame =>
          { f with waiting := f.waiting.erase d, ringHeld := f.ringHeld.filter fun r => r.1 ≠ d, segs := f.segs.filter fun g => g.die ≠ d
                   bands := if kept then f.bands.map fun b => if b.die = d then { b with ring := 0 } else b
                     else f.bands.filter fun b => b.die ≠ d }
        let s1 := s.modFrame t.nsid t.num f.spring f.frame drop
        if kept ∨ !f.complete then s1
        else
          match s1.frameOf t.nsid t.num f.spring f.frame, Take.springDef t f.spring with
          | some f', some p => s1.addMissing t f' p
          | _, _ => s1) s) s

/-- A die's owners: their buffers on other dies are walked (R193, R533). -/
def State.walkDie (s : State) (d : Nat) : State :=
  s.walkWhere fun o => ownerDie o = d

/-- A media manager without its volatile state: the maps are those that checkpoint and journal on flash give (R212), and a clean marker whose record
did not reach the flash is none. -/
def MediaDie.reborn (m : MediaDie) (d : Nat) : MediaDie :=
  { m with maps := (m.replayed d m.journal.length).1, pendingRecs := [], passRunning := false, passIssued := false, passPages := [], nextCkpt := none
           dirty := [], cache := [], awaiting := [], ops := [], staged := [], bg := [], later := [], lastFail := [], resetting := [], failRuns := []
           hostBytes := 0, hostPrev := 0, heldBack := false, halted := false
           marker := if m.marker = 2 ∧ m.nextCkpt.isSome then 0 else m.marker }

/-- The volatile contents of a die are gone: tasks, jobs, local memories, key slots, pools, search rows and media work under
way; its flash keeps what is durable (R525, R530 row 4). -/
def State.clearDie (s : State) (d : Nat) : State :=
  let s1 := ((s.cd d).tasks.map (·.1)).foldl (fun s slot => s.stopTask d slot 3 0 0) s
  let s2 := (((s1.md d).staged.foldl (fun s u => s.unstage d u) (s1.walkDie d)).endPools d).setRows d []
  let keep := fun (e : Nat × KeySlot) => e.1 / 1024 ≠ d
  let keepS := fun (e : Nat × KeyState) => e.1 / 64 ≠ d
  let sec := { s2.secure with slots := s2.secure.slots.filter keep, keyStates := s2.secure.keyStates.filter keepS
                              dies := tdel s2.secure.dies d }
  let s3 : State := { s2 with secure := sec, comp := { s2.comp with dies := tdel s2.comp.dies d }
                              pond := { s2.pond with audits := tdel s2.pond.audits d } }
  (s3.setMd d ((s3.md d).reborn d)).reportStaged d

/-- A rebuild is queued for every unit that a failed die held, on the die that takes it over, as its writes do from now on (R217). -/
def State.queueRebuild (s : State) (d : Nat) : State :=
  if s.obj 0x3000 0 ≠ 1 then s
  else
    s.host.nss.foldl (fun s n =>
      (n.2.units.filter fun u => u.2 = d).foldl (fun s u =>
        let h := s.placeDie u.1
        (s.setUnit n.1 u.1 h).queueBg h ⟨1, 11, n.1, u.1, cuBytes, some d⟩) s) s

/-- A die fails (R525): EV d.010 on its behalf, its bit in 0xA015, its PCIe port and inflow ports down, its pools gone, its bands
missing or reconstructed. -/
def State.failDie (s : State) (d : Nat) : State :=
  if s.fault.failed.contains d then s
  else
    let f := s.fault
    let f' := { f with failed := f.failed ++ [d], resetting := f.resetting.erase d, halted := f.halted.erase d
                       latched := f.latched.filter fun l => l.1.event / 4096 ≠ d }
    let s0 : State := { s with fault := f' }
    let s1 := (s0.setObj (0xA100 + d) 0 2).setObj 0xA015 0 (setBit (s0.obj 0xA015 0) d)
    let s2 := (s1.setObj (0xA168 + d) 0 2).raise (evDie d 10) 0
    let s3 := (((s2.downLanes d).hostPortDown d).loseBands d).clearDie d
    let s4 := (s3.setObj (0x1840 + d) 0 7).queueRebuild d
    let s5 := if s4.obj 0x3000 0 = 1 then s4.interrupt d 9 1000 else s4
    (s5.recomputeMargins).driveFaultN

/-- Corrected words of a die in this epoch are counted against 0xA128, with EV d.000 once above it (R541). -/
def State.countCorrected (s : State) (die words : Nat) : State :=
  let n := tgetD s.fault.corrected die 0 + words
  let s1 : State := { s with fault := { s.fault with corrected := tset s.fault.corrected die n } }
  if s1.obj (0xA128 + die) 0 < n then s1.raiseOnce (evDie die 0) n die else s1

/-! ### Lead takeover and safe hold (R22, R527, R529) -/

/-- A die whose steward can take a role: healthy, neither halted nor in a die reset. -/
def State.steward (s : State) (d : Nat) : Bool :=
  s.healthy d && !s.fault.halted.contains d && !s.fault.resetting.contains d

/-- The new standby beside a lead (R22): on the HK7-8 the lowest-numbered healthy die of the other quad if it has one, else the
lowest-numbered healthy die other than the lead. -/
def State.newStandby (s : State) (lead : Nat) : Option Nat :=
  let all := s.dies.filter fun d => s.healthy d && !s.fault.resetting.contains d && d ≠ lead
  let other := all.filter fun d => d / 4 ≠ lead / 4
  if s.cfg.dies = 8 ∧ other ≠ [] then other.head? else all.head?

/-- Safe hold begins (R529): the lowest-numbered healthy die steward becomes hold steward; EV P.35, FAULT_N, every open take to
close at the next boundary with reason 3, LEAVE with cause 2; a join under way is refused with reason 8 (R503). -/
def State.enterSafeHold (s : State) : State :=
  if s.fault.safeHold then s
  else
    let hold := ((s.dies.filter s.steward).head?).getD 0
    let f := { s.fault with safeHold := true, holdSteward := hold, lead := hold, standby := none, standbySynced := false }
    let s1 : State := { s with fault := f }
    let s2 := ((s1.setObj 0xA00D 1 1).setObj 0xA00D 2 hold).setObj 0xA00D 3 s1.epoch
    let s3 := (s2.raise (evPkg 35) hold).closeAllLater 3
  let s4 := if s3.lake.state = 1 then s3.refuseLake 8 else s3.leaveLake 2
  (s4.heartbeat 3).driveFaultN

/-- The standby die object 0xA00C:02 follows the standby. DESIGN CHOICE: with no healthy die left to be named, it reads 0xFF; the spec gives
no value (log entry 167). -/
def State.reportStandby (s : State) : State := s.setObj 0xA00C 2 (s.fault.standby.getD 0xFF)

/-- A new standby is named beside the lead, and holds no copy of the journal yet (R22, R527 step 6). -/
def State.nameStandby (s : State) : State :=
  ({ s with fault := { s.fault with standby := s.newStandby s.fault.lead, standbySynced := false } } : State).reportStandby

/-- A standby can take over: its steward runs and it holds a full copy of the journal (R527, R529). -/
def State.standbyReady (s : State) : Option Nat := s.fault.standby.filter fun b => s.steward b && s.fault.standbySynced

/-- The standby becomes lead, and the old lead's steward is fenced (R527 steps 3 and 4). -/
def State.assumeLead (s : State) (b us : Nat) : State :=
  let old := s.fault.lead
  let f := { s.fault with lead := b, standby := none, standbySynced := false
                          leadFenced := if s.fault.leadFenced.contains old then s.fault.leadFenced else s.fault.leadFenced ++ [old] }
  let s1 : State := { s with fault := f }
  (((s1.setObj 0xA00C 1 b).bump 0xA00C 3).setObj 0xA00C 4 us).interrupt b 8 0

/-- The standby takes over and a new standby is named (R527 steps 3 to 6); without one the device enters safe hold (R529). A die named in
`lost` failed with the old lead, so that it is no longer healthy when a standby or a hold steward is named (step 5). -/
def State.takeover (s : State) (us : Nat) (lost : Option Nat) : State :=
  let gone := fun (s : State) => match lost with
    | some d => s.failDie d
    | none => s
  match s.standbyReady with
  | some b => (gone (s.assumeLead b us)).nameStandby.raise (evPkg 33) s.fault.lead
  | none => (gone s).enterSafeHold

/-- The lead role is handed over on the lead's own steps 3 to 6 (R527): how long they take the spec bounds at 1 ms and does not state, a free value
in µs. -/
def State.handOver (s : State) (lost : Option Nat) : State := s.useFree.takeover (s.freeValue % 1001) lost

/-- A die fails, and where it held the lead or the standby the roles move (R22, R525, R527, R529). -/
def State.loseDie (s : State) (d : Nat) : State :=
  if d = s.fault.lead ∧ !s.fault.failed.contains d then s.handOver (some d)
  else
    let s1 := s.failDie d
    if s.fault.standby = some d ∧ !s.fault.safeHold then s1.nameStandby else s1

/-- A spare of a row of R543 that 0xA180 + d counts down is brought in on a die. -/
def State.spareIn (s : State) (d row : Nat) : State :=
  (s.setObj (0xA180 + d) row (s.obj (0xA180 + d) row - 1)).countSpare d row

/-- What the links of a die report: corrected and poisoned words and retries counted, spare wires brought in with EV d.002 while any is left
(R25, R543). -/
def State.linkReport (s : State) (l : LinkReport) : State :=
  let s1 := ((s.addObj (0xA118 + l.die) 3 l.corrected).addObj (0xA120 + l.die) 3 l.poisoned).addObj (0xA158 + l.die) 1 l.retries
  let wire := fun (s : State) =>
    if s.obj (0xA150 + l.die) 2 = 0 then s
    else
      (((s.bump (0xA150 + l.die) 1).setObj (0xA150 + l.die) 2 (s.obj (0xA150 + l.die) 2 - 1)).spareIn l.die 5).raise (evDie l.die 2) 0
  (List.range (min l.wires (s1.obj (0xA150 + l.die) 2))).foldl (fun s _ => wire s) (s1.countCorrected l.die l.corrected)

/-- DIE_HEARTBEAT (R525): a die that does not answer is counted, and what the links of the others met is reported. -/
def execDieHeartbeat (round : HeartbeatRound) (s : State) : Res :=
  let missed := s.dies.filter fun d => d ≠ s.fault.lead && !s.fault.failed.contains d && !round.answered.contains d
  .next ((round.links.filter fun l => s.hasDie l.die).foldl State.linkReport (missed.foldl (fun s d => s.bump (0xA1B0 + d) 0) s))

/-- DIE_SILENCE_TIMEOUT (R525): 300 µs without anything from a die fails it. -/
def execDieSilenceTimeout (die : Nat) (s : State) : Res :=
  onDie s die fun _ => if s.fault.failed.contains die then .next s else .next (s.loseDie die)

/-- Steward failures of a die within the last hour of device time. -/
def State.recentFails (s : State) (d : Nat) : Nat :=
  (s.fault.stewardFails.filter fun f => f.1 = d && s.dtimeS ≤ f.2 + 3600).length

/-- A die steward halts on a mismatch (R525, R526, R529). -/
def State.stewardHalts (s : State) (die : Nat) : State :=
  let f := { s.fault with halted := s.fault.halted ++ [die], stewardFails := s.fault.stewardFails ++ [(die, s.dtimeS)] }
  let s1 : State := { s with fault := f }
  let s2 := ((s1.raise (evDie die 9) 0).bump (0xA160 + die) 1).setObj (0xA168 + die) 0 1
  let s3 := s2.interrupt die (if die = s.fault.lead then 8 else 7) 0
  if 3 ≤ s3.recentFails die then (s3.loseDie die)
  else
    let standbyGone : Bool := match s3.fault.standby with
      | some b => !s3.steward b || !s3.fault.standbySynced
      | none => true
    if s3.fault.halted.contains s3.fault.lead ∧ standbyGone ∧ !s3.fault.safeHold then s3.enterSafeHold
    else s3

/-- LOCKSTEP_MISMATCH (R526): the die steward halts, EV d.009 is held in the die's latches; the third failure within an hour fails
the die. When neither the lead's nor the standby's steward is left, the device enters safe hold (R529). -/
def execLockstepMismatch (die : Nat) (s : State) : Res :=
  onDie s die fun _ =>
    if s.fault.failed.contains die ∨ s.fault.halted.contains die then .next s
    else
      .next (s.stewardHalts die)

/-- The events a die held while its steward was halted are routed, with their own stamps, to the controllers each was meant for (R526). -/
def State.routeHeld (s : State) (d : Nat) : State :=
  let (mine, rest) := s.fault.latched.partition fun l => l.1.event / 4096 = d
  let s0 : State := ({ s with fault := { s.fault with latched := rest } } : State).setObj (0xA1C0 + d) 1 0
  mine.foldl (fun s l => s.deliver { l.1 with routes := s.routesOf l.1.event } l.2) s0

/-- STEWARD_RESTART_COMPLETE (R526). -/
def execStewardRestartComplete (die : Nat) (s : State) : Res :=
  onDie s die fun _ =>
    if !s.fault.halted.contains die then .next s
    else
      let s1 : State := { s with fault := { s.fault with halted := s.fault.halted.erase die } }
      .next (((s1.bump (0xA160 + die) 2).setObj (0xA168 + die) 0 0).routeHeld die)

/-- The standby takes over from a lead that fell silent; where the old lead's die is not healthy, it has failed (R527). -/
def State.leadLost (s : State) (leadHealthy : Bool) (takeoverUs : Nat) : State :=
  s.takeover takeoverUs (if leadHealthy then none else some s.fault.lead)

/-- LEAD_SILENCE_TIMEOUT (R527): where a die still hears the lead nothing follows; else the standby takes over, and an old lead
whose die is not healthy has failed. On the HK7-2 the standby decides alone. -/
def execLeadSilenceTimeout (heardBy : List Nat) (leadHealthy : Bool) (takeoverUs : Nat) (s : State) : Res :=
  if s.fault.safeHold then .next s
  else if s.cfg.dies ≠ 2 ∧ heardBy ≠ [] then .next s
  else
    .next (s.leadLost leadHealthy takeoverUs)

/-- STANDBY_SYNC_COMPLETE (R527 step 7): EV P.34. -/
def execStandbySyncComplete (s : State) : Res :=
  if s.fault.standbySynced ∨ s.fault.standby.isNone then .next s
  else
    let s1 : State := { s with fault := { s.fault with standbySynced := true } }
    .next (s1.raise (evPkg 34) (s.fault.standby.getD 0))

/-! ### The power-loss commit (R240, R394, R515) -/

/-- A durable frame that waits only for its filters is recorded with FILTER_SKIPPED; of a lake take, a part whose PART READY was
acknowledged is recorded (step 5). -/
def State.recordDurable (s : State) : State :=
  s.take.takes.foldl (fun s t =>
    if t.state ≠ 1 ∧ t.state ≠ 4 then s
    else
      t.frames.foldl (fun s f =>
        if f.complete ∧ f.waiting.isEmpty ∧ (t.lakeTake = 0 ∨ f.offered = 2) then
          let f' := { f with filterSkipped := f.filterSkipped || f.filtersOpen ≠ 0 }
          (s.missEverywhere t.nsid t.num f.spring f.frame).recordFrame t.nsid t.num f' (2 ^ 64 - 1)
        else s) s) s

/-- Steps 2 to 5 on one die: what waits for its target is dropped, background work not issued with it, and erases are aborted; staged data (host
writes and pending manifest records) and the journal tail go into one commit program of the SLC staging region. -/
def State.commitDie (s : State) (d : Nat) : State :=
  let m := s.md d
  let m' := { m with bg := [], later := [], ops := m.ops.filter fun o => !o.2.kind.isErase && !o.2.waits, marker := 0 }
  let staged := granuleBytes * sum (m.staged.map fun u => if u.phase = 2 then 0 else u.granules.length)
  let bytes := staged + 48 * m.pendingRecs.length
  (s.setMd d m').issueOp d (.commit bytes) bytes m.commitStripe 0

/-- The compute cores halt: no task is left ready or running. -/
def State.haltCores (s : State) : State :=
  s.dies.foldl (fun s d =>
    let c := s.cd d
    let halt := fun (t : Task) => { t with state := if t.state = 4 then 4 else 1, core := none, waitMask := 0, windows := t.windows }
    s.setCd d { c with tasks := c.tasks.map fun t => (t.1, halt t.2), ready := [] }) s

/-- The power-loss commit of R240 begins: steps 2 to 5. -/
def State.powerLossCommit (s : State) : State :=
  if s.media.commitRunning then s
  else
    let s1 := s.recordDurable
    let s2 := s1.take.takes.foldl (fun s t => if t.state = 1 ∨ t.state = 4 then s.flushManifest t.nsid t.num else s) s1
    let ports := s2.inflow.ports.map fun p => (p.1, { p.2 with bands := [] })
    let s3 := ({ s2 with inflow := { s2.inflow with ports := ports } } : State).haltCores
    let s4 : State := { s3 with media := { s3.media with commitRunning := true, commitFrom := s.time.now, marker := 0 } }
    let s5 := ((s4.setObj 0x3017 1 2).setObj 0x3017 2 0).setObj 0x3017 3 0
    (s5.dies.filter s5.healthy).foldl State.commitDie s5

/-- The operations of a die in flight end: reads without an effect, programs as passed, the commit's own last. -/
def State.endOps (s : State) (d : Nat) : State :=
  let (last, first) := (s.md d).ops.partition fun o => o.2.kind.isCommit
  (first ++ last).foldl (fun s o => if o.2.kind.isErase then s.endOp d o.1 else (s.endOp d o.1).programPassed d o.2) s

/-- What of a commit is still under way completes: every program already issued passes, and the markers are programmed. -/
def State.finishCommit (s : State) : State := (s.dies.filter s.healthy).foldl State.endOps s

/-! ### Volatile state (R530 rows 1 to 3) -/

/-- Objects that the fuses, the boot flash, the key store and the flash keep through power-on: the boot objects 0x1807 and 0x1809,
limited-change counts, media and flash (0x3000 to 0x35FF), firmware slots, production slots and stored keys, the trip record, the
temperature history and the count of persistent entries. -/
def keptObject (idx : Nat) : Bool :=
  idx == 0x1807 || idx == 0x1809 || idx == 0x1F80 || (0x3000 ≤ idx && idx < 0x3600) || idx == 0x400D || idx == 0x600B || idx == 0x600C ||
    idx == 0x6004 || idx == 0x800F || (0xA1D8 ≤ idx && idx < 0xA1E0)

/-- A take after power-on: one admitted and not open is gone; one open or closing keeps its recorded frames until it is sealed, with
reason 5, or 3 when safe hold was recorded (R168, R169). -/
def Take.reborn (held : Bool) (t : Take) : Option Take :=
  let cleared := fun f : Frame => { f with ringHeld := [], bands := f.bands.map fun b => { b with ring := 0 } }
  if t.state = 5 then none
  else if t.state = 1 ∨ t.state = 4 then
    some { t with state := 4, reason := if held ∨ t.reason = 3 then 3 else 5, frames := t.frames.map cleared }
  else some t

/-- What of a die's housekeeping survives: its temperature history (R246). -/
def PowerDie.kept (p : PowerDie) : PowerDie := { PowerDie.fresh with levelNs := p.levelNs.filter fun e => 100 ≤ e.1 }

/-- Every volatile state is cleared (R530): kind 0 power-on, 1 PORST_N, 2 package soft reset. The trip latch stays (R562), and FAULT_N
is released (R544). -/
def State.clearVolatile (s0 : State) (kind : Nat) : State :=
  let s := s0.releaseAdmitted
  let z := State.resetOf s.cfg
  let dict := { z.dict with store := s.dict.store.filter (fun e => keptObject (e.1 / 256)), doms := s.dict.doms.filter (fun e => keptObject (e.1 / 256))
                            ledger := s.dict.ledger, fuseStore := s.dict.fuseStore, fuseCut := s.dict.fuseCut }
  let held : Bool := s.fault.safeHold
  let takes := s.take.takes.filterMap (Take.reborn held)
  let secure := { z.secure with production := s.secure.production, store := s.secure.store, marks := s.secure.marks
                                contextSeed := s.freeValue }
  let host := { z.host with nss := s.host.nss, fw := s.host.fw, smart := s.host.smart }
  let media := { s.media with dies := s.media.dies.map (fun m => (m.1, m.2.reborn m.1)), commitRunning := false
                              devTimePs := s.media.devStored, taiOwed := s.media.taiStored.map fun t => (t, s.media.devStored) }
  let latch := s.power.tripped
  let s1 : State :=
    { z with time := { z.time with now := s.time.now, epochStart := s.time.now, tcAt := s.time.now }, dict := dict
             fault := { z.fault with plog := s.fault.plog }
             pins := { z.pins with plw := s.pins.plw, holdupOk := s.pins.holdupOk, fuseVpp := s.pins.fuseVpp, frameSync := s.pins.frameSync
                                   gpio := s.pins.gpio, thermTrip := latch }
             boot := { z.boot with powered := s.boot.powered }
             take := { z.take with takes := takes }, secure := secure, host := host, media := media
             power := { z.power with tripped := latch, dies := s.power.dies.map fun e => (e.1, e.2.kept) }
             mem := s.mem.filter (fun c => c.1 < 2 ^ 104), poison := s.poison.filter (fun a => a < 2 ^ 104)
             out := s.out ++ (if s.obj 0xA00F 1 = 1 then [.pin 0 true] else []) ++ s.pins.wpHigh.map fun d => .pin (2 + d) false
             freeCtr := s.freeCtr + 1, pending := s.pending }
  let s2 := s1.dies.foldl (fun s d => s.setObj (0x3210 + d) 1 0) (s1.setObj 0x3018 0 (b2n (!s.pins.holdupOk)))
  ((s2.setObj 0x1806 1 kind).countReset (kind + 1) 0)

/-! ### Package soft reset and die reset (R531 to R533) -/

/-- A die reset (R532): the die's volatile state is cleared and it replays its journal; a reset of the lead's die first hands the
lead role over, and one of the standby's names another standby. A failed die stays failed (R525). -/
def State.resetDie (s : State) (d : Nat) : State :=
  if !s.healthy d then { s with fault := { s.fault with dieResetPending := s.fault.dieResetPending.erase d } }
  else
    let f := { s.fault with resetting := if s.fault.resetting.contains d then s.fault.resetting else s.fault.resetting ++ [d]
                            halted := s.fault.halted.erase d, dieResetPending := s.fault.dieResetPending.erase d }
    let s' : State := { s with fault := f }
    let s0 := if d = s.fault.lead then s'.handOver none
      else if s.fault.standby = some d ∧ !s.fault.safeHold then s'.nameStandby else s'
    let s1 := (((s0.downLanes d).hostPortDown d).clearDie d)
    let p := s1.pd d
    let s3 := (s1.setPd d { p with on := 0x3FF, waking := [] }).setObj (0x8108 + d) 0 0x3FF
    (((s3.setObj (0xA168 + d) 0 0).setObj (0xA100 + d) 0 1).bump (0xA1A0 + d) 0).countReset 4 d

/-- A die carries a band of an open or closing take. -/
def State.carriesBand (s : State) (d : Nat) : Bool :=
  s.take.takes.any fun t => (t.state = 1 || t.state = 4) && (Take.ports t).any fun k => k / 4 = d

/-- A die reset asked for by the manager waits while the die carries a band of an open take (R532). -/
def State.askDieReset (s : State) (d : Nat) : State :=
  if s.carriesBand d then
    { s with fault := { s.fault with dieResetPending := if s.fault.dieResetPending.contains d then s.fault.dieResetPending
      else s.fault.dieResetPending ++ [d] } }
  else s.resetDie d

/-- A die that was reset has replayed its journal, of which `readable` records verify: EV d.011. -/
def State.dieResetDone (s : State) (d readable : Nat) : State :=
  let f := { s.fault with resetting := s.fault.resetting.erase d }
  let s1 := (({ s with fault := f } : State).setObj (0xA100 + d) 0 0).restoreMaps d readable |>.1
  ((((s1.formFirst d).refitDie d []).1).raise (evDie d 11) 0).routeHeld d

/-- DIE_RESET_TIMEOUT (R532): a die that does not answer 4 s after its reset is failed. -/
def execDieResetTimeout (die : Nat) (s : State) : Res :=
  onDie s die fun _ => if s.fault.resetting.contains die then .next (s.loseDie die) else .next s

/-- A die's full checkpoint pass, made at once: staged data is programmed, every changed map page, and the end record; the marker is clean (R211, R531). -/
def State.fullPass (s : State) (d : Nat) : State :=
  let s1 := s.endOps d
  let s2 := (((s1.md d).staged.filter fun u => u.phase ≠ 2).foldl (fun s u => s.commitUnit d u) s1).beginPass d
  let m2 := s2.md d
  let x := s2.allocateEach d (m2.dirty.map pageKey)
  let s3 := (x.1.setMd d { x.1.md d with dirty := [] }).pagesPassed d x.2
  let s4 := (s3.logMap d 8 0 1 0 m2.passBegin (s3.freeValue % 2 ^ 64) 0).useFree
  let m := s4.md d
  let s5 := s4.setMd d { m with nextCkpt := some (m.nextSeq - 1, ⟨m2.passBegin, m.maps, m.passPlaces⟩), passRunning := false, passIssued := false
                                passPages := [] }
  let s6 := s5.journalDurable d (m.nextSeq - 1)
  s6.setMd d { s6.md d with marker := 2, calibrated := some s.dtimeS }

/-- The package soft reset itself (R531): EV P.36, a full checkpoint pass, LEAVE with cause 3, every port's link down, and every die
restarts from the boot ROM. -/
def State.softReset (s : State) : State :=
  let s1 := (s.raise (evPkg 36) 0).leaveLake 3
  let s2 := (s1.host.linkUp).foldl State.hostPortDown s1
  ((s2.dies.filter s2.healthy).foldl State.fullPass s2).storeTime.clearVolatile 2

/-- A soft reset that waits is made once no take is open or closing, and die resets that wait for their takes follow (R531, R532). -/
def State.waitingResets (s : State) : State :=
  (s.fault.dieResetPending.filter fun d => !s.carriesBand d).foldl State.resetDie s

/-! ### Engine reset (R532) -/

/-- An engine reset: 1 cipher, 2 digest, 3 codec, 4 search. Its jobs end with the status their engine gives for abandonment, the
search unit's queued maintenance is refused with 0x06, and its pond entries are walked (R533); EV d.012. -/
def State.resetEngine (s : State) (d e : Nat) : State :=
  let jobs := (s.cd d).jobs.filter fun j => j.2.engine + 1 = e && j.2.state < 2
  let ended := jobs.foldl (fun s t =>
    match tget (s.cd d).jobs t.1 with
    | none => s
    | some j =>
      if 2 ≤ j.state then s
      else if e = 1 then s.endCipher d t.1 j.core j 7 0
      else if e = 2 then s.endDigest d t.1 j.core j 7 0
      else s.endCodec d t.1 j 5 0 0) s
  let sets := fun (s : State) => (List.range 2).foldl (fun s k =>
    let r := s.regSet d k
    if r.active ∨ r.busy then s.setRegSet d k (RegSet.stop r 7) else s) s
  let tables := fun (s : State) => s.search.tables.foldl (fun s t =>
    let kept := if t.2.move.isSome then t.2.queue.take 1 else []
    let gone := if t.2.move.isSome then t.2.queue.drop 1 else t.2.queue
    let s1 := s.setTable t.1 { t.2 with queue := kept }
    gone.foldl (fun s op =>
      let s1 := s.refuseSearch t.1 6 0
      match op.flag with
      | some (d, slot, f) => s1.post d slot (flagBit f)
      | none => s1) s1) s
  let n := if e = 4 then sum (s.search.tables.map fun t => t.2.queue.length) else jobs.length
  let s0 := if e = 2 then sets ended else if e = 4 then tables ended else ended
  let s1 := s0.walkWhere fun o => o = ownerId 2 d (if e = 1 then 3 else if e = 2 then 4 else if e = 3 then 6 else 5)
  let s2 := ((s1.bump (0xA190 + d) e).setObj (0xA198 + d) 1 e).setObj (0xA198 + d) 2 s1.epoch
  ((s2.setObj (0xA198 + d) 3 n).countReset 9 (256 * d + e)).raise (evDie d 12) e

/-- An engine's scheduler holds jobs. -/
def State.engineHolds (s : State) (d e : Nat) : Bool :=
  if e = 4 then s.search.tables.any fun t => !t.2.queue.isEmpty
  else (s.cd d).jobs.any (fun j => j.2.engine + 1 = e && j.2.state < 2) || (e = 2 && (List.range 2).any fun k => (s.regSet d k).busy)

/-- ENGINE_STALL_TIMEOUT (R532): an engine scheduler that holds jobs and makes no progress for 1 ms is reset. -/
def execEngineStallTimeout (die engine : Nat) (s : State) : Res :=
  onDie s die fun _ =>
    if engine = 0 ∨ 4 < engine then .fault .absentUnit
    else if !s.engineHolds die engine ∨ s.fault.resetting.contains die then .next s
    else .next (s.resetEngine die engine)

/-! ### Events (R537, R538, R544) -/

/-- EMERGENCY_REPEAT_EXPIRY (R537): one frame carries the repeats counted since the event's last frame. -/
def execEmergencyRepeatExpiry (event : Nat) (s : State) : Res :=
  match tget s.fault.can event with
  | none => .next s
  | some r =>
    if s.time.now < r.last + s.obj 0xA009 0 * 1000000 then .next s
    else if r.repeats = 0 then .next { s with fault := { s.fault with can := tdel s.fault.can event } }
    else
      .next ((s.setCan event ⟨s.time.now, 0, r.epoch, r.phase, r.detail⟩).emitCan 1
        (emergencyBody ⟨event, evClass event, 0, r.epoch, r.phase, r.detail, 0, 0xFFFF, 0⟩ r.repeats))

/-- The event log is emptied and SEQ starts at 1 again (R538). -/
def State.emptyLog (s : State) : State :=
  { s with fault := { s.fault with log := [], nextSeq := 1, logRead := 0 } }

/-- Every event raised before is acknowledged (R544). -/
def State.acknowledge (s : State) : State :=
  ({ s with fault := { s.fault with unackFault := false, unackCritical := false } } : State).driveFaultN

/-! ### Scrub and spares (R15, R407, R524, R542, R543) -/

/-- The pond buffers of a pool that touch a retired region are quarantined for good (R524). -/
def Pool.loseRegion (q : Pool) (r p : Nat) : Pool :=
  if q.cfg.kind ≠ 2 then q
  else
    ((List.range q.cfg.count).filter fun i => Config.regionBuffer r p i).foldl
      (fun q i => q.setBuf i { q.buf i with quar := true, mark := false, lost := true }) q

/-- A DRAM region is retired (R524): EV d.008, the buffers that touch it leave service, and the usable DRAM shrinks by its share. -/
def State.retireRegion (s : State) (d r : Nat) : State :=
  let mask := s.obj (0xA138 + d) 0
  if bitOf mask r ∨ 64 ≤ r then s
  else
    let left := 64 - (bitsOf 64 mask).length
    let usable := s.obj (0xA140 + d) 0
    let s1 := (s.setObj (0xA138 + d) 0 (setBit mask r)).setObj (0xA140 + d) 0 (usable - usable / max 1 left)
    let s2 := (List.range 64).foldl (fun s p =>
      match s.pool d p with
      | some q => (s.setPool d p (q.loseRegion r p)).weir d p q.fill
      | none => s) s1
    (s2.interrupt d 6 1000).raise (evDie d 8) r

/-- How far a scrub pass has come: at its end 100 percent, with the epoch; before it a free value, which the spec does not state. -/
def State.scrubPass (s : State) (d sub : Nat) (done : Bool) : State :=
  if done then (s.setObj (0xA178 + d) sub 100).setObj (0xA170 + d) sub s.epoch
  else (s.setObj (0xA178 + d) sub (s.freeValue % 100)).useFree

/-- A failing SRAM row is replaced by one of the two spares of its sub-array, or is lost (R543). -/
def State.repairRow (s : State) (die array : Nat) : State :=
  let k := 384 * die + array
  let used := tgetD s.fault.rowSpares k 0
  if used < 2 then
    let s1 : State := { s with fault := { s.fault with rowSpares := tset s.fault.rowSpares k (used + 1) } }
    (((s1.bump (0xA130 + die) 1).setObj (0xA130 + die) 2 (s1.obj (0xA130 + die) 2 - 1)).spareIn die 4).raise (evDie die 4) 0
  else s.raise (evDie die 5) 0

/-- What a scrub window found (R25, R524, R542): words counted, poisoned words of task segments and pond buffers marked, granules of the
staging areas rebuilt from their groups. -/
def State.scrubbed (s : State) (die : Nat) (found : ScrubFindings) : State :=
  let poisoned := sum (found.regions.map (·.2))
  let s1 := (s.addObj (0xA118 + die) 1 found.sramCorrected).addObj (0xA118 + die) 2 found.dramCorrected
  let s2 := ((s1.addObj (0xA120 + die) 1 found.sramPoisoned).addObj (0xA120 + die) 2 poisoned).addObj (0xA148 + die) 0 found.rebuilt
  let s3 : State := { s2 with poison := s2.poison ++ found.words.filter fun w => 2 ^ 104 ≤ w && !s2.poison.contains w }
  let s4 := (found.rows.filter (· < 384)).foldl (fun s a => s.repairRow die a) s3
  let s5 := (found.regions.filter fun r => 1 < r.2).foldl (fun s r => s.retireRegion die r.1) s4
  ((s5.countCorrected die (found.sramCorrected + found.dramCorrected)).scrubPass die 1 found.sramPass).scrubPass die 2 found.dramPass

/-- SCRUB_WINDOW_START (R524, R542, R543): in the scrub window the words corrected and poisoned are counted, failing SRAM rows are replaced or
lost, and a region with poisoned words in more than one code word is retired. -/
def execScrubWindowStart (die : Nat) (found : ScrubFindings) (s : State) : Res :=
  onDie s die fun _ =>
    if s.inScrub die then .next (s.scrubbed die found) else .next s

/-- A media core fails: a spare takes its place, or three serve (R523). -/
def State.mediaCoreFails (s : State) (die core n : Nat) : State :=
  let s0 := s.interrupt die 4 1000
  if s0.obj (0x3230 + die) 2 = 0 then
    (((s0.setObj (0x3230 + die) 2 1).spareIn die 2).raise (evDie die 6) core)
  else (((s0.setObj (0x3230 + die) 1 (n - 1)).raise (evDie die 7) core).recomputeMargins)

/-- MEDIA_CORE_FAILURE (R523): the spare media core takes the number, or the die goes on with three cores at 3/4 of its ceiling. -/
def execMediaCoreFailure (die core : Nat) (s : State) : Res :=
  onDie s die fun _ =>
    let n := s.obj (0x3230 + die) 1
    if 4 ≤ core then .fault .absentUnit
    else
      .next (s.mediaCoreFails die core n)

/-- A compute core fails: its tasks are lost, and a spare takes its place or it leaves its groups (R407). A filter among them is created again
for the next frame that starts, as R391 gives. -/
def State.computeCoreFails (s : State) (die core : Nat) : State :=
  let spare := 0 < s.obj (0x50B8 + die) 0
  let slots := (s.resident die core).map (·.1)
  let s1 := slots.foldl (fun s slot => s.stopTask die slot 2 0 0) s
  if spare then
    let left := s1.obj (0x50B8 + die) 0
    (((s1.setObj (0x50B0 + die) (core + 1) (18 - left)).setObj (0x50B8 + die) 0 (left - 1)).spareIn die 1).raise (evDie die 91) core
  else
    let c := s1.cd die
    (s1.setCd die { c with lost := c.lost ++ [core] }).raise (evDie die 92) core

/-- COMPUTE_CORE_FAILURE (R407): the tasks resident on the core end as lost, their frames in flight miss and filters are created
again; a spare core takes the number, or the logical core leaves every group's mask. -/
def execComputeCoreFailure (die core : Nat) (s : State) : Res :=
  onDie s die fun _ =>
    if 16 ≤ core ∨ !s.coreUp die core then .fault .absentUnit
    else
      .next (s.computeCoreFails die core)

/-- DIE_LINK_FAILURE (R17): EV d.003, and traffic reroutes. -/
def execDieLinkFailure (dieA dieB : Nat) (s : State) : Res :=
  if !s.hasDie dieA ∨ !s.hasDie dieB ∨ dieA = dieB ∨ (s.cfg.dies = 8 ∧ dieA / 4 ≠ dieB / 4 ∧ dieA % 4 ≠ dieB % 4) then .fault .absentUnit
  else if s.fault.linksDown.contains (min dieA dieB, max dieA dieB) then .next s
  else
    let s1 : State := { s with fault := { s.fault with linksDown := s.fault.linksDown ++ [(min dieA dieB, max dieA dieB)] } }
    .next (((s1.bump (0xA158 + dieA) 2).bump (0xA158 + dieB) 2).raise (evDie (min dieA dieB) 3) (max dieA dieB))

/-- OWNER_WALK_COMPLETE (R185, R193, R382): the owner's GETs are judged normally again, an ended task's slot frees, and cells that wait for a
buffer ask again. -/
def execOwnerWalkComplete (owner : Nat) (s : State) : Res :=
  if s.pond.walked.contains owner then
    .next (s.walkEnds owner).retryWaiting
  else .next s

end Sys2Proof.Machine
end

