-- ==== Sys2Proof/Machine/Power.lean ====
section
/-!
DEFINITION. Chapter 18: the housekeeping round and its readout, sensors, power, thermal levels, grace and enforcement, the governor,
thermal shutdown and the switched domains.
-/

namespace Sys2Proof.Machine

/-! ### What a round sets for the next readout (R551) -/

/-- An object's value to be shown at the next readout of a die. -/
def State.later (s : State) (d idx sub v : Nat) : State :=
  let p := s.pd d
  s.setPd d { p with tally := tset p.tally (okey idx sub) v }

/-- The value that the next readout will show. -/
def State.laterGet (s : State) (d idx sub : Nat) : Nat := (tget (s.pd d).tally (okey idx sub)).getD (s.obj idx sub)

/-- A counter, and a high-water mark, for the next readout. -/
def State.laterAdd (s : State) (d idx sub n : Nat) : State := s.later d idx sub (s.laterGet d idx sub + n)
def State.laterMax (s : State) (d idx sub v : Nat) : State := s.later d idx sub (max v (s.laterGet d idx sub))

/-- Nanoseconds gathered under a key of the die's records. -/
def State.addNs (s : State) (d key n : Nat) : State :=
  let p := s.pd d
  s.setPd d { p with levelNs := tset p.levelNs key (tgetD p.levelNs key 0 + n) }

/-- The period of a round, in ns. -/
def roundNs : Nat := 8000000

/-! ### Sensors, rails and power (R549, R550, R552, R587) -/

/-- A sensor differs from both other sensors of its group by more than 10 °C. -/
def strays (l : List Int) (k : Nat) : Bool :=
  let g := k / 3 * 3
  ((List.range 3).map (· + g)).all fun j => j = k || 100 < (l.getD k 0 - l.getD j 0).natAbs

/-- Sensors that disagree for the fourth round in a row fail, with EV d.122 (R550). -/
def State.judgeSensors (s : State) (d : Nat) (temps : List Int) : State :=
  let p := s.pd d
  let runs := (List.range 12).map fun k => if strays temps k then p.runs.getD k 0 + 1 else 0
  let bad := (List.range 12).filter fun k => !p.failed.contains k && 4 ≤ runs.getD k 0
  let s1 := s.setPd d { p with runs := runs, failed := p.failed ++ bad }
  bad.foldl (fun s k => (s.raise (evDie d 122) k).laterAdd d (0x81F8 + d) 0 1) s1

/-- The voltage channel of each current channel's rail: the mean of VDD_CORE and of VDD_SRAM, else its one channel. -/
def railVolts (v : List Nat) (i : Nat) : Nat :=
  match i with
  | 0 => sum (v.take 4) / 4
  | 1 => sum ((v.drop 4).take 2) / 2
  | 2 => v.getD 6 0
  | 3 => v.getD 7 0
  | 4 => v.getD 9 0
  | _ => v.getD 11 0

/-- Die power of a round, in mW: currents times voltages, plus the rated shares of VDDA_SD and VDDQ_M, and of VDD_IO and FUSE_VPP on
die 0. -/
def State.diePower (s : State) (d : Nat) (r : Round) : Nat :=
  sum ((List.range 6).map fun i => r.amps.getD i 0 * railVolts r.volts i) / 1000 + 900 + (if s.cfg.dies = 4 then 587 else 600) +
    (if d = 0 then 270 else 0)

/-- The average of a list of powers. -/
def meanOf (l : List Nat) : Nat := sum l / max 1 l.length

/-- Package power in mW: of the last round, and averaged over 32 rounds. -/
def State.packagePower (s : State) : Nat := sum (s.dies.map fun d => (s.pd d).powers.headD 0)
def State.packageAverage (s : State) : Nat := sum (s.dies.map fun d => meanOf (s.pd d).powers)

/-- A limited-change write is being made: FUSE_VPP is to be at its voltage (R586). -/
def State.fuseWork (s : State) : Bool := s.dict.commits.any fun c => c.fuse && !c.blown

/-- A round's voltages and currents are held against their limits: EV d.120 and EV d.121, at most once per epoch. -/
def State.judgeRails (s : State) (d : Nat) (r : Round) : State :=
  let lo := fun k => if k = 13 ∧ s.fuseWork then 1710 else s.obj (0x8148 + d) (k + 1)
  let hi := fun k => if k = 13 ∧ s.fuseWork then 1890 else s.obj (0x8150 + d) (k + 1)
  let outV := (List.range 14).filter fun k => r.volts.getD k 0 < lo k || hi k < r.volts.getD k 0
  let outI := (List.range 6).filter fun k => s.obj (0x8160 + d) (k + 1) < r.amps.getD k 0
  let s1 := outV.foldl (fun s k => s.laterAdd d (0x81A8 + d) (k + 1) 1) s
  let s2 := outI.foldl (fun s k => s.laterAdd d (0x81B0 + d) (k + 1) 1) s1
  let s3 := if outV = [] then s2 else s2.raiseOnce (evDie d 120) (outV.headD 0) d
  if outI = [] then s3 else s3.raiseOnce (evDie d 121) (outI.headD 0) d

/-- The rise of a sensor over 32 rounds, in 0.01 °C/s (R555); none while fewer rounds are known. -/
def PowerDie.rise (p : PowerDie) (k : Nat) : Option Int :=
  if p.temps.length < 33 then none
  else some ((((p.temps.headD []).getD k 0 - (p.temps.getD 32 []).getD k 0) * 10000) / 256)

/-- The greatest rise among some sensors of a die, and of the package. -/
def PowerDie.riseOf (p : PowerDie) (ks : List Nat) : Int :=
  (ks.filterMap fun k => if p.failed.contains k then none else p.rise k).foldl max 0
def State.greatestRise (s : State) : Int := (s.dies.map fun d => (s.pd d).riseOf (List.range 12)).foldl max 0

/-! ### Thermal levels and power-limit requests (R554 to R557, R559, R561) -/

/-- The absolute level that a reading enters, and the threshold of a level. -/
def absEntry (t : Int) : Nat := if 1100 ≤ t then 3 else if 1000 ≤ t then 2 else if 950 ≤ t then 1 else 0
def absThreshold (l : Nat) : Int := if l = 3 then 1100 else if l = 2 then 1000 else 950

/-- The absolute level after a round: raised by an entry, lowered by one below the threshold less the hysteresis. -/
def nextAbs (now : Nat) (t hyst : Int) : Nat :=
  if now < absEntry t then absEntry t
  else if 0 < now ∧ t < absThreshold now - 10 * hyst then now - 1
  else now

/-- The rate level of a rise in 0.01 °C/s. -/
def rateLevel (rise : Int) : Nat := if 400 < rise then 2 else if 150 < rise then 1 else 0

/-- The thermal level: the higher of the two (R554). -/
def State.thermal (s : State) : Nat := max s.power.absLevel s.power.rateLevel

/-- The level that SLOWDOWN carries: a standing power-limit request counts as level 2. -/
def State.slowLevel (s : State) : Nat := max s.thermal (if s.power.request then 2 else 0)

/-- The requested fraction of a level, Q15. -/
def State.fraction (s : State) (l : Nat) : Nat := if l = 3 then s.obj 0x800B 2 else if l = 2 then s.obj 0x800B 1 else 0x7FFF

/-- The grace time left, in ms. -/
def State.graceLeft (s : State) : Nat :=
  match s.power.grace with
  | some t => (t - s.time.now) / 1000000
  | none => 0

/-- The cause that SLOWDOWN carries: 2 a power-limit request, 1 the rate of rise, 0 temperature. -/
def State.slowCause (s : State) : Nat :=
  if s.power.request ∧ s.thermal < 2 then 2 else if s.power.absLevel < s.power.rateLevel then 1 else 0

/-- The detail word of EV P.40 to EV P.42: the requested fraction and the hottest junction. -/
def State.slowDetail (s : State) : Nat := s.fraction s.slowLevel * 65536 + twos 16 s.junction

/-- The grace time starts, runs on or is cancelled with the level (R557); entering level 3 while a take is open closes every open
take at the next boundary, where enforcement begins (R559). -/
def State.moveGrace (s : State) (before : Nat) : State :=
  let l := s.slowLevel
  let s1 : State :=
    if 2 ≤ l then
      if s.power.grace.isNone ∧ !s.power.waiting ∧ !s.power.due ∧ s.power.step = 0 then
        { s with power := { s.power with grace := some (s.time.now + s.obj 0x8008 0 * 1000000) } }
      else s
    else if s.power.due ∧ s.power.step = 0 ∧ s.take.closing.any (fun c => c.2.2.1 = 2) then s
    else { s with power := { s.power with grace := none, waiting := false, due := false } }
  if s1.thermal = 3 ∧ before < 3 ∧ s1.anyOpen then
    ({ s1 with power := { s1.power with grace := none, waiting := false, due := true } } : State).closeAllLater 2
  else s1

/-- What is announced: the thermal level, the level that SLOWDOWN carries and the requested fraction. -/
def State.toTell (s : State) : Nat × Nat × Nat := (s.thermal, s.slowLevel, s.fraction s.slowLevel)

/-- The event of an entry (R556, R561, R564): of a thermal level entered, else of a power-limit request newly made; none on a fall. -/
def State.entered (s : State) (was : Nat × Nat × Nat) : Option Nat :=
  if was.1 < s.thermal then some (39 + s.thermal) else if was.2.1 < s.slowLevel then some 41 else none

/-- A change of the thermal level, of a standing request or of the requested fraction is announced (R556): SLOWDOWN on every port, an event on entering
a higher level, and a record in every open take. -/
def State.announce (s : State) : State :=
  let was := s.power.told
  let l := s.slowLevel
  if was = s.toTell then s
  else
    let s0 : State := { s with power := { s.power with told := s.toTell, cause := s.slowCause } }
    let s1 := s0.moveGrace was.1
    let body := [l, s1.slowCause] ++ leBytes 2 (s1.fraction l) ++ leBytes 4 s1.graceLeft ++ leBytes 2 (twos 16 s1.junction)
    let code := if l = 3 then 42 else if l = 2 then 41 else 40
    let s1' := s1.sendAllPorts 0x21 body
    -- EV P.42 is critical and makes its own record
    let s2 := if s.thermal = 3 ∧ was.1 < 3 then s1' else s1'.recordInTakes (record 32 [(0, 1, 5), (1, 1, evClass (evPkg code)), (2, 2, evPkg code), (6, 2, 32),
      (8, 6, s1.epoch), (14, 2, s1.phase), (16, 4, s1.slowDetail % 2 ^ 32)])
    let lead := s2.fault.lead
    let s3 := (s2.later lead 0x8004 1 l).later lead 0x8004 2 s2.slowCause
    let s4 := if l = was.2.1 then s3 else s3.later lead 0x8004 3 s3.epoch
    let s5 := if was.1 < s.thermal then s4.laterAdd lead 0x800E s.thermal 1 else s4
    let s6 := if was.1 < 2 ∧ s.thermal = 2 then s5.addSmart 10 1 else s5
    match s.entered was with
    | some e => s6.raise (evPkg e) s6.slowDetail
    | none => s6

/-- The power-limit request after a round (R561): made above the class limit while the level is below 2, cleared after 32 rounds at or
below it. -/
def State.judgeRequest (s : State) : State :=
  let above : Bool := s.classLimit < s.packageAverage
  let met := if above then 0 else s.power.met + 1
  if s.power.request then
    { s with power := { s.power with met := met, request := met < 32 } }
  else if above ∧ s.thermal < 2 then
    ({ s with power := { s.power with met := 0, request := true } } : State).laterAdd s.fault.lead 0x800E 4 1
  else { s with power := { s.power with met := met } }

/-! ### The governor (R558) -/

/-- Actions of the governor in their order: 1 the seep floor, 2 to 5 the compute clock in 250 MHz steps, 6 to 14 the host caps in steps
of 10%. -/
def governorMost : Nat := 14

/-- The compute clock at a number of actions, in MHz. -/
def governorClock (n : Nat) : Nat := 2000 - 250 * min 4 (n - 1)

/-- The percentage that the caps stand at; 0 for no cap. -/
def governorPercent (n : Nat) : Nat := if n ≤ 5 then 0 else 100 - 10 * (n - 5)

/-- The bits of 0x81D8 + d at a number of actions. -/
def governorBits (n : Nat) : Nat := b2n (1 ≤ n) + 2 * b2n (2 ≤ n) + 4 * b2n (6 ≤ n)

/-- The governor after a round of the lead's die: one action more while the package power, which is an average over 32 rounds, lies above the enforced
limit, one less once it has stayed 10% below it for 32 rounds. The rates measured when the caps begin are kept. -/
def State.govern (s : State) : State :=
  let p := s.packageAverage
  let lim := s.enforcedLimit
  let calm := if p * 10 ≤ lim * 9 then s.power.calm + 1 else 0
  let wanted := if lim < p then min governorMost (s.power.wanted + 1) else if 32 ≤ calm then s.power.wanted - 1 else s.power.wanted
  let first := s.power.wanted ≤ 5 && 5 < wanted
  let rates := if first then s.power.moved.map fun m => (m.1, (m.2.1 / 8000, m.2.2 / 8000)) else s.power.rates
  { s with power := { s.power with calm := calm, wanted := wanted, rates := rates, moved := [] } }

/-- What the governor asked for takes effect at a boundary. -/
def State.applyGovernor (s : State) : State :=
  let n := s.power.wanted
  let pc := governorPercent n
  let caps := if pc = 0 then [] else s.power.rates.map fun r => (r.1, (r.2.1 * pc / 100, r.2.2 * pc / 100))
  let s1 : State := { s with power := { s.power with actions := n, caps := caps } }
  let top := caps.foldl (fun m c => (max m.1 c.2.1, max m.2 c.2.2)) (0, 0)
  s1.dies.foldl (fun s d =>
    (((s.setObj (0x81D8 + d) 0 (governorBits n)).setObj (0x8178 + d) 0 (governorClock n)).setObj (0x81E0 + d) 1 top.1).setObj
      (0x81E0 + d) 2 top.2) s1

/-! ### The round and its readout -/

/-- The host's temperature thresholds (R275): a sensor that crosses its over-temperature threshold sends a SMART event where Feature
0Bh enables it. Sensor 0 is the composite, sensor k the hottest junction of die k − 1. -/
def State.crossThresholds (s before : State) : State :=
  let kelvin := fun (t : Int) => ((t + 2730) / 10).toNat
  let read := fun (x : State) (k : Nat) => if k = 0 then x.hottest.map (·.2.2) else (x.pd (k - 1)).hottest.map (·.2)
  s.host.ctrls.foldl (fun (s : State) (c : Nat × Ctrl) =>
    let crossed : Bool := (List.range (1 + s.cfg.dies)).any fun (k : Nat) =>
      let th := Ctrl.feature c.2 (4 * 65536 + k) % 65536
      match read s k, read before k with
      | some t, some t0 => decide (th ≤ kelvin t) && decide (kelvin t0 < th)
      | some t, none => decide (th ≤ kelvin t)
      | none, _ => (false : Bool)
    if crossed ∧ c.2.en ∧ bitOf (Ctrl.feature c.2 0x0B) 1 then s.asyncEvent c.1 1 1 2 else s) s

/-- The times that a round adds to: the temperature history of R246 by group and bin (keys 100 + 20 × group + bin, bins 16 to 18 the
three counts), levels (1 to 3), enforcement (4), and on the lead the SMART times (8, 9, 12, 13). -/
def State.addTimes (s : State) (d : Nat) : State :=
  let bin := fun (t : Int) => if t < 250 then 0 else min 15 ((t - 250).toNat / 50 + 1)
  let s1 := (List.range 4).foldl (fun s g =>
    let t := (s.pd d).group g
    let k := 100 + 20 * g
    let s1 := s.addNs d (k + bin t) roundNs
    let s2 := if 950 ≤ t then s1.addNs d (k + 16) roundNs else s1
    let s3 := if 1000 ≤ t then s2.addNs d (k + 17) roundNs else s2
    if 1100 ≤ t then s3.addNs d (k + 18) roundNs else s3) s
  let s2 := [1, 2, 3].foldl (fun s l => if l ≤ s.thermal then s.addNs d l roundNs else s) s1
  let s3 := if s2.power.step = 0 then s2 else s2.addNs d 4 roundNs
  if d ≠ s.fault.lead then s3
  else
    let t := s3.junction
    let s4 := if 950 ≤ t then s3.addNs d 8 roundNs else s3
    let s5 := if 1100 ≤ t then s4.addNs d 9 roundNs else s4
    let s6 := if 2 ≤ s5.thermal then s5.addNs d 12 roundNs else s5
    if s6.power.step = 0 then s6 else s6.addNs d 13 roundNs

/-- A housekeeping round of a die: sensors, rails, levels, and on the lead's die the request and the governor (R551). -/
def State.houseRound (s : State) (die : Nat) (round : Round) : State :=
  let p := s.pd die
  let total := s.obj (0x31E0 + die) 1 + s.obj (0x31E0 + die) 2
  let mw := s.diePower die round
  let p' := { p with temps := (round.temps :: p.temps).take 33, volts := round.volts, amps := round.amps
                     powers := (mw :: p.powers).take 32, wrote := (total :: p.wrote).take 33 }
  let s1 := ((s.setPd die p').judgeSensors die round.temps).judgeRails die round
  let s2 := s1.laterAdd die (0x8190 + die) 0 1
  let s3 := if round.late then (s2.laterAdd die (0x8198 + die) 0 1).raise (evDie die 127) 0 else s2
  let core := round.volts.take 4
  let low := core.foldl min (core.headD 0)
  let oldLow := s3.laterGet die (0x8200 + die) 1
  let s4 := (s3.later die (0x8200 + die) 1 (if oldLow = 0 then low else min oldLow low)).laterMax die (0x8200 + die) 2 (core.foldl max 0)
  let s5 := (List.range 6).foldl (fun s k => s.laterMax die (0x8208 + die) (k + 1) (round.amps.getD k 0)) s4
  let s6 := (s5.laterMax die (0x8168 + die) 3 mw).laterMax s.fault.lead 0x8003 3 s5.packagePower
  let hot := (((s6.pd die).hottest).map (·.2)).getD 0
  let peak := max hot (signed 32 (s6.laterGet die (0x8188 + die) 0))
  let s7 := s6.later die (0x8188 + die) 0 (twos 32 peak)
  -- levels are entered at every round; falls of the absolute level, the request and the governor follow the rounds of the lead's die
  let was := s7.power
  let rate := rateLevel s7.greatestRise
  let lead : Bool := die = s.fault.lead
  let abs := if lead then nextAbs was.absLevel s7.junction (s7.obj 0x8007 0) else max was.absLevel (absEntry s7.junction)
  let s8 : State := { s7 with power := { s7.power with absLevel := abs, rateLevel := rate } }
  let s9 := if was.rateLevel < rate then s8.laterAdd die (0x81C0 + die) rate 1 else s8
  let s10 := if lead then s9.judgeRequest.govern else s9
  let zero := if 0 < s10.thermal then none else if s10.power.zeroFrom.isSome then s10.power.zeroFrom else some s.time.now
  let s11 := ({ s10 with power := { s10.power with zeroFrom := zero } } : State).announce
  ((s11.crossThresholds s).addTimes die)

/-- HOUSEKEEPING_ROUND (R549 to R561). -/
def execHousekeepingRound (die : Nat) (round : Round) (s : State) : Res :=
  onDie s die fun _ =>
    if s.boot.porst then .next s
    else
      .next (s.houseRound die round)

/-- The temperature history of a die (R246), 304 bytes, in seconds. -/
def PowerDie.history (p : PowerDie) : List Nat :=
  (List.range 4).flatMap fun g => (List.range 19).flatMap fun k => leBytes 4 (tgetD p.levelNs (100 + 20 * g + k) 0 / 1000000000)

/-- Idle power of a die for admission (R553), in mW. -/
def State.idlePower (s : State) (d : Nat) : Nat :=
  let p := s.pd d
  let bytes := p.wrote.headD 0 - p.wrote.getLastD 0
  let rounds := max 1 (p.wrote.length - 1)
  let rate := bytes * 125 / rounds
  meanOf p.powers - s.obj 0x2222 3 * rate / 1000000000

/-- What a round measured is shown in the objects (R551). -/
def State.houseReadout (s : State) (die : Nat) : State :=
  let p := s.pd die
  let temps := p.temps.headD []
  let lead : Bool := die = s.fault.lead
  let i32 := fun (t : Int) => twos 32 t
  let ns := fun k => tgetD p.levelNs k 0 / 1000000000
  let hot := p.hottest.getD (0, 0)
  let own : List (Nat × Nat × Nat) :=
    (temps.zipIdx.map fun t => (0x8120 + die, t.2 + 1, i32 t.1)) ++
    ((List.range 12).map fun k => (0x8128 + die, k + 1, b2n (p.failed.contains k))) ++
    ((List.range 4).map fun g => (0x8130 + die, g + 1, i32 (p.riseOf ((List.range 3).map (· + 3 * g))))) ++
    ((List.range 4).map fun g => (0x8138 + die, g + 1, i32 (p.group g))) ++
    (p.volts.zipIdx.map fun v => (0x8140 + die, v.2 + 1, v.1)) ++ (p.amps.zipIdx.map fun v => (0x8158 + die, v.2 + 1, v.1)) ++
    [(0x8168 + die, 1, p.powers.headD 0), (0x8168 + die, 2, meanOf p.powers), (0x8170 + die, 0, s.idlePower die),
     (0x8180 + die, 1, i32 hot.2), (0x8180 + die, 2, hot.1), (0x81B8 + die, 1, ns 1), (0x81B8 + die, 2, ns 2), (0x81B8 + die, 3, ns 3),
     (0x8210 + die, 0, ns 4), (0x81F0 + die, 1, (s.clock die).epoch), (0x81F0 + die, 2, (s.clock die).phase)]
  let pkg : List (Nat × Nat × Nat) :=
    if !lead then []
    else
      let h := s.hottest.getD (0, 0, 0)
      [(0x8003, 1, s.packagePower), (0x8003, 2, s.packageAverage), (0x8005, 1, i32 h.2.2), (0x8005, 2, h.1), (0x8005, 3, h.2.1),
       (0x8005, 4, i32 s.greatestRise), (0x800D, 1, b2n s.power.waiting), (0x800D, 2, s.graceLeft)]
  let s1 := (p.tally.map fun t => (t.1 / 256, t.1 % 256, t.2)).foldl (fun s o => s.setObj o.1 o.2.1 o.2.2) s
  let s2 := (own ++ pkg).foldl (fun s o => s.setObj o.1 o.2.1 o.2.2) s1
  -- an estimate of each domain's draw is not stated: free values
  let s3 := (List.range 10).foldl (fun s n => (s.setObj (0x81D0 + die) (n + 1) (s.freeValue % 2 ^ 32)).useFree) s2
  let smart := if lead then [8, 9, 12, 13] else []
  let s4 := smart.foldl (fun s k => s.addSmart k (tgetD p.levelNs k 0)) s3
  let left := p.levelNs.filter fun e => !smart.contains e.1
  ((s4.setPd die { s4.pd die with tally := [], levelNs := left }).setDom (0x3200 + die) 0 p.history)

/-- The readout of a die is due (R551): its clock has come to the phase 0x800C, a round has completed since the last readout, and none was
made in this epoch; readouts pause while the die's steward restarts (R526). -/
def State.readoutDue (s : State) (d : Nat) : Bool :=
  let c := s.clock d
  !s.fault.halted.contains d && s.obj 0x800C 0 ≤ c.phase && (tget (s.pd d).tally (okey (0x8190 + d) 0)).isSome &&
    !(0 < s.obj (0x8190 + d) 0 && s.obj (0x81F0 + d) 1 = c.epoch)

/-- HOUSEKEEPING_READOUT (R551): the objects take the figures of the latest complete round. -/
def execHousekeepingReadout (die : Nat) (s : State) : Res :=
  onDie s die fun _ => if s.readoutDue die then .next (s.houseReadout die) else .next s

/-! ### Enforcement (R557, R559, R560) -/

/-- GRACE_EXPIRY (R557, R559): enforcement is due at the next boundary, or waits while a take is open or closing. -/
def execGraceExpiry (s : State) : Res :=
  match s.power.grace with
  | none => .next s
  | some at' =>
    let s1 : State := { s with power := { s.power with grace := none } }
    if s.time.now < at' then .next s
    else if s.anyOpenOrClosing then .next { s1 with power := { s1.power with waiting := true } }
    else .next { s1 with power := { s1.power with due := true } }

/-- The enforcement step changes (R557, R560): EV P.43, and the objects that report it. -/
def State.setStep (s : State) (k : Nat) : State :=
  let s1 : State := { s with power := { s.power with step := k, stepAt := s.time.now, due := false, waiting := false } }
  let s2 := ((s1.setObj 0x8002 1 s1.classLimit).setObj 0x8002 2 s1.enforcedLimit).setObj 0x8002 3 k
  let s3 := if s.power.step = 0 then s2.addSmart 11 1 else s2
  (if s.power.step < k then s3.bump 0x800D 3 else s3).raise (evPkg 43) k

/-- Enforcement at a boundary, after takes have closed: a first step that is due or waited for the last take, a further step after
the step interval while the level or the power asks for it, or a release. -/
def State.enforce (s : State) : State :=
  let p := s.power
  let since := s.time.now - p.stepAt
  let interval := s.obj 0x8009 0 * 1000000
  if p.step = 0 then
    if p.due ∨ (p.waiting ∧ !s.anyOpen) then s.setStep 1 else s
  else if 2 ≤ s.slowLevel ∨ s.enforcedLimit < s.packageAverage then
    if p.step < 5 ∧ interval ≤ since ∧ !s.anyOpenOrClosing then s.setStep (p.step + 1) else s
  else
    match p.zeroFrom with
    | some t => if t + s.obj 0x800A 0 * 1000000000 ≤ s.time.now ∧ interval ≤ since then s.setStep (p.step - 1) else s
    | none => s

/-! ### Thermal shutdown (R562) -/

/-- The thermal trip (R562). -/
def State.trip (s : State) (die sensor : Nat) (t : Int) : State :=
  let s1 : State := { s with power := { s.power with tripped := true }, pins := { s.pins with thermTrip := true } }
  let s2 := ((s1.emit (.pin 1 false)).driveFaultN).raise (evDie die 126) sensor
  let s3 := s2.powerLossCommit
  let rec' := [die, sensor, 0, 0] ++ leBytes 6 (s.clock die).epoch ++ leBytes 4 (twos 32 t)
  let s4 := (((s3.setDom 0x800F 0 rec').bump 0x800E 5).setObj (0x81E8 + die) 2 sensor)
  (s4.dies.foldl (fun s d => (s.setPd d { s.pd d with on := 0, waking := [] }).setObj (0x8108 + d) 0 0) s4)

/-- TRIP_CHECK (R562): a working sensor at 118 °C or above trips. -/
def execTripCheck (die : Nat) (readings : List Int) (s : State) : Res :=
  onDie s die fun _ =>
    match ((s.pd die).working readings).find? fun k => 1180 ≤ k.2 with
    | none => .next s
    | some (sensor, t) =>
      if s.power.tripped then .next s
      else
        .next (s.trip die sensor t)

/-! ### Switched domains (R546 to R548) -/

/-- A domain of a die may be off (R546): a compute cluster while no task is resident on its physical cores. -/
def State.domainIdle (s : State) (d n : Nat) : Bool :=
  let gone := s.fault.failed.contains d || s.obj (0x3468 + d) 0 == 2
  let free := fun (cluster : Nat) => (List.range 16).all fun c => s.physical d c / 9 ≠ cluster || (s.resident d c).isEmpty
  match n with
  | 0 => free 0
  | 1 => free 1
  | 3 => s.search.tables.all fun t => t.2.state ≠ 1
  | 7 => (List.range 4).all fun l => s.laneMode d l = 0
  | 9 => !s.upperBanksUsed d
  | _ => gone

/-- A domain that goes off loses its contents: search rows, key slots and key-state slots. -/
def State.loseDomain (s : State) (d n : Nat) : State :=
  if n = 3 then s.setRows d []
  else if n = 4 then
    let keep := fun (e : Nat × KeySlot) => e.1 / 1024 ≠ d
    let keepS := fun (e : Nat × KeyState) => e.1 / 64 ≠ d
    { s with secure := { s.secure with slots := s.secure.slots.filter keep, keyStates := s.secure.keyStates.filter keepS } }
  else s

/-- One domain follows its request at a boundary: it is on where it is asked for or where something needs it, and a request to be off that
cannot be met is left unassigned, with EV d.125; of a failed die every domain is off (R548). -/
def State.switchDomain (s : State) (d n : Nat) : State :=
  let failed := s.fault.failed.contains d
  let asked := bitOf (s.obj (0x8100 + d) 0) n
  let needed := !asked && !failed && !s.domainIdle d n
  let p := s.pd d
  let on := bitOf p.on n
  let un := s.obj (0x8110 + d) 0
  let s1 := if needed = bitOf un n then s
    else if needed then (s.setObj (0x8110 + d) 0 (setBit un n)).raise (evDie d 125) n
    else s.setObj (0x8110 + d) 0 (clearBit un n)
  let want := (asked || needed) && !failed
  if want = on then s1
  else if want then
    ((s1.setPd d { p with on := setBit p.on n, waking := tset p.waking n s.time.now }).bump (0x8118 + d) (n + 1)).raise (evDie d 123) n
  else
    (((s1.setPd d { p with on := clearBit p.on n, waking := tdel p.waking n }).loseDomain d n).bump (0x8118 + d) (n + 1)).raise (evDie d 124) n

/-- The domains of every die follow their requests; the requests left unassigned are listed as index, sub-index and class. -/
def State.switchDomains (s : State) : State × List (Nat × Nat × Nat) :=
  if s.power.tripped then (s, [])
  else
    let s1 := s.dies.foldl (fun s d => (List.range 10).foldl (fun s n => s.switchDomain d n) s) s
    let s2 := s1.dies.foldl (fun s d => s.setObj (0x8108 + d) 0 (s.pd d).on) s1
    (s2, s2.dies.flatMap fun d => (bitsOf 10 (s2.obj (0x8110 + d) 0)).map fun _ => (0x8100 + d, 0, unstatedRank 0x8100))

/-- The longest wake latency of each domain, in µs (R546). -/
def wakeMostUs : List Nat := [200, 200, 2000, 500, 300, 150000, 150000, 1000, 60000, 50]

end Sys2Proof.Machine
end

