-- ==== Sys2Proof/Machine/Boot.lean ====
section
/-!
DEFINITION. Chapter 19: supplies, PORST_N, the boot ROM, the image chain and the bring-up steps; PLW_N and HOLDUP_OK (R240, R594,
R595); flash discovery (chapter 8) as step 8.
-/

namespace Sys2Proof.Machine

/-- An entry of the bring-up log 0x180C: step, die, reserved, µs since PORST_N release. -/
def State.bootLog (s : State) (step d : Nat) : State :=
  let e := [step, d, 0, 0] ++ leBytes 4 ((s.time.now - s.boot.started) / 1000)
  s.setDom 0x180C 0 ((s.dom 0x180C 0 ++ e).take 1024)

/-- Milliseconds since PORST_N release. -/
def State.bootMs (s : State) : Nat := (s.time.now - s.boot.started) / 1000000

/-- A boot or image record of 128 bytes (R489, R570): type, slot, security version, revision, digest, offset or straps, body length
and steward-section digest. -/
def bootRecord (ty slot secver revision : Nat) (digest : List Nat) (at' len : Nat) (ss : List Nat) : List Nat :=
  [ty, slot, 0, 0] ++ leBytes 4 secver ++ leBytes 8 revision ++ fit 48 digest ++ leBytes 8 Config.packageSerial ++ leBytes 4 at' ++
    leBytes 4 len ++ fit 48 ss

/-- A measurement slot is extended with a boot or image record, which is kept (R489). -/
def State.extendBoot (s : State) (n source : Nat) (r : List Nat) : State :=
  let s1 := s.extend n source r
  { s1 with secure := { s1.secure with bootRecords := s1.secure.bootRecords ++ [r] } }

/-! ### Lane profiles (R568) -/

/-- The boot configuration block as the 64 KiB of the boot flash hold it, and its check (R569). -/
def State.bootBlock (s : State) : List Nat := fit 65536 (s.dom 0x1807 0)
def blockValid (b : List Nat) : Bool :=
  b.take 8 == ascii "HK7BOOTC" && field b 8 2 == 1 && field b 65532 4 == crc32c (b.take 65532)

/-- A die's lane modes and PCIe width code in a profile: 0 built-in dock, 1 built-in camera, 2 to 7 stored. -/
def profileOf (block : List Nat) (profile d : Nat) : List Nat × Nat :=
  if profile = 0 then ([2, 2, 2, 2], 4)
  else if profile = 1 then ([1, 1, 1, 1], 0)
  else
    let at' := 16 * (profile - 1) + 2 * d
    let m := field block at' 1
    let modes := (List.range 4).map fun n => m / 4 ^ n % 4
    let run := (modes.takeWhile (· = 2)).length
    let ask := match field block (at' + 1) 1 % 4 with
      | 0 => 0
      | 1 => 1
      | 2 => 2
      | _ => 4
    let fits := if 4 ≤ run then 4 else if 2 ≤ run then 2 else run
    (modes, min ask fits)

/-- The profile in force sets the strapped defaults of every die (R568). -/
def State.applyProfile (s : State) (block : List Nat) (profile : Nat) : State :=
  s.dies.foldl (fun s d =>
    let p := profileOf block profile d
    let s1 := (p.1.zipIdx).foldl (fun s m => s.setObj (0x2120 + d) (m.2 + 1) m.1) s
    s1.setObj (0x4040 + d) 0 p.2) s

/-! ### Supplies and PORST_N (R530, R562, R566, R567) -/

/-- POWER_ON (R530, R566): the supplies have ramped with PORST_N asserted; every volatile state is clear. -/
def execPowerOn (s : State) : Res :=
  let s1 := ({ s with pins := { s.pins with holdupOk := false } } : State).clearVolatile 0
  .next { s1 with boot := { s1.boot with porst := true, powered := true } }

/-- AON_POWER_FAIL (R562): the trip latch is cleared and THERM_TRIP_N released; what the supplies held is lost. -/
def execAonPowerFail (s : State) : Res :=
  let s0 := if s.pins.thermTrip then s.emit (.pin 1 true) else s
  let s1 : State := { s0 with power := { s0.power with tripped := false }, pins := { s0.pins with thermTrip := false } }
  let s2 := s1.clearVolatile 0
  .next { s2 with boot := { s2.boot with porst := true, powered := false } }

/-- PORST_N_ASSERT (R567): of at least 10 µs, it resets the package. -/
def execPorstNAssert (lowNs : Nat) (s : State) : Res :=
  if lowNs < 10000 then .next s
  else
    let s1 := s.clearVolatile 1
    .next { s1 with boot := { s1.boot with porst := true } }

/-- The boot ROM starts on every die's steward (R572 step 1): the straps count, MS0 is extended with the ROM's record. -/
def State.romAttempt (s : State) (attempt : Nat) : State :=
  let digest := (List.range 48).map fun k => (Config.romDigest k).toNat
  let straps := s.pins.gpio % 16
  let s1 : State := { s with boot := { s.boot with attempts := attempt, step := 1, running := true, image := none } }
  let s2 := (s1.setObj 0x180B 0 attempt).setObj 0x1800 0 0
  (s2.extendBoot 0 0 (bootRecord 1 0 0 Config.romRevision digest (straps + 256 * attempt) 0 [])).bootLog 1 0

/-- Bring-up starts from the boot ROM with the straps as sampled (R568, R572 steps 1 and 2): the lane profile, or the restricted
bring-up while the trip latch is in force (R563). -/
def State.startRom (s : State) : State :=
  let straps := s.pins.gpio % 16
  let asked := straps % 8
  let block := s.bootBlock
  let ok : Bool := asked < 2 || blockValid block
  let profile := if ok then asked else 0
  let b := { s.boot with porst := false, halted := false, failure := 0, restricted := s.power.tripped, profile := profile
                         started := s.time.now, sectionsOut := [], dramUp := [], flashUp := [], restored := [], bodyVerified := false }
  let s1 := (({ s with boot := b } : State).setObj 0x1803 0 straps).setObj 0x1804 0 profile
  let s2 := (s1.dies.foldl (fun s d => s.setObj (0x1840 + d) 0 1) s1).romAttempt 1
  if s.power.tripped then
    s2.dies.foldl (fun s d => (s.setPd d { s.pd d with on := 0 }).setObj (0x8108 + d) 0 0) s2
  else
    let s3 := (s2.applyProfile block profile).bootLog 2 0
    if ok then s3 else s3.raise (evPkg 46) asked

/-- PORST_N_RELEASE (R567, R568, R572): GPIO0 to GPIO3 are sampled and the boot ROM starts. -/
def execPorstNRelease (gpio : Nat) (s : State) : Res :=
  if !s.boot.porst ∨ !s.boot.powered then .next s
  else .next ({ s with pins := { s.pins with gpio := gpio } } : State).startRom

/-! ### The image chain (R570, R572, R573) -/

/-- No valid image: the ROM restarts at step 1 at most 3 times, then halts with a failure code (R573, R590). -/
def State.retryRom (s : State) (code : Nat) : State :=
  let s1 : State := { s with boot := { s.boot with failure := code } }
  if s.boot.attempts < 4 then s1.romAttempt (s.boot.attempts + 1)
  else { s1 with boot := { s1.boot with halted := true, running := false } }

/-- The reason of 0x1805:03 for which a firmware slot is not valid; 0 when it is. -/
def State.slotReason (s : State) (im : BootImages) (n : Nat) : Nat :=
  let x := im.slots.getD (n - 1) (1, 0, 0)
  if x.1 ≠ 0 then x.1 else if x.2.1 < s.obj 0x1801 0 then 4 else 0

/-- The firmware slot that the first stage loads: the slot named for the next reset, the active slot, slot 1; slot 1 only under
GPIO3. -/
def State.chooseSlot (s : State) (im : BootImages) : Option Nat :=
  let order := if bitOf s.pins.gpio 3 then [1] else [s.obj 0x400D 2, s.obj 0x400D 1, 1]
  order.find? fun n => s.slotReason im n = 0

/-- What the shutdown left, as die 0's first stage finds it: 0 clean, 1 power-loss marker, 2 none. -/
def State.shutdownFound (s : State) : Nat :=
  match (s.md 0).marker with
  | 1 => 1
  | 2 => 0
  | _ => 2

/-- The first stage runs and chooses the firmware slot (R570, R572 steps 3 and 4). -/
def State.loadFirstStage (s : State) (image : BootImages) : State :=
  let copy := if image.copyA then 0 else 1
  let s1 := if copy = 1 then s.raise (evPkg 46) 1 else s
  let stage := bootRecord 2 0 image.stageSecver image.stageRevision image.stageDigest (0x40000 * copy) image.stageBodyLen []
  let block := s.bootBlock
  let config := bootRecord 4 0 0 (field block 8 2) (sha384 block) 0x80000 65536 []
  let s2 := ((s1.setObj 0x1805 1 copy).extendBoot 1 0 stage).extendBoot 3 1 config
  match s2.chooseSlot image with
  | none => (s2.retryRom 2)
  | some n =>
    let named := s2.obj 0x400D 2
    let reason := if bitOf s.pins.gpio 3 then 5 else if n = named then 0 else s2.slotReason image named
    let x := image.slots.getD (n - 1) (0, 0, 0)
    let s3 := (((s2.setObj 0x1805 2 n).setObj 0x1805 3 reason).setObj 0x180D 1 x.2.1).setObj 0x180D 2 x.2.2
    let s4 := ((s3.setObj 0x1800 0 1).setObj 0x1806 2 s3.shutdownFound).setObj 0x400D 1 n
    ((({ s4 with boot := { s4.boot with step := 4, image := some image } } : State).bootLog 3 0).bootLog 4 0)

/-- FIRST_STAGE_LOADED (R572 steps 3 and 4): MS1 and MS3 are extended and the firmware is loaded; EV P.46 for copy B. -/
def execFirstStageLoaded (image : BootImages) (s : State) : Res :=
  if s.boot.porst ∨ s.boot.halted ∨ s.boot.step ≠ 1 then .next s
  else if !image.copyA ∧ !image.copyB then .next (s.retryRom 1)
  else
    .next (s.loadFirstStage image)

/-- The dictionary starts to answer (R572 step 5). -/
def State.dictionaryUp (s : State) (ms : Nat) : State :=
  let s1 := ((s.setObj 0x1800 0 2).setObj 0x1802 1 ms).bump 0x1809 1
  let s2 := ({ s1 with boot := { s1.boot with step := 5 } } : State).bootLog 5 0
  let s3 := (s2.setObj 0x400D 2 (s2.obj 0x1805 2)).heartbeat (if s.boot.restricted then 5 else 1)
  let s4 := if s3.obj 0x1805 3 = 0 then s3 else s3.raise (evPkg 44) (s3.obj 0x1805 3)
  s4.driveFaultN

/-- DICTIONARY_READY (R572 step 5): the dictionary answers, the first heartbeat goes out, FAULT_N follows its causes (R544); EV P.44
for a fallback slot. -/
def execDictionaryReady (ms : Nat) (s : State) : Res :=
  if s.boot.step ≠ 4 ∨ s.boot.halted then .next s
  else
    .next (s.dictionaryUp ms)

/-- Flash discovery starts on a die: Dd_F_WP_N is driven high (R572 step 8, R583). -/
def State.liftProtect (s : State) (d : Nat) : State :=
  ({ s with pins := { s.pins with wpHigh := s.pins.wpHigh ++ [d] } } : State).emit (.pin (2 + d) true)

/-- The verified firmware runs on every die (R572 step 6), and flash discovery starts (step 8). -/
def State.firmwareRuns (s : State) (im : BootImages) : State :=
  let n := s.obj 0x1805 2
  let r := bootRecord 3 n (s.obj 0x180D 1) (s.obj 0x180D 2) im.fwDigest (0x100000 + 0xC00000 * (n - 1)) im.fwBodyLen im.fwSsDigest
  let s1 := s.extendBoot 2 1 r
  let s2 : State := { s1 with boot := { s1.boot with step := 6, bodyVerified := true, sectionsOut := s.dies, sectionsAt := s.time.now } }
  ((s2.dies.foldl (fun s d => (((s.setObj (0x1840 + d) 0 2).formFirst d).formPf d).liftProtect d) s2).bootLog 6 0)

/-- FIRMWARE_VERIFIED (R572 step 6): MS2 is extended, the die section goes to every die, lanes train; a body whose digest does not
match is no valid firmware. -/
def execFirmwareVerified (bodyOk : Bool) (s : State) : Res :=
  match s.boot.image with
  | none => .next s
  | some im =>
    if s.boot.step ≠ 5 ∨ s.boot.restricted then .next s
    else if !bodyOk then .next (s.retryRom 2)
    else
      .next (s.firmwareRuns im)

/-! ### Dies (R573, R575) -/

/-- The package's bring-up state follows its dies: 3 when every healthy die has its DRAM and flash up, 4 when every one has restored
its maps. -/
def State.followDies (s : State) : State :=
  let live := s.dies.filter s.healthy
  if s.obj 0x1800 0 = 5 ∨ s.boot.step < 6 then s
  else if live.all s.boot.restored.contains then (if s.obj 0x1800 0 = 4 then s else (s.setObj 0x1802 3 s.bootMs).setObj 0x1800 0 4)
  else if live.all fun d => s.boot.dramUp.contains d && s.boot.flashUp.contains d then
    (if 3 ≤ s.obj 0x1800 0 then s else (s.setObj 0x1802 2 s.bootMs).setObj 0x1800 0 3)
  else s

/-- A die's bring-up state of 0x1840 + d. -/
def State.reportBoot (s : State) (d : Nat) : State :=
  let b := s.boot
  s.setObj (0x1840 + d) 0 (if b.restored.contains d then 5 else if b.flashUp.contains d then 4 else if b.dramUp.contains d then 3 else 2)

/-- A die that bring-up goes on without has failed (R573). -/
def State.bootFails (s : State) (d : Nat) : State := (s.loseDie d).followDies

/-- A die's DRAM is up (R572 step 7); an eighth of it holds the check areas, and the device has the rest (R24). -/
def State.dramTrained (s : State) (die ms gib rate : Nat) : State :=
  let s1 := ((s.setObj (0x1848 + die) 1 ms).setObj (0x1848 + die) 2 gib).setObj (0x1848 + die) 3 rate
  let s2 : State := { s1 with boot := { s1.boot with dramUp := s1.boot.dramUp ++ [die] } }
  let w := (Config.spareWires die).toNat
  let s2' := (s2.setObj (0xA150 + die) 2 w).setObj (0xA180 + die) 5 w
  let s3 := (((s2'.setObj (0xA140 + die) 0 (gib * 2 ^ 30 / 8 * 7)).refitDie die []).1).reportBoot die
  let s4 := if rate < 8533 then s3.raise (evDie die 137) rate else s3
  (s4.bootLog 7 die).followDies

/-- DRAM_TRAINING_COMPLETE (R572 step 7, R573): the DRAM trained, with EV d.137 below 8,533 MT/s, or the die fails with EV d.138. -/
def execDramTrainingComplete (die : Nat) (trained : Bool) (ms gib rate : Nat) (s : State) : Res :=
  onDie s die fun _ =>
    if !s.boot.sectionsOut.contains die ∨ s.boot.dramUp.contains die ∨ !s.healthy die then .next s
    else if !trained then .next ((s.raise (evDie die 138) 0).bootFails die)
    else
      .next (s.dramTrained die ms gib rate)

/-- At first format a population that the mask judges invalid takes no data (EV d.067); a valid one forms the die's stripe groups
(R254 to R256). -/
def State.judgeFirst (s : State) (die : Nat) (p : Population) (h : Nat) : State :=
  let st := Population.judge p h (s.obj 0x3401 0) (s.obj 0x3407 0)
  let s1 := s.setObj (0x3468 + die) 0 st
  if 1 < st then s1.raise (evDie die 67) st
  else (s1.setTargets die (Population.code p h)).firstFormat die p h

/-- A die's flash is up. -/
def State.flashIsUp (s : State) (die : Nat) : State :=
  { s with boot := { s.boot with flashUp := if s.boot.flashUp.contains die then s.boot.flashUp else s.boot.flashUp ++ [die] } }

/-- A die's flash is judged as found (R249 to R256, R572 step 8). -/
def State.flashFound (s : State) (die : Nat) (p : Population) : State :=
  let recorded := ((s.md die).population).isSome
  let h := if recorded then s.obj (0x3460 + die) 2 else s.obj 0x3408 0
  let m := s.md die
  let known := m.population.map fun old => { p with factoryBad := old.factoryBad, counts := old.counts }
  let s0 := ((s.setMd die { m with population := known }).reportPart die p h).reportChannels die p recorded
  let s1 := if recorded then s0.compareRecorded die p else s0.judgeFirst die p h
  let s3 := s1.reportRates die p
  if 1 < s3.obj (0x3468 + die) 0 then s3.bootFails die
  else (((s3.flashIsUp die).reportBoot die).bootLog 8 die).followDies

/-- FLASH_DISCOVERY_COMPLETE (R249 to R256, R258, R263; R572 step 8): the population is judged; at first format an invalid one takes
no data, with EV d.067, and a valid one forms stripe groups and capacity. A die whose population is invalid has failed (R525). -/
def execFlashDiscoveryComplete (die : Nat) (p : Population) (s : State) : Res :=
  onDie s die fun _ =>
    if !s.boot.sectionsOut.contains die ∨ s.boot.flashUp.contains die ∨ !s.healthy die then .next s
    else .next (s.flashFound die p)

/-- DIE_SECTION_TIMEOUT (R573): a die that runs no die section within 100 ms of step 6 fails with EV d.139. -/
def execDieSectionTimeout (die : Nat) (s : State) : Res :=
  onDie s die fun _ =>
    if !s.boot.sectionsOut.contains die ∨ s.boot.dramUp.contains die ∨ s.boot.flashUp.contains die ∨ !s.healthy die then
      .next s
    else if s.time.now < s.boot.sectionsAt + 100000000 then .next s
    else .next ((s.raise (evDie die 139) 0).bootFails die)

/-- A figure of the health log takes a value. -/
def State.setSmart (s : State) (k v : Nat) : State := { s with host := { s.host with smart := tset s.host.smart k v } }

/-- What a restore found (R575): what the flash holds where the device left a marker, else what the command says. -/
def State.markerFound (s : State) (d marker : Nat) : Nat :=
  match (s.md d).marker with
  | 1 => 1
  | 2 => 0
  | _ => marker

/-- The lower edge of an age bin of R222, in s. -/
def binEdge (bin : Nat) : Nat := [0, 3600, 86400, 604800, 2592000, 7776000, 15552000, 31536000].getD bin 0

/-- Device time resumes (R220): the stored value plus the power-off interval that the calibration stripe gives, the lower edge of the age bin that it finds; without
a calibration stripe no interval is known. -/
def State.resumeTime (s : State) (die powerOff : Nat) : State :=
  let known : Bool := (s.md die).calibrated.isSome
  let off := if known then binEdge (ageBin powerOff) else 0
  let s1 := (s.setObj 0x3016 1 off).setObj 0x3016 2 (if known then 2 else 0)
  { s1 with media := { s1.media with devTimePs := s1.media.devTimePs + off * 1000000000000 } }

/-- A die's maps are restored (R212, R575): the checkpoint is loaded, and behind a clean marker nothing is replayed. -/
def State.mapsRestored (s0 : State) (die marker readable ms powerOff : Nat) : State :=
  let found := s0.markerFound die marker
  let r := s0.restoreMaps die (if found = 0 then (s0.md die).journal.length else readable)
  let s := r.1
  let records := if found = 0 then 0 else r.2
  let s1 := ((s.setObj (0x1850 + die) 1 found).setObj (0x1850 + die) 2 records).setObj (0x1850 + die) 3 ms
  let m := s1.md die
  let s2 := s1.setMd die { m with marker := 0 }
  let s3 := (if found = 1 then s2.raise (evDie die 60) 0
    else if found = 2 then ((s2.raise (evDie die 61) 0).setObj 0x3017 1 2).setSmart 20 1
    else s2).raise (evDie die 136) found
  let s4 := if found = 0 then s3
    else ((((s3.bump (0x3228 + die) 1).setObj (0x3228 + die) 2 records).setObj (0x3228 + die) 3 ms).addSmart 23 1).setSmart 24 ms
  let s5 :=
    if die ≠ s.fault.lead then s4
    else
      let t := (s4.setObj 0x1806 2 found).resumeTime die powerOff
      if found = 0 then t else t.addSmart (if found = 1 then 21 else 22) 1
  let s6 : State := { s5 with boot := { s5.boot with restored := s5.boot.restored ++ [die] } }
  let clean := (s6.dies.filter s6.healthy).all fun d => s6.boot.restored.contains d && s6.obj (0x1850 + d) 1 = 0
  let s6 := if clean then s6.setSmart 20 0 else s6
  (((s6.reportBoot die).bootLog 9 die).followDies)

/-- MAP_RESTORE_COMPLETE (R212, R220, R242, R575; R532 after a die reset): `readable` of the journal's records verify their CRC. Smart figures: 20 critical-warning bit 4, 21 and 22 commits
complete and incomplete, 23 and 24 journal replays and the last one's ms. -/
def execMapRestoreComplete (die marker readable ms powerOff : Nat) (s : State) : Res :=
  onDie s die fun _ =>
    if s.fault.resetting.contains die then .next (s.dieResetDone die readable)
    else if !s.boot.dramUp.contains die ∨ !s.boot.flashUp.contains die ∨ s.boot.restored.contains die ∨ !s.healthy die then
      .next s
    else
      .next (s.mapsRestored die marker readable ms powerOff)

/-- Where the records of a manifest lie in its extents, of which the first is filled so far (R163). -/
def recordPlaces : List Nat → Nat → List (List Nat) → List (Nat × List Nat)
  | _, _, [] => []
  | [], _, _ => []
  | u :: us, fill, r :: t =>
    if fill + r.length ≤ cuBytes then (u * cuBytes + fill, r) :: recordPlaces (u :: us) (fill + r.length) t
    else match us with
      | [] => []
      | v :: vs => (v * cuBytes + 64, r) :: recordPlaces (v :: vs) (64 + r.length) t

/-- A take with the extents and records that its namespace holds on flash, up to the first that is not there, and what those records count
(R169). -/
def State.durableTake (s : State) (t : Take) : Take :=
  let extents := t.extents.takeWhile fun u => s.nsRead t.nsid (u * cuBytes) 8 == ascii "HK7MANEX"
  let here := (recordPlaces extents 64 t.records).takeWhile fun p => s.nsRead t.nsid p.1 p.2.length == p.2
  let fill := match here.getLast? with
    | some p => if some (p.1 / cuBytes) = extents.getLast? then p.1 % cuBytes + p.2.length else 64
    | none => 64
  let frames := (here.map (·.2)).filter fun r => r.headD 0 = 1
  let timecode := fun (r : Option (List Nat)) => (r.map fun r => field r 28 4).getD 0
  { t with extents := extents, records := here.map (·.2), written := here.length, extFill := fill
           recorded := frames.map fun r => (field r 4 1, field r 8 4), flagged := (frames.filter fun r => field r 2 2 ≠ 0).length
           firstTc := timecode frames.head?, lastTc := timecode frames.getLast? }

/-- A take that was open is sealed at bring-up over its durable records (R169); the units of frames whose entries were lost are released: EV P.15,
and EV P.12 for one that safe hold ended before a boundary closed it (R170). DESIGN CHOICE: such a take's close epoch stays 0, as R169 gives none
(log entry 219). -/
def State.sealLost (s : State) (t : Take) : State :=
  let t' := s.durableTake t
  let lost := (t.records.drop t'.written).filter fun r => r.headD 0 = 1
  let s0 := (s.modTake t.nsid t.num fun _ => t').freeUnitsOf t.nsid ((lost.flatMap entryUnits).eraseDups)
  let s1 := match s0.takeKey t.nsid t.num t.openEpoch with
    | some k => { s0 with secure := { s0.secure with takeKeys := tset s0.secure.takeKeys t.slot k } }
    | none => s0
  let s2 := (s1.sealTake t.nsid t.num).raise (evPkg 15) t.num
  if t.reason = 3 ∧ t.closeNs = 0 then s2.raise (evPkg 12) t.num else s2

/-- The entries of fuse work that a power loss cut short are written, and MS7 is extended with each (R91). -/
def State.writeCut (s : State) : State :=
  let s1 := s.dict.fuseCut.foldl (fun s e => s.extend 7 2 e) s
  { s1 with dict := { s1.dict with ledger := s1.dict.ledger ++ s.dict.fuseCut, fuseCut := [] } }

/-- Limited-change values stored and not yet swapped in are applied (R91). -/
def State.applyFuses (s0 : State) : State :=
  let s := s0.writeCut
  s.dict.fuseStore.foldl (fun s e =>
    if e.1 / 256 ≠ 0x600A then s.setObj (e.1 / 256) (e.1 % 256) (ofLe e.2)
    else if (s.production (e.1 % 256 - 1)).map (·.2) = some e.2 then s
    else s.rotateProduction (e.1 % 256 - 1) e.2) s

/-- The device becomes ready (R572 steps 10 and 11); a controller that its host has enabled becomes ready with it (R575). -/
def State.becomeReady (s : State) (ms : Nat) : State :=
  let s1 := (s.reloadKeys.addObj 0x6017 0 s.host.nss.length).applyFuses
  let open' := s1.take.takes.filter fun t => t.state = 4 && (t.reason = 5 || t.reason = 3)
  let s2 := open'.foldl State.sealLost s1
  let s3 := (s2.dies.filter s2.healthy).foldl (fun s d => s.setObj (0x1840 + d) 0 6) s2
  let s4 := ((s3.setObj 0x1800 0 5).setObj 0x1802 4 ms).heartbeat 2
  let kind := s4.obj 0x1806 1
  let found := s4.obj 0x1806 2
  let s5 := if kind = 0 then (s4.addSmart 4 1).setSmart 30 0 else s4
  let s6 := if found = 0 then s5 else (if kind = 0 then s5.addSmart 6 1 else s5).bump 0x1809 2
  let s7 : State := { s6 with boot := { s6.boot with step := 11 }
                              host := { s6.host with ctrls := s6.host.ctrls.map fun c => (c.1, { c.2 with rdy := c.2.en }) } }
  (((s7.bootLog 10 0).bootLog 11 0).raise (evPkg 45) 0)

/-- DEVICE_READY (R169, R451, R572 steps 10 and 11): keys are reloaded, pending values applied, takes sealed, ports present real
configuration space; EV P.45. -/
def execDeviceReady (ms : Nat) (s : State) : Res :=
  if s.obj 0x1800 0 ≠ 4 then .next s
  else
    .next (s.becomeReady ms)

/-! ### PLW_N and HOLDUP_OK (R240, R574, R589, R594, R595) -/

/-- PLW_N is recognised: from step 11 on the power-loss commit runs; before it every flash operation stops (R240, R574). -/
def State.plwFalls (s : State) : State :=
  let s1 : State := { s with pins := { s.pins with plw := false } }
  if s.boot.porst then s1
  else if s.obj 0x1800 0 = 5 then s1.powerLossCommit
  else
    let s2 := s1.dies.foldl (fun s d => s.setMd d { s.md d with ops := [], bg := [], later := [] }) s1
    { s2 with media := { s2.media with commitRunning := true, commitFrom := s.time.now } }

/-- PLW_N_ASSERT (R589): low for 200 ns or more is recognised, for 50 ns or less ignored, between them as the part has it. -/
def execPlwNAssert (lowNs : Nat) (recognised : Bool) (s : State) : Res :=
  if lowNs ≤ 50 then .next s
  else if lowNs < 200 ∧ !recognised then .next s
  else .next s.plwFalls

/-- PLW_N_RELEASE (R240, R574): the commit completes, and the device brings itself up as after a power loss. -/
def execPlwNRelease (s : State) : Res :=
  let s1 : State := { s with pins := { s.pins with plw := true } }
  if !s.media.commitRunning then .next s1
  else .next ((s1.finishCommit).clearVolatile 0).startRom

/-- HOLDUP_OK takes a new stable level: 0x3018 follows it, and on its fall every die drains its buffers (R205, R206). -/
def State.holdupMoves (s : State) (level : Bool) : State :=
  let s1 := ({ s with pins := { s.pins with holdupOk := level } } : State).setObj 0x3018 0 (b2n (!level))
  if s.media.commitRunning then s1
  else if level then s1.settleWrites.retryStalled else (s1.dies.filter s1.healthy).foldl State.drainDie s1

/-- HOLDUP_OK_CHANGE (R238, R595): a change shorter than 100 µs is ignored; a rise turns write-back on, a fall turns write-through on
and drains staged data. -/
def execHoldupOkChange (level : Bool) (stableNs : Nat) (s : State) : Res :=
  if stableNs < 100000 then .next s else .next (s.holdupMoves level)

end Sys2Proof.Machine
end

