-- ==== Sys2Proof/Machine/Settings.lean ====
section
/-!
DEFINITION. The value a dictionary write leaves: the legal values of R61 and R63, the values held because of other
settings (R606), and the settings as they will stand at a boundary (R85, R606).
-/

namespace Sys2Proof.Machine

/-! ### Legal values (R61 to R63) -/

/-- The legal value nearest to v among intervals given in rising order; of two equally near, the lower (R63). -/
def nearestIn : List (Nat × Nat) → Nat → Nat
  | [], v => v
  | [i], v => clampNat i.1 i.2 v
  | i :: t, v =>
    let a := clampNat i.1 i.2 v
    let b := nearestIn t v
    if max a v - min a v ≤ max b v - min b v then a else b

/-- The rungs of the channel ladder of R256, MT/s. -/
def ladderRates : List Nat := [1600, 2000, 2400, 2800, 3200, 3600]

/-- A RATIONAL held within 1/1 and 2000/1, a zero denominator first held as 1 (R35, R61). -/
def heldRate (v : Nat) : Nat :=
  let n := ratNum v
  let d := ratDen v
  if n < d then 1 + 2 ^ 32 else if 2000 * d < n then 2000 + 2 ^ 32 else n + d * 2 ^ 32

/-- A signed value of so many bits held between two bounds. -/
def heldSigned (bits lo hi v : Nat) : Nat := twos bits (clampInt lo hi (signed bits v))

/-- The value held for a written one by the object's range, `none` where the object refuses the value (R600). DESIGN CHOICE: a UDP source whose only
nonzero bits are reserved ones is a nonzero entry without a class, and is refused (log entry 215). -/
def heldInRange (cfg : PartCfg) (r : ObjRow) (v : Nat) : Option Nat :=
  match r.range with
  | .any => some (if r.ty = .bool then b2n (v ≠ 0) else v)
  | .between lo hi =>
    some (match r.ty with
      | .q15 => heldSigned 16 lo hi v
      | .q31 => heldSigned 32 lo hi v
      | .i32 => heldSigned 32 lo hi v
      | _ => clampNat lo hi v)
  | .enum lo hi fallback => some (if lo ≤ v ∧ v ≤ hi then v else fallback)
  | .codes list fallback => some (if list.contains v then v else fallback)
  | .springs => some (min v (4 * cfg.dies - 1))
  | .rate => some (heldRate v)
  | .udpSource =>
    if v = 0 then some 0
    else if v % 256 = 1 ∨ v % 256 = 2 then some (v / 2 ^ 32 * 2 ^ 32 + v % 256) else none
  | .ladder => some (nearestIn (ladderRates.map fun x => (x, x)) v)
  | .orNone hi off => some (nearestIn [(0, hi), (off, off)] v)
  | .bandPort => some (nearestIn [(0, 0x1F), (0x4000, 0x41FF), (0xFFFF, 0xFFFF)] v)

/-- The reserved bits of a UDP source entry are ignored on write, which is no adjustment (R600). -/
def sameValue (r : ObjRow) (held v : Nat) : Bool :=
  match r.range with
  | .udpSource => true
  | _ => held = v

/-- The UTF-8 bytes that fit in n: the longest prefix of at most n bytes that ends before a whole character (R61). -/
def wholeChars (l : List Nat) : Nat → List Nat
  | 0 => []
  | n + 1 => if (l.drop (n + 1)).headD 0 / 64 = 2 then wholeChars l n else l.take (n + 1)

/-- A list without its trailing zeros. -/
def stripZeros (l : List Nat) : List Nat := (l.reverse.dropWhile (· = 0)).reverse

/-! ### Values held because of other settings (R606) -/

/-- The value that the width entry of a lane is held at (R95): 0 where an earlier entry's port covers the lane, else at
most the contiguous inflow lanes from it. -/
def State.heldWidth (c : State) (d lane : Nat) : Nat :=
  let w := c.obj (0x2128 + d) (lane + 1)
  match c.portOfLane d lane with
  | some first => if first < lane then 0 else min w (c.inflowRun d lane 4)
  | none => min w (c.inflowRun d lane 4)

/-- The value of 0x1801 that a write leaves (R571): one more than the held value for anything above it. -/
def heldSecurity (held v : Nat) : Nat := if held < v then held + 1 else held

/-- The weir marks of a pool as R183 clamps the nonzero ones: mark k, 0 to 2, where the pool has a count. Those of an inflow pool without a port
are kept as written (R176). -/
def State.heldMark (c : State) (d sub k : Nat) : Nat :=
  let w := fun (base : Nat) => c.obj (base + d) sub
  let v := w (0x5268 + 8 * k)
  let cfg := c.wantedCfg d (sub - 1)
  let count := if sub - 1 < 4 ∧ cfg.kind = 0 then 0 else cfg.count
  let m := weirMarks count (w 0x5268) (w 0x5270) (w 0x5278)
  if v = 0 ∨ count = 0 then v else if k = 0 then m.1 else if k = 1 then m.2.1 else m.2.2

/-- The value held of object idx:sub under the settings of `c`, which already hold the written value (R606). `s` is the
machine as it stands. -/
def State.heldIn (s c : State) (idx sub : Nat) : Nat :=
  let v := c.obj idx sub
  let per := fun (base : Nat) => base ≤ idx && idx < base + 8
  if per 0x2128 then c.heldWidth (idx - 0x2128) (sub - 1)
  else if 0x2200 ≤ idx ∧ idx < 0x2220 ∧ sub = 3 then (if 2 ≤ c.obj idx 1 then 1 else v)
  else if per 0x5240 then (if sub ≤ 4 then 1 else v)
  else if per 0x5248 then (if sub ≤ 4 then 8 else heldSize (c.obj (idx - 8) sub) v)
  else if per 0x5250 then (if sub ≤ 4 then 3328 * max 1 (c.portWidth (idx - 0x5250) (sub - 1)) else v)
  else if per 0x5258 then (if sub ≤ 4 then 0 else v)
  else if per 0x5260 then (if sub ≤ 4 then 0 else v)
  else if per 0x5268 then c.heldMark (idx - 0x5268) sub 0
  else if per 0x5270 then c.heldMark (idx - 0x5270) sub 1
  else if per 0x5278 then c.heldMark (idx - 0x5278) sub 2
  else if per 0x5050 then
    let others := sum (((List.range 16).filter (· + 1 ≠ sub)).map fun g => c.obj idx (g + 1))
    max 1 (min v (4096 - others))
  else if per 0x52E8 then
    let half := s.obj (0xA140 + (idx - 0x52E8)) 0 / 2 / 1048576
    if 0 < half then min v (max 256 half) else v
  else if idx = 0x1801 then heldSecurity (s.obj 0x1801 0) v
  else if idx = 0xA008 then setBit (v % 32) 0
  else v

/-- The route bytes of 0xA007 as R535 holds them: bit 0 set, bits 7:5 zero. -/
def heldRoutes : List Nat → List Nat
  | a :: b :: r :: z :: t => a :: b :: setBit (r % 32) 0 :: z :: heldRoutes t
  | l => l

/-! ### Settings as they will stand -/

/-- One write made active in the dictionary, with none of its effects. -/
def State.putSetting (s : State) (w : Staged) : State :=
  match findRow s.cfg.dies w.idx w.sub with
  | some r => if isDomain r.ty then s.setDom w.idx w.sub w.bytes else s.setObj w.idx w.sub (ofLe w.bytes)
  | none => s

/-- Writes made active in order. -/
def State.putAll (s : State) (ws : List Staged) : State := ws.foldl State.putSetting s

/-- The accepted commits whose boundary is b or an earlier one. -/
def State.commitsTo (s : State) (b : Nat) : List Commit := s.dict.commits.filter fun c => atOrAhead b c.boundary

/-- The settings as they will stand at boundary b, given the commits accepted so far (R85, R606). -/
def State.standing (s : State) (b : Nat) : State := (s.commitsTo b).foldl (fun s c => s.putAll c.writes) s

/-- A 0x5203 load: targets set, 0xFFFF removes an owner (R182). -/
def State.loadReservations (s : State) (b : List Nat) : State :=
  let d := field b 0 1
  let p := field b 1 1
  (List.range (field b 2 2)).foldl (fun s k =>
    let o := field b (4 + 8 * k) 4
    let t := field b (8 + 8 * k) 2
    if t = 0xFFFF then s.removeOwner d p o else (s.registerOwner d p o t).2) s

/-- The configuration that a take opened by the writes `ws` at boundary b is admitted on (R137): the settings and the owners' targets as they
will stand there. -/
def State.admitOn (s : State) (b : Nat) (ws : List Staged) : State :=
  let loads := ((s.commitsTo b).flatMap (·.writes) ++ ws).filter fun w => w.idx = 0x5203
  loads.foldl (fun s w => s.loadReservations w.bytes) ((s.standing b).putAll ws)

/-- The objects whose values are held because of other settings: widths, band counts, pools and ready-list capacities (R95, R132, R175, R183, R387). -/
def heldByOthers (idx : Nat) : Bool :=
  (0x2128 ≤ idx && idx < 0x2130) || (0x2200 ≤ idx && idx < 0x2220) || (0x5240 ≤ idx && idx < 0x5280) || (0x5050 ≤ idx && idx < 0x5058)

/-- The value written to such an object is judged again as its write applies (R606). -/
def State.rejudge (s : State) (w : Staged) : State :=
  match findRow s.cfg.dies w.idx w.sub with
  | none => s
  | some r =>
    if w.written = [] ∨ !heldByOthers w.idx ∨ isDomain r.ty ∨ s.obj w.idx w.sub ≠ ofLe w.bytes then s
    else
      match heldInRange s.cfg r (ofLe (w.written.take (tyBytes r.ty))) with
      | none => s
      | some v => s.setObj w.idx w.sub (s.heldIn (s.setObj w.idx w.sub v) w.idx w.sub)

/-- Per-object values held at a boundary because of the other settings (R606): widths, band counts, an inflow pool's fixed fields, buffer
sizes and weir marks, and ready-list capacities, whose sum is at most 4,096 (R387). -/
def State.rehold (s : State) : State :=
  let one := fun (s : State) (k : Nat × Nat) =>
    let v := s.heldIn s k.1 k.2
    if s.obj k.1 k.2 = v then s else s.setObj k.1 k.2 v
  let widths := s.dies.flatMap fun d => (List.range 4).map fun l => (0x2128 + d, l + 1)
  let bands := (List.range s.springs).map fun p => (0x2200 + p, 3)
  let pools := s.dies.flatMap fun d => [0x5240, 0x5248, 0x5250, 0x5258, 0x5260, 0x5268, 0x5270, 0x5278].flatMap fun b =>
    (List.range 64).map fun p => (b + d, p + 1)
  let lists := s.dies.flatMap fun d => (List.range 16).map fun g => (0x5050 + d, g + 1)
  let set := (pools ++ lists).filter fun k => (tget s.dict.store (okey k.1 k.2)).isSome
  (widths ++ bands ++ set).foldl one s

end Sys2Proof.Machine
end

