-- ==== Sys2Proof/Machine/DictCore.lean ====
section
/-!
DEFINITION. The dictionary's judgement of a request (R601): rights classes (R66 to R68), what the device serves (R563,
R574), access codes (R64), limited-change counts (R88, R89), lengths (R62, R602) and values (R61, R63, R606).
-/

namespace Sys2Proof.Machine

/-! ### Rights (R66 to R68) -/

/-- The rights class of a session: 0 camera, 1 manager, 2 tenant, 3 lake peer, 4 service (R66). -/
def State.classOf (s : State) (path who : Nat) : Nat :=
  if path = 0 then (if who ≠ 0 ∧ ((List.range 8).any fun k => s.obj 0x1032 (k + 1) = who) then 1 else 2)
  else if path = 1 then (if isVf who then 2 else 1)
  else if path = 2 then 0
  else if path = 3 then (if s.obj 0x1041 who % 256 = 1 then 1 else 2)
  else if path = 4 then 3
  else 4

/-- The classes that may read, and those that may write, the objects of an area (R68). -/
def areaRights (idx : Nat) : List Nat × List Nat :=
  if idx < 0x1300 then ([0, 1, 2, 3], [1])
  else if idx < 0x1900 then ([1], [1])
  else if idx = 0x1F00 then ([0, 1, 2, 3], [0, 1, 2, 3])
  else if idx < 0x2000 then ([1], [1])
  else if idx < 0x2200 then ([0, 1], [1])
  else if idx < 0x3000 then ([0, 1, 2, 3], [0, 1])
  else if idx < 0x6000 then ([1, 2], [1])
  else if idx < 0x6400 then ([1], [1])
  else if idx < 0x7000 then ([0, 1, 2, 3], [1])
  else if idx < 0x8000 then ([1, 2], [1])
  else if idx < 0x9000 then ([0, 1], [1])
  else if idx < 0xA000 then ([1, 3], [1])
  else ([0, 1, 2, 3], [1])

/-- A class may read an object. -/
def mayRead (cls idx : Nat) : Bool := cls = 4 || (areaRights idx).1.contains cls

/-- A class may write an object. -/
def mayWrite (cls idx : Nat) : Bool := cls = 4 || (areaRights idx).2.contains cls

/-! ### What the device serves -/

/-- The dictionary answers: from step 5 of bring-up (R572, R573), and after a thermal trip only in the restricted bring-up
(R562, R563); not while the lead's steward is halted, until the standby resumes the service (R527 step 4). -/
def State.answers (s : State) : Bool :=
  !s.boot.porst && !s.boot.halted && 5 ≤ s.boot.step && (!s.power.tripped || s.boot.restricted) &&
    !s.fault.halted.contains s.fault.lead

/-- The areas read while the trip latch is in force (R563). -/
def tripArea (idx : Nat) : Bool :=
  (0x1000 ≤ idx && idx < 0x1100) || (0x1800 ≤ idx && idx < 0x1900) || (0x8000 ≤ idx && idx < 0x8010) ||
    (0xA000 ≤ idx && idx < 0xA016)

/-- The status that the trip latch or an unfinished bring-up gives a request (R563, R574). -/
def State.notServed (s : State) (idx : Nat) (write : Bool) : Option Nat :=
  if s.boot.restricted then (if write || !tripArea idx then some 0x0603 else none)
  else if s.boot.step < 11 && !(0x1000 ≤ idx && idx < 0x2000) then some 0x0602
  else none

/-! ### Objects and access codes -/

/-- Type and access code of index:sub; sub-index 0 of an array or record is a U8, RO (R59). -/
def objAccess (dies idx sub : Nat) : Option (ObjTy × Acc) :=
  match findRow dies idx sub with
  | some r => some (r.ty, r.acc)
  | none => if sub = 0 ∧ 0 < highestSub dies idx then some (.u8, .ro) else none

/-- The session-control objects of R82. -/
def sessionObject (idx sub : Nat) : Bool := (idx = 0x1F00 || idx = 0x900D) && sub = 2

/-- The time-base objects whose write waits for the last take to close (R45), and the channel rate cap, whose write does
the same (R257). -/
def waitsForTakes (idx sub : Nat) : Bool :=
  (0x1100 ≤ idx && idx ≤ 0x1107) || idx = 0x1130 || (idx = 0x1140 && sub = 1) || idx = 0x3401

/-! ### Limited-change objects (R88, R89) -/

/-- The counts that remain of a limited-change object, 0x1F80. -/
def State.remaining (s : State) (idx sub : Nat) : Nat :=
  if idx = 0x600A then
    match tget s.dict.doms (okey 0x1F80 1) with
    | some l => l.getD (sub - 1) 0
    | none => 16
  else if idx = 0x9000 then s.obj 0x1F80 2
  else if idx = 0x2226 then s.obj 0x1F80 3
  else if idx = 0x8001 then s.obj 0x1F80 4
  else if idx = 0x1801 then s.obj 0x1F80 5
  else s.obj 0x1F80 6

/-- One count of a limited-change object is consumed. -/
def State.spend (s : State) (idx sub : Nat) : State :=
  let n := s.remaining idx sub - 1
  if idx = 0x600A then s.setDom 0x1F80 1 (((tget s.dict.doms (okey 0x1F80 1)).getD (List.replicate 8 16)).set (sub - 1) n)
  else
    let k := if idx = 0x9000 then 2 else if idx = 0x2226 then 3 else if idx = 0x8001 then 4 else if idx = 0x1801 then 5 else 6
    s.setObj 0x1F80 k n

/-- The bytes that a limited-change object holds. -/
def State.heldBytes (s : State) (idx sub : Nat) : List Nat :=
  if idx = 0x600A then (match tget s.secure.production (sub - 1) with | some p => p.2 | none => [])
  else
    match findRow s.cfg.dies idx sub with
    | some r => leBytes (tyBytes r.ty) (s.obj idx sub)
    | none => []

/-- The object is limited-change. -/
def State.isLimited (s : State) (idx sub : Nat) : Bool :=
  match findRow s.cfg.dies idx sub with
  | some r => r.acc = .rwl
  | none => false

/-- A write puts a new value into a limited-change object: it needs fuse work (R89). -/
def State.fuses (s : State) (w : Staged) : Bool := s.isLimited w.idx w.sub && w.bytes ≠ s.heldBytes w.idx w.sub

/-- The counts of an object that accepted commits have reserved (R89). -/
def State.reservedCounts (s : State) (idx sub : Nat) : Nat :=
  (s.dict.commits.filter fun c => !c.blown && c.writes.any fun w => w.idx = idx && w.sub = sub && s.fuses w).length

/-- The count of a limited-change object is spent or reserved (R601). -/
def State.spent (s : State) (idx sub : Nat) : Bool :=
  s.isLimited idx sub && s.remaining idx sub ≤ s.reservedCounts idx sub

/-! ### The checks before the value (R601, checks 2 to 7) -/

/-- The first failing check of a request for index:sub, made by a session of a class: the status, or 0. `inTxn`: the
session has an open transaction. Check 1, the service queue, is made as the request arrives. -/
def State.judge (s : State) (cls idx sub : Nat) (write inTxn : Bool) : Nat :=
  match s.notServed idx write with
  | some st => st
  | none =>
    if !objExists s.cfg.dies idx then 0x0101
    else
      match objAccess s.cfg.dies idx sub with
      | none => 0x0102
      | some (_, acc) =>
        if !write && !mayRead cls idx then 0x0201
        else if write && !mayWrite cls idx then 0x0202
        else if write && acc = .ro then 0x0203
        else if !write && (acc = .wo || idx = 0x600A) then 0x0204
        else if write && acc = .rwt && !inTxn then 0x0206
        else if write && s.spent idx sub then 0x0205
        else if write && s.fault.safeHold then 0x0601
        else 0

/-! ### Lengths and values (checks 9 and 10) -/

/-- The bytes of a value among the data given: `none` where the length mismatches (R62, R602). A string longer than its type is
truncated, whatever its bytes beyond (R61, log entry 162). -/
def valueBytes (ty : ObjTy) (data : List Nat) : Option (List Nat × Bool) :=
  match ty with
  | .str n =>
    let l := stripZeros data
    if l.length ≤ n then some (fit n l, false) else some (fit n (wholeChars l n), true)
  | _ =>
    let n := tyBytes ty
    if data.length < n ∨ (data.drop n).any (· ≠ 0) then none else some (data.take n, false)

/-- Whether a function number names a function of the part. -/
def State.isFn (s : State) (f : Nat) : Bool := f < 32 * s.cfg.dies

/-- A 0x4103 load with each value held within its range (R309). -/
def State.heldShares (s : State) (b : List Nat) : List Nat :=
  (List.range (field b 0 2)).foldl (fun b k =>
    let at' := 4 + 8 * k
    if at' + 8 ≤ b.length then
      patch b (at' + 4) (leBytes 4 (s.clampShare (field b at' 1) (field b (at' + 1) 1) (field b (at' + 4) 4)))
    else b) b

/-- A 0x5203 load is refused whole: a die that the part does not have, a pool above 63, or too few bytes (R182). -/
def State.reservationsBad (s : State) (b : List Nat) : Bool :=
  !s.hasDie (field b 0 1) || 63 < field b 1 1 || b.length < 4 + 8 * field b 2 2

/-- The targets of a 0x5203 load held within the pool's count, entry by entry (R182); those of an inflow pool without a port are kept as written
(R176). -/
def State.heldReservations (s c : State) (b : List Nat) : List Nat :=
  let d := field b 0 1
  let p := field b 1 1
  let cfg := c.wantedCfg d p
  let kept := p < 4 ∧ cfg.kind = 0
  let start : List (Nat × Nat) := ((s.pool d p).getD Pool.off).owners.map fun o => (o.ident, o.target)
  let r := (List.range (field b 2 2)).foldl (fun (acc : List Nat × List (Nat × Nat)) k =>
    let at' := 4 + 8 * k
    let o := field acc.1 at' 4
    let t := field acc.1 (at' + 4) 2
    let rest := acc.2.filter fun e => e.1 ≠ o
    if t = 0xFFFF then (acc.1, rest)
    else
      let held := if kept then t else min t (cfg.count - sum (rest.map (·.2)))
      (patch acc.1 (at' + 4) (leBytes 2 held), rest ++ [(o, held)])) (b, start)
  r.1

/-- What a write leaves staged or committed: the status of checks 9 and 10, the bytes held, and ADJ. `c` holds the settings as
they will stand at the write's boundary (R606). -/
def State.holdValue (s c : State) (idx sub : Nat) (data : List Nat) : Nat × List Nat × Bool :=
  match findRow s.cfg.dies idx sub with
  | none => (0x0102, [], false)
  | some r =>
    match r.ty with
    | .domain m =>
      if m < data.length then (0x0304, [], false)
      else if idx = 0x5203 ∧ s.reservationsBad data then (0x0207, [], false)
      else
        let held := if idx = 0x5203 then s.heldReservations c data else if idx = 0x4103 then s.heldShares data
          else if idx = 0xA007 then heldRoutes data else if idx = 0x600A then fit 32 data else data
        (0, held, idx ≠ 0x600A && held ≠ data)
    | ty =>
      match valueBytes ty data with
      | none => (0x0301, [], false)
      | some (b, cut) =>
        match ty with
        | .str _ => (0, b, cut)
        | _ =>
          match heldInRange s.cfg r (ofLe b) with
          | none => (0x0207, [], false)
          | some v =>
            let c1 := c.setObj idx sub v
            let w := s.heldIn c1 idx sub
            (0, leBytes (tyBytes ty) w, !sameValue r w (ofLe b))

/-- The status of a write for its value and its fuse supply together, the bytes held and ADJ (R89, R601). -/
def State.holdWrite (s c : State) (idx sub : Nat) (data : List Nat) : Nat × List Nat × Bool :=
  let h := s.holdValue c idx sub data
  if h.1 = 0 ∧ s.fuses ⟨idx, sub, h.2.1, false, []⟩ ∧ !s.pins.fuseVpp then (0x0501, [], false) else h

/-- An adjusted write is counted for its class and recorded (R63). -/
def State.countAdjusted (s : State) (cls idx sub : Nat) : State :=
  let s1 := s.bump 0x1010 (cls + 1)
  (((s1.setObj 0x1011 1 idx).setObj 0x1011 2 sub).setObj 0x1011 3 cls).setObj 0x1011 4 s.epoch

/-! ### Transactions (R81, R82) -/

/-- A session has an open transaction. -/
def State.openTxn (s : State) (k : Nat) : Bool := (s.session k).slot ≠ 0 && (s.session k).state = 1

/-- The values staged in the open transaction of a session. -/
def State.staged (s : State) (k : Nat) : List Staged := if s.openTxn k then (s.slot (s.session k).slot).staged else []

/-- A value staged: it replaces an earlier one of the same object, in its place (R82). -/
def stage : List Staged → Staged → List Staged
  | [], w => [w]
  | x :: t, w => if x.idx = w.idx ∧ x.sub = w.sub then w :: t else x :: stage t w

/-- The state with a value staged in a session's open transaction, and the status: 0x0403 for a 257th object. -/
def State.stageInto (s : State) (k : Nat) (w : Staged) : Nat × State :=
  let x := s.session k
  let sl := s.slot x.slot
  let l := stage sl.staged w
  if 256 < l.length then (0x0403, s)
  else (0, (s.setSlot x.slot { sl with staged := l }).setSession k { x with count := l.length })

/-- The lowest free transaction slot. -/
def State.freeSlotNo (s : State) : Option Nat := [1, 2, 3, 4, 5, 6, 7, 8].find? fun n => (s.slot n).session = 0

/-- A session begins a transaction (R81): 0x0406 where one is open, 0x0402 where no slot is free. -/
def State.beginTxn (s : State) (k : Nat) : Nat × State :=
  if s.openTxn k then (0x0406, s)
  else
    match s.freeSlotNo with
    | none => (0x0402, s)
    | some n =>
      let s1 := s.setSlot n ⟨k, 1, [], 0, 0, 0, s.time.now, s.obj 0x1F10 1 * 1000000000⟩
      (0, s1.setSession k { s.session k with slot := n, state := 1, count := 0 })

end Sys2Proof.Machine
end

