-- ==== Sys2Proof/Machine/Accept.lean ====
section
/-!
DEFINITION. The acceptance of a commit: the boundary it reaches (R52, R53, R89, R137), the overlap with earlier commits
(R84, R509), its admission (R137) and the fit of the configuration as it will stand (R85).
-/

namespace Sys2Proof.Machine

/-- A commit asked for: session, class, transaction slot (0 implicit), writes, the epoch named, and the lake transaction
whose own yes vote does not stand against it. -/
structure CommitAsk where
  session : Nat
  cls : Nat
  slot : Nat
  writes : List Staged
  named : Option Nat
  vote : Option Nat
deriving DecidableEq, Repr

/-- The later of two epoch numbers ahead of the epoch now (R36). -/
def State.laterOf (s : State) (a b : Nat) : Nat := if aheadOf a s.epoch < aheadOf b s.epoch then b else a

/-- The first boundary that lies at least 5 ms after now (R89). -/
def State.fuseBoundary (s : State) : Nat :=
  let wait := s.time.now + 5000000 - s.nextBoundary
  wrap48 (s.epoch + 1 + ceilDiv wait s.periodNs)

/-- The commit opens a take: it writes 1 to 0x2220:01. -/
def opensTake (ws : List Staged) : Bool := ws.any fun w => w.idx = 0x2220 && w.sub = 1 && ofLe w.bytes = 1

/-- The boundary a commit reaches and whether it is later than the one named; `none` for an epoch more than 2³² ahead
(R52, R53, R89, R137). -/
def State.commitBoundary (s : State) (ws : List Staged) (named : Option Nat) : Option (Nat × Bool) :=
  let p := s.permitted
  let base :=
    match named with
    | none => some p
    | some e =>
      let a := aheadOf e s.epoch
      if a = 0 ∨ 2 ^ 47 ≤ a then some p
      else if 2 ^ 32 < a then none
      else some (s.laterOf e p)
  base.map fun b0 =>
    let b1 := if opensTake ws then s.laterOf b0 s.openBoundary else b0
    let b2 := if ws.any s.fuses then s.laterOf b1 s.fuseBoundary else b1
    (b2, match named with | some e => decide (b2 ≠ wrap48 e) | none => false)

/-- A lane mode or port width that an open take's lanes keep from changing (R96). -/
def State.laneBusy (s : State) (idx sub v : Nat) : Bool :=
  if 0x2120 ≤ idx ∧ idx < 0x2128 then
    s.laneInTake (idx - 0x2120) (sub - 1) && s.laneMode (idx - 0x2120) (sub - 1) ≠ v
  else if 0x2128 ≤ idx ∧ idx < 0x2130 then
    let d := idx - 0x2128
    let now := s.obj idx sub
    now ≠ v && (List.range 4).any fun l => sub - 1 ≤ l && l < sub - 1 + max 1 (max now v) && s.laneInTake d l
  else false

/-- A lane that a take keeps from its new mode or width, as a function left unassigned (R85, R96). -/
def keptLane (idx sub : Nat) : Nat × Nat × Nat := (idx, sub, unstatedRank idx)

/-- The lane settings that takes hold back, and those of a set of writes that they would (R85, R96). -/
def State.keptLanes (s : State) (ws : List Staged) : List (Nat × Nat × Nat) :=
  ((s.take.heldDefs.filter fun h => 0x212000 ≤ h.1 && h.1 < 0x213000).map fun h => keptLane (h.1 / 256) (h.1 % 256)) ++
    (ws.filter fun w => s.laneBusy w.idx w.sub (ofLe w.bytes)).map fun w => keptLane w.idx w.sub

/-- Two sets of writes share an object, by exact index:sub-index (R84). -/
def shares (a b : List Staged) : Bool := a.any fun x => b.any fun y => x.idx = y.idx && x.sub = y.sub

/-- The commit overlaps an earlier one: one accepted in this epoch, or one that reaches the same boundary, but for the
session's own implicit writes and the parts of excluded dies (R37), which have applied; or the objects of a yes vote (R84, R509). -/
def State.overlaps (s : State) (a : CommitAsk) (b : Nat) : Bool :=
  (s.dict.commits.any fun c => c.ident ≠ 0 && (c.accEpoch = s.epoch || c.boundary = b) && !(c.slot = 0 && c.session = a.session) &&
    shares c.writes a.writes) ||
  (s.lake.votes.any fun v => a.vote ≠ some v.ident &&
    shares v.writes a.writes)

/-- Unassigned functions in ascending order of their configuring objects (R605). -/
def insertFn (l : List (Nat × Nat × Nat)) (e : Nat × Nat × Nat) : List (Nat × Nat × Nat) :=
  match l with
  | [] => [e]
  | x :: t => if okey e.1 e.2.1 < okey x.1 x.2.1 then e :: x :: t else x :: insertFn t e

/-- The fit of the whole configuration (R31, R85): pools, power domains, search tables and dirty-log windows. Answers the
functions left unassigned. `ws` are the writes that apply with it. -/
def State.fitAll (s : State) (ws : List Staged) : State × List (Nat × Nat × Nat) :=
  let pools := s.dies.foldl (fun (a : State × List (Nat × Nat × Nat)) d =>
    let r := a.1.refitDie d ws
    (r.1, a.2 ++ r.2)) (s, [])
  let doms := pools.1.switchDomains
  let tables := (doms.1.unassignedTables).map fun _ => (0x7001, 0, unstatedRank 0x7001)
  let wins := (doms.1.fitTables).fitWindows
  (wins.1, (pools.2 ++ doms.2 ++ tables ++ wins.2).foldl insertFn [])

/-- A write configures a function listed by its object: a pool by any of its settings (R85). -/
def configures (w : Staged) (e : Nat × Nat × Nat) : Bool :=
  (w.idx = e.1 && w.sub = e.2.1) ||
    (0x5240 ≤ e.1 && e.1 < 0x5248 && 0x5240 ≤ w.idx && w.idx < 0x5268 && w.idx % 8 = e.1 % 8 && w.sub = e.2.1)

/-- The functions that a set of writes configures among those listed. -/
def configuredBy (ws : List Staged) (l : List (Nat × Nat × Nat)) : List (Nat × Nat × Nat) :=
  l.filter fun e => ws.any fun w => configures w e

/-- The functions that a set of writes configures and that the fit of a boundary leaves unassigned, 0x1F20 (R85). -/
def State.unassignedBy (s : State) (b : Nat) (ws : List Staged) : List (Nat × Nat × Nat) :=
  configuredBy ws (((((s.standing b).putAll ws).fitAll ws).2 ++ s.keptLanes ws).foldl insertFn [])

/-- The last 64 commits, 0x1F30 (R605). -/
def State.logCommit (s : State) (slot state epoch n : Nat) : State :=
  let l := s.dict.log ++ [(slot, state, epoch, n)]
  { s with dict := { s.dict with log := if 64 < l.length then l.drop 1 else l } }

/-- The transaction of an explicit commit ends with a state code and frees its slot; an implicit one has no slot. -/
def State.endCommit (s : State) (session slot code : Nat) : State :=
  if slot = 0 then s
  else
    let s1 := s.setSlot slot { Slot.free with state := code }
    let x := s1.session session
    if x.slot = slot then s1.setSession session { x with slot := 0, state := code, count := 0 } else s1

/-- A commit rolled back whole at its acceptance or by its fuse work (R84, R89). -/
def State.dropCommit (s : State) (session slot code n : Nat) : State :=
  let s1 := (s.endCommit session slot code).logCommit slot code s.epoch n
  match rollBackCounter code with
  | some k => s1.bump 0x1F11 k
  | none => s1

/-- A session's earlier implicit writes of the same objects for the same boundary are replaced (R83). -/
def State.replaceImplicit (s : State) (a : CommitAsk) (b : Nat) : State :=
  if a.slot ≠ 0 then s
  else
    let keep := s.dict.commits.map fun c =>
      if c.slot = 0 ∧ c.session = a.session ∧ c.boundary = b ∧ c.blown = false then
        { c with writes := c.writes.filter fun w => !shares [w] a.writes }
      else c
    { s with dict := { s.dict with commits := keep.filter fun c => c.writes ≠ [] } }

/-- The ask of a take that opens, from the settings that will stand (R137). -/
def State.takeAsk (c : State) : TakeAsk := ⟨c.obj 0x2220 3, c.obj 0x2220 4, c.obj 0x2220 5, c.obj 0x2220 7⟩

/-- A commit is accepted, or rolled back at its acceptance (R81 to R89). Answers the status, whether it is late, the epoch
of its boundary (of the request, when it is rolled back), and the state. -/
def State.acceptCommit (s : State) (a : CommitAsk) : Nat × Bool × Nat × State :=
  let n := a.writes.length
  if a.writes.any fun w => s.isLimited w.idx w.sub && s.spent w.idx w.sub then
    (0x0205, false, s.epoch, s.dropCommit a.session a.slot 11 n)
  else
    match s.commitBoundary a.writes a.named with
    | none => (0x0405, false, s.epoch, s.endCommit a.session a.slot 10)
    | some (b, late) =>
      if s.overlaps a b then (0x0404, false, s.epoch, s.dropCommit a.session a.slot 6 n)
      else if a.writes.any s.fuses && !s.pins.fuseVpp then (0x0501, false, s.epoch, s.dropCommit a.session a.slot 11 n)
      else
        let s1 := s.replaceImplicit a b
        let id := s1.dict.nextCommit
        let c : Commit := ⟨id, a.session, a.cls, a.slot, a.writes, b, s.epoch, late, a.writes.any s.fuses, false, s.anyOpen⟩
        let scratch := s1.admitOn b a.writes
        let s2 : State := { s1 with dict := { s1.dict with commits := s1.dict.commits ++ [c], nextCommit := id + 1
                                                           unassignedLast := s1.unassignedBy b a.writes } }
        let leaves := a.writes.any fun w => w.idx = 0x9002 && w.sub = 1 && ofLe w.bytes = 2
        let s2 : State := if leaves && 2 ≤ s2.lake.state then { s2 with lake := { s2.lake with state := 4 } } else s2
        let s3 := if opensTake a.writes then s2.openTake scratch scratch.takeAsk b false else s2
        let s4 :=
          if a.slot = 0 then s3
          else
            let sl := s3.slot a.slot
            let t := s3.setSlot a.slot { sl with state := 2, target := b, accEpoch := s.epoch, accPhase := s.phase }
            t.setSession a.session { t.session a.session with state := 2 }
        (0, late, b, s4)

/-- The writes of 2 and 3 to 0x1F00:01 (R81): the open transaction commits; 0x0401 where none is open. -/
def State.commitTxn (s : State) (k cls : Nat) (named : Option Nat) : Nat × Bool × Nat × State :=
  if !s.openTxn k then (0x0401, false, s.epoch, s)
  else
    let x := s.session k
    s.acceptCommit ⟨k, cls, x.slot, (s.slot x.slot).staged, named, none⟩

end Sys2Proof.Machine
end

