-- ==== Sys2Proof/Machine/Lake.lean ====
section
/-!
DEFINITION. The lake (chapter 16): joining, heartbeats, lake transactions, federated search, and the Lake Control and Lake Status
commands. Lake takes are in LakeTake.lean.
-/

namespace Sys2Proof.Machine

/-! ### Joining (R503) -/

/-- The Lake Control command that waits for a join or leave completes. -/
def State.lakeDone (s : State) : State :=
  let s1 : State := { s with lake := { s.lake with join := none } }
  match s.lake.join.bind (·.q) with
  | some q => s1.succeed q 0
  | none => s1

/-- The lake key slot of 0x9006 keeps R496 on every die with a lake lane: the policy that R496 asks for, the same key, and SALTs that
differ between the dies. -/
def State.lakeKeysOk (s : State) : Bool :=
  let ds := s.dies.filter fun d => (List.range 4).any (s.lakeLane d)
  let slots := ds.map fun d => tget s.secure.slots (1024 * d + s.obj 0x9006 0)
  let ks := slots.filterMap id
  s.obj 0x9006 0 < 1024 && ks.length = ds.length && ks.all KeySlot.lakeOk && ks.all (fun k => (ks.headD k).material = k.material) &&
    (ks.map (·.salt)).eraseDups.length = ks.length

/-- The local conditions of a join in the order of R503; 0 where they hold. -/
def State.joinCheck (s : State) : Nat :=
  if s.obj 0x9000 0 = 0 then 1
  else if !s.lockedPtp then 4
  else if !s.lakeKeysOk then 5
  else if s.lakeLanesUp.isEmpty then 6
  else if s.lake.state ≠ 0 then 7
  else if s.fault.safeHold then 8
  else if s.host.activating.isSome then 9
  else 0

/-- The join at its boundary: the local conditions, then listening for 3 heartbeat intervals (R503). -/
def State.startJoin (s : State) : State :=
  let c := s.joinCheck
  if c ≠ 0 then s.refuseLake c
  else
    let q := s.lake.join.bind (·.q)
    { s with lake := { s.lake with state := 1, node := s.obj 0x9001 0, ident := s.obj 0x9000 0, peers := [], level := 0
                                   join := some ⟨q, true, false, s.time.now⟩, joinedAt := s.time.now } }

/-- The leave at its boundary (R504): refused while a part of an open lake take is held. -/
def State.startLeave (s : State) : State :=
  if s.lake.state = 1 then s.refuseLake 7
  else if s.holdsLake then
    let s1 : State := { s with lake := { s.lake with state := if s.lake.state = 4 then (if s.lake.leader = s.lake.node then 3 else 2)
                                                       else s.lake.state } }
    s1.refuseLake 10
  else
    let j := s.lake.join
    let s1 := s.leaveLake 0
    ({ s1 with lake := { s1.lake with join := j } }).lakeDone

/-- The device becomes a member (R503). -/
def State.becomeMember (s : State) (leader gen level : Nat) (members : List Nat) : State :=
  let st := if leader = s.lake.node then 3 else 2
  let s1 : State := { s with lake := { s.lake with state := st, leader := leader, gen := gen, members := nodeSet members
                                                   level := level, changed := s.epoch, rejoin := false } }
  s1.lakeDone.raise (evPkg 26) leader

/-- The body of a HEARTBEAT (R499). -/
def State.heartbeatBody (s : State) : List Nat :=
  let st := if s.fault.safeHold then 4 else if s.lake.state = 1 then 0 else if s.lake.state = 4 then 3 else s.lake.state - 1
  [st, 1, 2, b2n s.aligned, s.time.state, s.time.active] ++ leBytes 2 s.lake.leader ++ leBytes 4 s.lake.gen ++
    leBytes 8 (s.obj 0x1130 4) ++ leBytes 8 (s.obj 0x1102 0) ++ leBytes 4 (s.obj 0x1000 7) ++ memberMap s.lake.members

/-- How many epochs a heartbeat interval lasts (m), and how many heartbeats an epoch has (n), one of the two being 1 (R501). -/
def State.beatGrid (s : State) : Nat × Nat :=
  let d := 100 * s.time.rateD
  if d ≤ s.time.rateN then (s.time.rateN / max 1 d, 1) else (1, ceilDiv d (max 1 s.time.rateN))

/-- The heartbeat interval in ns (R501). -/
def State.beatNs (s : State) : Nat :=
  let g := s.beatGrid
  g.1 * s.time.rateD * 1000000000 / max 1 (g.2 * s.time.rateN)

/-- Heartbeat k of the epoch is due (R501): the epoch has one, its phase has come, this node's delay of 2 µs × its number has passed since
then, and it has not been sent. -/
def State.beatDue (s : State) (k : Nat) : Bool :=
  let g := s.beatGrid
  let p := 65536 * k / g.2
  s.epoch % g.1 = 0 && k < g.2 && p ≤ s.phase && s.phase < 65536 * (k + 1) / g.2 &&
    2000 * s.lake.node * 65536 * s.time.rateN ≤ (s.phase - p) * s.time.rateD * 1000000000 && s.lake.beat ≠ some (s.epoch, k)

/-- The lowest-numbered member that hears no lower one takes the leader role at its next heartbeat (R500, R502). -/
def State.takeLead (s : State) : State :=
  if s.lake.state = 2 ∧ s.lake.members.contains s.lake.node ∧ s.healthyNodes.head? = some s.lake.node then
    ({ s with lake := { s.lake with state := 3, leader := s.lake.node } }).raise (evPkg 26) s.lake.node
  else s

/-- HEARTBEAT_SEND (R501): a joining device and a member send heartbeat k of the epoch; nothing is sent outside a lake. -/
def execHeartbeatSend (k : Nat) (s : State) : Res :=
  if s.lake.state = 0 then .next s
  else if !s.beatDue k then .next s
  else
    let s1 := s.takeLead
    .next (({ s1 with lake := { s1.lake with beat := some (s.epoch, k) } }).lakeEmit 0x1FF 1 false s1.heartbeatBody)

/-- A peer as its heartbeat gives it. -/
def peerOf (s : State) (h : LakeHdr) (b : HeartbeatBody) : Peer :=
  ⟨s.time.now, b.state, b.lowLevel, b.highLevel, b.aligned, b.leader, b.generation, b.gm, b.rate, h.srcLane⟩

/-- Two lakes merge (R505): the higher-numbered leader yields and aborts what it had prepared; the lower-numbered one publishes
the union under a generation above both. The lower running level applies; a member that does not support it leaves. -/
def State.mergeLakes (s : State) (h : LakeHdr) (b : HeartbeatBody) : State :=
  let level := min s.lake.level h.level
  let s1 :=
    if h.src < s.lake.node then
      let t := ((s.lake.lxns.filter fun x => x.state = 2).map (·.ident)).foldl (fun s i => s.abortLxn i 2) s
      ({ t with lake := { t.lake with state := 2, leader := h.src } }).raise (evPkg 26) h.src
    else
      let t := s.setMembers (s.lake.members ++ b.members)
      { t with lake := { t.lake with gen := max s.lake.gen b.generation + 1 } }
  if levelOk level then s1.setLevel level
  else ({ s1 with lake := { s1.lake with refusal := 3 } }).leaveLake 0

/-- A member hears its leader, or a lower-numbered one that lists it, to which it yields; a leader of another lake ends the transactions that it
had prepared (R500, R505). -/
def State.followLeader (s : State) (h : LakeHdr) (b : HeartbeatBody) : State :=
  if b.state ≠ 2 ∨ !(b.members.contains s.lake.node) ∨ s.lake.leader < h.src then s
  else
    let fresh := s.lake.leader ≠ h.src
    let s1 :=
      if fresh then
        let prepared := if s.lake.members.contains h.src then [] else (s.lake.lxns.filter fun x => x.state = 2).map (·.ident)
        let t := prepared.foldl (fun s i => s.abortLxn i 2) s
        ({ t with lake := { t.lake with leader := h.src, state := if t.lake.state = 3 then 2 else t.lake.state } }).raise (evPkg 26) h.src
      else s
    let s2 := { s1 with lake := { s1.lake with gen := b.generation } }.setMembers b.members
    if h.level < s2.lake.level then
      (if levelOk h.level then s2.setLevel h.level else ({ s2 with lake := { s2.lake with refusal := 3 } }).leaveLake 0)
    else s2

/-- A heartbeat of a node (R500 to R505). -/
def State.heardHeartbeat (s : State) (h : LakeHdr) (b : HeartbeatBody) : State :=
  let s1 : State := { s with lake := { s.lake with peers := tset s.lake.peers h.src (peerOf s h b) } }
  if s.lake.state = 1 then
    (if b.state = 2 ∧ b.members.contains s.lake.node then s1.becomeMember h.src b.generation h.level b.members else s1)
  else if !s.inLake then s1
  else if s.leads ∧ b.state = 2 ∧ !s.lake.members.contains h.src then s1.mergeLakes h b
  else s1.followLeader h b

/-- JOIN_LISTEN_EXPIRY (R503), after 3 heartbeat intervals: the joiner asks the leader it heard, forms the lake alone where it heard nothing, or is refused where
another node uses its number. -/
def execJoinListenExpiry (s : State) : Res :=
  match s.lake.join with
  | none => .next s
  | some j =>
    if s.lake.state ≠ 1 ∨ !j.listening then .next s
    else if s.time.now < j.since + 3 * s.beatNs then .next s
    else if (tget s.lake.peers s.lake.node).isSome then .next (s.refuseLake 2)
    else
      match s.lake.peers.find? fun p => p.2.state = 2 with
      | some p =>
        let body := [1, 2] ++ zeros 6 ++ leBytes 8 Config.packageSerial ++ leBytes 8 (s.obj 0x1130 4) ++ leBytes 8 (s.obj 0x1102 0)
        .next (({ s with lake := { s.lake with join := some ⟨j.q, false, true, s.time.now⟩ } }).lakeSend p.1 2 body)
      | none =>
        if s.lake.peers.isEmpty then .next (s.becomeMember s.lake.node 1 (s.obj 0x9007 1) [s.lake.node]) else .next s

/-- What the leader answers a joiner: 0, or a reason of R503. -/
def State.judgeJoiner (s : State) (src low high gm rate : Nat) : Nat :=
  if s.lake.members.contains src then 2
  else if s.lake.level < low ∨ high < s.lake.level then 3
  else if gm ≠ s.obj 0x1130 4 ∨ rate ≠ s.obj 0x1102 0 then 4
  else 0

/-- The leader answers a JOIN REQUEST (R503). -/
def State.answerJoin (s : State) (h : LakeHdr) (lowLevel highLevel gm rate : Nat) : State :=
  if !s.leads ∨ (h.retry ∧ s.lake.members.contains h.src) then s
  else
    let r := s.judgeJoiner h.src lowLevel highLevel gm rate
    let s1 := if r = 0 then s.setMembers (s.lake.members ++ [h.src]) else s
    s1.lakeSend h.src 3 ([r, s1.lake.level] ++ leBytes 2 s1.lake.leader ++ leBytes 4 s1.lake.gen ++ memberMap s1.lake.members)

/-- JOIN_REQUEST (R503): the leader checks the node number, the level and the alignment, and answers; a request of a joiner already
accepted is only acknowledged. -/
def execJoinRequest (h : LakeHdr) (lowLevel highLevel _serial gm rate : Nat) (s : State) : Res :=
  onMsg s h 2 0 fun s => s.answerJoin h lowLevel highLevel gm rate

/-- The answer to a JOIN REQUEST (R503). -/
def State.joinAnswered (s : State) (result runLevel leader generation : Nat) : State :=
  match s.lake.join with
  | none => s
  | some j =>
    if s.lake.state ≠ 1 ∨ !j.asked then s
    else if result ≠ 0 then s.refuseLake result
    else { s with lake := { s.lake with leader := leader, gen := generation, level := runLevel } }

/-- JOIN_ANSWER (R503): a refusal ends the join; on acceptance the joiner waits for a leader heartbeat that lists it. -/
def execJoinAnswer (h : LakeHdr) (result runLevel leader generation : Nat) (_members : List Nat) (s : State) : Res :=
  onMsg s h 3 0 fun s => s.joinAnswered result runLevel leader generation

/-- JOIN_ANSWER_TIMEOUT (R503): 1 s after the request. -/
def execJoinAnswerTimeout (s : State) : Res :=
  match s.lake.join with
  | none => .next s
  | some j =>
    if s.lake.state ≠ 1 ∨ !j.asked ∨ s.lake.level ≠ 0 then .next s
    else if s.time.now < j.since + 1000000000 then .next s
    else .next (s.refuseLake 0x0B)

/-- A message is acknowledged (R498, R510, R514), and what waited for it. -/
def State.lakeAcked (s : State) (h : LakeHdr) (seq : Nat) : State :=
  match s.lake.unacked.find? fun m => m.dst = h.src && m.seq = seq with
  | none => s
  | some m =>
    let s1 : State := { s with lake := { s.lake with unacked := s.lake.unacked.erase m } }
    if m.ty = 0x22 then
      let ident := field m.body 0 4
      let s2 := s1.modLxn ident fun x => { x with acked := x.acked ++ [h.src] }
      match s2.lxn ident with
      | some x => s2.recordLxn x
      | none => s2
    else if m.ty = 0x40 then
      let lt := field m.body 0 8
      let hit := fun (f : Frame) => f.spring = field m.body 8 1 && f.frame = field m.body 12 4
      { s1 with take := { s1.take with takes := s1.take.takes.map fun t =>
          if t.lakeTake = lt then { t with frames := t.frames.map fun f => if hit f then { f with offered := 2 } else f } else t } }
    else s1

/-- LAKE_ACK (R498, R510, R514): the message waits no longer; the ACK of a COMMIT and that of a PART READY are noted. -/
def execLakeAck (h : LakeHdr) (seq _status : Nat) (s : State) : Res :=
  onMsg s h 5 0 fun s => s.lakeAcked h seq

/-- LAKE_RETRY_EXPIRY (R498), 0x9009:01 µs after it was last sent: the message is resent with RETRY and a new SEQ, up to 0x9009:02 times. -/
def execLakeRetryExpiry (node seq : Nat) (s : State) : Res :=
  match s.lake.unacked.find? fun m => m.dst = node && m.seq = seq with
  | none => .next s
  | some m =>
    let s1 : State := { s with lake := { s.lake with unacked := s.lake.unacked.erase m } }
    if s.time.now < m.sent + 1000 * s.obj 0x9009 1 then .next s
    else if s.obj 0x9009 2 ≤ m.retries then .next s1
    else
      let s2 := (s1.lakeEmit node m.ty true m.body).bump 0x901A 4
      let m' := { m with seq := tgetD s2.lake.seqOut node 0, retries := m.retries + 1, sent := s.time.now }
      .next { s2 with lake := { s2.lake with unacked := s2.lake.unacked ++ [m'] } }

/-- LAKE_DICT_RESPONSE (R499): the response reaches the session that asked; the device asks nothing of its own. -/
def execLakeDictResponse (h : LakeHdr) (_body : List Nat) (s : State) : Res := onMsg s h 0x11 0 id

/-- EVENT_MESSAGE (R499): the sink receives the event. -/
def execEventMessage (h : LakeHdr) (_body : List Nat) (s : State) : Res := onMsg s h 0x50 0 id

/-- ETHERNET_LINK_UP (R493), once the SerDes domain is usable (R548). -/
def execEthernetLinkUp (die lane : Nat) (s : State) : Res :=
  onLane s die lane fun _ =>
    if s.laneMode die lane ≠ 3 then .next s
    else if !s.usable die 7 then .next s
    else .next (s.setLane die lane { s.lane die lane with signal := true })

/-- ETHERNET_LINK_DOWN (R494). -/
def execEthernetLinkDown (die lane : Nat) (s : State) : Res :=
  onLane s die lane fun _ =>
    if s.laneMode die lane = 3 then .next (s.setLane die lane { s.lane die lane with signal := false }) else .next s

/-! ### Lake Control and Lake Status (R294, R503, R504, R519) -/

/-- Lake Control commits its writes as an implicit transaction of its session, and waits for their boundary (R503). A commit that is
rolled back refuses the operation, with no reason of R503: DW0 is a free value. -/
def State.lakeControl (s : State) (q : CmdRef) (writes : List Staged) : State :=
  let r := s.acceptCommit ⟨sessionKey 1 q.cntl, 1, 0, writes, none, none⟩
  if r.1 = 0 then ({ r.2.2.2 with lake := { r.2.2.2.lake with join := some ⟨some q, false, false, s.time.now⟩ } }).started q
  else (r.2.2.2.failVendor q 0xD0 0xCB (s.freeValue % 256)).useFree

/-- A Lake Control command is refused at once, with its reason (R503). -/
def State.refuseNow (s : State) (q : CmdRef) (code : Nat) : State :=
  ({ s with lake := { s.lake with refusal := code } }).failVendor q 0xD0 0xCB code

/-- LAKE_JOIN: Lake Control operation 1 (R503); in safe hold it would change the dictionary (R286). -/
def execLakeJoin (q : CmdRef) (lake node : Nat) (s : State) : Res :=
  startCmd s q fun _ =>
    let s := s.countVendor true 0xD0
    if isVf q.cntl then .next (s.failCmd q 0 1)
    else if s.fault.safeHold then .next (s.safeFail q 0xD0)
    else if s.obj 0x9000 0 = 0 ∨ lake ≠ s.obj 0x9000 0 then .next (s.refuseNow q 1)
    else if s.lake.state ≠ 0 ∨ s.lake.join.isSome then .next (s.refuseNow q 7)
    else .next (s.lakeControl q [⟨0x9001, 0, leBytes 2 node, false, []⟩, ⟨0x9002, 1, [1], false, []⟩])

/-- LAKE_LEAVE: Lake Control operation 2 (R504). -/
def execLakeLeave (q : CmdRef) (s : State) : Res :=
  startCmd s q fun _ =>
    let s := s.countVendor true 0xD0
    if isVf q.cntl then .next (s.failCmd q 0 1)
    else if s.fault.safeHold then .next (s.safeFail q 0xD0)
    else if s.holdsLake then .next (s.refuseNow q 10)
    else if s.lake.join.isSome ∨ s.lake.state = 1 then .next (s.refuseNow q 7)
    else
      .next (s.lakeControl q [⟨0x9002, 1, [2], false, []⟩])

/-- The lake status structure of R519, 168 bytes. -/
def State.lakeStatus (s : State) : List Nat :=
  let alignedPeers := (s.lake.peers.filter fun p => p.2.aligned && s.lake.members.contains p.1).map (·.1)
  let al := if s.inLake ∧ s.aligned then s.lake.node :: alignedPeers else alignedPeers
  [s.lake.state, s.lake.level, 1, 2] ++ leBytes 2 (s.obj 0x9001 0) ++ leBytes 2 s.lake.leader ++ leBytes 6 (s.obj 0x9000 0) ++
    leBytes 2 s.lake.members.length ++ leBytes 4 s.lake.gen ++ leBytes 6 s.lake.changed ++ [s.lake.refusal, b2n s.aligned] ++
    leBytes 4 s.lakeTakes.length ++ leBytes 8 (s.obj 0x1130 4) ++ memberMap s.lake.members ++ memberMap al

/-- LAKE_STATUS (R294, R519): the structure, cut to NDT dwords; DW0 the bytes returned. -/
def execLakeStatus (q : CmdRef) (ndt : Nat) (s : State) : Res :=
  startCmd s q fun _ =>
    let s := s.countVendor true 0xD2
    if isVf q.cntl then .next (s.failCmd q 0 1)
    else
      let b := s.lakeStatus.take (4 * ndt)
      .next ((s.dataOut q b).succeed q b.length)

/-! ### Lake transactions (R507 to R510) -/

/-- The identity of the next lake transaction of this device: its node and a count (the model's choice). -/
def State.nextLxn (s : State) : Nat := (s.lake.node * 1048576 + s.lake.nextIdent % 1048576) % 2 ^ 32

/-- The open lake transaction of a session. -/
def State.openLxn (s : State) (k : Nat) : Option Lxn := s.lake.lxns.find? fun x => x.session = k && x.state = 1

/-- Command 1 of 0x900D (R507): 0x0406 where the session has one, 0x0402 beyond two open on the device. -/
def State.beginLxn (s : State) (k : Nat) : Nat × State :=
  if (s.openLxn k).isSome then (0x0406, s)
  else if 2 ≤ s.lake.lxns.length then (0x0402, s)
  else
    let x : Lxn := ⟨s.nextLxn, k, 0, 1, false, [], [], [], []⟩
    let s1 : State := { s with lake := { s.lake with lxns := s.lake.lxns ++ [x], nextIdent := s.lake.nextIdent + 1 } }
    (0, s1.lxnState x 1)

/-- The writes of a 0x900E load, 64 bytes each. -/
def lxnWrites (b : List Nat) : List LxnWrite :=
  (List.range (b.length / 64)).map fun k =>
    let e := slice (64 * k) 64 b
    ⟨if field e 2 2 = 0x900F then 0xFFFF else field e 0 2, field e 2 2, field e 4 1, (e.drop 8).take (field e 5 1)⟩

/-- A 0x900E load replaces the writes of the session's open lake transaction: 0x0401 where none is open, 0x0403 above 16 for one
node (R507). -/
def State.stageLxn (s : State) (k : Nat) (b : List Nat) : Nat × State :=
  match s.openLxn k with
  | none => (0x0401, s)
  | some x =>
    let ws := lxnWrites b
    if ws.any fun w => 16 < (ws.filter fun v => v.node = w.node || v.node = 0xFFFF).length then (0x0403, s)
    else (0, s.modLxn x.ident fun x => { x with writes := ws })

/-- The writes that go to a node. -/
def Lxn.writesOf (x : Lxn) (n : Nat) : List LxnWrite := x.writes.filter fun w => w.node = n || w.node = 0xFFFF

/-- One write of a lake transaction as a participant checks it (R509): status, and the value to stage. -/
def State.judgeLxnWrite (s c : State) (w : LakeWrite) : Nat × Staged :=
  let j := s.judge 1 w.idx w.sub true true
  let wo : Bool := match objAccess s.cfg.dies w.idx w.sub with
    | some (_, .wo) => true
    | _ => false
  if j ≠ 0 then (j, ⟨w.idx, w.sub, [], false, []⟩)
  else if wo ∨ sessionObject w.idx w.sub then (0x0207, ⟨w.idx, w.sub, [], false, []⟩)
  else
    let h := s.holdWrite c w.idx w.sub w.data
    if h.1 = 0 ∧ w.idx = 0x900F ∧ !levelOk (ofLe h.2.1) then (0x0207, ⟨w.idx, w.sub, [], false, []⟩)
    else (h.1, ⟨w.idx, w.sub, h.2.1, h.2.2, w.data⟩)

/-- The first write of a list that is refused, with its status; the writes to stage otherwise. -/
def State.judgeLxnWrites (s : State) : State → List LakeWrite → List Staged → Nat × Nat × Nat × List Staged
  | _, [], out => (0, 0, 0, out)
  | c, w :: t, out =>
    let r := s.judgeLxnWrite c w
    if r.1 ≠ 0 then (r.1, w.idx, w.sub, [])
    else s.judgeLxnWrites (c.putSetting r.2) t (stage out r.2)

/-- LXN PREPARE at a participant (R509): vote, admission code, status, index and sub-index, and the state. A yes vote locks its
objects; a take that it opens is admitted and set aside. -/
def State.prepareLxn (s : State) (coord ident target : Nat) (writes : List LakeWrite) : (Nat × Nat × Nat × Nat × Nat) × State :=
  if 8 ≤ s.lake.votes.length then ((1, 0, 0x0402, 0, 0), s)
  else
    let c := s.standing target
    let (st, i, sub, ws) := s.judgeLxnWrites c writes []
    if st ≠ 0 then ((1, 0, st, i, sub), s)
    else
      let late := ws.find? fun w => (s.isLimited w.idx w.sub && s.spent w.idx w.sub) || (s.fuses w && !s.pins.fuseVpp)
      match late with
      | some w => ((1, 0, if s.isLimited w.idx w.sub ∧ s.spent w.idx w.sub then 0x0205 else 0x0501, w.idx, w.sub), s)
      | none =>
      let hit := ws.find? fun w =>
        (s.dict.commits.any fun c => c.boundary = target && shares c.writes [w]) ||
          (s.lake.votes.any fun v => shares v.writes [w])
      match hit with
      | some w => ((1, 0, 0x0404, w.idx, w.sub), s)
      | none =>
        let scratch := s.admitOn target ws
        let opens := opensTake ws
        let code := if opens then (scratch.admission scratch.takeAsk false).1 else 0
        let s1 := if opens then s.openTake scratch scratch.takeAsk target false else s
        if code ≠ 0 then ((1, code, 0, 0, 0), s1)
        else
          let v : LakeVote := ⟨ident, coord, target, ws⟩
          ((0, 0, 0, 0, 0), { s1 with lake := { s1.lake with votes := s1.lake.votes ++ [v] } })

/-- COMMIT at a participant: the writes of its yes vote are one accepted commit for E (R509). -/
def State.commitVote (s : State) (ident : Nat) : State :=
  match s.lake.votes.find? fun v => v.ident = ident with
  | none => s
  | some v =>
    let ws := v.writes
    let id := s.dict.nextCommit
    let c : Commit := ⟨id, sessionKey 4 v.coord, 1, 0, ws, v.target, s.epoch, false, ws.any s.fuses, false, s.anyOpen⟩
    { s with dict := { s.dict with commits := s.dict.commits ++ [c], nextCommit := id + 1, unassignedLast := s.unassignedBy v.target ws }
             lake := { s.lake with votes := s.lake.votes.filter fun x => x.ident ≠ ident, ended := tset s.lake.ended ident 1 } }

/-- The coordinator decides COMMIT: every participant has voted yes (R510). -/
def State.commitLxn (s : State) (x : Lxn) : State :=
  let others := x.participants.filter (· ≠ s.lake.node)
  let s1 := others.foldl (fun s n => s.lakeSend n 0x22 (leBytes 4 x.ident ++ leBytes 6 x.target)) s
  let s2 := s1.commitVote x.ident
  let self := if x.participants.contains s.lake.node then [s.lake.node] else []
  let x' := { x with state := 3, acked := self }
  let s3 := (s2.modLxn x.ident fun _ => x').lxnState x 2
  ({ s3 with lake := { s3.lake with ended := tset s3.lake.ended x.ident 1 } }).recordLxn x'

/-- The lead's clock has come to so many phase units before epoch boundary E (R36, R509, R510). -/
def State.reached (s : State) (e back : Nat) : Bool :=
  !isBefore (s.epoch * 65536 + s.phase) (wrap48 e * 65536 + 2 ^ 64 - back)

/-- A vote reaches the coordinator: the last yes before E − 0x900C commits; a no, and a last yes that comes later, abort (R510). -/
def State.recordVote (s : State) (ident node vote : Nat) : State :=
  match s.lxn ident with
  | none => s
  | some x =>
    if x.state ≠ 2 ∨ !x.participants.contains node ∨ (tget x.votes node).isSome then s
    else
      let x' := { x with votes := tset x.votes node vote }
      let s1 := s.modLxn ident fun _ => x'
      if vote ≠ 0 then s1.abortLxn ident 0
      else if x'.participants.all fun n => tget x'.votes n = some 0 then
        (if s.reached x.target (s.obj 0x900C 0) then s1.abortLxn ident 1 else s1.commitLxn x')
      else s1

/-- The first lake epoch boundary that lies at least 0x9010 ms ahead (R508). -/
def State.leadBoundary (s : State) : Nat :=
  let wait := s.time.now + s.obj 0x9010 0 * 1000000 - s.nextBoundary
  wrap48 (s.epoch + 1 + ceilDiv wait s.periodNs)

/-- Commands 2 and 3 of 0x900D (R508): status, LATE, the target epoch, and the state. -/
def State.startLxn (s : State) (k : Nat) (named : Option Nat) : Nat × Bool × Nat × State :=
  match s.openLxn k with
  | none => (0x0401, false, s.epoch, s)
  | some x =>
    let first := s.leadBoundary
    let far : Bool := match named with
      | some e => decide (2 ^ 32 < aheadOf e s.epoch ∧ aheadOf e s.epoch < 2 ^ 47)
      | none => false
    if far then
      (0x0405, false, s.epoch, ({ s with lake := { s.lake with lxns := s.lake.lxns.erase x } }).lxnState x 10)
    else
      let target := match named with
        | some e => if isAhead e s.epoch then s.laterOf first e else first
        | none => first
      let late : Bool := match named with
        | some e => decide (target ≠ wrap48 e)
        | none => false
      let parts := nodeSet (x.writes.flatMap fun w => if w.node = 0xFFFF then s.lake.members else [w.node])
      if !s.inLake ∨ parts.any fun n => !s.lake.members.contains n then
        (0x0404, false, s.epoch, ({ s with lake := { s.lake with lxns := s.lake.lxns.erase x } }).lxnState x 6)
      else
        let x' := { x with state := 2, target := target, late := late, participants := parts }
        let s1 := s.modLxn x.ident fun _ => x'
        let body := fun (n : Nat) =>
          let ws := x.writesOf n
          leBytes 4 x.ident ++ leBytes 6 target ++ leBytes 2 ws.length ++ memberMap parts ++
            ws.flatMap fun w => leBytes 2 w.idx ++ [w.sub, w.bytes.length] ++ fit 56 w.bytes ++ zeros 4
        let s2 := (parts.filter (· ≠ s.lake.node)).foldl (fun s n => s.lakeSend n 0x20 (body n)) s1
        let s3 :=
          if parts.contains s.lake.node then
            let r := s2.prepareLxn s.lake.node x.ident target ((x.writesOf s.lake.node).map fun w => ⟨w.idx, w.sub, w.bytes⟩)
            r.2.recordVote x.ident s.lake.node r.1.1
          else s2
        (0, late, target, s3)

/-- Command 4 of 0x900D: the open lake transaction is rolled back (R521). -/
def State.rollBackLxn (s : State) (k : Nat) : Nat × State :=
  match s.openLxn k with
  | none => (0x0401, s)
  | some x => (0, ({ s with lake := { s.lake with lxns := s.lake.lxns.erase x } }).lxnState x 7)

/-- A participant prepares and votes (R509). -/
def State.votePrepare (s : State) (h : LakeHdr) (ident epoch : Nat) (writes : List LakeWrite) : State :=
  if (tget s.lake.ended ident).isSome ∨ s.lake.votes.any (fun v => v.ident = ident) then s
  else
    let r := s.prepareLxn h.src ident epoch writes
    let v := r.1
    let s1 : State := if v.1 = 0 then r.2 else { r.2 with lake := { r.2.lake with ended := tset r.2.lake.ended ident 2 } }
    s1.lakeSend h.src 0x21 (leBytes 4 ident ++ [v.1, v.2.1] ++ leBytes 2 v.2.2.1 ++ leBytes 2 v.2.2.2.1 ++ [v.2.2.2.2])

/-- LXN_PREPARE (R509): a repeat is only acknowledged. -/
def execLxnPrepare (h : LakeHdr) (ident epoch : Nat) (_participants : List Nat) (writes : List LakeWrite) (s : State) : Res :=
  onMsg s h 0x20 0 fun s => s.votePrepare h ident epoch writes

/-- LXN_VOTE (R510). -/
def execLxnVote (h : LakeHdr) (ident vote _admission _status _index _sub : Nat) (s : State) : Res :=
  onMsg s h 0x21 0 fun s => s.recordVote ident h.src vote

/-- LXN_COMMIT (R509): a repeat is only acknowledged. -/
def execLxnCommit (h : LakeHdr) (ident _epoch : Nat) (s : State) : Res :=
  onMsg s h 0x22 0 fun s => s.commitVote ident

/-- A prepared transaction is aborted (R509, R520). -/
def State.lxnAborted (s : State) (ident : Nat) : State :=
  if s.lake.votes.any fun v => v.ident = ident then (s.abortVote ident).raise (evPkg 30) ident else s

/-- LXN_ABORT (R509, R520). -/
def execLxnAbort (h : LakeHdr) (ident _cause : Nat) (s : State) : Res :=
  onMsg s h 0x23 0 fun s => s.lxnAborted ident

/-- The coordinator answers a query for the outcome (R509). -/
def State.answerQuery (s : State) (h : LakeHdr) (ident : Nat) : State :=
  match tget s.lake.ended ident with
  | some 1 => s.lakeSend h.src 0x22 (leBytes 4 ident ++ leBytes 6 (match s.lxn ident with | some x => x.target | none => s.epoch))
  | some _ => s.lakeSend h.src 0x23 (leBytes 4 ident ++ [0])
  | none => s

/-- LXN_QUERY (R499, R509): the outcome is repeated; while there is none nothing is sent. -/
def execLxnQuery (h : LakeHdr) (ident : Nat) (s : State) : Res :=
  onMsg s h 0x24 0 fun s => s.answerQuery h ident

/-- LXN_VOTE_DEADLINE (R510): with a vote missing at E − 0x900C the coordinator aborts. -/
def execLxnVoteDeadline (ident : Nat) (s : State) : Res :=
  match s.lxn ident with
  | some x =>
    if x.state ≠ 2 then .next s
    else if !s.reached x.target (s.obj 0x900C 0) then .next s
    else .next (s.abortLxn ident 1)
  | none => .next s

/-- LXN_QUERY_DEADLINE (R509), at E − 0x900C / 2 phase units. -/
def execLxnQueryDeadline (ident : Nat) (s : State) : Res :=
  match s.lake.votes.find? fun v => v.ident = ident with
  | some v =>
    if !s.reached v.target (s.obj 0x900C 0 / 2) then .next s
    else .next (if v.coord = s.lake.node then s else s.lakeSend v.coord 0x24 (leBytes 4 ident))
  | none => .next s

/-- LXN_OUTCOME_DEADLINE (R509), at E − 4,096 phase units. -/
def execLxnOutcomeDeadline (ident : Nat) (s : State) : Res :=
  match s.lake.votes.find? fun v => v.ident = ident with
  | some v => if !s.reached v.target 4096 then .next s else .next ((s.abortVote ident).raise (evPkg 30) ident)
  | none => .next s

/-- At the boundary E of a committed lake transaction (R510): a participant that has not acknowledged COMMIT raises EV P.30; the
session reads applied, or applied late. -/
def State.endLxns (s : State) : State :=
  (s.lake.lxns.filter fun x => x.state = 3 && atOrAhead s.epoch x.target).foldl (fun s x =>
    let missed := x.participants.any fun n => !x.acked.contains n
    let s1 := (s.recordLxn x).lxnState x (if x.late then 4 else 3)
    let s2 : State := { s1 with lake := { s1.lake with lxns := s1.lake.lxns.filter fun y => y.ident ≠ x.ident } }
    if missed then s2.raise (evPkg 30) x.ident else s2) s

/-! ### Searches (R436, R517, R518) -/

/-- A search of the package's own table for a lake search: no match where the table is missing, of another width, or has no ACCESS bit 1
(R517). Answers status, result word and count. -/
def State.lakeAnswer (s : State) (table width key : Nat) : (Nat × Nat × Nat) × State :=
  match s.table table with
  | none => ((0, resultWord 0 none, 0), s)
  | some t =>
    if t.width ≠ width ∨ !bitOf t.access 1 then ((0, resultWord 0 none, 0), s)
    else
      let r := s.searchPackage t key
      ((r.1, resultWord 0 r.2.1, r.2.2.1), r.2.2.2)

/-- The body of a SEARCH REQUEST (R499). -/
def searchBody (ident table width key : Nat) : List Nat := leBytes 4 ident ++ [table, width] ++ zeros 2 ++ leBytes 72 key

/-- The answers of a lake search are all in: the lowest-numbered node that matched gives the word, and the counts are summed (R517). -/
def State.mergeSearch (s : State) (x : LakeSearch) : State :=
  if !(x.asked.all fun n => (tget x.answers n).isSome) then s
  else
    let s1 : State := { s with lake := { s.lake with searches := s.lake.searches.filter fun y => y.ident ≠ x.ident } }
    let count := sum (x.answers.map fun a => a.2.2)
    match x.answers.find? fun a => a.2.1 / 2 ^ 31 % 2 = 0 with
    | some (n, w, _) => s1.finish x.q 0 0 false (w + n * 2 ^ 20) count
    | none => s1.finish x.q 0 0 false (resultWord 0 none) count

/-- Every healthy die's search unit is usable (R546). -/
def State.searchAwake (s : State) : Bool := (s.dies.filter s.healthy).all fun d => s.usable d 3

/-- A host search at its scope: 0 package, 1 board, 2 lake (R421 to R424, R436, R517). -/
def State.searchNow (s : State) (q : CmdRef) (t : STable) (key table scope : Nat) : State :=
  let s := s.bump 0x7008 4
  if scope = 0 then
    let r := (s.bump 0x7008 1).searchPackage t key
    r.2.2.2.answerSearch q r.1 0 r.2.1 r.2.2.1
  else if scope = 1 then
    if !s.boardUp then s.failVendor q (s.searchOp table) 0xC8 0
    else
      let r := (s.bump 0x7008 2).searchPackage t key
      if r.1 = 5 then r.2.2.2.answerSearch q 5 0 none 0
      else
      let s1 : State := { r.2.2.2 with search := { r.2.2.2.search with board := r.2.2.2.search.board ++ [(q, table, key)] } }
      (s1.emit (.cascade 0 (s.obj 0x7002 1) table key r.2.1 r.2.2.1)).started q
  else if !s.inLake ∨ (s.lake.level < 2 ∧ 1 < t.width) then s.failVendor q (s.searchOp table) 0xC8 0
  else
    let r := (s.bump 0x7008 3).lakeAnswer table t.width key
    if r.1.1 = 5 then r.2.finish q 0 6 false 0 0
    else
      let ident := s.nextLxn
      let asked := s.lake.members.filter (· ≠ s.lake.node)
      let x : LakeSearch := ⟨ident, q, table, t.width, key, asked, [(s.lake.node, r.1.2.1, r.1.2.2)], s.time.now⟩
      let s1 : State := { r.2 with lake := { r.2.lake with searches := r.2.lake.searches ++ [x], nextIdent := s.lake.nextIdent + 1 } }
      ((s1.started q).lakeEmit 0x1FF 0x30 false (searchBody ident table t.width key)).mergeSearch x

/-- A host search, which waits while a search unit wakes (R548). -/
def State.hostSearch (s : State) (q : CmdRef) (t : STable) (key table scope : Nat) : State :=
  if s.searchAwake then s.searchNow q t key table scope
  else ({ s with search := { s.search with waits := s.search.waits ++ [(q, key, table, scope)] } }).started q

/-- The host searches that waited for a search unit run, once every unit is usable (R548). -/
def State.retrySearches (s : State) : State :=
  if !s.searchAwake then s
  else
    (s.search.waits.filter fun w => s.fetched w.1).foldl (fun s w =>
      match s.table w.2.2.1 with
      | some t => s.searchNow w.1 t w.2.1 w.2.2.1 w.2.2.2
      | none => s.failCmd w.1 0 2) ({ s with search := { s.search with waits := [] } } : State)

/-- A domain that was waking is awake: after PD d.4 the stored keys are reloaded, after PD d.3 searches that waited run (R546, R548). -/
def State.domainWakes (s : State) (die domain wakeUs : Nat) (p : PowerDie) : State :=
  let s1 := (s.setPd die { p with waking := tdel p.waking domain }).setObj (0x81C8 + die) (domain + 1) wakeUs
  if domain = 4 then s1.reloadKeys else if domain = 3 then s1.retrySearches else s1

/-- DOMAIN_WAKE_COMPLETE (R546): the domain is usable, so many µs after its boundary and within the latency of its row. -/
def execDomainWakeComplete (die domain wakeUs : Nat) (s : State) : Res :=
  onDie s die fun _ =>
    let p := s.pd die
    match tget p.waking domain with
    | none => .next s
    | some at' =>
      if s.time.now < at' + 1000 * wakeUs ∨ wakeMostUs.getD domain 0 < wakeUs then .next s
      else .next (s.domainWakes die domain wakeUs p)

/-- SEARCH (R436): a 144-bit key. -/
def execSearch (q : CmdRef) (key table scope : Nat) (s : State) : Res :=
  startCmd s q fun _ =>
    let s := s.countIo q 0x80 2
    match s.table table with
    | none => .next (s.failCmd q 0 2)
    | some t =>
      if t.width ≠ 1 ∨ !bitOf t.access 0 ∨ 3 ≤ scope then .next (s.failCmd q 0 2) else .next (s.hostSearch q t key table scope)

/-- SEARCH_WIDE (R436): NDT 9 for width 288, 18 for width 576. -/
def execSearchWide (q : CmdRef) (ndt key table scope : Nat) (s : State) : Res :=
  startCmd s q fun _ =>
    let s := s.countIo q 0x85 2
    match s.table table with
    | none => .next (s.failCmd q 0 2)
    | some t =>
      let fits := (t.width = 2 && ndt = 9) || (t.width = 3 && ndt = 18)
      if !fits ∨ !bitOf t.access 0 ∨ 3 ≤ scope then .next (s.failCmd q 0 2) else .next (s.hostSearch q t key table scope)

/-- A node answers a search of the lake (R517). -/
def State.replySearch (s : State) (h : LakeHdr) (ident table width key : Nat) : State :=
  let r := (s.bump 0x7008 3).lakeAnswer table width key
  r.2.lakeEmit h.src 0x31 false (leBytes 4 ident ++ leBytes 4 r.1.2.1 ++ leBytes 4 r.1.2.2 ++ [if r.1.1 = 5 then 5 else 0])

/-- SEARCH_REQUEST (R517): the member searches its package and answers. -/
def execSearchRequest (h : LakeHdr) (ident table width key : Nat) (s : State) : Res :=
  onMsg s h 0x30 width fun s => s.replySearch h ident table width key

/-- An answer to a search of the lake (R517, R518). -/
def State.searchAnswered (s : State) (h : LakeHdr) (ident result count status : Nat) : State :=
  match s.lake.searches.find? fun x => x.ident = ident with
  | none => s
  | some x =>
    if !x.asked.contains h.src ∨ (tget x.answers h.src).isSome then s
    else if status = 5 then
      ({ s with lake := { s.lake with searches := s.lake.searches.erase x } }).finish x.q 0 6 false 0 0
    else
      let x' := { x with answers := tset x.answers h.src (result, count) }
      let s1 : State := { s with lake := { s.lake with searches := s.lake.searches.map fun y => if y.ident = ident then x' else y } }
      s1.mergeSearch x'

/-- SEARCH_RESULT (R517, R518): an answer with status 5 fails the command; the last answer completes it. -/
def execSearchResult (h : LakeHdr) (ident result count status : Nat) (s : State) : Res :=
  onMsg s h 0x31 0 fun s => s.searchAnswered h ident result count status

/-- LAKE_SEARCH_RESEND (R518), at 2 ms: the request again to each member that has not answered. -/
def execLakeSearchResend (ident : Nat) (s : State) : Res :=
  match s.lake.searches.find? fun x => x.ident = ident with
  | none => .next s
  | some x =>
    let silent := x.asked.filter fun n => (tget x.answers n).isNone
    if s.time.now < x.since + 2000000 then .next s
    else .next (silent.foldl (fun s n => (s.lakeEmit n 0x30 true (searchBody ident x.table x.width x.key)).bump 0x901A 4) s)

/-- LAKE_SEARCH_TIMEOUT (R518), at 4.5 ms: a member of the member set that has not answered fails the command, EV P.31; the answers of members
that left meanwhile are no longer awaited. -/
def execLakeSearchTimeout (ident : Nat) (s : State) : Res :=
  match s.lake.searches.find? fun x => x.ident = ident with
  | none => .next s
  | some x =>
    let missing := x.asked.any fun n => (tget x.answers n).isNone && s.lake.members.contains n
    if s.time.now < x.since + 4500000 then .next s
    else if missing then
      .next ((({ s with lake := { s.lake with searches := s.lake.searches.erase x } }).failVendor x.q x.op 0xC8 0).raise (evPkg 31) ident)
    else .next (s.mergeSearch { x with asked := x.asked.filter fun n => (tget x.answers n).isSome })

end Sys2Proof.Machine
end

