-- ==== Sys2Proof/Machine/LakeTake.lean ====
section
/-!
DEFINITION. Frames and takes that the manifest receives: the recording of a frame, the frame commit of a lake take (R512 to R516), the
sealing of a take (R158), and the loss or departure of a lake member; firmware activation without reset (R293, R504).
-/

namespace Sys2Proof.Machine

/-! ### The frame commit (R513 to R515) -/

/-- The anchor of a take: the lowest-numbered of its carriers still in the member set; outside a lake, the device itself (R513). -/
def State.anchorOf (s : State) (t : Take) : Nat :=
  let here := (s.carriersOf t).filter fun n => n = s.lake.node || s.lake.members.contains n
  here.headD s.lake.node

/-- The carriers of a frame, as the anchor's spring definition maps its bands (R513). -/
def State.mappedCarriers (s : State) (t : Take) (spring nbands : Nat) : List Nat :=
  match t.springs.find? fun p => p.spring = spring with
  | none => [s.lake.node]
  | some p =>
    let of := fun (b : Nat) =>
      let v := p.ports.getD b 0xFFFF
      if v < 32 then some s.lake.node else if 0x4000 ≤ v ∧ v < 0x4200 then some (v - 0x4000) else none
    nodeSet ((List.range nbands).filterMap of)

/-- The carriers of a frame that are still in the member set (R513). -/
def State.frameCarriers (s : State) (t : Take) (spring nbands : Nat) : List Nat :=
  (s.mappedCarriers t spring nbands).filter fun n => n = s.lake.node || s.lake.members.contains n

/-- The bands that a frame has: NBANDS of what has arrived of it here, else as the spring definition says. -/
def Take.bandsOf (t : Take) (spring frame : Nat) : Nat :=
  ((t.frames.find? fun f => f.spring = spring && f.frame = frame).map (·.nbands)).getD
    (((t.springs.find? fun p => p.spring = spring).map (·.nbands)).getD 1)

/-- The parts of a frame that the anchor holds as ready. -/
def State.partsOf (s : State) (lt spring frame : Nat) : List LakePart :=
  s.lake.parts.filter fun p => p.take = lt && p.spring = spring && p.frame = frame

/-- The own bands of a frame as a bitmap. -/
def Frame.bandMask (f : Frame) : Nat := ofBits (f.bands.map (·.num))

/-- The open lake take of an identity, and its frame. -/
def State.lakeTakeFrame (s : State) (lt spring frame : Nat) : Option (Take × Frame) :=
  match s.lakeTakes.find? fun t => t.lakeTake = lt with
  | none => none
  | some t => (t.frames.find? fun f => f.spring = spring && f.frame = frame).map fun f => (t, f)

/-- The counts of 0x901B for a lake take: frames committed, and those committed partial. -/
def State.noteCommit (s : State) (t : Take) (partly : Bool) : State :=
  let b := s.dom 0x901B 0
  let key := leBytes 8 t.lakeTake ++ leBytes 2 t.num
  let es := (List.range (b.length / 24)).map fun k => slice (24 * k) 24 b
  let es' := if es.any fun e => e.take 10 = key then es else es.drop (es.length - 7) ++ [key ++ zeros 14]
  let bumped := es'.map fun e =>
    if e.take 10 = key then
      e.take 10 ++ leBytes 2 (s.anchorOf t) ++ leBytes 4 (field e 12 4 + 1) ++ leBytes 4 (field e 16 4 + b2n partly) ++ zeros 4
    else e
  s.setDom 0x901B 0 bumped.flatten

/-- FRAME COMMIT at a carrier (R514): the frame entry is written for its committed bands; a part that the commit omits is released. -/
def State.frameCommitted (s : State) (lt spring frame mask : Nat) : State :=
  match s.lakeTakeFrame lt spring frame with
  | none => s
  | some (t, f) =>
    let own := f.bands.filter fun b => bitOf mask b.num
    if own.isEmpty ∨ !(f.complete && f.waiting.isEmpty) then s.dropFrame t.nsid t.num f
    else
      let f' := { f with filterSkipped := f.filterSkipped || f.filtersOpen ≠ 0, committed := some mask }
      ((s.missEverywhere t.nsid t.num spring frame).recordFrame t.nsid t.num f' mask).noteCommit t (own.length < f.nbands)

/-- The anchor commits a frame with every band of every ready part (R514). -/
def State.sendCommit (s : State) (t : Take) (spring frame nbands : Nat) : State :=
  let parts := s.partsOf t.lakeTake spring frame
  let mask := parts.foldl (fun m p => Nat.lor m p.bands) 0
  let body := leBytes 8 t.lakeTake ++ [spring, 0, 0, 0] ++ leBytes 4 frame ++ leBytes 8 mask
  let to' := nodeSet (s.frameCarriers t spring nbands ++ parts.map (·.node))
  let s1 := (to'.filter (· ≠ s.lake.node)).foldl (fun s n => s.lakeSend n 0x41 body) s
  let s2 : State := { s1 with lake := { s1.lake with parts := s1.lake.parts.filter fun p =>
    !(p.take = t.lakeTake && p.spring = spring && p.frame = frame) } }
  s2.frameCommitted t.lakeTake spring frame mask

/-- The anchor commits a frame once every carrier's part is ready, or once a carrier with no ready part is among the `gone` (R514). -/
def State.tryCommit (s : State) (lt spring frame : Nat) (gone : List Nat := []) : State :=
  match s.lakeTakes.find? fun t => t.lakeTake = lt with
  | none => s
  | some t =>
    let n := t.bandsOf spring frame
    let parts := s.partsOf lt spring frame
    let ready := fun (c : Nat) => parts.any fun p => p.node = c
    if s.anchorOf t ≠ s.lake.node ∨ parts.isEmpty then s
    else if (s.frameCarriers t spring n).all ready then s.sendCommit t spring frame n
    else if gone.any fun c => (s.mappedCarriers t spring n).contains c && !ready c then s.sendCommit t spring frame n
    else s

/-- A part is ready at the anchor. -/
def State.addPart (s : State) (p : LakePart) : State :=
  if s.lake.parts.any fun x => x.take = p.take && x.spring = p.spring && x.frame = p.frame && x.node = p.node then s
  else { s with lake := { s.lake with parts := s.lake.parts ++ [p] } }

/-- A carrier offers its part of a frame: to itself where it is the anchor, else by PART READY (R514). -/
def State.offerPart (s : State) (t : Take) (f : Frame) : State :=
  let a := s.anchorOf t
  let mark := fun (s : State) (k : Nat) => s.modTake t.nsid t.num fun t => { t with frames := t.frames.map fun x =>
    if x.spring = f.spring ∧ x.frame = f.frame then { x with offered := k } else x }
  if a = s.lake.node then
    ((mark s 2).addPart ⟨t.lakeTake, f.spring, f.frame, a, f.bandMask, s.time.now⟩).tryCommit t.lakeTake f.spring f.frame
  else
    (mark s 1).lakeSend a 0x40 (leBytes 8 t.lakeTake ++ [f.spring, 0, 0, 0] ++ leBytes 4 f.frame ++ leBytes 8 f.bandMask)

/-- After members have gone (R514, R515): the frames of which they carried a part that is not ready are committed; where the anchor is another now, every part
still awaiting commit is offered to it. `before` gives the anchors before. -/
def State.afterDrop (s before : State) : State :=
  let s1 := s.lakeTakes.foldl (fun s t =>
    if before.anchorOf t = s.anchorOf t then s
    else (t.frames.filter fun f => f.offered ≠ 0 && f.committed.isNone).foldl (fun s f => s.offerPart t f) s) s
  let keys := (s1.lake.parts.map fun p => (p.take, p.spring, p.frame)).eraseDups
  let present := fun (s : State) (n : Nat) => s.lake.members.contains n && (tget s.lake.peers n).isSome
  let gone := before.lake.members.filter fun n => !s.lake.members.contains n || (present before n && !present s n)
  keys.foldl (fun s k => s.tryCommit k.1 k.2.1 k.2.2 gone) s1

/-- FRAME_RECORD (R153, R514): a frame that is durable and settled enters the manifest; of a lake take, its part is offered to the
anchor. -/
def execFrameRecord (nsid take spring frame : Nat) (s : State) : Res :=
  match s.takeOf nsid take with
  | none => .next s
  | some t =>
    match t.frames.find? fun f => f.spring = spring && f.frame = frame with
    | none => .next s
    | some f =>
      if !(t.state = 1 || t.state = 4) ∨ !f.settled ∨ (t.lakeTake ≠ 0 ∧ f.offered ≠ 0) then .next s
      else if t.lakeTake = 0 then .next (s.recordFrame nsid take f (2 ^ 64 - 1)).settleRings
      else .next (s.offerPart t f).settleRings

/-- A part of a frame is ready at its node (R514). -/
def State.partHeard (s : State) (h : LakeHdr) (lakeTake spring frame bands : Nat) : State :=
  if s.lakeTakes.any fun t => t.lakeTake = lakeTake then
    ((s.addPart ⟨lakeTake, spring, frame, h.src, bands, s.time.now⟩).tryCommit lakeTake spring frame).settleRings
  else s

/-- PART_READY (R514): the anchor records the part; a repeat is only acknowledged. -/
def execPartReady (h : LakeHdr) (lakeTake spring frame bands : Nat) (s : State) : Res :=
  onMsg s h 0x40 0 fun s => s.partHeard h lakeTake spring frame bands

/-- FRAME_COMMIT (R514): a repeat finds the frame recorded and is only acknowledged. -/
def execFrameCommit (h : LakeHdr) (lakeTake spring frame bands : Nat) (s : State) : Res :=
  onMsg s h 0x41 0 fun s => (s.frameCommitted lakeTake spring frame bands).settleRings

/-- FRAME_COMMIT_TIMEOUT (R514), 0x900B ms after the first part was ready. -/
def execFrameCommitTimeout (lakeTake spring frame : Nat) (s : State) : Res :=
  match s.lakeTakes.find? fun t => t.lakeTake = lakeTake with
  | none => .next s
  | some t =>
    let parts := s.partsOf lakeTake spring frame
    if parts.isEmpty ∨ s.anchorOf t ≠ s.lake.node then .next s
    else if parts.all fun p => s.time.now < p.since + 1000000 * s.obj 0x900B 0 then .next s
    else .next (s.sendCommit t spring frame (t.bandsOf spring frame)).settleRings

/-! ### Loss and departure of a member (R502, R504) -/

/-- LAKE_HEARTBEAT (R500 to R505): the peer is recorded; a joiner that a leader lists becomes a member; two leaders merge; a member
follows its leader, and carriers that have left its member set are done with as lost. A joiner that hears its own node number notes it. -/
def execLakeHeartbeat (h : LakeHdr) (b : HeartbeatBody) (s : State) : Res :=
  let own := s.lake.state = 1 && h.src = s.lake.node && h.tagOk && h.lake = s.obj 0x9000 0 && s.lakeLane h.die h.lane
  let s0 : State := if own then { s with lake := { s.lake with peers := tset s.lake.peers h.src (peerOf s h b) } } else s
  onMsg s0 h 1 0 fun s => if s.inLake then ((s.heardHeartbeat h b).afterDrop s).settleRings else s.heardHeartbeat h b

/-- No heartbeat of a node has been heard for 0x900A heartbeat intervals; of one never heard, since the device joined (R502). -/
def State.nodeSilent (s : State) (node : Nat) : Bool :=
  ((tget s.lake.peers node).map (·.heard)).getD s.lake.joinedAt + s.obj 0x900A 0 * s.beatNs ≤ s.time.now

/-- NODE_LOST (R502, R514 to R516). -/
def execNodeLost (node : Nat) (s : State) : Res :=
  if (tget s.lake.peers node).isNone ∧ !s.lake.members.contains node ∨ node = s.lake.node then .next s
  else if !s.nodeSilent node then .next s
  else if s.inLake then .next ((s.dropNode node true).afterDrop s).settleRings
  else .next { s with lake := { s.lake with peers := tdel s.lake.peers node } }

/-- A node leaves (R504). -/
def State.peerLeaves (s : State) (h : LakeHdr) : State :=
  if s.inLake then ((s.dropNode h.src false).afterDrop s).settleRings
  else { s with lake := { s.lake with peers := tdel s.lake.peers h.src } }

/-- LEAVE (R504): the leaver is removed at once. -/
def execLeave (h : LakeHdr) (_cause : Nat) (s : State) : Res :=
  onMsg s h 4 0 fun s => s.peerLeaves h

/-! ### Sealing (R158) -/

/-- What waits for the last take to close is done: die resets and the package soft reset (R531, R532). -/
def State.settleResets (s : State) : State :=
  let s1 := s.waitingResets
  if s1.fault.softPending ≠ 0 ∧ !s1.anyOpenOrClosing then s1.softReset.startRom else s1

/-- TAKE_SEAL (R158): a closing take whose frames are done, or whose time is up, becomes closed and is sealed. -/
def execTakeSeal (nsid take : Nat) (s : State) : Res :=
  match s.takeOf nsid take with
  | none => .next s
  | some t =>
    if s.sealable t ∧ !s.fault.safeHold then .next ((s.sealTake nsid take).settleRings).settleResets
    else .next s

/-! ### Firmware activation without reset (R293, R504) -/

/-- The firmware of a slot is activated at once: controllers pause and the lake is left (R293). -/
def State.activateNow (s : State) (q : CmdRef) (slot : Nat) : State :=
  let all := s.host.ctrls.map (·.1)
  let s1 := all.foldl (fun s c => s.notice c 9 1 3) s
  let s2 := all.foldl (fun s c => s.modCtrl c fun c => { c with pp := true }) s1
  let s3 : State := { s2 with host := { s2.host with activating := some (q, slot, s.time.now) } }
  let s4 := (s3.started q).leaveLake 1
  { s4 with lake := { s4.lake with rejoin := s.inLake && s.obj 0x9002 2 = 1 } }

/-- FW_COMMIT_ACTIVATE_NOW (R292, R293, R504): fetching pauses on every controller, and a lake member leaves with cause 1. -/
def execFwCommitActivateNow (q : CmdRef) (slot : Nat) (s : State) : Res :=
  startCmd s q fun _ =>
    if isVf q.cntl then .next (s.failCmd q 0 1)
    else if slot = 0 ∨ 4 < slot then .next (s.refuseFw q 6)
    else if !s.slotValid slot then .next (s.refuseFw q 7)
    else if !s.activationAllowed ∨ s.host.activating.isSome then .next (s.refuseFw q 0x13)
    else
      .next (s.activateNow q slot)

/-- The image record of an activation (R489, R570): its header's fields; of an image that no download placed, the digests are free. -/
def State.activationRecord (s : State) (slot : Nat) : List Nat :=
  let at' := 0x100000 + 0xC00000 * (slot - 1)
  match s.fwSlot slot with
  | some f => bootRecord 3 slot f.secver f.revision (slice 80 48 f.bytes) at' (field f.bytes 28 4) (slice 32 48 f.bytes)
  | none => bootRecord 3 slot (s.freeValue % 2 ^ 32) (s.freeValue / 2 ^ 32) (leBytes 48 s.freeValue) at' (s.freeValue % 2 ^ 32)
      (leBytes 48 (s.freeValue / 2 ^ 64))

/-- The new firmware runs: its record is measured, and the command completes (R293, R570). -/
def State.activationEnds (s : State) (q : CmdRef) (slot pauseUs : Nat) : State :=
  let s1 := (s.host.ctrls.map (·.1)).foldl (fun s c => s.modCtrl c fun c => { c with pp := false }) s
  let s2 : State := { s1 with host := { s1.host with activating := none } }
  let s3 := (((s2.setObj 0x400D 1 slot).setObj 0x400D 2 slot).setObj 0x4010 0 pauseUs).bump 0x400F 1
  let s4 := (s3.extendBoot 6 1 (s3.activationRecord slot)).useFree
  let s5 := (if s4.fetched q then s4.succeed q 0 else s4).raise (evPkg 17) slot
  (if s.lake.rejoin then s5.startJoin else s5)

/-- Commands in flight have completed, but for the Firmware Commit itself, Asynchronous Event Requests and what a frozen SQ holds (R293 step 3). -/
def State.drained (s : State) (q : CmdRef) : Bool :=
  s.host.ctrls.all fun c => c.2.cmds.all fun m =>
    (⟨c.1, m.sqid, m.cid⟩ : CmdRef) = q || (m.sqid = 0 && c.2.aers.contains m.cid) || ((tget c.2.sqs m.sqid).map (·.frozen)).getD false

/-- FIRMWARE_ACTIVATION_RESUME (R293 steps 3 to 5): once the commands in flight have completed, and at most 400 ms after the pause began, the image
record goes into MS6, fetching resumes, Firmware Commit completes, EV P.17; a device that left its lake joins again by itself where 0x9002:02 is 1
(R504). -/
def execFirmwareActivationResume (pauseUs : Nat) (s : State) : Res :=
  match s.host.activating with
  | none => .next s
  | some (q, slot, _) =>
    if !s.drained q ∨ 400000 < pauseUs then .next s else .next (s.activationEnds q slot pauseUs)

end Sys2Proof.Machine
end

