-- ==== Sys2Proof/Machine/Swap.lean ====
section
/-!
DEFINITION. The swap of accepted commits at an epoch boundary (R51, R82 to R89): the fuse work of limited-change writes (R89 to
R91), the writes that wait (R37, R45, R96, R132, R257), and what each write does beside its new value.
-/

namespace Sys2Proof.Machine

/-! ### Limited-change fuses (R88 to R91) -/

/-- The counts that a limited-change object begins with (R88). -/
def limitOf (idx : Nat) : Nat :=
  if idx = 0x600A then 16 else if idx = 0x9000 then 4 else if idx = 0x2226 then 1 else if idx = 0x8001 then 8
  else if idx = 0x1801 then 64 else 2

/-- The ledger entry of a limited-change write (R90). -/
def State.ledgerEntry (s : State) (c : Commit) (w : Staged) : List Nat :=
  leBytes 6 c.boundary ++ leBytes 2 w.idx ++ [w.sub, limitOf w.idx - s.remaining w.idx w.sub + 1, c.cls, c.session / 2 ^ 24] ++ zeros 4 ++
    (sha256 w.bytes).take 16

/-- One count fuse is blown, the value and its ledger entry are stored, and MS7 is extended (R89, step 4). -/
def State.blowOne (s : State) (c : Commit) (w : Staged) : State :=
  let e := s.ledgerEntry c w
  let s1 := (s.spend w.idx w.sub).extend 7 2 e
  { s1 with dict := { s1.dict with ledger := s1.dict.ledger ++ [e], fuseStore := tset s1.dict.fuseStore (okey w.idx w.sub) w.bytes } }

/-- A commit that no longer applies: what its acceptance set aside for a take that it opens is released. -/
def State.withdraw (s : State) (c : Commit) : State :=
  let s1 : State := { s with dict := { s.dict with commits := s.dict.commits.filter fun x => x.ident ≠ c.ident } }
  if !opensTake c.writes then s1
  else (s1.take.takes.filter fun t => t.state = 5 && t.openEpoch = c.boundary).foldl (fun s t => s.releaseTake t) s1

/-- Fuse work done before another fuse of its commit failed, or power was lost: the count is consumed and the entry written, and the
stored value stays as it was (log entry 34). -/
def State.blowUnused (s : State) (c : Commit) (w : Staged) : State :=
  let t := s.blowOne c w
  { t with dict := { t.dict with fuseStore := s.dict.fuseStore } }

/-- The ledger entry of fuse work cut short by a power loss (R91): ordinal 0xFF and an all-zero digest. -/
def cutEntry (c : Commit) (w : Staged) : List Nat :=
  leBytes 6 c.boundary ++ leBytes 2 w.idx ++ [w.sub, 0xFF, c.cls, c.session / 2 ^ 24] ++ zeros 20

/-- The fuse work of a commit (R89, step 4). All of it done, its new values are stored. Where a fuse fails to blow, its count is consumed
and the commit rolls back with state 11. Where power is lost, the count is consumed, and bring-up writes the entry (R91). -/
def State.blowFuses (s : State) (c : Commit) (outcome : FuseOutcome) : State :=
  let ws := c.writes.filter s.fuses
  match outcome with
  | .blown =>
    let s1 := ws.foldl (fun s w => s.blowOne c w) s
    { s1 with dict := { s1.dict with commits := s1.dict.commits.map fun x => if x.ident = c.ident then { x with blown := true } else x } }
  | .failed n =>
    let s1 := (ws.take n).foldl (fun s w => s.blowUnused c w) s
    let s2 := (ws.drop n).head?.elim s1 fun w => s1.spend w.idx w.sub
    (s2.withdraw c).dropCommit c.session c.slot 11 c.writes.length
  | .cut n =>
    let s1 := (ws.take n).foldl (fun s w => s.blowUnused c w) s
    (ws.drop n).head?.elim s1 fun w =>
      let s2 := s1.spend w.idx w.sub
      { s2 with dict := { s2.dict with fuseCut := s2.dict.fuseCut ++ [cutEntry c w] } }

/-- LIMITED_CHANGE_FUSE_BLOW (R89): the fuse work of an accepted commit before its boundary. -/
def execLimitedChangeFuseBlow (commit : Nat) (outcome : FuseOutcome) (s : State) : Res :=
  match s.dict.commits.find? fun c => c.ident = commit && c.fuse && !c.blown with
  | some c => .next (s.blowFuses c outcome)
  | none => .next s

/-! ### What a write does beside its value -/

/-- A maintenance operation of a load is queued once its table's queue has room. -/
def State.loadMaint (s : State) (n : Nat) (op : MaintOp) : State :=
  let s1 := match s.table n with
    | some t => if 16 ≤ t.queue.length then s.drainTable n 16 else s
    | none => s
  match s1.table n with
  | some t => (s1.acceptMaint n t op).2
  | none => s1

/-- A 0x7007 load runs as maintenance operations of its table, in record order (R434). -/
def State.loadEntries (s : State) (b : List Nat) : State :=
  let n := field b 0 1
  match s.table n with
  | none => s
  | some t =>
    let s1 := if field b 1 1 = 1 then s.loadMaint n ⟨1, 0, 0, 0, none⟩ else s
    let w := t.keyBits / 8
    (List.range (field b 2 2)).foldl (fun s k =>
      let r := slice (4 + 192 * k) 192 b
      s.loadMaint n ⟨0, field r 0 w, field r 72 w, field r 144 8, none⟩) s1

/-- The header of every capture namespace is rewritten (R161). -/
def State.writeHeaders (s : State) : State :=
  (s.host.nss.filter fun n => n.2.kind = 1).foldl (fun s n => s.writeHeader n.1) s

/-- The close or delete that a commit's 0x2220:01 asks for is made, and 0x2220:01 reads 0 (R137, R139, R141). -/
def State.takeCommand (s : State) : State :=
  let num := s.obj 0x2220 2
  let s1 :=
    if s.obj 0x2220 1 = 2 then
      match s.namedTake num fun t => t.state = 1 with
      | some t => s.applyClose t.nsid t.num 0
      | none => s
    else if s.obj 0x2220 1 = 3 then s.applyDelete num
    else s
  s1.setObj 0x2220 1 0

/-- The band-end timeout changes from this epoch on: frames of earlier epochs keep theirs (R54). -/
def State.noteLimit (s : State) (old new : Nat) : State :=
  let was := if s.time.bandLimits.isEmpty then [(wrap48 (s.epoch + 2 ^ 47 + 1), old)] else s.time.bandLimits
  { s with time := { s.time with bandLimits := ((s.epoch, new) :: was).take 64 } }

/-- A changed dirty limit holds at once: dies with more staged data place it (R239). -/
def State.limitChanged (s : State) : State :=
  s.dies.foldl (fun s d =>
    let t := s.reportStaged d
    if t.dirtyLimit d < t.stagedBytes d then t.drainDie d else t) s

/-- What the written values of a commit do, in the order of their objects; `before` is the state before the commit's values. -/
def State.swapEffect (s before : State) (c : Commit) (w : Staged) : State :=
  let v := ofLe w.bytes
  if w.idx = 0x2101 then s.noteLimit (before.obj 0x2101 0) v
  else if w.idx = 0x1801 then (if before.obj 0x1801 0 < v then s.raise (evPkg 47) v else s)
  else if w.idx = 0x2226 then (if before.obj 0x2226 0 ≠ v then s.writeHeaders else s)
  else if w.idx = 0x2220 ∧ w.sub = 1 then s.takeCommand
  else if w.idx = 0x3000 then (if before.obj 0x3000 0 ≠ v then s.beginConvert else s)
  else if w.idx = 0x3007 then s.limitChanged
  else if w.idx = 0x3011 then s.dies.foldl State.reportReserve s
  else if w.idx = 0x3012 then s.dies.foldl (fun s d => if s.healthy d then s.checkWorn d else s) s
  else if w.idx = 0x3013 then s.dies.foldl (fun s d => if s.healthy d then s.checkSpare before d else s) s
  else if w.idx = 0x3401 then (if before.obj 0x3401 0 ≠ s.obj 0x3401 0 then s.recap else s)
  else if w.idx = 0x3402 then s.setObj 0x3403 2 (if w.bytes = [] then 0 else Config.profileCount w.bytes % 65536)
  else if w.idx = 0x4103 then s.applyShares w.bytes
  else if w.idx = 0x5008 then s.setAttachments w.bytes
  else if w.idx = 0x6005 then s.loadBlobs 32 w.bytes
  else if w.idx = 0x6403 then s.loadKeyStates w.bytes
  else if w.idx = 0x7002 ∧ w.sub = 1 then (if s.obj 0x7002 3 = 3 then s.setRing 2 else s)
  else if w.idx = 0x7002 ∧ w.sub = 2 then
    (if v = 1 then s.setRing 0 else if before.obj 0x7002 2 = 1 then s.setRing 2 else s)
  else if w.idx = 0x7007 then s.loadEntries w.bytes
  else if w.idx = 0x9002 ∧ w.sub = 1 then (if v = 1 then s.startJoin else if v = 2 then s.startLeave else s)
  else if w.idx = 0x900F ∧ c.session / 2 ^ 24 = 4 then s.setLevel v
  else s

/-- A production slot takes its new value, unless it already holds it (R89, R445). -/
def State.swapProduction (s : State) (w : Staged) : State :=
  if (s.production (w.sub - 1)).map (·.2) = some w.bytes then s else s.rotateProduction (w.sub - 1) w.bytes

/-! ### Writes that wait -/

/-- A take is open or closing on a spring. -/
def State.springBusy (s : State) (sp : Nat) : Bool :=
  s.take.takes.any fun t => (t.state = 1 || t.state = 4) && t.springs.any fun p => p.spring = sp

/-- The write waits for takes to close: a spring definition (R132), or a lane that a take uses (R96). -/
def State.heldBack (s : State) (w : Staged) : Bool :=
  (0x2200 ≤ w.idx && w.idx < 0x2220 && s.springBusy (w.idx - 0x2200)) || s.laneBusy w.idx w.sub (ofLe w.bytes)

/-- The write is of an instance on a die that is excluded from swaps (R37). -/
def State.onExcluded (s : State) (w : Staged) : Bool :=
  match findRow s.cfg.dies w.idx w.sub with
  | some r => r.perDie && (s.clock (w.idx % 8)).excluded
  | none => false

/-- A write is held until its spring's take or its lane's take closes. -/
def State.holdDef (s : State) (session : Nat) (w : Staged) : State :=
  let k := okey w.idx w.sub
  { s with take := { s.take with heldDefs := (s.take.heldDefs.filter fun h => h.1 ≠ k) ++ [(k, ofLe w.bytes, session, w.adj)] } }

/-- A time-base or channel-cap write is held until the last take closes (R45, R257). -/
def State.holdTb (s : State) (w : Staged) : State :=
  let k := okey w.idx w.sub
  { s with time := { s.time with tbWrites := (s.time.tbWrites.filter fun h => h.1 ≠ k) ++ [(k, ofLe w.bytes)] } }

/-- A write that takes must be over for waits: the rate cap of the flash channels while one is open or closing, a time-base write while one is open (R45, R257). -/
def State.takesHold (s : State) (idx sub : Nat) : Bool :=
  waitsForTakes idx sub && (if idx = 0x3401 then s.anyOpenOrClosing else s.anyOpen)

/-- The held writes whose takes have closed become active. -/
def State.releaseHeld (s : State) : State :=
  let (stay, due) := s.take.heldDefs.partition fun h =>
    s.heldBack ⟨h.1 / 256, h.1 % 256, leBytes 8 h.2.1, false, []⟩
  let s1 := due.foldl (fun s h => s.setObj (h.1 / 256) (h.1 % 256) h.2.1) { s with take := { s.take with heldDefs := stay } }
  let (wait, free) := s1.time.tbWrites.partition fun h => s1.takesHold (h.1 / 256) (h.1 % 256)
  let s2 := free.foldl (fun s h => s.setObj (h.1 / 256) (h.1 % 256) h.2) s1
  let s3 : State := { s2 with time := { s2.time with tbWrites := wait } }
  if s3.obj 0x3401 0 = s.obj 0x3401 0 then s3 else s3.recap

/-! ### The swap of one commit -/

/-- One write of a commit takes its place: it becomes active, or waits. A time-base write whose boundary falls inside a take waits for the
take to close, whether or not a take was open when it was accepted (R45, log entry 163). -/
def State.swapValue (s : State) (c : Commit) (w : Staged) : State :=
  if s.takesHold w.idx w.sub then s.holdTb w
  else if s.heldBack w then s.holdDef c.session w
  else if w.idx = 0x600A then s.swapProduction w
  else if w.idx = 0x5008 then s
  else s.putSetting w

/-- The take command comes after the commit's other writes. -/
def commandLast (ws : List Staged) : List Staged :=
  let last := fun (w : Staged) => (w.idx = 0x2220 || w.idx = 0x9002) && w.sub = 1
  (ws.filter fun w => !last w) ++ ws.filter last

/-- A commit swaps: its values together, then what they do (R51). The part of an excluded die waits one epoch more (R37). -/
def State.swapCommit (s : State) (c : Commit) : State :=
  let late := if c.ident = 0 then [] else c.writes.filter s.onExcluded
  let now := commandLast (c.writes.filter fun w => !late.contains w)
  let rest : Commit := { c with ident := 0, slot := 0, writes := late, boundary := wrap48 (s.epoch + 1), fuse := false, blown := true }
  let s1 : State := if late.isEmpty then s else { s with dict := { s.dict with commits := rest :: s.dict.commits } }
  let s2 := now.foldl (fun t w => t.swapValue c w) s1
  now.foldl (fun t w => t.swapEffect s c w) s2

/-- The fuse work of a due commit that has not been reported is done at its boundary, and fails without FUSE_VPP. -/
def State.settleFuses (s : State) (c : Commit) : State :=
  if c.fuse && !c.blown then s.blowFuses c (if s.pins.fuseVpp then .blown else .failed 0) else s

/-- The commits due at this boundary swap in the order of their acceptance. Answers those that applied. -/
def State.swapAll (s : State) : State × List Commit :=
  let due := s.dict.commits.filter fun c => atOrAhead s.epoch c.boundary
  let s1 := due.foldl State.settleFuses s
  let ready := s1.dict.commits.filter fun c => atOrAhead s1.epoch c.boundary
  let s2 : State := { s1 with dict := { s1.dict with commits := s1.dict.commits.filter fun c => !atOrAhead s1.epoch c.boundary } }
  (ready.foldl State.swapCommit s2, ready.filter fun c => c.ident ≠ 0)

/-- The state of a commit that has applied, by R85: 4 late, 5 with unassigned functions, 3. -/
def State.reportCommit (s : State) (c : Commit) : State :=
  let code := if c.late then 4 else if configuredBy c.writes s.dict.unassignedNow = [] then 3 else 5
  let s1 := (s.endCommit c.session c.slot code).logCommit c.slot code s.epoch c.writes.length
  if c.late then s1.bump 0x1F11 4 else s1

end Sys2Proof.Machine
end

