-- ==== Sys2Proof/Machine/Boundary.lean ====
section
/-!
DEFINITION. The phase counter and the epoch boundary (R34 to R58, R85, R604, and what every chapter does at a boundary).
-/

namespace Sys2Proof.Machine

/-! ### The phase counter (R34) -/

/-- The state with a die's clock set. -/
def State.setClock (s : State) (d : Nat) (c : DieClock) : State :=
  { s with time := { s.time with clocks := tset s.time.clocks d c } }

/-- One phase unit of a die passes (R34, R35); the device's time follows the lead's counter. -/
def State.advancePhase (s : State) (die : Nat) (c : DieClock) : State :=
  let s1 := s.setClock die { c with phase := c.phase + 1, acc := s.accAfter c 1 }
  if die = s.fault.lead then { s1 with time := { s1.time with now := s.time.now + s.ticksFor c 1 } } else s1

/-- PHASE_ADVANCE (R34): the accumulator's next overflow advances the phase by one unit; from 65,535 the next overflow is an
epoch boundary. The lead's counter carries the package's time. -/
def execPhaseAdvance (die : Nat) (s : State) : Res :=
  onDie s die fun _ =>
    let c := s.clock die
    if s.boot.porst ∨ 65535 ≤ c.phase then .next s
    else
      .next (s.advancePhase die c).releaseInterrupts

/-! ### Sources at a boundary (R38, R42 to R44) -/

/-- The nearest whole number to a fraction. -/
def nearest (a b : Int) : Int := (2 * a + b) / (2 * b)

/-- The number of epochs of 0x1102 that PTP time counts at an instant of the counter, rounded to the nearest (R44). -/
def State.ptpCount (s : State) (at' : Nat) : Int :=
  let v := s.obj 0x1102 0
  nearest (((at' : Int) + s.time.ptp.aheadNs) * ratNum v) ((ratDen v : Int) * 1000000000)

/-- How far an instant of the counter lies after the nearest boundary of a source, in ns. -/
def State.errorAt (s : State) (k at' : Nat) : Int :=
  if k = 5 then 0
  else if k = 3 then
    let v := s.obj 0x1102 0
    (at' : Int) + s.time.ptp.aheadNs - s.ptpCount at' * ratDen v * 1000000000 / ratNum v
  else
    let p := s.sourcePeriod k
    let m := ((at' : Int) - (s.source k).last) % p
    if 2 * m ≤ p then m else m - p

/-- The PTP boundaries that have passed reach source 3, at most so many (R38). -/
def State.deliverPtp : Nat → State → State
  | 0, s => s
  | n + 1, s =>
    if !s.time.ptp.haveTime ∨ s.obj 0x1130 3 = 0 then s
    else
      let x := s.source 3
      let from' := (if x.seen then x.last else s.time.epochStart) + s.nominalNs / 2
      let v := s.obj 0x1102 0
      let k := ((from' : Int) + s.time.ptp.aheadNs) * ratNum v / ((ratDen v : Int) * 1000000000) + 1
      let at' := (k * ratDen v * 1000000000 / ratNum v - s.time.ptp.aheadNs).toNat
      if s.time.now < at' then s else State.deliverPtp n (s.sourceBoundary 3 at' true)

/-- The counter follows its active source. -/
def State.tracking (s : State) : Bool := s.time.following && s.isQualified s.time.active

/-- The phase error of the boundary, and the count of boundaries inside the lock window 0x1106 (R42, R43). -/
def State.measureLock (s : State) : State :=
  if s.time.adopting.isSome ∨ !s.tracking then { s with time := { s.time with lockCount := 0 } }
  else
    let e := s.errorAt s.time.active s.time.now
    let n := if e.natAbs ≤ s.obj 0x1106 0 then s.time.lockCount + 1 else 0
    let s1 : State := { s with time := { s.time with phaseErr := e, lockCount := n } }
    if s.time.state ≠ 1 ∧ 8 ≤ n then ({ s1 with time := { s1.time with lockCount := 0 } }).enterTime 1 else s1

/-! ### The epoch number (R34, R44) -/

/-- An epoch number held by something that waits is moved with a re-base. -/
def shiftEpoch (delta e : Nat) : Nat := wrap48 (e + delta)

/-- What waits for a boundary keeps its instant across a re-base (R44). -/
def State.renumber (s : State) (delta : Nat) : State :=
  let f := shiftEpoch delta
  { s with
    dict := { s.dict with
      commits := s.dict.commits.map fun c => { c with boundary := f c.boundary, accEpoch := f c.accEpoch }
      slots := s.dict.slots.map fun x => (x.1, if x.2.state = 2 then { x.2 with target := f x.2.target, accEpoch := f x.2.accEpoch } else x.2) }
    time := { s.time with bandLimits := s.time.bandLimits.map fun e => (f e.1, e.2) }
    pond := { s.pond with audits := s.pond.audits.map fun e => (e.1, f e.2) }
    take := { s.take with
      takes := s.take.takes.map fun t => if t.state = 5 then { t with openEpoch := f t.openEpoch } else t
      closing := s.take.closing.map fun c => (c.1, c.2.1, c.2.2.1, f c.2.2.2) }
    host := { s.host with ctrls := s.host.ctrls.map fun c =>
      (c.1, { c.2 with pendingVq := c.2.pendingVq.map fun v => (f v.1, v.2.1, v.2.2) }) } }

/-- Every die's counter starts the epoch: phase 0, the same number, and the accumulator's remainder. -/
def State.startClocks (s : State) (epoch acc : Nat) : State :=
  { s with time := { s.time with clocks := s.time.clocks.map fun c =>
      (c.1, { c.2 with phase := 0, epoch := epoch, acc := acc, slewPs := 0 }) } }

/-- The epoch number is set from PTP outside takes once PTP has become the active source, with EV P.03 (R44). -/
def State.rebase (s : State) : State :=
  if s.time.rebasePending ∧ s.time.active = 3 ∧ !s.anyOpen ∧ s.time.ptp.haveTime then
    let n := (s.ptpCount s.time.now % 2 ^ 48).toNat
    let clocks := s.time.clocks.map fun c => (c.1, { c.2 with epoch := n })
    (({ s with time := { s.time with clocks := clocks, rebasePending := false } } : State).renumber (aheadOf n s.epoch)).raise (evPkg 3) n
  else s

/-- The adoption that this boundary completes (R43): the lengthened epoch has ended, a take is open, or the source is the
free-running one. The epoch number is re-based before the change is recorded. -/
def State.finishAdoption (s : State) : State :=
  let s1 := match s.time.adopting with
    | some k => if s.time.lengthened ∨ s.anyOpen ∨ k = 5 then (s.setActive k).rebase.tellActive s.time.active else s
    | none => s
  { s1 with time := { s1.time with lengthened := false, stretch := 0 } }

/-! ### Die offsets (R37) -/

/-- A die's offset record after a measurement. -/
def DieClock.measured (c : DieClock) (ps : Int) : DieClock :=
  if 8000 < ps.natAbs then
    { c with offsetPs := ps, overEpochs := c.overEpochs + 1, withinEpochs := 0, excluded := c.excluded || 2 ≤ c.overEpochs + 1 }
  else
    { c with offsetPs := ps, overEpochs := 0, withinEpochs := c.withinEpochs + 1, excluded := c.excluded && c.withinEpochs + 1 < 16 }

/-- The lead measures each die's offset and slews that die's counter to remove it by the next boundary: over 8 ns for two epochs excludes
the die from swaps until it has been within bound for 16 epochs, with EV P.05 as it becomes excluded (log entry 12). -/
def State.correctOffset (s : State) (d : Nat) (ps : Int) : State :=
  if d = s.fault.lead ∨ !s.healthy d then s
  else
    let c := { DieClock.measured (s.clock d) ps with slewPs := ps }
    let s1 := (s.setClock d c).setObj (0x1180 + d) 0 (twos 32 ps)
    if c.excluded ∧ !(s.clock d).excluded then s1.raise (evPkg 5) d else s1

/-- Every die's offset is measured, and 0x1110:06 shows the dies excluded. -/
def State.correctOffsets (s : State) (ps : List Int) : State :=
  let s1 := s.dies.foldl (fun s d => s.correctOffset d (ps.getD d 0)) s
  s1.setObj 0x1110 6 (ofBits (s1.dies.filter fun d => (s1.clock d).excluded))

/-! ### The swap and the fit (R51, R85, R604) -/

/-- A session whose class the boundary changes rolls its open transaction back (R604). -/
def State.changeClasses (s before : State) : State :=
  s.dict.sessions.foldl (fun s x =>
    let path := x.1 / 2 ^ 24
    let who := x.1 % 2 ^ 24
    if s.classOf path who ≠ before.classOf path who then s.rollBack x.1 9 else s) s

/-- Lanes, inflow ports and host ports follow their settings (R95, R96, R268, R271). -/
def State.formAll (s before : State) : State :=
  s.dies.foldl (fun s d =>
    let s1 := (s.formDie d (before.portsOf d)).formLanes d (before.laneMode d) (s.time.now + 1000000)
    let moved := s1.portFormed d ≠ before.portFormed d || s1.obj (0x4040 + d) 0 ≠ before.obj (0x4040 + d) 0
    let s2 := if moved then (s1.hostPortDown d).holdDown d else s1
    let s3 : State := if s2.portFormed d then s2
      else ({ s2 with host := { s2.host with ctrls := s2.host.ctrls.filter fun c => portOf c.1 ≠ d, numVfs := tdel s2.host.numVfs d } }).setObj (0x4140 + d) 1 0
    s3.formPf d) s

/-- The boundary's fit alone decides which functions hold their resources; a lane that a take keeps from its new mode is listed
among the unassigned (R85, R96). -/
def State.boundaryFit (s : State) (ws : List Staged) : State :=
  let r := s.fitAll ws
  { r.1 with dict := { r.1.dict with unassignedNow := (s.keptLanes []).foldl insertFn r.2 } }

/-- Held writes, accepted commits, what they form, the fit, and the reservations that are loaded into the pools as fitted (R45, R51, R85,
R132, R182, R604, R606). -/
def State.swap (s : State) : State :=
  let r := s.releaseHeld.swapAll
  let s1 := ((r.2.flatMap (·.writes)).foldl State.rejudge r.1).rehold
  let s2 := (s1.formAll s).changeClasses s
  let ws := r.2.flatMap (·.writes)
  let s3 := (ws.filter fun w => w.idx = 0x5203).foldl (fun s w => s.loadReservations w.bytes) (s2.boundaryFit ws)
  r.2.foldl State.reportCommit s3

/-! ### Media at a boundary (R144, R227) -/

/-- Rank 1 or 2 work was still pending at the end of an epoch's budget in a take (R227). -/
def State.seepLate (s : State) (d : Nat) : Bool :=
  let m := s.md d
  s.anyOpen && s.bgLimit d ≤ s.obj (0x3190 + d) 2 && ((m.bg.any fun w => w.rank ≤ 2) || m.later.any fun o => o.kind.rank ≤ 2)

/-- A die's media manager at a boundary: EV d.059 for rank 1 or 2 work still pending in the epoch that ends, the new budget (what the host wrote beyond its
share in a take, and the part of the last background operation that the old budget did not cover, count against the next), the end of a conversion, and the work
that the reserve and wear ask for (R218, R226, R227, R229). -/
def State.mediaBoundary (before s : State) (d : Nat) : State :=
  if !s.healthy d then s
  else
    let s1 := if before.seepLate d then s.raise (evDie d 59) 0 else s
    let m := s1.md d
    let beyond := if s1.takesDraw then m.hostBytes - s1.hostShare d else 0
    let s2 := s1.setMd d { m with hostPrev := m.hostBytes, hostBytes := beyond, heldBack := false }
    let overdraft := s.obj (0x3190 + d) 2 - s.obj (0x3190 + d) 1
    let s3 := (s2.setObj (0x3190 + d) 1 (s2.seepBudget d)).setObj (0x3190 + d) 2 overdraft
    ((s3.checkConvert d).fillReserve d).levelWear d

/-! ### The rate of the coming epoch (R35, R43, R55) -/

/-- The state with the rate of the coming epoch. -/
def State.setRate (s : State) (n d : Nat) (ppb : Int) (stretch : Nat) (lengthened : Bool) : State :=
  { s with time := { s.time with rateN := n, rateD := d, ppb := clampInt (-200000) 200000 ppb, stretch := stretch, lengthened := lengthened } }

/-- The rate offset, in ppb, that makes a nominal period last so many ns. -/
def rateOffset (nominal want : Int) : Int := (nominal - want) * 1000000000 / (if want < 1 then 1 else want)

/-- The period that the counter is to keep: its source's less the phase error, the one last measured in Holdover and Free, or the
free-running period (R42, R43). -/
def State.wantedPeriod (s : State) : Int :=
  let k := s.time.active
  if k ≠ 5 ∧ s.tracking then (s.sourcePeriod k : Int) - s.errorAt k s.time.now
  else
    match s.time.heldNs with
    | some h => if k ≠ 5 ∧ (s.time.state = 2 ∨ s.time.state = 3) then h else (s.obj 0x1103 0 * 1000 : Nat)
    | none => (s.obj 0x1103 0 * 1000 : Nat)

/-- The coming epoch outside takes: lengthened to end on the source being adopted; at the free-running period, on which source 5 marks its boundaries; or within 200 ppm of the
nominal rate (R42, R43). -/
def State.planFree (s : State) : State :=
  let n := ratNum (s.obj 0x1102 0)
  let d := ratDen (s.obj 0x1102 0)
  match s.time.adopting with
  | some k =>
    if k = 5 then s.setRate 1000000 (max 1 (s.obj 0x1103 0)) 0 0 true else
    let e := s.errorAt k (s.time.now + s.nominalNs)
    s.setRate n d 0 (if e ≤ 0 then (-e).toNat else (s.sourcePeriod k - e).toNat) true
  | none =>
    if s.time.active = 5 ∨ (!s.tracking ∧ (s.time.heldNs.isNone ∨ s.time.state < 2)) then
      s.setRate 1000000 (max 1 (s.obj 0x1103 0)) 0 0 false
    else s.setRate n d (rateOffset s.nominalNs s.wantedPeriod) 0 false

/-- The coming epoch (R43): while a take is open no epoch is stepped; a source being adopted becomes active at once, and the rate in use
is slewed by at most 200 ppm. -/
def State.planEpoch (s : State) : State :=
  if s.anyOpen then
    let s1 := match s.time.adopting with
      | some k => s.becomeActive k
      | none => s
    s1.setRate s.time.rateN s.time.rateD (rateOffset s.periodNs s1.wantedPeriod) 0 false
  else s.planFree

/-- The accumulators keep their fraction when the rate's terms change. -/
def State.scaleAcc (s : State) (was : Nat) : State :=
  let now := s.rateNow.2
  if now = was then s
  else { s with time := { s.time with clocks := s.time.clocks.map fun c => (c.1, { c.2 with acc := c.2.acc * now / max 1 was }) } }

/-! ### The boundary -/

/-- The instant of the boundary is reached: real time, the epoch's start and measured period; device time, which counts from first format, advances by the
period (R122, R219). -/
def State.reachBoundary (s : State) : State :=
  let at' := s.nextBoundary
  let period := (at' - s.time.epochStart) * 1000
  let formatted := s.dies.any fun d => (s.md d).population.isSome
  { s with
    time := { s.time with now := at', epochStart := at', period := period }
    media := { s.media with devTimePs := s.media.devTimePs + if formatted then period else 0 }
    fault := { s.fault with onceKeys := [], msixThisEpoch := [], corrected := [] } }

/-- The device timecode of the epoch that begins is kept for the frames of takes (R56). -/
def State.logTimecode (s : State) : State :=
  if s.take.takes.any fun t => t.state = 1 || t.state = 4 || t.state = 5 then
    { s with time := { s.time with tcLog := tset s.time.tcLog s.epoch s.time.timecode } }
  else { s with time := { s.time with tcLog := [] } }

/-- The time base at the boundary: the epoch number counts on, then sources, adoption, a re-base and the lock count. -/
def State.timeBoundary (s : State) (acc : Nat) : State :=
  let s1 := State.deliverPtp 16 (s.startClocks (wrap48 (s.epoch + 1)) acc)
  ((s1.finishAdoption.selectSource.rebase.measureLock).updateTimecode).logTimecode

/-- Takes at the boundary: those that close, and those that open with their filters (R138, R139, R150, R391). -/
def State.takeBoundary (s : State) : State :=
  let s1 := s.applyClosings.applyOpens.endFilters
  match s1.comp.heldAttach with
  | some want => s1.setAttachments want
  | none => s1

/-- The lead's margins follow flash units that failed since they were computed (R144). -/
def State.followFaults (s : State) : State :=
  if s.take.faulted then ({ s with take := { s.take with faulted := false } } : State).recomputeMargins else s

/-- Power at the boundary (R557 to R560). -/
def State.powerBoundary (s : State) : State := (s.applyGovernor.enforce).announce

/-- The functions' queues and tasks at the boundary: virtual queues, held programs, near-data input, busy counts. -/
def State.hostBoundary (s : State) (epochNs : Nat) : State :=
  let s1 := s.applyVqs.startHeld
  let s2' := s1.dies.foldl State.feedDie s1
  let busy := s2'.host.ctrls.any fun c => c.2.cmds.any fun m => m.sqid ≠ 0
  let s2 := (if busy then s2'.noteBusy else s2').addSmart 5 epochNs
  (s2.dies.foldl (fun s d => s.chargeDie d epochNs) s2).searchBoundary epochNs

/-- Everything that happens at an epoch boundary, in the order in which one effect can see another. -/
def State.crossBoundary (s : State) (offsetsPs : List Int) : State :=
  let c := s.clock s.fault.lead
  let acc := s.accAfter c (65536 - c.phase)
  let was := s.rateNow.2
  let s1 := (s.reachBoundary.timeBoundary acc).correctOffsets offsetsPs
  let s2 := s1.swap.takeBoundary
  let s3 := (s2.followFaults.boundaryDuration s).makeStepDowns
  let s4 := (s3.dies.foldl (State.mediaBoundary s) s3).retryStalled.retryWaiting
  let s5 := (s4.powerBoundary.hostBoundary (s1.time.now - s.time.epochStart)).endLxns
  (((s5.planEpoch).scaleAcc was).sendTimes).settleResets

/-- EPOCH_BOUNDARY (R34): the phase wraps, the epoch number counts on or is re-based, settings swap, and every scheduled
transition of the boundary is made. The operand gives each die's measured phase offset in ps (R37). -/
def execEpochBoundary (offsetsPs : List Int) (s : State) : Res :=
  if s.boot.porst then .next s
  else
    .next (s.crossBoundary offsetsPs)

end Sys2Proof.Machine
end

