-- ==== Sys2Proof/Machine/SelkelCop.lean ====
section
/-!
DEFINITION. The search and pond coprocessor rows of the instruction set, and coprocessor 3 (R363, R365, R367, R431 to R435).
-/

namespace Sys2Proof.Machine

/-- A free value of n bits, the k-th one from here. -/
def Ctx.free (c : Ctx) (k n : Nat) : Nat := Config.free (c.s.freeCtr + k) % 2 ^ n

/-- The state after three free values were used. -/
def State.useFree3 (s : State) : State := s.useFree.useFree.useFree

/-! ### Search (R365, R431 to R435) -/

/-- An answer of the search coprocessor that names no result: D and SRCHCNT, where the operation writes them, are free. -/
def Ctx.searchFails (c : Ctx) (status : Nat) (dest count : Bool) : Act :=
  c.answer c.s.useFree3 0x3C status (if dest then some (c.free 0 32) else none) (if count then [wr rCnt (c.free 1 32) 2] else [])

/-- A search: STATUS 1 no table, 2 wrong width, 5 unreliable (R435); while a search unit wakes the instruction waits (R548). -/
def Ctx.searchKey (c : Ctx) (width key : Nat) : Act :=
  match c.s.table (c.tv % 256) with
  | none => c.searchFails 1 true true
  | some t =>
    if t.state = 3 ∨ t.state = 0 then c.searchFails 1 true true
    else if t.width ≠ width then c.searchFails 2 true true
    else if !((c.s.dies.filter c.s.healthy).all fun d => c.s.usable d 3) then .done { c.plain with next := c.t.pc }
    else
      let (status, found, count, s1) := ((c.s.bump 0x7008 1).bump 0x7008 5).searchPackage t key
      if status ≠ 0 then { c with s := s1 }.searchFails status true true
      else c.answer s1 0x3C 0 (some (found.getD (2 ^ 31))) [wr rCnt count 2]

/-- The record at an address that is a multiple of 64 (R434): a misaligned, unmapped or poisoned one traps. -/
def Ctx.withRecord (c : Ctx) (a : Nat) (f : Place → List Nat → Act) : Act :=
  if a % 64 ≠ 0 then .trap 3 a
  else
    match c.s.place c.die c.slot c.t a 192 with
    | none => .trap 4 a
    | some p => if c.s.placePoisoned p 192 then .trap 0x0A a else f p (c.s.placeRead c.t p 192)

/-- VALUE, MASK and associated-data word of a record for a table. -/
def recordKey (t : STable) (b : List Nat) : Nat × Nat × Nat :=
  (ofLe (b.take (18 * t.span)), ofLe ((b.drop 72).take (18 * t.span)), field b 144 8)

/-- The table that a maintenance operation names, or the status that refuses it. -/
def Ctx.maintTable (c : Ctx) (n : Nat) (f : STable → Act) (refuse : Nat → Act) : Act :=
  match c.s.table n with
  | none => refuse 1
  | some t =>
    if t.state = 3 ∨ t.state = 0 then refuse 1
    else if !bitOf t.access 2 then refuse 7
    else f t

/-- A maintenance operation is refused with a status, which 0x700B records. -/
def Ctx.refuse (c : Ctx) (n addr : Nat) (dest : Bool) (status : Nat) : Act :=
  { c with s := c.s.refuseSearch n status addr }.searchFails status dest false

/-- The flag that a table operand names: [13] 1 to post it, [12:8] its number (R433). -/
def Ctx.postFlag (c : Ctx) : Option (Nat × Nat × Nat) :=
  if bitOf c.tv 13 then some (c.die, c.slot, c.tv / 256 % 32) else none

/-- SINS and SPUT: the insertion is accepted into the table's queue, or refused. -/
def Ctx.insertRecord (c : Ctx) : Act :=
  c.withRecord c.sv fun _ b =>
    let n := c.tv % 256
    c.maintTable n (fun t =>
      let (v, m, d) := recordKey t b
      let r := c.s.acceptMaint n t ⟨0, v, m, d, c.postFlag⟩
      c.answer r.2 0x3C r.1 none []) (c.refuse n 0 false)

/-- SCLR: the clear is accepted into the table's queue, or refused. -/
def Ctx.clearTable (c : Ctx) : Act :=
  let n := c.tv % 256
  c.maintTable n (fun t =>
    let r := c.s.acceptMaint n t ⟨1, 0, 0, 0, c.postFlag⟩
    c.answer r.2 0x3C r.1 none []) (c.refuse n 0 false)

/-- SWR, SDEL and SRD run once everything queued before them has executed, a write never into a changing table (R416); `f` receives the table's number, the table,
the place, its entry and the state then. -/
def Ctx.atEntry (c : Ctx) (addr : Nat) (writes dest : Bool) (f : Nat → STable → Nat → Option SRow → State → Act) : Act :=
  match c.s.placeOf addr with
  | none => c.refuse 0 addr dest 4
  | some (n, t0, k) =>
    c.maintTable n (fun t =>
      if (writes ∧ t.state = 2) ∨ 16 ≤ t0.queue.length then c.refuse n addr dest 6
      else
        let s1 := c.s.drainTable n 16
        let t1 := (s1.table n).getD t
        f n t1 k (s1.entryAt t1 k) s1) (c.refuse n addr dest)

/-- SWR. -/
def Ctx.writeRecord (c : Ctx) : Act :=
  c.withRecord c.sv fun _ b =>
    c.atEntry (c.tv % 2 ^ 20) true false fun n t k e s1 =>
      let (v, m, d) := recordKey t b
      let c1 := { c with s := s1 }
      match e with
      | some x =>
        if x.value = Nat.land v m ∧ x.mask = m then
          c1.answer (s1.writeEntry t k (some { x with data := (SRow.make v m d).data })) 0x3C 0 none []
        else c1.refuse n (c.tv % 2 ^ 20) false 8
      | none =>
        if t.order = 1 ∧ !s1.orderOk t k (d / 2 ^ 56) then c1.refuse n (c.tv % 2 ^ 20) false 9
        else c1.answer (s1.writeEntry t k (some (SRow.make v m d))) 0x3C 0 none []

/-- SDEL. -/
def Ctx.deleteRecord (c : Ctx) : Act :=
  c.withRecord c.sv fun _ b =>
    c.atEntry (c.tv % 2 ^ 20) false false fun n t k e s1 =>
      let (v, m, _) := recordKey t b
      let c1 := { c with s := s1 }
      match e with
      | some x =>
        if x.value = Nat.land v m ∧ x.mask = m then c1.answer (s1.writeEntry t k none) 0x3C 0 none []
        else c1.refuse n (c.tv % 2 ^ 20) false 8
      | none => c1.refuse n (c.tv % 2 ^ 20) false 8

/-- The bytes of a record (R434). -/
def recordBytes (t : STable) (v m d : Nat) : List Nat :=
  fit 72 (leBytes (18 * t.span) v) ++ fit 72 (leBytes (18 * t.span) m) ++ leBytes 8 d ++ zeros 40

/-- SRD: D is 1 for a valid entry, else 0; the fields of a record without a valid entry are free. -/
def Ctx.readRecord (c : Ctx) : Act :=
  let a := c.tv
  if a % 64 ≠ 0 then .trap 3 a
  else
    let dest := match c.s.place c.die c.slot c.t a 192 with
      | some (.seg m) => some m
      | some (.pond m) => some m
      | _ => none
    match dest with
    | none => .trap 4 a
    | some m =>
      c.atEntry (c.sv % 2 ^ 20) false true fun _ t _ e s1 =>
        let (b, valid) := match e with
          | some x => (recordBytes t x.value x.mask x.data, 1)
          | none => (recordBytes t (Config.free s1.freeCtr) (Config.free (s1.freeCtr + 1)) (Config.free (s1.freeCtr + 2)), 0)
        let s2 := s1.useFree3
        { c with s := s2 }.answer (s2.write m b) 0x3C 0 (some valid) []

/-- SSTAT. -/
def Ctx.tableStatus (c : Ctx) : Act :=
  let n := c.tv % 256
  c.maintTable n (fun t => c.answer c.s 0x3C 0
    (some (c.s.validEntries t + t.queue.length * 2 ^ 20 + b2n t.move.isSome * 2 ^ 31)) []) (c.refuse n 0 true)

/-! ### The pond coprocessor (R363, R377) -/

/-- The task as a pond owner. -/
def Ctx.me (c : Ctx) : Nat := taskOwner c.die c.slot

/-- An answer of the pond manager; a D without a stated value is free. -/
def Ctx.pondAnswer (c : Ctx) (r : PondAnswer × State) (d : Option Nat) : Act := c.answer r.2 0x3D r.1.status d []

/-- PGET: the null handle with EMPTY and POOL_OFF. -/
def Ctx.pondGet (c : Ctx) : Act :=
  let r := c.s.pondGet c.me (if c.t.cls = 0 then 0 else 3) (c.sv / 64 % 8) (c.sv % 64)
  if r.1.status ≤ 2 then c.pondAnswer r (some r.1.handle)
  else c.pondAnswer (r.1, r.2.useFree) (some (r.2.freeValue % 2 ^ 32))

/-- PPUT; cells that wait for a pond buffer ask again (R185), and the task's input goes on (R399). -/
def Ctx.pondPut (c : Ctx) : Act :=
  let p := c.s.pondPut c.me c.sv
  let r := (p.1, p.2.retryWaiting)
  if r.1.status ≠ 0 then c.pondAnswer r none
  else
    match r.2.task c.die c.slot with
    | none => c.pondAnswer r none
    | some t =>
      c.pondAnswer (r.1, (r.2.setTask c.die c.slot { t with windows := t.windows.filter fun w => w.2 ≠ c.sv }).feedNear c.die c.slot) none

/-- PQUERY. -/
def Ctx.pondQuery (c : Ctx) : Act :=
  let (status, b) := c.s.pondQuery c.sv
  if status = 0 then c.answer c.s 0x3D 0 (some (b.gen * 256 + b.holders.length * 16 + b2n b.quar)) []
  else c.answer c.s.useFree 0x3D status (some (c.s.freeValue % 2 ^ 32)) []

/-- PMAP: only a current handle that the task holds; otherwise STALE or NOT_OWNER and the window is left. -/
def Ctx.mapWindow (c : Ctx) : Act :=
  let w := c.x.ctl % 4
  let status := match c.s.pool (handleDie c.sv) (handlePool c.sv) with
    | none => 4
    | some q => match q.judge c.sv c.me with
      | none => 0
      | some 3 => 3
      | some _ => 4
  if status = 0 then
    c.answer (c.s.setTask c.die c.slot { c.t with windows := tset c.t.windows w c.sv }) 0x3D 0 (some (0x10000000 + 0x400000 * w)) []
  else c.answer c.s.useFree 0x3D status (some (c.s.freeValue % 2 ^ 32)) []

/-- SRCH (R365): a 144-bit key. -/
def execSrch (die core : Nat) (s : State) : Res :=
  execOp .srch die core s fun c => c.searchKey 1 (c.t.reg (rV c.x.s) % 2 ^ 144)

/-- SRCH288 (R365): a 288-bit key. -/
def execSrch288 (die core : Nat) (s : State) : Res :=
  execOp .srch288 die core s fun c => c.searchKey 2 (c.t.reg (rV c.x.s) % 2 ^ 288)

/-- SRCH576 (R365): a 576-bit key from two V registers. -/
def execSrch576 (die core : Nat) (s : State) : Res :=
  execOp .srch576 die core s fun c => c.searchKey 3 (c.t.reg (rV c.x.s) + 2 ^ 512 * (c.t.reg (rV (c.x.s + 1)) % 2 ^ 64))

/-- SINS (R433): ordered insertion of a record. -/
def execSins (die core : Nat) (s : State) : Res :=
  execOp .sins die core s fun c => c.insertRecord

/-- SPUT (R433): insertion at the lowest free address, or as SINS in an ordered table. -/
def execSput (die core : Nat) (s : State) : Res :=
  execOp .sput die core s fun c => c.insertRecord

/-- SWR (R432): a record is written to a free address, or its data word to an entry equal to it. -/
def execSwr (die core : Nat) (s : State) : Res :=
  execOp .swr die core s fun c => c.writeRecord

/-- SDEL (R432): an entry equal to a record is invalidated. -/
def execSdel (die core : Nat) (s : State) : Res :=
  execOp .sdel die core s fun c => c.deleteRecord

/-- SRD (R433): the entry at an address is written as a record. -/
def execSrd (die core : Nat) (s : State) : Res :=
  execOp .srd die core s fun c => c.readRecord

/-- SCLR (R433): every entry of a table is invalidated. -/
def execSclr (die core : Nat) (s : State) : Res :=
  execOp .sclr die core s fun c => c.clearTable

/-- SSTAT (R433): valid entries, queued operations and a running move of a table. -/
def execSstat (die core : Nat) (s : State) : Res :=
  execOp .sstat die core s fun c => c.tableStatus

/-- PGET (R363): a buffer of a pool of a die. -/
def execPget (die core : Nat) (s : State) : Res :=
  execOp .pget die core s fun c => c.pondGet

/-- PADDREF (R363). -/
def execPaddref (die core : Nat) (s : State) : Res :=
  execOp .paddref die core s fun c => c.pondAnswer (c.s.pondAddref c.me c.sv c.tv) none

/-- PPASS (R363). -/
def execPpass (die core : Nat) (s : State) : Res :=
  execOp .ppass die core s fun c => c.pondAnswer (c.s.pondPass c.me c.sv c.tv) none

/-- PPUT (R363, R377): a mapped buffer is unmapped too. -/
def execPput (die core : Nat) (s : State) : Res :=
  execOp .pput die core s fun c => c.pondPut

/-- PQUERY (R363): generation, holder count and quarantine. -/
def execPquery (die core : Nat) (s : State) : Res :=
  execOp .pquery die core s fun c => c.pondQuery

/-- PMAP (R363, R377): a held buffer is mapped into a window. -/
def execPmap (die core : Nat) (s : State) : Res :=
  execOp .pmap die core s fun c => c.mapWindow

/-- PUNMAP (R363). -/
def execPunmap (die core : Nat) (s : State) : Res :=
  execOp .punmap die core s fun c => c.answer (c.s.setTask c.die c.slot { c.t with windows := tdel c.t.windows (c.x.ctl % 4) }) 0x3D 0 none []

/-- COP3_INSTRUCTION (R367): major 0x3F traps with cause 7 on standard parts. -/
def execCop3Instruction (die core : Nat) (s : State) : Res :=
  execOp .cop3 die core s fun c => .trap 7 c.w

end Sys2Proof.Machine
end

