-- ==== Sys2Proof/Machine/Logs.lean ====
section
/-!
DEFINITION. The log pages (R244, R245, R274, R538, R539): error information, health, firmware slots, changed namespaces,
commands supported, the event log and the extended health log.
-/

namespace Sys2Proof.Machine

/-! ### Health (R244, R245) -/

/-- The PEC average of the blocks of a die's stripe groups. -/
def State.pecAverage (s : State) (d : Nat) : Nat :=
  let m := s.md d
  let blocks := 16 * m.groups * ((m.population.map (·.blocksPerPlane)).getD 0)
  sum (m.births.map fun e => e.2.pec) / max 1 blocks

/-- Percentage used of a die: average PEC ÷ rated count × 100, saturating at 255 (R244). -/
def State.percentUsed (s : State) (d : Nat) : Nat :=
  let rated := s.obj (0x3450 + d) 7
  if rated = 0 then 0 else min 255 (s.pecAverage d * 100 / rated)

/-- The healthy dies' lowest available spare, percent. -/
def State.lowestSpare (s : State) : Nat := (s.dies.map s.availableSpare).foldl min 100

/-- The highest percentage used of any die. -/
def State.highestUsed (s : State) : Nat := (s.dies.map s.percentUsed).foldl max 0

/-- A temperature in 0.1 °C as kelvin. -/
def kelvin (t : Int) : Nat := ((t + 2730) / 10).toNat

/-- A sensor of the host's thresholds stands at or above an over-temperature threshold of an enabled controller (R275). -/
def State.overThreshold (s : State) : Bool :=
  let read := fun (k : Nat) => if k = 0 then s.hottest.map (·.2.2) else (s.pd (k - 1)).hottest.map (·.2)
  s.host.ctrls.any fun c => c.2.en && (List.range (1 + s.cfg.dies)).any fun k =>
    match read k with
    | some t => decide (Ctrl.feature c.2 (4 * 65536 + k) % 65536 ≤ kelvin t)
    | none => false

/-- Critical Warning (R244). -/
def State.criticalWarning (s : State) : Nat :=
  let lost := s.dies.any fun d => s.obj (0x31C8 + d) 0 ≠ 0 || s.degraded d || s.mediaState d = 3
  b2n (s.lowestSpare < s.obj 0x3013 0) + 2 * b2n s.overThreshold + 4 * b2n lost +
    8 * b2n (s.host.nss.any fun n => n.2.wp) + 16 * b2n (tgetD s.host.smart 20 0 ≠ 0)

/-- The sum of a per-die or per-port object over the part. -/
def State.sumOver (s : State) (idx sub : Nat) : Nat := sum (s.dies.map fun d => s.obj (idx + d) sub)

/-- The hottest junction of a die in kelvin, 0 without a reading. -/
def State.dieKelvin (s : State) (d : Nat) : Nat :=
  match (s.pd d).hottest with
  | some h => kelvin h.2
  | none => 0

/-- The SMART / Health Information log, 512 bytes (R244). -/
def State.healthLog (s : State) : List Nat :=
  let k := fun n => tgetD s.host.smart n 0
  let minutes := fun n => k n / 60000000000
  record 512 ([(0, 1, s.criticalWarning), (1, 2, kelvin s.junction), (3, 1, s.lowestSpare), (4, 1, s.obj 0x3013 0),
    (5, 1, s.highestUsed), (32, 16, ceilDiv (k 14) 512000), (48, 16, ceilDiv (k 15) 512000),
    (64, 16, k 1), (80, 16, k 2), (96, 16, k 3), (112, 16, k 4), (128, 16, k 5 / 3600000000000), (144, 16, k 6),
    (160, 16, k 7), (176, 16, s.obj 0x4011 0), (192, 4, minutes 8), (196, 4, minutes 9), (216, 4, k 10), (220, 4, k 11),
    (224, 4, k 12 / 1000000000), (228, 4, k 13 / 1000000000)] ++ s.dies.map fun d => (200 + 2 * d, 2, s.dieKelvin d))

/-- The dies whose media state is v, as bits. -/
def State.diesIn (s : State) (v : Nat) : Nat := ofBits (s.dies.filter fun d => s.mediaState d = v)

/-- The dies with a degraded stripe group, as bits, whether worn or not. -/
def State.degradedDies (s : State) : Nat := ofBits (s.dies.filter fun d => s.degraded d)

/-- Die d's section of the extended health log, 448 bytes (R245). -/
def State.healthSection (s : State) (d : Nat) : List Nat :=
  let o := fun i sub => s.obj (i + d) sub
  let programmed := o 0x31E0 1 + o 0x31E0 2 + o 0x31E0 3
  let refreshes := sum ((List.range 6).map fun r => o 0x31D0 (r + 1))
  let body := record 128 [(0, 8, o 0x3108 0), (8, 8, o 0x3100 0), (16, 4, o 0x3160 1), (20, 4, o 0x3160 2), (24, 2, s.percentUsed d),
    (26, 1, s.availableSpare d), (27, 1, s.mediaState d), (28, 4, o 0x3168 1), (32, 4, o 0x3168 2), (36, 2, o 0x3150 1),
    (38, 2, o 0x3158 0), (40, 4, s.pecAverage d), (44, 4, o 0x3170 2), (48, 8, o 0x31A8 0), (56, 8, o 0x31B0 0), (64, 8, o 0x31B8 0),
    (72, 8, o 0x31C0 0), (80, 8, o 0x31C8 0), (88, 4, refreshes), (92, 4, o 0x31D8 1), (96, 4, o 0x31D8 2), (100, 8, o 0x31E0 3),
    (108, 8, programmed), (116, 4, (s.md d).fineUnits)]
  fit 448 (body ++ fit 304 (s.dom (0x3200 + d) 0))

/-- The extended health log, 4,096 bytes (R245). -/
def State.extendedHealth (s : State) : List Nat :=
  let k := fun n => tgetD s.host.smart n 0
  let programmed := s.sumOver 0x31E0 1 + s.sumOver 0x31E0 2 + s.sumOver 0x31E0 3
  let head := record 512 [(0, 4, 1), (4, 1, s.cfg.dies), (5, 1, s.obj 0x3000 0), (8, 8, s.dtimeS), (16, 8, k 21), (24, 4, k 22),
    (28, 4, s.obj 0x3017 2), (32, 4, k 23), (36, 4, k 24), (40, 8, k 15), (48, 8, programmed),
    (56, 8, s.sumOver 0x31E0 2), (64, 1, s.diesIn 2), (65, 1, s.degradedDies), (66, 1, s.diesIn 3)]
  fit 4096 (head ++ s.dies.flatMap s.healthSection)

/-! ### Events (R538, R539) -/

/-- An entry of the event log, 32 bytes (R538). -/
def EvEntry.bytes (e : EvEntry) : List Nat :=
  leBytes 2 e.event ++ [e.cls, e.routes] ++ leBytes 6 e.epoch ++ leBytes 2 e.phase ++ leBytes 4 e.detail ++ leBytes 4 e.seq ++
    leBytes 2 e.fn ++ zeros 2 ++ leBytes 8 e.dtime

/-- The event log with its header; `fn` is the function whose entries a VF sees (R538). -/
def State.eventLog (s : State) (fn : Option Nat) : List Nat :=
  let l : List EvEntry := match fn with
    | some f => s.fault.log.filter fun (e : EvEntry) => e.fn = f
    | none => s.fault.log
  let newest := match l.getLast? with
    | some e => e.seq
    | none => 0
  fit 64 (leBytes 4 1 ++ leBytes 4 l.length ++ leBytes 4 newest ++ leBytes 4 s.fault.overwritten) ++ l.flatMap EvEntry.bytes

/-- The event log has been read: entries overwritten from now on had a read before them (R538). -/
def State.noteLogRead (s : State) : State := { s with fault := { s.fault with logRead := s.fault.nextSeq - 1 } }

/-! ### The other pages, whose layouts are those of NVM Express 2.0c (PRESUMED, log entry 78) -/

/-- An entry of the Error Information log, 64 bytes. -/
def ErrEntry.bytes (e : ErrEntry) : List Nat :=
  fit 64 (leBytes 8 e.count ++ leBytes 2 e.sqid ++ leBytes 2 e.cid ++ leBytes 2 (2 * e.status) ++ leBytes 2 0xFFFF ++ zeros 8 ++
    leBytes 4 e.nsid ++ zeros 4 ++ leBytes 8 e.specific)

/-- The firmware revision that a slot shows, 8 bytes. -/
def State.fwText (s : State) (n : Nat) : List Nat :=
  match tget s.host.fw n with
  | some im => leBytes 8 im.revision
  | none => if n = 1 then partTextOf 3 8 else zeros 8

/-- The Firmware Slot Information log. -/
def State.fwSlotLog (s : State) : List Nat :=
  fit 512 ([s.obj 0x400D 1 % 8 + 16 * (s.obj 0x400D 2 % 8)] ++ zeros 7 ++ [1, 2, 3, 4].flatMap s.fwText)

/-- The admin and the I/O opcodes of R274, R294 and R298, each with the effects of its command: bit 0 supported, bit 1 block
contents change, bit 4 namespace inventory changes. -/
def adminEffects : List (Nat × Nat) :=
  [(0x00, 1), (0x01, 1), (0x02, 1), (0x04, 1), (0x05, 1), (0x06, 1), (0x08, 1), (0x09, 1), (0x0A, 1), (0x0C, 1), (0x0D, 0x13),
   (0x10, 1), (0x11, 1), (0x15, 0x11), (0x1C, 1), (0x80, 3), (0xC1, 1), (0xC2, 1), (0xC5, 1), (0xC9, 1), (0xCC, 1), (0xD0, 1), (0xD2, 1)]
def ioEffects : List (Nat × Nat) :=
  [(0x00, 1), (0x01, 3), (0x02, 1), (0x05, 1), (0x08, 3), (0x09, 3), (0x0C, 1), (0x80, 1), (0x82, 3), (0x85, 1), (0x88, 1), (0x8C, 1),
   (0x8D, 1), (0x8E, 1), (0x92, 1), (0x96, 1)]

/-- The Commands Supported and Effects log. -/
def effectsLog : List Nat :=
  record 4096 ((adminEffects.map fun e => (4 * e.1, 4, e.2)) ++ ioEffects.map fun e => (1024 + 4 * e.1, 4, e.2))

/-- The bytes of a log page as a controller reads it; `none` for a page that R274 does not name. -/
def State.logPage (s : State) (cntl lid : Nat) : Option (List Nat) :=
  match s.ctrl cntl with
  | none => none
  | some c =>
    if lid = 0x01 then some (fit (64 * 256) (c.errs.flatMap ErrEntry.bytes))
    else if lid = 0x02 then some s.healthLog
    else if lid = 0x03 then some s.fwSlotLog
    else if lid = 0x04 then some (fit 4096 (c.changed.flatMap (leBytes 4)))
    else if lid = 0x05 then some effectsLog
    else if lid = 0xC0 then some (s.eventLog (if isVf cntl then some (cntl - 1) else none))
    else if lid = 0xC2 then some s.extendedHealth
    else none

/-- A log page goes to the host (R274). -/
def State.giveLog (s : State) (q : CmdRef) (lid bytes offset : Nat) (retainAsync : Bool) (b : List Nat) : State :=
  let s1 := if lid = 0xC0 then s.noteLogRead else s
  let s2 := if retainAsync then s1
    else if lid = 0xC0 then s1.modCtrl q.cntl fun c => { c with aeMasked := false }
    else if lid = 0x04 then s1.modCtrl q.cntl fun c => { c with changed := [] }
    else s1
  ((s2.dataOut q (slice offset bytes b)).succeed q 0)

/-- GET_LOG_PAGE (R274, R535): with RAE clear, a read of C0h lets type 7h notices be posted again, and a read of 04h clears the list of
changed namespaces. -/
def execGetLogPage (q : CmdRef) (lid bytes offset : Nat) (retainAsync : Bool) (s : State) : Res :=
  startCmd s q fun _ =>
    match s.logPage q.cntl lid with
    | none => .next (s.failCmd q 1 9)
    | some b =>
      if b.length < offset then .next (s.failCmd q 0 2)
      else
      .next (s.giveLog q lid bytes offset retainAsync b)

end Sys2Proof.Machine
end

