-- ==== Sys2Proof/Machine/ViewA.lean ====
section
/-!
DEFINITION. What the read-only objects of the time base, the dictionary, the inflow link, takes, media and flash read
(R58, R93, R129, R171, R248, R267). An object not named here reads its stored value.
-/

namespace Sys2Proof.Machine

/-- Whether an index stands in a per-die group of eight that begins at base. -/
def inArea (base idx : Nat) : Bool := base ≤ idx && idx < base + 8

/-- What a session's WO select object names (R82). -/
def Session.sel (x : Session) (idx : Nat) : Nat := tgetD x.selects idx 0

/-- A number with bits given by a condition on 0 to n − 1. -/
def bitsWhere (n : Nat) (p : Nat → Bool) : Nat := ofBits ((List.range n).filter p)

/-! ### Numbers -/

/-- A time-base write is held for the last take to close, or was accepted while a take was open and is to apply (R45). -/
def State.timeWritePending (s : State) : Bool :=
  let tb := fun k : Nat => waitsForTakes (k / 256) (k % 256) && k / 256 != 0x3401
  (s.time.tbWrites.any fun h => tb h.1) || s.dict.commits.any fun c => c.inTake && c.writes.any fun w => tb (okey w.idx w.sub)

/-- The time base (R42, R58). -/
def State.viewTime (s : State) (idx sub : Nat) : Option Nat :=
  if idx = 0x1110 then
    match sub with
    | 1 => some s.time.active
    | 2 => some s.time.state
    | 3 => some (twos 32 s.time.phaseErr)
    | 4 => some (twos 32 s.time.ppb)
    | 7 => some (b2n s.timeWritePending)
    | 5 => some (if s.time.state = 2 then (s.time.now - s.time.holdoverFrom) / 1000000 else 0)
    | _ => none
  else if idx = 0x1120 then some s.epoch
  else if idx = 0x1121 then some s.phase
  else if idx = 0x1122 then some s.time.period
  else if idx = 0x1150 ∧ sub = 1 then some s.updateTimecode.time.timecode
  else none

/-- The dictionary's own objects (R93) for a session. -/
def State.viewDict (s : State) (x : Session) (idx sub : Nat) : Option Nat :=
  if idx = 0x1F00 then
    match sub with
    | 2 => some x.named
    | 3 => some x.state
    | 4 => some x.count
    | 5 => some x.slot
    | _ => none
  else if 0x1F01 ≤ idx ∧ idx ≤ 0x1F08 then
    let l := s.slot (idx - 0x1F00)
    match sub with
    | 1 => some l.session
    | 2 => some l.state
    | 3 => some l.staged.length
    | 4 => some l.target
    | 5 => some l.accEpoch
    | 6 => some l.accPhase
    | _ => none
  else if idx = 0x1F12 then some (s.dict.commits.filter fun c => c.ident ≠ 0).length
  else if idx = 0x1F13 then some s.permitted
  else if idx = 0x1F40 then (if 1 ≤ sub ∧ sub ≤ 8 then some (s.slot sub).session else none)
  else if idx = 0x1F82 then some s.dict.ledger.length
  else if idx = 0x1F83 then some (b2n s.pins.fuseVpp)
  else none

/-- The inflow pool of a lane's port: the pool with the number of the port's first lane (R129, R115). -/
def State.inflowPool (s : State) (d lane : Nat) : Nat := (s.portOfLane d lane).getD lane

/-- The inflow link (R129). -/
def State.viewInflow (s : State) (idx sub : Nat) : Option Nat :=
  let d := idx % 8
  if idx = 0x2109 then some (s.inflow.ports.filter fun p => p.2.up).length
  else if inArea 0x2128 idx ∧ 1 ≤ sub ∧ (tget s.dict.store (okey idx sub)).isNone then
    some (b2n ((s.portsOf d).any fun p => p.1 + 1 = sub))
  else if inArea 0x2138 idx ∧ 1 ≤ sub then some (s.lane d (sub - 1)).state
  else if inArea 0x2188 idx ∧ 1 ≤ sub then some (s.inflowPool d (sub - 1))
  else none

/-- The take that a session selects (R171). DESIGN CHOICE: the bare number of 0x222B:01 selects the take of the namespace in 0x2220:03, else the
first that has it (log entry 222). -/
def State.selectedTake (s : State) (x : Session) : Option Take := s.namedTake (x.sel 0x222B) fun _ => true

/-- Takes (R171). -/
def State.viewTake (s : State) (x : Session) (idx sub : Nat) : Option Nat :=
  if idx = 0x222C then
    match s.selectedTake x with
    | some t => some (if t.state = 5 then 0 else if sub = 1 then 15 + t.slot else t.custodyOrdinal)
    | none => some 0
  else if inArea 0x2800 idx ∧ sub = 2 then some (s.ringUsed (idx % 8))
  else none

/-- The usable coarse units of a die. -/
def State.usableUnits (s : State) (d : Nat) : Nat := s.obj (0x3100 + d) 0 / cuBytes

/-- The bytes that a die's maps take in DRAM now (R207): 8 for each usable coarse unit and a map page for each fine table. -/
def State.mapBytes (s : State) (d : Nat) : Nat := 8 * s.usableUnits d + 4096 * (s.md d).fineUnits

/-- The bound of R207, in bytes. -/
def State.mapBound (s : State) (d : Nat) : Nat := 8 * s.usableUnits d + 4096 * (s.usableUnits d / 64)

/-- Media management (R248). -/
def State.viewMedia (s : State) (idx sub : Nat) : Option Nat :=
  let d := idx % 8
  if idx = 0x3001 then some (cuBytes * sum (s.dies.map fun d => (s.unconverted d).length))
  else if idx = 0x3015 then some s.dtimeS
  else if idx = 0x3019 then some (if sub = 1 then s.diesIn 2 else if sub = 2 then s.degradedDies else s.diesIn 3)
  else if idx = 0x301A then
    some (if sub = 1 then s.criticalWarning else if sub = 2 then s.lowestSpare else s.highestUsed)
  else if inArea 0x3110 idx then some (ceilDiv (if sub = 1 then s.mapBytes d else s.mapBound d) 1048576)
  else if inArea 0x3120 idx then some (if sub = 1 then (s.md d).fineUnits else s.fineLimit d)
  else if inArea 0x3170 idx ∧ sub = 1 then some (s.pecAverage d)
  else if inArea 0x3178 idx then some (s.percentUsed d)
  else if inArea 0x3208 idx then some (s.mediaState d)
  else if idx = 0x3403 ∧ sub = 1 then some Config.imageProfiles
  else none

/-! ### DOMAIN objects -/

/-- Staged values in the layout of 0x1F00:06 (R605): a DOMAIN value that would carry the object past 16,384 bytes is listed without
its bytes. -/
def stagedList (dies : Nat) : List Staged → List Nat → List Nat
  | [], out => out
  | w :: t, out =>
    let dom := match findRow dies w.idx w.sub with
      | some r => isDomain r.ty
      | none => false
    let cut := dom && decide (16384 < out.length + 8 + w.bytes.length)
    let head := leBytes 2 w.idx ++ [w.sub, b2n w.adj + 2 * b2n cut] ++ leBytes 4 w.bytes.length
    stagedList dies t (out ++ head ++ if cut then [] else w.bytes)

/-- A spring definition that waits for its take (R132), as the staged value of its object: it was staged before what
the session stages now. -/
def State.heldStaged (s : State) (k : Nat) : List Staged :=
  (s.take.heldDefs.filter fun e => e.2.2.1 = k).map fun e =>
    let idx := e.1 / 256
    let sub := e.1 % 256
    let n := match findRow s.cfg.dies idx sub with
      | some r => tyBytes r.ty
      | none => 0
    ⟨idx, sub, leBytes n e.2.1, e.2.2.2, []⟩

/-- Unassigned functions in the layout of 0x1F20 (R605). -/
def unassignedBytes (l : List (Nat × Nat × Nat)) : List Nat := l.flatMap fun e => leBytes 2 e.1 ++ [e.2.1, e.2.2 % 256]

/-- The commit log in the layout of 0x1F30 (R605). -/
def State.commitLog (s : State) : List Nat :=
  s.dict.log.flatMap fun e => [e.1, e.2.1] ++ leBytes 6 e.2.2.1 ++ leBytes 2 e.2.2.2 ++ zeros 2

/-- The dictionary's DOMAIN objects (R93, R605). -/
def State.domDict (s : State) (k idx sub : Nat) : Option (List Nat) :=
  if idx = 0x1F00 ∧ sub = 6 then some (stagedList s.cfg.dies (s.heldStaged k ++ s.staged k) [])
  else if idx = 0x1F20 then some (unassignedBytes s.dict.unassignedLast)
  else if idx = 0x1F21 then some (unassignedBytes s.dict.unassignedNow)
  else if idx = 0x1F30 then some s.commitLog
  else if idx = 0x1F80 ∧ sub = 1 then some ((tget s.dict.doms (okey 0x1F80 1)).getD (List.replicate 8 16))
  else if idx = 0x1F81 then some s.dict.ledger.flatten
  else if idx = 0x1F84 then some (sha384 s.dict.ledger.flatten)
  else none

/-- The credit state of a die's inflow ports (R607). -/
def State.creditState (s : State) (d : Nat) : List Nat :=
  (s.portsOf d).flatMap fun p =>
    let k := 4 * d + p.1
    (s.springsOnPort k).flatMap fun sp =>
      let granted := match s.port k with
        | some pt => tgetD pt.granted sp 0 % 2 ^ 24
        | none => 0
      let held := match (s.pool d p.1).bind fun q => q.owner (springOwner k sp) with
        | some o => o.held
        | none => 0
      [k, sp] ++ leBytes 4 granted ++ leBytes 2 held

/-- The write stamp of a block in its 16 bytes (R221). -/
def State.stampBytes (s : State) (sel : Nat) : List Nat :=
  let m := s.md (sel / 2 ^ 29 % 8)
  let key := addressKey (sel % 2 ^ 29)
  match tget m.maps.blocks key with
  | none => zeros 16
  | some b => leBytes 8 b.word ++ leBytes 8 (tgetD m.births key Birth.none).word

/-- A die's 32 bytes of the package population summary: what the part's software makes of the die's population (R267). -/
def State.populationBytes (s : State) (d : Nat) : List Nat :=
  match (s.md d).population with
  | none => zeros 32
  | some p =>
    let figures := [d, s.obj (0x3468 + d) 0, p.interface, p.manufacturer, p.profile.getD 0] ++ p.counts
    (List.range 32).map fun j => (Config.populationSummary figures j).toNat

/-- The parameter page of the target that a session has selected, channel in bits 7:4 and CE in bits 3:0; empty where the channel has no such target
(R267). -/
def State.pageOf (s : State) (d t : Nat) : List Nat :=
  if s.obj (0x3500 + 16 * d + t / 16) (t % 16 + 1) = 0 then [] else (List.range 512).map fun j => (Config.parameterPage d t j).toNat

/-- The DOMAIN objects of the inflow link, takes and media (R129, R171, R248). -/
def State.domMedia (s : State) (x : Session) (idx sub : Nat) : Option (List Nat) :=
  if inArea 0x2180 idx then some (s.creditState (idx % 8))
  else if idx = 0x222B ∧ sub = 2 then some (match s.selectedTake x with | some t => if t.state = 5 then zeros 128 else t.entry | none => [])
  else if idx = 0x301B then some s.extendedHealth
  else if idx = 0x301D then some (s.stampBytes (x.sel 0x301C))
  else if idx = 0x3409 then some (s.dies.flatMap s.populationBytes)
  else if inArea 0x35B8 idx then some ((tget x.selects (0x35B0 + idx % 8)).elim [] (s.pageOf (idx % 8)))
  else none

end Sys2Proof.Machine
end

