-- ==== Sys2Proof/Machine/ViewB.lean ====
section
/-!
DEFINITION. What the read-only objects of the host interface, functions, compute and ponds read (R304, R326, R410, R196).
-/

namespace Sys2Proof.Machine

/-! ### The host interface (R304) -/

/-- The controllers of the part, or of one port. -/
def State.ctrlsOf (s : State) (port : Option Nat) : List Ctrl :=
  (s.host.ctrls.filter fun c => port.isNone || port = some (portOf c.1)).map (·.2)

/-- The I/O queues of a port's controllers. -/
def State.portSqs (s : State) (p : Nat) : List Sq :=
  (s.ctrlsOf (some p)).flatMap fun c => (c.sqs.filter fun k => k.1 ≠ 0).map (·.2)

/-- The I/O CQs of a port's controllers. -/
def State.portCqs (s : State) (p : Nat) : Nat := sum ((s.ctrlsOf (some p)).map fun c => (c.cqs.filter fun k => k.1 ≠ 0).length)

/-- Numbers of the host interface; the read-only objects of a die that forms no port read their reset values. -/
def State.viewHost (s : State) (x : Session) (idx sub : Nat) : Option Nat :=
  let d := idx % 8
  if idx = 0x4001 then (if 1 ≤ sub then some (Config.pciId sub).toNat else none)
  else if idx = 0x4002 then some (ofLe (fit 48 subsystemNqn))
  else if idx = 0x4003 then
    (if sub = 1 then some (ofLe (partTextOf 1 20)) else if sub = 2 then some (ofLe (partTextOf 2 40))
     else if sub = 3 then some (ofLe (partTextOf 3 8)) else none)
  else if idx = 0x4004 then some ((s.ctrlsOf none).filter (·.en)).length
  else if idx = 0x400E then (if 1 ≤ sub then some (ofLe (s.fwText sub)) else none)
  else if idx = 0x4019 then
    match tget s.host.nss (x.sel 0x4018) with
    | none => some 0
    | some n =>
      (if sub = 1 then some n.kind else if sub = 2 then some n.nsze else if sub = 3 then some n.used
       else if sub = 5 then some (b2n n.wp) else none)
  else if idx = 0x401E then some (b2n s.activationAllowed)
  else if 0x4048 ≤ idx ∧ idx < 0x40E0 ∧ !inArea 0x4050 idx ∧ !s.portFormed d then some 0
  else if inArea 0x4048 idx ∧ sub = 3 then some (if s.host.linkUp.contains d then 2 else 1)
  else if inArea 0x4058 idx then some ((s.ctrlsOf (some d)).filter (·.en)).length
  else if inArea 0x4078 idx then
    some (if sub = 1 then (s.portSqs d).length else if sub = 2 then s.portCqs d else ((s.portSqs d).filter (·.ordered)).length)
  else if inArea 0x4098 idx then some (sum ((s.ctrlsOf (some d)).map fun c => c.cmds.length))
  else if inArea 0x40B8 idx then some ((s.portSqs d).filter (·.frozen)).length
  else none

/-! ### Functions (R309, R326) -/

/-- The function that a session's read is about: the one it selects, or for a tenant its own, if it has one (R68). -/
def State.viewFn (s : State) (k : Nat) (cls : Nat) : Option Nat :=
  if cls = 2 then (if k / 2 ^ 24 = 1 then some (k % 2 ^ 24 - 1) else none) else some ((s.session k).sel 0x4101)

/-- Numbers of the functions: those about a function read 0 where there is none. -/
def State.viewFns (s : State) (k cls idx sub : Nat) : Option Nat :=
  let p := idx % 8
  let about := fun (g : Nat → Nat) => some (match s.viewFn k cls with | some f => g f | none => 0)
  if idx = 0x4100 then
    let vfs := sum (s.host.numVfs.map (·.2))
    some (if sub = 1 then (s.dies.filter s.portFormed).length + vfs else vfs)
  else if idx = 0x4102 ∧ 1 ≤ sub then about fun f => s.shareTarget f sub
  else if idx = 0x4104 ∧ 1 ≤ sub then about fun f => s.share f sub
  else if idx = 0x4109 ∧ 1 ≤ sub then about fun f =>
    match s.ctrl (f + 1) with
    | some c => if sub = 1 then c.quiesce else if sub = 2 then (if c.quiesce = 3 then c.quiesceLeft else c.running) else c.quiesceEpoch
    | none => 0
  else if idx = 0x4110 ∧ 1 ≤ sub then about fun f =>
    let n := s.fn f
    if sub = 1 then n.harvests else if sub = 2 then n.outside else n.harvestEpoch * 65536 + n.harvestPhase
  else if inArea 0x4158 idx ∧ !s.portFormed p then some 0
  else if inArea 0x4160 idx ∧ 1 ≤ sub then
    let f := 32 * p + sub - 1
    some (if !s.portFormed p then 8 else if cls = 2 ∧ s.viewFn k cls ≠ some f then 0 else s.share f 1)
  else if inArea 0x4170 idx then
    some (bitsWhere 32 fun f => match s.ctrl (32 * p + f + 1) with | some c => c.quiesce = 2 | none => false)
  else none

/-- A load of 0x4103 with only the entries of one function: what a tenant reads (R68). -/
def ownEntries (f : Option Nat) (b : List Nat) : List Nat :=
  let keep := (List.range (field b 0 2)).filter fun k => some (field b (4 + 8 * k) 1) = f
  leBytes 2 keep.length ++ zeros 2 ++ keep.flatMap fun k => slice (4 + 8 * k) 8 b

/-- DOMAIN objects of the host interface and the functions. -/
def State.domHost (s : State) (x : Session) (k cls idx sub : Nat) : Option (List Nat) :=
  if idx = 0x4019 ∧ sub = 4 then
    some (match tget s.host.nss (x.sel 0x4018) with | some n => n.attached.flatMap (leBytes 2) | none => [])
  else if idx = 0x4103 ∧ cls = 2 then some (ownEntries (s.viewFn k cls) (s.dom 0x4103 0))
  else if idx = 0x410A then some (match s.viewFn k cls with | some f => s.savedState f | none => [])
  else if idx = 0x410F ∧ 1 ≤ sub then
    some (match (s.viewFn k cls).bind fun f => (s.fn f).windows.find? fun w => w.win = sub with
      | some w => if w.fits then w.bitmap else []
      | none => [])
  else none

/-! ### Compute (R408, R410) -/

/-- Tasks of a die in a state. -/
def State.tasksIn (s : State) (d st : Nat) : Nat := ((s.cd d).tasks.filter fun t => t.2.state = st).length

/-- A loaded handle's fields by the sub-indices of 0x5006. -/
def State.handleField (s : State) (h sub : Nat) : Nat :=
  match s.program h with
  | none => 0
  | some p =>
    match sub with
    | 1 => p.state
    | 2 => p.use
    | 3 => 4 * p.text.length
    | 4 => p.segLen
    | 5 => sum (s.dies.map fun d => ((s.cd d).tasks.filter fun t => t.2.handle = h && t.2.state ≠ 4).length)
    | _ => p.runs

/-- A task's fields by the sub-indices of 0x50F8. -/
def Task.field (t : Task) (sub : Nat) : Nat :=
  match sub with
  | 1 => t.state
  | 2 => t.handle
  | 3 => t.group
  | 4 => t.cls
  | 5 => t.core.getD 0
  | 6 => t.waitMask
  | 7 => t.flags
  | _ => t.cycles

/-- Numbers of compute. -/
def State.viewCompute (s : State) (x : Session) (idx sub : Nat) : Option Nat :=
  let d := idx % 8
  if sub = 0 ∧ !inArea 0x50D8 idx then none
  else if idx = 0x5006 then some (s.handleField (x.sel 0x5005) sub)
  else if inArea 0x5058 idx then some (s.readyList d (sub - 1)).length
  else if inArea 0x5080 idx then
    some (if sub = 1 then 4096 - (s.cd d).tasks.length else s.tasksIn d (sub - 1))
  else if inArea 0x50D0 idx ∧ sub = 1 then some ((s.cd d).queue 2).length
  else if inArea 0x50D8 idx then some (sum (s.comp.programs.map (·.2.bytes)))
  else if inArea 0x50E0 idx then some (s.resident d (sub - 1)).length
  else if inArea 0x50E8 idx then some (s.textUse d (sub - 1))
  else if inArea 0x50F8 idx then
    some (match s.task d (x.sel (0x50F0 + d)) with | some t => t.field sub | none => 0)
  else none

/-- 0x5004: an entry of 16 bytes for each loaded handle. -/
def State.handleList (s : State) : List Nat :=
  s.comp.programs.flatMap fun p => [p.1, p.2.state, p.2.mode, p.2.timing] ++ leBytes 4 p.2.secver ++ leBytes 8 p.2.ident

/-! ### Ponds (R196) -/

/-- A pool's counts by object. -/
def State.poolField (s : State) (d p idx : Nat) : Option Nat :=
  let base := idx / 8 * 8
  let w := s.portWidth d p
  if base < 0x5268 then
    -- what is in force until a drain ends (R172, R175), and what an inflow pool with a port is held at (R176)
    match s.pool d p with
    | some q =>
      if q.holds ∧ (4 ≤ p ∨ base = 0x5248) then
        some (if base = 0x5240 then q.cfg.kind else if base = 0x5248 then q.cfg.size else if base = 0x5250 then q.cfg.count
              else if base = 0x5258 then q.cfg.span else q.cfg.cls)
      else if 4 ≤ p ∨ w = 0 then none
      else some (if base = 0x5240 then 1 else if base = 0x5248 then 8 else if base = 0x5250 then 3328 * w else 0)
    | none => none
  else
  match s.pool d p with
  | none => if base = 0x5288 ∧ s.cfg.dies = 8 ∧ s.obj (0x5258 + d) (p + 1) = 2 then some 1 else some 0
  | some q =>
    if base = 0x5280 then some q.state
    else if base = 0x5288 then some (b2n (s.lastOwner q))
    else if base = 0x5290 then some q.free
    else if base = 0x5298 then some q.held
    else if base = 0x52A0 then some q.quarantined
    else if base = 0x52B0 then some q.owners.length
    else none

/-- Numbers of the ponds. -/
def State.viewPond (s : State) (idx sub : Nat) : Option Nat :=
  let d := idx % 8
  let base := idx / 8 * 8
  if sub = 0 then none
  else if [0x5240, 0x5248, 0x5250, 0x5258, 0x5260, 0x5280, 0x5288, 0x5290, 0x5298, 0x52A0, 0x52B0].contains base then s.poolField d (sub - 1) idx
  else if base = 0x52F0 then
    let sram := 64 * s.slicesUsed d
    let dram := s.pondDram d / 1048576
    some (if sub = 1 then sram else if sub = 2 then 64 * sramSlices - sram else if sub = 3 then dram
          else s.pondRegion d / 1048576 - dram)
  else none

/-- An entry of 0x5202. -/
def Owner.bytes (o : Owner) : List Nat :=
  leBytes 4 o.ident ++ leBytes 2 o.target ++ leBytes 2 o.eff ++ leBytes 2 o.held ++ [b2n o.departing, 0]

/-- What a class sees of an owner: a tenant only the KIND 3 owner of its own function (R68). -/
def State.seesOwner (s : State) (k cls o : Nat) : Bool :=
  cls ≠ 2 || (ownerKind o = 3 && s.viewFn k cls = some (ownerNumber o))

/-- A load of 0x5203 with only the entries that a class sees. -/
def State.seenReservations (s : State) (k cls : Nat) (b : List Nat) : List Nat :=
  let keep := (List.range (field b 2 2)).filter fun j => s.seesOwner k cls (field b (4 + 8 * j) 4)
  b.take 2 ++ leBytes 2 keep.length ++ keep.flatMap fun j => slice (4 + 8 * j) 8 b

/-- DOMAIN objects of compute and the ponds. -/
def State.domCompute (s : State) (x : Session) (k cls idx sub : Nat) : Option (List Nat) :=
  if idx = 0x5004 then some s.handleList
  else if idx = 0x5202 then
    let sel := x.sel 0x5201
    some (match s.pool (sel / 64) (sel % 64) with
      | some q => (q.owners.filter fun o => s.seesOwner k cls o.ident).flatMap Owner.bytes
      | none => [])
  else if idx = 0x5203 ∧ cls = 2 then some (s.seenReservations k cls (s.dom 0x5203 0))
  else if idx = 0x5205 ∧ sub = 3 then some (s.pond.queryHolders.flatMap (leBytes 4))
  else if idx = 0x5207 then some s.pond.lastMisuse
  else none

end Sys2Proof.Machine
end

