-- ==== Sys2Proof/Machine/ViewC.lean ====
section
/-!
DEFINITION. What the read-only objects of keys, measurements, search, the lake and faults read (R465, R492, R436, R521, R545), and the
value that a read of any object answers (R59, R62, R68).
-/

namespace Sys2Proof.Machine

/-! ### Keys and measurements (R465, R492) -/

/-- Numbers of the cipher engine: the selected slot is die [12:10], slot [9:0]. -/
def State.viewCipher (s : State) (x : Session) (idx sub : Nat) : Option Nat :=
  let d := idx % 8
  if idx = 0x6009 ∧ 1 ≤ sub then
    let sel := x.sel 0x6008
    let die := sel / 1024 % 8
    match s.keySlot die (sel % 1024) with
    | none => some 0
    | some k =>
      match sub with
      | 1 => some k.state
      | 2 => some k.type
      | 3 => some k.policy
      | 4 => some k.owner
      | 5 => some k.keyId
      | 6 => some k.counter
      | _ => some (((s.cd die).active 0).filter fun j => j.2.cslot = sel % 1024).length
  else if idx = 0x600F then some (match tget s.host.nss (x.sel 0x4018) with | some n => n.keyGen | none => 0)
  else if inArea 0x6100 idx ∧ 1 ≤ sub then
    some (s.secure.slots.filter fun k => k.1 / 1024 = d && k.2.state = sub).length
  else if inArea 0x6118 idx ∧ 1 ≤ sub then some (s.waitingJobs d 0 (sub - 1))
  else none

/-- Numbers of the digest engine and the measurement slots. -/
def State.viewDigest (s : State) (x : Session) (idx sub : Nat) : Option Nat :=
  let d := idx % 8
  if idx = 0x6406 ∧ 1 ≤ sub then
    let sel := x.sel 0x6405
    let die := sel / 256 % 8
    match s.keyState die (sel % 64) with
    | none => some 0
    | some k =>
      match sub with
      | 1 => some (b2n k.loaded)
      | 2 => some k.alg
      | 3 => some k.slot
      | 4 => some k.keyId
      | 5 => some k.gen
      | _ => some k.jobs
  else if idx = 0x640C ∧ 1 ≤ sub then some (s.measure (sub - 1)).count
  else if idx = 0x6410 ∧ 1 ≤ sub then some (s.measure (sub - 1)).pushed
  else if idx = 0x641D then some (bitsWhere 8 fun n => (tget s.secure.takeKeys (n + 1)).isSome)
  else if inArea 0x6610 idx ∧ 1 ≤ sub then some (s.waitingJobs d 1 (sub - 1))
  else if inArea 0x6618 idx then some (s.secure.keyStates.filter fun k => k.1 / 64 = d && k.2.loaded).length
  else none

/-- The log of a measurement slot (R488). -/
def Measure.logBytes (m : Measure) : List Nat := m.base ++ leBytes 8 (m.count - m.log.length + 1) ++ m.log.flatten

/-- DOMAIN objects of the measurement slots. -/
def State.domDigest (s : State) (x : Session) (idx sub : Nat) : Option (List Nat) :=
  if idx = 0x640A then some x.report
  else if idx = 0x640B ∧ 1 ≤ sub then some (s.measure (sub - 1)).value
  else if idx = 0x640E then some (s.measure (x.sel 0x640D)).logBytes
  else if idx = 0x641A then some s.secure.bootRecords.flatten
  else none

/-! ### Search (R436) -/

/-- Rows of a die that hold entries, and those that are suspect. -/
def State.validRows (s : State) (d : Nat) (suspect : Bool) : Nat :=
  sum (s.search.tables.map fun t =>
    t.2.span * ((s.tableRows d t.2).filter fun r => !suspect || r.2.suspect).length)

/-- Numbers of the search unit. -/
def State.viewSearch (s : State) (idx : Nat) : Option Nat :=
  if inArea 0x7090 idx then some (s.validRows (idx % 8) false)
  else if inArea 0x7098 idx then some (s.validRows (idx % 8) true)
  else none

/-- A table's 8 bytes of 0x7003. -/
def State.tableState (s : State) (n : Nat) : List Nat :=
  match s.table n, tget s.search.tables n with
  | some t, _ => [t.state] ++ leBytes 4 (s.validEntries t) ++ [t.queue.length, 0, 0]
  | none, some t => t.state :: zeros 7
  | none, none => zeros 8

/-- DOMAIN objects of the search unit. -/
def State.domSearch (s : State) (x : Session) (idx : Nat) : Option (List Nat) :=
  if idx = 0x7003 then some ((List.range 64).flatMap s.tableState)
  else if idx = 0x7006 then
    some (match s.placeOf (x.sel 0x7005) with
      | some (_, t, k) => (match s.entryAt t k with
        | some e => recordBytes t e.value e.mask e.data
        | none => [])
      | none => [])
  else if idx = 0x700A then
    some ((List.range 64).flatMap fun n => leBytes 4 (match s.table n with | some t => t.moves | none => 0))
  else none

/-! ### The lake (R521) and faults (R545) -/

/-- Numbers of the lake. -/
def State.viewLake (s : State) (x : Session) (k idx sub : Nat) : Option Nat :=
  if idx = 0x9008 then some s.lake.level
  else if idx = 0x900D then
    match sub with
    | 2 => some x.lakeNamed
    | 3 => some x.lakeState
    | 4 => some (match s.lake.lxns.find? fun l => l.session = k with | some l => l.ident | none => 0)
    | _ => none
  else if idx = 0x9012 then some s.lake.members.length
  else if idx = 0x9014 then some s.lake.leader
  else if idx = 0x9015 then some s.lake.gen
  else if idx = 0x9016 then some s.lake.state
  else if idx = 0x9017 then some s.lake.refusal
  else none

/-- Spares left that other objects count (R543, 0xA180 + d): search rows, inflow lanes that 0x2130 names and no port has, NAND spare blocks as far as
the width goes, hot-spare targets. -/
def State.viewFault (s : State) (idx sub : Nat) : Option Nat :=
  let d := idx % 8
  if !inArea 0xA180 idx then none
  else if sub = 3 then some (s.obj (0x70A8 + d) 0)
  else if sub = 6 then
    some ((bitsOf 4 (s.obj (0x2130 + d) 0)).filter fun l => (s.lane d l).spareFor.isNone && (s.lane d l).state ≠ 8).length
  else if sub = 7 then some (min 65535 (s.obj (0x3160 + d) 1))
  else if sub = 8 then some (s.obj (0x3150 + d) 1)
  else none

/-- A staged write of a lake transaction as an entry of 0x900E. -/
def LxnWrite.entryBytes (w : LxnWrite) : List Nat :=
  leBytes 2 w.node ++ leBytes 2 w.idx ++ [w.sub, w.bytes.length, 0, 0] ++ fit 56 w.bytes

/-- DOMAIN objects of the lake. -/
def State.domLake (s : State) (k idx : Nat) : Option (List Nat) :=
  if idx = 0x900E then some (match s.openLxn k with | some l => l.writes.flatMap LxnWrite.entryBytes | none => [])
  else if idx = 0x9013 then some (memberMap s.lake.members)
  else if idx = 0x9019 then some s.lakeStatus
  else none

/-- DOMAIN objects of faults. -/
def State.domFault (s : State) (k cls idx : Nat) : Option (List Nat) :=
  if idx = 0xA004 then some (s.eventLog (if cls = 2 ∧ k / 2 ^ 24 = 1 then s.viewFn k cls else none))
  else if idx = 0xA006 then some (s.fault.plog.flatMap EvEntry.bytes)
  else if inArea 0xA110 idx then
    some ((List.range 144).flatMap fun n => leBytes 4 (tgetD s.fault.counts (evDie (idx % 8) n) 0))
  else none

/-! ### The value that a read answers -/

/-- The objects whose value the spec does not state: what the flash and the lanes report of themselves, loads of shared units, and
figures of hardware whose detail no command shows. A read answers a free value. -/
def openObject (idx sub : Nat) : Bool :=
  (0x2168 ≤ idx && idx < 0x2178) || inArea 0x4070 idx ||
    inArea 0x6108 idx || inArea 0x6600 idx || inArea 0x7088 idx && sub = 2 || inArea 0xA170 idx

/-- A free value within an object's type and range. -/
def State.openNum (s : State) (idx sub n : Nat) : Nat :=
  let percent := inArea 0x6108 idx || inArea 0x6600 idx
  s.freeValue % (if percent then 101 else 256 ^ n)

/-- What an open object reports has been measured: the transmitter settings and the eye of a lane read their default 0 until it has been
equalised (R129). -/
def State.measured (s : State) (idx sub : Nat) : Bool :=
  if 0x2168 ≤ idx ∧ idx < 0x2178 then (s.lane (idx % 8) (sub - 1)).stored else true

/-- The value of a non-DOMAIN object for a session of a class: sub-index 0 of an array or record reads its highest sub-index (R59), a
read-only object what the chapters say, and every other object what it holds. -/
def State.readNum (s : State) (k cls idx sub : Nat) : Nat :=
  let x := s.session k
  match findRow s.cfg.dies idx sub with
  | none => highestSub s.cfg.dies idx
  | some r =>
    let n := tyBytes r.ty
    if openObject idx sub && s.measured idx sub then s.openNum idx sub n
    else
      let v :=
        if idx < 0x1F00 then s.viewTime idx sub
        else if idx < 0x2000 then s.viewDict x idx sub
        else if idx < 0x2200 then s.viewInflow idx sub
        else if idx < 0x3000 then s.viewTake x idx sub
        else if idx < 0x4000 then s.viewMedia idx sub
        else if idx < 0x4100 then s.viewHost x idx sub
        else if idx < 0x5000 then s.viewFns k cls idx sub
        else if idx < 0x5200 then s.viewCompute x idx sub
        else if idx < 0x6000 then s.viewPond idx sub
        else if idx < 0x6400 then s.viewCipher x idx sub
        else if idx < 0x7000 then s.viewDigest x idx sub
        else if idx < 0x8000 then s.viewSearch idx
        else if idx < 0x9000 then none
        else if idx < 0xA000 then s.viewLake x k idx sub
        else s.viewFault idx sub
      v.getD (s.obj idx sub) % 256 ^ n

/-- The bytes of a DOMAIN object for a session of a class. -/
def State.readDom (s : State) (k cls idx sub : Nat) : List Nat :=
  let x := s.session k
  if openObject idx sub then
    (List.range 512).map fun j => s.freeValue / 256 ^ j % 256
  else
    let v :=
      if idx < 0x2000 then s.domDict k idx sub
      else if idx < 0x4000 then s.domMedia x idx sub
      else if idx < 0x5000 then s.domHost x k cls idx sub
      else if idx < 0x6000 then s.domCompute x k cls idx sub
      else if idx < 0x7000 then s.domDigest x idx sub
      else if idx < 0x8000 then s.domSearch x idx
      else if idx < 0xA000 then s.domLake k idx
      else s.domFault k cls idx
    v.getD (s.dom idx sub)

/-- What a read of index:sub answers, as bytes. -/
def State.readBytes (s : State) (k cls idx sub : Nat) : List Nat :=
  match objAccess s.cfg.dies idx sub with
  | some (.domain _, _) => s.readDom k cls idx sub
  | some (ty, _) => leBytes (tyBytes ty) (s.readNum k cls idx sub)
  | none => []

/-- What a read leaves behind: a free value was used, or the event log was seen. -/
def State.afterRead (s : State) (idx sub : Nat) : State :=
  if openObject idx sub then s.useFree else if idx = 0xA004 then s.noteLogRead else s

end Sys2Proof.Machine
end

