-- ==== Sys2Proof/Machine/Serve.lean ====
section
/-!
DEFINITION. The dictionary service (chapter 3): reads, writes, the objects that act at once, DOMAIN transfers (R76), duplicates (R75)
and the service queue (R70), shared by every access path (R69).
-/

namespace Sys2Proof.Machine

/-- The CLIENT byte that an answer copies (R72, R73). -/
def clientByte (r : DictReq) : Nat := if r.path = 0 then r.who else r.ident % 256

/-- What a request is answered with (R73), but for the fields that the path copies. -/
structure Answer where
  cmd : Nat
  idx : Nat
  sub : Nat
  status : Nat
  flags : Nat
  epoch : Nat
  data : List Nat
deriving DecidableEq, Repr

/-- Status, LATE, the epoch answered, and the state after an object acted. -/
abbrev Acted := Nat × Bool × Nat × State

/-- The objects that select for a session. -/
def selectObject (idx : Nat) : Bool :=
  [0x222B, 0x301C, 0x4018, 0x4101, 0x5005, 0x5201, 0x6008, 0x6405, 0x640D, 0x7005].contains idx || inArea 0x35B0 idx ||
    inArea 0x50F0 idx

/-- An action that succeeds at the epoch of the request. -/
def State.acted (s t : State) : Acted := (0, false, s.epoch, t)

/-- An action refused. -/
def State.unacted (s : State) (st : Nat) : Acted := (st, false, s.epoch, s)

/-! ### Objects that act at once (R82) -/

/-- Commands of 0x1F00:01 (R81). -/
def State.txnCommand (s : State) (k cls v : Nat) : Acted :=
  if v = 1 then
    let r := s.beginTxn k
    (r.1, false, s.epoch, r.2)
  else if v = 2 then s.commitTxn k cls none
  else if v = 3 then s.commitTxn k cls (some (s.session k).named)
  else if s.openTxn k then s.acted (s.rollBack k 7)
  else s.unacted 0x0401

/-- Commands of 0x900D:01 (R507, R508). -/
def State.lxnCommand (s : State) (k v : Nat) : Acted :=
  if v = 1 then
    let r := s.beginLxn k
    (r.1, false, s.epoch, r.2)
  else if v = 2 then s.startLxn k none
  else if v = 3 then s.startLxn k (some (s.session k).lakeNamed)
  else if v = 4 then
    let r := s.rollBackLxn k
    (r.1, false, s.epoch, r.2)
  else s.unacted 0x0207

/-- A take abort (R140), and what waited for the take to close. -/
def State.abortNow (s : State) (v : Nat) : State := (s.abortTake v).settleRings.settleResets

/-- A package soft reset asked for (R531): it runs once no take is open or closing. -/
def State.askSoftReset (s : State) : State :=
  if s.anyOpenOrClosing then ({ s with fault := { s.fault with softPending := 1 } } : State).setObj 0xA012 4 1
  else s.softReset.startRom

/-- The forced reset (R531): every open take is aborted, or closes at the next permitted boundary under the sealed-capture policy. -/
def State.forceSoftReset (s : State) : State :=
  (((s.take.takes.filter fun t => t.state = 1).foldl (fun s t => s.abortTake t.num) s).settleRings).askSoftReset

/-- A task reset by a write (R385, R530). -/
def State.resetTask (s : State) (d slot : Nat) : State :=
  match s.task d slot with
  | none => s
  | some _ => (s.stopTask d slot 3 0 0).countReset 10 (4096 * d + slot)

/-- The dispatcher's waiting-time histograms and ready-list high-water marks are cleared (R408). -/
def State.clearHistograms (s : State) : State :=
  s.dies.foldl (fun s d =>
    (List.range 16).foldl (fun s g => s.setObj (0x5060 + d) (g + 1) 0) (s.setDom (0x5068 + d) 0 (zeros 1024))) s

/-- A query of a handle fills 0x5205 (R186, R196). -/
def State.queryHandle (s : State) (h : Nat) : State :=
  let r := s.pondQuery h
  let s1 := ((s.setObj 0x5205 1 r.1).setObj 0x5205 2 r.2.gen).setObj 0x5205 4 (b2n r.2.quar)
  { s1 with pond := { s1.pond with queryHolders := r.2.holders } }

/-- 0x4108 (R321): operation 1 quiesces, operation 2 resumes; another value is refused. -/
def State.quiesceCommand (s : State) (v : Nat) : Acted :=
  if v / 256 = 1 then s.acted (s.quiesceFn (v % 256))
  else if v / 256 = 2 then s.acted (s.resumeFn (v % 256))
  else s.unacted 0x0207

/-- 0xA002 (R532): a die that the part does not have is refused. -/
def State.dieCommand (s : State) (d : Nat) : Acted := if s.hasDie d then s.acted (s.askDieReset d) else s.unacted 0x0207

/-- 0xA003 (R532): engine codes 1 to 4 of a die of the part; a reset of the die under way absorbs it (R533). -/
def State.engineCommand (s : State) (v : Nat) : Acted :=
  let e := v % 16
  let d := v / 256 % 8
  if e = 0 ∨ 4 < e ∨ !s.hasDie d then s.unacted 0x0207
  else if s.fault.resetting.contains d ∨ !s.healthy d then s.acted s else s.acted (s.resetEngine d e)

/-- What a value written to a WO object that is no DOMAIN does. -/
def State.actNum (s : State) (k cls idx v : Nat) : Acted :=
  if idx = 0x1F00 then s.txnCommand k cls v
  else if idx = 0x900D then s.lxnCommand k v
  else if idx = 0x210F then s.acted (s.resetPort v 2)
  else if idx = 0x2220 then s.acted (s.abortNow v)
  else if selectObject idx then
    let x := s.session k
    s.acted (s.setSession k { x with selects := tset x.selects idx v })
  else if idx = 0x4108 then s.quiesceCommand v
  else if idx = 0x410E then s.acted (s.harvest v)
  else if idx = 0x5012 then s.acted (if v = 1 then s.clearHistograms else s)
  else if inArea 0x5100 idx then s.acted (s.resetTask (idx - 0x5100) v)
  else if idx = 0x5204 then s.acted (s.queryHandle v)
  else if idx = 0x6007 then s.acted (s.clearKeySlots v)
  else if idx = 0x600E then s.acted (s.removeStored v)
  else if idx = 0x6404 then s.acted (s.emptyKeyStates v)
  else if idx = 0xA001 then
    (if v = 0x534F4654 then s.acted s.askSoftReset
    else if v = 0x534F4655 then s.acted s.forceSoftReset
    else s.unacted 0x0207)
  else if idx = 0xA002 then s.dieCommand v
  else if idx = 0xA003 then s.engineCommand v
  else if idx = 0xA005 then s.acted (if v = 1 then s.emptyLog else s)
  else if idx = 0xA00E then s.acted (if v = 1 then s.acknowledge else s)
  else s.unacted 0x0102

/-- A report is asked for (R490): 32 bytes of nonce and a mask. -/
def State.askReport (s : State) (k : Nat) (b : List Nat) : Acted :=
  if b.length ≠ 36 then s.unacted 0x0301
  else
    match s.makeReport (b.take 32) (field b 32 4) with
    | none => s.unacted 0x0101
    | some rep =>
      let s1 := (s.setSession k { s.session k with report := rep }).bump 0x641B 0
      s.acted ((s1.raise (evPkg 25) 0).emit (.report k rep))

/-- What a DOMAIN written to a WO object does. -/
def State.actDom (s : State) (k idx sub : Nat) (b : List Nat) : Acted :=
  if idx = 0x410B then s.acted (s.restoreState ((s.session k).sel 0x4101) b)
  else if idx = 0x6409 then s.askReport k b
  else if idx = 0x640F then (if b.isEmpty then s.unacted 0x0301 else s.acted (s.extendManager (sub - 1) b))
  else s.unacted 0x0102

/-! ### Reads and writes -/

/-- The answer of a status without data. -/
def plainAnswer (cmd idx sub st epoch : Nat) : Answer := ⟨cmd, idx, sub, st, 0, epoch, []⟩

/-- A read of a non-DOMAIN value (R74). -/
def State.serveRead (s : State) (k cls : Nat) (r : DictReq) : Answer × State :=
  let j := s.judge cls r.idx r.sub false (s.openTxn k)
  let dom : Bool := match objAccess s.cfg.dies r.idx r.sub with
    | some (ty, _) => isDomain ty
    | none => false
  if j ≠ 0 then (plainAnswer 1 r.idx r.sub j s.epoch, s)
  else if dom then (plainAnswer 1 r.idx r.sub 0x0301 s.epoch, s)
  else (⟨1, r.idx, r.sub, 0, 0, s.epoch, (s.readBytes k cls r.idx r.sub).take 48⟩, s.afterRead r.idx r.sub)

/-- The settings against which a write is judged (R606): those of the next permitted boundary, and what the session has staged. -/
def State.judgedAgainst (s : State) (k : Nat) : State := (s.standing s.permitted).putAll (s.staged k)

/-- A write to an object that stages would be the 257th of the open transaction (R82). -/
def State.fullTxn (s : State) (k idx sub : Nat) : Bool :=
  s.openTxn k && !(s.staged k).any (fun w => w.idx = idx && w.sub = sub) && 256 ≤ (s.staged k).length

/-- The answer and the state of a write that acted or committed: ADJ is answered and counted with status 0 only. -/
def State.writeDone (cmd cls idx sub : Nat) (adj : Bool) (a : Acted) : Answer × State :=
  let good := a.1 = 0
  let flags := if good then b2n adj + 8 * b2n a.2.1 else 0
  (⟨cmd, idx, sub, a.1, flags, a.2.2.1, []⟩, if good ∧ adj then a.2.2.2.countAdjusted cls idx sub else a.2.2.2)

/-- A value for a session-control object (R82). -/
def State.nameEpoch (s : State) (k idx v : Nat) : State :=
  let x := s.session k
  s.setSession k (if idx = 0x1F00 then { x with named := v } else { x with lakeNamed := v })

/-- Check 8 of R601 for a command of 0x1F00:01 (R81): 0x0406 and 0x0402 for a begin, 0x0401 where no transaction is open. A value that is
no command falls back to 4. -/
def State.txnCheck (s : State) (k v : Nat) : Nat :=
  if v = 1 then (if s.openTxn k then 0x0406 else if s.freeSlotNo.isNone then 0x0402 else 0)
  else if !s.openTxn k then 0x0401
  else 0

/-- Check 8 of R601 for a write that commits implicitly: it would overlap an earlier commit of its boundary (R84). -/
def State.overlapsNow (s : State) (k cls idx sub : Nat) (ty : ObjTy) (data : List Nat) : Bool :=
  let raw := if isDomain ty then data else ((valueBytes ty data).map (·.1)).getD data
  let w : Staged := ⟨idx, sub, raw, false, data⟩
  match s.commitBoundary [w] none with
  | some (b, _) => s.overlaps ⟨k, cls, 0, [w], none, none⟩ b
  | none => false

/-- Check 8 of R601 for a write: the transaction that it would open, close, fill or overlap. -/
def State.writeCheck (s : State) (k cls idx sub : Nat) (ty : ObjTy) (acc : Acc) (data : List Nat) : Nat :=
  if idx = 0x1F00 ∧ sub = 1 then s.txnCheck k (field data 0 1)
  else if acc = .wo ∨ sessionObject idx sub ∨ idx = 0x900E then 0
  else if s.fullTxn k idx sub then 0x0403
  else if !s.openTxn k && s.overlapsNow k cls idx sub ty data then 0x0404
  else 0

/-- A write judged, and then acted on, staged, or committed implicitly (R81 to R83, R601). `cmd` is the request's command. An implicit commit that
overlaps is rolled back, counted and logged (R84, R605). -/
def State.serveWrite (s : State) (k cls cmd idx sub : Nat) (data : List Nat) (dom : Bool) : Answer × State :=
  let j := s.judge cls idx sub true (s.openTxn k)
  let no := fun st => (plainAnswer cmd idx sub st s.epoch, s)
  if j ≠ 0 then no j
  else
    match objAccess s.cfg.dies idx sub with
    | none => no 0x0102
    | some (ty, acc) =>
      let atOnce := acc = .wo ∨ sessionObject idx sub ∨ idx = 0x900E
      let c8 := if isDomain ty = dom then s.writeCheck k cls idx sub ty acc data else 0
      if c8 = 0x0404 then (plainAnswer cmd idx sub c8 s.epoch, s.dropCommit k 0 6 1)
      else if c8 ≠ 0 then no c8
      else if isDomain ty ≠ dom then no 0x0301
      else
        let c := if atOnce then s else s.judgedAgainst k
        let h := s.holdWrite c idx sub data
        if h.1 ≠ 0 then no h.1
        else if sessionObject idx sub then
          State.writeDone cmd cls idx sub h.2.2 (s.acted (s.nameEpoch k idx (ofLe h.2.1)))
        else if idx = 0x900E then
          let r := s.stageLxn k h.2.1
          (⟨cmd, idx, sub, r.1, if r.1 = 0 then 2 else 0, if r.1 = 0 then 0 else s.epoch, []⟩, r.2)
        else if acc = .wo then
          State.writeDone cmd cls idx sub h.2.2
            (if dom then s.actDom k idx sub h.2.1 else s.actNum k cls idx (ofLe h.2.1))
        else
          let w : Staged := ⟨idx, sub, h.2.1, h.2.2, data⟩
          if s.openTxn k then
            let t := (s.stageInto k w).2
            (⟨cmd, idx, sub, 0, b2n h.2.2 + 2, 0, []⟩, if h.2.2 then t.countAdjusted cls idx sub else t)
          else State.writeDone cmd cls idx sub h.2.2 (s.acceptCommit ⟨k, cls, 0, [w], none, none⟩)

/-! ### DOMAIN transfers (R76) -/

/-- The longest DOMAIN that a transfer moves. -/
def maxTransfer : Nat := 3407872

/-- The segments of a number of bytes. -/
def segments (n : Nat) : Nat := ceilDiv n 52

/-- The session's transfer ends. -/
def State.endTransfer (s : State) (k : Nat) : State := s.setSession k { s.session k with xfer := none }

/-- A DOMAIN READ (R76): the transfer starts, and MORE says that segments follow. -/
def State.serveDomainRead (s : State) (k cls : Nat) (r : DictReq) : Answer × State :=
  let j := s.judge cls r.idx r.sub false (s.openTxn k)
  let no := fun st => (plainAnswer 3 r.idx r.sub st s.epoch, s)
  let dom : Bool := match objAccess s.cfg.dies r.idx r.sub with
    | some (ty, _) => isDomain ty
    | none => false
  if j ≠ 0 then no j
  else if (s.session k).xfer.isSome then no 0x0602
  else if !dom then no 0x0301
  else
    let b := s.readBytes k cls r.idx r.sub
    let s1 := s.afterRead r.idx r.sub
    if b.isEmpty then (plainAnswer 3 r.idx r.sub 0 s.epoch, s1)
    else
      let x : Xfer := ⟨false, r.idx, r.sub, b.length, b, 0, 0, s.time.now, r.bus, r.seq, clientByte r⟩
      (⟨3, r.idx, r.sub, 0, 4, s.epoch, []⟩, s1.setSession k { s1.session k with xfer := some x })

/-- A response or segment body goes out on a path in that path's framing (R69): a CAN frame of function 0xA on a bus, a DICT RESPONSE
message of the inflow control channel or of the lake; a path whose framing adds nothing carries the body as it is. -/
def State.sendBody (s : State) (path who bus : Nat) (body : List Nat) : State :=
  if path = 0 then s.emitCanOn bus 0xA body
  else if path = 2 then s.sendControl who 0x11 (fit 64 body)
  else if path = 4 then s.lakeSend who 0x11 (fit 64 body)
  else s.emit (.dictBody path who body)

/-- Segment n of a DOMAIN READ (R76): bytes 0 to 7 as in a response to SEGMENT, MORE while segments follow, the counter, the byte count and
the data. DEDUCED: the copied SEQ and CLIENT are those of the DOMAIN READ (log entry 164). -/
def Xfer.segment (x : Xfer) (n : Nat) : List Nat :=
  let b := (x.bytes.drop (52 * n)).take 52
  [0x85, x.seq % 256, x.client % 256, if n + 1 < segments x.total then 4 else 0] ++ leBytes 2 x.idx ++ [x.sub % 256, 0] ++
    leBytes 2 (n % 65536) ++ leBytes 2 b.length ++ b

/-- The segments of a DOMAIN READ that the window lets go: at most 16 beyond the first unacknowledged one. -/
def State.sendWindow (s : State) (k path who : Nat) : State :=
  match (s.session k).xfer with
  | none => s
  | some x =>
    let hi := min (x.acked + 16) (segments x.total)
    if x.write ∨ hi ≤ x.next then s
    else
      let s1 := (List.range (hi - x.next)).foldl (fun s j => s.sendBody path who x.bus (x.segment (x.next + j))) s
      s1.setSession k { s1.session k with xfer := some { x with next := hi, last := s.time.now } }

/-- The client's acknowledgement of DOMAIN READ segments, with the counter it expects next (R76): a last one ends the transfer, and
sending goes on from the counter. Checks 2 to 7 of R601 come first. DESIGN CHOICE: 65,536 segments sent are acknowledged with a counter of
0, as the 16-bit field wraps (log entry 164). -/
def State.serveSegmentAck (s : State) (k cls : Nat) (r : DictReq) (count : Nat) : Option Answer × State :=
  let j := s.judge cls r.idx r.sub false (s.openTxn k)
  let bad := (some (plainAnswer 7 r.idx r.sub 0x0302 s.epoch), s.endTransfer k)
  if j ≠ 0 then (some (plainAnswer 7 r.idx r.sub j s.epoch), s)
  else
  match (s.session k).xfer with
  | none => bad
  | some x =>
    let counter := if count = 0 ∧ x.next = 65536 ∧ 65520 ≤ x.acked then 65536 else count
    if x.write ∨ x.idx ≠ r.idx ∨ x.sub ≠ r.sub ∨ x.next < counter then bad
    else if counter < x.acked then (none, s)
    else if counter = segments x.total then (none, s.endTransfer k)
    else (none, s.setSession k { s.session k with xfer := some { x with acked := counter, next := counter, last := s.time.now } })

/-- A DOMAIN WRITE of a stated length (R76): the transfer starts; an empty DOMAIN is written at once. -/
def State.serveDomainWrite (s : State) (k cls : Nat) (r : DictReq) : Answer × State :=
  let j := s.judge cls r.idx r.sub true (s.openTxn k)
  let no := fun st => (plainAnswer 4 r.idx r.sub st s.epoch, s)
  let n := field r.data 0 4
  if j ≠ 0 then no j
  else
    match objAccess s.cfg.dies r.idx r.sub with
    | none => no 0x0102
    | some (ty, acc) =>
      if (s.session k).xfer.isSome then no 0x0602
      else if acc ≠ .wo ∧ r.idx ≠ 0x900E ∧ s.fullTxn k r.idx r.sub then no 0x0403
      else
        match ty with
        | .domain m =>
          if r.data.length < 4 then no 0x0301
          else if m < n ∨ maxTransfer < n then no 0x0304
          else if n = 0 then s.serveWrite k cls 4 r.idx r.sub [] true
          else
            let x : Xfer := ⟨true, r.idx, r.sub, n, [], 0, 0, s.time.now, r.bus, r.seq, clientByte r⟩
            (plainAnswer 4 r.idx r.sub 0 s.epoch, s.setSession k { s.session k with xfer := some x })
        | _ => no 0x0301

/-- A segment of a DOMAIN WRITE (R76): the next one in order is appended, every 16th and the last are acknowledged with the counter
expected next, a gap with the first missing counter; the last one writes the value. Checks 2 to 7 of R601 come first. DESIGN CHOICE: the
acknowledgement after segment 65,535 carries 0, as the 16-bit field wraps (log entry 164). -/
def State.serveSegment (s : State) (k cls : Nat) (r : DictReq) (counter : Nat) : Option Answer × State :=
  let j := s.judge cls r.idx r.sub true (s.openTxn k)
  let bad := (some (plainAnswer 5 r.idx r.sub 0x0302 s.epoch), s.endTransfer k)
  let heard := fun (x : Xfer) => s.setSession k { s.session k with xfer := some { x with last := s.time.now } }
  if j ≠ 0 then (some (plainAnswer 5 r.idx r.sub j s.epoch), s)
  else
  match (s.session k).xfer with
  | none => bad
  | some x =>
    let n := r.data.length
    if !x.write ∨ x.idx ≠ r.idx ∨ x.sub ≠ r.sub then bad
    else if x.next < counter then (some ⟨5, r.idx, r.sub, 0, 0, s.epoch, leBytes 2 x.next⟩, heard x)
    else if counter < x.next then (none, heard x)
    else if n = 0 ∨ 52 < n ∨ x.total < x.bytes.length + n then bad
    else
      let b := x.bytes ++ r.data
      if b.length = x.total then
        let w := (s.endTransfer k).serveWrite k cls 5 r.idx r.sub b true
        (some { w.1 with data := leBytes 2 ((counter + 1) % 65536) }, w.2)
      else
        let t := s.setSession k { s.session k with xfer := some { x with bytes := b, next := counter + 1, last := s.time.now } }
        (if (counter + 1) % 16 = 0 then some ⟨5, r.idx, r.sub, 0, 0, s.epoch, leBytes 2 (counter + 1)⟩ else none, t)

/-- DOMAIN ABORT (R74). -/
def State.serveAbort (s : State) (k : Nat) (r : DictReq) : Answer × State :=
  (plainAnswer 6 r.idx r.sub 0x0303 s.epoch, s.endTransfer k)

/-! ### The service (R70, R74, R75) -/

/-- The answer that a session keeps for a duplicate; a request without an answer keeps that it has none. -/
def Session.keep (x : Session) (seq now : Nat) : Option Answer → Session
  | some a =>
    { x with dupSeq := some seq, dupAt := now, dupCmd := a.cmd, dupFlags := a.flags, dupIdx := a.idx, dupSub := a.sub
             dupStatus := a.status, dupEpoch := a.epoch, dupData := a.data, dupAnswered := true }
  | none => { x with dupSeq := some seq, dupAt := now, dupAnswered := false }

/-- The answer that a duplicate repeats. -/
def Session.kept (x : Session) : Option Answer :=
  if x.dupAnswered then some ⟨x.dupCmd, x.dupIdx, x.dupSub, x.dupStatus, x.dupFlags, x.dupEpoch, x.dupData⟩ else none

/-- A request repeats the one before it within 100 ms of the copy that was executed (R75), on CAN or UDP. -/
def State.isDuplicate (s : State) (k : Nat) (r : DictReq) : Bool :=
  (r.path = 0 || r.path = 3) && (s.session k).dupSeq == some r.seq && s.time.now ≤ (s.session k).dupAt + 100000000

/-- The requests that the service holds: those whose answer instant lies ahead (R70). -/
def State.inService (s : State) : List Nat := s.dict.service.filter fun e => s.time.now < e

/-- A request takes a place in the service until its answer instant (R70): within 2 ms, a free value, and not before the requests that it
follows. -/
def State.enterService (s : State) : State :=
  let l := s.inService
  let e := max (s.time.now + s.freeValue % 2000001) (l.getLast?.getD 0)
  let s1 := s.useFree
  ({ s1 with dict := { s1.dict with service := l ++ [e] } } : State).highWater 0x1020 1 (l.length + 1)

/-- A request reached the service: counted for its path, held there, and the lead relays what another die holds. -/
def State.noteServed (s : State) (r : DictReq) : State :=
  let s1 := (s.bump 0x1003 (r.path + 1)).enterService
  match findRow s.cfg.dies r.idx r.sub with
  | some row =>
    let d := (r.idx - row.lo) % 8
    if row.perDie ∧ d ≠ s.fault.lead then s1.bump (0x1088 + d) 1 else s1
  | none => s1

/-- The session of a request as judged now (R604). -/
def State.visit (s : State) (k cls : Nat) : State :=
  s.setSession k { s.session k with cls := cls, lastFrame := s.time.now }

/-- The state in which a request that the service takes is executed: its session is known and it is counted. -/
def State.serving (s : State) (r : DictReq) : State :=
  (s.visit (sessionKey r.path r.who) (s.classOf r.path r.who)).noteServed r

/-- The answer of an executed request is kept for its duplicates; a reset ends the session. -/
def State.keepAnswer (s : State) (r : DictReq) (now : Nat) (a : Option Answer) : State :=
  let k := sessionKey r.path r.who
  if s.answers then s.setSession k ((s.session k).keep r.seq now a) else s

/-- A request of a session is handled: a duplicate repeats the earlier answer, a full service answers 0x0602, and any other request is
executed once. -/
def State.handle (s : State) (r : DictReq) (cmd : Nat) (f : Nat → Nat → State → Option Answer × State) : Option Answer × State :=
  let k := sessionKey r.path r.who
  let cls := s.classOf r.path r.who
  if s.isDuplicate k r then ((s.session k).kept, s.visit k cls)
  else if 64 ≤ s.inService.length then
    let s0 := s.visit k cls
    (some (plainAnswer cmd r.idx r.sub 0x0602 s.epoch), s0.setSession k { s0.session k with dupSeq := none })
  else
    let a := f k cls (s.serving r)
    (a.1, a.2.keepAnswer r s.time.now a.1)

/-- A request with an unknown CMD (R74): counted and answered at once, never executed. -/
def State.unknownCmd (s : State) (r : DictReq) (cmd : Nat) : Option Answer × State :=
  let k := sessionKey r.path r.who
  let s0 := s.visit k (s.classOf r.path r.who)
  (some (plainAnswer cmd r.idx r.sub 0x0101 s.epoch),
    (s0.setSession k { s0.session k with dupSeq := none }).bump 0x1003 (r.path + 1))

/-- Some answer of a meaning that always answers. -/
def answerOf (a : Answer × State) : Option Answer × State := (some a.1, a.2)

/-- A request body's command run for a session (R72, R74). The value of a write is its whole data field (R602); a segment's counter
and count stand before its bytes. -/
def State.runBody (s : State) (r : DictReq) (cmd : Nat) : Option Answer × State :=
  let seg : DictReq := { r with data := fit (field r.data 2 2) (r.data.drop 4) }
  let counter := field r.data 0 2
  match cmd with
  | 1 => s.handle r cmd fun k cls s => answerOf (s.serveRead k cls r)
  | 2 => s.handle r cmd fun k cls s => answerOf (s.serveWrite k cls 2 r.idx r.sub r.data false)
  | 3 => s.handle r cmd fun k cls s => answerOf (s.serveDomainRead k cls r)
  | 4 => s.handle r cmd fun k cls s => answerOf (s.serveDomainWrite k cls r)
  | 5 => s.handle r cmd fun k cls s => s.serveSegment k cls seg counter
  | 6 => s.handle r cmd fun k _ s => answerOf (s.serveAbort k r)
  | 7 => s.handle r cmd fun k cls s => s.serveSegmentAck k cls r counter
  | _ => s.unknownCmd r cmd

/-! ### The paths -/

/-- A body of 64 bytes as a request (R72). -/
def requestOf (path who : Nat) (b : List Nat) : DictReq :=
  ⟨path, who, field b 1 1, 0, field b 2 1, field b 4 2, field b 6 1, slice 8 56 b⟩

/-- A response body (R73): the header of 16 bytes and the data. -/
def Answer.body (a : Answer) (seq client : Nat) : List Nat :=
  [setBit (a.cmd % 256) 7, seq % 256, client % 256, a.flags] ++ leBytes 2 a.idx ++ [a.sub % 256, 0] ++ leBytes 2 a.status ++
    leBytes 6 a.epoch ++ a.data.take 48

/-- The device answers on a request's path. -/
def State.emitAnswer (s : State) (r : DictReq) (a : Answer) : State := s.sendBody r.path r.who r.bus (a.body r.seq (clientByte r))

/-- A CAN frame is a request to this device: function 0x9 with its node number, on a bus that is enabled (R71). -/
def State.forUs (s : State) (r : DictReq) : Bool := s.busOn r.bus && r.ident = 0x9 * 128 + s.obj 0x1030 1

/-- The path is served now: in the restricted bring-up only CAN, and the stewards themselves (R563). -/
def State.pathServed (s : State) (r : DictReq) : Bool :=
  s.answers && (!s.boot.restricted || r.path = 0 || r.path = 5) && (r.path ≠ 0 || s.forUs r)

/-- A CAN frame is counted as received (R93). -/
def State.heard (s : State) (r : DictReq) : State := if r.path = 0 then s.bump 0x1031 3 else s

/-- The answer goes out on the request's path, and the segments that its session's transfer lets go after it. -/
def State.sendAnswer (s : State) (r : DictReq) (a : Option Answer) : State :=
  (match a with
    | some x => s.emitAnswer r x
    | none => s).sendWindow (sessionKey r.path r.who) r.path r.who

/-- A client number that a CAN client can have (R72). -/
def State.clientOk (s : State) (r : DictReq) : Bool := r.path ≠ 0 || (r.who ≠ 0 && r.who ≤ 127 && r.who ≠ s.obj 0x1030 1)

/-- A request arrives on a path, and is answered there. A CAN frame with a client number that no client has is ignored and counted as
in error (R72). -/
def onPath (r : DictReq) (s : State) (f : State → Option Answer × State) : Res :=
  if 5 < r.path then .fault .absentUnit
  else if !s.pathServed r then .next s
  else if !s.clientOk r then .next ((s.heard r).bump 0x1031 4)
  else
    let a := f (s.heard r)
    .next (a.2.sendAnswer r a.1)

/-- A WRITE on a path. -/
def writeOn (r : DictReq) (s : State) : Res :=
  onPath r s fun s => s.handle r 2 fun k cls s => answerOf (s.serveWrite k cls 2 r.idx r.sub r.data false)

/-- A DOMAIN written on a path, as the row that names its object has it: the whole value at once. -/
def domainOn (r : DictReq) (s : State) : Res :=
  onPath r s fun s => s.handle r 4 fun k cls s => answerOf (s.serveWrite k cls 4 r.idx r.sub r.data true)

end Sys2Proof.Machine
end

