-- ==== Sys2Proof/Machine/DictRows.lean ====
section
/-!
DEFINITION. The commands that reach the dictionary service (chapter 3), and the rows of other chapters that are writes of one of its
objects.
-/

namespace Sys2Proof.Machine

/-! ### The requests of R74 -/

/-- READ (R74). -/
def execRead (r : DictReq) (s : State) : Res :=
  onPath r s fun s => s.handle r 1 fun k cls s => answerOf (s.serveRead k cls r)

/-- WRITE (R74). -/
def execWrite (r : DictReq) (s : State) : Res := writeOn r s

/-- DOMAIN_READ (R76). -/
def execDomainRead (r : DictReq) (s : State) : Res :=
  onPath r s fun s => s.handle r 3 fun k cls s => answerOf (s.serveDomainRead k cls r)

/-- DOMAIN_WRITE (R76): the data is the total length. -/
def execDomainWrite (r : DictReq) (s : State) : Res :=
  onPath r s fun s => s.handle r 4 fun k cls s => answerOf (s.serveDomainWrite k cls r)

/-- SEGMENT (R76). -/
def execSegment (r : DictReq) (counter : Nat) (s : State) : Res :=
  onPath r s fun s => s.handle r 5 fun k cls s => s.serveSegment k cls r counter

/-- DOMAIN_ABORT (R74). -/
def execDomainAbort (r : DictReq) (s : State) : Res :=
  onPath r s fun s => s.handle r 6 fun k _ s => answerOf (s.serveAbort k r)

/-- SEGMENT_ACK (R76). -/
def execSegmentAck (r : DictReq) (counter : Nat) (s : State) : Res :=
  onPath r s fun s => s.handle r 7 fun k cls s => s.serveSegmentAck k cls r counter

/-- UNKNOWN_COMMAND (R74). -/
def execUnknownCommand (r : DictReq) (cmd : Nat) (s : State) : Res := onPath r s fun s => s.unknownCmd r cmd

/-- A session is told of the end of its transfer, on its own path; an NVMe session learns it from its next command. -/
def State.tellSession (s : State) (k : Nat) (x : Xfer) (a : Answer) : State :=
  let path := k / 2 ^ 24
  if path = 1 then s else s.sendBody path (k % 2 ^ 24) x.bus (a.body x.seq x.client)

/-- DOMAIN_TRANSFER_TIMEOUT (R76): a transfer with no segment for 100 ms ends with 0x0303. -/
def execDomainTransferTimeout (session : Nat) (s : State) : Res :=
  match (s.session session).xfer with
  | none => .next s
  | some x =>
    if s.time.now < x.last + 100000000 then .next s
    else
      .next ((s.endTransfer session).tellSession session x
        (plainAnswer (if x.write then 5 else 3) x.idx x.sub 0x0303 s.epoch))

/-- The state byte of a heartbeat (R77). -/
def State.heartbeatState (s : State) : Nat :=
  if s.boot.restricted then 5
  else if s.fault.shuttingDown then 4
  else if s.fault.safeHold then 3
  else if 11 ≤ s.boot.step then 2
  else if 5 ≤ s.boot.step then 1 else 0

/-- The CAN controllers' error states, which 0x1031 shows (R93): what the buses did to them reaches no row, so each is a free value (log
entry 161). -/
def State.canErrors (s : State) : State :=
  let s1 := (s.setObj 0x1031 1 (s.freeValue % 256)).useFree
  (s1.setObj 0x1031 2 (s1.freeValue % 256)).useFree

/-- CAN_HEARTBEAT (R77): from the dictionary's first answer on, with the controllers' error states; the code that means error-passive is the
model's choice (log entry 161). -/
def execCanHeartbeat (s : State) : Res :=
  if !s.answers then .next s else .next (s.canErrors.heartbeat s.heartbeatState)

/-! ### UDP (R79, R80) -/

/-- An IPv4 address as its four bytes, in network order. -/
def ipBytes (ip : Nat) : List Nat := (leBytes 4 ip).reverse

/-- The entry of 0x1041 that lists a source. -/
def State.udpEntry (s : State) (ip : Nat) : Option Nat :=
  [1, 2, 3, 4, 5, 6, 7, 8].find? fun e => s.obj 0x1041 e ≠ 0 && s.obj 0x1041 e / 2 ^ 32 = ip

/-- The tag of a datagram's bytes, by the HMAC slot of 0x1040:05 on the die of the lane 0x1040:02. -/
def State.udpTag (s : State) (ip : Nat) (b : List Nat) : Option (List Nat) :=
  (s.slotHmac (s.obj 0x1040 2 / 4) (s.obj 0x1040 5) 1 (ipBytes ip ++ b)).map (List.take 16)

/-- One body of a datagram is executed, and its response body is appended. The segments of a DOMAIN READ leave as bodies of their own: the
spec gives them no datagram (DESIGN CHOICE, log entry 164). -/
def udpBody (who : Nat) (acc : State × List Nat) (b : List Nat) : State × List Nat :=
  if !acc.1.answers then acc
  else
    let r := requestOf 3 who b
    let a := acc.1.runBody r (field b 0 1)
    let x := a.1.getD (plainAnswer (field b 0 1) r.idx r.sub 0 acc.1.epoch)
    (a.2.sendWindow (sessionKey 3 who) 3 who, acc.2 ++ fit 64 (x.body r.seq (clientByte r)))

/-- The session of an entry of 0x1041 is that of a source: another one's record of the last request does not pass to it, and its own follows it from
the entry that listed it before (R75, R80). -/
def State.seatSource (s : State) (e ip : Nat) : State :=
  let k := sessionKey 3 e
  let x := s.session k
  if x.source = ip then s
  else
    let old := (([1, 2, 3, 4, 5, 6, 7, 8].map fun j => s.session (sessionKey 3 j)).find? fun y => y.source = ip).getD Session.fresh
    s.setSession k { x with source := ip, dupSeq := old.dupSeq, dupAt := old.dupAt, dupCmd := old.dupCmd, dupFlags := old.dupFlags
                            dupIdx := old.dupIdx, dupSub := old.dupSub, dupStatus := old.dupStatus, dupEpoch := old.dupEpoch
                            dupData := old.dupData, dupAnswered := old.dupAnswered }

/-- An accepted datagram of a listed source: its nonce is remembered, its bodies are executed in order, and one datagram answers. -/
def State.serveDatagram (s : State) (e sourceIp sourcePort : Nat) (bytes : List Nat) : State :=
  let nonce := field bytes 4 4
  let s0 := s.seatSource e sourceIp
  let s1 : State := { s0 with dict := { s0.dict with nonces := tset s0.dict.nonces sourceIp nonce } }
  let a := ((List.range (field bytes 1 1)).map fun j => slice (8 + 64 * j) 64 bytes).foldl (udpBody e) (s1, [])
  let out := [1, a.2.length / 64, 0, 0] ++ leBytes 4 nonce ++ a.2
  a.1.emit (.udpDatagram sourceIp sourcePort (out ++ (s.udpTag (s.obj 0x1040 3) out).getD []))

/-- A datagram is one to the dictionary (R79): UDP access is on, and it reached the lane, address and port of 0x1040. -/
def State.udpForUs (s : State) (lane destIp destPort : Nat) : Bool :=
  s.obj 0x1040 1 = 1 && s.obj 0x1040 2 = lane && s.laneMode (lane / 4) (lane % 4) = 3 && s.obj 0x1040 3 = destIp &&
    s.obj 0x1040 4 = destPort

/-- UDP_DATAGRAM (R79, R80). DESIGN CHOICE: the first nonce accepted from a source exceeds 0, as the spec names no nonce that it must exceed (log
entry 214). -/
def execUdpDatagram (lane : Nat) (h : UdpHdr) (bytes : List Nat) (s : State) : Res :=
  if !s.answers ∨ s.boot.restricted ∨ !s.udpForUs lane h.destIp h.destPort then .next s
  else
    let n := field bytes 1 1
    let signed := bytes.take (8 + 64 * n)
    let nonce := field bytes 4 4
    let drop := s.bump 0x1040 6
    match s.udpEntry h.sourceIp with
    | none => .next drop
    | some e =>
      if bytes.length ≠ 24 + 64 * n ∨ n = 0 ∨ 16 < n ∨ field bytes 0 1 ≠ 1 then .next drop
      else if s.udpTag h.sourceIp signed ≠ some (bytes.drop (8 + 64 * n)) then .next drop
      else if nonce ≤ tgetD s.dict.nonces h.sourceIp 0 then .next drop
      else .next (s.serveDatagram e h.sourceIp h.sourcePort bytes)

/-! ### Other paths (R69) -/

/-- DICT_REQUEST (R120): a request of the camera class on the inflow control channel. -/
def execDictRequest (m : CtlHdr) (body : List Nat) (s : State) : Res :=
  control m true s fun k s =>
    let r := requestOf 2 k body
    if !s.pathServed r then (s, 0, [])
    else
      let a := s.runBody r (field body 0 1)
      match a.1 with
      | none => (a.2.sendWindow (sessionKey 2 k) 2 k, 0, [])
      | some x =>
        let b := fit 64 (x.body r.seq (clientByte r))
        ((a.2.sendControl k 0x11 b).sendWindow (sessionKey 2 k) 2 k, 0, b)

/-- A lake peer's request is served (R499). -/
def State.servePeer (s : State) (h : LakeHdr) (body : List Nat) : State :=
  let r := requestOf 4 h.src body
  if !s.pathServed r then s
  else
    let a := s.runBody r (field body 0 1)
    let s1 := match a.1 with
      | some x => a.2.emitAnswer r x
      | none => a.2
    s1.sendWindow (sessionKey 4 h.src) 4 h.src

/-- LAKE_DICT_REQUEST (R499): a lake peer's request. -/
def execLakeDictRequest (h : LakeHdr) (body : List Nat) (s : State) : Res :=
  onMsg s h 0x10 0 fun s => s.servePeer h body

/-- The completion of a dictionary command (R295); `low` stands in DW1. -/
def State.dictDone (s : State) (q : CmdRef) (a : Answer) (low : Nat) : State :=
  s.finish q 0 0 false (a.epoch / 2 ^ 32 % 65536 * 65536 + a.flags % 16 * 4096 + a.status % 4096) (low % 2 ^ 32)

/-- A piece of a DOMAIN (R295): pieces are contiguous; the last one writes the value. Checks 3 to 7 of R601 come before the transfer,
and the length of the data, at most 524,288 dwords, after it. -/
def State.servePiece (s : State) (k cls : Nat) (r : DictReq) (offset total : Nat) (last : Bool) : Answer × State :=
  let no := fun st => (plainAnswer 4 r.idx r.sub st s.epoch, s)
  let j := s.judge cls r.idx r.sub true (s.openTxn k)
  let go := fun (x : Xfer) =>
    let b := x.bytes ++ r.data
    if last then
      if b.length < x.total then (plainAnswer 4 r.idx r.sub 0x0302 s.epoch, s.endTransfer k)
      else (s.endTransfer k).serveWrite k cls 4 r.idx r.sub (b.take x.total) true
    else if x.total ≤ b.length then (plainAnswer 4 r.idx r.sub 0x0302 s.epoch, s.endTransfer k)
    else
      (plainAnswer 4 r.idx r.sub 0 s.epoch, s.setSession k { s.session k with xfer := some { x with bytes := b, last := s.time.now } })
  if j ≠ 0 then no j
  else
    match (s.session k).xfer with
    | some x =>
      if x.idx ≠ r.idx ∨ x.sub ≠ r.sub ∨ !x.write then no 0x0602
      else if offset ≠ x.bytes.length ∨ total ≠ x.total then (plainAnswer 4 r.idx r.sub 0x0302 s.epoch, s.endTransfer k)
      else if 2097152 < r.data.length then no 0x0301
      else go x
    | none =>
      let a := s.serveDomainWrite k cls { r with data := leBytes 4 (total % 2 ^ 32) }
      if offset ≠ 0 then no 0x0302
      else if a.1.status ≠ 0 then a
      else if 2097152 < r.data.length then no 0x0301
      else if total = 0 then (if last then a else no 0x0302)
      else go ⟨true, r.idx, r.sub, total, [], 0, 0, s.time.now, 0, 0, 0⟩

/-- Whether index:sub is a DOMAIN of the part. -/
def State.namesDomain (s : State) (idx sub : Nat) : Bool :=
  match objAccess s.cfg.dies idx sub with
  | some (ty, _) => isDomain ty
  | none => false

/-- DICTIONARY_WRITE (R286, R295). -/
def execDictionaryWrite (q : CmdRef) (ndt index sub offset : Nat) (last : Bool) (total : Nat) (data : List Nat) (s : State) : Res :=
  startCmd s q fun _ =>
    let s0 := s.countVendor true 0xC1
    let r : DictReq := ⟨1, q.cntl, 0, 0, 0, index, sub, fit (4 * ndt) data⟩
    if !s0.pathServed r then .next s0
    else if s.fault.safeHold then .next (s0.safeFail q 0xC1)
    else
      let a := s0.handle r 2 fun k cls s =>
        if !s.namesDomain index sub then answerOf (s.serveWrite k cls 2 index sub r.data false)
        else answerOf (s.servePiece k cls r offset total last)
      let x := a.1.getD (plainAnswer 2 index sub 0 s.epoch)
      .next (a.2.dictDone q x x.epoch)

/-- DICTIONARY_READ (R295): DW1 is the length of the value in bytes. -/
def execDictionaryRead (q : CmdRef) (ndt index sub offset : Nat) (s : State) : Res :=
  startCmd s q fun _ =>
    let s0 := s.countVendor true 0xC2
    let r : DictReq := ⟨1, q.cntl, 0, 0, 0, index, sub, []⟩
    if !s0.pathServed r then .next s0
    else
      let k := sessionKey 1 q.cntl
      let cls := s0.classOf 1 q.cntl
      let whole := s0.readBytes k cls index sub
      let dom := s0.namesDomain index sub
      let more := dom && decide (offset + 4 * ndt < whole.length)
      let a := s0.handle r 1 fun k cls s =>
        let j := s.judge cls index sub false (s.openTxn k)
        if j ≠ 0 then (some (plainAnswer 1 index sub j s.epoch), s)
        else (some ⟨1, index, sub, 0, if more then 4 else 0, s.epoch, []⟩, s.afterRead index sub)
      let x := a.1.getD (plainAnswer 1 index sub 0 s.epoch)
      if x.status ≠ 0 then .next (a.2.dictDone q x 0)
      else
        let b := (if dom then whole.drop offset else whole).take (4 * ndt)
        .next ((a.2.dataOut q b).dictDone q x whole.length)

/-! ### Transactions (R81, R86) -/

/-- TXN_BEGIN (R81). -/
def execTxnBegin (r : DictReq) (s : State) : Res := writeOn { r with idx := 0x1F00, sub := 1, data := [1] } s

/-- TXN_COMMIT_NEXT (R81). -/
def execTxnCommitNext (r : DictReq) (s : State) : Res := writeOn { r with idx := 0x1F00, sub := 1, data := [2] } s

/-- TXN_COMMIT_AT_EPOCH (R53, R81). -/
def execTxnCommitAtEpoch (r : DictReq) (s : State) : Res := writeOn { r with idx := 0x1F00, sub := 1, data := [3] } s

/-- TXN_ROLLBACK (R81). -/
def execTxnRollback (r : DictReq) (s : State) : Res := writeOn { r with idx := 0x1F00, sub := 1, data := [4] } s

/-- TXN_TIMEOUT (R86): an open transaction not committed within 0x1F10:01 rolls back with state 8. -/
def execTxnTimeout (slot : Nat) (s : State) : Res :=
  if slot = 0 ∨ 8 < slot then .fault .absentUnit
  else
    let l := s.slot slot
    let k := l.session
    if (s.session k).slot = slot ∧ s.openTxn k ∧ l.begun + l.limit ≤ s.time.now then .next (s.rollBack k 8) else .next s

/-- CAN_SESSION_TIMEOUT (R86): 10 s without a frame from a CAN client with an open transaction end its session. -/
def execCanSessionTimeout (node : Nat) (s : State) : Res :=
  if s.openTxn (sessionKey 0 node) ∧ (s.session (sessionKey 0 node)).lastFrame + 10000000000 ≤ s.time.now then .next (s.endSession (sessionKey 0 node)) else .next s

/-! ### Writes with a row of their own -/

/-- INFLOW_PORT_RESET (R127). -/
def execInflowPortReset (r : DictReq) (s : State) : Res := writeOn { r with idx := 0x210F, sub := 0 } s

/-- TAKE_OPEN (R137). -/
def execTakeOpen (r : DictReq) (s : State) : Res := writeOn { r with idx := 0x2220, sub := 1, data := [1] } s

/-- TAKE_CLOSE (R139). -/
def execTakeClose (r : DictReq) (s : State) : Res := writeOn { r with idx := 0x2220, sub := 1, data := [2] } s

/-- TAKE_DELETE (R141). -/
def execTakeDelete (r : DictReq) (s : State) : Res := writeOn { r with idx := 0x2220, sub := 1, data := [3] } s

/-- TAKE_ABORT (R140). -/
def execTakeAbort (r : DictReq) (s : State) : Res := writeOn { r with idx := 0x2220, sub := 6 } s

/-- POND_QUERY_REGISTER (R186, R196). -/
def execPondQueryRegister (r : DictReq) (s : State) : Res := writeOn { r with idx := 0x5204, sub := 0 } s

/-- RESERVATIONS_LOAD (R182). -/
def execReservationsLoad (r : DictReq) (s : State) : Res := domainOn { r with idx := 0x5203, sub := 0 } s

/-- DIRTY_LOG_HARVEST (R320). -/
def execDirtyLogHarvest (r : DictReq) (s : State) : Res := writeOn { r with idx := 0x410E, sub := 0 } s

/-- QUIESCE (R321): operation 1 of 0x4108 for the function in the data's first byte. -/
def execQuiesce (r : DictReq) (s : State) : Res := writeOn { r with idx := 0x4108, sub := 0, data := [field r.data 0 1, 1] } s

/-- QUIESCE_RESUME (R321): operation 2. -/
def execQuiesceResume (r : DictReq) (s : State) : Res := writeOn { r with idx := 0x4108, sub := 0, data := [field r.data 0 1, 2] } s

/-- STATE_RESTORE (R324). -/
def execStateRestore (r : DictReq) (s : State) : Res := domainOn { r with idx := 0x410B, sub := 0 } s

/-- TASK_RESET_REGISTER (R385): the index's low bits name the die. -/
def execTaskResetRegister (r : DictReq) (s : State) : Res := writeOn { r with idx := 0x5100 + r.idx % 8, sub := 0 } s

/-- CLEAR_DISPATCHER_HISTOGRAMS (R408). -/
def execClearDispatcherHistograms (r : DictReq) (s : State) : Res := writeOn { r with idx := 0x5012, sub := 0, data := [1] } s

/-- CLEAR_KEY_SLOT (R449). -/
def execClearKeySlot (r : DictReq) (s : State) : Res := writeOn { r with idx := 0x6007, sub := 0 } s

/-- REMOVE_STORED_KEY (R451). -/
def execRemoveStoredKey (r : DictReq) (s : State) : Res := writeOn { r with idx := 0x600E, sub := 0 } s

/-- EMPTY_KEY_STATE_SLOT (R468). -/
def execEmptyKeyStateSlot (r : DictReq) (s : State) : Res := writeOn { r with idx := 0x6404, sub := 0 } s

/-- MEASUREMENT_EXTEND (R485): the sub-index names MS8 to MS15. -/
def execMeasurementExtend (r : DictReq) (s : State) : Res := domainOn { r with idx := 0x640F } s

/-- REPORT_REQUEST (R490). -/
def execReportRequest (r : DictReq) (s : State) : Res := domainOn { r with idx := 0x6409, sub := 0 } s

/-- LXN_BEGIN (R507). -/
def execLxnBegin (r : DictReq) (s : State) : Res := writeOn { r with idx := 0x900D, sub := 1, data := [1] } s

/-- LXN_COMMIT_NEXT (R508). -/
def execLxnCommitNext (r : DictReq) (s : State) : Res := writeOn { r with idx := 0x900D, sub := 1, data := [2] } s

/-- LXN_COMMIT_AT_EPOCH (R508). -/
def execLxnCommitAtEpoch (r : DictReq) (s : State) : Res := writeOn { r with idx := 0x900D, sub := 1, data := [3] } s

/-- LXN_ROLLBACK (R507). -/
def execLxnRollback (r : DictReq) (s : State) : Res := writeOn { r with idx := 0x900D, sub := 1, data := [4] } s

/-- PACKAGE_SOFT_RESET (R531). -/
def execPackageSoftReset (r : DictReq) (s : State) : Res :=
  writeOn { r with idx := 0xA001, sub := 0, data := leBytes 4 0x534F4654 } s

/-- PACKAGE_SOFT_RESET_FORCED (R531). -/
def execPackageSoftResetForced (r : DictReq) (s : State) : Res :=
  writeOn { r with idx := 0xA001, sub := 0, data := leBytes 4 0x534F4655 } s

/-- DIE_RESET (R532). -/
def execDieReset (r : DictReq) (s : State) : Res := writeOn { r with idx := 0xA002, sub := 0 } s

/-- A write of an engine code to 0xA003, for the die in bits [10:8] of the data. -/
def engineOn (r : DictReq) (code : Nat) (s : State) : Res :=
  writeOn { r with idx := 0xA003, sub := 0, data := [code, field r.data 1 1 % 8] } s

/-- CIPHER_ENGINE_RESET (R532): engine code 1. -/
def execCipherEngineReset (r : DictReq) (s : State) : Res := engineOn r 1 s

/-- DIGEST_ENGINE_RESET (R532): engine code 2. -/
def execDigestEngineReset (r : DictReq) (s : State) : Res := engineOn r 2 s

/-- CODEC_ENGINE_RESET (R532): engine code 3. -/
def execCodecEngineReset (r : DictReq) (s : State) : Res := engineOn r 3 s

/-- SEARCH_ENGINE_RESET (R532): engine code 4. -/
def execSearchEngineReset (r : DictReq) (s : State) : Res := engineOn r 4 s

/-- CLEAR_EVENT_LOG (R538). -/
def execClearEventLog (r : DictReq) (s : State) : Res := writeOn { r with idx := 0xA005, sub := 0, data := [1] } s

/-- ACKNOWLEDGE_EVENTS (R544). -/
def execAcknowledgeEvents (r : DictReq) (s : State) : Res := writeOn { r with idx := 0xA00E, sub := 0, data := [1] } s

end Sys2Proof.Machine
end

