-- ==== Sys2Proof/Machine/Pins.lean ====
section
/-!
DEFINITION. Chapter 20: the test access port (R590).
-/

namespace Sys2Proof.Machine

/-- A die's instruction register takes an instruction and its data register is shifted out. -/
def State.scan (s : State) (d instr value : Nat) : State :=
  ({ s with pins := { s.pins with jtagIr := tset s.pins.jtagIr d instr } } : State).emit (.jtag d instr value)

/-- The identification register: revision B1, part 0xE407, the vendor, and 1. -/
def idcodeValue : Nat := 0x1 * 2 ^ 28 + 0xE407 * 2 ^ 12 + Config.jedecVendor.toNat * 2 + 1

/-- The boot status register: failure code, attempts, and the last step of R572 reached. -/
def State.bootStatus (s : State) : Nat := s.boot.failure * 2 ^ 24 + s.boot.attempts * 2 ^ 16 + s.boot.step * 2 ^ 8

/-- IDCODE (R590). -/
def execIdcode (die : Nat) (s : State) : Res := onDie s die fun _ => .next (s.scan die 1 idcodeValue)

/-- BYPASS (R590): every opcode that names no other instruction; the 1-bit register captures 0. -/
def execBypass (die opcode : Nat) (s : State) : Res :=
  onDie s die fun _ => if [0, 1, 2, 0x10].contains opcode then .next s else .next (s.scan die 0xFF 0)

/-- SAMPLE_PRELOAD (R590): the boundary register holds the balls' levels, which are not stated: a free value. -/
def execSamplePreload (die : Nat) (s : State) : Res :=
  onDie s die fun _ => .next ((s.scan die 2 s.freeValue).useFree)

/-- EXTEST (R590): drives the balls only while PORST_N is asserted, and otherwise acts as BYPASS. -/
def execExtest (die : Nat) (s : State) : Res :=
  onDie s die fun _ => if s.boot.porst then .next ((s.scan die 0 s.freeValue).useFree) else .next (s.scan die 0xFF 0)

/-- BOOTSTAT (R573, R590). -/
def execBootstat (die : Nat) (s : State) : Res := onDie s die fun _ => .next (s.scan die 0x10 s.bootStatus)

end Sys2Proof.Machine
end

