-- ==== Sys2Proof/Machine/SelkelAcc.lean ====
section
/-!
DEFINITION. The accumulator rows of the instruction set: major 0x03 (R349, R350).
-/

namespace Sys2Proof.Machine

/-- The product of S and T: of the words, or the sum of the products of their halves. -/
def Ctx.product (c : Ctx) : Int :=
  if c.x.ew = 0 then signed 32 c.sv * signed 32 c.tv
  else signed 16 c.sv * signed 16 c.tv + signed 16 (c.sv / 65536) * signed 16 (c.tv / 65536)

/-- A value goes to the accumulator: at distance 1 for FUNC 0x01 to 0x09, at distance 3 for AEXT and AGETL to AGETG
(R358). -/
def Ctx.toAcc (c : Ctx) (f : Fit) : Act :=
  .done { c.plain with writes := [wr (rA c.x.ctl) f.val 1, wr (rARead c.x.ctl) f.val 3], sticky := f.sticky, q := f.s }

/-- The accumulator as FUNC 0x01 to 0x09 read it takes part in a new value. -/
def Ctx.accumulate (c : Ctx) (f : Int → Int → Int) : Act :=
  c.toAcc (fitAcc 80 c.x.sat (f (signed 80 (c.t.reg (rA c.x.ctl))) c.product))

/-- The accumulator as AEXT and AGETL to AGETG read it. -/
def Ctx.accOut (c : Ctx) : Nat := c.t.reg (rARead c.x.ctl)

/-- A value of the accumulator goes to the G register that S names, at distance 2. -/
def Ctx.fromAcc (c : Ctx) (f : Fit) : Act :=
  .done { c.plain with writes := [wr c.x.s f.val 2], sticky := f.sticky, q := f.s }

/-- AMUL (R349): A := product. -/
def execAmul (die core : Nat) (s : State) : Res :=
  execOp .amul die core s fun c => c.accumulate (fun _ p => p)

/-- AMAC (R349, R350): A := A + product. -/
def execAmac (die core : Nat) (s : State) : Res :=
  execOp .amac die core s fun c => c.accumulate (fun a p => a + p)

/-- AMSU (R349, R350): A := A − product. -/
def execAmsu (die core : Nat) (s : State) : Res :=
  execOp .amsu die core s fun c => c.accumulate (fun a p => a - p)

/-- AMACQ (R349, R350): A := A + 2 × product. -/
def execAmacq (die core : Nat) (s : State) : Res :=
  execOp .amacq die core s fun c => c.accumulate (fun a p => a + 2 * p)

/-- AMSUQ (R349, R350): A := A − 2 × product. -/
def execAmsuq (die core : Nat) (s : State) : Res :=
  execOp .amsuq die core s fun c => c.accumulate (fun a p => a - 2 * p)

/-- ACLR (R349): A := 0. -/
def execAclr (die core : Nat) (s : State) : Res :=
  execOp .aclr die core s fun c => c.toAcc (.plain 0)

/-- ASET (R349): A := T ‖ S, sign-extended. -/
def execAset (die core : Nat) (s : State) : Res :=
  execOp .aset die core s fun c => c.toAcc (.plain (twos 80 (signed 64 (c.tv * 2 ^ 32 + c.sv))))

/-- AEXT (R349, R347, R340): A rounded after a right shift and fitted to 32 bits. -/
def execAext (die core : Nat) (s : State) : Res :=
  execOp .aext die core s fun c => c.fromAcc (fitSigned 32 c.x.sat (roundShift c.x.rnd c.x.t (signed 80 c.accOut)))

/-- AGETL (R349): A [31:0]. -/
def execAgetl (die core : Nat) (s : State) : Res :=
  execOp .agetl die core s fun c => c.fromAcc (.plain (c.accOut % 2 ^ 32))

/-- AGETH (R349): A [63:32]. -/
def execAgeth (die core : Nat) (s : State) : Res :=
  execOp .ageth die core s fun c => c.fromAcc (.plain (c.accOut / 2 ^ 32 % 2 ^ 32))

/-- AGETG (R349): A [79:64], sign-extended. -/
def execAgetg (die core : Nat) (s : State) : Res :=
  execOp .agetg die core s fun c => c.fromAcc (.plain (twos 32 (signed 16 (c.accOut / 2 ^ 64))))

end Sys2Proof.Machine
end

