-- ==== Sys2Proof/Machine/SelkelInt.lean ====
section
/-!
DEFINITION. The integer and multiply rows of the instruction set: majors 0x00 and 0x02 but for division (R338, R344).
-/

namespace Sys2Proof.Machine

/-- ADD (R338, R340): D := S + T in each lane. -/
def execAdd (die core : Nat) (s : State) : Res :=
  execOp .add die core s fun c => c.result (c.packed fun w sat => laneInt w sat (· + ·)) 1
    (cvFlags (2 ^ 32 ≤ c.sv + c.tv) (overflows (signed 32 c.sv + signed 32 c.tv)))

/-- SUB (R338, R340): D := S − T in each lane. -/
def execSub (die core : Nat) (s : State) : Res :=
  execOp .sub die core s fun c => c.result (c.packed fun w sat => laneInt w sat (· - ·)) 1
    (cvFlags (c.tv ≤ c.sv) (overflows (signed 32 c.sv - signed 32 c.tv)))

/-- AND (R338): D := S AND T. -/
def execAnd (die core : Nat) (s : State) : Res :=
  execOp .and die core s fun c => c.result (.plain (Nat.land c.sv c.tv)) 1 (0, 0)

/-- OR (R338): D := S OR T. -/
def execOr (die core : Nat) (s : State) : Res :=
  execOp .or die core s fun c => c.result (.plain (Nat.lor c.sv c.tv)) 1 (0, 0)

/-- XOR (R338): D := S XOR T. -/
def execXor (die core : Nat) (s : State) : Res :=
  execOp .xor die core s fun c => c.result (.plain (Nat.xor c.sv c.tv)) 1 (0, 0)

/-- ANDN (R338): D := S AND NOT T. -/
def execAndn (die core : Nat) (s : State) : Res :=
  execOp .andn die core s fun c => c.result (.plain (Nat.land c.sv (0xFFFFFFFF - c.tv))) 1 (0, 0)

/-- SLT (R338): D := 1 if S < T signed. -/
def execSlt (die core : Nat) (s : State) : Res :=
  execOp .slt die core s fun c => c.result (.plain (b2n (signed 32 c.sv < signed 32 c.tv))) 1 (0, 0)

/-- SLTU (R338): D := 1 if S < T unsigned. -/
def execSltu (die core : Nat) (s : State) : Res :=
  execOp .sltu die core s fun c => c.result (.plain (b2n (c.sv < c.tv))) 1 (0, 0)

/-- MIN (R338): the signed minimum of each lane. -/
def execMin (die core : Nat) (s : State) : Res :=
  execOp .min die core s fun c => c.result (c.packed fun w _ => laneMin w) 1 (0, 0)

/-- MAX (R338): the signed maximum of each lane. -/
def execMax (die core : Nat) (s : State) : Res :=
  execOp .max die core s fun c => c.result (c.packed fun w _ => laneMax w) 1 (0, 0)

/-- MINU (R338): the unsigned minimum of each lane. -/
def execMinu (die core : Nat) (s : State) : Res :=
  execOp .minu die core s fun c => c.result (c.packed fun _ _ a b => .plain (Nat.min a b)) 1 (0, 0)

/-- MAXU (R338): the unsigned maximum of each lane. -/
def execMaxu (die core : Nat) (s : State) : Res :=
  execOp .maxu die core s fun c => c.result (c.packed fun _ _ a b => .plain (Nat.max a b)) 1 (0, 0)

/-- NEG (R338, R340): D := −S in each lane. -/
def execNeg (die core : Nat) (s : State) : Res :=
  execOp .neg die core s fun c => c.result (c.packed1 fun w sat a => fitSigned w sat (-signed w a)) 1 (0, 0)

/-- ABS (R338, R340): the magnitude of each lane. -/
def execAbs (die core : Nat) (s : State) : Res :=
  execOp .abs die core s fun c => c.result (c.packed1 fun w sat a => fitSigned w sat (signed w a).natAbs) 1 (0, 0)

/-- SLL (R338, R340, R341): each lane shifted left by the register amount. -/
def execSll (die core : Nat) (s : State) : Res :=
  execOp .sll die core s fun c => c.result (c.shift fun w a => laneSll w c.x.sat c.tv a) 1
    (shiftCarry true c.tv c.sv)

/-- SRL (R338, R341): each lane shifted right by the register amount, zero fill. -/
def execSrl (die core : Nat) (s : State) : Res :=
  execOp .srl die core s fun c => c.result (c.shift fun w a => laneSrl w c.tv a) 1 (shiftCarry false c.tv c.sv)

/-- SRA (R338, R341): each lane shifted right by the register amount, sign fill. -/
def execSra (die core : Nat) (s : State) : Res :=
  execOp .sra die core s fun c => c.result (c.shift fun w a => laneSra w c.tv a) 1 (shiftCarry false c.tv c.sv)

/-- SLLI (R338, R340, R341): each lane shifted left by the amount field. -/
def execSlli (die core : Nat) (s : State) : Res :=
  execOp .slli die core s fun c => c.result (c.shift fun w a => laneSll w c.x.sat c.x.t a) 1
    (shiftCarry true c.x.t c.sv)

/-- SRLI (R338, R341): each lane shifted right by the amount field, zero fill. -/
def execSrli (die core : Nat) (s : State) : Res :=
  execOp .srli die core s fun c => c.result (c.shift fun w a => laneSrl w c.x.t a) 1 (shiftCarry false c.x.t c.sv)

/-- SRAI (R338, R341): each lane shifted right by the amount field, sign fill. -/
def execSrai (die core : Nat) (s : State) : Res :=
  execOp .srai die core s fun c => c.result (c.shift fun w a => laneSra w c.x.t a) 1 (shiftCarry false c.x.t c.sv)

/-- CLZ (R338): the leading zero bits of S. -/
def execClz (die core : Nat) (s : State) : Res :=
  execOp .clz die core s fun c => c.result (.plain (leadingZeros c.sv)) 1 (0, 0)

/-- POPC (R338): the set bits of S. -/
def execPopc (die core : Nat) (s : State) : Res :=
  execOp .popc die core s fun c => c.result (.plain (popcount 32 c.sv)) 1 (0, 0)

/-- SEXTB (R338): S [7:0] sign-extended. -/
def execSextb (die core : Nat) (s : State) : Res :=
  execOp .sextb die core s fun c => c.result (.plain (twos 32 (signed 8 c.sv))) 1 (0, 0)

/-- SEXTH (R338): S [15:0] sign-extended. -/
def execSexth (die core : Nat) (s : State) : Res :=
  execOp .sexth die core s fun c => c.result (.plain (twos 32 (signed 16 c.sv))) 1 (0, 0)

/-- BSWAP (R338): the bytes of S in reverse order. -/
def execBswap (die core : Nat) (s : State) : Res :=
  execOp .bswap die core s fun c => c.result (.plain (ofBe (leBytes 4 c.sv))) 1 (0, 0)

/-- PACKL (R338): T [15:0] above S [15:0]. -/
def execPackl (die core : Nat) (s : State) : Res :=
  execOp .packl die core s fun c => c.result (.plain (c.tv % 65536 * 65536 + c.sv % 65536)) 1 (0, 0)

/-- PACKH (R338): T [31:16] above S [31:16]. -/
def execPackh (die core : Nat) (s : State) : Res :=
  execOp .packh die core s fun c => c.result (.plain (c.tv / 65536 * 65536 + c.sv / 65536)) 1 (0, 0)

/-- MUL (R344, R340): the low bits of the signed product of each lane. -/
def execMul (die core : Nat) (s : State) : Res :=
  execOp .mul die core s fun c => c.result (c.packed fun w sat => laneInt w sat (· * ·)) 3 (0, 0)

/-- MULH (R344): bits [63:32] of the signed product. -/
def execMulh (die core : Nat) (s : State) : Res :=
  execOp .mulh die core s fun c => c.result (.plain (twos 64 (signed 32 c.sv * signed 32 c.tv) / 2 ^ 32)) 3 (0, 0)

/-- MULHU (R344): bits [63:32] of the unsigned product. -/
def execMulhu (die core : Nat) (s : State) : Res :=
  execOp .mulhu die core s fun c => c.result (.plain (c.sv * c.tv / 2 ^ 32)) 3 (0, 0)

/-- MULHSU (R344): bits [63:32] of the product of S signed and T unsigned. -/
def execMulhsu (die core : Nat) (s : State) : Res :=
  execOp .mulhsu die core s fun c => c.result (.plain (twos 64 (signed 32 c.sv * c.tv) / 2 ^ 32)) 3 (0, 0)

end Sys2Proof.Machine
end

