-- ==== Sys2Proof/Machine/SelkelFix.lean ====
section
/-!
DEFINITION. The division and fixed-point rows of the instruction set (R344, R345, R348).
-/

namespace Sys2Proof.Machine

/-- A division (R345): `onZero` is the result of a zero divisor, which sets DZ, or traps with cause 6 when DZTE is 1. -/
def Ctx.divide (c : Ctx) (onZero : Nat) (q : Fit) : Act :=
  if c.tv ≠ 0 then c.result q 12 (0, 0)
  else if bitOf (c.t.reg rFx) 8 then .trap 6 c.sv
  else
    let e := c.resultOf (.plain onZero) 12 (0, 0)
    .done { e with sticky := Nat.lor e.sticky 4 }

/-- DIV (R344, R345): the signed quotient truncated toward zero. -/
def execDiv (die core : Nat) (s : State) : Res :=
  execOp .div die core s fun c => c.divide (if bitOf c.sv 31 then 0x80000000 else 0x7FFFFFFF)
    (fitSigned 32 c.x.sat (Int.tdiv (signed 32 c.sv) (signed 32 c.tv)))

/-- DIVU (R344, R345): the unsigned quotient. -/
def execDivu (die core : Nat) (s : State) : Res :=
  execOp .divu die core s fun c => c.divide 0xFFFFFFFF (.plain (c.sv / c.tv))

/-- REM (R344, R345): the signed remainder, with the sign of S. -/
def execRem (die core : Nat) (s : State) : Res :=
  execOp .rem die core s fun c => c.divide c.sv (.plain (twos 32 (Int.tmod (signed 32 c.sv) (signed 32 c.tv))))

/-- REMU (R344, R345): the unsigned remainder. -/
def execRemu (die core : Nat) (s : State) : Res :=
  execOp .remu die core s fun c => c.divide c.sv (.plain (c.sv % c.tv))

/-- QMUL (R348): the rounded fractional product of each lane. -/
def execQmul (die core : Nat) (s : State) : Res :=
  execOp .qmul die core s fun c => c.result (c.packed fun w sat => laneQmul w sat c.x.rnd) 2 (0, 0)

/-- QRSHR (R348): each lane rounded after a right shift by a register amount. -/
def execQrshr (die core : Nat) (s : State) : Res :=
  execOp .qrshr die core s fun c => c.result (c.shift fun w a => laneQrshr w c.x.rnd c.tv a) 2 (0, 0)

/-- QRSHRI (R348): each lane rounded after a right shift by the amount field. -/
def execQrshri (die core : Nat) (s : State) : Res :=
  execOp .qrshri die core s fun c => c.result (c.shift fun w a => laneQrshr w c.x.rnd c.x.t a) 2 (0, 0)

/-- QNARROW (R348): the high halves of T and S, rounded and fitted to 16 bits. -/
def execQnarrow (die core : Nat) (s : State) : Res :=
  execOp .qnarrow die core s fun c => c.result (joinFits 16 ([c.sv, c.tv].map fun a => fitSigned 16 c.x.sat (roundShift c.x.rnd 16 (signed 32 a)))) 2 (0, 0)

/-- QSAT16 (R348): S limited to 16 signed bits. -/
def execQsat16 (die core : Nat) (s : State) : Res :=
  execOp .qsat16 die core s fun c => c.result (let f := fitSigned 16 true (signed 32 c.sv); { f with val := twos 32 (signed 16 f.val) }) 2 (0, 0)

end Sys2Proof.Machine
end

