-- ==== Sys2Proof/Machine/SelkelFlow.lean ====
section
/-!
DEFINITION. The branch and jump rows of the instruction set (R346, R369).
-/

namespace Sys2Proof.Machine

/-- BEQ (R346): branches when S and T are equal. -/
def execBeq (die core : Nat) (s : State) : Res :=
  execOp .beq die core s fun c => c.branch (c.sv = c.tv)

/-- BNE (R346): branches when S and T are not equal. -/
def execBne (die core : Nat) (s : State) : Res :=
  execOp .bne die core s fun c => c.branch (c.sv ≠ c.tv)

/-- BLT (R346): branches when S is signed less T. -/
def execBlt (die core : Nat) (s : State) : Res :=
  execOp .blt die core s fun c => c.branch (signed 32 c.sv < signed 32 c.tv)

/-- BGE (R346): branches when S is signed greater or equal T. -/
def execBge (die core : Nat) (s : State) : Res :=
  execOp .bge die core s fun c => c.branch (signed 32 c.tv ≤ signed 32 c.sv)

/-- BLTU (R346): branches when S is unsigned less T. -/
def execBltu (die core : Nat) (s : State) : Res :=
  execOp .bltu die core s fun c => c.branch (c.sv < c.tv)

/-- BGEU (R346): branches when S is unsigned greater or equal T. -/
def execBgeu (die core : Nat) (s : State) : Res :=
  execOp .bgeu die core s fun c => c.branch (c.tv ≤ c.sv)

/-- J (R346). -/
def execJ (die core : Nat) (s : State) : Res :=
  execOp .j die core s fun c => c.jump (c.t.pc + c.x.imm * 4) none

/-- JAL (R346): the address plus 4 goes to G31. -/
def execJal (die core : Nat) (s : State) : Res :=
  execOp .jal die core s fun c => c.jump (c.t.pc + c.x.imm * 4) (some 31)

/-- JALR (R346): the target is S + IMM; the address plus 4 goes to D. -/
def execJalr (die core : Nat) (s : State) : Res :=
  execOp .jalr die core s fun c => c.jump c.ea (some c.x.d)

/-- B of Selkel-1 (R369). -/
def execB (die core : Nat) (s : State) : Res :=
  execOp .b die core s fun c => c.jump (c.t.pc + c.x.imm * 4) none

/-- BL of Selkel-1 (R369): the address plus 4 goes to G15. -/
def execBl (die core : Nat) (s : State) : Res :=
  execOp .bl die core s fun c => c.jump (c.t.pc + c.x.imm * 4) (some 15)

/-- BR of Selkel-1 (R369): the target is S + IMM; the address plus 4 goes to D. -/
def execBr (die core : Nat) (s : State) : Res :=
  execOp .br die core s fun c => c.jump c.ea (some c.x.d)

end Sys2Proof.Machine
end

