-- ==== Sys2Proof/Machine/SelkelMem.lean ====
section
/-!
DEFINITION. The immediate, load and store rows of the instruction set (R342, R343).
-/

namespace Sys2Proof.Machine

/-- The immediate, zero-extended: 13 bits in Selkel-1, else 16. -/
def Ctx.immU (c : Ctx) : Nat := if c.t.selkel1 then twos 13 c.x.imm else twos 16 c.x.imm

/-- ADDI (R342, R340): D := S + IMM. -/
def execAddi (die core : Nat) (s : State) : Res :=
  execOp .addi die core s fun c => c.result (fitSigned 32 false (signed 32 c.sv + c.x.imm)) 1
    (cvFlags (2 ^ 32 ≤ c.sv + twos 32 c.x.imm) (overflows (signed 32 c.sv + c.x.imm)))

/-- ANDI (R342): D := S AND IMM, zero-extended. -/
def execAndi (die core : Nat) (s : State) : Res :=
  execOp .andi die core s fun c => c.result (.plain (Nat.land c.sv c.immU)) 1 (0, 0)

/-- ORI (R342): D := S OR IMM, zero-extended. -/
def execOri (die core : Nat) (s : State) : Res :=
  execOp .ori die core s fun c => c.result (.plain (Nat.lor c.sv c.immU)) 1 (0, 0)

/-- XORI (R342): D := S XOR IMM, zero-extended. -/
def execXori (die core : Nat) (s : State) : Res :=
  execOp .xori die core s fun c => c.result (.plain (Nat.xor c.sv c.immU)) 1 (0, 0)

/-- SLTI (R342): D := 1 if S < IMM signed. -/
def execSlti (die core : Nat) (s : State) : Res :=
  execOp .slti die core s fun c => c.result (.plain (b2n (signed 32 c.sv < c.x.imm))) 1 (0, 0)

/-- SLTIU (R342): D := 1 if S < IMM unsigned. -/
def execSltiu (die core : Nat) (s : State) : Res :=
  execOp .sltiu die core s fun c => c.result (.plain (b2n (c.sv < twos 32 c.x.imm))) 1 (0, 0)

/-- LUI (R342): D := IMM in the high bits. -/
def execLui (die core : Nat) (s : State) : Res :=
  execOp .lui die core s fun c => c.result (.plain (twos 32 (c.x.imm * (if c.t.selkel1 then 524288 else 65536)))) 1 (0, 0)

/-- LB (R343): a byte, sign-extended. -/
def execLb (die core : Nat) (s : State) : Res :=
  execOp .lb die core s fun c => c.load 1 fun v => twos 32 (signed 8 v)

/-- LBU (R343): a byte, zero-extended. -/
def execLbu (die core : Nat) (s : State) : Res :=
  execOp .lbu die core s fun c => c.load 1 id

/-- LH (R343): a halfword, sign-extended. -/
def execLh (die core : Nat) (s : State) : Res :=
  execOp .lh die core s fun c => c.load 2 fun v => twos 32 (signed 16 v)

/-- LHU (R343): a halfword, zero-extended. -/
def execLhu (die core : Nat) (s : State) : Res :=
  execOp .lhu die core s fun c => c.load 2 id

/-- LW (R343): a word. -/
def execLw (die core : Nat) (s : State) : Res :=
  execOp .lw die core s fun c => c.load 4 id

/-- SB (R343): the low byte of the register that D names. -/
def execSb (die core : Nat) (s : State) : Res :=
  execOp .sb die core s fun c => c.store 1 (leBytes 1 c.dv)

/-- SH (R343): the low halfword of the register that D names. -/
def execSh (die core : Nat) (s : State) : Res :=
  execOp .sh die core s fun c => c.store 2 (leBytes 2 c.dv)

/-- SW (R343): the word of the register that D names. -/
def execSw (die core : Nat) (s : State) : Res :=
  execOp .sw die core s fun c => c.store 4 (leBytes 4 c.dv)

end Sys2Proof.Machine
end

