-- ==== Sys2Proof/Machine/SelkelSys.lean ====
section
/-!
DEFINITION. The system rows of the instruction set: major 0x30 (R330 to R334, R352).
-/

namespace Sys2Proof.Machine

/-- A control register is read; a read of CYCLELO latches CYCLEHI, and one of EPOCHLO latches EPOCHHI and PHASE. -/
def Ctx.readControl (c : Ctx) : Act :=
  let n := c.x.ctl
  if !ctlNumbers.contains n then .trap 8 n
  else
    let cycles := c.t.cycles + c.t.waitCycles c.x
    let v := c.s.ctlRead c.die c.slot c.core { c.t with cycles := cycles } n
    let k := c.s.clock c.die
    let latches :=
      if n = 0x020 then [wr (rC 0x021) (cycles / 2 ^ 32) 1]
      else if n = 0x022 then [wr (rC 0x023) (k.epoch / 2 ^ 32 % 65536) 1, wr (rC 0x024) k.phase 1]
      else []
    .done { c.plain with writes := wr c.x.d v 1 :: latches }

/-- The bits of a control register that a mask names are written with those of a value, at distance 2. -/
def Ctx.writeControl (c : Ctx) (mask val : Nat) : Act :=
  let n := c.x.ctl
  if !c.t.ctlWritable n then .trap 8 n
  else
    let m := Nat.land mask (ctlMask n)
    let write : RegWrite := ⟨rC n, m, val, 2, false⟩
    .done { c.plain with writes := write :: (if n = 0x002 then [⟨rDzte, 0, 0, 2, false⟩] else []) }

/-- The return from a trap: EPC is where the task goes on. -/
def Ctx.returnFromTrap (c : Ctx) : Act :=
  .done { c.plain with after := c.s.setTask c.die c.slot { c.t with inTrap := false }, next := c.t.reg (rC 0x11), cost := 3 }

/-- WAIT: with mask 0 the task goes to its ready list; it goes on when the condition holds, else it blocks. -/
def Ctx.waitFlags (c : Ctx) : Act :=
  let s1 := c.s.consumeOutput c.die c.slot
  match s1.task c.die c.slot with
  | none => .done { c.plain with after := s1 }
  | some t =>
    let w := { t with waitMask := c.sv, waitAll := bitOf c.x.ctl 0, waitReg := c.x.d }
    if c.sv = 0 then .done { c.plain with after := s1.yieldCore c.die c.slot, writes := [wr c.x.d 0 1] }
    else if w.waitHolds then
      let m := Nat.land t.flags c.sv
      .done { c.plain with after := s1.setTask c.die c.slot { t with flags := t.flags - m }, writes := [wr c.x.d m 1] }
    else .done { c.plain with after := s1.setTask c.die c.slot { w with state := 1 }, writes := [wr c.x.d 0 1] }

/-- CRD (R352, R334): D := a control register; the latches of R330 are filled. -/
def execCrd (die core : Nat) (s : State) : Res :=
  execOp .crd die core s fun c => c.readControl

/-- CWR (R352, R334): a control register := S. -/
def execCwr (die core : Nat) (s : State) : Res :=
  execOp .cwr die core s fun c => c.writeControl 0xFFFFFFFF c.sv

/-- CSET (R352, R334): the bits of S are set. -/
def execCset (die core : Nat) (s : State) : Res :=
  execOp .cset die core s fun c => c.writeControl c.sv 0xFFFFFFFF

/-- CCLR (R352, R334): the bits of S are cleared. -/
def execCclr (die core : Nat) (s : State) : Res :=
  execOp .cclr die core s fun c => c.writeControl c.sv 0

/-- TRAP (R352, R353): a trap with cause 0x09. -/
def execTrap (die core : Nat) (s : State) : Res :=
  execOp .trap die core s fun c => Act.trap 9 c.x.ctl

/-- ERET (R352): PC := EPC and INTRAP := 0; undefined with INTRAP 0. -/
def execEret (die core : Nat) (s : State) : Res :=
  execOp .eret die core s fun c => c.returnFromTrap

/-- WAIT (R352, R384): the task waits on its event flags. -/
def execWait (die core : Nat) (s : State) : Res :=
  execOp .wait die core s fun c => c.waitFlags

/-- FENCE (R352, R359, R377, R396): earlier effects stand, and the dispatcher takes the output entries. -/
def execFence (die core : Nat) (s : State) : Res :=
  execOp .fence die core s fun c => c.waits { c.plain with after := c.s.consumeOutput c.die c.slot }

/-- EXIT (R352, R385, R400): the task ends with S as its result word. -/
def execExit (die core : Nat) (s : State) : Res :=
  execOp .exit die core s fun c => Act.done { c.plain with after := (c.s.consumeOutput c.die c.slot).stopTask c.die c.slot 0 c.sv 0 }

end Sys2Proof.Machine
end

