-- ==== Sys2Proof/Machine/SelkelVec.lean ====
section
/-!
DEFINITION. The vector rows of the instruction set: majors 0x38 to 0x3B (R366, R401 to R403).
-/

namespace Sys2Proof.Machine

/-- A vector accumulator is written, at a distance for major 0x39, and at distance 4 for major 0x3B (R358). -/
def Ctx.toVA (c : Ctx) (n : Nat) (f : Fit) (dist : Nat) : Act :=
  .done { c.plain with writes := [wr (rVA (n % 4)) f.val dist, wr (rVARead (n % 4)) f.val 4], sticky := f.sticky, q := f.s }

/-- The products of a multiply-accumulate: of the 16-bit lanes, or the sums of the products of two 8-bit lanes. -/
def Ctx.products (c : Ctx) : List Int :=
  let a := c.t.reg (rV c.x.s)
  let b := c.t.reg (rV c.x.t)
  (List.range 32).map fun j =>
    let lane := fun (w k x : Nat) => signed w (x / 2 ^ (w * k))
    if c.x.ew = 1 then lane 16 j a * lane 16 j b
    else lane 8 (2 * j) a * lane 8 (2 * j) b + lane 8 (2 * j + 1) a * lane 8 (2 * j + 1) b

/-- A multiply-accumulate over the 32 lanes of 48 bits (R402, R350). -/
def Ctx.macc (c : Ctx) (f : Int → Int → Int) : Act :=
  let va := lanesOf 48 32 (c.t.reg (rVA (c.x.d / 8 % 4)))
  c.toVA (c.x.d / 8) (joinFits 48 ((va.zip c.products).map fun p => fitAcc 48 c.x.sat (f (signed 48 p.1) p.2))) 1

/-- VLD: alignment to 64, place and poison are checked as for a load. -/
def Ctx.loadV (c : Ctx) : Act :=
  let a := c.sv
  if a % 64 ≠ 0 then .trap 3 a
  else
    match c.s.place c.die c.slot c.t a 64 with
    | none => .trap 4 a
    | some p =>
      if c.s.placePoisoned p 64 then .trap 0x0A a
      else .done (c.loaded p (wr (rV c.x.d) (ofLe (c.s.placeRead c.t p 64)) 4))

/-- VST: as a store, of 64 bytes. -/
def Ctx.storeV (c : Ctx) : Act :=
  let a := c.sv
  let b := leBytes 64 (c.t.reg (rV c.x.d))
  if a % 64 ≠ 0 then .trap 3 a
  else
    match c.s.place c.die c.slot c.t a 64 with
    | none => .trap 4 a
    | some (.ring _) => .trap 4 a
    | some (.seg m) => .done (c.stored m b)
    | some (.pond m) => c.waits (c.stored m b)

/-- Lanes of VS and VT from a lane on, interleaved. -/
def Ctx.zip (c : Ctx) (first : Nat) : Act :=
  let w := vWidth c.x.ew
  let n := vLanes c.x.ew
  let a := (lanesOf w n (c.t.reg (rV c.x.s))).drop first
  let b := (lanesOf w n (c.t.reg (rV c.x.t))).drop first
  c.toV (.plain (ofLanes w (((a.zip b).take (n / 2)).flatMap fun p => [p.1, p.2])))

/-- Half-width lanes of VS from a lane on, sign-extended to lanes of width EW. -/
def Ctx.widen (c : Ctx) (first : Nat) : Act :=
  let w := vWidth c.x.ew
  let n := vLanes c.x.ew
  let a := ((lanesOf (w / 2) (2 * n) (c.t.reg (rV c.x.s))).drop first).take n
  c.toV (.plain (ofLanes w (a.map fun x => twos w (signed (w / 2) x))))

/-- VADD (R401). -/
def execVadd (die core : Nat) (s : State) : Res :=
  execOp .vadd die core s fun c => c.toV (c.vec2 fun w sat => laneInt w sat (· + ·))

/-- VSUB (R401). -/
def execVsub (die core : Nat) (s : State) : Res :=
  execOp .vsub die core s fun c => c.toV (c.vec2 fun w sat => laneInt w sat (· - ·))

/-- VAND (R401): bitwise. -/
def execVand (die core : Nat) (s : State) : Res :=
  execOp .vand die core s fun c => c.toV (c.vec2 fun _ _ a b => .plain (Nat.land a b))

/-- VOR (R401): bitwise. -/
def execVor (die core : Nat) (s : State) : Res :=
  execOp .vor die core s fun c => c.toV (c.vec2 fun _ _ a b => .plain (Nat.lor a b))

/-- VXOR (R401): bitwise. -/
def execVxor (die core : Nat) (s : State) : Res :=
  execOp .vxor die core s fun c => c.toV (c.vec2 fun _ _ a b => .plain (Nat.xor a b))

/-- VMIN (R401): signed. -/
def execVmin (die core : Nat) (s : State) : Res :=
  execOp .vmin die core s fun c => c.toV (c.vec2 fun w _ => laneMin w)

/-- VMAX (R401): signed. -/
def execVmax (die core : Nat) (s : State) : Res :=
  execOp .vmax die core s fun c => c.toV (c.vec2 fun w _ => laneMax w)

/-- VMINU (R401). -/
def execVminu (die core : Nat) (s : State) : Res :=
  execOp .vminu die core s fun c => c.toV (c.vec2 fun _ _ a b => .plain (Nat.min a b))

/-- VMAXU (R401). -/
def execVmaxu (die core : Nat) (s : State) : Res :=
  execOp .vmaxu die core s fun c => c.toV (c.vec2 fun _ _ a b => .plain (Nat.max a b))

/-- VNEG (R401). -/
def execVneg (die core : Nat) (s : State) : Res :=
  execOp .vneg die core s fun c => c.toV (c.vec1 fun w sat a => fitSigned w sat (-signed w a))

/-- VABS (R401). -/
def execVabs (die core : Nat) (s : State) : Res :=
  execOp .vabs die core s fun c => c.toV (c.vec1 fun w sat a => fitSigned w sat (signed w a).natAbs)

/-- VSLL (R401): VS shifted left by the VT lane. -/
def execVsll (die core : Nat) (s : State) : Res :=
  execOp .vsll die core s fun c => c.toV (c.vec2 fun w sat a b => laneSll w sat b a)

/-- VSRL (R401): VS shifted right by the VT lane, zero fill. -/
def execVsrl (die core : Nat) (s : State) : Res :=
  execOp .vsrl die core s fun c => c.toV (c.vec2 fun w _ a b => laneSrl w b a)

/-- VSRA (R401): VS shifted right by the VT lane, sign fill. -/
def execVsra (die core : Nat) (s : State) : Res :=
  execOp .vsra die core s fun c => c.toV (c.vec2 fun w _ a b => laneSra w b a)

/-- VQMUL (R401): as QMUL in each lane. -/
def execVqmul (die core : Nat) (s : State) : Res :=
  execOp .vqmul die core s fun c => c.toV (c.vec2 fun w sat => laneQmul w sat c.x.rnd)

/-- VQRSHR (R401): as QRSHR, by the VT lane. -/
def execVqrshr (die core : Nat) (s : State) : Res :=
  execOp .vqrshr die core s fun c => c.toV (c.vec2 fun w _ a b => laneQrshr w c.x.rnd b a)

/-- VCMPEQ (R401): all ones when equal. -/
def execVcmpeq (die core : Nat) (s : State) : Res :=
  execOp .vcmpeq die core s fun c => c.toV (c.vec2 fun w _ a b => .plain (if a = b then 2 ^ w - 1 else 0))

/-- VCMPLT (R401): all ones when less, signed. -/
def execVcmplt (die core : Nat) (s : State) : Res :=
  execOp .vcmplt die core s fun c => c.toV (c.vec2 fun w _ a b => .plain (if signed w a < signed w b then 2 ^ w - 1 else 0))

/-- VCMPLTU (R401): all ones when less, unsigned. -/
def execVcmpltu (die core : Nat) (s : State) : Res :=
  execOp .vcmpltu die core s fun c => c.toV (c.vec2 fun w _ a b => .plain (if a < b then 2 ^ w - 1 else 0))

/-- VSEL (R401): the bits of VS where VD is 1, else those of VT. -/
def execVsel (die core : Nat) (s : State) : Res :=
  execOp .vsel die core s fun c => c.toV (.plain (Nat.lor (Nat.land (c.t.reg (rV c.x.s)) (c.t.reg (rV c.x.d)))
    (Nat.land (c.t.reg (rV c.x.t)) (2 ^ 512 - 1 - c.t.reg (rV c.x.d)))))

/-- VMUL (R401): the low lane bits of the signed product. -/
def execVmul (die core : Nat) (s : State) : Res :=
  execOp .vmul die core s fun c => c.toV (c.vec2 fun w sat => laneInt w sat (· * ·))

/-- VPOPC (R401): the set bits of each VS lane. -/
def execVpopc (die core : Nat) (s : State) : Res :=
  execOp .vpopc die core s fun c => c.toV (c.vec1 fun w _ a => .plain (popcount w a))

/-- VMAC (R402): adds the product. -/
def execVmac (die core : Nat) (s : State) : Res :=
  execOp .vmac die core s fun c => c.macc (fun a p => a + p)

/-- VMSU (R402): subtracts the product. -/
def execVmsu (die core : Nat) (s : State) : Res :=
  execOp .vmsu die core s fun c => c.macc (fun a p => a - p)

/-- VMACQ (R402): adds twice the product. -/
def execVmacq (die core : Nat) (s : State) : Res :=
  execOp .vmacq die core s fun c => c.macc (fun a p => a + 2 * p)

/-- VMULA (R402): loads the product. -/
def execVmula (die core : Nat) (s : State) : Res :=
  execOp .vmula die core s fun c => c.macc (fun _ p => p)

/-- VACLR (R402): clears the accumulator. -/
def execVaclr (die core : Nat) (s : State) : Res :=
  execOp .vaclr die core s fun c => c.toVA (c.x.d / 8) (.plain 0) 1

/-- VLD (R403): 64 bytes at the address in the G register that VS names. -/
def execVld (die core : Nat) (s : State) : Res :=
  execOp .vld die core s fun c => c.loadV

/-- VST (R403): 64 bytes to the address in the G register that VS names. -/
def execVst (die core : Nat) (s : State) : Res :=
  execOp .vst die core s fun c => c.storeV

/-- VBCAST (R403): every lane is the low lane bits of G[VS]. -/
def execVbcast (die core : Nat) (s : State) : Res :=
  execOp .vbcast die core s fun c => c.toV (.plain (ofLanes (vWidth c.x.ew) (List.replicate (vLanes c.x.ew) c.sv)))

/-- VGET (R403): lane G[VT] of VS, sign-extended. -/
def execVget (die core : Nat) (s : State) : Res :=
  execOp .vget die core s fun c => c.fromV (.plain (twos 32 (signed (vWidth c.x.ew) (c.vsLanes.getD (c.tv % vLanes c.x.ew) 0))))

/-- VPUT (R403): lane G[VT] of VD is G[VS]; the other lanes are kept. -/
def execVput (die core : Nat) (s : State) : Res :=
  execOp .vput die core s fun c => c.toV (.plain (ofLanes (vWidth c.x.ew) ((lanesOf (vWidth c.x.ew) (vLanes c.x.ew) (c.t.reg (rV c.x.d))).set
    (c.tv % vLanes c.x.ew) c.sv)))

/-- VREDADD (R403): the sum of the lanes, fitted to 32 bits. -/
def execVredadd (die core : Nat) (s : State) : Res :=
  execOp .vredadd die core s fun c => c.fromV (fitSigned 32 c.x.sat ((c.vsLanes.map (signed (vWidth c.x.ew))).foldl (· + ·) 0))

/-- VREDMIN (R403): the signed minimum lane. -/
def execVredmin (die core : Nat) (s : State) : Res :=
  execOp .vredmin die core s fun c => c.fromV (.plain (twos 32 (signed (vWidth c.x.ew) (c.vsLanes.foldl (fun a b => (laneMin (vWidth c.x.ew) a b).val) (c.vsLanes.headD 0)))))

/-- VREDMAX (R403): the signed maximum lane. -/
def execVredmax (die core : Nat) (s : State) : Res :=
  execOp .vredmax die core s fun c => c.fromV (.plain (twos 32 (signed (vWidth c.x.ew) (c.vsLanes.foldl (fun a b => (laneMax (vWidth c.x.ew) a b).val) (c.vsLanes.headD 0)))))

/-- VPERM (R403): byte i is the VS byte that VT byte i names, or 0 from 64 on. -/
def execVperm (die core : Nat) (s : State) : Res :=
  execOp .vperm die core s fun c => c.toV (.plain (ofLanes 8 ((lanesOf 8 64 (c.t.reg (rV c.x.t))).map fun k =>
    if 64 ≤ k then 0 else (lanesOf 8 64 (c.t.reg (rV c.x.s))).getD k 0)))

/-- VZIPL (R403): the low halves of VS and VT interleaved. -/
def execVzipl (die core : Nat) (s : State) : Res :=
  execOp .vzipl die core s fun c => c.zip 0

/-- VZIPH (R403): the high halves of VS and VT interleaved. -/
def execVziph (die core : Nat) (s : State) : Res :=
  execOp .vziph die core s fun c => c.zip (vLanes c.x.ew / 2)

/-- VWIDENL (R403): the lanes of the low half of VS, sign-extended. -/
def execVwidenl (die core : Nat) (s : State) : Res :=
  execOp .vwidenl die core s fun c => c.widen 0

/-- VWIDENH (R403): the lanes of the high half of VS, sign-extended. -/
def execVwidenh (die core : Nat) (s : State) : Res :=
  execOp .vwidenh die core s fun c => c.widen (vLanes c.x.ew)

/-- VACCOUT (R403): the lanes of a vector accumulator rounded after a right shift and fitted to 16 bits. -/
def execVaccout (die core : Nat) (s : State) : Res :=
  execOp .vaccout die core s fun c => c.toV (joinFits 16 ((lanesOf 48 32 (c.t.reg (rVARead c.x.s))).map fun a =>
    fitSigned 16 c.x.sat (roundShift c.x.rnd c.x.t (signed 48 a))))

/-- VACCIN (R403): the lanes of a vector accumulator from those of VS, sign-extended. -/
def execVaccin (die core : Nat) (s : State) : Res :=
  execOp .vaccin die core s fun c => c.toVA c.x.d (.plain (ofLanes 48 ((lanesOf 16 32 (c.t.reg (rV c.x.s))).map fun a => twos 48 (signed 16 a)))) 4

end Sys2Proof.Machine
end

