-- ==== Sys2Proof/Machine/Dispatch.lean ====
section
/-!
DEFINITION. The meaning of every command: one arm per constructor, each one direct call.
-/

namespace Sys2Proof.Machine

def exec (i : Instr) (s : State) : Host.Outcome State Fault Refusal :=
  match i with
  | .phaseAdvance die => Sys2Proof.Machine.execPhaseAdvance die s
  | .epochBoundary offsetsPs => Sys2Proof.Machine.execEpochBoundary offsetsPs s
  | .frameSyncEdge rising => Sys2Proof.Machine.execFrameSyncEdge rising s
  | .ltcFrame rate timecode userBits => Sys2Proof.Machine.execLtcFrame rate timecode userBits s
  | .ptpSyncMessage h seq twoStep originNs arrivalNs => Sys2Proof.Machine.execPtpSyncMessage h seq twoStep originNs arrivalNs s
  | .ptpFollowUpMessage h seq originNs => Sys2Proof.Machine.execPtpFollowUpMessage h seq originNs s
  | .ptpAnnounceMessage h data gm utcOffset => Sys2Proof.Machine.execPtpAnnounceMessage h data gm utcOffset s
  | .ptpDelayRespMessage h seq sentNs receivedNs => Sys2Proof.Machine.execPtpDelayRespMessage h seq sentNs receivedNs s
  | .sourceLost src => Sys2Proof.Machine.execSourceLost src s
  | .holdoverExpiry => Sys2Proof.Machine.execHoldoverExpiry s
  | .returnTimeExpiry src => Sys2Proof.Machine.execReturnTimeExpiry src s
  | .read r => Sys2Proof.Machine.execRead r s
  | .write r => Sys2Proof.Machine.execWrite r s
  | .domainRead r => Sys2Proof.Machine.execDomainRead r s
  | .domainWrite r => Sys2Proof.Machine.execDomainWrite r s
  | .segment r counter => Sys2Proof.Machine.execSegment r counter s
  | .domainAbort r => Sys2Proof.Machine.execDomainAbort r s
  | .segmentAck r counter => Sys2Proof.Machine.execSegmentAck r counter s
  | .unknownCommand r cmd => Sys2Proof.Machine.execUnknownCommand r cmd s
  | .domainTransferTimeout session => Sys2Proof.Machine.execDomainTransferTimeout session s
  | .canHeartbeat => Sys2Proof.Machine.execCanHeartbeat s
  | .udpDatagram lane h bytes => Sys2Proof.Machine.execUdpDatagram lane h bytes s
  | .txnBegin r => Sys2Proof.Machine.execTxnBegin r s
  | .txnCommitNext r => Sys2Proof.Machine.execTxnCommitNext r s
  | .txnCommitAtEpoch r => Sys2Proof.Machine.execTxnCommitAtEpoch r s
  | .txnRollback r => Sys2Proof.Machine.execTxnRollback r s
  | .txnTimeout slot => Sys2Proof.Machine.execTxnTimeout slot s
  | .canSessionTimeout node => Sys2Proof.Machine.execCanSessionTimeout node s
  | .limitedChangeFuseBlow commit outcome => Sys2Proof.Machine.execLimitedChangeFuseBlow commit outcome s
  | .codewordReceived die lane correctable corrected => Sys2Proof.Machine.execCodewordReceived die lane correctable corrected s
  | .bandStartCell c => Sys2Proof.Machine.execBandStartCell c s
  | .bandDataCell c => Sys2Proof.Machine.execBandDataCell c s
  | .bandEndCell c => Sys2Proof.Machine.execBandEndCell c s
  | .frameMarker c => Sys2Proof.Machine.execFrameMarker c s
  | .cellInError die lane cell => Sys2Proof.Machine.execCellInError die lane cell s
  | .nakTimeout die lane => Sys2Proof.Machine.execNakTimeout die lane s
  | .creditRefresh die first => Sys2Proof.Machine.execCreditRefresh die first s
  | .signalDetect die lane => Sys2Proof.Machine.execSignalDetect die lane s
  | .trainingStepComplete die lane => Sys2Proof.Machine.execTrainingStepComplete die lane s
  | .trainingStepTimeout die lane => Sys2Proof.Machine.execTrainingStepTimeout die lane s
  | .bondDeadline die first => Sys2Proof.Machine.execBondDeadline die first s
  | .hello m lowVer highVer laneIndex width replay camera => Sys2Proof.Machine.execHello m lowVer highVer laneIndex width replay camera s
  | .echo m timePs => Sys2Proof.Machine.execEcho m timePs s
  | .echoReply m timePs heldPs nowPs => Sys2Proof.Machine.execEchoReply m timePs heldPs nowPs s
  | .controlAck m acked status => Sys2Proof.Machine.execControlAck m acked status s
  | .dictRequest m body => Sys2Proof.Machine.execDictRequest m body s
  | .portResetMessage m cause => Sys2Proof.Machine.execPortResetMessage m cause s
  | .unknownControlMessage m msg => Sys2Proof.Machine.execUnknownControlMessage m msg s
  | .controlRetryExpiry die first mseq => Sys2Proof.Machine.execControlRetryExpiry die first mseq s
  | .reserveSend die first => Sys2Proof.Machine.execReserveSend die first s
  | .bandEndTimeout die first spring frame band => Sys2Proof.Machine.execBandEndTimeout die first spring frame band s
  | .signalLoss die lane => Sys2Proof.Machine.execSignalLoss die lane s
  | .laneRetrainTimer die lane => Sys2Proof.Machine.execLaneRetrainTimer die lane s
  | .inflowPortReset r => Sys2Proof.Machine.execInflowPortReset r s
  | .takeOpen r => Sys2Proof.Machine.execTakeOpen r s
  | .takeClose r => Sys2Proof.Machine.execTakeClose r s
  | .takeDelete r => Sys2Proof.Machine.execTakeDelete r s
  | .takeAbort r => Sys2Proof.Machine.execTakeAbort r s
  | .frameRecord nsid take spring frame => Sys2Proof.Machine.execFrameRecord nsid take spring frame s
  | .takeSeal nsid take => Sys2Proof.Machine.execTakeSeal nsid take s
  | .get owner cls fromDie die pool => Sys2Proof.Machine.execGet owner cls fromDie die pool s
  | .addref holder handle newHolder => Sys2Proof.Machine.execAddref holder handle newHolder s
  | .pass holder handle nextOwner => Sys2Proof.Machine.execPass holder handle nextOwner s
  | .put holder handle => Sys2Proof.Machine.execPut holder handle s
  | .query handle => Sys2Proof.Machine.execQuery handle s
  | .passedNotice handle owner => Sys2Proof.Machine.execPassedNotice handle owner s
  | .pondQueryRegister r => Sys2Proof.Machine.execPondQueryRegister r s
  | .reservationsLoad r => Sys2Proof.Machine.execReservationsLoad r s
  | .ownerWalkComplete owner => Sys2Proof.Machine.execOwnerWalkComplete owner s
  | .pondAudit die => Sys2Proof.Machine.execPondAudit die s
  | .mergeWindowExpiry nsid unit => Sys2Proof.Machine.execMergeWindowExpiry nsid unit s
  | .heatHalving die => Sys2Proof.Machine.execHeatHalving die s
  | .journalFlush die => Sys2Proof.Machine.execJournalFlush die s
  | .checkpointPassComplete die => Sys2Proof.Machine.execCheckpointPassComplete die s
  | .dieStripeHoldExpiry stripe => Sys2Proof.Machine.execDieStripeHoldExpiry stripe s
  | .flashProgramComplete die op outcome => Sys2Proof.Machine.execFlashProgramComplete die op outcome s
  | .flashEraseComplete die op passed => Sys2Proof.Machine.execFlashEraseComplete die op passed s
  | .flashReadComplete die op outcome => Sys2Proof.Machine.execFlashReadComplete die op outcome s
  | .seepWindowStart die => Sys2Proof.Machine.execSeepWindowStart die s
  | .plwNAssert lowNs recognised => Sys2Proof.Machine.execPlwNAssert lowNs recognised s
  | .holdupOkChange level stableNs => Sys2Proof.Machine.execHoldupOkChange level stableNs s
  | .channelCheck die channel margin => Sys2Proof.Machine.execChannelCheck die channel margin s
  | .flashOperationTimeout die channel ce retrainOk => Sys2Proof.Machine.execFlashOperationTimeout die channel ce retrainOk s
  | .targetResetWaitExpiry die channel ce idOk retryOk => Sys2Proof.Machine.execTargetResetWaitExpiry die channel ce idOk retryOk s
  | .linkUp port speed width => Sys2Proof.Machine.execLinkUp port speed width s
  | .linkDown port => Sys2Proof.Machine.execLinkDown port s
  | .completionTimeout q uncorrectable => Sys2Proof.Machine.execCompletionTimeout q uncorrectable s
  | .sqTailDoorbell cntl qid tail => Sys2Proof.Machine.execSqTailDoorbell cntl qid tail s
  | .cqHeadDoorbell cntl qid head => Sys2Proof.Machine.execCqHeadDoorbell cntl qid head s
  | .commandFetch port cid bytesToHost bytesFromHost => Sys2Proof.Machine.execCommandFetch port cid bytesToHost bytesFromHost s
  | .createIoSq q qid size cqid prio base => Sys2Proof.Machine.execCreateIoSq q qid size cqid prio base s
  | .createIoCq q qid size vector base interrupts => Sys2Proof.Machine.execCreateIoCq q qid size vector base interrupts s
  | .deleteIoSq q qid => Sys2Proof.Machine.execDeleteIoSq q qid s
  | .deleteIoCq q qid => Sys2Proof.Machine.execDeleteIoCq q qid s
  | .getLogPage q lid bytes offset retainAsync => Sys2Proof.Machine.execGetLogPage q lid bytes offset retainAsync s
  | .identify q cns nsid cntl => Sys2Proof.Machine.execIdentify q cns nsid cntl s
  | .abortCommand q sqid cid => Sys2Proof.Machine.execAbortCommand q sqid cid s
  | .setFeatures q fid value => Sys2Proof.Machine.execSetFeatures q fid value s
  | .getFeatures q fid select => Sys2Proof.Machine.execGetFeatures q fid select s
  | .asyncEventRequest q => Sys2Proof.Machine.execAsyncEventRequest q s
  | .namespaceCreate q kind nsze ncap flbas => Sys2Proof.Machine.execNamespaceCreate q kind nsze ncap flbas s
  | .namespaceDelete q nsid => Sys2Proof.Machine.execNamespaceDelete q nsid s
  | .namespaceAttach q nsid cntls => Sys2Proof.Machine.execNamespaceAttach q nsid cntls s
  | .namespaceDetach q nsid cntls => Sys2Proof.Machine.execNamespaceDetach q nsid cntls s
  | .formatNvm q nsid => Sys2Proof.Machine.execFormatNvm q nsid s
  | .formatNvmCryptoErase q nsid => Sys2Proof.Machine.execFormatNvmCryptoErase q nsid s
  | .firmwareImageDownload q offset data => Sys2Proof.Machine.execFirmwareImageDownload q offset data s
  | .fwCommitReplace q slot => Sys2Proof.Machine.execFwCommitReplace q slot s
  | .fwCommitReplaceActivateReset q slot => Sys2Proof.Machine.execFwCommitReplaceActivateReset q slot s
  | .fwCommitActivateReset q slot => Sys2Proof.Machine.execFwCommitActivateReset q slot s
  | .fwCommitActivateNow q slot => Sys2Proof.Machine.execFwCommitActivateNow q slot s
  | .firmwareActivationResume pauseUs => Sys2Proof.Machine.execFirmwareActivationResume pauseUs s
  | .vqResourceAssign q cntl count => Sys2Proof.Machine.execVqResourceAssign q cntl count s
  | .secondaryOnline q cntl => Sys2Proof.Machine.execSecondaryOnline q cntl s
  | .secondaryOffline q cntl => Sys2Proof.Machine.execSecondaryOffline q cntl s
  | .dictionaryWrite q ndt index sub offset last total data => Sys2Proof.Machine.execDictionaryWrite q ndt index sub offset last total data s
  | .dictionaryRead q ndt index sub offset => Sys2Proof.Machine.execDictionaryRead q ndt index sub offset s
  | .createOrderedIoSq q qid size cqid prio base contiguous => Sys2Proof.Machine.execCreateOrderedIoSq q qid size cqid prio base contiguous s
  | .programLoad q handle offset last data => Sys2Proof.Machine.execProgramLoad q handle offset last data s
  | .programUnload q handle => Sys2Proof.Machine.execProgramUnload q handle s
  | .lakeJoin q lake node => Sys2Proof.Machine.execLakeJoin q lake node s
  | .lakeLeave q => Sys2Proof.Machine.execLakeLeave q s
  | .lakeStatus q ndt => Sys2Proof.Machine.execLakeStatus q ndt s
  | .flush q nsid => Sys2Proof.Machine.execFlush q nsid s
  | .nvmWrite q nsid slba nlb data => Sys2Proof.Machine.execNvmWrite q nsid slba nlb data s
  | .nvmRead q nsid slba nlb sglBytes => Sys2Proof.Machine.execNvmRead q nsid slba nlb sglBytes s
  | .compare q nsid slba nlb data => Sys2Proof.Machine.execCompare q nsid slba nlb data s
  | .writeZeroes q nsid slba nlb => Sys2Proof.Machine.execWriteZeroes q nsid slba nlb s
  | .datasetManagementDeallocate q nsid ranges => Sys2Proof.Machine.execDatasetManagementDeallocate q nsid ranges s
  | .verify q nsid slba nlb => Sys2Proof.Machine.execVerify q nsid slba nlb s
  | .search q key table scope => Sys2Proof.Machine.execSearch q key table scope s
  | .searchWide q ndt key table scope => Sys2Proof.Machine.execSearchWide q ndt key table scope s
  | .runProgram q nsid ndt handle group arg source take slba blocks => Sys2Proof.Machine.execRunProgram q nsid ndt handle group arg source take slba blocks s
  | .verifyFrame q nsid take spring frame band => Sys2Proof.Machine.execVerifyFrame q nsid take spring frame band s
  | .verifyTakeSeal q nsid take => Sys2Proof.Machine.execVerifyTakeSeal q nsid take s
  | .verifyRangeDigest q nsid slba blocks alg expected => Sys2Proof.Machine.execVerifyRangeDigest q nsid slba blocks alg expected s
  | .computeRangeDigest q nsid slba blocks alg => Sys2Proof.Machine.execComputeRangeDigest q nsid slba blocks alg s
  | .readFrame q nsid take spring frame band offset bytes => Sys2Proof.Machine.execReadFrame q nsid take spring frame band offset bytes s
  | .readFrameEntry q nsid take spring frame ndt => Sys2Proof.Machine.execReadFrameEntry q nsid take spring frame ndt s
  | .controllerEnable cntl => Sys2Proof.Machine.execControllerEnable cntl s
  | .controllerDisable cntl => Sys2Proof.Machine.execControllerDisable cntl s
  | .shutdownNotification cntl => Sys2Proof.Machine.execShutdownNotification cntl s
  | .nvmSubsystemReset value => Sys2Proof.Machine.execNvmSubsystemReset value s
  | .vfEnableChange port enable numVfs => Sys2Proof.Machine.execVfEnableChange port enable numVfs s
  | .functionLevelReset fn => Sys2Proof.Machine.execFunctionLevelReset fn s
  | .bucketRefill => Sys2Proof.Machine.execBucketRefill s
  | .programHoldExpiry q => Sys2Proof.Machine.execProgramHoldExpiry q s
  | .dirtyLogHarvest r => Sys2Proof.Machine.execDirtyLogHarvest r s
  | .quiesce r => Sys2Proof.Machine.execQuiesce r s
  | .quiesceResume r => Sys2Proof.Machine.execQuiesceResume r s
  | .quiesceLimitExpiry fn => Sys2Proof.Machine.execQuiesceLimitExpiry fn s
  | .stateRestore r => Sys2Proof.Machine.execStateRestore r s
  | .undefinedInstruction die core => Sys2Proof.Machine.execUndefinedInstruction die core s
  | .add die core => Sys2Proof.Machine.execAdd die core s
  | .sub die core => Sys2Proof.Machine.execSub die core s
  | .and die core => Sys2Proof.Machine.execAnd die core s
  | .or die core => Sys2Proof.Machine.execOr die core s
  | .xor die core => Sys2Proof.Machine.execXor die core s
  | .andn die core => Sys2Proof.Machine.execAndn die core s
  | .slt die core => Sys2Proof.Machine.execSlt die core s
  | .sltu die core => Sys2Proof.Machine.execSltu die core s
  | .min die core => Sys2Proof.Machine.execMin die core s
  | .max die core => Sys2Proof.Machine.execMax die core s
  | .minu die core => Sys2Proof.Machine.execMinu die core s
  | .maxu die core => Sys2Proof.Machine.execMaxu die core s
  | .neg die core => Sys2Proof.Machine.execNeg die core s
  | .abs die core => Sys2Proof.Machine.execAbs die core s
  | .sll die core => Sys2Proof.Machine.execSll die core s
  | .srl die core => Sys2Proof.Machine.execSrl die core s
  | .sra die core => Sys2Proof.Machine.execSra die core s
  | .slli die core => Sys2Proof.Machine.execSlli die core s
  | .srli die core => Sys2Proof.Machine.execSrli die core s
  | .srai die core => Sys2Proof.Machine.execSrai die core s
  | .clz die core => Sys2Proof.Machine.execClz die core s
  | .popc die core => Sys2Proof.Machine.execPopc die core s
  | .sextb die core => Sys2Proof.Machine.execSextb die core s
  | .sexth die core => Sys2Proof.Machine.execSexth die core s
  | .bswap die core => Sys2Proof.Machine.execBswap die core s
  | .packl die core => Sys2Proof.Machine.execPackl die core s
  | .packh die core => Sys2Proof.Machine.execPackh die core s
  | .mul die core => Sys2Proof.Machine.execMul die core s
  | .mulh die core => Sys2Proof.Machine.execMulh die core s
  | .mulhu die core => Sys2Proof.Machine.execMulhu die core s
  | .mulhsu die core => Sys2Proof.Machine.execMulhsu die core s
  | .div die core => Sys2Proof.Machine.execDiv die core s
  | .divu die core => Sys2Proof.Machine.execDivu die core s
  | .rem die core => Sys2Proof.Machine.execRem die core s
  | .remu die core => Sys2Proof.Machine.execRemu die core s
  | .qmul die core => Sys2Proof.Machine.execQmul die core s
  | .qrshr die core => Sys2Proof.Machine.execQrshr die core s
  | .qrshri die core => Sys2Proof.Machine.execQrshri die core s
  | .qnarrow die core => Sys2Proof.Machine.execQnarrow die core s
  | .qsat16 die core => Sys2Proof.Machine.execQsat16 die core s
  | .amul die core => Sys2Proof.Machine.execAmul die core s
  | .amac die core => Sys2Proof.Machine.execAmac die core s
  | .amsu die core => Sys2Proof.Machine.execAmsu die core s
  | .amacq die core => Sys2Proof.Machine.execAmacq die core s
  | .amsuq die core => Sys2Proof.Machine.execAmsuq die core s
  | .aclr die core => Sys2Proof.Machine.execAclr die core s
  | .aset die core => Sys2Proof.Machine.execAset die core s
  | .aext die core => Sys2Proof.Machine.execAext die core s
  | .agetl die core => Sys2Proof.Machine.execAgetl die core s
  | .ageth die core => Sys2Proof.Machine.execAgeth die core s
  | .agetg die core => Sys2Proof.Machine.execAgetg die core s
  | .addi die core => Sys2Proof.Machine.execAddi die core s
  | .andi die core => Sys2Proof.Machine.execAndi die core s
  | .ori die core => Sys2Proof.Machine.execOri die core s
  | .xori die core => Sys2Proof.Machine.execXori die core s
  | .slti die core => Sys2Proof.Machine.execSlti die core s
  | .sltiu die core => Sys2Proof.Machine.execSltiu die core s
  | .lui die core => Sys2Proof.Machine.execLui die core s
  | .lb die core => Sys2Proof.Machine.execLb die core s
  | .lbu die core => Sys2Proof.Machine.execLbu die core s
  | .lh die core => Sys2Proof.Machine.execLh die core s
  | .lhu die core => Sys2Proof.Machine.execLhu die core s
  | .lw die core => Sys2Proof.Machine.execLw die core s
  | .sb die core => Sys2Proof.Machine.execSb die core s
  | .sh die core => Sys2Proof.Machine.execSh die core s
  | .sw die core => Sys2Proof.Machine.execSw die core s
  | .beq die core => Sys2Proof.Machine.execBeq die core s
  | .bne die core => Sys2Proof.Machine.execBne die core s
  | .blt die core => Sys2Proof.Machine.execBlt die core s
  | .bge die core => Sys2Proof.Machine.execBge die core s
  | .bltu die core => Sys2Proof.Machine.execBltu die core s
  | .bgeu die core => Sys2Proof.Machine.execBgeu die core s
  | .j die core => Sys2Proof.Machine.execJ die core s
  | .jal die core => Sys2Proof.Machine.execJal die core s
  | .jalr die core => Sys2Proof.Machine.execJalr die core s
  | .b die core => Sys2Proof.Machine.execB die core s
  | .bl die core => Sys2Proof.Machine.execBl die core s
  | .br die core => Sys2Proof.Machine.execBr die core s
  | .crd die core => Sys2Proof.Machine.execCrd die core s
  | .cwr die core => Sys2Proof.Machine.execCwr die core s
  | .cset die core => Sys2Proof.Machine.execCset die core s
  | .cclr die core => Sys2Proof.Machine.execCclr die core s
  | .trap die core => Sys2Proof.Machine.execTrap die core s
  | .eret die core => Sys2Proof.Machine.execEret die core s
  | .wait die core => Sys2Proof.Machine.execWait die core s
  | .fence die core => Sys2Proof.Machine.execFence die core s
  | .exit die core => Sys2Proof.Machine.execExit die core s
  | .vadd die core => Sys2Proof.Machine.execVadd die core s
  | .vsub die core => Sys2Proof.Machine.execVsub die core s
  | .vand die core => Sys2Proof.Machine.execVand die core s
  | .vor die core => Sys2Proof.Machine.execVor die core s
  | .vxor die core => Sys2Proof.Machine.execVxor die core s
  | .vmin die core => Sys2Proof.Machine.execVmin die core s
  | .vmax die core => Sys2Proof.Machine.execVmax die core s
  | .vminu die core => Sys2Proof.Machine.execVminu die core s
  | .vmaxu die core => Sys2Proof.Machine.execVmaxu die core s
  | .vneg die core => Sys2Proof.Machine.execVneg die core s
  | .vabs die core => Sys2Proof.Machine.execVabs die core s
  | .vsll die core => Sys2Proof.Machine.execVsll die core s
  | .vsrl die core => Sys2Proof.Machine.execVsrl die core s
  | .vsra die core => Sys2Proof.Machine.execVsra die core s
  | .vqmul die core => Sys2Proof.Machine.execVqmul die core s
  | .vqrshr die core => Sys2Proof.Machine.execVqrshr die core s
  | .vcmpeq die core => Sys2Proof.Machine.execVcmpeq die core s
  | .vcmplt die core => Sys2Proof.Machine.execVcmplt die core s
  | .vcmpltu die core => Sys2Proof.Machine.execVcmpltu die core s
  | .vsel die core => Sys2Proof.Machine.execVsel die core s
  | .vmul die core => Sys2Proof.Machine.execVmul die core s
  | .vpopc die core => Sys2Proof.Machine.execVpopc die core s
  | .vmac die core => Sys2Proof.Machine.execVmac die core s
  | .vmsu die core => Sys2Proof.Machine.execVmsu die core s
  | .vmacq die core => Sys2Proof.Machine.execVmacq die core s
  | .vmula die core => Sys2Proof.Machine.execVmula die core s
  | .vaclr die core => Sys2Proof.Machine.execVaclr die core s
  | .vld die core => Sys2Proof.Machine.execVld die core s
  | .vst die core => Sys2Proof.Machine.execVst die core s
  | .vbcast die core => Sys2Proof.Machine.execVbcast die core s
  | .vget die core => Sys2Proof.Machine.execVget die core s
  | .vput die core => Sys2Proof.Machine.execVput die core s
  | .vredadd die core => Sys2Proof.Machine.execVredadd die core s
  | .vredmin die core => Sys2Proof.Machine.execVredmin die core s
  | .vredmax die core => Sys2Proof.Machine.execVredmax die core s
  | .vperm die core => Sys2Proof.Machine.execVperm die core s
  | .vzipl die core => Sys2Proof.Machine.execVzipl die core s
  | .vziph die core => Sys2Proof.Machine.execVziph die core s
  | .vwidenl die core => Sys2Proof.Machine.execVwidenl die core s
  | .vwidenh die core => Sys2Proof.Machine.execVwidenh die core s
  | .vaccout die core => Sys2Proof.Machine.execVaccout die core s
  | .vaccin die core => Sys2Proof.Machine.execVaccin die core s
  | .srch die core => Sys2Proof.Machine.execSrch die core s
  | .srch288 die core => Sys2Proof.Machine.execSrch288 die core s
  | .srch576 die core => Sys2Proof.Machine.execSrch576 die core s
  | .sins die core => Sys2Proof.Machine.execSins die core s
  | .sput die core => Sys2Proof.Machine.execSput die core s
  | .swr die core => Sys2Proof.Machine.execSwr die core s
  | .sdel die core => Sys2Proof.Machine.execSdel die core s
  | .srd die core => Sys2Proof.Machine.execSrd die core s
  | .sclr die core => Sys2Proof.Machine.execSclr die core s
  | .sstat die core => Sys2Proof.Machine.execSstat die core s
  | .pget die core => Sys2Proof.Machine.execPget die core s
  | .paddref die core => Sys2Proof.Machine.execPaddref die core s
  | .ppass die core => Sys2Proof.Machine.execPpass die core s
  | .pput die core => Sys2Proof.Machine.execPput die core s
  | .pquery die core => Sys2Proof.Machine.execPquery die core s
  | .pmap die core => Sys2Proof.Machine.execPmap die core s
  | .punmap die core => Sys2Proof.Machine.execPunmap die core s
  | .jsubCipher die core => Sys2Proof.Machine.execJsubCipher die core s
  | .jsubDigest die core => Sys2Proof.Machine.execJsubDigest die core s
  | .jsubCodec die core => Sys2Proof.Machine.execJsubCodec die core s
  | .jpoll die core => Sys2Proof.Machine.execJpoll die core s
  | .cop3Instruction die core => Sys2Proof.Machine.execCop3Instruction die core s
  | .dispatch die => Sys2Proof.Machine.execDispatch die s
  | .timeSliceExpiry die core => Sys2Proof.Machine.execTimeSliceExpiry die core s
  | .heldPostLands die => Sys2Proof.Machine.execHeldPostLands die s
  | .filterDeadline die slot => Sys2Proof.Machine.execFilterDeadline die slot s
  | .computeCoreFailure die core => Sys2Proof.Machine.execComputeCoreFailure die core s
  | .taskResetRegister r => Sys2Proof.Machine.execTaskResetRegister r s
  | .clearDispatcherHistograms r => Sys2Proof.Machine.execClearDispatcherHistograms r s
  | .codecJobComplete die ticket poisoned => Sys2Proof.Machine.execCodecJobComplete die ticket poisoned s
  | .cascadeKey issuer width table key carried count => Sys2Proof.Machine.execCascadeKey issuer width table key carried count s
  | .cascadeIdleToken => Sys2Proof.Machine.execCascadeIdleToken s
  | .cascadeSilenceTimeout conflict => Sys2Proof.Machine.execCascadeSilenceTimeout conflict s
  | .rowRewriteComplete die row agrees poisoned => Sys2Proof.Machine.execRowRewriteComplete die row agrees poisoned s
  | .maintenanceOperationComplete table => Sys2Proof.Machine.execMaintenanceOperationComplete table s
  | .searchArrayScrub die mismatched => Sys2Proof.Machine.execSearchArrayScrub die mismatched s
  | .clearKeySlot r => Sys2Proof.Machine.execClearKeySlot r s
  | .removeStoredKey r => Sys2Proof.Machine.execRemoveStoredKey r s
  | .counterBlockJournalled die slot => Sys2Proof.Machine.execCounterBlockJournalled die slot s
  | .cipherUrgencyExpiry die ticket => Sys2Proof.Machine.execCipherUrgencyExpiry die ticket s
  | .cipherPreemptAtBoundary die core => Sys2Proof.Machine.execCipherPreemptAtBoundary die core s
  | .cipherJobComplete die core poisoned => Sys2Proof.Machine.execCipherJobComplete die core poisoned s
  | .aesCoreTimeout die core => Sys2Proof.Machine.execAesCoreTimeout die core s
  | .emptyKeyStateSlot r => Sys2Proof.Machine.execEmptyKeyStateSlot r s
  | .digestUrgencyExpiry die ticket => Sys2Proof.Machine.execDigestUrgencyExpiry die ticket s
  | .digestJobComplete die core poisoned comparators => Sys2Proof.Machine.execDigestJobComplete die core poisoned comparators s
  | .shaCoreTimeout die core => Sys2Proof.Machine.execShaCoreTimeout die core s
  | .dctlStart die set dctl dlen dexp => Sys2Proof.Machine.execDctlStart die set dctl dlen dexp s
  | .dctlAbort die set => Sys2Proof.Machine.execDctlAbort die set s
  | .ddataWrite die set word => Sys2Proof.Machine.execDdataWrite die set word s
  | .dresRead die set index => Sys2Proof.Machine.execDresRead die set index s
  | .registerJobDone die set => Sys2Proof.Machine.execRegisterJobDone die set s
  | .measurementExtend r => Sys2Proof.Machine.execMeasurementExtend r s
  | .reportRequest r => Sys2Proof.Machine.execReportRequest r s
  | .lakeHeartbeat h b => Sys2Proof.Machine.execLakeHeartbeat h b s
  | .heartbeatSend k => Sys2Proof.Machine.execHeartbeatSend k s
  | .nodeLost node => Sys2Proof.Machine.execNodeLost node s
  | .joinListenExpiry => Sys2Proof.Machine.execJoinListenExpiry s
  | .joinRequest h lowLevel highLevel serial gm rate => Sys2Proof.Machine.execJoinRequest h lowLevel highLevel serial gm rate s
  | .joinAnswer h result runLevel leader generation members => Sys2Proof.Machine.execJoinAnswer h result runLevel leader generation members s
  | .joinAnswerTimeout => Sys2Proof.Machine.execJoinAnswerTimeout s
  | .leave h cause => Sys2Proof.Machine.execLeave h cause s
  | .lakeAck h seq status => Sys2Proof.Machine.execLakeAck h seq status s
  | .lakeRetryExpiry node seq => Sys2Proof.Machine.execLakeRetryExpiry node seq s
  | .lakeDictRequest h body => Sys2Proof.Machine.execLakeDictRequest h body s
  | .lakeDictResponse h body => Sys2Proof.Machine.execLakeDictResponse h body s
  | .lxnBegin r => Sys2Proof.Machine.execLxnBegin r s
  | .lxnCommitNext r => Sys2Proof.Machine.execLxnCommitNext r s
  | .lxnCommitAtEpoch r => Sys2Proof.Machine.execLxnCommitAtEpoch r s
  | .lxnRollback r => Sys2Proof.Machine.execLxnRollback r s
  | .lxnPrepare h ident epoch participants writes => Sys2Proof.Machine.execLxnPrepare h ident epoch participants writes s
  | .lxnVote h ident vote admission status index sub => Sys2Proof.Machine.execLxnVote h ident vote admission status index sub s
  | .lxnCommit h ident epoch => Sys2Proof.Machine.execLxnCommit h ident epoch s
  | .lxnAbort h ident cause => Sys2Proof.Machine.execLxnAbort h ident cause s
  | .lxnQuery h ident => Sys2Proof.Machine.execLxnQuery h ident s
  | .lxnVoteDeadline ident => Sys2Proof.Machine.execLxnVoteDeadline ident s
  | .lxnQueryDeadline ident => Sys2Proof.Machine.execLxnQueryDeadline ident s
  | .lxnOutcomeDeadline ident => Sys2Proof.Machine.execLxnOutcomeDeadline ident s
  | .searchRequest h ident table width key => Sys2Proof.Machine.execSearchRequest h ident table width key s
  | .searchResult h ident result count status => Sys2Proof.Machine.execSearchResult h ident result count status s
  | .lakeSearchResend ident => Sys2Proof.Machine.execLakeSearchResend ident s
  | .lakeSearchTimeout ident => Sys2Proof.Machine.execLakeSearchTimeout ident s
  | .partReady h lakeTake spring frame bands => Sys2Proof.Machine.execPartReady h lakeTake spring frame bands s
  | .frameCommit h lakeTake spring frame bands => Sys2Proof.Machine.execFrameCommit h lakeTake spring frame bands s
  | .frameCommitTimeout lakeTake spring frame => Sys2Proof.Machine.execFrameCommitTimeout lakeTake spring frame s
  | .eventMessage h body => Sys2Proof.Machine.execEventMessage h body s
  | .dieHeartbeat round => Sys2Proof.Machine.execDieHeartbeat round s
  | .dieSilenceTimeout die => Sys2Proof.Machine.execDieSilenceTimeout die s
  | .lockstepMismatch die => Sys2Proof.Machine.execLockstepMismatch die s
  | .stewardRestartComplete die => Sys2Proof.Machine.execStewardRestartComplete die s
  | .leadSilenceTimeout heardBy leadHealthy takeoverUs => Sys2Proof.Machine.execLeadSilenceTimeout heardBy leadHealthy takeoverUs s
  | .standbySyncComplete => Sys2Proof.Machine.execStandbySyncComplete s
  | .packageSoftReset r => Sys2Proof.Machine.execPackageSoftReset r s
  | .packageSoftResetForced r => Sys2Proof.Machine.execPackageSoftResetForced r s
  | .dieReset r => Sys2Proof.Machine.execDieReset r s
  | .dieResetTimeout die => Sys2Proof.Machine.execDieResetTimeout die s
  | .cipherEngineReset r => Sys2Proof.Machine.execCipherEngineReset r s
  | .digestEngineReset r => Sys2Proof.Machine.execDigestEngineReset r s
  | .codecEngineReset r => Sys2Proof.Machine.execCodecEngineReset r s
  | .searchEngineReset r => Sys2Proof.Machine.execSearchEngineReset r s
  | .engineStallTimeout die engine => Sys2Proof.Machine.execEngineStallTimeout die engine s
  | .emergencyRepeatExpiry event => Sys2Proof.Machine.execEmergencyRepeatExpiry event s
  | .clearEventLog r => Sys2Proof.Machine.execClearEventLog r s
  | .acknowledgeEvents r => Sys2Proof.Machine.execAcknowledgeEvents r s
  | .scrubWindowStart die found => Sys2Proof.Machine.execScrubWindowStart die found s
  | .housekeepingRound die round => Sys2Proof.Machine.execHousekeepingRound die round s
  | .housekeepingReadout die => Sys2Proof.Machine.execHousekeepingReadout die s
  | .graceExpiry => Sys2Proof.Machine.execGraceExpiry s
  | .tripCheck die readings => Sys2Proof.Machine.execTripCheck die readings s
  | .domainWakeComplete die domain wakeUs => Sys2Proof.Machine.execDomainWakeComplete die domain wakeUs s
  | .powerOn => Sys2Proof.Machine.execPowerOn s
  | .aonPowerFail => Sys2Proof.Machine.execAonPowerFail s
  | .porstNAssert lowNs => Sys2Proof.Machine.execPorstNAssert lowNs s
  | .porstNRelease gpio => Sys2Proof.Machine.execPorstNRelease gpio s
  | .firstStageLoaded image => Sys2Proof.Machine.execFirstStageLoaded image s
  | .dictionaryReady ms => Sys2Proof.Machine.execDictionaryReady ms s
  | .firmwareVerified bodyOk => Sys2Proof.Machine.execFirmwareVerified bodyOk s
  | .dramTrainingComplete die trained ms gib rate => Sys2Proof.Machine.execDramTrainingComplete die trained ms gib rate s
  | .flashDiscoveryComplete die population => Sys2Proof.Machine.execFlashDiscoveryComplete die population s
  | .dieSectionTimeout die => Sys2Proof.Machine.execDieSectionTimeout die s
  | .mapRestoreComplete die marker records ms powerOff => Sys2Proof.Machine.execMapRestoreComplete die marker records ms powerOff s
  | .deviceReady ms => Sys2Proof.Machine.execDeviceReady ms s
  | .idcode die => Sys2Proof.Machine.execIdcode die s
  | .bypass die opcode => Sys2Proof.Machine.execBypass die opcode s
  | .samplePreload die => Sys2Proof.Machine.execSamplePreload die s
  | .extest die => Sys2Proof.Machine.execExtest die s
  | .bootstat die => Sys2Proof.Machine.execBootstat die s
  | .plwNRelease => Sys2Proof.Machine.execPlwNRelease s
  | .mediaCoreFailure die core => Sys2Proof.Machine.execMediaCoreFailure die core s
  | .dieLinkFailure dieA dieB => Sys2Proof.Machine.execDieLinkFailure dieA dieB s
  | .ethernetLinkUp die lane => Sys2Proof.Machine.execEthernetLinkUp die lane s
  | .ethernetLinkDown die lane => Sys2Proof.Machine.execEthernetLinkDown die lane s
  | .functionLevelResetComplete fn durationUs => Sys2Proof.Machine.execFunctionLevelResetComplete fn durationUs s
  | .configurationRequest fn => Sys2Proof.Machine.execConfigurationRequest fn s
  | .frameCompletionTimeout spring frame => Sys2Proof.Machine.execFrameCompletionTimeout spring frame s
  | .digestBlockCompressed die set => Sys2Proof.Machine.execDigestBlockCompressed die set s
  | .entryMove table => Sys2Proof.Machine.execEntryMove table s

end Sys2Proof.Machine
end

