-- ==== Sys2Proof/Safety.lean ====
section
/-!
DEFINITION. What counts as a well-kept state, and when the device takes a command, in the terms that statements use.
-/

namespace Sys2Proof.Machine

/-! ### Well-kept states -/

/-- The invariant of memory: the list of cells is in its canonical form. -/
def State.memOk (s : State) : Prop := Memory.wf s.mem = true

/-- What a command leaves alone: the part, the waiting commands, and the canonical form of memory. -/
structure Keeps (s t : State) : Prop where
  part : t.cfg = s.cfg
  queue : t.pending = s.pending
  memory : s.memOk → t.memOk

/-! ### Requests of the dictionary -/

/-- The session of a request. -/
def reqKey (r : DictReq) : Nat := sessionKey r.path r.who

/-- The rights class of a request's client (R66). -/
def State.clsOf (s : State) (r : DictReq) : Nat := (s.heard r).classOf r.path r.who

/-- The dictionary service executes a request: the dictionary answers on its path (R69, R563, R572); a CAN frame is addressed to this
device by a client number that a client may have (R71, R72); on CAN and UDP it is no repeat within 100 ms (R75); and fewer than 64 requests
are in the service (R70). -/
structure Admits (r : DictReq) (s : State) : Prop where
  path : r.path ≤ 5
  up : s.answers = true
  mode : s.boot.restricted = false ∨ r.path = 0 ∨ r.path = 5
  frame : r.path = 0 → s.forUs r = true
  client : r.path = 0 → r.who ≠ 0 ∧ r.who ≤ 127 ∧ r.who ≠ s.obj 0x1030 1
  fresh : r.path = 0 ∨ r.path = 3 →
    (s.session (reqKey r)).dupSeq ≠ some r.seq ∨ (s.session (reqKey r)).dupAt + 100000000 < s.time.now
  room : s.inService.length < 64

/-- The state in which an admitted request is executed: the request is counted, it has a place in the service, and its session is known. -/
def State.atWork (s : State) (r : DictReq) : State := (s.heard r).serving r

/-- What an executed request leaves: the answer is kept for its duplicates and sent on the request's path. -/
def State.told (s : State) (r : DictReq) (a : Option Answer) (t : State) : State :=
  (t.keepAnswer r s.time.now a).sendAnswer r a

/-- What a request leaves that succeeded, with status 0, no flags and no data. -/
def State.done (s : State) (r : DictReq) (cmd : Nat) (t : State) : State :=
  s.told r (some ⟨cmd, r.idx, r.sub, 0, 0, s.epoch, []⟩) t

/-- A request that names its own object. -/
def reqFor (r : DictReq) (idx sub : Nat) (data : List Nat) : DictReq := { r with idx := idx, sub := sub, data := data }

/-- The object of a request is served now: after bring-up every area, before it 0x1000 to 0x1FFF, and with the trip latch in force only the
reads of R563 (R563, R574). -/
def Served (s : State) (idx : Nat) (write : Bool) : Prop :=
  if s.boot.restricted then write = false ∧ tripArea idx = true else 11 ≤ s.boot.step ∨ (0x1000 ≤ idx ∧ idx < 0x2000)

/-- The checks of R601 before the value let a class read index:sub, of type `ty`: the object is served and exists, the class may read it
(R68), and its access code lets it be read (R64). -/
structure MayRead (s : State) (cls idx sub : Nat) (ty : ObjTy) : Prop where
  served : Served s idx false
  object : objExists s.cfg.dies idx = true
  entry : ∃ acc, objAccess s.cfg.dies idx sub = some (ty, acc) ∧ acc ≠ .wo
  right : mayRead cls idx = true
  secret : idx ≠ 0x600A

/-- The checks of R601 before the transaction let a class write index:sub, of type `ty` and access code `acc`: the object is served and
exists, the class may write it (R68), its code lets it be written, inside a transaction where the code asks for one (R64), its count is not
used up (R88), and the device is not in safe hold (R529). -/
structure MayWrite (s : State) (cls idx sub : Nat) (ty : ObjTy) (acc : Acc) (inTxn : Bool) : Prop where
  served : Served s idx true
  object : objExists s.cfg.dies idx = true
  entry : objAccess s.cfg.dies idx sub = some (ty, acc)
  right : mayWrite cls idx = true
  code : acc ≠ .ro
  txn : acc = .rwt → inTxn = true
  counts : s.spent idx sub = false
  free : s.fault.safeHold = false

/-- An admitted request may write the object that it names, which is write-only and of type `ty`. -/
def MayCommand (r : DictReq) (ty : ObjTy) (s : State) : Prop :=
  Admits r s ∧ MayWrite (s.atWork r) (s.clsOf r) r.idx r.sub ty .wo ((s.atWork r).openTxn (reqKey r))

/-- Data that gives a value of n bytes: its bytes, and zeros beyond (R60, R602). -/
def Gives (data : List Nat) (n v : Nat) : Prop := v < 256 ^ n ∧ ∃ k, data = leBytes n v ++ zeros k

/-- A commit can be accepted for boundary b (R52, R53, R84, R88, R89): no count of its objects is used up, its boundary is b, it overlaps no
earlier commit, and the fuse supply is there where it needs it. -/
structure Acceptable (s : State) (a : CommitAsk) (b : Nat) (late : Bool) : Prop where
  counts : (a.writes.any fun w => s.isLimited w.idx w.sub && s.spent w.idx w.sub) = false
  boundary : s.commitBoundary a.writes a.named = some (b, late)
  apart : s.overlaps a b = false
  supply : a.writes.any s.fuses = true → s.pins.fuseVpp = true

/-- The state of a commit's acceptance. -/
def State.accepted (s : State) (a : CommitAsk) : State := (s.acceptCommit a).2.2.2

/-! ### Commands of a queue, cells and messages -/

/-- A command was fetched, has not started and may be executed (R282, R285, R288). -/
def Started (q : CmdRef) (s : State) : Prop := s.unstarted q = true

/-- A command sees a range of a namespace. -/
def SeesRange (s : State) (q : CmdRef) (nsid slba blocks : Nat) : Prop := ∃ n, s.seen q nsid = some n ∧ slba + blocks ≤ n.nsze

/-- A command may change ranges of a conventional namespace (R278, R286). -/
def MayChange (s : State) (q : CmdRef) (nsid : Nat) (ranges : List (Nat × Nat)) : Prop :=
  s.fault.safeHold = false ∧
    ∃ n, s.seen q nsid = some n ∧ n.kind ≠ 1 ∧ n.wp = false ∧ (ranges.any fun r => n.nsze < r.1 + r.2) = false

/-- A command sees a take of a capture namespace (R298). -/
def SeesTake (s : State) (q : CmdRef) (nsid take : Nat) (t : Take) : Prop :=
  (∃ n, s.seen q nsid = some n ∧ n.kind = 1) ∧ s.takeOf nsid take = some t ∧ t.state ≠ 3 ∧ t.state ≠ 5

/-- A lane of the part. -/
def IsLane (s : State) (die lane : Nat) : Prop := s.hasDie die = true ∧ lane < 4

/-- The state in which a charged cell joins those of its lane: its header was valid, it is the next of its lane's sequence, and a marker of
the reference spring is a boundary of source 1 (R38, R102, R111). -/
def State.cellState (s : State) (c : Cell) : State :=
  ((((s.cellArrives c.die c.lane).inSequence c.die c.lane c.lseq).2).markerBoundary c)

/-- The state in which a charged cell is taken: it is the one cell that its lane holds. -/
def State.cellAlone (s : State) (c : Cell) : State :=
  (s.cellState c).setLane c.die c.lane { (s.cellState c).lane c.die c.lane with
    waiting := [⟨c, ((s.cellState c).clock c.die).epoch, ((s.cellState c).clock c.die).phase, (s.cellState c).time.now⟩] }

/-- A charged cell of a row's TYPE is next on a lane that is up, and names its version and a band of the port (R103, R111). -/
structure CellNext (type : Nat) (c : Cell) (s : State) : Prop where
  lane : IsLane s c.die c.lane
  kind : c.type = type
  up : ((s.cellArrives c.die c.lane).lane c.die c.lane).state = 7
  next : c.lseq = ((s.cellArrives c.die c.lane).lane c.die c.lane).expSeq
  fits : (s.cellArrives c.die c.lane).cellFits c = true

/-- What a charged cell leaves that its lane holds alone and that is taken at once: the state after `f`, with no cell waiting. -/
def State.cellGone (c : Cell) (t : State) : State :=
  if (t.lane c.die c.lane).waiting = [] then t else t.setLane c.die c.lane { t.lane c.die c.lane with waiting := [] }

/-- A control message is new and is executed (R119). -/
def ControlTaken (m : CtlHdr) (s : State) : Prop :=
  IsLane s m.die m.lane ∧ 5 ≤ (s.lane m.die m.lane).state ∧ (s.lane m.die m.lane).state ≤ 7 ∧ (s.controlIn m).1 = true ∧
    (s.controlMarks m).1 = false

/-- A Wildela message is accepted (R497): it came on a lane of the lake, with version 1, this lake and this node or the group, from another
node, its tag right, its epoch near and its SEQ new, of a type that the level has, and the pond gives a buffer. -/
structure MsgTaken (h : LakeHdr) (ty width : Nat) (s : State) : Prop where
  lane : IsLane s h.die h.lane
  lake : s.lakeLane h.die h.lane = true
  ver : h.ver = 1
  ours : h.lake = s.obj 0x9000 0
  dst : h.dst = s.lake.node ∨ h.dst = 0x1FF
  src : h.src ≠ s.lake.node
  tag : h.tagOk = true
  near : nearEpoch h.epoch s.epoch = true
  fresh : s.seqNew h = true
  level : typeLevel ty width ≤ if s.lake.state = 1 then 1 else s.lake.level
  buffer : (s.lakeBuffer h.die h.src).1 = true

/-- The state in which an accepted Wildela message is handled. -/
def State.msgState (s : State) (h : LakeHdr) (ty width : Nat) : State := (s.lakeReceive h ty width).2

/-! ### Operations on a pond's buffers -/

/-- A GET of an owner is granted (R184): the pool is active, the owner is registered, neither departing nor under a walk, its
class may go on at this fill, and it has a reserved buffer of its own or the pool has one to spare. -/
structure Grants (s : State) (owner cls die pool : Nat) (q : Pool) : Prop where
  healthy : s.healthy die = true
  present : s.pool die pool = some q
  active : q.state = 1
  known : ∃ o, q.owner owner = some o ∧ o.departing = false ∧
    (o.unused ≠ 0 ∨ (q.fill < (s.marks die pool q).2.1 ∧ q.unusedAll < q.free))
  here : owner ∉ s.pond.walked
  share : cls = 0 ∨ q.fill < (s.marks die pool q).2.2
  free : lowestFree q.bufs 0 < q.cfg.count

/-- What a granted GET does: the free buffer of lowest index has the owner as its one holder (R184). -/
def State.granted (s : State) (owner die pool : Nat) (q : Pool) : State :=
  let i := lowestFree q.bufs 0
  let q' := (q.setBuf i { q.buf i with holders := [owner], mark := false }).modOwner owner fun e => { e with held := e.held + 1 }
  ((s.setPool die pool q').bump (0x52B8 + die) (pool + 1)).weir die pool q.fill

/-- The handle that a granted GET answers. -/
def grantedHandle (die pool : Nat) (q : Pool) : Nat := handleOf (q.buf (lowestFree q.bufs 0)).gen die pool (lowestFree q.bufs 0)

/-- A holder shares a buffer with a registered owner: the pool is of the reference-count discipline and the buffer has fewer than 4 holders (R186, R187). -/
structure Shares (s : State) (holder h newHolder : Nat) (q : Pool) : Prop where
  healthy : s.healthy (handleDie h) = true
  present : s.pool (handleDie h) (handlePool h) = some q
  named : q.noBuffer h = false
  kind : s.lastOwner q = false
  held : q.judge h holder = none
  room : (q.buf (handleIndex h)).holders.length < 4
  known : (q.owner newHolder).isSome = true

/-- What an ADDREF does: the new holder comes after the others, and effective minima may rise with its reservation used (R182). -/
def State.shared (s : State) (h newHolder : Nat) (q : Pool) : State :=
  let i := handleIndex h
  s.setPool (handleDie h) (handlePool h) (s.settle
    ((q.setBuf i { q.buf i with holders := (q.buf i).holders ++ [newHolder] }).modOwner newHolder fun e => { e with held := e.held + 1 }))

/-- A holder passes a buffer to a registered owner: the pool is of the named-last-owner discipline (R186, R188). -/
structure Passes (s : State) (holder h next : Nat) (q : Pool) : Prop where
  healthy : s.healthy (handleDie h) = true
  present : s.pool (handleDie h) (handlePool h) = some q
  named : q.noBuffer h = false
  kind : s.lastOwner q = true
  held : q.judge h holder = none
  known : (q.owner next).isSome = true

/-- What a PASS does: the next owner is the one holder, and hears of it. -/
def State.passed (s : State) (holder h next : Nat) (q : Pool) : State :=
  let i := handleIndex h
  (s.setPool (handleDie h) (handlePool h) (s.settle
    (((q.setBuf i { q.buf i with holders := [next] }).modOwner next fun e => { e with held := e.held + 1 }).modOwner holder
      fun e => { e with held := e.held - 1 }))).emit (.passedNotice (s.route (handleDie h) (ownerDie next)) h next)

/-- A holder returns a buffer (R186). -/
structure Returns (s : State) (holder h : Nat) (q : Pool) : Prop where
  healthy : s.healthy (handleDie h) = true
  present : s.pool (handleDie h) (handlePool h) = some q
  held : q.judge h holder = none

/-- What a PUT does; cells that wait for a buffer ask again afterwards. -/
def State.returned (s : State) (holder h : Nat) (q : Pool) : State :=
  (s.setPool (handleDie h) (handlePool h) (q.release (handleIndex h) holder)).afterFree (handleDie h) (handlePool h) holder q.fill

/-- A handle names a held buffer of this generation (R179, R186). -/
structure Names (s : State) (h : Nat) (q : Pool) : Prop where
  healthy : s.healthy (handleDie h) = true
  present : s.pool (handleDie h) (handlePool h) = some q
  notNull : h ≠ 0
  held : (q.buf (handleIndex h)).holders ≠ []
  gen : (q.buf (handleIndex h)).gen = handleGen h

/-! ### Instructions -/

/-- A core's running task executes a word of an operation whose condition holds, an ERET only inside a trap; `c` is what the instruction
sees. -/
def Runs (op : Op) (die core : Nat) (s : State) (c : Ctx) : Prop :=
  s.hasDie die = true ∧ ∃ slot t0 w x, s.running die core = some (slot, t0) ∧ s.fetchWord t0.settle = some w ∧
    decodeWord t0.settle.selkel1 w = some x ∧ x.op = op ∧ (op = .eret → t0.settle.inTrap = true) ∧ x.bad = false ∧ op ≠ .cop3 ∧
    condHolds x.cond (t0.settle.reg rPs) = true ∧ c = ⟨s.setTask die slot t0.settle, die, core, slot, t0.settle, w, x⟩

/-- A core's running task is at a word that its mode defines; `c` is what the instruction sees. -/
def Sees (die core : Nat) (s : State) (c : Ctx) : Prop :=
  s.hasDie die = true ∧ ∃ slot t0 w x, s.running die core = some (slot, t0) ∧ s.fetchWord t0.settle = some w ∧
    decodeWord t0.settle.selkel1 w = some x ∧ c = ⟨s.setTask die slot t0.settle, die, core, slot, t0.settle, w, x⟩

/-- The state after an act of an instruction: its effect, or its trap. -/
def Ctx.after (c : Ctx) (a : Act) : State :=
  match a with
  | .done e => c.commit e
  | .trap cause val =>
    (c.s.setTask c.die c.slot { c.t with cycles := c.t.cycles + c.t.waitCycles c.x }).takeTrap c.die c.slot c.t.pc cause val

/-- Where a core runs the operation and its condition holds, the row does this act. -/
def Does (op : Op) (i : Nat → Nat → Instr) (f : Ctx → Act) : Prop :=
  ∀ (s : State) (die core : Nat) (c : Ctx), Runs op die core s c → exec (i die core) s = .next (c.after (f c))

/-- Where a core runs the operation, its condition holds and so does `ok`, the row has this effect. -/
def DoesWhen (op : Op) (i : Nat → Nat → Instr) (ok : Ctx → Prop) (f : Ctx → Effect) : Prop :=
  ∀ (s : State) (die core : Nat) (c : Ctx), Runs op die core s c → ok c → exec (i die core) s = .next (c.commit (f c))

/-- Where a core runs the operation, its condition holds and so does `ok`, the row traps. -/
def TrapsWhen (op : Op) (i : Nat → Nat → Instr) (ok : Ctx → Prop) (cause : Nat) (val : Ctx → Nat) : Prop :=
  ∀ (s : State) (die core : Nat) (c : Ctx), Runs op die core s c → ok c →
    exec (i die core) s = .next (c.after (.trap cause (val c)))

/-- An address is aligned and its bytes are in a place without poison (R343). -/
def Ctx.finds (c : Ctx) (a n : Nat) (p : Place) : Prop :=
  a % n = 0 ∧ c.s.place c.die c.slot c.t a n = some p ∧ c.s.placePoisoned p n = false

/-! ### Rows by what they do -/

/-- The operation, die and core of a row of the instruction set; none for any other row. -/
def rowOp : Instr → Option (Op × Nat × Nat)
  | .add die core => some (.add, die, core)
  | .sub die core => some (.sub, die, core)
  | .and die core => some (.and, die, core)
  | .or die core => some (.or, die, core)
  | .xor die core => some (.xor, die, core)
  | .andn die core => some (.andn, die, core)
  | .slt die core => some (.slt, die, core)
  | .sltu die core => some (.sltu, die, core)
  | .min die core => some (.min, die, core)
  | .max die core => some (.max, die, core)
  | .minu die core => some (.minu, die, core)
  | .maxu die core => some (.maxu, die, core)
  | .neg die core => some (.neg, die, core)
  | .abs die core => some (.abs, die, core)
  | .sll die core => some (.sll, die, core)
  | .srl die core => some (.srl, die, core)
  | .sra die core => some (.sra, die, core)
  | .slli die core => some (.slli, die, core)
  | .srli die core => some (.srli, die, core)
  | .srai die core => some (.srai, die, core)
  | .clz die core => some (.clz, die, core)
  | .popc die core => some (.popc, die, core)
  | .sextb die core => some (.sextb, die, core)
  | .sexth die core => some (.sexth, die, core)
  | .bswap die core => some (.bswap, die, core)
  | .packl die core => some (.packl, die, core)
  | .packh die core => some (.packh, die, core)
  | .mul die core => some (.mul, die, core)
  | .mulh die core => some (.mulh, die, core)
  | .mulhu die core => some (.mulhu, die, core)
  | .mulhsu die core => some (.mulhsu, die, core)
  | .div die core => some (.div, die, core)
  | .divu die core => some (.divu, die, core)
  | .rem die core => some (.rem, die, core)
  | .remu die core => some (.remu, die, core)
  | .qmul die core => some (.qmul, die, core)
  | .qrshr die core => some (.qrshr, die, core)
  | .qrshri die core => some (.qrshri, die, core)
  | .qnarrow die core => some (.qnarrow, die, core)
  | .qsat16 die core => some (.qsat16, die, core)
  | .amul die core => some (.amul, die, core)
  | .amac die core => some (.amac, die, core)
  | .amsu die core => some (.amsu, die, core)
  | .amacq die core => some (.amacq, die, core)
  | .amsuq die core => some (.amsuq, die, core)
  | .aclr die core => some (.aclr, die, core)
  | .aset die core => some (.aset, die, core)
  | .aext die core => some (.aext, die, core)
  | .agetl die core => some (.agetl, die, core)
  | .ageth die core => some (.ageth, die, core)
  | .agetg die core => some (.agetg, die, core)
  | .addi die core => some (.addi, die, core)
  | .andi die core => some (.andi, die, core)
  | .ori die core => some (.ori, die, core)
  | .xori die core => some (.xori, die, core)
  | .slti die core => some (.slti, die, core)
  | .sltiu die core => some (.sltiu, die, core)
  | .lui die core => some (.lui, die, core)
  | .lb die core => some (.lb, die, core)
  | .lbu die core => some (.lbu, die, core)
  | .lh die core => some (.lh, die, core)
  | .lhu die core => some (.lhu, die, core)
  | .lw die core => some (.lw, die, core)
  | .sb die core => some (.sb, die, core)
  | .sh die core => some (.sh, die, core)
  | .sw die core => some (.sw, die, core)
  | .beq die core => some (.beq, die, core)
  | .bne die core => some (.bne, die, core)
  | .blt die core => some (.blt, die, core)
  | .bge die core => some (.bge, die, core)
  | .bltu die core => some (.bltu, die, core)
  | .bgeu die core => some (.bgeu, die, core)
  | .j die core => some (.j, die, core)
  | .jal die core => some (.jal, die, core)
  | .jalr die core => some (.jalr, die, core)
  | .b die core => some (.b, die, core)
  | .bl die core => some (.bl, die, core)
  | .br die core => some (.br, die, core)
  | .crd die core => some (.crd, die, core)
  | .cwr die core => some (.cwr, die, core)
  | .cset die core => some (.cset, die, core)
  | .cclr die core => some (.cclr, die, core)
  | .trap die core => some (.trap, die, core)
  | .eret die core => some (.eret, die, core)
  | .wait die core => some (.wait, die, core)
  | .fence die core => some (.fence, die, core)
  | .exit die core => some (.exit, die, core)
  | .vadd die core => some (.vadd, die, core)
  | .vsub die core => some (.vsub, die, core)
  | .vand die core => some (.vand, die, core)
  | .vor die core => some (.vor, die, core)
  | .vxor die core => some (.vxor, die, core)
  | .vmin die core => some (.vmin, die, core)
  | .vmax die core => some (.vmax, die, core)
  | .vminu die core => some (.vminu, die, core)
  | .vmaxu die core => some (.vmaxu, die, core)
  | .vneg die core => some (.vneg, die, core)
  | .vabs die core => some (.vabs, die, core)
  | .vsll die core => some (.vsll, die, core)
  | .vsrl die core => some (.vsrl, die, core)
  | .vsra die core => some (.vsra, die, core)
  | .vqmul die core => some (.vqmul, die, core)
  | .vqrshr die core => some (.vqrshr, die, core)
  | .vcmpeq die core => some (.vcmpeq, die, core)
  | .vcmplt die core => some (.vcmplt, die, core)
  | .vcmpltu die core => some (.vcmpltu, die, core)
  | .vsel die core => some (.vsel, die, core)
  | .vmul die core => some (.vmul, die, core)
  | .vpopc die core => some (.vpopc, die, core)
  | .vmac die core => some (.vmac, die, core)
  | .vmsu die core => some (.vmsu, die, core)
  | .vmacq die core => some (.vmacq, die, core)
  | .vmula die core => some (.vmula, die, core)
  | .vaclr die core => some (.vaclr, die, core)
  | .vld die core => some (.vld, die, core)
  | .vst die core => some (.vst, die, core)
  | .vbcast die core => some (.vbcast, die, core)
  | .vget die core => some (.vget, die, core)
  | .vput die core => some (.vput, die, core)
  | .vredadd die core => some (.vredadd, die, core)
  | .vredmin die core => some (.vredmin, die, core)
  | .vredmax die core => some (.vredmax, die, core)
  | .vperm die core => some (.vperm, die, core)
  | .vzipl die core => some (.vzipl, die, core)
  | .vziph die core => some (.vziph, die, core)
  | .vwidenl die core => some (.vwidenl, die, core)
  | .vwidenh die core => some (.vwidenh, die, core)
  | .vaccout die core => some (.vaccout, die, core)
  | .vaccin die core => some (.vaccin, die, core)
  | .srch die core => some (.srch, die, core)
  | .srch288 die core => some (.srch288, die, core)
  | .srch576 die core => some (.srch576, die, core)
  | .sins die core => some (.sins, die, core)
  | .sput die core => some (.sput, die, core)
  | .swr die core => some (.swr, die, core)
  | .sdel die core => some (.sdel, die, core)
  | .srd die core => some (.srd, die, core)
  | .sclr die core => some (.sclr, die, core)
  | .sstat die core => some (.sstat, die, core)
  | .pget die core => some (.pget, die, core)
  | .paddref die core => some (.paddref, die, core)
  | .ppass die core => some (.ppass, die, core)
  | .pput die core => some (.pput, die, core)
  | .pquery die core => some (.pquery, die, core)
  | .pmap die core => some (.pmap, die, core)
  | .punmap die core => some (.punmap, die, core)
  | .jsubCipher die core => some (.jsubCipher, die, core)
  | .jsubDigest die core => some (.jsubDigest, die, core)
  | .jsubCodec die core => some (.jsubCodec, die, core)
  | .jpoll die core => some (.jpoll, die, core)
  | .cop3Instruction die core => some (.cop3, die, core)
  | _ => none

/-- The operations whose whole effect is a result in the register that D names, with its flags. -/
def resultOps : List Op := [
  .add, .sub, .and, .or, .xor, .andn, .slt, .sltu, .min, .max, .minu, .maxu, .neg, .abs, .sll, .srl, .sra, .slli, .srli, .srai, .clz,
  .popc, .sextb, .sexth, .bswap, .packl, .packh, .mul, .mulh, .mulhu, .mulhsu, .qmul, .qrshr, .qrshri, .qnarrow, .qsat16, .addi,
  .andi, .ori, .xori, .slti, .sltiu, .lui]

/-- The rows that store nothing in memory. -/
def storesNothing : Instr → Bool
  | .phaseAdvance _ => true
  | .frameSyncEdge _ => true
  | .ltcFrame _ _ _ => true
  | .ptpSyncMessage _ _ _ _ _ => true
  | .ptpFollowUpMessage _ _ _ => true
  | .ptpAnnounceMessage _ _ _ _ => true
  | .ptpDelayRespMessage _ _ _ _ => true
  | .sourceLost _ => true
  | .holdoverExpiry => true
  | .returnTimeExpiry _ => true
  | .read _ => true
  | .domainRead _ => true
  | .domainAbort _ => true
  | .segmentAck _ _ => true
  | .unknownCommand _ _ => true
  | .domainTransferTimeout _ => true
  | .canHeartbeat => true
  | .txnTimeout _ => true
  | .canSessionTimeout _ => true
  | .limitedChangeFuseBlow _ _ => true
  | .signalDetect _ _ => true
  | .trainingStepComplete _ _ => true
  | .bondDeadline _ _ => true
  | .reserveSend _ _ => true
  | .laneRetrainTimer _ _ => true
  | .get _ _ _ _ _ => true
  | .addref _ _ _ => true
  | .pass _ _ _ => true
  | .put _ _ => true
  | .query _ => true
  | .passedNotice _ _ => true
  | .pondAudit _ => true
  | .mergeWindowExpiry _ _ => true
  | .heatHalving _ => true
  | .journalFlush _ => true
  | .dieStripeHoldExpiry _ => true
  | .seepWindowStart _ => true
  | .channelCheck _ _ _ => true
  | .flashOperationTimeout _ _ _ _ => true
  | .targetResetWaitExpiry _ _ _ _ _ => true
  | .linkUp _ _ _ => true
  | .sqTailDoorbell _ _ _ => true
  | .cqHeadDoorbell _ _ _ => true
  | .commandFetch _ _ _ _ => true
  | .createIoSq _ _ _ _ _ _ => true
  | .createIoCq _ _ _ _ _ _ => true
  | .deleteIoCq _ _ => true
  | .getLogPage _ _ _ _ _ => true
  | .identify _ _ _ _ => true
  | .abortCommand _ _ _ => true
  | .setFeatures _ _ _ => true
  | .getFeatures _ _ _ => true
  | .asyncEventRequest _ => true
  | .namespaceAttach _ _ _ => true
  | .namespaceDetach _ _ _ => true
  | .firmwareImageDownload _ _ _ => true
  | .fwCommitReplace _ _ => true
  | .fwCommitReplaceActivateReset _ _ => true
  | .fwCommitActivateReset _ _ => true
  | .fwCommitActivateNow _ _ => true
  | .firmwareActivationResume _ => true
  | .vqResourceAssign _ _ _ => true
  | .secondaryOnline _ _ => true
  | .secondaryOffline _ _ => true
  | .dictionaryRead _ _ _ _ _ => true
  | .createOrderedIoSq _ _ _ _ _ _ _ => true
  | .programLoad _ _ _ _ _ => true
  | .lakeJoin _ _ _ => true
  | .lakeLeave _ => true
  | .lakeStatus _ _ => true
  | .flush _ _ => true
  | .nvmRead _ _ _ _ _ => true
  | .compare _ _ _ _ _ => true
  | .verify _ _ _ _ => true
  | .search _ _ _ _ => true
  | .searchWide _ _ _ _ _ => true
  | .verifyFrame _ _ _ _ _ _ => true
  | .verifyTakeSeal _ _ _ => true
  | .verifyRangeDigest _ _ _ _ _ _ => true
  | .computeRangeDigest _ _ _ _ _ => true
  | .readFrame _ _ _ _ _ _ _ _ => true
  | .readFrameEntry _ _ _ _ _ _ => true
  | .controllerEnable _ => true
  | .shutdownNotification _ => true
  | .bucketRefill => true
  | .programHoldExpiry _ => true
  | .quiesceLimitExpiry _ => true
  | .dispatch _ => true
  | .timeSliceExpiry _ _ => true
  | .heldPostLands _ => true
  | .cascadeKey _ _ _ _ _ _ => true
  | .cascadeIdleToken => true
  | .cascadeSilenceTimeout _ => true
  | .rowRewriteComplete _ _ _ _ => true
  | .maintenanceOperationComplete _ => true
  | .searchArrayScrub _ _ => true
  | .counterBlockJournalled _ _ => true
  | .cipherUrgencyExpiry _ _ => true
  | .cipherPreemptAtBoundary _ _ => true
  | .aesCoreTimeout _ _ => true
  | .digestUrgencyExpiry _ _ => true
  | .shaCoreTimeout _ _ => true
  | .dctlStart _ _ _ _ _ => true
  | .dctlAbort _ _ => true
  | .ddataWrite _ _ _ => true
  | .dresRead _ _ _ => true
  | .registerJobDone _ _ => true
  | .lakeHeartbeat _ _ => true
  | .heartbeatSend _ => true
  | .joinListenExpiry => true
  | .joinRequest _ _ _ _ _ _ => true
  | .joinAnswer _ _ _ _ _ _ => true
  | .joinAnswerTimeout => true
  | .lakeAck _ _ _ => true
  | .lakeRetryExpiry _ _ => true
  | .lakeDictResponse _ _ => true
  | .lxnPrepare _ _ _ _ _ => true
  | .lxnVote _ _ _ _ _ _ _ => true
  | .lxnCommit _ _ _ => true
  | .lxnAbort _ _ _ => true
  | .lxnQuery _ _ => true
  | .lxnVoteDeadline _ => true
  | .lxnQueryDeadline _ => true
  | .lxnOutcomeDeadline _ => true
  | .searchRequest _ _ _ _ _ => true
  | .searchResult _ _ _ _ _ => true
  | .lakeSearchResend _ => true
  | .lakeSearchTimeout _ => true
  | .eventMessage _ _ => true
  | .dieHeartbeat _ => true
  | .stewardRestartComplete _ => true
  | .standbySyncComplete => true
  | .emergencyRepeatExpiry _ => true
  | .scrubWindowStart _ _ => true
  | .housekeepingRound _ _ => true
  | .housekeepingReadout _ => true
  | .graceExpiry => true
  | .domainWakeComplete _ _ _ => true
  | .porstNRelease _ => true
  | .firstStageLoaded _ => true
  | .dictionaryReady _ => true
  | .firmwareVerified _ => true
  | .mapRestoreComplete _ _ _ _ _ => true
  | .idcode _ => true
  | .bypass _ _ => true
  | .samplePreload _ => true
  | .extest _ => true
  | .bootstat _ => true
  | .mediaCoreFailure _ _ => true
  | .dieLinkFailure _ _ => true
  | .ethernetLinkUp _ _ => true
  | .ethernetLinkDown _ _ => true
  | .functionLevelResetComplete _ _ => true
  | .configurationRequest _ => true
  | .digestBlockCompressed _ _ => true
  | .entryMove _ => true
  | _ => false

end Sys2Proof.Machine
end

