-- ==== Sys2Proof/Certificates/Slice0/Obligations.lean ====
section
/-!
DEFINITION. The statements about the model.
-/

section Slice0

open Sys2Proof Sys2Proof.Machine

/-! ### The step -/

/-- A step runs the command at the front of the queue on the state with the queue's rest. -/
def Obligations.StepRunsFront : Prop :=
  ∀ (c : Instr) (rest : List Instr) (s : State), step { s with pending := c :: rest } = exec c { s with pending := rest }

/-! ### Where each command completes: time and the dictionary -/

/-- Rows of the time base (chapter 2). -/
def Obligations.TimeRowsComplete : Prop :=
  ∀ s : State,
    (∀ die, s.hasDie die = true → s.boot.porst = false → (s.clock die).phase < 65535 →
      exec (.phaseAdvance die) s = .next (s.advancePhase die (s.clock die)).releaseInterrupts) ∧
    (∀ offs, s.boot.porst = false → exec (.epochBoundary offs) s = .next (s.crossBoundary offs)) ∧
    (∀ rising, let s1 : State := { s with pins := { s.pins with frameSync := rising } };
      (b2n (!rising) = s.obj 0x1107 0 → exec (.frameSyncEdge rising) s = .next (s1.useFree.sourceBoundary 2 s.edgeAt true)) ∧
      (b2n (!rising) ≠ s.obj 0x1107 0 → exec (.frameSyncEdge rising) s = .next s1)) ∧
    (∀ rate tc ub, let s1 := (s.setObj 0x1140 2 (ub % 2 ^ 32)).useFree.sourceBoundary 4 s.edgeAt (rate = s.obj 0x1140 1);
      ((s1.source 4).qualified = true → exec (.ltcFrame rate tc ub) s = .next { s1 with time := { s1.time with
        timecode := clearBit (clearBit (tc % 2 ^ 32) 6) 7 + 64, tcAt := s.time.now, tcRem := 0 } }) ∧
      ((s1.source 4).qualified = false → exec (.ltcFrame rate tc ub) s = .next s1)) ∧
    (∀ (h : PtpHdr) seq origin arrival, s.fromMaster h = true →
      exec (.ptpSyncMessage h seq false origin arrival) s = .next ((s.heardSync h.intervalNs).ptpMeasured seq origin arrival) ∧
      ∃ t, exec (.ptpSyncMessage h seq true origin arrival) s = .next t ∧ t.time.ptp.sync = some (seq, arrival)) ∧
    (∀ (h : PtpHdr) seq origin arrival, s.fromMaster h = true → s.time.ptp.sync = some (seq, arrival) →
      exec (.ptpFollowUpMessage h seq origin) s = .next (s.ptpMeasured seq origin arrival)) ∧
    (∀ (h : PtpHdr) data gm utc, s.ptpTakes h = true → s.follows h data gm = true →
      ∃ t, exec (.ptpAnnounceMessage h data gm utc) s = .next t ∧ t.time.ptp.master = some h.src ∧ t.time.ptp.best = data ∧
        t.time.ptp.announceAt = s.time.now ∧ t.obj 0x1130 4 = gm % 2 ^ 64) ∧
    (∀ (h : PtpHdr) seq sent received, s.fromMaster h = true → s.time.ptp.delayWaiting = true → s.time.ptp.delaySeq = seq →
      ∃ t, exec (.ptpDelayRespMessage h seq sent received) s = .next t ∧ t.time.ptp.delayWaiting = false ∧
        t.obj 0x1130 6 = (clampInt 0 0xFFFFFFFF
          ((((s.time.ptp.t2 : Int) - s.time.ptp.t1) + ((received : Int) - sent)) / 2)).toNat) ∧
    (∀ src, 1 ≤ src → src < 5 → src ≠ 3 → s.lossDue src = true → exec (.sourceLost src) s = .next (s.loseSource src)) ∧
    (s.lossDue 3 = true → exec (.sourceLost 3) s =
      .next ((s.modPtp fun p => { p with haveTime := false, master := none }).loseSource 3)) ∧
    (s.holdoverDue = true → s.firstQualified = none →
      exec .holdoverExpiry s = .next ((s.enterTime 3).raise (evPkg 4) s.time.active)) ∧
    (∀ k, s.holdoverDue = true → s.firstQualified = some k → exec .holdoverExpiry s = .next (s.adopt k)) ∧
    (∀ src, s.returnDue src = true → exec (.returnTimeExpiry src) s = .next (s.adopt src))

/-- Requests for one object, transfers of a DOMAIN, and what the paths send of themselves (chapter 3): where the checks of R601 pass, the
request has its effect and is answered with status 0. An ABORT and an unknown command are answered as R74 says. -/
def Obligations.RequestRowsComplete : Prop :=
  ∀ (s : State) (r : DictReq),
    (∀ ty, Admits r s → MayRead (s.atWork r) (s.clsOf r) r.idx r.sub ty → isDomain ty = false →
      exec (.read r) s = .next (s.told r (some ⟨1, r.idx, r.sub, 0, 0, s.epoch,
        ((s.atWork r).readBytes (reqKey r) (s.clsOf r) r.idx r.sub).take 48⟩) ((s.atWork r).afterRead r.idx r.sub))) ∧
    (∀ ty acc held adj b late, let w := s.atWork r;
      let a : CommitAsk := ⟨reqKey r, s.clsOf r, 0, [⟨r.idx, r.sub, held, adj, r.data⟩], none, none⟩;
      Admits r s → MayWrite w (s.clsOf r) r.idx r.sub ty acc (w.openTxn (reqKey r)) → isDomain ty = false → acc ≠ .wo →
      sessionObject r.idx r.sub = false → r.idx ≠ 0x900E → w.openTxn (reqKey r) = false →
      w.overlapsNow (reqKey r) (s.clsOf r) r.idx r.sub ty r.data = false →
      w.holdWrite (w.judgedAgainst (reqKey r)) r.idx r.sub r.data = (0, held, adj) → Acceptable w a b late →
      exec (.write r) s = .next (s.told r (some ⟨2, r.idx, r.sub, 0, b2n adj + 8 * b2n late, b, []⟩)
        (if adj then (w.accepted a).countAdjusted (s.clsOf r) r.idx r.sub else w.accepted a))) ∧
    (∀ ty, let w := s.atWork r;
      let b := w.readBytes (reqKey r) (s.clsOf r) r.idx r.sub;
      let w1 := w.afterRead r.idx r.sub;
      Admits r s → MayRead w (s.clsOf r) r.idx r.sub ty → isDomain ty = true → (w.session (reqKey r)).xfer = none →
      (b = [] → exec (.domainRead r) s = .next (s.told r (some ⟨3, r.idx, r.sub, 0, 0, s.epoch, []⟩) w1)) ∧
      (b ≠ [] → exec (.domainRead r) s = .next (s.told r (some ⟨3, r.idx, r.sub, 0, 4, s.epoch, []⟩)
        (w1.setSession (reqKey r) { w1.session (reqKey r) with
          xfer := some ⟨false, r.idx, r.sub, b.length, b, 0, 0, s.time.now, r.bus, r.seq, clientByte r⟩ })))) ∧
    (∀ m acc n, let w := s.atWork r;
      Admits r s → MayWrite w (s.clsOf r) r.idx r.sub (.domain m) acc (w.openTxn (reqKey r)) → (w.session (reqKey r)).xfer = none →
      (acc ≠ .wo → r.idx ≠ 0x900E → w.fullTxn (reqKey r) r.idx r.sub = false) → Gives r.data 4 n → 1 ≤ n → n ≤ m → n ≤ 3407872 →
      exec (.domainWrite r) s = .next (s.done r 4 (w.setSession (reqKey r) { w.session (reqKey r) with
        xfer := some ⟨true, r.idx, r.sub, n, [], 0, 0, s.time.now, r.bus, r.seq, clientByte r⟩ }))) ∧
    (∀ counter ty acc x, let w := s.atWork r;
      Admits r s → MayWrite w (s.clsOf r) r.idx r.sub ty acc (w.openTxn (reqKey r)) → (w.session (reqKey r)).xfer = some x →
      x.write = true → x.idx = r.idx → x.sub = r.sub → counter = x.next → 1 ≤ r.data.length → r.data.length ≤ 52 →
      x.bytes.length + r.data.length < x.total → exec (.segment r counter) s = .next (s.told r
        (if (counter + 1) % 16 = 0 then some ⟨5, r.idx, r.sub, 0, 0, s.epoch, leBytes 2 (counter + 1)⟩ else none)
        (w.setSession (reqKey r) { w.session (reqKey r) with
          xfer := some { x with bytes := x.bytes ++ r.data, next := counter + 1, last := s.time.now } }))) ∧
    (Admits r s → exec (.domainAbort r) s =
      .next (s.told r (some ⟨6, r.idx, r.sub, 0x0303, 0, s.epoch, []⟩) ((s.atWork r).endTransfer (reqKey r)))) ∧
    (∀ counter ty x, let w := s.atWork r;
      Admits r s → MayRead w (s.clsOf r) r.idx r.sub ty → (w.session (reqKey r)).xfer = some x → x.write = false → x.idx = r.idx →
      x.sub = r.sub → 1 ≤ counter → x.acked ≤ counter → counter ≤ x.next →
      (counter = segments x.total → exec (.segmentAck r counter) s = .next (s.told r none (w.endTransfer (reqKey r)))) ∧
      (counter ≠ segments x.total → exec (.segmentAck r counter) s = .next (s.told r none
        (w.setSession (reqKey r) { w.session (reqKey r) with
          xfer := some { x with acked := counter, next := counter, last := s.time.now } })))) ∧
    (∀ cmd, let w := (s.heard r).visit (reqKey r) (s.clsOf r);
      r.path ≤ 5 → s.pathServed r = true → s.clientOk r = true → exec (.unknownCommand r cmd) s =
        .next (((w.setSession (reqKey r) { w.session (reqKey r) with dupSeq := none }).bump 0x1003 (r.path + 1)).sendAnswer r
          (some ⟨cmd, r.idx, r.sub, 0x0101, 0, s.epoch, []⟩))) ∧
    (∀ lane (h : UdpHdr) bytes e, s.answers = true → s.boot.restricted = false → s.udpForUs lane h.destIp h.destPort = true →
      s.udpEntry h.sourceIp = some e → 1 ≤ field bytes 1 1 → field bytes 1 1 ≤ 16 → bytes.length = 24 + 64 * field bytes 1 1 →
      field bytes 0 1 = 1 → s.udpTag h.sourceIp (bytes.take (8 + 64 * field bytes 1 1)) = some (bytes.drop (8 + 64 * field bytes 1 1)) →
      tgetD s.dict.nonces h.sourceIp 0 < field bytes 4 4 →
      exec (.udpDatagram lane h bytes) s = .next (s.serveDatagram e h.sourceIp h.sourcePort bytes)) ∧
    (∀ k x, (s.session k).xfer = some x → x.last + 100000000 ≤ s.time.now → exec (.domainTransferTimeout k) s =
      .next ((s.endTransfer k).tellSession k x ⟨if x.write then 5 else 3, x.idx, x.sub, 0x0303, 0, s.epoch, []⟩)) ∧
    (s.answers = true → exec .canHeartbeat s = .next (s.canErrors.heartbeat s.heartbeatState))

/-- Rows of transactions (chapter 3, R81 to R89, and R507, R508 for a lake's): what the calling session's transaction becomes, answered
with status 0. -/
def Obligations.TransactionRowsComplete : Prop :=
  ∀ (s : State) (r : DictReq),
    (∀ n, let q := reqFor r 0x1F00 1 [1];
      let w := s.atWork q;
      MayCommand q .enum8 s → w.openTxn (reqKey q) = false → w.freeSlotNo = some n →
      exec (.txnBegin r) s = .next (s.done q 2
        ((w.setSlot n ⟨reqKey q, 1, [], 0, 0, 0, s.time.now, w.obj 0x1F10 1 * 1000000000⟩).setSession (reqKey q)
          { w.session (reqKey q) with slot := n, state := 1, count := 0 }))) ∧
    (∀ b late, let q := reqFor r 0x1F00 1 [2];
      let w := s.atWork q;
      let x := w.session (reqKey q);
      let a : CommitAsk := ⟨reqKey q, s.clsOf q, x.slot, (w.slot x.slot).staged, none, none⟩;
      MayCommand q .enum8 s → w.openTxn (reqKey q) = true → Acceptable w a b late →
      exec (.txnCommitNext r) s = .next (s.told q (some ⟨2, 0x1F00, 1, 0, 8 * b2n late, b, []⟩) (w.accepted a))) ∧
    (∀ b late, let q := reqFor r 0x1F00 1 [3];
      let w := s.atWork q;
      let x := w.session (reqKey q);
      let a : CommitAsk := ⟨reqKey q, s.clsOf q, x.slot, (w.slot x.slot).staged, some x.named, none⟩;
      MayCommand q .enum8 s → w.openTxn (reqKey q) = true → Acceptable w a b late →
      exec (.txnCommitAtEpoch r) s = .next (s.told q (some ⟨2, 0x1F00, 1, 0, 8 * b2n late, b, []⟩) (w.accepted a))) ∧
    (let q := reqFor r 0x1F00 1 [4];
      MayCommand q .enum8 s → (s.atWork q).openTxn (reqKey q) = true →
      exec (.txnRollback r) s = .next (s.done q 2 ((s.atWork q).rollBack (reqKey q) 7))) ∧
    (∀ slot k, 1 ≤ slot → slot ≤ 8 → (s.slot slot).session = k → (s.session k).slot = slot → s.openTxn k = true →
      (s.slot slot).begun + (s.slot slot).limit ≤ s.time.now → exec (.txnTimeout slot) s = .next (s.rollBack k 8)) ∧
    (∀ node, s.openTxn (sessionKey 0 node) = true → (s.session (sessionKey 0 node)).lastFrame + 10000000000 ≤ s.time.now →
      exec (.canSessionTimeout node) s = .next (s.endSession (sessionKey 0 node))) ∧
    (∀ commit outcome c, (s.dict.commits.find? fun c => c.ident = commit && c.fuse && !c.blown) = some c →
      exec (.limitedChangeFuseBlow commit outcome) s = .next (s.blowFuses c outcome)) ∧
    (let q := reqFor r 0x900D 1 [1];
      MayCommand q .enum8 s → (s.atWork q).openLxn (reqKey q) = none → (s.atWork q).lake.lxns.length < 2 →
      exec (.lxnBegin r) s = .next (s.done q 2 ((s.atWork q).beginLxn (reqKey q)).2)) ∧
    (∀ x, let q := reqFor r 0x900D 1 [2];
      let w := s.atWork q;
      MayCommand q .enum8 s → w.openLxn (reqKey q) = some x → w.inLake = true → (∀ v ∈ x.writes, v.node = 0xFFFF ∨ v.node ∈ w.lake.members) →
      exec (.lxnCommitNext r) s =
        .next (s.told q (some ⟨2, 0x900D, 1, 0, 0, w.leadBoundary, []⟩) (w.startLxn (reqKey q) none).2.2.2)) ∧
    (∀ x, let q := reqFor r 0x900D 1 [3];
      let w := s.atWork q;
      let e := (w.session (reqKey q)).lakeNamed;
      let target := if isAhead e w.epoch then w.laterOf w.leadBoundary e else w.leadBoundary;
      MayCommand q .enum8 s → w.openLxn (reqKey q) = some x → w.inLake = true → (∀ v ∈ x.writes, v.node = 0xFFFF ∨ v.node ∈ w.lake.members) →
      ¬(2 ^ 32 < aheadOf e w.epoch ∧ aheadOf e w.epoch < 2 ^ 47) →
      exec (.lxnCommitAtEpoch r) s = .next (s.told q (some ⟨2, 0x900D, 1, 0, 8 * b2n (decide (target ≠ wrap48 e)), target, []⟩)
        (w.startLxn (reqKey q) (some e)).2.2.2)) ∧
    (∀ x, let q := reqFor r 0x900D 1 [4];
      let w := s.atWork q;
      MayCommand q .enum8 s → w.openLxn (reqKey q) = some x → exec (.lxnRollback r) s =
        .next (s.done q 2 (({ w with lake := { w.lake with lxns := w.lake.lxns.erase x } } : State).lxnState x 7)))

/-- Rows that write an object which acts at once (R82): where the write may be made and its data gives a value in the object's range, the
object acts and the answer has status 0. -/
def Obligations.ActingRowsComplete : Prop :=
  ∀ (s : State) (r : DictReq),
    (∀ v, let q := reqFor r 0x210F 0 r.data;
      MayCommand q .u8 s → Gives r.data 1 v → v ≤ 31 → exec (.inflowPortReset r) s = .next (s.done q 2 ((s.atWork q).resetPort v 2))) ∧
    (∀ v, let q := reqFor r 0x2220 6 r.data;
      MayCommand q .u16 s → Gives r.data 2 v → 1 ≤ v → exec (.takeAbort r) s = .next (s.done q 2 ((s.atWork q).abortNow v))) ∧
    (∀ v, let q := reqFor r 0x5204 0 r.data;
      MayCommand q .u32 s → Gives r.data 4 v → exec (.pondQueryRegister r) s = .next (s.done q 2 ((s.atWork q).queryHandle v))) ∧
    (∀ v, let q := reqFor r 0x410E 0 r.data;
      MayCommand q .u8 s → Gives r.data 1 v → exec (.dirtyLogHarvest r) s = .next (s.done q 2 ((s.atWork q).harvest v))) ∧
    (∀ fn, let q := reqFor r 0x4108 0 [fn, 1];
      MayCommand q .u16 s → field r.data 0 1 = fn → fn < 256 → exec (.quiesce r) s = .next (s.done q 2 ((s.atWork q).quiesceFn fn))) ∧
    (∀ fn, let q := reqFor r 0x4108 0 [fn, 2];
      MayCommand q .u16 s → field r.data 0 1 = fn → fn < 256 → exec (.quiesceResume r) s = .next (s.done q 2 ((s.atWork q).resumeFn fn))) ∧
    (∀ d v, let q := reqFor r (0x5100 + d) 0 r.data;
      r.idx % 8 = d → MayCommand q .u16 s → Gives r.data 2 v → v ≤ 4095 →
      exec (.taskResetRegister r) s = .next (s.done q 2 ((s.atWork q).resetTask d v))) ∧
    (let q := reqFor r 0x5012 0 [1];
      MayCommand q .bool s → exec (.clearDispatcherHistograms r) s = .next (s.done q 2 (s.atWork q).clearHistograms)) ∧
    (∀ v, let q := reqFor r 0x6007 0 r.data;
      MayCommand q .u32 s → Gives r.data 4 v → exec (.clearKeySlot r) s = .next (s.done q 2 ((s.atWork q).clearKeySlots v))) ∧
    (∀ v, let q := reqFor r 0x600E 0 r.data;
      MayCommand q .u16 s → Gives r.data 2 v → v ≤ 1023 → exec (.removeStoredKey r) s = .next (s.done q 2 ((s.atWork q).removeStored v))) ∧
    (∀ v, let q := reqFor r 0x6404 0 r.data;
      MayCommand q .u32 s → Gives r.data 4 v → exec (.emptyKeyStateSlot r) s = .next (s.done q 2 ((s.atWork q).emptyKeyStates v))) ∧
    (let q := reqFor r 0xA001 0 (leBytes 4 0x534F4654);
      MayCommand q .u32 s → exec (.packageSoftReset r) s = .next (s.done q 2 (s.atWork q).askSoftReset)) ∧
    (let q := reqFor r 0xA001 0 (leBytes 4 0x534F4655);
      MayCommand q .u32 s → exec (.packageSoftResetForced r) s = .next (s.done q 2 (s.atWork q).forceSoftReset)) ∧
    (∀ d, let q := reqFor r 0xA002 0 r.data;
      MayCommand q .u8 s → Gives r.data 1 d → d ≤ 7 → s.hasDie d = true →
      exec (.dieReset r) s = .next (s.done q 2 ((s.atWork q).askDieReset d))) ∧
    (∀ code d, 1 ≤ code → code ≤ 4 → field r.data 1 1 % 8 = d → s.hasDie d = true →
      let q := reqFor r 0xA003 0 [code, d];
      MayCommand q .u16 s →
      exec (if code = 1 then .cipherEngineReset r else if code = 2 then .digestEngineReset r else if code = 3 then .codecEngineReset r
        else .searchEngineReset r) s = .next (s.done q 2 ((s.atWork q).resetEngine d code))) ∧
    (let q := reqFor r 0xA005 0 [1];
      MayCommand q .bool s → exec (.clearEventLog r) s = .next (s.done q 2 (s.atWork q).emptyLog)) ∧
    (let q := reqFor r 0xA00E 0 [1];
      MayCommand q .bool s → exec (.acknowledgeEvents r) s = .next (s.done q 2 (s.atWork q).acknowledge)) ∧
    (let q := reqFor r 0x410B 0 r.data;
      MayCommand q (.domain 14668) s → r.data.length ≤ 14668 → exec (.stateRestore r) s =
        .next (s.done q 4 ((s.atWork q).restoreState (((s.atWork q).session (reqKey q)).sel 0x4101) r.data))) ∧
    (let q := reqFor r 0x640F r.sub r.data;
      MayCommand q (.domain 128) s → r.data ≠ [] → r.data.length ≤ 128 →
      exec (.measurementExtend r) s = .next (s.done q 4 ((s.atWork q).extendManager (r.sub - 1) r.data))) ∧
    (∀ tag, let q := reqFor r 0x6409 0 r.data;
      let w := s.atWork q;
      let body := w.reportBody (r.data.take 32) (field r.data 32 4);
      MayCommand q (.domain 36) s → r.data.length = 36 → w.slotHmac 0 (w.obj 0x6408 0) 2 body = some tag →
      exec (.reportRequest r) s = .next (s.done q 4
        ((((w.setSession (reqKey q) { w.session (reqKey q) with report := body ++ tag }).bump 0x641B 0).raise (evPkg 25) 0).emit
          (.report (reqKey q) (body ++ tag)))))

/-- Rows that write a setting (R82, R83): outside a transaction the write is an implicit commit, accepted for its boundary; inside one it
is staged. The answer has status 0. -/
def Obligations.SettingRowsComplete : Prop :=
  ∀ (s : State) (r q : DictReq) (i : Instr) (cmd : Nat) (ty : ObjTy) (held : List Nat),
    let w := s.atWork q;
    (i, q, cmd, ty, held) ∈ [(Instr.takeOpen r, reqFor r 0x2220 1 [1], 2, ObjTy.enum8, [1]),
      (Instr.takeClose r, reqFor r 0x2220 1 [2], 2, ObjTy.enum8, [2]), (Instr.takeDelete r, reqFor r 0x2220 1 [3], 2, ObjTy.enum8, [3]),
      (Instr.reservationsLoad r, reqFor r 0x5203 0 r.data, 4, ObjTy.domain 2052,
        w.heldReservations (w.judgedAgainst (reqKey q)) r.data)] →
    Admits q s → MayWrite w (s.clsOf q) q.idx q.sub ty .rw (w.openTxn (reqKey q)) →
    (cmd = 4 → r.data.length ≤ 2052 ∧ w.reservationsBad r.data = false) →
    let adj := decide (held ≠ q.data);
    let counted := fun (t : State) => if adj then t.countAdjusted (s.clsOf q) q.idx q.sub else t;
    (∀ b late, let a : CommitAsk := ⟨reqKey q, s.clsOf q, 0, [⟨q.idx, q.sub, held, adj, q.data⟩], none, none⟩;
      w.openTxn (reqKey q) = false → w.overlapsNow (reqKey q) (s.clsOf q) q.idx q.sub ty q.data = false → Acceptable w a b late →
      exec i s = .next (s.told q (some ⟨cmd, q.idx, q.sub, 0, b2n adj + 8 * b2n late, b, []⟩) (counted (w.accepted a)))) ∧
    (w.openTxn (reqKey q) = true → w.fullTxn (reqKey q) q.idx q.sub = false →
      exec i s = .next (s.told q (some ⟨cmd, q.idx, q.sub, 0, b2n adj + 2, 0, []⟩)
        (counted (w.stageInto (reqKey q) ⟨q.idx, q.sub, held, adj, q.data⟩).2)))

/-! ### Where each command completes: the inflow ports -/

/-- Rows of the inflow lanes and their training (chapter 4). -/
def Obligations.InflowLaneRowsComplete : Prop :=
  ∀ (s : State) (die lane : Nat), IsLane s die lane →
    let x := s.lane die lane;
    let k := s.portKeyOf die lane;
    (x.state = 1 → max x.since x.idleTill + 100000 ≤ s.time.now → s.usable die 7 = true →
      exec (.signalDetect die lane) s = .next (s.enterStep die lane 2)) ∧
    (x.state = 2 → exec (.trainingStepComplete die lane) s =
      .next ((s.setLane die lane { x with stored := true, signal := true }).enterStep die lane 3)) ∧
    (x.state = 3 → exec (.trainingStepComplete die lane) s =
      .next ((s.setLane die lane { x with lock := true, badCw := 0 }).enterStep die lane 4)) ∧
    (x.state = 4 → exec (.trainingStepComplete die lane) s = .next (s.delineated die lane)) ∧
    (x.state = 5 → x.version ≠ 0 → 3 ≤ x.echoes.length → exec (.trainingStepComplete die lane) s = .next (s.reachBond die lane)) ∧
    (x.state = 6 → s.allBonded k = true → exec (.trainingStepComplete die lane) s = .next (s.bringUp k (s.bonding k))) ∧
    (∀ b, s.stepBound x = some b → x.since + b ≤ s.time.now →
      exec (.trainingStepTimeout die lane) s = .next (s.stepTimesOut die lane x)) ∧
    ((∃ l ∈ s.bonding (4 * die + lane), (s.lane die l).since + 10000000 ≤ s.time.now) →
      exec (.bondDeadline die lane) s = .next (s.bringUp (4 * die + lane) (s.bonding (4 * die + lane)))) ∧
    (2 ≤ x.state → x.state ≤ 7 →
      (s.inUpPort die lane = true →
        exec (.signalLoss die lane) s = .next ((s.setLane die lane { x with signal := false }).failLane die lane)) ∧
      (s.inUpPort die lane = false → exec (.signalLoss die lane) s = .next (((s.setLane die lane { x with signal := false }).setLane die
        lane ({ x with signal := false }.restart false)).enterStep die lane 1))) ∧
    (x.state = 8 → x.since + 1000000000 ≤ s.time.now → exec (.laneRetrainTimer die lane) s = .next (s.retrain die lane)) ∧
    (∀ correctable corrected, 3 ≤ x.state → x.state ≤ 7 →
      exec (.codewordReceived die lane correctable corrected) s = .next (s.takeCodeword die lane correctable corrected x)) ∧
    (∀ c : BadCell, 4 ≤ x.state → x.state ≤ 7 → c.codeword = true ∨ hcrcOk c.bytes = false ∨ pcrcOk c.bytes = false →
      exec (.cellInError die lane c) s = .next (s.takeBadCell die lane c.bytes)) ∧
    (x.state = 7 → x.inError = true → x.nakAt + 8000 ≤ s.time.now → exec (.nakTimeout die lane) s = .next (s.nak die lane)) ∧
    (∀ p, s.port (4 * die + lane) = some p → p.up = true →
      exec (.creditRefresh die lane) s =
        .next (((s.retryPort (4 * die + lane)).returnCredits (4 * die + lane)).sendCredits (4 * die + lane))) ∧
    (∀ mseq p c, s.port (4 * die + lane) = some p → tget p.unacked mseq = some c → c.sent + s.obj 0x2105 1 * 1000 ≤ s.time.now →
      (c.retries < s.obj 0x2105 2 → exec (.controlRetryExpiry die lane mseq) s =
        .next ((s.setPort (4 * die + lane) { p with unacked := tset p.unacked mseq { c with
          retries := c.retries + 1, sent := s.time.now } }).emitAll (c.lanes.map fun l => controlCell die l c.msg mseq c.body))) ∧
      (s.obj 0x2105 2 ≤ c.retries → exec (.controlRetryExpiry die lane mseq) s =
        .next ((s.raise (evDie die 25) lane).resetPort (4 * die + lane) 1)))

/-- Rows of the cells of a band and of the messages of the inflow control channel (chapter 4): the next cell of a lane joins the cells of
its lane, and where it is alone and the pond serves it, it is taken; a new message is executed once. -/
def Obligations.InflowMessageRowsComplete : Prop :=
  ∀ (s : State),
    (∀ (type : Nat) (c : Cell) (i : Instr) (f : Nat → Arrival → State → Bool × State),
      (type, i, f) ∈ [(1, Instr.bandStartCell c, fun k a s => s.bandStarts k a.cell a.ns),
        (2, Instr.bandDataCell c, fun k a s => s.bandGoesOn k a.cell a.ns), (3, Instr.bandEndCell c, fun k a s => s.bandEnds k a.cell a.ns),
        (4, Instr.frameMarker c, fun k a s => s.markerComes k a)] →
      CellNext type c s →
      let t := s.cellState c;
      let a : Arrival := ⟨c, (t.clock c.die).epoch, (t.clock c.die).phase, t.time.now⟩;
      let r := f ((s.cellAlone c).portKeyOf c.die c.lane) a (s.cellAlone c);
      exec i s = .next (t.queueCell c) ∧
      ((t.lane c.die c.lane).waiting = [] → r.1 = true → exec i s = .next (State.cellGone c r.2))) ∧
    (∀ m : CtlHdr, ControlTaken m s →
      let k := s.portKeyOf m.die m.lane;
      let t := s.controlFresh m;
      (∀ lowVer highVer laneIndex width replay camera, exec (.hello m lowVer highVer laneIndex width replay camera) s =
        .next (State.controlOut k m.lane m.mseq true (t.hello k m lowVer highVer laneIndex width replay camera))) ∧
      (∀ timePs, exec (.echo m timePs) s = .next (State.controlOut k m.lane m.mseq false
        ((t.useFree).sendOn k [m.lane] 3 (leBytes 8 timePs ++ leBytes 8 (t.freeValue % 2 ^ 64)), 0, []))) ∧
      (∀ timePs heldPs nowPs, exec (.echoReply m timePs heldPs nowPs) s =
        .next (State.controlOut k m.lane m.mseq false (t.echoReply m timePs heldPs nowPs))) ∧
      (∀ acked status, exec (.controlAck m acked status) s =
        .next (State.controlOut k m.lane m.mseq false (t.controlAcked k acked status))) ∧
      (∀ cause, exec (.portResetMessage m cause) s = .next (State.controlOut k m.lane m.mseq true (t.resetPort k 0, 0, []))) ∧
      (∀ msg, exec (.unknownControlMessage m msg) s = .next (State.controlOut k m.lane m.mseq true (t, 1, []))) ∧
      (∀ body x, t.pathServed (requestOf 2 k body) = true → (t.runBody (requestOf 2 k body) (field body 0 1)).1 = some x →
        exec (.dictRequest m body) s = .next (State.controlOut k m.lane m.mseq true
          (let a := t.runBody (requestOf 2 k body) (field body 0 1);
            let b := fit 64 (x.body (field body 1 1) (clientByte (requestOf 2 k body)));
            ((a.2.sendControl k 0x11 b).sendWindow (sessionKey 2 k) 2 k, 0, b)))))

/-! ### Where each command completes: takes, the pond, the media and the flash -/

/-- Rows by which frames and takes complete (chapter 5). -/
def Obligations.TakeRowsComplete : Prop :=
  ∀ (s : State),
    (∀ die first, IsLane s die first →
      (s.take.takes.any fun t => t.state = 1 && (Take.ports t).contains (4 * die + first)) = true →
      exec (.reserveSend die first) s = .next (s.sendReserve (4 * die + first))) ∧
    (∀ die first spring frame band b, IsLane s die first →
      ((s.port (4 * die + first)).bind fun p => Port.band p spring frame band) = some b →
      b.since + s.frameLimit spring frame ≤ s.time.now →
      exec (.bandEndTimeout die first spring frame band) s = .next (s.completeBand (4 * die + first) b true)) ∧
    (∀ spring frame t f, s.findFrame spring frame = some (t, f) → f.complete = false → f.since + s.bandLimit f.epoch ≤ s.time.now →
      exec (.frameCompletionTimeout spring frame) s = .next (s.closeFrame t spring frame)) ∧
    (∀ nsid take t spring frame f, s.takeOf nsid take = some t → t.state = 1 ∨ t.state = 4 →
      (t.frames.find? fun f => f.spring = spring && f.frame = frame) = some f → f.settled = true →
      (t.lakeTake = 0 → exec (.frameRecord nsid take spring frame) s =
        .next (s.recordFrame nsid take f (2 ^ 64 - 1)).settleRings) ∧
      (t.lakeTake ≠ 0 → f.offered = 0 → exec (.frameRecord nsid take spring frame) s = .next (s.offerPart t f).settleRings)) ∧
    (∀ nsid take t, s.takeOf nsid take = some t → s.sealable t = true → s.fault.safeHold = false →
      exec (.takeSeal nsid take) s = .next ((s.sealTake nsid take).settleRings).settleResets)

/-- Rows of the pond (chapter 6): a pool operation takes, shares, passes or returns a reference, and says so with status 0. -/
def Obligations.PondRowsComplete : Prop :=
  ∀ (s : State),
    (∀ owner cls fromDie die pool q, s.hasDie die = true → s.hasDie fromDie = true → pool < 64 → Grants s owner cls die pool q →
      exec (.get owner cls fromDie die pool) s =
        .next ((s.granted owner die pool q).emit (.pondAnswer owner 0 0 (grantedHandle die pool q)))) ∧
    (∀ holder h newHolder q, Shares s holder h newHolder q →
      exec (.addref holder h newHolder) s = .next ((s.shared h newHolder q).emit (.pondAnswer holder 1 0 0))) ∧
    (∀ holder h next q, Passes s holder h next q →
      exec (.pass holder h next) s = .next ((s.passed holder h next q).emit (.pondAnswer holder 2 0 0))) ∧
    (∀ holder h q, Returns s holder h q → exec (.put holder h) s =
      .next ((s.returned holder h q).retryWaiting.emit (.pondAnswer holder 3 0 0))) ∧
    (∀ h q, Names s h q →
      exec (.query h) s = .next (s.emit (.pondQuery h 0 (handleGen h) (q.buf (handleIndex h)).holders (q.buf (handleIndex h)).quar))) ∧
    (∀ h owner, s.hasDie (ownerDie owner) = true →
      exec (.passedNotice h owner) s = .next (s.emit (.internalNotice (ownerDie owner) owner h))) ∧
    (∀ owner, owner ∈ s.pond.walked → exec (.ownerWalkComplete owner) s = .next (s.walkEnds owner).retryWaiting) ∧
    (∀ die, s.hasDie die = true → s.auditDue die = true → exec (.pondAudit die) s = .next (s.auditDie die).retryWaiting)

/-- Rows of the media and of the power that holds it (chapter 7). -/
def Obligations.MediaRowsComplete : Prop :=
  ∀ (s : State),
    (∀ nsid unit u, ((s.md (s.unitDie nsid unit)).staged.find? fun u => u.nsid = nsid && u.unit = unit && u.phase = 0) = some u →
      u.since + u.window ≤ s.time.now →
      exec (.mergeWindowExpiry nsid unit) s = .next (s.placeStaged (s.unitDie nsid unit) u.id)) ∧
    (∀ die, s.hasDie die = true →
      ((s.md die).halvedAt + s.obj 0x3004 0 ≤ s.dtimeS → exec (.heatHalving die) s = .next (s.halveHeat die)) ∧
      ((s.md die).pendingRecs ≠ [] → exec (.journalFlush die) s =
        .next (s.flushJournal die)) ∧
      ((s.md die).passRunning = true → (s.md die).pagesDone = true →
        exec (.checkpointPassComplete die) s = .next (s.passEnds die (s.md die))) ∧
      (s.inSeep die = true → (s.md die).halted = false → s.media.commitRunning = false →
        exec (.seepWindowStart die) s = .next (s.seep die))) ∧
    (∀ stripe d, (s.dies.find? fun d => (tget (s.md d).dieStripes stripe).isSome) = some d →
      (tgetD (s.md d).dieStripes stripe ⟨[], 0, 0⟩).since + (tgetD (s.md d).dieStripes stripe ⟨[], 0, 0⟩).hold ≤ s.time.now →
      exec (.dieStripeHoldExpiry stripe) s = .next (s.closeDieStripe stripe d)) ∧
    (∀ lowNs recognised, 200 ≤ lowNs ∨ (50 < lowNs ∧ recognised = true) → exec (.plwNAssert lowNs recognised) s = .next s.plwFalls) ∧
    (∀ level stableNs, 100000 ≤ stableNs → exec (.holdupOkChange level stableNs) s = .next (s.holdupMoves level)) ∧
    (let s1 : State := { s with pins := { s.pins with plw := true } };
      exec .plwNRelease s = .next (if s.media.commitRunning then ((s1.finishCommit).clearVolatile 0).startRom else s1))

/-- Rows of the flash operations (chapter 8). -/
def Obligations.FlashRowsComplete : Prop :=
  ∀ (s : State) (die : Nat), s.hasDie die = true →
    (∀ op o outcome, tget (s.md die).ops op = some o → o.waits = false → o.kind.isRead = false → o.kind.isErase = false →
      o.kind.isCommit = false ∨ ((s.md die).ops.any fun x => !x.2.kind.isCommit && !x.2.kind.isRead) = false →
      exec (.flashProgramComplete die op outcome) s = .next (s.programEnds die op o outcome)) ∧
    (∀ op o k failed, tget (s.md die).ops op = some o → o.kind = .erase k → o.suspended = false → o.waits = false →
      exec (.flashEraseComplete die op failed) s = .next (s.eraseEnds die op k o failed)) ∧
    (∀ op o outcome, tget (s.md die).ops op = some o → o.waits = false → o.kind.isRead = true → s.outcomeOk die o outcome = true →
      exec (.flashReadComplete die op outcome) s = .next ((s.endOp die op).readEnds die o outcome)) ∧
    (∀ channel margin, channel < 16 → s.inSeep die = true → tgetD (s.md die).checked channel 0 + s.obj 0x3406 0 ≤ s.dtimeS →
      exec (.channelCheck die channel margin) s =
        .next ((s.setMd die { s.md die with checked := tset (s.md die).checked channel s.dtimeS }).checkChannel die channel margin)) ∧
    (∀ channel ce retrainOk, channel < 16 → ce < 16 → tget (s.md die).resetting (16 * channel + ce) = none →
      s.timedOut die channel ce = true →
      exec (.flashOperationTimeout die channel ce retrainOk) s = .next (s.opTimesOut die channel ce retrainOk)) ∧
    (∀ channel ce idOk retryOk since, channel < 16 → ce < 16 → tget (s.md die).resetting (16 * channel + ce) = some since →
      since + ((s.md die).population.map (·.resetUs)).getD 0 * 1000 ≤ s.time.now →
      exec (.targetResetWaitExpiry die channel ce idOk retryOk) s = .next (s.targetBack die channel ce (s.md die) idOk retryOk)) ∧
    (∀ core, core < 4 → exec (.mediaCoreFailure die core) s = .next (s.mediaCoreFails die core (s.obj (0x3230 + die) 1)))

/-! ### Where each command completes: the host interface -/

/-- Rows of the host links, the doorbells and the fetch of commands (chapter 9). -/
def Obligations.HostLinkRowsComplete : Prop :=
  ∀ (s : State),
    (∀ port speed width, s.hasDie port = true → s.portFormed port = true → port ∉ s.host.linkUp →
      tgetD s.host.retrainAt port 0 ≤ s.time.now → s.usable port 7 = true →
      exec (.linkUp port speed width) s = .next (s.linkComesUp port speed width)) ∧
    (∀ port, s.hasDie port = true → port ∈ s.host.linkUp → exec (.linkDown port) s = .next (s.hostPortDown port)) ∧
    (∀ q uncorrectable, s.fetched q = true → exec (.completionTimeout q uncorrectable) s = .next (s.dmaLost q uncorrectable)) ∧
    (∀ cntl qid tail c k, s.ctrl cntl = some c → (s.pciOf (cntl - 1)).power = 0 → tget c.sqs qid = some k →
      tail < k.size →
      exec (.sqTailDoorbell cntl qid tail) s = .next (s.modSq cntl qid fun k => { k with tail := tail, rung := s.time.now })) ∧
    (∀ cntl qid head c k, s.ctrl cntl = some c → (s.pciOf (cntl - 1)).power = 0 → tget c.cqs qid = some k →
      head < k.size →
      exec (.cqHeadDoorbell cntl qid head) s =
        .next (((s.modCtrl cntl fun c => { c with cqs := tmod c.cqs qid fun q => { q with head := head } }).postWaiting cntl
          qid).endDeletes cntl)) ∧
    (∀ port cid toHost fromHost cntl cls qid served fresh, s.hasDie port = true →
      s.nextFetch port = some (cntl, cls, qid, served, fresh) →
      exec (.commandFetch port cid toHost fromHost) s =
        .next (s.fetchFrom port cid toHost fromHost cntl cls qid served fresh (tgetD s.host.round port []))) ∧
    (∀ fn, s.boot.porst = false → s.boot.restricted = false →
      (if fn % 32 = 0 then s.hasDie (fn / 32) && s.portFormed (fn / 32) else (s.ctrl (fn + 1)).isSome) = true →
      let flr := ((s.ctrl (fn + 1)).map (·.flr)).getD false;
      ((flr || !s.deviceReady) = true → exec (.configurationRequest fn) s = .next (s.emit (.configReply fn none))) ∧
      ((flr || !s.deviceReady) = false → ∃ s1 : State, { s1 with host := { s1.host with pci := s.host.pci }, freeCtr := s.freeCtr } = s ∧
        exec (.configurationRequest fn) s = .next (s1.emit (.configReply fn (some (s1.pciView fn))))))

/-- Rows of the admin commands about queues, logs, features and events (chapter 9): each ends in success, or stays outstanding. -/
def Obligations.AdminRowsComplete : Prop :=
  ∀ (s : State) (q : CmdRef) (c : Ctrl), Started q s → s.ctrl q.cntl = some c →
    (∀ qid size cqid prio base, tget c.cqs cqid ≠ none → cqid ≠ 0 → 1 ≤ qid → qid ≤ s.queueLimit q.cntl → tget c.sqs qid = none →
      1 ≤ size → size ≤ 4095 →
      exec (.createIoSq q qid size cqid prio base) s =
        .next ((s.modCtrl q.cntl fun c =>
          { c with sqs := tset c.sqs qid ⟨size + 1, base, cqid, prio % 4, false, false, 0, 0, [], none, 0⟩ }).succeed q 0) ∧
      (let s1 := s.countVendor true 0xC5;
        (c.sqs.filter fun k => k.2.ordered).length < s1.obj 0x4008 0 →
        exec (.createOrderedIoSq q qid size cqid prio base true) s =
          .next ((s1.modCtrl q.cntl fun c =>
            { c with sqs := tset c.sqs qid ⟨size + 1, base, cqid, prio % 4, true, false, 0, 0, [], none, 0⟩ }).succeed q 0))) ∧
    (∀ qid size vector base interrupts, 1 ≤ qid → qid ≤ s.queueLimit q.cntl → tget c.cqs qid = none → 1 ≤ size → size ≤ 4095 →
      vector ≤ 128 → exec (.createIoCq q qid size vector base interrupts) s =
        .next ((s.modCtrl q.cntl fun c =>
          { c with cqs := tset c.cqs qid ⟨size + 1, base, vector, interrupts, 0, 0, true, []⟩ }).succeed q 0)) ∧
    (∀ qid k, qid ≠ 0 → tget c.sqs qid = some k → exec (.deleteIoSq q qid) s = .next (s.deleteSq q qid c k)) ∧
    (∀ qid k, qid ≠ 0 → tget c.cqs qid = some k → (c.sqs.any fun k => k.2.cqid = qid) = false →
      exec (.deleteIoCq q qid) s = .next ((s.modCtrl q.cntl fun c => { c with cqs := tdel c.cqs qid }).succeed q 0)) ∧
    (∀ lid bytes offset retain b, s.logPage q.cntl lid = some b → offset ≤ b.length →
      exec (.getLogPage q lid bytes offset retain) s = .next (s.giveLog q lid bytes offset retain b)) ∧
    (∀ cns nsid cntl b, s.identifyData q cns nsid cntl = .inl b →
      exec (.identify q cns nsid cntl) s = .next ((s.dataOut q b).succeed q 0)) ∧
    (∀ sqid cid, exec (.abortCommand q sqid cid) s = .next ((s.bump 0x4009 0).succeed q 1)) ∧
    (∀ value, let n := s.queueLimit q.cntl - 1;
      let v := min n (value % 65536) + 65536 * min n (value / 65536);
      exec (.setFeatures q 7 value) s =
        .next ((s.modCtrl q.cntl fun c => { c with feats := tset c.feats 7 v }).succeed q v)) ∧
    (∀ fid value, featureKnown fid = true → fid ≠ 7 → (fid = 2 → value % 32 = 0) → (fid = 5 → bitOf value 16 = false) →
      (fid = 4 → (value / 65536 % 16 ≤ 8 ∨ value / 65536 % 16 = 15) ∧ value / 1048576 % 4 ≤ 1) →
      let keys := if fid = 4 ∧ value / 65536 % 16 = 15 then (List.range 9).map fun k => featureKey 4 (value - 15 * 65536 + k * 65536)
        else [featureKey fid value];
      exec (.setFeatures q fid value) s =
        .next ((s.modCtrl q.cntl fun c => { c with feats := keys.foldl (fun t k => tset t k value) c.feats }).succeed q 0)) ∧
    (∀ fid d11, fid < 256 → featureKnown fid = true →
      (fid = 4 → d11 / 65536 % 16 ≤ 8 ∧ d11 / 1048576 % 4 ≤ 1) → (fid = 9 → d11 % 65536 < msixVectors) →
      let word := fid + 256 * d11;
      exec (.getFeatures q word 0) s = .next (s.succeed q (c.feature (featureKey fid d11))) ∧
      exec (.getFeatures q word 1) s = .next (s.succeed q (featureDefault (featureKey fid d11))) ∧
      exec (.getFeatures q word 2) s = .next (s.succeed q (featureDefault (featureKey fid d11))) ∧
      exec (.getFeatures q word 3) s = .next (s.succeed q 4)) ∧
    (c.aePending = [] → c.aers.length < 16 → exec (.asyncEventRequest q) s =
      .next ((s.modCtrl q.cntl fun c => { c with aers := c.aers ++ [q.cid] }).started q)) ∧
    (∀ e rest, c.aePending = e :: rest → exec (.asyncEventRequest q) s =
      .next ((s.modCtrl q.cntl fun c => { c with aePending := rest, aeMasked := c.aeMasked || e.1 == 7 }).succeed q e.2))

/-- Rows of the admin commands about namespaces, firmware, virtual functions and the dictionary (chapter 9). -/
def Obligations.NamespaceRowsComplete : Prop :=
  ∀ (s : State) (q : CmdRef), Started q s → isVf q.cntl = false →
    (∀ kind nsze nsid, s.fault.safeHold = false → kind ≤ 1 → (kind = 1 → nsze % 512 = 0 ∧ 32768 ≤ nsze) →
      ceilDiv nsze 512 * cuBytes ≤ s.unvmcap → s.freeNsid = some nsid →
      exec (.namespaceCreate q kind nsze nsze 0) s = .next (s.createNs q kind nsze nsid)) ∧
    (∀ nsid all, s.fault.safeHold = false → (nsid = 2 ^ 32 - 1 ∧ all = s.host.nss.map (·.1)) ∨
        (nsid ≠ 2 ^ 32 - 1 ∧ tget s.host.nss nsid ≠ none ∧ all = [nsid]) → all.any s.inUse = false →
      exec (.namespaceDelete q nsid) s = .next (((all.foldl State.deleteNs s).reportNss).succeed q 0)) ∧
    (∀ nsid cntls n, tget s.host.nss nsid = some n → s.ctrlsOk cntls = true →
      (cntls.any n.attached.contains = false → exec (.namespaceAttach q nsid cntls) s = .next (s.attachNs q nsid cntls n)) ∧
      ((cntls.any fun c => !n.attached.contains c) = false →
        exec (.namespaceDetach q nsid cntls) s = .next (s.detachNs q nsid cntls n))) ∧
    (∀ nsid all, s.fault.safeHold = false →
        (nsid = 2 ^ 32 - 1 ∧ all = (s.host.nss.filter fun n => n.2.attached.contains q.cntl).map (·.1)) ∨
        (nsid ≠ 2 ^ 32 - 1 ∧ tget s.host.nss nsid ≠ none ∧ all = [nsid]) → all.any s.inUse = false →
      s.obj 0x2226 0 = 0 ∨ (all.any fun n => ((tget s.host.nss n).map (·.kind)).getD 0 = 1) = false →
      exec (.formatNvm q nsid) s = .next ((all.foldl (State.formatOne false) s).succeed q 0) ∧
      exec (.formatNvmCryptoErase q nsid) s = .next ((all.foldl (State.formatOne true) s).succeed q 0)) ∧
    (∀ offset data, data.length % 4 = 0 → offset % 4 = 0 → exec (.firmwareImageDownload q offset data) s =
      .next (State.succeed { s with host := { s.host with download := tset s.host.download offset data } } q 0)) ∧
    (∀ slot b, 2 ≤ slot → slot ≤ 4 → joinPieces s.host.download 0 = some b → judgeImage b 3 (s.obj 0x1801 0) = 0 →
      let img : FwImage := ⟨field b 12 4, field b 16 8, true, b⟩;
      let s1 : State := { s with host := { s.host with fw := tset s.host.fw slot img, download := [] } };
      exec (.fwCommitReplace q slot) s = .next (s1.succeed q 0) ∧
      exec (.fwCommitReplaceActivateReset q slot) s = .next ((s1.setObj 0x400D 2 slot).succeed q 0)) ∧
    (∀ slot, 1 ≤ slot → slot ≤ 4 → s.slotValid slot = true → s.activationAllowed = true →
      exec (.fwCommitActivateReset q slot) s = .next ((s.setObj 0x400D 2 slot).succeed q 0) ∧
      (s.host.activating = none → exec (.fwCommitActivateNow q slot) s = .next (s.activateNow q slot))) ∧
    (∀ cntl c count, s.ownVf q cntl = true → s.ctrl cntl = some c →
      (c.online = false → count ≤ 129 → s.vqUsed (portOf cntl) - c.vq + count ≤ 2048 →
        exec (.vqResourceAssign q cntl count) s = .next (s.holdVq q cntl count)) ∧
      (2 ≤ s.vqOf cntl → exec (.secondaryOnline q cntl) s = .next (s.holdVq q cntl 1000)) ∧
      exec (.secondaryOffline q cntl) s = .next (s.holdVq q cntl 1001)) ∧
    (∀ handle offset data c, s.fault.safeHold = false → s.ctrl q.cntl = some c → handle ≤ 255 → (∀ p, s.program handle = some p → p.state = 1) →
      let s0 := s.countVendor true 0xC9;
      let have' := c.pieces.getD ⟨0, 0, []⟩;
      let b := (if offset = 0 then [] else have'.bytes) ++ data;
      let s1 := s0.modCtrl q.cntl fun c => { c with pieces := none };
      offset = 0 ∨ (have'.key = 65536 * 256 + handle ∧ have'.bytes.length = offset) →
      exec (.programLoad q handle offset false data) s = .next (((s0.modCtrl q.cntl fun c =>
        { c with pieces := some ⟨65536 * 256 + handle, 0, b⟩ }).setProgram handle (some Program.loading)).succeed q b.length) ∧
      (s1.judgeImage handle b = 0 → exec (.programLoad q handle offset true data) s = .next (s1.programLoaded q handle b))) ∧
    (∀ handle p, s.fault.safeHold = false → s.program handle = some p → p.state = 2 →
      exec (.programUnload q handle) s = .next ((s.countVendor true 0xCC).unloadProgram q handle p)) ∧
    (∀ ndt, let s1 := s.countVendor true 0xD2;
      let b := s1.lakeStatus.take (4 * ndt);
      exec (.lakeStatus q ndt) s = .next ((s1.dataOut q b).succeed q b.length)) ∧
    (let s1 := s.countVendor true 0xD0;
      let ask := fun (l : List Staged) => (⟨sessionKey 1 q.cntl, 1, 0, l, none, none⟩ : CommitAsk);
      let joining := fun (t : State) => ({ t with lake := { t.lake with join := some ⟨some q, false, false, s1.time.now⟩ } } : State);
      let w := fun (node : Nat) => [(⟨0x9001, 0, leBytes 2 node, false, []⟩ : Staged), ⟨0x9002, 1, [1], false, []⟩];
      let l : List Staged := [⟨0x9002, 1, [2], false, []⟩];
      (∀ lake node b late, s1.obj 0x9000 0 ≠ 0 → lake = s1.obj 0x9000 0 → s1.lake.state = 0 → s1.lake.join = none →
        s1.fault.safeHold = false → Acceptable s1 (ask (w node)) b late →
        exec (.lakeJoin q lake node) s = .next (joining (s1.accepted (ask (w node))))) ∧
      (∀ b late, s1.holdsLake = false → s1.lake.join = none → s1.lake.state ≠ 1 → s1.fault.safeHold = false →
        Acceptable s1 (ask l) b late → exec (.lakeLeave q) s = .next (joining (s1.accepted (ask l)))))

/-- DICTIONARY_READ and DICTIONARY_WRITE (R295): an admitted access has its effect and answers in its completion, with status 0. -/
def Obligations.DictionaryCommandsComplete : Prop :=
  ∀ (s : State) (q : CmdRef) (index sub ndt : Nat) (ty : ObjTy), Started q s →
    (∀ offset, let s0 := s.countVendor true 0xC2;
      let r : DictReq := ⟨1, q.cntl, 0, 0, 0, index, sub, []⟩;
      let whole := s0.readBytes (reqKey r) (s0.clsOf r) index sub;
      let read := fun (flags : Nat) (b : List Nat) => ((((s0.atWork r).afterRead index sub).keepAnswer r s0.time.now
        (some ⟨1, index, sub, 0, flags, s0.epoch, []⟩)).dataOut q b).dictDone q ⟨1, index, sub, 0, flags, s0.epoch, []⟩ whole.length;
      Admits r s0 → MayRead (s0.atWork r) (s0.clsOf r) index sub ty →
      (isDomain ty = false → exec (.dictionaryRead q ndt index sub offset) s = .next (read 0 (whole.take (4 * ndt)))) ∧
      (isDomain ty = true → exec (.dictionaryRead q ndt index sub offset) s =
        .next (read (if offset + 4 * ndt < whole.length then 4 else 0) ((whole.drop offset).take (4 * ndt))))) ∧
    (∀ data offset total last held adj b late acc, let s0 := s.countVendor true 0xC1;
      let r : DictReq := ⟨1, q.cntl, 0, 0, 0, index, sub, fit (4 * ndt) data⟩;
      let w := s0.atWork r;
      let a : CommitAsk := ⟨reqKey r, s0.clsOf r, 0, [⟨index, sub, held, adj, r.data⟩], none, none⟩;
      let x : Answer := ⟨2, index, sub, 0, b2n adj + 8 * b2n late, b, []⟩;
      Admits r s0 → MayWrite w (s0.clsOf r) index sub ty acc (w.openTxn (reqKey r)) → isDomain ty = false → acc ≠ .wo →
      sessionObject index sub = false → index ≠ 0x900E → w.openTxn (reqKey r) = false →
      w.overlapsNow (reqKey r) (s0.clsOf r) index sub ty r.data = false →
      w.holdWrite (w.judgedAgainst (reqKey r)) index sub r.data = (0, held, adj) → Acceptable w a b late →
      exec (.dictionaryWrite q ndt index sub offset last total data) s =
        .next (((if adj then (w.accepted a).countAdjusted (s0.clsOf r) index sub else w.accepted a).keepAnswer r s0.time.now
          (some x)).dictDone q x b))

/-- Rows of the I/O commands of conventional namespaces and of near-data work (chapters 9 and 10). -/
def Obligations.IoRowsComplete : Prop :=
  ∀ (s : State) (q : CmdRef) (nsid : Nat), Started q s →
    (nsid = 2 ^ 32 - 1 ∨ (s.seen q nsid).isSome = true →
      exec (.flush q nsid) s = .next (if ((tget s.host.nss nsid).map (·.kind)).getD 0 = 1 then (s.bump 0x401C 1).succeed q 0
        else (s.bump 0x401C 1).flushNs q nsid)) ∧
    (∀ slba nlb data, MayChange s q nsid [(slba, nlb + 1)] → nlb < 512 → data.length = 4096 * (nlb + 1) →
      s.tooFull nsid slba (nlb + 1) = false → exec (.nvmWrite q nsid slba nlb data) s =
        .next ((((s.addSmart 2 1).addSmart 15 (4096 * (nlb + 1))).addObj (0x40A8 + portOf q.cntl) 0 (4096 * (nlb + 1))).acceptWrite
          ⟨q, nsid, slba, nlb + 1, data, [], none, 0⟩)) ∧
    (∀ slba nlb, MayChange s q nsid [(slba, nlb + 1)] → s.tooFull nsid slba (nlb + 1) = false →
      exec (.writeZeroes q nsid slba nlb) s =
        .next (s.acceptWrite ⟨q, nsid, slba, nlb + 1, [], [], none, 0⟩)) ∧
    (∀ ranges, MayChange s q nsid ranges → ranges ≠ [] → ranges.length ≤ 256 →
      exec (.datasetManagementDeallocate q nsid ranges) s =
        .next (s.acceptWrite ⟨q, nsid, 0, 0, [], ranges, none, 0⟩)) ∧
    (∀ slba nlb, SeesRange s q nsid slba (nlb + 1) →
      (nlb < 512 → exec (.nvmRead q nsid slba nlb (4096 * (nlb + 1))) s =
        .next (s.startRead ⟨q, nsid, slba, nlb + 1, 0, [], 0, 0, []⟩ (rangeLbas slba (nlb + 1)))) ∧
      (∀ data, nlb < 512 → data.length = 4096 * (nlb + 1) → exec (.compare q nsid slba nlb data) s =
        .next (s.startRead ⟨q, nsid, slba, nlb + 1, 1, data, 0, 0, []⟩ (rangeLbas slba (nlb + 1)))) ∧
      exec (.verify q nsid slba nlb) s =
        .next (s.startRead ⟨q, nsid, slba, nlb + 1, 2, [], 0, 0, []⟩ (rangeLbas slba (nlb + 1)))) ∧
    (∀ key table scope t, (s.countIo q 0x80 2).table table = some t → t.width = 1 → bitOf t.access 0 = true → scope < 3 →
      exec (.search q key table scope) s = .next ((s.countIo q 0x80 2).hostSearch q t key table scope)) ∧
    (∀ ndt key table scope t, (s.countIo q 0x85 2).table table = some t → bitOf t.access 0 = true → scope < 3 →
      (t.width = 2 ∧ ndt = 9) ∨ (t.width = 3 ∧ ndt = 18) →
      exec (.searchWide q ndt key table scope) s = .next ((s.countIo q 0x85 2).hostSearch q t key table scope)) ∧
    (∀ ndt handle group arg source take slba blocks p t, let s0 := s.countIo q 0x82 1;
      (source = 0 ∧ SeesRange s0 q nsid slba blocks) ∨ (source = 1 ∧ SeesTake s0 q nsid take t) ∨
        (source = 2 ∧ SeesRange s0 q nsid 0 0) →
      s0.program handle = some p → p.state = 2 → bitOf p.use 0 = true → group ≤ 15 →
      bitOf (s0.share (q.cntl - 1) 7) group = true → s0.slotsHeld (q.cntl - 1) < s0.share (q.cntl - 1) 8 →
      exec (.runProgram q nsid ndt handle group arg source take slba blocks) s =
        .next ((s0.started q).startNear ⟨q, nsid, ndt, handle, group, arg, source, take, slba, blocks, s.time.now⟩))

/-- Rows of the vendor commands on takes and ranges (R298 to R300). -/
def Obligations.TakeCommandRowsComplete : Prop :=
  ∀ (s : State) (q : CmdRef) (nsid : Nat), Started q s →
    (∀ take t spring frame band r, let s0 := s.countIo q 0x88 3;
      SeesTake s0 q nsid take t → t.frameEntry spring frame = some r → bandNamed r band = none →
      exec (.verifyFrame q nsid take spring frame band) s =
        .next (s0.startRead ⟨q, nsid, 0, 0, 3, [take, spring, frame, band], 0, 0, []⟩ (bandLbas (entryBands r band)))) ∧
    (∀ take t, let s0 := s.countIo q 0x8C 3;
      SeesTake s0 q nsid take t → bitOf t.sealFlags 0 = true → exec (.verifyTakeSeal q nsid take) s =
        .next (s0.endVerify q 0x8C ((s0.takeKey nsid take t.openEpoch).map (fun k => hmac384 k t.records.flatten) = some t.sealTag))) ∧
    (∀ slba blocks alg expected, let s0 := s.countIo q 0x8D 3;
      SeesRange s0 q nsid slba blocks → alg ≤ 2 → expected.length = rangeDigestBytes alg →
      exec (.verifyRangeDigest q nsid slba blocks alg expected) s =
        .next (s0.startRead ⟨q, nsid, slba, blocks, 4, alg :: expected, 0, 0, []⟩ (rangeLbas slba blocks))) ∧
    (∀ slba blocks alg, let s0 := s.countIo q 0x8E 3;
      SeesRange s0 q nsid slba blocks → alg ≤ 2 → exec (.computeRangeDigest q nsid slba blocks alg) s =
        .next (s0.startRead ⟨q, nsid, slba, blocks, 5, [alg], 0, 0, []⟩ (rangeLbas slba blocks))) ∧
    (∀ take t spring frame band offset bytes r, let s0 := s.countIo q 0x92 0;
      SeesTake s0 q nsid take t → t.frameEntry spring frame = some r → bandNamed r band = none → bytes ≤ 2097152 →
      exec (.readFrame q nsid take spring frame band offset bytes) s =
        .next (s0.startRead ⟨q, nsid, 0, 0, 6, [take, spring, frame, band, offset, bytes], 0, 0, []⟩ (bandLbas (entryBands r band)))) ∧
    (∀ take t spring frame ndt r, let s0 := s.countIo q 0x96 0;
      SeesTake s0 q nsid take t → t.frameEntry spring frame = some r →
      exec (.readFrameEntry q nsid take spring frame ndt) s =
        .next (((s0.sendBytes q (fit (4 * ndt) r)).bump (0x40C0 + portOf q.cntl) 0).succeed q r.length))

/-- Rows of the controllers' states, the functions and their shares (chapters 9 and 10). -/
def Obligations.FunctionRowsComplete : Prop :=
  ∀ (s : State),
    (∀ cntl c, s.ctrl cntl = some c → c.en = false → c.online = true → c.flr = false →
      (s.pciOf (cntl - 1)).power = 0 →
      exec (.controllerEnable cntl) s = .next (s.enableCtrl cntl)) ∧
    (∀ cntl c, s.ctrl cntl = some c → c.en = true →
      exec (.controllerDisable cntl) s = .next ((s.resetCtrl cntl).countReset 6 cntl).allQuiet ∧
      exec (.shutdownNotification cntl) s = .next (s.shutCtrl cntl)) ∧
    (exec (.nvmSubsystemReset 0x4E564D65) s = .next (s.subsystemReset.countReset 5 0).allQuiet) ∧
    (∀ port enable numVfs, s.hasDie port = true →
      exec (.vfEnableChange port enable numVfs) s = .next (s.setVfs port enable numVfs)) ∧
    (∀ fn c, s.ctrl (fn + 1) = some c →
      (c.flr = false → exec (.functionLevelReset fn) s = .next (((s.flrSet fn).foldl State.flrOne s).countReset 7 fn).allQuiet) ∧
      (∀ us, c.flr = true → us ≤ 1000 → exec (.functionLevelResetComplete fn us) s = .next (s.flrDone fn us)) ∧
      (c.quiesce = 1 → c.quiesceAt + s.obj 0x4107 0 * 1000000 ≤ s.time.now → exec (.quiesceLimitExpiry fn) s =
        .next ((s.modCtrl (fn + 1) fun c => { c with quiesce := 3, quiesceLeft := c.running }).raiseFn (evDie (fn / 32) 82) fn fn))) ∧
    (s.host.refilled + s.refillNs ≤ s.time.now → exec .bucketRefill s =
      .next { s.refillBuckets with host := { s.refillBuckets.host with refilled := s.time.now } }) ∧
    (∀ q r, (s.host.heldRuns.find? fun r => r.q = q) = some r → r.since + s.obj 0x4106 0 * 1000000 ≤ s.time.now →
      exec (.programHoldExpiry q) s = .next (s.runHoldEnds q)) ∧
    (∀ us q slot x, s.host.activating = some (q, slot, x) → s.drained q = true → us ≤ 400000 →
      exec (.firmwareActivationResume us) s = .next (s.activationEnds q slot us))

/-! ### Where each command completes: the instructions of the cores -/

/-- The integer and multiply rows (R338, R344): the result, its condition flags and its distance. -/
def Obligations.IntegerRowsComplete : Prop :=
  Does .add .add (fun c =>
    c.result (c.packed fun w sat => laneInt w sat (· + ·)) 1 (cvFlags (2 ^ 32 ≤ c.sv + c.tv) (overflows (signed 32 c.sv + signed
     32 c.tv)))) ∧
  Does .sub .sub (fun c =>
    c.result (c.packed fun w sat => laneInt w sat (· - ·)) 1 (cvFlags (c.tv ≤ c.sv) (overflows (signed 32 c.sv - signed 32 c.tv)))) ∧
  Does .and .and (fun c => c.result (.plain (Nat.land c.sv c.tv)) 1 (0, 0)) ∧
  Does .or .or (fun c => c.result (.plain (Nat.lor c.sv c.tv)) 1 (0, 0)) ∧
  Does .xor .xor (fun c => c.result (.plain (Nat.xor c.sv c.tv)) 1 (0, 0)) ∧
  Does .andn .andn (fun c => c.result (.plain (Nat.land c.sv (0xFFFFFFFF - c.tv))) 1 (0, 0)) ∧
  Does .slt .slt (fun c => c.result (.plain (b2n (signed 32 c.sv < signed 32 c.tv))) 1 (0, 0)) ∧
  Does .sltu .sltu (fun c => c.result (.plain (b2n (c.sv < c.tv))) 1 (0, 0)) ∧
  Does .min .min (fun c => c.result (c.packed fun w _ => laneMin w) 1 (0, 0)) ∧
  Does .max .max (fun c => c.result (c.packed fun w _ => laneMax w) 1 (0, 0)) ∧
  Does .minu .minu (fun c => c.result (c.packed fun _ _ a b => .plain (Nat.min a b)) 1 (0, 0)) ∧
  Does .maxu .maxu (fun c => c.result (c.packed fun _ _ a b => .plain (Nat.max a b)) 1 (0, 0)) ∧
  Does .neg .neg (fun c => c.result (c.packed1 fun w sat a => fitSigned w sat (-signed w a)) 1 (0, 0)) ∧
  Does .abs .abs (fun c => c.result (c.packed1 fun w sat a => fitSigned w sat (signed w a).natAbs) 1 (0, 0)) ∧
  Does .sll .sll (fun c => c.result (c.shift fun w a => laneSll w c.x.sat c.tv a) 1 (shiftCarry true c.tv c.sv)) ∧
  Does .srl .srl (fun c => c.result (c.shift fun w a => laneSrl w c.tv a) 1 (shiftCarry false c.tv c.sv)) ∧
  Does .sra .sra (fun c => c.result (c.shift fun w a => laneSra w c.tv a) 1 (shiftCarry false c.tv c.sv)) ∧
  Does .slli .slli (fun c => c.result (c.shift fun w a => laneSll w c.x.sat c.x.t a) 1 (shiftCarry true c.x.t c.sv)) ∧
  Does .srli .srli (fun c => c.result (c.shift fun w a => laneSrl w c.x.t a) 1 (shiftCarry false c.x.t c.sv)) ∧
  Does .srai .srai (fun c => c.result (c.shift fun w a => laneSra w c.x.t a) 1 (shiftCarry false c.x.t c.sv)) ∧
  Does .clz .clz (fun c => c.result (.plain (leadingZeros c.sv)) 1 (0, 0)) ∧
  Does .popc .popc (fun c => c.result (.plain (popcount 32 c.sv)) 1 (0, 0)) ∧
  Does .sextb .sextb (fun c => c.result (.plain (twos 32 (signed 8 c.sv))) 1 (0, 0)) ∧
  Does .sexth .sexth (fun c => c.result (.plain (twos 32 (signed 16 c.sv))) 1 (0, 0)) ∧
  Does .bswap .bswap (fun c => c.result (.plain (ofBe (leBytes 4 c.sv))) 1 (0, 0)) ∧
  Does .packl .packl (fun c => c.result (.plain (c.tv % 65536 * 65536 + c.sv % 65536)) 1 (0, 0)) ∧
  Does .packh .packh (fun c => c.result (.plain (c.tv / 65536 * 65536 + c.sv / 65536)) 1 (0, 0)) ∧
  Does .mul .mul (fun c => c.result (c.packed fun w sat => laneInt w sat (· * ·)) 3 (0, 0)) ∧
  Does .mulh .mulh (fun c => c.result (.plain (twos 64 (signed 32 c.sv * signed 32 c.tv) / 2 ^ 32)) 3 (0, 0)) ∧
  Does .mulhu .mulhu (fun c => c.result (.plain (c.sv * c.tv / 2 ^ 32)) 3 (0, 0)) ∧
  Does .mulhsu .mulhsu (fun c => c.result (.plain (twos 64 (signed 32 c.sv * c.tv) / 2 ^ 32)) 3 (0, 0))

/-- The immediate, fixed-point and accumulator rows (R342, R348 to R350). -/
def Obligations.FixedPointRowsComplete : Prop :=
  Does .addi .addi (fun c =>
    c.result (fitSigned 32 false (signed 32 c.sv + c.x.imm)) 1 (cvFlags (2 ^ 32 ≤ c.sv + twos 32 c.x.imm) (overflows (signed 32
     c.sv + c.x.imm)))) ∧
  Does .andi .andi (fun c => c.result (.plain (Nat.land c.sv c.immU)) 1 (0, 0)) ∧
  Does .ori .ori (fun c => c.result (.plain (Nat.lor c.sv c.immU)) 1 (0, 0)) ∧
  Does .xori .xori (fun c => c.result (.plain (Nat.xor c.sv c.immU)) 1 (0, 0)) ∧
  Does .slti .slti (fun c => c.result (.plain (b2n (signed 32 c.sv < c.x.imm))) 1 (0, 0)) ∧
  Does .sltiu .sltiu (fun c => c.result (.plain (b2n (c.sv < twos 32 c.x.imm))) 1 (0, 0)) ∧
  Does .lui .lui (fun c => c.result (.plain (twos 32 (c.x.imm * (if c.t.selkel1 then 524288 else 65536)))) 1 (0, 0)) ∧
  Does .qmul .qmul (fun c => c.result (c.packed fun w sat => laneQmul w sat c.x.rnd) 2 (0, 0)) ∧
  Does .qrshr .qrshr (fun c => c.result (c.shift fun w a => laneQrshr w c.x.rnd c.tv a) 2 (0, 0)) ∧
  Does .qrshri .qrshri (fun c => c.result (c.shift fun w a => laneQrshr w c.x.rnd c.x.t a) 2 (0, 0)) ∧
  Does .qnarrow .qnarrow (fun c =>
    c.result (joinFits 16 ([c.sv, c.tv].map fun a => fitSigned 16 c.x.sat (roundShift c.x.rnd 16 (signed 32 a)))) 2 (0, 0)) ∧
  Does .qsat16 .qsat16 (fun c =>
    c.result (let f := fitSigned 16 true (signed 32 c.sv); { f with val := twos 32 (signed 16 f.val) }) 2 (0, 0)) ∧
  Does .amul .amul (fun c => c.accumulate (fun _ p => p)) ∧
  Does .amac .amac (fun c => c.accumulate (fun a p => a + p)) ∧
  Does .amsu .amsu (fun c => c.accumulate (fun a p => a - p)) ∧
  Does .amacq .amacq (fun c => c.accumulate (fun a p => a + 2 * p)) ∧
  Does .amsuq .amsuq (fun c => c.accumulate (fun a p => a - 2 * p)) ∧
  Does .aclr .aclr (fun c => c.toAcc (.plain 0)) ∧
  Does .aset .aset (fun c => c.toAcc (.plain (twos 80 (signed 64 (c.tv * 2 ^ 32 + c.sv))))) ∧
  Does .aext .aext (fun c => c.fromAcc (fitSigned 32 c.x.sat (roundShift c.x.rnd c.x.t (signed 80 c.accOut)))) ∧
  Does .agetl .agetl (fun c => c.fromAcc (.plain (c.accOut % 2 ^ 32))) ∧
  Does .ageth .ageth (fun c => c.fromAcc (.plain (c.accOut / 2 ^ 32 % 2 ^ 32))) ∧
  Does .agetg .agetg (fun c => c.fromAcc (.plain (twos 32 (signed 16 (c.accOut / 2 ^ 64)))))

/-- The vector rows, but for VLD and VST (R366, R401 to R403). -/
def Obligations.VectorRowsComplete : Prop :=
  Does .vadd .vadd (fun c => c.toV (c.vec2 fun w sat => laneInt w sat (· + ·))) ∧
  Does .vsub .vsub (fun c => c.toV (c.vec2 fun w sat => laneInt w sat (· - ·))) ∧
  Does .vand .vand (fun c => c.toV (c.vec2 fun _ _ a b => .plain (Nat.land a b))) ∧
  Does .vor .vor (fun c => c.toV (c.vec2 fun _ _ a b => .plain (Nat.lor a b))) ∧
  Does .vxor .vxor (fun c => c.toV (c.vec2 fun _ _ a b => .plain (Nat.xor a b))) ∧
  Does .vmin .vmin (fun c => c.toV (c.vec2 fun w _ => laneMin w)) ∧
  Does .vmax .vmax (fun c => c.toV (c.vec2 fun w _ => laneMax w)) ∧
  Does .vminu .vminu (fun c => c.toV (c.vec2 fun _ _ a b => .plain (Nat.min a b))) ∧
  Does .vmaxu .vmaxu (fun c => c.toV (c.vec2 fun _ _ a b => .plain (Nat.max a b))) ∧
  Does .vneg .vneg (fun c => c.toV (c.vec1 fun w sat a => fitSigned w sat (-signed w a))) ∧
  Does .vabs .vabs (fun c => c.toV (c.vec1 fun w sat a => fitSigned w sat (signed w a).natAbs)) ∧
  Does .vsll .vsll (fun c => c.toV (c.vec2 fun w sat a b => laneSll w sat b a)) ∧
  Does .vsrl .vsrl (fun c => c.toV (c.vec2 fun w _ a b => laneSrl w b a)) ∧
  Does .vsra .vsra (fun c => c.toV (c.vec2 fun w _ a b => laneSra w b a)) ∧
  Does .vqmul .vqmul (fun c => c.toV (c.vec2 fun w sat => laneQmul w sat c.x.rnd)) ∧
  Does .vqrshr .vqrshr (fun c => c.toV (c.vec2 fun w _ a b => laneQrshr w c.x.rnd b a)) ∧
  Does .vcmpeq .vcmpeq (fun c => c.toV (c.vec2 fun w _ a b => .plain (if a = b then 2 ^ w - 1 else 0))) ∧
  Does .vcmplt .vcmplt (fun c => c.toV (c.vec2 fun w _ a b => .plain (if signed w a < signed w b then 2 ^ w - 1 else 0))) ∧
  Does .vcmpltu .vcmpltu (fun c => c.toV (c.vec2 fun w _ a b => .plain (if a < b then 2 ^ w - 1 else 0))) ∧
  Does .vsel .vsel (fun c =>
    c.toV (.plain (Nat.lor (Nat.land (c.t.reg (rV c.x.s)) (c.t.reg (rV c.x.d))) (Nat.land (c.t.reg (rV c.x.t)) (2 ^ 512 - 1 -
     c.t.reg (rV c.x.d)))))) ∧
  Does .vmul .vmul (fun c => c.toV (c.vec2 fun w sat => laneInt w sat (· * ·))) ∧
  Does .vpopc .vpopc (fun c => c.toV (c.vec1 fun w _ a => .plain (popcount w a))) ∧
  Does .vmac .vmac (fun c => c.macc (fun a p => a + p)) ∧
  Does .vmsu .vmsu (fun c => c.macc (fun a p => a - p)) ∧
  Does .vmacq .vmacq (fun c => c.macc (fun a p => a + 2 * p)) ∧
  Does .vmula .vmula (fun c => c.macc (fun _ p => p)) ∧
  Does .vaclr .vaclr (fun c => c.toVA (c.x.d / 8) (.plain 0) 1) ∧
  Does .vbcast .vbcast (fun c => c.toV (.plain (ofLanes (vWidth c.x.ew) (List.replicate (vLanes c.x.ew) c.sv)))) ∧
  Does .vget .vget (fun c => c.fromV (.plain (twos 32 (signed (vWidth c.x.ew) (c.vsLanes.getD (c.tv % vLanes c.x.ew) 0))))) ∧
  Does .vput .vput (fun c =>
    c.toV (.plain (ofLanes (vWidth c.x.ew) ((lanesOf (vWidth c.x.ew) (vLanes c.x.ew) (c.t.reg (rV c.x.d))).set (c.tv % vLanes
     c.x.ew) c.sv)))) ∧
  Does .vredadd .vredadd (fun c => c.fromV (fitSigned 32 c.x.sat ((c.vsLanes.map (signed (vWidth c.x.ew))).foldl (· + ·) 0))) ∧
  Does .vredmin .vredmin (fun c =>
    c.fromV (.plain (twos 32 (signed (vWidth c.x.ew) (c.vsLanes.foldl (fun a b => (laneMin (vWidth c.x.ew) a b).val)
     (c.vsLanes.headD 0)))))) ∧
  Does .vredmax .vredmax (fun c =>
    c.fromV (.plain (twos 32 (signed (vWidth c.x.ew) (c.vsLanes.foldl (fun a b => (laneMax (vWidth c.x.ew) a b).val)
     (c.vsLanes.headD 0)))))) ∧
  Does .vperm .vperm (fun c =>
    c.toV (.plain (ofLanes 8 ((lanesOf 8 64 (c.t.reg (rV c.x.t))).map fun k => if 64 ≤ k then 0 else (lanesOf 8 64 (c.t.reg (rV
     c.x.s))).getD k 0)))) ∧
  Does .vzipl .vzipl (fun c => c.zip 0) ∧
  Does .vziph .vziph (fun c => c.zip (vLanes c.x.ew / 2)) ∧
  Does .vwidenl .vwidenl (fun c => c.widen 0) ∧
  Does .vwidenh .vwidenh (fun c => c.widen (vLanes c.x.ew)) ∧
  Does .vaccout .vaccout (fun c =>
    c.toV (joinFits 16 ((lanesOf 48 32 (c.t.reg (rVARead c.x.s))).map fun a => fitSigned 16 c.x.sat (roundShift c.x.rnd c.x.t
     (signed 48 a))))) ∧
  Does .vaccin .vaccin (fun c =>
    c.toVA c.x.d (.plain (ofLanes 48 ((lanesOf 16 32 (c.t.reg (rV c.x.s))).map fun a => twos 48 (signed 16 a)))) 4)

/-- Division, loads and stores (R343, R345, R403): what each does where it does not trap. -/
def Obligations.MemoryRowsComplete : Prop :=
  DoesWhen .div .div (fun c => c.tv ≠ 0) (fun c =>
    c.resultOf (fitSigned 32 c.x.sat (Int.tdiv (signed 32 c.sv) (signed 32 c.tv))) 12 (0, 0)) ∧
  DoesWhen .divu .divu (fun c => c.tv ≠ 0) (fun c => c.resultOf (.plain (c.sv / c.tv)) 12 (0, 0)) ∧
  DoesWhen .rem .rem (fun c => c.tv ≠ 0) (fun c =>
    c.resultOf (.plain (twos 32 (Int.tmod (signed 32 c.sv) (signed 32 c.tv)))) 12 (0, 0)) ∧
  DoesWhen .remu .remu (fun c => c.tv ≠ 0) (fun c => c.resultOf (.plain (c.sv % c.tv)) 12 (0, 0)) ∧
  (∀ op i onZero, (op, i, onZero) ∈ [(Op.div, Instr.div, fun (c : Ctx) => if bitOf c.sv 31 then 0x80000000 else 0x7FFFFFFF),
      (Op.divu, Instr.divu, fun _ => 0xFFFFFFFF), (Op.rem, Instr.rem, fun c => c.sv), (Op.remu, Instr.remu, fun c => c.sv)] →
    DoesWhen op i (fun c => c.tv = 0 ∧ bitOf (c.t.reg rFx) 8 = false) (fun c =>
      { c.resultOf (.plain (onZero c)) 12 (0, 0) with sticky := 4 }) ∧
    TrapsWhen op i (fun c => c.tv = 0 ∧ bitOf (c.t.reg rFx) 8 = true) 6 (fun c => c.sv)) ∧
  (∀ p, DoesWhen .lb .lb (fun c => c.finds c.ea 1 p) (fun c =>
    c.loaded p { wr c.x.d (twos 32 (signed 8 (ofLe (c.s.placeRead c.t p 1)))) 3 with load := true })) ∧
  (∀ p, DoesWhen .lbu .lbu (fun c => c.finds c.ea 1 p) (fun c =>
    c.loaded p { wr c.x.d (ofLe (c.s.placeRead c.t p 1)) 3 with load := true })) ∧
  (∀ p, DoesWhen .lh .lh (fun c => c.finds c.ea 2 p) (fun c =>
    c.loaded p { wr c.x.d (twos 32 (signed 16 (ofLe (c.s.placeRead c.t p 2)))) 3 with load := true })) ∧
  (∀ p, DoesWhen .lhu .lhu (fun c => c.finds c.ea 2 p) (fun c =>
    c.loaded p { wr c.x.d (ofLe (c.s.placeRead c.t p 2)) 3 with load := true })) ∧
  (∀ p, DoesWhen .lw .lw (fun c => c.finds c.ea 4 p) (fun c =>
    c.loaded p { wr c.x.d (ofLe (c.s.placeRead c.t p 4)) 3 with load := true })) ∧
  (∀ p, DoesWhen .vld .vld (fun c => c.finds c.sv 64 p) (fun c => c.loaded p (wr (rV c.x.d) (ofLe (c.s.placeRead c.t p 64)) 4))) ∧
  (∀ op i n b, (op, i, n, b) ∈ [(Op.sb, Instr.sb, 1, fun (c : Ctx) => leBytes 1 c.dv), (Op.sh, Instr.sh, 2, fun c => leBytes 2 c.dv),
      (Op.sw, Instr.sw, 4, fun c => leBytes 4 c.dv)] →
    ∀ m, DoesWhen op i (fun c => c.ea % n = 0 ∧ c.s.place c.die c.slot c.t c.ea n = some (.seg m)) (fun c => c.stored m (b c)) ∧
      DoesWhen op i (fun c => c.ea % n = 0 ∧ c.s.place c.die c.slot c.t c.ea n = some (.pond m)) (fun c =>
        { c.stored m (b c) with after := (c.s.write m (b c)).useFree, wait := c.s.freeValue })) ∧
  (∀ m, let b := fun (c : Ctx) => leBytes 64 (c.t.reg (rV c.x.d));
    DoesWhen .vst .vst (fun c => c.sv % 64 = 0 ∧ c.s.place c.die c.slot c.t c.sv 64 = some (.seg m)) (fun c => c.stored m (b c)) ∧
    DoesWhen .vst .vst (fun c => c.sv % 64 = 0 ∧ c.s.place c.die c.slot c.t c.sv 64 = some (.pond m)) (fun c =>
      { c.stored m (b c) with after := (c.s.write m (b c)).useFree, wait := c.s.freeValue }))

/-- Where loads and stores trap (R343, R354, R403): a misaligned address, an address with no place or, for a store, in the ring window, and
poison under a load. -/
def Obligations.MemoryRowsTrap : Prop :=
  ∀ op i n (a : Ctx → Nat), (op, i, n, a) ∈ [(Op.lb, Instr.lb, 1, fun (c : Ctx) => c.ea), (Op.lbu, Instr.lbu, 1, fun c => c.ea),
      (Op.lh, Instr.lh, 2, fun c => c.ea), (Op.lhu, Instr.lhu, 2, fun c => c.ea), (Op.lw, Instr.lw, 4, fun c => c.ea),
      (Op.vld, Instr.vld, 64, fun c => c.sv), (Op.sb, Instr.sb, 1, fun c => c.ea), (Op.sh, Instr.sh, 2, fun c => c.ea),
      (Op.sw, Instr.sw, 4, fun c => c.ea), (Op.vst, Instr.vst, 64, fun c => c.sv)] →
    TrapsWhen op i (fun c => a c % n ≠ 0) 3 a ∧
    TrapsWhen op i (fun c => a c % n = 0 ∧ c.s.place c.die c.slot c.t (a c) n = none) 4 a ∧
    (∀ p, op ∉ [Op.sb, Op.sh, Op.sw, Op.vst] → TrapsWhen op i (fun c => a c % n = 0 ∧
      c.s.place c.die c.slot c.t (a c) n = some p ∧ c.s.placePoisoned p n = true) 0x0A a) ∧
    (∀ o, op ∈ [Op.sb, Op.sh, Op.sw, Op.vst] → TrapsWhen op i (fun c => a c % n = 0 ∧
      c.s.place c.die c.slot c.t (a c) n = some (.ring o)) 4 a)

/-- The branch, jump and system rows (R330 to R334, R346, R352, R356). -/
def Obligations.ControlRowsComplete : Prop :=
  let near := fun (c : Ctx) => 0 ≤ (c.t.pc : Int) + c.x.imm * 4 ∧ (c.t.pc : Int) + c.x.imm * 4 < 65536 ∧ c.t.pc % 4 = 0;
  let there := fun (c : Ctx) => ((c.t.pc : Int) + c.x.imm * 4).toNat;
  let outside := fun (c : Ctx) => (c.t.pc : Int) + c.x.imm * 4 < 0 ∨ 65536 ≤ (c.t.pc : Int) + c.x.imm * 4;
  (∀ op i take, (op, i, take) ∈ [(Op.beq, Instr.beq, fun (c : Ctx) => decide (c.sv = c.tv)), (Op.bne, Instr.bne, fun c => c.sv ≠ c.tv),
      (Op.blt, Instr.blt, fun c => signed 32 c.sv < signed 32 c.tv), (Op.bge, Instr.bge, fun c => signed 32 c.tv ≤ signed 32 c.sv),
      (Op.bltu, Instr.bltu, fun c => c.sv < c.tv), (Op.bgeu, Instr.bgeu, fun c => c.tv ≤ c.sv)] →
    DoesWhen op i (fun c => take c = true ∧ near c) (fun c => { c.plain with next := there c, cost := 3 }) ∧
    DoesWhen op i (fun c => take c = false) (fun c => c.plain) ∧
    TrapsWhen op i (fun c => take c = true ∧ outside c) 5 (fun c => twos 32 ((c.t.pc : Int) + c.x.imm * 4))) ∧
  DoesWhen .j .j (fun c => near c) (fun c => { c.plain with next := there c, cost := 3 }) ∧
  DoesWhen .b .b (fun c => near c) (fun c => { c.plain with next := there c, cost := 3 }) ∧
  DoesWhen .jal .jal (fun c => near c) (fun c =>
    { c.plain with next := there c, cost := 3, writes := [wr 31 (c.t.pc + 4) 1] }) ∧
  DoesWhen .bl .bl (fun c => near c) (fun c =>
    { c.plain with next := there c, cost := 3, writes := [wr 15 (c.t.pc + 4) 1] }) ∧
  DoesWhen .jalr .jalr (fun c => c.ea % 4 = 0 ∧ c.ea < 65536) (fun c =>
    { c.plain with next := c.ea, cost := 3, writes := [wr c.x.d (c.t.pc + 4) 1] }) ∧
  DoesWhen .br .br (fun c => c.ea % 4 = 0 ∧ c.ea < 65536) (fun c =>
    { c.plain with next := c.ea, cost := 3, writes := [wr c.x.d (c.t.pc + 4) 1] }) ∧
  (∀ op i, (op, i) ∈ [(Op.jalr, Instr.jalr), (Op.br, Instr.br)] →
    TrapsWhen op i (fun c => c.ea % 4 ≠ 0 ∨ 65536 ≤ c.ea) 5 (fun c => twos 32 c.ea)) ∧
  (∀ op i, (op, i) ∈ [(Op.j, Instr.j), (Op.jal, Instr.jal), (Op.b, Instr.b), (Op.bl, Instr.bl)] →
    TrapsWhen op i outside 5 (fun c => twos 32 ((c.t.pc : Int) + c.x.imm * 4))) ∧
  DoesWhen .crd .crd (fun c => ctlNumbers.contains c.x.ctl = true) (fun c =>
    let cycles := c.t.cycles + c.t.waitCycles c.x;
    let k := c.s.clock c.die;
    { c.plain with
      writes := wr c.x.d (c.s.ctlRead c.die c.slot c.core { c.t with cycles := cycles } c.x.ctl) 1 ::
        if c.x.ctl = 0x020 then [wr (rC 0x021) (cycles / 2 ^ 32) 1]
        else if c.x.ctl = 0x022 then [wr (rC 0x023) (k.epoch / 2 ^ 32 % 65536) 1, wr (rC 0x024) k.phase 1]
        else [] }) ∧
  TrapsWhen .crd .crd (fun c => ctlNumbers.contains c.x.ctl = false) 8 (fun c => c.x.ctl) ∧
  (∀ op i mask val, (op, i, mask, val) ∈ [(Op.cwr, Instr.cwr, fun (_ : Ctx) => 0xFFFFFFFF, fun (c : Ctx) => c.sv),
      (Op.cset, Instr.cset, fun c => c.sv, fun _ => 0xFFFFFFFF), (Op.cclr, Instr.cclr, fun c => c.sv, fun _ => 0)] →
    DoesWhen op i (fun c => c.t.ctlWritable c.x.ctl = true) (fun c =>
      { c.plain with
        writes := ⟨rC c.x.ctl, Nat.land (mask c) (ctlMask c.x.ctl), val c, 2, false⟩ ::
          if c.x.ctl = 0x002 then [⟨rDzte, 0, 0, 2, false⟩] else [] }) ∧
    TrapsWhen op i (fun c => c.t.ctlWritable c.x.ctl = false) 8 (fun c => c.x.ctl)) ∧
  TrapsWhen .trap .trap (fun _ => True) 9 (fun c => c.x.ctl) ∧
  DoesWhen .eret .eret (fun c => c.t.inTrap = true) (fun c =>
    { c.plain with after := c.s.setTask c.die c.slot { c.t with inTrap := false }, next := c.t.reg (rC 0x11), cost := 3 }) ∧
  (∀ s die core c, Sees die core s c → c.x.op = .eret → c.t.inTrap = false →
    exec (.eret die core) s = .next (c.s.takeTrap c.die c.slot c.t.pc 1 c.w)) ∧
  (∀ t, let s1 := fun (c : Ctx) => c.s.consumeOutput c.die c.slot;
    let w := fun (c : Ctx) => { t with waitMask := c.sv, waitAll := bitOf c.x.ctl 0, waitReg := c.x.d };
    let here := fun (c : Ctx) => (s1 c).task c.die c.slot = some t;
    DoesWhen .wait .wait (fun c => here c ∧ c.sv = 0) (fun c =>
      { c.plain with after := (s1 c).yieldCore c.die c.slot, writes := [wr c.x.d 0 1] }) ∧
    DoesWhen .wait .wait (fun c => here c ∧ c.sv ≠ 0 ∧ (w c).waitHolds = true) (fun c =>
      { c.plain with after := (s1 c).setTask c.die c.slot { t with flags := t.flags - Nat.land t.flags c.sv }
                     writes := [wr c.x.d (Nat.land t.flags c.sv) 1] }) ∧
    DoesWhen .wait .wait (fun c => here c ∧ c.sv ≠ 0 ∧ (w c).waitHolds = false) (fun c =>
      { c.plain with after := (s1 c).setTask c.die c.slot { w c with state := 1 }, writes := [wr c.x.d 0 1] })) ∧
  DoesWhen .fence .fence (fun _ => True) (fun c =>
    { c.plain with after := (c.s.consumeOutput c.die c.slot).useFree, wait := c.s.freeValue }) ∧
  DoesWhen .exit .exit (fun _ => True) (fun c =>
    { c.plain with after := (c.s.consumeOutput c.die c.slot).stopTask c.die c.slot 0 c.sv 0 })

/-- UNDEFINED_INSTRUCTION and COP3_INSTRUCTION (R339, R346, R367): the trap is what the rows do. -/
def Obligations.UndefinedRowsTrap : Prop :=
  ∀ (s : State) (die core slot : Nat) (t0 : Task), s.hasDie die = true → s.running die core = some (slot, t0) →
    let s1 := s.setTask die slot t0.settle;
    let pc := t0.settle.pc;
    (s.fetchWord t0.settle = none → exec (.undefinedInstruction die core) s = .next (s1.takeTrap die slot pc 5 pc)) ∧
    (∀ w, s.fetchWord t0.settle = some w → decodeWord t0.settle.selkel1 w = none →
      exec (.undefinedInstruction die core) s = .next (s1.takeTrap die slot pc 1 w)) ∧
    (∀ w x, s.fetchWord t0.settle = some w → decodeWord t0.settle.selkel1 w = some x → x.op = .cop3 → x.bad = false →
      exec (.cop3Instruction die core) s = .next (s1.takeTrap die slot pc 7 w))

/-- The rows of the coprocessors (R363 to R365, R431 to R435): each answers with status 0 and its result. -/
def Obligations.CoprocessorRowsComplete : Prop :=
  (∀ width op i key, (width, op, i, key) ∈ [(1, Op.srch, Instr.srch, fun (c : Ctx) => c.t.reg (rV c.x.s) % 2 ^ 144),
      (2, Op.srch288, Instr.srch288, fun c => c.t.reg (rV c.x.s) % 2 ^ 288),
      (3, Op.srch576, Instr.srch576, fun c => c.t.reg (rV c.x.s) + 2 ^ 512 * (c.t.reg (rV (c.x.s + 1)) % 2 ^ 64))] →
    ∀ s die core c t, Runs op die core s c → c.s.table (c.tv % 256) = some t → t.state = 1 ∨ t.state = 2 → t.width = width →
      (∀ d ∈ c.s.dies, c.s.healthy d = true → c.s.usable d 3 = true ∧ ∀ r ∈ c.s.tableRows d t,
        r.2.matches (key c % 2 ^ t.keyBits) = true → r.2.copyMatches (key c % 2 ^ t.keyBits) = true) →
      let r := ((c.s.bump 0x7008 1).bump 0x7008 5).searchPackage t (key c);
      exec (i die core) s = .next (c.after (c.answer r.2.2.2 0x3C 0 (some (r.2.1.getD (2 ^ 31))) [wr rCnt r.2.2.1 2]))) ∧
  (∀ op i, (op, i) ∈ [(Op.sins, Instr.sins), (Op.sput, Instr.sput)] →
    ∀ s die core c p t, Runs op die core s c → c.sv % 64 = 0 → c.s.place c.die c.slot c.t c.sv 192 = some p →
      c.s.placePoisoned p 192 = false → c.s.table (c.tv % 256) = some t → t.state = 1 → bitOf t.access 2 = true →
      t.queue.length < 16 → (t.queue.filter fun o => o.kind = 0).length < (c.s.freePlaces t).length →
      let k := recordKey t (c.s.placeRead c.t p 192);
      exec (i die core) s =
        .next (c.after (c.answer (c.s.queueMaint (c.tv % 256) t ⟨0, k.1, k.2.1, k.2.2, c.postFlag⟩) 0x3C 0 none []))) ∧
  (∀ s die core c t, c.s.table (c.tv % 256) = some t → t.state = 1 ∨ t.state = 2 → bitOf t.access 2 = true →
    (Runs .sclr die core s c → t.queue.length < 16 → exec (.sclr die core) s =
      .next (c.after (c.answer (c.s.queueMaint (c.tv % 256) t ⟨1, 0, 0, 0, c.postFlag⟩) 0x3C 0 none []))) ∧
    (Runs .sstat die core s c → exec (.sstat die core) s = .next (c.after (c.answer c.s 0x3C 0
      (some (c.s.validEntries t + t.queue.length * 2 ^ 20 + b2n t.move.isSome * 2 ^ 31)) [])))) ∧
  (∀ s die core c p n t k, let b := c.s.placeRead c.t p 192;
    let s1 := c.s.drainTable n 16;
    let t1 := (s1.table n).getD t;
    let r := recordKey t1 b;
    let row := SRow.make r.1 r.2.1 r.2.2;
    let gives := fun (e : Option SRow) => c.after (Ctx.answer { c with s := s1 } (s1.writeEntry t1 k e) 0x3C 0 none []);
    c.s.place c.die c.slot c.t c.sv 192 = some p → c.sv % 64 = 0 → c.s.placePoisoned p 192 = false →
    c.s.placeOf (c.tv % 2 ^ 20) = some (n, t, k) → c.s.table n = some t → bitOf t.access 2 = true → t.queue.length < 16 →
    (Runs .swr die core s c → t.state = 1 → s1.entryAt t1 k = none → t1.order ≠ 1 ∨ s1.orderOk t1 k (r.2.2 / 2 ^ 56) = true →
      exec (.swr die core) s = .next (gives (some row))) ∧
    (∀ x, s1.entryAt t1 k = some x → x.value = Nat.land r.1 r.2.1 → x.mask = r.2.1 →
      (Runs .swr die core s c → t.state = 1 → exec (.swr die core) s = .next (gives (some { x with data := row.data }))) ∧
      (Runs .sdel die core s c → t.state = 1 ∨ t.state = 2 → exec (.sdel die core) s = .next (gives none)))) ∧
  (∀ s die core c m n t k, let s1 := c.s.drainTable n 16;
    let s2 := s1.useFree3;
    let t1 := (s1.table n).getD t;
    let gives := fun (b : List Nat) (v : Nat) => c.after (Ctx.answer { c with s := s2 } (s2.write m b) 0x3C 0 (some v) []);
    let open' := fun (j : Nat) => Config.free (s1.freeCtr + j);
    Runs .srd die core s c → c.tv % 64 = 0 →
    c.s.place c.die c.slot c.t c.tv 192 = some (.seg m) ∨ c.s.place c.die c.slot c.t c.tv 192 = some (.pond m) →
    c.s.placeOf (c.sv % 2 ^ 20) = some (n, t, k) → c.s.table n = some t → t.state = 1 ∨ t.state = 2 → bitOf t.access 2 = true →
    t.queue.length < 16 →
    (∀ x, s1.entryAt t1 k = some x → exec (.srd die core) s = .next (gives (recordBytes t1 x.value x.mask x.data) 1)) ∧
    (s1.entryAt t1 k = none → exec (.srd die core) s = .next (gives (recordBytes t1 (open' 0) (open' 1) (open' 2)) 0))) ∧
  (∀ s die core c q, let owner := c.me;
    (∀ cls d p, cls = (if c.t.cls = 0 then 0 else 3) → d = c.sv / 64 % 8 → p = c.sv % 64 → Runs .pget die core s c →
      Grants c.s owner cls d p q → exec (.pget die core) s =
        .next (c.after (c.answer (c.s.granted owner d p q) 0x3D 0 (some (grantedHandle d p q)) []))) ∧
    (Runs .paddref die core s c → Shares c.s owner c.sv c.tv q →
      exec (.paddref die core) s = .next (c.after (c.answer (c.s.shared c.sv c.tv q) 0x3D 0 none []))) ∧
    (Runs .ppass die core s c → Passes c.s owner c.sv c.tv q →
      exec (.ppass die core) s = .next (c.after (c.answer (c.s.passed owner c.sv c.tv q) 0x3D 0 none []))) ∧
    (Runs .pput die core s c → Returns c.s owner c.sv q → let t := c.s.returned owner c.sv q;
      exec (.pput die core) s = .next (c.after (c.answer (match t.task c.die c.slot with
        | none => t
        | some k => t.setTask c.die c.slot { k with windows := k.windows.filter fun w => w.2 ≠ c.sv }) 0x3D 0 none []))) ∧
    (Runs .pquery die core s c → Names c.s c.sv q → let b := q.buf (handleIndex c.sv);
      exec (.pquery die core) s =
        .next (c.after (c.answer c.s 0x3D 0 (some (b.gen * 256 + b.holders.length * 16 + b2n b.quar)) []))) ∧
    (Runs .pmap die core s c → c.s.pool (handleDie c.sv) (handlePool c.sv) = some q → q.judge c.sv owner = none →
      exec (.pmap die core) s = .next (c.after (c.answer (c.s.setTask c.die c.slot { c.t with
        windows := tset c.t.windows (c.x.ctl % 4) c.sv }) 0x3D 0 (some (0x10000000 + 0x400000 * (c.x.ctl % 4))) [])))) ∧
  Does .punmap .punmap (fun c =>
    c.answer (c.s.setTask c.die c.slot { c.t with windows := tdel c.t.windows (c.x.ctl % 4) }) 0x3D 0 none []) ∧
  (∀ op i engine copied, (op, i, engine, copied) ∈ [(Op.jsubCipher, Instr.jsubCipher, 0, 52), (Op.jsubDigest, Instr.jsubDigest, 1, 44),
      (Op.jsubCodec, Instr.jsubCodec, 2, 32)] →
    ∀ s die core c p, Runs op die core s c → c.finds c.sv 64 p → (∀ o, p ≠ .ring o) →
      c.s.waitingJobs c.die engine c.jobClass < queueLimit →
      exec (i die core) s = .next (c.after (c.accepted engine copied p))) ∧
  (∀ s die core c j, Runs .jpoll die core s c → tget (c.s.cd c.die).jobs c.sv = some j → j.slot = c.slot →
    exec (.jpoll die core) s =
      .next (c.after (c.answer c.s 0x3E 0 (some (j.state + (if j.state = 3 then 256 * j.status else 0))) [])))

/-! ### Where each command completes: cores and engines -/

/-- Rows of the dispatcher, the filters and the cores (chapters 11 and 12). -/
def Obligations.DispatcherRowsComplete : Prop :=
  ∀ (s : State) (die : Nat), s.hasDie die = true →
    (∀ g slot t core, s.winner die = some (g, slot, t, core) →
      let s1 := s.startTask die g slot t core;
      (s.running die core = none → exec (.dispatch die) s = .next s1) ∧
      (∀ other o, s.running die core = some (other, o) →
        exec (.dispatch die) s = .next ((s1.enqueue die other o).bump (0x5090 + die) 2))) ∧
    (∀ core slot t g o u, s.running die core = some (slot, t) → t.cls ≠ 0 → t.startedAt + t.slice * 1000 ≤ s.time.now →
      g < 16 → o ∈ s.readyList die g → s.task die o = some u → core ∈ s.coresFor die u →
      exec (.timeSliceExpiry die core) s = .next ((s.yieldCore die slot).bump (0x5090 + die) 1)) ∧
    (exec (.heldPostLands die) s = 
      .next ([0, 1, 2].foldl (fun s e => s.startJobs die e 4) ((s.cd die).tasks.foldl (fun s t => s.landPost die t.1) s))) ∧
    (∀ slot w frame n st, ((s.task die slot).bind (·.filter)) = some w →
      (w.frames.find? fun x => x.state = 0) = some ⟨frame, some n, st⟩ → isBefore (s.instant die) n = false →
      exec (.filterDeadline die slot) s = .next (s.missFrame die slot frame true).endFilters) ∧
    (∀ core, core < 16 → s.coreUp die core = true → exec (.computeCoreFailure die core) s = .next (s.computeCoreFails die core)) ∧
    (∀ ticket poisoned j, tget (s.cd die).jobs ticket = some j → j.engine = 2 → j.state = 1 → j.abandoned = false →
      j.codecBad = false → s.engineStalled die 2 = false →
      exec (.codecJobComplete die ticket poisoned) s = .next (s.runCodec die ticket j poisoned))

/-- Rows of the search arrays and of the cascade (chapter 13). -/
def Obligations.SearchRowsComplete : Prop :=
  ∀ (s : State),
    (∀ issuer width table key carried count, exec (.cascadeKey issuer width table key carried count) s =
      .next (s.cascadeKey issuer width table key carried count)) ∧
    (s.obj 0x7002 2 ≠ 1 →
      (s.search.tokenAt.any (s.time.now < · + 1000) = false →
        exec .cascadeIdleToken s = .next (s.useFree.sendToken (s.freeValue % 2 = 1))) ∧
      ∀ conflict, conflict = true ∨ s.search.heardAt.any (s.time.now < · + 10000) = false →
        exec (.cascadeSilenceTimeout conflict) s = .next (s.ringBreaks conflict)) ∧
    (s.obj 0x7002 2 = 1 → exec .cascadeIdleToken s = .next s ∧ ∀ conflict, exec (.cascadeSilenceTimeout conflict) s = .next s) ∧
    (∀ die, s.hasDie die = true →
      (∀ row e agrees poisoned, tget (s.rowsOf die) row = some e → e.rewrite = true →
        exec (.rowRewriteComplete die row agrees poisoned) s = .next (s.rowRewritten die row e agrees poisoned)) ∧
      (∀ mismatched, s.searchScrubDue die = true → exec (.searchArrayScrub die mismatched) s = .next (s.scrubRows die mismatched))) ∧
    (∀ table t, tget s.search.tables table = some t →
      (t.queue ≠ [] → exec (.maintenanceOperationComplete table) s = .next ((s.runMove table (s.places t)).endMaint table)) ∧
      (∀ m, t.move = some m → m.gap ≠ m.goal → exec (.entryMove table) s = .next (s.moveStep table t m)))

/-- Rows of the cipher and digest engines (chapters 14 and 15). -/
def Obligations.EngineRowsComplete : Prop :=
  ∀ (s : State) (die : Nat), s.hasDie die = true →
    (∀ slot k, s.keySlot die slot = some k →
      (∃ j ∈ (s.cd die).active 0, j.2.status = waitBlock ∧ j.2.cslot = slot) ∨
        (slot = s.obj 0x9006 0 ∧ ∃ m ∈ s.lake.held, m.lane / 4 = die) →
      exec (.counterBlockJournalled die slot) s = .next (s.counterMarked die slot k)) ∧
    (∀ ticket j, tget (s.cd die).jobs ticket = some j → j.state = 0 → j.cls = 0 →
      (j.engine = 0 → j.since + j.limit ≤ s.time.now ∨ 67108864 * s.obj 0x2222 5 < s.ringUsed die * 100 →
        exec (.cipherUrgencyExpiry die ticket) s =
        .next (s.setJob die ticket { j with urgent := true })) ∧
      (j.engine = 1 → j.since + j.limit ≤ s.time.now →
        exec (.digestUrgencyExpiry die ticket) s = .next (s.digestUrgent die ticket j))) ∧
    (∀ core ticket j vt v, ((s.cd die).queue 0).find? (fun j => j.2.urgent) = some (ticket, j) → (s.cd die).victim 0 = some (vt, v) →
      v.core = core → (s.sd die).aesContexts < 16 →
      exec (.cipherPreemptAtBoundary die core) s = .next (s.preemptCipher die core ticket vt j v (s.sd die))) ∧
    (∀ core ticket j poisoned, s.jobOn die 0 core = some (ticket, j) → s.engineStalled die 0 = false → j.abandoned = false → j.status = 0 →
      exec (.cipherJobComplete die core poisoned) s = .next (s.runCipher die ticket core j poisoned)) ∧
    (∀ core ticket j poisoned cmp, s.jobOn die 1 core = some (ticket, j) → s.engineStalled die 1 = false → j.abandoned = false →
      j.status = 0 →
      exec (.digestJobComplete die core poisoned cmp) s = .next (s.runDigest die ticket core j poisoned cmp)) ∧
    (∀ core, core ∈ s.engineCores die 0 → exec (.aesCoreTimeout die core) s = .next (s.aesCoreLost die core)) ∧
    (∀ core, core ∈ s.engineCores die 1 → exec (.shaCoreTimeout die core) s = .next (s.shaCoreLost die core)) ∧
    (∀ set, set < 2 →
      (∀ dctl dlen dexp, exec (.dctlStart die set dctl dlen dexp) s = .next (s.startSet die set dctl dlen dexp)) ∧
      exec (.dctlAbort die set) s = .next (s.setRegSet die set { RegSet.reset with
        dctl := (s.regSet die set).dctl, dlen := (s.regSet die set).dlen, dexp := (s.regSet die set).dexp }) ∧
      (∀ word, exec (.ddataWrite die set word) s = .next (s.feedSet die set word)) ∧
      (∀ index, ((s.regSet die set).job && !(s.regSet die set).done) = false → exec (.dresRead die set index) s =
        .next (s.emit (.digestWord die set index (field (s.regSet die set).digest (4 * index) 4)))) ∧
      ((s.regSet die set).job = true → (s.regSet die set).active = false → (s.regSet die set).done = false →
        exec (.registerJobDone die set) s = .next (s.finishSet die set (s.regSet die set))) ∧
      ((s.regSet die set).busy = true →
        exec (.digestBlockCompressed die set) s = .next (s.setRegSet die set { s.regSet die set with busy := false })))

/-! ### Where each command completes: the lake -/

/-- Rows of the messages of a lake (chapter 16): an accepted message has its effect. -/
def Obligations.LakeMessageRowsComplete : Prop :=
  ∀ (s : State) (h : LakeHdr),
    (∀ b, MsgTaken h 1 0 s → let t := s.msgState h 1 0;
      exec (.lakeHeartbeat h b) s =
        .next (if t.inLake then ((t.heardHeartbeat h b).afterDrop t).settleRings else t.heardHeartbeat h b)) ∧
    (∀ low high serial gm rate, MsgTaken h 2 0 s →
      exec (.joinRequest h low high serial gm rate) s = .next ((s.msgState h 2 0).answerJoin h low high gm rate)) ∧
    (∀ result level leader gen members, MsgTaken h 3 0 s →
      exec (.joinAnswer h result level leader gen members) s = .next ((s.msgState h 3 0).joinAnswered result level leader gen)) ∧
    (∀ cause, MsgTaken h 4 0 s → exec (.leave h cause) s = .next ((s.msgState h 4 0).peerLeaves h)) ∧
    (∀ seq status, MsgTaken h 5 0 s → exec (.lakeAck h seq status) s = .next ((s.msgState h 5 0).lakeAcked h seq)) ∧
    (∀ body, MsgTaken h 0x10 0 s → exec (.lakeDictRequest h body) s = .next ((s.msgState h 0x10 0).servePeer h body)) ∧
    (∀ body, MsgTaken h 0x11 0 s → exec (.lakeDictResponse h body) s = .next (s.msgState h 0x11 0)) ∧
    (∀ ident epoch participants writes, MsgTaken h 0x20 0 s → exec (.lxnPrepare h ident epoch participants writes) s =
      .next ((s.msgState h 0x20 0).votePrepare h ident epoch writes)) ∧
    (∀ ident vote admission status index sub, MsgTaken h 0x21 0 s → exec (.lxnVote h ident vote admission status index sub) s =
      .next ((s.msgState h 0x21 0).recordVote ident h.src vote)) ∧
    (∀ ident epoch, MsgTaken h 0x22 0 s → exec (.lxnCommit h ident epoch) s = .next ((s.msgState h 0x22 0).commitVote ident)) ∧
    (∀ ident cause, MsgTaken h 0x23 0 s → exec (.lxnAbort h ident cause) s = .next ((s.msgState h 0x23 0).lxnAborted ident)) ∧
    (∀ ident, MsgTaken h 0x24 0 s → exec (.lxnQuery h ident) s = .next ((s.msgState h 0x24 0).answerQuery h ident)) ∧
    (∀ ident table width key, MsgTaken h 0x30 width s →
      exec (.searchRequest h ident table width key) s = .next ((s.msgState h 0x30 width).replySearch h ident table width key)) ∧
    (∀ ident result count status, MsgTaken h 0x31 0 s → exec (.searchResult h ident result count status) s =
      .next ((s.msgState h 0x31 0).searchAnswered h ident result count status)) ∧
    (∀ lakeTake spring frame bands, MsgTaken h 0x40 0 s →
      exec (.partReady h lakeTake spring frame bands) s = .next ((s.msgState h 0x40 0).partHeard h lakeTake spring frame bands)) ∧
    (∀ lakeTake spring frame bands, MsgTaken h 0x41 0 s → exec (.frameCommit h lakeTake spring frame bands) s =
      .next ((s.msgState h 0x41 0).frameCommitted lakeTake spring frame bands).settleRings) ∧
    (∀ body, MsgTaken h 0x50 0 s → exec (.eventMessage h body) s = .next (s.msgState h 0x50 0))

/-- Rows of the lake's timers and lanes (chapter 16). -/
def Obligations.LakeTimerRowsComplete : Prop :=
  ∀ (s : State),
    (∀ k, s.lake.state ≠ 0 → s.beatDue k = true → let s1 := s.takeLead;
      exec (.heartbeatSend k) s =
        .next (({ s1 with lake := { s1.lake with beat := some (s.epoch, k) } } : State).lakeEmit 0x1FF 1 false s1.heartbeatBody)) ∧
    (∀ node, node ≠ s.lake.node → node ∈ s.lake.members ∨ (tget s.lake.peers node).isSome = true → s.nodeSilent node = true →
      exec (.nodeLost node) s = .next (if s.inLake then ((s.dropNode node true).afterDrop s).settleRings
        else { s with lake := { s.lake with peers := tdel s.lake.peers node } })) ∧
    (∀ j, s.lake.join = some j → s.lake.state = 1 →
      (j.listening = true → j.since + 3 * s.beatNs ≤ s.time.now → s.lake.peers = [] →
        exec .joinListenExpiry s = .next (s.becomeMember s.lake.node 1 (s.obj 0x9007 1) [s.lake.node])) ∧
      (j.listening = true → j.since + 3 * s.beatNs ≤ s.time.now → tget s.lake.peers s.lake.node = none →
        ∀ p, (s.lake.peers.find? fun p => p.2.state = 2) = some p →
        let body := [1, 2] ++ zeros 6 ++ leBytes 8 Config.packageSerial ++ leBytes 8 (s.obj 0x1130 4) ++ leBytes 8 (s.obj 0x1102 0);
        exec .joinListenExpiry s =
          .next (({ s with lake := { s.lake with join := some ⟨j.q, false, true, s.time.now⟩ } } : State).lakeSend p.1 2 body)) ∧
      (j.asked = true → s.lake.level = 0 → j.since + 1000000000 ≤ s.time.now →
        exec .joinAnswerTimeout s = .next (s.refuseLake 0x0B))) ∧
    (∀ node seq m, (s.lake.unacked.find? fun m => m.dst = node && m.seq = seq) = some m →
      m.sent + 1000 * s.obj 0x9009 1 ≤ s.time.now →
      let s1 : State := { s with lake := { s.lake with unacked := s.lake.unacked.erase m } };
      let s2 := (s1.lakeEmit node m.ty true m.body).bump 0x901A 4;
      let m' := { m with seq := tgetD s2.lake.seqOut node 0, retries := m.retries + 1, sent := s.time.now };
      exec (.lakeRetryExpiry node seq) s = .next (if m.retries < s.obj 0x9009 2 then
        { s2 with lake := { s2.lake with unacked := s2.lake.unacked ++ [m'] } } else s1)) ∧
    (∀ ident x, s.lxn ident = some x → x.state = 2 → s.reached x.target (s.obj 0x900C 0) = true →
      exec (.lxnVoteDeadline ident) s = .next (s.abortLxn ident 1)) ∧
    (∀ ident v, (s.lake.votes.find? fun v => v.ident = ident) = some v →
      (v.coord ≠ s.lake.node → s.reached v.target (s.obj 0x900C 0 / 2) = true →
        exec (.lxnQueryDeadline ident) s = .next (s.lakeSend v.coord 0x24 (leBytes 4 ident))) ∧
      (s.reached v.target 4096 = true →
        exec (.lxnOutcomeDeadline ident) s = .next ((s.abortVote ident).raise (evPkg 30) ident))) ∧
    (∀ ident x, (s.lake.searches.find? fun x => x.ident = ident) = some x →
      (x.since + 2000000 ≤ s.time.now → exec (.lakeSearchResend ident) s =
        .next ((x.asked.filter fun n => (tget x.answers n).isNone).foldl
          (fun s n => (s.lakeEmit n 0x30 true (searchBody ident x.table x.width x.key)).bump 0x901A 4) s)) ∧
      (x.since + 4500000 ≤ s.time.now →
        ((x.asked.any fun n => (tget x.answers n).isNone && s.lake.members.contains n) = false →
          exec (.lakeSearchTimeout ident) s =
            .next (s.mergeSearch { x with asked := x.asked.filter fun n => (tget x.answers n).isSome })) ∧
        ((x.asked.any fun n => (tget x.answers n).isNone && s.lake.members.contains n) = true →
          exec (.lakeSearchTimeout ident) s = .next ((({ s with lake := { s.lake with
            searches := s.lake.searches.erase x } } : State).failVendor x.q x.op 0xC8 0).raise (evPkg 31) ident)))) ∧
    (∀ lakeTake spring frame t, (s.lakeTakes.find? fun t => t.lakeTake = lakeTake) = some t → s.anchorOf t = s.lake.node →
      (∃ p ∈ s.partsOf lakeTake spring frame, p.since + 1000000 * s.obj 0x900B 0 ≤ s.time.now) →
      exec (.frameCommitTimeout lakeTake spring frame) s =
        .next (s.sendCommit t spring frame (t.bandsOf spring frame)).settleRings) ∧
    (∀ die lane, IsLane s die lane → s.laneMode die lane = 3 →
      (s.usable die 7 = true →
        exec (.ethernetLinkUp die lane) s = .next (s.setLane die lane { s.lane die lane with signal := true })) ∧
      exec (.ethernetLinkDown die lane) s = .next (s.setLane die lane { s.lane die lane with signal := false }))

/-! ### Where each command completes: faults, power, boot and test -/

/-- Rows of the stewards, the scrubbing and the events (chapter 17). -/
def Obligations.RecoveryRowsComplete : Prop :=
  ∀ (s : State),
    (∀ r : HeartbeatRound, let missed := s.dies.filter fun d => d ≠ s.fault.lead && !s.fault.failed.contains d && !r.answered.contains d;
      exec (.dieHeartbeat r) s =
        .next ((r.links.filter fun l => s.hasDie l.die).foldl State.linkReport (missed.foldl (fun s d => s.bump (0xA1B0 + d) 0) s))) ∧
    (∀ die, s.hasDie die = true →
      (die ∉ s.fault.failed → exec (.dieSilenceTimeout die) s = .next (s.loseDie die)) ∧
      (die ∉ s.fault.failed → die ∉ s.fault.halted → exec (.lockstepMismatch die) s = .next (s.stewardHalts die)) ∧
      (die ∈ s.fault.halted →
        let s1 : State := { s with fault := { s.fault with halted := s.fault.halted.erase die } };
        exec (.stewardRestartComplete die) s = .next (((s1.bump (0xA160 + die) 2).setObj (0xA168 + die) 0 0).routeHeld die)) ∧
      (die ∈ s.fault.resetting → exec (.dieResetTimeout die) s = .next (s.loseDie die)) ∧
      (∀ engine, 1 ≤ engine → engine ≤ 4 → s.engineHolds die engine = true → die ∉ s.fault.resetting →
        exec (.engineStallTimeout die engine) s = .next (s.resetEngine die engine)) ∧
      (∀ found, s.inScrub die = true → exec (.scrubWindowStart die found) s = .next (s.scrubbed die found))) ∧
    (∀ heardBy leadHealthy us, s.fault.safeHold = false → s.cfg.dies = 2 ∨ heardBy = [] →
      exec (.leadSilenceTimeout heardBy leadHealthy us) s = .next (s.leadLost leadHealthy us)) ∧
    (∀ d, s.fault.standby = some d → s.fault.standbySynced = false →
      exec .standbySyncComplete s =
        .next (({ s with fault := { s.fault with standbySynced := true } } : State).raise (evPkg 34) d)) ∧
    (∀ event r, tget s.fault.can event = some r → r.last + s.obj 0xA009 0 * 1000000 ≤ s.time.now →
      exec (.emergencyRepeatExpiry event) s = .next (if r.repeats = 0 then
          { s with fault := { s.fault with can := tdel s.fault.can event } }
        else (s.setCan event ⟨s.time.now, 0, r.epoch, r.phase, r.detail⟩).emitCan 1
          (emergencyBody ⟨event, evClass event, 0, r.epoch, r.phase, r.detail, 0, 0xFFFF, 0⟩ r.repeats))) ∧
    (∀ a b, s.hasDie a = true → s.hasDie b = true → a ≠ b → s.cfg.dies ≠ 8 ∨ a / 4 = b / 4 ∨ a % 4 = b % 4 →
      (min a b, max a b) ∉ s.fault.linksDown →
      let s1 : State := { s with fault := { s.fault with linksDown := s.fault.linksDown ++ [(min a b, max a b)] } };
      exec (.dieLinkFailure a b) s =
        .next (((s1.bump (0xA158 + a) 2).bump (0xA158 + b) 2).raise (evDie (min a b) 3) (max a b)))

/-- Rows of power and heat (chapter 18). -/
def Obligations.PowerRowsComplete : Prop :=
  ∀ (s : State),
    (∀ die, s.hasDie die = true →
      (∀ round, s.boot.porst = false → exec (.housekeepingRound die round) s = .next (s.houseRound die round)) ∧
      (s.readoutDue die = true → exec (.housekeepingReadout die) s = .next (s.houseReadout die)) ∧
      (∀ readings sensor t, (((s.pd die).working readings).find? fun k => 1180 ≤ k.2) = some (sensor, t) → s.power.tripped = false →
        exec (.tripCheck die readings) s = .next (s.trip die sensor t)) ∧
      (∀ domain us since, tget (s.pd die).waking domain = some since → since + 1000 * us ≤ s.time.now → us ≤ wakeMostUs.getD domain 0 →
        exec (.domainWakeComplete die domain us) s = .next (s.domainWakes die domain us (s.pd die)))) ∧
    (∀ until', s.power.grace = some until' → until' ≤ s.time.now →
      exec .graceExpiry s = .next (let s1 : State := { s with power := { s.power with grace := none } };
        if s.anyOpenOrClosing then { s1 with power := { s1.power with waiting := true } }
        else { s1 with power := { s1.power with due := true } }))

/-- Rows of power-on, of the boot steps and of the test port (chapters 19 and 20). -/
def Obligations.BootRowsComplete : Prop :=
  ∀ (s : State),
    (let s1 := ({ s with pins := { s.pins with holdupOk := false } } : State).clearVolatile 0;
      exec .powerOn s = .next { s1 with boot := { s1.boot with porst := true, powered := true } }) ∧
    (let s0 : State := if s.pins.thermTrip then s.emit (.pin 1 true) else s;
      let s1 : State := { s0 with power := { s0.power with tripped := false }, pins := { s0.pins with thermTrip := false } };
      let s2 := s1.clearVolatile 0;
      exec .aonPowerFail s = .next { s2 with boot := { s2.boot with porst := true, powered := false } }) ∧
    (∀ lowNs, 10000 ≤ lowNs → exec (.porstNAssert lowNs) s =
      .next { s.clearVolatile 1 with boot := { (s.clearVolatile 1).boot with porst := true } }) ∧
    (∀ gpio, s.boot.porst = true → s.boot.powered = true →
      exec (.porstNRelease gpio) s = .next ({ s with pins := { s.pins with gpio := gpio } } : State).startRom) ∧
    (∀ image, s.boot.porst = false → s.boot.halted = false → s.boot.step = 1 → (image.copyA || image.copyB) = true →
      exec (.firstStageLoaded image) s = .next (s.loadFirstStage image)) ∧
    (∀ ms, s.boot.step = 4 → s.boot.halted = false → exec (.dictionaryReady ms) s = .next (s.dictionaryUp ms)) ∧
    (∀ im, s.boot.image = some im → s.boot.step = 5 → s.boot.restricted = false →
      exec (.firmwareVerified true) s = .next (s.firmwareRuns im)) ∧
    (∀ die, s.hasDie die = true →
      (die ∈ s.boot.sectionsOut → die ∉ s.boot.dramUp → s.healthy die = true →
        (∀ ms gib rate, exec (.dramTrainingComplete die true ms gib rate) s = .next (s.dramTrained die ms gib rate)) ∧
        (die ∉ s.boot.flashUp → s.boot.sectionsAt + 100000000 ≤ s.time.now →
          exec (.dieSectionTimeout die) s = .next ((s.raise (evDie die 139) 0).bootFails die))) ∧
      (∀ p, die ∈ s.boot.sectionsOut → die ∉ s.boot.flashUp → s.healthy die = true →
        exec (.flashDiscoveryComplete die p) s = .next (s.flashFound die p)) ∧
      (∀ marker records ms off, die ∉ s.fault.resetting → die ∈ s.boot.dramUp → die ∈ s.boot.flashUp → die ∉ s.boot.restored →
        s.healthy die = true → exec (.mapRestoreComplete die marker records ms off) s = .next (s.mapsRestored die marker records ms off)) ∧
      (∀ marker readable ms off, die ∈ s.fault.resetting →
        exec (.mapRestoreComplete die marker readable ms off) s = .next (s.dieResetDone die readable)) ∧
      (exec (.idcode die) s = .next (s.scan die 1 idcodeValue)) ∧
      (∀ opcode, opcode ∉ [0, 1, 2, 0x10] → exec (.bypass die opcode) s = .next (s.scan die 0xFF 0)) ∧
      (exec (.samplePreload die) s = .next ((s.scan die 2 s.freeValue).useFree)) ∧
      (s.boot.porst = true → exec (.extest die) s = .next ((s.scan die 0 s.freeValue).useFree)) ∧
      (s.boot.porst = false → exec (.extest die) s = .next (s.scan die 0xFF 0)) ∧
      (exec (.bootstat die) s = .next (s.scan die 0x10 s.bootStatus))) ∧
    (∀ ms, s.obj 0x1800 0 = 4 → exec (.deviceReady ms) s = .next (s.becomeReady ms))

/-- With no command waiting the block idles (the model's choice: log entry 2). -/
def Obligations.EmptyQueueIdles : Prop := ∀ s : State, s.pending = [] → step s = .next s

/-! ### Words and encodings -/

/-- Words written out from the encoding tables decode to their instructions: ADD G3, G1, G2; LW G5, 8(G4); BEQ G1, G2, +4; PUT G7;
and in Selkel-1 ADD with F and condition EQ. -/
def Obligations.WrittenWordsDecode : Prop :=
  decodeWord false 0x00611001 = some ⟨.add, 3, 1, 2, false, 0, 0, 0, 0, 0, false, false⟩ ∧
  decodeWord false 0x50A40008 = some ⟨.lw, 5, 4, 0, false, 0, 0, 8, 0, 0, false, false⟩ ∧
  decodeWord false 0x80220004 = some ⟨.beq, 0, 1, 2, false, 0, 0, 4, 0, 0, false, false⟩ ∧
  decodeWord false 0xF4070003 = some ⟨.pput, 0, 7, 0, false, 0, 0, 0, 3, 0, false, false⟩ ∧
  decodeWord true 0x10262401 = some ⟨.add, 3, 1, 2, false, 0, 0, 0, 0, 1, true, false⟩

/-- Every word that a mode defines, with no reserved field set, is the word of its instruction, and its instruction is the one that the
word of it decodes to. -/
def Obligations.WordsRoundTrip : Prop :=
  ∀ (selkel1 : Bool) (w : Nat) (x : Dec), w < 2 ^ 32 → decodeWord selkel1 w = some x → x.bad = false →
    encodeWord selkel1 x = w ∧ decodeWord selkel1 (encodeWord selkel1 x) = some x

/-! ### What every command keeps -/

/-- A step keeps memory in its canonical form, keeps the part, and takes exactly one command off the queue. -/
def Obligations.StepKeepsWellKept : Prop :=
  ∀ s t : State, s.memOk → step s = .next t → t.memOk ∧ t.cfg = s.cfg ∧ t.pending = s.pending.tail

/-- After reset of any part memory has its canonical form and nothing waits. -/
def Obligations.ResetWellKept : Prop :=
  (∀ cfg, (State.resetOf cfg).memOk ∧ (State.resetOf cfg).cfg = cfg ∧ (State.resetOf cfg).pending = []) ∧
    State.reset.memOk ∧ State.reset.pending = []

/-- The rows that store nothing leave every byte of memory, the part and the queue as they are. -/
def Obligations.RowsStoreNothing : Prop :=
  ∀ (c : Instr) (s t : State), storesNothing c = true → exec c s = .next t →
    (∀ a, memByte t.mem a = memByte s.mem a) ∧ t.cfg = s.cfg ∧ t.pending = s.pending

/-- Memory reads back what was written, a write and a clear leave every other byte alone, and what is cleared reads 0. -/
def Obligations.MemoryReadsBack : Prop :=
  ∀ m : List Host.Cell, Memory.wf m = true →
    (∀ a (b : List Nat) k, memByte (memWrite m a b) k =
      if a ≤ k ∧ k < a + b.length then BitVec.ofNat 8 (b.getD (k - a) 0) else memByte m k) ∧
    (∀ a (b : List Nat), memRead (memWrite m a b) a b.length = b.map (· % 256)) ∧
    (∀ a n k, memByte (memClear m a n) k = if a ≤ k ∧ k < a + n then 0 else memByte m k)

/-! ### Instructions: registers, conditions and traps -/

/-- The rows of `resultOps` change the register that D names, FXCTL and PSTAT, and of the rest of the machine only the task's pc, its
counts and its interlock times. -/
def Obligations.ResultRowsFrame : Prop :=
  ∀ (i : Instr) (op : Op) (die core : Nat) (s : State) (c : Ctx), rowOp i = some (op, die, core) → op ∈ resultOps →
    Runs op die core s c → ∃ t, exec i s = .next (c.s.setTask die c.slot t) ∧
      t = { c.t with regs := t.regs, pend := t.pend, avail := t.avail, pc := c.t.pc + 4, count := c.t.count + 1, cycles := t.cycles } ∧
      (∀ r, r ≠ c.x.d → r ≠ rFx → r ≠ rPs → t.reg r = c.t.reg r) ∧
      ∀ p : PendWrite, p.reg ≠ c.x.d → p.reg ≠ rFx → p.reg ≠ rPs → (p ∈ t.pend ↔ p ∈ c.t.pend)

/-- The instruction after an ADD, SUB, AND, OR or XOR of whole words with SAT 0 reads its result in D; where D names G0 nothing is
written. -/
def Obligations.NextInstructionReadsResult : Prop :=
  ∀ (i : Instr) (op : Op) (die core : Nat) (s : State) (c : Ctx) (n : Nat), rowOp i = some (op, die, core) → Runs op die core s c →
    c.x.ew = 0 → c.x.sat = false → c.x.d < 32 → c.sv < 2 ^ 32 → c.tv < 2 ^ 32 →
    (op, n) ∈ [(Op.add, (c.sv + c.tv) % 2 ^ 32), (Op.sub, (c.sv + 2 ^ 32 - c.tv) % 2 ^ 32), (Op.and, Nat.land c.sv c.tv),
      (Op.or, Nat.lor c.sv c.tv), (Op.xor, Nat.xor c.sv c.tv)] →
    ∃ t, exec i s = .next (c.s.setTask die c.slot t) ∧ (c.x.d ≠ 0 → t.settle.reg c.x.d % 2 ^ 32 = n) ∧
      (c.x.d = 0 → t.reg 0 = c.t.reg 0)

/-- G0 never takes a value: a task in which it reads 0 reads 0 in it after any register write and after any pending writes. -/
def Obligations.GZeroStaysZero : Prop :=
  ∀ t : Task, t.reg 0 = 0 →
    (∀ mask val, (t.setReg 0 mask val) = t) ∧ (∀ r mask val, (t.setReg r mask val).reg 0 = 0) ∧
    (∀ issue w, (t.write issue w).reg 0 = 0) ∧ t.settle.reg 0 = 0 ∧ t.settleAll.reg 0 = 0

/-- An instruction whose condition fails only moves its task on; causes 1, 2 and 7 are found before the condition (R371), an ERET outside a
trap before all else (R352). -/
def Obligations.FailedConditionChangesNothing : Prop :=
  ∀ (s : State) (die core : Nat),
    (∀ (i : Instr) (c : Ctx), rowOp i = some (c.x.op, die, core) → Sees die core s c →
      (c.x.op = .eret → c.t.inTrap = false → exec i s = .next (c.s.takeTrap c.die c.slot c.t.pc 1 c.w)) ∧
      ((c.x.op = .eret → c.t.inTrap = true) →
       (c.x.bad = true → exec i s = .next (c.s.takeTrap die c.slot c.t.pc 2 c.w)) ∧
       (c.x.bad = false → c.x.op = .cop3 → exec i s = .next (c.s.takeTrap die c.slot c.t.pc 7 c.w)) ∧
       (c.x.bad = false → c.x.op ≠ .cop3 → condHolds c.x.cond (c.t.reg rPs) = false →
        ∃ n, exec i s =
          .next (c.s.setTask die c.slot { c.t with pc := c.t.pc + 4, count := c.t.count + 1, cycles := c.t.cycles + n })))) ∧
    (∀ slot t0 w, s.hasDie die = true → s.running die core = some (slot, t0) → s.fetchWord t0.settle = some w →
      decodeWord t0.settle.selkel1 w = none →
      exec (.undefinedInstruction die core) s =
        .next ((s.setTask die slot t0.settle).takeTrap die slot t0.settle.pc 1 w))

/-- Every word of Selkel-2 major 0x3F is a COP3 instruction that traps with cause 7 whatever its fields, and ISAVER.COP3 reads 0 in
every task. -/
def Obligations.CoprocessorThreeTraps : Prop :=
  (∀ (s : State) (die core slot w : Nat) (t0 : Task), s.hasDie die = true → s.running die core = some (slot, t0) →
    s.fetchWord t0.settle = some w → w < 2 ^ 32 → bits w 31 26 = 0x3F → t0.settle.selkel1 = false →
    exec (.cop3Instruction die core) s = .next ((s.setTask die slot t0.settle).takeTrap die slot t0.settle.pc 7 w)) ∧
  (∀ (s : State) (die core slot w : Nat) (t0 : Task), s.hasDie die = true → s.running die core = some (slot, t0) →
    s.fetchWord t0.settle = some w → w < 2 ^ 32 → bits w 27 22 = 0x3F → t0.settle.selkel1 = true →
    exec (.cop3Instruction die core) s = .next ((s.setTask die slot t0.settle).takeTrap die slot t0.settle.pc 7 w)) ∧
  ∀ (s : State) (d slot core : Nat) (t : Task), bitOf (s.ctlRead d slot core t 0x000) 6 = false

/-- Division by 0 gives the quotient of R345 and sets FXCTL.DZ, or traps with cause 6 where DZTE is 1; the division of −2^31 by −1
follows R340, and its remainder is 0. -/
def Obligations.DivisionCorners : Prop :=
  ∀ (i : Instr) (op : Op) (die core : Nat) (s : State) (c : Ctx), rowOp i = some (op, die, core) → Runs op die core s c →
    c.sv < 2 ^ 32 → c.tv < 2 ^ 32 →
    (∀ n, (op, n) ∈ [(Op.div, if c.sv < 2 ^ 31 then 0x7FFFFFFF else 0x80000000), (Op.divu, 0xFFFFFFFF), (Op.rem, c.sv), (Op.remu, c.sv)] →
      c.tv = 0 →
      (bitOf (c.t.reg rFx) 8 = false → ∃ e, exec i s = .next (c.commit e) ∧ e.writes = [wr c.x.d n 12] ∧ e.sticky = 4 ∧
        e.after = c.s ∧ e.next = c.t.pc + 4) ∧
      (bitOf (c.t.reg rFx) 8 = true → exec i s = .next (c.after (.trap 6 c.sv)))) ∧
    (c.sv = 0x80000000 → c.tv = 0xFFFFFFFF →
      (op = .div → ∃ e, exec i s = .next (c.commit e) ∧
        e.writes = [wr c.x.d (if c.x.sat then 0x7FFFFFFF else 0x80000000) 12] ∧ e.sticky = if c.x.sat then 2 else 1) ∧
      (op = .rem → ∃ e, exec i s = .next (c.commit e) ∧ e.writes = [wr c.x.d 0 12] ∧ e.sticky = 0))

/-- A trap of a task that is in no trap and has a handler: earlier writes are visible, EPC, TRAPCAUSE and TRAPVAL are written, the task is
in the trap and goes on at TRAPBASE 3 cycles later, its mode and its other registers as they were, but for DZ with cause 6. -/
def Obligations.TrapGoesToHandler : Prop :=
  ∀ (s : State) (d slot pc cause val : Nat) (t0 : Task), s.task d slot = some t0 → t0.inTrap = false →
    t0.settleAll.reg (rC 0x10) ≠ 0 →
    ∃ t, (s.takeTrap d slot pc cause val).task d slot = some t ∧ t.pc = t0.settleAll.reg (rC 0x10) ∧ t.inTrap = true ∧
      t.reg (rC 0x11) % 2 ^ 32 = pc % 2 ^ 32 ∧ t.reg (rC 0x12) % 2 ^ 32 = cause % 2 ^ 32 ∧ t.reg (rC 0x13) % 2 ^ 32 = val % 2 ^ 32 ∧
      t.cycles = t0.settleAll.cycles + 3 ∧ t.selkel1 = t0.selkel1 ∧ t.nMode = t0.nMode ∧
      (cause = 6 → bitOf (t.reg rFx) 2 = true) ∧
      ∀ r, r ≠ rC 0x11 → r ≠ rC 0x12 → r ≠ rC 0x13 → (cause = 6 → r ≠ rFx) → t.reg r = t0.settleAll.reg r

/-- A store changes exactly the bytes at its place, to the low bytes of the register that D names, and no other byte of memory. -/
def Obligations.StoresWriteTheirBytes : Prop :=
  ∀ (i : Instr) (op : Op) (n die core m : Nat) (s : State) (c : Ctx), rowOp i = some (op, die, core) →
    (op, n) ∈ [(Op.sb, 1), (Op.sh, 2), (Op.sw, 4)] → Runs op die core s c → s.memOk → c.ea % n = 0 →
    (c.s.place die c.slot c.t c.ea n = some (.seg m) ∨ c.s.place die c.slot c.t c.ea n = some (.pond m)) →
    ∃ t, exec i s = .next t ∧
      ∀ a, memByte t.mem a = if m ≤ a ∧ a < m + n then BitVec.ofNat 8 (c.dv / 256 ^ (a - m)) else memByte s.mem a

/-- A load changes no byte of memory. -/
def Obligations.LoadsLeaveMemory : Prop :=
  ∀ (i : Instr) (op : Op) (n die core : Nat) (p : Place) (s : State) (c : Ctx), rowOp i = some (op, die, core) →
    (op, n) ∈ [(Op.lb, 1), (Op.lbu, 1), (Op.lh, 2), (Op.lhu, 2), (Op.lw, 4)] → Runs op die core s c → c.finds c.ea n p →
    ∃ t, exec i s = .next t ∧ t.mem = s.mem

/-! ### The dictionary: refusals, repeats, staging -/

/-- A request that a check before the value refuses is answered with that check's status, and nothing changes but the count, the
service and the session of the request. -/
def Obligations.RefusedRequestChangesNothing : Prop :=
  ∀ (s : State) (r : DictReq) (st : Nat), Admits r s → st ≠ 0 →
    ((s.atWork r).judge (s.clsOf r) r.idx r.sub true ((s.atWork r).openTxn (reqKey r)) = st →
      exec (.write r) s = .next (s.told r (some ⟨2, r.idx, r.sub, st, 0, s.epoch, []⟩) (s.atWork r)) ∧
      exec (.domainWrite r) s = .next (s.told r (some ⟨4, r.idx, r.sub, st, 0, s.epoch, []⟩) (s.atWork r)) ∧
      ∀ counter, exec (.segment r counter) s = .next (s.told r (some ⟨5, r.idx, r.sub, st, 0, s.epoch, []⟩) (s.atWork r))) ∧
    ((s.atWork r).judge (s.clsOf r) r.idx r.sub false ((s.atWork r).openTxn (reqKey r)) = st →
      exec (.read r) s = .next (s.told r (some ⟨1, r.idx, r.sub, st, 0, s.epoch, []⟩) (s.atWork r)) ∧
      exec (.domainRead r) s = .next (s.told r (some ⟨3, r.idx, r.sub, st, 0, s.epoch, []⟩) (s.atWork r)) ∧
      ∀ counter, exec (.segmentAck r counter) s = .next (s.told r (some ⟨7, r.idx, r.sub, st, 0, s.epoch, []⟩) (s.atWork r)))

/-- The checks 2 to 7 of R601 in their order: each answers its own status, and the request passes where none fails. -/
def Obligations.ChecksAnswerTheirStatus : Prop :=
  ∀ (s : State) (cls idx sub : Nat) (write inTxn : Bool), Served s idx write →
    (objExists s.cfg.dies idx = false → s.judge cls idx sub write inTxn = 0x0101) ∧
    (objExists s.cfg.dies idx = true →
      (objAccess s.cfg.dies idx sub = none → s.judge cls idx sub write inTxn = 0x0102) ∧
      ∀ ty acc, objAccess s.cfg.dies idx sub = some (ty, acc) →
        (write = false → mayRead cls idx = false → s.judge cls idx sub write inTxn = 0x0201) ∧
        (write = true → mayWrite cls idx = false → s.judge cls idx sub write inTxn = 0x0202) ∧
        (write = false → mayRead cls idx = true → acc = .wo ∨ idx = 0x600A → s.judge cls idx sub write inTxn = 0x0204) ∧
        (write = false → mayRead cls idx = true → acc ≠ .wo → idx ≠ 0x600A → s.judge cls idx sub write inTxn = 0) ∧
        (write = true → mayWrite cls idx = true →
          (acc = .ro → s.judge cls idx sub write inTxn = 0x0203) ∧
          (acc = .rwt → inTxn = false → s.judge cls idx sub write inTxn = 0x0206) ∧
          (acc = .rwl → s.spent idx sub = true → s.judge cls idx sub write inTxn = 0x0205) ∧
          (acc ≠ .ro → (acc = .rwt → inTxn = true) → s.spent idx sub = false →
            s.judge cls idx sub write inTxn = if s.fault.safeHold then 0x0601 else 0)))

/-- In safe hold a write that would otherwise pass the checks 2 to 7 is answered 0x0601, and every write is refused; a read is judged as
outside safe hold. -/
def Obligations.SafeHoldRefusesWrites : Prop :=
  ∀ (s : State) (cls idx sub : Nat) (inTxn : Bool), s.fault.safeHold = true →
    s.judge cls idx sub true inTxn ≠ 0 ∧
    (({ s with fault := { s.fault with safeHold := false } } : State).judge cls idx sub true inTxn = 0 →
      s.judge cls idx sub true inTxn = 0x0601) ∧
    s.judge cls idx sub false inTxn = ({ s with fault := { s.fault with safeHold := false } } : State).judge cls idx sub false inTxn

/-- A duplicate is answered with the earlier response and executed no second time. -/
def Obligations.DuplicateIsNotExecuted : Prop :=
  ∀ (s : State) (r : DictReq) (counter : Nat) (i : Instr),
    i ∈ [Instr.read r, Instr.write r, Instr.domainRead r, Instr.domainWrite r, Instr.segment r counter, Instr.domainAbort r,
      Instr.segmentAck r counter] →
    r.path = 0 ∨ r.path = 3 → s.pathServed r = true → s.clientOk r = true → (s.session (reqKey r)).dupSeq = some r.seq →
    s.time.now ≤ (s.session (reqKey r)).dupAt + 100000000 →
    exec i s = .next (((s.heard r).visit (reqKey r) (s.clsOf r)).sendAnswer r (s.session (reqKey r)).kept)

/-- A write inside an open transaction is staged: it is answered STAGED, and every active value stays as it was. -/
def Obligations.StagedWriteLeavesActiveValues : Prop :=
  ∀ (s : State) (r : DictReq) (ty : ObjTy) (acc : Acc) (v : List Nat), let w := s.atWork r;
    Admits r s → MayWrite w (s.clsOf r) r.idx r.sub ty acc true → w.openTxn (reqKey r) = true → acc ≠ .wo → isDomain ty = false →
    sessionObject r.idx r.sub = false → r.idx ≠ 0x900E → w.fullTxn (reqKey r) r.idx r.sub = false →
    (w.staged (reqKey r)).length ≤ 256 → w.holdWrite (w.judgedAgainst (reqKey r)) r.idx r.sub r.data = (0, v, false) →
    ∃ t, exec (.write r) s = .next (s.told r (some ⟨2, r.idx, r.sub, 0, 2, 0, []⟩) t) ∧ t.dict.store = w.dict.store ∧
      t.dict.doms = w.dict.doms ∧ (⟨r.idx, r.sub, v, false, r.data⟩ : Staged) ∈ t.staged (reqKey r)

/-! ### The pond and the search rows -/

/-- After the last PUT of a buffer its handle is stale: every holder that names it is answered STALE. -/
def Obligations.ReleasedHandleIsStale : Prop :=
  ∀ (q : Pool) (h holder other : Nat), q.judge h holder = none → (q.buf (handleIndex h)).holders = [holder] →
    handleIndex h < q.count → ((q.release (handleIndex h) holder).buf (handleIndex h)).holders = [] ∧
      (q.release (handleIndex h) holder).judge h other = some 5

/-- A row that is not suspect matches a key when no bit under its MASK differs, and a row as it is written holds VALUE bits only under its
MASK; a suspect row matches nothing. -/
def Obligations.RowMatchesUnderMask : Prop :=
  (∀ (e : SRow) (key : Nat), e.matches key = true ↔ e.suspect = false ∧ Nat.land (Nat.xor key e.arrValue) e.arrMask = 0) ∧
  ∀ value mask data key, (SRow.make value mask data).value = Nat.land value mask ∧ (SRow.make value mask data).mask = mask ∧
    ((SRow.make value mask data).matches key = true ↔ ∀ k, mask.testBit k = true → key.testBit k = value.testBit k)

end Slice0
end

