-- ==== Sys2Proof/Laws/State.lean ====
section
/-!
SUPPORT. One lemma for each field of the state that an update leaves alone, and the laws of tables: what is set is read, and nothing else
changes.
-/

set_option Elab.async false

namespace Sys2Proof.Machine

/-! ### Tables -/

@[simp] theorem tget_tset_self {α : Type} (t : Tab α) (k : Nat) (v : α) : tget (tset t k v) k = some v := by
  induction t with
  | nil => simp [tset, tget]
  | cons e t ih =>
    simp only [tset]
    split
    · simp [tget]
    · split
      · simp [tget]
      · rename_i h
        simp [tget, Ne.symm h, ih]

theorem tget_tset_other {α : Type} (t : Tab α) (k j : Nat) (v : α) (h : j ≠ k) : tget (tset t k v) j = tget t j := by
  induction t with
  | nil => simp [tset, tget, Ne.symm h]
  | cons e t ih =>
    simp only [tset]
    split
    · simp [tget, Ne.symm h]
    · split
      · rename_i h1
        subst h1
        simp [tget, Ne.symm h]
      · simp [tget, ih]

@[simp] theorem tget_tdel_self {α : Type} (t : Tab α) (k : Nat) : tget (tdel t k) k = none := by
  induction t with
  | nil => rfl
  | cons e t ih =>
    by_cases h : e.1 = k
    · simpa [tdel, h] using ih
    · have : tdel (e :: t) k = e :: tdel t k := by simp [tdel, h]
      rw [this]
      simp [tget, h, ih]

theorem tget_tdel_other {α : Type} (t : Tab α) (k j : Nat) (h : j ≠ k) : tget (tdel t k) j = tget t j := by
  induction t with
  | nil => rfl
  | cons e t ih =>
    by_cases he : e.1 = k
    · have h1 : tdel (e :: t) k = tdel t k := by simp [tdel, he]
      rw [h1, ih]
      simp [tget, he, Ne.symm h]
    · have h1 : tdel (e :: t) k = e :: tdel t k := by simp [tdel, he]
      rw [h1]
      simp [tget, ih]

/-! ### Updates of the state -/

@[simp] theorem State.setObj_cfg (s : State) (idx sub v : Nat) : (s.setObj idx sub v).cfg = s.cfg := rfl
@[simp] theorem State.setObj_time (s : State) (idx sub v : Nat) : (s.setObj idx sub v).time = s.time := rfl
@[simp] theorem State.setObj_fault (s : State) (idx sub v : Nat) : (s.setObj idx sub v).fault = s.fault := rfl
@[simp] theorem State.setObj_boot (s : State) (idx sub v : Nat) : (s.setObj idx sub v).boot = s.boot := rfl
@[simp] theorem State.setObj_pins (s : State) (idx sub v : Nat) : (s.setObj idx sub v).pins = s.pins := rfl
@[simp] theorem State.setObj_pond (s : State) (idx sub v : Nat) : (s.setObj idx sub v).pond = s.pond := rfl
@[simp] theorem State.setObj_inflow (s : State) (idx sub v : Nat) : (s.setObj idx sub v).inflow = s.inflow := rfl
@[simp] theorem State.setObj_take (s : State) (idx sub v : Nat) : (s.setObj idx sub v).take = s.take := rfl
@[simp] theorem State.setObj_media (s : State) (idx sub v : Nat) : (s.setObj idx sub v).media = s.media := rfl
@[simp] theorem State.setObj_host (s : State) (idx sub v : Nat) : (s.setObj idx sub v).host = s.host := rfl
@[simp] theorem State.setObj_comp (s : State) (idx sub v : Nat) : (s.setObj idx sub v).comp = s.comp := rfl
@[simp] theorem State.setObj_search (s : State) (idx sub v : Nat) : (s.setObj idx sub v).search = s.search := rfl
@[simp] theorem State.setObj_secure (s : State) (idx sub v : Nat) : (s.setObj idx sub v).secure = s.secure := rfl
@[simp] theorem State.setObj_lake (s : State) (idx sub v : Nat) : (s.setObj idx sub v).lake = s.lake := rfl
@[simp] theorem State.setObj_power (s : State) (idx sub v : Nat) : (s.setObj idx sub v).power = s.power := rfl
@[simp] theorem State.setObj_mem (s : State) (idx sub v : Nat) : (s.setObj idx sub v).mem = s.mem := rfl
@[simp] theorem State.setObj_poison (s : State) (idx sub v : Nat) : (s.setObj idx sub v).poison = s.poison := rfl
@[simp] theorem State.setObj_out (s : State) (idx sub v : Nat) : (s.setObj idx sub v).out = s.out := rfl
@[simp] theorem State.setObj_freeCtr (s : State) (idx sub v : Nat) : (s.setObj idx sub v).freeCtr = s.freeCtr := rfl
@[simp] theorem State.setObj_pending (s : State) (idx sub v : Nat) : (s.setObj idx sub v).pending = s.pending := rfl

@[simp] theorem State.setDom_cfg (s : State) (idx sub : Nat) (v : List Nat) : (s.setDom idx sub v).cfg = s.cfg := rfl
@[simp] theorem State.setDom_time (s : State) (idx sub : Nat) (v : List Nat) : (s.setDom idx sub v).time = s.time := rfl
@[simp] theorem State.setDom_fault (s : State) (idx sub : Nat) (v : List Nat) : (s.setDom idx sub v).fault = s.fault := rfl
@[simp] theorem State.setDom_boot (s : State) (idx sub : Nat) (v : List Nat) : (s.setDom idx sub v).boot = s.boot := rfl
@[simp] theorem State.setDom_pins (s : State) (idx sub : Nat) (v : List Nat) : (s.setDom idx sub v).pins = s.pins := rfl
@[simp] theorem State.setDom_pond (s : State) (idx sub : Nat) (v : List Nat) : (s.setDom idx sub v).pond = s.pond := rfl
@[simp] theorem State.setDom_inflow (s : State) (idx sub : Nat) (v : List Nat) : (s.setDom idx sub v).inflow = s.inflow := rfl
@[simp] theorem State.setDom_take (s : State) (idx sub : Nat) (v : List Nat) : (s.setDom idx sub v).take = s.take := rfl
@[simp] theorem State.setDom_media (s : State) (idx sub : Nat) (v : List Nat) : (s.setDom idx sub v).media = s.media := rfl
@[simp] theorem State.setDom_host (s : State) (idx sub : Nat) (v : List Nat) : (s.setDom idx sub v).host = s.host := rfl
@[simp] theorem State.setDom_comp (s : State) (idx sub : Nat) (v : List Nat) : (s.setDom idx sub v).comp = s.comp := rfl
@[simp] theorem State.setDom_search (s : State) (idx sub : Nat) (v : List Nat) : (s.setDom idx sub v).search = s.search := rfl
@[simp] theorem State.setDom_secure (s : State) (idx sub : Nat) (v : List Nat) : (s.setDom idx sub v).secure = s.secure := rfl
@[simp] theorem State.setDom_lake (s : State) (idx sub : Nat) (v : List Nat) : (s.setDom idx sub v).lake = s.lake := rfl
@[simp] theorem State.setDom_power (s : State) (idx sub : Nat) (v : List Nat) : (s.setDom idx sub v).power = s.power := rfl
@[simp] theorem State.setDom_mem (s : State) (idx sub : Nat) (v : List Nat) : (s.setDom idx sub v).mem = s.mem := rfl
@[simp] theorem State.setDom_poison (s : State) (idx sub : Nat) (v : List Nat) : (s.setDom idx sub v).poison = s.poison := rfl
@[simp] theorem State.setDom_out (s : State) (idx sub : Nat) (v : List Nat) : (s.setDom idx sub v).out = s.out := rfl
@[simp] theorem State.setDom_freeCtr (s : State) (idx sub : Nat) (v : List Nat) : (s.setDom idx sub v).freeCtr = s.freeCtr := rfl
@[simp] theorem State.setDom_pending (s : State) (idx sub : Nat) (v : List Nat) : (s.setDom idx sub v).pending = s.pending := rfl

@[simp] theorem State.emit_cfg (s : State) (o : Output) : (s.emit o).cfg = s.cfg := rfl
@[simp] theorem State.emit_time (s : State) (o : Output) : (s.emit o).time = s.time := rfl
@[simp] theorem State.emit_dict (s : State) (o : Output) : (s.emit o).dict = s.dict := rfl
@[simp] theorem State.emit_fault (s : State) (o : Output) : (s.emit o).fault = s.fault := rfl
@[simp] theorem State.emit_boot (s : State) (o : Output) : (s.emit o).boot = s.boot := rfl
@[simp] theorem State.emit_pins (s : State) (o : Output) : (s.emit o).pins = s.pins := rfl
@[simp] theorem State.emit_pond (s : State) (o : Output) : (s.emit o).pond = s.pond := rfl
@[simp] theorem State.emit_inflow (s : State) (o : Output) : (s.emit o).inflow = s.inflow := rfl
@[simp] theorem State.emit_take (s : State) (o : Output) : (s.emit o).take = s.take := rfl
@[simp] theorem State.emit_media (s : State) (o : Output) : (s.emit o).media = s.media := rfl
@[simp] theorem State.emit_host (s : State) (o : Output) : (s.emit o).host = s.host := rfl
@[simp] theorem State.emit_comp (s : State) (o : Output) : (s.emit o).comp = s.comp := rfl
@[simp] theorem State.emit_search (s : State) (o : Output) : (s.emit o).search = s.search := rfl
@[simp] theorem State.emit_secure (s : State) (o : Output) : (s.emit o).secure = s.secure := rfl
@[simp] theorem State.emit_lake (s : State) (o : Output) : (s.emit o).lake = s.lake := rfl
@[simp] theorem State.emit_power (s : State) (o : Output) : (s.emit o).power = s.power := rfl
@[simp] theorem State.emit_mem (s : State) (o : Output) : (s.emit o).mem = s.mem := rfl
@[simp] theorem State.emit_poison (s : State) (o : Output) : (s.emit o).poison = s.poison := rfl
@[simp] theorem State.emit_freeCtr (s : State) (o : Output) : (s.emit o).freeCtr = s.freeCtr := rfl
@[simp] theorem State.emit_pending (s : State) (o : Output) : (s.emit o).pending = s.pending := rfl

@[simp] theorem State.useFree_cfg (s : State) : (s.useFree).cfg = s.cfg := rfl
@[simp] theorem State.useFree_time (s : State) : (s.useFree).time = s.time := rfl
@[simp] theorem State.useFree_dict (s : State) : (s.useFree).dict = s.dict := rfl
@[simp] theorem State.useFree_fault (s : State) : (s.useFree).fault = s.fault := rfl
@[simp] theorem State.useFree_boot (s : State) : (s.useFree).boot = s.boot := rfl
@[simp] theorem State.useFree_pins (s : State) : (s.useFree).pins = s.pins := rfl
@[simp] theorem State.useFree_pond (s : State) : (s.useFree).pond = s.pond := rfl
@[simp] theorem State.useFree_inflow (s : State) : (s.useFree).inflow = s.inflow := rfl
@[simp] theorem State.useFree_take (s : State) : (s.useFree).take = s.take := rfl
@[simp] theorem State.useFree_media (s : State) : (s.useFree).media = s.media := rfl
@[simp] theorem State.useFree_host (s : State) : (s.useFree).host = s.host := rfl
@[simp] theorem State.useFree_comp (s : State) : (s.useFree).comp = s.comp := rfl
@[simp] theorem State.useFree_search (s : State) : (s.useFree).search = s.search := rfl
@[simp] theorem State.useFree_secure (s : State) : (s.useFree).secure = s.secure := rfl
@[simp] theorem State.useFree_lake (s : State) : (s.useFree).lake = s.lake := rfl
@[simp] theorem State.useFree_power (s : State) : (s.useFree).power = s.power := rfl
@[simp] theorem State.useFree_mem (s : State) : (s.useFree).mem = s.mem := rfl
@[simp] theorem State.useFree_poison (s : State) : (s.useFree).poison = s.poison := rfl
@[simp] theorem State.useFree_out (s : State) : (s.useFree).out = s.out := rfl
@[simp] theorem State.useFree_pending (s : State) : (s.useFree).pending = s.pending := rfl

@[simp] theorem State.setClock_cfg (s : State) (d : Nat) (c : DieClock) : (s.setClock d c).cfg = s.cfg := rfl
@[simp] theorem State.setClock_dict (s : State) (d : Nat) (c : DieClock) : (s.setClock d c).dict = s.dict := rfl
@[simp] theorem State.setClock_fault (s : State) (d : Nat) (c : DieClock) : (s.setClock d c).fault = s.fault := rfl
@[simp] theorem State.setClock_boot (s : State) (d : Nat) (c : DieClock) : (s.setClock d c).boot = s.boot := rfl
@[simp] theorem State.setClock_pins (s : State) (d : Nat) (c : DieClock) : (s.setClock d c).pins = s.pins := rfl
@[simp] theorem State.setClock_pond (s : State) (d : Nat) (c : DieClock) : (s.setClock d c).pond = s.pond := rfl
@[simp] theorem State.setClock_inflow (s : State) (d : Nat) (c : DieClock) : (s.setClock d c).inflow = s.inflow := rfl
@[simp] theorem State.setClock_take (s : State) (d : Nat) (c : DieClock) : (s.setClock d c).take = s.take := rfl
@[simp] theorem State.setClock_media (s : State) (d : Nat) (c : DieClock) : (s.setClock d c).media = s.media := rfl
@[simp] theorem State.setClock_host (s : State) (d : Nat) (c : DieClock) : (s.setClock d c).host = s.host := rfl
@[simp] theorem State.setClock_comp (s : State) (d : Nat) (c : DieClock) : (s.setClock d c).comp = s.comp := rfl
@[simp] theorem State.setClock_search (s : State) (d : Nat) (c : DieClock) : (s.setClock d c).search = s.search := rfl
@[simp] theorem State.setClock_secure (s : State) (d : Nat) (c : DieClock) : (s.setClock d c).secure = s.secure := rfl
@[simp] theorem State.setClock_lake (s : State) (d : Nat) (c : DieClock) : (s.setClock d c).lake = s.lake := rfl
@[simp] theorem State.setClock_power (s : State) (d : Nat) (c : DieClock) : (s.setClock d c).power = s.power := rfl
@[simp] theorem State.setClock_mem (s : State) (d : Nat) (c : DieClock) : (s.setClock d c).mem = s.mem := rfl
@[simp] theorem State.setClock_poison (s : State) (d : Nat) (c : DieClock) : (s.setClock d c).poison = s.poison := rfl
@[simp] theorem State.setClock_out (s : State) (d : Nat) (c : DieClock) : (s.setClock d c).out = s.out := rfl
@[simp] theorem State.setClock_freeCtr (s : State) (d : Nat) (c : DieClock) : (s.setClock d c).freeCtr = s.freeCtr := rfl
@[simp] theorem State.setClock_pending (s : State) (d : Nat) (c : DieClock) : (s.setClock d c).pending = s.pending := rfl

@[simp] theorem State.setSource_cfg (s : State) (k : Nat) (x : Source) : (s.setSource k x).cfg = s.cfg := rfl
@[simp] theorem State.setSource_dict (s : State) (k : Nat) (x : Source) : (s.setSource k x).dict = s.dict := rfl
@[simp] theorem State.setSource_fault (s : State) (k : Nat) (x : Source) : (s.setSource k x).fault = s.fault := rfl
@[simp] theorem State.setSource_boot (s : State) (k : Nat) (x : Source) : (s.setSource k x).boot = s.boot := rfl
@[simp] theorem State.setSource_pins (s : State) (k : Nat) (x : Source) : (s.setSource k x).pins = s.pins := rfl
@[simp] theorem State.setSource_pond (s : State) (k : Nat) (x : Source) : (s.setSource k x).pond = s.pond := rfl
@[simp] theorem State.setSource_inflow (s : State) (k : Nat) (x : Source) : (s.setSource k x).inflow = s.inflow := rfl
@[simp] theorem State.setSource_take (s : State) (k : Nat) (x : Source) : (s.setSource k x).take = s.take := rfl
@[simp] theorem State.setSource_media (s : State) (k : Nat) (x : Source) : (s.setSource k x).media = s.media := rfl
@[simp] theorem State.setSource_host (s : State) (k : Nat) (x : Source) : (s.setSource k x).host = s.host := rfl
@[simp] theorem State.setSource_comp (s : State) (k : Nat) (x : Source) : (s.setSource k x).comp = s.comp := rfl
@[simp] theorem State.setSource_search (s : State) (k : Nat) (x : Source) : (s.setSource k x).search = s.search := rfl
@[simp] theorem State.setSource_secure (s : State) (k : Nat) (x : Source) : (s.setSource k x).secure = s.secure := rfl
@[simp] theorem State.setSource_lake (s : State) (k : Nat) (x : Source) : (s.setSource k x).lake = s.lake := rfl
@[simp] theorem State.setSource_power (s : State) (k : Nat) (x : Source) : (s.setSource k x).power = s.power := rfl
@[simp] theorem State.setSource_mem (s : State) (k : Nat) (x : Source) : (s.setSource k x).mem = s.mem := rfl
@[simp] theorem State.setSource_poison (s : State) (k : Nat) (x : Source) : (s.setSource k x).poison = s.poison := rfl
@[simp] theorem State.setSource_out (s : State) (k : Nat) (x : Source) : (s.setSource k x).out = s.out := rfl
@[simp] theorem State.setSource_freeCtr (s : State) (k : Nat) (x : Source) : (s.setSource k x).freeCtr = s.freeCtr := rfl
@[simp] theorem State.setSource_pending (s : State) (k : Nat) (x : Source) : (s.setSource k x).pending = s.pending := rfl

@[simp] theorem State.setSession_cfg (s : State) (k : Nat) (x : Session) : (s.setSession k x).cfg = s.cfg := rfl
@[simp] theorem State.setSession_time (s : State) (k : Nat) (x : Session) : (s.setSession k x).time = s.time := rfl
@[simp] theorem State.setSession_fault (s : State) (k : Nat) (x : Session) : (s.setSession k x).fault = s.fault := rfl
@[simp] theorem State.setSession_boot (s : State) (k : Nat) (x : Session) : (s.setSession k x).boot = s.boot := rfl
@[simp] theorem State.setSession_pins (s : State) (k : Nat) (x : Session) : (s.setSession k x).pins = s.pins := rfl
@[simp] theorem State.setSession_pond (s : State) (k : Nat) (x : Session) : (s.setSession k x).pond = s.pond := rfl
@[simp] theorem State.setSession_inflow (s : State) (k : Nat) (x : Session) : (s.setSession k x).inflow = s.inflow := rfl
@[simp] theorem State.setSession_take (s : State) (k : Nat) (x : Session) : (s.setSession k x).take = s.take := rfl
@[simp] theorem State.setSession_media (s : State) (k : Nat) (x : Session) : (s.setSession k x).media = s.media := rfl
@[simp] theorem State.setSession_host (s : State) (k : Nat) (x : Session) : (s.setSession k x).host = s.host := rfl
@[simp] theorem State.setSession_comp (s : State) (k : Nat) (x : Session) : (s.setSession k x).comp = s.comp := rfl
@[simp] theorem State.setSession_search (s : State) (k : Nat) (x : Session) : (s.setSession k x).search = s.search := rfl
@[simp] theorem State.setSession_secure (s : State) (k : Nat) (x : Session) : (s.setSession k x).secure = s.secure := rfl
@[simp] theorem State.setSession_lake (s : State) (k : Nat) (x : Session) : (s.setSession k x).lake = s.lake := rfl
@[simp] theorem State.setSession_power (s : State) (k : Nat) (x : Session) : (s.setSession k x).power = s.power := rfl
@[simp] theorem State.setSession_mem (s : State) (k : Nat) (x : Session) : (s.setSession k x).mem = s.mem := rfl
@[simp] theorem State.setSession_poison (s : State) (k : Nat) (x : Session) : (s.setSession k x).poison = s.poison := rfl
@[simp] theorem State.setSession_out (s : State) (k : Nat) (x : Session) : (s.setSession k x).out = s.out := rfl
@[simp] theorem State.setSession_freeCtr (s : State) (k : Nat) (x : Session) : (s.setSession k x).freeCtr = s.freeCtr := rfl
@[simp] theorem State.setSession_pending (s : State) (k : Nat) (x : Session) : (s.setSession k x).pending = s.pending := rfl

@[simp] theorem State.setSlot_cfg (s : State) (n : Nat) (x : Slot) : (s.setSlot n x).cfg = s.cfg := rfl
@[simp] theorem State.setSlot_time (s : State) (n : Nat) (x : Slot) : (s.setSlot n x).time = s.time := rfl
@[simp] theorem State.setSlot_fault (s : State) (n : Nat) (x : Slot) : (s.setSlot n x).fault = s.fault := rfl
@[simp] theorem State.setSlot_boot (s : State) (n : Nat) (x : Slot) : (s.setSlot n x).boot = s.boot := rfl
@[simp] theorem State.setSlot_pins (s : State) (n : Nat) (x : Slot) : (s.setSlot n x).pins = s.pins := rfl
@[simp] theorem State.setSlot_pond (s : State) (n : Nat) (x : Slot) : (s.setSlot n x).pond = s.pond := rfl
@[simp] theorem State.setSlot_inflow (s : State) (n : Nat) (x : Slot) : (s.setSlot n x).inflow = s.inflow := rfl
@[simp] theorem State.setSlot_take (s : State) (n : Nat) (x : Slot) : (s.setSlot n x).take = s.take := rfl
@[simp] theorem State.setSlot_media (s : State) (n : Nat) (x : Slot) : (s.setSlot n x).media = s.media := rfl
@[simp] theorem State.setSlot_host (s : State) (n : Nat) (x : Slot) : (s.setSlot n x).host = s.host := rfl
@[simp] theorem State.setSlot_comp (s : State) (n : Nat) (x : Slot) : (s.setSlot n x).comp = s.comp := rfl
@[simp] theorem State.setSlot_search (s : State) (n : Nat) (x : Slot) : (s.setSlot n x).search = s.search := rfl
@[simp] theorem State.setSlot_secure (s : State) (n : Nat) (x : Slot) : (s.setSlot n x).secure = s.secure := rfl
@[simp] theorem State.setSlot_lake (s : State) (n : Nat) (x : Slot) : (s.setSlot n x).lake = s.lake := rfl
@[simp] theorem State.setSlot_power (s : State) (n : Nat) (x : Slot) : (s.setSlot n x).power = s.power := rfl
@[simp] theorem State.setSlot_mem (s : State) (n : Nat) (x : Slot) : (s.setSlot n x).mem = s.mem := rfl
@[simp] theorem State.setSlot_poison (s : State) (n : Nat) (x : Slot) : (s.setSlot n x).poison = s.poison := rfl
@[simp] theorem State.setSlot_out (s : State) (n : Nat) (x : Slot) : (s.setSlot n x).out = s.out := rfl
@[simp] theorem State.setSlot_freeCtr (s : State) (n : Nat) (x : Slot) : (s.setSlot n x).freeCtr = s.freeCtr := rfl
@[simp] theorem State.setSlot_pending (s : State) (n : Nat) (x : Slot) : (s.setSlot n x).pending = s.pending := rfl

@[simp] theorem State.setCan_cfg (s : State) (code : Nat) (r : CanRepeat) : (s.setCan code r).cfg = s.cfg := rfl
@[simp] theorem State.setCan_time (s : State) (code : Nat) (r : CanRepeat) : (s.setCan code r).time = s.time := rfl
@[simp] theorem State.setCan_dict (s : State) (code : Nat) (r : CanRepeat) : (s.setCan code r).dict = s.dict := rfl
@[simp] theorem State.setCan_boot (s : State) (code : Nat) (r : CanRepeat) : (s.setCan code r).boot = s.boot := rfl
@[simp] theorem State.setCan_pins (s : State) (code : Nat) (r : CanRepeat) : (s.setCan code r).pins = s.pins := rfl
@[simp] theorem State.setCan_pond (s : State) (code : Nat) (r : CanRepeat) : (s.setCan code r).pond = s.pond := rfl
@[simp] theorem State.setCan_inflow (s : State) (code : Nat) (r : CanRepeat) : (s.setCan code r).inflow = s.inflow := rfl
@[simp] theorem State.setCan_take (s : State) (code : Nat) (r : CanRepeat) : (s.setCan code r).take = s.take := rfl
@[simp] theorem State.setCan_media (s : State) (code : Nat) (r : CanRepeat) : (s.setCan code r).media = s.media := rfl
@[simp] theorem State.setCan_host (s : State) (code : Nat) (r : CanRepeat) : (s.setCan code r).host = s.host := rfl
@[simp] theorem State.setCan_comp (s : State) (code : Nat) (r : CanRepeat) : (s.setCan code r).comp = s.comp := rfl
@[simp] theorem State.setCan_search (s : State) (code : Nat) (r : CanRepeat) : (s.setCan code r).search = s.search := rfl
@[simp] theorem State.setCan_secure (s : State) (code : Nat) (r : CanRepeat) : (s.setCan code r).secure = s.secure := rfl
@[simp] theorem State.setCan_lake (s : State) (code : Nat) (r : CanRepeat) : (s.setCan code r).lake = s.lake := rfl
@[simp] theorem State.setCan_power (s : State) (code : Nat) (r : CanRepeat) : (s.setCan code r).power = s.power := rfl
@[simp] theorem State.setCan_mem (s : State) (code : Nat) (r : CanRepeat) : (s.setCan code r).mem = s.mem := rfl
@[simp] theorem State.setCan_poison (s : State) (code : Nat) (r : CanRepeat) : (s.setCan code r).poison = s.poison := rfl
@[simp] theorem State.setCan_out (s : State) (code : Nat) (r : CanRepeat) : (s.setCan code r).out = s.out := rfl
@[simp] theorem State.setCan_freeCtr (s : State) (code : Nat) (r : CanRepeat) : (s.setCan code r).freeCtr = s.freeCtr := rfl
@[simp] theorem State.setCan_pending (s : State) (code : Nat) (r : CanRepeat) : (s.setCan code r).pending = s.pending := rfl

@[simp] theorem State.setLane_cfg (s : State) (d lane : Nat) (x : Lane) : (s.setLane d lane x).cfg = s.cfg := rfl
@[simp] theorem State.setLane_time (s : State) (d lane : Nat) (x : Lane) : (s.setLane d lane x).time = s.time := rfl
@[simp] theorem State.setLane_dict (s : State) (d lane : Nat) (x : Lane) : (s.setLane d lane x).dict = s.dict := rfl
@[simp] theorem State.setLane_fault (s : State) (d lane : Nat) (x : Lane) : (s.setLane d lane x).fault = s.fault := rfl
@[simp] theorem State.setLane_boot (s : State) (d lane : Nat) (x : Lane) : (s.setLane d lane x).boot = s.boot := rfl
@[simp] theorem State.setLane_pins (s : State) (d lane : Nat) (x : Lane) : (s.setLane d lane x).pins = s.pins := rfl
@[simp] theorem State.setLane_pond (s : State) (d lane : Nat) (x : Lane) : (s.setLane d lane x).pond = s.pond := rfl
@[simp] theorem State.setLane_take (s : State) (d lane : Nat) (x : Lane) : (s.setLane d lane x).take = s.take := rfl
@[simp] theorem State.setLane_media (s : State) (d lane : Nat) (x : Lane) : (s.setLane d lane x).media = s.media := rfl
@[simp] theorem State.setLane_host (s : State) (d lane : Nat) (x : Lane) : (s.setLane d lane x).host = s.host := rfl
@[simp] theorem State.setLane_comp (s : State) (d lane : Nat) (x : Lane) : (s.setLane d lane x).comp = s.comp := rfl
@[simp] theorem State.setLane_search (s : State) (d lane : Nat) (x : Lane) : (s.setLane d lane x).search = s.search := rfl
@[simp] theorem State.setLane_secure (s : State) (d lane : Nat) (x : Lane) : (s.setLane d lane x).secure = s.secure := rfl
@[simp] theorem State.setLane_lake (s : State) (d lane : Nat) (x : Lane) : (s.setLane d lane x).lake = s.lake := rfl
@[simp] theorem State.setLane_power (s : State) (d lane : Nat) (x : Lane) : (s.setLane d lane x).power = s.power := rfl
@[simp] theorem State.setLane_mem (s : State) (d lane : Nat) (x : Lane) : (s.setLane d lane x).mem = s.mem := rfl
@[simp] theorem State.setLane_poison (s : State) (d lane : Nat) (x : Lane) : (s.setLane d lane x).poison = s.poison := rfl
@[simp] theorem State.setLane_out (s : State) (d lane : Nat) (x : Lane) : (s.setLane d lane x).out = s.out := rfl
@[simp] theorem State.setLane_freeCtr (s : State) (d lane : Nat) (x : Lane) : (s.setLane d lane x).freeCtr = s.freeCtr := rfl
@[simp] theorem State.setLane_pending (s : State) (d lane : Nat) (x : Lane) : (s.setLane d lane x).pending = s.pending := rfl

@[simp] theorem State.setPort_cfg (s : State) (k : Nat) (p : Port) : (s.setPort k p).cfg = s.cfg := rfl
@[simp] theorem State.setPort_time (s : State) (k : Nat) (p : Port) : (s.setPort k p).time = s.time := rfl
@[simp] theorem State.setPort_dict (s : State) (k : Nat) (p : Port) : (s.setPort k p).dict = s.dict := rfl
@[simp] theorem State.setPort_fault (s : State) (k : Nat) (p : Port) : (s.setPort k p).fault = s.fault := rfl
@[simp] theorem State.setPort_boot (s : State) (k : Nat) (p : Port) : (s.setPort k p).boot = s.boot := rfl
@[simp] theorem State.setPort_pins (s : State) (k : Nat) (p : Port) : (s.setPort k p).pins = s.pins := rfl
@[simp] theorem State.setPort_pond (s : State) (k : Nat) (p : Port) : (s.setPort k p).pond = s.pond := rfl
@[simp] theorem State.setPort_take (s : State) (k : Nat) (p : Port) : (s.setPort k p).take = s.take := rfl
@[simp] theorem State.setPort_media (s : State) (k : Nat) (p : Port) : (s.setPort k p).media = s.media := rfl
@[simp] theorem State.setPort_host (s : State) (k : Nat) (p : Port) : (s.setPort k p).host = s.host := rfl
@[simp] theorem State.setPort_comp (s : State) (k : Nat) (p : Port) : (s.setPort k p).comp = s.comp := rfl
@[simp] theorem State.setPort_search (s : State) (k : Nat) (p : Port) : (s.setPort k p).search = s.search := rfl
@[simp] theorem State.setPort_secure (s : State) (k : Nat) (p : Port) : (s.setPort k p).secure = s.secure := rfl
@[simp] theorem State.setPort_lake (s : State) (k : Nat) (p : Port) : (s.setPort k p).lake = s.lake := rfl
@[simp] theorem State.setPort_power (s : State) (k : Nat) (p : Port) : (s.setPort k p).power = s.power := rfl
@[simp] theorem State.setPort_mem (s : State) (k : Nat) (p : Port) : (s.setPort k p).mem = s.mem := rfl
@[simp] theorem State.setPort_poison (s : State) (k : Nat) (p : Port) : (s.setPort k p).poison = s.poison := rfl
@[simp] theorem State.setPort_out (s : State) (k : Nat) (p : Port) : (s.setPort k p).out = s.out := rfl
@[simp] theorem State.setPort_freeCtr (s : State) (k : Nat) (p : Port) : (s.setPort k p).freeCtr = s.freeCtr := rfl
@[simp] theorem State.setPort_pending (s : State) (k : Nat) (p : Port) : (s.setPort k p).pending = s.pending := rfl

@[simp] theorem State.setPool_cfg (s : State) (d p : Nat) (q : Pool) : (s.setPool d p q).cfg = s.cfg := rfl
@[simp] theorem State.setPool_time (s : State) (d p : Nat) (q : Pool) : (s.setPool d p q).time = s.time := rfl
@[simp] theorem State.setPool_dict (s : State) (d p : Nat) (q : Pool) : (s.setPool d p q).dict = s.dict := rfl
@[simp] theorem State.setPool_fault (s : State) (d p : Nat) (q : Pool) : (s.setPool d p q).fault = s.fault := rfl
@[simp] theorem State.setPool_boot (s : State) (d p : Nat) (q : Pool) : (s.setPool d p q).boot = s.boot := rfl
@[simp] theorem State.setPool_pins (s : State) (d p : Nat) (q : Pool) : (s.setPool d p q).pins = s.pins := rfl
@[simp] theorem State.setPool_inflow (s : State) (d p : Nat) (q : Pool) : (s.setPool d p q).inflow = s.inflow := rfl
@[simp] theorem State.setPool_take (s : State) (d p : Nat) (q : Pool) : (s.setPool d p q).take = s.take := rfl
@[simp] theorem State.setPool_media (s : State) (d p : Nat) (q : Pool) : (s.setPool d p q).media = s.media := rfl
@[simp] theorem State.setPool_host (s : State) (d p : Nat) (q : Pool) : (s.setPool d p q).host = s.host := rfl
@[simp] theorem State.setPool_comp (s : State) (d p : Nat) (q : Pool) : (s.setPool d p q).comp = s.comp := rfl
@[simp] theorem State.setPool_search (s : State) (d p : Nat) (q : Pool) : (s.setPool d p q).search = s.search := rfl
@[simp] theorem State.setPool_secure (s : State) (d p : Nat) (q : Pool) : (s.setPool d p q).secure = s.secure := rfl
@[simp] theorem State.setPool_lake (s : State) (d p : Nat) (q : Pool) : (s.setPool d p q).lake = s.lake := rfl
@[simp] theorem State.setPool_power (s : State) (d p : Nat) (q : Pool) : (s.setPool d p q).power = s.power := rfl
@[simp] theorem State.setPool_mem (s : State) (d p : Nat) (q : Pool) : (s.setPool d p q).mem = s.mem := rfl
@[simp] theorem State.setPool_poison (s : State) (d p : Nat) (q : Pool) : (s.setPool d p q).poison = s.poison := rfl
@[simp] theorem State.setPool_out (s : State) (d p : Nat) (q : Pool) : (s.setPool d p q).out = s.out := rfl
@[simp] theorem State.setPool_freeCtr (s : State) (d p : Nat) (q : Pool) : (s.setPool d p q).freeCtr = s.freeCtr := rfl
@[simp] theorem State.setPool_pending (s : State) (d p : Nat) (q : Pool) : (s.setPool d p q).pending = s.pending := rfl

@[simp] theorem State.modTake_cfg (s : State) (nsid num : Nat) (f : Take → Take) : (s.modTake nsid num f).cfg = s.cfg := rfl
@[simp] theorem State.modTake_time (s : State) (nsid num : Nat) (f : Take → Take) : (s.modTake nsid num f).time = s.time := rfl
@[simp] theorem State.modTake_dict (s : State) (nsid num : Nat) (f : Take → Take) : (s.modTake nsid num f).dict = s.dict := rfl
@[simp] theorem State.modTake_fault (s : State) (nsid num : Nat) (f : Take → Take) : (s.modTake nsid num f).fault = s.fault := rfl
@[simp] theorem State.modTake_boot (s : State) (nsid num : Nat) (f : Take → Take) : (s.modTake nsid num f).boot = s.boot := rfl
@[simp] theorem State.modTake_pins (s : State) (nsid num : Nat) (f : Take → Take) : (s.modTake nsid num f).pins = s.pins := rfl
@[simp] theorem State.modTake_pond (s : State) (nsid num : Nat) (f : Take → Take) : (s.modTake nsid num f).pond = s.pond := rfl
@[simp] theorem State.modTake_inflow (s : State) (nsid num : Nat) (f : Take → Take) : (s.modTake nsid num f).inflow = s.inflow := rfl
@[simp] theorem State.modTake_media (s : State) (nsid num : Nat) (f : Take → Take) : (s.modTake nsid num f).media = s.media := rfl
@[simp] theorem State.modTake_host (s : State) (nsid num : Nat) (f : Take → Take) : (s.modTake nsid num f).host = s.host := rfl
@[simp] theorem State.modTake_comp (s : State) (nsid num : Nat) (f : Take → Take) : (s.modTake nsid num f).comp = s.comp := rfl
@[simp] theorem State.modTake_search (s : State) (nsid num : Nat) (f : Take → Take) : (s.modTake nsid num f).search = s.search := rfl
@[simp] theorem State.modTake_secure (s : State) (nsid num : Nat) (f : Take → Take) : (s.modTake nsid num f).secure = s.secure := rfl
@[simp] theorem State.modTake_lake (s : State) (nsid num : Nat) (f : Take → Take) : (s.modTake nsid num f).lake = s.lake := rfl
@[simp] theorem State.modTake_power (s : State) (nsid num : Nat) (f : Take → Take) : (s.modTake nsid num f).power = s.power := rfl
@[simp] theorem State.modTake_mem (s : State) (nsid num : Nat) (f : Take → Take) : (s.modTake nsid num f).mem = s.mem := rfl
@[simp] theorem State.modTake_poison (s : State) (nsid num : Nat) (f : Take → Take) : (s.modTake nsid num f).poison = s.poison := rfl
@[simp] theorem State.modTake_out (s : State) (nsid num : Nat) (f : Take → Take) : (s.modTake nsid num f).out = s.out := rfl
@[simp] theorem State.modTake_freeCtr (s : State) (nsid num : Nat) (f : Take → Take) : (s.modTake nsid num f).freeCtr = s.freeCtr := rfl
@[simp] theorem State.modTake_pending (s : State) (nsid num : Nat) (f : Take → Take) : (s.modTake nsid num f).pending = s.pending := rfl

@[simp] theorem State.setMd_cfg (s : State) (d : Nat) (m : MediaDie) : (s.setMd d m).cfg = s.cfg := rfl
@[simp] theorem State.setMd_time (s : State) (d : Nat) (m : MediaDie) : (s.setMd d m).time = s.time := rfl
@[simp] theorem State.setMd_dict (s : State) (d : Nat) (m : MediaDie) : (s.setMd d m).dict = s.dict := rfl
@[simp] theorem State.setMd_fault (s : State) (d : Nat) (m : MediaDie) : (s.setMd d m).fault = s.fault := rfl
@[simp] theorem State.setMd_boot (s : State) (d : Nat) (m : MediaDie) : (s.setMd d m).boot = s.boot := rfl
@[simp] theorem State.setMd_pins (s : State) (d : Nat) (m : MediaDie) : (s.setMd d m).pins = s.pins := rfl
@[simp] theorem State.setMd_pond (s : State) (d : Nat) (m : MediaDie) : (s.setMd d m).pond = s.pond := rfl
@[simp] theorem State.setMd_inflow (s : State) (d : Nat) (m : MediaDie) : (s.setMd d m).inflow = s.inflow := rfl
@[simp] theorem State.setMd_take (s : State) (d : Nat) (m : MediaDie) : (s.setMd d m).take = s.take := rfl
@[simp] theorem State.setMd_host (s : State) (d : Nat) (m : MediaDie) : (s.setMd d m).host = s.host := rfl
@[simp] theorem State.setMd_comp (s : State) (d : Nat) (m : MediaDie) : (s.setMd d m).comp = s.comp := rfl
@[simp] theorem State.setMd_search (s : State) (d : Nat) (m : MediaDie) : (s.setMd d m).search = s.search := rfl
@[simp] theorem State.setMd_secure (s : State) (d : Nat) (m : MediaDie) : (s.setMd d m).secure = s.secure := rfl
@[simp] theorem State.setMd_lake (s : State) (d : Nat) (m : MediaDie) : (s.setMd d m).lake = s.lake := rfl
@[simp] theorem State.setMd_power (s : State) (d : Nat) (m : MediaDie) : (s.setMd d m).power = s.power := rfl
@[simp] theorem State.setMd_mem (s : State) (d : Nat) (m : MediaDie) : (s.setMd d m).mem = s.mem := rfl
@[simp] theorem State.setMd_poison (s : State) (d : Nat) (m : MediaDie) : (s.setMd d m).poison = s.poison := rfl
@[simp] theorem State.setMd_out (s : State) (d : Nat) (m : MediaDie) : (s.setMd d m).out = s.out := rfl
@[simp] theorem State.setMd_freeCtr (s : State) (d : Nat) (m : MediaDie) : (s.setMd d m).freeCtr = s.freeCtr := rfl
@[simp] theorem State.setMd_pending (s : State) (d : Nat) (m : MediaDie) : (s.setMd d m).pending = s.pending := rfl

@[simp] theorem State.modCtrl_cfg (s : State) (c : Nat) (f : Ctrl → Ctrl) : (s.modCtrl c f).cfg = s.cfg := rfl
@[simp] theorem State.modCtrl_time (s : State) (c : Nat) (f : Ctrl → Ctrl) : (s.modCtrl c f).time = s.time := rfl
@[simp] theorem State.modCtrl_dict (s : State) (c : Nat) (f : Ctrl → Ctrl) : (s.modCtrl c f).dict = s.dict := rfl
@[simp] theorem State.modCtrl_fault (s : State) (c : Nat) (f : Ctrl → Ctrl) : (s.modCtrl c f).fault = s.fault := rfl
@[simp] theorem State.modCtrl_boot (s : State) (c : Nat) (f : Ctrl → Ctrl) : (s.modCtrl c f).boot = s.boot := rfl
@[simp] theorem State.modCtrl_pins (s : State) (c : Nat) (f : Ctrl → Ctrl) : (s.modCtrl c f).pins = s.pins := rfl
@[simp] theorem State.modCtrl_pond (s : State) (c : Nat) (f : Ctrl → Ctrl) : (s.modCtrl c f).pond = s.pond := rfl
@[simp] theorem State.modCtrl_inflow (s : State) (c : Nat) (f : Ctrl → Ctrl) : (s.modCtrl c f).inflow = s.inflow := rfl
@[simp] theorem State.modCtrl_take (s : State) (c : Nat) (f : Ctrl → Ctrl) : (s.modCtrl c f).take = s.take := rfl
@[simp] theorem State.modCtrl_media (s : State) (c : Nat) (f : Ctrl → Ctrl) : (s.modCtrl c f).media = s.media := rfl
@[simp] theorem State.modCtrl_comp (s : State) (c : Nat) (f : Ctrl → Ctrl) : (s.modCtrl c f).comp = s.comp := rfl
@[simp] theorem State.modCtrl_search (s : State) (c : Nat) (f : Ctrl → Ctrl) : (s.modCtrl c f).search = s.search := rfl
@[simp] theorem State.modCtrl_secure (s : State) (c : Nat) (f : Ctrl → Ctrl) : (s.modCtrl c f).secure = s.secure := rfl
@[simp] theorem State.modCtrl_lake (s : State) (c : Nat) (f : Ctrl → Ctrl) : (s.modCtrl c f).lake = s.lake := rfl
@[simp] theorem State.modCtrl_power (s : State) (c : Nat) (f : Ctrl → Ctrl) : (s.modCtrl c f).power = s.power := rfl
@[simp] theorem State.modCtrl_mem (s : State) (c : Nat) (f : Ctrl → Ctrl) : (s.modCtrl c f).mem = s.mem := rfl
@[simp] theorem State.modCtrl_poison (s : State) (c : Nat) (f : Ctrl → Ctrl) : (s.modCtrl c f).poison = s.poison := rfl
@[simp] theorem State.modCtrl_out (s : State) (c : Nat) (f : Ctrl → Ctrl) : (s.modCtrl c f).out = s.out := rfl
@[simp] theorem State.modCtrl_freeCtr (s : State) (c : Nat) (f : Ctrl → Ctrl) : (s.modCtrl c f).freeCtr = s.freeCtr := rfl
@[simp] theorem State.modCtrl_pending (s : State) (c : Nat) (f : Ctrl → Ctrl) : (s.modCtrl c f).pending = s.pending := rfl

@[simp] theorem State.modFn_cfg (s : State) (n : Nat) (f : Fn → Fn) : (s.modFn n f).cfg = s.cfg := rfl
@[simp] theorem State.modFn_time (s : State) (n : Nat) (f : Fn → Fn) : (s.modFn n f).time = s.time := rfl
@[simp] theorem State.modFn_dict (s : State) (n : Nat) (f : Fn → Fn) : (s.modFn n f).dict = s.dict := rfl
@[simp] theorem State.modFn_fault (s : State) (n : Nat) (f : Fn → Fn) : (s.modFn n f).fault = s.fault := rfl
@[simp] theorem State.modFn_boot (s : State) (n : Nat) (f : Fn → Fn) : (s.modFn n f).boot = s.boot := rfl
@[simp] theorem State.modFn_pins (s : State) (n : Nat) (f : Fn → Fn) : (s.modFn n f).pins = s.pins := rfl
@[simp] theorem State.modFn_pond (s : State) (n : Nat) (f : Fn → Fn) : (s.modFn n f).pond = s.pond := rfl
@[simp] theorem State.modFn_inflow (s : State) (n : Nat) (f : Fn → Fn) : (s.modFn n f).inflow = s.inflow := rfl
@[simp] theorem State.modFn_take (s : State) (n : Nat) (f : Fn → Fn) : (s.modFn n f).take = s.take := rfl
@[simp] theorem State.modFn_media (s : State) (n : Nat) (f : Fn → Fn) : (s.modFn n f).media = s.media := rfl
@[simp] theorem State.modFn_comp (s : State) (n : Nat) (f : Fn → Fn) : (s.modFn n f).comp = s.comp := rfl
@[simp] theorem State.modFn_search (s : State) (n : Nat) (f : Fn → Fn) : (s.modFn n f).search = s.search := rfl
@[simp] theorem State.modFn_secure (s : State) (n : Nat) (f : Fn → Fn) : (s.modFn n f).secure = s.secure := rfl
@[simp] theorem State.modFn_lake (s : State) (n : Nat) (f : Fn → Fn) : (s.modFn n f).lake = s.lake := rfl
@[simp] theorem State.modFn_power (s : State) (n : Nat) (f : Fn → Fn) : (s.modFn n f).power = s.power := rfl
@[simp] theorem State.modFn_mem (s : State) (n : Nat) (f : Fn → Fn) : (s.modFn n f).mem = s.mem := rfl
@[simp] theorem State.modFn_poison (s : State) (n : Nat) (f : Fn → Fn) : (s.modFn n f).poison = s.poison := rfl
@[simp] theorem State.modFn_out (s : State) (n : Nat) (f : Fn → Fn) : (s.modFn n f).out = s.out := rfl
@[simp] theorem State.modFn_freeCtr (s : State) (n : Nat) (f : Fn → Fn) : (s.modFn n f).freeCtr = s.freeCtr := rfl
@[simp] theorem State.modFn_pending (s : State) (n : Nat) (f : Fn → Fn) : (s.modFn n f).pending = s.pending := rfl

@[simp] theorem State.setCd_cfg (s : State) (d : Nat) (c : ComputeDie) : (s.setCd d c).cfg = s.cfg := rfl
@[simp] theorem State.setCd_time (s : State) (d : Nat) (c : ComputeDie) : (s.setCd d c).time = s.time := rfl
@[simp] theorem State.setCd_dict (s : State) (d : Nat) (c : ComputeDie) : (s.setCd d c).dict = s.dict := rfl
@[simp] theorem State.setCd_fault (s : State) (d : Nat) (c : ComputeDie) : (s.setCd d c).fault = s.fault := rfl
@[simp] theorem State.setCd_boot (s : State) (d : Nat) (c : ComputeDie) : (s.setCd d c).boot = s.boot := rfl
@[simp] theorem State.setCd_pins (s : State) (d : Nat) (c : ComputeDie) : (s.setCd d c).pins = s.pins := rfl
@[simp] theorem State.setCd_pond (s : State) (d : Nat) (c : ComputeDie) : (s.setCd d c).pond = s.pond := rfl
@[simp] theorem State.setCd_inflow (s : State) (d : Nat) (c : ComputeDie) : (s.setCd d c).inflow = s.inflow := rfl
@[simp] theorem State.setCd_take (s : State) (d : Nat) (c : ComputeDie) : (s.setCd d c).take = s.take := rfl
@[simp] theorem State.setCd_media (s : State) (d : Nat) (c : ComputeDie) : (s.setCd d c).media = s.media := rfl
@[simp] theorem State.setCd_host (s : State) (d : Nat) (c : ComputeDie) : (s.setCd d c).host = s.host := rfl
@[simp] theorem State.setCd_search (s : State) (d : Nat) (c : ComputeDie) : (s.setCd d c).search = s.search := rfl
@[simp] theorem State.setCd_secure (s : State) (d : Nat) (c : ComputeDie) : (s.setCd d c).secure = s.secure := rfl
@[simp] theorem State.setCd_lake (s : State) (d : Nat) (c : ComputeDie) : (s.setCd d c).lake = s.lake := rfl
@[simp] theorem State.setCd_power (s : State) (d : Nat) (c : ComputeDie) : (s.setCd d c).power = s.power := rfl
@[simp] theorem State.setCd_mem (s : State) (d : Nat) (c : ComputeDie) : (s.setCd d c).mem = s.mem := rfl
@[simp] theorem State.setCd_poison (s : State) (d : Nat) (c : ComputeDie) : (s.setCd d c).poison = s.poison := rfl
@[simp] theorem State.setCd_out (s : State) (d : Nat) (c : ComputeDie) : (s.setCd d c).out = s.out := rfl
@[simp] theorem State.setCd_freeCtr (s : State) (d : Nat) (c : ComputeDie) : (s.setCd d c).freeCtr = s.freeCtr := rfl
@[simp] theorem State.setCd_pending (s : State) (d : Nat) (c : ComputeDie) : (s.setCd d c).pending = s.pending := rfl

@[simp] theorem State.setTask_cfg (s : State) (d slot : Nat) (t : Task) : (s.setTask d slot t).cfg = s.cfg := rfl
@[simp] theorem State.setTask_time (s : State) (d slot : Nat) (t : Task) : (s.setTask d slot t).time = s.time := rfl
@[simp] theorem State.setTask_dict (s : State) (d slot : Nat) (t : Task) : (s.setTask d slot t).dict = s.dict := rfl
@[simp] theorem State.setTask_fault (s : State) (d slot : Nat) (t : Task) : (s.setTask d slot t).fault = s.fault := rfl
@[simp] theorem State.setTask_boot (s : State) (d slot : Nat) (t : Task) : (s.setTask d slot t).boot = s.boot := rfl
@[simp] theorem State.setTask_pins (s : State) (d slot : Nat) (t : Task) : (s.setTask d slot t).pins = s.pins := rfl
@[simp] theorem State.setTask_pond (s : State) (d slot : Nat) (t : Task) : (s.setTask d slot t).pond = s.pond := rfl
@[simp] theorem State.setTask_inflow (s : State) (d slot : Nat) (t : Task) : (s.setTask d slot t).inflow = s.inflow := rfl
@[simp] theorem State.setTask_take (s : State) (d slot : Nat) (t : Task) : (s.setTask d slot t).take = s.take := rfl
@[simp] theorem State.setTask_media (s : State) (d slot : Nat) (t : Task) : (s.setTask d slot t).media = s.media := rfl
@[simp] theorem State.setTask_host (s : State) (d slot : Nat) (t : Task) : (s.setTask d slot t).host = s.host := rfl
@[simp] theorem State.setTask_search (s : State) (d slot : Nat) (t : Task) : (s.setTask d slot t).search = s.search := rfl
@[simp] theorem State.setTask_secure (s : State) (d slot : Nat) (t : Task) : (s.setTask d slot t).secure = s.secure := rfl
@[simp] theorem State.setTask_lake (s : State) (d slot : Nat) (t : Task) : (s.setTask d slot t).lake = s.lake := rfl
@[simp] theorem State.setTask_power (s : State) (d slot : Nat) (t : Task) : (s.setTask d slot t).power = s.power := rfl
@[simp] theorem State.setTask_mem (s : State) (d slot : Nat) (t : Task) : (s.setTask d slot t).mem = s.mem := rfl
@[simp] theorem State.setTask_poison (s : State) (d slot : Nat) (t : Task) : (s.setTask d slot t).poison = s.poison := rfl
@[simp] theorem State.setTask_out (s : State) (d slot : Nat) (t : Task) : (s.setTask d slot t).out = s.out := rfl
@[simp] theorem State.setTask_freeCtr (s : State) (d slot : Nat) (t : Task) : (s.setTask d slot t).freeCtr = s.freeCtr := rfl
@[simp] theorem State.setTask_pending (s : State) (d slot : Nat) (t : Task) : (s.setTask d slot t).pending = s.pending := rfl

@[simp] theorem State.setJob_cfg (s : State) (d ticket : Nat) (j : Job) : (s.setJob d ticket j).cfg = s.cfg := rfl
@[simp] theorem State.setJob_time (s : State) (d ticket : Nat) (j : Job) : (s.setJob d ticket j).time = s.time := rfl
@[simp] theorem State.setJob_dict (s : State) (d ticket : Nat) (j : Job) : (s.setJob d ticket j).dict = s.dict := rfl
@[simp] theorem State.setJob_fault (s : State) (d ticket : Nat) (j : Job) : (s.setJob d ticket j).fault = s.fault := rfl
@[simp] theorem State.setJob_boot (s : State) (d ticket : Nat) (j : Job) : (s.setJob d ticket j).boot = s.boot := rfl
@[simp] theorem State.setJob_pins (s : State) (d ticket : Nat) (j : Job) : (s.setJob d ticket j).pins = s.pins := rfl
@[simp] theorem State.setJob_pond (s : State) (d ticket : Nat) (j : Job) : (s.setJob d ticket j).pond = s.pond := rfl
@[simp] theorem State.setJob_inflow (s : State) (d ticket : Nat) (j : Job) : (s.setJob d ticket j).inflow = s.inflow := rfl
@[simp] theorem State.setJob_take (s : State) (d ticket : Nat) (j : Job) : (s.setJob d ticket j).take = s.take := rfl
@[simp] theorem State.setJob_media (s : State) (d ticket : Nat) (j : Job) : (s.setJob d ticket j).media = s.media := rfl
@[simp] theorem State.setJob_host (s : State) (d ticket : Nat) (j : Job) : (s.setJob d ticket j).host = s.host := rfl
@[simp] theorem State.setJob_search (s : State) (d ticket : Nat) (j : Job) : (s.setJob d ticket j).search = s.search := rfl
@[simp] theorem State.setJob_secure (s : State) (d ticket : Nat) (j : Job) : (s.setJob d ticket j).secure = s.secure := rfl
@[simp] theorem State.setJob_lake (s : State) (d ticket : Nat) (j : Job) : (s.setJob d ticket j).lake = s.lake := rfl
@[simp] theorem State.setJob_power (s : State) (d ticket : Nat) (j : Job) : (s.setJob d ticket j).power = s.power := rfl
@[simp] theorem State.setJob_mem (s : State) (d ticket : Nat) (j : Job) : (s.setJob d ticket j).mem = s.mem := rfl
@[simp] theorem State.setJob_poison (s : State) (d ticket : Nat) (j : Job) : (s.setJob d ticket j).poison = s.poison := rfl
@[simp] theorem State.setJob_out (s : State) (d ticket : Nat) (j : Job) : (s.setJob d ticket j).out = s.out := rfl
@[simp] theorem State.setJob_freeCtr (s : State) (d ticket : Nat) (j : Job) : (s.setJob d ticket j).freeCtr = s.freeCtr := rfl
@[simp] theorem State.setJob_pending (s : State) (d ticket : Nat) (j : Job) : (s.setJob d ticket j).pending = s.pending := rfl

@[simp] theorem State.setProgram_cfg (s : State) (h : Nat) (p : Option Program) : (s.setProgram h p).cfg = s.cfg := rfl
@[simp] theorem State.setProgram_time (s : State) (h : Nat) (p : Option Program) : (s.setProgram h p).time = s.time := rfl
@[simp] theorem State.setProgram_dict (s : State) (h : Nat) (p : Option Program) : (s.setProgram h p).dict = s.dict := rfl
@[simp] theorem State.setProgram_fault (s : State) (h : Nat) (p : Option Program) : (s.setProgram h p).fault = s.fault := rfl
@[simp] theorem State.setProgram_boot (s : State) (h : Nat) (p : Option Program) : (s.setProgram h p).boot = s.boot := rfl
@[simp] theorem State.setProgram_pins (s : State) (h : Nat) (p : Option Program) : (s.setProgram h p).pins = s.pins := rfl
@[simp] theorem State.setProgram_pond (s : State) (h : Nat) (p : Option Program) : (s.setProgram h p).pond = s.pond := rfl
@[simp] theorem State.setProgram_inflow (s : State) (h : Nat) (p : Option Program) : (s.setProgram h p).inflow = s.inflow := rfl
@[simp] theorem State.setProgram_take (s : State) (h : Nat) (p : Option Program) : (s.setProgram h p).take = s.take := rfl
@[simp] theorem State.setProgram_media (s : State) (h : Nat) (p : Option Program) : (s.setProgram h p).media = s.media := rfl
@[simp] theorem State.setProgram_host (s : State) (h : Nat) (p : Option Program) : (s.setProgram h p).host = s.host := rfl
@[simp] theorem State.setProgram_search (s : State) (h : Nat) (p : Option Program) : (s.setProgram h p).search = s.search := rfl
@[simp] theorem State.setProgram_secure (s : State) (h : Nat) (p : Option Program) : (s.setProgram h p).secure = s.secure := rfl
@[simp] theorem State.setProgram_lake (s : State) (h : Nat) (p : Option Program) : (s.setProgram h p).lake = s.lake := rfl
@[simp] theorem State.setProgram_power (s : State) (h : Nat) (p : Option Program) : (s.setProgram h p).power = s.power := rfl
@[simp] theorem State.setProgram_mem (s : State) (h : Nat) (p : Option Program) : (s.setProgram h p).mem = s.mem := rfl
@[simp] theorem State.setProgram_poison (s : State) (h : Nat) (p : Option Program) : (s.setProgram h p).poison = s.poison := rfl
@[simp] theorem State.setProgram_out (s : State) (h : Nat) (p : Option Program) : (s.setProgram h p).out = s.out := rfl
@[simp] theorem State.setProgram_freeCtr (s : State) (h : Nat) (p : Option Program) : (s.setProgram h p).freeCtr = s.freeCtr := rfl
@[simp] theorem State.setProgram_pending (s : State) (h : Nat) (p : Option Program) : (s.setProgram h p).pending = s.pending := rfl

@[simp] theorem State.setTable_cfg (s : State) (n : Nat) (t : STable) : (s.setTable n t).cfg = s.cfg := rfl
@[simp] theorem State.setTable_time (s : State) (n : Nat) (t : STable) : (s.setTable n t).time = s.time := rfl
@[simp] theorem State.setTable_dict (s : State) (n : Nat) (t : STable) : (s.setTable n t).dict = s.dict := rfl
@[simp] theorem State.setTable_fault (s : State) (n : Nat) (t : STable) : (s.setTable n t).fault = s.fault := rfl
@[simp] theorem State.setTable_boot (s : State) (n : Nat) (t : STable) : (s.setTable n t).boot = s.boot := rfl
@[simp] theorem State.setTable_pins (s : State) (n : Nat) (t : STable) : (s.setTable n t).pins = s.pins := rfl
@[simp] theorem State.setTable_pond (s : State) (n : Nat) (t : STable) : (s.setTable n t).pond = s.pond := rfl
@[simp] theorem State.setTable_inflow (s : State) (n : Nat) (t : STable) : (s.setTable n t).inflow = s.inflow := rfl
@[simp] theorem State.setTable_take (s : State) (n : Nat) (t : STable) : (s.setTable n t).take = s.take := rfl
@[simp] theorem State.setTable_media (s : State) (n : Nat) (t : STable) : (s.setTable n t).media = s.media := rfl
@[simp] theorem State.setTable_host (s : State) (n : Nat) (t : STable) : (s.setTable n t).host = s.host := rfl
@[simp] theorem State.setTable_comp (s : State) (n : Nat) (t : STable) : (s.setTable n t).comp = s.comp := rfl
@[simp] theorem State.setTable_secure (s : State) (n : Nat) (t : STable) : (s.setTable n t).secure = s.secure := rfl
@[simp] theorem State.setTable_lake (s : State) (n : Nat) (t : STable) : (s.setTable n t).lake = s.lake := rfl
@[simp] theorem State.setTable_power (s : State) (n : Nat) (t : STable) : (s.setTable n t).power = s.power := rfl
@[simp] theorem State.setTable_mem (s : State) (n : Nat) (t : STable) : (s.setTable n t).mem = s.mem := rfl
@[simp] theorem State.setTable_poison (s : State) (n : Nat) (t : STable) : (s.setTable n t).poison = s.poison := rfl
@[simp] theorem State.setTable_out (s : State) (n : Nat) (t : STable) : (s.setTable n t).out = s.out := rfl
@[simp] theorem State.setTable_freeCtr (s : State) (n : Nat) (t : STable) : (s.setTable n t).freeCtr = s.freeCtr := rfl
@[simp] theorem State.setTable_pending (s : State) (n : Nat) (t : STable) : (s.setTable n t).pending = s.pending := rfl

@[simp] theorem State.setRows_cfg (s : State) (d : Nat) (r : Tab SRow) : (s.setRows d r).cfg = s.cfg := rfl
@[simp] theorem State.setRows_time (s : State) (d : Nat) (r : Tab SRow) : (s.setRows d r).time = s.time := rfl
@[simp] theorem State.setRows_dict (s : State) (d : Nat) (r : Tab SRow) : (s.setRows d r).dict = s.dict := rfl
@[simp] theorem State.setRows_fault (s : State) (d : Nat) (r : Tab SRow) : (s.setRows d r).fault = s.fault := rfl
@[simp] theorem State.setRows_boot (s : State) (d : Nat) (r : Tab SRow) : (s.setRows d r).boot = s.boot := rfl
@[simp] theorem State.setRows_pins (s : State) (d : Nat) (r : Tab SRow) : (s.setRows d r).pins = s.pins := rfl
@[simp] theorem State.setRows_pond (s : State) (d : Nat) (r : Tab SRow) : (s.setRows d r).pond = s.pond := rfl
@[simp] theorem State.setRows_inflow (s : State) (d : Nat) (r : Tab SRow) : (s.setRows d r).inflow = s.inflow := rfl
@[simp] theorem State.setRows_take (s : State) (d : Nat) (r : Tab SRow) : (s.setRows d r).take = s.take := rfl
@[simp] theorem State.setRows_media (s : State) (d : Nat) (r : Tab SRow) : (s.setRows d r).media = s.media := rfl
@[simp] theorem State.setRows_host (s : State) (d : Nat) (r : Tab SRow) : (s.setRows d r).host = s.host := rfl
@[simp] theorem State.setRows_comp (s : State) (d : Nat) (r : Tab SRow) : (s.setRows d r).comp = s.comp := rfl
@[simp] theorem State.setRows_secure (s : State) (d : Nat) (r : Tab SRow) : (s.setRows d r).secure = s.secure := rfl
@[simp] theorem State.setRows_lake (s : State) (d : Nat) (r : Tab SRow) : (s.setRows d r).lake = s.lake := rfl
@[simp] theorem State.setRows_power (s : State) (d : Nat) (r : Tab SRow) : (s.setRows d r).power = s.power := rfl
@[simp] theorem State.setRows_mem (s : State) (d : Nat) (r : Tab SRow) : (s.setRows d r).mem = s.mem := rfl
@[simp] theorem State.setRows_poison (s : State) (d : Nat) (r : Tab SRow) : (s.setRows d r).poison = s.poison := rfl
@[simp] theorem State.setRows_out (s : State) (d : Nat) (r : Tab SRow) : (s.setRows d r).out = s.out := rfl
@[simp] theorem State.setRows_freeCtr (s : State) (d : Nat) (r : Tab SRow) : (s.setRows d r).freeCtr = s.freeCtr := rfl
@[simp] theorem State.setRows_pending (s : State) (d : Nat) (r : Tab SRow) : (s.setRows d r).pending = s.pending := rfl

@[simp] theorem State.setSd_cfg (s : State) (d : Nat) (x : SecureDie) : (s.setSd d x).cfg = s.cfg := rfl
@[simp] theorem State.setSd_time (s : State) (d : Nat) (x : SecureDie) : (s.setSd d x).time = s.time := rfl
@[simp] theorem State.setSd_dict (s : State) (d : Nat) (x : SecureDie) : (s.setSd d x).dict = s.dict := rfl
@[simp] theorem State.setSd_fault (s : State) (d : Nat) (x : SecureDie) : (s.setSd d x).fault = s.fault := rfl
@[simp] theorem State.setSd_boot (s : State) (d : Nat) (x : SecureDie) : (s.setSd d x).boot = s.boot := rfl
@[simp] theorem State.setSd_pins (s : State) (d : Nat) (x : SecureDie) : (s.setSd d x).pins = s.pins := rfl
@[simp] theorem State.setSd_pond (s : State) (d : Nat) (x : SecureDie) : (s.setSd d x).pond = s.pond := rfl
@[simp] theorem State.setSd_inflow (s : State) (d : Nat) (x : SecureDie) : (s.setSd d x).inflow = s.inflow := rfl
@[simp] theorem State.setSd_take (s : State) (d : Nat) (x : SecureDie) : (s.setSd d x).take = s.take := rfl
@[simp] theorem State.setSd_media (s : State) (d : Nat) (x : SecureDie) : (s.setSd d x).media = s.media := rfl
@[simp] theorem State.setSd_host (s : State) (d : Nat) (x : SecureDie) : (s.setSd d x).host = s.host := rfl
@[simp] theorem State.setSd_comp (s : State) (d : Nat) (x : SecureDie) : (s.setSd d x).comp = s.comp := rfl
@[simp] theorem State.setSd_search (s : State) (d : Nat) (x : SecureDie) : (s.setSd d x).search = s.search := rfl
@[simp] theorem State.setSd_lake (s : State) (d : Nat) (x : SecureDie) : (s.setSd d x).lake = s.lake := rfl
@[simp] theorem State.setSd_power (s : State) (d : Nat) (x : SecureDie) : (s.setSd d x).power = s.power := rfl
@[simp] theorem State.setSd_mem (s : State) (d : Nat) (x : SecureDie) : (s.setSd d x).mem = s.mem := rfl
@[simp] theorem State.setSd_poison (s : State) (d : Nat) (x : SecureDie) : (s.setSd d x).poison = s.poison := rfl
@[simp] theorem State.setSd_out (s : State) (d : Nat) (x : SecureDie) : (s.setSd d x).out = s.out := rfl
@[simp] theorem State.setSd_freeCtr (s : State) (d : Nat) (x : SecureDie) : (s.setSd d x).freeCtr = s.freeCtr := rfl
@[simp] theorem State.setSd_pending (s : State) (d : Nat) (x : SecureDie) : (s.setSd d x).pending = s.pending := rfl

@[simp] theorem State.setRegSet_cfg (s : State) (d k : Nat) (r : RegSet) : (s.setRegSet d k r).cfg = s.cfg := rfl
@[simp] theorem State.setRegSet_time (s : State) (d k : Nat) (r : RegSet) : (s.setRegSet d k r).time = s.time := rfl
@[simp] theorem State.setRegSet_dict (s : State) (d k : Nat) (r : RegSet) : (s.setRegSet d k r).dict = s.dict := rfl
@[simp] theorem State.setRegSet_fault (s : State) (d k : Nat) (r : RegSet) : (s.setRegSet d k r).fault = s.fault := rfl
@[simp] theorem State.setRegSet_boot (s : State) (d k : Nat) (r : RegSet) : (s.setRegSet d k r).boot = s.boot := rfl
@[simp] theorem State.setRegSet_pins (s : State) (d k : Nat) (r : RegSet) : (s.setRegSet d k r).pins = s.pins := rfl
@[simp] theorem State.setRegSet_pond (s : State) (d k : Nat) (r : RegSet) : (s.setRegSet d k r).pond = s.pond := rfl
@[simp] theorem State.setRegSet_inflow (s : State) (d k : Nat) (r : RegSet) : (s.setRegSet d k r).inflow = s.inflow := rfl
@[simp] theorem State.setRegSet_take (s : State) (d k : Nat) (r : RegSet) : (s.setRegSet d k r).take = s.take := rfl
@[simp] theorem State.setRegSet_media (s : State) (d k : Nat) (r : RegSet) : (s.setRegSet d k r).media = s.media := rfl
@[simp] theorem State.setRegSet_host (s : State) (d k : Nat) (r : RegSet) : (s.setRegSet d k r).host = s.host := rfl
@[simp] theorem State.setRegSet_comp (s : State) (d k : Nat) (r : RegSet) : (s.setRegSet d k r).comp = s.comp := rfl
@[simp] theorem State.setRegSet_search (s : State) (d k : Nat) (r : RegSet) : (s.setRegSet d k r).search = s.search := rfl
@[simp] theorem State.setRegSet_lake (s : State) (d k : Nat) (r : RegSet) : (s.setRegSet d k r).lake = s.lake := rfl
@[simp] theorem State.setRegSet_power (s : State) (d k : Nat) (r : RegSet) : (s.setRegSet d k r).power = s.power := rfl
@[simp] theorem State.setRegSet_mem (s : State) (d k : Nat) (r : RegSet) : (s.setRegSet d k r).mem = s.mem := rfl
@[simp] theorem State.setRegSet_poison (s : State) (d k : Nat) (r : RegSet) : (s.setRegSet d k r).poison = s.poison := rfl
@[simp] theorem State.setRegSet_out (s : State) (d k : Nat) (r : RegSet) : (s.setRegSet d k r).out = s.out := rfl
@[simp] theorem State.setRegSet_freeCtr (s : State) (d k : Nat) (r : RegSet) : (s.setRegSet d k r).freeCtr = s.freeCtr := rfl
@[simp] theorem State.setRegSet_pending (s : State) (d k : Nat) (r : RegSet) : (s.setRegSet d k r).pending = s.pending := rfl

@[simp] theorem State.setKeySlot_cfg (s : State) (d n : Nat) (k : KeySlot) : (s.setKeySlot d n k).cfg = s.cfg := rfl
@[simp] theorem State.setKeySlot_time (s : State) (d n : Nat) (k : KeySlot) : (s.setKeySlot d n k).time = s.time := rfl
@[simp] theorem State.setKeySlot_dict (s : State) (d n : Nat) (k : KeySlot) : (s.setKeySlot d n k).dict = s.dict := rfl
@[simp] theorem State.setKeySlot_fault (s : State) (d n : Nat) (k : KeySlot) : (s.setKeySlot d n k).fault = s.fault := rfl
@[simp] theorem State.setKeySlot_boot (s : State) (d n : Nat) (k : KeySlot) : (s.setKeySlot d n k).boot = s.boot := rfl
@[simp] theorem State.setKeySlot_pins (s : State) (d n : Nat) (k : KeySlot) : (s.setKeySlot d n k).pins = s.pins := rfl
@[simp] theorem State.setKeySlot_pond (s : State) (d n : Nat) (k : KeySlot) : (s.setKeySlot d n k).pond = s.pond := rfl
@[simp] theorem State.setKeySlot_inflow (s : State) (d n : Nat) (k : KeySlot) : (s.setKeySlot d n k).inflow = s.inflow := rfl
@[simp] theorem State.setKeySlot_take (s : State) (d n : Nat) (k : KeySlot) : (s.setKeySlot d n k).take = s.take := rfl
@[simp] theorem State.setKeySlot_media (s : State) (d n : Nat) (k : KeySlot) : (s.setKeySlot d n k).media = s.media := rfl
@[simp] theorem State.setKeySlot_host (s : State) (d n : Nat) (k : KeySlot) : (s.setKeySlot d n k).host = s.host := rfl
@[simp] theorem State.setKeySlot_comp (s : State) (d n : Nat) (k : KeySlot) : (s.setKeySlot d n k).comp = s.comp := rfl
@[simp] theorem State.setKeySlot_search (s : State) (d n : Nat) (k : KeySlot) : (s.setKeySlot d n k).search = s.search := rfl
@[simp] theorem State.setKeySlot_lake (s : State) (d n : Nat) (k : KeySlot) : (s.setKeySlot d n k).lake = s.lake := rfl
@[simp] theorem State.setKeySlot_power (s : State) (d n : Nat) (k : KeySlot) : (s.setKeySlot d n k).power = s.power := rfl
@[simp] theorem State.setKeySlot_mem (s : State) (d n : Nat) (k : KeySlot) : (s.setKeySlot d n k).mem = s.mem := rfl
@[simp] theorem State.setKeySlot_poison (s : State) (d n : Nat) (k : KeySlot) : (s.setKeySlot d n k).poison = s.poison := rfl
@[simp] theorem State.setKeySlot_out (s : State) (d n : Nat) (k : KeySlot) : (s.setKeySlot d n k).out = s.out := rfl
@[simp] theorem State.setKeySlot_freeCtr (s : State) (d n : Nat) (k : KeySlot) : (s.setKeySlot d n k).freeCtr = s.freeCtr := rfl
@[simp] theorem State.setKeySlot_pending (s : State) (d n : Nat) (k : KeySlot) : (s.setKeySlot d n k).pending = s.pending := rfl

@[simp] theorem State.setKeyState_cfg (s : State) (d n : Nat) (k : KeyState) : (s.setKeyState d n k).cfg = s.cfg := rfl
@[simp] theorem State.setKeyState_time (s : State) (d n : Nat) (k : KeyState) : (s.setKeyState d n k).time = s.time := rfl
@[simp] theorem State.setKeyState_dict (s : State) (d n : Nat) (k : KeyState) : (s.setKeyState d n k).dict = s.dict := rfl
@[simp] theorem State.setKeyState_fault (s : State) (d n : Nat) (k : KeyState) : (s.setKeyState d n k).fault = s.fault := rfl
@[simp] theorem State.setKeyState_boot (s : State) (d n : Nat) (k : KeyState) : (s.setKeyState d n k).boot = s.boot := rfl
@[simp] theorem State.setKeyState_pins (s : State) (d n : Nat) (k : KeyState) : (s.setKeyState d n k).pins = s.pins := rfl
@[simp] theorem State.setKeyState_pond (s : State) (d n : Nat) (k : KeyState) : (s.setKeyState d n k).pond = s.pond := rfl
@[simp] theorem State.setKeyState_inflow (s : State) (d n : Nat) (k : KeyState) : (s.setKeyState d n k).inflow = s.inflow := rfl
@[simp] theorem State.setKeyState_take (s : State) (d n : Nat) (k : KeyState) : (s.setKeyState d n k).take = s.take := rfl
@[simp] theorem State.setKeyState_media (s : State) (d n : Nat) (k : KeyState) : (s.setKeyState d n k).media = s.media := rfl
@[simp] theorem State.setKeyState_host (s : State) (d n : Nat) (k : KeyState) : (s.setKeyState d n k).host = s.host := rfl
@[simp] theorem State.setKeyState_comp (s : State) (d n : Nat) (k : KeyState) : (s.setKeyState d n k).comp = s.comp := rfl
@[simp] theorem State.setKeyState_search (s : State) (d n : Nat) (k : KeyState) : (s.setKeyState d n k).search = s.search := rfl
@[simp] theorem State.setKeyState_lake (s : State) (d n : Nat) (k : KeyState) : (s.setKeyState d n k).lake = s.lake := rfl
@[simp] theorem State.setKeyState_power (s : State) (d n : Nat) (k : KeyState) : (s.setKeyState d n k).power = s.power := rfl
@[simp] theorem State.setKeyState_mem (s : State) (d n : Nat) (k : KeyState) : (s.setKeyState d n k).mem = s.mem := rfl
@[simp] theorem State.setKeyState_poison (s : State) (d n : Nat) (k : KeyState) : (s.setKeyState d n k).poison = s.poison := rfl
@[simp] theorem State.setKeyState_out (s : State) (d n : Nat) (k : KeyState) : (s.setKeyState d n k).out = s.out := rfl
@[simp] theorem State.setKeyState_freeCtr (s : State) (d n : Nat) (k : KeyState) : (s.setKeyState d n k).freeCtr = s.freeCtr := rfl
@[simp] theorem State.setKeyState_pending (s : State) (d n : Nat) (k : KeyState) : (s.setKeyState d n k).pending = s.pending := rfl

@[simp] theorem State.setPd_cfg (s : State) (d : Nat) (p : PowerDie) : (s.setPd d p).cfg = s.cfg := rfl
@[simp] theorem State.setPd_time (s : State) (d : Nat) (p : PowerDie) : (s.setPd d p).time = s.time := rfl
@[simp] theorem State.setPd_dict (s : State) (d : Nat) (p : PowerDie) : (s.setPd d p).dict = s.dict := rfl
@[simp] theorem State.setPd_fault (s : State) (d : Nat) (p : PowerDie) : (s.setPd d p).fault = s.fault := rfl
@[simp] theorem State.setPd_boot (s : State) (d : Nat) (p : PowerDie) : (s.setPd d p).boot = s.boot := rfl
@[simp] theorem State.setPd_pins (s : State) (d : Nat) (p : PowerDie) : (s.setPd d p).pins = s.pins := rfl
@[simp] theorem State.setPd_pond (s : State) (d : Nat) (p : PowerDie) : (s.setPd d p).pond = s.pond := rfl
@[simp] theorem State.setPd_inflow (s : State) (d : Nat) (p : PowerDie) : (s.setPd d p).inflow = s.inflow := rfl
@[simp] theorem State.setPd_take (s : State) (d : Nat) (p : PowerDie) : (s.setPd d p).take = s.take := rfl
@[simp] theorem State.setPd_media (s : State) (d : Nat) (p : PowerDie) : (s.setPd d p).media = s.media := rfl
@[simp] theorem State.setPd_host (s : State) (d : Nat) (p : PowerDie) : (s.setPd d p).host = s.host := rfl
@[simp] theorem State.setPd_comp (s : State) (d : Nat) (p : PowerDie) : (s.setPd d p).comp = s.comp := rfl
@[simp] theorem State.setPd_search (s : State) (d : Nat) (p : PowerDie) : (s.setPd d p).search = s.search := rfl
@[simp] theorem State.setPd_secure (s : State) (d : Nat) (p : PowerDie) : (s.setPd d p).secure = s.secure := rfl
@[simp] theorem State.setPd_lake (s : State) (d : Nat) (p : PowerDie) : (s.setPd d p).lake = s.lake := rfl
@[simp] theorem State.setPd_mem (s : State) (d : Nat) (p : PowerDie) : (s.setPd d p).mem = s.mem := rfl
@[simp] theorem State.setPd_poison (s : State) (d : Nat) (p : PowerDie) : (s.setPd d p).poison = s.poison := rfl
@[simp] theorem State.setPd_out (s : State) (d : Nat) (p : PowerDie) : (s.setPd d p).out = s.out := rfl
@[simp] theorem State.setPd_freeCtr (s : State) (d : Nat) (p : PowerDie) : (s.setPd d p).freeCtr = s.freeCtr := rfl
@[simp] theorem State.setPd_pending (s : State) (d : Nat) (p : PowerDie) : (s.setPd d p).pending = s.pending := rfl

/-! ### What is set is read -/

@[simp] theorem State.setTask_task (s : State) (d slot : Nat) (t : Task) : (s.setTask d slot t).task d slot = some t := by
  simp [State.setTask, State.task, State.cd, State.setCd, tgetD]

@[simp] theorem State.setPool_pool (s : State) (d p : Nat) (q : Pool) : (s.setPool d p q).pool d p = some q := by
  simp [State.setPool, State.pool]

@[simp] theorem State.setPort_port (s : State) (k : Nat) (p : Port) : (s.setPort k p).port k = some p := by
  simp [State.setPort, State.port]

@[simp] theorem State.setMd_md (s : State) (d : Nat) (m : MediaDie) : (s.setMd d m).md d = m := by
  simp [State.setMd, State.md, tgetD]

end Sys2Proof.Machine
end

