-- ==== Sys2Proof/Laws/Exec.lean ====
section
/-!
SUPPORT. What each shared entry of the meanings does where its guard holds: one lemma for each, which proofs cite instead of unfolding it.
-/

set_option Elab.async false

namespace Sys2Proof.Machine

/-! ### Units of the part -/

theorem onDie_pos {s : State} {d : Nat} {f : Unit → Res} (h : s.hasDie d = true) : onDie s d f = f () := by simp [onDie, h]

theorem onDie_neg {s : State} {d : Nat} {f : Unit → Res} (h : s.hasDie d = false) : onDie s d f = .fault .absentUnit := by
  simp [onDie, h]

theorem onLane_pos {s : State} {d l : Nat} {f : Unit → Res} (h : IsLane s d l) : onLane s d l f = f () := if_pos h

theorem onSet_pos {s : State} {d k : Nat} {f : Unit → Res} (h : s.hasDie d = true) (hk : k < 2) : onSet s d k f = f () := by
  simp [onSet, onDie, h, hk]

/-! ### Instructions -/

/-- Where a core runs the operation, its row commits the act or takes its trap. -/
theorem execOp_runs {op : Op} {die core : Nat} {s : State} {c : Ctx} (h : Runs op die core s c) (f : Ctx → Act) :
    execOp op die core s f = .next (c.after (f c)) := by
  obtain ⟨hd, slot, t0, w, x, hr, hw, hx, hop, he, hb, hc, hcond, rfl⟩ := h
  subst hop
  have he' : ¬(x.op = .eret ∧ (!t0.settle.inTrap) = true) := fun h => by simp [he h.1] at h
  simp only [execOp, onDie_pos hd, hr, hw, hx, ne_eq, not_true_eq_false, if_false, Ctx.run, he', hb, hc, hcond, Bool.not_true,
    Bool.false_eq_true]
  rfl

theorem Ctx.after_done (c : Ctx) (e : Effect) : c.after (.done e) = c.commit e := rfl

theorem execOp_done {op : Op} {die core : Nat} {s : State} {c : Ctx} (h : Runs op die core s c) {f : Ctx → Act} {e : Effect}
    (he : f c = .done e) : execOp op die core s f = .next (c.commit e) := by rw [execOp_runs h, he]; rfl

theorem execOp_trap {op : Op} {die core : Nat} {s : State} {c : Ctx} (h : Runs op die core s c) {f : Ctx → Act} {k v : Nat}
    (he : f c = .trap k v) : execOp op die core s f = .next (c.after (.trap k v)) := by rw [execOp_runs h, he]

/-! ### Commands, cells and messages -/

theorem Started.fetched {s : State} {q : CmdRef} (h : Started q s) : s.fetched q = true := by
  unfold Started State.unstarted at h
  unfold State.fetched
  split at h
  · split at h <;> simp_all
  · cases h

theorem startCmd_pos {s : State} {q : CmdRef} {f : Unit → Res} (h : Started q s) : startCmd s q f = f () := by
  have h' : s.unstarted q = true := h
  simp [startCmd, onCmd, h.fetched, h']

/-- An accepted message is accepted by the receiver. -/
theorem MsgTaken.received {h : LakeHdr} {ty width : Nat} {s : State} (m : MsgTaken h ty width s) : (s.lakeReceive h ty width).1 = true := by
  have hd : ¬(h.dst ≠ s.lake.node ∧ h.dst ≠ 0x1FF) := fun x => m.dst.elim x.1 x.2
  have hl := m.level
  have h1 : ¬(h.ver ≠ 1 ∨ h.lake ≠ s.obj 0x9000 0 ∨ (h.dst ≠ s.lake.node ∧ h.dst ≠ 0x1FF) ∨ h.src = s.lake.node) := by
    rintro (x | x | x | x)
    · exact x m.ver
    · exact x m.ours
    · exact hd x
    · exact m.src x
  have h2 : ¬((!nearEpoch h.epoch s.epoch) = true ∨ (!s.seqNew h) = true ∨ (if s.lake.state = 1 then 1 else s.lake.level) < typeLevel ty width) := by
    rintro (x | x | x)
    · simp [m.near] at x
    · simp [m.fresh] at x
    · omega
  simp only [State.lakeReceive, m.lake, Bool.not_true, Bool.false_eq_true, if_false, m.tag]
  rw [if_neg h1, if_neg h2]
  simp [m.buffer]

theorem onMsg_pos {s : State} {h : LakeHdr} {ty width : Nat} {f : State → State} (m : MsgTaken h ty width s) :
    onMsg s h ty width f = .next (f (s.msgState h ty width)) := by
  simp [onMsg, onLane_pos m.lane, m.received, State.msgState]

/-- The next cell of its lane joins the lane's cells, which are taken as far as the pond gives buffers. -/
theorem recvCell_pos {type : Nat} {c : Cell} {s : State} (h : CellNext type c s) (h0 : type ≠ 0) (ht : type < 6) :
    recvCell type c s = .next ((s.cellState c).queueCell c) := by
  have h1 := h.kind
  have h2 := h.up
  have h3 := h.next
  have hq : ((s.cellArrives c.die c.lane).inSequence c.die c.lane c.lseq).1 = true := by simp [State.inSequence, h2, h3]
  simp only [recvCell, onLane_pos h.lane, h1, hq, h.fits, Bool.not_true, Bool.false_eq_true, if_false, ne_eq, not_true_eq_false]
  rw [if_neg h0, if_neg (by omega)]
  rfl

theorem control_pos {m : CtlHdr} {acked : Bool} {s : State} {act : Nat → State → State × Nat × List Nat} (h : ControlTaken m s) :
    control m acked s act =
      .next (State.controlOut (s.portKeyOf m.die m.lane) m.lane m.mseq acked (act (s.portKeyOf m.die m.lane) (s.controlFresh m))) := by
  obtain ⟨h1, h2, h3, h4, h5⟩ := h
  simp only [control, onLane_pos h1]
  rw [if_neg (by omega)]
  simp [h4, h5]

/-! ### Requests of the dictionary -/

@[simp] theorem State.heard_session (s : State) (r : DictReq) (k : Nat) : (s.heard r).session k = s.session k := by
  unfold State.heard; split <;> rfl
@[simp] theorem State.heard_time (s : State) (r : DictReq) : (s.heard r).time = s.time := by unfold State.heard; split <;> rfl
@[simp] theorem State.heard_inService (s : State) (r : DictReq) : (s.heard r).inService = s.inService := by
  unfold State.heard; split <;> rfl

theorem Admits.notDuplicate {r : DictReq} {s : State} (h : Admits r s) : (s.heard r).isDuplicate (reqKey r) r = false := by
  simp only [State.isDuplicate, State.heard_session, State.heard_time]
  by_cases hp : r.path = 0 ∨ r.path = 3
  · rcases h.fresh hp with x | x
    · simp [x]
    · simp; intro _ _; omega
  · simp [not_or.mp hp]

theorem Admits.served {r : DictReq} {s : State} (h : Admits r s) : s.pathServed r = true := by
  have hm := h.mode
  have hf := h.frame
  simp only [State.pathServed, h.up, Bool.true_and, Bool.and_eq_true, Bool.or_eq_true, decide_eq_true_eq, Bool.not_eq_true']
  exact ⟨by tauto, by tauto⟩

theorem Admits.clientFits {r : DictReq} {s : State} (h : Admits r s) : s.clientOk r = true := by
  have hc := h.client
  simp only [State.clientOk, Bool.and_eq_true, Bool.or_eq_true, decide_eq_true_eq, ne_eq]
  tauto

/-- An admitted request is executed once, in the state that serves it. -/
theorem handle_pos {r : DictReq} {cmd : Nat} {s : State} (h : Admits r s) (f : Nat → Nat → State → Option Answer × State) :
    (s.heard r).handle r cmd f = ((f (reqKey r) (s.clsOf r) (s.atWork r)).1,
      (f (reqKey r) (s.clsOf r) (s.atWork r)).2.keepAnswer r s.time.now (f (reqKey r) (s.clsOf r) (s.atWork r)).1) := by
  have h1 := h.notDuplicate
  have h2 := h.room
  simp only [reqKey] at h1
  simp only [State.handle, h1, Bool.false_eq_true, if_false, State.heard_inService, State.heard_time]
  rw [if_neg (by omega)]
  rfl

theorem onPath_pos {r : DictReq} {s : State} (h : Admits r s) (f : State → Option Answer × State) :
    onPath r s f = .next ((f (s.heard r)).2.sendAnswer r (f (s.heard r)).1) := by
  have h1 := h.path
  rw [onPath, if_neg (by omega)]
  simp [h.served, h.clientFits]

/-- An admitted request on its path: the answer is kept and sent. -/
theorem onPath_handle {r : DictReq} {cmd : Nat} {s : State} (h : Admits r s) (f : Nat → Nat → State → Option Answer × State) :
    onPath r s (fun s => s.handle r cmd f) =
      .next (s.told r (f (reqKey r) (s.clsOf r) (s.atWork r)).1 (f (reqKey r) (s.clsOf r) (s.atWork r)).2) := by
  rw [onPath_pos h, handle_pos h]
  rfl

/-! ### The state in which a request is executed -/

@[simp] theorem State.noteServed_cfg (s : State) (r : DictReq) : (s.noteServed r).cfg = s.cfg := by
  simp only [State.noteServed, State.enterService, State.highWater]
  split <;> split <;> first | rfl | (split <;> rfl)
@[simp] theorem State.atWork_cfg (s : State) (r : DictReq) : (s.atWork r).cfg = s.cfg := by
  simp only [State.atWork, State.serving, State.noteServed_cfg]
  unfold State.visit State.heard
  split <;> rfl
@[simp] theorem State.noteServed_time (s : State) (r : DictReq) : (s.noteServed r).time = s.time := by
  simp only [State.noteServed, State.enterService, State.highWater]
  split <;> split <;> first | rfl | (split <;> rfl)
@[simp] theorem State.atWork_time (s : State) (r : DictReq) : (s.atWork r).time = s.time := by
  simp only [State.atWork, State.serving, State.noteServed_time]
  unfold State.visit State.heard
  split <;> rfl
@[simp] theorem State.noteServed_fault (s : State) (r : DictReq) : (s.noteServed r).fault = s.fault := by
  simp only [State.noteServed, State.enterService, State.highWater]
  split <;> split <;> first | rfl | (split <;> rfl)
@[simp] theorem State.atWork_fault (s : State) (r : DictReq) : (s.atWork r).fault = s.fault := by
  simp only [State.atWork, State.serving, State.noteServed_fault]
  unfold State.visit State.heard
  split <;> rfl
@[simp] theorem State.noteServed_boot (s : State) (r : DictReq) : (s.noteServed r).boot = s.boot := by
  simp only [State.noteServed, State.enterService, State.highWater]
  split <;> split <;> first | rfl | (split <;> rfl)
@[simp] theorem State.atWork_boot (s : State) (r : DictReq) : (s.atWork r).boot = s.boot := by
  simp only [State.atWork, State.serving, State.noteServed_boot]
  unfold State.visit State.heard
  split <;> rfl
@[simp] theorem State.noteServed_pins (s : State) (r : DictReq) : (s.noteServed r).pins = s.pins := by
  simp only [State.noteServed, State.enterService, State.highWater]
  split <;> split <;> first | rfl | (split <;> rfl)
@[simp] theorem State.atWork_pins (s : State) (r : DictReq) : (s.atWork r).pins = s.pins := by
  simp only [State.atWork, State.serving, State.noteServed_pins]
  unfold State.visit State.heard
  split <;> rfl
@[simp] theorem State.noteServed_pond (s : State) (r : DictReq) : (s.noteServed r).pond = s.pond := by
  simp only [State.noteServed, State.enterService, State.highWater]
  split <;> split <;> first | rfl | (split <;> rfl)
@[simp] theorem State.atWork_pond (s : State) (r : DictReq) : (s.atWork r).pond = s.pond := by
  simp only [State.atWork, State.serving, State.noteServed_pond]
  unfold State.visit State.heard
  split <;> rfl
@[simp] theorem State.noteServed_inflow (s : State) (r : DictReq) : (s.noteServed r).inflow = s.inflow := by
  simp only [State.noteServed, State.enterService, State.highWater]
  split <;> split <;> first | rfl | (split <;> rfl)
@[simp] theorem State.atWork_inflow (s : State) (r : DictReq) : (s.atWork r).inflow = s.inflow := by
  simp only [State.atWork, State.serving, State.noteServed_inflow]
  unfold State.visit State.heard
  split <;> rfl
@[simp] theorem State.noteServed_take (s : State) (r : DictReq) : (s.noteServed r).take = s.take := by
  simp only [State.noteServed, State.enterService, State.highWater]
  split <;> split <;> first | rfl | (split <;> rfl)
@[simp] theorem State.atWork_take (s : State) (r : DictReq) : (s.atWork r).take = s.take := by
  simp only [State.atWork, State.serving, State.noteServed_take]
  unfold State.visit State.heard
  split <;> rfl
@[simp] theorem State.noteServed_media (s : State) (r : DictReq) : (s.noteServed r).media = s.media := by
  simp only [State.noteServed, State.enterService, State.highWater]
  split <;> split <;> first | rfl | (split <;> rfl)
@[simp] theorem State.atWork_media (s : State) (r : DictReq) : (s.atWork r).media = s.media := by
  simp only [State.atWork, State.serving, State.noteServed_media]
  unfold State.visit State.heard
  split <;> rfl
@[simp] theorem State.noteServed_host (s : State) (r : DictReq) : (s.noteServed r).host = s.host := by
  simp only [State.noteServed, State.enterService, State.highWater]
  split <;> split <;> first | rfl | (split <;> rfl)
@[simp] theorem State.atWork_host (s : State) (r : DictReq) : (s.atWork r).host = s.host := by
  simp only [State.atWork, State.serving, State.noteServed_host]
  unfold State.visit State.heard
  split <;> rfl
@[simp] theorem State.noteServed_comp (s : State) (r : DictReq) : (s.noteServed r).comp = s.comp := by
  simp only [State.noteServed, State.enterService, State.highWater]
  split <;> split <;> first | rfl | (split <;> rfl)
@[simp] theorem State.atWork_comp (s : State) (r : DictReq) : (s.atWork r).comp = s.comp := by
  simp only [State.atWork, State.serving, State.noteServed_comp]
  unfold State.visit State.heard
  split <;> rfl
@[simp] theorem State.noteServed_search (s : State) (r : DictReq) : (s.noteServed r).search = s.search := by
  simp only [State.noteServed, State.enterService, State.highWater]
  split <;> split <;> first | rfl | (split <;> rfl)
@[simp] theorem State.atWork_search (s : State) (r : DictReq) : (s.atWork r).search = s.search := by
  simp only [State.atWork, State.serving, State.noteServed_search]
  unfold State.visit State.heard
  split <;> rfl
@[simp] theorem State.noteServed_secure (s : State) (r : DictReq) : (s.noteServed r).secure = s.secure := by
  simp only [State.noteServed, State.enterService, State.highWater]
  split <;> split <;> first | rfl | (split <;> rfl)
@[simp] theorem State.atWork_secure (s : State) (r : DictReq) : (s.atWork r).secure = s.secure := by
  simp only [State.atWork, State.serving, State.noteServed_secure]
  unfold State.visit State.heard
  split <;> rfl
@[simp] theorem State.noteServed_lake (s : State) (r : DictReq) : (s.noteServed r).lake = s.lake := by
  simp only [State.noteServed, State.enterService, State.highWater]
  split <;> split <;> first | rfl | (split <;> rfl)
@[simp] theorem State.atWork_lake (s : State) (r : DictReq) : (s.atWork r).lake = s.lake := by
  simp only [State.atWork, State.serving, State.noteServed_lake]
  unfold State.visit State.heard
  split <;> rfl
@[simp] theorem State.noteServed_power (s : State) (r : DictReq) : (s.noteServed r).power = s.power := by
  simp only [State.noteServed, State.enterService, State.highWater]
  split <;> split <;> first | rfl | (split <;> rfl)
@[simp] theorem State.atWork_power (s : State) (r : DictReq) : (s.atWork r).power = s.power := by
  simp only [State.atWork, State.serving, State.noteServed_power]
  unfold State.visit State.heard
  split <;> rfl
@[simp] theorem State.noteServed_mem (s : State) (r : DictReq) : (s.noteServed r).mem = s.mem := by
  simp only [State.noteServed, State.enterService, State.highWater]
  split <;> split <;> first | rfl | (split <;> rfl)
@[simp] theorem State.atWork_mem (s : State) (r : DictReq) : (s.atWork r).mem = s.mem := by
  simp only [State.atWork, State.serving, State.noteServed_mem]
  unfold State.visit State.heard
  split <;> rfl
@[simp] theorem State.noteServed_pending (s : State) (r : DictReq) : (s.noteServed r).pending = s.pending := by
  simp only [State.noteServed, State.enterService, State.highWater]
  split <;> split <;> first | rfl | (split <;> rfl)
@[simp] theorem State.atWork_pending (s : State) (r : DictReq) : (s.atWork r).pending = s.pending := by
  simp only [State.atWork, State.serving, State.noteServed_pending]
  unfold State.visit State.heard
  split <;> rfl
@[simp] theorem State.atWork_epoch (s : State) (r : DictReq) : (s.atWork r).epoch = s.epoch := by
  simp [State.epoch, State.clock]

/-! ### The checks of R601 -/

theorem notServed_none {s : State} {idx : Nat} {write : Bool} (h : Served s idx write) : s.notServed idx write = none := by
  unfold Served at h
  unfold State.notServed
  split at h
  · rename_i hr; simp [hr, h.1, h.2]
  · rename_i hr
    simp only [hr, Bool.false_eq_true, if_false]
    rw [if_neg]
    simp; omega

/-- The checks of R601 pass a read that may be made. -/
theorem judge_read {s : State} {cls idx sub : Nat} {ty : ObjTy} {inTxn : Bool} (h : MayRead s cls idx sub ty) :
    s.judge cls idx sub false inTxn = 0 := by
  obtain ⟨acc, he, hw⟩ := h.entry
  simp [State.judge, notServed_none h.served, h.object, he, h.right, hw, h.secret]

/-- The checks of R601 pass a write that may be made. -/
theorem judge_write {s : State} {cls idx sub : Nat} {ty : ObjTy} {acc : Acc} {inTxn : Bool} (h : MayWrite s cls idx sub ty acc inTxn) :
    s.judge cls idx sub true inTxn = 0 := by
  have ht := h.txn
  simp [State.judge, notServed_none h.served, h.object, h.entry, h.right, h.code, h.counts, h.free]
  exact ht

end Sys2Proof.Machine
end

