-- ==== Sys2Proof/Laws/Memory.lean ====
section
/-!
SUPPORT. Every memory operation keeps the canonical form: addresses strictly rising, no entry 0.
-/

set_option Elab.async false

namespace Sys2Proof.Machine

/-- Every address of a list of cells is above a bound. -/
def cellsAbove (a : Nat) (m : List Host.Cell) : Prop := ∀ c ∈ m, a < c.1

/-- The canonical form, said of a first cell and the rest. -/
theorem wf_cons_iff (c : Host.Cell) (m : List Host.Cell) :
    Memory.wf (c :: m) = true ↔ c.2 ≠ 0 ∧ cellsAbove c.1 m ∧ Memory.wf m = true := by
  induction m generalizing c with
  | nil => simp [Memory.wf, cellsAbove]
  | cons d t ih =>
    have h := ih d
    simp only [Memory.wf, Bool.and_eq_true, decide_eq_true_eq, cellsAbove, List.mem_cons, forall_eq_or_imp] at h ⊢
    constructor
    · rintro ⟨⟨h1, h2⟩, h3⟩
      exact ⟨h1, ⟨h2, fun x hx => lt_trans h2 ((h.1 h3).2.1 x hx)⟩, h3⟩
    · rintro ⟨h1, ⟨h2, -⟩, h3⟩
      exact ⟨⟨h1, h2⟩, h3⟩

theorem memSet_above {m : List Host.Cell} {a k : Nat} {b : BitVec 8} (h : cellsAbove k m) (ha : k < a) : cellsAbove k (memSet m a b) := by
  induction m with
  | nil =>
    intro c hc
    simp only [memSet] at hc
    split at hc <;> simp_all
  | cons d t ih =>
    have hd : k < d.1 := h d (by simp)
    have ht : cellsAbove k t := fun c hc => h c (by simp [hc])
    intro c hc
    simp only [memSet] at hc
    split at hc
    · split at hc
      · exact h c hc
      · rcases List.mem_cons.1 hc with rfl | hc
        · exact ha
        · exact h c hc
    · split at hc
      · split at hc
        · exact ht c hc
        · rcases List.mem_cons.1 hc with rfl | hc
          · exact ha
          · exact ht c hc
      · rcases List.mem_cons.1 hc with rfl | hc
        · exact hd
        · exact ih ht c hc

/-- Writing one byte keeps the canonical form. -/
theorem memSet_wf {m : List Host.Cell} (a : Nat) (b : BitVec 8) (h : Memory.wf m = true) : Memory.wf (memSet m a b) = true := by
  induction m with
  | nil => simp only [memSet]; split <;> simp_all [Memory.wf]
  | cons d t ih =>
    obtain ⟨d0, dt, hw⟩ := (wf_cons_iff d t).1 h
    simp only [memSet]
    split
    · split
      · exact h
      · rename_i had hb
        refine (wf_cons_iff _ _).2 ⟨hb, ?_, h⟩
        intro c hc
        rcases List.mem_cons.1 hc with rfl | hc
        · exact had
        · exact lt_trans had (dt c hc)
    · split
      · split
        · exact hw
        · rename_i _ hae hb
          exact (wf_cons_iff _ _).2 ⟨hb, by simpa [hae] using dt, hw⟩
      · exact (wf_cons_iff _ _).2 ⟨d0, memSet_above dt (by omega), ih hw⟩

/-- Writing bytes keeps the canonical form. -/
@[simp] theorem memWrite_wf {m : List Host.Cell} (a : Nat) (b : List Nat) (h : Memory.wf m = true) : Memory.wf (memWrite m a b) = true := by
  induction b generalizing m a with
  | nil => exact h
  | cons x t ih => exact ih (a + 1) (memSet_wf a _ h)

/-- Leaving cells out keeps the canonical form. -/
@[simp] theorem filter_wf {m : List Host.Cell} (p : Host.Cell → Bool) (h : Memory.wf m = true) : Memory.wf (m.filter p) = true := by
  induction m with
  | nil => rfl
  | cons d t ih =>
    obtain ⟨d0, dt, hw⟩ := (wf_cons_iff d t).1 h
    simp only [List.filter_cons]
    split
    · exact (wf_cons_iff _ _).2 ⟨d0, fun c hc => dt c (List.mem_filter.1 hc).1, ih hw⟩
    · exact ih hw

/-- Clearing a range keeps the canonical form. -/
@[simp] theorem memClear_wf {m : List Host.Cell} (a n : Nat) (h : Memory.wf m = true) : Memory.wf (memClear m a n) = true :=
  filter_wf _ h

end Sys2Proof.Machine
end

