-- ==== Sys2Proof/Laws/Kept.lean ====
section
/-!
SUPPORT. What a command leaves alone: `Kept w a s` says that the state `s`, reached from `a`, has its part and its waiting commands,
and with `w` false its very memory, with `w` true a memory whose canonical form is kept.
-/

set_option Elab.async false

namespace Sys2Proof.Machine

/-- The part and the queue are those of `a`; memory too, or at least its canonical form where `w` is true. -/
structure Kept (w : Bool) (a s : State) : Prop where
  part : s.cfg = a.cfg
  queue : s.pending = a.pending
  cells : w = false → s.mem = a.mem
  canon : Memory.wf a.mem = true → Memory.wf s.mem = true

/-- The same of a meaning that answers a next state. -/
def Res.kept (w : Bool) (a : State) (r : Res) : Prop := ∀ s, r = .next s → Kept w a s

/-- The same of an act of an instruction. -/
def Act.kept (w : Bool) (a : State) : Act → Prop
  | .done e => Kept w a e.after
  | .trap _ _ => True

variable {w : Bool} {a s t : State} {α β : Type}

theorem Kept.rfl : Kept w a a := ⟨Eq.refl _, Eq.refl _, fun _ => Eq.refl _, id⟩

/-- An update of fields that are none of these three. -/
theorem Kept.upd (h : Kept w a s) (h1 : t.cfg = s.cfg := by rfl) (h2 : t.pending = s.pending := by rfl) (h3 : t.mem = s.mem := by rfl) :
    Kept w a t := ⟨h1.trans h.1, h2.trans h.2, fun hw => h3.trans (h.3 hw), fun hw => h3 ▸ h.4 hw⟩

/-- A state built from another one's part, queue and memory. -/
theorem Kept.put {t d f b p o i k m h c e x l y q u r} (z : Kept w a s) :
    Kept w a ⟨s.cfg, t, d, f, b, p, o, i, k, m, h, c, e, x, l, y, s.mem, q, u, r, s.pending⟩ := Kept.upd z

/-- An update of memory that keeps its canonical form. -/
theorem Kept.wr {m : State} (h : Kept true a s) (hm : Kept true a m) (h3 : Memory.wf m.mem = true → Memory.wf t.mem = true)
    (h1 : t.cfg = s.cfg := by rfl) (h2 : t.pending = s.pending := by rfl) : Kept true a t :=
  ⟨h1.trans h.1, h2.trans h.2, (fun hw => nomatch hw), fun hw => h3 (hm.4 hw)⟩

theorem Kept.fst {x : α} (h : Kept w a s) : Kept w a (s, x).1 := h
theorem Kept.snd {x : α} (h : Kept w a s) : Kept w a (x, s).2 := h

theorem Kept.ite {p : Prop} [Decidable p] (h1 : Kept w a s) (h2 : Kept w a t) : Kept w a (if p then s else t) := by
  split <;> assumption

theorem Kept.ite1 {p : Prop} [Decidable p] {x y : State × α} (h1 : Kept w a x.1) (h2 : Kept w a y.1) : Kept w a (if p then x else y).1 := by
  split <;> assumption
theorem Kept.ite2 {p : Prop} [Decidable p] {x y : α × State} (h1 : Kept w a x.2) (h2 : Kept w a y.2) : Kept w a (if p then x else y).2 := by
  split <;> assumption
theorem Kept.ite22 {p : Prop} [Decidable p] {x y : α × β × State} (h1 : Kept w a x.2.2) (h2 : Kept w a y.2.2) :
    Kept w a (if p then x else y).2.2 := by split <;> assumption
theorem Kept.ite222 {γ : Type} {p : Prop} [Decidable p] {x y : α × β × γ × State} (h1 : Kept w a x.2.2.2) (h2 : Kept w a y.2.2.2) :
    Kept w a (if p then x else y).2.2.2 := by split <;> assumption
theorem Act.kept_ite {p : Prop} [Decidable p] {x y : Act} (h1 : Act.kept w a x) (h2 : Act.kept w a y) : Act.kept w a (if p then x else y) := by
  split <;> assumption
theorem Res.kept_ite {p : Prop} [Decidable p] {x y : Res} (h1 : Res.kept w a x) (h2 : Res.kept w a y) : Res.kept w a (if p then x else y) := by
  split <;> assumption

theorem Kept.foldl {f : State → α → State} {l : List α} (h : Kept w a s) (hf : ∀ s x, Kept w a s → Kept w a (f s x)) :
    Kept w a (l.foldl f s) := by
  induction l generalizing s with
  | nil => exact h
  | cons x l ih => exact ih (hf s x h)

theorem Kept.foldl1 {f : State × β → α → State × β} {l : List α} {p : State × β} (h : Kept w a p.1)
    (hf : ∀ p x, Kept w a p.1 → Kept w a (f p x).1) : Kept w a (l.foldl f p).1 := by
  induction l generalizing p with
  | nil => exact h
  | cons x l ih => exact ih (hf p x h)

theorem Kept.foldl2 {f : β × State → α → β × State} {l : List α} {p : β × State} (h : Kept w a p.2)
    (hf : ∀ p x, Kept w a p.2 → Kept w a (f p x).2) : Kept w a (l.foldl f p).2 := by
  induction l generalizing p with
  | nil => exact h
  | cons x l ih => exact ih (hf p x h)

theorem Kept.foldl222 {γ δ ε : Type} {f : γ × δ × ε × State → α → γ × δ × ε × State} {l : List α} {p : γ × δ × ε × State}
    (h : Kept w a p.2.2.2) (hf : ∀ p x, Kept w a p.2.2.2 → Kept w a (f p x).2.2.2) : Kept w a (l.foldl f p).2.2.2 := by
  induction l generalizing p with
  | nil => exact h
  | cons x l ih => exact ih (hf p x h)

theorem Kept.foldl22 {γ δ : Type} {f : γ × δ × State → α → γ × δ × State} {l : List α} {p : γ × δ × State}
    (h : Kept w a p.2.2) (hf : ∀ p x, Kept w a p.2.2 → Kept w a (f p x).2.2) : Kept w a (l.foldl f p).2.2 := by
  induction l generalizing p with
  | nil => exact h
  | cons x l ih => exact ih (hf p x h)

theorem Kept.foldlO {f : State → α → Option State} {l : List α} {o : Option State} (h : ∀ x, o = some x → Kept w a x)
    (hf : ∀ s u x, Kept w a s → f s u = some x → Kept w a x) :
    ∀ x, l.foldl (fun b u => b.bind fun t => f t u) o = some x → Kept w a x := by
  induction l generalizing o with
  | nil => exact h
  | cons u l ih =>
    refine ih fun x hx => ?_
    obtain ⟨t, ht, hx⟩ := Option.bind_eq_some_iff.mp hx
    exact hf t u x (h t ht) hx

theorem Kept.getD {o : Option State} (h : ∀ t, o = some t → Kept w a t) (hs : Kept w a s) : Kept w a (o.getD s) := by
  cases o with
  | none => exact hs
  | some t => exact h t (Eq.refl _)

theorem Kept.elim {o : Option α} {f : α → State} (h : Kept w a s) (hf : ∀ x, Kept w a (f x)) : Kept w a (o.elim s f) := by
  cases o with
  | none => exact h
  | some x => exact hf x

theorem Kept.eq1 {p q : State × α} (e : p = q) (h : Kept w a p.1) : Kept w a q.1 := e ▸ h
theorem Kept.eq2 {p q : α × State} (e : p = q) (h : Kept w a p.2) : Kept w a q.2 := e ▸ h
theorem Kept.eq22 {p q : α × β × State} (e : p = q) (h : Kept w a p.2.2) : Kept w a q.2.2 := e ▸ h
theorem Kept.eq222 {γ : Type} {p q : α × β × γ × State} (e : p = q) (h : Kept w a p.2.2.2) : Kept w a q.2.2.2 := e ▸ h

theorem Act.kept_done {e : Effect} (h : Kept w a e.after) : Act.kept w a (.done e) := h
theorem Act.kept_trap {c v : Nat} : Act.kept w a (.trap c v) := trivial

theorem Res.kept_next (h : Kept w a s) : Res.kept w a (.next s) := fun t ht => by cases ht; exact h
theorem Res.kept_fault {r : Fault} : Res.kept w a (.fault r) := fun t ht => by cases ht
theorem Res.kept_refused {r : Refusal} : Res.kept w a (.refused r) := fun t ht => by cases ht

end Sys2Proof.Machine
end

