-- ==== Sys2Proof/Laws/KeptCore.lean ====
section
/-!
SUPPORT. What each operation and row leaves alone (`Kept`): shared operations, ponds, time and media. One lemma for each, composed from those of the operations it calls.
-/

set_option Elab.async false

namespace Sys2Proof.Machine

/-! ### State -/

/-! ### Ops -/

theorem onDie_kept {w : Bool} {a : State} {y1 y2 y3} (h1 : Kept w a y1) (h2 : (∀ z0, Res.kept w a (y3 z0))) :
    Res.kept w a (onDie y1 y2 y3) := by
  unfold onDie
  refine Res.kept_ite ?_ ?_
  · refine h2 _
  · exact Res.kept_fault

theorem State.modCtrl_kept {w : Bool} {a : State} {y1 y2 y3} (h1 : Kept w a y1) :
    Kept w a (State.modCtrl y1 y2 y3) := by
  unfold State.modCtrl
  exact Kept.put h1

theorem State.setObj_kept {w : Bool} {a : State} {y1 y2 y3 y4} (h1 : Kept w a y1) :
    Kept w a (State.setObj y1 y2 y3 y4) := by
  unfold State.setObj
  exact Kept.put h1

theorem State.addObj_kept {w : Bool} {a : State} {y1 y2 y3 y4} (h1 : Kept w a y1) :
    Kept w a (State.addObj y1 y2 y3 y4) := by
  unfold State.addObj
  exact State.setObj_kept h1

theorem State.bump_kept {w : Bool} {a : State} {y1 y2 y3} (h1 : Kept w a y1) :
    Kept w a (State.bump y1 y2 y3) := by
  unfold State.bump
  exact State.addObj_kept h1

theorem State.emit_kept {w : Bool} {a : State} {y1 y2} (h1 : Kept w a y1) :
    Kept w a (State.emit y1 y2) := by
  unfold State.emit
  exact Kept.put h1

theorem State.sendMsix_kept {w : Bool} {a : State} {y1 y2 y3} (h1 : Kept w a y1) :
    Kept w a (State.sendMsix y1 y2 y3) := by
  unfold State.sendMsix
  split
  · exact h1
  · refine Kept.ite ?_ ?_
    · exact h1
    · refine Kept.ite ?_ ?_
      · exact State.modCtrl_kept h1
      · exact State.bump_kept (State.emit_kept h1)

theorem State.releaseInterrupts_kept {w : Bool} {a : State} {y1} (h1 : Kept w a y1) :
    Kept w a (State.releaseInterrupts y1) := by
  unfold State.releaseInterrupts
  refine Kept.foldl ?_ (fun p1 x1 h1 => ?_)
  · exact h1
  · extract_lets -merge -useContext +onlyGivenNames -underBinder v2
    refine Kept.foldl ?_ (fun p3 x3 h3 => ?_)
    · exact h1
    · exact State.sendMsix_kept (State.modCtrl_kept h3)

theorem State.useFree_kept {w : Bool} {a : State} {y1} (h1 : Kept w a y1) :
    Kept w a (State.useFree y1) := by
  unfold State.useFree
  exact Kept.put h1

theorem State.countEvent_kept {w : Bool} {a : State} {y1 y2} (h1 : Kept w a y1) :
    Kept w a (State.countEvent y1 y2) := by
  unfold State.countEvent
  extract_lets -merge -useContext +onlyGivenNames -underBinder v1 v2 v3
  have k4 : Kept w a v3 := Kept.put h1
  extract_lets -merge -useContext +onlyGivenNames -underBinder v5
  have k6 : Kept w a v5 := State.bump_kept k4
  refine Kept.ite ?_ ?_
  · extract_lets -merge -useContext +onlyGivenNames -underBinder v7
    exact State.setObj_kept (State.setObj_kept (State.bump_kept k6))
  · refine Kept.ite ?_ ?_
    · exact State.bump_kept k6
    · exact k6

theorem State.highWater_kept {w : Bool} {a : State} {y1 y2 y3 y4} (h1 : Kept w a y1) :
    Kept w a (State.highWater y1 y2 y3 y4) := by
  unfold State.highWater
  refine Kept.ite ?_ ?_
  · exact State.setObj_kept h1
  · exact h1

theorem State.logEvent_kept {w : Bool} {a : State} {y1 y2} (h1 : Kept w a y1) :
    Kept w a (State.logEvent y1 y2) := by
  unfold State.logEvent
  extract_lets -merge -useContext +onlyGivenNames -underBinder v1 v2 v3 v4 v5
  have k6 : Kept w a v5 := Kept.put h1
  refine Kept.ite ?_ ?_
  · extract_lets -merge -useContext +onlyGivenNames -underBinder v7
    exact State.bump_kept (Kept.put k6)
  · exact k6

theorem State.msixRoute_kept {w : Bool} {a : State} {y1 y2} (h1 : Kept w a y1) :
    Kept w a (State.msixRoute y1 y2) := by
  unfold State.msixRoute
  refine Kept.ite ?_ ?_
  · exact h1
  · exact State.sendMsix_kept (Kept.put h1)

theorem State.touchHost_kept {w : Bool} {a : State} {y1 y2 y3} (h1 : Kept w a y1) :
    Kept w a (State.touchHost y1 y2 y3) := by
  unfold State.touchHost
  split
  · exact h1
  · refine Kept.ite ?_ ?_
    · exact h1
    · extract_lets -merge -useContext +onlyGivenNames -underBinder v1 v2 v3
      exact Kept.put h1

theorem State.signalVector_kept {w : Bool} {a : State} {y1 y2 y3 y4} (h1 : Kept w a y1) :
    Kept w a (State.signalVector y1 y2 y3 y4) := by
  unfold State.signalVector
  split
  · exact h1
  · extract_lets -merge -useContext +onlyGivenNames -underBinder v1
    refine Kept.ite ?_ ?_
    · exact State.sendMsix_kept h1
    · extract_lets -merge -useContext +onlyGivenNames -underBinder v2
      refine Kept.ite ?_ ?_
      · exact State.sendMsix_kept (State.modCtrl_kept h1)
      · exact State.modCtrl_kept h1

theorem State.postCqe_kept {w : Bool} {a : State} {y1 y2 y3} (h1 : Kept w a y1) :
    Kept w a (State.postCqe y1 y2 y3) := by
  unfold State.postCqe
  split
  · exact h1
  · extract_lets -merge -useContext +onlyGivenNames -underBinder v1
    split
    · exact h1
    · refine Kept.ite ?_ ?_
      · extract_lets -merge -useContext +onlyGivenNames -underBinder v2 v3 v4
        have k5 : Kept w a v4 := State.touchHost_kept h1
        extract_lets -merge -useContext +onlyGivenNames -underBinder v6
        have k7 : Kept w a v6 := State.modCtrl_kept k5
        extract_lets -merge -useContext +onlyGivenNames -underBinder v8
        have k9 : Kept w a v8 := State.emit_kept k7
        extract_lets -merge -useContext +onlyGivenNames -underBinder v10
        have k11 : Kept w a v10 := by
          refine Kept.ite ?_ ?_
          · exact k9
          · exact State.bump_kept k9
        refine Kept.ite ?_ ?_
        · exact State.signalVector_kept k11
        · exact k11
      · exact State.modCtrl_kept h1

theorem State.asyncEvent_kept {w : Bool} {a : State} {y1 y2 y3 y4 y5} (h1 : Kept w a y1) :
    Kept w a (State.asyncEvent y1 y2 y3 y4 y5) := by
  unfold State.asyncEvent
  split
  · exact h1
  · refine Kept.ite ?_ ?_
    · exact h1
    · extract_lets -merge -useContext +onlyGivenNames -underBinder v1
      split
      · exact State.modCtrl_kept h1
      · extract_lets -merge -useContext +onlyGivenNames -underBinder v2
        have k3 : Kept w a v2 := State.modCtrl_kept h1
        exact State.postCqe_kept k3

theorem State.setCan_kept {w : Bool} {a : State} {y1 y2 y3} (h1 : Kept w a y1) :
    Kept w a (State.setCan y1 y2 y3) := by
  unfold State.setCan
  exact Kept.put h1

theorem State.emitCanOn_kept {w : Bool} {a : State} {y1 y2 y3 y4} (h1 : Kept w a y1) :
    Kept w a (State.emitCanOn y1 y2 y3 y4) := by
  unfold State.emitCanOn
  exact State.emit_kept h1

theorem State.emitCan_kept {w : Bool} {a : State} {y1 y2 y3} (h1 : Kept w a y1) :
    Kept w a (State.emitCan y1 y2 y3) := by
  unfold State.emitCan
  refine Kept.foldl ?_ (fun p1 x1 h1 => ?_)
  · exact h1
  · exact State.emitCanOn_kept h1

theorem State.canRoute_kept {w : Bool} {a : State} {y1 y2} (h1 : Kept w a y1) :
    Kept w a (State.canRoute y1 y2) := by
  unfold State.canRoute
  extract_lets -merge -useContext +onlyGivenNames -underBinder v1
  split
  · refine Kept.ite ?_ ?_
    · exact State.setCan_kept h1
    · exact State.emitCan_kept (State.setCan_kept h1)
  · exact State.emitCan_kept (State.setCan_kept h1)

theorem State.recordInTakes_kept {w : Bool} {a : State} {y1 y2} (h1 : Kept w a y1) :
    Kept w a (State.recordInTakes y1 y2) := by
  unfold State.recordInTakes
  exact Kept.put h1

theorem State.driveFaultN_kept {w : Bool} {a : State} {y1} (h1 : Kept w a y1) :
    Kept w a (State.driveFaultN y1) := by
  unfold State.driveFaultN
  extract_lets -merge -useContext +onlyGivenNames -underBinder v1
  refine Kept.ite ?_ ?_
  · exact State.setObj_kept h1
  · exact State.emit_kept (State.setObj_kept (State.setObj_kept h1))

theorem State.deliverVia_kept {w : Bool} {a : State} {y1 y2 y3 y4} (h1 : (∀ z0 z1, Kept w a z0 → Kept w a (y1 z0 z1))) (h2 : Kept w a y2) :
    Kept w a (State.deliverVia y1 y2 y3 y4) := by
  unfold State.deliverVia
  extract_lets -merge -useContext +onlyGivenNames -underBinder v1
  have k2 : Kept w a v1 := State.logEvent_kept h2
  extract_lets -merge -useContext +onlyGivenNames -underBinder v3
  have k4 : Kept w a v3 := by
    refine Kept.ite ?_ ?_
    · refine Kept.foldl ?_ (fun p5 x5 h5 => ?_)
      · exact k2
      · exact State.msixRoute_kept h5
    · exact k2
  extract_lets -merge -useContext +onlyGivenNames -underBinder v6
  have k7 : Kept w a v6 := by
    refine Kept.ite ?_ ?_
    · refine Kept.foldl ?_ (fun p8 x8 h8 => ?_)
      · exact k4
      · exact State.asyncEvent_kept h8
    · exact k4
  extract_lets -merge -useContext +onlyGivenNames -underBinder v9
  have k10 : Kept w a v9 := by
    refine Kept.ite ?_ ?_
    · exact State.canRoute_kept k7
    · exact k7
  extract_lets -merge -useContext +onlyGivenNames -underBinder v11
  have k12 : Kept w a v11 := by
    refine Kept.ite ?_ ?_
    · exact h1 _ _ k10
    · exact k10
  extract_lets -merge -useContext +onlyGivenNames -underBinder v13 v14
  have k15 : Kept w a v14 := by
    refine Kept.ite ?_ ?_
    · exact State.recordInTakes_kept k12
    · exact k12
  exact State.driveFaultN_kept k15

theorem State.raiseOneVia_kept {w : Bool} {a : State} {y1 y2 y3 y4 y5 y6} (h1 : (∀ z0 z1, Kept w a z0 → Kept w a (y1 z0 z1))) (h2 : Kept w a y2) :
    Kept w a (State.raiseOneVia y1 y2 y3 y4 y5 y6) := by
  unfold State.raiseOneVia
  extract_lets -merge -useContext +onlyGivenNames -underBinder v1 v2
  have k3 : Kept w a v2 := by
    refine Kept.ite ?_ ?_
    · exact h2
    · exact State.useFree_kept h2
  extract_lets -merge -useContext +onlyGivenNames -underBinder v4
  have k5 : Kept w a v4 := State.countEvent_kept k3
  extract_lets -merge -useContext +onlyGivenNames -underBinder v6
  have k7 : Kept w a v6 := by
    refine Kept.ite ?_ ?_
    · exact State.setObj_kept k5
    · exact k5
  refine Kept.ite ?_ ?_
  · extract_lets -merge -useContext +onlyGivenNames -underBinder v8 v9 v10
    have k11 : Kept w a v10 := Kept.put k7
    extract_lets -merge -useContext +onlyGivenNames -underBinder v12
    exact State.highWater_kept (State.setObj_kept k11)
  · refine State.deliverVia_kept ?_ ?_
    · intro q13 q14 q15
      exact h1 _ _ q15
    · exact k7

theorem State.raiseVia_kept {w : Bool} {a : State} {y1 y2 y3 y4 y5 y6} (h1 : (∀ z0 z1, Kept w a z0 → Kept w a (y1 z0 z1))) (h2 : Kept w a y2) :
    Kept w a (State.raiseVia y1 y2 y3 y4 y5 y6) := by
  unfold State.raiseVia
  extract_lets -merge -useContext +onlyGivenNames -underBinder v1
  have k2 : Kept w a v1 := by
    refine State.raiseOneVia_kept ?_ ?_
    · intro q3 q4 q5
      exact h1 _ _ q5
    · exact h2
  extract_lets -merge -useContext +onlyGivenNames -underBinder v6
  refine Kept.ite ?_ ?_
  · refine State.raiseOneVia_kept ?_ ?_
    · intro q7 q8 q9
      exact h1 _ _ q9
    · exact Kept.put k2
  · exact k2

theorem State.setKeySlot_kept {w : Bool} {a : State} {y1 y2 y3 y4} (h1 : Kept w a y1) :
    Kept w a (State.setKeySlot y1 y2 y3 y4) := by
  unfold State.setKeySlot
  exact Kept.put h1

theorem State.countIv_kept {w : Bool} {a : State} {y1 y2 y3 y4} (h1 : Kept w a y1) :
    Kept w a (State.countIv y1 y2 y3 y4) := by
  unfold State.countIv
  refine Kept.ite ?_ ?_
  · extract_lets -merge -useContext +onlyGivenNames -underBinder v1
    have k2 : Kept w a v1 := State.bump_kept (State.setKeySlot_kept h1)
    refine State.raiseVia_kept ?_ ?_
    · intro q3 q4 q5
      exact q5
    · exact k2
  · exact State.setKeySlot_kept h1

theorem State.lakeOut_kept {w : Bool} {a : State} {y1 y2} (h1 : Kept w a y1) :
    Kept w a (State.lakeOut y1 y2) := by
  unfold State.lakeOut
  extract_lets -merge -useContext +onlyGivenNames -underBinder v1 v2
  split
  · refine Kept.ite ?_ ?_
    · exact h1
    · refine Kept.ite ?_ ?_
      · exact Kept.put h1
      · extract_lets -merge -useContext +onlyGivenNames -underBinder v3
        exact State.countIv_kept (State.emit_kept h1)
  · exact h1

theorem State.lakeEmit_kept {w : Bool} {a : State} {y1 y2 y3 y4 y5} (h1 : Kept w a y1) :
    Kept w a (State.lakeEmit y1 y2 y3 y4 y5) := by
  unfold State.lakeEmit
  extract_lets -merge -useContext +onlyGivenNames -underBinder v1 v2 v3 v4 v5
  have k6 : Kept w a v5 := Kept.put h1
  refine Kept.ite ?_ ?_
  · exact k6
  · refine Kept.foldl ?_ (fun p7 x7 h7 => ?_)
    · exact State.bump_kept k6
    · exact State.lakeOut_kept h7

theorem State.lakeRoute_kept {w : Bool} {a : State} {y1 y2} (h1 : Kept w a y1) :
    Kept w a (State.lakeRoute y1 y2) := by
  unfold State.lakeRoute
  refine Kept.ite ?_ ?_
  · exact h1
  · refine Kept.foldl ?_ (fun p1 x1 h1 => ?_)
    · exact h1
    · exact State.lakeEmit_kept h1

theorem State.raiseTo_kept {w : Bool} {a : State} {y1 y2 y3 y4 y5} (h1 : Kept w a y1) :
    Kept w a (State.raiseTo y1 y2 y3 y4 y5) := by
  unfold State.raiseTo
  refine State.raiseVia_kept ?_ ?_
  · intro q1 q2 q3
    exact State.lakeRoute_kept q3
  · exact h1

theorem State.raise_kept {w : Bool} {a : State} {y1 y2 y3} (h1 : Kept w a y1) :
    Kept w a (State.raise y1 y2 y3) := by
  unfold State.raise
  exact State.raiseTo_kept h1

theorem State.raiseOnce_kept {w : Bool} {a : State} {y1 y2 y3 y4} (h1 : Kept w a y1) :
    Kept w a (State.raiseOnce y1 y2 y3 y4) := by
  unfold State.raiseOnce
  refine Kept.ite ?_ ?_
  · exact State.countEvent_kept h1
  · exact State.raise_kept (Kept.put h1)

theorem State.raiseFn_kept {w : Bool} {a : State} {y1 y2 y3 y4} (h1 : Kept w a y1) :
    Kept w a (State.raiseFn y1 y2 y3 y4) := by
  unfold State.raiseFn
  exact State.raiseTo_kept h1

theorem State.confine_kept {w : Bool} {a : State} {y1 y2} (h1 : Kept w a y1) :
    Kept w a (State.confine y1 y2) := by
  unfold State.confine
  exact State.raiseFn_kept (State.bump_kept h1)

theorem State.emitAll_kept {w : Bool} {a : State} {y1 y2} (h1 : Kept w a y1) :
    Kept w a (State.emitAll y1 y2) := by
  unfold State.emitAll
  exact Kept.put h1

theorem State.wipe_kept {a : State} {y1 y2 y3} (h1 : Kept true a y1) :
    Kept true a (State.wipe y1 y2 y3) := by
  unfold State.wipe
  exact Kept.wr h1 h1 fun hm => memClear_wf _ _ hm

theorem State.setDom_kept {w : Bool} {a : State} {y1 y2 y3 y4} (h1 : Kept w a y1) :
    Kept w a (State.setDom y1 y2 y3 y4) := by
  unfold State.setDom
  exact Kept.put h1

theorem State.write_kept {a : State} {y1 y2 y3} (h1 : Kept true a y1) :
    Kept true a (State.write y1 y2 y3) := by
  unfold State.write
  exact Kept.wr h1 h1 fun hm => memWrite_wf _ _ hm

theorem State.countSpare_kept {w : Bool} {a : State} {y1 y2 y3} (h1 : Kept w a y1) :
    Kept w a (State.countSpare y1 y2 y3) := by
  unfold State.countSpare
  exact State.bump_kept h1

theorem State.interrupt_kept {w : Bool} {a : State} {y1 y2 y3 y4} (h1 : Kept w a y1) :
    Kept w a (State.interrupt y1 y2 y3 y4) := by
  unfold State.interrupt
  refine Kept.ite ?_ ?_
  · exact h1
  · extract_lets -merge -useContext +onlyGivenNames -underBinder v1 v2
    have k3 : Kept w a v2 := State.useFree_kept h1
    extract_lets -merge -useContext +onlyGivenNames -underBinder v4
    have k5 : Kept w a v4 := State.highWater_kept (State.setObj_kept (State.setObj_kept (State.setObj_kept k3)))
    extract_lets -merge -useContext +onlyGivenNames -underBinder v6
    have k7 : Kept w a v6 := State.highWater_kept (State.bump_kept k5)
    refine Kept.ite ?_ ?_
    · exact State.raise_kept k7
    · exact k7

theorem State.deliverPoison_kept {w : Bool} {a : State} {y1 y2 y3} (h1 : Kept w a y1) :
    Kept w a (State.deliverPoison y1 y2 y3) := by
  unfold State.deliverPoison
  exact State.raiseOnce_kept (State.bump_kept h1)

theorem State.countReset_kept {w : Bool} {a : State} {y1 y2 y3} (h1 : Kept w a y1) :
    Kept w a (State.countReset y1 y2 y3) := by
  unfold State.countReset
  exact State.setObj_kept (State.setObj_kept (State.setObj_kept (State.bump_kept h1)))

theorem State.heartbeat_kept {w : Bool} {a : State} {y1 y2} (h1 : Kept w a y1) :
    Kept w a (State.heartbeat y1 y2) := by
  unfold State.heartbeat
  exact State.emitCan_kept h1

theorem onLane_kept {w : Bool} {a : State} {y1 y2 y3 y4} (h1 : Kept w a y1) (h2 : (∀ z0, Res.kept w a (y4 z0))) :
    Res.kept w a (onLane y1 y2 y3 y4) := by
  unfold onLane
  refine Res.kept_ite ?_ ?_
  · refine h2 _
  · exact Res.kept_fault

theorem State.lakeRelease_kept {w : Bool} {a : State} {y1 y2} (h1 : Kept w a y1) :
    Kept w a (State.lakeRelease y1 y2) := by
  unfold State.lakeRelease
  refine Kept.foldl ?_ (fun p1 x1 h1 => ?_)
  · exact Kept.put h1
  · exact State.lakeOut_kept h1

theorem State.deliver_kept {w : Bool} {a : State} {y1 y2 y3} (h1 : Kept w a y1) :
    Kept w a (State.deliver y1 y2 y3) := by
  unfold State.deliver
  refine State.deliverVia_kept ?_ ?_
  · intro q1 q2 q3
    exact State.lakeRoute_kept q3
  · exact h1

/-! ### Session -/

theorem State.setSlot_kept {w : Bool} {a : State} {y1 y2 y3} (h1 : Kept w a y1) :
    Kept w a (State.setSlot y1 y2 y3) := by
  unfold State.setSlot
  exact Kept.put h1

theorem State.setSession_kept {w : Bool} {a : State} {y1 y2 y3} (h1 : Kept w a y1) :
    Kept w a (State.setSession y1 y2 y3) := by
  unfold State.setSession
  exact Kept.put h1

theorem State.rollBack_kept {w : Bool} {a : State} {y1 y2 y3} (h1 : Kept w a y1) :
    Kept w a (State.rollBack y1 y2 y3) := by
  unfold State.rollBack
  extract_lets -merge -useContext +onlyGivenNames -underBinder v1
  refine Kept.ite ?_ ?_
  · exact h1
  · extract_lets -merge -useContext +onlyGivenNames -underBinder v2
    have k3 : Kept w a v2 := State.setSession_kept h1
    extract_lets -merge -useContext +onlyGivenNames -underBinder v4 v5
    have k6 : Kept w a v5 := State.setSlot_kept k3
    split
    · exact State.bump_kept k6
    · exact k6

theorem State.endSession_kept {w : Bool} {a : State} {y1 y2} (h1 : Kept w a y1) :
    Kept w a (State.endSession y1 y2) := by
  unfold State.endSession
  split
  · exact h1
  · extract_lets -merge -useContext +onlyGivenNames -underBinder v1
    have k2 : Kept w a v1 := State.rollBack_kept h1
    exact State.setSession_kept k2

/-! ### Pond -/

theorem State.setPool_kept {w : Bool} {a : State} {y1 y2 y3 y4} (h1 : Kept w a y1) :
    Kept w a (State.setPool y1 y2 y3 y4) := by
  unfold State.setPool
  exact Kept.put h1

theorem State.weir_kept {w : Bool} {a : State} {y1 y2 y3 y4} (h1 : Kept w a y1) :
    Kept w a (State.weir y1 y2 y3 y4) := by
  unfold State.weir
  split
  · exact h1
  · split
    extract_lets -merge -useContext +onlyGivenNames -underBinder v1 v2 v3 v4 v5 v6
    have k7 : Kept w a v6 := State.highWater_kept (State.setPool_kept h1)
    extract_lets -merge -useContext +onlyGivenNames -underBinder v8
    have k9 : Kept w a v8 := by
      refine Kept.ite ?_ ?_
      · exact State.raiseOnce_kept k7
      · exact k7
    refine Kept.ite ?_ ?_
    · exact State.raiseOnce_kept k9
    · exact k9

theorem State.misuseEvent_kept {w : Bool} {a : State} {y1 y2 y3 y4} (h1 : Kept w a y1) :
    Kept w a (State.misuseEvent y1 y2 y3 y4) := by
  unfold State.misuseEvent
  extract_lets -merge -useContext +onlyGivenNames -underBinder v1 v2
  refine Kept.ite ?_ ?_
  · exact State.countEvent_kept h1
  · extract_lets -merge -useContext +onlyGivenNames -underBinder v3 v4
    have k5 : Kept w a v4 := Kept.put h1
    split
    · exact State.raiseTo_kept k5
    · split
      · exact State.raiseTo_kept k5
      · exact State.raiseTo_kept k5
    · extract_lets -merge -useContext +onlyGivenNames -underBinder v6
      have k7 : Kept w a v6 := State.raiseTo_kept k5
      exact State.lakeEmit_kept k7
    · exact State.emit_kept (State.raiseTo_kept k5)
    · exact State.emit_kept (State.raiseTo_kept k5)
    · exact State.raiseTo_kept k5

theorem State.misuse_kept {w : Bool} {a : State} {y1 y2 y3 y4 y5 y6 y7 y8} (h1 : Kept w a y1) :
    Kept w a (State.misuse y1 y2 y3 y4 y5 y6 y7 y8) := by
  unfold State.misuse
  extract_lets -merge -useContext +onlyGivenNames -underBinder v1 v2
  have k3 : Kept w a v2 := State.bump_kept (State.bump_kept h1)
  extract_lets -merge -useContext +onlyGivenNames -underBinder v4 v5 v6
  have k7 : Kept w a v6 := Kept.put k3
  extract_lets -merge -useContext +onlyGivenNames -underBinder v8
  have k9 : Kept w a v8 := by
    unfold v8
    split
    · exact State.weir_kept (State.setPool_kept k7)
    · exact k7
  extract_lets -merge -useContext +onlyGivenNames -underBinder v10
  have k11 : Kept w a v10 := State.misuseEvent_kept k9
  split
  · exact State.confine_kept k11
  · exact State.confine_kept k11
  · exact k11

theorem State.sendCredits_kept {w : Bool} {a : State} {y1 y2} (h1 : Kept w a y1) :
    Kept w a (State.sendCredits y1 y2) := by
  unfold State.sendCredits
  split
  · exact h1
  · refine Kept.ite ?_ ?_
    · exact State.emitAll_kept h1
    · exact h1

theorem State.returnCredits_kept {w : Bool} {a : State} {y1 y2} (h1 : Kept w a y1) :
    Kept w a (State.returnCredits y1 y2) := by
  unfold State.returnCredits
  split
  · exact h1
  · refine Kept.ite ?_ ?_
    · exact h1
    · extract_lets -merge -useContext +onlyGivenNames -underBinder v1
      refine Kept.ite ?_ ?_
      · exact h1
      · exact State.sendCredits_kept (Kept.put h1)

theorem State.countFreed_kept {w : Bool} {a : State} {y1 y2} (h1 : Kept w a y1) :
    Kept w a (State.countFreed y1 y2) := by
  unfold State.countFreed
  refine Kept.ite ?_ ?_
  · exact h1
  · extract_lets -merge -useContext +onlyGivenNames -underBinder v1 v2
    exact Kept.put h1

theorem State.afterFree_kept {w : Bool} {a : State} {y1 y2 y3 y4 y5} (h1 : Kept w a y1) :
    Kept w a (State.afterFree y1 y2 y3 y4 y5) := by
  unfold State.afterFree
  split
  · exact h1
  · extract_lets -merge -useContext +onlyGivenNames -underBinder v1
    have k2 : Kept w a v1 := State.weir_kept (State.setPool_kept h1)
    refine Kept.ite ?_ ?_
    · exact State.returnCredits_kept (State.countFreed_kept k2)
    · exact k2

theorem State.pondPut_kept {w : Bool} {a : State} {y1 y2 y3} (h1 : Kept w a y1) :
    Kept w a ((State.pondPut y1 y2 y3).2) := by
  unfold State.pondPut
  extract_lets -merge -useContext +onlyGivenNames -underBinder v1 v2
  refine Kept.ite2 ?_ ?_
  · exact h1
  · extract_lets -merge -useContext +onlyGivenNames -underBinder v3
    split
    · exact State.misuse_kept h1
    · exact State.afterFree_kept (State.setPool_kept h1)

theorem State.walkEntries_kept {w : Bool} {a : State} {y1 y2 y3} (h1 : Kept w a y1) :
    Kept w a ((State.walkEntries y1 y2 y3).2) := by
  unfold State.walkEntries
  refine Kept.foldl2 ?_ (fun p1 x1 h1 => ?_)
  · exact h1
  · extract_lets -merge -useContext +onlyGivenNames -underBinder v2
    refine Kept.ite2 ?_ ?_
    · exact h1
    · extract_lets -merge -useContext +onlyGivenNames -underBinder v3
      exact State.afterFree_kept (State.setPool_kept h1)

theorem State.ownerWalk_kept {w : Bool} {a : State} {y1 y2} (h1 : Kept w a y1) :
    Kept w a (State.ownerWalk y1 y2) := by
  unfold State.ownerWalk
  extract_lets -merge -useContext +onlyGivenNames -underBinder v1 v2
  have k3 : Kept w a v2 := Kept.put h1
  extract_lets -merge -useContext +onlyGivenNames -underBinder v4
  refine Kept.ite ?_ ?_
  · exact k3
  · exact State.walkEntries_kept (State.useFree_kept k3)

theorem State.pondGet_kept {w : Bool} {a : State} {y1 y2 y3 y4 y5} (h1 : Kept w a y1) :
    Kept w a ((State.pondGet y1 y2 y3 y4 y5).2) := by
  unfold State.pondGet
  refine Kept.ite2 ?_ ?_
  · exact h1
  · split
    · exact h1
    · refine Kept.ite2 ?_ ?_
      · exact h1
      · split
        · dsimp -zeta only
          exact State.misuse_kept h1
        · extract_lets -merge -useContext +onlyGivenNames -underBinder v1
          have k2 : Kept w a v1.2 := State.bump_kept h1
          refine Kept.ite2 ?_ ?_
          · exact k2
          · split
            refine Kept.ite2 ?_ ?_
            · exact k2
            · refine Kept.ite2 ?_ ?_
              · exact k2
              · refine Kept.ite2 ?_ ?_
                · exact k2
                · extract_lets -merge -useContext +onlyGivenNames -underBinder v3
                  refine Kept.ite2 ?_ ?_
                  · exact k2
                  · extract_lets -merge -useContext +onlyGivenNames -underBinder v4 v5 v6 v7
                    have k8 : Kept w a v7 := State.bump_kept (State.setPool_kept h1)
                    exact State.weir_kept k8

theorem State.registerOwner_kept {w : Bool} {a : State} {y1 y2 y3 y4 y5} (h1 : Kept w a y1) :
    Kept w a ((State.registerOwner y1 y2 y3 y4 y5).2) := by
  unfold State.registerOwner
  split
  · exact h1
  · extract_lets -merge -useContext +onlyGivenNames -underBinder v1 v2 v3
    split
    · exact State.setPool_kept h1
    · refine Kept.ite2 ?_ ?_
      · exact State.raise_kept h1
      · exact State.setPool_kept h1

theorem State.walkWhere_kept {w : Bool} {a : State} {y1 y2} (h1 : Kept w a y1) :
    Kept w a (State.walkWhere y1 y2) := by
  unfold State.walkWhere
  extract_lets -merge -useContext +onlyGivenNames -underBinder v1
  refine Kept.foldl ?_ (fun p2 x2 h2 => ?_)
  · exact h1
  · exact State.ownerWalk_kept h2

theorem State.removeOwner_kept {w : Bool} {a : State} {y1 y2 y3 y4} (h1 : Kept w a y1) :
    Kept w a (State.removeOwner y1 y2 y3 y4) := by
  unfold State.removeOwner
  split
  · exact h1
  · extract_lets -merge -useContext +onlyGivenNames -underBinder v1
    have k2 : Kept w a v1 := State.setPool_kept h1
    refine Kept.ite ?_ ?_
    · exact k2
    · exact State.ownerWalk_kept k2

theorem State.registerOwn_kept {w : Bool} {a : State} {y1 y2 y3} (h1 : Kept w a y1) :
    Kept w a (State.registerOwn y1 y2 y3) := by
  unfold State.registerOwn
  split
  · exact h1
  · extract_lets -merge -useContext +onlyGivenNames -underBinder v1 v2 v3
    have k4 : Kept w a v3 := by
      refine Kept.foldl ?_ (fun p5 x5 h5 => ?_)
      · exact h1
      · exact State.removeOwner_kept h5
    refine Kept.foldl ?_ (fun p6 x6 h6 => ?_)
    · exact k4
    · exact State.registerOwner_kept h6

theorem execGet_kept {w : Bool} {a : State} {y1 y2 y3 y4 y5 y6} (h1 : Kept w a y6) :
    Res.kept w a (execGet y1 y2 y3 y4 y5 y6) := by
  unfold execGet
  refine Res.kept_ite ?_ ?_
  · extract_lets -merge -useContext +onlyGivenNames -underBinder v1
    have k2 : Kept w a v1.2 := State.pondGet_kept h1
    exact Res.kept_next (State.emit_kept k2)
  · exact Res.kept_fault

theorem State.pondAddref_kept {w : Bool} {a : State} {y1 y2 y3 y4} (h1 : Kept w a y1) :
    Kept w a ((State.pondAddref y1 y2 y3 y4).2) := by
  unfold State.pondAddref
  extract_lets -merge -useContext +onlyGivenNames -underBinder v1 v2
  refine Kept.ite2 ?_ ?_
  · exact h1
  · extract_lets -merge -useContext +onlyGivenNames -underBinder v3
    refine Kept.ite2 ?_ ?_
    · dsimp -zeta only
      exact State.misuse_kept h1
    · refine Kept.ite2 ?_ ?_
      · exact State.bump_kept h1
      · split
        · exact State.misuse_kept h1
        · extract_lets -merge -useContext +onlyGivenNames -underBinder v4
          refine Kept.ite2 ?_ ?_
          · exact h1
          · split
            · dsimp -zeta only
              exact State.misuse_kept h1
            · extract_lets -merge -useContext +onlyGivenNames -underBinder v5 v6
              exact State.setPool_kept h1

theorem execAddref_kept {w : Bool} {a : State} {y1 y2 y3 y4} (h1 : Kept w a y4) :
    Res.kept w a (execAddref y1 y2 y3 y4) := by
  unfold execAddref
  extract_lets -merge -useContext +onlyGivenNames -underBinder v1
  have k2 : Kept w a v1.2 := State.pondAddref_kept h1
  exact Res.kept_next (State.emit_kept k2)

theorem State.pondPass_kept {w : Bool} {a : State} {y1 y2 y3 y4} (h1 : Kept w a y1) :
    Kept w a ((State.pondPass y1 y2 y3 y4).2) := by
  unfold State.pondPass
  extract_lets -merge -useContext +onlyGivenNames -underBinder v1 v2
  refine Kept.ite2 ?_ ?_
  · exact h1
  · extract_lets -merge -useContext +onlyGivenNames -underBinder v3
    refine Kept.ite2 ?_ ?_
    · dsimp -zeta only
      exact State.misuse_kept h1
    · refine Kept.ite2 ?_ ?_
      · exact State.bump_kept h1
      · split
        · exact State.misuse_kept h1
        · split
          · dsimp -zeta only
            exact State.misuse_kept h1
          · extract_lets -merge -useContext +onlyGivenNames -underBinder v4 v5 v6 v7 v8
            exact State.emit_kept (State.setPool_kept h1)

theorem execPass_kept {w : Bool} {a : State} {y1 y2 y3 y4} (h1 : Kept w a y4) :
    Res.kept w a (execPass y1 y2 y3 y4) := by
  unfold execPass
  extract_lets -merge -useContext +onlyGivenNames -underBinder v1
  have k2 : Kept w a v1.2 := State.pondPass_kept h1
  exact Res.kept_next (State.emit_kept k2)

theorem execQuery_kept {w : Bool} {a : State} {y1 y2} (h1 : Kept w a y2) :
    Res.kept w a (execQuery y1 y2) := by
  unfold execQuery
  extract_lets -merge -useContext +onlyGivenNames -underBinder v1
  exact Res.kept_next (State.emit_kept h1)

theorem execPassedNotice_kept {w : Bool} {a : State} {y1 y2 y3} (h1 : Kept w a y3) :
    Res.kept w a (execPassedNotice y1 y2 y3) := by
  unfold execPassedNotice
  refine onDie_kept ?_ ?_
  · exact h1
  · intro q1
    exact Res.kept_next (State.emit_kept h1)

theorem State.walkOut_kept {w : Bool} {a : State} {y1 y2} (h1 : Kept w a y1) :
    Kept w a (State.walkOut y1 y2) := by
  unfold State.walkOut
  extract_lets -merge -useContext +onlyGivenNames -underBinder v1
  have k2 : Kept w a v1 := State.walkEntries_kept h1
  exact Kept.put k2

theorem State.auditPool_kept {w : Bool} {a : State} {y1 y2 y3} (h1 : Kept w a y1) :
    Kept w a (State.auditPool y1 y2 y3) := by
  unfold State.auditPool
  split
  · exact h1
  · refine Kept.ite ?_ ?_
    · exact h1
    · split
      extract_lets -merge -useContext +onlyGivenNames -underBinder v1
      have k2 : Kept w a v1 := State.afterFree_kept (State.setPool_kept h1)
      refine Kept.ite ?_ ?_
      · exact k2
      · exact State.raise_kept (State.bump_kept k2)

theorem State.auditDie_kept {w : Bool} {a : State} {y1 y2} (h1 : Kept w a y1) :
    Kept w a (State.auditDie y1 y2) := by
  unfold State.auditDie
  extract_lets -merge -useContext +onlyGivenNames -underBinder v1
  have k2 : Kept w a v1 := by
    refine Kept.foldl ?_ (fun p3 x3 h3 => ?_)
    · exact h1
    · exact State.auditPool_kept h3
  exact Kept.put k2

/-! ### PondFit -/

theorem State.takeCfg_kept {w : Bool} {a : State} {y1 y2 y3 y4 y5} (h1 : Kept w a y1) :
    Kept w a (State.takeCfg y1 y2 y3 y4 y5) := by
  unfold State.takeCfg
  extract_lets -merge -useContext +onlyGivenNames -underBinder v1
  exact State.setPool_kept h1

theorem State.holdMarks_kept {w : Bool} {a : State} {y1 y2 y3 y4} (h1 : Kept w a y1) :
    Kept w a (State.holdMarks y1 y2 y3 y4) := by
  unfold State.holdMarks
  refine Kept.foldl ?_ (fun p1 x1 h1 => ?_)
  · exact h1
  · refine Kept.ite ?_ ?_
    · exact State.setObj_kept h1
    · exact h1

theorem State.reconfigure_kept {w : Bool} {a : State} {y1 y2 y3} (h1 : Kept w a y1) :
    Kept w a (State.reconfigure y1 y2 y3) := by
  unfold State.reconfigure
  extract_lets -merge -useContext +onlyGivenNames -underBinder v1 v2
  refine Kept.ite ?_ ?_
  · refine Kept.ite ?_ ?_
    · exact State.takeCfg_kept h1
    · extract_lets -merge -useContext +onlyGivenNames -underBinder v3
      exact State.setPool_kept h1
  · refine Kept.ite ?_ ?_
    · exact State.setPool_kept h1
    · refine Kept.ite ?_ ?_
      · extract_lets -merge -useContext +onlyGivenNames -underBinder v4 v5
        exact State.setPool_kept (State.holdMarks_kept h1)
      · refine Kept.ite ?_ ?_
        · exact State.setPool_kept h1
        · exact State.takeCfg_kept h1

theorem State.fitPools_kept {w : Bool} {a : State} {y1 y2} (h1 : Kept w a y1) :
    Kept w a ((State.fitPools y1 y2).1) := by
  unfold State.fitPools
  extract_lets -merge -useContext +onlyGivenNames -underBinder v1 v2 v3 v4
  have k5 : Kept w a v4.1 := by
    refine Kept.foldl1 ?_ (fun p6 x6 h6 => ?_)
    · exact h1
    · extract_lets -merge -useContext +onlyGivenNames -underBinder v7
      exact State.setPool_kept h6
  extract_lets -merge -useContext +onlyGivenNames -underBinder v8 v9
  have k10 : Kept w a v9 := by
    refine Kept.foldl ?_ (fun p11 x11 h11 => ?_)
    · exact k5
    · exact State.setPool_kept h11
  exact k10

theorem State.refitDie_kept {w : Bool} {a : State} {y1 y2 y3} (h1 : Kept w a y1) :
    Kept w a ((State.refitDie y1 y2 y3).1) := by
  unfold State.refitDie
  extract_lets -merge -useContext +onlyGivenNames -underBinder v1 v2
  have k3 : Kept w a v2 := by
    refine Kept.ite ?_ ?_
    · exact State.setObj_kept h1
    · exact h1
  extract_lets -merge -useContext +onlyGivenNames -underBinder v4
  have k5 : Kept w a v4 := by
    refine Kept.foldl ?_ (fun p6 x6 h6 => ?_)
    · exact k3
    · exact State.reconfigure_kept h6
  split
  rename_i i7 i8 i9 i10 i11
  extract_lets -merge -useContext +onlyGivenNames -underBinder v12
  have k13 : Kept w a v12 := by
    refine Kept.foldl ?_ (fun p14 x14 h14 => ?_)
    · exact Kept.eq1 i11 (State.fitPools_kept k5)
    · exact State.registerOwn_kept h14
  extract_lets -merge -useContext +onlyGivenNames -underBinder v15 v16 v17
  have k18 : Kept w a v17 := by
    refine Kept.ite ?_ ?_
    · exact k13
    · exact State.raise_kept k13
  exact k18

theorem State.endPools_kept {w : Bool} {a : State} {y1 y2} (h1 : Kept w a y1) :
    Kept w a (State.endPools y1 y2) := by
  unfold State.endPools
  exact Kept.put h1

/-! ### TimeBase -/

theorem State.setSource_kept {w : Bool} {a : State} {y1 y2 y3} (h1 : Kept w a y1) :
    Kept w a (State.setSource y1 y2 y3) := by
  unfold State.setSource
  exact Kept.put h1

theorem State.timeRecord_kept {w : Bool} {a : State} {y1 y2} (h1 : Kept w a y1) :
    Kept w a (State.timeRecord y1 y2) := by
  unfold State.timeRecord
  exact State.recordInTakes_kept h1

theorem State.enterTime_kept {w : Bool} {a : State} {y1 y2} (h1 : Kept w a y1) :
    Kept w a (State.enterTime y1 y2) := by
  unfold State.enterTime
  refine Kept.ite ?_ ?_
  · exact h1
  · exact State.timeRecord_kept (Kept.put h1)

theorem State.loseSource_kept {w : Bool} {a : State} {y1 y2} (h1 : Kept w a y1) :
    Kept w a (State.loseSource y1 y2) := by
  unfold State.loseSource
  extract_lets -merge -useContext +onlyGivenNames -underBinder v1 v2
  have k3 : Kept w a v2 := State.setSource_kept h1
  extract_lets -merge -useContext +onlyGivenNames -underBinder v4 v5
  have k6 : Kept w a v5 := by
    refine Kept.ite ?_ ?_
    · exact Kept.put k3
    · exact k3
  refine Kept.ite ?_ ?_
  · exact k6
  · extract_lets -merge -useContext +onlyGivenNames -underBinder v7 v8 v9
    have k10 : Kept w a v9 := State.raise_kept (Kept.put k6)
    refine Kept.ite ?_ ?_
    · exact State.raise_kept (State.enterTime_kept (Kept.put k10))
    · exact k10

theorem State.tellActive_kept {w : Bool} {a : State} {y1 y2} (h1 : Kept w a y1) :
    Kept w a (State.tellActive y1 y2) := by
  unfold State.tellActive
  refine Kept.ite ?_ ?_
  · exact h1
  · exact State.timeRecord_kept (State.raise_kept h1)

theorem State.setActive_kept {w : Bool} {a : State} {y1 y2} (h1 : Kept w a y1) :
    Kept w a (State.setActive y1 y2) := by
  unfold State.setActive
  exact Kept.put h1

theorem State.becomeActive_kept {w : Bool} {a : State} {y1 y2} (h1 : Kept w a y1) :
    Kept w a (State.becomeActive y1 y2) := by
  unfold State.becomeActive
  exact State.tellActive_kept (State.setActive_kept h1)

theorem State.adopt_kept {w : Bool} {a : State} {y1 y2} (h1 : Kept w a y1) :
    Kept w a (State.adopt y1 y2) := by
  unfold State.adopt
  refine Kept.ite ?_ ?_
  · exact State.becomeActive_kept h1
  · exact Kept.put h1

theorem State.selectSource_kept {w : Bool} {a : State} {y1} (h1 : Kept w a y1) :
    Kept w a (State.selectSource y1) := by
  unfold State.selectSource
  refine Kept.ite ?_ ?_
  · exact h1
  · split
    · refine Kept.ite ?_ ?_
      · exact h1
      · exact State.adopt_kept h1
    · exact h1

theorem State.onQualified_kept {w : Bool} {a : State} {y1 y2} (h1 : Kept w a y1) :
    Kept w a (State.onQualified y1 y2) := by
  unfold State.onQualified
  refine Kept.ite ?_ ?_
  · exact State.adopt_kept h1
  · exact State.selectSource_kept h1

theorem State.ptpInterval_kept {w : Bool} {a : State} {y1} (h1 : Kept w a y1) :
    Kept w a (State.ptpInterval y1) := by
  unfold State.ptpInterval
  split
  · exact h1
  · extract_lets -merge -useContext +onlyGivenNames -underBinder v1 v2 v3 v4
    have k5 : Kept w a v4 := Kept.put h1
    refine Kept.ite ?_ ?_
    · exact k5
    · extract_lets -merge -useContext +onlyGivenNames -underBinder v6 v7 v8 v9
      have k10 : Kept w a v9 := by
        refine Kept.ite ?_ ?_
        · exact Kept.put k5
        · exact k5
      exact State.setObj_kept (State.setObj_kept k10)

theorem State.sourceBoundary_kept {w : Bool} {a : State} {y1 y2 y3 y4} (h1 : Kept w a y1) :
    Kept w a (State.sourceBoundary y1 y2 y3 y4) := by
  unfold State.sourceBoundary
  extract_lets -merge -useContext +onlyGivenNames -underBinder v1 v2 v3 v4 v5 v6 v7 v8
  have k9 : Kept w a v8 := State.setSource_kept h1
  refine Kept.ite ?_ ?_
  · extract_lets -merge -useContext +onlyGivenNames -underBinder v10
    have k11 : Kept w a v10 := State.loseSource_kept k9
    exact State.setSource_kept k11
  · refine Kept.ite ?_ ?_
    · refine State.onQualified_kept ?_
      refine Kept.ite ?_ ?_
      · exact State.ptpInterval_kept k9
      · exact k9
    · exact k9

theorem State.countOn_kept {w : Bool} {a : State} {y1 y2 y3 y4} (h1 : Kept w a y1) :
    Kept w a (State.countOn y1 y2 y3 y4) := by
  unfold State.countOn
  extract_lets -merge -useContext +onlyGivenNames -underBinder v1 v2
  exact Kept.put h1

theorem State.updateTimecode_kept {w : Bool} {a : State} {y1} (h1 : Kept w a y1) :
    Kept w a (State.updateTimecode y1) := by
  unfold State.updateTimecode
  extract_lets -merge -useContext +onlyGivenNames -underBinder v1
  split
  refine Kept.ite ?_ ?_
  · exact h1
  · split
    · refine Kept.ite ?_ ?_
      · extract_lets -merge -useContext +onlyGivenNames -underBinder v2
        exact Kept.put h1
      · exact State.countOn_kept h1
    · exact State.countOn_kept h1

theorem execFrameSyncEdge_kept {w : Bool} {a : State} {y1 y2} (h1 : Kept w a y2) :
    Res.kept w a (execFrameSyncEdge y1 y2) := by
  unfold execFrameSyncEdge
  extract_lets -merge -useContext +onlyGivenNames -underBinder v1 v2
  have k3 : Kept w a v2 := Kept.put h1
  refine Res.kept_ite ?_ ?_
  · exact Res.kept_next (State.sourceBoundary_kept (State.useFree_kept k3))
  · exact Res.kept_next k3

theorem execLtcFrame_kept {w : Bool} {a : State} {y1 y2 y3 y4} (h1 : Kept w a y4) :
    Res.kept w a (execLtcFrame y1 y2 y3 y4) := by
  unfold execLtcFrame
  extract_lets -merge -useContext +onlyGivenNames -underBinder v1
  have k2 : Kept w a v1 := State.sourceBoundary_kept (State.useFree_kept (State.setObj_kept h1))
  refine Res.kept_ite ?_ ?_
  · extract_lets -merge -useContext +onlyGivenNames -underBinder v3
    exact Res.kept_next (Kept.put k2)
  · exact Res.kept_next k2

theorem State.modPtp_kept {w : Bool} {a : State} {y1 y2} (h1 : Kept w a y1) :
    Kept w a (State.modPtp y1 y2) := by
  unfold State.modPtp
  exact Kept.put h1

theorem State.heardSync_kept {w : Bool} {a : State} {y1 y2} (h1 : Kept w a y1) :
    Kept w a (State.heardSync y1 y2) := by
  unfold State.heardSync
  exact State.modPtp_kept h1

theorem State.ptpMeasured_kept {w : Bool} {a : State} {y1 y2 y3 y4} (h1 : Kept w a y1) :
    Kept w a (State.ptpMeasured y1 y2 y3 y4) := by
  unfold State.ptpMeasured
  extract_lets -merge -useContext +onlyGivenNames -underBinder v1 v2 v3
  exact State.emit_kept (State.setObj_kept (State.modPtp_kept h1))

theorem execPtpSyncMessage_kept {w : Bool} {a : State} {y1 y2 y3 y4 y5 y6} (h1 : Kept w a y6) :
    Res.kept w a (execPtpSyncMessage y1 y2 y3 y4 y5 y6) := by
  unfold execPtpSyncMessage
  refine Res.kept_ite ?_ ?_
  · exact Res.kept_next h1
  · refine Res.kept_ite ?_ ?_
    · exact Res.kept_next (State.modPtp_kept (State.heardSync_kept h1))
    · exact Res.kept_next (State.ptpMeasured_kept (State.heardSync_kept h1))

theorem execPtpFollowUpMessage_kept {w : Bool} {a : State} {y1 y2 y3 y4} (h1 : Kept w a y4) :
    Res.kept w a (execPtpFollowUpMessage y1 y2 y3 y4) := by
  unfold execPtpFollowUpMessage
  split
  · refine Res.kept_ite ?_ ?_
    · exact Res.kept_next (State.ptpMeasured_kept h1)
    · exact Res.kept_next h1
  · exact Res.kept_next h1

theorem execPtpAnnounceMessage_kept {w : Bool} {a : State} {y1 y2 y3 y4 y5} (h1 : Kept w a y5) :
    Res.kept w a (execPtpAnnounceMessage y1 y2 y3 y4 y5) := by
  unfold execPtpAnnounceMessage
  refine Res.kept_ite ?_ ?_
  · exact Res.kept_next h1
  · extract_lets -merge -useContext +onlyGivenNames -underBinder v1
    have k2 : Kept w a v1 := State.modPtp_kept h1
    refine Res.kept_ite ?_ ?_
    · exact Res.kept_next k2
    · extract_lets -merge -useContext +onlyGivenNames -underBinder v3
      have k4 : Kept w a v3 := State.modPtp_kept k2
      exact Res.kept_next (State.setObj_kept (State.modPtp_kept k4))

theorem execPtpDelayRespMessage_kept {w : Bool} {a : State} {y1 y2 y3 y4 y5} (h1 : Kept w a y5) :
    Res.kept w a (execPtpDelayRespMessage y1 y2 y3 y4 y5) := by
  unfold execPtpDelayRespMessage
  extract_lets -merge -useContext +onlyGivenNames -underBinder v1
  refine Res.kept_ite ?_ ?_
  · exact Res.kept_next h1
  · extract_lets -merge -useContext +onlyGivenNames -underBinder v2
    exact Res.kept_next (State.setObj_kept (State.modPtp_kept h1))

theorem execSourceLost_kept {w : Bool} {a : State} {y1 y2} (h1 : Kept w a y2) :
    Res.kept w a (execSourceLost y1 y2) := by
  unfold execSourceLost
  refine Res.kept_ite ?_ ?_
  · exact Res.kept_fault
  · refine Res.kept_ite ?_ ?_
    · exact Res.kept_next h1
    · extract_lets -merge -useContext +onlyGivenNames -underBinder v1
      have k2 : Kept w a v1 := by
        refine Kept.ite ?_ ?_
        · exact State.modPtp_kept h1
        · exact h1
      exact Res.kept_next (State.loseSource_kept k2)

theorem execHoldoverExpiry_kept {w : Bool} {a : State} {y1} (h1 : Kept w a y1) :
    Res.kept w a (execHoldoverExpiry y1) := by
  unfold execHoldoverExpiry
  refine Res.kept_ite ?_ ?_
  · exact Res.kept_next h1
  · split
    · exact Res.kept_next (State.adopt_kept h1)
    · exact Res.kept_next (State.raise_kept (State.enterTime_kept h1))

theorem execReturnTimeExpiry_kept {w : Bool} {a : State} {y1 y2} (h1 : Kept w a y2) :
    Res.kept w a (execReturnTimeExpiry y1 y2) := by
  unfold execReturnTimeExpiry
  refine Res.kept_ite ?_ ?_
  · exact Res.kept_next (State.adopt_kept h1)
  · exact Res.kept_next h1

/-! ### Settings -/

theorem State.putSetting_kept {w : Bool} {a : State} {y1 y2} (h1 : Kept w a y1) :
    Kept w a (State.putSetting y1 y2) := by
  unfold State.putSetting
  split
  · refine Kept.ite ?_ ?_
    · exact State.setDom_kept h1
    · exact State.setObj_kept h1
  · exact h1

theorem State.rehold_kept {w : Bool} {a : State} {y1} (h1 : Kept w a y1) :
    Kept w a (State.rehold y1) := by
  unfold State.rehold
  extract_lets -merge -useContext +onlyGivenNames -underBinder v1
  have k2 : (∀ z0 z1, Kept w a z0 → Kept w a (v1 z0 z1)) := by
    intro q3 q4 q5
    unfold v1
    extract_lets -merge -useContext +onlyGivenNames -underBinder v6
    refine Kept.ite ?_ ?_
    · exact q5
    · exact State.setObj_kept q5
  extract_lets -merge -useContext +onlyGivenNames -underBinder v7 v8 v9 v10 v11
  refine Kept.foldl ?_ (fun p12 x12 h12 => ?_)
  · exact h1
  · exact k2 _ _ h12

theorem State.rejudge_kept {w : Bool} {a : State} {y1 y2} (h1 : Kept w a y1) :
    Kept w a (State.rejudge y1 y2) := by
  unfold State.rejudge
  split
  · exact h1
  · refine Kept.ite ?_ ?_
    · exact h1
    · split
      · exact h1
      · exact State.setObj_kept h1

theorem State.loadReservations_kept {w : Bool} {a : State} {y1 y2} (h1 : Kept w a y1) :
    Kept w a (State.loadReservations y1 y2) := by
  unfold State.loadReservations
  extract_lets -merge -useContext +onlyGivenNames -underBinder v1 v2
  refine Kept.foldl ?_ (fun p3 x3 h3 => ?_)
  · exact h1
  · extract_lets -merge -useContext +onlyGivenNames -underBinder v4 v5
    refine Kept.ite ?_ ?_
    · exact State.removeOwner_kept h3
    · exact State.registerOwner_kept h3

theorem State.putAll_kept {w : Bool} {a : State} {y1 y2} (h1 : Kept w a y1) :
    Kept w a (State.putAll y1 y2) := by
  unfold State.putAll
  refine Kept.foldl ?_ (fun p1 x1 h1 => ?_)
  · exact h1
  · exact State.putSetting_kept h1

theorem State.standing_kept {w : Bool} {a : State} {y1 y2} (h1 : Kept w a y1) :
    Kept w a (State.standing y1 y2) := by
  unfold State.standing
  refine Kept.foldl ?_ (fun p1 x1 h1 => ?_)
  · exact h1
  · exact State.putAll_kept h1

theorem State.admitOn_kept {w : Bool} {a : State} {y1 y2 y3} (h1 : Kept w a y1) :
    Kept w a (State.admitOn y1 y2 y3) := by
  unfold State.admitOn
  extract_lets -merge -useContext +onlyGivenNames -underBinder v1
  refine Kept.foldl ?_ (fun p2 x2 h2 => ?_)
  · exact State.putAll_kept (State.standing_kept h1)
  · exact State.loadReservations_kept h2

/-! ### PowerBase -/

theorem State.setPd_kept {w : Bool} {a : State} {y1 y2 y3} (h1 : Kept w a y1) :
    Kept w a (State.setPd y1 y2 y3) := by
  unfold State.setPd
  exact Kept.put h1

/-! ### FlashMem -/

theorem State.setMd_kept {w : Bool} {a : State} {y1 y2 y3} (h1 : Kept w a y1) :
    Kept w a (State.setMd y1 y2 y3) := by
  unfold State.setMd
  exact Kept.put h1

theorem State.writeWord_kept {a : State} {y1 y2 y3 y4 y5 y6} (h1 : Kept true a y1) :
    Kept true a (State.writeWord y1 y2 y3 y4 y5 y6) := by
  unfold State.writeWord
  extract_lets -merge -useContext +onlyGivenNames -underBinder v1 v2 v3
  exact State.write_kept (State.write_kept h1)

theorem State.putCodeword_kept {a : State} {y1 y2 y3 y4 y5 y6 y7} (h1 : Kept true a y1) :
    Kept true a (State.putCodeword y1 y2 y3 y4 y5 y6 y7) := by
  unfold State.putCodeword
  extract_lets -merge -useContext +onlyGivenNames -underBinder v1 v2
  exact State.writeWord_kept h1

theorem State.usePage_kept {w : Bool} {a : State} {y1 y2 y3} (h1 : Kept w a y1) :
    Kept w a (State.usePage y1 y2 y3) := by
  unfold State.usePage
  extract_lets -merge -useContext +onlyGivenNames -underBinder v1 v2
  have k3 : Kept w a v2 := State.setMd_kept h1
  exact State.bump_kept k3

theorem State.logMap_kept {w : Bool} {a : State} {y1 y2 y3 y4 y5 y6 y7 y8 y9} (h1 : Kept w a y1) :
    Kept w a (State.logMap y1 y2 y3 y4 y5 y6 y7 y8 y9) := by
  unfold State.logMap
  extract_lets -merge -useContext +onlyGivenNames -underBinder v1 v2 v3 v4 v5
  have k6 : Kept w a v5 := State.setMd_kept h1
  refine Kept.foldl ?_ (fun p7 x7 h7 => ?_)
  · exact State.setObj_kept k6
  · exact State.usePage_kept h7

theorem State.clearUnit_kept {w : Bool} {a : State} {y1 y2 y3} (h1 : Kept w a y1) :
    Kept w a (State.clearUnit y1 y2 y3) := by
  unfold State.clearUnit
  exact Kept.put h1

theorem State.awaitJournal_kept {w : Bool} {a : State} {y1 y2 y3 y4} (h1 : Kept w a y1) :
    Kept w a (State.awaitJournal y1 y2 y3 y4) := by
  unfold State.awaitJournal
  extract_lets -merge -useContext +onlyGivenNames -underBinder v1
  exact State.setMd_kept h1

theorem State.setUnit_kept {w : Bool} {a : State} {y1 y2 y3 y4} (h1 : Kept w a y1) :
    Kept w a (State.setUnit y1 y2 y3 y4) := by
  unfold State.setUnit
  exact Kept.put h1

theorem State.xtsRun_kept {w : Bool} {a : State} {y1 y2 y3} (h1 : Kept w a y1) :
    Kept w a (State.xtsRun y1 y2 y3) := by
  unfold State.xtsRun
  exact State.addObj_kept (State.bump_kept h1)

theorem State.digestRun_kept {w : Bool} {a : State} {y1 y2 y3 y4} (h1 : Kept w a y1) :
    Kept w a (State.digestRun y1 y2 y3 y4) := by
  unfold State.digestRun
  exact State.bump_kept (State.addObj_kept (State.bump_kept h1))

theorem State.copyCodeword_kept {a : State} {y1 y2 y3 y4 y5 y6 y7 y8} (h1 : Kept true a y1) :
    Kept true a (State.copyCodeword y1 y2 y3 y4 y5 y6 y7 y8) := by
  unfold State.copyCodeword
  extract_lets -merge -useContext +onlyGivenNames -underBinder v1
  exact State.putCodeword_kept h1

/-! ### Media -/

theorem State.setBlocks_kept {w : Bool} {a : State} {y1 y2 y3 y4} (h1 : Kept w a y1) :
    Kept w a (State.setBlocks y1 y2 y3 y4) := by
  unfold State.setBlocks
  refine Kept.foldl ?_ (fun p1 x1 h1 => ?_)
  · exact h1
  · extract_lets -merge -useContext +onlyGivenNames -underBinder v2 v3
    refine Kept.ite ?_ ?_
    · exact h1
    · extract_lets -merge -useContext +onlyGivenNames -underBinder v4 v5 v6 v7
      exact State.logMap_kept h1

theorem State.queueBg_kept {w : Bool} {a : State} {y1 y2 y3} (h1 : Kept w a y1) :
    Kept w a (State.queueBg y1 y2 y3) := by
  unfold State.queueBg
  extract_lets -merge -useContext +onlyGivenNames -underBinder v1
  exact State.setMd_kept h1

theorem State.reportReserve_kept {w : Bool} {a : State} {y1 y2} (h1 : Kept w a y1) :
    Kept w a (State.reportReserve y1 y2) := by
  unfold State.reportReserve
  exact State.setObj_kept (State.setObj_kept (State.setObj_kept h1))

theorem State.awaitErase_kept {w : Bool} {a : State} {y1 y2 y3 y4} (h1 : Kept w a y1) :
    Kept w a (State.awaitErase y1 y2 y3 y4) := by
  unfold State.awaitErase
  extract_lets -merge -useContext +onlyGivenNames -underBinder v1 v2
  have k3 : Kept w a v2 := State.queueBg_kept h1
  refine Kept.ite ?_ ?_
  · exact k3
  · exact State.reportReserve_kept (State.addObj_kept (State.bump_kept k3))

theorem State.closeStripe_kept {a : State} {y1 y2 y3} (h1 : Kept true a y1) :
    Kept true a (State.closeStripe y1 y2 y3) := by
  unfold State.closeStripe
  extract_lets -merge -useContext +onlyGivenNames -underBinder v1
  split
  · exact h1
  · refine Kept.ite ?_ ?_
    · exact h1
    · extract_lets -merge -useContext +onlyGivenNames -underBinder v2 v3 v4
      have k5 : Kept true a v4 := by
        refine Kept.foldl ?_ (fun p6 x6 h6 => ?_)
        · exact State.setMd_kept h1
        · exact State.putCodeword_kept h6
      extract_lets -merge -useContext +onlyGivenNames -underBinder v7
      have k8 : Kept true a v7 := State.setBlocks_kept k5
      refine Kept.ite ?_ ?_
      · exact State.awaitErase_kept k8
      · exact k8

theorem State.takePositions_kept {a : State} {y1 y2 y3 y4} (h1 : Kept true a y1) :
    Kept true a ((State.takePositions y1 y2 y3 y4).1) := by
  unfold State.takePositions
  extract_lets -merge -useContext +onlyGivenNames -underBinder v1
  split
  · exact h1
  · extract_lets -merge -useContext +onlyGivenNames -underBinder v2
    have k3 : Kept true a v2 := State.setMd_kept h1
    refine Kept.ite ?_ ?_
    · exact State.closeStripe_kept k3
    · exact k3

theorem State.stampStripe_kept {w : Bool} {a : State} {y1 y2 y3 y4} (h1 : Kept w a y1) :
    Kept w a (State.stampStripe y1 y2 y3 y4) := by
  unfold State.stampStripe
  refine Kept.foldl ?_ (fun p1 x1 h1 => ?_)
  · exact h1
  · extract_lets -merge -useContext +onlyGivenNames -underBinder v2 v3
    exact State.setMd_kept h1

theorem State.chooseBlocks_kept {w : Bool} {a : State} {y1 y2 y3 y4} (h1 : Kept w a y1) :
    Kept w a (State.chooseBlocks y1 y2 y3 y4) := by
  unfold State.chooseBlocks
  extract_lets -merge -useContext +onlyGivenNames -underBinder v1
  split
  · exact State.setMd_kept h1
  · exact h1

theorem State.openStripe_kept {w : Bool} {a : State} {y1 y2 y3} (h1 : Kept w a y1) :
    Kept w a ((State.openStripe y1 y2 y3).1) := by
  unfold State.openStripe
  extract_lets -merge -useContext +onlyGivenNames -underBinder v1 v2 v3 v4 v5 v6 v7
  have k8 : Kept w a v7 := State.setBlocks_kept (State.stampStripe_kept (State.chooseBlocks_kept (State.setMd_kept h1)))
  exact State.reportReserve_kept (State.setObj_kept k8)

theorem State.allocateFine_kept {a : State} {y1 y2} (h1 : Kept true a y1) :
    Kept true a ((State.allocateFine y1 y2).1) := by
  unfold State.allocateFine
  extract_lets -merge -useContext +onlyGivenNames -underBinder v1
  split
  · exact State.takePositions_kept h1
  · split
    · exact State.takePositions_kept h1
    · extract_lets -merge -useContext +onlyGivenNames -underBinder v2
      have k3 : Kept true a v2.1 := State.openStripe_kept h1
      exact State.takePositions_kept k3

theorem State.allocateEach_kept {a : State} {y1 y2 y3} (h1 : Kept true a y1) :
    Kept true a ((State.allocateEach y1 y2 y3).1) := by
  unfold State.allocateEach
  refine Kept.foldl1 ?_ (fun p1 x1 h1 => ?_)
  · exact h1
  · extract_lets -merge -useContext +onlyGivenNames -underBinder v2
    have k3 : Kept true a v2.1 := State.allocateFine_kept h1
    exact k3

theorem State.launch_kept {w : Bool} {a : State} {y1 y2 y3} (h1 : Kept w a y1) :
    Kept w a (State.launch y1 y2 y3) := by
  unfold State.launch
  extract_lets -merge -useContext +onlyGivenNames -underBinder v1 v2
  have k3 : (∀ z0 z1, Kept w a z0 → Kept w a (v2 z0 z1)) := by
    intro q4 q5 q6
    unfold v2
    extract_lets -merge -useContext +onlyGivenNames -underBinder v7
    exact State.emit_kept q6
  split
  · exact k3 _ _ h1
  · refine Kept.ite ?_ ?_
    · refine Kept.foldl ?_ (fun p8 x8 h8 => ?_)
      · exact h1
      · exact k3 _ _ h8
    · exact State.emit_kept h1

theorem State.suspendErases_kept {w : Bool} {a : State} {y1 y2 y3} (h1 : Kept w a y1) :
    Kept w a (State.suspendErases y1 y2 y3) := by
  unfold State.suspendErases
  refine Kept.foldl ?_ (fun p1 x1 h1 => ?_)
  · exact h1
  · extract_lets -merge -useContext +onlyGivenNames -underBinder v2
    exact State.emit_kept (State.bump_kept (State.setMd_kept h1))

theorem State.issueOn_kept {w : Bool} {a : State} {y1 y2 y3 y4 y5 y6 y7} (h1 : Kept w a y1) :
    Kept w a (State.issueOn y1 y2 y3 y4 y5 y6 y7) := by
  unfold State.issueOn
  refine Kept.ite ?_ ?_
  · exact h1
  · extract_lets -merge -useContext +onlyGivenNames -underBinder v1 v2 v3 v4 v5 v6
    have k7 : Kept w a v6 := State.setMd_kept h1
    refine Kept.ite ?_ ?_
    · exact k7
    · refine Kept.ite ?_ ?_
      · exact State.launch_kept (State.suspendErases_kept k7)
      · exact State.launch_kept k7

theorem State.chargeSeep_kept {w : Bool} {a : State} {y1 y2 y3 y4} (h1 : Kept w a y1) :
    Kept w a (State.chargeSeep y1 y2 y3 y4) := by
  unfold State.chargeSeep
  exact State.addObj_kept (State.addObj_kept h1)

theorem State.bgOn_kept {w : Bool} {a : State} {y1 y2 y3 y4 y5 y6 y7} (h1 : Kept w a y1) :
    Kept w a (State.bgOn y1 y2 y3 y4 y5 y6 y7) := by
  unfold State.bgOn
  refine Kept.ite ?_ ?_
  · exact State.issueOn_kept (State.chargeSeep_kept h1)
  · extract_lets -merge -useContext +onlyGivenNames -underBinder v1
    exact State.setMd_kept h1

theorem State.bgOp_kept {w : Bool} {a : State} {y1 y2 y3 y4 y5 y6} (h1 : Kept w a y1) :
    Kept w a (State.bgOp y1 y2 y3 y4 y5 y6) := by
  unfold State.bgOp
  exact State.bgOn_kept h1

theorem State.issueOp_kept {w : Bool} {a : State} {y1 y2 y3 y4 y5 y6} (h1 : Kept w a y1) :
    Kept w a (State.issueOp y1 y2 y3 y4 y5 y6) := by
  unfold State.issueOp
  exact State.issueOn_kept h1

theorem State.retireCoarse_kept {a : State} {y1 y2 y3} (h1 : Kept true a y1) :
    Kept true a (State.retireCoarse y1 y2 y3) := by
  unfold State.retireCoarse
  extract_lets -merge -useContext +onlyGivenNames -underBinder v1
  refine Kept.ite ?_ ?_
  · exact State.setMd_kept h1
  · exact State.closeStripe_kept h1

theorem State.allocateCoarse_kept {a : State} {y1 y2} (h1 : Kept true a y1) :
    Kept true a ((State.allocateCoarse y1 y2).1) := by
  unfold State.allocateCoarse
  split
  · refine Kept.ite1 ?_ ?_
    · exact State.takePositions_kept h1
    · extract_lets -merge -useContext +onlyGivenNames -underBinder v1
      have k2 : Kept true a v1.1 := State.openStripe_kept (State.retireCoarse_kept h1)
      exact State.takePositions_kept k2
  · extract_lets -merge -useContext +onlyGivenNames -underBinder v3
    have k4 : Kept true a v3.1 := State.openStripe_kept h1
    exact State.takePositions_kept k4

theorem State.protectWorn_kept {w : Bool} {a : State} {y1 y2} (h1 : Kept w a y1) :
    Kept w a (State.protectWorn y1 y2) := by
  unfold State.protectWorn
  extract_lets -merge -useContext +onlyGivenNames -underBinder v1 v2 v3
  have k4 : Kept w a v3 := Kept.put h1
  refine Kept.foldl ?_ (fun p5 x5 h5 => ?_)
  · exact k4
  · exact State.raise_kept h5

theorem State.checkWorn_kept {w : Bool} {a : State} {y1 y2} (h1 : Kept w a y1) :
    Kept w a (State.checkWorn y1 y2) := by
  unfold State.checkWorn
  extract_lets -merge -useContext +onlyGivenNames -underBinder v1
  refine Kept.ite ?_ ?_
  · exact h1
  · exact State.reportReserve_kept (State.protectWorn_kept (State.raise_kept (State.setMd_kept h1)))

theorem State.checkSpare_kept {w : Bool} {a : State} {y1 y2 y3} (h1 : Kept w a y1) (h2 : Kept w a y2) :
    Kept w a (State.checkSpare y1 y2 y3) := by
  unfold State.checkSpare
  refine Kept.ite ?_ ?_
  · exact State.raise_kept h1
  · exact h1

theorem State.closeGroup_kept {a : State} {y1 y2 y3} (h1 : Kept true a y1) :
    Kept true a (State.closeGroup y1 y2 y3) := by
  unfold State.closeGroup
  refine Kept.foldl ?_ (fun p1 x1 h1 => ?_)
  · exact h1
  · exact State.closeStripe_kept h1

theorem State.loseMember_kept {w : Bool} {a : State} {y1 y2 y3 y4 y5} (h1 : Kept w a y1) :
    Kept w a (State.loseMember y1 y2 y3 y4 y5) := by
  unfold State.loseMember
  extract_lets -merge -useContext +onlyGivenNames -underBinder v1 v2 v3 v4 v5
  have k6 : Kept w a v5 := State.setMd_kept h1
  refine Kept.foldl ?_ (fun p7 x7 h7 => ?_)
  · exact k6
  · exact State.setBlocks_kept h7

theorem State.reportErase_kept {w : Bool} {a : State} {y1 y2} (h1 : Kept w a y1) :
    Kept w a (State.reportErase y1 y2) := by
  unfold State.reportErase
  exact State.reportReserve_kept (State.setObj_kept h1)

theorem State.reform_kept {w : Bool} {a : State} {y1 y2 y3} (h1 : Kept w a y1) (h2 : Kept w a y2) :
    Kept w a (State.reform y1 y2 y3) := by
  unfold State.reform
  extract_lets -merge -useContext +onlyGivenNames -underBinder v1
  refine Kept.ite ?_ ?_
  · exact h1
  · exact State.reportReserve_kept (State.setObj_kept h1)

theorem State.invalidate_kept {w : Bool} {a : State} {y1 y2 y3 y4} (h1 : Kept w a y1) :
    Kept w a (State.invalidate y1 y2 y3 y4) := by
  unfold State.invalidate
  extract_lets -merge -useContext +onlyGivenNames -underBinder v1
  split
  · exact h1
  · extract_lets -merge -useContext +onlyGivenNames -underBinder v2 v3
    have k4 : Kept w a v3 := State.setMd_kept h1
    refine Kept.ite ?_ ?_
    · exact State.awaitErase_kept k4
    · exact k4

theorem State.allocateJournal_kept {w : Bool} {a : State} {y1 y2 y3 y4} (h1 : Kept w a y1) :
    (∀ z0, State.allocateJournal y1 y2 y3 y4 = some z0 → Kept w a z0.1) := by
  unfold State.allocateJournal
  intro z hz
  obtain ⟨k, hk, hz⟩ := Option.bind_eq_some_iff.mp hz
  obtain ⟨x, hx, rfl⟩ := Option.map_eq_some_iff.mp hz
  dsimp only
  exact Kept.ite (State.stampStripe_kept (State.chooseBlocks_kept (State.setMd_kept h1))) (State.setMd_kept h1)

theorem State.reprogram_kept {a : State} {y1 y2 y3} (h1 : Kept true a y1) :
    Kept true a (State.reprogram y1 y2 y3) := by
  unfold State.reprogram
  split
  · refine State.issueOp_kept ?_
    refine Kept.foldl1 h1 fun p x hp => ?_
    exact State.allocateCoarse_kept (State.invalidate_kept hp)
  · split
    · split
      · exact State.issueOp_kept (State.allocateCoarse_kept (State.invalidate_kept h1))
      · exact State.issueOp_kept (State.allocateEach_kept (Kept.foldl h1 fun s g hs => State.invalidate_kept hs))
    · split
      · exact State.bgOp_kept (State.allocateCoarse_kept (State.invalidate_kept h1))
      · exact State.bgOp_kept (State.allocateEach_kept (Kept.foldl h1 fun s g hs => State.invalidate_kept hs))
  · split
    · exact State.bgOp_kept (State.allocateCoarse_kept (State.invalidate_kept h1))
    · exact State.bgOp_kept (State.allocateEach_kept (Kept.foldl h1 fun s g hs => State.invalidate_kept hs))
  · dsimp only
    split
    · exact State.bgOp_kept (State.allocateCoarse_kept (State.invalidate_kept h1))
    · exact State.issueOp_kept (State.allocateCoarse_kept (State.invalidate_kept h1))
  · exact State.bgOp_kept (State.allocateEach_kept (Kept.foldl h1 fun s g hs => State.invalidate_kept hs))
  · split
    · rename_i x e
      exact State.issueOp_kept (State.allocateJournal_kept h1 _ e)
    · exact h1
  · exact State.issueOp_kept h1
  · exact State.queueBg_kept h1
  · exact State.issueOp_kept h1

theorem State.reissue_kept {a : State} {y1 y2 y3} (h1 : Kept true a y1) :
    Kept true a (State.reissue y1 y2 y3) := by
  unfold State.reissue
  refine Kept.foldl ?_ (fun p1 x1 h1 => ?_)
  · exact h1
  · extract_lets -merge -useContext +onlyGivenNames -underBinder v2 v3
    have k4 : Kept true a v3 := State.setMd_kept h1
    split
    · exact State.queueBg_kept k4
    · exact State.reprogram_kept k4

theorem State.failOne_kept {a : State} {y1 y2 y3 y4} (h1 : Kept true a y1) :
    Kept true a (State.failOne y1 y2 y3 y4) := by
  unfold State.failOne
  extract_lets -merge -useContext +onlyGivenNames -underBinder v1
  refine Kept.ite ?_ ?_
  · exact h1
  · extract_lets -merge -useContext +onlyGivenNames -underBinder v2 v3 v4 v5
    have k6 : Kept true a v5 := State.setMd_kept (Kept.put h1)
    extract_lets -merge -useContext +onlyGivenNames -underBinder v7
    have k8 : Kept true a v7 := State.raise_kept (State.bump_kept (State.setObj_kept k6))
    refine Kept.ite ?_ ?_
    · exact State.setObj_kept k8
    · extract_lets -merge -useContext +onlyGivenNames -underBinder v9 v10
      have k11 : Kept true a v10 := by
        refine State.closeGroup_kept ?_
        refine Kept.ite ?_ ?_
        · exact State.setObj_kept k8
        · exact k8
      extract_lets -merge -useContext +onlyGivenNames -underBinder v12
      have k13 : Kept true a v12 := by
        unfold v12
        split
        · extract_lets -merge -useContext +onlyGivenNames -underBinder v14 v15
          have k16 : Kept true a v15 := State.loseMember_kept (State.setMd_kept k11)
          exact State.raise_kept (State.countSpare_kept (State.bump_kept (State.setObj_kept (State.setObj_kept k16))))
        · extract_lets -merge -useContext +onlyGivenNames -underBinder v17 v18
          have k19 : Kept true a v18 := State.loseMember_kept k11
          refine Kept.ite ?_ ?_
          · exact k19
          · exact State.raise_kept (State.bump_kept k19)
      extract_lets -merge -useContext +onlyGivenNames -underBinder v20
      refine State.interrupt_kept ?_
      refine State.reportErase_kept ?_
      refine State.reform_kept ?_ ?_
      · exact State.reissue_kept (State.queueBg_kept k13)
      · exact h1

theorem State.failChannel_kept {a : State} {y1 y2 y3} (h1 : Kept true a y1) :
    Kept true a (State.failChannel y1 y2 y3) := by
  unfold State.failChannel
  extract_lets -merge -useContext +onlyGivenNames -underBinder v1
  have k2 : Kept true a v1 := State.raise_kept (State.bump_kept (State.setObj_kept h1))
  split
  extract_lets -merge -useContext +onlyGivenNames -underBinder v3
  have k4 : Kept true a v3 := by
    refine Kept.foldl ?_ (fun p5 x5 h5 => ?_)
    · exact k2
    · exact State.failOne_kept h5
  exact State.interrupt_kept (State.setObj_kept k4)

theorem State.trainAt_kept {a : State} {y1 y2 y3 y4} (h1 : Kept true a y1) :
    Kept true a (State.trainAt y1 y2 y3 y4) := by
  unfold State.trainAt
  extract_lets -merge -useContext +onlyGivenNames -underBinder v1
  split
  · extract_lets -merge -useContext +onlyGivenNames -underBinder v2
    refine Kept.ite ?_ ?_
    · exact State.failChannel_kept (State.addObj_kept h1)
    · exact State.setObj_kept (State.setObj_kept (State.addObj_kept h1))
  · exact State.setObj_kept (State.bump_kept h1)

theorem State.trainChannel_kept {a : State} {y1 y2 y3} (h1 : Kept true a y1) :
    Kept true a (State.trainChannel y1 y2 y3) := by
  unfold State.trainChannel
  exact State.trainAt_kept h1

theorem State.recap_kept {a : State} {y1} (h1 : Kept true a y1) :
    Kept true a (State.recap y1) := by
  unfold State.recap
  refine Kept.foldl ?_ (fun p1 x1 h1 => ?_)
  · exact h1
  · refine Kept.foldl ?_ (fun p2 x2 h2 => ?_)
    · exact h1
    · refine Kept.ite ?_ ?_
      · exact State.trainChannel_kept h2
      · exact h2

theorem State.wake_kept {w : Bool} {a : State} {y1 y2 y3} (h1 : Kept w a y1) :
    Kept w a (State.wake y1 y2 y3) := by
  unfold State.wake
  extract_lets -merge -useContext +onlyGivenNames -underBinder v1 v2 v3 v4
  have k5 : Kept w a v4 := State.setMd_kept h1
  refine State.launch_kept ?_
  refine Kept.ite ?_ ?_
  · exact State.suspendErases_kept k5
  · exact k5

theorem State.settleTarget_kept {w : Bool} {a : State} {y1 y2 y3} (h1 : Kept w a y1) :
    Kept w a (State.settleTarget y1 y2 y3) := by
  unfold State.settleTarget
  extract_lets -merge -useContext +onlyGivenNames -underBinder v1 v2 v3
  have k4 : Kept w a v3 := by
    refine Kept.ite ?_ ?_
    · exact h1
    · refine Kept.foldl ?_ (fun p5 x5 h5 => ?_)
      · exact h1
      · exact State.wake_kept h5
  extract_lets -merge -useContext +onlyGivenNames -underBinder v6
  have k7 : Kept w a v6 := by
    refine Kept.ite ?_ ?_
    · refine Kept.foldl ?_ (fun p8 x8 h8 => ?_)
      · exact k4
      · exact State.wake_kept h8
    · exact k4
  refine Kept.ite ?_ ?_
  · exact k7
  · refine Kept.foldl ?_ (fun p9 x9 h9 => ?_)
    · exact k7
    · extract_lets -merge -useContext +onlyGivenNames -underBinder v10
      exact State.emit_kept (State.setMd_kept h9)

theorem State.endOp_kept {w : Bool} {a : State} {y1 y2 y3} (h1 : Kept w a y1) :
    Kept w a (State.endOp y1 y2 y3) := by
  unfold State.endOp
  extract_lets -merge -useContext +onlyGivenNames -underBinder v1
  split
  · exact h1
  · exact State.settleTarget_kept (State.setMd_kept h1)

theorem State.openSlcStripe_kept {w : Bool} {a : State} {y1 y2} (h1 : Kept w a y1) :
    (∀ z0, State.openSlcStripe y1 y2 = some z0 → Kept w a z0.1) := by
  unfold State.openSlcStripe
  intro z hz
  obtain ⟨e, he, rfl⟩ := Option.map_eq_some_iff.mp hz
  dsimp only
  exact State.setBlocks_kept (State.stampStripe_kept (State.chooseBlocks_kept (State.setMd_kept h1)))

theorem State.allocateSlc_kept {a : State} {y1 y2} (h1 : Kept true a y1) :
    (∀ z0, State.allocateSlc y1 y2 = some z0 → Kept true a z0.1) := by
  unfold State.allocateSlc
  intro z hz
  split at hz
  · cases hz
    exact State.takePositions_kept h1
  · obtain ⟨x, hx, rfl⟩ := Option.map_eq_some_iff.mp hz
    exact State.takePositions_kept (State.openSlcStripe_kept h1 _ hx)

theorem State.recordProgram_kept {w : Bool} {a : State} {y1 y2 y3 y4} (h1 : Kept w a y1) :
    Kept w a (State.recordProgram y1 y2 y3 y4) := by
  unfold State.recordProgram
  extract_lets -merge -useContext +onlyGivenNames -underBinder v1 v2 v3 v4
  have k5 : Kept w a v4 := State.setMd_kept h1
  extract_lets -merge -useContext +onlyGivenNames -underBinder v6
  refine Kept.ite ?_ ?_
  · exact k5
  · exact State.setObj_kept (State.setObj_kept k5)

theorem State.retrainChannel_kept {a : State} {y1 y2 y3 y4} (h1 : Kept true a y1) :
    Kept true a (State.retrainChannel y1 y2 y3 y4) := by
  unfold State.retrainChannel
  refine Kept.ite ?_ ?_
  · exact State.trainChannel_kept h1
  · exact State.failChannel_kept h1

theorem State.failTarget_kept {a : State} {y1 y2 y3 y4} (h1 : Kept true a y1) :
    Kept true a (State.failTarget y1 y2 y3 y4) := by
  unfold State.failTarget
  extract_lets -merge -useContext +onlyGivenNames -underBinder v1
  have k2 : Kept true a v1 := State.failOne_kept h1
  refine Kept.ite ?_ ?_
  · exact State.retrainChannel_kept (State.useFree_kept k2)
  · exact k2

theorem State.targetStatus_kept {a : State} {y1 y2 y3 y4 y5 y6} (h1 : Kept true a y1) :
    Kept true a (State.targetStatus y1 y2 y3 y4 y5 y6) := by
  unfold State.targetStatus
  extract_lets -merge -useContext +onlyGivenNames -underBinder v1 v2 v3 v4
  have k5 : Kept true a v4 := State.setMd_kept h1
  refine Kept.ite ?_ ?_
  · exact State.failTarget_kept k5
  · exact k5

theorem State.groupStatus_kept {a : State} {y1 y2 y3 y4 y5} (h1 : Kept true a y1) :
    Kept true a (State.groupStatus y1 y2 y3 y4 y5) := by
  unfold State.groupStatus
  refine Kept.foldl ?_ (fun p1 x1 h1 => ?_)
  · exact h1
  · exact State.targetStatus_kept h1

theorem State.countBad_kept {a : State} {y1 y2 y3 y4} (h1 : Kept true a y1) :
    Kept true a (State.countBad y1 y2 y3 y4) := by
  unfold State.countBad
  extract_lets -merge -useContext +onlyGivenNames -underBinder v1 v2 v3
  have k4 : Kept true a v3 := State.setMd_kept h1
  split
  · refine Kept.ite ?_ ?_
    · exact State.failTarget_kept k4
    · exact k4
  · exact k4

theorem State.retireBlock_kept {a : State} {y1 y2 y3 y4} (h1 : Kept true a y1) :
    Kept true a (State.retireBlock y1 y2 y3 y4) := by
  unfold State.retireBlock
  extract_lets -merge -useContext +onlyGivenNames -underBinder v1 v2 v3 v4
  have k5 : Kept true a v4 := State.logMap_kept (State.closeStripe_kept h1)
  extract_lets -merge -useContext +onlyGivenNames -underBinder v6
  have k7 : Kept true a v6 := State.raise_kept (State.countSpare_kept (State.setObj_kept (State.bump_kept k5)))
  extract_lets -merge -useContext +onlyGivenNames -underBinder v8 v9
  have k10 : Kept true a v9 := by
    refine State.queueBg_kept ?_
    refine State.checkSpare_kept ?_ ?_
    · exact k7
    · exact h1
  extract_lets -merge -useContext +onlyGivenNames -underBinder v11
  refine State.reform_kept ?_ ?_
  · exact State.countBad_kept (State.checkWorn_kept k10)
  · exact h1

theorem State.recordErase_kept {w : Bool} {a : State} {y1 y2 y3} (h1 : Kept w a y1) :
    Kept w a (State.recordErase y1 y2 y3) := by
  unfold State.recordErase
  extract_lets -merge -useContext +onlyGivenNames -underBinder v1 v2
  exact State.reportErase_kept (State.setObj_kept (State.setMd_kept h1))

theorem State.reportSlc_kept {w : Bool} {a : State} {y1 y2} (h1 : Kept w a y1) :
    Kept w a (State.reportSlc y1 y2) := by
  unfold State.reportSlc
  exact State.setObj_kept h1

theorem State.refresh_kept {w : Bool} {a : State} {y1 y2 y3 y4 y5} (h1 : Kept w a y1) :
    Kept w a (State.refresh y1 y2 y3 y4 y5) := by
  unfold State.refresh
  extract_lets -merge -useContext +onlyGivenNames -underBinder v1 v2 v3 v4
  have k5 : Kept w a v4 := by
    refine Kept.ite ?_ ?_
    · exact h1
    · exact State.logMap_kept h1
  exact State.queueBg_kept (State.bump_kept k5)

theorem State.countRead_kept {w : Bool} {a : State} {y1 y2 y3 y4} (h1 : Kept w a y1) :
    Kept w a (State.countRead y1 y2 y3 y4) := by
  unfold State.countRead
  extract_lets -merge -useContext +onlyGivenNames -underBinder v1 v2 v3
  have k4 : Kept w a v3 := State.logMap_kept h1
  refine Kept.ite ?_ ?_
  · exact State.refresh_kept k4
  · exact k4

/-! ### MediaHost -/

theorem State.modStaged_kept {w : Bool} {a : State} {y1 y2 y3 y4} (h1 : Kept w a y1) :
    Kept w a (State.modStaged y1 y2 y3 y4) := by
  unfold State.modStaged
  extract_lets -merge -useContext +onlyGivenNames -underBinder v1
  exact State.setMd_kept h1

theorem State.reportStaged_kept {w : Bool} {a : State} {y1 y2} (h1 : Kept w a y1) :
    Kept w a (State.reportStaged y1 y2) := by
  unfold State.reportStaged
  exact State.setObj_kept (State.setObj_kept h1)

theorem State.issuePlaced_kept {w : Bool} {a : State} {y1 y2 y3 y4 y5 y6 y7} (h1 : Kept w a y1) :
    Kept w a (State.issuePlaced y1 y2 y3 y4 y5 y6 y7) := by
  unfold State.issuePlaced
  refine Kept.ite ?_ ?_
  · exact State.bgOp_kept h1
  · exact State.issueOp_kept h1

theorem State.beginFine_kept {a : State} {y1 y2 y3 y4 y5} (h1 : Kept true a y1) :
    Kept true a (State.beginFine y1 y2 y3 y4 y5) := by
  unfold State.beginFine
  extract_lets -merge -useContext +onlyGivenNames -underBinder v1
  have k2 : Kept true a v1.1 := State.allocateEach_kept h1
  extract_lets -merge -useContext +onlyGivenNames -underBinder v3 v4
  have k5 : Kept true a v4 := State.reportStaged_kept (State.modStaged_kept k2)
  exact State.issuePlaced_kept k5

theorem State.beginCoarse_kept {a : State} {y1 y2 y3 y4} (h1 : Kept true a y1) :
    Kept true a (State.beginCoarse y1 y2 y3 y4) := by
  unfold State.beginCoarse
  extract_lets -merge -useContext +onlyGivenNames -underBinder v1
  have k2 : Kept true a v1.1 := State.allocateCoarse_kept h1
  extract_lets -merge -useContext +onlyGivenNames -underBinder v3
  have k4 : Kept true a v3 := State.reportStaged_kept (State.modStaged_kept k2)
  exact State.issuePlaced_kept k4

theorem State.beginCopy_kept {a : State} {y1 y2 y3 y4} (h1 : Kept true a y1) :
    Kept true a (State.beginCopy y1 y2 y3 y4) := by
  unfold State.beginCopy
  extract_lets -merge -useContext +onlyGivenNames -underBinder v1
  clear_value v1
  split
  · exact State.beginCoarse_kept h1
  · exact State.issueOp_kept (State.modStaged_kept h1)

theorem State.touchUnit_kept {w : Bool} {a : State} {y1 y2 y3} (h1 : Kept w a y1) :
    Kept w a (State.touchUnit y1 y2 y3) := by
  unfold State.touchUnit
  extract_lets -merge -useContext +onlyGivenNames -underBinder v1
  exact State.setMd_kept h1

theorem State.fineFull_kept {w : Bool} {a : State} {y1 y2 y3 y4} (h1 : Kept w a y1) :
    Kept w a (State.fineFull y1 y2 y3 y4) := by
  unfold State.fineFull
  extract_lets -merge -useContext +onlyGivenNames -underBinder v1
  have k2 : Kept w a v1 := State.raiseOnce_kept h1
  split
  · refine Kept.ite ?_ ?_
    · exact State.queueBg_kept k2
    · exact k2
  · exact k2

theorem State.placeUnit_kept {a : State} {y1 y2 y3} (h1 : Kept true a y1) :
    Kept true a (State.placeUnit y1 y2 y3) := by
  unfold State.placeUnit
  extract_lets -merge -useContext +onlyGivenNames -underBinder v1 v2 v3 v4
  refine Kept.ite ?_ ?_
  · refine Kept.ite ?_ ?_
    · exact State.beginFine_kept h1
    · exact State.beginCoarse_kept h1
  · refine Kept.ite ?_ ?_
    · exact State.beginCoarse_kept h1
    · refine Kept.ite ?_ ?_
      · exact State.beginCopy_kept h1
      · refine Kept.ite ?_ ?_
        · exact State.beginFine_kept (State.touchUnit_kept h1)
        · extract_lets -merge -useContext +onlyGivenNames -underBinder v5
          have k6 : Kept true a v5 := State.touchUnit_kept h1
          refine Kept.ite ?_ ?_
          · exact State.beginCopy_kept (State.bump_kept k6)
          · refine Kept.ite ?_ ?_
            · exact State.beginFine_kept k6
            · exact State.beginCopy_kept (State.bump_kept (State.fineFull_kept k6))

theorem State.placeStaged_kept {a : State} {y1 y2 y3} (h1 : Kept true a y1) :
    Kept true a (State.placeStaged y1 y2 y3) := by
  unfold State.placeStaged
  extract_lets -merge -useContext +onlyGivenNames -underBinder v1
  split
  · exact h1
  · refine Kept.ite ?_ ?_
    · exact h1
    · refine Kept.ite ?_ ?_
      · exact State.modStaged_kept h1
      · exact State.placeUnit_kept h1

theorem State.drainDie_kept {a : State} {y1 y2} (h1 : Kept true a y1) :
    Kept true a (State.drainDie y1 y2) := by
  unfold State.drainDie
  refine Kept.foldl ?_ (fun p1 x1 h1 => ?_)
  · exact h1
  · exact State.placeStaged_kept h1

theorem State.unstage_kept {a : State} {y1 y2 y3} (h1 : Kept true a y1) :
    Kept true a (State.unstage y1 y2 y3) := by
  unfold State.unstage
  extract_lets -merge -useContext +onlyGivenNames -underBinder v1 v2
  have k3 : Kept true a v2 := State.setMd_kept h1
  extract_lets -merge -useContext +onlyGivenNames -underBinder v4
  have k5 : Kept true a v4 := by
    refine Kept.foldl ?_ (fun p6 x6 h6 => ?_)
    · exact k3
    · exact State.pondPut_kept h6
  extract_lets -merge -useContext +onlyGivenNames -underBinder v7
  have k8 : Kept true a v7 := State.wipe_kept k5
  exact State.reportStaged_kept (Kept.put k8)

theorem State.markLost_kept {w : Bool} {a : State} {y1 y2 y3 y4 y5} (h1 : Kept w a y1) :
    Kept w a (State.markLost y1 y2 y3 y4 y5) := by
  unfold State.markLost
  extract_lets -merge -useContext +onlyGivenNames -underBinder v1 v2
  exact State.setMd_kept h1

theorem State.forgetLost_kept {w : Bool} {a : State} {y1 y2} (h1 : Kept w a y1) :
    Kept w a (State.forgetLost y1 y2) := by
  unfold State.forgetLost
  refine Kept.foldl ?_ (fun p1 x1 h1 => ?_)
  · exact h1
  · extract_lets -merge -useContext +onlyGivenNames -underBinder v2 v3
    exact State.setMd_kept h1

theorem State.unmapUnit_kept {w : Bool} {a : State} {y1 y2 y3 y4} (h1 : Kept w a y1) :
    Kept w a (State.unmapUnit y1 y2 y3 y4) := by
  unfold State.unmapUnit
  extract_lets -merge -useContext +onlyGivenNames -underBinder v1 v2 v3 v4 v5
  have k6 : Kept w a v5 := State.forgetLost_kept (State.clearUnit_kept h1)
  refine Kept.ite ?_ ?_
  · exact k6
  · exact State.awaitJournal_kept (State.logMap_kept k6)

theorem State.stageBuffers_kept {w : Bool} {a : State} {y1 y2 y3 y4} (h1 : Kept w a y1) :
    (∀ z0, State.stageBuffers y1 y2 y3 y4 = some z0 → Kept w a z0.2) := by
  unfold State.stageBuffers
  intro z h
  split at h
  · cases h
    exact h1
  · extract_lets need r at h
    split at h
    · cases h
      refine Kept.foldl22 h1 (fun p x hp => ?_)
      split
      · exact hp
      · dsimp only
        split
        · exact State.pondGet_kept hp
        · exact State.pondGet_kept hp
    · cases h

theorem State.putStaged_kept {a : State} {y1 y2 y3 y4 y5 y6 y7} (h1 : Kept true a y1) :
    (∀ z0, State.putStaged y1 y2 y3 y4 y5 y6 y7 = some z0 → Kept true a z0) := by
  unfold State.putStaged
  intro z h
  dsimp only at h
  split at h
  · cases h
  · obtain ⟨r, hr, rfl⟩ := Option.map_eq_some_iff.mp h
    exact State.reportStaged_kept (State.setMd_kept (Kept.foldl (State.stageBuffers_kept h1 _ hr) (fun s p hs => State.write_kept hs)))

theorem State.placeDue_kept {a : State} {y1 y2 y3 y4} (h1 : Kept true a y1) :
    Kept true a (State.placeDue y1 y2 y3 y4) := by
  unfold State.placeDue
  extract_lets -merge -useContext +onlyGivenNames -underBinder v1
  refine Kept.ite ?_ ?_
  · exact State.drainDie_kept h1
  · refine Kept.ite ?_ ?_
    · exact State.placeStaged_kept h1
    · exact h1

theorem State.placeMerged_kept {a : State} {y1 y2 y3 y4} (h1 : Kept true a y1) :
    Kept true a (State.placeMerged y1 y2 y3 y4) := by
  unfold State.placeMerged
  refine Kept.foldl ?_ (fun p1 x1 h1 => ?_)
  · exact h1
  · exact State.placeStaged_kept h1

theorem State.endGroup_kept {w : Bool} {a : State} {y1 y2 y3} (h1 : Kept w a y1) :
    Kept w a (State.endGroup y1 y2 y3) := by
  unfold State.endGroup
  exact State.logMap_kept h1

theorem State.beginPass_kept {w : Bool} {a : State} {y1 y2} (h1 : Kept w a y1) :
    Kept w a (State.beginPass y1 y2) := by
  unfold State.beginPass
  extract_lets -merge -useContext +onlyGivenNames -underBinder v1
  refine Kept.ite ?_ ?_
  · exact h1
  · extract_lets -merge -useContext +onlyGivenNames -underBinder v2
    have k3 : Kept w a v2 := State.logMap_kept h1
    extract_lets -merge -useContext +onlyGivenNames -underBinder v4
    exact State.queueBg_kept (State.setMd_kept k3)

theorem State.deviceWrite_kept {a : State} {y1 y2 y3 y4 y5} (h1 : Kept true a y1) :
    Kept true a (State.deviceWrite y1 y2 y3 y4 y5) := by
  unfold State.deviceWrite
  extract_lets -merge -useContext +onlyGivenNames -underBinder v1 v2 v3 v4
  refine Kept.foldl ?_ (fun p5 x5 h5 => ?_)
  · exact h1
  · extract_lets -merge -useContext +onlyGivenNames -underBinder v6
    split
    · rename_i i7 i8 i9
      refine State.placeDue_kept ?_
      refine State.putStaged_kept ?_ _ i9
      exact State.setUnit_kept h5
    · rename_i i10 i11
      exact h5

theorem State.forgetChunks_kept {w : Bool} {a : State} {y1} (h1 : Kept w a y1) :
    Kept w a (State.forgetChunks y1) := by
  unfold State.forgetChunks
  refine Kept.ite ?_ ?_
  · exact h1
  · refine Kept.foldl ?_ (fun p1 x1 h1 => ?_)
    · exact h1
    · extract_lets -merge -useContext +onlyGivenNames -underBinder v2 v3
      exact State.setMd_kept h1

theorem State.beginConvert_kept {w : Bool} {a : State} {y1} (h1 : Kept w a y1) :
    Kept w a (State.beginConvert y1) := by
  unfold State.beginConvert
  refine Kept.foldl ?_ (fun p1 x1 h1 => ?_)
  · exact State.forgetChunks_kept h1
  · extract_lets -merge -useContext +onlyGivenNames -underBinder v2 v3
    refine Kept.ite ?_ ?_
    · exact h1
    · extract_lets -merge -useContext +onlyGivenNames -underBinder v4 v5 v6
      have k7 : Kept w a v6 := State.setMd_kept (Kept.put h1)
      extract_lets -merge -useContext +onlyGivenNames -underBinder v8
      have k9 : Kept w a v8 := by
        refine Kept.foldl ?_ (fun p10 x10 h10 => ?_)
        · exact k7
        · exact State.queueBg_kept h10
      refine Kept.foldl ?_ (fun p11 x11 h11 => ?_)
      · exact k9
      · exact State.queueBg_kept h11

theorem State.segmentDurable_kept {w : Bool} {a : State} {y1 y2 y3 y4 y5 y6 y7 y8} (h1 : Kept w a y1) :
    Kept w a (State.segmentDurable y1 y2 y3 y4 y5 y6 y7 y8) := by
  unfold State.segmentDurable
  extract_lets -merge -useContext +onlyGivenNames -underBinder v1 v2
  exact Kept.put h1

theorem State.checkConvert_kept {w : Bool} {a : State} {y1 y2} (h1 : Kept w a y1) :
    Kept w a (State.checkConvert y1 y2) := by
  unfold State.checkConvert
  refine Kept.ite ?_ ?_
  · exact State.raise_kept (Kept.put h1)
  · exact h1

theorem State.storeTime_kept {w : Bool} {a : State} {y1} (h1 : Kept w a y1) :
    Kept w a (State.storeTime y1) := by
  unfold State.storeTime
  extract_lets -merge -useContext +onlyGivenNames -underBinder v1 v2
  exact Kept.put h1

theorem State.chunkDone_kept {w : Bool} {a : State} {y1 y2} (h1 : Kept w a y1) :
    Kept w a (State.chunkDone y1 y2) := by
  unfold State.chunkDone
  extract_lets -merge -useContext +onlyGivenNames -underBinder v1 v2
  exact State.setMd_kept h1

theorem State.writeParity_kept {a : State} {y1 y2 y3} (h1 : Kept true a y1) :
    Kept true a (State.writeParity y1 y2 y3) := by
  unfold State.writeParity
  extract_lets -merge -useContext +onlyGivenNames -underBinder v1 v2
  have k3 : Kept true a v2.1 := State.allocateCoarse_kept (State.setMd_kept h1)
  exact State.bump_kept (State.issueOp_kept k3)

theorem State.contributeOne_kept {a : State} {y1 y2 y3} (h1 : Kept true a y1) :
    Kept true a (State.contributeOne y1 y2 y3) := by
  unfold State.contributeOne
  refine Kept.ite ?_ ?_
  · exact h1
  · extract_lets -merge -useContext +onlyGivenNames -underBinder v1 v2 v3 v4 v5 v6 v7 v8 v9
    have k10 : Kept true a v9 := State.write_kept h1
    extract_lets -merge -useContext +onlyGivenNames -underBinder v11
    have k12 : Kept true a v11 := State.setMd_kept k10
    extract_lets -merge -useContext +onlyGivenNames -underBinder v13 v14
    have k15 : Kept true a v14 := State.setMd_kept k12
    refine Kept.ite ?_ ?_
    · exact k15
    · extract_lets -merge -useContext +onlyGivenNames -underBinder v16
      have k17 : Kept true a v16 := State.chunkDone_kept k15
      refine Kept.ite ?_ ?_
      · exact State.writeParity_kept k17
      · exact k17

theorem State.contribute_kept {a : State} {y1 y2 y3} (h1 : Kept true a y1) :
    Kept true a (State.contribute y1 y2 y3) := by
  unfold State.contribute
  refine Kept.foldl ?_ (fun p1 x1 h1 => ?_)
  · exact h1
  · exact State.contributeOne_kept h1

theorem State.programSegment_kept {a : State} {y1 y2 y3 y4 y5 y6} (h1 : Kept true a y1) :
    Kept true a (State.programSegment y1 y2 y3 y4 y5 y6) := by
  unfold State.programSegment
  refine Kept.foldl ?_ (fun p1 x1 h1 => ?_)
  · exact h1
  · extract_lets -merge -useContext +onlyGivenNames -underBinder v2 v3
    refine Kept.ite ?_ ?_
    · exact State.putCodeword_kept h1
    · exact State.putCodeword_kept h1

theorem State.segmentPassed_kept {a : State} {y1 y2 y3 y4 y5 y6 y7 y8} (h1 : Kept true a y1) :
    Kept true a (State.segmentPassed y1 y2 y3 y4 y5 y6 y7 y8) := by
  unfold State.segmentPassed
  split
  · refine Kept.foldl ?_ (fun p1 x1 h1 => ?_)
    · exact h1
    · exact State.invalidate_kept h1
  · extract_lets -merge -useContext +onlyGivenNames -underBinder v2
    have k3 : Kept true a v2 := by
      refine Kept.foldl ?_ (fun p4 x4 h4 => ?_)
      · exact h1
      · refine Kept.ite ?_ ?_
        · exact State.invalidate_kept h4
        · extract_lets -merge -useContext +onlyGivenNames -underBinder v5 v6 v7 v8
          exact State.logMap_kept (State.programSegment_kept h4)
    exact State.awaitJournal_kept (State.endGroup_kept k3)

theorem State.dropDest_kept {w : Bool} {a : State} {y1 y2 y3 y4} (h1 : Kept w a y1) :
    Kept w a (State.dropDest y1 y2 y3 y4) := by
  unfold State.dropDest
  split
  · exact State.invalidate_kept h1
  · refine Kept.foldl ?_ (fun p1 x1 h1 => ?_)
    · exact h1
    · exact State.invalidate_kept h1

theorem State.programGranule_kept {a : State} {y1 y2 y3 y4 y5} (h1 : Kept true a y1) :
    Kept true a (State.programGranule y1 y2 y3 y4 y5) := by
  unfold State.programGranule
  extract_lets -merge -useContext +onlyGivenNames -underBinder v1
  refine Kept.ite ?_ ?_
  · refine Kept.ite ?_ ?_
    · exact State.deliverPoison_kept (State.markLost_kept (State.putCodeword_kept h1))
    · exact State.markLost_kept (State.putCodeword_kept h1)
  · split
    · refine Kept.ite ?_ ?_
      · exact State.putCodeword_kept h1
      · exact State.copyCodeword_kept h1
    · exact State.putCodeword_kept h1

theorem State.recordFine_kept {w : Bool} {a : State} {y1 y2 y3 y4 y5} (h1 : Kept w a y1) :
    Kept w a (State.recordFine y1 y2 y3 y4 y5) := by
  unfold State.recordFine
  refine Kept.foldl ?_ (fun p1 x1 h1 => ?_)
  · exact h1
  · exact State.logMap_kept h1

theorem State.placedPassed_kept {w : Bool} {a : State} {y1 y2 y3 y4 y5 y6 y7 y8} (h1 : Kept w a y1) :
    Kept w a (State.placedPassed y1 y2 y3 y4 y5 y6 y7 y8) := by
  unfold State.placedPassed
  extract_lets -merge -useContext +onlyGivenNames -underBinder v1 v2 v3 v4 v5
  split
  · extract_lets -merge -useContext +onlyGivenNames -underBinder v6 v7
    have k8 : Kept w a v7 := State.logMap_kept h1
    extract_lets -merge -useContext +onlyGivenNames -underBinder v9
    have k10 : Kept w a v9 := by
      refine Kept.ite ?_ ?_
      · exact State.bump_kept k8
      · exact k8
    exact State.forgetLost_kept (State.awaitJournal_kept (State.endGroup_kept k10))
  · extract_lets -merge -useContext +onlyGivenNames -underBinder v11 v12 v13
    have k14 : Kept w a v13 := by
      refine Kept.ite ?_ ?_
      · exact State.bump_kept (State.logMap_kept h1)
      · exact State.logMap_kept h1
    exact State.awaitJournal_kept (State.endGroup_kept (State.recordFine_kept k14))

theorem State.placementEnds_kept {a : State} {y1 y2 y3 y4} (h1 : Kept true a y1) :
    Kept true a (State.placementEnds y1 y2 y3 y4) := by
  unfold State.placementEnds
  split
  · exact h1
  · extract_lets -merge -useContext +onlyGivenNames -underBinder v1
    have k2 : Kept true a v1 := State.unstage_kept h1
    refine Kept.foldl ?_ (fun p3 x3 h3 => ?_)
    · exact k2
    · exact State.placeStaged_kept h3

theorem State.madeDurable_kept {a : State} {y1 y2 y3} (h1 : Kept true a y1) :
    Kept true a (State.madeDurable y1 y2 y3) := by
  unfold State.madeDurable
  split
  · exact State.segmentDurable_kept h1
  · exact State.placementEnds_kept h1
  · exact h1

theorem State.invalidateAll_kept {w : Bool} {a : State} {y1 y2 y3} (h1 : Kept w a y1) :
    Kept w a (State.invalidateAll y1 y2 y3) := by
  unfold State.invalidateAll
  refine Kept.foldl ?_ (fun p1 x1 h1 => ?_)
  · exact h1
  · exact State.invalidate_kept h1

theorem State.adoptCheckpoint_kept {w : Bool} {a : State} {y1 y2 y3} (h1 : Kept w a y1) :
    Kept w a (State.adoptCheckpoint y1 y2 y3) := by
  unfold State.adoptCheckpoint
  extract_lets -merge -useContext +onlyGivenNames -underBinder v1
  split
  · exact h1
  · refine Kept.ite ?_ ?_
    · exact h1
    · extract_lets -merge -useContext +onlyGivenNames -underBinder v2 v3 v4 v5 v6
      have k7 : Kept w a v6 := State.setObj_kept (State.setMd_kept h1)
      refine Kept.foldl ?_ (fun p8 x8 h8 => ?_)
      · exact State.invalidateAll_kept k7
      · exact State.queueBg_kept h8

theorem State.journalDurable_kept {a : State} {y1 y2 y3} (h1 : Kept true a y1) :
    Kept true a (State.journalDurable y1 y2 y3) := by
  unfold State.journalDurable
  extract_lets -merge -useContext +onlyGivenNames -underBinder v1
  split
  split
  extract_lets -merge -useContext +onlyGivenNames -underBinder v2
  have k3 : Kept true a v2 := State.addObj_kept (State.setMd_kept h1)
  extract_lets -merge -useContext +onlyGivenNames -underBinder v4
  have k5 : Kept true a v4 := by
    refine Kept.foldl ?_ (fun p6 x6 h6 => ?_)
    · exact k3
    · extract_lets -merge -useContext +onlyGivenNames -underBinder v7
      have k8 : Kept true a v7 := by
        unfold v7
        split
        · exact State.madeDurable_kept h6
        · exact h6
      exact State.invalidateAll_kept k8
  extract_lets -merge -useContext +onlyGivenNames -underBinder v9
  have k10 : Kept true a v9 := State.adoptCheckpoint_kept k5
  extract_lets -merge -useContext +onlyGivenNames -underBinder v11
  have k12 : Kept true a v11 := by
    refine Kept.ite ?_ ?_
    · exact State.beginPass_kept k10
    · exact k10
  refine Kept.ite ?_ ?_
  · exact State.raise_kept k12
  · exact k12

theorem State.journalWords_kept {a : State} {y1 y2 y3 y4} (h1 : Kept true a y1) :
    Kept true a (State.journalWords y1 y2 y3 y4) := by
  unfold State.journalWords
  extract_lets -merge -useContext +onlyGivenNames -underBinder v1
  refine Kept.foldl ?_ (fun p2 x2 h2 => ?_)
  · exact h1
  · extract_lets -merge -useContext +onlyGivenNames -underBinder v3
    refine Kept.ite ?_ ?_
    · exact h2
    · exact State.putCodeword_kept h2

theorem State.commitUnit_kept {a : State} {y1 y2 y3} (h1 : Kept true a y1) :
    Kept true a (State.commitUnit y1 y2 y3) := by
  unfold State.commitUnit
  extract_lets -merge -useContext +onlyGivenNames -underBinder v1 v2
  have k3 : Kept true a v2.1 := by
    refine Kept.foldl1 ?_ (fun p4 x4 h4 => ?_)
    · exact h1
    · split
      · rename_i i5 i6 i7
        refine State.programGranule_kept ?_
        refine State.allocateSlc_kept ?_ _ i7
        exact h4
      · rename_i i8 i9
        exact h4
  extract_lets -merge -useContext +onlyGivenNames -underBinder v10
  exact State.unstage_kept (State.awaitJournal_kept (State.endGroup_kept (State.recordFine_kept k3)))

theorem State.commitJournal_kept {a : State} {y1 y2} (h1 : Kept true a y1) :
    Kept true a (State.commitJournal y1 y2) := by
  unfold State.commitJournal
  extract_lets -merge -useContext +onlyGivenNames -underBinder v1 v2
  have k3 : Kept true a v2.1 := by
    refine Kept.foldl1 ?_ (fun p4 x4 h4 => ?_)
    · exact h1
    · split
      · rename_i i5 i6 i7
        refine State.invalidate_kept ?_
        refine State.allocateSlc_kept ?_ _ i7
        exact h4
      · rename_i i8 i9
        exact h4
  exact State.journalWords_kept k3

theorem State.commitReported_kept {w : Bool} {a : State} {y1} (h1 : Kept w a y1) :
    Kept w a (State.commitReported y1) := by
  unfold State.commitReported
  refine Kept.ite ?_ ?_
  · extract_lets -merge -useContext +onlyGivenNames -underBinder v1
    have k2 : Kept w a v1 := State.setObj_kept (State.setObj_kept h1)
    exact State.storeTime_kept (Kept.put k2)
  · exact h1

theorem State.commitDone_kept {a : State} {y1 y2 y3} (h1 : Kept true a y1) :
    Kept true a (State.commitDone y1 y2 y3) := by
  unfold State.commitDone
  extract_lets -merge -useContext +onlyGivenNames -underBinder v1
  have k2 : Kept true a v1 := by
    refine Kept.foldl ?_ (fun p3 x3 h3 => ?_)
    · exact h1
    · exact State.commitUnit_kept h3
  extract_lets -merge -useContext +onlyGivenNames -underBinder v4
  have k5 : Kept true a v4 := State.commitJournal_kept (State.logMap_kept k2)
  extract_lets -merge -useContext +onlyGivenNames -underBinder v6
  have k7 : Kept true a v6 := State.addObj_kept (State.journalDurable_kept k5)
  extract_lets -merge -useContext +onlyGivenNames -underBinder v8 v9
  have k10 : Kept true a v9 := State.setMd_kept k7
  exact State.commitReported_kept (State.setObj_kept (State.setObj_kept (State.bump_kept k10)))

theorem State.programCopy_kept {a : State} {y1 y2 y3 y4 y5 y6 y7} (h1 : Kept true a y1) :
    Kept true a (State.programCopy y1 y2 y3 y4 y5 y6 y7) := by
  unfold State.programCopy
  refine Kept.foldl ?_ (fun p1 x1 h1 => ?_)
  · exact h1
  · extract_lets -merge -useContext +onlyGivenNames -underBinder v2
    split
    · refine Kept.ite ?_ ?_
      · exact State.putCodeword_kept h1
      · exact State.copyCodeword_kept h1
    · exact State.putCodeword_kept h1

theorem State.pagesPassed_kept {a : State} {y1 y2 y3} (h1 : Kept true a y1) :
    Kept true a (State.pagesPassed y1 y2 y3) := by
  unfold State.pagesPassed
  extract_lets -merge -useContext +onlyGivenNames -underBinder v1
  have k2 : Kept true a v1 := by
    refine Kept.foldl ?_ (fun p3 x3 h3 => ?_)
    · exact h1
    · exact State.putCodeword_kept h3
  extract_lets -merge -useContext +onlyGivenNames -underBinder v4 v5
  exact State.invalidateAll_kept (State.setMd_kept k2)

theorem State.parityPassed_kept {a : State} {y1 y2 y3 y4 y5} (h1 : Kept true a y1) :
    Kept true a (State.parityPassed y1 y2 y3 y4 y5) := by
  unfold State.parityPassed
  extract_lets -merge -useContext +onlyGivenNames -underBinder v1 v2
  have k3 : Kept true a v2 := by
    refine Kept.foldl ?_ (fun p4 x4 h4 => ?_)
    · exact h1
    · exact State.writeWord_kept h4
  extract_lets -merge -useContext +onlyGivenNames -underBinder v5
  have k6 : Kept true a v5 := by
    unfold v5
    split
    · exact State.invalidate_kept k3
    · exact State.wipe_kept k3
  extract_lets -merge -useContext +onlyGivenNames -underBinder v7
  exact State.setMd_kept k6

theorem State.memberRebuilt_kept {a : State} {y1 y2 y3 y4} (h1 : Kept true a y1) :
    Kept true a (State.memberRebuilt y1 y2 y3 y4) := by
  unfold State.memberRebuilt
  extract_lets -merge -useContext +onlyGivenNames -underBinder v1 v2
  refine Kept.foldl ?_ (fun p3 x3 h3 => ?_)
  · exact h1
  · exact State.putCodeword_kept h3

theorem State.programPassed_kept {a : State} {y1 y2 y3} (h1 : Kept true a y1) :
    Kept true a (State.programPassed y1 y2 y3) := by
  unfold State.programPassed
  split
  · exact State.xtsRun_kept (State.addObj_kept (State.contribute_kept (State.segmentPassed_kept h1)))
  · split
    · exact State.dropDest_kept h1
    · extract_lets -merge -useContext +onlyGivenNames -underBinder v1 v2
      have k3 : Kept true a v2 := by
        refine Kept.foldl ?_ (fun p4 x4 h4 => ?_)
        · exact h1
        · exact State.programGranule_kept h4
      extract_lets -merge -useContext +onlyGivenNames -underBinder v5
      have k6 : Kept true a v5 := State.addObj_kept (State.contribute_kept k3)
      refine Kept.ite ?_ ?_
      · exact State.placedPassed_kept (State.xtsRun_kept k6)
      · exact State.bgOp_kept k6
  · exact State.journalDurable_kept (State.journalWords_kept h1)
  · exact State.commitDone_kept h1
  · extract_lets -merge -useContext +onlyGivenNames -underBinder v7
    have k8 : Kept true a v7 := State.addObj_kept (State.contribute_kept (State.programCopy_kept h1))
    exact State.bgOp_kept k8
  · exact State.contribute_kept (State.pagesPassed_kept h1)
  · refine Kept.ite ?_ ?_
    · exact State.invalidate_kept h1
    · exact State.parityPassed_kept h1
  · exact State.bgOn_kept (State.addObj_kept (State.memberRebuilt_kept h1))
  · exact h1

theorem State.changeEntry_kept {w : Bool} {a : State} {y1 y2 y3 y4} (h1 : Kept w a y1) :
    Kept w a (State.changeEntry y1 y2 y3 y4) := by
  unfold State.changeEntry
  extract_lets -merge -useContext +onlyGivenNames -underBinder v1
  refine Kept.ite ?_ ?_
  · exact h1
  · exact State.logMap_kept h1

theorem State.closeDieStripe_kept {a : State} {y1 y2 y3} (h1 : Kept true a y1) :
    Kept true a (State.closeDieStripe y1 y2 y3) := by
  unfold State.closeDieStripe
  extract_lets -merge -useContext +onlyGivenNames -underBinder v1 v2 v3
  have k4 : Kept true a v3 := by
    refine Kept.foldl ?_ (fun p5 x5 h5 => ?_)
    · exact h1
    · extract_lets -merge -useContext +onlyGivenNames -underBinder v6
      refine Kept.ite ?_ ?_
      · exact State.chunkDone_kept h5
      · exact State.setMd_kept h5
  exact State.addObj_kept (State.writeParity_kept k4)

theorem State.giveUp_kept {a : State} {y1 y2 y3} (h1 : Kept true a y1) :
    Kept true a (State.giveUp y1 y2 y3) := by
  unfold State.giveUp
  split
  · split
    · exact State.modStaged_kept (State.dropDest_kept h1)
    · exact State.dropDest_kept h1
  · exact State.dropDest_kept h1
  · exact State.dropDest_kept h1
  · refine Kept.foldl ?_ (fun p1 x1 h1 => ?_)
    · exact h1
    · exact State.invalidate_kept h1
  · exact State.invalidate_kept h1
  · exact State.reprogram_kept h1
  · exact h1

theorem State.redirected_kept {w : Bool} {a : State} {y1 y2 y3} (h1 : Kept w a y1) :
    Kept w a (State.redirected y1 y2 y3) := by
  unfold State.redirected
  split
  · exact State.raise_kept (State.bump_kept h1)
  · refine Kept.ite ?_ ?_
    · exact h1
    · exact State.raise_kept (State.bump_kept h1)
  · exact h1

theorem State.programFailed_kept {a : State} {y1 y2 y3 y4} (h1 : Kept true a y1) :
    Kept true a (State.programFailed y1 y2 y3 y4) := by
  unfold State.programFailed
  extract_lets -merge -useContext +onlyGivenNames -underBinder v1
  have k2 : Kept true a v1 := State.retireBlock_kept (State.bump_kept h1)
  refine Kept.ite ?_ ?_
  · exact State.giveUp_kept k2
  · exact State.reprogram_kept (State.redirected_kept k2)

theorem State.freeParity_kept {w : Bool} {a : State} {y1 y2 y3} (h1 : Kept w a y1) :
    Kept w a (State.freeParity y1 y2 y3) := by
  unfold State.freeParity
  extract_lets -merge -useContext +onlyGivenNames -underBinder v1
  split
  · exact h1
  · exact State.invalidate_kept (State.setMd_kept h1)

theorem State.leaveChunk_kept {a : State} {y1 y2 y3 y4 y5} (h1 : Kept true a y1) :
    Kept true a (State.leaveChunk y1 y2 y3 y4 y5) := by
  unfold State.leaveChunk
  extract_lets -merge -useContext +onlyGivenNames -underBinder v1 v2 v3
  have k4 : Kept true a v3 := State.setMd_kept h1
  split
  · exact k4
  · extract_lets -merge -useContext +onlyGivenNames -underBinder v5 v6
    have k7 : Kept true a v6 := by
      unfold v6
      split
      · exact State.writeWord_kept k4
      · exact State.write_kept k4
    refine Kept.ite ?_ ?_
    · exact k7
    · exact State.freeParity_kept k7

theorem State.leaveChunks_kept {a : State} {y1 y2 y3} (h1 : Kept true a y1) :
    Kept true a (State.leaveChunks y1 y2 y3) := by
  unfold State.leaveChunks
  extract_lets -merge -useContext +onlyGivenNames -underBinder v1
  refine Kept.foldl ?_ (fun p2 x2 h2 => ?_)
  · exact h1
  · exact State.leaveChunk_kept h2

theorem State.foldPassed_kept {w : Bool} {a : State} {y1 y2 y3 y4 y5 y6} (h1 : Kept w a y1) :
    Kept w a (State.foldPassed y1 y2 y3 y4 y5 y6) := by
  unfold State.foldPassed
  extract_lets -merge -useContext +onlyGivenNames -underBinder v1 v2 v3 v4 v5 v6
  split
  · extract_lets -merge -useContext +onlyGivenNames -underBinder v7
    have k8 : Kept w a v7 := State.logMap_kept h1
    extract_lets -merge -useContext +onlyGivenNames -underBinder v9
    have k10 : Kept w a v9 := by
      refine Kept.foldl ?_ (fun p11 x11 h11 => ?_)
      · exact k8
      · exact State.logMap_kept h11
    exact State.awaitJournal_kept k10
  · extract_lets -merge -useContext +onlyGivenNames -underBinder v12 v13
    have k14 : Kept w a v13 := by
      refine Kept.foldl ?_ (fun p15 x15 h15 => ?_)
      · exact h1
      · extract_lets -merge -useContext +onlyGivenNames -underBinder v16
        exact State.logMap_kept h15
    split
    refine State.awaitJournal_kept ?_
    refine Kept.foldl ?_ (fun p17 x17 h17 => ?_)
    · exact k14
    · exact State.invalidate_kept h17

theorem State.dropParity_kept {w : Bool} {a : State} {y1 y2 y3} (h1 : Kept w a y1) :
    Kept w a (State.dropParity y1 y2 y3) := by
  unfold State.dropParity
  extract_lets -merge -useContext +onlyGivenNames -underBinder v1
  have k2 : Kept w a v1 := State.freeParity_kept h1
  extract_lets -merge -useContext +onlyGivenNames -underBinder v3
  refine State.checkConvert_kept ?_
  refine Kept.foldl ?_ (fun p4 x4 h4 => ?_)
  · exact k2
  · extract_lets -merge -useContext +onlyGivenNames -underBinder v5
    exact State.setMd_kept h4

theorem State.freeProtection_kept {w : Bool} {a : State} {y1 y2 y3 y4} (h1 : Kept w a y1) :
    Kept w a (State.freeProtection y1 y2 y3 y4) := by
  unfold State.freeProtection
  extract_lets -merge -useContext +onlyGivenNames -underBinder v1 v2
  refine Kept.ite ?_ ?_
  · exact h1
  · exact State.checkConvert_kept (State.changeEntry_kept h1)

/-! ### MediaWork -/

theorem State.lostGranule_kept {w : Bool} {a : State} {y1 y2 y3 y4} (h1 : Kept w a y1) :
    Kept w a (State.lostGranule y1 y2 y3 y4) := by
  unfold State.lostGranule
  exact State.raise_kept (State.bump_kept (State.markLost_kept h1))

theorem State.levelWear_kept {w : Bool} {a : State} {y1 y2} (h1 : Kept w a y1) :
    Kept w a (State.levelWear y1 y2) := by
  unfold State.levelWear
  extract_lets -merge -useContext +onlyGivenNames -underBinder v1 v2
  refine Kept.ite ?_ ?_
  · exact h1
  · extract_lets -merge -useContext +onlyGivenNames -underBinder v3
    split
    · refine Kept.ite ?_ ?_
      · exact State.queueBg_kept h1
      · exact h1
    · exact h1

theorem State.fillReserve_kept {w : Bool} {a : State} {y1 y2} (h1 : Kept w a y1) :
    Kept w a (State.fillReserve y1 y2) := by
  unfold State.fillReserve
  extract_lets -merge -useContext +onlyGivenNames -underBinder v1 v2
  refine Kept.ite ?_ ?_
  · exact h1
  · split
    · exact State.queueBg_kept h1
    · exact h1

theorem execMergeWindowExpiry_kept {a : State} {y1 y2 y3} (h1 : Kept true a y3) :
    Res.kept true a (execMergeWindowExpiry y1 y2 y3) := by
  unfold execMergeWindowExpiry
  extract_lets -merge -useContext +onlyGivenNames -underBinder v1
  split
  · exact Res.kept_next h1
  · refine Res.kept_ite ?_ ?_
    · exact Res.kept_next h1
    · exact Res.kept_next (State.placeStaged_kept h1)

theorem State.halveHeat_kept {w : Bool} {a : State} {y1 y2} (h1 : Kept w a y1) :
    Kept w a (State.halveHeat y1 y2) := by
  unfold State.halveHeat
  extract_lets -merge -useContext +onlyGivenNames -underBinder v1 v2
  have k3 : Kept w a v2 := by
    refine Kept.foldl ?_ (fun p4 x4 h4 => ?_)
    · exact h1
    · exact State.changeEntry_kept h4
  extract_lets -merge -useContext +onlyGivenNames -underBinder v5 v6
  refine Kept.foldl ?_ (fun p7 x7 h7 => ?_)
  · exact State.setMd_kept k3
  · exact State.queueBg_kept h7

theorem execHeatHalving_kept {w : Bool} {a : State} {y1 y2} (h1 : Kept w a y2) :
    Res.kept w a (execHeatHalving y1 y2) := by
  unfold execHeatHalving
  refine onDie_kept ?_ ?_
  · exact h1
  · intro q1
    refine Res.kept_ite ?_ ?_
    · exact Res.kept_next h1
    · exact Res.kept_next (State.halveHeat_kept h1)

theorem State.flushJournal_kept {w : Bool} {a : State} {y1 y2} (h1 : Kept w a y1) :
    Kept w a (State.flushJournal y1 y2) := by
  unfold State.flushJournal
  extract_lets -merge -useContext +onlyGivenNames -underBinder v1 v2
  split
  · rename_i i3 i4 i5
    refine State.issueOp_kept ?_
    refine State.allocateJournal_kept ?_ _ i5
    exact h1
  · rename_i i6 i7
    exact h1

theorem execJournalFlush_kept {w : Bool} {a : State} {y1 y2} (h1 : Kept w a y2) :
    Res.kept w a (execJournalFlush y1 y2) := by
  unfold execJournalFlush
  refine onDie_kept ?_ ?_
  · exact h1
  · intro q1
    refine Res.kept_ite ?_ ?_
    · exact Res.kept_next h1
    · exact Res.kept_next (State.flushJournal_kept h1)

theorem execDieStripeHoldExpiry_kept {a : State} {y1 y2} (h1 : Kept true a y2) :
    Res.kept true a (execDieStripeHoldExpiry y1 y2) := by
  unfold execDieStripeHoldExpiry
  split
  · exact Res.kept_next h1
  · extract_lets -merge -useContext +onlyGivenNames -underBinder v1
    refine Res.kept_ite ?_ ?_
    · exact Res.kept_next h1
    · exact Res.kept_next (State.closeDieStripe_kept h1)

theorem State.stripeErased_kept {a : State} {y1 y2 y3} (h1 : Kept true a y1) :
    Kept true a (State.stripeErased y1 y2 y3) := by
  unfold State.stripeErased
  extract_lets -merge -useContext +onlyGivenNames -underBinder v1
  have k2 : Kept true a v1 := State.leaveChunks_kept h1
  extract_lets -merge -useContext +onlyGivenNames -underBinder v3
  have k4 : Kept true a v3 := by
    refine Kept.foldl ?_ (fun p5 x5 h5 => ?_)
    · exact k2
    · extract_lets -merge -useContext +onlyGivenNames -underBinder v6 v7
      exact State.setMd_kept h5
  extract_lets -merge -useContext +onlyGivenNames -underBinder v8 v9 v10 v11
  have k12 : Kept true a v11 := State.setMd_kept k4
  extract_lets -merge -useContext +onlyGivenNames -underBinder v13
  have k14 : Kept true a v13 := State.wipe_kept (State.wipe_kept k12)
  exact State.highWater_kept (State.setBlocks_kept k14)

theorem State.slcWorn_kept {a : State} {y1 y2 y3} (h1 : Kept true a y1) :
    Kept true a (State.slcWorn y1 y2 y3) := by
  unfold State.slcWorn
  extract_lets -merge -useContext +onlyGivenNames -underBinder v1
  refine Kept.ite ?_ ?_
  · exact h1
  · extract_lets -merge -useContext +onlyGivenNames -underBinder v2 v3 v4
    have k5 : (∀ z0 z1 z2 z3, Kept true a z0 → Kept true a (v4 z0 z1 z2 z3)) := by
      intro q6 q7 q8 q9 q10
      exact State.setObj_kept q10
    extract_lets -merge -useContext +onlyGivenNames -underBinder v11
    have k12 : Kept true a v11 := by
      refine Kept.ite ?_ ?_
      · exact k5 _ _ _ _ h1
      · exact k5 _ _ _ _ (k5 _ _ _ _ h1)
    refine Kept.foldl ?_ (fun p13 x13 h13 => ?_)
    · exact State.setMd_kept k12
    · exact State.retireBlock_kept h13

theorem State.eraseEnds_kept {a : State} {y1 y2 y3 y4 y5 y6} (h1 : Kept true a y1) :
    Kept true a (State.eraseEnds y1 y2 y3 y4 y5 y6) := by
  unfold State.eraseEnds
  extract_lets -merge -useContext +onlyGivenNames -underBinder v1
  have k2 : Kept true a v1 := State.recordErase_kept (State.groupStatus_kept (State.endOp_kept h1))
  extract_lets -merge -useContext +onlyGivenNames -underBinder v3 v4
  have k5 : Kept true a v4 := by
    unfold v4
    split
    · exact State.retireBlock_kept (State.bump_kept k2)
    · exact k2
  extract_lets -merge -useContext +onlyGivenNames -underBinder v6
  have k7 : Kept true a v6 := State.stripeErased_kept k5
  refine Kept.ite ?_ ?_
  · exact State.reportSlc_kept (State.slcWorn_kept k7)
  · extract_lets -merge -useContext +onlyGivenNames -underBinder v8
    have k9 : Kept true a v8 := State.setObj_kept (State.bump_kept k7)
    exact State.reportReserve_kept (State.setObj_kept k9)

theorem execFlashEraseComplete_kept {a : State} {y1 y2 y3 y4} (h1 : Kept true a y4) :
    Res.kept true a (execFlashEraseComplete y1 y2 y3 y4) := by
  unfold execFlashEraseComplete
  refine onDie_kept ?_ ?_
  · exact h1
  · intro q1
    split
    · split
      · refine Res.kept_ite ?_ ?_
        · exact Res.kept_next h1
        · exact Res.kept_next (State.eraseEnds_kept h1)
      · exact Res.kept_next h1
    · exact Res.kept_next h1

theorem State.softReads_kept {w : Bool} {a : State} {y1 y2 y3 y4 y5 y6} (h1 : Kept w a y1) :
    Kept w a (State.softReads y1 y2 y3 y4 y5 y6) := by
  unfold State.softReads
  extract_lets -merge -useContext +onlyGivenNames -underBinder v1 v2
  refine Kept.foldl ?_ (fun p3 x3 h3 => ?_)
  · exact h1
  · exact State.emit_kept h3

theorem State.readStep_kept {w : Bool} {a : State} {y1 y2 y3 y4 y5 y6 y7 y8 y9} (h1 : Kept w a y1) :
    Kept w a (State.readStep y1 y2 y3 y4 y5 y6 y7 y8 y9) := by
  unfold State.readStep
  extract_lets -merge -useContext +onlyGivenNames -underBinder v1
  have k2 : (∀ z0, Kept w a z0 → Kept w a (v1 z0)) := by
    intro q3 q4
    exact State.bump_kept q4
  extract_lets -merge -useContext +onlyGivenNames -underBinder v5
  have k6 : (∀ z0, Kept w a z0 → Kept w a (v5 z0)) := by
    intro q7 q8
    refine Kept.ite ?_ ?_
    · exact State.bump_kept (State.addObj_kept q8)
    · exact q8
  extract_lets -merge -useContext +onlyGivenNames -underBinder v9
  have k10 : (∀ z0, Kept w a (v9 z0)) := by
    intro q11
    exact State.raise_kept (State.refresh_kept (State.bump_kept (k6 _ h1)))
  split
  · extract_lets -merge -useContext +onlyGivenNames -underBinder v12
    have k13 : Kept w a v12 := by
      refine Kept.ite ?_ ?_
      · exact h1
      · exact State.bump_kept h1
    refine Kept.ite ?_ ?_
    · exact State.refresh_kept k13
    · exact k13
  · exact State.refresh_kept (State.bump_kept (State.addObj_kept h1))
  · exact State.refresh_kept (k2 _ (State.bump_kept (State.addObj_kept h1)))
  · refine k10 _
  · refine k10 _

theorem State.judgeReads_kept {w : Bool} {a : State} {y1 y2 y3 y4 y5 y6} (h1 : Kept w a y1) :
    Kept w a (State.judgeReads y1 y2 y3 y4 y5 y6) := by
  unfold State.judgeReads
  extract_lets -merge -useContext +onlyGivenNames -underBinder v1
  have k2 : Kept w a v1 := by
    refine Kept.foldl ?_ (fun p3 x3 h3 => ?_)
    · exact h1
    · exact State.countRead_kept h3
  extract_lets -merge -useContext +onlyGivenNames -underBinder v4
  have k5 : Kept w a v4 := by
    unfold v4
    split
    · extract_lets -merge -useContext +onlyGivenNames -underBinder v6 v7
      refine Kept.ite ?_ ?_
      · exact State.raise_kept (State.bump_kept k2)
      · extract_lets -merge -useContext +onlyGivenNames -underBinder v8
        have k9 : Kept w a v8 := by
          refine Kept.ite ?_ ?_
          · exact State.softReads_kept k2
          · exact k2
        exact State.readStep_kept k9
    · exact k2
  extract_lets -merge -useContext +onlyGivenNames -underBinder v10
  refine Kept.foldl ?_ (fun p11 x11 h11 => ?_)
  · exact k5
  · extract_lets -merge -useContext +onlyGivenNames -underBinder v12
    have k13 : Kept w a v12 := by
      refine Kept.ite ?_ ?_
      · exact State.bump_kept (State.addObj_kept h11)
      · exact h11
    exact State.lostGranule_kept k13

theorem State.noteRead_kept {w : Bool} {a : State} {y1 y2 y3 y4} (h1 : Kept w a y1) :
    Kept w a (State.noteRead y1 y2 y3 y4) := by
  unfold State.noteRead
  extract_lets -merge -useContext +onlyGivenNames -underBinder v1
  exact State.bump_kept (State.addObj_kept h1)

theorem State.copyVerified_kept {w : Bool} {a : State} {y1 y2 y3 y4 y5 y6 y7} (h1 : Kept w a y1) :
    Kept w a (State.copyVerified y1 y2 y3 y4 y5 y6 y7) := by
  unfold State.copyVerified
  extract_lets -merge -useContext +onlyGivenNames -underBinder v1 v2 v3 v4 v5 v6
  have k7 : (∀ z0 z1 z2, Kept w a (v6 z0 z1 z2)) := by
    intro q8 q9 q10
    exact State.checkConvert_kept (State.awaitJournal_kept (State.logMap_kept h1))
  refine Kept.ite ?_ ?_
  · exact State.dropDest_kept h1
  · refine Kept.ite ?_ ?_
    · refine Kept.ite ?_ ?_
      · refine State.forgetLost_kept ?_
        refine k7 _ _ _
      · exact State.dropDest_kept h1
    · refine Kept.ite ?_ ?_
      · extract_lets -merge -useContext +onlyGivenNames -underBinder v11
        have k12 : Kept w a v11 := by
          refine k7 _ _ _
        refine Kept.ite ?_ ?_
        · exact State.bump_kept k12
        · exact k12
      · refine Kept.ite ?_ ?_
        · extract_lets -merge -useContext +onlyGivenNames -underBinder v13 v14 v15
          have k16 : Kept w a v15 := by
            refine Kept.foldl ?_ (fun p17 x17 h17 => ?_)
            · exact h1
            · extract_lets -merge -useContext +onlyGivenNames -underBinder v18
              exact State.logMap_kept h17
          extract_lets -merge -useContext +onlyGivenNames -underBinder v19
          have k20 : Kept w a v19 := State.awaitJournal_kept k16
          exact State.checkConvert_kept (State.changeEntry_kept (State.dropDest_kept k20))
        · exact State.dropDest_kept h1

theorem State.foldUnit_kept {a : State} {y1 y2 y3 y4 y5} (h1 : Kept true a y1) :
    Kept true a (State.foldUnit y1 y2 y3 y4 y5) := by
  unfold State.foldUnit
  extract_lets -merge -useContext +onlyGivenNames -underBinder v1 v2
  refine Kept.ite ?_ ?_
  · exact h1
  · extract_lets -merge -useContext +onlyGivenNames -underBinder v3 v4 v5 v6
    have k7 : Kept true a v6 := by
      refine Kept.foldl ?_ (fun p8 x8 h8 => ?_)
      · exact h1
      · exact State.write_kept h8
    exact State.placeStaged_kept (State.setMd_kept k7)

theorem State.copyProgram_kept {a : State} {y1 y2 y3 y4 y5 y6 y7 y8} (h1 : Kept true a y1) :
    Kept true a (State.copyProgram y1 y2 y3 y4 y5 y6 y7 y8) := by
  unfold State.copyProgram
  extract_lets -merge -useContext +onlyGivenNames -underBinder v1
  refine Kept.ite ?_ ?_
  · exact h1
  · refine Kept.ite ?_ ?_
    · exact State.queueBg_kept h1
    · refine Kept.ite ?_ ?_
      · extract_lets -merge -useContext +onlyGivenNames -underBinder v2
        have k3 : Kept true a v2.1 := State.allocateEach_kept h1
        extract_lets -merge -useContext +onlyGivenNames -underBinder v4
        exact State.bgOp_kept k3
      · extract_lets -merge -useContext +onlyGivenNames -underBinder v5
        have k6 : Kept true a v5.1 := State.allocateCoarse_kept h1
        exact State.bgOp_kept k6

theorem State.startPass_kept {a : State} {y1 y2} (h1 : Kept true a y1) :
    Kept true a (State.startPass y1 y2) := by
  unfold State.startPass
  extract_lets -merge -useContext +onlyGivenNames -underBinder v1 v2
  have k3 : Kept true a v2 := State.setMd_kept h1
  refine Kept.ite ?_ ?_
  · exact k3
  · extract_lets -merge -useContext +onlyGivenNames -underBinder v4
    have k5 : Kept true a v4.1 := State.allocateEach_kept k3
    extract_lets -merge -useContext +onlyGivenNames -underBinder v6
    exact State.bgOp_kept k5

theorem State.scrubStripe_kept {w : Bool} {a : State} {y1 y2 y3} (h1 : Kept w a y1) :
    Kept w a (State.scrubStripe y1 y2 y3) := by
  unfold State.scrubStripe
  extract_lets -merge -useContext +onlyGivenNames -underBinder v1
  split
  · exact h1
  · extract_lets -merge -useContext +onlyGivenNames -underBinder v2 v3
    have k4 : Kept w a v3 := State.setMd_kept h1
    extract_lets -merge -useContext +onlyGivenNames -underBinder v5
    refine Kept.foldl ?_ (fun p6 x6 h6 => ?_)
    · exact k4
    · exact State.bgOn_kept h6

theorem State.moveParity_kept {a : State} {y1 y2 y3 y4} (h1 : Kept true a y1) :
    Kept true a (State.moveParity y1 y2 y3 y4) := by
  unfold State.moveParity
  refine Kept.ite ?_ ?_
  · exact h1
  · extract_lets -merge -useContext +onlyGivenNames -underBinder v1
    have k2 : Kept true a v1.1 := State.allocateCoarse_kept h1
    exact State.bgOp_kept k2

theorem State.startCopy_kept {a : State} {y1 y2 y3} (h1 : Kept true a y1) :
    Kept true a (State.startCopy y1 y2 y3) := by
  unfold State.startCopy
  extract_lets -merge -useContext +onlyGivenNames -underBinder v1
  split
  · extract_lets -merge -useContext +onlyGivenNames -underBinder v2
    refine Kept.ite ?_ ?_
    · exact State.copyProgram_kept h1
    · refine Kept.ite ?_ ?_
      · exact State.checkConvert_kept (State.changeEntry_kept h1)
      · exact h1
  · exact State.bgOp_kept h1

theorem State.startBg_kept {a : State} {y1 y2 y3} (h1 : Kept true a y1) :
    Kept true a (State.startBg y1 y2 y3) := by
  unfold State.startBg
  extract_lets -merge -useContext +onlyGivenNames -underBinder v1 v2
  have k3 : Kept true a v2 := State.setMd_kept h1
  extract_lets -merge -useContext +onlyGivenNames -underBinder v4
  refine Kept.ite ?_ ?_
  · exact h1
  · split
    · exact State.startPass_kept k3
    · refine Kept.ite ?_ ?_
      · exact State.bgOp_kept k3
      · exact h1
    · exact State.scrubStripe_kept k3
    · refine Kept.ite ?_ ?_
      · exact State.bgOn_kept k3
      · exact k3
    · exact State.dropParity_kept k3
    · exact State.moveParity_kept k3
    · refine Kept.ite ?_ ?_
      · exact State.freeProtection_kept k3
      · exact State.startCopy_kept k3

theorem State.issueLater_kept {w : Bool} {a : State} {y1 y2 y3} (h1 : Kept w a y1) :
    Kept w a (State.issueLater y1 y2 y3) := by
  unfold State.issueLater
  refine Kept.foldl ?_ (fun p1 x1 h1 => ?_)
  · exact h1
  · refine Kept.ite ?_ ?_
    · extract_lets -merge -useContext +onlyGivenNames -underBinder v2
      exact State.issueOn_kept (State.chargeSeep_kept (State.setMd_kept h1))
    · exact h1

theorem State.issueBg_kept {a : State} {y1 y2 y3} (h1 : Kept true a y1) :
    Kept true a (State.issueBg y1 y2 y3) := by
  unfold State.issueBg
  refine Kept.foldl ?_ (fun p1 x1 h1 => ?_)
  · exact State.issueLater_kept h1
  · refine Kept.ite ?_ ?_
    · exact State.startBg_kept h1
    · exact h1

theorem State.redirty_kept {w : Bool} {a : State} {y1 y2 y3} (h1 : Kept w a y1) :
    Kept w a (State.redirty y1 y2 y3) := by
  unfold State.redirty
  extract_lets -merge -useContext +onlyGivenNames -underBinder v1 v2 v3 v4
  refine Kept.ite ?_ ?_
  · exact h1
  · exact State.beginPass_kept (State.setMd_kept h1)

theorem State.expandAll_kept {w : Bool} {a : State} {y1 y2} (h1 : Kept w a y1) :
    Kept w a (State.expandAll y1 y2) := by
  unfold State.expandAll
  extract_lets -merge -useContext +onlyGivenNames -underBinder v1
  have k2 : Kept w a v1 := State.redirty_kept h1
  extract_lets -merge -useContext +onlyGivenNames -underBinder v3
  exact State.setMd_kept k2

theorem State.queueAged_kept {w : Bool} {a : State} {y1 y2} (h1 : Kept w a y1) :
    Kept w a (State.queueAged y1 y2) := by
  unfold State.queueAged
  extract_lets -merge -useContext +onlyGivenNames -underBinder v1
  refine Kept.foldl ?_ (fun p2 x2 h2 => ?_)
  · exact h1
  · refine Kept.foldl ?_ (fun p3 x3 h3 => ?_)
    · exact h2
    · extract_lets -merge -useContext +onlyGivenNames -underBinder v4 v5
      refine Kept.ite ?_ ?_
      · exact State.refresh_kept h3
      · exact h3

theorem State.queueScrubs_kept {w : Bool} {a : State} {y1 y2} (h1 : Kept w a y1) :
    Kept w a (State.queueScrubs y1 y2) := by
  unfold State.queueScrubs
  extract_lets -merge -useContext +onlyGivenNames -underBinder v1 v2
  refine Kept.foldl ?_ (fun p3 x3 h3 => ?_)
  · exact h1
  · exact State.queueBg_kept h3

theorem State.seep_kept {a : State} {y1 y2} (h1 : Kept true a y1) :
    Kept true a (State.seep y1 y2) := by
  unfold State.seep
  refine Kept.foldl ?_ (fun p1 x1 h1 => ?_)
  · exact State.expandAll_kept (State.queueAged_kept (State.queueScrubs_kept h1))
  · exact State.issueBg_kept h1

theorem execSeepWindowStart_kept {a : State} {y1 y2} (h1 : Kept true a y2) :
    Res.kept true a (execSeepWindowStart y1 y2) := by
  unfold execSeepWindowStart
  refine onDie_kept ?_ ?_
  · exact h1
  · intro q1
    refine Res.kept_ite ?_ ?_
    · exact Res.kept_next h1
    · refine Res.kept_ite ?_ ?_
      · exact Res.kept_next h1
      · exact Res.kept_next (State.seep_kept h1)

theorem State.rebuildAcc_kept {a : State} {y1 y2 y3} (h1 : Kept true a y1) :
    Kept true a (State.rebuildAcc y1 y2 y3) := by
  unfold State.rebuildAcc
  refine Kept.foldl ?_ (fun p1 x1 h1 => ?_)
  · exact h1
  · extract_lets -merge -useContext +onlyGivenNames -underBinder v2
    exact State.write_kept h1

theorem State.restoreChunks_kept {a : State} {y1 y2} (h1 : Kept true a y1) :
    Kept true a (State.restoreChunks y1 y2) := by
  unfold State.restoreChunks
  extract_lets -merge -useContext +onlyGivenNames -underBinder v1 v2
  refine Kept.foldl ?_ (fun p3 x3 h3 => ?_)
  · exact h1
  · extract_lets -merge -useContext +onlyGivenNames -underBinder v4 v5 v6
    have k7 : Kept true a v6 := State.rebuildAcc_kept h3
    extract_lets -merge -useContext +onlyGivenNames -underBinder v8 v9
    have k10 : Kept true a v9 := State.setMd_kept k7
    refine Kept.ite ?_ ?_
    · exact State.writeParity_kept k10
    · exact k10

theorem State.queueLost_kept {w : Bool} {a : State} {y1 y2} (h1 : Kept w a y1) :
    Kept w a (State.queueLost y1 y2) := by
  unfold State.queueLost
  refine Kept.foldl ?_ (fun p1 x1 h1 => ?_)
  · exact h1
  · refine Kept.foldl ?_ (fun p2 x2 h2 => ?_)
    · exact h1
    · exact State.queueBg_kept h2

theorem State.restoreMaps_kept {a : State} {y1 y2 y3} (h1 : Kept true a y1) :
    Kept true a ((State.restoreMaps y1 y2 y3).1) := by
  unfold State.restoreMaps
  extract_lets -merge -useContext +onlyGivenNames -underBinder v1 v2 v3 v4 v5 v6 v7
  have k8 : Kept true a v7 := State.setObj_kept (State.setObj_kept (State.setObj_kept (State.setMd_kept h1)))
  extract_lets -merge -useContext +onlyGivenNames -underBinder v9
  have k10 : Kept true a v9 := by
    refine Kept.foldl ?_ (fun p11 x11 h11 => ?_)
    · exact k8
    · refine Kept.ite ?_ ?_
      · exact State.closeStripe_kept h11
      · refine Kept.ite ?_ ?_
        · exact State.awaitErase_kept h11
        · exact h11
  extract_lets -merge -useContext +onlyGivenNames -underBinder v12 v13 v14 v15
  have k16 : Kept true a v15 := Kept.put k10
  extract_lets -merge -useContext +onlyGivenNames -underBinder v17 v18 v19
  have k20 : Kept true a v19 := by
    refine Kept.foldl ?_ (fun p21 x21 h21 => ?_)
    · exact k16
    · exact State.queueBg_kept h21
  exact State.reportSlc_kept (State.reportErase_kept (State.restoreChunks_kept (State.queueLost_kept k20)))

/-! ### Flash -/

theorem State.stepDown_kept {a : State} {y1 y2 y3} (h1 : Kept true a y1) :
    Kept true a (State.stepDown y1 y2 y3) := by
  unfold State.stepDown
  extract_lets -merge -useContext +onlyGivenNames -underBinder v1 v2
  have k3 : Kept true a v2 := State.bump_kept (State.bump_kept (State.bump_kept (State.setObj_kept h1)))
  exact State.trainAt_kept (State.raise_kept k3)

theorem State.makeStepDowns_kept {a : State} {y1} (h1 : Kept true a y1) :
    Kept true a (State.makeStepDowns y1) := by
  unfold State.makeStepDowns
  refine Kept.ite ?_ ?_
  · exact h1
  · refine Kept.foldl ?_ (fun p1 x1 h1 => ?_)
    · exact h1
    · refine Kept.foldl ?_ (fun p2 x2 h2 => ?_)
      · exact h1
      · refine Kept.ite ?_ ?_
        · exact State.stepDown_kept h2
        · exact h2

theorem State.checkChannel_kept {a : State} {y1 y2 y3 y4} (h1 : Kept true a y1) :
    Kept true a (State.checkChannel y1 y2 y3 y4) := by
  unfold State.checkChannel
  extract_lets -merge -useContext +onlyGivenNames -underBinder v1 v2
  have k3 : Kept true a v2 := State.setObj_kept h1
  refine Kept.ite ?_ ?_
  · exact k3
  · extract_lets -merge -useContext +onlyGivenNames -underBinder v4
    have k5 : Kept true a v4 := State.raise_kept k3
    refine Kept.ite ?_ ?_
    · exact State.setObj_kept k5
    · exact State.stepDown_kept k5

theorem execChannelCheck_kept {a : State} {y1 y2 y3 y4} (h1 : Kept true a y4) :
    Res.kept true a (execChannelCheck y1 y2 y3 y4) := by
  unfold execChannelCheck
  refine Res.kept_ite ?_ ?_
  · exact Res.kept_fault
  · extract_lets -merge -useContext +onlyGivenNames -underBinder v1
    refine Res.kept_ite ?_ ?_
    · exact Res.kept_next h1
    · exact Res.kept_next (State.checkChannel_kept (State.setMd_kept h1))

theorem State.opTimesOut_kept {a : State} {y1 y2 y3 y4 y5} (h1 : Kept true a y1) :
    Kept true a (State.opTimesOut y1 y2 y3 y4 y5) := by
  unfold State.opTimesOut
  extract_lets -merge -useContext +onlyGivenNames -underBinder v1 v2
  have k3 : Kept true a v2 := State.closeGroup_kept (State.bump_kept (State.setMd_kept h1))
  extract_lets -merge -useContext +onlyGivenNames -underBinder v4
  have k5 : Kept true a v4 := State.emit_kept k3
  refine Kept.ite ?_ ?_
  · exact State.retrainChannel_kept k5
  · exact k5

theorem execFlashOperationTimeout_kept {a : State} {y1 y2 y3 y4 y5} (h1 : Kept true a y5) :
    Res.kept true a (execFlashOperationTimeout y1 y2 y3 y4 y5) := by
  unfold execFlashOperationTimeout
  refine Res.kept_ite ?_ ?_
  · exact Res.kept_fault
  · refine Res.kept_ite ?_ ?_
    · exact Res.kept_next h1
    · refine Res.kept_ite ?_ ?_
      · exact Res.kept_next h1
      · exact Res.kept_next (State.opTimesOut_kept h1)

theorem State.targetBack_kept {a : State} {y1 y2 y3 y4 y5 y6 y7} (h1 : Kept true a y1) :
    Kept true a (State.targetBack y1 y2 y3 y4 y5 y6 y7) := by
  unfold State.targetBack
  extract_lets -merge -useContext +onlyGivenNames -underBinder v1 v2
  have k3 : Kept true a v2 := State.setMd_kept h1
  refine Kept.ite ?_ ?_
  · exact State.raise_kept (State.bump_kept (State.bump_kept k3))
  · exact State.reportReserve_kept (State.failTarget_kept k3)

theorem execTargetResetWaitExpiry_kept {a : State} {y1 y2 y3 y4 y5 y6} (h1 : Kept true a y6) :
    Res.kept true a (execTargetResetWaitExpiry y1 y2 y3 y4 y5 y6) := by
  unfold execTargetResetWaitExpiry
  refine Res.kept_ite ?_ ?_
  · exact Res.kept_fault
  · extract_lets -merge -useContext +onlyGivenNames -underBinder v1
    split
    · exact Res.kept_next h1
    · refine Res.kept_ite ?_ ?_
      · exact Res.kept_next h1
      · exact Res.kept_next (State.targetBack_kept h1)

theorem State.reportChannels_kept {a : State} {y1 y2 y3 y4} (h1 : Kept true a y1) :
    Kept true a (State.reportChannels y1 y2 y3 y4) := by
  unfold State.reportChannels
  refine Kept.foldl ?_ (fun p1 x1 h1 => ?_)
  · exact h1
  · extract_lets -merge -useContext +onlyGivenNames -underBinder v2 v3 v4
    have k5 : Kept true a v4 := State.addObj_kept (State.setObj_kept (State.setObj_kept (State.setObj_kept h1)))
    refine Kept.ite ?_ ?_
    · refine Kept.ite ?_ ?_
      · exact State.failChannel_kept k5
      · exact State.raise_kept (State.bump_kept k5)
    · refine Kept.ite ?_ ?_
      · exact State.raise_kept k5
      · exact k5

theorem State.reportPart_kept {w : Bool} {a : State} {y1 y2 y3 y4} (h1 : Kept w a y1) :
    Kept w a (State.reportPart y1 y2 y3 y4) := by
  unfold State.reportPart
  extract_lets -merge -useContext +onlyGivenNames -underBinder v1
  have k2 : (∀ z0 z1, Kept w a z0 → Kept w a (v1 z0 z1)) := by
    intro q3 q4 q5
    exact State.setObj_kept q5
  refine Kept.foldl ?_ (fun p6 x6 h6 => ?_)
  · exact h1
  · exact k2 _ _ h6

theorem State.compareRecorded_kept {a : State} {y1 y2 y3} (h1 : Kept true a y1) :
    Kept true a (State.compareRecorded y1 y2 y3) := by
  unfold State.compareRecorded
  extract_lets -merge -useContext +onlyGivenNames -underBinder v1
  have k2 : Kept true a v1 := by
    refine Kept.foldl ?_ (fun p3 x3 h3 => ?_)
    · exact h1
    · extract_lets -merge -useContext +onlyGivenNames -underBinder v4 v5 v6
      refine Kept.ite ?_ ?_
      · exact State.failOne_kept h3
      · refine Kept.ite ?_ ?_
        · exact State.setObj_kept h3
        · exact h3
  extract_lets -merge -useContext +onlyGivenNames -underBinder v7
  refine Kept.ite ?_ ?_
  · exact k2
  · exact State.raise_kept (State.setObj_kept k2)

theorem State.firstFormat_kept {w : Bool} {a : State} {y1 y2 y3 y4} (h1 : Kept w a y1) :
    Kept w a (State.firstFormat y1 y2 y3 y4) := by
  unfold State.firstFormat
  extract_lets -merge -useContext +onlyGivenNames -underBinder v1 v2 v3 v4 v5 v6 v7 v8 v9 v10
  have k11 : Kept w a v10 := State.setMd_kept h1
  extract_lets -merge -useContext +onlyGivenNames -underBinder v12
  have k13 : (∀ z0 z1, Kept w a z0 → Kept w a (v12 z0 z1)) := by
    intro q14 q15 q16
    exact State.setObj_kept q16
  extract_lets -merge -useContext +onlyGivenNames -underBinder v17
  have k18 : Kept w a v17 := by
    refine Kept.foldl ?_ (fun p19 x19 h19 => ?_)
    · exact k11
    · exact k13 _ _ h19
  refine State.reportSlc_kept ?_
  refine State.reportErase_kept ?_
  refine Kept.foldl ?_ (fun p20 x20 h20 => ?_)
  · exact k18
  · exact State.raise_kept h20

theorem State.setTargets_kept {w : Bool} {a : State} {y1 y2 y3} (h1 : Kept w a y1) :
    Kept w a (State.setTargets y1 y2 y3) := by
  unfold State.setTargets
  refine Kept.foldl ?_ (fun p1 x1 h1 => ?_)
  · exact h1
  · refine Kept.foldl ?_ (fun p2 x2 h2 => ?_)
    · exact h1
    · exact State.setObj_kept h2

theorem State.reportRates_kept {w : Bool} {a : State} {y1 y2 y3} (h1 : Kept w a y1) :
    Kept w a (State.reportRates y1 y2 y3) := by
  unfold State.reportRates
  extract_lets -merge -useContext +onlyGivenNames -underBinder v1
  have k2 : Kept w a v1 := State.setObj_kept h1
  extract_lets -merge -useContext +onlyGivenNames -underBinder v3 v4
  have k5 : Kept w a v4 := State.setObj_kept (State.setObj_kept k2)
  exact State.reportReserve_kept (State.reportSlc_kept (State.reportStaged_kept k5))

/-! ### HostBase -/

theorem State.settleQuiesce_kept {w : Bool} {a : State} {y1 y2} (h1 : Kept w a y1) :
    Kept w a (State.settleQuiesce y1 y2) := by
  unfold State.settleQuiesce
  split
  · extract_lets -merge -useContext +onlyGivenNames -underBinder v1
    refine Kept.ite ?_ ?_
    · exact State.modCtrl_kept h1
    · exact h1
  · exact h1

theorem State.dropCmd_kept {w : Bool} {a : State} {y1 y2 y3 y4} (h1 : Kept w a y1) :
    Kept w a (State.dropCmd y1 y2 y3 y4) := by
  unfold State.dropCmd
  extract_lets -merge -useContext +onlyGivenNames -underBinder v1
  have k2 : Kept w a v1 := State.modCtrl_kept h1
  exact Kept.put k2

theorem State.countStatus_kept {w : Bool} {a : State} {y1 y2 y3} (h1 : Kept w a y1) :
    Kept w a (State.countStatus y1 y2 y3) := by
  unfold State.countStatus
  refine Kept.ite ?_ ?_
  · exact State.bump_kept h1
  · refine Kept.ite ?_ ?_
    · exact State.bump_kept h1
    · refine Kept.ite ?_ ?_
      · exact State.bump_kept h1
      · exact h1

theorem State.logError_kept {w : Bool} {a : State} {y1 y2 y3 y4 y5 y6 y7 y8} (h1 : Kept w a y1) :
    Kept w a (State.logError y1 y2 y3 y4 y5 y6 y7 y8) := by
  unfold State.logError
  extract_lets -merge -useContext +onlyGivenNames -underBinder v1
  have k2 : Kept w a v1 := State.modCtrl_kept h1
  exact State.bump_kept (State.bump_kept k2)

theorem State.warnOutside_kept {w : Bool} {a : State} {y1 y2 y3} (h1 : Kept w a y1) (h2 : Kept w a y2) :
    Kept w a (State.warnOutside y1 y2 y3) := by
  unfold State.warnOutside
  extract_lets -merge -useContext +onlyGivenNames -underBinder v1
  refine Kept.ite ?_ ?_
  · exact State.raiseOnce_kept h1
  · exact h1

theorem State.modCmd_kept {w : Bool} {a : State} {y1 y2 y3} (h1 : Kept w a y1) :
    Kept w a (State.modCmd y1 y2 y3) := by
  unfold State.modCmd
  exact State.modCtrl_kept h1

theorem State.modSq_kept {w : Bool} {a : State} {y1 y2 y3 y4} (h1 : Kept w a y1) :
    Kept w a (State.modSq y1 y2 y3 y4) := by
  unfold State.modSq
  exact State.modCtrl_kept h1

theorem State.postOrdered_kept {w : Bool} {a : State} {y1 y2 y3 y4} (h1 : Kept w a y1) :
    Kept w a (State.postOrdered y1 y2 y3 y4) := by
  induction y4 generalizing y1 y2 y3 with
  | zero =>
    unfold State.postOrdered
    exact h1
  | succ n ih =>
    unfold State.postOrdered
    split
    · exact h1
    · split
      · exact h1
      · split
        · exact h1
        · extract_lets -merge -useContext +onlyGivenNames -underBinder v3
          split
          · exact ih (State.postCqe_kept (State.dropCmd_kept h1))
          · exact h1

theorem State.endCmd_kept {w : Bool} {a : State} {y1 y2 y3 y4 y5 y6 y7} (h1 : Kept w a y1) :
    Kept w a (State.endCmd y1 y2 y3 y4 y5 y6 y7) := by
  unfold State.endCmd
  extract_lets -merge -useContext +onlyGivenNames -underBinder v1 v2
  split
  · exact h1
  · refine Kept.ite ?_ ?_
    · exact h1
    · split
      · exact State.settleQuiesce_kept (State.dropCmd_kept h1)
      · extract_lets -merge -useContext +onlyGivenNames -underBinder v3
        have k4 : Kept w a v3 := State.countStatus_kept h1
        refine Kept.ite ?_ ?_
        · extract_lets -merge -useContext +onlyGivenNames -underBinder v5
          have k6 : Kept w a v5 := by
            refine Kept.ite ?_ ?_
            · exact State.logError_kept k4
            · exact k4
          refine State.settleQuiesce_kept ?_
          refine State.warnOutside_kept ?_ ?_
          · exact State.postCqe_kept (State.dropCmd_kept k6)
          · exact k6
        · extract_lets -merge -useContext +onlyGivenNames -underBinder v7
          have k8 : Kept w a v7 := State.modCmd_kept k4
          extract_lets -merge -useContext +onlyGivenNames -underBinder v9 v10
          have k11 : Kept w a v10 := by
            refine Kept.ite ?_ ?_
            · exact State.raise_kept (State.bump_kept (State.logError_kept (State.modSq_kept k8)))
            · exact k8
          refine State.settleQuiesce_kept ?_
          refine State.warnOutside_kept ?_ ?_
          · exact State.postOrdered_kept k11
          · exact k4

theorem State.settleFlushes_kept {w : Bool} {a : State} {y1} (h1 : Kept w a y1) :
    Kept w a (State.settleFlushes y1) := by
  unfold State.settleFlushes
  extract_lets -merge -useContext +onlyGivenNames -underBinder v1 v2 v3
  have k4 : Kept w a v3 := Kept.put h1
  refine Kept.foldl ?_ (fun p5 x5 h5 => ?_)
  · exact k4
  · exact State.highWater_kept (State.endCmd_kept h5)

theorem State.complete_kept {w : Bool} {a : State} {y1 y2 y3 y4 y5 y6 y7} (h1 : Kept w a y1) :
    Kept w a (State.complete y1 y2 y3 y4 y5 y6 y7) := by
  unfold State.complete
  exact State.settleFlushes_kept (State.endCmd_kept h1)

theorem State.exitDone_kept {w : Bool} {a : State} {y1 y2 y3 y4 y5} (h1 : Kept w a y1) :
    Kept w a (State.exitDone y1 y2 y3 y4 y5) := by
  unfold State.exitDone
  exact State.bump_kept (State.complete_kept h1)

theorem State.settleExits_kept {w : Bool} {a : State} {y1} (h1 : Kept w a y1) :
    Kept w a (State.settleExits y1) := by
  unfold State.settleExits
  refine Kept.foldl ?_ (fun p1 x1 h1 => ?_)
  · exact h1
  · extract_lets -merge -useContext +onlyGivenNames -underBinder v2 v3
    have k4 : Kept w a v3 := Kept.put h1
    refine Kept.ite ?_ ?_
    · exact State.exitDone_kept k4
    · exact k4

theorem State.homeUnit_kept {w : Bool} {a : State} {y1 y2 y3} (h1 : Kept w a y1) :
    Kept w a (State.homeUnit y1 y2 y3) := by
  unfold State.homeUnit
  extract_lets -merge -useContext +onlyGivenNames -underBinder v1 v2 v3 v4
  refine State.setUnit_kept ?_
  refine Kept.foldl ?_ (fun p5 x5 h5 => ?_)
  · exact h1
  · exact State.markLost_kept h5

theorem State.stageGranules_kept {a : State} {y1 y2 y3 y4 y5 y6 y7 y8} (h1 : Kept true a y1) :
    (∀ z0, State.stageGranules y1 y2 y3 y4 y5 y6 y7 y8 = some z0 → Kept true a z0) := by
  unfold State.stageGranules
  intro z hz
  obtain ⟨r, hr, rfl⟩ := Option.map_eq_some_iff.mp hz
  exact Kept.put (State.putStaged_kept (State.homeUnit_kept h1) _ hr)

theorem State.zeroGranules_kept {a : State} {y1 y2 y3 y4 y5 y6} (h1 : Kept true a y1) :
    Kept true a (State.zeroGranules y1 y2 y3 y4 y5 y6) := by
  unfold State.zeroGranules
  dsimp only
  split
  · exact h1
  · split
    · rename_i t e
      exact State.placeDue_kept (State.stageGranules_kept h1 _ e)
    · exact Kept.getD (fun t e => State.stageGranules_kept (State.placeMerged_kept h1) _ e) h1

theorem State.dropFine_kept {w : Bool} {a : State} {y1 y2 y3 y4 y5} (h1 : Kept w a y1) :
    Kept w a (State.dropFine y1 y2 y3 y4 y5) := by
  unfold State.dropFine
  extract_lets -merge -useContext +onlyGivenNames -underBinder v1 v2 v3
  refine Kept.ite ?_ ?_
  · exact h1
  · extract_lets -merge -useContext +onlyGivenNames -underBinder v4
    have k5 : Kept w a v4 := by
      refine Kept.foldl ?_ (fun p6 x6 h6 => ?_)
      · exact h1
      · exact State.logMap_kept h6
    extract_lets -merge -useContext +onlyGivenNames -underBinder v7
    have k8 : Kept w a v7 := by
      refine Kept.foldl ?_ (fun p9 x9 h9 => ?_)
      · exact k5
      · exact State.markLost_kept h9
    exact State.awaitJournal_kept (State.endGroup_kept k8)

theorem State.deallocate_kept {a : State} {y1 y2 y3 y4 y5 y6} (h1 : Kept true a y1) :
    Kept true a (State.deallocate y1 y2 y3 y4 y5 y6) := by
  unfold State.deallocate
  refine Kept.foldl ?_ (fun p1 x1 h1 => ?_)
  · exact h1
  · extract_lets -merge -useContext +onlyGivenNames -underBinder v2 v3 v4 v5 v6 v7
    refine Kept.ite ?_ ?_
    · extract_lets -merge -useContext +onlyGivenNames -underBinder v8
      have k9 : Kept true a v8 := by
        refine Kept.foldl ?_ (fun p10 x10 h10 => ?_)
        · exact h1
        · exact State.unstage_kept h10
      extract_lets -merge -useContext +onlyGivenNames -underBinder v11
      have k12 : Kept true a v11 := by
        refine Kept.foldl ?_ (fun p13 x13 h13 => ?_)
        · exact k9
        · exact State.markLost_kept h13
      exact State.unmapUnit_kept k12
    · refine Kept.ite ?_ ?_
      · exact State.zeroGranules_kept (State.dropFine_kept h1)
      · refine Kept.ite ?_ ?_
        · exact State.zeroGranules_kept h1
        · exact State.zeroGranules_kept h1

theorem State.deallocAll_kept {a : State} {y1 y2} (h1 : Kept true a y1) :
    Kept true a (State.deallocAll y1 y2) := by
  unfold State.deallocAll
  extract_lets -merge -useContext +onlyGivenNames -underBinder v1
  have k2 : Kept true a v1 := by
    refine Kept.foldl ?_ (fun p3 x3 h3 => ?_)
    · exact h1
    · exact State.deallocate_kept h3
  extract_lets -merge -useContext +onlyGivenNames -underBinder v4
  exact Kept.put k2

theorem State.tryWrite_kept {a : State} {y1 y2 y3} (h1 : Kept true a y1) :
    (∀ z0, State.tryWrite y1 y2 y3 = some z0 → Kept true a z0) := by
  unfold State.tryWrite
  intro z hz
  dsimp only at hz
  split at hz
  · cases hz
  · split at hz
    · cases hz
      exact State.deallocAll_kept h1
    · split at hz
      · cases hz
      · obtain ⟨t, ht, rfl⟩ := Option.map_eq_some_iff.mp hz
        have kt : Kept true a t := Kept.foldlO (fun x hx => by
            cases hx
            exact Kept.foldl h1 (fun s b hs => Kept.ite (State.drainDie_kept hs) hs))
          (fun s u x hs hx => State.stageGranules_kept hs _ hx) t ht
        refine Kept.ite (Kept.foldl (Kept.put ?_) (fun s u hs => State.placeMerged_kept hs)) (Kept.put ?_)
        · exact Kept.foldl (Kept.foldl kt (fun s b hs => State.setMd_kept hs)) (fun s u hs => State.placeDue_kept hs)
        · exact Kept.foldl (Kept.foldl kt (fun s b hs => State.setMd_kept hs)) (fun s u hs => State.placeDue_kept hs)

theorem State.allQuiet_kept {w : Bool} {a : State} {y1} (h1 : Kept w a y1) :
    Kept w a (State.allQuiet y1) := by
  unfold State.allQuiet
  refine Kept.ite ?_ ?_
  · refine Kept.foldl ?_ (fun p1 x1 h1 => ?_)
    · exact h1
    · refine Kept.ite ?_ ?_
      · exact State.beginPass_kept h1
      · exact h1
  · exact h1

theorem State.settleShut_kept {w : Bool} {a : State} {y1} (h1 : Kept w a y1) :
    Kept w a (State.settleShut y1) := by
  unfold State.settleShut
  extract_lets -merge -useContext +onlyGivenNames -underBinder v1
  refine Kept.ite ?_ ?_
  · exact h1
  · refine State.allQuiet_kept ?_
    refine Kept.foldl ?_ (fun p2 x2 h2 => ?_)
    · exact h1
    · exact State.modCtrl_kept h2

theorem State.settleWrites_kept {w : Bool} {a : State} {y1} (h1 : Kept w a y1) :
    Kept w a (State.settleWrites y1) := by
  unfold State.settleWrites
  extract_lets -merge -useContext +onlyGivenNames -underBinder v1 v2 v3
  have k4 : Kept w a v3 := Kept.put h1
  refine State.settleShut_kept ?_
  refine State.settleFlushes_kept ?_
  refine Kept.foldl ?_ (fun p5 x5 h5 => ?_)
  · exact k4
  · exact State.complete_kept h5

theorem State.retryStalled_kept {a : State} {y1} (h1 : Kept true a y1) :
    Kept true a (State.retryStalled y1) := by
  unfold State.retryStalled
  refine State.settleExits_kept ?_
  refine Kept.foldl ?_ (fun p1 x1 h1 => ?_)
  · exact h1
  · extract_lets -merge -useContext +onlyGivenNames -underBinder v2 v3
    have k4 : Kept true a v3 := Kept.put h1
    split
    · rename_i i5 i6 i7
      extract_lets -merge -useContext +onlyGivenNames -underBinder v8
      have k9 : Kept true a v8 := by
        unfold v8
        split
        · refine State.pondPut_kept ?_
          refine State.tryWrite_kept ?_ _ i7
          exact k4
        · refine State.tryWrite_kept ?_ _ i7
          exact k4
      exact State.settleWrites_kept k9
    · rename_i i10 i11
      exact h1

theorem State.finish_kept {a : State} {y1 y2 y3 y4 y5 y6 y7} (h1 : Kept true a y1) :
    Kept true a (State.finish y1 y2 y3 y4 y5 y6 y7) := by
  unfold State.finish
  exact State.retryStalled_kept (State.complete_kept h1)

theorem State.noteVendor_kept {w : Bool} {a : State} {y1 y2 y3 y4} (h1 : Kept w a y1) :
    Kept w a (State.noteVendor y1 y2 y3 y4) := by
  unfold State.noteVendor
  exact State.setObj_kept (State.setObj_kept (State.setObj_kept h1))

theorem State.failVendor_kept {a : State} {y1 y2 y3 y4 y5} (h1 : Kept true a y1) :
    Kept true a (State.failVendor y1 y2 y3 y4 y5) := by
  unfold State.failVendor
  refine Kept.ite ?_ ?_
  · exact State.finish_kept (State.noteVendor_kept h1)
  · exact h1

theorem State.noteUnreadable_kept {w : Bool} {a : State} {y1 y2 y3 y4} (h1 : Kept w a y1) :
    Kept w a (State.noteUnreadable y1 y2 y3 y4) := by
  unfold State.noteUnreadable
  extract_lets -merge -useContext +onlyGivenNames -underBinder v1
  split
  · exact State.deliverPoison_kept h1
  · refine Kept.ite ?_ ?_
    · exact h1
    · exact State.lostGranule_kept h1

theorem State.succeed_kept {a : State} {y1 y2 y3} (h1 : Kept true a y1) :
    Kept true a (State.succeed y1 y2 y3) := by
  unfold State.succeed
  exact State.finish_kept h1

theorem State.addSmart_kept {w : Bool} {a : State} {y1 y2 y3} (h1 : Kept w a y1) :
    Kept w a (State.addSmart y1 y2 y3) := by
  unfold State.addSmart
  exact Kept.put h1

theorem State.noteBusy_kept {w : Bool} {a : State} {y1} (h1 : Kept w a y1) :
    Kept w a (State.noteBusy y1) := by
  unfold State.noteBusy
  extract_lets -merge -useContext +onlyGivenNames -underBinder v1
  refine Kept.ite ?_ ?_
  · exact h1
  · extract_lets -merge -useContext +onlyGivenNames -underBinder v2
    have k3 : Kept w a v2 := State.addSmart_kept h1
    exact Kept.put k3

theorem State.failCmd_kept {a : State} {y1 y2 y3 y4} (h1 : Kept true a y1) :
    Kept true a (State.failCmd y1 y2 y3 y4) := by
  unfold State.failCmd
  exact State.finish_kept h1

theorem State.dataOut_kept {w : Bool} {a : State} {y1 y2 y3} (h1 : Kept w a y1) :
    Kept w a (State.dataOut y1 y2 y3) := by
  unfold State.dataOut
  extract_lets -merge -useContext +onlyGivenNames -underBinder v1
  have k2 : Kept w a v1 := by
    refine Kept.foldl ?_ (fun p3 x3 h3 => ?_)
    · exact h1
    · exact State.useFree_kept (State.touchHost_kept h3)
  refine State.warnOutside_kept ?_ ?_
  · exact State.emit_kept k2
  · exact h1

theorem onCmd_kept {w : Bool} {a : State} {y1 y2 y3} (h1 : Kept w a y1) (h2 : (∀ z0, Res.kept w a (y3 z0))) :
    Res.kept w a (onCmd y1 y2 y3) := by
  unfold onCmd
  refine Res.kept_ite ?_ ?_
  · refine h2 _
  · exact Res.kept_fault

theorem startCmd_kept {w : Bool} {a : State} {y1 y2 y3} (h1 : Kept w a y1) (h2 : (∀ z0, Res.kept w a (y3 z0))) :
    Res.kept w a (startCmd y1 y2 y3) := by
  unfold startCmd
  refine onCmd_kept ?_ ?_
  · exact h1
  · intro q1
    refine Res.kept_ite ?_ ?_
    · refine h2 _
    · exact Res.kept_next h1

theorem State.started_kept {a : State} {y1 y2} (h1 : Kept true a y1) :
    Kept true a (State.started y1 y2) := by
  unfold State.started
  exact State.retryStalled_kept (State.settleFlushes_kept (State.modCmd_kept h1))

theorem State.safeFail_kept {a : State} {y1 y2 y3} (h1 : Kept true a y1) :
    Kept true a (State.safeFail y1 y2 y3) := by
  unfold State.safeFail
  exact State.failVendor_kept (State.bump_kept h1)

theorem State.countVendor_kept {w : Bool} {a : State} {y1 y2 y3} (h1 : Kept w a y1) :
    Kept w a (State.countVendor y1 y2 y3) := by
  unfold State.countVendor
  extract_lets -merge -useContext +onlyGivenNames -underBinder v1 v2 v3
  exact State.setDom_kept h1

theorem State.stall_kept {w : Bool} {a : State} {y1 y2} (h1 : Kept w a y1) :
    Kept w a (State.stall y1 y2) := by
  unfold State.stall
  extract_lets -merge -useContext +onlyGivenNames -underBinder v1 v2
  have k3 : Kept w a v2 := by
    refine Kept.foldl ?_ (fun p4 x4 h4 => ?_)
    · exact h1
    · extract_lets -merge -useContext +onlyGivenNames -underBinder v5 v6 v7
      have k8 : Kept w a v7 := by
        refine Kept.ite ?_ ?_
        · exact State.setMd_kept h4
        · exact h4
      refine Kept.ite ?_ ?_
      · exact State.raiseOnce_kept k8
      · exact k8
  exact Kept.put k3

theorem State.acceptWrite_kept {a : State} {y1 y2} (h1 : Kept true a y1) :
    Kept true a (State.acceptWrite y1 y2) := by
  unfold State.acceptWrite
  extract_lets -merge -useContext +onlyGivenNames -underBinder v1
  split
  · rename_i i2 i3 i4
    refine State.settleWrites_kept ?_
    refine State.started_kept ?_
    refine State.tryWrite_kept ?_ _ i4
    exact h1
  · rename_i i5 i6
    exact State.started_kept (State.stall_kept h1)

theorem State.taskWrite_kept {a : State} {y1 y2 y3 y4 y5 y6 y7} (h1 : Kept true a y1) :
    Kept true a (State.taskWrite y1 y2 y3 y4 y5 y6 y7) := by
  unfold State.taskWrite
  exact State.acceptWrite_kept h1

end Sys2Proof.Machine
end

