-- ==== Sys2Proof/Laws/KeptTakes.lean ====
section
/-!
SUPPORT. What each operation and row leaves alone (`Kept`): tasks, searches, filters, takes, engines and bands. One lemma for each, composed from those of the operations it calls.
-/

set_option Elab.async false

namespace Sys2Proof.Machine

/-! ### TaskBase -/

theorem State.setCd_kept {w : Bool} {a : State} {y1 y2 y3} (h1 : Kept w a y1) :
    Kept w a (State.setCd y1 y2 y3) := by
  unfold State.setCd
  exact Kept.put h1

theorem State.setTask_kept {w : Bool} {a : State} {y1 y2 y3 y4} (h1 : Kept w a y1) :
    Kept w a (State.setTask y1 y2 y3 y4) := by
  unfold State.setTask
  exact State.setCd_kept h1

theorem State.holdPost_kept {w : Bool} {a : State} {y1 y2 y3 y4 y5} (h1 : Kept w a y1) :
    Kept w a (State.holdPost y1 y2 y3 y4 y5) := by
  unfold State.holdPost
  exact State.raiseOnce_kept (State.bump_kept (State.setTask_kept h1))

theorem State.enqueue_kept {w : Bool} {a : State} {y1 y2 y3 y4} (h1 : Kept w a y1) :
    Kept w a (State.enqueue y1 y2 y3 y4) := by
  unfold State.enqueue
  extract_lets -merge -useContext +onlyGivenNames -underBinder v1 v2
  have k3 : Kept w a v2 := State.setTask_kept h1
  exact State.highWater_kept (State.setCd_kept k3)

theorem State.post_kept {w : Bool} {a : State} {y1 y2 y3 y4} (h1 : Kept w a y1) :
    Kept w a (State.post y1 y2 y3 y4) := by
  unfold State.post
  split
  · exact h1
  · refine Kept.ite ?_ ?_
    · exact h1
    · extract_lets -merge -useContext +onlyGivenNames -underBinder v1
      refine Kept.ite ?_ ?_
      · refine Kept.ite ?_ ?_
        · exact State.holdPost_kept h1
        · exact State.enqueue_kept h1
      · exact State.setTask_kept h1

theorem State.freeSlot_kept {a : State} {y1 y2 y3} (h1 : Kept true a y1) :
    Kept true a (State.freeSlot y1 y2 y3) := by
  unfold State.freeSlot
  split
  · exact h1
  · extract_lets -merge -useContext +onlyGivenNames -underBinder v1
    refine Kept.ite ?_ ?_
    · extract_lets -merge -useContext +onlyGivenNames -underBinder v2 v3
      have k4 : Kept true a v3 := State.wipe_kept (State.setCd_kept h1)
      extract_lets -merge -useContext +onlyGivenNames -underBinder v5
      split
      · refine Kept.ite ?_ ?_
        · exact Kept.put k4
        · exact k4
      · exact k4
    · exact h1

theorem State.charge_kept {w : Bool} {a : State} {y1 y2 y3} (h1 : Kept w a y1) :
    Kept w a (State.charge y1 y2 y3) := by
  unfold State.charge
  split
  · exact h1
  · extract_lets -merge -useContext +onlyGivenNames -underBinder v1
    split
    · exact h1
    · refine Kept.ite ?_ ?_
      · exact h1
      · extract_lets -merge -useContext +onlyGivenNames -underBinder v2
        have k3 : Kept w a v2 := State.setTask_kept h1
        extract_lets -merge -useContext +onlyGivenNames -underBinder v4
        exact State.addObj_kept (State.setCd_kept k3)

theorem State.endCommand_kept {a : State} {y1 y2 y3 y4 y5} (h1 : Kept true a y1) :
    Kept true a (State.endCommand y1 y2 y3 y4 y5) := by
  unfold State.endCommand
  refine Kept.ite ?_ ?_
  · exact h1
  · refine Kept.ite ?_ ?_
    · exact Kept.put h1
    · refine Kept.ite ?_ ?_
      · exact State.exitDone_kept h1
      · refine Kept.ite ?_ ?_
        · exact State.confine_kept (State.finish_kept (State.noteVendor_kept h1))
        · refine Kept.ite ?_ ?_
          · exact State.finish_kept (State.noteVendor_kept h1)
          · refine Kept.ite ?_ ?_
            · exact State.useFree_kept (State.finish_kept h1)
            · exact h1

theorem State.endTask_kept {a : State} {y1 y2 y3 y4 y5 y6} (h1 : Kept true a y1) :
    Kept true a (State.endTask y1 y2 y3 y4 y5 y6) := by
  unfold State.endTask
  extract_lets -merge -useContext +onlyGivenNames -underBinder v1
  have k2 : Kept true a v1 := State.charge_kept h1
  split
  · exact k2
  · refine Kept.ite ?_ ?_
    · exact k2
    · extract_lets -merge -useContext +onlyGivenNames -underBinder v3 v4 v5 v6 v7
      have k8 : Kept true a v7 := State.setCd_kept k2
      extract_lets -merge -useContext +onlyGivenNames -underBinder v9 v10
      have k11 : Kept true a v10 := State.bump_kept (State.setDom_kept k8)
      extract_lets -merge -useContext +onlyGivenNames -underBinder v12
      have k13 : Kept true a v12 := by
        refine Kept.ite ?_ ?_
        · exact State.raiseTo_kept k11
        · exact k11
      extract_lets -merge -useContext +onlyGivenNames -underBinder v14
      have k15 : Kept true a v14 := State.ownerWalk_kept k13
      split
      · exact State.endCommand_kept k15
      · exact k15

theorem State.makeReady_kept {w : Bool} {a : State} {y1 y2 y3} (h1 : Kept w a y1) :
    Kept w a (State.makeReady y1 y2 y3) := by
  unfold State.makeReady
  split
  · exact h1
  · refine Kept.ite ?_ ?_
    · exact State.holdPost_kept h1
    · exact State.enqueue_kept h1

theorem State.chargeDie_kept {w : Bool} {a : State} {y1 y2 y3} (h1 : Kept w a y1) :
    Kept w a (State.chargeDie y1 y2 y3) := by
  unfold State.chargeDie
  extract_lets -merge -useContext +onlyGivenNames -underBinder v1
  have k2 : Kept w a v1 := by
    refine Kept.foldl ?_ (fun p3 x3 h3 => ?_)
    · exact h1
    · exact State.charge_kept h3
  extract_lets -merge -useContext +onlyGivenNames -underBinder v4
  have k5 : Kept w a v4 := by
    refine Kept.foldl ?_ (fun p6 x6 h6 => ?_)
    · exact k2
    · exact State.setObj_kept h6
  exact State.setCd_kept k5

theorem State.setJob_kept {w : Bool} {a : State} {y1 y2 y3 y4} (h1 : Kept w a y1) :
    Kept w a (State.setJob y1 y2 y3 y4) := by
  unfold State.setJob
  exact State.setCd_kept h1

theorem State.yieldCore_kept {w : Bool} {a : State} {y1 y2 y3} (h1 : Kept w a y1) :
    Kept w a (State.yieldCore y1 y2 y3) := by
  unfold State.yieldCore
  split
  · exact h1
  · exact State.enqueue_kept h1

theorem State.startTask_kept {w : Bool} {a : State} {y1 y2 y3 y4 y5 y6} (h1 : Kept w a y1) :
    Kept w a (State.startTask y1 y2 y3 y4 y5 y6) := by
  unfold State.startTask
  extract_lets -merge -useContext +onlyGivenNames -underBinder v1
  have k2 : Kept w a v1 := State.charge_kept h1
  extract_lets -merge -useContext +onlyGivenNames -underBinder v3 v4 v5 v6 v7
  have k8 : Kept w a v7 := by
    refine Kept.ite ?_ ?_
    · exact State.useFree_kept k2
    · exact k2
  extract_lets -merge -useContext +onlyGivenNames -underBinder v9
  have k10 : Kept w a v9 := State.setTask_kept k8
  extract_lets -merge -useContext +onlyGivenNames -underBinder v11 v12 v13 v14 v15
  have k16 : Kept w a v15 := State.setCd_kept k10
  extract_lets -merge -useContext +onlyGivenNames -underBinder v17
  exact State.bump_kept (State.setDom_kept k16)

theorem execDispatch_kept {w : Bool} {a : State} {y1 y2} (h1 : Kept w a y2) :
    Res.kept w a (execDispatch y1 y2) := by
  unfold execDispatch
  refine onDie_kept ?_ ?_
  · exact h1
  · intro q1
    split
    · exact Res.kept_next h1
    · extract_lets -merge -useContext +onlyGivenNames -underBinder v2
      have k3 : Kept w a v2 := State.startTask_kept h1
      split
      · exact Res.kept_next k3
      · exact Res.kept_next (State.bump_kept (State.enqueue_kept k3))

theorem execTimeSliceExpiry_kept {w : Bool} {a : State} {y1 y2 y3} (h1 : Kept w a y3) :
    Res.kept w a (execTimeSliceExpiry y1 y2 y3) := by
  unfold execTimeSliceExpiry
  refine onDie_kept ?_ ?_
  · exact h1
  · intro q1
    split
    · exact Res.kept_next h1
    · extract_lets -merge -useContext +onlyGivenNames -underBinder v2
      refine Res.kept_ite ?_ ?_
      · exact Res.kept_next (State.bump_kept (State.yieldCore_kept h1))
      · exact Res.kept_next h1

theorem State.landPost_kept {w : Bool} {a : State} {y1 y2 y3} (h1 : Kept w a y1) :
    Kept w a (State.landPost y1 y2 y3) := by
  unfold State.landPost
  split
  · exact h1
  · refine Kept.ite ?_ ?_
    · exact h1
    · extract_lets -merge -useContext +onlyGivenNames -underBinder v1 v2
      have k3 : Kept w a v2 := State.setCd_kept h1
      extract_lets -merge -useContext +onlyGivenNames -underBinder v4
      refine Kept.ite ?_ ?_
      · exact State.setTask_kept k3
      · refine Kept.ite ?_ ?_
        · exact State.enqueue_kept k3
        · refine Kept.ite ?_ ?_
          · exact State.enqueue_kept k3
          · exact State.setTask_kept k3

/-! ### Search -/

theorem State.setRing_kept {w : Bool} {a : State} {y1 y2} (h1 : Kept w a y1) :
    Kept w a (State.setRing y1 y2) := by
  unfold State.setRing
  refine Kept.ite ?_ ?_
  · exact h1
  · exact State.raise_kept (State.setObj_kept h1)

theorem State.setRows_kept {w : Bool} {a : State} {y1 y2 y3} (h1 : Kept w a y1) :
    Kept w a (State.setRows y1 y2 y3) := by
  unfold State.setRows
  exact Kept.put h1

theorem State.writeEntry_kept {w : Bool} {a : State} {y1 y2 y3 y4} (h1 : Kept w a y1) :
    Kept w a (State.writeEntry y1 y2 y3 y4) := by
  unfold State.writeEntry
  split
  split
  · exact State.setRows_kept h1
  · exact State.setRows_kept h1

theorem State.setTable_kept {w : Bool} {a : State} {y1 y2 y3} (h1 : Kept w a y1) :
    Kept w a (State.setTable y1 y2 y3) := by
  unfold State.setTable
  exact Kept.put h1

theorem State.beginMaint_kept {w : Bool} {a : State} {y1 y2} (h1 : Kept w a y1) :
    Kept w a (State.beginMaint y1 y2) := by
  unfold State.beginMaint
  split
  · exact h1
  · split
    · exact h1
    · refine Kept.ite ?_ ?_
      · exact State.setTable_kept h1
      · exact State.setTable_kept h1

theorem State.endMaint_kept {w : Bool} {a : State} {y1 y2} (h1 : Kept w a y1) :
    Kept w a (State.endMaint y1 y2) := by
  unfold State.endMaint
  split
  · exact h1
  · split
    · exact h1
    · extract_lets -merge -useContext +onlyGivenNames -underBinder v1 v2
      have k3 : Kept w a v2 := by
        refine Kept.ite ?_ ?_
        · refine Kept.foldl ?_ (fun p4 x4 h4 => ?_)
          · exact h1
          · exact State.writeEntry_kept h4
        · clear_value v1
          split
          · exact State.writeEntry_kept h1
          · exact h1
      extract_lets -merge -useContext +onlyGivenNames -underBinder v5
      have k6 : Kept w a v5 := State.setTable_kept k3
      extract_lets -merge -useContext +onlyGivenNames -underBinder v7
      have k8 : Kept w a v7 := by
        unfold v7
        split
        · exact State.post_kept k6
        · exact k6
      exact State.beginMaint_kept k8

theorem State.moveStep_kept {w : Bool} {a : State} {y1 y2 y3 y4} (h1 : Kept w a y1) :
    Kept w a (State.moveStep y1 y2 y3 y4) := by
  unfold State.moveStep
  extract_lets -merge -useContext +onlyGivenNames -underBinder v1
  split
  · exact State.setTable_kept h1
  · extract_lets -merge -useContext +onlyGivenNames -underBinder v2
    have k3 : Kept w a v2 := State.setTable_kept (State.writeEntry_kept (State.writeEntry_kept h1))
    extract_lets -merge -useContext +onlyGivenNames -underBinder v4 v5
    have k6 : Kept w a v5 := State.bump_kept k3
    refine Kept.ite ?_ ?_
    · exact State.bump_kept k6
    · exact k6

theorem State.runMove_kept {w : Bool} {a : State} {y1 y2 y3} (h1 : Kept w a y1) :
    Kept w a (State.runMove y1 y2 y3) := by
  induction y3 generalizing y1 y2 with
  | zero =>
    unfold State.runMove
    exact h1
  | succ n ih =>
    unfold State.runMove
    split
    · split
      · refine Kept.ite ?_ ?_
        · exact h1
        · exact ih (State.moveStep_kept h1)
      · exact h1
    · exact h1

theorem State.drainTable_kept {w : Bool} {a : State} {y1 y2 y3} (h1 : Kept w a y1) :
    Kept w a (State.drainTable y1 y2 y3) := by
  induction y3 generalizing y1 y2 with
  | zero =>
    unfold State.drainTable
    exact h1
  | succ n ih =>
    unfold State.drainTable
    split
    · refine Kept.ite ?_ ?_
      · exact h1
      · exact ih (State.endMaint_kept (State.runMove_kept h1))
    · exact h1

theorem State.refuseSearch_kept {w : Bool} {a : State} {y1 y2 y3 y4} (h1 : Kept w a y1) :
    Kept w a (State.refuseSearch y1 y2 y3 y4) := by
  unfold State.refuseSearch
  exact State.setObj_kept (State.setObj_kept (State.setObj_kept (State.setObj_kept h1)))

theorem State.queueMaint_kept {w : Bool} {a : State} {y1 y2 y3 y4} (h1 : Kept w a y1) :
    Kept w a (State.queueMaint y1 y2 y3 y4) := by
  unfold State.queueMaint
  extract_lets -merge -useContext +onlyGivenNames -underBinder v1
  have k2 : Kept w a v1 := State.setTable_kept h1
  refine Kept.ite ?_ ?_
  · exact State.beginMaint_kept k2
  · exact k2

theorem State.acceptMaint_kept {w : Bool} {a : State} {y1 y2 y3 y4} (h1 : Kept w a y1) :
    Kept w a ((State.acceptMaint y1 y2 y3 y4).2) := by
  unfold State.acceptMaint
  refine Kept.ite2 ?_ ?_
  · exact State.refuseSearch_kept h1
  · refine Kept.ite2 ?_ ?_
    · exact State.refuseSearch_kept h1
    · exact State.queueMaint_kept h1

theorem State.clearTable_kept {w : Bool} {a : State} {y1 y2} (h1 : Kept w a y1) :
    Kept w a (State.clearTable y1 y2) := by
  unfold State.clearTable
  refine Kept.foldl ?_ (fun p1 x1 h1 => ?_)
  · exact h1
  · exact State.writeEntry_kept h1

theorem State.fitTables_kept {w : Bool} {a : State} {y1} (h1 : Kept w a y1) :
    Kept w a (State.fitTables y1) := by
  unfold State.fitTables
  extract_lets -merge -useContext +onlyGivenNames -underBinder v1
  refine Kept.foldl ?_ (fun p2 x2 h2 => ?_)
  · exact h1
  · extract_lets -merge -useContext +onlyGivenNames -underBinder v3 v4 v5
    split
    · refine Kept.ite ?_ ?_
      · exact h2
      · refine Kept.ite ?_ ?_
        · exact State.setTable_kept h2
        · exact State.setTable_kept h2
    · extract_lets -merge -useContext +onlyGivenNames -underBinder v6
      refine Kept.ite ?_ ?_
      · exact State.setTable_kept h2
      · refine Kept.ite ?_ ?_
        · exact State.setTable_kept h2
        · refine Kept.ite ?_ ?_
          · exact State.setTable_kept (State.clearTable_kept h2)
          · exact State.setTable_kept (State.clearTable_kept h2)

theorem State.searchBoundary_kept {w : Bool} {a : State} {y1 y2} (h1 : Kept w a y1) :
    Kept w a (State.searchBoundary y1 y2) := by
  unfold State.searchBoundary
  extract_lets -merge -useContext +onlyGivenNames -underBinder v1
  have k2 : Kept w a v1 := by
    refine Kept.foldl ?_ (fun p3 x3 h3 => ?_)
    · exact h1
    · exact State.setObj_kept h3
  exact Kept.put k2

theorem State.countCycles_kept {w : Bool} {a : State} {y1 y2 y3} (h1 : Kept w a y1) :
    Kept w a (State.countCycles y1 y2 y3) := by
  unfold State.countCycles
  exact Kept.put h1

theorem State.markSuspect_kept {w : Bool} {a : State} {y1 y2 y3} (h1 : Kept w a y1) :
    Kept w a (State.markSuspect y1 y2 y3) := by
  unfold State.markSuspect
  exact State.setRows_kept h1

theorem State.searchDie_kept {w : Bool} {a : State} {y1 y2 y3 y4 y5} (h1 : Kept w a y1) :
    Kept w a ((((State.searchDie y1 y2 y3 y4 y5).2).2).2) := by
  induction y5 generalizing y1 y2 y3 y4 with
  | zero =>
    unfold State.searchDie
    exact State.raise_kept h1
  | succ n ih =>
    unfold State.searchDie
    extract_lets -merge -useContext +onlyGivenNames -underBinder v11
    have k12 : Kept w a v11 := State.countCycles_kept h1
    extract_lets -merge -useContext +onlyGivenNames -underBinder v13
    clear_value v13
    split
    · exact k12
    · refine Kept.ite222 ?_ ?_
      · exact k12
      · extract_lets -merge -useContext +onlyGivenNames -underBinder v14
        have k15 : Kept w a v14 := State.raiseOnce_kept (State.bump_kept (State.markSuspect_kept k12))
        refine ih ?_
        refine Kept.ite ?_ ?_
        · exact k15
        · exact State.bump_kept k15

theorem State.searchPackage_kept {w : Bool} {a : State} {y1 y2 y3} (h1 : Kept w a y1) :
    Kept w a ((((State.searchPackage y1 y2 y3).2).2).2) := by
  unfold State.searchPackage
  extract_lets -merge -useContext +onlyGivenNames -underBinder v1
  have k2 : (∀ z0 z1, Kept w a z0.2.2.2 → Kept w a ((((v1 z0 z1).2).2).2)) := by
    intro q3 q4 q5
    dsimp -zeta only [v1]
    exact State.searchDie_kept (State.bump_kept q5)
  extract_lets -merge -useContext +onlyGivenNames -underBinder v17
  have k18 : Kept w a v17.2.2.2 := by
    refine Kept.foldl222 ?_ (fun p19 x19 h19 => ?_)
    · exact h1
    · exact k2 _ _ h19
  refine Kept.ite ?_ ?_
  · exact State.bump_kept k18
  · exact k18

theorem State.answerSearch_kept {a : State} {y1 y2 y3 y4 y5 y6} (h1 : Kept true a y1) :
    Kept true a (State.answerSearch y1 y2 y3 y4 y5 y6) := by
  unfold State.answerSearch
  refine Kept.ite ?_ ?_
  · exact State.finish_kept h1
  · exact State.finish_kept h1

theorem State.hearRing_kept {w : Bool} {a : State} {y1} (h1 : Kept w a y1) :
    Kept w a (State.hearRing y1) := by
  unfold State.hearRing
  extract_lets -merge -useContext +onlyGivenNames -underBinder v1 v2
  have k3 : Kept w a v2 := Kept.put h1
  refine Kept.ite ?_ ?_
  · exact k3
  · exact State.setRing_kept k3

theorem State.cascadeKey_kept {a : State} {y1 y2 y3 y4 y5 y6 y7} (h1 : Kept true a y1) :
    Kept true a (State.cascadeKey y1 y2 y3 y4 y5 y6 y7) := by
  unfold State.cascadeKey
  extract_lets -merge -useContext +onlyGivenNames -underBinder v1
  have k2 : Kept true a v1 := State.hearRing_kept h1
  refine Kept.ite ?_ ?_
  · split
    · exact k2
    · extract_lets -merge -useContext +onlyGivenNames -underBinder v3 v4
      have k5 : Kept true a v4 := Kept.put k2
      exact State.answerSearch_kept k5
  · split
    · exact State.emit_kept k2
    · refine Kept.ite ?_ ?_
      · exact State.emit_kept k2
      · split
        rename_i i6 i7 i8 i9 i10 i11
        exact State.emit_kept (State.bump_kept (Kept.eq222 i11 (State.searchPackage_kept k2)))

theorem execCascadeKey_kept {a : State} {y1 y2 y3 y4 y5 y6 y7} (h1 : Kept true a y7) :
    Res.kept true a (execCascadeKey y1 y2 y3 y4 y5 y6 y7) := by
  unfold execCascadeKey
  exact Res.kept_next (State.cascadeKey_kept h1)

theorem State.sendToken_kept {w : Bool} {a : State} {y1 y2} (h1 : Kept w a y1) :
    Kept w a (State.sendToken y1 y2) := by
  unfold State.sendToken
  extract_lets -merge -useContext +onlyGivenNames -underBinder v1
  have k2 : Kept w a v1 := by
    refine Kept.ite ?_ ?_
    · exact State.hearRing_kept h1
    · exact h1
  exact State.emit_kept (Kept.put k2)

theorem execCascadeIdleToken_kept {w : Bool} {a : State} {y1} (h1 : Kept w a y1) :
    Res.kept w a (execCascadeIdleToken y1) := by
  unfold execCascadeIdleToken
  refine Res.kept_ite ?_ ?_
  · exact Res.kept_next h1
  · refine Res.kept_ite ?_ ?_
    · exact Res.kept_next h1
    · exact Res.kept_next (State.sendToken_kept (State.useFree_kept h1))

theorem State.ringBreaks_kept {a : State} {y1 y2} (h1 : Kept true a y1) :
    Kept true a (State.ringBreaks y1 y2) := by
  unfold State.ringBreaks
  extract_lets -merge -useContext +onlyGivenNames -underBinder v1
  have k2 : Kept true a v1 := State.setRing_kept h1
  extract_lets -merge -useContext +onlyGivenNames -underBinder v3
  have k4 : Kept true a v3 := by
    refine Kept.foldl ?_ (fun p5 x5 h5 => ?_)
    · exact k2
    · exact State.failVendor_kept h5
  exact Kept.put k4

theorem execCascadeSilenceTimeout_kept {a : State} {y1 y2} (h1 : Kept true a y2) :
    Res.kept true a (execCascadeSilenceTimeout y1 y2) := by
  unfold execCascadeSilenceTimeout
  refine Res.kept_ite ?_ ?_
  · exact Res.kept_next h1
  · refine Res.kept_ite ?_ ?_
    · exact Res.kept_next h1
    · exact Res.kept_next (State.ringBreaks_kept h1)

theorem State.rowRewritten_kept {w : Bool} {a : State} {y1 y2 y3 y4 y5 y6} (h1 : Kept w a y1) :
    Kept w a (State.rowRewritten y1 y2 y3 y4 y5 y6) := by
  unfold State.rowRewritten
  refine Kept.ite ?_ ?_
  · exact State.raise_kept (State.bump_kept (State.setRows_kept h1))
  · extract_lets -merge -useContext +onlyGivenNames -underBinder v1 v2
    have k3 : Kept w a v2 := State.bump_kept h1
    refine Kept.ite ?_ ?_
    · exact State.setRows_kept k3
    · refine Kept.ite ?_ ?_
      · exact State.setRows_kept k3
      · extract_lets -merge -useContext +onlyGivenNames -underBinder v4
        have k5 : Kept w a v4 := State.bump_kept k3
        refine Kept.ite ?_ ?_
        · exact State.raise_kept (State.setRows_kept k5)
        · exact State.raise_kept (State.countSpare_kept (State.setObj_kept (State.setRows_kept k5)))

theorem execRowRewriteComplete_kept {w : Bool} {a : State} {y1 y2 y3 y4 y5} (h1 : Kept w a y5) :
    Res.kept w a (execRowRewriteComplete y1 y2 y3 y4 y5) := by
  unfold execRowRewriteComplete
  refine onDie_kept ?_ ?_
  · exact h1
  · intro q1
    split
    · exact Res.kept_next h1
    · refine Res.kept_ite ?_ ?_
      · exact Res.kept_next (State.rowRewritten_kept h1)
      · exact Res.kept_next h1

theorem execMaintenanceOperationComplete_kept {w : Bool} {a : State} {y1 y2} (h1 : Kept w a y2) :
    Res.kept w a (execMaintenanceOperationComplete y1 y2) := by
  unfold execMaintenanceOperationComplete
  split
  · refine Res.kept_ite ?_ ?_
    · exact Res.kept_next h1
    · exact Res.kept_next (State.endMaint_kept (State.runMove_kept h1))
  · exact Res.kept_next h1

theorem State.upsetRow_kept {w : Bool} {a : State} {y1 y2 y3} (h1 : Kept w a y1) :
    Kept w a (State.upsetRow y1 y2 y3) := by
  unfold State.upsetRow
  exact State.useFree_kept (State.useFree_kept (State.setRows_kept h1))

theorem State.scheduleRewrite_kept {w : Bool} {a : State} {y1 y2 y3} (h1 : Kept w a y1) :
    Kept w a (State.scheduleRewrite y1 y2 y3) := by
  unfold State.scheduleRewrite
  exact State.setRows_kept h1

theorem State.scrubRows_kept {w : Bool} {a : State} {y1 y2 y3} (h1 : Kept w a y1) :
    Kept w a (State.scrubRows y1 y2 y3) := by
  unfold State.scrubRows
  extract_lets -merge -useContext +onlyGivenNames -underBinder v1
  have k2 : Kept w a v1 := by
    refine Kept.foldl ?_ (fun p3 x3 h3 => ?_)
    · exact h1
    · exact State.upsetRow_kept h3
  extract_lets -merge -useContext +onlyGivenNames -underBinder v4 v5 v6
  have k7 : Kept w a v6 := State.addObj_kept (State.addObj_kept k2)
  refine Kept.foldl ?_ (fun p8 x8 h8 => ?_)
  · exact Kept.put k7
  · exact State.scheduleRewrite_kept h8

theorem execSearchArrayScrub_kept {w : Bool} {a : State} {y1 y2 y3} (h1 : Kept w a y3) :
    Res.kept w a (execSearchArrayScrub y1 y2 y3) := by
  unfold execSearchArrayScrub
  refine onDie_kept ?_ ?_
  · exact h1
  · intro q1
    refine Res.kept_ite ?_ ?_
    · exact Res.kept_next (State.scrubRows_kept h1)
    · exact Res.kept_next h1

theorem execEntryMove_kept {w : Bool} {a : State} {y1 y2} (h1 : Kept w a y2) :
    Res.kept w a (execEntryMove y1 y2) := by
  unfold execEntryMove
  split
  · split
    · refine Res.kept_ite ?_ ?_
      · exact Res.kept_next h1
      · exact Res.kept_next (State.moveStep_kept h1)
    · exact Res.kept_next h1
  · exact Res.kept_next h1

/-! ### Filter -/

theorem State.putEntry_kept {w : Bool} {a : State} {y1 y2 y3 y4} (h1 : Kept w a y1) :
    Kept w a (State.putEntry y1 y2 y3 y4) := by
  unfold State.putEntry
  refine Kept.ite ?_ ?_
  · exact h1
  · exact State.pondPut_kept h1

theorem State.dropEntries_kept {w : Bool} {a : State} {y1 y2 y3} (h1 : Kept w a y1) :
    Kept w a (State.dropEntries y1 y2 y3) := by
  unfold State.dropEntries
  split
  · exact h1
  · split
    · exact h1
    · refine Kept.foldl ?_ (fun p1 x1 h1 => ?_)
      · exact State.setTask_kept h1
      · exact State.putEntry_kept h1

theorem State.reclaimChunks_kept {w : Bool} {a : State} {y1 y2 y3 y4} (h1 : Kept w a y1) :
    Kept w a (State.reclaimChunks y1 y2 y3 y4) := by
  unfold State.reclaimChunks
  exact State.setCd_kept h1

theorem State.modFrame_kept {w : Bool} {a : State} {y1 y2 y3 y4 y5 y6} (h1 : Kept w a y1) :
    Kept w a (State.modFrame y1 y2 y3 y4 y5 y6) := by
  unfold State.modFrame
  exact Kept.put h1

theorem State.reclaimFrame_kept {w : Bool} {a : State} {y1 y2 y3 y4 y5} (h1 : Kept w a y1) :
    Kept w a (State.reclaimFrame y1 y2 y3 y4 y5) := by
  unfold State.reclaimFrame
  split
  · exact h1
  · refine Kept.ite ?_ ?_
    · exact h1
    · extract_lets -merge -useContext +onlyGivenNames -underBinder v1
      have k2 : Kept w a v1 := by
        refine Kept.foldl ?_ (fun p3 x3 h3 => ?_)
        · exact h1
        · exact State.reclaimChunks_kept h3
      exact State.modFrame_kept k2

theorem State.filterDone_kept {w : Bool} {a : State} {y1 y2 y3 y4} (h1 : Kept w a y1) :
    Kept w a (State.filterDone y1 y2 y3 y4) := by
  unfold State.filterDone
  exact State.reclaimFrame_kept (State.modFrame_kept h1)

theorem State.missFrame_kept {w : Bool} {a : State} {y1 y2 y3 y4 y5} (h1 : Kept w a y1) :
    Kept w a (State.missFrame y1 y2 y3 y4 y5) := by
  unfold State.missFrame
  split
  · exact h1
  · split
    · exact h1
    · refine Kept.ite ?_ ?_
      · exact h1
      · extract_lets -merge -useContext +onlyGivenNames -underBinder v1 v2 v3
        have k4 : Kept w a v3 := State.setTask_kept h1
        extract_lets -merge -useContext +onlyGivenNames -underBinder v5
        have k6 : Kept w a v5 := by
          refine Kept.foldl ?_ (fun p7 x7 h7 => ?_)
          · exact k4
          · exact State.putEntry_kept h7
        extract_lets -merge -useContext +onlyGivenNames -underBinder v8
        have k9 : Kept w a v8 := State.bump_kept (State.bump_kept (State.filterDone_kept k6))
        extract_lets -merge -useContext +onlyGivenNames -underBinder v10
        have k11 : Kept w a v10 := by
          refine Kept.ite ?_ ?_
          · exact State.raiseOnce_kept k9
          · exact k9
        exact State.post_kept k11

theorem State.stopTask_kept {a : State} {y1 y2 y3 y4 y5 y6} (h1 : Kept true a y1) :
    Kept true a (State.stopTask y1 y2 y3 y4 y5 y6) := by
  unfold State.stopTask
  split
  · exact h1
  · extract_lets -merge -useContext +onlyGivenNames -underBinder v1 v2
    have k3 : Kept true a v2 := by
      refine State.dropEntries_kept ?_
      refine Kept.foldl ?_ (fun p4 x4 h4 => ?_)
      · exact h1
      · exact State.missFrame_kept h4
    exact State.freeSlot_kept (State.endTask_kept k3)

theorem State.endFilter_kept {a : State} {y1 y2 y3} (h1 : Kept true a y1) :
    Kept true a (State.endFilter y1 y2 y3) := by
  unfold State.endFilter
  split
  · exact h1
  · split
    · exact h1
    · refine Kept.ite ?_ ?_
      · exact State.stopTask_kept h1
      · exact h1

theorem State.endFilters_kept {a : State} {y1} (h1 : Kept true a y1) :
    Kept true a (State.endFilters y1) := by
  unfold State.endFilters
  refine Kept.foldl ?_ (fun p1 x1 h1 => ?_)
  · exact h1
  · refine Kept.foldl ?_ (fun p2 x2 h2 => ?_)
    · exact h1
    · exact State.endFilter_kept h2

theorem State.placeTask_kept {a : State} {y1 y2 y3 y4 y5} (h1 : Kept true a y1) :
    Kept true a (State.placeTask y1 y2 y3 y4 y5) := by
  unfold State.placeTask
  extract_lets -merge -useContext +onlyGivenNames -underBinder v1
  have k2 : Kept true a v1 := State.highWater_kept (State.setTask_kept h1)
  extract_lets -merge -useContext +onlyGivenNames -underBinder v3
  have k4 : Kept true a v3 := State.wipe_kept k2
  extract_lets -merge -useContext +onlyGivenNames -underBinder v5
  have k6 : Kept true a v5 := State.write_kept k4
  extract_lets -merge -useContext +onlyGivenNames -underBinder v7 v8
  have k9 : Kept true a v8 := by
    refine Kept.foldl ?_ (fun p10 x10 h10 => ?_)
    · exact k6
    · exact State.registerOwner_kept h10
  exact Kept.put k9

theorem State.createFilter_kept {a : State} {y1 y2 y3 y4 y5 y6 y7} (h1 : Kept true a y1) :
    Kept true a ((State.createFilter y1 y2 y3 y4 y5 y6 y7).2) := by
  unfold State.createFilter
  extract_lets -merge -useContext +onlyGivenNames -underBinder v1
  have k2 : Kept true a v1.2 := State.raise_kept h1
  split
  · exact k2
  · refine Kept.ite2 ?_ ?_
    · exact k2
    · split
      · exact k2
      · extract_lets -merge -useContext +onlyGivenNames -underBinder v3 v4
        exact State.makeReady_kept (State.placeTask_kept h1)

theorem State.createFilters_kept {a : State} {y1 y2 y3 y4} (h1 : Kept true a y1) :
    Kept true a (State.createFilters y1 y2 y3 y4) := by
  unfold State.createFilters
  refine Kept.foldl ?_ (fun p1 x1 h1 => ?_)
  · exact h1
  · refine Kept.foldl ?_ (fun p2 x2 h2 => ?_)
    · exact h1
    · refine Kept.foldl ?_ (fun p3 x3 h3 => ?_)
      · exact h2
      · extract_lets -merge -useContext +onlyGivenNames -underBinder v4
        have k5 : Kept true a v4.2 := State.createFilter_kept h3
        refine Kept.ite ?_ ?_
        · exact k5
        · exact State.setCd_kept k5

theorem State.missEverywhere_kept {w : Bool} {a : State} {y1 y2 y3 y4 y5} (h1 : Kept w a y1) :
    Kept w a (State.missEverywhere y1 y2 y3 y4 y5) := by
  unfold State.missEverywhere
  refine Kept.foldl ?_ (fun p1 x1 h1 => ?_)
  · exact h1
  · refine Kept.foldl ?_ (fun p2 x2 h2 => ?_)
    · exact h1
    · split
      · refine Kept.ite ?_ ?_
        · exact State.missFrame_kept h2
        · exact h2
      · exact h2

theorem State.setAttachments_kept {w : Bool} {a : State} {y1 y2} (h1 : Kept w a y1) :
    Kept w a (State.setAttachments y1 y2) := by
  unfold State.setAttachments
  extract_lets -merge -useContext +onlyGivenNames -underBinder v1 v2 v3 v4 v5 v6
  have k7 : Kept w a v6 := State.setObj_kept (State.setDom_kept h1)
  exact Kept.put k7

theorem State.segWrite_kept {a : State} {y1 y2 y3 y4 y5} (h1 : Kept true a y1) :
    Kept true a (State.segWrite y1 y2 y3 y4 y5) := by
  unfold State.segWrite
  exact State.write_kept h1

theorem State.produce_kept {a : State} {y1 y2 y3 y4 y5} (h1 : Kept true a y1) :
    Kept true a (State.produce y1 y2 y3 y4 y5) := by
  unfold State.produce
  extract_lets -merge -useContext +onlyGivenNames -underBinder v1 v2 v3
  have k4 : Kept true a v3 := by
    refine Kept.ite ?_ ?_
    · exact State.bump_kept h1
    · exact h1
  extract_lets -merge -useContext +onlyGivenNames -underBinder v5
  have k6 : Kept true a v5 := State.segWrite_kept k4
  exact State.setTask_kept (State.segWrite_kept k6)

theorem State.feedChunk_kept {a : State} {y1 y2 y3 y4 y5} (h1 : Kept true a y1) :
    Kept true a ((State.feedChunk y1 y2 y3 y4 y5).2) := by
  unfold State.feedChunk
  split
  · exact h1
  · extract_lets -merge -useContext +onlyGivenNames -underBinder v1 v2
    have k3 : Kept true a v2.2 := State.pondGet_kept h1
    refine Kept.ite2 ?_ ?_
    · exact k3
    · extract_lets -merge -useContext +onlyGivenNames -underBinder v4
      have k5 : Kept true a v4 := k3
      split
      · exact k3
      · extract_lets -merge -useContext +onlyGivenNames -underBinder v6 v7 v8 v9 v10 v11 v12 v13
        have k14 : Kept true a v13 := by
          refine State.write_kept ?_
          refine Kept.foldl ?_ (fun p15 x15 h15 => ?_)
          · exact k3
          · exact State.noteUnreadable_kept h15
        exact State.produce_kept (State.xtsRun_kept k14)

theorem State.feedChunks_kept {a : State} {y1 y2 y3 y4} (h1 : Kept true a y1) :
    Kept true a ((State.feedChunks y1 y2 y3 y4).2) := by
  induction y4 generalizing y1 y2 y3 with
  | zero =>
    unfold State.feedChunks
    exact h1
  | succ n ih =>
    unfold State.feedChunks
    split
    · exact h1
    · split
      · exact h1
      · refine Kept.ite2 ?_ ?_
        · exact h1
        · extract_lets -merge -useContext +onlyGivenNames -underBinder v9
          have k10 : Kept true a v9.2 := State.feedChunk_kept h1
          refine Kept.ite2 ?_ ?_
          · exact k10
          · extract_lets -merge -useContext +onlyGivenNames -underBinder v11
            have k12 : Kept true a v11.2 := ih k10
            exact k12

theorem State.feedNear_kept {a : State} {y1 y2 y3} (h1 : Kept true a y1) :
    Kept true a (State.feedNear y1 y2 y3) := by
  unfold State.feedNear
  extract_lets -merge -useContext +onlyGivenNames -underBinder v1
  have k2 : Kept true a v1.2 := State.feedChunks_kept h1
  extract_lets -merge -useContext +onlyGivenNames -underBinder v3
  have k4 : Kept true a v3 := by
    refine Kept.ite ?_ ?_
    · exact k2
    · exact State.post_kept k2
  split
  · exact k4
  · split
    · exact k4
    · refine Kept.ite ?_ ?_
      · exact State.post_kept (State.setTask_kept k4)
      · exact k4

theorem State.setDeadlines_kept {w : Bool} {a : State} {y1 y2 y3 y4 y5} (h1 : Kept w a y1) :
    Kept w a (State.setDeadlines y1 y2 y3 y4 y5) := by
  unfold State.setDeadlines
  refine Kept.foldl ?_ (fun p1 x1 h1 => ?_)
  · exact h1
  · exact State.setCd_kept h1

theorem State.fillRing_kept {a : State} {y1 y2 y3 y4} (h1 : Kept true a y1) :
    Kept true a ((State.fillRing y1 y2 y3 y4).2) := by
  induction y4 generalizing y1 y2 y3 with
  | zero =>
    unfold State.fillRing
    exact h1
  | succ n ih =>
    unfold State.fillRing
    split
    · exact h1
    · split
      · exact h1
      · refine Kept.ite2 ?_ ?_
        · exact h1
        · extract_lets -merge -useContext +onlyGivenNames -underBinder v5
          have k6 : Kept true a v5.2 := ih (State.produce_kept h1)
          exact k6

theorem State.feedInput_kept {a : State} {y1 y2 y3} (h1 : Kept true a y1) :
    Kept true a (State.feedInput y1 y2 y3) := by
  unfold State.feedInput
  extract_lets -merge -useContext +onlyGivenNames -underBinder v1
  have k2 : Kept true a v1.2 := State.fillRing_kept h1
  refine Kept.ite ?_ ?_
  · exact k2
  · exact State.post_kept k2

theorem State.filterBand_kept {a : State} {y1 y2 y3 y4 y5 y6 y7 y8 y9 y10 y11 y12 y13} (h1 : Kept true a y1) :
    Kept true a (State.filterBand y1 y2 y3 y4 y5 y6 y7 y8 y9 y10 y11 y12 y13) := by
  unfold State.filterBand
  refine Kept.foldl ?_ (fun p1 x1 h1 => ?_)
  · exact h1
  · split
    · exact h1
    · split
      · exact h1
      · refine Kept.ite ?_ ?_
        · exact h1
        · extract_lets -merge -useContext +onlyGivenNames -underBinder v2 v3 v4 v5 v6 v7
          refine Kept.ite ?_ ?_
          · exact h1
          · exact State.feedInput_kept (State.setTask_kept (State.useFree_kept h1))

theorem State.countReclaimed_kept {w : Bool} {a : State} {y1 y2 y3 y4 y5} (h1 : Kept w a y1) :
    Kept w a (State.countReclaimed y1 y2 y3 y4 y5) := by
  unfold State.countReclaimed
  refine Kept.foldl ?_ (fun p1 x1 h1 => ?_)
  · exact h1
  · refine Kept.foldl ?_ (fun p2 x2 h2 => ?_)
    · exact h1
    · split
      · refine Kept.ite ?_ ?_
        · exact State.bump_kept h2
        · exact h2
      · exact h2

theorem State.giveFrame_kept {w : Bool} {a : State} {y1 y2 y3 y4 y5 y6} (h1 : Kept w a y1) :
    Kept w a (State.giveFrame y1 y2 y3 y4 y5 y6) := by
  unfold State.giveFrame
  exact State.modFrame_kept (State.setTask_kept h1)

theorem State.startFilters_kept {a : State} {y1 y2 y3 y4 y5} (h1 : Kept true a y1) :
    Kept true a (State.startFilters y1 y2 y3 y4 y5) := by
  unfold State.startFilters
  refine Kept.foldl ?_ (fun p1 x1 h1 => ?_)
  · exact h1
  · refine Kept.foldl ?_ (fun p2 x2 h2 => ?_)
    · exact h1
    · extract_lets -merge -useContext +onlyGivenNames -underBinder v3
      have k4 : (∀ z0, Kept true a z0 → Kept true a (v3 z0)) := by
        intro q5 q6
        exact State.modFrame_kept (State.bump_kept q6)
      extract_lets -merge -useContext +onlyGivenNames -underBinder v7
      have k8 : (∀ z0 z1, Kept true a z0 → Kept true a (v7 z0 z1)) := by
        intro q9 q10 q11
        unfold v7
        split
        · exact State.giveFrame_kept q11
        · exact q11
      split
      · exact k8 _ _ h2
      · refine Kept.ite ?_ ?_
        · exact k4 _ h2
        · extract_lets -merge -useContext +onlyGivenNames -underBinder v12
          have k13 : Kept true a v12.2 := State.createFilter_kept h2
          refine Kept.ite ?_ ?_
          · exact k4 _ k13
          · split
            · exact k8 _ _ (State.raise_kept k13)
            · exact k4 _ k13

theorem State.feedDie_kept {a : State} {y1 y2} (h1 : Kept true a y1) :
    Kept true a (State.feedDie y1 y2) := by
  unfold State.feedDie
  refine Kept.foldl ?_ (fun p1 x1 h1 => ?_)
  · exact h1
  · exact State.feedNear_kept (State.feedInput_kept h1)

theorem State.offerHost_kept {w : Bool} {a : State} {y1 y2 y3 y4 y5 y6} (h1 : Kept w a y1) :
    Kept w a (State.offerHost y1 y2 y3 y4 y5 y6) := by
  unfold State.offerHost
  extract_lets -merge -useContext +onlyGivenNames -underBinder v1 v2
  have k3 : Kept w a v2 := State.setTask_kept h1
  refine Kept.ite ?_ ?_
  · exact k3
  · exact State.dataOut_kept k3

theorem State.refuseEntry_kept {w : Bool} {a : State} {y1 y2 y3} (h1 : Kept w a y1) :
    Kept w a (State.refuseEntry y1 y2 y3) := by
  unfold State.refuseEntry
  exact State.deliverPoison_kept h1

theorem State.insertKey_kept {w : Bool} {a : State} {y1 y2 y3 y4} (h1 : Kept w a y1) :
    Kept w a (State.insertKey y1 y2 y3 y4) := by
  unfold State.insertKey
  extract_lets -merge -useContext +onlyGivenNames -underBinder v1
  have k2 : Kept w a v1 := by
    unfold v1
    split
    · refine Kept.ite ?_ ?_
      · exact State.drainTable_kept h1
      · exact h1
    · exact h1
  split
  · exact State.acceptMaint_kept k2
  · exact k2

theorem State.insertKeys_kept {w : Bool} {a : State} {y1 y2 y3} (h1 : Kept w a y1) :
    Kept w a (State.insertKeys y1 y2 y3) := by
  unfold State.insertKeys
  extract_lets -merge -useContext +onlyGivenNames -underBinder v1 v2
  split
  · refine Kept.ite ?_ ?_
    · refine Kept.foldl ?_ (fun p3 x3 h3 => ?_)
      · exact h1
      · exact State.insertKey_kept h3
    · exact State.addObj_kept h1
  · exact State.addObj_kept h1

theorem State.writeEntryTo_kept {a : State} {y1 y2 y3 y4 y5 y6} (h1 : Kept true a y1) :
    Kept true a ((State.writeEntryTo y1 y2 y3 y4 y5 y6).2) := by
  unfold State.writeEntryTo
  split
  · exact h1
  · refine Kept.ite2 ?_ ?_
    · exact State.bump_kept h1
    · refine Kept.ite2 ?_ ?_
      · exact h1
      · extract_lets -merge -useContext +onlyGivenNames -underBinder v1 v2
        refine Kept.ite2 ?_ ?_
        · exact h1
        · exact State.taskWrite_kept h1

theorem State.applyNear_kept {a : State} {y1 y2 y3 y4 y5 y6} (h1 : Kept true a y1) :
    Kept true a (State.applyNear y1 y2 y3 y4 y5 y6) := by
  unfold State.applyNear
  extract_lets -merge -useContext +onlyGivenNames -underBinder v1
  refine Kept.ite ?_ ?_
  · exact State.offerHost_kept h1
  · split
    · exact h1
    · refine Kept.ite ?_ ?_
      · exact State.refuseEntry_kept (State.setTask_kept h1)
      · refine Kept.ite ?_ ?_
        · exact State.offerHost_kept h1
        · refine Kept.ite ?_ ?_
          · exact State.insertKeys_kept h1
          · extract_lets -merge -useContext +onlyGivenNames -underBinder v2
            have k3 : Kept true a v2.2 := State.writeEntryTo_kept h1
            refine Kept.ite ?_ ?_
            · exact k3
            · exact State.setTask_kept k3

theorem State.applyFilter_kept {a : State} {y1 y2 y3 y4} (h1 : Kept true a y1) :
    Kept true a (State.applyFilter y1 y2 y3 y4) := by
  unfold State.applyFilter
  extract_lets -merge -useContext +onlyGivenNames -underBinder v1
  refine Kept.ite ?_ ?_
  · exact State.setDom_kept h1
  · split
    · exact h1
    · refine Kept.ite ?_ ?_
      · exact State.refuseEntry_kept h1
      · refine Kept.ite ?_ ?_
        · exact State.insertKeys_kept h1
        · refine Kept.ite ?_ ?_
          · exact State.writeEntryTo_kept h1
          · exact h1

theorem State.retireFrame_kept {a : State} {y1 y2 y3 y4 y5 y6} (h1 : Kept true a y1) :
    Kept true a (State.retireFrame y1 y2 y3 y4 y5 y6) := by
  unfold State.retireFrame
  split
  · exact h1
  · extract_lets -merge -useContext +onlyGivenNames -underBinder v1
    refine Kept.ite ?_ ?_
    · exact State.missFrame_kept h1
    · extract_lets -merge -useContext +onlyGivenNames -underBinder v2 v3
      have k4 : Kept true a v3 := State.setTask_kept h1
      extract_lets -merge -useContext +onlyGivenNames -underBinder v5
      have k6 : Kept true a v5 := by
        refine Kept.foldl ?_ (fun p7 x7 h7 => ?_)
        · exact k4
        · exact State.putEntry_kept (State.applyFilter_kept h7)
      extract_lets -merge -useContext +onlyGivenNames -underBinder v8
      have k9 : Kept true a v8 := by
        unfold v8
        split
        · extract_lets -merge -useContext +onlyGivenNames -underBinder v10
          exact State.setDom_kept k6
        · exact k6
      exact State.bump_kept (State.filterDone_kept k9)

theorem State.takeEntry_kept {a : State} {y1 y2 y3 y4} (h1 : Kept true a y1) :
    Kept true a (State.takeEntry y1 y2 y3 y4) := by
  unfold State.takeEntry
  split
  · exact h1
  · extract_lets -merge -useContext +onlyGivenNames -underBinder v1
    refine Kept.ite ?_ ?_
    · extract_lets -merge -useContext +onlyGivenNames -underBinder v2 v3
      have k4 : Kept true a v3 := State.setCd_kept h1
      exact State.putEntry_kept k4
    · split
      · refine State.putEntry_kept ?_
        refine Kept.ite ?_ ?_
        · exact h1
        · exact State.applyNear_kept h1
      · refine Kept.ite ?_ ?_
        · exact State.putEntry_kept (State.retireFrame_kept h1)
        · refine Kept.ite ?_ ?_
          · exact State.putEntry_kept h1
          · refine Kept.ite ?_ ?_
            · extract_lets -merge -useContext +onlyGivenNames -underBinder v5
              refine Kept.ite ?_ ?_
              · exact State.setTask_kept h1
              · exact State.putEntry_kept h1
            · exact State.putEntry_kept (State.applyFilter_kept h1)
      · exact State.putEntry_kept h1

theorem State.takeEntries_kept {a : State} {y1 y2 y3 y4 y5} (h1 : Kept true a y1) :
    Kept true a ((State.takeEntries y1 y2 y3 y4 y5).2) := by
  induction y5 generalizing y1 y2 y3 y4 with
  | zero =>
    unfold State.takeEntries
    exact h1
  | succ n ih =>
    unfold State.takeEntries
    refine Kept.ite2 ?_ ?_
    · exact h1
    · extract_lets -merge -useContext +onlyGivenNames -underBinder v19 v20 v21
      have k22 : Kept true a v21 := State.takeEntry_kept (State.segWrite_kept h1)
      extract_lets -merge -useContext +onlyGivenNames -underBinder v23
      have k24 : Kept true a v23.2 := ih k22
      exact k24

theorem State.consumeOutput_kept {a : State} {y1 y2 y3} (h1 : Kept true a y1) :
    Kept true a (State.consumeOutput y1 y2 y3) := by
  unfold State.consumeOutput
  split
  · exact h1
  · extract_lets -merge -useContext +onlyGivenNames -underBinder v1
    have k2 : Kept true a v1.2 := State.takeEntries_kept h1
    extract_lets -merge -useContext +onlyGivenNames -underBinder v3
    have k4 : Kept true a v3 := by
      refine Kept.ite ?_ ?_
      · exact k2
      · exact State.post_kept k2
    exact State.feedNear_kept (State.feedInput_kept k4)

theorem execFilterDeadline_kept {a : State} {y1 y2 y3} (h1 : Kept true a y3) :
    Res.kept true a (execFilterDeadline y1 y2 y3) := by
  unfold execFilterDeadline
  refine onDie_kept ?_ ?_
  · exact h1
  · intro q1
    split
    · exact Res.kept_next h1
    · split
      · refine Res.kept_ite ?_ ?_
        · exact Res.kept_next (State.endFilters_kept (State.missFrame_kept h1))
        · exact Res.kept_next h1
      · exact Res.kept_next h1

/-! ### Measure -/

theorem State.extend_kept {w : Bool} {a : State} {y1 y2 y3 y4} (h1 : Kept w a y1) :
    Kept w a (State.extend y1 y2 y3 y4) := by
  unfold State.extend
  extract_lets -merge -useContext +onlyGivenNames -underBinder v1 v2 v3 v4 v5 v6 v7 v8 v9
  have k10 : Kept w a v9 := Kept.put h1
  exact State.setObj_kept (State.setObj_kept (State.setObj_kept (State.setObj_kept k10)))

theorem State.rotateProduction_kept {w : Bool} {a : State} {y1 y2 y3} (h1 : Kept w a y1) :
    Kept w a (State.rotateProduction y1 y2 y3) := by
  unfold State.rotateProduction
  extract_lets -merge -useContext +onlyGivenNames -underBinder v1 v2 v3
  have k4 : Kept w a v3 := Kept.put h1
  exact State.raise_kept (State.setObj_kept (State.setObj_kept k4))

theorem State.setKeyState_kept {w : Bool} {a : State} {y1 y2 y3 y4} (h1 : Kept w a y1) :
    Kept w a (State.setKeyState y1 y2 y3 y4) := by
  unfold State.setKeyState
  exact Kept.put h1

theorem State.emptyKeyState_kept {w : Bool} {a : State} {y1 y2 y3} (h1 : Kept w a y1) :
    Kept w a (State.emptyKeyState y1 y2 y3) := by
  unfold State.emptyKeyState
  split
  · exact State.setKeyState_kept h1
  · exact h1

theorem State.dropSourced_kept {w : Bool} {a : State} {y1 y2 y3} (h1 : Kept w a y1) :
    Kept w a (State.dropSourced y1 y2 y3) := by
  unfold State.dropSourced
  refine Kept.foldl ?_ (fun p1 x1 h1 => ?_)
  · exact h1
  · split
    · refine Kept.ite ?_ ?_
      · exact State.raise_kept (State.bump_kept (State.emptyKeyState_kept h1))
      · exact h1
    · exact h1

theorem State.loadKey_kept {w : Bool} {a : State} {y1 y2 y3} (h1 : Kept w a y1) :
    Kept w a (State.loadKey y1 y2 y3) := by
  unfold State.loadKey
  extract_lets -merge -useContext +onlyGivenNames -underBinder v1 v2
  refine Kept.foldl ?_ (fun p3 x3 h3 => ?_)
  · exact h1
  · extract_lets -merge -useContext +onlyGivenNames -underBinder v4 v5
    exact State.dropSourced_kept (State.setKeySlot_kept h3)

theorem State.reportBlob_kept {w : Bool} {a : State} {y1 y2 y3 y4} (h1 : Kept w a y1) :
    Kept w a (State.reportBlob y1 y2 y3 y4) := by
  unfold State.reportBlob
  exact State.setObj_kept (State.setObj_kept (State.setObj_kept (State.setObj_kept h1)))

theorem State.reportStore_kept {w : Bool} {a : State} {y1} (h1 : Kept w a y1) :
    Kept w a (State.reportStore y1) := by
  unfold State.reportStore
  extract_lets -merge -useContext +onlyGivenNames -underBinder v1
  exact State.setObj_kept (State.setDom_kept h1)

theorem State.storeKey_kept {w : Bool} {a : State} {y1 y2 y3} (h1 : Kept w a y1) :
    Kept w a (State.storeKey y1 y2 y3) := by
  unfold State.storeKey
  extract_lets -merge -useContext +onlyGivenNames -underBinder v1 v2
  exact State.reportStore_kept (Kept.put h1)

theorem State.takeBlob_kept {w : Bool} {a : State} {y1 y2 y3} (h1 : Kept w a y1) :
    Kept w a (State.takeBlob y1 y2 y3) := by
  unfold State.takeBlob
  extract_lets -merge -useContext +onlyGivenNames -underBinder v1 v2 v3 v4
  split
  extract_lets -merge -useContext +onlyGivenNames -underBinder v5 v6 v7
  have k8 : (∀ z0 z1, Kept w a z0 → Kept w a (v7 z0 z1)) := by
    intro q9 q10 q11
    refine Kept.foldl ?_ (fun p12 x12 h12 => ?_)
    · exact q11
    · exact State.bump_kept h12
  refine Kept.ite ?_ ?_
  · extract_lets -merge -useContext +onlyGivenNames -underBinder v13
    have k14 : Kept w a v13 := State.extend_kept (State.loadKey_kept (k8 _ _ h1))
    refine State.reportBlob_kept ?_
    refine Kept.ite ?_ ?_
    · exact State.storeKey_kept k14
    · exact k14
  · exact State.raise_kept (State.bump_kept (State.reportBlob_kept (k8 _ _ h1)))

theorem State.loadBlobs_kept {w : Bool} {a : State} {y1 y2 y3} (h1 : Kept w a y1) :
    Kept w a (State.loadBlobs y1 y2 y3) := by
  induction y2 generalizing y1 y3 with
  | zero =>
    unfold State.loadBlobs
    exact h1
  | succ n ih =>
    unfold State.loadBlobs
    refine Kept.ite ?_ ?_
    · exact h1
    · split
      · exact State.takeBlob_kept h1
      · exact ih (State.takeBlob_kept h1)

theorem State.loadKeyState_kept {w : Bool} {a : State} {y1 y2} (h1 : Kept w a y1) :
    Kept w a (State.loadKeyState y1 y2) := by
  unfold State.loadKeyState
  extract_lets -merge -useContext +onlyGivenNames -underBinder v1 v2 v3 v4 v5 v6 v7 v8
  have k9 : (∀ z0 z1, Kept w a z0 → Kept w a (v8 z0 z1)) := by
    intro q10 q11 q12
    exact State.setObj_kept (State.setObj_kept (State.setObj_kept (State.setObj_kept q12)))
  refine Kept.ite ?_ ?_
  · exact k9 _ _ h1
  · refine k9 _ _ ?_
    refine Kept.foldl ?_ (fun p13 x13 h13 => ?_)
    · exact h1
    · split
      · exact h13
      · extract_lets -merge -useContext +onlyGivenNames -underBinder v14 v15
        exact State.setKeyState_kept h13

theorem State.loadKeyStates_kept {w : Bool} {a : State} {y1 y2} (h1 : Kept w a y1) :
    Kept w a (State.loadKeyStates y1 y2) := by
  unfold State.loadKeyStates
  refine Kept.foldl ?_ (fun p1 x1 h1 => ?_)
  · exact h1
  · exact State.loadKeyState_kept h1

theorem State.reloadKeys_kept {w : Bool} {a : State} {y1} (h1 : Kept w a y1) :
    Kept w a (State.reloadKeys y1) := by
  unfold State.reloadKeys
  refine Kept.foldl ?_ (fun p1 x1 h1 => ?_)
  · exact h1
  · refine Kept.ite ?_ ?_
    · exact State.bump_kept (State.loadKey_kept h1)
    · exact State.raise_kept (State.bump_kept (State.reportStore_kept (Kept.put h1)))

/-! ### Takes -/

theorem State.captureWrite_kept {a : State} {y1 y2 y3 y4 y5} (h1 : Kept true a y1) :
    Kept true a (State.captureWrite y1 y2 y3 y4 y5) := by
  unfold State.captureWrite
  exact State.deviceWrite_kept h1

theorem State.writeHeader_kept {a : State} {y1 y2} (h1 : Kept true a y1) :
    Kept true a (State.writeHeader y1 y2) := by
  unfold State.writeHeader
  extract_lets -merge -useContext +onlyGivenNames -underBinder v1 v2 v3
  have k4 : Kept true a v3 := State.captureWrite_kept h1
  exact Kept.put k4

theorem State.modTake_kept {w : Bool} {a : State} {y1 y2 y3 y4} (h1 : Kept w a y1) :
    Kept w a (State.modTake y1 y2 y3 y4) := by
  unfold State.modTake
  exact Kept.put h1

theorem State.appendRecord_kept {w : Bool} {a : State} {y1 y2 y3 y4} (h1 : Kept w a y1) :
    Kept w a (State.appendRecord y1 y2 y3 y4) := by
  unfold State.appendRecord
  exact State.modTake_kept h1

theorem State.writeTakeEntry_kept {a : State} {y1 y2 y3} (h1 : Kept true a y1) :
    Kept true a (State.writeTakeEntry y1 y2 y3) := by
  unfold State.writeTakeEntry
  split
  · exact h1
  · extract_lets -merge -useContext +onlyGivenNames -underBinder v1
    exact State.captureWrite_kept h1

theorem State.newExtent_kept {a : State} {y1 y2 y3} (h1 : Kept true a y1) :
    Kept true a (State.newExtent y1 y2 y3) := by
  unfold State.newExtent
  split
  · extract_lets -merge -useContext +onlyGivenNames -underBinder v1 v2 v3
    have k4 : Kept true a v3 := State.captureWrite_kept (State.setUnit_kept h1)
    exact State.writeTakeEntry_kept (State.modTake_kept k4)
  · exact h1

theorem State.writeRecord_kept {a : State} {y1 y2 y3 y4 y5} (h1 : Kept true a y1) :
    Kept true a (State.writeRecord y1 y2 y3 y4 y5) := by
  unfold State.writeRecord
  extract_lets -merge -useContext +onlyGivenNames -underBinder v1
  exact State.modTake_kept (State.captureWrite_kept h1)

theorem State.writeRecords_kept {a : State} {y1 y2 y3 y4} (h1 : Kept true a y1) :
    Kept true a (State.writeRecords y1 y2 y3 y4) := by
  induction y4 generalizing y1 y2 y3 with
  | nil =>
    unfold State.writeRecords
    exact h1
  | cons x l ih =>
    unfold State.writeRecords
    extract_lets -merge -useContext +onlyGivenNames -underBinder v7 v8
    have k9 : Kept true a v8 := by
      refine Kept.ite ?_ ?_
      · exact h1
      · exact State.newExtent_kept h1
    split
    · exact k9
    · refine Kept.ite ?_ ?_
      · exact ih (State.writeRecord_kept k9)
      · exact k9

theorem State.flushManifest_kept {a : State} {y1 y2 y3} (h1 : Kept true a y1) :
    Kept true a (State.flushManifest y1 y2 y3) := by
  unfold State.flushManifest
  split
  · exact h1
  · exact State.writeRecords_kept h1

theorem State.reportSlots_kept {w : Bool} {a : State} {y1} (h1 : Kept w a y1) :
    Kept w a (State.reportSlots y1) := by
  unfold State.reportSlots
  refine Kept.foldl ?_ (fun p1 x1 h1 => ?_)
  · exact h1
  · extract_lets -merge -useContext +onlyGivenNames -underBinder v2
    exact State.setObj_kept h1

theorem State.applyOpen_kept {a : State} {y1 y2 y3} (h1 : Kept true a y1) :
    Kept true a (State.applyOpen y1 y2 y3) := by
  unfold State.applyOpen
  split
  · exact h1
  · extract_lets -merge -useContext +onlyGivenNames -underBinder v1 v2
    have k3 : Kept true a v2 := State.writeHeader_kept (State.modTake_kept h1)
    extract_lets -merge -useContext +onlyGivenNames -underBinder v4 v5
    have k6 : Kept true a v5 := by
      refine Kept.foldl ?_ (fun p7 x7 h7 => ?_)
      · exact k3
      · exact State.appendRecord_kept h7
    extract_lets -merge -useContext +onlyGivenNames -underBinder v8
    have k9 : Kept true a v8 := State.writeTakeEntry_kept (State.flushManifest_kept k6)
    extract_lets -merge -useContext +onlyGivenNames -underBinder v10 v11 v12 v13
    have k14 : Kept true a v13 := Kept.put k9
    exact State.raise_kept (State.reportSlots_kept (State.createFilters_kept k14))

theorem State.applyOpens_kept {a : State} {y1} (h1 : Kept true a y1) :
    Kept true a (State.applyOpens y1) := by
  unfold State.applyOpens
  refine Kept.foldl ?_ (fun p1 x1 h1 => ?_)
  · exact h1
  · exact State.applyOpen_kept h1

theorem State.freeUnitsOf_kept {a : State} {y1 y2 y3} (h1 : Kept true a y1) :
    Kept true a (State.freeUnitsOf y1 y2 y3) := by
  unfold State.freeUnitsOf
  refine Kept.foldl ?_ (fun p1 x1 h1 => ?_)
  · exact h1
  · extract_lets -merge -useContext +onlyGivenNames -underBinder v2 v3
    have k4 : Kept true a v3 := by
      refine Kept.foldl ?_ (fun p5 x5 h5 => ?_)
      · exact h1
      · exact State.unstage_kept h5
    exact State.unmapUnit_kept k4

theorem State.dropFrame_kept {a : State} {y1 y2 y3 y4} (h1 : Kept true a y1) :
    Kept true a (State.dropFrame y1 y2 y3 y4) := by
  unfold State.dropFrame
  extract_lets -merge -useContext +onlyGivenNames -underBinder v1 v2 v3
  have k4 : Kept true a v3 := State.missEverywhere_kept h1
  extract_lets -merge -useContext +onlyGivenNames -underBinder v5
  have k6 : Kept true a v5 := State.reclaimFrame_kept k4
  extract_lets -merge -useContext +onlyGivenNames -underBinder v7
  have k8 : Kept true a v7 := State.freeUnitsOf_kept k6
  exact State.modTake_kept k8

theorem State.applyClose_kept {a : State} {y1 y2 y3 y4} (h1 : Kept true a y1) :
    Kept true a (State.applyClose y1 y2 y3 y4) := by
  unfold State.applyClose
  split
  · exact h1
  · refine Kept.ite ?_ ?_
    · exact h1
    · extract_lets -merge -useContext +onlyGivenNames -underBinder v1 v2
      have k3 : Kept true a v2 := by
        refine Kept.foldl ?_ (fun p4 x4 h4 => ?_)
        · exact h1
        · exact State.dropFrame_kept h4
      extract_lets -merge -useContext +onlyGivenNames -underBinder v5
      have k6 : Kept true a v5 := State.modTake_kept k3
      extract_lets -merge -useContext +onlyGivenNames -underBinder v7
      have k8 : Kept true a v7 := by
        refine Kept.ite ?_ ?_
        · exact k6
        · exact State.bump_kept k6
      extract_lets -merge -useContext +onlyGivenNames -underBinder v9
      have k10 : Kept true a v9 := by
        refine Kept.ite ?_ ?_
        · exact State.raise_kept k8
        · exact k8
      exact State.reportSlots_kept k10

theorem State.applyClosings_kept {a : State} {y1} (h1 : Kept true a y1) :
    Kept true a (State.applyClosings y1) := by
  unfold State.applyClosings
  split
  refine Kept.foldl ?_ (fun p1 x1 h1 => ?_)
  · exact Kept.put h1
  · exact State.applyClose_kept h1

theorem State.setMinimum_kept {w : Bool} {a : State} {y1 y2 y3 y4} (h1 : Kept w a y1) :
    Kept w a (State.setMinimum y1 y2 y3 y4) := by
  unfold State.setMinimum
  exact State.registerOwner_kept h1

theorem State.releaseTake_kept {w : Bool} {a : State} {y1 y2} (h1 : Kept w a y1) :
    Kept w a (State.releaseTake y1 y2) := by
  unfold State.releaseTake
  extract_lets -merge -useContext +onlyGivenNames -underBinder v1 v2 v3
  have k4 : Kept w a v3 := by
    refine Kept.foldl ?_ (fun p5 x5 h5 => ?_)
    · exact h1
    · exact State.setMinimum_kept h5
  exact Kept.put k4

theorem State.takeResult_kept {w : Bool} {a : State} {y1 y2} (h1 : Kept w a y1) :
    Kept w a (State.takeResult y1 y2) := by
  unfold State.takeResult
  refine Kept.foldl ?_ (fun p1 x1 h1 => ?_)
  · exact h1
  · exact State.setObj_kept h1

theorem State.applyDelete_kept {a : State} {y1 y2} (h1 : Kept true a y1) :
    Kept true a (State.applyDelete y1 y2) := by
  unfold State.applyDelete
  split
  · refine Kept.ite ?_ ?_
    · exact State.takeResult_kept h1
    · extract_lets -merge -useContext +onlyGivenNames -underBinder v1 v2 v3
      have k4 : Kept true a v3 := State.freeUnitsOf_kept h1
      extract_lets -merge -useContext +onlyGivenNames -underBinder v5
      have k6 : Kept true a v5 := State.modTake_kept k4
      exact State.takeResult_kept (State.writeTakeEntry_kept k6)
  · refine Kept.ite ?_ ?_
    · exact State.takeResult_kept h1
    · exact h1

theorem State.setPort_kept {w : Bool} {a : State} {y1 y2 y3} (h1 : Kept w a y1) :
    Kept w a (State.setPort y1 y2 y3) := by
  unfold State.setPort
  exact Kept.put h1

theorem State.closeLater_kept {w : Bool} {a : State} {y1 y2 y3} (h1 : Kept w a y1) :
    Kept w a (State.closeLater y1 y2 y3) := by
  unfold State.closeLater
  extract_lets -merge -useContext +onlyGivenNames -underBinder v1 v2 v3
  refine Kept.ite ?_ ?_
  · exact h1
  · exact Kept.put h1

theorem State.sendNow_kept {w : Bool} {a : State} {y1 y2 y3 y4 y5} (h1 : Kept w a y1) :
    Kept w a (State.sendNow y1 y2 y3 y4 y5) := by
  unfold State.sendNow
  split
  · exact h1
  · extract_lets -merge -useContext +onlyGivenNames -underBinder v1 v2
    exact State.emitAll_kept (State.setPort_kept h1)

theorem State.sendOn_kept {w : Bool} {a : State} {y1 y2 y3 y4 y5} (h1 : Kept w a y1) :
    Kept w a (State.sendOn y1 y2 y3 y4 y5) := by
  unfold State.sendOn
  split
  · exact h1
  · refine Kept.ite ?_ ?_
    · exact State.setPort_kept h1
    · exact State.sendNow_kept h1

theorem State.sendControl_kept {w : Bool} {a : State} {y1 y2 y3 y4} (h1 : Kept w a y1) :
    Kept w a (State.sendControl y1 y2 y3 y4) := by
  unfold State.sendControl
  split
  · exact h1
  · refine Kept.ite ?_ ?_
    · exact h1
    · exact State.sendOn_kept h1

theorem State.sendReserve_kept {w : Bool} {a : State} {y1 y2} (h1 : Kept w a y1) :
    Kept w a (State.sendReserve y1 y2) := by
  unfold State.sendReserve
  extract_lets -merge -useContext +onlyGivenNames -underBinder v1 v2
  have k3 : Kept w a v2 := by
    refine Kept.foldl ?_ (fun p4 x4 h4 => ?_)
    · exact h1
    · exact State.sendControl_kept h4
  refine Kept.ite ?_ ?_
  · exact State.raise_kept (Kept.put k3)
  · exact k3

theorem State.setReserveLevel_kept {w : Bool} {a : State} {y1 y2} (h1 : Kept w a y1) :
    Kept w a (State.setReserveLevel y1 y2) := by
  unfold State.setReserveLevel
  refine Kept.ite ?_ ?_
  · exact h1
  · extract_lets -merge -useContext +onlyGivenNames -underBinder v1
    have k2 : Kept w a v1 := State.setObj_kept h1
    extract_lets -merge -useContext +onlyGivenNames -underBinder v3 v4
    have k5 : Kept w a v4 := Kept.put k2
    extract_lets -merge -useContext +onlyGivenNames -underBinder v6
    refine Kept.foldl ?_ (fun p7 x7 h7 => ?_)
    · exact k5
    · exact State.sendReserve_kept h7

theorem State.closeAllLater_kept {w : Bool} {a : State} {y1 y2} (h1 : Kept w a y1) :
    Kept w a (State.closeAllLater y1 y2) := by
  unfold State.closeAllLater
  refine Kept.foldl ?_ (fun p1 x1 h1 => ?_)
  · exact h1
  · exact State.closeLater_kept h1

theorem State.recomputeDuration_kept {w : Bool} {a : State} {y1} (h1 : Kept w a y1) :
    Kept w a (State.recomputeDuration y1) := by
  unfold State.recomputeDuration
  refine Kept.ite ?_ ?_
  · extract_lets -merge -useContext +onlyGivenNames -underBinder v1
    have k2 : Kept w a v1 := State.setObj_kept (State.setReserveLevel_kept h1)
    exact Kept.put k2
  · extract_lets -merge -useContext +onlyGivenNames -underBinder v3 v4 v5
    have k6 : Kept w a v5 := State.setObj_kept h1
    extract_lets -merge -useContext +onlyGivenNames -underBinder v7 v8
    have k9 : Kept w a v8 := Kept.put k6
    refine Kept.ite ?_ ?_
    · exact State.closeAllLater_kept (State.setReserveLevel_kept k9)
    · extract_lets -merge -useContext +onlyGivenNames -underBinder v10
      have k11 : Kept w a v10 := State.setReserveLevel_kept k9
      refine Kept.foldl ?_ (fun p12 x12 h12 => ?_)
      · exact k11
      · exact State.closeLater_kept h12

theorem State.boundaryDuration_kept {w : Bool} {a : State} {y1 y2} (h1 : Kept w a y1) (h2 : Kept w a y2) :
    Kept w a (State.boundaryDuration y1 y2) := by
  unfold State.boundaryDuration
  extract_lets -merge -useContext +onlyGivenNames -underBinder v1
  refine Kept.ite ?_ ?_
  · exact State.recomputeDuration_kept h1
  · exact h1

theorem State.setBudgets_kept {w : Bool} {a : State} {y1} (h1 : Kept w a y1) :
    Kept w a (State.setBudgets y1) := by
  unfold State.setBudgets
  refine Kept.foldl ?_ (fun p1 x1 h1 => ?_)
  · exact h1
  · exact State.setObj_kept h1

theorem State.recomputeMargins_kept {w : Bool} {a : State} {y1} (h1 : Kept w a y1) :
    Kept w a (State.recomputeMargins y1) := by
  unfold State.recomputeMargins
  refine Kept.ite ?_ ?_
  · exact h1
  · refine State.setBudgets_kept ?_
    refine Kept.foldl ?_ (fun p1 x1 h1 => ?_)
    · exact h1
    · exact State.setObj_kept h1

theorem State.dropBands_kept {w : Bool} {a : State} {y1 y2 y3} (h1 : Kept w a y1) :
    Kept w a (State.dropBands y1 y2 y3) := by
  unfold State.dropBands
  refine Kept.foldl ?_ (fun p1 x1 h1 => ?_)
  · exact h1
  · extract_lets -merge -useContext +onlyGivenNames -underBinder v2 v3
    have k4 : Kept w a v3 := by
      unfold v3
      split
      · exact State.setPort_kept h1
      · exact h1
    refine Kept.foldl ?_ (fun p5 x5 h5 => ?_)
    · exact k4
    · exact State.pondPut_kept h5

theorem State.sendAllPorts_kept {w : Bool} {a : State} {y1 y2 y3} (h1 : Kept w a y1) :
    Kept w a (State.sendAllPorts y1 y2 y3) := by
  unfold State.sendAllPorts
  refine Kept.foldl ?_ (fun p1 x1 h1 => ?_)
  · exact h1
  · exact State.sendControl_kept h1

theorem State.releaseAdmitted_kept {w : Bool} {a : State} {y1} (h1 : Kept w a y1) :
    Kept w a (State.releaseAdmitted y1) := by
  unfold State.releaseAdmitted
  refine Kept.foldl ?_ (fun p1 x1 h1 => ?_)
  · exact h1
  · exact State.releaseTake_kept h1

theorem State.reportAdmission_kept {w : Bool} {a : State} {y1 y2 y3 y4} (h1 : Kept w a y1) (h2 : Kept w a y2) :
    Kept w a (State.reportAdmission y1 y2 y3 y4) := by
  unfold State.reportAdmission
  extract_lets -merge -useContext +onlyGivenNames -underBinder v1 v2 v3 v4 v5
  have k6 : Kept w a v5 := State.setDom_kept h1
  refine Kept.foldl ?_ (fun p7 x7 h7 => ?_)
  · exact k6
  · extract_lets -merge -useContext +onlyGivenNames -underBinder v8 v9 v10
    have k11 : Kept w a v10 := State.setObj_kept (State.setObj_kept (State.setObj_kept (State.setObj_kept h7)))
    refine Kept.ite ?_ ?_
    · exact State.reportReserve_kept (State.setObj_kept (State.setObj_kept k11))
    · exact k11

theorem State.setMinima_kept {w : Bool} {a : State} {y1 y2 y3 y4} (h1 : Kept w a y1) :
    Kept w a (State.setMinima y1 y2 y3 y4) := by
  unfold State.setMinima
  extract_lets -merge -useContext +onlyGivenNames -underBinder v1
  have k2 : Kept w a v1 := by
    refine Kept.foldl ?_ (fun p3 x3 h3 => ?_)
    · exact h1
    · exact State.setMinimum_kept h3
  exact Kept.put k2

theorem State.openTake_kept {w : Bool} {a : State} {y1 y2 y3 y4 y5} (h1 : Kept w a y1) (h2 : Kept w a y2) :
    Kept w a (State.openTake y1 y2 y3 y4 y5) := by
  unfold State.openTake
  split
  extract_lets -merge -useContext +onlyGivenNames -underBinder v1
  have k2 : Kept w a v1 := by
    refine State.reportAdmission_kept ?_ ?_
    · exact h1
    · exact h2
  refine Kept.ite ?_ ?_
  · extract_lets -merge -useContext +onlyGivenNames -underBinder v3 v4 v5 v6 v7 v8 v9 v10
    have k11 : Kept w a v10 := Kept.put k2
    exact State.takeResult_kept (State.bump_kept (State.setBudgets_kept (State.setMinima_kept k11)))
  · exact State.raise_kept (State.takeResult_kept (State.bump_kept k2))

theorem State.abortTake_kept {a : State} {y1 y2} (h1 : Kept true a y1) :
    Kept true a (State.abortTake y1 y2) := by
  unfold State.abortTake
  split
  · exact h1
  · refine Kept.ite ?_ ?_
    · exact State.closeLater_kept h1
    · extract_lets -merge -useContext +onlyGivenNames -underBinder v1
      have k2 : Kept true a v1 := by
        refine Kept.foldl ?_ (fun p3 x3 h3 => ?_)
        · exact h1
        · exact State.dropFrame_kept h3
      extract_lets -merge -useContext +onlyGivenNames -underBinder v4
      have k5 : Kept true a v4 := by
        refine Kept.foldl ?_ (fun p6 x6 h6 => ?_)
        · exact k2
        · exact State.dropBands_kept h6
      extract_lets -merge -useContext +onlyGivenNames -underBinder v7
      have k8 : Kept true a v7 := State.modTake_kept k5
      exact State.reportSlots_kept (State.countReset_kept k8)

theorem execReserveSend_kept {w : Bool} {a : State} {y1 y2 y3} (h1 : Kept w a y3) :
    Res.kept w a (execReserveSend y1 y2 y3) := by
  unfold execReserveSend
  refine onLane_kept ?_ ?_
  · exact h1
  · intro q1
    refine Res.kept_ite ?_ ?_
    · exact Res.kept_next (State.sendReserve_kept h1)
    · exact Res.kept_next h1

theorem State.recordFrame_kept {a : State} {y1 y2 y3 y4 y5} (h1 : Kept true a y1) :
    Kept true a (State.recordFrame y1 y2 y3 y4 y5) := by
  unfold State.recordFrame
  extract_lets -merge -useContext +onlyGivenNames -underBinder v1 v2 v3 v4 v5 v6 v7
  have k8 : Kept true a v7 := State.appendRecord_kept (State.freeUnitsOf_kept h1)
  extract_lets -merge -useContext +onlyGivenNames -underBinder v9
  have k10 : Kept true a v9 := State.modTake_kept k8
  extract_lets -merge -useContext +onlyGivenNames -underBinder v11
  have k12 : Kept true a v11 := by
    refine Kept.foldl ?_ (fun p13 x13 h13 => ?_)
    · exact State.bump_kept k10
    · exact State.bump_kept h13
  extract_lets -merge -useContext +onlyGivenNames -underBinder v14
  have k15 : Kept true a v14 := State.flushManifest_kept k12
  refine Kept.ite ?_ ?_
  · exact State.raiseOnce_kept k15
  · exact k15

theorem State.sendTakeEnd_kept {w : Bool} {a : State} {y1 y2} (h1 : Kept w a y1) :
    Kept w a (State.sendTakeEnd y1 y2) := by
  unfold State.sendTakeEnd
  refine Kept.ite ?_ ?_
  · exact h1
  · refine Kept.foldl ?_ (fun p1 x1 h1 => ?_)
    · exact h1
    · exact State.sendControl_kept h1

theorem State.sealTake_kept {a : State} {y1 y2 y3} (h1 : Kept true a y1) :
    Kept true a (State.sealTake y1 y2 y3) := by
  unfold State.sealTake
  split
  · exact h1
  · extract_lets -merge -useContext +onlyGivenNames -underBinder v1
    have k2 : Kept true a v1 := by
      refine Kept.foldl ?_ (fun p3 x3 h3 => ?_)
      · exact h1
      · exact State.dropFrame_kept h3
    extract_lets -merge -useContext +onlyGivenNames -underBinder v4
    have k5 : Kept true a v4 := State.flushManifest_kept (State.appendRecord_kept k2)
    split
    · exact k5
    · extract_lets -merge -useContext +onlyGivenNames -underBinder v6 v7 v8
      have k9 : Kept true a v8 := State.writeTakeEntry_kept (State.modTake_kept k5)
      extract_lets -merge -useContext +onlyGivenNames -underBinder v10
      have k11 : Kept true a v10 := State.extend_kept k9
      extract_lets -merge -useContext +onlyGivenNames -underBinder v12 v13
      have k14 : Kept true a v13 := State.modTake_kept k11
      extract_lets -merge -useContext +onlyGivenNames -underBinder v15 v16
      have k17 : Kept true a v16 := Kept.put k14
      extract_lets -merge -useContext +onlyGivenNames -underBinder v18
      have k19 : Kept true a v18 := State.reportSlots_kept (State.setDom_kept (State.addObj_kept k17))
      extract_lets -merge -useContext +onlyGivenNames -underBinder v20
      have k21 : Kept true a v20 := by
        refine Kept.ite ?_ ?_
        · exact State.takeResult_kept k19
        · exact k19
      extract_lets -merge -useContext +onlyGivenNames -underBinder v22
      have k23 : Kept true a v22 := State.raise_kept (State.sendTakeEnd_kept k21)
      refine State.endFilters_kept ?_
      refine Kept.ite ?_ ?_
      · exact k23
      · exact State.raise_kept k23

/-! ### Flags -/

theorem State.takeTrap_kept {a : State} {y1 y2 y3 y4 y5 y6} (h1 : Kept true a y1) :
    Kept true a (State.takeTrap y1 y2 y3 y4 y5 y6) := by
  unfold State.takeTrap
  split
  · exact h1
  · extract_lets -merge -useContext +onlyGivenNames -underBinder v1 v2 v3 v4 v5 v6 v7
    have k8 : Kept true a v7 := State.bump_kept (State.setTask_kept h1)
    refine Kept.ite ?_ ?_
    · exact State.stopTask_kept k8
    · exact State.setTask_kept k8

theorem execUndefinedInstruction_kept {a : State} {y1 y2 y3} (h1 : Kept true a y3) :
    Res.kept true a (execUndefinedInstruction y1 y2 y3) := by
  unfold execUndefinedInstruction
  refine onDie_kept ?_ ?_
  · exact h1
  · intro q1
    split
    · exact Res.kept_refused
    · extract_lets -merge -useContext +onlyGivenNames -underBinder v2 v3
      have k4 : Kept true a v3 := State.setTask_kept h1
      split
      · exact Res.kept_next (State.takeTrap_kept k4)
      · split
        · exact Res.kept_next (State.takeTrap_kept k4)
        · exact Res.kept_refused

theorem Ctx.s_kept {w : Bool} {a : State} {y1} (h1 : Kept w a y1.s) :
    Kept w a (Ctx.s y1) := by
  unfold Ctx.s
  exact h1

theorem Effect.after_kept {w : Bool} {a : State} {y1} (h1 : Kept w a y1.after) :
    Kept w a (Effect.after y1) := by
  unfold Effect.after
  exact h1

theorem Ctx.commit_kept {w : Bool} {a : State} {y1 y2} (h1 : Kept w a y1.s) (h2 : Kept w a y2.after) :
    Kept w a (Ctx.commit y1 y2) := by
  unfold Ctx.commit
  split
  · exact h2
  · refine Kept.ite ?_ ?_
    · exact h2
    · extract_lets -merge -useContext +onlyGivenNames -underBinder v1 v2 v3 v4 v5
      exact State.setTask_kept h2

theorem Ctx.run_kept {a : State} {y1 y2} (h1 : Kept true a y1.s) (h2 : (∀ z0, Kept true a z0.s → Act.kept true a (y2 z0))) :
    Kept true a (Ctx.run y1 y2) := by
  unfold Ctx.run
  refine Kept.ite (State.takeTrap_kept h1) (Kept.ite (State.takeTrap_kept h1) (Kept.ite (State.takeTrap_kept h1) (Kept.ite (State.setTask_kept h1) ?_)))
  have h3 := h2 y1 h1
  split
  · rename_i e he
    rw [he] at h3
    exact Ctx.commit_kept h1 h3
  · exact State.takeTrap_kept (State.setTask_kept h1)

theorem execOp_kept {a : State} {y1 y2 y3 y4 y5} (h1 : Kept true a y4) (h2 : (∀ z0, Kept true a z0.s → Act.kept true a (y5 z0))) :
    Res.kept true a (execOp y1 y2 y3 y4 y5) := by
  unfold execOp
  refine onDie_kept ?_ ?_
  · exact h1
  · intro q1
    split
    · exact Res.kept_refused
    · extract_lets -merge -useContext +onlyGivenNames -underBinder v2
      split
      · exact Res.kept_refused
      · split
        · exact Res.kept_refused
        · refine Res.kept_ite ?_ ?_
          · exact Res.kept_refused
          · refine Res.kept_next ?_
            refine Ctx.run_kept ?_ ?_
            · exact State.setTask_kept h1
            · intro q3 q4
              exact h2 _ q4

theorem Ctx.plain_kept {w : Bool} {a : State} {y1} (h1 : Kept w a y1.s) :
    Kept w a (Ctx.plain y1).after := by
  unfold Ctx.plain
  exact h1

theorem Ctx.resultOf_kept {w : Bool} {a : State} {y1 y2 y3 y4} (h1 : Kept w a y1.s) :
    Kept w a (Ctx.resultOf y1 y2 y3 y4).after := by
  unfold Ctx.resultOf
  extract_lets -merge -useContext +onlyGivenNames -underBinder v1 v2
  have k3 : Kept w a v2.after := Ctx.plain_kept h1
  exact k3

theorem Ctx.result_kept {w : Bool} {a : State} {y1 y2 y3 y4} (h1 : Kept w a y1.s) :
    Act.kept w a (Ctx.result y1 y2 y3 y4) := by
  unfold Ctx.result
  exact Act.kept_done (Ctx.resultOf_kept h1)

theorem Ctx.loaded_kept {w : Bool} {a : State} {y1 y2 y3} (h1 : Kept w a y1.s) :
    Kept w a (Ctx.loaded y1 y2 y3).after := by
  unfold Ctx.loaded
  split
  · extract_lets -merge -useContext +onlyGivenNames -underBinder v1
    have k2 : Kept w a v1.after := Ctx.plain_kept h1
    exact k2
  · extract_lets -merge -useContext +onlyGivenNames -underBinder v3
    have k4 : Kept w a v3.after := Ctx.plain_kept h1
    exact State.useFree_kept h1
  · extract_lets -merge -useContext +onlyGivenNames -underBinder v5
    have k6 : Kept w a v5.after := Ctx.plain_kept h1
    exact State.useFree_kept h1

theorem Ctx.load_kept {w : Bool} {a : State} {y1 y2 y3} (h1 : Kept w a y1.s) :
    Act.kept w a (Ctx.load y1 y2 y3) := by
  unfold Ctx.load
  extract_lets -merge -useContext +onlyGivenNames -underBinder v1
  refine Act.kept_ite ?_ ?_
  · exact Act.kept_trap
  · split
    · exact Act.kept_trap
    · refine Act.kept_ite ?_ ?_
      · exact Act.kept_trap
      · exact Act.kept_done (Ctx.loaded_kept h1)

theorem Ctx.stored_kept {a : State} {y1 y2 y3} (h1 : Kept true a y1.s) :
    Kept true a (Ctx.stored y1 y2 y3).after := by
  unfold Ctx.stored
  extract_lets -merge -useContext +onlyGivenNames -underBinder v1
  have k2 : Kept true a v1.after := Ctx.plain_kept h1
  exact State.write_kept h1

theorem Ctx.waits_kept {w : Bool} {a : State} {y1 y2} (h1 : Kept w a y1.s) (h2 : Kept w a y2.after) :
    Act.kept w a (Ctx.waits y1 y2) := by
  unfold Ctx.waits
  exact Act.kept_done (State.useFree_kept h2)

theorem Ctx.store_kept {a : State} {y1 y2 y3} (h1 : Kept true a y1.s) :
    Act.kept true a (Ctx.store y1 y2 y3) := by
  unfold Ctx.store
  extract_lets -merge -useContext +onlyGivenNames -underBinder v1
  refine Act.kept_ite ?_ ?_
  · exact Act.kept_trap
  · split
    · exact Act.kept_trap
    · exact Act.kept_trap
    · exact Act.kept_done (Ctx.stored_kept h1)
    · refine Ctx.waits_kept ?_ ?_
      · exact h1
      · exact Ctx.stored_kept h1

theorem Ctx.jump_kept {w : Bool} {a : State} {y1 y2 y3} (h1 : Kept w a y1.s) :
    Act.kept w a (Ctx.jump y1 y2 y3) := by
  unfold Ctx.jump
  refine Act.kept_ite ?_ ?_
  · exact Act.kept_trap
  · extract_lets -merge -useContext +onlyGivenNames -underBinder v1
    refine Act.kept_done ?_
    extract_lets -merge -useContext +onlyGivenNames -underBinder v2
    have k3 : Kept w a v2.after := Ctx.plain_kept h1
    exact k3

theorem Ctx.branch_kept {w : Bool} {a : State} {y1 y2} (h1 : Kept w a y1.s) :
    Act.kept w a (Ctx.branch y1 y2) := by
  unfold Ctx.branch
  refine Act.kept_ite ?_ ?_
  · exact Ctx.jump_kept h1
  · exact Act.kept_done (Ctx.plain_kept h1)

theorem Ctx.toV_kept {w : Bool} {a : State} {y1 y2} (h1 : Kept w a y1.s) :
    Act.kept w a (Ctx.toV y1 y2) := by
  unfold Ctx.toV
  refine Act.kept_done ?_
  extract_lets -merge -useContext +onlyGivenNames -underBinder v1
  have k2 : Kept w a v1.after := Ctx.plain_kept h1
  exact k2

theorem Ctx.fromV_kept {w : Bool} {a : State} {y1 y2} (h1 : Kept w a y1.s) :
    Act.kept w a (Ctx.fromV y1 y2) := by
  unfold Ctx.fromV
  refine Act.kept_done ?_
  extract_lets -merge -useContext +onlyGivenNames -underBinder v1
  have k2 : Kept w a v1.after := Ctx.plain_kept h1
  exact k2

theorem Ctx.answer_kept {w : Bool} {a : State} {y1 y2 y3 y4 y5 y6} (h1 : Kept w a y1.s) (h2 : Kept w a y2) :
    Act.kept w a (Ctx.answer y1 y2 y3 y4 y5 y6) := by
  unfold Ctx.answer
  extract_lets -merge -useContext +onlyGivenNames -underBinder v1
  have k2 : Kept w a v1.after := Ctx.plain_kept h1
  extract_lets -merge -useContext +onlyGivenNames -underBinder v3
  have k4 : Kept w a v3.after := h2
  exact Act.kept_done (State.useFree_kept h2)

/-! ### NearData -/

theorem State.startNear_kept {a : State} {y1 y2} (h1 : Kept true a y1) :
    Kept true a (State.startNear y1 y2) := by
  unfold State.startNear
  extract_lets -merge -useContext +onlyGivenNames -underBinder v1 v2
  have k3 : Kept true a v2 := State.bump_kept (State.failVendor_kept h1)
  split
  · exact State.failVendor_kept h1
  · refine Kept.ite ?_ ?_
    · exact State.failVendor_kept h1
    · refine Kept.ite ?_ ?_
      · exact State.bump_kept k3
      · split
        · exact k3
        · extract_lets -merge -useContext +onlyGivenNames -underBinder v4 v5 v6
          have k7 : Kept true a v6 := State.makeReady_kept (State.placeTask_kept h1)
          exact State.bump_kept (State.feedNear_kept k7)

theorem State.startHeld_kept {a : State} {y1} (h1 : Kept true a y1) :
    Kept true a (State.startHeld y1) := by
  unfold State.startHeld
  refine Kept.foldl ?_ (fun p1 x1 h1 => ?_)
  · exact h1
  · refine Kept.ite ?_ ?_
    · exact State.startNear_kept (Kept.put h1)
    · exact h1

theorem State.modFn_kept {w : Bool} {a : State} {y1 y2 y3} (h1 : Kept w a y1) :
    Kept w a (State.modFn y1 y2 y3) := by
  unfold State.modFn
  exact Kept.put h1

theorem State.walkEnds_kept {a : State} {y1 y2} (h1 : Kept true a y1) :
    Kept true a (State.walkEnds y1 y2) := by
  unfold State.walkEnds
  extract_lets -merge -useContext +onlyGivenNames -underBinder v1
  have k2 : Kept true a v1 := State.walkOut_kept h1
  refine Kept.ite ?_ ?_
  · exact State.startHeld_kept (State.freeSlot_kept k2)
  · exact k2

/-! ### Engines -/

theorem State.takeCounter_kept {w : Bool} {a : State} {y1 y2 y3 y4} (h1 : Kept w a y1) :
    Kept w a ((State.takeCounter y1 y2 y3 y4).2) := by
  unfold State.takeCounter
  extract_lets -merge -useContext +onlyGivenNames -underBinder v1 v2
  refine Kept.ite2 ?_ ?_
  · exact State.raise_kept (State.bump_kept (State.setKeySlot_kept h1))
  · exact State.setKeySlot_kept h1

theorem State.cipherBegin_kept {w : Bool} {a : State} {y1 y2 y3} (h1 : Kept w a y1) :
    Kept w a ((State.cipherBegin y1 y2 y3).2) := by
  unfold State.cipherBegin
  refine Kept.ite2 ?_ ?_
  · exact h1
  · extract_lets -merge -useContext +onlyGivenNames -underBinder v1
    refine Kept.ite2 ?_ ?_
    · exact State.raiseOnce_kept (State.bump_kept h1)
    · refine Kept.ite2 ?_ ?_
      · exact h1
      · split
        · exact h1
        · extract_lets -merge -useContext +onlyGivenNames -underBinder v2
          refine Kept.ite2 ?_ ?_
          · exact h1
          · refine Kept.ite2 ?_ ?_
            · exact h1
            · exact State.takeCounter_kept h1

theorem State.setSd_kept {w : Bool} {a : State} {y1 y2 y3} (h1 : Kept w a y1) :
    Kept w a (State.setSd y1 y2 y3) := by
  unfold State.setSd
  exact Kept.put h1

theorem State.digestBegin_kept {w : Bool} {a : State} {y1 y2 y3} (h1 : Kept w a y1) :
    Kept w a ((State.digestBegin y1 y2 y3).2) := by
  unfold State.digestBegin
  refine Kept.ite2 ?_ ?_
  · exact h1
  · refine Kept.ite2 ?_ ?_
    · exact h1
    · refine Kept.ite2 ?_ ?_
      · exact h1
      · split
        extract_lets -merge -useContext +onlyGivenNames -underBinder v1
        have k2 : Kept w a v1 := by
          refine Kept.ite ?_ ?_
          · exact State.bump_kept h1
          · exact h1
        extract_lets -merge -useContext +onlyGivenNames -underBinder v3
        have k4 : Kept w a v3 := by
          refine Kept.ite ?_ ?_
          · exact State.bump_kept k2
          · exact k2
        extract_lets -merge -useContext +onlyGivenNames -underBinder v5
        have k6 : Kept w a v5 := by
          unfold v5
          split
          · exact State.setKeyState_kept k4
          · exact k4
        exact k6

theorem State.beginJob_kept {w : Bool} {a : State} {y1 y2 y3 y4 y5} (h1 : Kept w a y1) :
    Kept w a (State.beginJob y1 y2 y3 y4 y5) := by
  unfold State.beginJob
  extract_lets -merge -useContext +onlyGivenNames -underBinder v1
  split
  rename_i i2 i3 i4 i5
  extract_lets -merge -useContext +onlyGivenNames -underBinder v6 v7
  have k8 : Kept w a v7 := by
    refine Kept.ite ?_ ?_
    · refine State.highWater_kept ?_
      refine Kept.eq2 i5 ?_
      refine Kept.ite2 ?_ ?_
      · exact State.cipherBegin_kept h1
      · refine Kept.ite2 ?_ ?_
        · exact State.digestBegin_kept h1
        · exact h1
    · refine Kept.eq2 i5 ?_
      refine Kept.ite2 ?_ ?_
      · exact State.cipherBegin_kept h1
      · refine Kept.ite2 ?_ ?_
        · exact State.digestBegin_kept h1
        · exact h1
  exact State.setJob_kept k8

theorem State.startJobs_kept {w : Bool} {a : State} {y1 y2 y3 y4} (h1 : Kept w a y1) :
    Kept w a (State.startJobs y1 y2 y3 y4) := by
  induction y4 generalizing y1 y2 y3 with
  | zero =>
    unfold State.startJobs
    exact h1
  | succ n ih =>
    unfold State.startJobs
    split
    · refine Kept.ite ?_ ?_
      · exact h1
      · extract_lets -merge -useContext +onlyGivenNames -underBinder v7 v8
        have k9 : Kept w a v8 := by
          refine Kept.ite ?_ ?_
          · exact h1
          · refine Kept.ite ?_ ?_
            · exact State.setObj_kept (State.setSd_kept h1)
            · exact State.setObj_kept (State.setSd_kept h1)
        exact ih (State.beginJob_kept k9)
    · exact h1

theorem State.enginePost_kept {w : Bool} {a : State} {y1 y2 y3 y4 y5} (h1 : Kept w a y1) :
    Kept w a (State.enginePost y1 y2 y3 y4 y5) := by
  unfold State.enginePost
  extract_lets -merge -useContext +onlyGivenNames -underBinder v1 v2
  have k3 : Kept w a v2 := by
    refine Kept.ite ?_ ?_
    · exact State.setCd_kept h1
    · exact h1
  exact State.post_kept k3

theorem State.endJob_kept {a : State} {y1 y2 y3 y4 y5 y6 y7} (h1 : Kept true a y1) :
    Kept true a (State.endJob y1 y2 y3 y4 y5 y6 y7) := by
  unfold State.endJob
  refine Kept.ite ?_ ?_
  · extract_lets -merge -useContext +onlyGivenNames -underBinder v1 v2
    have k3 : Kept true a v2 := State.setCd_kept h1
    extract_lets -merge -useContext +onlyGivenNames -underBinder v4
    have k5 : Kept true a v4 := by
      refine Kept.ite ?_ ?_
      · exact State.bump_kept k3
      · exact k3
    exact State.startHeld_kept (State.freeSlot_kept (State.startJobs_kept k5))
  · extract_lets -merge -useContext +onlyGivenNames -underBinder v6
    have k7 : Kept true a v6 := State.startJobs_kept (State.setJob_kept h1)
    extract_lets -merge -useContext +onlyGivenNames -underBinder v8
    have k9 : Kept true a v8 := State.enginePost_kept (State.write_kept k7)
    refine Kept.ite ?_ ?_
    · exact State.confine_kept k9
    · exact k9

theorem Ctx.accepted_kept {w : Bool} {a : State} {y1 y2 y3 y4} (h1 : Kept w a y1.s) :
    Act.kept w a (Ctx.accepted y1 y2 y3 y4) := by
  unfold Ctx.accepted
  extract_lets -merge -useContext +onlyGivenNames -underBinder v1 v2 v3 v4 v5 v6 v7
  have k8 : Kept w a v7 := State.setCd_kept h1
  extract_lets -merge -useContext +onlyGivenNames -underBinder v9
  have k10 : Kept w a v9 := by
    refine Kept.ite ?_ ?_
    · exact State.highWater_kept k8
    · exact k8
  extract_lets -merge -useContext +onlyGivenNames -underBinder v11
  have k12 : Kept w a v11 := by
    refine Kept.ite ?_ ?_
    · exact State.highWater_kept k10
    · exact k10
  refine Ctx.answer_kept ?_ ?_
  · exact h1
  · exact State.startJobs_kept k12

theorem Ctx.submit_kept {w : Bool} {a : State} {y1 y2 y3} (h1 : Kept w a y1.s) :
    Act.kept w a (Ctx.submit y1 y2 y3) := by
  unfold Ctx.submit
  extract_lets -merge -useContext +onlyGivenNames -underBinder v1
  refine Act.kept_ite ?_ ?_
  · exact Act.kept_trap
  · split
    · exact Act.kept_trap
    · exact Act.kept_trap
    · refine Act.kept_ite ?_ ?_
      · exact Act.kept_trap
      · refine Act.kept_ite ?_ ?_
        · refine Ctx.answer_kept ?_ ?_
          · exact h1
          · exact State.bump_kept h1
        · exact Ctx.accepted_kept h1

theorem execJsubCipher_kept {a : State} {y1 y2 y3} (h1 : Kept true a y3) :
    Res.kept true a (execJsubCipher y1 y2 y3) := by
  unfold execJsubCipher
  refine execOp_kept ?_ ?_
  · exact h1
  · intro q1 q2
    exact Ctx.submit_kept q2

theorem execJsubDigest_kept {a : State} {y1 y2 y3} (h1 : Kept true a y3) :
    Res.kept true a (execJsubDigest y1 y2 y3) := by
  unfold execJsubDigest
  refine execOp_kept ?_ ?_
  · exact h1
  · intro q1 q2
    exact Ctx.submit_kept q2

theorem execJsubCodec_kept {a : State} {y1 y2 y3} (h1 : Kept true a y3) :
    Res.kept true a (execJsubCodec y1 y2 y3) := by
  unfold execJsubCodec
  refine execOp_kept ?_ ?_
  · exact h1
  · intro q1 q2
    exact Ctx.submit_kept q2

theorem execJpoll_kept {a : State} {y1 y2 y3} (h1 : Kept true a y3) :
    Res.kept true a (execJpoll y1 y2 y3) := by
  unfold execJpoll
  refine execOp_kept ?_ ?_
  · exact h1
  · intro q1 q2
    split
    · refine Act.kept_ite ?_ ?_
      · refine Ctx.answer_kept ?_ ?_
        · exact q2
        · exact q2
      · refine Ctx.answer_kept ?_ ?_
        · exact q2
        · exact q2
    · refine Ctx.answer_kept ?_ ?_
      · exact q2
      · exact q2

theorem execHeldPostLands_kept {w : Bool} {a : State} {y1 y2} (h1 : Kept w a y2) :
    Res.kept w a (execHeldPostLands y1 y2) := by
  unfold execHeldPostLands
  refine onDie_kept ?_ ?_
  · exact h1
  · intro q1
    extract_lets -merge -useContext +onlyGivenNames -underBinder v2
    have k3 : Kept w a v2 := by
      refine Kept.foldl ?_ (fun p4 x4 h4 => ?_)
      · exact h1
      · exact State.landPost_kept h4
    refine Res.kept_next ?_
    refine Kept.foldl ?_ (fun p5 x5 h5 => ?_)
    · exact k3
    · exact State.startJobs_kept h5

/-! ### Cipher -/

theorem State.takeWaiting_kept {w : Bool} {a : State} {y1 y2 y3} (h1 : Kept w a y1) :
    Kept w a (State.takeWaiting y1 y2 y3) := by
  unfold State.takeWaiting
  refine Kept.foldl ?_ (fun p1 x1 h1 => ?_)
  · exact h1
  · split
    · refine Kept.ite ?_ ?_
      · extract_lets -merge -useContext +onlyGivenNames -underBinder v2
        have k3 : Kept w a v2.2 := State.cipherBegin_kept h1
        exact State.setJob_kept k3
      · exact h1
    · exact h1

theorem State.endCipher_kept {a : State} {y1 y2 y3 y4 y5 y6 y7} (h1 : Kept true a y1) :
    Kept true a (State.endCipher y1 y2 y3 y4 y5 y6 y7) := by
  unfold State.endCipher
  extract_lets -merge -useContext +onlyGivenNames -underBinder v1
  have k2 : Kept true a v1 := State.addObj_kept (State.bump_kept h1)
  extract_lets -merge -useContext +onlyGivenNames -underBinder v3
  have k4 : Kept true a v3 := State.addObj_kept k2
  extract_lets -merge -useContext +onlyGivenNames -underBinder v5
  have k6 : Kept true a v5 := by
    refine Kept.ite ?_ ?_
    · exact State.bump_kept k4
    · exact k4
  extract_lets -merge -useContext +onlyGivenNames -underBinder v7
  have k8 : Kept true a v7 := by
    refine Kept.ite ?_ ?_
    · exact State.raiseOnce_kept (State.bump_kept (State.bump_kept k6))
    · exact k6
  extract_lets -merge -useContext +onlyGivenNames -underBinder v9
  have k10 : Kept true a v9 := by
    refine Kept.ite ?_ ?_
    · exact k8
    · exact State.setObj_kept (State.setObj_kept (State.setObj_kept (State.setObj_kept k8)))
  extract_lets -merge -useContext +onlyGivenNames -underBinder v11
  have k12 : Kept true a v11 := by
    refine Kept.ite ?_ ?_
    · exact State.raiseOnce_kept k10
    · exact k10
  exact State.endJob_kept k12

theorem State.clearSlot_kept {a : State} {y1 y2 y3} (h1 : Kept true a y1) :
    Kept true a (State.clearSlot y1 y2 y3) := by
  unfold State.clearSlot
  extract_lets -merge -useContext +onlyGivenNames -underBinder v1 v2
  have k3 : Kept true a v2 := Kept.put h1
  extract_lets -merge -useContext +onlyGivenNames -underBinder v4
  refine State.dropSourced_kept ?_
  refine State.takeWaiting_kept ?_
  refine Kept.foldl ?_ (fun p5 x5 h5 => ?_)
  · exact k3
  · exact State.endCipher_kept h5

theorem State.clearKeySlots_kept {a : State} {y1 y2} (h1 : Kept true a y1) :
    Kept true a (State.clearKeySlots y1 y2) := by
  unfold State.clearKeySlots
  refine Kept.foldl ?_ (fun p1 x1 h1 => ?_)
  · exact h1
  · exact State.clearSlot_kept h1

theorem State.removeStored_kept {w : Bool} {a : State} {y1 y2} (h1 : Kept w a y1) :
    Kept w a (State.removeStored y1 y2) := by
  unfold State.removeStored
  exact State.reportStore_kept (Kept.put h1)

theorem State.endCodec_kept {a : State} {y1 y2 y3 y4 y5 y6 y7} (h1 : Kept true a y1) :
    Kept true a (State.endCodec y1 y2 y3 y4 y5 y6 y7) := by
  unfold State.endCodec
  extract_lets -merge -useContext +onlyGivenNames -underBinder v1
  have k2 : Kept true a v1 := State.bump_kept h1
  extract_lets -merge -useContext +onlyGivenNames -underBinder v3
  have k4 : Kept true a v3 := State.addObj_kept (State.addObj_kept k2)
  extract_lets -merge -useContext +onlyGivenNames -underBinder v5
  have k6 : Kept true a v5 := by
    refine Kept.ite ?_ ?_
    · exact State.raiseOnce_kept k4
    · exact k4
  exact State.endJob_kept k6

theorem State.runCodec_kept {a : State} {y1 y2 y3 y4 y5} (h1 : Kept true a y1) :
    Kept true a (State.runCodec y1 y2 y3 y4 y5) := by
  unfold State.runCodec
  extract_lets -merge -useContext +onlyGivenNames -underBinder v1 v2 v3 v4 v5
  refine Kept.ite ?_ ?_
  · exact State.endCodec_kept h1
  · refine Kept.ite ?_ ?_
    · exact State.endCodec_kept h1
    · refine Kept.ite ?_ ?_
      · exact State.endCodec_kept h1
      · split
        extract_lets -merge -useContext +onlyGivenNames -underBinder v6
        have k7 : Kept true a v6 := State.write_kept h1
        refine Kept.ite ?_ ?_
        · exact State.endCodec_kept k7
        · exact State.endCodec_kept (State.useFree_kept k7)

theorem execCodecJobComplete_kept {a : State} {y1 y2 y3 y4} (h1 : Kept true a y4) :
    Res.kept true a (execCodecJobComplete y1 y2 y3 y4) := by
  unfold execCodecJobComplete
  refine onDie_kept ?_ ?_
  · exact h1
  · intro q1
    split
    · exact Res.kept_next h1
    · refine Res.kept_ite ?_ ?_
      · exact Res.kept_next h1
      · refine Res.kept_ite ?_ ?_
        · exact Res.kept_next h1
        · refine Res.kept_ite ?_ ?_
          · exact Res.kept_next (State.endJob_kept h1)
          · refine Res.kept_ite ?_ ?_
            · exact Res.kept_next (State.endCodec_kept h1)
            · exact Res.kept_next (State.runCodec_kept h1)

theorem State.counterMarked_kept {w : Bool} {a : State} {y1 y2 y3 y4} (h1 : Kept w a y1) :
    Kept w a (State.counterMarked y1 y2 y3 y4) := by
  unfold State.counterMarked
  extract_lets -merge -useContext +onlyGivenNames -underBinder v1 v2 v3
  have k4 : Kept w a v3 := Kept.put h1
  extract_lets -merge -useContext +onlyGivenNames -underBinder v5
  have k6 : Kept w a v5 := State.takeWaiting_kept (State.bump_kept (State.setKeySlot_kept k4))
  refine Kept.ite ?_ ?_
  · exact State.lakeRelease_kept k6
  · exact k6

theorem execCounterBlockJournalled_kept {w : Bool} {a : State} {y1 y2 y3} (h1 : Kept w a y3) :
    Res.kept w a (execCounterBlockJournalled y1 y2 y3) := by
  unfold execCounterBlockJournalled
  refine onDie_kept ?_ ?_
  · exact h1
  · intro q1
    extract_lets -merge -useContext +onlyGivenNames -underBinder v2
    split
    · exact Res.kept_next h1
    · refine Res.kept_ite ?_ ?_
      · exact Res.kept_next h1
      · exact Res.kept_next (State.counterMarked_kept h1)

theorem execCipherUrgencyExpiry_kept {w : Bool} {a : State} {y1 y2 y3} (h1 : Kept w a y3) :
    Res.kept w a (execCipherUrgencyExpiry y1 y2 y3) := by
  unfold execCipherUrgencyExpiry
  refine onDie_kept ?_ ?_
  · exact h1
  · intro q1
    split
    · exact Res.kept_next h1
    · extract_lets -merge -useContext +onlyGivenNames -underBinder v2
      refine Res.kept_ite ?_ ?_
      · exact Res.kept_next (State.setJob_kept h1)
      · exact Res.kept_next h1

theorem State.preemptCipher_kept {w : Bool} {a : State} {y1 y2 y3 y4 y5 y6 y7 y8} (h1 : Kept w a y1) :
    Kept w a (State.preemptCipher y1 y2 y3 y4 y5 y6 y7 y8) := by
  unfold State.preemptCipher
  extract_lets -merge -useContext +onlyGivenNames -underBinder v1 v2
  have k3 : Kept w a v2 := State.setSd_kept (State.setJob_kept h1)
  extract_lets -merge -useContext +onlyGivenNames -underBinder v4
  have k5 : Kept w a v4 := State.bump_kept (State.highWater_kept (State.setObj_kept k3))
  exact State.beginJob_kept (State.raiseOnce_kept (State.bump_kept k5))

theorem execCipherPreemptAtBoundary_kept {w : Bool} {a : State} {y1 y2 y3} (h1 : Kept w a y3) :
    Res.kept w a (execCipherPreemptAtBoundary y1 y2 y3) := by
  unfold execCipherPreemptAtBoundary
  refine onDie_kept ?_ ?_
  · exact h1
  · intro q1
    extract_lets -merge -useContext +onlyGivenNames -underBinder v2 v3
    split
    · refine Res.kept_ite ?_ ?_
      · exact Res.kept_next h1
      · exact Res.kept_next (State.preemptCipher_kept h1)
    · exact Res.kept_next h1

theorem State.runCipher_kept {a : State} {y1 y2 y3 y4 y5 y6} (h1 : Kept true a y1) :
    Kept true a (State.runCipher y1 y2 y3 y4 y5 y6) := by
  unfold State.runCipher
  extract_lets -merge -useContext +onlyGivenNames -underBinder v1 v2 v3 v4 v5
  refine Kept.ite ?_ ?_
  · exact State.endCipher_kept h1
  · refine Kept.ite ?_ ?_
    · exact State.endCipher_kept h1
    · extract_lets -merge -useContext +onlyGivenNames -underBinder v6
      split
      exact State.endCipher_kept (State.write_kept h1)

theorem execCipherJobComplete_kept {a : State} {y1 y2 y3 y4} (h1 : Kept true a y4) :
    Res.kept true a (execCipherJobComplete y1 y2 y3 y4) := by
  unfold execCipherJobComplete
  refine onDie_kept ?_ ?_
  · exact h1
  · intro q1
    split
    · exact Res.kept_next h1
    · refine Res.kept_ite ?_ ?_
      · exact Res.kept_next h1
      · refine Res.kept_ite ?_ ?_
        · exact Res.kept_next (State.endJob_kept h1)
        · refine Res.kept_ite ?_ ?_
          · exact Res.kept_next h1
          · refine Res.kept_ite ?_ ?_
            · exact Res.kept_next (State.endCipher_kept h1)
            · exact Res.kept_next (State.runCipher_kept h1)

theorem State.aesCoreLost_kept {w : Bool} {a : State} {y1 y2 y3} (h1 : Kept w a y1) :
    Kept w a (State.aesCoreLost y1 y2 y3) := by
  unfold State.aesCoreLost
  extract_lets -merge -useContext +onlyGivenNames -underBinder v1 v2
  have k3 : Kept w a v2 := State.setObj_kept (State.setSd_kept h1)
  extract_lets -merge -useContext +onlyGivenNames -underBinder v4
  have k5 : Kept w a v4 := State.raise_kept k3
  extract_lets -merge -useContext +onlyGivenNames -underBinder v6
  have k7 : Kept w a v6 := by
    unfold v6
    split
    · exact State.setJob_kept k5
    · exact k5
  exact State.startJobs_kept k7

theorem execAesCoreTimeout_kept {w : Bool} {a : State} {y1 y2 y3} (h1 : Kept w a y3) :
    Res.kept w a (execAesCoreTimeout y1 y2 y3) := by
  unfold execAesCoreTimeout
  refine onDie_kept ?_ ?_
  · exact h1
  · intro q1
    refine Res.kept_ite ?_ ?_
    · exact Res.kept_fault
    · exact Res.kept_next (State.aesCoreLost_kept h1)

/-! ### Bands -/

theorem State.ringFell_kept {w : Bool} {a : State} {y1} (h1 : Kept w a y1) :
    Kept w a (State.ringFell y1) := by
  unfold State.ringFell
  extract_lets -merge -useContext +onlyGivenNames -underBinder v1
  exact Kept.put h1

theorem State.discardBand_kept {w : Bool} {a : State} {y1 y2 y3} (h1 : Kept w a y1) :
    Kept w a (State.discardBand y1 y2 y3) := by
  unfold State.discardBand
  split
  · exact h1
  · extract_lets -merge -useContext +onlyGivenNames -underBinder v1 v2 v3
    have k4 : Kept w a v3 := State.setPort_kept h1
    extract_lets -merge -useContext +onlyGivenNames -underBinder v5
    have k6 : Kept w a v5 := by
      refine Kept.foldl ?_ (fun p7 x7 h7 => ?_)
      · exact k4
      · exact State.pondPut_kept h7
    exact State.addObj_kept (State.ringFell_kept k6)

theorem State.countBand_kept {w : Bool} {a : State} {y1 y2 y3 y4 y5 y6 y7 y8 y9} (h1 : Kept w a y1) :
    Kept w a (State.countBand y1 y2 y3 y4 y5 y6 y7 y8 y9) := by
  unfold State.countBand
  extract_lets -merge -useContext +onlyGivenNames -underBinder v1
  have k2 : Kept w a v1 := State.bump_kept h1
  extract_lets -merge -useContext +onlyGivenNames -underBinder v3
  have k4 : Kept w a v3 := by
    refine Kept.ite ?_ ?_
    · exact State.raise_kept (State.bump_kept (State.bump_kept k2))
    · exact k2
  extract_lets -merge -useContext +onlyGivenNames -underBinder v5
  have k6 : Kept w a v5 := by
    refine Kept.ite ?_ ?_
    · exact State.raise_kept (State.bump_kept (State.bump_kept k4))
    · exact k4
  extract_lets -merge -useContext +onlyGivenNames -underBinder v7
  have k8 : Kept w a v7 := by
    refine Kept.ite ?_ ?_
    · exact State.setObj_kept (State.setObj_kept (State.setObj_kept (State.setObj_kept (State.setObj_kept k6))))
    · exact k6
  extract_lets -merge -useContext +onlyGivenNames -underBinder v9
  have k10 : Kept w a v9 := by
    refine Kept.ite ?_ ?_
    · exact State.raise_kept k8
    · exact k8
  extract_lets -merge -useContext +onlyGivenNames -underBinder v11
  have k12 : Kept w a v11 := State.addObj_kept k10
  refine Kept.ite ?_ ?_
  · exact k12
  · exact State.raiseOnce_kept (State.addObj_kept k12)

theorem State.windowFor_kept {w : Bool} {a : State} {y1 y2 y3 y4} (h1 : Kept w a y1) :
    Kept w a ((State.windowFor y1 y2 y3 y4).2) := by
  unfold State.windowFor
  refine Kept.ite2 ?_ ?_
  · exact h1
  · exact State.setCd_kept h1

theorem State.addMissing_kept {w : Bool} {a : State} {y1 y2 y3 y4} (h1 : Kept w a y1) :
    Kept w a (State.addMissing y1 y2 y3 y4) := by
  unfold State.addMissing
  extract_lets -merge -useContext +onlyGivenNames -underBinder v1
  refine Kept.foldl ?_ (fun p2 x2 h2 => ?_)
  · exact h1
  · extract_lets -merge -useContext +onlyGivenNames -underBinder v3 v4
    exact State.bump_kept (State.modFrame_kept (State.useFree_kept h2))

theorem State.issueSegment_kept {a : State} {y1 y2 y3 y4 y5 y6 y7 y8 y9 y10} (h1 : Kept true a y1) :
    Kept true a (State.issueSegment y1 y2 y3 y4 y5 y6 y7 y8 y9 y10) := by
  unfold State.issueSegment
  extract_lets -merge -useContext +onlyGivenNames -underBinder v1
  have k2 : Kept true a v1.1 := by
    refine Kept.foldl1 ?_ (fun p3 x3 h3 => ?_)
    · exact h1
    · extract_lets -merge -useContext +onlyGivenNames -underBinder v4
      have k5 : Kept true a v4.1 := State.allocateCoarse_kept (State.setUnit_kept h3)
      exact k5
  extract_lets -merge -useContext +onlyGivenNames -underBinder v6
  refine Kept.ite ?_ ?_
  · exact h1
  · exact State.issueOp_kept k2

theorem State.writeSegment_kept {a : State} {y1 y2 y3 y4 y5} (h1 : Kept true a y1) :
    Kept true a (State.writeSegment y1 y2 y3 y4 y5) := by
  unfold State.writeSegment
  split
  · exact h1
  · extract_lets mine bytes k moved put units old stale s0
    have kp : ∀ {s : State} {g : FrameSeg}, Kept true a s → Kept true a (put s g) := fun hs => State.modFrame_kept hs
    clear_value stale put units old moved k bytes mine
    have k0 : Kept true a s0 := by
      unfold s0
      split
      · exact State.modFrame_kept (State.freeUnitsOf_kept h1)
      · exact h1
    clear_value s0
    refine Kept.ite k0 ?_
    generalize (if moved = true then none else old) = o
    generalize s0.findUnits y2.nsid k = p
    cases o with
    | some g => exact Kept.ite (State.issueSegment_kept (kp (State.freeUnitsOf_kept k0))) (State.segmentDurable_kept (kp (State.freeUnitsOf_kept k0)))
    | none =>
      cases p with
      | none => exact State.closeLater_kept (State.dropFrame_kept k0)
      | some u => exact State.issueSegment_kept (kp k0)

theorem State.completeFrame_kept {a : State} {y1 y2 y3 y4} (h1 : Kept true a y1) :
    Kept true a (State.completeFrame y1 y2 y3 y4) := by
  unfold State.completeFrame
  split
  · refine Kept.ite ?_ ?_
    · exact h1
    · refine Kept.ite ?_ ?_
      · exact State.dropFrame_kept h1
      · extract_lets -merge -useContext +onlyGivenNames -underBinder v1
        have k2 : Kept true a v1 := State.updateTimecode_kept h1
        extract_lets -merge -useContext +onlyGivenNames -underBinder v3 v4 v5 v6
        have k7 : Kept true a v6 := State.modFrame_kept (State.addMissing_kept k2)
        extract_lets -merge -useContext +onlyGivenNames -underBinder v8
        have k9 : Kept true a v8 := State.setDeadlines_kept k7
        refine Kept.foldl ?_ (fun p10 x10 h10 => ?_)
        · exact k9
        · exact State.writeSegment_kept h10
  · exact h1

theorem State.checkFrame_kept {a : State} {y1 y2 y3} (h1 : Kept true a y1) :
    Kept true a (State.checkFrame y1 y2 y3) := by
  unfold State.checkFrame
  split
  · exact h1
  · split
    · exact h1
    · refine Kept.ite ?_ ?_
      · exact State.completeFrame_kept h1
      · exact h1

theorem State.drainFrame_kept {a : State} {y1 y2 y3 y4} (h1 : Kept true a y1) :
    Kept true a (State.drainFrame y1 y2 y3 y4) := by
  unfold State.drainFrame
  split
  · exact h1
  · split
    · exact h1
    · extract_lets -merge -useContext +onlyGivenNames -underBinder v1
      refine Kept.ite ?_ ?_
      · exact h1
      · extract_lets -merge -useContext +onlyGivenNames -underBinder v2
        have k3 : (∀ z0 z1, Kept true a z0 → Kept true a (v2 z0 z1)) := by
          intro q4 q5 q6
          exact State.modFrame_kept q6
        split
        · exact State.issueSegment_kept (k3 _ _ h1)
        · extract_lets -merge -useContext +onlyGivenNames -underBinder v7
          split
          · exact h1
          · extract_lets -merge -useContext +onlyGivenNames -underBinder v8
            have k9 : Kept true a v8 := by
              refine Kept.foldl ?_ (fun p10 x10 h10 => ?_)
              · exact h1
              · exact State.setUnit_kept h10
            exact State.issueSegment_kept (k3 _ _ k9)

theorem State.completeBand_kept {a : State} {y1 y2 y3 y4} (h1 : Kept true a y1) :
    Kept true a (State.completeBand y1 y2 y3 y4) := by
  unfold State.completeBand
  split
  · exact State.discardBand_kept h1
  · split
    · exact State.discardBand_kept h1
    · refine Kept.ite ?_ ?_
      · exact State.discardBand_kept h1
      · extract_lets -merge -useContext +onlyGivenNames -underBinder v1 v2 v3 v4 v5
        split
        extract_lets -merge -useContext +onlyGivenNames -underBinder v6 v7 v8
        have k9 : Kept true a v8 := by
          unfold v8
          split
          · exact State.setPort_kept h1
          · exact h1
        extract_lets -merge -useContext +onlyGivenNames -underBinder v10
        have k11 : Kept true a v10 := State.digestRun_kept (State.countBand_kept k9)
        extract_lets -merge -useContext +onlyGivenNames -underBinder v12
        have k13 : Kept true a v12 := State.modFrame_kept k11
        split
        rename_i i14 i15 i16 i17
        extract_lets -merge -useContext +onlyGivenNames -underBinder v18
        exact State.checkFrame_kept (State.drainFrame_kept (State.filterBand_kept (Kept.eq2 i17 (State.windowFor_kept k13))))

theorem State.completeAll_kept {a : State} {y1 y2} (h1 : Kept true a y1) :
    Kept true a (State.completeAll y1 y2) := by
  unfold State.completeAll
  split
  · exact h1
  · refine Kept.foldl ?_ (fun p1 x1 h1 => ?_)
    · exact h1
    · exact State.completeBand_kept h1

theorem State.takeBack_kept {w : Bool} {a : State} {y1 y2 y3} (h1 : Kept w a y1) :
    Kept w a (State.takeBack y1 y2 y3) := by
  unfold State.takeBack
  refine Kept.foldl ?_ (fun p1 x1 h1 => ?_)
  · exact h1
  · refine Kept.ite ?_ ?_
    · exact h1
    · exact State.reclaimFrame_kept (State.missEverywhere_kept (State.countReclaimed_kept h1))

theorem State.intoRing_kept {w : Bool} {a : State} {y1 y2 y3} (h1 : Kept w a y1) :
    Kept w a ((State.intoRing y1 y2 y3).2) := by
  unfold State.intoRing
  extract_lets -merge -useContext +onlyGivenNames -underBinder v1
  have k2 : Kept w a v1 := by
    refine Kept.ite ?_ ?_
    · exact h1
    · exact State.takeBack_kept h1
  refine Kept.ite2 ?_ ?_
  · exact k2
  · refine Kept.ite2 ?_ ?_
    · exact k2
    · exact State.raise_kept (State.bump_kept k2)

theorem State.startFrame_kept {a : State} {y1 y2 y3} (h1 : Kept true a y1) :
    Kept true a (State.startFrame y1 y2 y3) := by
  unfold State.startFrame
  extract_lets -merge -useContext +onlyGivenNames -underBinder v1
  have k2 : Kept true a v1 := State.modTake_kept h1
  split
  · exact State.startFilters_kept k2
  · exact k2

theorem State.landChunks_kept {a : State} {y1 y2 y3 y4 y5} (h1 : Kept true a y1) :
    Kept true a (State.landChunks y1 y2 y3 y4 y5) := by
  unfold State.landChunks
  split
  · split
    · exact h1
    · extract_lets -merge -useContext +onlyGivenNames -underBinder v1
      refine Kept.ite ?_ ?_
      · exact h1
      · extract_lets -merge -useContext +onlyGivenNames -underBinder v2
        split
        rename_i i3 i4 i5 i6
        exact State.filterBand_kept (State.setPort_kept (Kept.eq2 i6 (State.windowFor_kept h1)))
  · exact h1

theorem State.noteRing_kept {w : Bool} {a : State} {y1 y2} (h1 : Kept w a y1) :
    Kept w a (State.noteRing y1 y2) := by
  unfold State.noteRing
  extract_lets -merge -useContext +onlyGivenNames -underBinder v1 v2
  have k3 : Kept w a v2 := State.highWater_kept h1
  extract_lets -merge -useContext +onlyGivenNames -underBinder v4
  refine Kept.ite ?_ ?_
  · exact State.raise_kept (Kept.put k3)
  · exact k3

theorem State.enterLate_kept {w : Bool} {a : State} {y1 y2 y3} (h1 : Kept w a y1) :
    Kept w a (State.enterLate y1 y2 y3) := by
  unfold State.enterLate
  extract_lets -merge -useContext +onlyGivenNames -underBinder v1
  exact Kept.put h1

theorem State.drainPort_kept {w : Bool} {a : State} {y1 y2 y3} (h1 : Kept w a y1) :
    Kept w a (State.drainPort y1 y2 y3) := by
  induction y3 generalizing y1 y2 with
  | zero =>
    unfold State.drainPort
    exact h1
  | succ n ih =>
    unfold State.drainPort
    split
    · exact h1
    · split
      · exact h1
      · refine Kept.ite ?_ ?_
        · exact h1
        · extract_lets -merge -useContext +onlyGivenNames -underBinder v3
          have k4 : Kept w a v3 := State.noteRing_kept (State.enterLate_kept (State.setPort_kept h1))
          exact ih (State.pondPut_kept k4)

theorem execBandEndTimeout_kept {a : State} {y1 y2 y3 y4 y5 y6} (h1 : Kept true a y6) :
    Res.kept true a (execBandEndTimeout y1 y2 y3 y4 y5 y6) := by
  unfold execBandEndTimeout
  refine onLane_kept ?_ ?_
  · exact h1
  · intro q1
    split
    · exact Res.kept_next h1
    · refine Res.kept_ite ?_ ?_
      · exact Res.kept_next h1
      · exact Res.kept_next (State.completeBand_kept h1)

theorem State.closeFrame_kept {a : State} {y1 y2 y3 y4} (h1 : Kept true a y1) :
    Kept true a (State.closeFrame y1 y2 y3 y4) := by
  unfold State.closeFrame
  extract_lets -merge -useContext +onlyGivenNames -underBinder v1
  have k2 : Kept true a v1 := by
    refine Kept.foldl ?_ (fun p3 x3 h3 => ?_)
    · exact h1
    · refine Kept.foldl ?_ (fun p4 x4 h4 => ?_)
      · exact h3
      · exact State.completeBand_kept h4
  exact State.completeFrame_kept k2

theorem execFrameCompletionTimeout_kept {a : State} {y1 y2 y3} (h1 : Kept true a y3) :
    Res.kept true a (execFrameCompletionTimeout y1 y2 y3) := by
  unfold execFrameCompletionTimeout
  split
  · exact Res.kept_next h1
  · refine Res.kept_ite ?_ ?_
    · exact Res.kept_next h1
    · refine Res.kept_ite ?_ ?_
      · exact Res.kept_next h1
      · exact Res.kept_next (State.closeFrame_kept h1)

end Sys2Proof.Machine
end

