-- ==== Sys2Proof/Laws/KeptHost.lean ====
section
/-!
SUPPORT. What each operation and row leaves alone (`Kept`): the host interface, the digest engine and the programs. One lemma for each, composed from those of the operations it calls.
-/

set_option Elab.async false

namespace Sys2Proof.Machine

/-! ### Host -/

theorem State.holdDown_kept {w : Bool} {a : State} {y1 y2} (h1 : Kept w a y1) :
    Kept w a (State.holdDown y1 y2) := by
  unfold State.holdDown
  exact Kept.put h1

theorem State.forgetWork_kept {a : State} {y1 y2 y3} (h1 : Kept true a y1) :
    Kept true a (State.forgetWork y1 y2 y3) := by
  unfold State.forgetWork
  extract_lets -merge -useContext +onlyGivenNames -underBinder v1 v2 v3 v4 v5 v6
  refine Kept.foldl ?_ (fun p7 x7 h7 => ?_)
  · exact Kept.put h1
  · refine Kept.foldl ?_ (fun p8 x8 h8 => ?_)
    · exact h7
    · exact State.stopTask_kept h8

theorem State.purge_kept {a : State} {y1 y2 y3 y4} (h1 : Kept true a y1) :
    Kept true a (State.purge y1 y2 y3 y4) := by
  unfold State.purge
  exact State.forgetWork_kept h1

theorem State.resetCtrl_kept {a : State} {y1 y2} (h1 : Kept true a y1) :
    Kept true a (State.resetCtrl y1 y2) := by
  unfold State.resetCtrl
  split
  · exact h1
  · extract_lets -merge -useContext +onlyGivenNames -underBinder v1
    have k2 : Kept true a v1 := State.modCtrl_kept h1
    extract_lets -merge -useContext +onlyGivenNames -underBinder v3
    have k4 : Kept true a v3 := State.modCtrl_kept (State.purge_kept k2)
    extract_lets -merge -useContext +onlyGivenNames -underBinder v5
    have k6 : Kept true a v5 := State.walkWhere_kept k4
    exact State.retryStalled_kept (State.settleFlushes_kept (State.raise_kept (State.bump_kept (State.endSession_kept k6))))

theorem State.hostPortDown_kept {a : State} {y1 y2} (h1 : Kept true a y1) :
    Kept true a (State.hostPortDown y1 y2) := by
  unfold State.hostPortDown
  refine Kept.ite ?_ ?_
  · exact h1
  · extract_lets -merge -useContext +onlyGivenNames -underBinder v1
    have k2 : Kept true a v1 := by
      refine Kept.foldl ?_ (fun p3 x3 h3 => ?_)
      · exact h1
      · exact State.countReset_kept (State.resetCtrl_kept h3)
    extract_lets -merge -useContext +onlyGivenNames -underBinder v4 v5
    have k6 : Kept true a v5 := Kept.put k2
    exact State.allQuiet_kept (State.raise_kept (State.bump_kept (State.setObj_kept k6)))

theorem State.formPf_kept {w : Bool} {a : State} {y1 y2} (h1 : Kept w a y1) :
    Kept w a (State.formPf y1 y2) := by
  unfold State.formPf
  refine Kept.ite ?_ ?_
  · exact h1
  · exact Kept.put h1

theorem State.applyVqs_kept {a : State} {y1} (h1 : Kept true a y1) :
    Kept true a (State.applyVqs y1) := by
  unfold State.applyVqs
  refine Kept.foldl ?_ (fun p1 x1 h1 => ?_)
  · exact h1
  · split
    · refine Kept.ite ?_ ?_
      · exact h1
      · extract_lets -merge -useContext +onlyGivenNames -underBinder v2
        have k3 : Kept true a v2 := State.modCtrl_kept h1
        extract_lets -merge -useContext +onlyGivenNames -underBinder v4
        have k5 : Kept true a v4 := by
          refine Kept.ite ?_ ?_
          · exact State.modCtrl_kept k3
          · refine Kept.ite ?_ ?_
            · exact State.modCtrl_kept (State.resetCtrl_kept k3)
            · exact State.modCtrl_kept k3
        extract_lets -merge -useContext +onlyGivenNames -underBinder v6
        have k7 : Kept true a v6 := State.setObj_kept k5
        refine Kept.ite ?_ ?_
        · exact State.succeed_kept k7
        · exact k7
    · exact h1

theorem State.linkComesUp_kept {w : Bool} {a : State} {y1 y2 y3 y4} (h1 : Kept w a y1) :
    Kept w a (State.linkComesUp y1 y2 y3 y4) := by
  unfold State.linkComesUp
  extract_lets -merge -useContext +onlyGivenNames -underBinder v1 v2
  have k3 : Kept w a v2 := State.setObj_kept (State.formPf_kept h1)
  extract_lets -merge -useContext +onlyGivenNames -underBinder v4
  have k5 : Kept w a v4 := State.setObj_kept (State.setObj_kept k3)
  extract_lets -merge -useContext +onlyGivenNames -underBinder v6 v7
  have k8 : Kept w a v7 := Kept.put k5
  extract_lets -merge -useContext +onlyGivenNames -underBinder v9
  have k10 : Kept w a v9 := State.raise_kept (State.bump_kept k8)
  refine Kept.ite ?_ ?_
  · exact State.raise_kept (State.bump_kept k10)
  · exact k10

theorem execLinkUp_kept {w : Bool} {a : State} {y1 y2 y3 y4} (h1 : Kept w a y4) :
    Res.kept w a (execLinkUp y1 y2 y3 y4) := by
  unfold execLinkUp
  refine onDie_kept ?_ ?_
  · exact h1
  · intro q1
    refine Res.kept_ite ?_ ?_
    · exact Res.kept_next h1
    · refine Res.kept_ite ?_ ?_
      · exact Res.kept_next h1
      · exact Res.kept_next (State.linkComesUp_kept h1)

theorem execLinkDown_kept {a : State} {y1 y2} (h1 : Kept true a y2) :
    Res.kept true a (execLinkDown y1 y2) := by
  unfold execLinkDown
  refine onDie_kept ?_ ?_
  · exact h1
  · intro q1
    refine Res.kept_ite ?_ ?_
    · exact Res.kept_next (State.hostPortDown_kept h1)
    · exact Res.kept_next h1

theorem State.modPci_kept {w : Bool} {a : State} {y1 y2 y3} (h1 : Kept w a y1) :
    Kept w a (State.modPci y1 y2 y3) := by
  unfold State.modPci
  exact Kept.put h1

theorem State.dmaLost_kept {a : State} {y1 y2 y3} (h1 : Kept true a y1) :
    Kept true a (State.dmaLost y1 y2 y3) := by
  unfold State.dmaLost
  extract_lets -merge -useContext +onlyGivenNames -underBinder v1 v2
  have k3 : Kept true a v2 := by
    refine Kept.ite ?_ ?_
    · exact State.modPci_kept h1
    · exact h1
  extract_lets -merge -useContext +onlyGivenNames -underBinder v4
  have k5 : Kept true a v4 := State.confine_kept (State.finish_kept (State.forgetWork_kept k3))
  refine Kept.ite ?_ ?_
  · exact State.raise_kept (State.bump_kept k5)
  · exact k5

theorem execCompletionTimeout_kept {a : State} {y1 y2 y3} (h1 : Kept true a y3) :
    Res.kept true a (execCompletionTimeout y1 y2 y3) := by
  unfold execCompletionTimeout
  refine onCmd_kept ?_ ?_
  · exact h1
  · intro q1
    exact Res.kept_next (State.dmaLost_kept h1)

theorem execSqTailDoorbell_kept {w : Bool} {a : State} {y1 y2 y3 y4} (h1 : Kept w a y4) :
    Res.kept w a (execSqTailDoorbell y1 y2 y3 y4) := by
  unfold execSqTailDoorbell
  split
  · exact Res.kept_fault
  · refine Res.kept_ite ?_ ?_
    · exact Res.kept_next h1
    · split
      · exact Res.kept_next (State.asyncEvent_kept h1)
      · refine Res.kept_ite ?_ ?_
        · exact Res.kept_next (State.modSq_kept h1)
        · exact Res.kept_next (State.asyncEvent_kept h1)

theorem State.endDeletes_kept {a : State} {y1 y2} (h1 : Kept true a y1) :
    Kept true a (State.endDeletes y1 y2) := by
  unfold State.endDeletes
  split
  · exact h1
  · extract_lets -merge -useContext +onlyGivenNames -underBinder v1 v2 v3
    have k4 : Kept true a v3 := State.modCtrl_kept h1
    refine Kept.foldl ?_ (fun p5 x5 h5 => ?_)
    · exact k4
    · exact State.succeed_kept h5

theorem State.postWaiting_kept {w : Bool} {a : State} {y1 y2 y3} (h1 : Kept w a y1) :
    Kept w a (State.postWaiting y1 y2 y3) := by
  unfold State.postWaiting
  split
  · exact h1
  · extract_lets -merge -useContext +onlyGivenNames -underBinder v1
    have k2 : Kept w a v1 := State.modCtrl_kept h1
    refine Kept.foldl ?_ (fun p3 x3 h3 => ?_)
    · exact k2
    · exact State.postCqe_kept h3

theorem execCqHeadDoorbell_kept {a : State} {y1 y2 y3 y4} (h1 : Kept true a y4) :
    Res.kept true a (execCqHeadDoorbell y1 y2 y3 y4) := by
  unfold execCqHeadDoorbell
  split
  · exact Res.kept_fault
  · refine Res.kept_ite ?_ ?_
    · exact Res.kept_next h1
    · split
      · exact Res.kept_next (State.asyncEvent_kept h1)
      · refine Res.kept_ite ?_ ?_
        · exact Res.kept_next (State.endDeletes_kept (State.postWaiting_kept (State.modCtrl_kept h1)))
        · exact Res.kept_next (State.asyncEvent_kept h1)

theorem State.adoptWeights_kept {w : Bool} {a : State} {y1 y2} (h1 : Kept w a y1) :
    Kept w a (State.adoptWeights y1 y2) := by
  unfold State.adoptWeights
  refine Kept.foldl ?_ (fun p1 x1 h1 => ?_)
  · exact h1
  · refine Kept.ite ?_ ?_
    · exact State.modFn_kept h1
    · exact h1

theorem State.countPassed_kept {w : Bool} {a : State} {y1 y2} (h1 : Kept w a y1) :
    Kept w a (State.countPassed y1 y2) := by
  unfold State.countPassed
  refine Kept.foldl ?_ (fun p1 x1 h1 => ?_)
  · exact h1
  · refine Kept.ite ?_ ?_
    · exact h1
    · extract_lets -merge -useContext +onlyGivenNames -underBinder v2
      have k3 : Kept w a v2 := by
        refine Kept.ite ?_ ?_
        · exact State.bump_kept h1
        · exact h1
      refine Kept.ite ?_ ?_
      · exact State.bump_kept k3
      · exact k3

theorem State.fetchFrom_kept {w : Bool} {a : State} {y1 y2 y3 y4 y5 y6 y7 y8 y9 y10 y11} (h1 : Kept w a y1) :
    Kept w a (State.fetchFrom y1 y2 y3 y4 y5 y6 y7 y8 y9 y10 y11) := by
  unfold State.fetchFrom
  extract_lets -merge -useContext +onlyGivenNames -underBinder v1 v2 v3
  have k4 : Kept w a v3 := by
    refine Kept.ite ?_ ?_
    · exact State.adoptWeights_kept (State.countPassed_kept h1)
    · exact h1
  extract_lets -merge -useContext +onlyGivenNames -underBinder v5 v6
  have k7 : Kept w a v6 := Kept.put k4
  extract_lets -merge -useContext +onlyGivenNames -underBinder v8 v9 v10 v11 v12 v13
  have k14 : Kept w a v13 := Kept.put k7
  extract_lets -merge -useContext +onlyGivenNames -underBinder v15
  have k16 : Kept w a v15 := State.modCtrl_kept (State.highWater_kept k14)
  extract_lets -merge -useContext +onlyGivenNames -underBinder v17 v18 v19 v20
  have k21 : Kept w a v20 := State.bump_kept (Kept.put k16)
  extract_lets -merge -useContext +onlyGivenNames -underBinder v22
  have k23 : Kept w a v22 := by
    refine Kept.ite ?_ ?_
    · exact k21
    · exact State.noteBusy_kept k21
  refine Kept.ite ?_ ?_
  · exact State.bump_kept k23
  · exact k23

theorem execCommandFetch_kept {w : Bool} {a : State} {y1 y2 y3 y4 y5} (h1 : Kept w a y5) :
    Res.kept w a (execCommandFetch y1 y2 y3 y4 y5) := by
  unfold execCommandFetch
  refine onDie_kept ?_ ?_
  · exact h1
  · intro q1
    split
    · exact Res.kept_next h1
    · exact Res.kept_next (State.fetchFrom_kept h1)

theorem State.makeSq_kept {a : State} {y1 y2 y3 y4 y5 y6 y7 y8} (h1 : Kept true a y1) :
    Kept true a (State.makeSq y1 y2 y3 y4 y5 y6 y7 y8) := by
  unfold State.makeSq
  split
  · exact h1
  · extract_lets -merge -useContext +onlyGivenNames -underBinder v1
    refine Kept.ite ?_ ?_
    · exact State.failCmd_kept h1
    · refine Kept.ite ?_ ?_
      · exact State.failCmd_kept h1
      · refine Kept.ite ?_ ?_
        · exact State.failCmd_kept h1
        · refine Kept.ite ?_ ?_
          · exact State.failCmd_kept h1
          · extract_lets -merge -useContext +onlyGivenNames -underBinder v2
            exact State.succeed_kept (State.modCtrl_kept h1)

theorem execCreateIoSq_kept {a : State} {y1 y2 y3 y4 y5 y6 y7} (h1 : Kept true a y7) :
    Res.kept true a (execCreateIoSq y1 y2 y3 y4 y5 y6 y7) := by
  unfold execCreateIoSq
  refine startCmd_kept ?_ ?_
  · exact h1
  · intro q1
    exact Res.kept_next (State.makeSq_kept h1)

theorem execCreateIoCq_kept {a : State} {y1 y2 y3 y4 y5 y6 y7} (h1 : Kept true a y7) :
    Res.kept true a (execCreateIoCq y1 y2 y3 y4 y5 y6 y7) := by
  unfold execCreateIoCq
  refine startCmd_kept ?_ ?_
  · exact h1
  · intro q1
    split
    · exact Res.kept_fault
    · refine Res.kept_ite ?_ ?_
      · exact Res.kept_next (State.failCmd_kept h1)
      · refine Res.kept_ite ?_ ?_
        · exact Res.kept_next (State.failCmd_kept h1)
        · refine Res.kept_ite ?_ ?_
          · exact Res.kept_next (State.failCmd_kept h1)
          · extract_lets -merge -useContext +onlyGivenNames -underBinder v2
            exact Res.kept_next (State.succeed_kept (State.modCtrl_kept h1))

theorem State.abortWaiting_kept {w : Bool} {a : State} {y1 y2 y3 y4} (h1 : Kept w a y1) :
    Kept w a (State.abortWaiting y1 y2 y3 y4) := by
  induction y4 generalizing y1 y2 y3 with
  | zero =>
    unfold State.abortWaiting
    exact h1
  | succ n ih =>
    unfold State.abortWaiting
    exact ih (State.postCqe_kept (State.useFree_kept h1))

theorem State.deleteSq_kept {a : State} {y1 y2 y3 y4 y5} (h1 : Kept true a y1) :
    Kept true a (State.deleteSq y1 y2 y3 y4 y5) := by
  unfold State.deleteSq
  extract_lets -merge -useContext +onlyGivenNames -underBinder v1 v2 v3
  have k4 : Kept true a v3 := State.modCtrl_kept h1
  extract_lets -merge -useContext +onlyGivenNames -underBinder v5
  have k6 : Kept true a v5 := State.abortWaiting_kept (State.purge_kept k4)
  extract_lets -merge -useContext +onlyGivenNames -underBinder v7
  have k8 : Kept true a v7 := by
    refine Kept.foldl ?_ (fun p9 x9 h9 => ?_)
    · exact k6
    · exact State.postCqe_kept h9
  extract_lets -merge -useContext +onlyGivenNames -underBinder v10
  have k11 : Kept true a v10 := State.modSq_kept (State.addObj_kept k8)
  extract_lets -merge -useContext +onlyGivenNames -underBinder v12
  have k13 : Kept true a v12 := by
    refine Kept.ite ?_ ?_
    · exact k11
    · exact State.raise_kept (State.bump_kept k11)
  exact State.endDeletes_kept (State.modCtrl_kept (State.countReset_kept k13))

theorem execDeleteIoSq_kept {a : State} {y1 y2 y3} (h1 : Kept true a y3) :
    Res.kept true a (execDeleteIoSq y1 y2 y3) := by
  unfold execDeleteIoSq
  refine startCmd_kept ?_ ?_
  · exact h1
  · intro q1
    split
    · exact Res.kept_next (State.failCmd_kept h1)
    · refine Res.kept_ite ?_ ?_
      · exact Res.kept_next (State.failCmd_kept h1)
      · exact Res.kept_next (State.deleteSq_kept h1)

theorem execDeleteIoCq_kept {a : State} {y1 y2 y3} (h1 : Kept true a y3) :
    Res.kept true a (execDeleteIoCq y1 y2 y3) := by
  unfold execDeleteIoCq
  refine startCmd_kept ?_ ?_
  · exact h1
  · intro q1
    split
    · exact Res.kept_fault
    · refine Res.kept_ite ?_ ?_
      · exact Res.kept_next (State.failCmd_kept h1)
      · refine Res.kept_ite ?_ ?_
        · exact Res.kept_next (State.failCmd_kept h1)
        · exact Res.kept_next (State.succeed_kept (State.modCtrl_kept h1))

theorem execAbortCommand_kept {a : State} {y1 y2 y3 y4} (h1 : Kept true a y4) :
    Res.kept true a (execAbortCommand y1 y2 y3 y4) := by
  unfold execAbortCommand
  refine startCmd_kept ?_ ?_
  · exact h1
  · intro q1
    exact Res.kept_next (State.succeed_kept (State.bump_kept h1))

theorem execSetFeatures_kept {a : State} {y1 y2 y3 y4} (h1 : Kept true a y4) :
    Res.kept true a (execSetFeatures y1 y2 y3 y4) := by
  unfold execSetFeatures
  refine startCmd_kept ?_ ?_
  · exact h1
  · intro q1
    refine Res.kept_ite ?_ ?_
    · exact Res.kept_next (State.failCmd_kept h1)
    · refine Res.kept_ite ?_ ?_
      · extract_lets -merge -useContext +onlyGivenNames -underBinder v2 v3
        exact Res.kept_next (State.succeed_kept (State.modCtrl_kept h1))
      · extract_lets -merge -useContext +onlyGivenNames -underBinder v4
        exact Res.kept_next (State.succeed_kept (State.modCtrl_kept h1))

theorem execGetFeatures_kept {a : State} {y1 y2 y3 y4} (h1 : Kept true a y4) :
    Res.kept true a (execGetFeatures y1 y2 y3 y4) := by
  unfold execGetFeatures
  refine startCmd_kept ?_ ?_
  · exact h1
  · intro q1
    extract_lets -merge -useContext +onlyGivenNames -underBinder v2 v3
    refine Res.kept_ite ?_ ?_
    · exact Res.kept_next (State.failCmd_kept h1)
    · extract_lets -merge -useContext +onlyGivenNames -underBinder v4 v5
      exact Res.kept_next (State.succeed_kept h1)

theorem execAsyncEventRequest_kept {a : State} {y1 y2} (h1 : Kept true a y2) :
    Res.kept true a (execAsyncEventRequest y1 y2) := by
  unfold execAsyncEventRequest
  refine startCmd_kept ?_ ?_
  · exact h1
  · intro q1
    split
    · exact Res.kept_fault
    · split
      · exact Res.kept_next (State.succeed_kept (State.modCtrl_kept h1))
      · refine Res.kept_ite ?_ ?_
        · exact Res.kept_next (State.failCmd_kept h1)
        · exact Res.kept_next (State.started_kept (State.modCtrl_kept h1))

theorem State.notice_kept {w : Bool} {a : State} {y1 y2 y3 y4 y5} (h1 : Kept w a y1) :
    Kept w a (State.notice y1 y2 y3 y4 y5) := by
  unfold State.notice
  split
  · refine Kept.ite ?_ ?_
    · exact State.asyncEvent_kept h1
    · exact h1
  · exact h1

theorem State.nsNotice_kept {w : Bool} {a : State} {y1 y2 y3} (h1 : Kept w a y1) :
    Kept w a (State.nsNotice y1 y2 y3) := by
  unfold State.nsNotice
  extract_lets -merge -useContext +onlyGivenNames -underBinder v1
  have k2 : Kept w a v1 := State.modCtrl_kept h1
  exact State.notice_kept k2

theorem execFirmwareImageDownload_kept {a : State} {y1 y2 y3 y4} (h1 : Kept true a y4) :
    Res.kept true a (execFirmwareImageDownload y1 y2 y3 y4) := by
  unfold execFirmwareImageDownload
  refine startCmd_kept ?_ ?_
  · exact h1
  · intro q1
    refine Res.kept_ite ?_ ?_
    · exact Res.kept_next (State.failCmd_kept h1)
    · refine Res.kept_ite ?_ ?_
      · exact Res.kept_next (State.failCmd_kept h1)
      · exact Res.kept_next (State.succeed_kept (Kept.put h1))

theorem State.refuseFw_kept {a : State} {y1 y2 y3} (h1 : Kept true a y1) :
    Kept true a (State.refuseFw y1 y2 y3) := by
  unfold State.refuseFw
  exact State.raise_kept (State.bump_kept (State.failCmd_kept h1))

theorem State.replaceFw_kept {a : State} {y1 y2 y3 y4} (h1 : Kept true a y1) (h2 : (∀ z0, Kept true a z0 → Kept true a (y4 z0))) :
    Kept true a (State.replaceFw y1 y2 y3 y4) := by
  unfold State.replaceFw
  refine Kept.ite ?_ ?_
  · exact State.failCmd_kept h1
  · refine Kept.ite ?_ ?_
    · exact State.refuseFw_kept h1
    · split
      · exact State.refuseFw_kept h1
      · refine Kept.ite ?_ ?_
        · exact State.refuseFw_kept h1
        · extract_lets -merge -useContext +onlyGivenNames -underBinder v1
          exact h2 _ (Kept.put h1)

theorem execFwCommitReplace_kept {a : State} {y1 y2 y3} (h1 : Kept true a y3) :
    Res.kept true a (execFwCommitReplace y1 y2 y3) := by
  unfold execFwCommitReplace
  refine startCmd_kept ?_ ?_
  · exact h1
  · intro q1
    refine Res.kept_next ?_
    refine State.replaceFw_kept ?_ ?_
    · exact h1
    · intro q2 q3
      exact State.succeed_kept q3

theorem execFwCommitReplaceActivateReset_kept {a : State} {y1 y2 y3} (h1 : Kept true a y3) :
    Res.kept true a (execFwCommitReplaceActivateReset y1 y2 y3) := by
  unfold execFwCommitReplaceActivateReset
  refine startCmd_kept ?_ ?_
  · exact h1
  · intro q1
    refine Res.kept_next ?_
    refine State.replaceFw_kept ?_ ?_
    · exact h1
    · intro q2 q3
      exact State.succeed_kept (State.setObj_kept q3)

theorem execFwCommitActivateReset_kept {a : State} {y1 y2 y3} (h1 : Kept true a y3) :
    Res.kept true a (execFwCommitActivateReset y1 y2 y3) := by
  unfold execFwCommitActivateReset
  refine startCmd_kept ?_ ?_
  · exact h1
  · intro q1
    refine Res.kept_ite ?_ ?_
    · exact Res.kept_next (State.failCmd_kept h1)
    · refine Res.kept_ite ?_ ?_
      · exact Res.kept_next (State.refuseFw_kept h1)
      · refine Res.kept_ite ?_ ?_
        · exact Res.kept_next (State.refuseFw_kept h1)
        · refine Res.kept_ite ?_ ?_
          · exact Res.kept_next (State.refuseFw_kept h1)
          · exact Res.kept_next (State.succeed_kept (State.setObj_kept h1))

theorem State.holdVq_kept {a : State} {y1 y2 y3 y4} (h1 : Kept true a y1) :
    Kept true a (State.holdVq y1 y2 y3 y4) := by
  unfold State.holdVq
  exact State.started_kept (State.modCtrl_kept h1)

theorem execVqResourceAssign_kept {a : State} {y1 y2 y3 y4} (h1 : Kept true a y4) :
    Res.kept true a (execVqResourceAssign y1 y2 y3 y4) := by
  unfold execVqResourceAssign
  refine startCmd_kept ?_ ?_
  · exact h1
  · intro q1
    refine Res.kept_ite ?_ ?_
    · exact Res.kept_next (State.failCmd_kept h1)
    · refine Res.kept_ite ?_ ?_
      · exact Res.kept_next (State.failCmd_kept h1)
      · split
        · exact Res.kept_next (State.failCmd_kept h1)
        · refine Res.kept_ite ?_ ?_
          · exact Res.kept_next (State.failCmd_kept h1)
          · refine Res.kept_ite ?_ ?_
            · exact Res.kept_next (State.failCmd_kept h1)
            · exact Res.kept_next (State.holdVq_kept h1)

theorem execSecondaryOnline_kept {a : State} {y1 y2 y3} (h1 : Kept true a y3) :
    Res.kept true a (execSecondaryOnline y1 y2 y3) := by
  unfold execSecondaryOnline
  refine startCmd_kept ?_ ?_
  · exact h1
  · intro q1
    refine Res.kept_ite ?_ ?_
    · exact Res.kept_next (State.failCmd_kept h1)
    · refine Res.kept_ite ?_ ?_
      · exact Res.kept_next (State.failCmd_kept h1)
      · refine Res.kept_ite ?_ ?_
        · exact Res.kept_next (State.failCmd_kept h1)
        · exact Res.kept_next (State.holdVq_kept h1)

theorem execSecondaryOffline_kept {a : State} {y1 y2 y3} (h1 : Kept true a y3) :
    Res.kept true a (execSecondaryOffline y1 y2 y3) := by
  unfold execSecondaryOffline
  refine startCmd_kept ?_ ?_
  · exact h1
  · intro q1
    refine Res.kept_ite ?_ ?_
    · exact Res.kept_next (State.failCmd_kept h1)
    · refine Res.kept_ite ?_ ?_
      · exact Res.kept_next (State.failCmd_kept h1)
      · exact Res.kept_next (State.holdVq_kept h1)

theorem execCreateOrderedIoSq_kept {a : State} {y1 y2 y3 y4 y5 y6 y7 y8} (h1 : Kept true a y8) :
    Res.kept true a (execCreateOrderedIoSq y1 y2 y3 y4 y5 y6 y7 y8) := by
  unfold execCreateOrderedIoSq
  refine startCmd_kept ?_ ?_
  · exact h1
  · intro q1
    extract_lets -merge -useContext +onlyGivenNames -underBinder v2
    have k3 : Kept true a v2 := State.countVendor_kept h1
    refine Res.kept_next ?_
    refine Kept.ite ?_ ?_
    · exact State.makeSq_kept k3
    · exact State.failCmd_kept k3

theorem State.enableCtrl_kept {w : Bool} {a : State} {y1 y2} (h1 : Kept w a y1) :
    Kept w a (State.enableCtrl y1 y2) := by
  unfold State.enableCtrl
  extract_lets -merge -useContext +onlyGivenNames -underBinder v1 v2 v3 v4
  exact State.modCtrl_kept (State.useFree_kept (State.useFree_kept (State.useFree_kept (State.useFree_kept h1))))

theorem execControllerEnable_kept {w : Bool} {a : State} {y1 y2} (h1 : Kept w a y2) :
    Res.kept w a (execControllerEnable y1 y2) := by
  unfold execControllerEnable
  split
  · exact Res.kept_fault
  · refine Res.kept_ite ?_ ?_
    · exact Res.kept_next h1
    · exact Res.kept_next (State.enableCtrl_kept h1)

theorem execControllerDisable_kept {a : State} {y1 y2} (h1 : Kept true a y2) :
    Res.kept true a (execControllerDisable y1 y2) := by
  unfold execControllerDisable
  split
  · exact Res.kept_fault
  · refine Res.kept_ite ?_ ?_
    · exact Res.kept_next (State.allQuiet_kept (State.countReset_kept (State.resetCtrl_kept h1)))
    · exact Res.kept_next h1

theorem State.shutCtrl_kept {a : State} {y1 y2} (h1 : Kept true a y1) :
    Kept true a (State.shutCtrl y1 y2) := by
  unfold State.shutCtrl
  extract_lets -merge -useContext +onlyGivenNames -underBinder v1
  have k2 : Kept true a v1 := by
    refine Kept.foldl ?_ (fun p3 x3 h3 => ?_)
    · exact h1
    · exact State.drainDie_kept h3
  exact State.settleWrites_kept (State.modCtrl_kept k2)

theorem execShutdownNotification_kept {a : State} {y1 y2} (h1 : Kept true a y2) :
    Res.kept true a (execShutdownNotification y1 y2) := by
  unfold execShutdownNotification
  split
  · exact Res.kept_fault
  · refine Res.kept_ite ?_ ?_
    · exact Res.kept_next h1
    · exact Res.kept_next (State.shutCtrl_kept h1)

theorem State.subsystemReset_kept {a : State} {y1} (h1 : Kept true a y1) :
    Kept true a (State.subsystemReset y1) := by
  unfold State.subsystemReset
  refine State.bump_kept ?_
  refine Kept.foldl ?_ (fun p1 x1 h1 => ?_)
  · exact h1
  · exact State.resetCtrl_kept h1

theorem execNvmSubsystemReset_kept {a : State} {y1 y2} (h1 : Kept true a y2) :
    Res.kept true a (execNvmSubsystemReset y1 y2) := by
  unfold execNvmSubsystemReset
  refine Res.kept_ite ?_ ?_
  · exact Res.kept_next (State.allQuiet_kept (State.countReset_kept (State.subsystemReset_kept h1)))
  · exact Res.kept_next h1

/-! ### HostData -/

theorem execIdentify_kept {a : State} {y1 y2 y3 y4 y5} (h1 : Kept true a y5) :
    Res.kept true a (execIdentify y1 y2 y3 y4 y5) := by
  unfold execIdentify
  refine startCmd_kept ?_ ?_
  · exact h1
  · intro q1
    split
    · exact Res.kept_next (State.succeed_kept (State.dataOut_kept h1))
    · exact Res.kept_next (State.failCmd_kept h1)

theorem State.reportNss_kept {w : Bool} {a : State} {y1} (h1 : Kept w a y1) :
    Kept w a (State.reportNss y1) := by
  unfold State.reportNss
  extract_lets -merge -useContext +onlyGivenNames -underBinder v1
  exact State.setObj_kept (State.setObj_kept (State.setObj_kept (State.setObj_kept h1)))

theorem State.createNs_kept {a : State} {y1 y2 y3 y4 y5} (h1 : Kept true a y1) :
    Kept true a (State.createNs y1 y2 y3 y4 y5) := by
  unfold State.createNs
  extract_lets -merge -useContext +onlyGivenNames -underBinder v1 v2 v3
  have k4 : Kept true a v3 := State.reportNss_kept (State.bump_kept (State.bump_kept (Kept.put h1)))
  refine State.succeed_kept ?_
  refine Kept.ite ?_ ?_
  · exact State.writeHeader_kept k4
  · exact k4

theorem execNamespaceCreate_kept {a : State} {y1 y2 y3 y4 y5 y6} (h1 : Kept true a y6) :
    Res.kept true a (execNamespaceCreate y1 y2 y3 y4 y5 y6) := by
  unfold execNamespaceCreate
  refine startCmd_kept ?_ ?_
  · exact h1
  · intro q1
    refine Res.kept_ite ?_ ?_
    · exact Res.kept_next (State.failCmd_kept h1)
    · refine Res.kept_ite ?_ ?_
      · exact Res.kept_next (State.safeFail_kept h1)
      · refine Res.kept_ite ?_ ?_
        · exact Res.kept_next (State.failCmd_kept h1)
        · refine Res.kept_ite ?_ ?_
          · exact Res.kept_next (State.failCmd_kept h1)
          · split
            · exact Res.kept_next (State.failCmd_kept h1)
            · exact Res.kept_next (State.createNs_kept h1)

theorem State.deallocNs_kept {a : State} {y1 y2} (h1 : Kept true a y1) :
    Kept true a (State.deallocNs y1 y2) := by
  unfold State.deallocNs
  split
  · exact h1
  · extract_lets -merge -useContext +onlyGivenNames -underBinder v1
    have k2 : Kept true a v1 := by
      refine Kept.foldl ?_ (fun p3 x3 h3 => ?_)
      · exact h1
      · refine Kept.foldl ?_ (fun p4 x4 h4 => ?_)
        · exact h3
        · exact State.unstage_kept h4
    extract_lets -merge -useContext +onlyGivenNames -underBinder v5
    have k6 : Kept true a v5 := by
      refine Kept.foldl ?_ (fun p7 x7 h7 => ?_)
      · exact k2
      · exact State.unmapUnit_kept h7
    extract_lets -merge -useContext +onlyGivenNames -underBinder v8 v9 v10
    have k11 : Kept true a v10 := Kept.put k6
    extract_lets -merge -useContext +onlyGivenNames -underBinder v12
    have k13 : Kept true a v12 := by
      refine State.settleExits_kept ?_
      refine Kept.foldl ?_ (fun p14 x14 h14 => ?_)
      · exact k11
      · split
        · exact State.pondPut_kept h14
        · exact h14
    exact State.settleWrites_kept (Kept.put k13)

theorem State.deleteNs_kept {a : State} {y1 y2} (h1 : Kept true a y1) :
    Kept true a (State.deleteNs y1 y2) := by
  unfold State.deleteNs
  extract_lets -merge -useContext +onlyGivenNames -underBinder v1 v2
  have k3 : Kept true a v2 := State.deallocNs_kept h1
  extract_lets -merge -useContext +onlyGivenNames -underBinder v4 v5
  have k6 : Kept true a v5 := Kept.put k3
  refine State.bump_kept ?_
  refine Kept.foldl ?_ (fun p7 x7 h7 => ?_)
  · exact k6
  · exact State.nsNotice_kept h7

theorem execNamespaceDelete_kept {a : State} {y1 y2 y3} (h1 : Kept true a y3) :
    Res.kept true a (execNamespaceDelete y1 y2 y3) := by
  unfold execNamespaceDelete
  refine startCmd_kept ?_ ?_
  · exact h1
  · intro q1
    extract_lets -merge -useContext +onlyGivenNames -underBinder v2
    refine Res.kept_ite ?_ ?_
    · exact Res.kept_next (State.failCmd_kept h1)
    · refine Res.kept_ite ?_ ?_
      · exact Res.kept_next (State.safeFail_kept h1)
      · refine Res.kept_ite ?_ ?_
        · exact Res.kept_next (State.failCmd_kept h1)
        · refine Res.kept_ite ?_ ?_
          · exact Res.kept_next (State.failVendor_kept h1)
          · refine Res.kept_next ?_
            refine State.succeed_kept ?_
            refine State.reportNss_kept ?_
            refine Kept.foldl ?_ (fun p3 x3 h3 => ?_)
            · exact h1
            · exact State.deleteNs_kept h3

theorem State.attachNs_kept {a : State} {y1 y2 y3 y4 y5} (h1 : Kept true a y1) :
    Kept true a (State.attachNs y1 y2 y3 y4 y5) := by
  unfold State.attachNs
  extract_lets -merge -useContext +onlyGivenNames -underBinder v1 v2 v3
  have k4 : Kept true a v3 := Kept.put h1
  refine State.succeed_kept ?_
  refine Kept.foldl ?_ (fun p5 x5 h5 => ?_)
  · exact k4
  · exact State.nsNotice_kept h5

theorem execNamespaceAttach_kept {a : State} {y1 y2 y3 y4} (h1 : Kept true a y4) :
    Res.kept true a (execNamespaceAttach y1 y2 y3 y4) := by
  unfold execNamespaceAttach
  refine startCmd_kept ?_ ?_
  · exact h1
  · intro q1
    refine Res.kept_ite ?_ ?_
    · exact Res.kept_next (State.failCmd_kept h1)
    · split
      · exact Res.kept_next (State.failCmd_kept h1)
      · refine Res.kept_ite ?_ ?_
        · exact Res.kept_next (State.failCmd_kept h1)
        · refine Res.kept_ite ?_ ?_
          · exact Res.kept_next (State.failCmd_kept h1)
          · exact Res.kept_next (State.attachNs_kept h1)

theorem State.detachNs_kept {a : State} {y1 y2 y3 y4 y5} (h1 : Kept true a y1) :
    Kept true a (State.detachNs y1 y2 y3 y4 y5) := by
  unfold State.detachNs
  extract_lets -merge -useContext +onlyGivenNames -underBinder v1 v2 v3 v4
  have k5 : Kept true a v4 := Kept.put h1
  refine State.succeed_kept ?_
  refine Kept.foldl ?_ (fun p6 x6 h6 => ?_)
  · exact k5
  · exact State.nsNotice_kept h6

theorem execNamespaceDetach_kept {a : State} {y1 y2 y3 y4} (h1 : Kept true a y4) :
    Res.kept true a (execNamespaceDetach y1 y2 y3 y4) := by
  unfold execNamespaceDetach
  refine startCmd_kept ?_ ?_
  · exact h1
  · intro q1
    refine Res.kept_ite ?_ ?_
    · exact Res.kept_next (State.failCmd_kept h1)
    · split
      · exact Res.kept_next (State.failCmd_kept h1)
      · refine Res.kept_ite ?_ ?_
        · exact Res.kept_next (State.failCmd_kept h1)
        · refine Res.kept_ite ?_ ?_
          · exact Res.kept_next (State.failCmd_kept h1)
          · exact Res.kept_next (State.detachNs_kept h1)

theorem State.formatOne_kept {a : State} {y1 y2 y3} (h1 : Kept true a y2) :
    Kept true a (State.formatOne y1 y2 y3) := by
  unfold State.formatOne
  extract_lets -merge -useContext +onlyGivenNames -underBinder v1
  have k2 : Kept true a v1 := by
    refine Kept.ite ?_ ?_
    · exact State.bump_kept (State.deallocNs_kept h1)
    · exact State.deallocNs_kept h1
  exact Kept.put k2

theorem State.unwear_kept {w : Bool} {a : State} {y1} (h1 : Kept w a y1) :
    Kept w a (State.unwear y1) := by
  unfold State.unwear
  refine Kept.foldl ?_ (fun p1 x1 h1 => ?_)
  · exact h1
  · extract_lets -merge -useContext +onlyGivenNames -underBinder v2
    refine Kept.ite ?_ ?_
    · exact State.reportReserve_kept (State.setMd_kept h1)
    · exact h1

theorem State.format_kept {a : State} {y1 y2 y3 y4} (h1 : Kept true a y1) :
    Kept true a (State.format y1 y2 y3 y4) := by
  unfold State.format
  extract_lets -merge -useContext +onlyGivenNames -underBinder v1 v2 v3 v4
  refine Kept.ite ?_ ?_
  · exact State.safeFail_kept h1
  · refine Kept.ite ?_ ?_
    · exact State.failCmd_kept h1
    · refine Kept.ite ?_ ?_
      · exact State.failCmd_kept h1
      · refine Kept.ite ?_ ?_
        · exact State.failVendor_kept h1
        · refine Kept.ite ?_ ?_
          · exact State.failVendor_kept h1
          · refine State.succeed_kept ?_
            refine Kept.foldl ?_ (fun p5 x5 h5 => ?_)
            · exact State.unwear_kept h1
            · exact State.formatOne_kept h5

theorem execFormatNvm_kept {a : State} {y1 y2 y3} (h1 : Kept true a y3) :
    Res.kept true a (execFormatNvm y1 y2 y3) := by
  unfold execFormatNvm
  refine startCmd_kept ?_ ?_
  · exact h1
  · intro q1
    exact Res.kept_next (State.format_kept h1)

theorem execFormatNvmCryptoErase_kept {a : State} {y1 y2 y3} (h1 : Kept true a y3) :
    Res.kept true a (execFormatNvmCryptoErase y1 y2 y3) := by
  unfold execFormatNvmCryptoErase
  refine startCmd_kept ?_ ?_
  · exact h1
  · intro q1
    exact Res.kept_next (State.format_kept h1)

/-! ### Digest -/

theorem State.extendManager_kept {w : Bool} {a : State} {y1 y2 y3} (h1 : Kept w a y1) :
    Kept w a (State.extendManager y1 y2 y3) := by
  unfold State.extendManager
  exact State.raise_kept (State.extend_kept h1)

theorem State.emptyKeyStates_kept {w : Bool} {a : State} {y1 y2} (h1 : Kept w a y1) :
    Kept w a (State.emptyKeyStates y1 y2) := by
  unfold State.emptyKeyStates
  refine Kept.foldl ?_ (fun p1 x1 h1 => ?_)
  · exact h1
  · exact State.emptyKeyState_kept h1

theorem State.endDigest_kept {a : State} {y1 y2 y3 y4 y5 y6 y7} (h1 : Kept true a y1) :
    Kept true a (State.endDigest y1 y2 y3 y4 y5 y6 y7) := by
  unfold State.endDigest
  extract_lets -merge -useContext +onlyGivenNames -underBinder v1 v2
  have k3 : Kept true a v2 := State.addObj_kept (State.addObj_kept (State.bump_kept h1))
  extract_lets -merge -useContext +onlyGivenNames -underBinder v4
  have k5 : Kept true a v4 := by
    refine Kept.ite ?_ ?_
    · exact k3
    · exact State.bump_kept k3
  extract_lets -merge -useContext +onlyGivenNames -underBinder v6
  have k7 : Kept true a v6 := by
    refine Kept.ite ?_ ?_
    · exact k5
    · exact State.setObj_kept (State.setObj_kept (State.setObj_kept k5))
  extract_lets -merge -useContext +onlyGivenNames -underBinder v8
  have k9 : Kept true a v8 := by
    refine Kept.ite ?_ ?_
    · exact State.raise_kept (State.bump_kept k7)
    · exact k7
  extract_lets -merge -useContext +onlyGivenNames -underBinder v10
  have k11 : Kept true a v10 := by
    refine Kept.ite ?_ ?_
    · exact State.raiseOnce_kept k9
    · exact k9
  exact State.endJob_kept k11

theorem State.setRegSet_kept {w : Bool} {a : State} {y1 y2 y3 y4} (h1 : Kept w a y1) :
    Kept w a (State.setRegSet y1 y2 y3 y4) := by
  unfold State.setRegSet
  exact State.setSd_kept h1

theorem State.countCompare_kept {w : Bool} {a : State} {y1 y2 y3} (h1 : Kept w a y1) :
    Kept w a (State.countCompare y1 y2 y3) := by
  unfold State.countCompare
  refine Kept.ite ?_ ?_
  · exact State.bump_kept h1
  · refine Kept.ite ?_ ?_
    · exact State.bump_kept h1
    · refine Kept.ite ?_ ?_
      · exact h1
      · exact State.raise_kept (State.bump_kept h1)

theorem State.digestUrgent_kept {w : Bool} {a : State} {y1 y2 y3 y4} (h1 : Kept w a y1) :
    Kept w a (State.digestUrgent y1 y2 y3 y4) := by
  unfold State.digestUrgent
  extract_lets -merge -useContext +onlyGivenNames -underBinder v1
  split
  · exact State.setJob_kept h1
  · refine Kept.ite ?_ ?_
    · exact State.setJob_kept h1
    · extract_lets -merge -useContext +onlyGivenNames -underBinder v2 v3
      have k4 : Kept w a v3 := State.setSd_kept (State.setJob_kept h1)
      extract_lets -merge -useContext +onlyGivenNames -underBinder v5
      have k6 : Kept w a v5 := State.bump_kept (State.highWater_kept (State.setObj_kept k4))
      exact State.beginJob_kept k6

theorem execDigestUrgencyExpiry_kept {w : Bool} {a : State} {y1 y2 y3} (h1 : Kept w a y3) :
    Res.kept w a (execDigestUrgencyExpiry y1 y2 y3) := by
  unfold execDigestUrgencyExpiry
  refine onDie_kept ?_ ?_
  · exact h1
  · intro q1
    split
    · exact Res.kept_next h1
    · refine Res.kept_ite ?_ ?_
      · exact Res.kept_next (State.digestUrgent_kept h1)
      · exact Res.kept_next h1

theorem State.runDigest_kept {a : State} {y1 y2 y3 y4 y5 y6 y7} (h1 : Kept true a y1) :
    Kept true a (State.runDigest y1 y2 y3 y4 y5 y6 y7) := by
  unfold State.runDigest
  extract_lets -merge -useContext +onlyGivenNames -underBinder v1 v2 v3 v4 v5 v6 v7 v8
  refine Kept.ite ?_ ?_
  · exact State.endDigest_kept h1
  · refine Kept.ite ?_ ?_
    · exact State.endDigest_kept h1
    · split
      extract_lets -merge -useContext +onlyGivenNames -underBinder v9
      have k10 : Kept true a v9 := by
        refine Kept.ite ?_ ?_
        · exact State.write_kept h1
        · exact h1
      extract_lets -merge -useContext +onlyGivenNames -underBinder v11
      have k12 : Kept true a v11 := by
        refine Kept.ite ?_ ?_
        · exact k10
        · refine Kept.ite ?_ ?_
          · exact State.countCompare_kept k10
          · refine Kept.ite ?_ ?_
            · exact State.countCompare_kept k10
            · exact k10
      exact State.endDigest_kept k12

theorem execDigestJobComplete_kept {a : State} {y1 y2 y3 y4 y5} (h1 : Kept true a y5) :
    Res.kept true a (execDigestJobComplete y1 y2 y3 y4 y5) := by
  unfold execDigestJobComplete
  refine onDie_kept ?_ ?_
  · exact h1
  · intro q1
    split
    · exact Res.kept_next h1
    · refine Res.kept_ite ?_ ?_
      · exact Res.kept_next h1
      · refine Res.kept_ite ?_ ?_
        · exact Res.kept_next (State.endJob_kept h1)
        · refine Res.kept_ite ?_ ?_
          · exact Res.kept_next (State.endDigest_kept h1)
          · exact Res.kept_next (State.runDigest_kept h1)

theorem State.shaCoreLost_kept {w : Bool} {a : State} {y1 y2 y3} (h1 : Kept w a y1) :
    Kept w a (State.shaCoreLost y1 y2 y3) := by
  unfold State.shaCoreLost
  extract_lets -merge -useContext +onlyGivenNames -underBinder v1 v2
  have k3 : Kept w a v2 := State.setObj_kept (State.setSd_kept h1)
  extract_lets -merge -useContext +onlyGivenNames -underBinder v4
  have k5 : Kept w a v4 := State.raise_kept k3
  extract_lets -merge -useContext +onlyGivenNames -underBinder v6
  have k7 : Kept w a v6 := by
    unfold v6
    split
    · exact State.setJob_kept k5
    · exact k5
  exact State.startJobs_kept k7

theorem execShaCoreTimeout_kept {w : Bool} {a : State} {y1 y2 y3} (h1 : Kept w a y3) :
    Res.kept w a (execShaCoreTimeout y1 y2 y3) := by
  unfold execShaCoreTimeout
  refine onDie_kept ?_ ?_
  · exact h1
  · intro q1
    refine Res.kept_ite ?_ ?_
    · exact Res.kept_fault
    · exact Res.kept_next (State.shaCoreLost_kept h1)

theorem onSet_kept {w : Bool} {a : State} {y1 y2 y3 y4} (h1 : Kept w a y1) (h2 : (∀ z0, Res.kept w a (y4 z0))) :
    Res.kept w a (onSet y1 y2 y3 y4) := by
  unfold onSet
  refine onDie_kept ?_ ?_
  · exact h1
  · intro q1
    refine Res.kept_ite ?_ ?_
    · refine h2 _
    · exact Res.kept_fault

theorem State.finishSet_kept {w : Bool} {a : State} {y1 y2 y3 y4} (h1 : Kept w a y1) :
    Kept w a (State.finishSet y1 y2 y3 y4) := by
  unfold State.finishSet
  extract_lets -merge -useContext +onlyGivenNames -underBinder v1 v2 v3 v4 v5 v6
  have k7 : Kept w a v6 := State.setRegSet_kept h1
  refine Kept.ite ?_ ?_
  · exact k7
  · exact State.countCompare_kept k7

theorem State.startSet_kept {w : Bool} {a : State} {y1 y2 y3 y4 y5 y6} (h1 : Kept w a y1) :
    Kept w a (State.startSet y1 y2 y3 y4 y5 y6) := by
  unfold State.startSet
  extract_lets -merge -useContext +onlyGivenNames -underBinder v1 v2 v3 v4
  have k5 : Kept w a v4 := State.bump_kept h1
  extract_lets -merge -useContext +onlyGivenNames -underBinder v6 v7
  refine Kept.ite ?_ ?_
  · exact State.setRegSet_kept k5
  · extract_lets -merge -useContext +onlyGivenNames -underBinder v8
    refine Kept.ite ?_ ?_
    · exact State.setRegSet_kept k5
    · refine Kept.ite ?_ ?_
      · exact State.finishSet_kept k5
      · exact State.setRegSet_kept k5

theorem execDctlStart_kept {w : Bool} {a : State} {y1 y2 y3 y4 y5 y6} (h1 : Kept w a y6) :
    Res.kept w a (execDctlStart y1 y2 y3 y4 y5 y6) := by
  unfold execDctlStart
  refine onSet_kept ?_ ?_
  · exact h1
  · intro q1
    exact Res.kept_next (State.startSet_kept h1)

theorem execDctlAbort_kept {w : Bool} {a : State} {y1 y2 y3} (h1 : Kept w a y3) :
    Res.kept w a (execDctlAbort y1 y2 y3) := by
  unfold execDctlAbort
  refine onSet_kept ?_ ?_
  · exact h1
  · intro q1
    extract_lets -merge -useContext +onlyGivenNames -underBinder v2
    exact Res.kept_next (State.setRegSet_kept h1)

theorem State.misuseSet_kept {w : Bool} {a : State} {y1 y2 y3 y4 y5} (h1 : Kept w a y1) :
    Kept w a (State.misuseSet y1 y2 y3 y4 y5) := by
  unfold State.misuseSet
  exact State.raiseOnce_kept (State.bump_kept (State.setRegSet_kept h1))

theorem State.feedSet_kept {w : Bool} {a : State} {y1 y2 y3 y4} (h1 : Kept w a y1) :
    Kept w a (State.feedSet y1 y2 y3 y4) := by
  unfold State.feedSet
  extract_lets -merge -useContext +onlyGivenNames -underBinder v1
  refine Kept.ite ?_ ?_
  · exact h1
  · refine Kept.ite ?_ ?_
    · exact State.misuseSet_kept h1
    · refine Kept.ite ?_ ?_
      · exact State.misuseSet_kept h1
      · extract_lets -merge -useContext +onlyGivenNames -underBinder v2 v3
        exact State.setRegSet_kept h1

theorem execDdataWrite_kept {w : Bool} {a : State} {y1 y2 y3 y4} (h1 : Kept w a y4) :
    Res.kept w a (execDdataWrite y1 y2 y3 y4) := by
  unfold execDdataWrite
  refine onSet_kept ?_ ?_
  · exact h1
  · intro q1
    exact Res.kept_next (State.feedSet_kept h1)

theorem execDresRead_kept {w : Bool} {a : State} {y1 y2 y3 y4} (h1 : Kept w a y4) :
    Res.kept w a (execDresRead y1 y2 y3 y4) := by
  unfold execDresRead
  refine onSet_kept ?_ ?_
  · exact h1
  · intro q1
    extract_lets -merge -useContext +onlyGivenNames -underBinder v2
    refine Res.kept_ite ?_ ?_
    · exact Res.kept_next (State.emit_kept (State.misuseSet_kept h1))
    · exact Res.kept_next (State.emit_kept h1)

theorem execRegisterJobDone_kept {w : Bool} {a : State} {y1 y2 y3} (h1 : Kept w a y3) :
    Res.kept w a (execRegisterJobDone y1 y2 y3) := by
  unfold execRegisterJobDone
  refine onSet_kept ?_ ?_
  · exact h1
  · intro q1
    extract_lets -merge -useContext +onlyGivenNames -underBinder v2
    refine Res.kept_ite ?_ ?_
    · exact Res.kept_next (State.finishSet_kept h1)
    · exact Res.kept_next h1

theorem execDigestBlockCompressed_kept {w : Bool} {a : State} {y1 y2 y3} (h1 : Kept w a y3) :
    Res.kept w a (execDigestBlockCompressed y1 y2 y3) := by
  unfold execDigestBlockCompressed
  refine onSet_kept ?_ ?_
  · exact h1
  · intro q1
    extract_lets -merge -useContext +onlyGivenNames -underBinder v2
    refine Res.kept_ite ?_ ?_
    · exact Res.kept_next (State.setRegSet_kept h1)
    · exact Res.kept_next h1

/-! ### Nvm -/

theorem State.passEnds_kept {a : State} {y1 y2 y3} (h1 : Kept true a y1) :
    Kept true a (State.passEnds y1 y2 y3) := by
  unfold State.passEnds
  extract_lets -merge -useContext +onlyGivenNames -underBinder v1
  have k2 : Kept true a v1 := State.storeTime_kept (State.useFree_kept (State.logMap_kept h1))
  extract_lets -merge -useContext +onlyGivenNames -underBinder v3 v4 v5
  have k6 : Kept true a v5 := State.setMd_kept k2
  exact State.retryStalled_kept (State.settleWrites_kept (State.setObj_kept (State.bump_kept k6)))

theorem execCheckpointPassComplete_kept {a : State} {y1 y2} (h1 : Kept true a y2) :
    Res.kept true a (execCheckpointPassComplete y1 y2) := by
  unfold execCheckpointPassComplete
  refine onDie_kept ?_ ?_
  · exact h1
  · intro q1
    extract_lets -merge -useContext +onlyGivenNames -underBinder v2
    refine Res.kept_ite ?_ ?_
    · exact Res.kept_next h1
    · exact Res.kept_next (State.passEnds_kept h1)

theorem State.sendBytes_kept {w : Bool} {a : State} {y1 y2 y3} (h1 : Kept w a y1) :
    Kept w a (State.sendBytes y1 y2 y3) := by
  unfold State.sendBytes
  exact State.addSmart_kept (State.addObj_kept (State.dataOut_kept h1))

theorem State.endVerify_kept {a : State} {y1 y2 y3 y4} (h1 : Kept true a y1) :
    Kept true a (State.endVerify y1 y2 y3 y4) := by
  unfold State.endVerify
  split
  extract_lets -merge -useContext +onlyGivenNames -underBinder v1
  have k2 : Kept true a v1 := State.countCompare_kept h1
  refine Kept.ite ?_ ?_
  · exact State.succeed_kept k2
  · exact State.failVendor_kept k2

theorem State.finishRead_kept {a : State} {y1 y2} (h1 : Kept true a y1) :
    Kept true a (State.finishRead y1 y2) := by
  unfold State.finishRead
  extract_lets -merge -useContext +onlyGivenNames -underBinder v1
  have k2 : Kept true a v1 := State.xtsRun_kept h1
  extract_lets -merge -useContext +onlyGivenNames -underBinder v3 v4 v5
  refine Kept.ite ?_ ?_
  · exact State.addSmart_kept (State.failCmd_kept k2)
  · split
    · exact State.succeed_kept (State.addSmart_kept (State.sendBytes_kept k2))
    · refine Kept.ite ?_ ?_
      · exact State.succeed_kept k2
      · exact State.failCmd_kept k2
    · exact State.succeed_kept k2
    · clear_value v5
      split
      · exact State.endVerify_kept (State.digestRun_kept k2)
      · exact State.failVendor_kept k2
    · split
      · exact State.endVerify_kept (State.digestRun_kept k2)
      · exact State.failCmd_kept k2
    · exact State.succeed_kept (State.sendBytes_kept (State.digestRun_kept k2))
    · clear_value v5
      split
      · exact State.failVendor_kept k2
      · extract_lets -merge -useContext +onlyGivenNames -underBinder v6 v7 v8 v9 v10 v11
        have k12 : Kept true a v11 := by
          refine Kept.ite ?_ ?_
          · exact State.useFree_kept k2
          · exact k2
        extract_lets -merge -useContext +onlyGivenNames -underBinder v13
        have k14 : Kept true a v13 := State.bump_kept (State.sendBytes_kept k12)
        exact State.finish_kept k14

theorem State.granuleRead_kept {a : State} {y1 y2 y3 y4 y5} (h1 : Kept true a y1) :
    Kept true a (State.granuleRead y1 y2 y3 y4 y5) := by
  unfold State.granuleRead
  extract_lets -merge -useContext +onlyGivenNames -underBinder v1 v2 v3
  have k4 : Kept true a v3 := Kept.put h1
  extract_lets -merge -useContext +onlyGivenNames -underBinder v5 v6 v7
  have k8 : Kept true a v7 := Kept.put k4
  refine Kept.foldl ?_ (fun p9 x9 h9 => ?_)
  · exact k8
  · exact State.finishRead_kept h9

theorem State.merged_kept {a : State} {y1 y2 y3 y4 y5 y6 y7} (h1 : Kept true a y1) :
    Kept true a (State.merged y1 y2 y3 y4 y5 y6 y7) := by
  unfold State.merged
  split
  · exact h1
  · exact State.beginCoarse_kept (State.judgeReads_kept h1)

theorem State.folded_kept {a : State} {y1 y2 y3 y4 y5 y6} (h1 : Kept true a y1) :
    Kept true a (State.folded y1 y2 y3 y4 y5 y6) := by
  unfold State.folded
  extract_lets -merge -useContext +onlyGivenNames -underBinder v1 v2
  refine Kept.ite ?_ ?_
  · exact State.placementEnds_kept (State.dropDest_kept h1)
  · exact State.foldPassed_kept h1

theorem State.verifyFails_kept {a : State} {y1 y2 y3} (h1 : Kept true a y1) :
    Kept true a (State.verifyFails y1 y2 y3) := by
  unfold State.verifyFails
  extract_lets -merge -useContext +onlyGivenNames -underBinder v1
  have k2 : Kept true a v1 := State.redirected_kept (State.retireBlock_kept h1)
  split
  · exact State.reprogram_kept k2
  · exact State.reprogram_kept k2

theorem State.scrubRead_kept {w : Bool} {a : State} {y1 y2 y3 y4 y5 y6} (h1 : Kept w a y1) :
    Kept w a (State.scrubRead y1 y2 y3 y4 y5 y6) := by
  unfold State.scrubRead
  extract_lets -merge -useContext +onlyGivenNames -underBinder v1
  have k2 : Kept w a v1 := State.countRead_kept h1
  extract_lets -merge -useContext +onlyGivenNames -underBinder v3
  have k4 : Kept w a v3 := by
    unfold v3
    split
    · refine State.readStep_kept ?_
      refine Kept.ite ?_ ?_
      · exact State.softReads_kept k2
      · exact k2
    · exact k2
  extract_lets -merge -useContext +onlyGivenNames -underBinder v5
  refine Kept.foldl ?_ (fun p6 x6 h6 => ?_)
  · exact k4
  · exact State.lostGranule_kept (State.bump_kept (State.addObj_kept h6))

theorem State.memberVerified_kept {a : State} {y1 y2 y3 y4 y5} (h1 : Kept true a y1) :
    Kept true a (State.memberVerified y1 y2 y3 y4 y5) := by
  unfold State.memberVerified
  extract_lets -merge -useContext +onlyGivenNames -underBinder v1
  refine Kept.ite ?_ ?_
  · exact State.setMd_kept h1
  · exact State.queueBg_kept (State.retireBlock_kept h1)

theorem State.readEnds_kept {a : State} {y1 y2 y3 y4} (h1 : Kept true a y1) :
    Kept true a (State.readEnds y1 y2 y3 y4) := by
  unfold State.readEnds
  split
  · extract_lets -merge -useContext +onlyGivenNames -underBinder v1 v2
    exact State.granuleRead_kept (State.judgeReads_kept (State.noteRead_kept h1))
  · exact State.merged_kept (State.noteRead_kept h1)
  · split
    · exact State.dropDest_kept h1
    · refine Kept.ite ?_ ?_
      · exact State.folded_kept (State.noteRead_kept h1)
      · exact State.verifyFails_kept (State.noteRead_kept h1)
  · refine Kept.ite ?_ ?_
    · exact State.copyVerified_kept (State.noteRead_kept h1)
    · exact State.verifyFails_kept (State.noteRead_kept h1)
  · extract_lets -merge -useContext +onlyGivenNames -underBinder v3
    have k4 : Kept true a v3 := State.judgeReads_kept (State.noteRead_kept h1)
    refine Kept.ite ?_ ?_
    · exact State.foldUnit_kept k4
    · exact State.copyProgram_kept k4
  · exact State.scrubRead_kept (State.noteRead_kept h1)
  · refine Kept.ite ?_ ?_
    · exact State.memberVerified_kept (State.noteRead_kept h1)
    · exact State.bgOn_kept (State.noteRead_kept h1)
  · exact h1

theorem execFlashReadComplete_kept {a : State} {y1 y2 y3 y4} (h1 : Kept true a y4) :
    Res.kept true a (execFlashReadComplete y1 y2 y3 y4) := by
  unfold execFlashReadComplete
  refine onDie_kept ?_ ?_
  · exact h1
  · intro q1
    split
    · exact Res.kept_next h1
    · refine Res.kept_ite ?_ ?_
      · exact Res.kept_next h1
      · exact Res.kept_next (State.readEnds_kept (State.endOp_kept h1))

theorem State.flushNs_kept {a : State} {y1 y2 y3} (h1 : Kept true a y1) :
    Kept true a (State.flushNs y1 y2 y3) := by
  unfold State.flushNs
  extract_lets -merge -useContext +onlyGivenNames -underBinder v1 v2
  have k3 : Kept true a v2 := by
    refine Kept.foldl ?_ (fun p4 x4 h4 => ?_)
    · exact h1
    · refine Kept.foldl ?_ (fun p5 x5 h5 => ?_)
      · exact h4
      · exact State.placeStaged_kept h5
  extract_lets -merge -useContext +onlyGivenNames -underBinder v6 v7
  have k8 : Kept true a v7 := Kept.put k3
  exact State.settleWrites_kept (State.started_kept k8)

theorem execFlush_kept {a : State} {y1 y2 y3} (h1 : Kept true a y3) :
    Res.kept true a (execFlush y1 y2 y3) := by
  unfold execFlush
  refine startCmd_kept ?_ ?_
  · exact h1
  · intro q1
    extract_lets -merge -useContext +onlyGivenNames -underBinder v2
    refine Res.kept_ite ?_ ?_
    · exact Res.kept_next (State.failCmd_kept h1)
    · extract_lets -merge -useContext +onlyGivenNames -underBinder v3
      have k4 : Kept true a v3 := State.bump_kept h1
      refine Res.kept_ite ?_ ?_
      · exact Res.kept_next (State.succeed_kept k4)
      · exact Res.kept_next (State.flushNs_kept k4)

theorem State.judgeChange_kept {a : State} {y1 y2 y3 y4 y5} (h1 : Kept true a y1) :
    (∀ z0, State.judgeChange y1 y2 y3 y4 y5 = .inl z0 → Kept true a z0) := by
  unfold State.judgeChange
  intro z hz
  split at hz
  · cases hz
    exact State.safeFail_kept h1
  · split at hz
    · cases hz
      exact State.failCmd_kept h1
    · split at hz
      · cases hz
        exact State.bump_kept (State.failCmd_kept h1)
      · split at hz
        · cases hz
          exact State.failCmd_kept h1
        · split at hz
          · cases hz
            exact State.failCmd_kept h1
          · cases hz

theorem execNvmWrite_kept {a : State} {y1 y2 y3 y4 y5 y6} (h1 : Kept true a y6) :
    Res.kept true a (execNvmWrite y1 y2 y3 y4 y5 y6) := by
  unfold execNvmWrite
  refine startCmd_kept ?_ ?_
  · exact h1
  · intro q1
    extract_lets -merge -useContext +onlyGivenNames -underBinder v2
    split
    · rename_i i3 i4 i5
      refine Res.kept_next ?_
      refine State.judgeChange_kept ?_ _ i5
      exact h1
    · rename_i i6 i7 i8
      refine Res.kept_ite ?_ ?_
      · exact Res.kept_next (State.failCmd_kept h1)
      · refine Res.kept_ite ?_ ?_
        · exact Res.kept_next (State.failCmd_kept h1)
        · refine Res.kept_ite ?_ ?_
          · exact Res.kept_next (State.failCmd_kept h1)
          · exact Res.kept_next (State.acceptWrite_kept (State.addObj_kept (State.addSmart_kept (State.addSmart_kept h1))))

theorem State.readRange_kept {a : State} {y1 y2 y3 y4 y5 y6} (h1 : Kept true a y1) (h2 : (∀ z0, Kept true a (y6 z0))) :
    Kept true a (State.readRange y1 y2 y3 y4 y5 y6) := by
  unfold State.readRange
  split
  · exact State.failCmd_kept h1
  · refine Kept.ite ?_ ?_
    · exact State.failCmd_kept h1
    · refine h2 _

theorem State.lookUp_kept {w : Bool} {a : State} {y1 y2 y3} (h1 : Kept w a y1) :
    Kept w a (State.lookUp y1 y2 y3) := by
  unfold State.lookUp
  extract_lets -merge -useContext +onlyGivenNames -underBinder v1 v2 v3
  have k4 : Kept w a v3 := State.usePage_kept h1
  refine Kept.ite ?_ ?_
  · exact State.usePage_kept k4
  · exact k4

theorem State.startRead_kept {a : State} {y1 y2 y3} (h1 : Kept true a y1) :
    Kept true a (State.startRead y1 y2 y3) := by
  unfold State.startRead
  extract_lets -merge -useContext +onlyGivenNames -underBinder v1 v2 v3 v4 v5
  refine Kept.ite ?_ ?_
  · refine State.finishRead_kept ?_
    refine Kept.foldl ?_ (fun p6 x6 h6 => ?_)
    · exact h1
    · exact State.noteUnreadable_kept h6
  · extract_lets -merge -useContext +onlyGivenNames -underBinder v7 v8
    have k9 : Kept true a v8 := Kept.put h1
    refine Kept.foldl ?_ (fun p10 x10 h10 => ?_)
    · exact State.started_kept k9
    · split
      · exact h10
      · exact State.issueOp_kept (State.lookUp_kept h10)

theorem execNvmRead_kept {a : State} {y1 y2 y3 y4 y5 y6} (h1 : Kept true a y6) :
    Res.kept true a (execNvmRead y1 y2 y3 y4 y5 y6) := by
  unfold execNvmRead
  refine startCmd_kept ?_ ?_
  · exact h1
  · intro q1
    extract_lets -merge -useContext +onlyGivenNames -underBinder v2
    refine Res.kept_next ?_
    refine State.readRange_kept ?_ ?_
    · exact h1
    · intro q3
      refine Kept.ite ?_ ?_
      · exact State.failCmd_kept h1
      · refine Kept.ite ?_ ?_
        · exact State.failCmd_kept h1
        · exact State.startRead_kept h1

theorem execCompare_kept {a : State} {y1 y2 y3 y4 y5 y6} (h1 : Kept true a y6) :
    Res.kept true a (execCompare y1 y2 y3 y4 y5 y6) := by
  unfold execCompare
  refine startCmd_kept ?_ ?_
  · exact h1
  · intro q1
    extract_lets -merge -useContext +onlyGivenNames -underBinder v2
    refine Res.kept_next ?_
    refine State.readRange_kept ?_ ?_
    · exact h1
    · intro q3
      refine Kept.ite ?_ ?_
      · exact State.failCmd_kept h1
      · refine Kept.ite ?_ ?_
        · exact State.failCmd_kept h1
        · exact State.startRead_kept h1

theorem execWriteZeroes_kept {a : State} {y1 y2 y3 y4 y5} (h1 : Kept true a y5) :
    Res.kept true a (execWriteZeroes y1 y2 y3 y4 y5) := by
  unfold execWriteZeroes
  refine startCmd_kept ?_ ?_
  · exact h1
  · intro q1
    extract_lets -merge -useContext +onlyGivenNames -underBinder v2
    split
    · rename_i i3 i4 i5
      refine Res.kept_next ?_
      refine State.judgeChange_kept ?_ _ i5
      exact h1
    · rename_i i6 i7 i8
      refine Res.kept_ite ?_ ?_
      · exact Res.kept_next (State.failCmd_kept h1)
      · exact Res.kept_next (State.acceptWrite_kept h1)

theorem execDatasetManagementDeallocate_kept {a : State} {y1 y2 y3 y4} (h1 : Kept true a y4) :
    Res.kept true a (execDatasetManagementDeallocate y1 y2 y3 y4) := by
  unfold execDatasetManagementDeallocate
  refine startCmd_kept ?_ ?_
  · exact h1
  · intro q1
    split
    · rename_i i2 i3 i4
      refine Res.kept_next ?_
      refine State.judgeChange_kept ?_ _ i4
      exact h1
    · rename_i i5 i6 i7
      refine Res.kept_ite ?_ ?_
      · exact Res.kept_next (State.failCmd_kept h1)
      · exact Res.kept_next (State.acceptWrite_kept h1)

theorem execVerify_kept {a : State} {y1 y2 y3 y4 y5} (h1 : Kept true a y5) :
    Res.kept true a (execVerify y1 y2 y3 y4 y5) := by
  unfold execVerify
  refine startCmd_kept ?_ ?_
  · exact h1
  · intro q1
    refine Res.kept_next ?_
    refine State.readRange_kept ?_ ?_
    · exact h1
    · intro q2
      exact State.startRead_kept h1

theorem State.countIo_kept {w : Bool} {a : State} {y1 y2 y3 y4} (h1 : Kept w a y1) :
    Kept w a (State.countIo y1 y2 y3 y4) := by
  unfold State.countIo
  extract_lets -merge -useContext +onlyGivenNames -underBinder v1
  have k2 : Kept w a v1 := State.countVendor_kept h1
  refine Kept.ite ?_ ?_
  · exact k2
  · exact State.bump_kept k2

theorem State.onTake_kept {a : State} {y1 y2 y3 y4 y5 y6} (h1 : Kept true a y1) (h2 : (∀ z0, Kept true a (y6 z0))) :
    Kept true a (State.onTake y1 y2 y3 y4 y5 y6) := by
  unfold State.onTake
  split
  · exact State.failCmd_kept h1
  · refine Kept.ite ?_ ?_
    · exact State.failCmd_kept h1
    · split
      · refine Kept.ite ?_ ?_
        · exact State.failVendor_kept h1
        · refine h2 _
      · exact State.failVendor_kept h1

theorem State.onFrame_kept {a : State} {y1 y2 y3 y4 y5 y6 y7 y8} (h1 : Kept true a y1) (h2 : (∀ z0, Kept true a (y8 z0))) :
    Kept true a (State.onFrame y1 y2 y3 y4 y5 y6 y7 y8) := by
  unfold State.onFrame
  refine State.onTake_kept ?_ ?_
  · exact h1
  · intro q1
    split
    · refine h2 _
    · exact State.failVendor_kept h1

theorem execVerifyFrame_kept {a : State} {y1 y2 y3 y4 y5 y6 y7} (h1 : Kept true a y7) :
    Res.kept true a (execVerifyFrame y1 y2 y3 y4 y5 y6 y7) := by
  unfold execVerifyFrame
  refine startCmd_kept ?_ ?_
  · exact h1
  · intro q1
    extract_lets -merge -useContext +onlyGivenNames -underBinder v2
    have k3 : Kept true a v2 := State.countIo_kept h1
    refine Res.kept_next ?_
    refine State.onFrame_kept ?_ ?_
    · exact k3
    · intro q4
      split
      · exact State.failCmd_kept k3
      · exact State.failVendor_kept k3
      · exact State.startRead_kept k3

theorem execVerifyTakeSeal_kept {a : State} {y1 y2 y3 y4} (h1 : Kept true a y4) :
    Res.kept true a (execVerifyTakeSeal y1 y2 y3 y4) := by
  unfold execVerifyTakeSeal
  refine startCmd_kept ?_ ?_
  · exact h1
  · intro q1
    extract_lets -merge -useContext +onlyGivenNames -underBinder v2
    have k3 : Kept true a v2 := State.countIo_kept h1
    refine Res.kept_next ?_
    refine State.onTake_kept ?_ ?_
    · exact k3
    · intro q4
      refine Kept.ite ?_ ?_
      · exact State.failVendor_kept k3
      · extract_lets -merge -useContext +onlyGivenNames -underBinder v5
        exact State.endVerify_kept k3

theorem execVerifyRangeDigest_kept {a : State} {y1 y2 y3 y4 y5 y6 y7} (h1 : Kept true a y7) :
    Res.kept true a (execVerifyRangeDigest y1 y2 y3 y4 y5 y6 y7) := by
  unfold execVerifyRangeDigest
  refine startCmd_kept ?_ ?_
  · exact h1
  · intro q1
    extract_lets -merge -useContext +onlyGivenNames -underBinder v2
    have k3 : Kept true a v2 := State.countIo_kept h1
    refine Res.kept_next ?_
    refine State.readRange_kept ?_ ?_
    · exact k3
    · intro q4
      refine Kept.ite ?_ ?_
      · exact State.failCmd_kept k3
      · refine Kept.ite ?_ ?_
        · exact State.failCmd_kept k3
        · exact State.startRead_kept k3

theorem execComputeRangeDigest_kept {a : State} {y1 y2 y3 y4 y5 y6} (h1 : Kept true a y6) :
    Res.kept true a (execComputeRangeDigest y1 y2 y3 y4 y5 y6) := by
  unfold execComputeRangeDigest
  refine startCmd_kept ?_ ?_
  · exact h1
  · intro q1
    extract_lets -merge -useContext +onlyGivenNames -underBinder v2
    have k3 : Kept true a v2 := State.countIo_kept h1
    refine Res.kept_next ?_
    refine State.readRange_kept ?_ ?_
    · exact k3
    · intro q4
      refine Kept.ite ?_ ?_
      · exact State.failCmd_kept k3
      · exact State.startRead_kept k3

theorem execReadFrame_kept {a : State} {y1 y2 y3 y4 y5 y6 y7 y8 y9} (h1 : Kept true a y9) :
    Res.kept true a (execReadFrame y1 y2 y3 y4 y5 y6 y7 y8 y9) := by
  unfold execReadFrame
  refine startCmd_kept ?_ ?_
  · exact h1
  · intro q1
    extract_lets -merge -useContext +onlyGivenNames -underBinder v2
    have k3 : Kept true a v2 := State.countIo_kept h1
    refine Res.kept_next ?_
    refine State.onFrame_kept ?_ ?_
    · exact k3
    · intro q4
      refine Kept.ite ?_ ?_
      · exact State.failCmd_kept k3
      · split
        · exact State.failCmd_kept k3
        · exact State.failVendor_kept k3
        · exact State.startRead_kept k3

theorem execReadFrameEntry_kept {a : State} {y1 y2 y3 y4 y5 y6 y7} (h1 : Kept true a y7) :
    Res.kept true a (execReadFrameEntry y1 y2 y3 y4 y5 y6 y7) := by
  unfold execReadFrameEntry
  refine startCmd_kept ?_ ?_
  · exact h1
  · intro q1
    extract_lets -merge -useContext +onlyGivenNames -underBinder v2
    have k3 : Kept true a v2 := State.countIo_kept h1
    refine Res.kept_next ?_
    refine State.onFrame_kept ?_ ?_
    · exact k3
    · intro q4
      exact State.succeed_kept (State.bump_kept (State.sendBytes_kept k3))

/-! ### Programs -/

theorem State.setProgram_kept {w : Bool} {a : State} {y1 y2 y3} (h1 : Kept w a y1) :
    Kept w a (State.setProgram y1 y2 y3) := by
  unfold State.setProgram
  exact Kept.put h1

theorem State.refuseProgram_kept {a : State} {y1 y2 y3 y4} (h1 : Kept true a y1) :
    Kept true a (State.refuseProgram y1 y2 y3 y4) := by
  unfold State.refuseProgram
  extract_lets -merge -useContext +onlyGivenNames -underBinder v1
  have k2 : Kept true a v1 := State.setObj_kept (State.setObj_kept (State.setProgram_kept (State.bump_kept h1)))
  exact State.raise_kept (State.failVendor_kept (State.setObj_kept k2))

theorem State.reportHandles_kept {w : Bool} {a : State} {y1} (h1 : Kept w a y1) :
    Kept w a (State.reportHandles y1) := by
  unfold State.reportHandles
  exact State.setObj_kept h1

theorem State.programLoaded_kept {a : State} {y1 y2 y3 y4} (h1 : Kept true a y1) :
    Kept true a (State.programLoaded y1 y2 y3 y4) := by
  unfold State.programLoaded
  extract_lets -merge -useContext +onlyGivenNames -underBinder v1
  have k2 : Kept true a v1 := State.setProgram_kept (State.bump_kept (State.bump_kept (State.extend_kept h1)))
  exact State.raise_kept (State.succeed_kept (State.reportHandles_kept k2))

theorem execProgramLoad_kept {a : State} {y1 y2 y3 y4 y5 y6} (h1 : Kept true a y6) :
    Res.kept true a (execProgramLoad y1 y2 y3 y4 y5 y6) := by
  unfold execProgramLoad
  refine startCmd_kept ?_ ?_
  · exact h1
  · intro q1
    extract_lets -merge -useContext +onlyGivenNames -underBinder v2
    have k3 : Kept true a v2 := State.countVendor_kept h1
    refine Res.kept_ite ?_ ?_
    · exact Res.kept_next (State.safeFail_kept k3)
    · extract_lets -merge -useContext +onlyGivenNames -underBinder v4 v5 v6
      have k7 : (∀ z0 z1, Kept true a z0 → Kept true a (v6 z0 z1)) := by
        intro q8 q9 q10
        exact State.modCtrl_kept q10
      extract_lets -merge -useContext +onlyGivenNames -underBinder v11 v12
      refine Res.kept_ite ?_ ?_
      · exact Res.kept_next (State.failCmd_kept k3)
      · refine Res.kept_ite ?_ ?_
        · exact Res.kept_next (State.failCmd_kept (k7 _ _ (State.setProgram_kept k3)))
        · extract_lets -merge -useContext +onlyGivenNames -underBinder v13
          refine Res.kept_ite ?_ ?_
          · exact Res.kept_next (State.succeed_kept (State.setProgram_kept (k7 _ _ k3)))
          · extract_lets -merge -useContext +onlyGivenNames -underBinder v14
            have k15 : Kept true a v14 := k7 _ _ k3
            extract_lets -merge -useContext +onlyGivenNames -underBinder v16
            refine Res.kept_ite ?_ ?_
            · exact Res.kept_next (State.refuseProgram_kept k15)
            · exact Res.kept_next (State.programLoaded_kept k15)

theorem State.resetTasksOf_kept {a : State} {y1 y2} (h1 : Kept true a y1) :
    Kept true a (State.resetTasksOf y1 y2) := by
  unfold State.resetTasksOf
  refine Kept.foldl ?_ (fun p1 x1 h1 => ?_)
  · exact h1
  · extract_lets -merge -useContext +onlyGivenNames -underBinder v2
    refine Kept.foldl ?_ (fun p3 x3 h3 => ?_)
    · exact h1
    · exact State.stopTask_kept h3

theorem State.unloadProgram_kept {a : State} {y1 y2 y3 y4} (h1 : Kept true a y1) :
    Kept true a (State.unloadProgram y1 y2 y3 y4) := by
  unfold State.unloadProgram
  extract_lets -merge -useContext +onlyGivenNames -underBinder v1
  have k2 : Kept true a v1 := State.resetTasksOf_kept (State.setProgram_kept h1)
  extract_lets -merge -useContext +onlyGivenNames -underBinder v3 v4
  have k5 : Kept true a v4 := by
    refine Kept.ite ?_ ?_
    · exact k2
    · exact State.setProgram_kept k2
  exact State.succeed_kept (State.reportHandles_kept k5)

theorem execProgramUnload_kept {a : State} {y1 y2 y3} (h1 : Kept true a y3) :
    Res.kept true a (execProgramUnload y1 y2 y3) := by
  unfold execProgramUnload
  refine startCmd_kept ?_ ?_
  · exact h1
  · intro q1
    extract_lets -merge -useContext +onlyGivenNames -underBinder v2
    have k3 : Kept true a v2 := State.countVendor_kept h1
    refine Res.kept_ite ?_ ?_
    · exact Res.kept_next (State.safeFail_kept k3)
    · split
      · exact Res.kept_next (State.failVendor_kept k3)
      · refine Res.kept_ite ?_ ?_
        · exact Res.kept_next (State.failVendor_kept k3)
        · exact Res.kept_next (State.unloadProgram_kept k3)

theorem execRunProgram_kept {a : State} {y1 y2 y3 y4 y5 y6 y7 y8 y9 y10 y11} (h1 : Kept true a y11) :
    Res.kept true a (execRunProgram y1 y2 y3 y4 y5 y6 y7 y8 y9 y10 y11) := by
  unfold execRunProgram
  refine startCmd_kept h1 fun q => Res.kept_next ?_
  have k0 := State.countIo_kept (y2 := y1) (y3 := 0x82) (y4 := 1) h1
  have kg : ∀ p : Option Program, Kept true a (match p with
      | none => (y11.countIo y1 0x82 1).failVendor y1 0x82 0xC3 0
      | some p => if p.state ≠ 2 then (y11.countIo y1 0x82 1).failVendor y1 0x82 0xC3 0
        else if !bitOf p.use 0 ∨ 15 < y5 ∨ !bitOf ((y11.countIo y1 0x82 1).share (y1.cntl - 1) 7) y5 ∨ 2 < y7 then (y11.countIo y1 0x82 1).failCmd y1 0 2
        else if (y11.countIo y1 0x82 1).share (y1.cntl - 1) 8 ≤ (y11.countIo y1 0x82 1).slotsHeld (y1.cntl - 1) then
          ((({ (y11.countIo y1 0x82 1) with host := { (y11.countIo y1 0x82 1).host with heldRuns := (y11.countIo y1 0x82 1).host.heldRuns ++
            [⟨y1, y2, y3, y4, y5, y6, y7, y8, y9, y10, y11.time.now⟩] } } : State).bump (0x4190 + portOf y1.cntl) 0).started y1)
        else ((y11.countIo y1 0x82 1).started y1).startNear ⟨y1, y2, y3, y4, y5, y6, y7, y8, y9, y10, y11.time.now⟩) := by
    intro p
    split
    · exact State.failVendor_kept k0
    · refine Kept.ite (State.failVendor_kept k0) (Kept.ite (State.failCmd_kept k0) (Kept.ite ?_ ?_))
      · exact State.started_kept (State.bump_kept (Kept.upd k0))
      · exact State.startNear_kept (State.started_kept k0)
  refine Kept.ite (State.onTake_kept ?_ fun _ => kg _) (State.readRange_kept ?_ fun _ => kg _)
  · exact k0
  · exact k0

theorem State.runHoldEnds_kept {a : State} {y1 y2} (h1 : Kept true a y1) :
    Kept true a (State.runHoldEnds y1 y2) := by
  unfold State.runHoldEnds
  extract_lets -merge -useContext +onlyGivenNames -underBinder v1 v2
  have k3 : Kept true a v2 := Kept.put h1
  exact State.bump_kept (State.failVendor_kept k3)

theorem execProgramHoldExpiry_kept {a : State} {y1 y2} (h1 : Kept true a y2) :
    Res.kept true a (execProgramHoldExpiry y1 y2) := by
  unfold execProgramHoldExpiry
  split
  · exact Res.kept_next h1
  · refine Res.kept_ite ?_ ?_
    · exact Res.kept_next h1
    · exact Res.kept_next (State.runHoldEnds_kept h1)

/-! ### Functions -/

theorem State.clampBuckets_kept {w : Bool} {a : State} {y1 y2} (h1 : Kept w a y1) :
    Kept w a (State.clampBuckets y1 y2) := by
  unfold State.clampBuckets
  exact State.modCtrl_kept h1

theorem State.applyShare_kept {w : Bool} {a : State} {y1 y2 y3 y4} (h1 : Kept w a y1) :
    Kept w a (State.applyShare y1 y2 y3 y4) := by
  unfold State.applyShare
  refine Kept.ite ?_ ?_
  · exact h1
  · extract_lets -merge -useContext +onlyGivenNames -underBinder v1 v2
    have k3 : Kept w a v2 := by
      refine Kept.ite ?_ ?_
      · exact State.bump_kept h1
      · exact h1
    extract_lets -merge -useContext +onlyGivenNames -underBinder v4
    have k5 : Kept w a v4 := State.modFn_kept k3
    refine Kept.ite ?_ ?_
    · exact State.clampBuckets_kept k5
    · exact k5

theorem State.applyShares_kept {a : State} {y1 y2} (h1 : Kept true a y1) :
    Kept true a (State.applyShares y1 y2) := by
  unfold State.applyShares
  extract_lets -merge -useContext +onlyGivenNames -underBinder v1
  refine State.startHeld_kept ?_
  refine Kept.foldl ?_ (fun p2 x2 h2 => ?_)
  · exact State.bump_kept h1
  · exact State.applyShare_kept h2

theorem State.fitWindows_kept {w : Bool} {a : State} {y1} (h1 : Kept w a y1) :
    Kept w a ((State.fitWindows y1).1) := by
  unfold State.fitWindows
  extract_lets -merge -useContext +onlyGivenNames -underBinder v1 v2 v3 v4
  have k5 : Kept w a v4 := Kept.put h1
  extract_lets -merge -useContext +onlyGivenNames -underBinder v6 v7
  have k8 : (∀ z0 z1, Kept w a z0.1 → Kept w a ((v7 z0 z1).1)) := by
    intro q9 q10 q11
    unfold v7
    extract_lets -merge -useContext +onlyGivenNames -underBinder v12 v13 v14 v15 v16 v17 v18 v19
    have k20 : Kept w a v19 := State.modFn_kept q11
    exact k20
  extract_lets -merge -useContext +onlyGivenNames -underBinder v21
  have k22 : Kept w a v21.1 := by
    refine Kept.foldl1 ?_ (fun p23 x23 h23 => ?_)
    · exact k5
    · exact k8 _ _ h23
  extract_lets -merge -useContext +onlyGivenNames -underBinder v24
  have k25 : Kept w a v24 := by
    refine Kept.foldl ?_ (fun p26 x26 h26 => ?_)
    · exact k22
    · exact State.setObj_kept h26
  exact k25

theorem State.restoreQueue_kept {w : Bool} {a : State} {y1 y2 y3} (h1 : Kept w a y1) :
    Kept w a (State.restoreQueue y1 y2 y3) := by
  unfold State.restoreQueue
  extract_lets -merge -useContext +onlyGivenNames -underBinder v1 v2 v3
  refine Kept.ite ?_ ?_
  · extract_lets -merge -useContext +onlyGivenNames -underBinder v4
    exact State.modCtrl_kept h1
  · extract_lets -merge -useContext +onlyGivenNames -underBinder v5 v6
    have k7 : Kept w a v6 := State.modCtrl_kept h1
    refine Kept.foldl ?_ (fun p8 x8 h8 => ?_)
    · exact k7
    · extract_lets -merge -useContext +onlyGivenNames -underBinder v9 v10
      exact State.modCtrl_kept (State.useFree_kept h8)

theorem State.restoreState_kept {w : Bool} {a : State} {y1 y2 y3} (h1 : Kept w a y1) :
    Kept w a (State.restoreState y1 y2 y3) := by
  unfold State.restoreState
  extract_lets -merge -useContext +onlyGivenNames -underBinder v1 v2
  have k3 : Kept w a v2 := State.setObj_kept (State.setObj_kept h1)
  refine Kept.ite ?_ ?_
  · exact State.raise_kept k3
  · extract_lets -merge -useContext +onlyGivenNames -underBinder v4 v5 v6 v7 v8 v9 v10 v11
    have k12 : Kept w a v11 := by
      refine Kept.foldl ?_ (fun p13 x13 h13 => ?_)
      · exact k3
      · exact State.useFree_kept h13
    extract_lets -merge -useContext +onlyGivenNames -underBinder v14
    have k15 : Kept w a v14 := State.modCtrl_kept k12
    refine Kept.foldl ?_ (fun p16 x16 h16 => ?_)
    · exact k15
    · exact State.restoreQueue_kept h16

theorem State.quiesceFn_kept {w : Bool} {a : State} {y1 y2} (h1 : Kept w a y1) :
    Kept w a (State.quiesceFn y1 y2) := by
  unfold State.quiesceFn
  split
  · refine Kept.ite ?_ ?_
    · exact h1
    · exact State.settleQuiesce_kept (State.modCtrl_kept h1)
  · exact h1

theorem State.resumeFn_kept {w : Bool} {a : State} {y1 y2} (h1 : Kept w a y1) :
    Kept w a (State.resumeFn y1 y2) := by
  unfold State.resumeFn
  exact State.modCtrl_kept h1

theorem State.harvest_kept {w : Bool} {a : State} {y1 y2} (h1 : Kept w a y1) :
    Kept w a (State.harvest y1 y2) := by
  unfold State.harvest
  exact State.modFn_kept h1

theorem State.countAbandoned_kept {w : Bool} {a : State} {y1 y2} (h1 : Kept w a y1) :
    Kept w a (State.countAbandoned y1 y2) := by
  unfold State.countAbandoned
  extract_lets -merge -useContext +onlyGivenNames -underBinder v1 v2 v3
  refine Kept.foldl ?_ (fun p4 x4 h4 => ?_)
  · exact State.addObj_kept h1
  · exact State.addObj_kept h4

theorem State.flrOne_kept {a : State} {y1 y2} (h1 : Kept true a y1) :
    Kept true a (State.flrOne y1 y2) := by
  unfold State.flrOne
  extract_lets -merge -useContext +onlyGivenNames -underBinder v1
  have k2 : Kept true a v1 := State.modCtrl_kept (State.countAbandoned_kept h1)
  extract_lets -merge -useContext +onlyGivenNames -underBinder v3
  have k4 : Kept true a v3 := State.ownerWalk_kept (State.purge_kept k2)
  extract_lets -merge -useContext +onlyGivenNames -underBinder v5 v6
  have k7 : Kept true a v6 := State.modCtrl_kept (Kept.put k4)
  exact State.retryStalled_kept (State.settleFlushes_kept (State.raise_kept (State.bump_kept (State.endSession_kept k7))))

theorem State.setVfs_kept {a : State} {y1 y2 y3 y4} (h1 : Kept true a y1) :
    Kept true a (State.setVfs y1 y2 y3 y4) := by
  unfold State.setVfs
  extract_lets -merge -useContext +onlyGivenNames -underBinder v1 v2 v3 v4
  have k5 : Kept true a v4 := by
    refine Kept.foldl ?_ (fun p6 x6 h6 => ?_)
    · exact h1
    · exact State.flrOne_kept h6
  extract_lets -merge -useContext +onlyGivenNames -underBinder v7 v8
  have k9 : Kept true a v8 := Kept.put k5
  extract_lets -merge -useContext +onlyGivenNames -underBinder v10
  have k11 : Kept true a v10 := by
    refine Kept.foldl ?_ (fun p12 x12 h12 => ?_)
    · exact k9
    · extract_lets -merge -useContext +onlyGivenNames -underBinder v13
      refine Kept.ite ?_ ?_
      · exact h12
      · exact Kept.put h12
  exact State.settleFlushes_kept (State.setObj_kept (Kept.put k11))

theorem execVfEnableChange_kept {a : State} {y1 y2 y3 y4} (h1 : Kept true a y4) :
    Res.kept true a (execVfEnableChange y1 y2 y3 y4) := by
  unfold execVfEnableChange
  refine onDie_kept ?_ ?_
  · exact h1
  · intro q1
    exact Res.kept_next (State.setVfs_kept h1)

theorem execFunctionLevelReset_kept {a : State} {y1 y2} (h1 : Kept true a y2) :
    Res.kept true a (execFunctionLevelReset y1 y2) := by
  unfold execFunctionLevelReset
  split
  · exact Res.kept_fault
  · refine Res.kept_ite ?_ ?_
    · exact Res.kept_next h1
    · refine Res.kept_next ?_
      refine State.allQuiet_kept ?_
      refine State.countReset_kept ?_
      refine Kept.foldl ?_ (fun p1 x1 h1 => ?_)
      · exact h1
      · exact State.flrOne_kept h1

theorem State.refillBuckets_kept {w : Bool} {a : State} {y1} (h1 : Kept w a y1) :
    Kept w a (State.refillBuckets y1) := by
  unfold State.refillBuckets
  refine Kept.foldl ?_ (fun p1 x1 h1 => ?_)
  · exact h1
  · extract_lets -merge -useContext +onlyGivenNames -underBinder v2
    exact State.modCtrl_kept h1

theorem execBucketRefill_kept {w : Bool} {a : State} {y1} (h1 : Kept w a y1) :
    Res.kept w a (execBucketRefill y1) := by
  unfold execBucketRefill
  refine Res.kept_ite ?_ ?_
  · exact Res.kept_next h1
  · extract_lets -merge -useContext +onlyGivenNames -underBinder v1
    have k2 : Kept w a v1 := State.refillBuckets_kept h1
    exact Res.kept_next (Kept.put k2)

theorem execQuiesceLimitExpiry_kept {w : Bool} {a : State} {y1 y2} (h1 : Kept w a y2) :
    Res.kept w a (execQuiesceLimitExpiry y1 y2) := by
  unfold execQuiesceLimitExpiry
  split
  · exact Res.kept_fault
  · refine Res.kept_ite ?_ ?_
    · exact Res.kept_next h1
    · refine Res.kept_ite ?_ ?_
      · exact Res.kept_next h1
      · exact Res.kept_next (State.raiseFn_kept (State.modCtrl_kept h1))

theorem State.flrDone_kept {w : Bool} {a : State} {y1 y2 y3} (h1 : Kept w a y1) :
    Kept w a (State.flrDone y1 y2 y3) := by
  unfold State.flrDone
  extract_lets -merge -useContext +onlyGivenNames -underBinder v1
  have k2 : Kept w a v1 := by
    refine Kept.foldl ?_ (fun p3 x3 h3 => ?_)
    · exact h1
    · exact State.modCtrl_kept h3
  extract_lets -merge -useContext +onlyGivenNames -underBinder v4
  have k5 : Kept w a v4 := State.bump_kept (State.highWater_kept (State.setObj_kept (State.bump_kept k2)))
  exact State.raise_kept k5

theorem execFunctionLevelResetComplete_kept {w : Bool} {a : State} {y1 y2 y3} (h1 : Kept w a y3) :
    Res.kept w a (execFunctionLevelResetComplete y1 y2 y3) := by
  unfold execFunctionLevelResetComplete
  split
  · exact Res.kept_fault
  · refine Res.kept_ite ?_ ?_
    · exact Res.kept_next h1
    · refine Res.kept_ite ?_ ?_
      · exact Res.kept_next h1
      · exact Res.kept_next (State.flrDone_kept h1)

theorem execConfigurationRequest_kept {w : Bool} {a : State} {y1 y2} (h1 : Kept w a y2) :
    Res.kept w a (execConfigurationRequest y1 y2) := by
  unfold execConfigurationRequest
  extract_lets -merge -useContext +onlyGivenNames -underBinder v1 v2
  refine Res.kept_ite ?_ ?_
  · exact Res.kept_next h1
  · refine Res.kept_ite ?_ ?_
    · exact Res.kept_fault
    · refine Res.kept_ite ?_ ?_
      · exact Res.kept_next (State.emit_kept h1)
      · extract_lets -merge -useContext +onlyGivenNames -underBinder v3
        have k4 : Kept w a v3 := by
          refine Kept.ite ?_ ?_
          · exact State.useFree_kept h1
          · exact State.modPci_kept (State.useFree_kept h1)
        exact Res.kept_next (State.emit_kept k4)

/-! ### DictCore -/

theorem State.spend_kept {w : Bool} {a : State} {y1 y2 y3} (h1 : Kept w a y1) :
    Kept w a (State.spend y1 y2 y3) := by
  unfold State.spend
  extract_lets -merge -useContext +onlyGivenNames -underBinder v1
  refine Kept.ite ?_ ?_
  · exact State.setDom_kept h1
  · extract_lets -merge -useContext +onlyGivenNames -underBinder v2
    exact State.setObj_kept h1

theorem State.countAdjusted_kept {w : Bool} {a : State} {y1 y2 y3 y4} (h1 : Kept w a y1) :
    Kept w a (State.countAdjusted y1 y2 y3 y4) := by
  unfold State.countAdjusted
  extract_lets -merge -useContext +onlyGivenNames -underBinder v1
  have k2 : Kept w a v1 := State.bump_kept h1
  exact State.setObj_kept (State.setObj_kept (State.setObj_kept (State.setObj_kept k2)))

theorem State.beginTxn_kept {w : Bool} {a : State} {y1 y2} (h1 : Kept w a y1) :
    Kept w a ((State.beginTxn y1 y2).2) := by
  unfold State.beginTxn
  refine Kept.ite2 ?_ ?_
  · exact h1
  · split
    · exact h1
    · extract_lets -merge -useContext +onlyGivenNames -underBinder v1
      have k2 : Kept w a v1 := State.setSlot_kept h1
      exact State.setSession_kept k2

theorem State.stageInto_kept {w : Bool} {a : State} {y1 y2 y3} (h1 : Kept w a y1) :
    Kept w a ((State.stageInto y1 y2 y3).2) := by
  unfold State.stageInto
  extract_lets -merge -useContext +onlyGivenNames -underBinder v1 v2 v3
  refine Kept.ite2 ?_ ?_
  · exact h1
  · exact State.setSession_kept (State.setSlot_kept h1)

end Sys2Proof.Machine
end

