-- ==== Sys2Proof/Laws/KeptInflow.lean ====
section
/-!
SUPPORT. What each operation and row leaves alone (`Kept`): the inflow ports, recovery, power, acceptance, boot and the lake. One lemma for each, composed from those of the operations it calls.
-/

set_option Elab.async false

namespace Sys2Proof.Machine

/-! ### Inflow -/

theorem State.setLane_kept {w : Bool} {a : State} {y1 y2 y3 y4} (h1 : Kept w a y1) :
    Kept w a (State.setLane y1 y2 y3 y4) := by
  unfold State.setLane
  exact Kept.put h1

theorem State.formLanes_kept {w : Bool} {a : State} {y1 y2 y3 y4} (h1 : Kept w a y1) :
    Kept w a (State.formLanes y1 y2 y3 y4) := by
  unfold State.formLanes
  refine Kept.foldl ?_ (fun p1 x1 h1 => ?_)
  · exact h1
  · extract_lets -merge -useContext +onlyGivenNames -underBinder v2
    refine Kept.ite ?_ ?_
    · exact h1
    · extract_lets -merge -useContext +onlyGivenNames -underBinder v3
      exact State.emit_kept (State.setLane_kept h1)

theorem State.enterStep_kept {w : Bool} {a : State} {y1 y2 y3 y4} (h1 : Kept w a y1) :
    Kept w a (State.enterStep y1 y2 y3 y4) := by
  unfold State.enterStep
  extract_lets -merge -useContext +onlyGivenNames -underBinder v1 v2
  have k3 : Kept w a v2 := State.emit_kept (State.setLane_kept h1)
  refine Kept.ite ?_ ?_
  · exact State.emit_kept k3
  · exact k3

theorem State.retrain_kept {w : Bool} {a : State} {y1 y2 y3} (h1 : Kept w a y1) :
    Kept w a (State.retrain y1 y2 y3) := by
  unfold State.retrain
  extract_lets -merge -useContext +onlyGivenNames -underBinder v1 v2
  exact State.enterStep_kept (State.setLane_kept h1)

theorem State.resetPort_kept {a : State} {y1 y2 y3} (h1 : Kept true a y1) :
    Kept true a (State.resetPort y1 y2 y3) := by
  unfold State.resetPort
  extract_lets -merge -useContext +onlyGivenNames -underBinder v1
  split
  · exact h1
  · extract_lets -merge -useContext +onlyGivenNames -underBinder v2
    have k3 : Kept true a v2 := State.completeAll_kept (State.sendNow_kept h1)
    extract_lets -merge -useContext +onlyGivenNames -underBinder v4 v5 v6 v7
    have k8 : Kept true a v7 := State.setPort_kept k3
    extract_lets -merge -useContext +onlyGivenNames -underBinder v9 v10 v11
    have k12 : Kept true a v11 := Kept.put k8
    extract_lets -merge -useContext +onlyGivenNames -underBinder v13 v14
    have k15 : Kept true a v14 := by
      refine State.endSession_kept ?_
      refine Kept.foldl ?_ (fun p16 x16 h16 => ?_)
      · exact k12
      · exact State.retrain_kept h16
    exact State.raise_kept (State.countReset_kept (State.bump_kept k15))

theorem State.formDie_kept {a : State} {y1 y2 y3} (h1 : Kept true a y1) :
    Kept true a (State.formDie y1 y2 y3) := by
  unfold State.formDie
  extract_lets -merge -useContext +onlyGivenNames -underBinder v1 v2 v3
  have k4 : Kept true a v3 := by
    refine Kept.foldl ?_ (fun p5 x5 h5 => ?_)
    · exact h1
    · exact State.resetPort_kept h5
  extract_lets -merge -useContext +onlyGivenNames -underBinder v6
  refine Kept.foldl ?_ (fun p7 x7 h7 => ?_)
  · exact Kept.put k4
  · split
    · exact State.setPort_kept h7
    · exact h7

theorem State.dropCell_kept {w : Bool} {a : State} {y1 y2 y3} (h1 : Kept w a y1) :
    Kept w a (State.dropCell y1 y2 y3) := by
  unfold State.dropCell
  exact State.returnCredits_kept (State.countFreed_kept h1)

theorem State.outside_kept {w : Bool} {a : State} {y1 y2 y3} (h1 : Kept w a y1) :
    Kept w a (State.outside y1 y2 y3) := by
  unfold State.outside
  exact State.dropCell_kept (State.bump_kept h1)

theorem State.countDiscard_kept {w : Bool} {a : State} {y1 y2 y3} (h1 : Kept w a y1) :
    Kept w a (State.countDiscard y1 y2 y3) := by
  unfold State.countDiscard
  exact State.raiseOnce_kept (State.bump_kept h1)

theorem State.discardCell_kept {w : Bool} {a : State} {y1 y2 y3} (h1 : Kept w a y1) :
    Kept w a (State.discardCell y1 y2 y3) := by
  unfold State.discardCell
  exact State.dropCell_kept (State.countDiscard_kept h1)

theorem State.duplicatePart_kept {w : Bool} {a : State} {y1 y2 y3 y4} (h1 : Kept w a y1) :
    Kept w a (State.duplicatePart y1 y2 y3 y4) := by
  unfold State.duplicatePart
  refine Kept.ite ?_ ?_
  · exact State.dropCell_kept h1
  · extract_lets -merge -useContext +onlyGivenNames -underBinder v1 v2 v3 v4 v5 v6
    have k7 : Kept w a v6 := Kept.put h1
    refine State.dropCell_kept ?_
    refine Kept.ite ?_ ?_
    · exact State.bump_kept k7
    · exact k7

theorem State.noteEarly_kept {w : Bool} {a : State} {y1 y2 y3} (h1 : Kept w a y1) :
    Kept w a (State.noteEarly y1 y2 y3) := by
  unfold State.noteEarly
  extract_lets -merge -useContext +onlyGivenNames -underBinder v1 v2 v3 v4
  have k5 : Kept w a v4 := Kept.put h1
  exact State.dropBands_kept (State.addObj_kept k5)

theorem State.holdCell_kept {w : Bool} {a : State} {y1 y2 y3 y4} (h1 : Kept w a y1) :
    Kept w a ((State.holdCell y1 y2 y3 y4).2) := by
  unfold State.holdCell
  extract_lets -merge -useContext +onlyGivenNames -underBinder v1 v2
  have k3 : Kept w a v2.2 := State.pondGet_kept h1
  refine Kept.ite2 ?_ ?_
  · exact k3
  · extract_lets -merge -useContext +onlyGivenNames -underBinder v4
    have k5 : Kept w a v4.2 := State.intoRing_kept k3
    refine Kept.ite2 ?_ ?_
    · exact State.pondPut_kept k5
    · split
      · exact State.setPort_kept k5
      · exact k5

theorem State.closeEarlier_kept {a : State} {y1 y2 y3 y4} (h1 : Kept true a y1) :
    Kept true a (State.closeEarlier y1 y2 y3 y4) := by
  unfold State.closeEarlier
  refine Kept.foldl ?_ (fun p1 x1 h1 => ?_)
  · exact h1
  · refine Kept.foldl ?_ (fun p2 x2 h2 => ?_)
    · exact h1
    · exact State.completeBand_kept h2

theorem State.settleBand_kept {a : State} {y1 y2 y3 y4 y5} (h1 : Kept true a y1) :
    Kept true a (State.settleBand y1 y2 y3 y4 y5) := by
  unfold State.settleBand
  split
  · refine Kept.ite ?_ ?_
    · exact State.completeBand_kept h1
    · exact h1
  · exact h1

theorem State.noteStart_kept {w : Bool} {a : State} {y1 y2 y3} (h1 : Kept w a y1) :
    Kept w a (State.noteStart y1 y2 y3) := by
  unfold State.noteStart
  extract_lets -merge -useContext +onlyGivenNames -underBinder v1 v2
  have k3 : Kept w a v2 := State.modFrame_kept h1
  split
  · refine Kept.ite ?_ ?_
    · exact State.bump_kept k3
    · exact k3
  · exact k3

theorem State.putBand_kept {w : Bool} {a : State} {y1 y2 y3} (h1 : Kept w a y1) :
    Kept w a (State.putBand y1 y2 y3) := by
  unfold State.putBand
  split
  · exact State.setPort_kept h1
  · exact h1

theorem State.bandStarts_kept {a : State} {y1 y2 y3 y4} (h1 : Kept true a y1) :
    Kept true a ((State.bandStarts y1 y2 y3 y4).2) := by
  unfold State.bandStarts
  refine Kept.ite2 ?_ ?_
  · exact State.outside_kept h1
  · refine Kept.ite2 ?_ ?_
    · exact State.discardCell_kept h1
    · extract_lets -merge -useContext +onlyGivenNames -underBinder v1 v2
      refine Kept.ite2 ?_ ?_
      · exact State.duplicatePart_kept h1
      · extract_lets -merge -useContext +onlyGivenNames -underBinder v3 v4
        split
        · exact State.discardCell_kept (State.noteEarly_kept h1)
        · extract_lets -merge -useContext +onlyGivenNames -underBinder v5
          have k6 : Kept true a v5.2 := State.holdCell_kept h1
          refine Kept.ite2 ?_ ?_
          · exact k6
          · extract_lets -merge -useContext +onlyGivenNames -underBinder v7
            have k8 : Kept true a v7 := State.closeEarlier_kept k6
            extract_lets -merge -useContext +onlyGivenNames -underBinder v9
            have k10 : Kept true a v9 := by
              refine Kept.ite ?_ ?_
              · exact k8
              · exact State.startFrame_kept k8
            exact State.settleBand_kept (State.landChunks_kept (State.noteStart_kept (State.putBand_kept k10)))

theorem State.portDown_kept {a : State} {y1 y2} (h1 : Kept true a y1) :
    Kept true a (State.portDown y1 y2) := by
  unfold State.portDown
  split
  · exact h1
  · refine Kept.ite ?_ ?_
    · exact h1
    · exact State.raise_kept (State.completeAll_kept (State.setPort_kept h1))

theorem State.trainSpare_kept {a : State} {y1 y2 y3} (h1 : Kept true a y1) :
    Kept true a (State.trainSpare y1 y2 y3) := by
  unfold State.trainSpare
  extract_lets -merge -useContext +onlyGivenNames -underBinder v1 v2 v3
  have k4 : Kept true a v3 := State.portDown_kept h1
  extract_lets -merge -useContext +onlyGivenNames -underBinder v5
  have k6 : Kept true a v5 := by
    unfold v5
    split
    · exact State.setPort_kept k4
    · exact k4
  exact State.retrain_kept (State.setLane_kept k6)

theorem State.failLane_kept {a : State} {y1 y2 y3} (h1 : Kept true a y1) :
    Kept true a (State.failLane y1 y2 y3) := by
  unfold State.failLane
  extract_lets -merge -useContext +onlyGivenNames -underBinder v1 v2 v3 v4
  have k5 : Kept true a v4 := State.bump_kept (State.setLane_kept h1)
  split
  · exact k5
  · extract_lets -merge -useContext +onlyGivenNames -underBinder v6 v7
    have k8 : Kept true a v7 := State.setPort_kept k5
    refine Kept.ite ?_ ?_
    · exact k8
    · extract_lets -merge -useContext +onlyGivenNames -underBinder v9
      have k10 : Kept true a v9 := by
        refine Kept.ite ?_ ?_
        · exact State.raise_kept k8
        · exact k8
      extract_lets -merge -useContext +onlyGivenNames -underBinder v11
      refine Kept.ite ?_ ?_
      · exact State.portDown_kept k10
      · extract_lets -merge -useContext +onlyGivenNames -underBinder v12 v13 v14
        have k15 : Kept true a v14 := State.interrupt_kept (State.sendOn_kept k10)
        clear_value v12
        split
        · exact State.trainSpare_kept k15
        · exact k15

theorem State.nak_kept {a : State} {y1 y2 y3} (h1 : Kept true a y1) :
    Kept true a (State.nak y1 y2 y3) := by
  unfold State.nak
  extract_lets -merge -useContext +onlyGivenNames -underBinder v1 v2 v3 v4 v5
  have k6 : Kept true a v5 := State.bump_kept (State.setLane_kept h1)
  extract_lets -merge -useContext +onlyGivenNames -underBinder v7
  have k8 : Kept true a v7 := by
    unfold v7
    split
    · exact State.emit_kept k6
    · exact k6
  refine Kept.ite ?_ ?_
  · exact State.failLane_kept k8
  · exact k8

theorem State.cellError_kept {a : State} {y1 y2 y3} (h1 : Kept true a y1) :
    Kept true a (State.cellError y1 y2 y3) := by
  unfold State.cellError
  refine Kept.ite ?_ ?_
  · exact h1
  · exact State.nak_kept h1

theorem State.refuseCell_kept {a : State} {y1 y2} (h1 : Kept true a y1) :
    Kept true a (State.refuseCell y1 y2) := by
  unfold State.refuseCell
  extract_lets -merge -useContext +onlyGivenNames -underBinder v1
  exact State.cellError_kept (State.setLane_kept h1)

theorem State.bandGoesOn_kept {a : State} {y1 y2 y3 y4} (h1 : Kept true a y1) :
    Kept true a ((State.bandGoesOn y1 y2 y3 y4).2) := by
  unfold State.bandGoesOn
  split
  · exact State.outside_kept h1
  · split
    · exact State.discardCell_kept h1
    · extract_lets b bytes held s1
      have kh : Kept true a held.2 := State.holdCell_kept h1
      clear_value held
      have k1 : Kept true a s1 := State.noteRing_kept (State.putBand_kept kh)
      clear_value s1
      split
      · exact State.dropCell_kept h1
      · split
        · exact State.refuseCell_kept h1
        · split
          · exact kh
          · exact State.settleBand_kept (State.drainFrame_kept (State.landChunks_kept k1))

theorem State.bandEnds_kept {a : State} {y1 y2 y3 y4} (h1 : Kept true a y1) :
    Kept true a ((State.bandEnds y1 y2 y3 y4).2) := by
  unfold State.bandEnds
  refine Kept.ite2 ?_ ?_
  · exact State.outside_kept h1
  · refine Kept.ite2 ?_ ?_
    · exact State.discardCell_kept h1
    · extract_lets -merge -useContext +onlyGivenNames -underBinder v1
      refine Kept.ite2 ?_ ?_
      · exact State.dropCell_kept h1
      · refine Kept.ite2 ?_ ?_
        · exact State.refuseCell_kept h1
        · extract_lets -merge -useContext +onlyGivenNames -underBinder v2
          have k3 : Kept true a v2.2 := State.holdCell_kept h1
          refine Kept.ite2 ?_ ?_
          · exact k3
          · extract_lets -merge -useContext +onlyGivenNames -underBinder v4
            exact State.settleBand_kept (State.putBand_kept k3)

theorem State.noteMarker_kept {w : Bool} {a : State} {y1 y2 y3} (h1 : Kept w a y1) :
    Kept w a (State.noteMarker y1 y2 y3) := by
  unfold State.noteMarker
  split
  · exact State.setPort_kept h1
  · exact h1

theorem State.noteReplaced_kept {w : Bool} {a : State} {y1 y2 y3} (h1 : Kept w a y1) :
    Kept w a (State.noteReplaced y1 y2 y3) := by
  unfold State.noteReplaced
  refine Kept.ite ?_ ?_
  · exact State.raise_kept (State.bump_kept h1)
  · exact h1

theorem State.moveFrame_kept {w : Bool} {a : State} {y1 y2 y3 y4} (h1 : Kept w a y1) :
    Kept w a (State.moveFrame y1 y2 y3 y4) := by
  unfold State.moveFrame
  refine Kept.ite ?_ ?_
  · exact h1
  · extract_lets -merge -useContext +onlyGivenNames -underBinder v1
    have k2 : Kept w a v1 := State.modTake_kept h1
    exact State.modTake_kept k2

theorem State.stampFrame_kept {a : State} {y1 y2 y3 y4} (h1 : Kept true a y1) :
    Kept true a (State.stampFrame y1 y2 y3 y4) := by
  unfold State.stampFrame
  extract_lets -merge -useContext +onlyGivenNames -underBinder v1
  have k2 : Kept true a v1 := by
    unfold v1
    split
    · exact State.addObj_kept (State.moveFrame_kept h1)
    · exact State.startFrame_kept h1
  exact State.checkFrame_kept (State.modFrame_kept k2)

theorem State.forgetEarly_kept {w : Bool} {a : State} {y1 y2 y3} (h1 : Kept w a y1) :
    Kept w a (State.forgetEarly y1 y2 y3) := by
  unfold State.forgetEarly
  extract_lets -merge -useContext +onlyGivenNames -underBinder v1
  exact Kept.put h1

theorem State.takeMarker_kept {a : State} {y1 y2 y3 y4} (h1 : Kept true a y1) :
    Kept true a ((State.takeMarker y1 y2 y3 y4).2) := by
  unfold State.takeMarker
  split
  · extract_lets -merge -useContext +onlyGivenNames -underBinder v1
    have k2 : Kept true a v1 := by
      unfold v1
      split
      · exact State.dropFrame_kept h1
      · exact h1
    exact State.discardCell_kept (State.noteEarly_kept (State.noteReplaced_kept k2))
  · extract_lets -merge -useContext +onlyGivenNames -underBinder v3
    have k4 : Kept true a v3.2 := State.holdCell_kept h1
    refine Kept.ite2 ?_ ?_
    · exact k4
    · exact State.stampFrame_kept (State.noteReplaced_kept (State.forgetEarly_kept k4))

theorem State.markerComes_kept {a : State} {y1 y2 y3} (h1 : Kept true a y1) :
    Kept true a ((State.markerComes y1 y2 y3).2) := by
  unfold State.markerComes
  extract_lets -merge -useContext +onlyGivenNames -underBinder v1
  refine Kept.ite2 ?_ ?_
  · exact State.outside_kept (State.noteMarker_kept h1)
  · refine Kept.ite2 ?_ ?_
    · exact State.duplicatePart_kept (State.noteMarker_kept h1)
    · refine Kept.ite2 ?_ ?_
      · exact State.dropCell_kept h1
      · extract_lets -merge -useContext +onlyGivenNames -underBinder v2
        have k3 : Kept true a v2.2 := State.takeMarker_kept h1
        refine Kept.ite ?_ ?_
        · exact State.noteMarker_kept k3
        · exact k3

theorem State.takeCharged_kept {a : State} {y1 y2 y3} (h1 : Kept true a y1) :
    Kept true a ((State.takeCharged y1 y2 y3).2) := by
  unfold State.takeCharged
  split
  · exact State.bandStarts_kept h1
  · exact State.bandGoesOn_kept h1
  · exact State.bandEnds_kept h1
  · exact State.markerComes_kept h1

theorem State.retryCells_kept {a : State} {y1 y2 y3 y4} (h1 : Kept true a y1) :
    Kept true a (State.retryCells y1 y2 y3 y4) := by
  induction y4 generalizing y1 y2 y3 with
  | zero =>
    unfold State.retryCells
    exact h1
  | succ n ih =>
    unfold State.retryCells
    split
    · exact h1
    · extract_lets -merge -useContext +onlyGivenNames -underBinder v7
      have k8 : Kept true a v7.2 := State.takeCharged_kept h1
      refine Kept.ite ?_ ?_
      · exact k8
      · extract_lets -merge -useContext +onlyGivenNames -underBinder v9
        refine ih ?_
        refine Kept.ite ?_ ?_
        · exact k8
        · exact State.setLane_kept k8

theorem State.retryPort_kept {a : State} {y1 y2} (h1 : Kept true a y1) :
    Kept true a (State.retryPort y1 y2) := by
  unfold State.retryPort
  split
  · exact h1
  · refine Kept.foldl ?_ (fun p1 x1 h1 => ?_)
    · exact h1
    · exact State.retryCells_kept h1

theorem State.retryWaiting_kept {a : State} {y1} (h1 : Kept true a y1) :
    Kept true a (State.retryWaiting y1) := by
  unfold State.retryWaiting
  refine Kept.foldl ?_ (fun p1 x1 h1 => ?_)
  · exact h1
  · exact State.retryPort_kept h1

theorem State.sendTime_kept {w : Bool} {a : State} {y1 y2 y3} (h1 : Kept w a y1) :
    Kept w a (State.sendTime y1 y2 y3) := by
  unfold State.sendTime
  exact State.sendOn_kept h1

theorem State.sendTimes_kept {w : Bool} {a : State} {y1} (h1 : Kept w a y1) :
    Kept w a (State.sendTimes y1) := by
  unfold State.sendTimes
  refine Kept.ite ?_ ?_
  · exact h1
  · refine Kept.foldl ?_ (fun p1 x1 h1 => ?_)
    · exact h1
    · refine Kept.ite ?_ ?_
      · refine Kept.foldl ?_ (fun p2 x2 h2 => ?_)
        · exact h1
        · exact State.sendTime_kept h2
      · exact h1

theorem State.settleRings_kept {a : State} {y1} (h1 : Kept true a y1) :
    Kept true a (State.settleRings y1) := by
  unfold State.settleRings
  extract_lets -merge -useContext +onlyGivenNames -underBinder v1
  have k2 : Kept true a v1 := by
    refine Kept.foldl ?_ (fun p3 x3 h3 => ?_)
    · exact h1
    · refine Kept.foldl ?_ (fun p4 x4 h4 => ?_)
      · exact h3
      · refine Kept.ite ?_ ?_
        · exact State.reclaimFrame_kept h4
        · exact h4
  refine State.retryWaiting_kept ?_
  refine Kept.foldl ?_ (fun p5 x5 h5 => ?_)
  · exact State.ringFell_kept k2
  · exact State.drainPort_kept h5

theorem State.stepTimesOut_kept {a : State} {y1 y2 y3 y4} (h1 : Kept true a y1) :
    Kept true a (State.stepTimesOut y1 y2 y3 y4) := by
  unfold State.stepTimesOut
  extract_lets -merge -useContext +onlyGivenNames -underBinder v1
  have k2 : Kept true a v1 := State.setLane_kept h1
  refine Kept.ite ?_ ?_
  · exact State.failLane_kept k2
  · exact State.enterStep_kept (State.setLane_kept k2)

theorem State.loseLane_kept {a : State} {y1 y2 y3} (h1 : Kept true a y1) :
    Kept true a (State.loseLane y1 y2 y3) := by
  unfold State.loseLane
  extract_lets -merge -useContext +onlyGivenNames -underBinder v1
  refine Kept.ite ?_ ?_
  · exact State.stepTimesOut_kept h1
  · refine Kept.ite ?_ ?_
    · exact State.retrain_kept h1
    · refine Kept.ite ?_ ?_
      · exact State.failLane_kept h1
      · exact State.retrain_kept h1

theorem State.takeCodeword_kept {a : State} {y1 y2 y3 y4 y5 y6} (h1 : Kept true a y1) :
    Kept true a (State.takeCodeword y1 y2 y3 y4 y5 y6) := by
  unfold State.takeCodeword
  extract_lets -merge -useContext +onlyGivenNames -underBinder v1
  have k2 : Kept true a v1 := by
    refine Kept.ite ?_ ?_
    · refine Kept.ite ?_ ?_
      · exact h1
      · exact State.bump_kept h1
    · exact State.bump_kept h1
  extract_lets -merge -useContext +onlyGivenNames -underBinder v3 v4
  have k5 : Kept true a v4 := State.setLane_kept k2
  refine Kept.ite ?_ ?_
  · extract_lets -merge -useContext +onlyGivenNames -underBinder v6
    have k7 : Kept true a v6 := State.setLane_kept k2
    refine Kept.ite ?_ ?_
    · exact State.enterStep_kept k7
    · exact k7
  · refine Kept.ite ?_ ?_
    · exact State.loseLane_kept k5
    · exact k5

theorem execCodewordReceived_kept {a : State} {y1 y2 y3 y4 y5} (h1 : Kept true a y5) :
    Res.kept true a (execCodewordReceived y1 y2 y3 y4 y5) := by
  unfold execCodewordReceived
  refine onLane_kept ?_ ?_
  · exact h1
  · intro q1
    extract_lets -merge -useContext +onlyGivenNames -underBinder v2
    refine Res.kept_ite ?_ ?_
    · exact Res.kept_next h1
    · exact Res.kept_next (State.takeCodeword_kept h1)

theorem State.sayHello_kept {w : Bool} {a : State} {y1 y2 y3} (h1 : Kept w a y1) :
    Kept w a (State.sayHello y1 y2 y3) := by
  unfold State.sayHello
  extract_lets -merge -useContext +onlyGivenNames -underBinder v1 v2
  exact State.sendOn_kept h1

theorem State.delineated_kept {w : Bool} {a : State} {y1 y2 y3} (h1 : Kept w a y1) :
    Kept w a (State.delineated y1 y2 y3) := by
  unfold State.delineated
  exact State.sayHello_kept (State.enterStep_kept h1)

theorem State.countHcrc_kept {a : State} {y1 y2 y3 y4} (h1 : Kept true a y1) :
    Kept true a (State.countHcrc y1 y2 y3 y4) := by
  unfold State.countHcrc
  extract_lets -merge -useContext +onlyGivenNames -underBinder v1 v2 v3
  have k4 : Kept true a v3 := State.setLane_kept h1
  refine Kept.ite ?_ ?_
  · exact State.delineated_kept k4
  · refine Kept.ite ?_ ?_
    · exact State.loseLane_kept k4
    · exact k4

theorem State.cellArrives_kept {a : State} {y1 y2 y3} (h1 : Kept true a y1) :
    Kept true a (State.cellArrives y1 y2 y3) := by
  unfold State.cellArrives
  extract_lets -merge -useContext +onlyGivenNames -underBinder v1
  have k2 : Kept true a v1 := State.countHcrc_kept h1
  refine Kept.ite ?_ ?_
  · exact State.bump_kept k2
  · exact k2

theorem State.inSequence_kept {a : State} {y1 y2 y3 y4} (h1 : Kept true a y1) :
    Kept true a ((State.inSequence y1 y2 y3 y4).2) := by
  unfold State.inSequence
  extract_lets -merge -useContext +onlyGivenNames -underBinder v1
  refine Kept.ite2 ?_ ?_
  · exact h1
  · refine Kept.ite2 ?_ ?_
    · exact State.cellError_kept h1
    · extract_lets -merge -useContext +onlyGivenNames -underBinder v2
      exact State.setLane_kept h1

theorem State.queueCell_kept {a : State} {y1 y2} (h1 : Kept true a y1) :
    Kept true a (State.queueCell y1 y2) := by
  unfold State.queueCell
  extract_lets -merge -useContext +onlyGivenNames -underBinder v1 v2
  exact State.retryCells_kept (State.setLane_kept h1)

theorem State.markerBoundary_kept {w : Bool} {a : State} {y1 y2} (h1 : Kept w a y1) :
    Kept w a (State.markerBoundary y1 y2) := by
  unfold State.markerBoundary
  refine Kept.ite ?_ ?_
  · exact State.sourceBoundary_kept h1
  · exact h1

theorem recvCell_kept {a : State} {y1 y2 y3} (h1 : Kept true a y3) :
    Res.kept true a (recvCell y1 y2 y3) := by
  unfold recvCell
  refine onLane_kept ?_ ?_
  · exact h1
  · intro q1
    extract_lets -merge -useContext +onlyGivenNames -underBinder v2
    have k3 : Kept true a v2 := State.cellArrives_kept h1
    extract_lets -merge -useContext +onlyGivenNames -underBinder v4
    refine Res.kept_ite ?_ ?_
    · exact Res.kept_next k3
    · refine Res.kept_ite ?_ ?_
      · refine Res.kept_next ?_
        refine Kept.ite ?_ ?_
        · exact State.countDiscard_kept k3
        · exact k3
      · refine Res.kept_ite ?_ ?_
        · exact Res.kept_refused
        · extract_lets -merge -useContext +onlyGivenNames -underBinder v5
          have k6 : Kept true a v5.2 := State.inSequence_kept k3
          refine Res.kept_ite ?_ ?_
          · exact Res.kept_next k6
          · refine Res.kept_ite ?_ ?_
            · exact Res.kept_next (State.discardCell_kept k6)
            · exact Res.kept_next (State.queueCell_kept (State.markerBoundary_kept k6))

theorem execBandStartCell_kept {a : State} {y1 y2} (h1 : Kept true a y2) :
    Res.kept true a (execBandStartCell y1 y2) := by
  unfold execBandStartCell
  exact recvCell_kept h1

theorem execBandDataCell_kept {a : State} {y1 y2} (h1 : Kept true a y2) :
    Res.kept true a (execBandDataCell y1 y2) := by
  unfold execBandDataCell
  exact recvCell_kept h1

theorem execBandEndCell_kept {a : State} {y1 y2} (h1 : Kept true a y2) :
    Res.kept true a (execBandEndCell y1 y2) := by
  unfold execBandEndCell
  exact recvCell_kept h1

theorem execFrameMarker_kept {a : State} {y1 y2} (h1 : Kept true a y2) :
    Res.kept true a (execFrameMarker y1 y2) := by
  unfold execFrameMarker
  exact recvCell_kept h1

theorem State.takeBadCell_kept {a : State} {y1 y2 y3 y4} (h1 : Kept true a y1) :
    Kept true a (State.takeBadCell y1 y2 y3 y4) := by
  unfold State.takeBadCell
  extract_lets -merge -useContext +onlyGivenNames -underBinder v1
  have k2 : Kept true a v1 := by
    refine Kept.ite ?_ ?_
    · exact h1
    · exact State.bump_kept h1
  extract_lets -merge -useContext +onlyGivenNames -underBinder v3
  have k4 : Kept true a v3 := by
    refine Kept.ite ?_ ?_
    · exact k2
    · exact State.bump_kept k2
  exact State.cellError_kept (State.countHcrc_kept k4)

theorem execCellInError_kept {a : State} {y1 y2 y3 y4} (h1 : Kept true a y4) :
    Res.kept true a (execCellInError y1 y2 y3 y4) := by
  unfold execCellInError
  refine onLane_kept ?_ ?_
  · exact h1
  · intro q1
    refine Res.kept_ite ?_ ?_
    · exact Res.kept_refused
    · refine Res.kept_ite ?_ ?_
      · exact Res.kept_next h1
      · exact Res.kept_next (State.takeBadCell_kept h1)

theorem execNakTimeout_kept {a : State} {y1 y2 y3} (h1 : Kept true a y3) :
    Res.kept true a (execNakTimeout y1 y2 y3) := by
  unfold execNakTimeout
  refine onLane_kept ?_ ?_
  · exact h1
  · intro q1
    extract_lets -merge -useContext +onlyGivenNames -underBinder v2
    refine Res.kept_ite ?_ ?_
    · exact Res.kept_next h1
    · refine Res.kept_ite ?_ ?_
      · exact Res.kept_next h1
      · exact Res.kept_next (State.nak_kept h1)

theorem execCreditRefresh_kept {a : State} {y1 y2 y3} (h1 : Kept true a y3) :
    Res.kept true a (execCreditRefresh y1 y2 y3) := by
  unfold execCreditRefresh
  refine onLane_kept ?_ ?_
  · exact h1
  · intro q1
    extract_lets -merge -useContext +onlyGivenNames -underBinder v2
    split
    · refine Res.kept_ite ?_ ?_
      · exact Res.kept_next (State.sendCredits_kept (State.returnCredits_kept (State.retryPort_kept h1)))
      · exact Res.kept_next h1
    · exact Res.kept_next h1

theorem execSignalDetect_kept {w : Bool} {a : State} {y1 y2 y3} (h1 : Kept w a y3) :
    Res.kept w a (execSignalDetect y1 y2 y3) := by
  unfold execSignalDetect
  refine onLane_kept ?_ ?_
  · exact h1
  · intro q1
    extract_lets -merge -useContext +onlyGivenNames -underBinder v2
    refine Res.kept_ite ?_ ?_
    · exact Res.kept_next h1
    · refine Res.kept_ite ?_ ?_
      · exact Res.kept_next h1
      · exact Res.kept_next (State.enterStep_kept h1)

theorem State.startCredits_kept {w : Bool} {a : State} {y1 y2} (h1 : Kept w a y1) :
    Kept w a (State.startCredits y1 y2) := by
  unfold State.startCredits
  split
  · refine Kept.ite ?_ ?_
    · exact h1
    · exact State.setPort_kept h1
  · exact h1

theorem State.laneUp_kept {w : Bool} {a : State} {y1 y2 y3} (h1 : Kept w a y1) :
    Kept w a (State.laneUp y1 y2 y3) := by
  unfold State.laneUp
  extract_lets -merge -useContext +onlyGivenNames -underBinder v1 v2 v3
  have k4 : Kept w a v3 := State.setLane_kept h1
  extract_lets -merge -useContext +onlyGivenNames -underBinder v5
  have k6 : Kept w a v5 := by
    unfold v5
    split
    · exact State.setPort_kept k4
    · exact State.setPort_kept k4
  extract_lets -merge -useContext +onlyGivenNames -underBinder v7
  have k8 : Kept w a v7 := State.raise_kept (State.emit_kept k6)
  refine Kept.ite ?_ ?_
  · exact State.raise_kept (State.countSpare_kept k8)
  · exact k8

theorem State.bringUp_kept {w : Bool} {a : State} {y1 y2 y3} (h1 : Kept w a y1) :
    Kept w a (State.bringUp y1 y2 y3) := by
  unfold State.bringUp
  extract_lets -merge -useContext +onlyGivenNames -underBinder v1
  have k2 : Kept w a v1 := by
    refine State.startCredits_kept ?_
    refine Kept.foldl ?_ (fun p3 x3 h3 => ?_)
    · exact h1
    · exact State.laneUp_kept h3
  refine Kept.foldl ?_ (fun p4 x4 h4 => ?_)
  · exact State.sendCredits_kept k2
  · exact State.sendTime_kept h4

theorem State.reachBond_kept {w : Bool} {a : State} {y1 y2 y3} (h1 : Kept w a y1) :
    Kept w a (State.reachBond y1 y2 y3) := by
  unfold State.reachBond
  extract_lets -merge -useContext +onlyGivenNames -underBinder v1 v2
  have k3 : Kept w a v2 := State.enterStep_kept h1
  refine Kept.ite ?_ ?_
  · exact State.bringUp_kept k3
  · refine Kept.ite ?_ ?_
    · exact State.bringUp_kept k3
    · exact k3

theorem execTrainingStepComplete_kept {w : Bool} {a : State} {y1 y2 y3} (h1 : Kept w a y3) :
    Res.kept w a (execTrainingStepComplete y1 y2 y3) := by
  unfold execTrainingStepComplete
  refine onLane_kept ?_ ?_
  · exact h1
  · intro q1
    extract_lets -merge -useContext +onlyGivenNames -underBinder v2
    refine Res.kept_ite ?_ ?_
    · exact Res.kept_next (State.enterStep_kept (State.setLane_kept h1))
    · refine Res.kept_ite ?_ ?_
      · exact Res.kept_next (State.enterStep_kept (State.setLane_kept h1))
      · refine Res.kept_ite ?_ ?_
        · exact Res.kept_next (State.delineated_kept h1)
        · refine Res.kept_ite ?_ ?_
          · exact Res.kept_next (State.reachBond_kept h1)
          · refine Res.kept_ite ?_ ?_
            · exact Res.kept_next (State.bringUp_kept h1)
            · exact Res.kept_next h1

theorem execTrainingStepTimeout_kept {a : State} {y1 y2 y3} (h1 : Kept true a y3) :
    Res.kept true a (execTrainingStepTimeout y1 y2 y3) := by
  unfold execTrainingStepTimeout
  refine onLane_kept ?_ ?_
  · exact h1
  · intro q1
    extract_lets -merge -useContext +onlyGivenNames -underBinder v2
    split
    · exact Res.kept_next h1
    · refine Res.kept_ite ?_ ?_
      · exact Res.kept_next h1
      · exact Res.kept_next (State.stepTimesOut_kept h1)

theorem execBondDeadline_kept {w : Bool} {a : State} {y1 y2 y3} (h1 : Kept w a y3) :
    Res.kept w a (execBondDeadline y1 y2 y3) := by
  unfold execBondDeadline
  refine onLane_kept ?_ ?_
  · exact h1
  · intro q1
    extract_lets -merge -useContext +onlyGivenNames -underBinder v2
    split
    · exact Res.kept_next h1
    · refine Res.kept_ite ?_ ?_
      · exact Res.kept_next (State.bringUp_kept h1)
      · exact Res.kept_next h1

theorem State.controlIn_kept {a : State} {y1 y2} (h1 : Kept true a y1) :
    Kept true a ((State.controlIn y1 y2).2) := by
  unfold State.controlIn
  extract_lets -merge -useContext +onlyGivenNames -underBinder v1
  have k2 : Kept true a v1 := State.cellArrives_kept h1
  extract_lets -merge -useContext +onlyGivenNames -underBinder v3 v4
  have k5 : Kept true a v4.2 := by
    refine Kept.ite2 ?_ ?_
    · exact State.inSequence_kept k2
    · exact k2
  refine Kept.ite2 ?_ ?_
  · exact k5
  · refine Kept.ite2 ?_ ?_
    · exact k5
    · exact State.countDiscard_kept k5

theorem State.ackControl_kept {w : Bool} {a : State} {y1 y2 y3 y4 y5 y6} (h1 : Kept w a y1) :
    Kept w a (State.ackControl y1 y2 y3 y4 y5 y6) := by
  unfold State.ackControl
  refine Kept.ite ?_ ?_
  · exact State.sendOn_kept h1
  · exact h1

theorem State.controlAgain_kept {a : State} {y1 y2 y3} (h1 : Kept true a y1) :
    Kept true a (State.controlAgain y1 y2 y3) := by
  unfold State.controlAgain
  extract_lets -merge -useContext +onlyGivenNames -underBinder v1 v2 v3 v4
  have k5 : Kept true a v4 := State.ackControl_kept (State.controlIn_kept h1)
  refine Kept.ite ?_ ?_
  · exact k5
  · exact State.sendControl_kept k5

theorem State.controlOut_kept {w : Bool} {a : State} {y1 y2 y3 y4 y5} (h1 : Kept w a y5.1) :
    Kept w a (State.controlOut y1 y2 y3 y4 y5) := by
  unfold State.controlOut
  refine State.ackControl_kept ?_
  split
  · exact State.setPort_kept h1
  · exact h1

theorem State.controlFresh_kept {a : State} {y1 y2} (h1 : Kept true a y1) :
    Kept true a (State.controlFresh y1 y2) := by
  unfold State.controlFresh
  exact State.setPort_kept (State.controlIn_kept h1)

theorem control_kept {a : State} {y1 y2 y3 y4} (h1 : Kept true a y3) (h2 : (∀ z0 z1, Kept true a z1 → Kept true a ((y4 z0 z1).1))) :
    Res.kept true a (control y1 y2 y3 y4) := by
  unfold control
  refine onLane_kept ?_ ?_
  · exact h1
  · intro q1
    extract_lets -merge -useContext +onlyGivenNames -underBinder v2
    refine Res.kept_ite ?_ ?_
    · exact Res.kept_next h1
    · refine Res.kept_ite ?_ ?_
      · exact Res.kept_next (State.controlIn_kept h1)
      · refine Res.kept_ite ?_ ?_
        · exact Res.kept_next (State.controlAgain_kept h1)
        · extract_lets -merge -useContext +onlyGivenNames -underBinder v3
          exact Res.kept_next (State.controlOut_kept (h2 _ _ (State.controlFresh_kept h1)))

theorem State.checkExchange_kept {w : Bool} {a : State} {y1 y2 y3} (h1 : Kept w a y1) :
    Kept w a (State.checkExchange y1 y2 y3) := by
  unfold State.checkExchange
  extract_lets -merge -useContext +onlyGivenNames -underBinder v1
  refine Kept.ite ?_ ?_
  · exact State.reachBond_kept h1
  · exact h1

theorem State.sendEchoes_kept {w : Bool} {a : State} {y1 y2 y3} (h1 : Kept w a y1) :
    Kept w a (State.sendEchoes y1 y2 y3) := by
  unfold State.sendEchoes
  refine Kept.foldl ?_ (fun p1 x1 h1 => ?_)
  · exact h1
  · exact State.sendOn_kept h1

theorem State.hello_kept {w : Bool} {a : State} {y1 y2 y3 y4 y5 y6 y7 y8 y9} (h1 : Kept w a y1) :
    Kept w a ((State.hello y1 y2 y3 y4 y5 y6 y7 y8 y9).1) := by
  unfold State.hello
  extract_lets -merge -useContext +onlyGivenNames -underBinder v1 v2
  have k3 : Kept w a v2 := by
    unfold v2
    split
    · exact State.setPort_kept h1
    · exact h1
  extract_lets -merge -useContext +onlyGivenNames -underBinder v4
  refine Kept.ite1 ?_ ?_
  · exact k3
  · refine Kept.ite1 ?_ ?_
    · extract_lets -merge -useContext +onlyGivenNames -underBinder v5
      have k6 : Kept w a v5 := State.setLane_kept k3
      exact State.checkExchange_kept (State.sendEchoes_kept k6)
    · exact State.raise_kept (State.setLane_kept k3)

theorem execHello_kept {a : State} {y1 y2 y3 y4 y5 y6 y7 y8} (h1 : Kept true a y8) :
    Res.kept true a (execHello y1 y2 y3 y4 y5 y6 y7 y8) := by
  unfold execHello
  refine control_kept ?_ ?_
  · exact h1
  · intro q1 q2 q3
    exact State.hello_kept q3

theorem execEcho_kept {a : State} {y1 y2 y3} (h1 : Kept true a y3) :
    Res.kept true a (execEcho y1 y2 y3) := by
  unfold execEcho
  refine control_kept ?_ ?_
  · exact h1
  · intro q1 q2 q3
    exact State.sendOn_kept (State.useFree_kept q3)

theorem State.echoReply_kept {w : Bool} {a : State} {y1 y2 y3 y4 y5} (h1 : Kept w a y1) :
    Kept w a ((State.echoReply y1 y2 y3 y4 y5).1) := by
  unfold State.echoReply
  extract_lets -merge -useContext +onlyGivenNames -underBinder v1
  refine Kept.ite1 ?_ ?_
  · exact h1
  · extract_lets -merge -useContext +onlyGivenNames -underBinder v2 v3 v4
    have k5 : Kept w a v4 := State.setObj_kept (State.setLane_kept h1)
    exact State.checkExchange_kept k5

theorem execEchoReply_kept {a : State} {y1 y2 y3 y4 y5} (h1 : Kept true a y5) :
    Res.kept true a (execEchoReply y1 y2 y3 y4 y5) := by
  unfold execEchoReply
  refine control_kept ?_ ?_
  · exact h1
  · intro q1 q2 q3
    exact State.echoReply_kept q3

theorem State.controlAcked_kept {w : Bool} {a : State} {y1 y2 y3 y4} (h1 : Kept w a y1) :
    Kept w a ((State.controlAcked y1 y2 y3 y4).1) := by
  unfold State.controlAcked
  split
  · exact h1
  · extract_lets -merge -useContext +onlyGivenNames -underBinder v1
    split
    · refine Kept.ite1 ?_ ?_
      · exact State.setPort_kept h1
      · exact State.sendNow_kept (State.setPort_kept h1)
    · exact State.setPort_kept h1

theorem execControlAck_kept {a : State} {y1 y2 y3 y4} (h1 : Kept true a y4) :
    Res.kept true a (execControlAck y1 y2 y3 y4) := by
  unfold execControlAck
  refine control_kept ?_ ?_
  · exact h1
  · intro q1 q2 q3
    exact State.controlAcked_kept q3

theorem execPortResetMessage_kept {a : State} {y1 y2 y3} (h1 : Kept true a y3) :
    Res.kept true a (execPortResetMessage y1 y2 y3) := by
  unfold execPortResetMessage
  refine control_kept ?_ ?_
  · exact h1
  · intro q1 q2 q3
    exact State.resetPort_kept q3

theorem execUnknownControlMessage_kept {a : State} {y1 y2 y3} (h1 : Kept true a y3) :
    Res.kept true a (execUnknownControlMessage y1 y2 y3) := by
  unfold execUnknownControlMessage
  refine control_kept ?_ ?_
  · exact h1
  · intro q1 q2 q3
    exact q3

theorem execControlRetryExpiry_kept {a : State} {y1 y2 y3 y4} (h1 : Kept true a y4) :
    Res.kept true a (execControlRetryExpiry y1 y2 y3 y4) := by
  unfold execControlRetryExpiry
  refine onLane_kept ?_ ?_
  · exact h1
  · intro q1
    extract_lets -merge -useContext +onlyGivenNames -underBinder v2
    split
    · exact Res.kept_next h1
    · split
      · exact Res.kept_next h1
      · refine Res.kept_ite ?_ ?_
        · exact Res.kept_next h1
        · refine Res.kept_ite ?_ ?_
          · extract_lets -merge -useContext +onlyGivenNames -underBinder v3
            exact Res.kept_next (State.emitAll_kept (State.setPort_kept h1))
          · exact Res.kept_next (State.resetPort_kept (State.raise_kept h1))

theorem execSignalLoss_kept {a : State} {y1 y2 y3} (h1 : Kept true a y3) :
    Res.kept true a (execSignalLoss y1 y2 y3) := by
  unfold execSignalLoss
  refine onLane_kept ?_ ?_
  · exact h1
  · intro q1
    extract_lets -merge -useContext +onlyGivenNames -underBinder v2 v3
    have k4 : Kept true a v3 := State.setLane_kept h1
    refine Res.kept_ite ?_ ?_
    · refine Res.kept_ite ?_ ?_
      · exact Res.kept_next (State.failLane_kept k4)
      · exact Res.kept_next (State.enterStep_kept (State.setLane_kept k4))
    · exact Res.kept_next k4

theorem execLaneRetrainTimer_kept {w : Bool} {a : State} {y1 y2 y3} (h1 : Kept w a y3) :
    Res.kept w a (execLaneRetrainTimer y1 y2 y3) := by
  unfold execLaneRetrainTimer
  refine onLane_kept ?_ ?_
  · exact h1
  · intro q1
    extract_lets -merge -useContext +onlyGivenNames -underBinder v2
    refine Res.kept_ite ?_ ?_
    · exact Res.kept_next h1
    · refine Res.kept_ite ?_ ?_
      · exact Res.kept_next h1
      · exact Res.kept_next (State.retrain_kept h1)

theorem execPut_kept {a : State} {y1 y2 y3} (h1 : Kept true a y3) :
    Res.kept true a (execPut y1 y2 y3) := by
  unfold execPut
  extract_lets -merge -useContext +onlyGivenNames -underBinder v1
  have k2 : Kept true a v1.2 := State.pondPut_kept h1
  exact Res.kept_next (State.emit_kept (State.retryWaiting_kept k2))

theorem execPondAudit_kept {a : State} {y1 y2} (h1 : Kept true a y2) :
    Res.kept true a (execPondAudit y1 y2) := by
  unfold execPondAudit
  refine onDie_kept ?_ ?_
  · exact h1
  · intro q1
    refine Res.kept_ite ?_ ?_
    · exact Res.kept_next (State.retryWaiting_kept (State.auditDie_kept h1))
    · exact Res.kept_next h1

theorem State.programEnds_kept {a : State} {y1 y2 y3 y4 y5} (h1 : Kept true a y1) :
    Kept true a (State.programEnds y1 y2 y3 y4 y5) := by
  unfold State.programEnds
  extract_lets -merge -useContext +onlyGivenNames -underBinder v1
  have k2 : Kept true a v1 := State.endOp_kept h1
  extract_lets -merge -useContext +onlyGivenNames -underBinder v3
  have k4 : Kept true a v3 := by
    refine Kept.ite ?_ ?_
    · exact State.recordProgram_kept k2
    · exact k2
  extract_lets -merge -useContext +onlyGivenNames -underBinder v5
  have k6 : Kept true a v5 := by
    unfold v5
    split
    · exact State.programPassed_kept (State.groupStatus_kept k4)
    · exact State.programFailed_kept (State.groupStatus_kept k4)
    · exact State.reprogram_kept k2
  exact State.retryStalled_kept (State.settleWrites_kept (State.settleRings_kept k6))

theorem execFlashProgramComplete_kept {a : State} {y1 y2 y3 y4} (h1 : Kept true a y4) :
    Res.kept true a (execFlashProgramComplete y1 y2 y3 y4) := by
  unfold execFlashProgramComplete
  refine onDie_kept ?_ ?_
  · exact h1
  · intro q1
    split
    · exact Res.kept_next h1
    · refine Res.kept_ite ?_ ?_
      · exact Res.kept_next h1
      · refine Res.kept_ite ?_ ?_
        · exact Res.kept_next h1
        · exact Res.kept_next (State.programEnds_kept h1)

theorem State.formFirst_kept {w : Bool} {a : State} {y1 y2} (h1 : Kept w a y1) :
    Kept w a (State.formFirst y1 y2) := by
  unfold State.formFirst
  extract_lets -merge -useContext +onlyGivenNames -underBinder v1
  have k2 : Kept w a v1 := State.formLanes_kept h1
  refine Kept.foldl ?_ (fun p3 x3 h3 => ?_)
  · exact k2
  · split
    · exact State.setPort_kept h3
    · exact h3

/-! ### LakeBase -/

theorem State.refuseLake_kept {a : State} {y1 y2} (h1 : Kept true a y1) :
    Kept true a (State.refuseLake y1 y2) := by
  unfold State.refuseLake
  extract_lets -merge -useContext +onlyGivenNames -underBinder v1 v2 v3
  have k4 : Kept true a v3 := Kept.put h1
  clear_value v1
  split
  · exact State.failVendor_kept k4
  · exact k4

theorem State.lakeSend_kept {w : Bool} {a : State} {y1 y2 y3 y4} (h1 : Kept w a y1) :
    Kept w a (State.lakeSend y1 y2 y3 y4) := by
  unfold State.lakeSend
  extract_lets -merge -useContext +onlyGivenNames -underBinder v1
  have k2 : Kept w a v1 := State.lakeEmit_kept h1
  refine Kept.ite ?_ ?_
  · extract_lets -merge -useContext +onlyGivenNames -underBinder v3
    exact Kept.put k2
  · exact k2

theorem State.lxnState_kept {w : Bool} {a : State} {y1 y2 y3} (h1 : Kept w a y1) :
    Kept w a (State.lxnState y1 y2 y3) := by
  unfold State.lxnState
  exact State.setSession_kept h1

theorem State.releaseVote_kept {w : Bool} {a : State} {y1 y2} (h1 : Kept w a y1) :
    Kept w a (State.releaseVote y1 y2) := by
  unfold State.releaseVote
  split
  · exact h1
  · refine Kept.ite ?_ ?_
    · exact h1
    · exact State.raise_kept (State.takeResult_kept (State.bump_kept (State.releaseTake_kept h1)))

theorem State.abortVote_kept {w : Bool} {a : State} {y1 y2} (h1 : Kept w a y1) :
    Kept w a (State.abortVote y1 y2) := by
  unfold State.abortVote
  split
  · exact h1
  · extract_lets -merge -useContext +onlyGivenNames -underBinder v1 v2
    have k3 : Kept w a v2 := Kept.put h1
    exact State.releaseVote_kept k3

theorem State.recordLxn_kept {w : Bool} {a : State} {y1 y2} (h1 : Kept w a y1) :
    Kept w a (State.recordLxn y1 y2) := by
  unfold State.recordLxn
  extract_lets -merge -useContext +onlyGivenNames -underBinder v1
  exact State.useFree_kept (State.setDom_kept h1)

theorem State.abortLxn_kept {w : Bool} {a : State} {y1 y2 y3} (h1 : Kept w a y1) :
    Kept w a (State.abortLxn y1 y2 y3) := by
  unfold State.abortLxn
  split
  · exact h1
  · extract_lets -merge -useContext +onlyGivenNames -underBinder v1 v2
    have k3 : Kept w a v2 := by
      refine Kept.foldl ?_ (fun p4 x4 h4 => ?_)
      · exact h1
      · exact State.lakeSend_kept h4
    extract_lets -merge -useContext +onlyGivenNames -underBinder v5
    have k6 : Kept w a v5 := State.lxnState_kept (State.abortVote_kept k3)
    extract_lets -merge -useContext +onlyGivenNames -underBinder v7 v8
    have k9 : Kept w a v8 := Kept.put k6
    exact State.raise_kept (State.recordLxn_kept k9)

theorem State.endMembership_kept {a : State} {y1} (h1 : Kept true a y1) :
    Kept true a (State.endMembership y1) := by
  unfold State.endMembership
  extract_lets -merge -useContext +onlyGivenNames -underBinder v1
  have k2 : Kept true a v1 := by
    refine Kept.foldl ?_ (fun p3 x3 h3 => ?_)
    · exact h1
    · exact State.abortLxn_kept h3
  extract_lets -merge -useContext +onlyGivenNames -underBinder v4
  have k5 : Kept true a v4 := by
    refine Kept.foldl ?_ (fun p6 x6 h6 => ?_)
    · exact k2
    · exact State.abortVote_kept h6
  extract_lets -merge -useContext +onlyGivenNames -underBinder v7
  have k8 : Kept true a v7 := by
    refine Kept.foldl ?_ (fun p9 x9 h9 => ?_)
    · exact k5
    · exact State.failVendor_kept h9
  extract_lets -merge -useContext +onlyGivenNames -underBinder v10
  have k11 : Kept true a v10 := by
    refine State.walkWhere_kept ?_
    refine Kept.foldl ?_ (fun p12 x12 h12 => ?_)
    · exact k8
    · exact State.endSession_kept h12
  exact Kept.put k11

theorem State.leaveLake_kept {a : State} {y1 y2} (h1 : Kept true a y1) :
    Kept true a (State.leaveLake y1 y2) := by
  unfold State.leaveLake
  refine Kept.ite ?_ ?_
  · exact State.raise_kept (State.endMembership_kept (State.lakeEmit_kept h1))
  · exact h1

theorem State.setLevel_kept {w : Bool} {a : State} {y1 y2} (h1 : Kept w a y1) :
    Kept w a (State.setLevel y1 y2) := by
  unfold State.setLevel
  refine Kept.ite ?_ ?_
  · exact h1
  · exact State.raise_kept (Kept.put h1)

theorem State.modLxn_kept {w : Bool} {a : State} {y1 y2 y3} (h1 : Kept w a y1) :
    Kept w a (State.modLxn y1 y2 y3) := by
  unfold State.modLxn
  exact Kept.put h1

theorem State.lakeDrop_kept {w : Bool} {a : State} {y1} (h1 : Kept w a y1) :
    Kept w a (State.lakeDrop y1) := by
  unfold State.lakeDrop
  exact State.bump_kept h1

theorem State.lakeBuffer_kept {w : Bool} {a : State} {y1 y2 y3} (h1 : Kept w a y1) :
    Kept w a ((State.lakeBuffer y1 y2 y3).2) := by
  unfold State.lakeBuffer
  extract_lets -merge -useContext +onlyGivenNames -underBinder v1 v2
  have k3 : Kept w a v2.2 := State.pondGet_kept h1
  refine Kept.ite2 ?_ ?_
  · exact State.pondPut_kept k3
  · exact k3

theorem State.takeSeq_kept {w : Bool} {a : State} {y1 y2} (h1 : Kept w a y1) :
    Kept w a (State.takeSeq y1 y2) := by
  unfold State.takeSeq
  extract_lets -merge -useContext +onlyGivenNames -underBinder v1
  exact Kept.put h1

theorem State.lakeReceive_kept {w : Bool} {a : State} {y1 y2 y3 y4} (h1 : Kept w a y1) :
    Kept w a ((State.lakeReceive y1 y2 y3 y4).2) := by
  unfold State.lakeReceive
  extract_lets -merge -useContext +onlyGivenNames -underBinder v1
  refine Kept.ite2 ?_ ?_
  · exact h1
  · refine Kept.ite2 ?_ ?_
    · exact State.lakeDrop_kept h1
    · refine Kept.ite2 ?_ ?_
      · exact State.raiseOnce_kept (State.lakeDrop_kept (State.bump_kept h1))
      · refine Kept.ite2 ?_ ?_
        · exact State.lakeDrop_kept h1
        · extract_lets -merge -useContext +onlyGivenNames -underBinder v2
          have k3 : Kept w a v2.2 := State.lakeBuffer_kept h1
          refine Kept.ite2 ?_ ?_
          · exact State.lakeDrop_kept k3
          · extract_lets -merge -useContext +onlyGivenNames -underBinder v4
            have k5 : Kept w a v4 := State.bump_kept (State.takeSeq_kept k3)
            refine Kept.ite ?_ ?_
            · exact State.lakeEmit_kept k5
            · exact k5

theorem onMsg_kept {w : Bool} {a : State} {y1 y2 y3 y4 y5} (h1 : Kept w a y1) (h2 : (∀ z0, Kept w a z0 → Kept w a (y5 z0))) :
    Res.kept w a (onMsg y1 y2 y3 y4 y5) := by
  unfold onMsg
  refine onLane_kept ?_ ?_
  · exact h1
  · intro q1
    extract_lets -merge -useContext +onlyGivenNames -underBinder v2
    have k3 : Kept w a v2.2 := State.lakeReceive_kept h1
    refine Res.kept_next ?_
    refine Kept.ite ?_ ?_
    · exact h2 _ k3
    · exact k3

theorem State.setMembers_kept {w : Bool} {a : State} {y1 y2} (h1 : Kept w a y1) :
    Kept w a (State.setMembers y1 y2) := by
  unfold State.setMembers
  extract_lets -merge -useContext +onlyGivenNames -underBinder v1
  refine Kept.ite ?_ ?_
  · exact h1
  · exact Kept.put h1

theorem State.dropNode_kept {w : Bool} {a : State} {y1 y2 y3} (h1 : Kept w a y1) :
    Kept w a (State.dropNode y1 y2 y3) := by
  unfold State.dropNode
  extract_lets -merge -useContext +onlyGivenNames -underBinder v1 v2 v3 v4 v5
  have k6 : Kept w a v5 := Kept.put h1
  extract_lets -merge -useContext +onlyGivenNames -underBinder v7
  have k8 : Kept w a v7 := State.walkWhere_kept (State.endSession_kept k6)
  extract_lets -merge -useContext +onlyGivenNames -underBinder v9 v10 v11 v12
  have k13 : Kept w a v12 := by
    refine Kept.ite ?_ ?_
    · exact State.raise_kept (Kept.put k8)
    · exact k8
  extract_lets -merge -useContext +onlyGivenNames -underBinder v14
  have k15 : Kept w a v14 := by
    refine Kept.ite ?_ ?_
    · exact State.setMembers_kept k13
    · exact k13
  extract_lets -merge -useContext +onlyGivenNames -underBinder v16
  have k17 : Kept w a v16 := by
    refine Kept.foldl ?_ (fun p18 x18 h18 => ?_)
    · exact k15
    · exact State.raise_kept (State.abortVote_kept h18)
  extract_lets -merge -useContext +onlyGivenNames -underBinder v19
  have k20 : Kept w a v19 := by
    refine Kept.ite ?_ ?_
    · exact State.raise_kept k17
    · exact k17
  refine Kept.ite ?_ ?_
  · exact State.raise_kept k20
  · exact k20

/-! ### Recover -/

theorem State.walkDie_kept {w : Bool} {a : State} {y1 y2} (h1 : Kept w a y1) :
    Kept w a (State.walkDie y1 y2) := by
  unfold State.walkDie
  exact State.walkWhere_kept h1

theorem State.clearDie_kept {a : State} {y1 y2} (h1 : Kept true a y1) :
    Kept true a (State.clearDie y1 y2) := by
  unfold State.clearDie
  extract_lets -merge -useContext +onlyGivenNames -underBinder v1
  have k2 : Kept true a v1 := by
    refine Kept.foldl ?_ (fun p3 x3 h3 => ?_)
    · exact h1
    · exact State.stopTask_kept h3
  extract_lets -merge -useContext +onlyGivenNames -underBinder v4
  have k5 : Kept true a v4 := by
    refine State.setRows_kept ?_
    refine State.endPools_kept ?_
    refine Kept.foldl ?_ (fun p6 x6 h6 => ?_)
    · exact State.walkDie_kept k2
    · exact State.unstage_kept h6
  extract_lets -merge -useContext +onlyGivenNames -underBinder v7 v8 v9 v10 v11 v12 v13
  have k14 : Kept true a v13 := Kept.put k5
  exact State.reportStaged_kept (State.setMd_kept k14)

theorem State.loseBands_kept {w : Bool} {a : State} {y1 y2} (h1 : Kept w a y1) :
    Kept w a (State.loseBands y1 y2) := by
  unfold State.loseBands
  extract_lets -merge -useContext +onlyGivenNames -underBinder v1
  refine Kept.foldl ?_ (fun p2 x2 h2 => ?_)
  · exact h1
  · refine Kept.foldl ?_ (fun p3 x3 h3 => ?_)
    · exact h2
    · extract_lets -merge -useContext +onlyGivenNames -underBinder v4
      refine Kept.ite ?_ ?_
      · exact h3
      · extract_lets -merge -useContext +onlyGivenNames -underBinder v5 v6
        have k7 : Kept w a v6 := State.modFrame_kept h3
        refine Kept.ite ?_ ?_
        · exact k7
        · split
          · exact State.addMissing_kept k7
          · exact k7

theorem State.downLanes_kept {a : State} {y1 y2} (h1 : Kept true a y1) :
    Kept true a (State.downLanes y1 y2) := by
  unfold State.downLanes
  extract_lets -merge -useContext +onlyGivenNames -underBinder v1
  have k2 : Kept true a v1 := by
    refine Kept.foldl ?_ (fun p3 x3 h3 => ?_)
    · exact h1
    · refine Kept.ite ?_ ?_
      · exact h3
      · extract_lets -merge -useContext +onlyGivenNames -underBinder v4 v5
        have k6 : Kept true a v5 := State.setPort_kept h3
        exact State.endSession_kept (State.portDown_kept k6)
  extract_lets -merge -useContext +onlyGivenNames -underBinder v7 v8
  exact Kept.put k2

theorem State.queueRebuild_kept {w : Bool} {a : State} {y1 y2} (h1 : Kept w a y1) :
    Kept w a (State.queueRebuild y1 y2) := by
  unfold State.queueRebuild
  refine Kept.ite ?_ ?_
  · exact h1
  · refine Kept.foldl ?_ (fun p1 x1 h1 => ?_)
    · exact h1
    · refine Kept.foldl ?_ (fun p2 x2 h2 => ?_)
      · exact h1
      · extract_lets -merge -useContext +onlyGivenNames -underBinder v3
        exact State.queueBg_kept (State.setUnit_kept h2)

theorem State.failDie_kept {a : State} {y1 y2} (h1 : Kept true a y1) :
    Kept true a (State.failDie y1 y2) := by
  unfold State.failDie
  refine Kept.ite ?_ ?_
  · exact h1
  · extract_lets -merge -useContext +onlyGivenNames -underBinder v1 v2 v3
    have k4 : Kept true a v3 := Kept.put h1
    extract_lets -merge -useContext +onlyGivenNames -underBinder v5
    have k6 : Kept true a v5 := State.setObj_kept (State.setObj_kept k4)
    extract_lets -merge -useContext +onlyGivenNames -underBinder v7
    have k8 : Kept true a v7 := State.raise_kept (State.setObj_kept k6)
    extract_lets -merge -useContext +onlyGivenNames -underBinder v9
    have k10 : Kept true a v9 := State.clearDie_kept (State.loseBands_kept (State.hostPortDown_kept (State.downLanes_kept k8)))
    extract_lets -merge -useContext +onlyGivenNames -underBinder v11
    have k12 : Kept true a v11 := State.queueRebuild_kept (State.setObj_kept k10)
    extract_lets -merge -useContext +onlyGivenNames -underBinder v13
    have k14 : Kept true a v13 := by
      refine Kept.ite ?_ ?_
      · exact State.interrupt_kept k12
      · exact k12
    exact State.driveFaultN_kept (State.recomputeMargins_kept k14)

theorem State.reportStandby_kept {w : Bool} {a : State} {y1} (h1 : Kept w a y1) :
    Kept w a (State.reportStandby y1) := by
  unfold State.reportStandby
  exact State.setObj_kept h1

theorem State.nameStandby_kept {w : Bool} {a : State} {y1} (h1 : Kept w a y1) :
    Kept w a (State.nameStandby y1) := by
  unfold State.nameStandby
  exact State.reportStandby_kept (Kept.put h1)

theorem State.assumeLead_kept {w : Bool} {a : State} {y1 y2 y3} (h1 : Kept w a y1) :
    Kept w a (State.assumeLead y1 y2 y3) := by
  unfold State.assumeLead
  extract_lets -merge -useContext +onlyGivenNames -underBinder v1 v2 v3 v4
  have k5 : Kept w a v4 := Kept.put h1
  exact State.interrupt_kept (State.setObj_kept (State.bump_kept (State.setObj_kept k5)))

theorem State.enterSafeHold_kept {a : State} {y1} (h1 : Kept true a y1) :
    Kept true a (State.enterSafeHold y1) := by
  unfold State.enterSafeHold
  refine Kept.ite ?_ ?_
  · exact h1
  · extract_lets -merge -useContext +onlyGivenNames -underBinder v1 v2 v3 v4
    have k5 : Kept true a v4 := Kept.put h1
    extract_lets -merge -useContext +onlyGivenNames -underBinder v6
    have k7 : Kept true a v6 := State.setObj_kept (State.setObj_kept (State.setObj_kept k5))
    extract_lets -merge -useContext +onlyGivenNames -underBinder v8
    have k9 : Kept true a v8 := State.closeAllLater_kept (State.raise_kept k7)
    extract_lets -merge -useContext +onlyGivenNames -underBinder v10
    have k11 : Kept true a v10 := by
      refine Kept.ite ?_ ?_
      · exact State.refuseLake_kept k9
      · exact State.leaveLake_kept k9
    exact State.driveFaultN_kept (State.heartbeat_kept k11)

theorem State.takeover_kept {a : State} {y1 y2 y3} (h1 : Kept true a y1) :
    Kept true a (State.takeover y1 y2 y3) := by
  unfold State.takeover
  extract_lets -merge -useContext +onlyGivenNames -underBinder v1
  have k2 : (∀ z0, Kept true a z0 → Kept true a (v1 z0)) := by
    intro q3 q4
    unfold v1
    split
    · exact State.failDie_kept q4
    · exact q4
  split
  · exact State.raise_kept (State.nameStandby_kept (k2 _ (State.assumeLead_kept h1)))
  · exact State.enterSafeHold_kept (k2 _ h1)

theorem State.handOver_kept {a : State} {y1 y2} (h1 : Kept true a y1) :
    Kept true a (State.handOver y1 y2) := by
  unfold State.handOver
  exact State.takeover_kept (State.useFree_kept h1)

theorem State.resetDie_kept {a : State} {y1 y2} (h1 : Kept true a y1) :
    Kept true a (State.resetDie y1 y2) := by
  unfold State.resetDie
  refine Kept.ite ?_ ?_
  · exact Kept.put h1
  · extract_lets -merge -useContext +onlyGivenNames -underBinder v1 v2 v3
    have k4 : Kept true a v3 := Kept.put h1
    extract_lets -merge -useContext +onlyGivenNames -underBinder v5
    have k6 : Kept true a v5 := by
      refine Kept.ite ?_ ?_
      · exact State.handOver_kept k4
      · refine Kept.ite ?_ ?_
        · exact State.nameStandby_kept k4
        · exact k4
    extract_lets -merge -useContext +onlyGivenNames -underBinder v7
    have k8 : Kept true a v7 := State.clearDie_kept (State.hostPortDown_kept (State.downLanes_kept k6))
    extract_lets -merge -useContext +onlyGivenNames -underBinder v9 v10
    have k11 : Kept true a v10 := State.setObj_kept (State.setPd_kept k8)
    exact State.countReset_kept (State.bump_kept (State.setObj_kept (State.setObj_kept k11)))

theorem State.waitingResets_kept {a : State} {y1} (h1 : Kept true a y1) :
    Kept true a (State.waitingResets y1) := by
  unfold State.waitingResets
  refine Kept.foldl ?_ (fun p1 x1 h1 => ?_)
  · exact h1
  · exact State.resetDie_kept h1

theorem State.clearVolatile_kept {a : State} {y1 y2} (h1 : Kept true a y1) :
    Kept true a (State.clearVolatile y1 y2) := by
  unfold State.clearVolatile
  refine State.countReset_kept (State.setObj_kept (Kept.foldl (State.setObj_kept ?_) (fun _ _ h => State.setObj_kept h)))
  have h2 : Kept true a y1.releaseAdmitted := State.releaseAdmitted_kept h1
  generalize y1.releaseAdmitted = t at h2 ⊢
  exact ⟨h2.1, h2.2, (fun hw => nomatch hw), fun hw => filter_wf _ (h2.4 hw)⟩

theorem State.endOps_kept {a : State} {y1 y2} (h1 : Kept true a y1) :
    Kept true a (State.endOps y1 y2) := by
  unfold State.endOps
  split
  refine Kept.foldl ?_ (fun p1 x1 h1 => ?_)
  · exact h1
  · refine Kept.ite ?_ ?_
    · exact State.endOp_kept h1
    · exact State.programPassed_kept (State.endOp_kept h1)

theorem State.fullPass_kept {a : State} {y1 y2} (h1 : Kept true a y1) :
    Kept true a (State.fullPass y1 y2) := by
  unfold State.fullPass
  extract_lets -merge -useContext +onlyGivenNames -underBinder v1
  have k2 : Kept true a v1 := State.endOps_kept h1
  extract_lets -merge -useContext +onlyGivenNames -underBinder v3
  have k4 : Kept true a v3 := by
    refine State.beginPass_kept ?_
    refine Kept.foldl ?_ (fun p5 x5 h5 => ?_)
    · exact k2
    · exact State.commitUnit_kept h5
  extract_lets -merge -useContext +onlyGivenNames -underBinder v6 v7
  have k8 : Kept true a v7.1 := State.allocateEach_kept k4
  extract_lets -merge -useContext +onlyGivenNames -underBinder v9 v10
  have k11 : Kept true a v10 := State.pagesPassed_kept (State.setMd_kept k8)
  extract_lets -merge -useContext +onlyGivenNames -underBinder v12
  have k13 : Kept true a v12 := State.useFree_kept (State.logMap_kept k11)
  extract_lets -merge -useContext +onlyGivenNames -underBinder v14 v15
  have k16 : Kept true a v15 := State.setMd_kept k13
  extract_lets -merge -useContext +onlyGivenNames -underBinder v17
  have k18 : Kept true a v17 := State.journalDurable_kept k16
  exact State.setMd_kept k18

theorem State.softReset_kept {a : State} {y1} (h1 : Kept true a y1) :
    Kept true a (State.softReset y1) := by
  unfold State.softReset
  extract_lets -merge -useContext +onlyGivenNames -underBinder v1
  have k2 : Kept true a v1 := State.leaveLake_kept (State.raise_kept h1)
  extract_lets -merge -useContext +onlyGivenNames -underBinder v3
  have k4 : Kept true a v3 := by
    refine Kept.foldl ?_ (fun p5 x5 h5 => ?_)
    · exact k2
    · exact State.hostPortDown_kept h5
  refine State.clearVolatile_kept ?_
  refine State.storeTime_kept ?_
  refine Kept.foldl ?_ (fun p6 x6 h6 => ?_)
  · exact k4
  · exact State.fullPass_kept h6

theorem State.askDieReset_kept {a : State} {y1 y2} (h1 : Kept true a y1) :
    Kept true a (State.askDieReset y1 y2) := by
  unfold State.askDieReset
  refine Kept.ite ?_ ?_
  · exact Kept.put h1
  · exact State.resetDie_kept h1

theorem State.resetEngine_kept {a : State} {y1 y2 y3} (h1 : Kept true a y1) :
    Kept true a (State.resetEngine y1 y2 y3) := by
  unfold State.resetEngine
  extract_lets -merge -useContext +onlyGivenNames -underBinder v1 v2
  have k3 : Kept true a v2 := by
    refine Kept.foldl ?_ (fun p4 x4 h4 => ?_)
    · exact h1
    · split
      · exact h4
      · refine Kept.ite ?_ ?_
        · exact h4
        · refine Kept.ite ?_ ?_
          · exact State.endCipher_kept h4
          · refine Kept.ite ?_ ?_
            · exact State.endDigest_kept h4
            · exact State.endCodec_kept h4
  extract_lets -merge -useContext +onlyGivenNames -underBinder v5
  have k6 : (∀ z0, Kept true a z0 → Kept true a (v5 z0)) := by
    intro q7 q8
    refine Kept.foldl ?_ (fun p9 x9 h9 => ?_)
    · exact q8
    · extract_lets -merge -useContext +onlyGivenNames -underBinder v10
      refine Kept.ite ?_ ?_
      · exact State.setRegSet_kept h9
      · exact h9
  extract_lets -merge -useContext +onlyGivenNames -underBinder v11
  have k12 : (∀ z0, Kept true a z0 → Kept true a (v11 z0)) := by
    intro q13 q14
    refine Kept.foldl ?_ (fun p15 x15 h15 => ?_)
    · exact q14
    · extract_lets -merge -useContext +onlyGivenNames -underBinder v16 v17 v18 v19
      have k20 : Kept true a v19 := State.setTable_kept h15
      refine Kept.foldl ?_ (fun p21 x21 h21 => ?_)
      · exact k20
      · extract_lets -merge -useContext +onlyGivenNames -underBinder v22
        have k23 : Kept true a v22 := State.refuseSearch_kept h21
        split
        · exact State.post_kept k23
        · exact k23
  extract_lets -merge -useContext +onlyGivenNames -underBinder v24 v25
  have k26 : Kept true a v25 := by
    refine Kept.ite ?_ ?_
    · exact k6 _ k3
    · refine Kept.ite ?_ ?_
      · exact k12 _ k3
      · exact k3
  extract_lets -merge -useContext +onlyGivenNames -underBinder v27
  have k28 : Kept true a v27 := State.walkWhere_kept k26
  extract_lets -merge -useContext +onlyGivenNames -underBinder v29
  have k30 : Kept true a v29 := State.setObj_kept (State.setObj_kept (State.bump_kept k28))
  exact State.raise_kept (State.countReset_kept (State.setObj_kept k30))

theorem State.emptyLog_kept {w : Bool} {a : State} {y1} (h1 : Kept w a y1) :
    Kept w a (State.emptyLog y1) := by
  unfold State.emptyLog
  exact Kept.put h1

theorem State.acknowledge_kept {w : Bool} {a : State} {y1} (h1 : Kept w a y1) :
    Kept w a (State.acknowledge y1) := by
  unfold State.acknowledge
  exact State.driveFaultN_kept (Kept.put h1)

theorem execOwnerWalkComplete_kept {a : State} {y1 y2} (h1 : Kept true a y2) :
    Res.kept true a (execOwnerWalkComplete y1 y2) := by
  unfold execOwnerWalkComplete
  refine Res.kept_ite ?_ ?_
  · exact Res.kept_next (State.retryWaiting_kept (State.walkEnds_kept h1))
  · exact Res.kept_next h1

theorem State.recordDurable_kept {a : State} {y1} (h1 : Kept true a y1) :
    Kept true a (State.recordDurable y1) := by
  unfold State.recordDurable
  refine Kept.foldl ?_ (fun p1 x1 h1 => ?_)
  · exact h1
  · refine Kept.ite ?_ ?_
    · exact h1
    · refine Kept.foldl ?_ (fun p2 x2 h2 => ?_)
      · exact h1
      · refine Kept.ite ?_ ?_
        · extract_lets -merge -useContext +onlyGivenNames -underBinder v3
          exact State.recordFrame_kept (State.missEverywhere_kept h2)
        · exact h2

theorem State.haltCores_kept {w : Bool} {a : State} {y1} (h1 : Kept w a y1) :
    Kept w a (State.haltCores y1) := by
  unfold State.haltCores
  refine Kept.foldl ?_ (fun p1 x1 h1 => ?_)
  · exact h1
  · extract_lets -merge -useContext +onlyGivenNames -underBinder v2 v3
    exact State.setCd_kept h1

theorem State.commitDie_kept {w : Bool} {a : State} {y1 y2} (h1 : Kept w a y1) :
    Kept w a (State.commitDie y1 y2) := by
  unfold State.commitDie
  extract_lets -merge -useContext +onlyGivenNames -underBinder v1 v2 v3 v4
  exact State.issueOp_kept (State.setMd_kept h1)

theorem State.powerLossCommit_kept {a : State} {y1} (h1 : Kept true a y1) :
    Kept true a (State.powerLossCommit y1) := by
  unfold State.powerLossCommit
  refine Kept.ite ?_ ?_
  · exact h1
  · extract_lets -merge -useContext +onlyGivenNames -underBinder v1
    have k2 : Kept true a v1 := State.recordDurable_kept h1
    extract_lets -merge -useContext +onlyGivenNames -underBinder v3
    have k4 : Kept true a v3 := by
      refine Kept.foldl ?_ (fun p5 x5 h5 => ?_)
      · exact k2
      · refine Kept.ite ?_ ?_
        · exact State.flushManifest_kept h5
        · exact h5
    extract_lets -merge -useContext +onlyGivenNames -underBinder v6 v7 v8
    have k9 : Kept true a v8 := State.haltCores_kept (Kept.put k4)
    extract_lets -merge -useContext +onlyGivenNames -underBinder v10 v11
    have k12 : Kept true a v11 := Kept.put k9
    extract_lets -merge -useContext +onlyGivenNames -underBinder v13
    have k14 : Kept true a v13 := State.setObj_kept (State.setObj_kept (State.setObj_kept k12))
    refine Kept.foldl ?_ (fun p15 x15 h15 => ?_)
    · exact k14
    · exact State.commitDie_kept h15

theorem State.spareIn_kept {w : Bool} {a : State} {y1 y2 y3} (h1 : Kept w a y1) :
    Kept w a (State.spareIn y1 y2 y3) := by
  unfold State.spareIn
  exact State.countSpare_kept (State.setObj_kept h1)

theorem State.computeCoreFails_kept {a : State} {y1 y2 y3} (h1 : Kept true a y1) :
    Kept true a (State.computeCoreFails y1 y2 y3) := by
  unfold State.computeCoreFails
  extract_lets -merge -useContext +onlyGivenNames -underBinder v1 v2 v3
  have k4 : Kept true a v3 := by
    refine Kept.foldl ?_ (fun p5 x5 h5 => ?_)
    · exact h1
    · exact State.stopTask_kept h5
  refine Kept.ite ?_ ?_
  · extract_lets -merge -useContext +onlyGivenNames -underBinder v6
    exact State.raise_kept (State.spareIn_kept (State.setObj_kept (State.setObj_kept k4)))
  · extract_lets -merge -useContext +onlyGivenNames -underBinder v7
    exact State.raise_kept (State.setCd_kept k4)

theorem execComputeCoreFailure_kept {a : State} {y1 y2 y3} (h1 : Kept true a y3) :
    Res.kept true a (execComputeCoreFailure y1 y2 y3) := by
  unfold execComputeCoreFailure
  refine onDie_kept ?_ ?_
  · exact h1
  · intro q1
    refine Res.kept_ite ?_ ?_
    · exact Res.kept_fault
    · exact Res.kept_next (State.computeCoreFails_kept h1)

theorem State.countCorrected_kept {w : Bool} {a : State} {y1 y2 y3} (h1 : Kept w a y1) :
    Kept w a (State.countCorrected y1 y2 y3) := by
  unfold State.countCorrected
  extract_lets -merge -useContext +onlyGivenNames -underBinder v1 v2 v3
  have k4 : Kept w a v3 := Kept.put h1
  refine Kept.ite ?_ ?_
  · exact State.raiseOnce_kept k4
  · exact k4

theorem State.linkReport_kept {w : Bool} {a : State} {y1 y2} (h1 : Kept w a y1) :
    Kept w a (State.linkReport y1 y2) := by
  unfold State.linkReport
  extract_lets -merge -useContext +onlyGivenNames -underBinder v1
  have k2 : Kept w a v1 := State.addObj_kept (State.addObj_kept (State.addObj_kept h1))
  extract_lets -merge -useContext +onlyGivenNames -underBinder v3
  have k4 : (∀ z0, Kept w a z0 → Kept w a (v3 z0)) := by
    intro q5 q6
    refine Kept.ite ?_ ?_
    · exact q6
    · exact State.raise_kept (State.spareIn_kept (State.setObj_kept (State.bump_kept q6)))
  refine Kept.foldl ?_ (fun p7 x7 h7 => ?_)
  · exact State.countCorrected_kept k2
  · exact k4 _ h7

theorem execDieHeartbeat_kept {w : Bool} {a : State} {y1 y2} (h1 : Kept w a y2) :
    Res.kept w a (execDieHeartbeat y1 y2) := by
  unfold execDieHeartbeat
  extract_lets -merge -useContext +onlyGivenNames -underBinder v1
  refine Res.kept_next ?_
  refine Kept.foldl ?_ (fun p2 x2 h2 => ?_)
  · refine Kept.foldl ?_ (fun p3 x3 h3 => ?_)
    · exact h1
    · exact State.bump_kept h3
  · exact State.linkReport_kept h2

theorem State.loseDie_kept {a : State} {y1 y2} (h1 : Kept true a y1) :
    Kept true a (State.loseDie y1 y2) := by
  unfold State.loseDie
  refine Kept.ite ?_ ?_
  · exact State.handOver_kept h1
  · extract_lets -merge -useContext +onlyGivenNames -underBinder v1
    have k2 : Kept true a v1 := State.failDie_kept h1
    refine Kept.ite ?_ ?_
    · exact State.nameStandby_kept k2
    · exact k2

theorem execDieSilenceTimeout_kept {a : State} {y1 y2} (h1 : Kept true a y2) :
    Res.kept true a (execDieSilenceTimeout y1 y2) := by
  unfold execDieSilenceTimeout
  refine onDie_kept ?_ ?_
  · exact h1
  · intro q1
    refine Res.kept_ite ?_ ?_
    · exact Res.kept_next h1
    · exact Res.kept_next (State.loseDie_kept h1)

theorem State.stewardHalts_kept {a : State} {y1 y2} (h1 : Kept true a y1) :
    Kept true a (State.stewardHalts y1 y2) := by
  unfold State.stewardHalts
  extract_lets -merge -useContext +onlyGivenNames -underBinder v1 v2 v3
  have k4 : Kept true a v3 := Kept.put h1
  extract_lets -merge -useContext +onlyGivenNames -underBinder v5
  have k6 : Kept true a v5 := State.setObj_kept (State.bump_kept (State.raise_kept k4))
  extract_lets -merge -useContext +onlyGivenNames -underBinder v7
  have k8 : Kept true a v7 := State.interrupt_kept k6
  refine Kept.ite ?_ ?_
  · exact State.loseDie_kept k8
  · extract_lets -merge -useContext +onlyGivenNames -underBinder v9
    refine Kept.ite ?_ ?_
    · exact State.enterSafeHold_kept k8
    · exact k8

theorem execLockstepMismatch_kept {a : State} {y1 y2} (h1 : Kept true a y2) :
    Res.kept true a (execLockstepMismatch y1 y2) := by
  unfold execLockstepMismatch
  refine onDie_kept ?_ ?_
  · exact h1
  · intro q1
    refine Res.kept_ite ?_ ?_
    · exact Res.kept_next h1
    · exact Res.kept_next (State.stewardHalts_kept h1)

theorem State.routeHeld_kept {w : Bool} {a : State} {y1 y2} (h1 : Kept w a y1) :
    Kept w a (State.routeHeld y1 y2) := by
  unfold State.routeHeld
  split
  extract_lets -merge -useContext +onlyGivenNames -underBinder v1 v2
  have k3 : Kept w a v2 := State.setObj_kept (Kept.put h1)
  refine Kept.foldl ?_ (fun p4 x4 h4 => ?_)
  · exact k3
  · exact State.deliver_kept h4

theorem execStewardRestartComplete_kept {w : Bool} {a : State} {y1 y2} (h1 : Kept w a y2) :
    Res.kept w a (execStewardRestartComplete y1 y2) := by
  unfold execStewardRestartComplete
  refine onDie_kept ?_ ?_
  · exact h1
  · intro q1
    refine Res.kept_ite ?_ ?_
    · exact Res.kept_next h1
    · extract_lets -merge -useContext +onlyGivenNames -underBinder v2 v3
      have k4 : Kept w a v3 := Kept.put h1
      exact Res.kept_next (State.routeHeld_kept (State.setObj_kept (State.bump_kept k4)))

theorem State.leadLost_kept {a : State} {y1 y2 y3} (h1 : Kept true a y1) :
    Kept true a (State.leadLost y1 y2 y3) := by
  unfold State.leadLost
  exact State.takeover_kept h1

theorem execLeadSilenceTimeout_kept {a : State} {y1 y2 y3 y4} (h1 : Kept true a y4) :
    Res.kept true a (execLeadSilenceTimeout y1 y2 y3 y4) := by
  unfold execLeadSilenceTimeout
  refine Res.kept_ite ?_ ?_
  · exact Res.kept_next h1
  · refine Res.kept_ite ?_ ?_
    · exact Res.kept_next h1
    · exact Res.kept_next (State.leadLost_kept h1)

theorem execStandbySyncComplete_kept {w : Bool} {a : State} {y1} (h1 : Kept w a y1) :
    Res.kept w a (execStandbySyncComplete y1) := by
  unfold execStandbySyncComplete
  refine Res.kept_ite ?_ ?_
  · exact Res.kept_next h1
  · extract_lets -merge -useContext +onlyGivenNames -underBinder v1 v2
    have k3 : Kept w a v2 := Kept.put h1
    exact Res.kept_next (State.raise_kept k3)

theorem execDieResetTimeout_kept {a : State} {y1 y2} (h1 : Kept true a y2) :
    Res.kept true a (execDieResetTimeout y1 y2) := by
  unfold execDieResetTimeout
  refine onDie_kept ?_ ?_
  · exact h1
  · intro q1
    refine Res.kept_ite ?_ ?_
    · exact Res.kept_next (State.loseDie_kept h1)
    · exact Res.kept_next h1

theorem execEngineStallTimeout_kept {a : State} {y1 y2 y3} (h1 : Kept true a y3) :
    Res.kept true a (execEngineStallTimeout y1 y2 y3) := by
  unfold execEngineStallTimeout
  refine onDie_kept ?_ ?_
  · exact h1
  · intro q1
    refine Res.kept_ite ?_ ?_
    · exact Res.kept_fault
    · refine Res.kept_ite ?_ ?_
      · exact Res.kept_next h1
      · exact Res.kept_next (State.resetEngine_kept h1)

theorem execEmergencyRepeatExpiry_kept {w : Bool} {a : State} {y1 y2} (h1 : Kept w a y2) :
    Res.kept w a (execEmergencyRepeatExpiry y1 y2) := by
  unfold execEmergencyRepeatExpiry
  split
  · exact Res.kept_next h1
  · refine Res.kept_ite ?_ ?_
    · exact Res.kept_next h1
    · refine Res.kept_ite ?_ ?_
      · exact Res.kept_next (Kept.put h1)
      · exact Res.kept_next (State.emitCan_kept (State.setCan_kept h1))

theorem State.repairRow_kept {w : Bool} {a : State} {y1 y2 y3} (h1 : Kept w a y1) :
    Kept w a (State.repairRow y1 y2 y3) := by
  unfold State.repairRow
  extract_lets -merge -useContext +onlyGivenNames -underBinder v1 v2
  refine Kept.ite ?_ ?_
  · extract_lets -merge -useContext +onlyGivenNames -underBinder v3 v4
    have k5 : Kept w a v4 := Kept.put h1
    exact State.raise_kept (State.spareIn_kept (State.setObj_kept (State.bump_kept k5)))
  · exact State.raise_kept h1

theorem State.retireRegion_kept {w : Bool} {a : State} {y1 y2 y3} (h1 : Kept w a y1) :
    Kept w a (State.retireRegion y1 y2 y3) := by
  unfold State.retireRegion
  extract_lets -merge -useContext +onlyGivenNames -underBinder v1
  refine Kept.ite ?_ ?_
  · exact h1
  · extract_lets -merge -useContext +onlyGivenNames -underBinder v2 v3 v4
    have k5 : Kept w a v4 := State.setObj_kept (State.setObj_kept h1)
    extract_lets -merge -useContext +onlyGivenNames -underBinder v6
    have k7 : Kept w a v6 := by
      refine Kept.foldl ?_ (fun p8 x8 h8 => ?_)
      · exact k5
      · split
        · exact State.weir_kept (State.setPool_kept h8)
        · exact h8
    exact State.raise_kept (State.interrupt_kept k7)

theorem State.scrubPass_kept {w : Bool} {a : State} {y1 y2 y3 y4} (h1 : Kept w a y1) :
    Kept w a (State.scrubPass y1 y2 y3 y4) := by
  unfold State.scrubPass
  refine Kept.ite ?_ ?_
  · exact State.setObj_kept (State.setObj_kept h1)
  · exact State.useFree_kept (State.setObj_kept h1)

theorem State.scrubbed_kept {w : Bool} {a : State} {y1 y2 y3} (h1 : Kept w a y1) :
    Kept w a (State.scrubbed y1 y2 y3) := by
  unfold State.scrubbed
  extract_lets -merge -useContext +onlyGivenNames -underBinder v1 v2
  have k3 : Kept w a v2 := State.addObj_kept (State.addObj_kept h1)
  extract_lets -merge -useContext +onlyGivenNames -underBinder v4
  have k5 : Kept w a v4 := State.addObj_kept (State.addObj_kept (State.addObj_kept k3))
  extract_lets -merge -useContext +onlyGivenNames -underBinder v6
  have k7 : Kept w a v6 := Kept.put k5
  extract_lets -merge -useContext +onlyGivenNames -underBinder v8
  have k9 : Kept w a v8 := by
    refine Kept.foldl ?_ (fun p10 x10 h10 => ?_)
    · exact k7
    · exact State.repairRow_kept h10
  extract_lets -merge -useContext +onlyGivenNames -underBinder v11
  have k12 : Kept w a v11 := by
    refine Kept.foldl ?_ (fun p13 x13 h13 => ?_)
    · exact k9
    · exact State.retireRegion_kept h13
  exact State.scrubPass_kept (State.scrubPass_kept (State.countCorrected_kept k12))

theorem execScrubWindowStart_kept {w : Bool} {a : State} {y1 y2 y3} (h1 : Kept w a y3) :
    Res.kept w a (execScrubWindowStart y1 y2 y3) := by
  unfold execScrubWindowStart
  refine onDie_kept ?_ ?_
  · exact h1
  · intro q1
    refine Res.kept_ite ?_ ?_
    · exact Res.kept_next (State.scrubbed_kept h1)
    · exact Res.kept_next h1

theorem State.dieResetDone_kept {a : State} {y1 y2 y3} (h1 : Kept true a y1) :
    Kept true a (State.dieResetDone y1 y2 y3) := by
  unfold State.dieResetDone
  extract_lets -merge -useContext +onlyGivenNames -underBinder v1 v2 v3
  have k4 : Kept true a v3 := State.restoreMaps_kept (State.setObj_kept (Kept.put h1))
  exact State.routeHeld_kept (State.raise_kept (State.refitDie_kept (State.formFirst_kept k4)))

theorem State.finishCommit_kept {a : State} {y1} (h1 : Kept true a y1) :
    Kept true a (State.finishCommit y1) := by
  unfold State.finishCommit
  refine Kept.foldl ?_ (fun p1 x1 h1 => ?_)
  · exact h1
  · exact State.endOps_kept h1

theorem State.mediaCoreFails_kept {w : Bool} {a : State} {y1 y2 y3 y4} (h1 : Kept w a y1) :
    Kept w a (State.mediaCoreFails y1 y2 y3 y4) := by
  unfold State.mediaCoreFails
  extract_lets -merge -useContext +onlyGivenNames -underBinder v1
  have k2 : Kept w a v1 := State.interrupt_kept h1
  refine Kept.ite ?_ ?_
  · exact State.raise_kept (State.spareIn_kept (State.setObj_kept k2))
  · exact State.recomputeMargins_kept (State.raise_kept (State.setObj_kept k2))

theorem execMediaCoreFailure_kept {w : Bool} {a : State} {y1 y2 y3} (h1 : Kept w a y3) :
    Res.kept w a (execMediaCoreFailure y1 y2 y3) := by
  unfold execMediaCoreFailure
  refine onDie_kept ?_ ?_
  · exact h1
  · intro q1
    extract_lets -merge -useContext +onlyGivenNames -underBinder v2
    refine Res.kept_ite ?_ ?_
    · exact Res.kept_fault
    · exact Res.kept_next (State.mediaCoreFails_kept h1)

theorem execDieLinkFailure_kept {w : Bool} {a : State} {y1 y2 y3} (h1 : Kept w a y3) :
    Res.kept w a (execDieLinkFailure y1 y2 y3) := by
  unfold execDieLinkFailure
  refine Res.kept_ite ?_ ?_
  · exact Res.kept_fault
  · refine Res.kept_ite ?_ ?_
    · exact Res.kept_next h1
    · extract_lets -merge -useContext +onlyGivenNames -underBinder v1 v2
      have k3 : Kept w a v2 := Kept.put h1
      exact Res.kept_next (State.raise_kept (State.bump_kept (State.bump_kept k3)))

/-! ### Power -/

theorem State.loseDomain_kept {w : Bool} {a : State} {y1 y2 y3} (h1 : Kept w a y1) :
    Kept w a (State.loseDomain y1 y2 y3) := by
  unfold State.loseDomain
  refine Kept.ite ?_ ?_
  · exact State.setRows_kept h1
  · refine Kept.ite ?_ ?_
    · extract_lets -merge -useContext +onlyGivenNames -underBinder v1 v2
      exact Kept.put h1
    · exact h1

theorem State.switchDomain_kept {w : Bool} {a : State} {y1 y2 y3} (h1 : Kept w a y1) :
    Kept w a (State.switchDomain y1 y2 y3) := by
  unfold State.switchDomain
  extract_lets -merge -useContext +onlyGivenNames -underBinder v1 v2 v3 v4 v5 v6 v7
  have k8 : Kept w a v7 := by
    refine Kept.ite ?_ ?_
    · exact h1
    · refine Kept.ite ?_ ?_
      · exact State.raise_kept (State.setObj_kept h1)
      · exact State.setObj_kept h1
  extract_lets -merge -useContext +onlyGivenNames -underBinder v9
  refine Kept.ite ?_ ?_
  · exact k8
  · refine Kept.ite ?_ ?_
    · exact State.raise_kept (State.bump_kept (State.setPd_kept k8))
    · exact State.raise_kept (State.bump_kept (State.loseDomain_kept (State.setPd_kept k8)))

theorem State.switchDomains_kept {w : Bool} {a : State} {y1} (h1 : Kept w a y1) :
    Kept w a ((State.switchDomains y1).1) := by
  unfold State.switchDomains
  refine Kept.ite1 ?_ ?_
  · exact h1
  · extract_lets -merge -useContext +onlyGivenNames -underBinder v1
    have k2 : Kept w a v1 := by
      refine Kept.foldl ?_ (fun p3 x3 h3 => ?_)
      · exact h1
      · refine Kept.foldl ?_ (fun p4 x4 h4 => ?_)
        · exact h3
        · exact State.switchDomain_kept h4
    extract_lets -merge -useContext +onlyGivenNames -underBinder v5
    have k6 : Kept w a v5 := by
      refine Kept.foldl ?_ (fun p7 x7 h7 => ?_)
      · exact k2
      · exact State.setObj_kept h7
    exact k6

theorem State.moveGrace_kept {w : Bool} {a : State} {y1 y2} (h1 : Kept w a y1) :
    Kept w a (State.moveGrace y1 y2) := by
  unfold State.moveGrace
  extract_lets -merge -useContext +onlyGivenNames -underBinder v1 v2 v3 v4
  have k5 : Kept w a v4 := by
    refine Kept.ite ?_ ?_
    · refine Kept.ite ?_ ?_
      · exact Kept.put h1
      · exact h1
    · refine Kept.ite ?_ ?_
      · exact h1
      · exact Kept.put h1
  refine Kept.ite ?_ ?_
  · exact State.closeAllLater_kept (Kept.put k5)
  · exact k5

theorem State.later_kept {w : Bool} {a : State} {y1 y2 y3 y4 y5} (h1 : Kept w a y1) :
    Kept w a (State.later y1 y2 y3 y4 y5) := by
  unfold State.later
  extract_lets -merge -useContext +onlyGivenNames -underBinder v1
  exact State.setPd_kept h1

theorem State.laterAdd_kept {w : Bool} {a : State} {y1 y2 y3 y4 y5} (h1 : Kept w a y1) :
    Kept w a (State.laterAdd y1 y2 y3 y4 y5) := by
  unfold State.laterAdd
  exact State.later_kept h1

theorem State.announce_kept {w : Bool} {a : State} {y1} (h1 : Kept w a y1) :
    Kept w a (State.announce y1) := by
  unfold State.announce
  extract_lets -merge -useContext +onlyGivenNames -underBinder v1 v2
  refine Kept.ite ?_ ?_
  · exact h1
  · extract_lets -merge -useContext +onlyGivenNames -underBinder v3 v4
    have k5 : Kept w a v4 := Kept.put h1
    extract_lets -merge -useContext +onlyGivenNames -underBinder v6
    have k7 : Kept w a v6 := State.moveGrace_kept k5
    extract_lets -merge -useContext +onlyGivenNames -underBinder v8 v9 v10
    have k11 : Kept w a v10 := State.sendAllPorts_kept k7
    extract_lets -merge -useContext +onlyGivenNames -underBinder v12
    have k13 : Kept w a v12 := by
      refine Kept.ite ?_ ?_
      · exact k11
      · exact State.recordInTakes_kept k11
    extract_lets -merge -useContext +onlyGivenNames -underBinder v14 v15
    have k16 : Kept w a v15 := State.later_kept (State.later_kept k13)
    extract_lets -merge -useContext +onlyGivenNames -underBinder v17
    have k18 : Kept w a v17 := by
      refine Kept.ite ?_ ?_
      · exact k16
      · exact State.later_kept k16
    extract_lets -merge -useContext +onlyGivenNames -underBinder v19
    have k20 : Kept w a v19 := by
      refine Kept.ite ?_ ?_
      · exact State.laterAdd_kept k18
      · exact k18
    extract_lets -merge -useContext +onlyGivenNames -underBinder v21
    have k22 : Kept w a v21 := by
      refine Kept.ite ?_ ?_
      · exact State.addSmart_kept k20
      · exact k20
    split
    · exact State.raise_kept k22
    · exact k22

theorem State.setStep_kept {w : Bool} {a : State} {y1 y2} (h1 : Kept w a y1) :
    Kept w a (State.setStep y1 y2) := by
  unfold State.setStep
  extract_lets -merge -useContext +onlyGivenNames -underBinder v1 v2
  have k3 : Kept w a v2 := Kept.put h1
  extract_lets -merge -useContext +onlyGivenNames -underBinder v4
  have k5 : Kept w a v4 := State.setObj_kept (State.setObj_kept (State.setObj_kept k3))
  extract_lets -merge -useContext +onlyGivenNames -underBinder v6
  have k7 : Kept w a v6 := by
    refine Kept.ite ?_ ?_
    · exact State.addSmart_kept k5
    · exact k5
  refine State.raise_kept ?_
  refine Kept.ite ?_ ?_
  · exact State.bump_kept k7
  · exact k7

theorem State.enforce_kept {w : Bool} {a : State} {y1} (h1 : Kept w a y1) :
    Kept w a (State.enforce y1) := by
  unfold State.enforce
  extract_lets -merge -useContext +onlyGivenNames -underBinder v1 v2 v3
  refine Kept.ite ?_ ?_
  · refine Kept.ite ?_ ?_
    · exact State.setStep_kept h1
    · exact h1
  · refine Kept.ite ?_ ?_
    · refine Kept.ite ?_ ?_
      · exact State.setStep_kept h1
      · exact h1
    · split
      · refine Kept.ite ?_ ?_
        · exact State.setStep_kept h1
        · exact h1
      · exact h1

theorem State.applyGovernor_kept {w : Bool} {a : State} {y1} (h1 : Kept w a y1) :
    Kept w a (State.applyGovernor y1) := by
  unfold State.applyGovernor
  extract_lets -merge -useContext +onlyGivenNames -underBinder v1 v2 v3 v4 v5
  have k6 : Kept w a v5 := Kept.put h1
  extract_lets -merge -useContext +onlyGivenNames -underBinder v7
  refine Kept.foldl ?_ (fun p8 x8 h8 => ?_)
  · exact k6
  · exact State.setObj_kept (State.setObj_kept (State.setObj_kept (State.setObj_kept h8)))

theorem State.judgeRails_kept {w : Bool} {a : State} {y1 y2 y3} (h1 : Kept w a y1) :
    Kept w a (State.judgeRails y1 y2 y3) := by
  unfold State.judgeRails
  extract_lets -merge -useContext +onlyGivenNames -underBinder v1 v2 v3 v4 v5
  have k6 : Kept w a v5 := by
    refine Kept.foldl ?_ (fun p7 x7 h7 => ?_)
    · exact h1
    · exact State.laterAdd_kept h7
  extract_lets -merge -useContext +onlyGivenNames -underBinder v8
  have k9 : Kept w a v8 := by
    refine Kept.foldl ?_ (fun p10 x10 h10 => ?_)
    · exact k6
    · exact State.laterAdd_kept h10
  extract_lets -merge -useContext +onlyGivenNames -underBinder v11
  have k12 : Kept w a v11 := by
    refine Kept.ite ?_ ?_
    · exact k9
    · exact State.raiseOnce_kept k9
  refine Kept.ite ?_ ?_
  · exact k12
  · exact State.raiseOnce_kept k12

theorem State.judgeSensors_kept {w : Bool} {a : State} {y1 y2 y3} (h1 : Kept w a y1) :
    Kept w a (State.judgeSensors y1 y2 y3) := by
  unfold State.judgeSensors
  extract_lets -merge -useContext +onlyGivenNames -underBinder v1 v2 v3 v4
  have k5 : Kept w a v4 := State.setPd_kept h1
  refine Kept.foldl ?_ (fun p6 x6 h6 => ?_)
  · exact k5
  · exact State.laterAdd_kept (State.raise_kept h6)

theorem State.laterMax_kept {w : Bool} {a : State} {y1 y2 y3 y4 y5} (h1 : Kept w a y1) :
    Kept w a (State.laterMax y1 y2 y3 y4 y5) := by
  unfold State.laterMax
  exact State.later_kept h1

theorem State.govern_kept {w : Bool} {a : State} {y1} (h1 : Kept w a y1) :
    Kept w a (State.govern y1) := by
  unfold State.govern
  extract_lets -merge -useContext +onlyGivenNames -underBinder v1 v2 v3 v4 v5 v6
  exact Kept.put h1

theorem State.judgeRequest_kept {w : Bool} {a : State} {y1} (h1 : Kept w a y1) :
    Kept w a (State.judgeRequest y1) := by
  unfold State.judgeRequest
  extract_lets -merge -useContext +onlyGivenNames -underBinder v1 v2
  refine Kept.ite ?_ ?_
  · exact Kept.put h1
  · refine Kept.ite ?_ ?_
    · exact State.laterAdd_kept (Kept.put h1)
    · exact Kept.put h1

theorem State.addNs_kept {w : Bool} {a : State} {y1 y2 y3 y4} (h1 : Kept w a y1) :
    Kept w a (State.addNs y1 y2 y3 y4) := by
  unfold State.addNs
  extract_lets -merge -useContext +onlyGivenNames -underBinder v1
  exact State.setPd_kept h1

theorem State.addTimes_kept {w : Bool} {a : State} {y1 y2} (h1 : Kept w a y1) :
    Kept w a (State.addTimes y1 y2) := by
  unfold State.addTimes
  extract_lets -merge -useContext +onlyGivenNames -underBinder v1 v2
  have k3 : Kept w a v2 := by
    refine Kept.foldl ?_ (fun p4 x4 h4 => ?_)
    · exact h1
    · extract_lets -merge -useContext +onlyGivenNames -underBinder v5 v6 v7
      have k8 : Kept w a v7 := State.addNs_kept h4
      extract_lets -merge -useContext +onlyGivenNames -underBinder v9
      have k10 : Kept w a v9 := by
        refine Kept.ite ?_ ?_
        · exact State.addNs_kept k8
        · exact k8
      extract_lets -merge -useContext +onlyGivenNames -underBinder v11
      have k12 : Kept w a v11 := by
        refine Kept.ite ?_ ?_
        · exact State.addNs_kept k10
        · exact k10
      refine Kept.ite ?_ ?_
      · exact State.addNs_kept k12
      · exact k12
  extract_lets -merge -useContext +onlyGivenNames -underBinder v13
  have k14 : Kept w a v13 := by
    refine Kept.foldl ?_ (fun p15 x15 h15 => ?_)
    · exact k3
    · refine Kept.ite ?_ ?_
      · exact State.addNs_kept h15
      · exact h15
  extract_lets -merge -useContext +onlyGivenNames -underBinder v16
  have k17 : Kept w a v16 := by
    refine Kept.ite ?_ ?_
    · exact k14
    · exact State.addNs_kept k14
  refine Kept.ite ?_ ?_
  · exact k17
  · extract_lets -merge -useContext +onlyGivenNames -underBinder v18 v19
    have k20 : Kept w a v19 := by
      refine Kept.ite ?_ ?_
      · exact State.addNs_kept k17
      · exact k17
    extract_lets -merge -useContext +onlyGivenNames -underBinder v21
    have k22 : Kept w a v21 := by
      refine Kept.ite ?_ ?_
      · exact State.addNs_kept k20
      · exact k20
    extract_lets -merge -useContext +onlyGivenNames -underBinder v23
    have k24 : Kept w a v23 := by
      refine Kept.ite ?_ ?_
      · exact State.addNs_kept k22
      · exact k22
    refine Kept.ite ?_ ?_
    · exact k24
    · exact State.addNs_kept k24

theorem State.crossThresholds_kept {w : Bool} {a : State} {y1 y2} (h1 : Kept w a y1) (h2 : Kept w a y2) :
    Kept w a (State.crossThresholds y1 y2) := by
  unfold State.crossThresholds
  extract_lets -merge -useContext +onlyGivenNames -underBinder v1 v2
  refine Kept.foldl ?_ (fun p3 x3 h3 => ?_)
  · exact h1
  · extract_lets -merge -useContext +onlyGivenNames -underBinder v4
    refine Kept.ite ?_ ?_
    · exact State.asyncEvent_kept h3
    · exact h3

theorem State.houseRound_kept {w : Bool} {a : State} {y1 y2 y3} (h1 : Kept w a y1) :
    Kept w a (State.houseRound y1 y2 y3) := by
  unfold State.houseRound
  extract_lets -merge -useContext +onlyGivenNames -underBinder v1 v2 v3 v4 v5
  have k6 : Kept w a v5 := State.judgeRails_kept (State.judgeSensors_kept (State.setPd_kept h1))
  extract_lets -merge -useContext +onlyGivenNames -underBinder v7
  have k8 : Kept w a v7 := State.laterAdd_kept k6
  extract_lets -merge -useContext +onlyGivenNames -underBinder v9
  have k10 : Kept w a v9 := by
    refine Kept.ite ?_ ?_
    · exact State.raise_kept (State.laterAdd_kept k8)
    · exact k8
  extract_lets -merge -useContext +onlyGivenNames -underBinder v11 v12 v13 v14
  have k15 : Kept w a v14 := State.laterMax_kept (State.later_kept k10)
  extract_lets -merge -useContext +onlyGivenNames -underBinder v16
  have k17 : Kept w a v16 := by
    refine Kept.foldl ?_ (fun p18 x18 h18 => ?_)
    · exact k15
    · exact State.laterMax_kept h18
  extract_lets -merge -useContext +onlyGivenNames -underBinder v19
  have k20 : Kept w a v19 := State.laterMax_kept (State.laterMax_kept k17)
  extract_lets -merge -useContext +onlyGivenNames -underBinder v21 v22 v23
  have k24 : Kept w a v23 := State.later_kept k20
  extract_lets -merge -useContext +onlyGivenNames -underBinder v25 v26 v27 v28 v29 v30
  have k31 : Kept w a v30 := Kept.put k24
  extract_lets -merge -useContext +onlyGivenNames -underBinder v32
  have k33 : Kept w a v32 := by
    refine Kept.ite ?_ ?_
    · exact State.laterAdd_kept k31
    · exact k31
  extract_lets -merge -useContext +onlyGivenNames -underBinder v34
  have k35 : Kept w a v34 := by
    refine Kept.ite ?_ ?_
    · exact State.govern_kept (State.judgeRequest_kept k33)
    · exact k33
  extract_lets -merge -useContext +onlyGivenNames -underBinder v36 v37 v38
  have k39 : Kept w a v38 := State.announce_kept (Kept.put k35)
  refine State.addTimes_kept ?_
  refine State.crossThresholds_kept ?_ ?_
  · exact k39
  · exact h1

theorem execHousekeepingRound_kept {w : Bool} {a : State} {y1 y2 y3} (h1 : Kept w a y3) :
    Res.kept w a (execHousekeepingRound y1 y2 y3) := by
  unfold execHousekeepingRound
  refine onDie_kept ?_ ?_
  · exact h1
  · intro q1
    refine Res.kept_ite ?_ ?_
    · exact Res.kept_next h1
    · exact Res.kept_next (State.houseRound_kept h1)

theorem State.houseReadout_kept {w : Bool} {a : State} {y1 y2} (h1 : Kept w a y1) :
    Kept w a (State.houseReadout y1 y2) := by
  unfold State.houseReadout
  extract_lets -merge -useContext +onlyGivenNames -underBinder v1 v2 v3 v4 v5 v6 v7 v8 v9 v10
  have k11 : Kept w a v10 := by
    refine Kept.foldl ?_ (fun p12 x12 h12 => ?_)
    · exact h1
    · exact State.setObj_kept h12
  extract_lets -merge -useContext +onlyGivenNames -underBinder v13
  have k14 : Kept w a v13 := by
    refine Kept.foldl ?_ (fun p15 x15 h15 => ?_)
    · exact k11
    · exact State.setObj_kept h15
  extract_lets -merge -useContext +onlyGivenNames -underBinder v16
  have k17 : Kept w a v16 := by
    refine Kept.foldl ?_ (fun p18 x18 h18 => ?_)
    · exact k14
    · exact State.useFree_kept (State.setObj_kept h18)
  extract_lets -merge -useContext +onlyGivenNames -underBinder v19 v20
  have k21 : Kept w a v20 := by
    refine Kept.foldl ?_ (fun p22 x22 h22 => ?_)
    · exact k17
    · exact State.addSmart_kept h22
  extract_lets -merge -useContext +onlyGivenNames -underBinder v23
  exact State.setDom_kept (State.setPd_kept k21)

theorem execHousekeepingReadout_kept {w : Bool} {a : State} {y1 y2} (h1 : Kept w a y2) :
    Res.kept w a (execHousekeepingReadout y1 y2) := by
  unfold execHousekeepingReadout
  refine onDie_kept ?_ ?_
  · exact h1
  · intro q1
    refine Res.kept_ite ?_ ?_
    · exact Res.kept_next (State.houseReadout_kept h1)
    · exact Res.kept_next h1

theorem execGraceExpiry_kept {w : Bool} {a : State} {y1} (h1 : Kept w a y1) :
    Res.kept w a (execGraceExpiry y1) := by
  unfold execGraceExpiry
  split
  · exact Res.kept_next h1
  · extract_lets -merge -useContext +onlyGivenNames -underBinder v1 v2
    have k3 : Kept w a v2 := Kept.put h1
    refine Res.kept_ite ?_ ?_
    · exact Res.kept_next h1
    · refine Res.kept_ite ?_ ?_
      · exact Res.kept_next (Kept.put k3)
      · exact Res.kept_next (Kept.put k3)

theorem State.trip_kept {a : State} {y1 y2 y3 y4} (h1 : Kept true a y1) :
    Kept true a (State.trip y1 y2 y3 y4) := by
  unfold State.trip
  extract_lets -merge -useContext +onlyGivenNames -underBinder v1 v2 v3
  have k4 : Kept true a v3 := Kept.put h1
  extract_lets -merge -useContext +onlyGivenNames -underBinder v5
  have k6 : Kept true a v5 := State.raise_kept (State.driveFaultN_kept (State.emit_kept k4))
  extract_lets -merge -useContext +onlyGivenNames -underBinder v7
  have k8 : Kept true a v7 := State.powerLossCommit_kept k6
  extract_lets -merge -useContext +onlyGivenNames -underBinder v9 v10
  have k11 : Kept true a v10 := State.setObj_kept (State.bump_kept (State.setDom_kept k8))
  refine Kept.foldl ?_ (fun p12 x12 h12 => ?_)
  · exact k11
  · exact State.setObj_kept (State.setPd_kept h12)

theorem execTripCheck_kept {a : State} {y1 y2 y3} (h1 : Kept true a y3) :
    Res.kept true a (execTripCheck y1 y2 y3) := by
  unfold execTripCheck
  refine onDie_kept ?_ ?_
  · exact h1
  · intro q1
    split
    · exact Res.kept_next h1
    · refine Res.kept_ite ?_ ?_
      · exact Res.kept_next h1
      · exact Res.kept_next (State.trip_kept h1)

/-! ### Accept -/

theorem State.logCommit_kept {w : Bool} {a : State} {y1 y2 y3 y4 y5} (h1 : Kept w a y1) :
    Kept w a (State.logCommit y1 y2 y3 y4 y5) := by
  unfold State.logCommit
  extract_lets -merge -useContext +onlyGivenNames -underBinder v1
  exact Kept.put h1

theorem State.endCommit_kept {w : Bool} {a : State} {y1 y2 y3 y4} (h1 : Kept w a y1) :
    Kept w a (State.endCommit y1 y2 y3 y4) := by
  unfold State.endCommit
  refine Kept.ite ?_ ?_
  · exact h1
  · extract_lets -merge -useContext +onlyGivenNames -underBinder v1 v2
    have k3 : Kept w a v2 := State.setSlot_kept h1
    extract_lets -merge -useContext +onlyGivenNames -underBinder v4
    refine Kept.ite ?_ ?_
    · exact State.setSession_kept k3
    · exact k3

theorem State.dropCommit_kept {w : Bool} {a : State} {y1 y2 y3 y4 y5} (h1 : Kept w a y1) :
    Kept w a (State.dropCommit y1 y2 y3 y4 y5) := by
  unfold State.dropCommit
  extract_lets -merge -useContext +onlyGivenNames -underBinder v1
  have k2 : Kept w a v1 := State.logCommit_kept (State.endCommit_kept h1)
  split
  · exact State.bump_kept k2
  · exact k2

theorem State.fitAll_kept {w : Bool} {a : State} {y1 y2} (h1 : Kept w a y1) :
    Kept w a ((State.fitAll y1 y2).1) := by
  unfold State.fitAll
  extract_lets pools doms tables wins
  have k1 : Kept w a pools.1 := Kept.foldl1 h1 fun _ _ hp => by
    dsimp only
    exact State.refitDie_kept hp
  clear_value pools
  have k2 : Kept w a doms.1 := State.switchDomains_kept k1
  clear_value doms
  have k3 : Kept w a wins.1 := State.fitWindows_kept (State.fitTables_kept k2)
  exact k3

theorem State.replaceImplicit_kept {w : Bool} {a : State} {y1 y2 y3} (h1 : Kept w a y1) :
    Kept w a (State.replaceImplicit y1 y2 y3) := by
  unfold State.replaceImplicit
  refine Kept.ite ?_ ?_
  · exact h1
  · extract_lets -merge -useContext +onlyGivenNames -underBinder v1
    exact Kept.put h1

theorem State.acceptCommit_kept {w : Bool} {a : State} {y1 y2} (h1 : Kept w a y1) :
    Kept w a ((((State.acceptCommit y1 y2).2).2).2) := by
  unfold State.acceptCommit
  extract_lets -merge -useContext +onlyGivenNames -underBinder v1
  refine Kept.ite222 ?_ ?_
  · dsimp -zeta only
    exact State.dropCommit_kept h1
  · split
    · exact State.endCommit_kept h1
    · refine Kept.ite222 ?_ ?_
      · dsimp -zeta only
        exact State.dropCommit_kept h1
      · refine Kept.ite222 ?_ ?_
        · dsimp -zeta only
          exact State.dropCommit_kept h1
        · extract_lets -merge -useContext +onlyGivenNames -underBinder v2
          have k3 : Kept w a v2 := State.replaceImplicit_kept h1
          extract_lets -merge -useContext +onlyGivenNames -underBinder v4 v5 v6
          have k7 : Kept w a v6 := State.admitOn_kept k3
          extract_lets -merge -useContext +onlyGivenNames -underBinder v8 v9
          have k10 : Kept w a v9 := Kept.put k3
          extract_lets -merge -useContext +onlyGivenNames -underBinder v11 v12 v13
          have k14 : Kept w a v13 := by
            refine Kept.ite ?_ ?_
            · exact Kept.put k10
            · exact k10
          extract_lets -merge -useContext +onlyGivenNames -underBinder v15
          have k16 : Kept w a v15 := by
            refine Kept.ite ?_ ?_
            · refine State.openTake_kept ?_ ?_
              · exact k14
              · exact k7
            · exact k14
          extract_lets -merge -useContext +onlyGivenNames -underBinder v17 v18
          have k19 : Kept w a v18 := State.setSlot_kept k16
          extract_lets -merge -useContext +onlyGivenNames -underBinder v20 v21
          have k22 : Kept w a v21 := by
            refine Kept.ite ?_ ?_
            · exact k16
            · exact State.setSession_kept k19
          exact k22

theorem State.commitTxn_kept {w : Bool} {a : State} {y1 y2 y3 y4} (h1 : Kept w a y1) :
    Kept w a ((((State.commitTxn y1 y2 y3 y4).2).2).2) := by
  unfold State.commitTxn
  refine Kept.ite222 ?_ ?_
  · exact h1
  · extract_lets -merge -useContext +onlyGivenNames -underBinder v1
    exact State.acceptCommit_kept h1

/-! ### Boot -/

theorem State.bootLog_kept {w : Bool} {a : State} {y1 y2 y3} (h1 : Kept w a y1) :
    Kept w a (State.bootLog y1 y2 y3) := by
  unfold State.bootLog
  extract_lets -merge -useContext +onlyGivenNames -underBinder v1
  exact State.setDom_kept h1

theorem State.extendBoot_kept {w : Bool} {a : State} {y1 y2 y3 y4} (h1 : Kept w a y1) :
    Kept w a (State.extendBoot y1 y2 y3 y4) := by
  unfold State.extendBoot
  extract_lets -merge -useContext +onlyGivenNames -underBinder v1
  have k2 : Kept w a v1 := State.extend_kept h1
  exact Kept.put k2

theorem State.romAttempt_kept {w : Bool} {a : State} {y1 y2} (h1 : Kept w a y1) :
    Kept w a (State.romAttempt y1 y2) := by
  unfold State.romAttempt
  extract_lets -merge -useContext +onlyGivenNames -underBinder v1 v2 v3 v4
  have k5 : Kept w a v4 := Kept.put h1
  extract_lets -merge -useContext +onlyGivenNames -underBinder v6
  have k7 : Kept w a v6 := State.setObj_kept (State.setObj_kept k5)
  exact State.bootLog_kept (State.extendBoot_kept k7)

theorem State.applyProfile_kept {w : Bool} {a : State} {y1 y2 y3} (h1 : Kept w a y1) :
    Kept w a (State.applyProfile y1 y2 y3) := by
  unfold State.applyProfile
  refine Kept.foldl ?_ (fun p1 x1 h1 => ?_)
  · exact h1
  · extract_lets -merge -useContext +onlyGivenNames -underBinder v2 v3
    have k4 : Kept w a v3 := by
      refine Kept.foldl ?_ (fun p5 x5 h5 => ?_)
      · exact h1
      · exact State.setObj_kept h5
    exact State.setObj_kept k4

theorem State.startRom_kept {w : Bool} {a : State} {y1} (h1 : Kept w a y1) :
    Kept w a (State.startRom y1) := by
  unfold State.startRom
  extract_lets -merge -useContext +onlyGivenNames -underBinder v1 v2 v3 v4 v5 v6 v7 v8
  have k9 : Kept w a v8 := State.setObj_kept (State.setObj_kept (Kept.put h1))
  extract_lets -merge -useContext +onlyGivenNames -underBinder v10
  have k11 : Kept w a v10 := by
    refine State.romAttempt_kept ?_
    refine Kept.foldl ?_ (fun p12 x12 h12 => ?_)
    · exact k9
    · exact State.setObj_kept h12
  refine Kept.ite ?_ ?_
  · refine Kept.foldl ?_ (fun p13 x13 h13 => ?_)
    · exact k11
    · exact State.setObj_kept (State.setPd_kept h13)
  · extract_lets -merge -useContext +onlyGivenNames -underBinder v14
    have k15 : Kept w a v14 := State.bootLog_kept (State.applyProfile_kept k11)
    refine Kept.ite ?_ ?_
    · exact k15
    · exact State.raise_kept k15

theorem State.plwFalls_kept {a : State} {y1} (h1 : Kept true a y1) :
    Kept true a (State.plwFalls y1) := by
  unfold State.plwFalls
  extract_lets -merge -useContext +onlyGivenNames -underBinder v1 v2
  have k3 : Kept true a v2 := Kept.put h1
  refine Kept.ite ?_ ?_
  · exact k3
  · refine Kept.ite ?_ ?_
    · exact State.powerLossCommit_kept k3
    · extract_lets -merge -useContext +onlyGivenNames -underBinder v4
      have k5 : Kept true a v4 := by
        refine Kept.foldl ?_ (fun p6 x6 h6 => ?_)
        · exact k3
        · exact State.setMd_kept h6
      exact Kept.put k5

theorem execPlwNAssert_kept {a : State} {y1 y2 y3} (h1 : Kept true a y3) :
    Res.kept true a (execPlwNAssert y1 y2 y3) := by
  unfold execPlwNAssert
  refine Res.kept_ite ?_ ?_
  · exact Res.kept_next h1
  · refine Res.kept_ite ?_ ?_
    · exact Res.kept_next h1
    · exact Res.kept_next (State.plwFalls_kept h1)

theorem State.holdupMoves_kept {a : State} {y1 y2} (h1 : Kept true a y1) :
    Kept true a (State.holdupMoves y1 y2) := by
  unfold State.holdupMoves
  extract_lets -merge -useContext +onlyGivenNames -underBinder v1 v2
  have k3 : Kept true a v2 := State.setObj_kept (Kept.put h1)
  refine Kept.ite ?_ ?_
  · exact k3
  · refine Kept.ite ?_ ?_
    · exact State.retryStalled_kept (State.settleWrites_kept k3)
    · refine Kept.foldl ?_ (fun p4 x4 h4 => ?_)
      · exact k3
      · exact State.drainDie_kept h4

theorem execHoldupOkChange_kept {a : State} {y1 y2 y3} (h1 : Kept true a y3) :
    Res.kept true a (execHoldupOkChange y1 y2 y3) := by
  unfold execHoldupOkChange
  refine Res.kept_ite ?_ ?_
  · exact Res.kept_next h1
  · exact Res.kept_next (State.holdupMoves_kept h1)

theorem execPowerOn_kept {a : State} {y1} (h1 : Kept true a y1) :
    Res.kept true a (execPowerOn y1) := by
  unfold execPowerOn
  extract_lets -merge -useContext +onlyGivenNames -underBinder v1 v2
  have k3 : Kept true a v2 := State.clearVolatile_kept (Kept.put h1)
  exact Res.kept_next (Kept.put k3)

theorem execAonPowerFail_kept {a : State} {y1} (h1 : Kept true a y1) :
    Res.kept true a (execAonPowerFail y1) := by
  unfold execAonPowerFail
  extract_lets -merge -useContext +onlyGivenNames -underBinder v1
  have k2 : Kept true a v1 := by
    refine Kept.ite ?_ ?_
    · exact State.emit_kept h1
    · exact h1
  extract_lets -merge -useContext +onlyGivenNames -underBinder v3 v4 v5
  have k6 : Kept true a v5 := Kept.put k2
  extract_lets -merge -useContext +onlyGivenNames -underBinder v7
  have k8 : Kept true a v7 := State.clearVolatile_kept k6
  exact Res.kept_next (Kept.put k8)

theorem execPorstNAssert_kept {a : State} {y1 y2} (h1 : Kept true a y2) :
    Res.kept true a (execPorstNAssert y1 y2) := by
  unfold execPorstNAssert
  refine Res.kept_ite ?_ ?_
  · exact Res.kept_next h1
  · extract_lets -merge -useContext +onlyGivenNames -underBinder v1
    have k2 : Kept true a v1 := State.clearVolatile_kept h1
    exact Res.kept_next (Kept.put k2)

theorem execPorstNRelease_kept {w : Bool} {a : State} {y1 y2} (h1 : Kept w a y2) :
    Res.kept w a (execPorstNRelease y1 y2) := by
  unfold execPorstNRelease
  refine Res.kept_ite ?_ ?_
  · exact Res.kept_next h1
  · exact Res.kept_next (State.startRom_kept (Kept.put h1))

theorem State.retryRom_kept {w : Bool} {a : State} {y1 y2} (h1 : Kept w a y1) :
    Kept w a (State.retryRom y1 y2) := by
  unfold State.retryRom
  extract_lets -merge -useContext +onlyGivenNames -underBinder v1 v2
  have k3 : Kept w a v2 := Kept.put h1
  refine Kept.ite ?_ ?_
  · exact State.romAttempt_kept k3
  · exact Kept.put k3

theorem State.loadFirstStage_kept {w : Bool} {a : State} {y1 y2} (h1 : Kept w a y1) :
    Kept w a (State.loadFirstStage y1 y2) := by
  unfold State.loadFirstStage
  extract_lets -merge -useContext +onlyGivenNames -underBinder v1 v2
  have k3 : Kept w a v2 := by
    refine Kept.ite ?_ ?_
    · exact State.raise_kept h1
    · exact h1
  extract_lets -merge -useContext +onlyGivenNames -underBinder v4 v5 v6 v7
  have k8 : Kept w a v7 := State.extendBoot_kept (State.extendBoot_kept (State.setObj_kept k3))
  split
  · exact State.retryRom_kept k8
  · extract_lets -merge -useContext +onlyGivenNames -underBinder v9 v10 v11 v12
    have k13 : Kept w a v12 := State.setObj_kept (State.setObj_kept (State.setObj_kept (State.setObj_kept k8)))
    extract_lets -merge -useContext +onlyGivenNames -underBinder v14
    have k15 : Kept w a v14 := State.setObj_kept (State.setObj_kept (State.setObj_kept k13))
    exact State.bootLog_kept (State.bootLog_kept (Kept.put k15))

theorem execFirstStageLoaded_kept {w : Bool} {a : State} {y1 y2} (h1 : Kept w a y2) :
    Res.kept w a (execFirstStageLoaded y1 y2) := by
  unfold execFirstStageLoaded
  refine Res.kept_ite ?_ ?_
  · exact Res.kept_next h1
  · refine Res.kept_ite ?_ ?_
    · exact Res.kept_next (State.retryRom_kept h1)
    · exact Res.kept_next (State.loadFirstStage_kept h1)

theorem State.dictionaryUp_kept {w : Bool} {a : State} {y1 y2} (h1 : Kept w a y1) :
    Kept w a (State.dictionaryUp y1 y2) := by
  unfold State.dictionaryUp
  extract_lets -merge -useContext +onlyGivenNames -underBinder v1
  have k2 : Kept w a v1 := State.bump_kept (State.setObj_kept (State.setObj_kept h1))
  extract_lets -merge -useContext +onlyGivenNames -underBinder v3 v4
  have k5 : Kept w a v4 := State.bootLog_kept (Kept.put k2)
  extract_lets -merge -useContext +onlyGivenNames -underBinder v6
  have k7 : Kept w a v6 := State.heartbeat_kept (State.setObj_kept k5)
  extract_lets -merge -useContext +onlyGivenNames -underBinder v8
  have k9 : Kept w a v8 := by
    refine Kept.ite ?_ ?_
    · exact k7
    · exact State.raise_kept k7
  exact State.driveFaultN_kept k9

theorem execDictionaryReady_kept {w : Bool} {a : State} {y1 y2} (h1 : Kept w a y2) :
    Res.kept w a (execDictionaryReady y1 y2) := by
  unfold execDictionaryReady
  refine Res.kept_ite ?_ ?_
  · exact Res.kept_next h1
  · exact Res.kept_next (State.dictionaryUp_kept h1)

theorem State.liftProtect_kept {w : Bool} {a : State} {y1 y2} (h1 : Kept w a y1) :
    Kept w a (State.liftProtect y1 y2) := by
  unfold State.liftProtect
  exact State.emit_kept (Kept.put h1)

theorem State.firmwareRuns_kept {w : Bool} {a : State} {y1 y2} (h1 : Kept w a y1) :
    Kept w a (State.firmwareRuns y1 y2) := by
  unfold State.firmwareRuns
  extract_lets -merge -useContext +onlyGivenNames -underBinder v1 v2 v3
  have k4 : Kept w a v3 := State.extendBoot_kept h1
  extract_lets -merge -useContext +onlyGivenNames -underBinder v5 v6
  have k7 : Kept w a v6 := Kept.put k4
  refine State.bootLog_kept ?_
  refine Kept.foldl ?_ (fun p8 x8 h8 => ?_)
  · exact k7
  · exact State.liftProtect_kept (State.formPf_kept (State.formFirst_kept (State.setObj_kept h8)))

theorem execFirmwareVerified_kept {w : Bool} {a : State} {y1 y2} (h1 : Kept w a y2) :
    Res.kept w a (execFirmwareVerified y1 y2) := by
  unfold execFirmwareVerified
  split
  · exact Res.kept_next h1
  · refine Res.kept_ite ?_ ?_
    · exact Res.kept_next h1
    · refine Res.kept_ite ?_ ?_
      · exact Res.kept_next (State.retryRom_kept h1)
      · exact Res.kept_next (State.firmwareRuns_kept h1)

theorem State.followDies_kept {w : Bool} {a : State} {y1} (h1 : Kept w a y1) :
    Kept w a (State.followDies y1) := by
  unfold State.followDies
  extract_lets -merge -useContext +onlyGivenNames -underBinder v1
  refine Kept.ite ?_ ?_
  · exact h1
  · refine Kept.ite ?_ ?_
    · refine Kept.ite ?_ ?_
      · exact h1
      · exact State.setObj_kept (State.setObj_kept h1)
    · refine Kept.ite ?_ ?_
      · refine Kept.ite ?_ ?_
        · exact h1
        · exact State.setObj_kept (State.setObj_kept h1)
      · exact h1

theorem State.bootFails_kept {a : State} {y1 y2} (h1 : Kept true a y1) :
    Kept true a (State.bootFails y1 y2) := by
  unfold State.bootFails
  exact State.followDies_kept (State.loseDie_kept h1)

theorem State.reportBoot_kept {w : Bool} {a : State} {y1 y2} (h1 : Kept w a y1) :
    Kept w a (State.reportBoot y1 y2) := by
  unfold State.reportBoot
  extract_lets -merge -useContext +onlyGivenNames -underBinder v1
  exact State.setObj_kept h1

theorem State.dramTrained_kept {w : Bool} {a : State} {y1 y2 y3 y4 y5} (h1 : Kept w a y1) :
    Kept w a (State.dramTrained y1 y2 y3 y4 y5) := by
  unfold State.dramTrained
  extract_lets -merge -useContext +onlyGivenNames -underBinder v1
  have k2 : Kept w a v1 := State.setObj_kept (State.setObj_kept (State.setObj_kept h1))
  extract_lets -merge -useContext +onlyGivenNames -underBinder v3 v4
  have k5 : Kept w a v4 := Kept.put k2
  extract_lets -merge -useContext +onlyGivenNames -underBinder v6 v7
  have k8 : Kept w a v7 := State.setObj_kept (State.setObj_kept k5)
  extract_lets -merge -useContext +onlyGivenNames -underBinder v9
  have k10 : Kept w a v9 := State.reportBoot_kept (State.refitDie_kept (State.setObj_kept k8))
  extract_lets -merge -useContext +onlyGivenNames -underBinder v11
  have k12 : Kept w a v11 := by
    refine Kept.ite ?_ ?_
    · exact State.raise_kept k10
    · exact k10
  exact State.followDies_kept (State.bootLog_kept k12)

theorem execDramTrainingComplete_kept {a : State} {y1 y2 y3 y4 y5 y6} (h1 : Kept true a y6) :
    Res.kept true a (execDramTrainingComplete y1 y2 y3 y4 y5 y6) := by
  unfold execDramTrainingComplete
  refine onDie_kept ?_ ?_
  · exact h1
  · intro q1
    refine Res.kept_ite ?_ ?_
    · exact Res.kept_next h1
    · refine Res.kept_ite ?_ ?_
      · exact Res.kept_next (State.bootFails_kept (State.raise_kept h1))
      · exact Res.kept_next (State.dramTrained_kept h1)

theorem State.judgeFirst_kept {w : Bool} {a : State} {y1 y2 y3 y4} (h1 : Kept w a y1) :
    Kept w a (State.judgeFirst y1 y2 y3 y4) := by
  unfold State.judgeFirst
  extract_lets -merge -useContext +onlyGivenNames -underBinder v1 v2
  have k3 : Kept w a v2 := State.setObj_kept h1
  refine Kept.ite ?_ ?_
  · exact State.raise_kept k3
  · exact State.firstFormat_kept (State.setTargets_kept k3)

theorem State.flashIsUp_kept {w : Bool} {a : State} {y1 y2} (h1 : Kept w a y1) :
    Kept w a (State.flashIsUp y1 y2) := by
  unfold State.flashIsUp
  exact Kept.put h1

theorem State.flashFound_kept {a : State} {y1 y2 y3} (h1 : Kept true a y1) :
    Kept true a (State.flashFound y1 y2 y3) := by
  unfold State.flashFound
  extract_lets -merge -useContext +onlyGivenNames -underBinder v1 v2 v3 v4 v5
  have k6 : Kept true a v5 := State.reportChannels_kept (State.reportPart_kept (State.setMd_kept h1))
  extract_lets -merge -useContext +onlyGivenNames -underBinder v7
  have k8 : Kept true a v7 := by
    refine Kept.ite ?_ ?_
    · exact State.compareRecorded_kept k6
    · exact State.judgeFirst_kept k6
  extract_lets -merge -useContext +onlyGivenNames -underBinder v9
  have k10 : Kept true a v9 := State.reportRates_kept k8
  refine Kept.ite ?_ ?_
  · exact State.bootFails_kept k10
  · exact State.followDies_kept (State.bootLog_kept (State.reportBoot_kept (State.flashIsUp_kept k10)))

theorem execFlashDiscoveryComplete_kept {a : State} {y1 y2 y3} (h1 : Kept true a y3) :
    Res.kept true a (execFlashDiscoveryComplete y1 y2 y3) := by
  unfold execFlashDiscoveryComplete
  refine onDie_kept ?_ ?_
  · exact h1
  · intro q1
    refine Res.kept_ite ?_ ?_
    · exact Res.kept_next h1
    · exact Res.kept_next (State.flashFound_kept h1)

theorem execDieSectionTimeout_kept {a : State} {y1 y2} (h1 : Kept true a y2) :
    Res.kept true a (execDieSectionTimeout y1 y2) := by
  unfold execDieSectionTimeout
  refine onDie_kept ?_ ?_
  · exact h1
  · intro q1
    refine Res.kept_ite ?_ ?_
    · exact Res.kept_next h1
    · refine Res.kept_ite ?_ ?_
      · exact Res.kept_next h1
      · exact Res.kept_next (State.bootFails_kept (State.raise_kept h1))

theorem State.setSmart_kept {w : Bool} {a : State} {y1 y2 y3} (h1 : Kept w a y1) :
    Kept w a (State.setSmart y1 y2 y3) := by
  unfold State.setSmart
  exact Kept.put h1

theorem State.resumeTime_kept {w : Bool} {a : State} {y1 y2 y3} (h1 : Kept w a y1) :
    Kept w a (State.resumeTime y1 y2 y3) := by
  unfold State.resumeTime
  extract_lets -merge -useContext +onlyGivenNames -underBinder v1 v2 v3
  have k4 : Kept w a v3 := State.setObj_kept (State.setObj_kept h1)
  exact Kept.put k4

theorem State.mapsRestored_kept {a : State} {y1 y2 y3 y4 y5 y6} (h1 : Kept true a y1) :
    Kept true a (State.mapsRestored y1 y2 y3 y4 y5 y6) := by
  unfold State.mapsRestored
  extract_lets -merge -useContext +onlyGivenNames -underBinder v1 v2
  have k3 : Kept true a v2.1 := State.restoreMaps_kept h1
  extract_lets -merge -useContext +onlyGivenNames -underBinder v4
  have k5 : Kept true a v4 := k3
  extract_lets -merge -useContext +onlyGivenNames -underBinder v6 v7
  have k8 : Kept true a v7 := State.setObj_kept (State.setObj_kept (State.setObj_kept k3))
  extract_lets -merge -useContext +onlyGivenNames -underBinder v9 v10
  have k11 : Kept true a v10 := State.setMd_kept k8
  extract_lets -merge -useContext +onlyGivenNames -underBinder v12
  have k13 : Kept true a v12 := by
    refine State.raise_kept ?_
    refine Kept.ite ?_ ?_
    · exact State.raise_kept k11
    · refine Kept.ite ?_ ?_
      · exact State.setSmart_kept (State.setObj_kept (State.raise_kept k11))
      · exact k11
  extract_lets -merge -useContext +onlyGivenNames -underBinder v14
  have k15 : Kept true a v14 := by
    refine Kept.ite ?_ ?_
    · exact k13
    · exact State.setSmart_kept (State.addSmart_kept (State.setObj_kept (State.setObj_kept (State.bump_kept k13))))
  extract_lets -merge -useContext +onlyGivenNames -underBinder v16
  have k17 : Kept true a v16 := State.resumeTime_kept (State.setObj_kept k15)
  extract_lets -merge -useContext +onlyGivenNames -underBinder v18
  have k19 : Kept true a v18 := by
    refine Kept.ite ?_ ?_
    · exact k15
    · refine Kept.ite ?_ ?_
      · exact k17
      · exact State.addSmart_kept k17
  extract_lets -merge -useContext +onlyGivenNames -underBinder v20 v21
  have k22 : Kept true a v21 := Kept.put k19
  extract_lets -merge -useContext +onlyGivenNames -underBinder v23 v24
  have k25 : Kept true a v24 := by
    refine Kept.ite ?_ ?_
    · exact State.setSmart_kept k22
    · exact k22
  exact State.followDies_kept (State.bootLog_kept (State.reportBoot_kept k25))

theorem execMapRestoreComplete_kept {a : State} {y1 y2 y3 y4 y5 y6} (h1 : Kept true a y6) :
    Res.kept true a (execMapRestoreComplete y1 y2 y3 y4 y5 y6) := by
  unfold execMapRestoreComplete
  refine onDie_kept ?_ ?_
  · exact h1
  · intro q1
    refine Res.kept_ite ?_ ?_
    · exact Res.kept_next (State.dieResetDone_kept h1)
    · refine Res.kept_ite ?_ ?_
      · exact Res.kept_next h1
      · exact Res.kept_next (State.mapsRestored_kept h1)

theorem State.writeCut_kept {w : Bool} {a : State} {y1} (h1 : Kept w a y1) :
    Kept w a (State.writeCut y1) := by
  unfold State.writeCut
  extract_lets -merge -useContext +onlyGivenNames -underBinder v1
  have k2 : Kept w a v1 := by
    refine Kept.foldl ?_ (fun p3 x3 h3 => ?_)
    · exact h1
    · exact State.extend_kept h3
  exact Kept.put k2

theorem State.applyFuses_kept {w : Bool} {a : State} {y1} (h1 : Kept w a y1) :
    Kept w a (State.applyFuses y1) := by
  unfold State.applyFuses
  extract_lets -merge -useContext +onlyGivenNames -underBinder v1
  have k2 : Kept w a v1 := State.writeCut_kept h1
  refine Kept.foldl ?_ (fun p3 x3 h3 => ?_)
  · exact k2
  · refine Kept.ite ?_ ?_
    · exact State.setObj_kept h3
    · refine Kept.ite ?_ ?_
      · exact h3
      · exact State.rotateProduction_kept h3

theorem State.sealLost_kept {a : State} {y1 y2} (h1 : Kept true a y1) :
    Kept true a (State.sealLost y1 y2) := by
  unfold State.sealLost
  extract_lets -merge -useContext +onlyGivenNames -underBinder v1 v2 v3
  have k4 : Kept true a v3 := State.freeUnitsOf_kept (State.modTake_kept h1)
  extract_lets -merge -useContext +onlyGivenNames -underBinder v5
  have k6 : Kept true a v5 := by
    unfold v5
    split
    · exact Kept.put k4
    · exact k4
  extract_lets -merge -useContext +onlyGivenNames -underBinder v7
  have k8 : Kept true a v7 := State.raise_kept (State.sealTake_kept k6)
  refine Kept.ite ?_ ?_
  · exact State.raise_kept k8
  · exact k8

theorem State.becomeReady_kept {a : State} {y1 y2} (h1 : Kept true a y1) :
    Kept true a (State.becomeReady y1 y2) := by
  unfold State.becomeReady
  extract_lets -merge -useContext +onlyGivenNames -underBinder v1
  have k2 : Kept true a v1 := State.applyFuses_kept (State.addObj_kept (State.reloadKeys_kept h1))
  extract_lets -merge -useContext +onlyGivenNames -underBinder v3 v4
  have k5 : Kept true a v4 := by
    refine Kept.foldl ?_ (fun p6 x6 h6 => ?_)
    · exact k2
    · exact State.sealLost_kept h6
  extract_lets -merge -useContext +onlyGivenNames -underBinder v7
  have k8 : Kept true a v7 := by
    refine Kept.foldl ?_ (fun p9 x9 h9 => ?_)
    · exact k5
    · exact State.setObj_kept h9
  extract_lets -merge -useContext +onlyGivenNames -underBinder v10
  have k11 : Kept true a v10 := State.heartbeat_kept (State.setObj_kept (State.setObj_kept k8))
  extract_lets -merge -useContext +onlyGivenNames -underBinder v12 v13 v14
  have k15 : Kept true a v14 := by
    refine Kept.ite ?_ ?_
    · exact State.setSmart_kept (State.addSmart_kept k11)
    · exact k11
  extract_lets -merge -useContext +onlyGivenNames -underBinder v16
  have k17 : Kept true a v16 := by
    refine Kept.ite ?_ ?_
    · exact k15
    · refine State.bump_kept ?_
      refine Kept.ite ?_ ?_
      · exact State.addSmart_kept k15
      · exact k15
  extract_lets -merge -useContext +onlyGivenNames -underBinder v18 v19 v20
  have k21 : Kept true a v20 := Kept.put k17
  exact State.raise_kept (State.bootLog_kept (State.bootLog_kept k21))

theorem execDeviceReady_kept {a : State} {y1 y2} (h1 : Kept true a y2) :
    Res.kept true a (execDeviceReady y1 y2) := by
  unfold execDeviceReady
  refine Res.kept_ite ?_ ?_
  · exact Res.kept_next h1
  · exact Res.kept_next (State.becomeReady_kept h1)

theorem execPlwNRelease_kept {a : State} {y1} (h1 : Kept true a y1) :
    Res.kept true a (execPlwNRelease y1) := by
  unfold execPlwNRelease
  extract_lets -merge -useContext +onlyGivenNames -underBinder v1 v2
  have k3 : Kept true a v2 := Kept.put h1
  refine Res.kept_ite ?_ ?_
  · exact Res.kept_next k3
  · exact Res.kept_next (State.startRom_kept (State.clearVolatile_kept (State.finishCommit_kept k3)))

/-! ### Lake -/

theorem State.startJoin_kept {a : State} {y1} (h1 : Kept true a y1) :
    Kept true a (State.startJoin y1) := by
  unfold State.startJoin
  extract_lets -merge -useContext +onlyGivenNames -underBinder v1
  refine Kept.ite ?_ ?_
  · exact State.refuseLake_kept h1
  · extract_lets -merge -useContext +onlyGivenNames -underBinder v2
    exact Kept.put h1

theorem State.lakeDone_kept {a : State} {y1} (h1 : Kept true a y1) :
    Kept true a (State.lakeDone y1) := by
  unfold State.lakeDone
  extract_lets -merge -useContext +onlyGivenNames -underBinder v1 v2
  have k3 : Kept true a v2 := Kept.put h1
  split
  · exact State.succeed_kept k3
  · exact k3

theorem State.startLeave_kept {a : State} {y1} (h1 : Kept true a y1) :
    Kept true a (State.startLeave y1) := by
  unfold State.startLeave
  refine Kept.ite ?_ ?_
  · exact State.refuseLake_kept h1
  · refine Kept.ite ?_ ?_
    · extract_lets -merge -useContext +onlyGivenNames -underBinder v1 v2
      have k3 : Kept true a v2 := Kept.put h1
      exact State.refuseLake_kept k3
    · extract_lets -merge -useContext +onlyGivenNames -underBinder v4 v5
      have k6 : Kept true a v5 := State.leaveLake_kept h1
      exact State.lakeDone_kept (Kept.put k6)

theorem State.endLxns_kept {w : Bool} {a : State} {y1} (h1 : Kept w a y1) :
    Kept w a (State.endLxns y1) := by
  unfold State.endLxns
  refine Kept.foldl ?_ (fun p1 x1 h1 => ?_)
  · exact h1
  · extract_lets -merge -useContext +onlyGivenNames -underBinder v2 v3
    have k4 : Kept w a v3 := State.lxnState_kept (State.recordLxn_kept h1)
    extract_lets -merge -useContext +onlyGivenNames -underBinder v5 v6
    have k7 : Kept w a v6 := Kept.put k4
    refine Kept.ite ?_ ?_
    · exact State.raise_kept k7
    · exact k7

theorem State.stageLxn_kept {w : Bool} {a : State} {y1 y2 y3} (h1 : Kept w a y1) :
    Kept w a ((State.stageLxn y1 y2 y3).2) := by
  unfold State.stageLxn
  split
  · exact h1
  · extract_lets -merge -useContext +onlyGivenNames -underBinder v1
    refine Kept.ite2 ?_ ?_
    · exact h1
    · exact State.modLxn_kept h1

theorem State.beginLxn_kept {w : Bool} {a : State} {y1 y2} (h1 : Kept w a y1) :
    Kept w a ((State.beginLxn y1 y2).2) := by
  unfold State.beginLxn
  refine Kept.ite2 ?_ ?_
  · exact h1
  · refine Kept.ite2 ?_ ?_
    · exact h1
    · extract_lets -merge -useContext +onlyGivenNames -underBinder v1 v2 v3
      have k4 : Kept w a v3 := Kept.put h1
      exact State.lxnState_kept k4

theorem State.prepareLxn_kept {w : Bool} {a : State} {y1 y2 y3 y4 y5} (h1 : Kept w a y1) :
    Kept w a ((State.prepareLxn y1 y2 y3 y4 y5).2) := by
  unfold State.prepareLxn
  refine Kept.ite2 ?_ ?_
  · exact h1
  · extract_lets -merge -useContext +onlyGivenNames -underBinder v1
    have k2 : Kept w a v1 := State.standing_kept h1
    split
    refine Kept.ite2 ?_ ?_
    · exact h1
    · extract_lets -merge -useContext +onlyGivenNames -underBinder v3
      clear_value v3
      split
      · exact h1
      · extract_lets -merge -useContext +onlyGivenNames -underBinder v4
        clear_value v4
        split
        · exact h1
        · extract_lets -merge -useContext +onlyGivenNames -underBinder v5
          have k6 : Kept w a v5 := State.admitOn_kept h1
          extract_lets -merge -useContext +onlyGivenNames -underBinder v7 v8 v9
          have k10 : Kept w a v9 := by
            refine Kept.ite ?_ ?_
            · refine State.openTake_kept ?_ ?_
              · exact h1
              · exact k6
            · exact h1
          refine Kept.ite2 ?_ ?_
          · exact k10
          · extract_lets -merge -useContext +onlyGivenNames -underBinder v11
            exact Kept.put k10

theorem State.commitVote_kept {w : Bool} {a : State} {y1 y2} (h1 : Kept w a y1) :
    Kept w a (State.commitVote y1 y2) := by
  unfold State.commitVote
  split
  · exact h1
  · extract_lets -merge -useContext +onlyGivenNames -underBinder v1 v2 v3
    exact Kept.put h1

theorem State.commitLxn_kept {w : Bool} {a : State} {y1 y2} (h1 : Kept w a y1) :
    Kept w a (State.commitLxn y1 y2) := by
  unfold State.commitLxn
  extract_lets -merge -useContext +onlyGivenNames -underBinder v1 v2
  have k3 : Kept w a v2 := by
    refine Kept.foldl ?_ (fun p4 x4 h4 => ?_)
    · exact h1
    · exact State.lakeSend_kept h4
  extract_lets -merge -useContext +onlyGivenNames -underBinder v5
  have k6 : Kept w a v5 := State.commitVote_kept k3
  extract_lets -merge -useContext +onlyGivenNames -underBinder v7 v8 v9
  have k10 : Kept w a v9 := State.lxnState_kept (State.modLxn_kept k6)
  exact State.recordLxn_kept (Kept.put k10)

theorem State.recordVote_kept {w : Bool} {a : State} {y1 y2 y3 y4} (h1 : Kept w a y1) :
    Kept w a (State.recordVote y1 y2 y3 y4) := by
  unfold State.recordVote
  split
  · exact h1
  · refine Kept.ite ?_ ?_
    · exact h1
    · extract_lets -merge -useContext +onlyGivenNames -underBinder v1 v2
      have k3 : Kept w a v2 := State.modLxn_kept h1
      refine Kept.ite ?_ ?_
      · exact State.abortLxn_kept k3
      · refine Kept.ite ?_ ?_
        · refine Kept.ite ?_ ?_
          · exact State.abortLxn_kept k3
          · exact State.commitLxn_kept k3
        · exact k3

set_option maxRecDepth 4000 in
theorem State.startLxn_kept {w : Bool} {a : State} {y1 y2 y3} (h1 : Kept w a y1) :
    Kept w a ((((State.startLxn y1 y2 y3).2).2).2) := by
  unfold State.startLxn
  split
  · exact h1
  · extract_lets -merge -useContext +onlyGivenNames -underBinder v1 v2
    refine Kept.ite222 ?_ ?_
    · exact State.lxnState_kept (Kept.put h1)
    · extract_lets -merge -useContext +onlyGivenNames -underBinder v3 v4 v5
      refine Kept.ite222 ?_ ?_
      · exact State.lxnState_kept (Kept.put h1)
      · extract_lets -merge -useContext +onlyGivenNames -underBinder v6 v7
        have k8 : Kept w a v7 := State.modLxn_kept h1
        extract_lets -merge -useContext +onlyGivenNames -underBinder v9 v10
        have k11 : Kept w a v10 := by
          refine Kept.foldl ?_ (fun p12 x12 h12 => ?_)
          · exact k8
          · exact State.lakeSend_kept h12
        extract_lets -merge -useContext +onlyGivenNames -underBinder v13
        have k14 : Kept w a v13.2 := State.prepareLxn_kept k11
        extract_lets -merge -useContext +onlyGivenNames -underBinder v15
        have k16 : Kept w a v15 := by
          refine Kept.ite ?_ ?_
          · exact State.recordVote_kept k14
          · exact k11
        exact k16

theorem State.rollBackLxn_kept {w : Bool} {a : State} {y1 y2} (h1 : Kept w a y1) :
    Kept w a ((State.rollBackLxn y1 y2).2) := by
  unfold State.rollBackLxn
  split
  · exact h1
  · exact State.lxnState_kept (Kept.put h1)

theorem State.refuseNow_kept {a : State} {y1 y2 y3} (h1 : Kept true a y1) :
    Kept true a (State.refuseNow y1 y2 y3) := by
  unfold State.refuseNow
  exact State.failVendor_kept (Kept.put h1)

theorem State.lakeControl_kept {a : State} {y1 y2 y3} (h1 : Kept true a y1) :
    Kept true a (State.lakeControl y1 y2 y3) := by
  unfold State.lakeControl
  extract_lets -merge -useContext +onlyGivenNames -underBinder v1
  have k2 : Kept true a v1.2.2.2 := State.acceptCommit_kept h1
  refine Kept.ite ?_ ?_
  · refine State.started_kept ?_
    extract_lets -merge -useContext +onlyGivenNames -underBinder v3
    have k4 : Kept true a v3 := k2
    exact Kept.put k2
  · exact State.useFree_kept (State.failVendor_kept k2)

theorem execLakeJoin_kept {a : State} {y1 y2 y3 y4} (h1 : Kept true a y4) :
    Res.kept true a (execLakeJoin y1 y2 y3 y4) := by
  unfold execLakeJoin
  refine startCmd_kept ?_ ?_
  · exact h1
  · intro q1
    extract_lets -merge -useContext +onlyGivenNames -underBinder v2
    have k3 : Kept true a v2 := State.countVendor_kept h1
    refine Res.kept_ite ?_ ?_
    · exact Res.kept_next (State.failCmd_kept k3)
    · refine Res.kept_ite ?_ ?_
      · exact Res.kept_next (State.safeFail_kept k3)
      · refine Res.kept_ite ?_ ?_
        · exact Res.kept_next (State.refuseNow_kept k3)
        · refine Res.kept_ite ?_ ?_
          · exact Res.kept_next (State.refuseNow_kept k3)
          · exact Res.kept_next (State.lakeControl_kept k3)

theorem execLakeLeave_kept {a : State} {y1 y2} (h1 : Kept true a y2) :
    Res.kept true a (execLakeLeave y1 y2) := by
  unfold execLakeLeave
  refine startCmd_kept ?_ ?_
  · exact h1
  · intro q1
    extract_lets -merge -useContext +onlyGivenNames -underBinder v2
    have k3 : Kept true a v2 := State.countVendor_kept h1
    refine Res.kept_ite ?_ ?_
    · exact Res.kept_next (State.failCmd_kept k3)
    · refine Res.kept_ite ?_ ?_
      · exact Res.kept_next (State.safeFail_kept k3)
      · refine Res.kept_ite ?_ ?_
        · exact Res.kept_next (State.refuseNow_kept k3)
        · refine Res.kept_ite ?_ ?_
          · exact Res.kept_next (State.refuseNow_kept k3)
          · exact Res.kept_next (State.lakeControl_kept k3)

theorem execLakeStatus_kept {a : State} {y1 y2 y3} (h1 : Kept true a y3) :
    Res.kept true a (execLakeStatus y1 y2 y3) := by
  unfold execLakeStatus
  refine startCmd_kept ?_ ?_
  · exact h1
  · intro q1
    extract_lets -merge -useContext +onlyGivenNames -underBinder v2
    have k3 : Kept true a v2 := State.countVendor_kept h1
    refine Res.kept_ite ?_ ?_
    · exact Res.kept_next (State.failCmd_kept k3)
    · extract_lets -merge -useContext +onlyGivenNames -underBinder v4
      exact Res.kept_next (State.succeed_kept (State.dataOut_kept k3))

theorem State.lakeAnswer_kept {w : Bool} {a : State} {y1 y2 y3 y4} (h1 : Kept w a y1) :
    Kept w a ((State.lakeAnswer y1 y2 y3 y4).2) := by
  unfold State.lakeAnswer
  split
  · exact h1
  · refine Kept.ite2 ?_ ?_
    · exact h1
    · extract_lets -merge -useContext +onlyGivenNames -underBinder v1
      have k2 : Kept w a v1.2.2.2 := State.searchPackage_kept h1
      exact k2

theorem State.mergeSearch_kept {a : State} {y1 y2} (h1 : Kept true a y1) :
    Kept true a (State.mergeSearch y1 y2) := by
  unfold State.mergeSearch
  refine Kept.ite ?_ ?_
  · exact h1
  · extract_lets -merge -useContext +onlyGivenNames -underBinder v1 v2
    have k3 : Kept true a v2 := Kept.put h1
    extract_lets -merge -useContext +onlyGivenNames -underBinder v4
    split
    · exact State.finish_kept k3
    · exact State.finish_kept k3

theorem State.searchNow_kept {a : State} {y1 y2 y3 y4 y5 y6} (h1 : Kept true a y1) :
    Kept true a (State.searchNow y1 y2 y3 y4 y5 y6) := by
  unfold State.searchNow
  extract_lets -merge -useContext +onlyGivenNames -underBinder v1
  have k2 : Kept true a v1 := State.bump_kept h1
  refine Kept.ite ?_ ?_
  · extract_lets -merge -useContext +onlyGivenNames -underBinder v3
    have k4 : Kept true a v3.2.2.2 := State.searchPackage_kept (State.bump_kept k2)
    exact State.answerSearch_kept k4
  · refine Kept.ite ?_ ?_
    · refine Kept.ite ?_ ?_
      · exact State.failVendor_kept k2
      · extract_lets -merge -useContext +onlyGivenNames -underBinder v5
        have k6 : Kept true a v5.2.2.2 := State.searchPackage_kept (State.bump_kept k2)
        refine Kept.ite ?_ ?_
        · exact State.answerSearch_kept k6
        · extract_lets -merge -useContext +onlyGivenNames -underBinder v7
          have k8 : Kept true a v7 := k6
          extract_lets -merge -useContext +onlyGivenNames -underBinder v9 v10
          have k11 : Kept true a v10 := Kept.put k6
          exact State.started_kept (State.emit_kept k11)
    · refine Kept.ite ?_ ?_
      · exact State.failVendor_kept k2
      · extract_lets -merge -useContext +onlyGivenNames -underBinder v12
        have k13 : Kept true a v12.2 := State.lakeAnswer_kept (State.bump_kept k2)
        refine Kept.ite ?_ ?_
        · exact State.finish_kept k13
        · extract_lets -merge -useContext +onlyGivenNames -underBinder v14 v15 v16 v17
          have k18 : Kept true a v17 := k13
          extract_lets -merge -useContext +onlyGivenNames -underBinder v19 v20
          have k21 : Kept true a v20 := Kept.put k13
          exact State.mergeSearch_kept (State.lakeEmit_kept (State.started_kept k21))

theorem State.hostSearch_kept {a : State} {y1 y2 y3 y4 y5 y6} (h1 : Kept true a y1) :
    Kept true a (State.hostSearch y1 y2 y3 y4 y5 y6) := by
  unfold State.hostSearch
  refine Kept.ite ?_ ?_
  · exact State.searchNow_kept h1
  · exact State.started_kept (Kept.put h1)

theorem execSearch_kept {a : State} {y1 y2 y3 y4 y5} (h1 : Kept true a y5) :
    Res.kept true a (execSearch y1 y2 y3 y4 y5) := by
  unfold execSearch
  refine startCmd_kept ?_ ?_
  · exact h1
  · intro q1
    extract_lets -merge -useContext +onlyGivenNames -underBinder v2
    have k3 : Kept true a v2 := State.countIo_kept h1
    split
    · exact Res.kept_next (State.failCmd_kept k3)
    · refine Res.kept_ite ?_ ?_
      · exact Res.kept_next (State.failCmd_kept k3)
      · exact Res.kept_next (State.hostSearch_kept k3)

theorem execSearchWide_kept {a : State} {y1 y2 y3 y4 y5 y6} (h1 : Kept true a y6) :
    Res.kept true a (execSearchWide y1 y2 y3 y4 y5 y6) := by
  unfold execSearchWide
  refine startCmd_kept ?_ ?_
  · exact h1
  · intro q1
    extract_lets -merge -useContext +onlyGivenNames -underBinder v2
    have k3 : Kept true a v2 := State.countIo_kept h1
    split
    · exact Res.kept_next (State.failCmd_kept k3)
    · extract_lets -merge -useContext +onlyGivenNames -underBinder v4
      refine Res.kept_ite ?_ ?_
      · exact Res.kept_next (State.failCmd_kept k3)
      · exact Res.kept_next (State.hostSearch_kept k3)

theorem State.becomeMember_kept {a : State} {y1 y2 y3 y4 y5} (h1 : Kept true a y1) :
    Kept true a (State.becomeMember y1 y2 y3 y4 y5) := by
  unfold State.becomeMember
  extract_lets -merge -useContext +onlyGivenNames -underBinder v1 v2 v3
  have k4 : Kept true a v3 := Kept.put h1
  exact State.raise_kept (State.lakeDone_kept k4)

theorem State.mergeLakes_kept {a : State} {y1 y2 y3} (h1 : Kept true a y1) :
    Kept true a (State.mergeLakes y1 y2 y3) := by
  unfold State.mergeLakes
  extract_lets -merge -useContext +onlyGivenNames -underBinder v1 v2
  have k3 : Kept true a v2 := by
    refine Kept.foldl ?_ (fun p4 x4 h4 => ?_)
    · exact h1
    · exact State.abortLxn_kept h4
  extract_lets -merge -useContext +onlyGivenNames -underBinder v5 v6
  have k7 : Kept true a v6 := State.setMembers_kept h1
  extract_lets -merge -useContext +onlyGivenNames -underBinder v8 v9
  have k10 : Kept true a v9 := by
    refine Kept.ite ?_ ?_
    · exact State.raise_kept (Kept.put k3)
    · exact Kept.put k7
  refine Kept.ite ?_ ?_
  · exact State.setLevel_kept k10
  · exact State.leaveLake_kept (Kept.put k10)

theorem State.followLeader_kept {a : State} {y1 y2 y3} (h1 : Kept true a y1) :
    Kept true a (State.followLeader y1 y2 y3) := by
  unfold State.followLeader
  refine Kept.ite ?_ ?_
  · exact h1
  · extract_lets -merge -useContext +onlyGivenNames -underBinder v1 v2 v3
    have k4 : Kept true a v3 := by
      refine Kept.foldl ?_ (fun p5 x5 h5 => ?_)
      · exact h1
      · exact State.abortLxn_kept h5
    extract_lets -merge -useContext +onlyGivenNames -underBinder v6 v7
    have k8 : Kept true a v7 := by
      refine Kept.ite ?_ ?_
      · exact State.raise_kept (Kept.put k4)
      · exact h1
    extract_lets -merge -useContext +onlyGivenNames -underBinder v9 v10
    have k11 : Kept true a v10 := State.setMembers_kept (Kept.put k8)
    refine Kept.ite ?_ ?_
    · refine Kept.ite ?_ ?_
      · exact State.setLevel_kept k11
      · exact State.leaveLake_kept (Kept.put k11)
    · exact k11

theorem State.heardHeartbeat_kept {a : State} {y1 y2 y3} (h1 : Kept true a y1) :
    Kept true a (State.heardHeartbeat y1 y2 y3) := by
  unfold State.heardHeartbeat
  extract_lets -merge -useContext +onlyGivenNames -underBinder v1 v2
  have k3 : Kept true a v2 := Kept.put h1
  refine Kept.ite ?_ ?_
  · refine Kept.ite ?_ ?_
    · exact State.becomeMember_kept k3
    · exact k3
  · refine Kept.ite ?_ ?_
    · exact k3
    · refine Kept.ite ?_ ?_
      · exact State.mergeLakes_kept k3
      · exact State.followLeader_kept k3

theorem State.takeLead_kept {w : Bool} {a : State} {y1} (h1 : Kept w a y1) :
    Kept w a (State.takeLead y1) := by
  unfold State.takeLead
  refine Kept.ite ?_ ?_
  · exact State.raise_kept (Kept.put h1)
  · exact h1

theorem execHeartbeatSend_kept {w : Bool} {a : State} {y1 y2} (h1 : Kept w a y2) :
    Res.kept w a (execHeartbeatSend y1 y2) := by
  unfold execHeartbeatSend
  refine Res.kept_ite ?_ ?_
  · exact Res.kept_next h1
  · refine Res.kept_ite ?_ ?_
    · exact Res.kept_next h1
    · extract_lets -merge -useContext +onlyGivenNames -underBinder v1
      have k2 : Kept w a v1 := State.takeLead_kept h1
      exact Res.kept_next (State.lakeEmit_kept (Kept.put k2))

theorem execJoinListenExpiry_kept {a : State} {y1} (h1 : Kept true a y1) :
    Res.kept true a (execJoinListenExpiry y1) := by
  unfold execJoinListenExpiry
  split
  · exact Res.kept_next h1
  · refine Res.kept_ite ?_ ?_
    · exact Res.kept_next h1
    · refine Res.kept_ite ?_ ?_
      · exact Res.kept_next h1
      · refine Res.kept_ite ?_ ?_
        · exact Res.kept_next (State.refuseLake_kept h1)
        · split
          · extract_lets -merge -useContext +onlyGivenNames -underBinder v1
            exact Res.kept_next (State.lakeSend_kept (Kept.put h1))
          · refine Res.kept_ite ?_ ?_
            · exact Res.kept_next (State.becomeMember_kept h1)
            · exact Res.kept_next h1

theorem State.answerJoin_kept {w : Bool} {a : State} {y1 y2 y3 y4 y5 y6} (h1 : Kept w a y1) :
    Kept w a (State.answerJoin y1 y2 y3 y4 y5 y6) := by
  unfold State.answerJoin
  refine Kept.ite ?_ ?_
  · exact h1
  · extract_lets -merge -useContext +onlyGivenNames -underBinder v1 v2
    have k3 : Kept w a v2 := by
      refine Kept.ite ?_ ?_
      · exact State.setMembers_kept h1
      · exact h1
    exact State.lakeSend_kept k3

theorem execJoinRequest_kept {w : Bool} {a : State} {y1 y2 y3 y4 y5 y6 y7} (h1 : Kept w a y7) :
    Res.kept w a (execJoinRequest y1 y2 y3 y4 y5 y6 y7) := by
  unfold execJoinRequest
  refine onMsg_kept ?_ ?_
  · exact h1
  · intro q1 q2
    exact State.answerJoin_kept q2

theorem State.joinAnswered_kept {a : State} {y1 y2 y3 y4 y5} (h1 : Kept true a y1) :
    Kept true a (State.joinAnswered y1 y2 y3 y4 y5) := by
  unfold State.joinAnswered
  split
  · exact h1
  · refine Kept.ite ?_ ?_
    · exact h1
    · refine Kept.ite ?_ ?_
      · exact State.refuseLake_kept h1
      · exact Kept.put h1

theorem execJoinAnswer_kept {a : State} {y1 y2 y3 y4 y5 y6 y7} (h1 : Kept true a y7) :
    Res.kept true a (execJoinAnswer y1 y2 y3 y4 y5 y6 y7) := by
  unfold execJoinAnswer
  refine onMsg_kept ?_ ?_
  · exact h1
  · intro q1 q2
    exact State.joinAnswered_kept q2

theorem execJoinAnswerTimeout_kept {a : State} {y1} (h1 : Kept true a y1) :
    Res.kept true a (execJoinAnswerTimeout y1) := by
  unfold execJoinAnswerTimeout
  split
  · exact Res.kept_next h1
  · refine Res.kept_ite ?_ ?_
    · exact Res.kept_next h1
    · refine Res.kept_ite ?_ ?_
      · exact Res.kept_next h1
      · exact Res.kept_next (State.refuseLake_kept h1)

theorem State.lakeAcked_kept {w : Bool} {a : State} {y1 y2 y3} (h1 : Kept w a y1) :
    Kept w a (State.lakeAcked y1 y2 y3) := by
  unfold State.lakeAcked
  split
  · exact h1
  · extract_lets -merge -useContext +onlyGivenNames -underBinder v1 v2
    have k3 : Kept w a v2 := Kept.put h1
    refine Kept.ite ?_ ?_
    · extract_lets -merge -useContext +onlyGivenNames -underBinder v4 v5
      have k6 : Kept w a v5 := State.modLxn_kept k3
      split
      · exact State.recordLxn_kept k6
      · exact k6
    · refine Kept.ite ?_ ?_
      · extract_lets -merge -useContext +onlyGivenNames -underBinder v7 v8
        exact Kept.put k3
      · exact k3

theorem execLakeAck_kept {w : Bool} {a : State} {y1 y2 y3 y4} (h1 : Kept w a y4) :
    Res.kept w a (execLakeAck y1 y2 y3 y4) := by
  unfold execLakeAck
  refine onMsg_kept ?_ ?_
  · exact h1
  · intro q1 q2
    exact State.lakeAcked_kept q2

theorem execLakeRetryExpiry_kept {w : Bool} {a : State} {y1 y2 y3} (h1 : Kept w a y3) :
    Res.kept w a (execLakeRetryExpiry y1 y2 y3) := by
  unfold execLakeRetryExpiry
  split
  · exact Res.kept_next h1
  · extract_lets -merge -useContext +onlyGivenNames -underBinder v1 v2
    have k3 : Kept w a v2 := Kept.put h1
    refine Res.kept_ite ?_ ?_
    · exact Res.kept_next h1
    · refine Res.kept_ite ?_ ?_
      · exact Res.kept_next k3
      · extract_lets -merge -useContext +onlyGivenNames -underBinder v4
        have k5 : Kept w a v4 := State.bump_kept (State.lakeEmit_kept k3)
        extract_lets -merge -useContext +onlyGivenNames -underBinder v6
        exact Res.kept_next (Kept.put k5)

theorem execLakeDictResponse_kept {w : Bool} {a : State} {y1 y2 y3} (h1 : Kept w a y3) :
    Res.kept w a (execLakeDictResponse y1 y2 y3) := by
  unfold execLakeDictResponse
  refine onMsg_kept ?_ ?_
  · exact h1
  · intro q1 q2
    assumption

theorem State.votePrepare_kept {w : Bool} {a : State} {y1 y2 y3 y4 y5} (h1 : Kept w a y1) :
    Kept w a (State.votePrepare y1 y2 y3 y4 y5) := by
  unfold State.votePrepare
  refine Kept.ite ?_ ?_
  · exact h1
  · extract_lets -merge -useContext +onlyGivenNames -underBinder v1
    have k2 : Kept w a v1.2 := State.prepareLxn_kept h1
    extract_lets -merge -useContext +onlyGivenNames -underBinder v3 v4
    have k5 : Kept w a v4 := k2
    extract_lets -merge -useContext +onlyGivenNames -underBinder v6 v7
    have k8 : Kept w a v7 := by
      refine Kept.ite ?_ ?_
      · exact k2
      · exact Kept.put k2
    exact State.lakeSend_kept k8

theorem execLxnPrepare_kept {w : Bool} {a : State} {y1 y2 y3 y4 y5 y6} (h1 : Kept w a y6) :
    Res.kept w a (execLxnPrepare y1 y2 y3 y4 y5 y6) := by
  unfold execLxnPrepare
  refine onMsg_kept ?_ ?_
  · exact h1
  · intro q1 q2
    exact State.votePrepare_kept q2

theorem execLxnVote_kept {w : Bool} {a : State} {y1 y2 y3 y4 y5 y6 y7 y8} (h1 : Kept w a y8) :
    Res.kept w a (execLxnVote y1 y2 y3 y4 y5 y6 y7 y8) := by
  unfold execLxnVote
  refine onMsg_kept ?_ ?_
  · exact h1
  · intro q1 q2
    exact State.recordVote_kept q2

theorem execLxnCommit_kept {w : Bool} {a : State} {y1 y2 y3 y4} (h1 : Kept w a y4) :
    Res.kept w a (execLxnCommit y1 y2 y3 y4) := by
  unfold execLxnCommit
  refine onMsg_kept ?_ ?_
  · exact h1
  · intro q1 q2
    exact State.commitVote_kept q2

theorem State.lxnAborted_kept {w : Bool} {a : State} {y1 y2} (h1 : Kept w a y1) :
    Kept w a (State.lxnAborted y1 y2) := by
  unfold State.lxnAborted
  refine Kept.ite ?_ ?_
  · exact State.raise_kept (State.abortVote_kept h1)
  · exact h1

theorem execLxnAbort_kept {w : Bool} {a : State} {y1 y2 y3 y4} (h1 : Kept w a y4) :
    Res.kept w a (execLxnAbort y1 y2 y3 y4) := by
  unfold execLxnAbort
  refine onMsg_kept ?_ ?_
  · exact h1
  · intro q1 q2
    exact State.lxnAborted_kept q2

theorem State.answerQuery_kept {w : Bool} {a : State} {y1 y2 y3} (h1 : Kept w a y1) :
    Kept w a (State.answerQuery y1 y2 y3) := by
  unfold State.answerQuery
  split
  · exact State.lakeSend_kept h1
  · exact State.lakeSend_kept h1
  · exact h1

theorem execLxnQuery_kept {w : Bool} {a : State} {y1 y2 y3} (h1 : Kept w a y3) :
    Res.kept w a (execLxnQuery y1 y2 y3) := by
  unfold execLxnQuery
  refine onMsg_kept ?_ ?_
  · exact h1
  · intro q1 q2
    exact State.answerQuery_kept q2

theorem execLxnVoteDeadline_kept {w : Bool} {a : State} {y1 y2} (h1 : Kept w a y2) :
    Res.kept w a (execLxnVoteDeadline y1 y2) := by
  unfold execLxnVoteDeadline
  split
  · refine Res.kept_ite ?_ ?_
    · exact Res.kept_next h1
    · refine Res.kept_ite ?_ ?_
      · exact Res.kept_next h1
      · exact Res.kept_next (State.abortLxn_kept h1)
  · exact Res.kept_next h1

theorem execLxnQueryDeadline_kept {w : Bool} {a : State} {y1 y2} (h1 : Kept w a y2) :
    Res.kept w a (execLxnQueryDeadline y1 y2) := by
  unfold execLxnQueryDeadline
  split
  · refine Res.kept_ite ?_ ?_
    · exact Res.kept_next h1
    · refine Res.kept_next ?_
      refine Kept.ite ?_ ?_
      · exact h1
      · exact State.lakeSend_kept h1
  · exact Res.kept_next h1

theorem execLxnOutcomeDeadline_kept {w : Bool} {a : State} {y1 y2} (h1 : Kept w a y2) :
    Res.kept w a (execLxnOutcomeDeadline y1 y2) := by
  unfold execLxnOutcomeDeadline
  split
  · refine Res.kept_ite ?_ ?_
    · exact Res.kept_next h1
    · exact Res.kept_next (State.raise_kept (State.abortVote_kept h1))
  · exact Res.kept_next h1

theorem State.replySearch_kept {w : Bool} {a : State} {y1 y2 y3 y4 y5 y6} (h1 : Kept w a y1) :
    Kept w a (State.replySearch y1 y2 y3 y4 y5 y6) := by
  unfold State.replySearch
  extract_lets -merge -useContext +onlyGivenNames -underBinder v1
  have k2 : Kept w a v1.2 := State.lakeAnswer_kept (State.bump_kept h1)
  exact State.lakeEmit_kept k2

theorem execSearchRequest_kept {w : Bool} {a : State} {y1 y2 y3 y4 y5 y6} (h1 : Kept w a y6) :
    Res.kept w a (execSearchRequest y1 y2 y3 y4 y5 y6) := by
  unfold execSearchRequest
  refine onMsg_kept ?_ ?_
  · exact h1
  · intro q1 q2
    exact State.replySearch_kept q2

theorem State.searchAnswered_kept {a : State} {y1 y2 y3 y4 y5 y6} (h1 : Kept true a y1) :
    Kept true a (State.searchAnswered y1 y2 y3 y4 y5 y6) := by
  unfold State.searchAnswered
  split
  · exact h1
  · refine Kept.ite ?_ ?_
    · exact h1
    · refine Kept.ite ?_ ?_
      · exact State.finish_kept (Kept.put h1)
      · extract_lets -merge -useContext +onlyGivenNames -underBinder v1 v2 v3
        have k4 : Kept true a v3 := Kept.put h1
        exact State.mergeSearch_kept k4

theorem execSearchResult_kept {a : State} {y1 y2 y3 y4 y5 y6} (h1 : Kept true a y6) :
    Res.kept true a (execSearchResult y1 y2 y3 y4 y5 y6) := by
  unfold execSearchResult
  refine onMsg_kept ?_ ?_
  · exact h1
  · intro q1 q2
    exact State.searchAnswered_kept q2

theorem execLakeSearchResend_kept {w : Bool} {a : State} {y1 y2} (h1 : Kept w a y2) :
    Res.kept w a (execLakeSearchResend y1 y2) := by
  unfold execLakeSearchResend
  split
  · exact Res.kept_next h1
  · extract_lets -merge -useContext +onlyGivenNames -underBinder v1
    refine Res.kept_ite ?_ ?_
    · exact Res.kept_next h1
    · refine Res.kept_next ?_
      refine Kept.foldl ?_ (fun p2 x2 h2 => ?_)
      · exact h1
      · exact State.bump_kept (State.lakeEmit_kept h2)

theorem execLakeSearchTimeout_kept {a : State} {y1 y2} (h1 : Kept true a y2) :
    Res.kept true a (execLakeSearchTimeout y1 y2) := by
  unfold execLakeSearchTimeout
  split
  · exact Res.kept_next h1
  · extract_lets -merge -useContext +onlyGivenNames -underBinder v1
    refine Res.kept_ite ?_ ?_
    · exact Res.kept_next h1
    · refine Res.kept_ite ?_ ?_
      · exact Res.kept_next (State.raise_kept (State.failVendor_kept (Kept.put h1)))
      · exact Res.kept_next (State.mergeSearch_kept h1)

theorem execEventMessage_kept {w : Bool} {a : State} {y1 y2 y3} (h1 : Kept w a y3) :
    Res.kept w a (execEventMessage y1 y2 y3) := by
  unfold execEventMessage
  refine onMsg_kept ?_ ?_
  · exact h1
  · intro q1 q2
    assumption

theorem State.retrySearches_kept {a : State} {y1} (h1 : Kept true a y1) :
    Kept true a (State.retrySearches y1) := by
  unfold State.retrySearches
  refine Kept.ite ?_ ?_
  · exact h1
  · refine Kept.foldl ?_ (fun p1 x1 h1 => ?_)
    · exact Kept.put h1
    · split
      · exact State.searchNow_kept h1
      · exact State.failCmd_kept h1

theorem State.domainWakes_kept {a : State} {y1 y2 y3 y4 y5} (h1 : Kept true a y1) :
    Kept true a (State.domainWakes y1 y2 y3 y4 y5) := by
  unfold State.domainWakes
  extract_lets -merge -useContext +onlyGivenNames -underBinder v1
  have k2 : Kept true a v1 := State.setObj_kept (State.setPd_kept h1)
  refine Kept.ite ?_ ?_
  · exact State.reloadKeys_kept k2
  · refine Kept.ite ?_ ?_
    · exact State.retrySearches_kept k2
    · exact k2

theorem execDomainWakeComplete_kept {a : State} {y1 y2 y3 y4} (h1 : Kept true a y4) :
    Res.kept true a (execDomainWakeComplete y1 y2 y3 y4) := by
  unfold execDomainWakeComplete
  refine onDie_kept ?_ ?_
  · exact h1
  · intro q1
    extract_lets -merge -useContext +onlyGivenNames -underBinder v2
    split
    · exact Res.kept_next h1
    · refine Res.kept_ite ?_ ?_
      · exact Res.kept_next h1
      · exact Res.kept_next (State.domainWakes_kept h1)

theorem execEthernetLinkUp_kept {w : Bool} {a : State} {y1 y2 y3} (h1 : Kept w a y3) :
    Res.kept w a (execEthernetLinkUp y1 y2 y3) := by
  unfold execEthernetLinkUp
  refine onLane_kept ?_ ?_
  · exact h1
  · intro q1
    refine Res.kept_ite ?_ ?_
    · exact Res.kept_next h1
    · refine Res.kept_ite ?_ ?_
      · exact Res.kept_next h1
      · exact Res.kept_next (State.setLane_kept h1)

theorem execEthernetLinkDown_kept {w : Bool} {a : State} {y1 y2 y3} (h1 : Kept w a y3) :
    Res.kept w a (execEthernetLinkDown y1 y2 y3) := by
  unfold execEthernetLinkDown
  refine onLane_kept ?_ ?_
  · exact h1
  · intro q1
    refine Res.kept_ite ?_ ?_
    · exact Res.kept_next (State.setLane_kept h1)
    · exact Res.kept_next h1

end Sys2Proof.Machine
end

