-- ==== Sys2Proof/Laws/KeptRows.lean ====
section
/-!
SUPPORT. What each operation and row leaves alone (`Kept`): boundaries, instructions and the dictionary service. One lemma for each, composed from those of the operations it calls.
-/

set_option Elab.async false

namespace Sys2Proof.Machine

/-! ### Swap -/

theorem State.blowOne_kept {w : Bool} {a : State} {y1 y2 y3} (h1 : Kept w a y1) :
    Kept w a (State.blowOne y1 y2 y3) := by
  unfold State.blowOne
  extract_lets -merge -useContext +onlyGivenNames -underBinder v1 v2
  have k3 : Kept w a v2 := State.extend_kept (State.spend_kept h1)
  exact Kept.put k3

theorem State.blowUnused_kept {w : Bool} {a : State} {y1 y2 y3} (h1 : Kept w a y1) :
    Kept w a (State.blowUnused y1 y2 y3) := by
  unfold State.blowUnused
  extract_lets -merge -useContext +onlyGivenNames -underBinder v1
  have k2 : Kept w a v1 := State.blowOne_kept h1
  exact Kept.put k2

theorem State.withdraw_kept {w : Bool} {a : State} {y1 y2} (h1 : Kept w a y1) :
    Kept w a (State.withdraw y1 y2) := by
  unfold State.withdraw
  extract_lets -merge -useContext +onlyGivenNames -underBinder v1 v2
  have k3 : Kept w a v2 := Kept.put h1
  refine Kept.ite ?_ ?_
  · exact k3
  · refine Kept.foldl ?_ (fun p4 x4 h4 => ?_)
    · exact k3
    · exact State.releaseTake_kept h4

theorem State.blowFuses_kept {w : Bool} {a : State} {y1 y2 y3} (h1 : Kept w a y1) :
    Kept w a (State.blowFuses y1 y2 y3) := by
  unfold State.blowFuses
  extract_lets -merge -useContext +onlyGivenNames -underBinder v1
  split
  · extract_lets -merge -useContext +onlyGivenNames -underBinder v2
    have k3 : Kept w a v2 := by
      refine Kept.foldl ?_ (fun p4 x4 h4 => ?_)
      · exact h1
      · exact State.blowOne_kept h4
    exact Kept.put k3
  · extract_lets -merge -useContext +onlyGivenNames -underBinder v5
    have k6 : Kept w a v5 := by
      refine Kept.foldl ?_ (fun p7 x7 h7 => ?_)
      · exact h1
      · exact State.blowUnused_kept h7
    extract_lets -merge -useContext +onlyGivenNames -underBinder v8
    have k9 : Kept w a v8 := by
      refine Kept.elim ?_ (fun x => ?_)
      · exact k6
      · exact State.spend_kept k6
    exact State.dropCommit_kept (State.withdraw_kept k9)
  · extract_lets -merge -useContext +onlyGivenNames -underBinder v10
    have k11 : Kept w a v10 := by
      refine Kept.foldl ?_ (fun p12 x12 h12 => ?_)
      · exact h1
      · exact State.blowUnused_kept h12
    refine Kept.elim ?_ (fun x => ?_)
    · exact k11
    · extract_lets -merge -useContext +onlyGivenNames -underBinder v13
      have k14 : Kept w a v13 := State.spend_kept k11
      exact Kept.put k14

theorem State.settleFuses_kept {w : Bool} {a : State} {y1 y2} (h1 : Kept w a y1) :
    Kept w a (State.settleFuses y1 y2) := by
  unfold State.settleFuses
  refine Kept.ite ?_ ?_
  · exact State.blowFuses_kept h1
  · exact h1

theorem State.holdTb_kept {w : Bool} {a : State} {y1 y2} (h1 : Kept w a y1) :
    Kept w a (State.holdTb y1 y2) := by
  unfold State.holdTb
  extract_lets -merge -useContext +onlyGivenNames -underBinder v1
  exact Kept.put h1

theorem State.holdDef_kept {w : Bool} {a : State} {y1 y2 y3} (h1 : Kept w a y1) :
    Kept w a (State.holdDef y1 y2 y3) := by
  unfold State.holdDef
  extract_lets -merge -useContext +onlyGivenNames -underBinder v1
  exact Kept.put h1

theorem State.swapProduction_kept {w : Bool} {a : State} {y1 y2} (h1 : Kept w a y1) :
    Kept w a (State.swapProduction y1 y2) := by
  unfold State.swapProduction
  refine Kept.ite ?_ ?_
  · exact h1
  · exact State.rotateProduction_kept h1

theorem State.swapValue_kept {w : Bool} {a : State} {y1 y2 y3} (h1 : Kept w a y1) :
    Kept w a (State.swapValue y1 y2 y3) := by
  unfold State.swapValue
  refine Kept.ite ?_ ?_
  · exact State.holdTb_kept h1
  · refine Kept.ite ?_ ?_
    · exact State.holdDef_kept h1
    · refine Kept.ite ?_ ?_
      · exact State.swapProduction_kept h1
      · refine Kept.ite ?_ ?_
        · exact h1
        · exact State.putSetting_kept h1

theorem State.noteLimit_kept {w : Bool} {a : State} {y1 y2 y3} (h1 : Kept w a y1) :
    Kept w a (State.noteLimit y1 y2 y3) := by
  unfold State.noteLimit
  extract_lets -merge -useContext +onlyGivenNames -underBinder v1
  exact Kept.put h1

theorem State.writeHeaders_kept {a : State} {y1} (h1 : Kept true a y1) :
    Kept true a (State.writeHeaders y1) := by
  unfold State.writeHeaders
  refine Kept.foldl ?_ (fun p1 x1 h1 => ?_)
  · exact h1
  · exact State.writeHeader_kept h1

theorem State.takeCommand_kept {a : State} {y1} (h1 : Kept true a y1) :
    Kept true a (State.takeCommand y1) := by
  unfold State.takeCommand
  extract_lets -merge -useContext +onlyGivenNames -underBinder v1 v2
  have k3 : Kept true a v2 := by
    refine Kept.ite ?_ ?_
    · split
      · exact State.applyClose_kept h1
      · exact h1
    · refine Kept.ite ?_ ?_
      · exact State.applyDelete_kept h1
      · exact h1
  exact State.setObj_kept k3

theorem State.limitChanged_kept {a : State} {y1} (h1 : Kept true a y1) :
    Kept true a (State.limitChanged y1) := by
  unfold State.limitChanged
  refine Kept.foldl ?_ (fun p1 x1 h1 => ?_)
  · exact h1
  · extract_lets -merge -useContext +onlyGivenNames -underBinder v2
    have k3 : Kept true a v2 := State.reportStaged_kept h1
    refine Kept.ite ?_ ?_
    · exact State.drainDie_kept k3
    · exact k3

theorem State.loadMaint_kept {w : Bool} {a : State} {y1 y2 y3} (h1 : Kept w a y1) :
    Kept w a (State.loadMaint y1 y2 y3) := by
  unfold State.loadMaint
  extract_lets -merge -useContext +onlyGivenNames -underBinder v1
  have k2 : Kept w a v1 := by
    unfold v1
    split
    · refine Kept.ite ?_ ?_
      · exact State.drainTable_kept h1
      · exact h1
    · exact h1
  split
  · exact State.acceptMaint_kept k2
  · exact k2

theorem State.loadEntries_kept {w : Bool} {a : State} {y1 y2} (h1 : Kept w a y1) :
    Kept w a (State.loadEntries y1 y2) := by
  unfold State.loadEntries
  extract_lets -merge -useContext +onlyGivenNames -underBinder v1
  split
  · exact h1
  · extract_lets -merge -useContext +onlyGivenNames -underBinder v2
    have k3 : Kept w a v2 := by
      refine Kept.ite ?_ ?_
      · exact State.loadMaint_kept h1
      · exact h1
    extract_lets -merge -useContext +onlyGivenNames -underBinder v4
    refine Kept.foldl ?_ (fun p5 x5 h5 => ?_)
    · exact k3
    · extract_lets -merge -useContext +onlyGivenNames -underBinder v6
      exact State.loadMaint_kept h5

theorem State.swapEffect_kept {a : State} {y1 y2 y3 y4} (h1 : Kept true a y1) (h2 : Kept true a y2) :
    Kept true a (State.swapEffect y1 y2 y3 y4) := by
  unfold State.swapEffect
  extract_lets -merge -useContext +onlyGivenNames -underBinder v1
  refine Kept.ite ?_ ?_
  · exact State.noteLimit_kept h1
  · refine Kept.ite ?_ ?_
    · refine Kept.ite ?_ ?_
      · exact State.raise_kept h1
      · exact h1
    · refine Kept.ite ?_ ?_
      · refine Kept.ite ?_ ?_
        · exact State.writeHeaders_kept h1
        · exact h1
      · refine Kept.ite ?_ ?_
        · exact State.takeCommand_kept h1
        · refine Kept.ite ?_ ?_
          · refine Kept.ite ?_ ?_
            · exact State.beginConvert_kept h1
            · exact h1
          · refine Kept.ite ?_ ?_
            · exact State.limitChanged_kept h1
            · refine Kept.ite ?_ ?_
              · refine Kept.foldl ?_ (fun p2 x2 h2 => ?_)
                · exact h1
                · exact State.reportReserve_kept h2
              · refine Kept.ite ?_ ?_
                · refine Kept.foldl ?_ (fun p3 x3 h3 => ?_)
                  · exact h1
                  · refine Kept.ite ?_ ?_
                    · exact State.checkWorn_kept h3
                    · exact h3
                · refine Kept.ite ?_ ?_
                  · refine Kept.foldl ?_ (fun p4 x4 h4 => ?_)
                    · exact h1
                    · refine Kept.ite ?_ ?_
                      · refine State.checkSpare_kept ?_ ?_
                        · exact h4
                        · exact h2
                      · exact h4
                  · refine Kept.ite ?_ ?_
                    · refine Kept.ite ?_ ?_
                      · exact State.recap_kept h1
                      · exact h1
                    · refine Kept.ite ?_ ?_
                      · exact State.setObj_kept h1
                      · refine Kept.ite ?_ ?_
                        · exact State.applyShares_kept h1
                        · refine Kept.ite ?_ ?_
                          · exact State.setAttachments_kept h1
                          · refine Kept.ite ?_ ?_
                            · exact State.loadBlobs_kept h1
                            · refine Kept.ite ?_ ?_
                              · exact State.loadKeyStates_kept h1
                              · refine Kept.ite ?_ ?_
                                · refine Kept.ite ?_ ?_
                                  · exact State.setRing_kept h1
                                  · exact h1
                                · refine Kept.ite ?_ ?_
                                  · refine Kept.ite ?_ ?_
                                    · exact State.setRing_kept h1
                                    · refine Kept.ite ?_ ?_
                                      · exact State.setRing_kept h1
                                      · exact h1
                                  · refine Kept.ite ?_ ?_
                                    · exact State.loadEntries_kept h1
                                    · refine Kept.ite ?_ ?_
                                      · refine Kept.ite ?_ ?_
                                        · exact State.startJoin_kept h1
                                        · refine Kept.ite ?_ ?_
                                          · exact State.startLeave_kept h1
                                          · exact h1
                                      · refine Kept.ite ?_ ?_
                                        · exact State.setLevel_kept h1
                                        · exact h1

theorem State.swapCommit_kept {a : State} {y1 y2} (h1 : Kept true a y1) :
    Kept true a (State.swapCommit y1 y2) := by
  unfold State.swapCommit
  extract_lets -merge -useContext +onlyGivenNames -underBinder v1 v2 v3 v4 v5
  have k6 : Kept true a v5 := by
    refine Kept.ite ?_ ?_
    · exact h1
    · exact Kept.put h1
  extract_lets -merge -useContext +onlyGivenNames -underBinder v7
  have k8 : Kept true a v7 := by
    refine Kept.foldl ?_ (fun p9 x9 h9 => ?_)
    · exact k6
    · exact State.swapValue_kept h9
  refine Kept.foldl ?_ (fun p10 x10 h10 => ?_)
  · exact k8
  · refine State.swapEffect_kept ?_ ?_
    · exact h10
    · exact h1

theorem State.swapAll_kept {a : State} {y1} (h1 : Kept true a y1) :
    Kept true a ((State.swapAll y1).1) := by
  unfold State.swapAll
  extract_lets -merge -useContext +onlyGivenNames -underBinder v1 v2
  have k3 : Kept true a v2 := by
    refine Kept.foldl ?_ (fun p4 x4 h4 => ?_)
    · exact h1
    · exact State.settleFuses_kept h4
  extract_lets -merge -useContext +onlyGivenNames -underBinder v5 v6 v7
  have k8 : Kept true a v7 := Kept.put k3
  refine Kept.foldl ?_ (fun p9 x9 h9 => ?_)
  · exact k8
  · exact State.swapCommit_kept h9

theorem State.releaseHeld_kept {a : State} {y1} (h1 : Kept true a y1) :
    Kept true a (State.releaseHeld y1) := by
  unfold State.releaseHeld
  split
  extract_lets -merge -useContext +onlyGivenNames -underBinder v1 v2
  have k3 : Kept true a v2 := by
    refine Kept.foldl ?_ (fun p4 x4 h4 => ?_)
    · exact Kept.put h1
    · exact State.setObj_kept h4
  split
  extract_lets -merge -useContext +onlyGivenNames -underBinder v5
  have k6 : Kept true a v5 := by
    refine Kept.foldl ?_ (fun p7 x7 h7 => ?_)
    · exact k3
    · exact State.setObj_kept h7
  extract_lets -merge -useContext +onlyGivenNames -underBinder v8 v9
  have k10 : Kept true a v9 := Kept.put k6
  refine Kept.ite ?_ ?_
  · exact k10
  · exact State.recap_kept k10

theorem State.reportCommit_kept {w : Bool} {a : State} {y1 y2} (h1 : Kept w a y1) :
    Kept w a (State.reportCommit y1 y2) := by
  unfold State.reportCommit
  extract_lets -merge -useContext +onlyGivenNames -underBinder v1 v2
  have k3 : Kept w a v2 := State.logCommit_kept (State.endCommit_kept h1)
  refine Kept.ite ?_ ?_
  · exact State.bump_kept k3
  · exact k3

theorem execLimitedChangeFuseBlow_kept {w : Bool} {a : State} {y1 y2 y3} (h1 : Kept w a y3) :
    Res.kept w a (execLimitedChangeFuseBlow y1 y2 y3) := by
  unfold execLimitedChangeFuseBlow
  split
  · exact Res.kept_next (State.blowFuses_kept h1)
  · exact Res.kept_next h1

/-! ### LakeTake -/

theorem State.settleResets_kept {a : State} {y1} (h1 : Kept true a y1) :
    Kept true a (State.settleResets y1) := by
  unfold State.settleResets
  extract_lets -merge -useContext +onlyGivenNames -underBinder v1
  have k2 : Kept true a v1 := State.waitingResets_kept h1
  refine Kept.ite ?_ ?_
  · exact State.startRom_kept (State.softReset_kept k2)
  · exact k2

theorem State.noteCommit_kept {w : Bool} {a : State} {y1 y2 y3} (h1 : Kept w a y1) :
    Kept w a (State.noteCommit y1 y2 y3) := by
  unfold State.noteCommit
  extract_lets -merge -useContext +onlyGivenNames -underBinder v1 v2 v3 v4 v5
  exact State.setDom_kept h1

theorem State.frameCommitted_kept {a : State} {y1 y2 y3 y4 y5} (h1 : Kept true a y1) :
    Kept true a (State.frameCommitted y1 y2 y3 y4 y5) := by
  unfold State.frameCommitted
  split
  · exact h1
  · extract_lets -merge -useContext +onlyGivenNames -underBinder v1
    refine Kept.ite ?_ ?_
    · exact State.dropFrame_kept h1
    · extract_lets -merge -useContext +onlyGivenNames -underBinder v2
      exact State.noteCommit_kept (State.recordFrame_kept (State.missEverywhere_kept h1))

theorem State.sendCommit_kept {a : State} {y1 y2 y3 y4 y5} (h1 : Kept true a y1) :
    Kept true a (State.sendCommit y1 y2 y3 y4 y5) := by
  unfold State.sendCommit
  extract_lets -merge -useContext +onlyGivenNames -underBinder v1 v2 v3 v4 v5
  have k6 : Kept true a v5 := by
    refine Kept.foldl ?_ (fun p7 x7 h7 => ?_)
    · exact h1
    · exact State.lakeSend_kept h7
  extract_lets -merge -useContext +onlyGivenNames -underBinder v8 v9
  have k10 : Kept true a v9 := Kept.put k6
  exact State.frameCommitted_kept k10

theorem State.tryCommit_kept {a : State} {y1 y2 y3 y4 y5} (h1 : Kept true a y1) :
    Kept true a (State.tryCommit y1 y2 y3 y4 y5) := by
  unfold State.tryCommit
  split
  · exact h1
  · extract_lets -merge -useContext +onlyGivenNames -underBinder v1 v2 v3
    refine Kept.ite ?_ ?_
    · exact h1
    · refine Kept.ite ?_ ?_
      · exact State.sendCommit_kept h1
      · refine Kept.ite ?_ ?_
        · exact State.sendCommit_kept h1
        · exact h1

theorem State.addPart_kept {w : Bool} {a : State} {y1 y2} (h1 : Kept w a y1) :
    Kept w a (State.addPart y1 y2) := by
  unfold State.addPart
  refine Kept.ite ?_ ?_
  · exact h1
  · exact Kept.put h1

theorem State.offerPart_kept {a : State} {y1 y2 y3} (h1 : Kept true a y1) :
    Kept true a (State.offerPart y1 y2 y3) := by
  unfold State.offerPart
  extract_lets -merge -useContext +onlyGivenNames -underBinder v1 v2
  have k3 : (∀ z0 z1, Kept true a z0 → Kept true a (v2 z0 z1)) := by
    intro q4 q5 q6
    exact State.modTake_kept q6
  refine Kept.ite ?_ ?_
  · exact State.tryCommit_kept (State.addPart_kept (k3 _ _ h1))
  · exact State.lakeSend_kept (k3 _ _ h1)

theorem execFrameRecord_kept {a : State} {y1 y2 y3 y4 y5} (h1 : Kept true a y5) :
    Res.kept true a (execFrameRecord y1 y2 y3 y4 y5) := by
  unfold execFrameRecord
  split
  · exact Res.kept_next h1
  · split
    · exact Res.kept_next h1
    · refine Res.kept_ite ?_ ?_
      · exact Res.kept_next h1
      · refine Res.kept_ite ?_ ?_
        · exact Res.kept_next (State.settleRings_kept (State.recordFrame_kept h1))
        · exact Res.kept_next (State.settleRings_kept (State.offerPart_kept h1))

theorem execTakeSeal_kept {a : State} {y1 y2 y3} (h1 : Kept true a y3) :
    Res.kept true a (execTakeSeal y1 y2 y3) := by
  unfold execTakeSeal
  split
  · exact Res.kept_next h1
  · refine Res.kept_ite ?_ ?_
    · exact Res.kept_next (State.settleResets_kept (State.settleRings_kept (State.sealTake_kept h1)))
    · exact Res.kept_next h1

theorem State.activateNow_kept {a : State} {y1 y2 y3} (h1 : Kept true a y1) :
    Kept true a (State.activateNow y1 y2 y3) := by
  unfold State.activateNow
  extract_lets -merge -useContext +onlyGivenNames -underBinder v1 v2
  have k3 : Kept true a v2 := by
    refine Kept.foldl ?_ (fun p4 x4 h4 => ?_)
    · exact h1
    · exact State.notice_kept h4
  extract_lets -merge -useContext +onlyGivenNames -underBinder v5
  have k6 : Kept true a v5 := by
    refine Kept.foldl ?_ (fun p7 x7 h7 => ?_)
    · exact k3
    · exact State.modCtrl_kept h7
  extract_lets -merge -useContext +onlyGivenNames -underBinder v8 v9
  have k10 : Kept true a v9 := Kept.put k6
  extract_lets -merge -useContext +onlyGivenNames -underBinder v11
  have k12 : Kept true a v11 := State.leaveLake_kept (State.started_kept k10)
  exact Kept.put k12

theorem execFwCommitActivateNow_kept {a : State} {y1 y2 y3} (h1 : Kept true a y3) :
    Res.kept true a (execFwCommitActivateNow y1 y2 y3) := by
  unfold execFwCommitActivateNow
  refine startCmd_kept ?_ ?_
  · exact h1
  · intro q1
    refine Res.kept_ite ?_ ?_
    · exact Res.kept_next (State.failCmd_kept h1)
    · refine Res.kept_ite ?_ ?_
      · exact Res.kept_next (State.refuseFw_kept h1)
      · refine Res.kept_ite ?_ ?_
        · exact Res.kept_next (State.refuseFw_kept h1)
        · refine Res.kept_ite ?_ ?_
          · exact Res.kept_next (State.refuseFw_kept h1)
          · exact Res.kept_next (State.activateNow_kept h1)

theorem State.activationEnds_kept {a : State} {y1 y2 y3 y4} (h1 : Kept true a y1) :
    Kept true a (State.activationEnds y1 y2 y3 y4) := by
  unfold State.activationEnds
  extract_lets -merge -useContext +onlyGivenNames -underBinder v1
  have k2 : Kept true a v1 := by
    refine Kept.foldl ?_ (fun p3 x3 h3 => ?_)
    · exact h1
    · exact State.modCtrl_kept h3
  extract_lets -merge -useContext +onlyGivenNames -underBinder v4 v5
  have k6 : Kept true a v5 := Kept.put k2
  extract_lets -merge -useContext +onlyGivenNames -underBinder v7
  have k8 : Kept true a v7 := State.bump_kept (State.setObj_kept (State.setObj_kept (State.setObj_kept k6)))
  extract_lets -merge -useContext +onlyGivenNames -underBinder v9
  have k10 : Kept true a v9 := State.useFree_kept (State.extendBoot_kept k8)
  extract_lets -merge -useContext +onlyGivenNames -underBinder v11
  have k12 : Kept true a v11 := by
    refine State.raise_kept ?_
    refine Kept.ite ?_ ?_
    · exact State.succeed_kept k10
    · exact k10
  refine Kept.ite ?_ ?_
  · exact State.startJoin_kept k12
  · exact k12

theorem execFirmwareActivationResume_kept {a : State} {y1 y2} (h1 : Kept true a y2) :
    Res.kept true a (execFirmwareActivationResume y1 y2) := by
  unfold execFirmwareActivationResume
  split
  · exact Res.kept_next h1
  · refine Res.kept_ite ?_ ?_
    · exact Res.kept_next h1
    · exact Res.kept_next (State.activationEnds_kept h1)

theorem State.afterDrop_kept {a : State} {y1 y2} (h1 : Kept true a y1) (h2 : Kept true a y2) :
    Kept true a (State.afterDrop y1 y2) := by
  unfold State.afterDrop
  extract_lets -merge -useContext +onlyGivenNames -underBinder v1
  have k2 : Kept true a v1 := by
    refine Kept.foldl ?_ (fun p3 x3 h3 => ?_)
    · exact h1
    · refine Kept.ite ?_ ?_
      · exact h3
      · refine Kept.foldl ?_ (fun p4 x4 h4 => ?_)
        · exact h3
        · exact State.offerPart_kept h4
  extract_lets -merge -useContext +onlyGivenNames -underBinder v5 v6 v7
  refine Kept.foldl ?_ (fun p8 x8 h8 => ?_)
  · exact k2
  · exact State.tryCommit_kept h8

theorem execLakeHeartbeat_kept {a : State} {y1 y2 y3} (h1 : Kept true a y3) :
    Res.kept true a (execLakeHeartbeat y1 y2 y3) := by
  unfold execLakeHeartbeat
  extract_lets -merge -useContext +onlyGivenNames -underBinder v1 v2 v3
  have k4 : Kept true a v3 := by
    refine Kept.ite ?_ ?_
    · exact Kept.put h1
    · exact h1
  refine onMsg_kept ?_ ?_
  · exact k4
  · intro q5 q6
    refine Kept.ite ?_ ?_
    · refine State.settleRings_kept ?_
      refine State.afterDrop_kept ?_ ?_
      · exact State.heardHeartbeat_kept q6
      · exact q6
    · exact State.heardHeartbeat_kept q6

theorem execNodeLost_kept {a : State} {y1 y2} (h1 : Kept true a y2) :
    Res.kept true a (execNodeLost y1 y2) := by
  unfold execNodeLost
  refine Res.kept_ite ?_ ?_
  · exact Res.kept_next h1
  · refine Res.kept_ite ?_ ?_
    · exact Res.kept_next h1
    · refine Res.kept_ite ?_ ?_
      · refine Res.kept_next ?_
        refine State.settleRings_kept ?_
        refine State.afterDrop_kept ?_ ?_
        · exact State.dropNode_kept h1
        · exact h1
      · exact Res.kept_next (Kept.put h1)

theorem State.peerLeaves_kept {a : State} {y1 y2} (h1 : Kept true a y1) :
    Kept true a (State.peerLeaves y1 y2) := by
  unfold State.peerLeaves
  refine Kept.ite ?_ ?_
  · refine State.settleRings_kept ?_
    refine State.afterDrop_kept ?_ ?_
    · exact State.dropNode_kept h1
    · exact h1
  · exact Kept.put h1

theorem execLeave_kept {a : State} {y1 y2 y3} (h1 : Kept true a y3) :
    Res.kept true a (execLeave y1 y2 y3) := by
  unfold execLeave
  refine onMsg_kept ?_ ?_
  · exact h1
  · intro q1 q2
    exact State.peerLeaves_kept q2

theorem State.partHeard_kept {a : State} {y1 y2 y3 y4 y5 y6} (h1 : Kept true a y1) :
    Kept true a (State.partHeard y1 y2 y3 y4 y5 y6) := by
  unfold State.partHeard
  refine Kept.ite ?_ ?_
  · exact State.settleRings_kept (State.tryCommit_kept (State.addPart_kept h1))
  · exact h1

theorem execPartReady_kept {a : State} {y1 y2 y3 y4 y5 y6} (h1 : Kept true a y6) :
    Res.kept true a (execPartReady y1 y2 y3 y4 y5 y6) := by
  unfold execPartReady
  refine onMsg_kept ?_ ?_
  · exact h1
  · intro q1 q2
    exact State.partHeard_kept q2

theorem execFrameCommit_kept {a : State} {y1 y2 y3 y4 y5 y6} (h1 : Kept true a y6) :
    Res.kept true a (execFrameCommit y1 y2 y3 y4 y5 y6) := by
  unfold execFrameCommit
  refine onMsg_kept ?_ ?_
  · exact h1
  · intro q1 q2
    exact State.settleRings_kept (State.frameCommitted_kept q2)

theorem execFrameCommitTimeout_kept {a : State} {y1 y2 y3 y4} (h1 : Kept true a y4) :
    Res.kept true a (execFrameCommitTimeout y1 y2 y3 y4) := by
  unfold execFrameCommitTimeout
  split
  · exact Res.kept_next h1
  · extract_lets -merge -useContext +onlyGivenNames -underBinder v1
    refine Res.kept_ite ?_ ?_
    · exact Res.kept_next h1
    · refine Res.kept_ite ?_ ?_
      · exact Res.kept_next h1
      · exact Res.kept_next (State.settleRings_kept (State.sendCommit_kept h1))

/-! ### Boundary -/

theorem State.setClock_kept {w : Bool} {a : State} {y1 y2 y3} (h1 : Kept w a y1) :
    Kept w a (State.setClock y1 y2 y3) := by
  unfold State.setClock
  exact Kept.put h1

theorem State.advancePhase_kept {w : Bool} {a : State} {y1 y2 y3} (h1 : Kept w a y1) :
    Kept w a (State.advancePhase y1 y2 y3) := by
  unfold State.advancePhase
  extract_lets -merge -useContext +onlyGivenNames -underBinder v1
  have k2 : Kept w a v1 := State.setClock_kept h1
  refine Kept.ite ?_ ?_
  · exact Kept.put k2
  · exact k2

theorem execPhaseAdvance_kept {w : Bool} {a : State} {y1 y2} (h1 : Kept w a y2) :
    Res.kept w a (execPhaseAdvance y1 y2) := by
  unfold execPhaseAdvance
  refine onDie_kept ?_ ?_
  · exact h1
  · intro q1
    extract_lets -merge -useContext +onlyGivenNames -underBinder v2
    refine Res.kept_ite ?_ ?_
    · exact Res.kept_next h1
    · exact Res.kept_next (State.releaseInterrupts_kept (State.advancePhase_kept h1))

theorem State.correctOffset_kept {w : Bool} {a : State} {y1 y2 y3} (h1 : Kept w a y1) :
    Kept w a (State.correctOffset y1 y2 y3) := by
  unfold State.correctOffset
  refine Kept.ite ?_ ?_
  · exact h1
  · extract_lets -merge -useContext +onlyGivenNames -underBinder v1 v2 v3
    have k4 : Kept w a v3 := State.setObj_kept (State.setClock_kept h1)
    refine Kept.ite ?_ ?_
    · exact State.raise_kept k4
    · exact k4

theorem State.correctOffsets_kept {w : Bool} {a : State} {y1 y2} (h1 : Kept w a y1) :
    Kept w a (State.correctOffsets y1 y2) := by
  unfold State.correctOffsets
  extract_lets -merge -useContext +onlyGivenNames -underBinder v1
  have k2 : Kept w a v1 := by
    refine Kept.foldl ?_ (fun p3 x3 h3 => ?_)
    · exact h1
    · exact State.correctOffset_kept h3
  exact State.setObj_kept k2

theorem State.deliverPtp_kept {w : Bool} {a : State} {y1 y2} (h1 : Kept w a y2) :
    Kept w a (State.deliverPtp y1 y2) := by
  induction y1 generalizing y2 with
  | zero =>
    unfold State.deliverPtp
    exact h1
  | succ n ih =>
    unfold State.deliverPtp
    refine Kept.ite ?_ ?_
    · exact h1
    · extract_lets -merge -useContext +onlyGivenNames -underBinder v1 v2 v3 v4 v5
      refine Kept.ite ?_ ?_
      · exact h1
      · exact ih (State.sourceBoundary_kept h1)

theorem State.startClocks_kept {w : Bool} {a : State} {y1 y2 y3} (h1 : Kept w a y1) :
    Kept w a (State.startClocks y1 y2 y3) := by
  unfold State.startClocks
  exact Kept.put h1

theorem State.logTimecode_kept {w : Bool} {a : State} {y1} (h1 : Kept w a y1) :
    Kept w a (State.logTimecode y1) := by
  unfold State.logTimecode
  refine Kept.ite ?_ ?_
  · exact Kept.put h1
  · exact Kept.put h1

theorem State.measureLock_kept {w : Bool} {a : State} {y1} (h1 : Kept w a y1) :
    Kept w a (State.measureLock y1) := by
  unfold State.measureLock
  refine Kept.ite ?_ ?_
  · exact Kept.put h1
  · extract_lets -merge -useContext +onlyGivenNames -underBinder v1 v2 v3 v4
    have k5 : Kept w a v4 := Kept.put h1
    refine Kept.ite ?_ ?_
    · exact State.enterTime_kept (Kept.put k5)
    · exact k5

theorem State.renumber_kept {w : Bool} {a : State} {y1 y2} (h1 : Kept w a y1) :
    Kept w a (State.renumber y1 y2) := by
  unfold State.renumber
  extract_lets -merge -useContext +onlyGivenNames -underBinder v1
  exact Kept.put h1

theorem State.rebase_kept {w : Bool} {a : State} {y1} (h1 : Kept w a y1) :
    Kept w a (State.rebase y1) := by
  unfold State.rebase
  refine Kept.ite ?_ ?_
  · extract_lets -merge -useContext +onlyGivenNames -underBinder v1 v2
    exact State.raise_kept (State.renumber_kept (Kept.put h1))
  · exact h1

theorem State.finishAdoption_kept {w : Bool} {a : State} {y1} (h1 : Kept w a y1) :
    Kept w a (State.finishAdoption y1) := by
  unfold State.finishAdoption
  extract_lets -merge -useContext +onlyGivenNames -underBinder v1
  have k2 : Kept w a v1 := by
    unfold v1
    split
    · refine Kept.ite ?_ ?_
      · exact State.tellActive_kept (State.rebase_kept (State.setActive_kept h1))
      · exact h1
    · exact h1
  exact Kept.put k2

theorem State.timeBoundary_kept {w : Bool} {a : State} {y1 y2} (h1 : Kept w a y1) :
    Kept w a (State.timeBoundary y1 y2) := by
  unfold State.timeBoundary
  extract_lets -merge -useContext +onlyGivenNames -underBinder v1
  have k2 : Kept w a v1 := State.deliverPtp_kept (State.startClocks_kept h1)
  exact State.logTimecode_kept (State.updateTimecode_kept (State.measureLock_kept (State.rebase_kept (State.selectSource_kept (State.finishAdoption_kept k2)))))

theorem State.reachBoundary_kept {w : Bool} {a : State} {y1} (h1 : Kept w a y1) :
    Kept w a (State.reachBoundary y1) := by
  unfold State.reachBoundary
  extract_lets -merge -useContext +onlyGivenNames -underBinder v1 v2 v3
  exact Kept.put h1

theorem State.takeBoundary_kept {a : State} {y1} (h1 : Kept true a y1) :
    Kept true a (State.takeBoundary y1) := by
  unfold State.takeBoundary
  extract_lets -merge -useContext +onlyGivenNames -underBinder v1
  have k2 : Kept true a v1 := State.endFilters_kept (State.applyOpens_kept (State.applyClosings_kept h1))
  split
  · exact State.setAttachments_kept k2
  · exact k2

theorem State.changeClasses_kept {w : Bool} {a : State} {y1 y2} (h1 : Kept w a y1) (h2 : Kept w a y2) :
    Kept w a (State.changeClasses y1 y2) := by
  unfold State.changeClasses
  refine Kept.foldl ?_ (fun p1 x1 h1 => ?_)
  · exact h1
  · extract_lets -merge -useContext +onlyGivenNames -underBinder v2 v3
    refine Kept.ite ?_ ?_
    · exact State.rollBack_kept h1
    · exact h1

theorem State.formAll_kept {a : State} {y1 y2} (h1 : Kept true a y1) (h2 : Kept true a y2) :
    Kept true a (State.formAll y1 y2) := by
  unfold State.formAll
  refine Kept.foldl ?_ (fun p1 x1 h1 => ?_)
  · exact h1
  · extract_lets -merge -useContext +onlyGivenNames -underBinder v2
    have k3 : Kept true a v2 := State.formLanes_kept (State.formDie_kept h1)
    extract_lets -merge -useContext +onlyGivenNames -underBinder v4 v5
    have k6 : Kept true a v5 := by
      refine Kept.ite ?_ ?_
      · exact State.holdDown_kept (State.hostPortDown_kept k3)
      · exact k3
    extract_lets -merge -useContext +onlyGivenNames -underBinder v7 v8
    have k9 : Kept true a v8 := by
      refine Kept.ite ?_ ?_
      · exact k6
      · exact State.setObj_kept (Kept.put k6)
    exact State.formPf_kept k9

theorem State.boundaryFit_kept {w : Bool} {a : State} {y1 y2} (h1 : Kept w a y1) :
    Kept w a (State.boundaryFit y1 y2) := by
  unfold State.boundaryFit
  extract_lets -merge -useContext +onlyGivenNames -underBinder v1
  have k2 : Kept w a v1.1 := State.fitAll_kept h1
  extract_lets -merge -useContext +onlyGivenNames -underBinder v3
  have k4 : Kept w a v3 := k2
  exact Kept.put k2

theorem State.swap_kept {a : State} {y1} (h1 : Kept true a y1) :
    Kept true a (State.swap y1) := by
  unfold State.swap
  extract_lets -merge -useContext +onlyGivenNames -underBinder v1
  have k2 : Kept true a v1.1 := State.swapAll_kept (State.releaseHeld_kept h1)
  extract_lets -merge -useContext +onlyGivenNames -underBinder v3
  have k4 : Kept true a v3 := by
    refine State.rehold_kept ?_
    refine Kept.foldl ?_ (fun p5 x5 h5 => ?_)
    · exact k2
    · exact State.rejudge_kept h5
  extract_lets -merge -useContext +onlyGivenNames -underBinder v6
  have k7 : Kept true a v6 := by
    refine State.changeClasses_kept ?_ ?_
    · refine State.formAll_kept ?_ ?_
      · exact k4
      · exact h1
    · exact h1
  extract_lets -merge -useContext +onlyGivenNames -underBinder v8 v9
  have k10 : Kept true a v9 := by
    refine Kept.foldl ?_ (fun p11 x11 h11 => ?_)
    · exact State.boundaryFit_kept k7
    · exact State.loadReservations_kept h11
  refine Kept.foldl ?_ (fun p12 x12 h12 => ?_)
  · exact k10
  · exact State.reportCommit_kept h12

theorem State.followFaults_kept {w : Bool} {a : State} {y1} (h1 : Kept w a y1) :
    Kept w a (State.followFaults y1) := by
  unfold State.followFaults
  refine Kept.ite ?_ ?_
  · exact State.recomputeMargins_kept (Kept.put h1)
  · exact h1

theorem State.mediaBoundary_kept {w : Bool} {a : State} {y1 y2 y3} (h1 : Kept w a y1) (h2 : Kept w a y2) :
    Kept w a (State.mediaBoundary y1 y2 y3) := by
  unfold State.mediaBoundary
  refine Kept.ite ?_ ?_
  · exact h2
  · extract_lets -merge -useContext +onlyGivenNames -underBinder v1
    have k2 : Kept w a v1 := by
      refine Kept.ite ?_ ?_
      · exact State.raise_kept h2
      · exact h2
    extract_lets -merge -useContext +onlyGivenNames -underBinder v3 v4 v5
    have k6 : Kept w a v5 := State.setMd_kept k2
    extract_lets -merge -useContext +onlyGivenNames -underBinder v7 v8
    have k9 : Kept w a v8 := State.setObj_kept (State.setObj_kept k6)
    exact State.levelWear_kept (State.fillReserve_kept (State.checkConvert_kept k9))

theorem State.hostBoundary_kept {a : State} {y1 y2} (h1 : Kept true a y1) :
    Kept true a (State.hostBoundary y1 y2) := by
  unfold State.hostBoundary
  extract_lets -merge -useContext +onlyGivenNames -underBinder v1
  have k2 : Kept true a v1 := State.startHeld_kept (State.applyVqs_kept h1)
  extract_lets -merge -useContext +onlyGivenNames -underBinder v3
  have k4 : Kept true a v3 := by
    refine Kept.foldl ?_ (fun p5 x5 h5 => ?_)
    · exact k2
    · exact State.feedDie_kept h5
  extract_lets -merge -useContext +onlyGivenNames -underBinder v6 v7
  have k8 : Kept true a v7 := by
    refine State.addSmart_kept ?_
    refine Kept.ite ?_ ?_
    · exact State.noteBusy_kept k4
    · exact k4
  refine State.searchBoundary_kept ?_
  refine Kept.foldl ?_ (fun p9 x9 h9 => ?_)
  · exact k8
  · exact State.chargeDie_kept h9

theorem State.powerBoundary_kept {w : Bool} {a : State} {y1} (h1 : Kept w a y1) :
    Kept w a (State.powerBoundary y1) := by
  unfold State.powerBoundary
  exact State.announce_kept (State.enforce_kept (State.applyGovernor_kept h1))

theorem State.scaleAcc_kept {w : Bool} {a : State} {y1 y2} (h1 : Kept w a y1) :
    Kept w a (State.scaleAcc y1 y2) := by
  unfold State.scaleAcc
  extract_lets -merge -useContext +onlyGivenNames -underBinder v1
  refine Kept.ite ?_ ?_
  · exact h1
  · exact Kept.put h1

theorem State.setRate_kept {w : Bool} {a : State} {y1 y2 y3 y4 y5 y6} (h1 : Kept w a y1) :
    Kept w a (State.setRate y1 y2 y3 y4 y5 y6) := by
  unfold State.setRate
  exact Kept.put h1

theorem State.planFree_kept {w : Bool} {a : State} {y1} (h1 : Kept w a y1) :
    Kept w a (State.planFree y1) := by
  unfold State.planFree
  extract_lets -merge -useContext +onlyGivenNames -underBinder v1 v2
  split
  · refine Kept.ite ?_ ?_
    · exact State.setRate_kept h1
    · extract_lets -merge -useContext +onlyGivenNames -underBinder v3
      exact State.setRate_kept h1
  · refine Kept.ite ?_ ?_
    · exact State.setRate_kept h1
    · exact State.setRate_kept h1

theorem State.planEpoch_kept {w : Bool} {a : State} {y1} (h1 : Kept w a y1) :
    Kept w a (State.planEpoch y1) := by
  unfold State.planEpoch
  refine Kept.ite ?_ ?_
  · extract_lets -merge -useContext +onlyGivenNames -underBinder v1
    have k2 : Kept w a v1 := by
      unfold v1
      split
      · exact State.becomeActive_kept h1
      · exact h1
    exact State.setRate_kept k2
  · exact State.planFree_kept h1

theorem State.crossBoundary_kept {a : State} {y1 y2} (h1 : Kept true a y1) :
    Kept true a (State.crossBoundary y1 y2) := by
  unfold State.crossBoundary
  extract_lets -merge -useContext +onlyGivenNames -underBinder v1 v2 v3 v4
  have k5 : Kept true a v4 := State.correctOffsets_kept (State.timeBoundary_kept (State.reachBoundary_kept h1))
  extract_lets -merge -useContext +onlyGivenNames -underBinder v6
  have k7 : Kept true a v6 := State.takeBoundary_kept (State.swap_kept k5)
  extract_lets -merge -useContext +onlyGivenNames -underBinder v8
  have k9 : Kept true a v8 := by
    refine State.makeStepDowns_kept ?_
    refine State.boundaryDuration_kept ?_ ?_
    · exact State.followFaults_kept k7
    · exact h1
  extract_lets -merge -useContext +onlyGivenNames -underBinder v10
  have k11 : Kept true a v10 := by
    refine State.retryWaiting_kept ?_
    refine State.retryStalled_kept ?_
    refine Kept.foldl ?_ (fun p12 x12 h12 => ?_)
    · exact k9
    · refine State.mediaBoundary_kept ?_ ?_
      · exact h1
      · exact h12
  extract_lets -merge -useContext +onlyGivenNames -underBinder v13
  have k14 : Kept true a v13 := State.endLxns_kept (State.hostBoundary_kept (State.powerBoundary_kept k11))
  exact State.settleResets_kept (State.sendTimes_kept (State.scaleAcc_kept (State.planEpoch_kept k14)))

theorem execEpochBoundary_kept {a : State} {y1 y2} (h1 : Kept true a y2) :
    Res.kept true a (execEpochBoundary y1 y2) := by
  unfold execEpochBoundary
  refine Res.kept_ite ?_ ?_
  · exact Res.kept_next h1
  · exact Res.kept_next (State.crossBoundary_kept h1)

/-! ### Logs -/

theorem State.noteLogRead_kept {w : Bool} {a : State} {y1} (h1 : Kept w a y1) :
    Kept w a (State.noteLogRead y1) := by
  unfold State.noteLogRead
  exact Kept.put h1

theorem State.giveLog_kept {a : State} {y1 y2 y3 y4 y5 y6 y7} (h1 : Kept true a y1) :
    Kept true a (State.giveLog y1 y2 y3 y4 y5 y6 y7) := by
  unfold State.giveLog
  extract_lets -merge -useContext +onlyGivenNames -underBinder v1
  have k2 : Kept true a v1 := by
    refine Kept.ite ?_ ?_
    · exact State.noteLogRead_kept h1
    · exact h1
  extract_lets -merge -useContext +onlyGivenNames -underBinder v3
  have k4 : Kept true a v3 := by
    refine Kept.ite ?_ ?_
    · exact k2
    · refine Kept.ite ?_ ?_
      · exact State.modCtrl_kept k2
      · refine Kept.ite ?_ ?_
        · exact State.modCtrl_kept k2
        · exact k2
  exact State.succeed_kept (State.dataOut_kept k4)

theorem execGetLogPage_kept {a : State} {y1 y2 y3 y4 y5 y6} (h1 : Kept true a y6) :
    Res.kept true a (execGetLogPage y1 y2 y3 y4 y5 y6) := by
  unfold execGetLogPage
  refine startCmd_kept ?_ ?_
  · exact h1
  · intro q1
    split
    · exact Res.kept_next (State.failCmd_kept h1)
    · refine Res.kept_ite ?_ ?_
      · exact Res.kept_next (State.failCmd_kept h1)
      · exact Res.kept_next (State.giveLog_kept h1)

/-! ### SelkelCop -/

theorem State.useFree3_kept {w : Bool} {a : State} {y1} (h1 : Kept w a y1) :
    Kept w a (State.useFree3 y1) := by
  unfold State.useFree3
  exact State.useFree_kept (State.useFree_kept (State.useFree_kept h1))

theorem Ctx.searchFails_kept {w : Bool} {a : State} {y1 y2 y3 y4} (h1 : Kept w a y1.s) :
    Act.kept w a (Ctx.searchFails y1 y2 y3 y4) := by
  unfold Ctx.searchFails
  refine Ctx.answer_kept ?_ ?_
  · exact h1
  · exact State.useFree3_kept h1

theorem Ctx.searchKey_kept {w : Bool} {a : State} {y1 y2 y3} (h1 : Kept w a y1.s) :
    Act.kept w a (Ctx.searchKey y1 y2 y3) := by
  unfold Ctx.searchKey
  split
  · exact Ctx.searchFails_kept h1
  · refine Act.kept_ite ?_ ?_
    · exact Ctx.searchFails_kept h1
    · refine Act.kept_ite ?_ ?_
      · exact Ctx.searchFails_kept h1
      · refine Act.kept_ite ?_ ?_
        · refine Act.kept_done ?_
          extract_lets -merge -useContext +onlyGivenNames -underBinder v1
          have k2 : Kept w a v1.after := Ctx.plain_kept h1
          exact k2
        · split
          rename_i i3 i4 i5 i6 i7 i8
          refine Act.kept_ite ?_ ?_
          · exact Ctx.searchFails_kept (Kept.eq222 i8 (State.searchPackage_kept (State.bump_kept (State.bump_kept h1))))
          · refine Ctx.answer_kept ?_ ?_
            · exact h1
            · exact Kept.eq222 i8 (State.searchPackage_kept (State.bump_kept (State.bump_kept h1)))

theorem execSrch_kept {a : State} {y1 y2 y3} (h1 : Kept true a y3) :
    Res.kept true a (execSrch y1 y2 y3) := by
  unfold execSrch
  refine execOp_kept ?_ ?_
  · exact h1
  · intro q1 q2
    exact Ctx.searchKey_kept q2

theorem execSrch288_kept {a : State} {y1 y2 y3} (h1 : Kept true a y3) :
    Res.kept true a (execSrch288 y1 y2 y3) := by
  unfold execSrch288
  refine execOp_kept ?_ ?_
  · exact h1
  · intro q1 q2
    exact Ctx.searchKey_kept q2

theorem execSrch576_kept {a : State} {y1 y2 y3} (h1 : Kept true a y3) :
    Res.kept true a (execSrch576 y1 y2 y3) := by
  unfold execSrch576
  refine execOp_kept ?_ ?_
  · exact h1
  · intro q1 q2
    exact Ctx.searchKey_kept q2

theorem Ctx.withRecord_kept {w : Bool} {a : State} {y1 y2 y3} (h1 : Kept w a y1.s) (h2 : (∀ z0 z1, Act.kept w a (y3 z0 z1))) :
    Act.kept w a (Ctx.withRecord y1 y2 y3) := by
  unfold Ctx.withRecord
  refine Act.kept_ite ?_ ?_
  · exact Act.kept_trap
  · split
    · exact Act.kept_trap
    · refine Act.kept_ite ?_ ?_
      · exact Act.kept_trap
      · refine h2 _ _

theorem Ctx.maintTable_kept {w : Bool} {a : State} {y1 y2 y3 y4} (h1 : Kept w a y1.s) (h2 : (∀ z0, Act.kept w a (y3 z0))) (h3 : (∀ z0, Act.kept w a (y4 z0))) :
    Act.kept w a (Ctx.maintTable y1 y2 y3 y4) := by
  unfold Ctx.maintTable
  split
  · refine h3 _
  · refine Act.kept_ite ?_ ?_
    · refine h3 _
    · refine Act.kept_ite ?_ ?_
      · refine h3 _
      · refine h2 _

theorem Ctx.refuse_kept {w : Bool} {a : State} {y1 y2 y3 y4 y5} (h1 : Kept w a y1.s) :
    Act.kept w a (Ctx.refuse y1 y2 y3 y4 y5) := by
  unfold Ctx.refuse
  exact Ctx.searchFails_kept (State.refuseSearch_kept h1)

theorem Ctx.insertRecord_kept {w : Bool} {a : State} {y1} (h1 : Kept w a y1.s) :
    Act.kept w a (Ctx.insertRecord y1) := by
  unfold Ctx.insertRecord
  refine Ctx.withRecord_kept ?_ ?_
  · exact h1
  · intro q1 q2
    extract_lets -merge -useContext +onlyGivenNames -underBinder v3
    refine Ctx.maintTable_kept ?_ ?_ ?_
    · exact h1
    · intro q4
      split
      extract_lets -merge -useContext +onlyGivenNames -underBinder v5
      have k6 : Kept w a v5.2 := State.acceptMaint_kept h1
      refine Ctx.answer_kept ?_ ?_
      · exact h1
      · exact k6
    · intro q7
      exact Ctx.refuse_kept h1

theorem execSins_kept {a : State} {y1 y2 y3} (h1 : Kept true a y3) :
    Res.kept true a (execSins y1 y2 y3) := by
  unfold execSins
  refine execOp_kept ?_ ?_
  · exact h1
  · intro q1 q2
    exact Ctx.insertRecord_kept q2

theorem execSput_kept {a : State} {y1 y2 y3} (h1 : Kept true a y3) :
    Res.kept true a (execSput y1 y2 y3) := by
  unfold execSput
  refine execOp_kept ?_ ?_
  · exact h1
  · intro q1 q2
    exact Ctx.insertRecord_kept q2

theorem Ctx.atEntry_kept {w : Bool} {a : State} {y1 y2 y3 y4 y5} (h1 : Kept w a y1.s) (h2 : (∀ z0 z1 z2 z3 z4, Kept w a z4 → Act.kept w a (y5 z0 z1 z2 z3 z4))) :
    Act.kept w a (Ctx.atEntry y1 y2 y3 y4 y5) := by
  unfold Ctx.atEntry
  split
  · exact Ctx.refuse_kept h1
  · refine Ctx.maintTable_kept ?_ ?_ ?_
    · exact h1
    · intro q1
      refine Act.kept_ite ?_ ?_
      · exact Ctx.refuse_kept h1
      · extract_lets -merge -useContext +onlyGivenNames -underBinder v2
        have k3 : Kept w a v2 := State.drainTable_kept h1
        extract_lets -merge -useContext +onlyGivenNames -underBinder v4
        exact h2 _ _ _ _ _ k3
    · intro q5
      exact Ctx.refuse_kept h1

theorem Ctx.writeRecord_kept {w : Bool} {a : State} {y1} (h1 : Kept w a y1.s) :
    Act.kept w a (Ctx.writeRecord y1) := by
  unfold Ctx.writeRecord
  refine Ctx.withRecord_kept ?_ ?_
  · exact h1
  · intro q1 q2
    refine Ctx.atEntry_kept ?_ ?_
    · exact h1
    · intro q3 q4 q5 q6 q7 q8
      split
      extract_lets -merge -useContext +onlyGivenNames -underBinder v9
      have k10 : Kept w a v9.s := q8
      split
      · refine Act.kept_ite ?_ ?_
        · refine Ctx.answer_kept ?_ ?_
          · exact q8
          · exact State.writeEntry_kept q8
        · exact Ctx.refuse_kept q8
      · refine Act.kept_ite ?_ ?_
        · exact Ctx.refuse_kept q8
        · refine Ctx.answer_kept ?_ ?_
          · exact q8
          · exact State.writeEntry_kept q8

theorem execSwr_kept {a : State} {y1 y2 y3} (h1 : Kept true a y3) :
    Res.kept true a (execSwr y1 y2 y3) := by
  unfold execSwr
  refine execOp_kept ?_ ?_
  · exact h1
  · intro q1 q2
    exact Ctx.writeRecord_kept q2

theorem Ctx.deleteRecord_kept {w : Bool} {a : State} {y1} (h1 : Kept w a y1.s) :
    Act.kept w a (Ctx.deleteRecord y1) := by
  unfold Ctx.deleteRecord
  refine Ctx.withRecord_kept ?_ ?_
  · exact h1
  · intro q1 q2
    refine Ctx.atEntry_kept ?_ ?_
    · exact h1
    · intro q3 q4 q5 q6 q7 q8
      split
      extract_lets -merge -useContext +onlyGivenNames -underBinder v9
      have k10 : Kept w a v9.s := q8
      split
      · refine Act.kept_ite ?_ ?_
        · refine Ctx.answer_kept ?_ ?_
          · exact q8
          · exact State.writeEntry_kept q8
        · exact Ctx.refuse_kept q8
      · exact Ctx.refuse_kept q8

theorem execSdel_kept {a : State} {y1 y2 y3} (h1 : Kept true a y3) :
    Res.kept true a (execSdel y1 y2 y3) := by
  unfold execSdel
  refine execOp_kept ?_ ?_
  · exact h1
  · intro q1 q2
    exact Ctx.deleteRecord_kept q2

theorem Ctx.readRecord_kept {a : State} {y1} (h1 : Kept true a y1.s) :
    Act.kept true a (Ctx.readRecord y1) := by
  unfold Ctx.readRecord
  extract_lets -merge -useContext +onlyGivenNames -underBinder v1
  refine Act.kept_ite ?_ ?_
  · exact Act.kept_trap
  · extract_lets -merge -useContext +onlyGivenNames -underBinder v2
    clear_value v2
    split
    · exact Act.kept_trap
    · refine Ctx.atEntry_kept ?_ ?_
      · exact h1
      · intro q3 q4 q5 q6 q7 q8
        split
        extract_lets -merge -useContext +onlyGivenNames -underBinder v9
        have k10 : Kept true a v9 := State.useFree3_kept q8
        refine Ctx.answer_kept ?_ ?_
        · exact k10
        · exact State.write_kept k10

theorem execSrd_kept {a : State} {y1 y2 y3} (h1 : Kept true a y3) :
    Res.kept true a (execSrd y1 y2 y3) := by
  unfold execSrd
  refine execOp_kept ?_ ?_
  · exact h1
  · intro q1 q2
    exact Ctx.readRecord_kept q2

theorem Ctx.clearTable_kept {w : Bool} {a : State} {y1} (h1 : Kept w a y1.s) :
    Act.kept w a (Ctx.clearTable y1) := by
  unfold Ctx.clearTable
  extract_lets -merge -useContext +onlyGivenNames -underBinder v1
  refine Ctx.maintTable_kept ?_ ?_ ?_
  · exact h1
  · intro q2
    extract_lets -merge -useContext +onlyGivenNames -underBinder v3
    have k4 : Kept w a v3.2 := State.acceptMaint_kept h1
    refine Ctx.answer_kept ?_ ?_
    · exact h1
    · exact k4
  · intro q5
    exact Ctx.refuse_kept h1

theorem execSclr_kept {a : State} {y1 y2 y3} (h1 : Kept true a y3) :
    Res.kept true a (execSclr y1 y2 y3) := by
  unfold execSclr
  refine execOp_kept ?_ ?_
  · exact h1
  · intro q1 q2
    exact Ctx.clearTable_kept q2

theorem Ctx.tableStatus_kept {w : Bool} {a : State} {y1} (h1 : Kept w a y1.s) :
    Act.kept w a (Ctx.tableStatus y1) := by
  unfold Ctx.tableStatus
  extract_lets -merge -useContext +onlyGivenNames -underBinder v1
  refine Ctx.maintTable_kept ?_ ?_ ?_
  · exact h1
  · intro q2
    refine Ctx.answer_kept ?_ ?_
    · exact h1
    · exact h1
  · intro q3
    exact Ctx.refuse_kept h1

theorem execSstat_kept {a : State} {y1 y2 y3} (h1 : Kept true a y3) :
    Res.kept true a (execSstat y1 y2 y3) := by
  unfold execSstat
  refine execOp_kept ?_ ?_
  · exact h1
  · intro q1 q2
    exact Ctx.tableStatus_kept q2

theorem Ctx.pondAnswer_kept {w : Bool} {a : State} {y1 y2 y3} (h1 : Kept w a y1.s) (h2 : Kept w a y2.2) :
    Act.kept w a (Ctx.pondAnswer y1 y2 y3) := by
  unfold Ctx.pondAnswer
  refine Ctx.answer_kept ?_ ?_
  · exact h1
  · exact h2

theorem Ctx.pondGet_kept {w : Bool} {a : State} {y1} (h1 : Kept w a y1.s) :
    Act.kept w a (Ctx.pondGet y1) := by
  unfold Ctx.pondGet
  extract_lets -merge -useContext +onlyGivenNames -underBinder v1
  have k2 : Kept w a v1.2 := State.pondGet_kept h1
  refine Act.kept_ite ?_ ?_
  · refine Ctx.pondAnswer_kept ?_ ?_
    · exact h1
    · exact k2
  · refine Ctx.pondAnswer_kept ?_ ?_
    · exact h1
    · exact State.useFree_kept k2

theorem execPget_kept {a : State} {y1 y2 y3} (h1 : Kept true a y3) :
    Res.kept true a (execPget y1 y2 y3) := by
  unfold execPget
  refine execOp_kept ?_ ?_
  · exact h1
  · intro q1 q2
    exact Ctx.pondGet_kept q2

theorem execPaddref_kept {a : State} {y1 y2 y3} (h1 : Kept true a y3) :
    Res.kept true a (execPaddref y1 y2 y3) := by
  unfold execPaddref
  refine execOp_kept ?_ ?_
  · exact h1
  · intro q1 q2
    refine Ctx.pondAnswer_kept ?_ ?_
    · exact q2
    · exact State.pondAddref_kept q2

theorem execPpass_kept {a : State} {y1 y2 y3} (h1 : Kept true a y3) :
    Res.kept true a (execPpass y1 y2 y3) := by
  unfold execPpass
  refine execOp_kept ?_ ?_
  · exact h1
  · intro q1 q2
    refine Ctx.pondAnswer_kept ?_ ?_
    · exact q2
    · exact State.pondPass_kept q2

theorem Ctx.pondPut_kept {a : State} {y1} (h1 : Kept true a y1.s) :
    Act.kept true a (Ctx.pondPut y1) := by
  unfold Ctx.pondPut
  extract_lets -merge -useContext +onlyGivenNames -underBinder v1
  have k2 : Kept true a v1.2 := State.pondPut_kept h1
  extract_lets -merge -useContext +onlyGivenNames -underBinder v3
  have k4 : Kept true a v3.2 := State.retryWaiting_kept k2
  refine Act.kept_ite ?_ ?_
  · refine Ctx.pondAnswer_kept ?_ ?_
    · exact h1
    · exact k4
  · split
    · refine Ctx.pondAnswer_kept ?_ ?_
      · exact h1
      · exact k4
    · refine Ctx.pondAnswer_kept ?_ ?_
      · exact h1
      · exact State.feedNear_kept (State.setTask_kept k4)

theorem execPput_kept {a : State} {y1 y2 y3} (h1 : Kept true a y3) :
    Res.kept true a (execPput y1 y2 y3) := by
  unfold execPput
  refine execOp_kept ?_ ?_
  · exact h1
  · intro q1 q2
    exact Ctx.pondPut_kept q2

theorem Ctx.pondQuery_kept {w : Bool} {a : State} {y1} (h1 : Kept w a y1.s) :
    Act.kept w a (Ctx.pondQuery y1) := by
  unfold Ctx.pondQuery
  split
  refine Act.kept_ite ?_ ?_
  · refine Ctx.answer_kept ?_ ?_
    · exact h1
    · exact h1
  · refine Ctx.answer_kept ?_ ?_
    · exact h1
    · exact State.useFree_kept h1

theorem execPquery_kept {a : State} {y1 y2 y3} (h1 : Kept true a y3) :
    Res.kept true a (execPquery y1 y2 y3) := by
  unfold execPquery
  refine execOp_kept ?_ ?_
  · exact h1
  · intro q1 q2
    exact Ctx.pondQuery_kept q2

theorem Ctx.mapWindow_kept {w : Bool} {a : State} {y1} (h1 : Kept w a y1.s) :
    Act.kept w a (Ctx.mapWindow y1) := by
  unfold Ctx.mapWindow
  extract_lets -merge -useContext +onlyGivenNames -underBinder v1 v2
  refine Act.kept_ite ?_ ?_
  · refine Ctx.answer_kept ?_ ?_
    · exact h1
    · exact State.setTask_kept h1
  · refine Ctx.answer_kept ?_ ?_
    · exact h1
    · exact State.useFree_kept h1

theorem execPmap_kept {a : State} {y1 y2 y3} (h1 : Kept true a y3) :
    Res.kept true a (execPmap y1 y2 y3) := by
  unfold execPmap
  refine execOp_kept ?_ ?_
  · exact h1
  · intro q1 q2
    exact Ctx.mapWindow_kept q2

theorem execPunmap_kept {a : State} {y1 y2 y3} (h1 : Kept true a y3) :
    Res.kept true a (execPunmap y1 y2 y3) := by
  unfold execPunmap
  refine execOp_kept ?_ ?_
  · exact h1
  · intro q1 q2
    refine Ctx.answer_kept ?_ ?_
    · exact q2
    · exact State.setTask_kept q2

theorem execCop3Instruction_kept {a : State} {y1 y2 y3} (h1 : Kept true a y3) :
    Res.kept true a (execCop3Instruction y1 y2 y3) := by
  unfold execCop3Instruction
  refine execOp_kept ?_ ?_
  · exact h1
  · intro q1 q2
    exact Act.kept_trap

/-! ### ViewC -/

theorem State.afterRead_kept {w : Bool} {a : State} {y1 y2 y3} (h1 : Kept w a y1) :
    Kept w a (State.afterRead y1 y2 y3) := by
  unfold State.afterRead
  refine Kept.ite ?_ ?_
  · exact State.useFree_kept h1
  · refine Kept.ite ?_ ?_
    · exact State.noteLogRead_kept h1
    · exact h1

/-! ### Serve -/

theorem State.heard_kept {w : Bool} {a : State} {y1 y2} (h1 : Kept w a y1) :
    Kept w a (State.heard y1 y2) := by
  unfold State.heard
  refine Kept.ite ?_ ?_
  · exact State.bump_kept h1
  · exact h1

theorem State.sendBody_kept {w : Bool} {a : State} {y1 y2 y3 y4 y5} (h1 : Kept w a y1) :
    Kept w a (State.sendBody y1 y2 y3 y4 y5) := by
  unfold State.sendBody
  refine Kept.ite ?_ ?_
  · exact State.emitCanOn_kept h1
  · refine Kept.ite ?_ ?_
    · exact State.sendControl_kept h1
    · refine Kept.ite ?_ ?_
      · exact State.lakeSend_kept h1
      · exact State.emit_kept h1

theorem State.sendWindow_kept {w : Bool} {a : State} {y1 y2 y3 y4} (h1 : Kept w a y1) :
    Kept w a (State.sendWindow y1 y2 y3 y4) := by
  unfold State.sendWindow
  split
  · exact h1
  · extract_lets -merge -useContext +onlyGivenNames -underBinder v1
    refine Kept.ite ?_ ?_
    · exact h1
    · extract_lets -merge -useContext +onlyGivenNames -underBinder v2
      have k3 : Kept w a v2 := by
        refine Kept.foldl ?_ (fun p4 x4 h4 => ?_)
        · exact h1
        · exact State.sendBody_kept h4
      exact State.setSession_kept k3

theorem State.emitAnswer_kept {w : Bool} {a : State} {y1 y2 y3} (h1 : Kept w a y1) :
    Kept w a (State.emitAnswer y1 y2 y3) := by
  unfold State.emitAnswer
  exact State.sendBody_kept h1

theorem State.sendAnswer_kept {w : Bool} {a : State} {y1 y2 y3} (h1 : Kept w a y1) :
    Kept w a (State.sendAnswer y1 y2 y3) := by
  unfold State.sendAnswer
  refine State.sendWindow_kept ?_
  split
  · exact State.emitAnswer_kept h1
  · exact h1

theorem onPath_kept {w : Bool} {a : State} {y1 y2 y3} (h1 : Kept w a y2) (h2 : (∀ z0, Kept w a z0 → Kept w a ((y3 z0).2))) :
    Res.kept w a (onPath y1 y2 y3) := by
  unfold onPath
  refine Res.kept_ite ?_ ?_
  · exact Res.kept_fault
  · refine Res.kept_ite ?_ ?_
    · exact Res.kept_next h1
    · refine Res.kept_ite ?_ ?_
      · exact Res.kept_next (State.bump_kept (State.heard_kept h1))
      · extract_lets -merge -useContext +onlyGivenNames -underBinder v1
        have k2 : Kept w a v1.2 := h2 _ (State.heard_kept h1)
        exact Res.kept_next (State.sendAnswer_kept k2)

theorem State.visit_kept {w : Bool} {a : State} {y1 y2 y3} (h1 : Kept w a y1) :
    Kept w a (State.visit y1 y2 y3) := by
  unfold State.visit
  exact State.setSession_kept h1

theorem State.enterService_kept {w : Bool} {a : State} {y1} (h1 : Kept w a y1) :
    Kept w a (State.enterService y1) := by
  unfold State.enterService
  extract_lets -merge -useContext +onlyGivenNames -underBinder v1 v2 v3
  have k4 : Kept w a v3 := State.useFree_kept h1
  exact State.highWater_kept (Kept.put k4)

theorem State.noteServed_kept {w : Bool} {a : State} {y1 y2} (h1 : Kept w a y1) :
    Kept w a (State.noteServed y1 y2) := by
  unfold State.noteServed
  extract_lets -merge -useContext +onlyGivenNames -underBinder v1
  have k2 : Kept w a v1 := State.enterService_kept (State.bump_kept h1)
  split
  · extract_lets -merge -useContext +onlyGivenNames -underBinder v3
    refine Kept.ite ?_ ?_
    · exact State.bump_kept k2
    · exact k2
  · exact k2

theorem State.serving_kept {w : Bool} {a : State} {y1 y2} (h1 : Kept w a y1) :
    Kept w a (State.serving y1 y2) := by
  unfold State.serving
  exact State.noteServed_kept (State.visit_kept h1)

theorem State.keepAnswer_kept {w : Bool} {a : State} {y1 y2 y3 y4} (h1 : Kept w a y1) :
    Kept w a (State.keepAnswer y1 y2 y3 y4) := by
  unfold State.keepAnswer
  extract_lets -merge -useContext +onlyGivenNames -underBinder v1
  refine Kept.ite ?_ ?_
  · exact State.setSession_kept h1
  · exact h1

theorem State.handle_kept {w : Bool} {a : State} {y1 y2 y3 y4} (h1 : Kept w a y1) (h2 : (∀ z0 z1 z2, Kept w a z2 → Kept w a ((y4 z0 z1 z2).2))) :
    Kept w a ((State.handle y1 y2 y3 y4).2) := by
  unfold State.handle
  extract_lets -merge -useContext +onlyGivenNames -underBinder v1 v2
  refine Kept.ite2 ?_ ?_
  · exact State.visit_kept h1
  · refine Kept.ite2 ?_ ?_
    · extract_lets -merge -useContext +onlyGivenNames -underBinder v3
      have k4 : Kept w a v3 := State.visit_kept h1
      exact State.setSession_kept k4
    · extract_lets -merge -useContext +onlyGivenNames -underBinder v5
      have k6 : Kept w a v5.2 := h2 _ _ _ (State.serving_kept h1)
      exact State.keepAnswer_kept k6

theorem answerOf_kept {w : Bool} {a : State} {y1} (h1 : Kept w a y1.2) :
    Kept w a ((answerOf y1).2) := by
  unfold answerOf
  exact h1

theorem State.serveRead_kept {w : Bool} {a : State} {y1 y2 y3 y4} (h1 : Kept w a y1) :
    Kept w a ((State.serveRead y1 y2 y3 y4).2) := by
  unfold State.serveRead
  extract_lets -merge -useContext +onlyGivenNames -underBinder v1 v2
  refine Kept.ite2 ?_ ?_
  · exact h1
  · refine Kept.ite2 ?_ ?_
    · exact h1
    · exact State.afterRead_kept h1

theorem State.judgedAgainst_kept {w : Bool} {a : State} {y1 y2} (h1 : Kept w a y1) :
    Kept w a (State.judgedAgainst y1 y2) := by
  unfold State.judgedAgainst
  exact State.putAll_kept (State.standing_kept h1)

theorem State.writeDone_kept {w : Bool} {a : State} {y1 y2 y3 y4 y5 y6} (h1 : Kept w a y6.2.2.2) :
    Kept w a ((State.writeDone y1 y2 y3 y4 y5 y6).2) := by
  unfold State.writeDone
  extract_lets -merge -useContext +onlyGivenNames -underBinder v1 v2
  refine Kept.ite ?_ ?_
  · exact State.countAdjusted_kept h1
  · exact h1

theorem State.acted_kept {w : Bool} {a : State} {y1 y2} (h1 : Kept w a y1) (h2 : Kept w a y2) :
    Kept w a ((((State.acted y1 y2).2).2).2) := by
  unfold State.acted
  exact h2

theorem State.nameEpoch_kept {w : Bool} {a : State} {y1 y2 y3 y4} (h1 : Kept w a y1) :
    Kept w a (State.nameEpoch y1 y2 y3 y4) := by
  unfold State.nameEpoch
  extract_lets -merge -useContext +onlyGivenNames -underBinder v1
  exact State.setSession_kept h1

theorem State.unacted_kept {w : Bool} {a : State} {y1 y2} (h1 : Kept w a y1) :
    Kept w a ((((State.unacted y1 y2).2).2).2) := by
  unfold State.unacted
  exact h1

theorem State.askReport_kept {w : Bool} {a : State} {y1 y2 y3} (h1 : Kept w a y1) :
    Kept w a ((((State.askReport y1 y2 y3).2).2).2) := by
  unfold State.askReport
  refine Kept.ite222 ?_ ?_
  · exact State.unacted_kept h1
  · split
    · exact State.unacted_kept h1
    · extract_lets -merge -useContext +onlyGivenNames -underBinder v1 v2
      have k3 : Kept w a v2 := State.bump_kept (State.setSession_kept h1)
      refine State.acted_kept ?_ ?_
      · exact h1
      · exact State.emit_kept (State.raise_kept k3)

theorem State.actDom_kept {w : Bool} {a : State} {y1 y2 y3 y4 y5} (h1 : Kept w a y1) :
    Kept w a ((((State.actDom y1 y2 y3 y4 y5).2).2).2) := by
  unfold State.actDom
  refine Kept.ite222 ?_ ?_
  · refine State.acted_kept ?_ ?_
    · exact h1
    · exact State.restoreState_kept h1
  · refine Kept.ite222 ?_ ?_
    · exact State.askReport_kept h1
    · refine Kept.ite222 ?_ ?_
      · refine Kept.ite222 ?_ ?_
        · exact State.unacted_kept h1
        · refine State.acted_kept ?_ ?_
          · exact h1
          · exact State.extendManager_kept h1
      · exact State.unacted_kept h1

theorem State.txnCommand_kept {w : Bool} {a : State} {y1 y2 y3 y4} (h1 : Kept w a y1) :
    Kept w a ((((State.txnCommand y1 y2 y3 y4).2).2).2) := by
  unfold State.txnCommand
  refine Kept.ite222 ?_ ?_
  · extract_lets -merge -useContext +onlyGivenNames -underBinder v1
    have k2 : Kept w a v1.2 := State.beginTxn_kept h1
    exact k2
  · refine Kept.ite222 ?_ ?_
    · exact State.commitTxn_kept h1
    · refine Kept.ite222 ?_ ?_
      · exact State.commitTxn_kept h1
      · refine Kept.ite222 ?_ ?_
        · refine State.acted_kept ?_ ?_
          · exact h1
          · exact State.rollBack_kept h1
        · exact State.unacted_kept h1

theorem State.lxnCommand_kept {w : Bool} {a : State} {y1 y2 y3} (h1 : Kept w a y1) :
    Kept w a ((((State.lxnCommand y1 y2 y3).2).2).2) := by
  unfold State.lxnCommand
  refine Kept.ite222 ?_ ?_
  · extract_lets -merge -useContext +onlyGivenNames -underBinder v1
    have k2 : Kept w a v1.2 := State.beginLxn_kept h1
    exact k2
  · refine Kept.ite222 ?_ ?_
    · exact State.startLxn_kept h1
    · refine Kept.ite222 ?_ ?_
      · exact State.startLxn_kept h1
      · refine Kept.ite222 ?_ ?_
        · extract_lets -merge -useContext +onlyGivenNames -underBinder v3
          have k4 : Kept w a v3.2 := State.rollBackLxn_kept h1
          exact k4
        · exact State.unacted_kept h1

theorem State.abortNow_kept {a : State} {y1 y2} (h1 : Kept true a y1) :
    Kept true a (State.abortNow y1 y2) := by
  unfold State.abortNow
  exact State.settleResets_kept (State.settleRings_kept (State.abortTake_kept h1))

theorem State.quiesceCommand_kept {w : Bool} {a : State} {y1 y2} (h1 : Kept w a y1) :
    Kept w a ((((State.quiesceCommand y1 y2).2).2).2) := by
  unfold State.quiesceCommand
  refine Kept.ite222 ?_ ?_
  · refine State.acted_kept ?_ ?_
    · exact h1
    · exact State.quiesceFn_kept h1
  · refine Kept.ite222 ?_ ?_
    · refine State.acted_kept ?_ ?_
      · exact h1
      · exact State.resumeFn_kept h1
    · exact State.unacted_kept h1

theorem State.clearHistograms_kept {w : Bool} {a : State} {y1} (h1 : Kept w a y1) :
    Kept w a (State.clearHistograms y1) := by
  unfold State.clearHistograms
  refine Kept.foldl ?_ (fun p1 x1 h1 => ?_)
  · exact h1
  · refine Kept.foldl ?_ (fun p2 x2 h2 => ?_)
    · exact State.setDom_kept h1
    · exact State.setObj_kept h2

theorem State.resetTask_kept {a : State} {y1 y2 y3} (h1 : Kept true a y1) :
    Kept true a (State.resetTask y1 y2 y3) := by
  unfold State.resetTask
  split
  · exact h1
  · exact State.countReset_kept (State.stopTask_kept h1)

theorem State.queryHandle_kept {w : Bool} {a : State} {y1 y2} (h1 : Kept w a y1) :
    Kept w a (State.queryHandle y1 y2) := by
  unfold State.queryHandle
  extract_lets -merge -useContext +onlyGivenNames -underBinder v1 v2
  have k3 : Kept w a v2 := State.setObj_kept (State.setObj_kept (State.setObj_kept h1))
  exact Kept.put k3

theorem State.askSoftReset_kept {a : State} {y1} (h1 : Kept true a y1) :
    Kept true a (State.askSoftReset y1) := by
  unfold State.askSoftReset
  refine Kept.ite ?_ ?_
  · exact State.setObj_kept (Kept.put h1)
  · exact State.startRom_kept (State.softReset_kept h1)

theorem State.forceSoftReset_kept {a : State} {y1} (h1 : Kept true a y1) :
    Kept true a (State.forceSoftReset y1) := by
  unfold State.forceSoftReset
  refine State.askSoftReset_kept ?_
  refine State.settleRings_kept ?_
  refine Kept.foldl ?_ (fun p1 x1 h1 => ?_)
  · exact h1
  · exact State.abortTake_kept h1

theorem State.dieCommand_kept {a : State} {y1 y2} (h1 : Kept true a y1) :
    Kept true a ((((State.dieCommand y1 y2).2).2).2) := by
  unfold State.dieCommand
  refine Kept.ite222 ?_ ?_
  · refine State.acted_kept ?_ ?_
    · exact h1
    · exact State.askDieReset_kept h1
  · exact State.unacted_kept h1

theorem State.engineCommand_kept {a : State} {y1 y2} (h1 : Kept true a y1) :
    Kept true a ((((State.engineCommand y1 y2).2).2).2) := by
  unfold State.engineCommand
  extract_lets -merge -useContext +onlyGivenNames -underBinder v1 v2
  refine Kept.ite222 ?_ ?_
  · exact State.unacted_kept h1
  · refine Kept.ite222 ?_ ?_
    · refine State.acted_kept ?_ ?_
      · exact h1
      · exact h1
    · refine State.acted_kept ?_ ?_
      · exact h1
      · exact State.resetEngine_kept h1

theorem State.actNum_kept {a : State} {y1 y2 y3 y4 y5} (h1 : Kept true a y1) :
    Kept true a ((((State.actNum y1 y2 y3 y4 y5).2).2).2) := by
  unfold State.actNum
  refine Kept.ite222 ?_ ?_
  · exact State.txnCommand_kept h1
  · refine Kept.ite222 ?_ ?_
    · exact State.lxnCommand_kept h1
    · refine Kept.ite222 ?_ ?_
      · refine State.acted_kept ?_ ?_
        · exact h1
        · exact State.resetPort_kept h1
      · refine Kept.ite222 ?_ ?_
        · refine State.acted_kept ?_ ?_
          · exact h1
          · exact State.abortNow_kept h1
        · refine Kept.ite222 ?_ ?_
          · extract_lets -merge -useContext +onlyGivenNames -underBinder v1
            refine State.acted_kept ?_ ?_
            · exact h1
            · exact State.setSession_kept h1
          · refine Kept.ite222 ?_ ?_
            · exact State.quiesceCommand_kept h1
            · refine Kept.ite222 ?_ ?_
              · refine State.acted_kept ?_ ?_
                · exact h1
                · exact State.harvest_kept h1
              · refine Kept.ite222 ?_ ?_
                · refine State.acted_kept ?_ ?_
                  · exact h1
                  · refine Kept.ite ?_ ?_
                    · exact State.clearHistograms_kept h1
                    · exact h1
                · refine Kept.ite222 ?_ ?_
                  · refine State.acted_kept ?_ ?_
                    · exact h1
                    · exact State.resetTask_kept h1
                  · refine Kept.ite222 ?_ ?_
                    · refine State.acted_kept ?_ ?_
                      · exact h1
                      · exact State.queryHandle_kept h1
                    · refine Kept.ite222 ?_ ?_
                      · refine State.acted_kept ?_ ?_
                        · exact h1
                        · exact State.clearKeySlots_kept h1
                      · refine Kept.ite222 ?_ ?_
                        · refine State.acted_kept ?_ ?_
                          · exact h1
                          · exact State.removeStored_kept h1
                        · refine Kept.ite222 ?_ ?_
                          · refine State.acted_kept ?_ ?_
                            · exact h1
                            · exact State.emptyKeyStates_kept h1
                          · refine Kept.ite222 ?_ ?_
                            · refine Kept.ite222 ?_ ?_
                              · refine State.acted_kept ?_ ?_
                                · exact h1
                                · exact State.askSoftReset_kept h1
                              · refine Kept.ite222 ?_ ?_
                                · refine State.acted_kept ?_ ?_
                                  · exact h1
                                  · exact State.forceSoftReset_kept h1
                                · exact State.unacted_kept h1
                            · refine Kept.ite222 ?_ ?_
                              · exact State.dieCommand_kept h1
                              · refine Kept.ite222 ?_ ?_
                                · exact State.engineCommand_kept h1
                                · refine Kept.ite222 ?_ ?_
                                  · refine State.acted_kept ?_ ?_
                                    · exact h1
                                    · refine Kept.ite ?_ ?_
                                      · exact State.emptyLog_kept h1
                                      · exact h1
                                  · refine Kept.ite222 ?_ ?_
                                    · refine State.acted_kept ?_ ?_
                                      · exact h1
                                      · refine Kept.ite ?_ ?_
                                        · exact State.acknowledge_kept h1
                                        · exact h1
                                    · exact State.unacted_kept h1

theorem State.serveWrite_kept {a : State} {y1 y2 y3 y4 y5 y6 y7 y8} (h1 : Kept true a y1) :
    Kept true a ((State.serveWrite y1 y2 y3 y4 y5 y6 y7 y8).2) := by
  unfold State.serveWrite
  extract_lets -merge -useContext +onlyGivenNames -underBinder v1 v2
  have k3 : (∀ z0, Kept true a ((v2 z0).2)) := by
    intro q4
    exact h1
  refine Kept.ite2 ?_ ?_
  · exact h1
  · split
    · exact h1
    · extract_lets -merge -useContext +onlyGivenNames -underBinder v5 v6
      refine Kept.ite2 ?_ ?_
      · dsimp -zeta only
        exact State.dropCommit_kept h1
      · refine Kept.ite2 ?_ ?_
        · exact h1
        · refine Kept.ite2 ?_ ?_
          · exact h1
          · extract_lets -merge -useContext +onlyGivenNames -underBinder v7
            have k8 : Kept true a v7 := by
              refine Kept.ite ?_ ?_
              · exact h1
              · exact State.judgedAgainst_kept h1
            extract_lets -merge -useContext +onlyGivenNames -underBinder v9
            refine Kept.ite2 ?_ ?_
            · exact h1
            · refine Kept.ite2 ?_ ?_
              · refine State.writeDone_kept ?_
                refine State.acted_kept ?_ ?_
                · exact h1
                · exact State.nameEpoch_kept h1
              · refine Kept.ite2 ?_ ?_
                · extract_lets -merge -useContext +onlyGivenNames -underBinder v10
                  have k11 : Kept true a v10.2 := State.stageLxn_kept h1
                  exact k11
                · refine Kept.ite2 ?_ ?_
                  · refine State.writeDone_kept ?_
                    refine Kept.ite222 ?_ ?_
                    · exact State.actDom_kept h1
                    · exact State.actNum_kept h1
                  · extract_lets -merge -useContext +onlyGivenNames -underBinder v12
                    refine Kept.ite2 ?_ ?_
                    · extract_lets -merge -useContext +onlyGivenNames -underBinder v13
                      have k14 : Kept true a v13 := State.stageInto_kept h1
                      refine Kept.ite ?_ ?_
                      · exact State.countAdjusted_kept k14
                      · exact k14
                    · exact State.writeDone_kept (State.acceptCommit_kept h1)

theorem writeOn_kept {a : State} {y1 y2} (h1 : Kept true a y2) :
    Res.kept true a (writeOn y1 y2) := by
  unfold writeOn
  refine onPath_kept ?_ ?_
  · exact h1
  · intro q1 q2
    refine State.handle_kept ?_ ?_
    · exact q2
    · intro q3 q4 q5 q6
      exact answerOf_kept (State.serveWrite_kept q6)

theorem State.serveDomainRead_kept {w : Bool} {a : State} {y1 y2 y3 y4} (h1 : Kept w a y1) :
    Kept w a ((State.serveDomainRead y1 y2 y3 y4).2) := by
  unfold State.serveDomainRead
  extract_lets -merge -useContext +onlyGivenNames -underBinder v1 v2
  have k3 : (∀ z0, Kept w a ((v2 z0).2)) := by
    intro q4
    exact h1
  extract_lets -merge -useContext +onlyGivenNames -underBinder v5
  refine Kept.ite2 ?_ ?_
  · exact h1
  · refine Kept.ite2 ?_ ?_
    · exact h1
    · refine Kept.ite2 ?_ ?_
      · exact h1
      · extract_lets -merge -useContext +onlyGivenNames -underBinder v6 v7
        have k8 : Kept w a v7 := State.afterRead_kept h1
        refine Kept.ite2 ?_ ?_
        · exact k8
        · extract_lets -merge -useContext +onlyGivenNames -underBinder v9
          exact State.setSession_kept k8

theorem State.serveDomainWrite_kept {a : State} {y1 y2 y3 y4} (h1 : Kept true a y1) :
    Kept true a ((State.serveDomainWrite y1 y2 y3 y4).2) := by
  unfold State.serveDomainWrite
  extract_lets -merge -useContext +onlyGivenNames -underBinder v1 v2
  have k3 : (∀ z0, Kept true a ((v2 z0).2)) := by
    intro q4
    exact h1
  extract_lets -merge -useContext +onlyGivenNames -underBinder v5
  refine Kept.ite2 ?_ ?_
  · exact h1
  · split
    · exact h1
    · refine Kept.ite2 ?_ ?_
      · exact h1
      · refine Kept.ite2 ?_ ?_
        · exact h1
        · split
          · refine Kept.ite2 ?_ ?_
            · exact h1
            · refine Kept.ite2 ?_ ?_
              · exact h1
              · refine Kept.ite2 ?_ ?_
                · exact State.serveWrite_kept h1
                · extract_lets -merge -useContext +onlyGivenNames -underBinder v6
                  exact State.setSession_kept h1
          · exact h1

theorem State.endTransfer_kept {w : Bool} {a : State} {y1 y2} (h1 : Kept w a y1) :
    Kept w a (State.endTransfer y1 y2) := by
  unfold State.endTransfer
  exact State.setSession_kept h1

theorem State.serveSegment_kept {a : State} {y1 y2 y3 y4 y5} (h1 : Kept true a y1) :
    Kept true a ((State.serveSegment y1 y2 y3 y4 y5).2) := by
  unfold State.serveSegment
  extract_lets -merge -useContext +onlyGivenNames -underBinder v1 v2
  have k3 : Kept true a v2.2 := State.endTransfer_kept h1
  extract_lets -merge -useContext +onlyGivenNames -underBinder v4
  have k5 : (∀ z0, Kept true a (v4 z0)) := by
    intro q6
    exact State.setSession_kept h1
  refine Kept.ite2 ?_ ?_
  · exact h1
  · split
    · exact k3
    · extract_lets -merge -useContext +onlyGivenNames -underBinder v7
      refine Kept.ite2 ?_ ?_
      · exact k3
      · refine Kept.ite2 ?_ ?_
        · refine k5 _
        · refine Kept.ite2 ?_ ?_
          · refine k5 _
          · refine Kept.ite2 ?_ ?_
            · exact k3
            · extract_lets -merge -useContext +onlyGivenNames -underBinder v8
              refine Kept.ite2 ?_ ?_
              · extract_lets -merge -useContext +onlyGivenNames -underBinder v9
                have k10 : Kept true a v9.2 := State.serveWrite_kept k3
                exact k10
              · extract_lets -merge -useContext +onlyGivenNames -underBinder v11 v12
                have k13 : Kept true a v12 := State.setSession_kept h1
                exact k13

theorem State.serveAbort_kept {w : Bool} {a : State} {y1 y2 y3} (h1 : Kept w a y1) :
    Kept w a ((State.serveAbort y1 y2 y3).2) := by
  unfold State.serveAbort
  exact State.endTransfer_kept h1

theorem State.serveSegmentAck_kept {w : Bool} {a : State} {y1 y2 y3 y4 y5} (h1 : Kept w a y1) :
    Kept w a ((State.serveSegmentAck y1 y2 y3 y4 y5).2) := by
  unfold State.serveSegmentAck
  extract_lets -merge -useContext +onlyGivenNames -underBinder v1 v2
  have k3 : Kept w a v2.2 := State.endTransfer_kept h1
  refine Kept.ite2 ?_ ?_
  · exact h1
  · split
    · exact k3
    · extract_lets -merge -useContext +onlyGivenNames -underBinder v4
      refine Kept.ite2 ?_ ?_
      · exact k3
      · refine Kept.ite2 ?_ ?_
        · exact h1
        · refine Kept.ite2 ?_ ?_
          · exact k3
          · exact State.setSession_kept h1

theorem State.unknownCmd_kept {w : Bool} {a : State} {y1 y2 y3} (h1 : Kept w a y1) :
    Kept w a ((State.unknownCmd y1 y2 y3).2) := by
  unfold State.unknownCmd
  extract_lets -merge -useContext +onlyGivenNames -underBinder v1 v2
  have k3 : Kept w a v2 := State.visit_kept h1
  exact State.bump_kept (State.setSession_kept k3)

theorem State.runBody_kept {a : State} {y1 y2 y3} (h1 : Kept true a y1) :
    Kept true a ((State.runBody y1 y2 y3).2) := by
  unfold State.runBody
  extract_lets -merge -useContext +onlyGivenNames -underBinder v1 v2
  split
  · refine State.handle_kept ?_ ?_
    · exact h1
    · intro q3 q4 q5 q6
      exact answerOf_kept (State.serveRead_kept q6)
  · refine State.handle_kept ?_ ?_
    · exact h1
    · intro q7 q8 q9 q10
      exact answerOf_kept (State.serveWrite_kept q10)
  · refine State.handle_kept ?_ ?_
    · exact h1
    · intro q11 q12 q13 q14
      exact answerOf_kept (State.serveDomainRead_kept q14)
  · refine State.handle_kept ?_ ?_
    · exact h1
    · intro q15 q16 q17 q18
      exact answerOf_kept (State.serveDomainWrite_kept q18)
  · refine State.handle_kept ?_ ?_
    · exact h1
    · intro q19 q20 q21 q22
      exact State.serveSegment_kept q22
  · refine State.handle_kept ?_ ?_
    · exact h1
    · intro q23 q24 q25 q26
      exact answerOf_kept (State.serveAbort_kept q26)
  · refine State.handle_kept ?_ ?_
    · exact h1
    · intro q27 q28 q29 q30
      exact State.serveSegmentAck_kept q30
  · exact State.unknownCmd_kept h1

theorem domainOn_kept {a : State} {y1 y2} (h1 : Kept true a y2) :
    Res.kept true a (domainOn y1 y2) := by
  unfold domainOn
  refine onPath_kept ?_ ?_
  · exact h1
  · intro q1 q2
    refine State.handle_kept ?_ ?_
    · exact q2
    · intro q3 q4 q5 q6
      exact answerOf_kept (State.serveWrite_kept q6)

/-! ### DictRows -/

theorem execRead_kept {w : Bool} {a : State} {y1 y2} (h1 : Kept w a y2) :
    Res.kept w a (execRead y1 y2) := by
  unfold execRead
  refine onPath_kept ?_ ?_
  · exact h1
  · intro q1 q2
    refine State.handle_kept ?_ ?_
    · exact q2
    · intro q3 q4 q5 q6
      exact answerOf_kept (State.serveRead_kept q6)

theorem execWrite_kept {a : State} {y1 y2} (h1 : Kept true a y2) :
    Res.kept true a (execWrite y1 y2) := by
  unfold execWrite
  exact writeOn_kept h1

theorem execDomainRead_kept {w : Bool} {a : State} {y1 y2} (h1 : Kept w a y2) :
    Res.kept w a (execDomainRead y1 y2) := by
  unfold execDomainRead
  refine onPath_kept ?_ ?_
  · exact h1
  · intro q1 q2
    refine State.handle_kept ?_ ?_
    · exact q2
    · intro q3 q4 q5 q6
      exact answerOf_kept (State.serveDomainRead_kept q6)

theorem execDomainWrite_kept {a : State} {y1 y2} (h1 : Kept true a y2) :
    Res.kept true a (execDomainWrite y1 y2) := by
  unfold execDomainWrite
  refine onPath_kept ?_ ?_
  · exact h1
  · intro q1 q2
    refine State.handle_kept ?_ ?_
    · exact q2
    · intro q3 q4 q5 q6
      exact answerOf_kept (State.serveDomainWrite_kept q6)

theorem execSegment_kept {a : State} {y1 y2 y3} (h1 : Kept true a y3) :
    Res.kept true a (execSegment y1 y2 y3) := by
  unfold execSegment
  refine onPath_kept ?_ ?_
  · exact h1
  · intro q1 q2
    refine State.handle_kept ?_ ?_
    · exact q2
    · intro q3 q4 q5 q6
      exact State.serveSegment_kept q6

theorem execDomainAbort_kept {w : Bool} {a : State} {y1 y2} (h1 : Kept w a y2) :
    Res.kept w a (execDomainAbort y1 y2) := by
  unfold execDomainAbort
  refine onPath_kept ?_ ?_
  · exact h1
  · intro q1 q2
    refine State.handle_kept ?_ ?_
    · exact q2
    · intro q3 q4 q5 q6
      exact answerOf_kept (State.serveAbort_kept q6)

theorem execSegmentAck_kept {w : Bool} {a : State} {y1 y2 y3} (h1 : Kept w a y3) :
    Res.kept w a (execSegmentAck y1 y2 y3) := by
  unfold execSegmentAck
  refine onPath_kept ?_ ?_
  · exact h1
  · intro q1 q2
    refine State.handle_kept ?_ ?_
    · exact q2
    · intro q3 q4 q5 q6
      exact State.serveSegmentAck_kept q6

theorem execUnknownCommand_kept {w : Bool} {a : State} {y1 y2 y3} (h1 : Kept w a y3) :
    Res.kept w a (execUnknownCommand y1 y2 y3) := by
  unfold execUnknownCommand
  refine onPath_kept ?_ ?_
  · exact h1
  · intro q1 q2
    exact State.unknownCmd_kept q2

theorem State.tellSession_kept {w : Bool} {a : State} {y1 y2 y3 y4} (h1 : Kept w a y1) :
    Kept w a (State.tellSession y1 y2 y3 y4) := by
  unfold State.tellSession
  extract_lets -merge -useContext +onlyGivenNames -underBinder v1
  refine Kept.ite ?_ ?_
  · exact h1
  · exact State.sendBody_kept h1

theorem execDomainTransferTimeout_kept {w : Bool} {a : State} {y1 y2} (h1 : Kept w a y2) :
    Res.kept w a (execDomainTransferTimeout y1 y2) := by
  unfold execDomainTransferTimeout
  split
  · exact Res.kept_next h1
  · refine Res.kept_ite ?_ ?_
    · exact Res.kept_next h1
    · exact Res.kept_next (State.tellSession_kept (State.endTransfer_kept h1))

theorem State.canErrors_kept {w : Bool} {a : State} {y1} (h1 : Kept w a y1) :
    Kept w a (State.canErrors y1) := by
  unfold State.canErrors
  extract_lets -merge -useContext +onlyGivenNames -underBinder v1
  have k2 : Kept w a v1 := State.useFree_kept (State.setObj_kept h1)
  exact State.useFree_kept (State.setObj_kept k2)

theorem execCanHeartbeat_kept {w : Bool} {a : State} {y1} (h1 : Kept w a y1) :
    Res.kept w a (execCanHeartbeat y1) := by
  unfold execCanHeartbeat
  refine Res.kept_ite ?_ ?_
  · exact Res.kept_next h1
  · exact Res.kept_next (State.heartbeat_kept (State.canErrors_kept h1))

theorem State.seatSource_kept {w : Bool} {a : State} {y1 y2 y3} (h1 : Kept w a y1) :
    Kept w a (State.seatSource y1 y2 y3) := by
  unfold State.seatSource
  extract_lets -merge -useContext +onlyGivenNames -underBinder v1 v2
  refine Kept.ite ?_ ?_
  · exact h1
  · extract_lets -merge -useContext +onlyGivenNames -underBinder v3
    exact State.setSession_kept h1

theorem udpBody_kept {a : State} {y1 y2 y3} (h1 : Kept true a y2.1) :
    Kept true a ((udpBody y1 y2 y3).1) := by
  unfold udpBody
  refine Kept.ite1 ?_ ?_
  · exact h1
  · extract_lets -merge -useContext +onlyGivenNames -underBinder v1 v2
    have k3 : Kept true a v2.2 := State.runBody_kept h1
    extract_lets -merge -useContext +onlyGivenNames -underBinder v4
    exact State.sendWindow_kept k3

theorem State.serveDatagram_kept {a : State} {y1 y2 y3 y4 y5} (h1 : Kept true a y1) :
    Kept true a (State.serveDatagram y1 y2 y3 y4 y5) := by
  unfold State.serveDatagram
  extract_lets -merge -useContext +onlyGivenNames -underBinder v1 v2
  have k3 : Kept true a v2 := State.seatSource_kept h1
  extract_lets -merge -useContext +onlyGivenNames -underBinder v4 v5
  have k6 : Kept true a v5 := Kept.put k3
  extract_lets -merge -useContext +onlyGivenNames -underBinder v7
  have k8 : Kept true a v7.1 := by
    refine Kept.foldl1 ?_ (fun p9 x9 h9 => ?_)
    · exact k6
    · exact udpBody_kept h9
  extract_lets -merge -useContext +onlyGivenNames -underBinder v10
  exact State.emit_kept k8

theorem execUdpDatagram_kept {a : State} {y1 y2 y3 y4} (h1 : Kept true a y4) :
    Res.kept true a (execUdpDatagram y1 y2 y3 y4) := by
  unfold execUdpDatagram
  refine Res.kept_ite ?_ ?_
  · exact Res.kept_next h1
  · extract_lets -merge -useContext +onlyGivenNames -underBinder v1 v2 v3 v4
    have k5 : Kept true a v4 := State.bump_kept h1
    split
    · exact Res.kept_next k5
    · refine Res.kept_ite ?_ ?_
      · exact Res.kept_next k5
      · refine Res.kept_ite ?_ ?_
        · exact Res.kept_next k5
        · refine Res.kept_ite ?_ ?_
          · exact Res.kept_next k5
          · exact Res.kept_next (State.serveDatagram_kept h1)

theorem execTxnBegin_kept {a : State} {y1 y2} (h1 : Kept true a y2) :
    Res.kept true a (execTxnBegin y1 y2) := by
  unfold execTxnBegin
  exact writeOn_kept h1

theorem execTxnCommitNext_kept {a : State} {y1 y2} (h1 : Kept true a y2) :
    Res.kept true a (execTxnCommitNext y1 y2) := by
  unfold execTxnCommitNext
  exact writeOn_kept h1

theorem execTxnCommitAtEpoch_kept {a : State} {y1 y2} (h1 : Kept true a y2) :
    Res.kept true a (execTxnCommitAtEpoch y1 y2) := by
  unfold execTxnCommitAtEpoch
  exact writeOn_kept h1

theorem execTxnRollback_kept {a : State} {y1 y2} (h1 : Kept true a y2) :
    Res.kept true a (execTxnRollback y1 y2) := by
  unfold execTxnRollback
  exact writeOn_kept h1

theorem execTxnTimeout_kept {w : Bool} {a : State} {y1 y2} (h1 : Kept w a y2) :
    Res.kept w a (execTxnTimeout y1 y2) := by
  unfold execTxnTimeout
  refine Res.kept_ite ?_ ?_
  · exact Res.kept_fault
  · extract_lets -merge -useContext +onlyGivenNames -underBinder v1 v2
    refine Res.kept_ite ?_ ?_
    · exact Res.kept_next (State.rollBack_kept h1)
    · exact Res.kept_next h1

theorem execCanSessionTimeout_kept {w : Bool} {a : State} {y1 y2} (h1 : Kept w a y2) :
    Res.kept w a (execCanSessionTimeout y1 y2) := by
  unfold execCanSessionTimeout
  refine Res.kept_ite ?_ ?_
  · exact Res.kept_next (State.endSession_kept h1)
  · exact Res.kept_next h1

theorem execDictRequest_kept {a : State} {y1 y2 y3} (h1 : Kept true a y3) :
    Res.kept true a (execDictRequest y1 y2 y3) := by
  unfold execDictRequest
  refine control_kept ?_ ?_
  · exact h1
  · intro q1 q2 q3
    extract_lets -merge -useContext +onlyGivenNames -underBinder v4
    refine Kept.ite1 ?_ ?_
    · exact q3
    · extract_lets -merge -useContext +onlyGivenNames -underBinder v5
      have k6 : Kept true a v5.2 := State.runBody_kept q3
      split
      · exact State.sendWindow_kept k6
      · extract_lets -merge -useContext +onlyGivenNames -underBinder v7
        exact State.sendWindow_kept (State.sendControl_kept k6)

theorem execInflowPortReset_kept {a : State} {y1 y2} (h1 : Kept true a y2) :
    Res.kept true a (execInflowPortReset y1 y2) := by
  unfold execInflowPortReset
  exact writeOn_kept h1

theorem execTakeOpen_kept {a : State} {y1 y2} (h1 : Kept true a y2) :
    Res.kept true a (execTakeOpen y1 y2) := by
  unfold execTakeOpen
  exact writeOn_kept h1

theorem execTakeClose_kept {a : State} {y1 y2} (h1 : Kept true a y2) :
    Res.kept true a (execTakeClose y1 y2) := by
  unfold execTakeClose
  exact writeOn_kept h1

theorem execTakeDelete_kept {a : State} {y1 y2} (h1 : Kept true a y2) :
    Res.kept true a (execTakeDelete y1 y2) := by
  unfold execTakeDelete
  exact writeOn_kept h1

theorem execTakeAbort_kept {a : State} {y1 y2} (h1 : Kept true a y2) :
    Res.kept true a (execTakeAbort y1 y2) := by
  unfold execTakeAbort
  exact writeOn_kept h1

theorem execPondQueryRegister_kept {a : State} {y1 y2} (h1 : Kept true a y2) :
    Res.kept true a (execPondQueryRegister y1 y2) := by
  unfold execPondQueryRegister
  exact writeOn_kept h1

theorem execReservationsLoad_kept {a : State} {y1 y2} (h1 : Kept true a y2) :
    Res.kept true a (execReservationsLoad y1 y2) := by
  unfold execReservationsLoad
  exact domainOn_kept h1

theorem State.servePiece_kept {a : State} {y1 y2 y3 y4 y5 y6 y7} (h1 : Kept true a y1) :
    Kept true a ((State.servePiece y1 y2 y3 y4 y5 y6 y7).2) := by
  unfold State.servePiece
  extract_lets -merge -useContext +onlyGivenNames -underBinder v1
  have k2 : (∀ z0, Kept true a ((v1 z0).2)) := by
    intro q3
    exact h1
  extract_lets -merge -useContext +onlyGivenNames -underBinder v4 v5
  have k6 : (∀ z0, Kept true a ((v5 z0).2)) := by
    intro q7
    unfold v5
    extract_lets -merge -useContext +onlyGivenNames -underBinder v8
    refine Kept.ite2 ?_ ?_
    · refine Kept.ite2 ?_ ?_
      · exact State.endTransfer_kept h1
      · exact State.serveWrite_kept (State.endTransfer_kept h1)
    · refine Kept.ite2 ?_ ?_
      · exact State.endTransfer_kept h1
      · exact State.setSession_kept h1
  refine Kept.ite2 ?_ ?_
  · exact h1
  · split
    · refine Kept.ite2 ?_ ?_
      · exact h1
      · refine Kept.ite2 ?_ ?_
        · exact State.endTransfer_kept h1
        · refine Kept.ite2 ?_ ?_
          · exact h1
          · refine k6 _
    · extract_lets -merge -useContext +onlyGivenNames -underBinder v9
      have k10 : Kept true a v9.2 := State.serveDomainWrite_kept h1
      refine Kept.ite2 ?_ ?_
      · exact h1
      · refine Kept.ite2 ?_ ?_
        · exact k10
        · refine Kept.ite2 ?_ ?_
          · exact h1
          · refine Kept.ite2 ?_ ?_
            · refine Kept.ite2 ?_ ?_
              · exact k10
              · exact h1
            · refine k6 _

theorem State.dictDone_kept {a : State} {y1 y2 y3 y4} (h1 : Kept true a y1) :
    Kept true a (State.dictDone y1 y2 y3 y4) := by
  unfold State.dictDone
  exact State.finish_kept h1

theorem execDictionaryWrite_kept {a : State} {y1 y2 y3 y4 y5 y6 y7 y8 y9} (h1 : Kept true a y9) :
    Res.kept true a (execDictionaryWrite y1 y2 y3 y4 y5 y6 y7 y8 y9) := by
  unfold execDictionaryWrite
  refine startCmd_kept ?_ ?_
  · exact h1
  · intro q1
    extract_lets -merge -useContext +onlyGivenNames -underBinder v2
    have k3 : Kept true a v2 := State.countVendor_kept h1
    extract_lets -merge -useContext +onlyGivenNames -underBinder v4
    refine Res.kept_ite ?_ ?_
    · exact Res.kept_next k3
    · refine Res.kept_ite ?_ ?_
      · exact Res.kept_next (State.safeFail_kept k3)
      · extract_lets -merge -useContext +onlyGivenNames -underBinder v5
        have k6 : Kept true a v5.2 := by
          refine State.handle_kept ?_ ?_
          · exact k3
          · intro q7 q8 q9 q10
            refine Kept.ite2 ?_ ?_
            · exact answerOf_kept (State.serveWrite_kept q10)
            · exact answerOf_kept (State.servePiece_kept q10)
        extract_lets -merge -useContext +onlyGivenNames -underBinder v11
        exact Res.kept_next (State.dictDone_kept k6)

theorem execDictionaryRead_kept {a : State} {y1 y2 y3 y4 y5 y6} (h1 : Kept true a y6) :
    Res.kept true a (execDictionaryRead y1 y2 y3 y4 y5 y6) := by
  unfold execDictionaryRead
  refine startCmd_kept ?_ ?_
  · exact h1
  · intro q1
    extract_lets -merge -useContext +onlyGivenNames -underBinder v2
    have k3 : Kept true a v2 := State.countVendor_kept h1
    extract_lets -merge -useContext +onlyGivenNames -underBinder v4
    refine Res.kept_ite ?_ ?_
    · exact Res.kept_next k3
    · extract_lets -merge -useContext +onlyGivenNames -underBinder v5 v6 v7 v8 v9 v10
      have k11 : Kept true a v10.2 := by
        refine State.handle_kept ?_ ?_
        · exact k3
        · intro q12 q13 q14 q15
          extract_lets -merge -useContext +onlyGivenNames -underBinder v16
          refine Kept.ite2 ?_ ?_
          · exact q15
          · exact State.afterRead_kept q15
      extract_lets -merge -useContext +onlyGivenNames -underBinder v17
      refine Res.kept_ite ?_ ?_
      · exact Res.kept_next (State.dictDone_kept k11)
      · extract_lets -merge -useContext +onlyGivenNames -underBinder v18
        exact Res.kept_next (State.dictDone_kept (State.dataOut_kept k11))

theorem execDirtyLogHarvest_kept {a : State} {y1 y2} (h1 : Kept true a y2) :
    Res.kept true a (execDirtyLogHarvest y1 y2) := by
  unfold execDirtyLogHarvest
  exact writeOn_kept h1

theorem execQuiesce_kept {a : State} {y1 y2} (h1 : Kept true a y2) :
    Res.kept true a (execQuiesce y1 y2) := by
  unfold execQuiesce
  exact writeOn_kept h1

theorem execQuiesceResume_kept {a : State} {y1 y2} (h1 : Kept true a y2) :
    Res.kept true a (execQuiesceResume y1 y2) := by
  unfold execQuiesceResume
  exact writeOn_kept h1

theorem execStateRestore_kept {a : State} {y1 y2} (h1 : Kept true a y2) :
    Res.kept true a (execStateRestore y1 y2) := by
  unfold execStateRestore
  exact domainOn_kept h1

theorem execTaskResetRegister_kept {a : State} {y1 y2} (h1 : Kept true a y2) :
    Res.kept true a (execTaskResetRegister y1 y2) := by
  unfold execTaskResetRegister
  exact writeOn_kept h1

theorem execClearDispatcherHistograms_kept {a : State} {y1 y2} (h1 : Kept true a y2) :
    Res.kept true a (execClearDispatcherHistograms y1 y2) := by
  unfold execClearDispatcherHistograms
  exact writeOn_kept h1

theorem execClearKeySlot_kept {a : State} {y1 y2} (h1 : Kept true a y2) :
    Res.kept true a (execClearKeySlot y1 y2) := by
  unfold execClearKeySlot
  exact writeOn_kept h1

theorem execRemoveStoredKey_kept {a : State} {y1 y2} (h1 : Kept true a y2) :
    Res.kept true a (execRemoveStoredKey y1 y2) := by
  unfold execRemoveStoredKey
  exact writeOn_kept h1

theorem execEmptyKeyStateSlot_kept {a : State} {y1 y2} (h1 : Kept true a y2) :
    Res.kept true a (execEmptyKeyStateSlot y1 y2) := by
  unfold execEmptyKeyStateSlot
  exact writeOn_kept h1

theorem execMeasurementExtend_kept {a : State} {y1 y2} (h1 : Kept true a y2) :
    Res.kept true a (execMeasurementExtend y1 y2) := by
  unfold execMeasurementExtend
  exact domainOn_kept h1

theorem execReportRequest_kept {a : State} {y1 y2} (h1 : Kept true a y2) :
    Res.kept true a (execReportRequest y1 y2) := by
  unfold execReportRequest
  exact domainOn_kept h1

theorem State.servePeer_kept {a : State} {y1 y2 y3} (h1 : Kept true a y1) :
    Kept true a (State.servePeer y1 y2 y3) := by
  unfold State.servePeer
  extract_lets -merge -useContext +onlyGivenNames -underBinder v1
  refine Kept.ite ?_ ?_
  · exact h1
  · extract_lets -merge -useContext +onlyGivenNames -underBinder v2
    have k3 : Kept true a v2.2 := State.runBody_kept h1
    extract_lets -merge -useContext +onlyGivenNames -underBinder v4
    have k5 : Kept true a v4 := by
      unfold v4
      split
      · exact State.emitAnswer_kept k3
      · exact k3
    exact State.sendWindow_kept k5

theorem execLakeDictRequest_kept {a : State} {y1 y2 y3} (h1 : Kept true a y3) :
    Res.kept true a (execLakeDictRequest y1 y2 y3) := by
  unfold execLakeDictRequest
  refine onMsg_kept ?_ ?_
  · exact h1
  · intro q1 q2
    exact State.servePeer_kept q2

theorem execLxnBegin_kept {a : State} {y1 y2} (h1 : Kept true a y2) :
    Res.kept true a (execLxnBegin y1 y2) := by
  unfold execLxnBegin
  exact writeOn_kept h1

theorem execLxnCommitNext_kept {a : State} {y1 y2} (h1 : Kept true a y2) :
    Res.kept true a (execLxnCommitNext y1 y2) := by
  unfold execLxnCommitNext
  exact writeOn_kept h1

theorem execLxnCommitAtEpoch_kept {a : State} {y1 y2} (h1 : Kept true a y2) :
    Res.kept true a (execLxnCommitAtEpoch y1 y2) := by
  unfold execLxnCommitAtEpoch
  exact writeOn_kept h1

theorem execLxnRollback_kept {a : State} {y1 y2} (h1 : Kept true a y2) :
    Res.kept true a (execLxnRollback y1 y2) := by
  unfold execLxnRollback
  exact writeOn_kept h1

theorem execPackageSoftReset_kept {a : State} {y1 y2} (h1 : Kept true a y2) :
    Res.kept true a (execPackageSoftReset y1 y2) := by
  unfold execPackageSoftReset
  exact writeOn_kept h1

theorem execPackageSoftResetForced_kept {a : State} {y1 y2} (h1 : Kept true a y2) :
    Res.kept true a (execPackageSoftResetForced y1 y2) := by
  unfold execPackageSoftResetForced
  exact writeOn_kept h1

theorem execDieReset_kept {a : State} {y1 y2} (h1 : Kept true a y2) :
    Res.kept true a (execDieReset y1 y2) := by
  unfold execDieReset
  exact writeOn_kept h1

theorem engineOn_kept {a : State} {y1 y2 y3} (h1 : Kept true a y3) :
    Res.kept true a (engineOn y1 y2 y3) := by
  unfold engineOn
  exact writeOn_kept h1

theorem execCipherEngineReset_kept {a : State} {y1 y2} (h1 : Kept true a y2) :
    Res.kept true a (execCipherEngineReset y1 y2) := by
  unfold execCipherEngineReset
  exact engineOn_kept h1

theorem execDigestEngineReset_kept {a : State} {y1 y2} (h1 : Kept true a y2) :
    Res.kept true a (execDigestEngineReset y1 y2) := by
  unfold execDigestEngineReset
  exact engineOn_kept h1

theorem execCodecEngineReset_kept {a : State} {y1 y2} (h1 : Kept true a y2) :
    Res.kept true a (execCodecEngineReset y1 y2) := by
  unfold execCodecEngineReset
  exact engineOn_kept h1

theorem execSearchEngineReset_kept {a : State} {y1 y2} (h1 : Kept true a y2) :
    Res.kept true a (execSearchEngineReset y1 y2) := by
  unfold execSearchEngineReset
  exact engineOn_kept h1

theorem execClearEventLog_kept {a : State} {y1 y2} (h1 : Kept true a y2) :
    Res.kept true a (execClearEventLog y1 y2) := by
  unfold execClearEventLog
  exact writeOn_kept h1

theorem execAcknowledgeEvents_kept {a : State} {y1 y2} (h1 : Kept true a y2) :
    Res.kept true a (execAcknowledgeEvents y1 y2) := by
  unfold execAcknowledgeEvents
  exact writeOn_kept h1

/-! ### Pins -/

theorem State.scan_kept {w : Bool} {a : State} {y1 y2 y3 y4} (h1 : Kept w a y1) :
    Kept w a (State.scan y1 y2 y3 y4) := by
  unfold State.scan
  exact State.emit_kept (Kept.put h1)

theorem execIdcode_kept {w : Bool} {a : State} {y1 y2} (h1 : Kept w a y2) :
    Res.kept w a (execIdcode y1 y2) := by
  unfold execIdcode
  refine onDie_kept ?_ ?_
  · exact h1
  · intro q1
    exact Res.kept_next (State.scan_kept h1)

theorem execBypass_kept {w : Bool} {a : State} {y1 y2 y3} (h1 : Kept w a y3) :
    Res.kept w a (execBypass y1 y2 y3) := by
  unfold execBypass
  refine onDie_kept ?_ ?_
  · exact h1
  · intro q1
    refine Res.kept_ite ?_ ?_
    · exact Res.kept_next h1
    · exact Res.kept_next (State.scan_kept h1)

theorem execSamplePreload_kept {w : Bool} {a : State} {y1 y2} (h1 : Kept w a y2) :
    Res.kept w a (execSamplePreload y1 y2) := by
  unfold execSamplePreload
  refine onDie_kept ?_ ?_
  · exact h1
  · intro q1
    exact Res.kept_next (State.useFree_kept (State.scan_kept h1))

theorem execExtest_kept {w : Bool} {a : State} {y1 y2} (h1 : Kept w a y2) :
    Res.kept w a (execExtest y1 y2) := by
  unfold execExtest
  refine onDie_kept ?_ ?_
  · exact h1
  · intro q1
    refine Res.kept_ite ?_ ?_
    · exact Res.kept_next (State.useFree_kept (State.scan_kept h1))
    · exact Res.kept_next (State.scan_kept h1)

theorem execBootstat_kept {w : Bool} {a : State} {y1 y2} (h1 : Kept w a y2) :
    Res.kept w a (execBootstat y1 y2) := by
  unfold execBootstat
  refine onDie_kept ?_ ?_
  · exact h1
  · intro q1
    exact Res.kept_next (State.scan_kept h1)

/-! ### SelkelAcc -/

theorem Ctx.toAcc_kept {w : Bool} {a : State} {y1 y2} (h1 : Kept w a y1.s) :
    Act.kept w a (Ctx.toAcc y1 y2) := by
  unfold Ctx.toAcc
  refine Act.kept_done ?_
  extract_lets -merge -useContext +onlyGivenNames -underBinder v1
  have k2 : Kept w a v1.after := Ctx.plain_kept h1
  exact k2

theorem Ctx.accumulate_kept {w : Bool} {a : State} {y1 y2} (h1 : Kept w a y1.s) :
    Act.kept w a (Ctx.accumulate y1 y2) := by
  unfold Ctx.accumulate
  exact Ctx.toAcc_kept h1

theorem execAmul_kept {a : State} {y1 y2 y3} (h1 : Kept true a y3) :
    Res.kept true a (execAmul y1 y2 y3) := by
  unfold execAmul
  refine execOp_kept ?_ ?_
  · exact h1
  · intro q1 q2
    exact Ctx.accumulate_kept q2

theorem execAmac_kept {a : State} {y1 y2 y3} (h1 : Kept true a y3) :
    Res.kept true a (execAmac y1 y2 y3) := by
  unfold execAmac
  refine execOp_kept ?_ ?_
  · exact h1
  · intro q1 q2
    exact Ctx.accumulate_kept q2

theorem execAmsu_kept {a : State} {y1 y2 y3} (h1 : Kept true a y3) :
    Res.kept true a (execAmsu y1 y2 y3) := by
  unfold execAmsu
  refine execOp_kept ?_ ?_
  · exact h1
  · intro q1 q2
    exact Ctx.accumulate_kept q2

theorem execAmacq_kept {a : State} {y1 y2 y3} (h1 : Kept true a y3) :
    Res.kept true a (execAmacq y1 y2 y3) := by
  unfold execAmacq
  refine execOp_kept ?_ ?_
  · exact h1
  · intro q1 q2
    exact Ctx.accumulate_kept q2

theorem execAmsuq_kept {a : State} {y1 y2 y3} (h1 : Kept true a y3) :
    Res.kept true a (execAmsuq y1 y2 y3) := by
  unfold execAmsuq
  refine execOp_kept ?_ ?_
  · exact h1
  · intro q1 q2
    exact Ctx.accumulate_kept q2

theorem execAclr_kept {a : State} {y1 y2 y3} (h1 : Kept true a y3) :
    Res.kept true a (execAclr y1 y2 y3) := by
  unfold execAclr
  refine execOp_kept ?_ ?_
  · exact h1
  · intro q1 q2
    exact Ctx.toAcc_kept q2

theorem execAset_kept {a : State} {y1 y2 y3} (h1 : Kept true a y3) :
    Res.kept true a (execAset y1 y2 y3) := by
  unfold execAset
  refine execOp_kept ?_ ?_
  · exact h1
  · intro q1 q2
    exact Ctx.toAcc_kept q2

theorem Ctx.fromAcc_kept {w : Bool} {a : State} {y1 y2} (h1 : Kept w a y1.s) :
    Act.kept w a (Ctx.fromAcc y1 y2) := by
  unfold Ctx.fromAcc
  refine Act.kept_done ?_
  extract_lets -merge -useContext +onlyGivenNames -underBinder v1
  have k2 : Kept w a v1.after := Ctx.plain_kept h1
  exact k2

theorem execAext_kept {a : State} {y1 y2 y3} (h1 : Kept true a y3) :
    Res.kept true a (execAext y1 y2 y3) := by
  unfold execAext
  refine execOp_kept ?_ ?_
  · exact h1
  · intro q1 q2
    exact Ctx.fromAcc_kept q2

theorem execAgetl_kept {a : State} {y1 y2 y3} (h1 : Kept true a y3) :
    Res.kept true a (execAgetl y1 y2 y3) := by
  unfold execAgetl
  refine execOp_kept ?_ ?_
  · exact h1
  · intro q1 q2
    exact Ctx.fromAcc_kept q2

theorem execAgeth_kept {a : State} {y1 y2 y3} (h1 : Kept true a y3) :
    Res.kept true a (execAgeth y1 y2 y3) := by
  unfold execAgeth
  refine execOp_kept ?_ ?_
  · exact h1
  · intro q1 q2
    exact Ctx.fromAcc_kept q2

theorem execAgetg_kept {a : State} {y1 y2 y3} (h1 : Kept true a y3) :
    Res.kept true a (execAgetg y1 y2 y3) := by
  unfold execAgetg
  refine execOp_kept ?_ ?_
  · exact h1
  · intro q1 q2
    exact Ctx.fromAcc_kept q2

/-! ### SelkelInt -/

theorem execAdd_kept {a : State} {y1 y2 y3} (h1 : Kept true a y3) :
    Res.kept true a (execAdd y1 y2 y3) := by
  unfold execAdd
  refine execOp_kept ?_ ?_
  · exact h1
  · intro q1 q2
    exact Ctx.result_kept q2

theorem execSub_kept {a : State} {y1 y2 y3} (h1 : Kept true a y3) :
    Res.kept true a (execSub y1 y2 y3) := by
  unfold execSub
  refine execOp_kept ?_ ?_
  · exact h1
  · intro q1 q2
    exact Ctx.result_kept q2

theorem execAnd_kept {a : State} {y1 y2 y3} (h1 : Kept true a y3) :
    Res.kept true a (execAnd y1 y2 y3) := by
  unfold execAnd
  refine execOp_kept ?_ ?_
  · exact h1
  · intro q1 q2
    exact Ctx.result_kept q2

theorem execOr_kept {a : State} {y1 y2 y3} (h1 : Kept true a y3) :
    Res.kept true a (execOr y1 y2 y3) := by
  unfold execOr
  refine execOp_kept ?_ ?_
  · exact h1
  · intro q1 q2
    exact Ctx.result_kept q2

theorem execXor_kept {a : State} {y1 y2 y3} (h1 : Kept true a y3) :
    Res.kept true a (execXor y1 y2 y3) := by
  unfold execXor
  refine execOp_kept ?_ ?_
  · exact h1
  · intro q1 q2
    exact Ctx.result_kept q2

theorem execAndn_kept {a : State} {y1 y2 y3} (h1 : Kept true a y3) :
    Res.kept true a (execAndn y1 y2 y3) := by
  unfold execAndn
  refine execOp_kept ?_ ?_
  · exact h1
  · intro q1 q2
    exact Ctx.result_kept q2

theorem execSlt_kept {a : State} {y1 y2 y3} (h1 : Kept true a y3) :
    Res.kept true a (execSlt y1 y2 y3) := by
  unfold execSlt
  refine execOp_kept ?_ ?_
  · exact h1
  · intro q1 q2
    exact Ctx.result_kept q2

theorem execSltu_kept {a : State} {y1 y2 y3} (h1 : Kept true a y3) :
    Res.kept true a (execSltu y1 y2 y3) := by
  unfold execSltu
  refine execOp_kept ?_ ?_
  · exact h1
  · intro q1 q2
    exact Ctx.result_kept q2

theorem execMin_kept {a : State} {y1 y2 y3} (h1 : Kept true a y3) :
    Res.kept true a (execMin y1 y2 y3) := by
  unfold execMin
  refine execOp_kept ?_ ?_
  · exact h1
  · intro q1 q2
    exact Ctx.result_kept q2

theorem execMax_kept {a : State} {y1 y2 y3} (h1 : Kept true a y3) :
    Res.kept true a (execMax y1 y2 y3) := by
  unfold execMax
  refine execOp_kept ?_ ?_
  · exact h1
  · intro q1 q2
    exact Ctx.result_kept q2

theorem execMinu_kept {a : State} {y1 y2 y3} (h1 : Kept true a y3) :
    Res.kept true a (execMinu y1 y2 y3) := by
  unfold execMinu
  refine execOp_kept ?_ ?_
  · exact h1
  · intro q1 q2
    exact Ctx.result_kept q2

theorem execMaxu_kept {a : State} {y1 y2 y3} (h1 : Kept true a y3) :
    Res.kept true a (execMaxu y1 y2 y3) := by
  unfold execMaxu
  refine execOp_kept ?_ ?_
  · exact h1
  · intro q1 q2
    exact Ctx.result_kept q2

theorem execNeg_kept {a : State} {y1 y2 y3} (h1 : Kept true a y3) :
    Res.kept true a (execNeg y1 y2 y3) := by
  unfold execNeg
  refine execOp_kept ?_ ?_
  · exact h1
  · intro q1 q2
    exact Ctx.result_kept q2

theorem execAbs_kept {a : State} {y1 y2 y3} (h1 : Kept true a y3) :
    Res.kept true a (execAbs y1 y2 y3) := by
  unfold execAbs
  refine execOp_kept ?_ ?_
  · exact h1
  · intro q1 q2
    exact Ctx.result_kept q2

theorem execSll_kept {a : State} {y1 y2 y3} (h1 : Kept true a y3) :
    Res.kept true a (execSll y1 y2 y3) := by
  unfold execSll
  refine execOp_kept ?_ ?_
  · exact h1
  · intro q1 q2
    exact Ctx.result_kept q2

theorem execSrl_kept {a : State} {y1 y2 y3} (h1 : Kept true a y3) :
    Res.kept true a (execSrl y1 y2 y3) := by
  unfold execSrl
  refine execOp_kept ?_ ?_
  · exact h1
  · intro q1 q2
    exact Ctx.result_kept q2

theorem execSra_kept {a : State} {y1 y2 y3} (h1 : Kept true a y3) :
    Res.kept true a (execSra y1 y2 y3) := by
  unfold execSra
  refine execOp_kept ?_ ?_
  · exact h1
  · intro q1 q2
    exact Ctx.result_kept q2

theorem execSlli_kept {a : State} {y1 y2 y3} (h1 : Kept true a y3) :
    Res.kept true a (execSlli y1 y2 y3) := by
  unfold execSlli
  refine execOp_kept ?_ ?_
  · exact h1
  · intro q1 q2
    exact Ctx.result_kept q2

theorem execSrli_kept {a : State} {y1 y2 y3} (h1 : Kept true a y3) :
    Res.kept true a (execSrli y1 y2 y3) := by
  unfold execSrli
  refine execOp_kept ?_ ?_
  · exact h1
  · intro q1 q2
    exact Ctx.result_kept q2

theorem execSrai_kept {a : State} {y1 y2 y3} (h1 : Kept true a y3) :
    Res.kept true a (execSrai y1 y2 y3) := by
  unfold execSrai
  refine execOp_kept ?_ ?_
  · exact h1
  · intro q1 q2
    exact Ctx.result_kept q2

theorem execClz_kept {a : State} {y1 y2 y3} (h1 : Kept true a y3) :
    Res.kept true a (execClz y1 y2 y3) := by
  unfold execClz
  refine execOp_kept ?_ ?_
  · exact h1
  · intro q1 q2
    exact Ctx.result_kept q2

theorem execPopc_kept {a : State} {y1 y2 y3} (h1 : Kept true a y3) :
    Res.kept true a (execPopc y1 y2 y3) := by
  unfold execPopc
  refine execOp_kept ?_ ?_
  · exact h1
  · intro q1 q2
    exact Ctx.result_kept q2

theorem execSextb_kept {a : State} {y1 y2 y3} (h1 : Kept true a y3) :
    Res.kept true a (execSextb y1 y2 y3) := by
  unfold execSextb
  refine execOp_kept ?_ ?_
  · exact h1
  · intro q1 q2
    exact Ctx.result_kept q2

theorem execSexth_kept {a : State} {y1 y2 y3} (h1 : Kept true a y3) :
    Res.kept true a (execSexth y1 y2 y3) := by
  unfold execSexth
  refine execOp_kept ?_ ?_
  · exact h1
  · intro q1 q2
    exact Ctx.result_kept q2

theorem execBswap_kept {a : State} {y1 y2 y3} (h1 : Kept true a y3) :
    Res.kept true a (execBswap y1 y2 y3) := by
  unfold execBswap
  refine execOp_kept ?_ ?_
  · exact h1
  · intro q1 q2
    exact Ctx.result_kept q2

theorem execPackl_kept {a : State} {y1 y2 y3} (h1 : Kept true a y3) :
    Res.kept true a (execPackl y1 y2 y3) := by
  unfold execPackl
  refine execOp_kept ?_ ?_
  · exact h1
  · intro q1 q2
    exact Ctx.result_kept q2

theorem execPackh_kept {a : State} {y1 y2 y3} (h1 : Kept true a y3) :
    Res.kept true a (execPackh y1 y2 y3) := by
  unfold execPackh
  refine execOp_kept ?_ ?_
  · exact h1
  · intro q1 q2
    exact Ctx.result_kept q2

theorem execMul_kept {a : State} {y1 y2 y3} (h1 : Kept true a y3) :
    Res.kept true a (execMul y1 y2 y3) := by
  unfold execMul
  refine execOp_kept ?_ ?_
  · exact h1
  · intro q1 q2
    exact Ctx.result_kept q2

theorem execMulh_kept {a : State} {y1 y2 y3} (h1 : Kept true a y3) :
    Res.kept true a (execMulh y1 y2 y3) := by
  unfold execMulh
  refine execOp_kept ?_ ?_
  · exact h1
  · intro q1 q2
    exact Ctx.result_kept q2

theorem execMulhu_kept {a : State} {y1 y2 y3} (h1 : Kept true a y3) :
    Res.kept true a (execMulhu y1 y2 y3) := by
  unfold execMulhu
  refine execOp_kept ?_ ?_
  · exact h1
  · intro q1 q2
    exact Ctx.result_kept q2

theorem execMulhsu_kept {a : State} {y1 y2 y3} (h1 : Kept true a y3) :
    Res.kept true a (execMulhsu y1 y2 y3) := by
  unfold execMulhsu
  refine execOp_kept ?_ ?_
  · exact h1
  · intro q1 q2
    exact Ctx.result_kept q2

/-! ### SelkelFix -/

theorem Ctx.divide_kept {w : Bool} {a : State} {y1 y2 y3} (h1 : Kept w a y1.s) :
    Act.kept w a (Ctx.divide y1 y2 y3) := by
  unfold Ctx.divide
  refine Act.kept_ite ?_ ?_
  · exact Ctx.result_kept h1
  · refine Act.kept_ite ?_ ?_
    · exact Act.kept_trap
    · extract_lets -merge -useContext +onlyGivenNames -underBinder v1
      have k2 : Kept w a v1.after := Ctx.resultOf_kept h1
      exact Act.kept_done k2

theorem execDiv_kept {a : State} {y1 y2 y3} (h1 : Kept true a y3) :
    Res.kept true a (execDiv y1 y2 y3) := by
  unfold execDiv
  refine execOp_kept ?_ ?_
  · exact h1
  · intro q1 q2
    exact Ctx.divide_kept q2

theorem execDivu_kept {a : State} {y1 y2 y3} (h1 : Kept true a y3) :
    Res.kept true a (execDivu y1 y2 y3) := by
  unfold execDivu
  refine execOp_kept ?_ ?_
  · exact h1
  · intro q1 q2
    exact Ctx.divide_kept q2

theorem execRem_kept {a : State} {y1 y2 y3} (h1 : Kept true a y3) :
    Res.kept true a (execRem y1 y2 y3) := by
  unfold execRem
  refine execOp_kept ?_ ?_
  · exact h1
  · intro q1 q2
    exact Ctx.divide_kept q2

theorem execRemu_kept {a : State} {y1 y2 y3} (h1 : Kept true a y3) :
    Res.kept true a (execRemu y1 y2 y3) := by
  unfold execRemu
  refine execOp_kept ?_ ?_
  · exact h1
  · intro q1 q2
    exact Ctx.divide_kept q2

theorem execQmul_kept {a : State} {y1 y2 y3} (h1 : Kept true a y3) :
    Res.kept true a (execQmul y1 y2 y3) := by
  unfold execQmul
  refine execOp_kept ?_ ?_
  · exact h1
  · intro q1 q2
    exact Ctx.result_kept q2

theorem execQrshr_kept {a : State} {y1 y2 y3} (h1 : Kept true a y3) :
    Res.kept true a (execQrshr y1 y2 y3) := by
  unfold execQrshr
  refine execOp_kept ?_ ?_
  · exact h1
  · intro q1 q2
    exact Ctx.result_kept q2

theorem execQrshri_kept {a : State} {y1 y2 y3} (h1 : Kept true a y3) :
    Res.kept true a (execQrshri y1 y2 y3) := by
  unfold execQrshri
  refine execOp_kept ?_ ?_
  · exact h1
  · intro q1 q2
    exact Ctx.result_kept q2

theorem execQnarrow_kept {a : State} {y1 y2 y3} (h1 : Kept true a y3) :
    Res.kept true a (execQnarrow y1 y2 y3) := by
  unfold execQnarrow
  refine execOp_kept ?_ ?_
  · exact h1
  · intro q1 q2
    exact Ctx.result_kept q2

theorem execQsat16_kept {a : State} {y1 y2 y3} (h1 : Kept true a y3) :
    Res.kept true a (execQsat16 y1 y2 y3) := by
  unfold execQsat16
  refine execOp_kept ?_ ?_
  · exact h1
  · intro q1 q2
    exact Ctx.result_kept q2

/-! ### SelkelFlow -/

theorem execBeq_kept {a : State} {y1 y2 y3} (h1 : Kept true a y3) :
    Res.kept true a (execBeq y1 y2 y3) := by
  unfold execBeq
  refine execOp_kept ?_ ?_
  · exact h1
  · intro q1 q2
    exact Ctx.branch_kept q2

theorem execBne_kept {a : State} {y1 y2 y3} (h1 : Kept true a y3) :
    Res.kept true a (execBne y1 y2 y3) := by
  unfold execBne
  refine execOp_kept ?_ ?_
  · exact h1
  · intro q1 q2
    exact Ctx.branch_kept q2

theorem execBlt_kept {a : State} {y1 y2 y3} (h1 : Kept true a y3) :
    Res.kept true a (execBlt y1 y2 y3) := by
  unfold execBlt
  refine execOp_kept ?_ ?_
  · exact h1
  · intro q1 q2
    exact Ctx.branch_kept q2

theorem execBge_kept {a : State} {y1 y2 y3} (h1 : Kept true a y3) :
    Res.kept true a (execBge y1 y2 y3) := by
  unfold execBge
  refine execOp_kept ?_ ?_
  · exact h1
  · intro q1 q2
    exact Ctx.branch_kept q2

theorem execBltu_kept {a : State} {y1 y2 y3} (h1 : Kept true a y3) :
    Res.kept true a (execBltu y1 y2 y3) := by
  unfold execBltu
  refine execOp_kept ?_ ?_
  · exact h1
  · intro q1 q2
    exact Ctx.branch_kept q2

theorem execBgeu_kept {a : State} {y1 y2 y3} (h1 : Kept true a y3) :
    Res.kept true a (execBgeu y1 y2 y3) := by
  unfold execBgeu
  refine execOp_kept ?_ ?_
  · exact h1
  · intro q1 q2
    exact Ctx.branch_kept q2

theorem execJ_kept {a : State} {y1 y2 y3} (h1 : Kept true a y3) :
    Res.kept true a (execJ y1 y2 y3) := by
  unfold execJ
  refine execOp_kept ?_ ?_
  · exact h1
  · intro q1 q2
    exact Ctx.jump_kept q2

theorem execJal_kept {a : State} {y1 y2 y3} (h1 : Kept true a y3) :
    Res.kept true a (execJal y1 y2 y3) := by
  unfold execJal
  refine execOp_kept ?_ ?_
  · exact h1
  · intro q1 q2
    exact Ctx.jump_kept q2

theorem execJalr_kept {a : State} {y1 y2 y3} (h1 : Kept true a y3) :
    Res.kept true a (execJalr y1 y2 y3) := by
  unfold execJalr
  refine execOp_kept ?_ ?_
  · exact h1
  · intro q1 q2
    exact Ctx.jump_kept q2

theorem execB_kept {a : State} {y1 y2 y3} (h1 : Kept true a y3) :
    Res.kept true a (execB y1 y2 y3) := by
  unfold execB
  refine execOp_kept ?_ ?_
  · exact h1
  · intro q1 q2
    exact Ctx.jump_kept q2

theorem execBl_kept {a : State} {y1 y2 y3} (h1 : Kept true a y3) :
    Res.kept true a (execBl y1 y2 y3) := by
  unfold execBl
  refine execOp_kept ?_ ?_
  · exact h1
  · intro q1 q2
    exact Ctx.jump_kept q2

theorem execBr_kept {a : State} {y1 y2 y3} (h1 : Kept true a y3) :
    Res.kept true a (execBr y1 y2 y3) := by
  unfold execBr
  refine execOp_kept ?_ ?_
  · exact h1
  · intro q1 q2
    exact Ctx.jump_kept q2

/-! ### SelkelMem -/

theorem execAddi_kept {a : State} {y1 y2 y3} (h1 : Kept true a y3) :
    Res.kept true a (execAddi y1 y2 y3) := by
  unfold execAddi
  refine execOp_kept ?_ ?_
  · exact h1
  · intro q1 q2
    exact Ctx.result_kept q2

theorem execAndi_kept {a : State} {y1 y2 y3} (h1 : Kept true a y3) :
    Res.kept true a (execAndi y1 y2 y3) := by
  unfold execAndi
  refine execOp_kept ?_ ?_
  · exact h1
  · intro q1 q2
    exact Ctx.result_kept q2

theorem execOri_kept {a : State} {y1 y2 y3} (h1 : Kept true a y3) :
    Res.kept true a (execOri y1 y2 y3) := by
  unfold execOri
  refine execOp_kept ?_ ?_
  · exact h1
  · intro q1 q2
    exact Ctx.result_kept q2

theorem execXori_kept {a : State} {y1 y2 y3} (h1 : Kept true a y3) :
    Res.kept true a (execXori y1 y2 y3) := by
  unfold execXori
  refine execOp_kept ?_ ?_
  · exact h1
  · intro q1 q2
    exact Ctx.result_kept q2

theorem execSlti_kept {a : State} {y1 y2 y3} (h1 : Kept true a y3) :
    Res.kept true a (execSlti y1 y2 y3) := by
  unfold execSlti
  refine execOp_kept ?_ ?_
  · exact h1
  · intro q1 q2
    exact Ctx.result_kept q2

theorem execSltiu_kept {a : State} {y1 y2 y3} (h1 : Kept true a y3) :
    Res.kept true a (execSltiu y1 y2 y3) := by
  unfold execSltiu
  refine execOp_kept ?_ ?_
  · exact h1
  · intro q1 q2
    exact Ctx.result_kept q2

theorem execLui_kept {a : State} {y1 y2 y3} (h1 : Kept true a y3) :
    Res.kept true a (execLui y1 y2 y3) := by
  unfold execLui
  refine execOp_kept ?_ ?_
  · exact h1
  · intro q1 q2
    exact Ctx.result_kept q2

theorem execLb_kept {a : State} {y1 y2 y3} (h1 : Kept true a y3) :
    Res.kept true a (execLb y1 y2 y3) := by
  unfold execLb
  refine execOp_kept ?_ ?_
  · exact h1
  · intro q1 q2
    exact Ctx.load_kept q2

theorem execLbu_kept {a : State} {y1 y2 y3} (h1 : Kept true a y3) :
    Res.kept true a (execLbu y1 y2 y3) := by
  unfold execLbu
  refine execOp_kept ?_ ?_
  · exact h1
  · intro q1 q2
    exact Ctx.load_kept q2

theorem execLh_kept {a : State} {y1 y2 y3} (h1 : Kept true a y3) :
    Res.kept true a (execLh y1 y2 y3) := by
  unfold execLh
  refine execOp_kept ?_ ?_
  · exact h1
  · intro q1 q2
    exact Ctx.load_kept q2

theorem execLhu_kept {a : State} {y1 y2 y3} (h1 : Kept true a y3) :
    Res.kept true a (execLhu y1 y2 y3) := by
  unfold execLhu
  refine execOp_kept ?_ ?_
  · exact h1
  · intro q1 q2
    exact Ctx.load_kept q2

theorem execLw_kept {a : State} {y1 y2 y3} (h1 : Kept true a y3) :
    Res.kept true a (execLw y1 y2 y3) := by
  unfold execLw
  refine execOp_kept ?_ ?_
  · exact h1
  · intro q1 q2
    exact Ctx.load_kept q2

theorem execSb_kept {a : State} {y1 y2 y3} (h1 : Kept true a y3) :
    Res.kept true a (execSb y1 y2 y3) := by
  unfold execSb
  refine execOp_kept ?_ ?_
  · exact h1
  · intro q1 q2
    exact Ctx.store_kept q2

theorem execSh_kept {a : State} {y1 y2 y3} (h1 : Kept true a y3) :
    Res.kept true a (execSh y1 y2 y3) := by
  unfold execSh
  refine execOp_kept ?_ ?_
  · exact h1
  · intro q1 q2
    exact Ctx.store_kept q2

theorem execSw_kept {a : State} {y1 y2 y3} (h1 : Kept true a y3) :
    Res.kept true a (execSw y1 y2 y3) := by
  unfold execSw
  refine execOp_kept ?_ ?_
  · exact h1
  · intro q1 q2
    exact Ctx.store_kept q2

/-! ### SelkelSys -/

theorem Ctx.readControl_kept {w : Bool} {a : State} {y1} (h1 : Kept w a y1.s) :
    Act.kept w a (Ctx.readControl y1) := by
  unfold Ctx.readControl
  extract_lets -merge -useContext +onlyGivenNames -underBinder v1
  refine Act.kept_ite ?_ ?_
  · exact Act.kept_trap
  · extract_lets -merge -useContext +onlyGivenNames -underBinder v2 v3 v4 v5 v6
    refine Act.kept_done ?_
    extract_lets -merge -useContext +onlyGivenNames -underBinder v7
    have k8 : Kept w a v7.after := Ctx.plain_kept h1
    exact k8

theorem execCrd_kept {a : State} {y1 y2 y3} (h1 : Kept true a y3) :
    Res.kept true a (execCrd y1 y2 y3) := by
  unfold execCrd
  refine execOp_kept ?_ ?_
  · exact h1
  · intro q1 q2
    exact Ctx.readControl_kept q2

theorem Ctx.writeControl_kept {w : Bool} {a : State} {y1 y2 y3} (h1 : Kept w a y1.s) :
    Act.kept w a (Ctx.writeControl y1 y2 y3) := by
  unfold Ctx.writeControl
  extract_lets -merge -useContext +onlyGivenNames -underBinder v1
  refine Act.kept_ite ?_ ?_
  · exact Act.kept_trap
  · extract_lets -merge -useContext +onlyGivenNames -underBinder v2 v3
    refine Act.kept_done ?_
    extract_lets -merge -useContext +onlyGivenNames -underBinder v4
    have k5 : Kept w a v4.after := Ctx.plain_kept h1
    exact k5

theorem execCwr_kept {a : State} {y1 y2 y3} (h1 : Kept true a y3) :
    Res.kept true a (execCwr y1 y2 y3) := by
  unfold execCwr
  refine execOp_kept ?_ ?_
  · exact h1
  · intro q1 q2
    exact Ctx.writeControl_kept q2

theorem execCset_kept {a : State} {y1 y2 y3} (h1 : Kept true a y3) :
    Res.kept true a (execCset y1 y2 y3) := by
  unfold execCset
  refine execOp_kept ?_ ?_
  · exact h1
  · intro q1 q2
    exact Ctx.writeControl_kept q2

theorem execCclr_kept {a : State} {y1 y2 y3} (h1 : Kept true a y3) :
    Res.kept true a (execCclr y1 y2 y3) := by
  unfold execCclr
  refine execOp_kept ?_ ?_
  · exact h1
  · intro q1 q2
    exact Ctx.writeControl_kept q2

theorem execTrap_kept {a : State} {y1 y2 y3} (h1 : Kept true a y3) :
    Res.kept true a (execTrap y1 y2 y3) := by
  unfold execTrap
  refine execOp_kept ?_ ?_
  · exact h1
  · intro q1 q2
    exact Act.kept_trap

theorem Ctx.returnFromTrap_kept {w : Bool} {a : State} {y1} (h1 : Kept w a y1.s) :
    Act.kept w a (Ctx.returnFromTrap y1) := by
  unfold Ctx.returnFromTrap
  refine Act.kept_done ?_
  extract_lets -merge -useContext +onlyGivenNames -underBinder v1
  have k2 : Kept w a v1.after := Ctx.plain_kept h1
  exact State.setTask_kept h1

theorem execEret_kept {a : State} {y1 y2 y3} (h1 : Kept true a y3) :
    Res.kept true a (execEret y1 y2 y3) := by
  unfold execEret
  refine execOp_kept ?_ ?_
  · exact h1
  · intro q1 q2
    exact Ctx.returnFromTrap_kept q2

theorem Ctx.waitFlags_kept {a : State} {y1} (h1 : Kept true a y1.s) :
    Act.kept true a (Ctx.waitFlags y1) := by
  unfold Ctx.waitFlags
  extract_lets -merge -useContext +onlyGivenNames -underBinder v1
  have k2 : Kept true a v1 := State.consumeOutput_kept h1
  split
  · exact Act.kept_done k2
  · extract_lets -merge -useContext +onlyGivenNames -underBinder v3
    refine Act.kept_ite ?_ ?_
    · refine Act.kept_done ?_
      extract_lets -merge -useContext +onlyGivenNames -underBinder v4
      have k5 : Kept true a v4.after := Ctx.plain_kept h1
      exact State.yieldCore_kept k2
    · refine Act.kept_ite ?_ ?_
      · extract_lets -merge -useContext +onlyGivenNames -underBinder v6
        refine Act.kept_done ?_
        extract_lets -merge -useContext +onlyGivenNames -underBinder v7
        have k8 : Kept true a v7.after := Ctx.plain_kept h1
        exact State.setTask_kept k2
      · refine Act.kept_done ?_
        extract_lets -merge -useContext +onlyGivenNames -underBinder v9
        have k10 : Kept true a v9.after := Ctx.plain_kept h1
        exact State.setTask_kept k2

theorem execWait_kept {a : State} {y1 y2 y3} (h1 : Kept true a y3) :
    Res.kept true a (execWait y1 y2 y3) := by
  unfold execWait
  refine execOp_kept ?_ ?_
  · exact h1
  · intro q1 q2
    exact Ctx.waitFlags_kept q2

theorem execFence_kept {a : State} {y1 y2 y3} (h1 : Kept true a y3) :
    Res.kept true a (execFence y1 y2 y3) := by
  unfold execFence
  refine execOp_kept ?_ ?_
  · exact h1
  · intro q1 q2
    refine Ctx.waits_kept ?_ ?_
    · exact q2
    · extract_lets -merge -useContext +onlyGivenNames -underBinder v3
      have k4 : Kept true a v3.after := Ctx.plain_kept q2
      exact State.consumeOutput_kept q2

theorem execExit_kept {a : State} {y1 y2 y3} (h1 : Kept true a y3) :
    Res.kept true a (execExit y1 y2 y3) := by
  unfold execExit
  refine execOp_kept ?_ ?_
  · exact h1
  · intro q1 q2
    refine Act.kept_done ?_
    extract_lets -merge -useContext +onlyGivenNames -underBinder v3
    have k4 : Kept true a v3.after := Ctx.plain_kept q2
    exact State.stopTask_kept (State.consumeOutput_kept q2)

/-! ### SelkelVec -/

theorem execVadd_kept {a : State} {y1 y2 y3} (h1 : Kept true a y3) :
    Res.kept true a (execVadd y1 y2 y3) := by
  unfold execVadd
  refine execOp_kept ?_ ?_
  · exact h1
  · intro q1 q2
    exact Ctx.toV_kept q2

theorem execVsub_kept {a : State} {y1 y2 y3} (h1 : Kept true a y3) :
    Res.kept true a (execVsub y1 y2 y3) := by
  unfold execVsub
  refine execOp_kept ?_ ?_
  · exact h1
  · intro q1 q2
    exact Ctx.toV_kept q2

theorem execVand_kept {a : State} {y1 y2 y3} (h1 : Kept true a y3) :
    Res.kept true a (execVand y1 y2 y3) := by
  unfold execVand
  refine execOp_kept ?_ ?_
  · exact h1
  · intro q1 q2
    exact Ctx.toV_kept q2

theorem execVor_kept {a : State} {y1 y2 y3} (h1 : Kept true a y3) :
    Res.kept true a (execVor y1 y2 y3) := by
  unfold execVor
  refine execOp_kept ?_ ?_
  · exact h1
  · intro q1 q2
    exact Ctx.toV_kept q2

theorem execVxor_kept {a : State} {y1 y2 y3} (h1 : Kept true a y3) :
    Res.kept true a (execVxor y1 y2 y3) := by
  unfold execVxor
  refine execOp_kept ?_ ?_
  · exact h1
  · intro q1 q2
    exact Ctx.toV_kept q2

theorem execVmin_kept {a : State} {y1 y2 y3} (h1 : Kept true a y3) :
    Res.kept true a (execVmin y1 y2 y3) := by
  unfold execVmin
  refine execOp_kept ?_ ?_
  · exact h1
  · intro q1 q2
    exact Ctx.toV_kept q2

theorem execVmax_kept {a : State} {y1 y2 y3} (h1 : Kept true a y3) :
    Res.kept true a (execVmax y1 y2 y3) := by
  unfold execVmax
  refine execOp_kept ?_ ?_
  · exact h1
  · intro q1 q2
    exact Ctx.toV_kept q2

theorem execVminu_kept {a : State} {y1 y2 y3} (h1 : Kept true a y3) :
    Res.kept true a (execVminu y1 y2 y3) := by
  unfold execVminu
  refine execOp_kept ?_ ?_
  · exact h1
  · intro q1 q2
    exact Ctx.toV_kept q2

theorem execVmaxu_kept {a : State} {y1 y2 y3} (h1 : Kept true a y3) :
    Res.kept true a (execVmaxu y1 y2 y3) := by
  unfold execVmaxu
  refine execOp_kept ?_ ?_
  · exact h1
  · intro q1 q2
    exact Ctx.toV_kept q2

theorem execVneg_kept {a : State} {y1 y2 y3} (h1 : Kept true a y3) :
    Res.kept true a (execVneg y1 y2 y3) := by
  unfold execVneg
  refine execOp_kept ?_ ?_
  · exact h1
  · intro q1 q2
    exact Ctx.toV_kept q2

theorem execVabs_kept {a : State} {y1 y2 y3} (h1 : Kept true a y3) :
    Res.kept true a (execVabs y1 y2 y3) := by
  unfold execVabs
  refine execOp_kept ?_ ?_
  · exact h1
  · intro q1 q2
    exact Ctx.toV_kept q2

theorem execVsll_kept {a : State} {y1 y2 y3} (h1 : Kept true a y3) :
    Res.kept true a (execVsll y1 y2 y3) := by
  unfold execVsll
  refine execOp_kept ?_ ?_
  · exact h1
  · intro q1 q2
    exact Ctx.toV_kept q2

theorem execVsrl_kept {a : State} {y1 y2 y3} (h1 : Kept true a y3) :
    Res.kept true a (execVsrl y1 y2 y3) := by
  unfold execVsrl
  refine execOp_kept ?_ ?_
  · exact h1
  · intro q1 q2
    exact Ctx.toV_kept q2

theorem execVsra_kept {a : State} {y1 y2 y3} (h1 : Kept true a y3) :
    Res.kept true a (execVsra y1 y2 y3) := by
  unfold execVsra
  refine execOp_kept ?_ ?_
  · exact h1
  · intro q1 q2
    exact Ctx.toV_kept q2

theorem execVqmul_kept {a : State} {y1 y2 y3} (h1 : Kept true a y3) :
    Res.kept true a (execVqmul y1 y2 y3) := by
  unfold execVqmul
  refine execOp_kept ?_ ?_
  · exact h1
  · intro q1 q2
    exact Ctx.toV_kept q2

theorem execVqrshr_kept {a : State} {y1 y2 y3} (h1 : Kept true a y3) :
    Res.kept true a (execVqrshr y1 y2 y3) := by
  unfold execVqrshr
  refine execOp_kept ?_ ?_
  · exact h1
  · intro q1 q2
    exact Ctx.toV_kept q2

theorem execVcmpeq_kept {a : State} {y1 y2 y3} (h1 : Kept true a y3) :
    Res.kept true a (execVcmpeq y1 y2 y3) := by
  unfold execVcmpeq
  refine execOp_kept ?_ ?_
  · exact h1
  · intro q1 q2
    exact Ctx.toV_kept q2

theorem execVcmplt_kept {a : State} {y1 y2 y3} (h1 : Kept true a y3) :
    Res.kept true a (execVcmplt y1 y2 y3) := by
  unfold execVcmplt
  refine execOp_kept ?_ ?_
  · exact h1
  · intro q1 q2
    exact Ctx.toV_kept q2

theorem execVcmpltu_kept {a : State} {y1 y2 y3} (h1 : Kept true a y3) :
    Res.kept true a (execVcmpltu y1 y2 y3) := by
  unfold execVcmpltu
  refine execOp_kept ?_ ?_
  · exact h1
  · intro q1 q2
    exact Ctx.toV_kept q2

theorem execVsel_kept {a : State} {y1 y2 y3} (h1 : Kept true a y3) :
    Res.kept true a (execVsel y1 y2 y3) := by
  unfold execVsel
  refine execOp_kept ?_ ?_
  · exact h1
  · intro q1 q2
    exact Ctx.toV_kept q2

theorem execVmul_kept {a : State} {y1 y2 y3} (h1 : Kept true a y3) :
    Res.kept true a (execVmul y1 y2 y3) := by
  unfold execVmul
  refine execOp_kept ?_ ?_
  · exact h1
  · intro q1 q2
    exact Ctx.toV_kept q2

theorem execVpopc_kept {a : State} {y1 y2 y3} (h1 : Kept true a y3) :
    Res.kept true a (execVpopc y1 y2 y3) := by
  unfold execVpopc
  refine execOp_kept ?_ ?_
  · exact h1
  · intro q1 q2
    exact Ctx.toV_kept q2

theorem Ctx.toVA_kept {w : Bool} {a : State} {y1 y2 y3 y4} (h1 : Kept w a y1.s) :
    Act.kept w a (Ctx.toVA y1 y2 y3 y4) := by
  unfold Ctx.toVA
  refine Act.kept_done ?_
  extract_lets -merge -useContext +onlyGivenNames -underBinder v1
  have k2 : Kept w a v1.after := Ctx.plain_kept h1
  exact k2

theorem Ctx.macc_kept {w : Bool} {a : State} {y1 y2} (h1 : Kept w a y1.s) :
    Act.kept w a (Ctx.macc y1 y2) := by
  unfold Ctx.macc
  extract_lets -merge -useContext +onlyGivenNames -underBinder v1
  exact Ctx.toVA_kept h1

theorem execVmac_kept {a : State} {y1 y2 y3} (h1 : Kept true a y3) :
    Res.kept true a (execVmac y1 y2 y3) := by
  unfold execVmac
  refine execOp_kept ?_ ?_
  · exact h1
  · intro q1 q2
    exact Ctx.macc_kept q2

theorem execVmsu_kept {a : State} {y1 y2 y3} (h1 : Kept true a y3) :
    Res.kept true a (execVmsu y1 y2 y3) := by
  unfold execVmsu
  refine execOp_kept ?_ ?_
  · exact h1
  · intro q1 q2
    exact Ctx.macc_kept q2

theorem execVmacq_kept {a : State} {y1 y2 y3} (h1 : Kept true a y3) :
    Res.kept true a (execVmacq y1 y2 y3) := by
  unfold execVmacq
  refine execOp_kept ?_ ?_
  · exact h1
  · intro q1 q2
    exact Ctx.macc_kept q2

theorem execVmula_kept {a : State} {y1 y2 y3} (h1 : Kept true a y3) :
    Res.kept true a (execVmula y1 y2 y3) := by
  unfold execVmula
  refine execOp_kept ?_ ?_
  · exact h1
  · intro q1 q2
    exact Ctx.macc_kept q2

theorem execVaclr_kept {a : State} {y1 y2 y3} (h1 : Kept true a y3) :
    Res.kept true a (execVaclr y1 y2 y3) := by
  unfold execVaclr
  refine execOp_kept ?_ ?_
  · exact h1
  · intro q1 q2
    exact Ctx.toVA_kept q2

theorem Ctx.loadV_kept {w : Bool} {a : State} {y1} (h1 : Kept w a y1.s) :
    Act.kept w a (Ctx.loadV y1) := by
  unfold Ctx.loadV
  extract_lets -merge -useContext +onlyGivenNames -underBinder v1
  refine Act.kept_ite ?_ ?_
  · exact Act.kept_trap
  · split
    · exact Act.kept_trap
    · refine Act.kept_ite ?_ ?_
      · exact Act.kept_trap
      · exact Act.kept_done (Ctx.loaded_kept h1)

theorem execVld_kept {a : State} {y1 y2 y3} (h1 : Kept true a y3) :
    Res.kept true a (execVld y1 y2 y3) := by
  unfold execVld
  refine execOp_kept ?_ ?_
  · exact h1
  · intro q1 q2
    exact Ctx.loadV_kept q2

theorem Ctx.storeV_kept {a : State} {y1} (h1 : Kept true a y1.s) :
    Act.kept true a (Ctx.storeV y1) := by
  unfold Ctx.storeV
  extract_lets -merge -useContext +onlyGivenNames -underBinder v1 v2
  refine Act.kept_ite ?_ ?_
  · exact Act.kept_trap
  · split
    · exact Act.kept_trap
    · exact Act.kept_trap
    · exact Act.kept_done (Ctx.stored_kept h1)
    · refine Ctx.waits_kept ?_ ?_
      · exact h1
      · exact Ctx.stored_kept h1

theorem execVst_kept {a : State} {y1 y2 y3} (h1 : Kept true a y3) :
    Res.kept true a (execVst y1 y2 y3) := by
  unfold execVst
  refine execOp_kept ?_ ?_
  · exact h1
  · intro q1 q2
    exact Ctx.storeV_kept q2

theorem execVbcast_kept {a : State} {y1 y2 y3} (h1 : Kept true a y3) :
    Res.kept true a (execVbcast y1 y2 y3) := by
  unfold execVbcast
  refine execOp_kept ?_ ?_
  · exact h1
  · intro q1 q2
    exact Ctx.toV_kept q2

theorem execVget_kept {a : State} {y1 y2 y3} (h1 : Kept true a y3) :
    Res.kept true a (execVget y1 y2 y3) := by
  unfold execVget
  refine execOp_kept ?_ ?_
  · exact h1
  · intro q1 q2
    exact Ctx.fromV_kept q2

theorem execVput_kept {a : State} {y1 y2 y3} (h1 : Kept true a y3) :
    Res.kept true a (execVput y1 y2 y3) := by
  unfold execVput
  refine execOp_kept ?_ ?_
  · exact h1
  · intro q1 q2
    exact Ctx.toV_kept q2

theorem execVredadd_kept {a : State} {y1 y2 y3} (h1 : Kept true a y3) :
    Res.kept true a (execVredadd y1 y2 y3) := by
  unfold execVredadd
  refine execOp_kept ?_ ?_
  · exact h1
  · intro q1 q2
    exact Ctx.fromV_kept q2

theorem execVredmin_kept {a : State} {y1 y2 y3} (h1 : Kept true a y3) :
    Res.kept true a (execVredmin y1 y2 y3) := by
  unfold execVredmin
  refine execOp_kept ?_ ?_
  · exact h1
  · intro q1 q2
    exact Ctx.fromV_kept q2

theorem execVredmax_kept {a : State} {y1 y2 y3} (h1 : Kept true a y3) :
    Res.kept true a (execVredmax y1 y2 y3) := by
  unfold execVredmax
  refine execOp_kept ?_ ?_
  · exact h1
  · intro q1 q2
    exact Ctx.fromV_kept q2

theorem execVperm_kept {a : State} {y1 y2 y3} (h1 : Kept true a y3) :
    Res.kept true a (execVperm y1 y2 y3) := by
  unfold execVperm
  refine execOp_kept ?_ ?_
  · exact h1
  · intro q1 q2
    exact Ctx.toV_kept q2

theorem Ctx.zip_kept {w : Bool} {a : State} {y1 y2} (h1 : Kept w a y1.s) :
    Act.kept w a (Ctx.zip y1 y2) := by
  unfold Ctx.zip
  extract_lets -merge -useContext +onlyGivenNames -underBinder v1 v2 v3 v4
  exact Ctx.toV_kept h1

theorem execVzipl_kept {a : State} {y1 y2 y3} (h1 : Kept true a y3) :
    Res.kept true a (execVzipl y1 y2 y3) := by
  unfold execVzipl
  refine execOp_kept ?_ ?_
  · exact h1
  · intro q1 q2
    exact Ctx.zip_kept q2

theorem execVziph_kept {a : State} {y1 y2 y3} (h1 : Kept true a y3) :
    Res.kept true a (execVziph y1 y2 y3) := by
  unfold execVziph
  refine execOp_kept ?_ ?_
  · exact h1
  · intro q1 q2
    exact Ctx.zip_kept q2

theorem Ctx.widen_kept {w : Bool} {a : State} {y1 y2} (h1 : Kept w a y1.s) :
    Act.kept w a (Ctx.widen y1 y2) := by
  unfold Ctx.widen
  extract_lets -merge -useContext +onlyGivenNames -underBinder v1 v2 v3
  exact Ctx.toV_kept h1

theorem execVwidenl_kept {a : State} {y1 y2 y3} (h1 : Kept true a y3) :
    Res.kept true a (execVwidenl y1 y2 y3) := by
  unfold execVwidenl
  refine execOp_kept ?_ ?_
  · exact h1
  · intro q1 q2
    exact Ctx.widen_kept q2

theorem execVwidenh_kept {a : State} {y1 y2 y3} (h1 : Kept true a y3) :
    Res.kept true a (execVwidenh y1 y2 y3) := by
  unfold execVwidenh
  refine execOp_kept ?_ ?_
  · exact h1
  · intro q1 q2
    exact Ctx.widen_kept q2

theorem execVaccout_kept {a : State} {y1 y2 y3} (h1 : Kept true a y3) :
    Res.kept true a (execVaccout y1 y2 y3) := by
  unfold execVaccout
  refine execOp_kept ?_ ?_
  · exact h1
  · intro q1 q2
    exact Ctx.toV_kept q2

theorem execVaccin_kept {a : State} {y1 y2 y3} (h1 : Kept true a y3) :
    Res.kept true a (execVaccin y1 y2 y3) := by
  unfold execVaccin
  refine execOp_kept ?_ ?_
  · exact h1
  · intro q1 q2
    exact Ctx.toVA_kept q2

end Sys2Proof.Machine
end

