-- ==== Sys2Proof/Laws/Requests.lean ====
section
/-!
SUPPORT. What the dictionary service and a pond answer where nothing stands against the request: one lemma for each, over the conditions that Safety
states.
-/

set_option Elab.async false

namespace Sys2Proof.Machine

/-! ### Values of requests -/

theorem length_leBytes (n v : Nat) : (leBytes n v).length = n := by
  induction n generalizing v with
  | zero => rfl
  | succ n ih => simp [leBytes, ih]

theorem ofLe_leBytes (n v : Nat) (h : v < 256 ^ n) : ofLe (leBytes n v) = v := by
  induction n generalizing v with
  | zero => simp at h; simp [leBytes, ofLe, h]
  | succ n ih =>
    have : v / 256 < 256 ^ n := by rw [Nat.div_lt_iff_lt_mul (by decide)]; rw [pow_succ] at h; omega
    simp only [leBytes, ofLe, ih _ this]; omega

theorem obj_setObj (s : State) (idx sub v : Nat) : (s.setObj idx sub v).obj idx sub = v := by
  simp [State.obj, State.setObj]

/-- The bytes that give a value begin with its little-endian form. -/
theorem Gives.take_eq {data : List Nat} {n v : Nat} (h : Gives data n v) : data.take n = leBytes n v := by
  obtain ⟨-, k, rfl⟩ := h
  rw [List.take_left' (length_leBytes n v)]

/-- A type of that many bytes reads the value from them. -/
theorem Gives.value {data : List Nat} {n v : Nat} {ty : ObjTy} (h : Gives data n v) (hn : tyBytes ty = n) (hs : ∀ k, ty ≠ .str k) :
    valueBytes ty data = some (leBytes n v, false) := by
  have ht := h.take_eq
  obtain ⟨-, k, rfl⟩ := h
  have h2 : ((leBytes n v ++ zeros k).drop n) = zeros k := by
    rw [List.drop_left' (length_leBytes n v)]
  cases ty <;> simp_all [valueBytes, length_leBytes, zeros]

/-- A number in range is held as it was given. -/
theorem holdWrite_num {s c : State} {idx sub : Nat} {data : List Nat} {n v : Nat} {row : ObjRow}
    (hr : findRow s.cfg.dies idx sub = some row) (hn : tyBytes row.ty = n) (hs : ∀ k, row.ty ≠ .str k) (hd : ∀ k, row.ty ≠ .domain k)
    (ha : row.acc ≠ .rwl) (hg : Gives data n v) (hv : heldInRange s.cfg row v = some v)
    (hi : s.heldIn (c.setObj idx sub v) idx sub = v) :
    s.holdWrite c idx sub data = (0, leBytes n v, false) := by
  have h1 := hg.value hn hs
  have h2 := ofLe_leBytes n v hg.1
  have hsv : sameValue row v v = true := by unfold sameValue; split <;> simp
  have hl : s.isLimited idx sub = false := by simp [State.isLimited, hr, ha]
  have : s.holdValue c idx sub data = (0, leBytes n v, false) := by
    unfold State.holdValue
    simp only [hr]
    cases hty : row.ty <;> simp_all
  simp [State.holdWrite, this, State.fuses, hl]

/-- Of a command object the device holds any value as given. -/
theorem heldIn_any {s c : State} {idx sub v : Nat} (h : idx ∈ [0x210F, 0x2220, 0x5204, 0x410E, 0x4108, 0x5012, 0x6007, 0x600E, 0x6404, 0xA001, 0xA002, 0xA003, 0xA005, 0xA00E, 0x900D, 0x1F00] ∨ (0x5100 ≤ idx ∧ idx < 0x5108)) :
    s.heldIn (c.setObj idx sub v) idx sub = v := by
  have ho := obj_setObj c idx sub v
  rcases h with h | ⟨h1, h2⟩
  · simp only [List.mem_cons, List.not_mem_nil, or_false] at h
    rcases h with rfl|rfl|rfl|rfl|rfl|rfl|rfl|rfl|rfl|rfl|rfl|rfl|rfl|rfl|rfl|rfl <;> simp [State.heldIn, ho]
  · have : ∀ b, (b + 8 ≤ 0x5100 ∨ 0x5108 ≤ b) → ¬(b ≤ idx ∧ idx < b + 8) := by omega
    have n1 : ¬(0x2200 ≤ idx ∧ idx < 0x2220 ∧ sub = 3) := by omega
    have n2 : idx ≠ 0x1801 := by omega
    have n3 : idx ≠ 0xA008 := by omega
    simp only [State.heldIn, ho]
    simp [this, n1, n2, n3]

/-- The four transaction commands are held as given. -/
theorem holdWrite_command (s c : State) (idx v : Nat) (hi : idx = 0x1F00 ∨ idx = 0x900D) (h1 : 1 ≤ v) (h4 : v ≤ 4) : s.holdWrite c idx 1 [v] = (0, [v], false) := by
  have hg : Gives [v] 1 v := ⟨by omega, 0, by simp [leBytes, zeros]; omega⟩
  have hl : leBytes 1 v = [v] := by simp [leBytes]; omega
  rcases hi with rfl | rfl
  · have := holdWrite_num (s := s) (c := c) (row := ⟨0x1F00, 0x1F00, false, 1, 1, .enum8, .wo, 0, .enum 1 4 4⟩) (idx := 0x1F00) (sub := 1) rfl rfl (by simp) (by simp) (by simp) hg (by simp [heldInRange]; omega) (heldIn_any (by simp))
    rw [this]; exact congrArg (fun l => (0, l, false)) hl
  · have := holdWrite_num (s := s) (c := c) (row := ⟨0x900D, 0x900D, false, 1, 1, .enum8, .wo, 0, .any⟩) (idx := 0x900D) (sub := 1) rfl rfl (by simp) (by simp) (by simp) hg (by simp [heldInRange]) (heldIn_any (by simp))
    rw [this]; exact congrArg (fun l => (0, l, false)) hl

/-! ### Requests that are served -/

/-- A read that may be made is answered with status 0 and the bytes read. -/
theorem serveRead_ok {s : State} {k cls : Nat} {r : DictReq} {ty} (h : MayRead s cls r.idx r.sub ty) (hd : isDomain ty = false) :
    s.serveRead k cls r = (⟨1, r.idx, r.sub, 0, 0, s.epoch, (s.readBytes k cls r.idx r.sub).take 48⟩, s.afterRead r.idx r.sub) := by
  obtain ⟨acc, he, -⟩ := h.entry
  simp [State.serveRead, judge_read h, he, hd]

/-- A command object that may be written, and whose value the device holds as given, acts. -/
theorem serveCommand_ok {s : State} {k cls cmd idx sub : Nat} {data held : List Nat} {ty : ObjTy} {dom : Bool}
    (h : MayWrite s cls idx sub ty .wo (s.openTxn k)) (hd : isDomain ty = dom) (ht : ¬(idx = 0x1F00 ∧ sub = 1))
    (hs : sessionObject idx sub = false) (h9 : idx ≠ 0x900E)
    (hh : s.holdWrite s idx sub data = (0, held, false)) :
    s.serveWrite k cls cmd idx sub data dom = State.writeDone cmd cls idx sub false
            (if dom then s.actDom k idx sub held else s.actNum k cls idx (ofLe held)) := by
  simp [State.serveWrite, judge_write h, h.entry, hd, State.writeCheck, ht, hh, hs, h9]

/-- A transaction command that may be written and that its check lets through acts. -/
theorem serveTxn_ok {s : State} {k cls cmd : Nat} {v : Nat}
    (h : MayWrite s cls 0x1F00 1 .enum8 .wo (s.openTxn k)) (hc : s.txnCheck k v = 0)
    (hh : s.holdWrite s 0x1F00 1 [v] = (0, [v], false)) :
    s.serveWrite k cls cmd 0x1F00 1 [v] false = State.writeDone cmd cls 0x1F00 1 false (s.actNum k cls 0x1F00 v) := by
  have : field [v] 0 1 = v := by simp [field, ofLe, slice, fit, zeros]
  simp [State.serveWrite, judge_write h, h.entry, State.writeCheck, this, hc, hh, isDomain, sessionObject, ofLe]

/-- A write that acted is answered with status 0. -/
theorem writeDone_acted (s t : State) (cmd cls idx sub : Nat) :
    answerOf (State.writeDone cmd cls idx sub false (s.acted t)) = (some ⟨cmd, idx, sub, 0, 0, s.epoch, []⟩, t) := by
  simp [State.writeDone, State.acted, answerOf, b2n]

/-- A written command answers status 0 and leaves the state that its act leaves. -/
theorem writeOn_command {q : DictReq} {s t : State} {ty : ObjTy} {n v : Nat} {row : ObjRow} (h : MayCommand q ty s)
    (hr : findRow s.cfg.dies q.idx q.sub = some row) (hn : tyBytes row.ty = n) (hs : ∀ k, row.ty ≠ .str k) (hd : ∀ k, row.ty ≠ .domain k)
    (ha : row.acc ≠ .rwl) (hg : Gives q.data n v) (hv : heldInRange s.cfg row v = some v)
    (hi : ∀ s c : State, s.heldIn (c.setObj q.idx q.sub v) q.idx q.sub = v) (hty : isDomain ty = false)
    (ht : ¬(q.idx = 0x1F00 ∧ q.sub = 1)) (hss : sessionObject q.idx q.sub = false) (h9 : q.idx ≠ 0x900E)
    (hact : (s.atWork q).actNum (reqKey q) (s.clsOf q) q.idx v = (s.atWork q).acted t) :
    writeOn q s = .next (s.done q 2 t) := by
  have hh := holdWrite_num (s := s.atWork q) (c := s.atWork q) (by simpa using hr) hn hs hd ha hg (by simpa using hv) (hi _ _)
  rw [writeOn, onPath_handle h.1, serveCommand_ok h.2 hty ht hss h9 hh]
  simp only [Bool.false_eq_true, if_false, ofLe_leBytes n v hg.1, hact, writeDone_acted]
  simp [State.done]

/-- A transaction command answers what its act answers. -/
theorem writeOn_txn {q : DictReq} {s : State} {v : Nat} (h : MayCommand q .enum8 s) (hi : q.idx = 0x1F00) (hsub : q.sub = 1) (hd : q.data = [v])
    (h1 : 1 ≤ v) (h4 : v ≤ 4) (hc : (s.atWork q).txnCheck (reqKey q) v = 0) :
    writeOn q s = .next (s.told q (answerOf (State.writeDone 2 (s.clsOf q) 0x1F00 1 false ((s.atWork q).txnCommand (reqKey q) (s.clsOf q) v))).1 (answerOf (State.writeDone 2 (s.clsOf q) 0x1F00 1 false ((s.atWork q).txnCommand (reqKey q) (s.clsOf q) v))).2) := by
  have h2 := h.2
  rw [hi, hsub] at h2
  have := serveTxn_ok (cmd := 2) h2 hc (holdWrite_command _ _ 0x1F00 v (Or.inl rfl) h1 h4)
  rw [writeOn, onPath_handle h.1, hi, hsub, hd, this]
  simp [State.actNum]

/-- A lake transaction command answers what its act answers. -/
theorem writeOn_lxn {q : DictReq} {s : State} {v : Nat} (h : MayCommand q .enum8 s) (hi : q.idx = 0x900D) (hsub : q.sub = 1) (hd : q.data = [v])
    (h1 : 1 ≤ v) (h4 : v ≤ 4)  :
    writeOn q s = .next (s.told q (answerOf (State.writeDone 2 (s.clsOf q) 0x900D 1 false ((s.atWork q).lxnCommand (reqKey q) v))).1 (answerOf (State.writeDone 2 (s.clsOf q) 0x900D 1 false ((s.atWork q).lxnCommand (reqKey q) v))).2) := by
  have h2 := h.2
  rw [hi, hsub] at h2
  have := serveCommand_ok (cmd := 2) (dom := false) h2 rfl (by simp) rfl (by simp) (holdWrite_command _ _ 0x900D v (Or.inr rfl) h1 h4)
  rw [writeOn, onPath_handle h.1, hi, hsub, hd, this]
  simp [State.actNum, ofLe]

/-- A commit that may be accepted is. -/
theorem acceptCommit_acceptable {w : State} {a : CommitAsk} {b : Nat} {late : Bool} (ha : Acceptable w a b late) : w.acceptCommit a = (0, late, b, w.accepted a) := by
  obtain ⟨e1, e2, e3, e4⟩ := ha
  have : (w.acceptCommit a).1 = 0 ∧ (w.acceptCommit a).2.1 = late ∧ (w.acceptCommit a).2.2.1 = b := by
    unfold State.acceptCommit
    have e5 : (a.writes.any w.fuses && !w.pins.fuseVpp) = false := by
      cases h : a.writes.any w.fuses with
      | false => rfl
      | true => simp [e4 h]
    simp only [e1, e2, e3, e5, Bool.false_eq_true, if_false]
    exact ⟨trivial, trivial, trivial⟩
  obtain ⟨h1, h2, h3⟩ := this
  rw [State.accepted]; ext <;> simp [h1, h2, h3]

/-! ### Operations on a pond's buffers -/

/-- GET where a buffer may be granted. -/
theorem pondGet_grants {s : State} {o cls d p q} (h : Grants s o cls d p q) : s.pondGet o cls d p = (⟨0, grantedHandle d p q⟩, s.granted o d p q) := by
  obtain ⟨h1,h2,h3,⟨w,hw1,hw2,hw3⟩,h5,h6,h7⟩ := h
  have e6 : ¬ ((s.marks d p q).2.2 ≤ q.fill ∧ cls ≠ 0) := by omega
  have e7 : ¬ (w.unused = 0 ∧ (s.marks d p q).2.1 ≤ q.fill) := by omega
  have e8 : ¬ (w.unused = 0 ∧ q.free ≤ q.unusedAll) := by omega
  unfold State.pondGet State.granted grantedHandle
  simp only [h1, h2, h3, hw1, hw2, Bool.not_true, Bool.false_eq_true, if_false, ne_eq, not_true_eq_false]
  rw [if_neg (by simpa [List.contains_iff_mem] using h5)]
  rw [if_neg e6, if_neg e7, if_neg e8, if_neg (by omega)]

/-- ADDREF where the handle may be shared. -/
theorem pondAddref_shares {s : State} {o h n q} (a : Shares s o h n q) : s.pondAddref o h n = (⟨0, 0⟩, s.shared h n q) := by
  obtain ⟨h1,h2,h3,h4,h5,h6,h7⟩ := a
  obtain ⟨z, hz⟩ := Option.isSome_iff_exists.mp h7
  simp [State.pondAddref, State.shared, h1, h2, h3, h4, h5, hz]; omega

/-- PASS where the handle may be passed. -/
theorem pondPass_passes {s : State} {o h n q} (a : Passes s o h n q) : s.pondPass o h n = (⟨0, 0⟩, s.passed o h n q) := by
  obtain ⟨h1,h2,h3,h4,h5,h7⟩ := a
  obtain ⟨z, hz⟩ := Option.isSome_iff_exists.mp h7
  simp [State.pondPass, State.passed, h1, h2, h3, h4, h5, hz]

/-- PUT where the handle may be returned. -/
theorem pondPut_returns {s : State} {o h q} (a : Returns s o h q) : s.pondPut o h = (⟨0, 0⟩, s.returned o h q) := by
  obtain ⟨h1,h2,h5⟩ := a
  simp [State.pondPut, State.returned, h1, h2, h5]

/-- QUERY of a handle that names a buffer. -/
theorem pondQuery_names {s : State} {h q} (a : Names s h q) : s.pondQuery h = (0, q.buf (handleIndex h)) := by
  obtain ⟨h1,h2,h3,h4,h5⟩ := a
  simp [State.pondQuery, h1, h2, h3, h4, h5]

/-! ### Counting a command changes no queue, clock or program -/

@[simp] theorem State.countVendor_host (s : State) (q : Bool) (o : Nat) : (s.countVendor q o).host = s.host := rfl
@[simp] theorem State.countVendor_lake (s : State) (q : Bool) (o : Nat) : (s.countVendor q o).lake = s.lake := rfl
@[simp] theorem State.countVendor_time (s : State) (q : Bool) (o : Nat) : (s.countVendor q o).time = s.time := rfl
@[simp] theorem State.countVendor_obj (s : State) (q : Bool) (o i j : Nat) : (s.countVendor q o).obj i j = s.obj i j := rfl
@[simp] theorem State.countVendor_program (s : State) (q : Bool) (o h : Nat) : (s.countVendor q o).program h = s.program h := rfl
@[simp] theorem State.countIo_time (s : State) (q : CmdRef) (o k : Nat) : (s.countIo q o k).time = s.time := by
  unfold State.countIo; dsimp only; split <;> rfl

end Sys2Proof.Machine
end

