-- ==== Sys2Proof/WellFormed.lean ====
section
/-!
DEFINITION. What the outside world can send: the ranges of the operands that a command's fields can carry.
-/

namespace Sys2Proof

/-- A dictionary request as a message can carry it (R61, R69, R73): index 16 bits, sub-index 8, bytes of data. -/
def DictReq.wf (r : DictReq) : Bool :=
  r.idx < 65536 && r.sub < 256 && r.bus < 2 && r.ident < 2048 && r.data.all fun b => b < 256

/-- The header of a PTP message (R40): a lane 0 to 31, a domain of 8 bits, an identity of 64 bits, a sequence number of 16 bits. -/
def PtpHdr.wf (h : PtpHdr) : Bool := h.lane < 32 && h.dom < 256 && h.src < 2 ^ 64

/-- A cell as its header can carry it (R99, R100). -/
def Cell.wf (c : Cell) : Bool :=
  c.die < 8 && c.lane < 4 && c.type < 16 && c.ver < 4 && c.spring < 32 && c.band < 64 && c.len ≤ 240 && c.cidx < 2 ^ 21 &&
    c.lseq < 65536 && c.frame < 2 ^ 32 && c.payload.length = c.len && c.payload.all fun b => b < 256

/-- The header of a control cell (R119). -/
def CtlHdr.wf (m : CtlHdr) : Bool := m.die < 8 && m.lane < 4 && m.ver < 4 && m.lseq < 65536 && m.mseq < 256

/-- The name of a command of a queue (R281, R282). -/
def CmdRef.wf (q : CmdRef) : Bool := q.sqid < 65536 && q.cid < 65536

/-- The header of a Wildela frame (R495). -/
def LakeHdr.wf (h : LakeHdr) : Bool := h.die < 8 && h.lane < 4 && h.srcLane < 32 && h.src < 512

/-- A well-formed command. -/
def Instr.wf : Instr → Bool
  | .phaseAdvance die => die < 8
  | .epochBoundary _ => true
  | .frameSyncEdge _ => true
  | .ltcFrame _ _ _ => true
  | .ptpSyncMessage h seq _ _ _ => h.wf && seq < 65536
  | .ptpFollowUpMessage h seq _ => h.wf && seq < 65536
  | .ptpAnnounceMessage h _ _ _ => h.wf
  | .ptpDelayRespMessage h seq _ _ => h.wf && seq < 65536
  | .sourceLost _ => true
  | .holdoverExpiry => true
  | .returnTimeExpiry _ => true
  | .read r => r.wf
  | .write r => r.wf
  | .domainRead r => r.wf
  | .domainWrite r => r.wf
  | .segment r _ => r.wf
  | .domainAbort r => r.wf
  | .segmentAck r _ => r.wf
  | .unknownCommand r _ => r.wf
  | .domainTransferTimeout _ => true
  | .canHeartbeat => true
  | .udpDatagram lane _ _ => lane < 32
  | .txnBegin r => r.wf
  | .txnCommitNext r => r.wf
  | .txnCommitAtEpoch r => r.wf
  | .txnRollback r => r.wf
  | .txnTimeout slot => slot < 4096
  | .canSessionTimeout _ => true
  | .limitedChangeFuseBlow _ _ => true
  | .codewordReceived die lane _ _ => die < 8 && lane < 4
  | .bandStartCell c => c.wf
  | .bandDataCell c => c.wf
  | .bandEndCell c => c.wf
  | .frameMarker c => c.wf
  | .cellInError die lane c => die < 8 && lane < 4 && c.bytes.length = 256 && c.bytes.all fun b => b < 256
  | .nakTimeout die lane => die < 8 && lane < 4
  | .creditRefresh die first => die < 8 && first < 4
  | .signalDetect die lane => die < 8 && lane < 4
  | .trainingStepComplete die lane => die < 8 && lane < 4
  | .trainingStepTimeout die lane => die < 8 && lane < 4
  | .bondDeadline die first => die < 8 && first < 4
  | .hello m _ _ _ _ _ _ => m.wf
  | .echo m _ => m.wf
  | .echoReply m _ _ _ => m.wf
  | .controlAck m _ _ => m.wf
  | .dictRequest m _ => m.wf
  | .portResetMessage m _ => m.wf
  | .unknownControlMessage m _ => m.wf
  | .controlRetryExpiry die first _ => die < 8 && first < 4
  | .reserveSend die first => die < 8 && first < 4
  | .bandEndTimeout die first _ _ _ => die < 8 && first < 4
  | .signalLoss die lane => die < 8 && lane < 4
  | .laneRetrainTimer die lane => die < 8 && lane < 4
  | .inflowPortReset r => r.wf
  | .takeOpen r => r.wf
  | .takeClose r => r.wf
  | .takeDelete r => r.wf
  | .takeAbort r => r.wf
  | .frameRecord _ _ _ _ => true
  | .takeSeal _ _ => true
  | .get _ _ _ die _ => die < 8
  | .addref _ _ _ => true
  | .pass _ _ _ => true
  | .put _ _ => true
  | .query _ => true
  | .passedNotice _ _ => true
  | .pondQueryRegister r => r.wf
  | .reservationsLoad r => r.wf
  | .ownerWalkComplete _ => true
  | .pondAudit die => die < 8
  | .mergeWindowExpiry _ _ => true
  | .heatHalving die => die < 8
  | .journalFlush die => die < 8
  | .checkpointPassComplete die => die < 8
  | .dieStripeHoldExpiry _ => true
  | .flashProgramComplete die _ _ => die < 8
  | .flashEraseComplete die _ _ => die < 8
  | .flashReadComplete die _ _ => die < 8
  | .seepWindowStart die => die < 8
  | .plwNAssert _ _ => true
  | .holdupOkChange _ _ => true
  | .channelCheck die _ _ => die < 8
  | .flashOperationTimeout die _ _ _ => die < 8
  | .targetResetWaitExpiry die _ _ _ _ => die < 8
  | .linkUp port _ _ => port < 8
  | .linkDown port => port < 8
  | .completionTimeout q _ => q.wf
  | .sqTailDoorbell _ _ _ => true
  | .cqHeadDoorbell _ _ _ => true
  | .commandFetch port _ _ _ => port < 8
  | .createIoSq q _ _ _ _ _ => q.wf
  | .createIoCq q _ _ _ _ _ => q.wf
  | .deleteIoSq q _ => q.wf
  | .deleteIoCq q _ => q.wf
  | .getLogPage q _ _ _ _ => q.wf
  | .identify q _ _ _ => q.wf
  | .abortCommand q _ _ => q.wf
  | .setFeatures q _ _ => q.wf
  | .getFeatures q _ _ => q.wf
  | .asyncEventRequest q => q.wf
  | .namespaceCreate q _ _ _ _ => q.wf
  | .namespaceDelete q _ => q.wf
  | .namespaceAttach q _ _ => q.wf
  | .namespaceDetach q _ _ => q.wf
  | .formatNvm q _ => q.wf
  | .formatNvmCryptoErase q _ => q.wf
  | .firmwareImageDownload q _ _ => q.wf
  | .fwCommitReplace q _ => q.wf
  | .fwCommitReplaceActivateReset q _ => q.wf
  | .fwCommitActivateReset q _ => q.wf
  | .fwCommitActivateNow q _ => q.wf
  | .firmwareActivationResume _ => true
  | .vqResourceAssign q _ _ => q.wf
  | .secondaryOnline q _ => q.wf
  | .secondaryOffline q _ => q.wf
  | .dictionaryWrite q _ _ _ _ _ _ _ => q.wf
  | .dictionaryRead q _ _ _ _ => q.wf
  | .createOrderedIoSq q _ _ _ _ _ _ => q.wf
  | .programLoad q _ _ _ _ => q.wf
  | .programUnload q _ => q.wf
  | .lakeJoin q _ _ => q.wf
  | .lakeLeave q => q.wf
  | .lakeStatus q _ => q.wf
  | .flush q _ => q.wf
  | .nvmWrite q _ _ _ _ => q.wf
  | .nvmRead q _ _ _ _ => q.wf
  | .compare q _ _ _ _ => q.wf
  | .writeZeroes q _ _ _ => q.wf
  | .datasetManagementDeallocate q _ _ => q.wf
  | .verify q _ _ _ => q.wf
  | .search q _ _ _ => q.wf
  | .searchWide q _ _ _ _ => q.wf
  | .runProgram q _ _ _ _ _ _ _ _ _ => q.wf
  | .verifyFrame q _ _ _ _ _ => q.wf
  | .verifyTakeSeal q _ _ => q.wf
  | .verifyRangeDigest q _ _ _ _ _ => q.wf
  | .computeRangeDigest q _ _ _ _ => q.wf
  | .readFrame q _ _ _ _ _ _ _ => q.wf
  | .readFrameEntry q _ _ _ _ _ => q.wf
  | .controllerEnable _ => true
  | .controllerDisable _ => true
  | .shutdownNotification _ => true
  | .nvmSubsystemReset _ => true
  | .vfEnableChange port _ _ => port < 8
  | .functionLevelReset fn => fn < 256
  | .bucketRefill => true
  | .programHoldExpiry q => q.wf
  | .dirtyLogHarvest r => r.wf
  | .quiesce r => r.wf
  | .quiesceResume r => r.wf
  | .quiesceLimitExpiry fn => fn < 256
  | .stateRestore r => r.wf
  | .undefinedInstruction die core => die < 8 && core < 18
  | .add die core => die < 8 && core < 18
  | .sub die core => die < 8 && core < 18
  | .and die core => die < 8 && core < 18
  | .or die core => die < 8 && core < 18
  | .xor die core => die < 8 && core < 18
  | .andn die core => die < 8 && core < 18
  | .slt die core => die < 8 && core < 18
  | .sltu die core => die < 8 && core < 18
  | .min die core => die < 8 && core < 18
  | .max die core => die < 8 && core < 18
  | .minu die core => die < 8 && core < 18
  | .maxu die core => die < 8 && core < 18
  | .neg die core => die < 8 && core < 18
  | .abs die core => die < 8 && core < 18
  | .sll die core => die < 8 && core < 18
  | .srl die core => die < 8 && core < 18
  | .sra die core => die < 8 && core < 18
  | .slli die core => die < 8 && core < 18
  | .srli die core => die < 8 && core < 18
  | .srai die core => die < 8 && core < 18
  | .clz die core => die < 8 && core < 18
  | .popc die core => die < 8 && core < 18
  | .sextb die core => die < 8 && core < 18
  | .sexth die core => die < 8 && core < 18
  | .bswap die core => die < 8 && core < 18
  | .packl die core => die < 8 && core < 18
  | .packh die core => die < 8 && core < 18
  | .mul die core => die < 8 && core < 18
  | .mulh die core => die < 8 && core < 18
  | .mulhu die core => die < 8 && core < 18
  | .mulhsu die core => die < 8 && core < 18
  | .div die core => die < 8 && core < 18
  | .divu die core => die < 8 && core < 18
  | .rem die core => die < 8 && core < 18
  | .remu die core => die < 8 && core < 18
  | .qmul die core => die < 8 && core < 18
  | .qrshr die core => die < 8 && core < 18
  | .qrshri die core => die < 8 && core < 18
  | .qnarrow die core => die < 8 && core < 18
  | .qsat16 die core => die < 8 && core < 18
  | .amul die core => die < 8 && core < 18
  | .amac die core => die < 8 && core < 18
  | .amsu die core => die < 8 && core < 18
  | .amacq die core => die < 8 && core < 18
  | .amsuq die core => die < 8 && core < 18
  | .aclr die core => die < 8 && core < 18
  | .aset die core => die < 8 && core < 18
  | .aext die core => die < 8 && core < 18
  | .agetl die core => die < 8 && core < 18
  | .ageth die core => die < 8 && core < 18
  | .agetg die core => die < 8 && core < 18
  | .addi die core => die < 8 && core < 18
  | .andi die core => die < 8 && core < 18
  | .ori die core => die < 8 && core < 18
  | .xori die core => die < 8 && core < 18
  | .slti die core => die < 8 && core < 18
  | .sltiu die core => die < 8 && core < 18
  | .lui die core => die < 8 && core < 18
  | .lb die core => die < 8 && core < 18
  | .lbu die core => die < 8 && core < 18
  | .lh die core => die < 8 && core < 18
  | .lhu die core => die < 8 && core < 18
  | .lw die core => die < 8 && core < 18
  | .sb die core => die < 8 && core < 18
  | .sh die core => die < 8 && core < 18
  | .sw die core => die < 8 && core < 18
  | .beq die core => die < 8 && core < 18
  | .bne die core => die < 8 && core < 18
  | .blt die core => die < 8 && core < 18
  | .bge die core => die < 8 && core < 18
  | .bltu die core => die < 8 && core < 18
  | .bgeu die core => die < 8 && core < 18
  | .j die core => die < 8 && core < 18
  | .jal die core => die < 8 && core < 18
  | .jalr die core => die < 8 && core < 18
  | .b die core => die < 8 && core < 18
  | .bl die core => die < 8 && core < 18
  | .br die core => die < 8 && core < 18
  | .crd die core => die < 8 && core < 18
  | .cwr die core => die < 8 && core < 18
  | .cset die core => die < 8 && core < 18
  | .cclr die core => die < 8 && core < 18
  | .trap die core => die < 8 && core < 18
  | .eret die core => die < 8 && core < 18
  | .wait die core => die < 8 && core < 18
  | .fence die core => die < 8 && core < 18
  | .exit die core => die < 8 && core < 18
  | .vadd die core => die < 8 && core < 18
  | .vsub die core => die < 8 && core < 18
  | .vand die core => die < 8 && core < 18
  | .vor die core => die < 8 && core < 18
  | .vxor die core => die < 8 && core < 18
  | .vmin die core => die < 8 && core < 18
  | .vmax die core => die < 8 && core < 18
  | .vminu die core => die < 8 && core < 18
  | .vmaxu die core => die < 8 && core < 18
  | .vneg die core => die < 8 && core < 18
  | .vabs die core => die < 8 && core < 18
  | .vsll die core => die < 8 && core < 18
  | .vsrl die core => die < 8 && core < 18
  | .vsra die core => die < 8 && core < 18
  | .vqmul die core => die < 8 && core < 18
  | .vqrshr die core => die < 8 && core < 18
  | .vcmpeq die core => die < 8 && core < 18
  | .vcmplt die core => die < 8 && core < 18
  | .vcmpltu die core => die < 8 && core < 18
  | .vsel die core => die < 8 && core < 18
  | .vmul die core => die < 8 && core < 18
  | .vpopc die core => die < 8 && core < 18
  | .vmac die core => die < 8 && core < 18
  | .vmsu die core => die < 8 && core < 18
  | .vmacq die core => die < 8 && core < 18
  | .vmula die core => die < 8 && core < 18
  | .vaclr die core => die < 8 && core < 18
  | .vld die core => die < 8 && core < 18
  | .vst die core => die < 8 && core < 18
  | .vbcast die core => die < 8 && core < 18
  | .vget die core => die < 8 && core < 18
  | .vput die core => die < 8 && core < 18
  | .vredadd die core => die < 8 && core < 18
  | .vredmin die core => die < 8 && core < 18
  | .vredmax die core => die < 8 && core < 18
  | .vperm die core => die < 8 && core < 18
  | .vzipl die core => die < 8 && core < 18
  | .vziph die core => die < 8 && core < 18
  | .vwidenl die core => die < 8 && core < 18
  | .vwidenh die core => die < 8 && core < 18
  | .vaccout die core => die < 8 && core < 18
  | .vaccin die core => die < 8 && core < 18
  | .srch die core => die < 8 && core < 18
  | .srch288 die core => die < 8 && core < 18
  | .srch576 die core => die < 8 && core < 18
  | .sins die core => die < 8 && core < 18
  | .sput die core => die < 8 && core < 18
  | .swr die core => die < 8 && core < 18
  | .sdel die core => die < 8 && core < 18
  | .srd die core => die < 8 && core < 18
  | .sclr die core => die < 8 && core < 18
  | .sstat die core => die < 8 && core < 18
  | .pget die core => die < 8 && core < 18
  | .paddref die core => die < 8 && core < 18
  | .ppass die core => die < 8 && core < 18
  | .pput die core => die < 8 && core < 18
  | .pquery die core => die < 8 && core < 18
  | .pmap die core => die < 8 && core < 18
  | .punmap die core => die < 8 && core < 18
  | .jsubCipher die core => die < 8 && core < 18
  | .jsubDigest die core => die < 8 && core < 18
  | .jsubCodec die core => die < 8 && core < 18
  | .jpoll die core => die < 8 && core < 18
  | .cop3Instruction die core => die < 8 && core < 18
  | .dispatch die => die < 8
  | .timeSliceExpiry die core => die < 8 && core < 18
  | .heldPostLands die => die < 8
  | .filterDeadline die slot => die < 8 && slot < 4096
  | .computeCoreFailure die core => die < 8 && core < 18
  | .taskResetRegister r => r.wf
  | .clearDispatcherHistograms r => r.wf
  | .codecJobComplete die _ _ => die < 8
  | .cascadeKey _ _ _ _ _ _ => true
  | .cascadeIdleToken => true
  | .cascadeSilenceTimeout _ => true
  | .rowRewriteComplete die _ _ _ => die < 8
  | .maintenanceOperationComplete _ => true
  | .searchArrayScrub die _ => die < 8
  | .clearKeySlot r => r.wf
  | .removeStoredKey r => r.wf
  | .counterBlockJournalled die slot => die < 8 && slot < 4096
  | .cipherUrgencyExpiry die _ => die < 8
  | .cipherPreemptAtBoundary die core => die < 8 && core < 18
  | .cipherJobComplete die core _ => die < 8 && core < 18
  | .aesCoreTimeout die core => die < 8 && core < 18
  | .emptyKeyStateSlot r => r.wf
  | .digestUrgencyExpiry die _ => die < 8
  | .digestJobComplete die core _ _ => die < 8 && core < 18
  | .shaCoreTimeout die core => die < 8 && core < 18
  | .dctlStart die _ _ _ _ => die < 8
  | .dctlAbort die _ => die < 8
  | .ddataWrite die _ _ => die < 8
  | .dresRead die _ _ => die < 8
  | .registerJobDone die _ => die < 8
  | .measurementExtend r => r.wf
  | .reportRequest r => r.wf
  | .lakeHeartbeat h _ => h.wf
  | .heartbeatSend _ => true
  | .nodeLost _ => true
  | .joinListenExpiry => true
  | .joinRequest h _ _ _ _ _ => h.wf
  | .joinAnswer h _ _ _ _ _ => h.wf
  | .joinAnswerTimeout => true
  | .leave h _ => h.wf
  | .lakeAck h _ _ => h.wf
  | .lakeRetryExpiry _ _ => true
  | .lakeDictRequest h _ => h.wf
  | .lakeDictResponse h _ => h.wf
  | .lxnBegin r => r.wf
  | .lxnCommitNext r => r.wf
  | .lxnCommitAtEpoch r => r.wf
  | .lxnRollback r => r.wf
  | .lxnPrepare h _ _ _ _ => h.wf
  | .lxnVote h _ _ _ _ _ _ => h.wf
  | .lxnCommit h _ _ => h.wf
  | .lxnAbort h _ _ => h.wf
  | .lxnQuery h _ => h.wf
  | .lxnVoteDeadline _ => true
  | .lxnQueryDeadline _ => true
  | .lxnOutcomeDeadline _ => true
  | .searchRequest h _ _ _ _ => h.wf
  | .searchResult h _ _ _ _ => h.wf
  | .lakeSearchResend _ => true
  | .lakeSearchTimeout _ => true
  | .partReady h _ _ _ _ => h.wf
  | .frameCommit h _ _ _ _ => h.wf
  | .frameCommitTimeout _ _ _ => true
  | .eventMessage h _ => h.wf
  | .dieHeartbeat r => r.links.all fun l => l.die < 8
  | .dieSilenceTimeout die => die < 8
  | .lockstepMismatch die => die < 8
  | .stewardRestartComplete die => die < 8
  | .leadSilenceTimeout _ _ _ => true
  | .standbySyncComplete => true
  | .packageSoftReset r => r.wf
  | .packageSoftResetForced r => r.wf
  | .dieReset r => r.wf
  | .dieResetTimeout die => die < 8
  | .cipherEngineReset r => r.wf
  | .digestEngineReset r => r.wf
  | .codecEngineReset r => r.wf
  | .searchEngineReset r => r.wf
  | .engineStallTimeout die _ => die < 8
  | .emergencyRepeatExpiry _ => true
  | .clearEventLog r => r.wf
  | .acknowledgeEvents r => r.wf
  | .scrubWindowStart die _ => die < 8
  | .housekeepingRound die _ => die < 8
  | .housekeepingReadout die => die < 8
  | .graceExpiry => true
  | .tripCheck die _ => die < 8
  | .domainWakeComplete die _ _ => die < 8
  | .powerOn => true
  | .aonPowerFail => true
  | .porstNAssert _ => true
  | .porstNRelease _ => true
  | .firstStageLoaded _ => true
  | .dictionaryReady _ => true
  | .firmwareVerified _ => true
  | .dramTrainingComplete die _ _ _ _ => die < 8
  | .flashDiscoveryComplete die _ => die < 8
  | .dieSectionTimeout die => die < 8
  | .mapRestoreComplete die _ _ _ _ => die < 8
  | .deviceReady _ => true
  | .idcode die => die < 8
  | .bypass die _ => die < 8
  | .samplePreload die => die < 8
  | .extest die => die < 8
  | .bootstat die => die < 8
  | .plwNRelease => true
  | .mediaCoreFailure die core => die < 8 && core < 18
  | .dieLinkFailure _ _ => true
  | .ethernetLinkUp die lane => die < 8 && lane < 4
  | .ethernetLinkDown die lane => die < 8 && lane < 4
  | .functionLevelResetComplete fn _ => fn < 256
  | .configurationRequest fn => fn < 256
  | .frameCompletionTimeout _ _ => true
  | .digestBlockCompressed die _ => die < 8
  | .entryMove _ => true

end Sys2Proof
end

