-- ==== Sys2Proof/Tests/Slice0.lean ====
section
/-!
SUPPORT. Tests: ill-formed commands are refused, words and values of the spec's tables come out, and what each statement assumes is met.
-/

set_option Elab.async false

namespace Sys2Proof.Machine.Test

open Sys2Proof Sys2Proof.Machine

/-! ### Small states -/

/-- A device in service, 1,000 s after power-on. -/
def ready : State :=
  let s := State.reset.setObj 0x1800 0 5
  { s with boot := { s.boot with porst := false, running := true, step := 11 }, time := { s.time with now := 10 ^ 12 } }

/-- A request of the test port, which may do everything. -/
def ask : DictReq := ⟨5, 1, 0, 0, 0, 0x1102, 0, []⟩

/-! ### What statements assume is met: time -/

/-- A device whose PTP clock follows master 7 on lane 0, and whose source 2 is qualified. -/
def timed : State :=
  let s := (ready.setObj 0x1130 3 1).setObj 0x2120 1 3
  { s with time := { s.time with
    ptp := { s.time.ptp with master := some 7, delayWaiting := true, delaySeq := 4, sync := some (3, 50) }
    sources := [(2, ⟨true, 0, 10000000, 10000000, 8, 0, true, 0⟩)] } }

def ptpHdr : PtpHdr := ⟨0, 127, 7, 1000⟩

theorem witness_time : ready.hasDie 0 = true ∧ ready.boot.porst = false ∧ (ready.clock 0).phase < 65535 ∧ timed.fromMaster ptpHdr = true ∧
    timed.time.ptp.sync = some (3, 50) ∧ timed.ptpTakes ptpHdr = true ∧ timed.time.ptp.master = some ptpHdr.src ∧
    timed.time.ptp.delayWaiting = true ∧ timed.time.ptp.delaySeq = 4 ∧ timed.lossDue 2 = true ∧ timed.lossDue 3 = true := by decide

theorem witness_holdover : let s : State := { ready.setObj 0x1100 5 0 with time := { ready.time with state := 2 } };
    let t : State := { timed with time := { timed.time with state := 2 } }; let u : State := { timed with time := { timed.time with state := 1, active := 5 } };
    s.holdoverDue = true ∧ s.firstQualified = none ∧ t.holdoverDue = true ∧ t.firstQualified = some 2 ∧ u.returnDue 2 = true := by decide

theorem witness_edges : b2n (!true) = (ready.setObj 0x1107 0 0).obj 0x1107 0 ∧ b2n (!false) ≠ (ready.setObj 0x1107 0 0).obj 0x1107 0 := by decide

/-! ### What statements assume is met: the dictionary -/

theorem served_of {s : State} {idx : Nat} {w : Bool} (h : !s.boot.restricted && decide (11 ≤ s.boot.step)) : Served s idx w := by
  simp at h; simp [Served, h.1, h.2]

theorem mayRead_of {s : State} {cls idx sub : Nat} {ty : ObjTy} (acc : Acc) (h : !s.boot.restricted && decide (11 ≤ s.boot.step))
    (h1 : objExists s.cfg.dies idx ∧ objAccess s.cfg.dies idx sub = some (ty, acc) ∧ acc ≠ .wo ∧ mayRead cls idx ∧ idx ≠ 0x600A) :
    MayRead s cls idx sub ty := ⟨served_of h, h1.1, ⟨acc, h1.2.1, h1.2.2.1⟩, h1.2.2.2.1, h1.2.2.2.2⟩

theorem mayWrite_of {s : State} {cls idx sub : Nat} {ty : ObjTy} {acc : Acc} {inTxn : Bool}
    (h : !s.boot.restricted && decide (11 ≤ s.boot.step))
    (h1 : objExists s.cfg.dies idx ∧ objAccess s.cfg.dies idx sub = some (ty, acc) ∧ mayWrite cls idx ∧ acc ≠ .ro ∧
      (acc = .rwt → inTxn) ∧ s.spent idx sub = false ∧ s.fault.safeHold = false) : MayWrite s cls idx sub ty acc inTxn :=
  ⟨served_of h, h1.1, h1.2.1, h1.2.2.1, h1.2.2.2.1, h1.2.2.2.2.1, h1.2.2.2.2.2.1, h1.2.2.2.2.2.2⟩

/-- A request of the test port reaches the service. -/
theorem admitted_of {r : DictReq} {s : State} (h : r.path = 5 ∧ s.answers ∧ s.boot.restricted = false ∧ s.inService.length < 64) :
    Admits r s where
  path := by omega
  up := h.2.1
  mode := Or.inl h.2.2.1
  frame h' := by omega
  client h' := by omega
  fresh h' := by omega
  room := h.2.2.2

/-- A device whose one session has a transaction open. -/
def inTxn : State :=
  { ready with dict := { ready.dict with
    sessions := [(sessionKey 5 1, { Session.fresh with slot := 1, state := 1 })]
    slots := [(1, ⟨sessionKey 5 1, 1, [], 0, 0, 0, 0, 30⟩)] } }

/-- The same device, the session in a transfer of the DOMAIN 0x5203 (of 8 bytes, 4 of them done). -/
def inXfer (write : Bool) : State :=
  { ready with dict := { ready.dict with
    sessions := [(sessionKey 5 1, { Session.fresh with xfer := some ⟨write, 0x5203, 0, 8, [1, 2, 3, 4], 1, 0, 0, 0, 0, 0⟩ })] } }

theorem witness_read : let w := ready.atWork ask;
    Admits ask ready ∧ MayRead w (ready.clsOf ask) ask.idx ask.sub .rational ∧ isDomain .rational = false :=
  ⟨admitted_of (by decide), mayRead_of .rw (by decide) (by decide), rfl⟩

theorem witness_write : let r := reqFor ask 0x1101 0 [3]; let w := ready.atWork r; let k := reqKey r;
    let a : CommitAsk := ⟨k, ready.clsOf r, 0, [⟨r.idx, r.sub, [3], false, r.data⟩], none, none⟩;
    Admits r ready ∧ MayWrite w (ready.clsOf r) r.idx r.sub .u8 .rw (w.openTxn k) ∧ isDomain .u8 = false ∧ Acc.rw ≠ .wo ∧
      sessionObject r.idx r.sub = false ∧ r.idx ≠ 0x900E ∧ w.openTxn k = false ∧
      w.overlapsNow k (ready.clsOf r) r.idx r.sub .u8 r.data = false ∧
      w.holdWrite (w.judgedAgainst k) r.idx r.sub r.data = (0, [3], false) ∧ Acceptable w a 1 false :=
  ⟨admitted_of (by decide), mayWrite_of (by decide) (by decide), by decide, by decide, by decide, by decide, by decide, by decide,
    by decide, by decide, by decide, by decide, by decide⟩

theorem witness_domain : let r := reqFor ask 0x5203 0 (leBytes 4 8); let w := ready.atWork r;
    Admits r ready ∧ MayRead w (ready.clsOf r) r.idx r.sub (.domain 2052) ∧ (w.session (reqKey r)).xfer = none ∧
      MayWrite w (ready.clsOf r) r.idx r.sub (.domain 2052) .rw (w.openTxn (reqKey r)) ∧ w.fullTxn (reqKey r) r.idx r.sub = false ∧
      Gives r.data 4 8 ∧ w.readBytes (reqKey r) (ready.clsOf r) r.idx r.sub = [] ∧
      (w.setDom 0x5203 0 [1]).readBytes (reqKey r) (ready.clsOf r) r.idx 0 ≠ [] :=
  ⟨admitted_of (by decide), mayRead_of .rw (by decide) (by decide), by decide, mayWrite_of (by decide) (by decide), by decide,
    ⟨by decide, 0, by decide⟩, by decide, by decide⟩

theorem witness_segments : let r := reqFor ask 0x5203 0 [5]; let s := inXfer true; let t := inXfer false;
    Admits r s ∧ MayWrite (s.atWork r) (s.clsOf r) r.idx r.sub (.domain 2052) .rw ((s.atWork r).openTxn (reqKey r)) ∧
      (∃ x, ((s.atWork r).session (reqKey r)).xfer = some x ∧ x.write = true ∧ x.idx = r.idx ∧ x.sub = r.sub ∧ x.next = 1 ∧
        x.bytes.length + r.data.length < x.total) ∧
      Admits r t ∧ MayRead (t.atWork r) (t.clsOf r) r.idx r.sub (.domain 2052) ∧
      ∃ x, ((t.atWork r).session (reqKey r)).xfer = some x ∧ x.write = false ∧ x.acked ≤ 1 ∧ 1 ≤ x.next ∧ 1 = segments x.total ∧
        x.last + 100000000 ≤ t.time.now :=
  ⟨admitted_of (by decide), mayWrite_of (by decide) (by decide), ⟨_, rfl, by decide⟩, admitted_of (by decide),
    mayRead_of .rw (by decide) (by decide), ⟨_, rfl, by decide⟩⟩

/-- A device that takes datagrams for 10.0.0.1 on lane 3 of die 0, from 10.0.0.2. -/
def onUdp : State :=
  (((((ready.setObj 0x1040 1 1).setObj 0x1040 2 3).setObj 0x2120 4 3).setObj 0x1040 3 0x0A000001).setObj 0x1040 4 9).setObj 0x1041 1
    (0x0A000002 * 2 ^ 32 + 1)

theorem witness_paths : ask.path ≤ 5 ∧ ready.pathServed ask = true ∧ ready.clientOk ask = true ∧ ready.answers = true ∧
    onUdp.udpForUs 3 0x0A000001 9 = true ∧ onUdp.udpEntry 0x0A000002 = some 1 := by decide

/-- With the key-state slot of 0x1040:05 loaded, the tag of a datagram is the one that the key gives. -/
theorem witness_udp_tag : ∃ s : State, (s.udpTag 0x0A000002 []).isSome = true :=
  ⟨{ onUdp with secure := { onUdp.secure with keyStates := [(0, ⟨true, 1, 0, 0, 0, 0, 0, 0, [1]⟩)] } }, by decide⟩

theorem witness_transactions : let q := fun n => reqFor ask 0x1F00 1 [n];
    MayCommand (q 1) .enum8 ready ∧ (ready.atWork (q 1)).openTxn (reqKey (q 1)) = false ∧ (ready.atWork (q 1)).freeSlotNo = some 1 ∧
      MayCommand (q 2) .enum8 inTxn ∧ (inTxn.atWork (q 2)).openTxn (reqKey (q 2)) = true ∧
      Acceptable (inTxn.atWork (q 2)) ⟨reqKey (q 2), inTxn.clsOf (q 2), 1, [], none, none⟩ 1 false ∧
      Acceptable (inTxn.atWork (q 3)) ⟨reqKey (q 3), inTxn.clsOf (q 3), 1, [], some 0, none⟩ 1 true ∧
      (inTxn.slot 1).session = sessionKey 5 1 ∧ (inTxn.session (sessionKey 5 1)).slot = 1 ∧
      (inTxn.slot 1).begun + (inTxn.slot 1).limit ≤ inTxn.time.now :=
  ⟨⟨admitted_of (by decide), mayWrite_of (by decide) (by decide)⟩, by decide, by decide,
    ⟨admitted_of (by decide), mayWrite_of (by decide) (by decide)⟩, by decide, ⟨by decide, by decide, by decide, by decide⟩,
    ⟨by decide, by decide, by decide, by decide⟩, by decide, by decide, by decide⟩

theorem mayCommand_of {r : DictReq} {ty : ObjTy} {s : State}
    (h : (r.path = 5 ∧ s.answers ∧ s.boot.restricted = false ∧ s.inService.length < 64) ∧
      (!(s.atWork r).boot.restricted && decide (11 ≤ (s.atWork r).boot.step)) ∧
      objExists (s.atWork r).cfg.dies r.idx ∧ objAccess (s.atWork r).cfg.dies r.idx r.sub = some (ty, .wo) ∧
      mayWrite (s.clsOf r) r.idx ∧ (s.atWork r).spent r.idx r.sub = false ∧ (s.atWork r).fault.safeHold = false) :
    MayCommand r ty s :=
  ⟨admitted_of h.1, mayWrite_of h.2.1 ⟨h.2.2.1, h.2.2.2.1, h.2.2.2.2.1, by decide, nofun, h.2.2.2.2.2.1, h.2.2.2.2.2.2⟩⟩

theorem witness_fuse_and_session : ∃ s : State, (s.dict.commits.find? fun c => c.ident = 1 && c.fuse && !c.blown).isSome = true ∧
    s.openTxn (sessionKey 0 5) = true ∧ (s.session (sessionKey 0 5)).lastFrame + 10000000000 ≤ s.time.now :=
  ⟨{ ready with dict := { ready.dict with
      commits := [⟨1, sessionKey 5 1, 4, 0, [⟨0x1806, 1, [1], false, [1]⟩], 1, 0, false, true, false, false⟩]
      sessions := [(sessionKey 0 5, { Session.fresh with slot := 1, state := 1 })] } }, by decide⟩

/-- Member 1 of a lake of two, leading it, its session's lake transaction 7 open. -/
def inLake : State :=
  { ready with lake := { ready.lake with
    state := 2, ident := 1, node := 1, level := 2, leader := 1, members := [1, 2]
    lxns := [⟨7, sessionKey 5 1, 0, 1, false, [⟨2, 0x2222, 1, [1]⟩], [], [], []⟩] } }

theorem witness_lake_transactions : let q := fun n => reqFor ask 0x900D 1 [n];
    MayCommand (q 1) .enum8 ready ∧ (ready.atWork (q 1)).openLxn (reqKey (q 1)) = none ∧ (ready.atWork (q 1)).lake.lxns.length < 2 ∧
      MayCommand (q 2) .enum8 inLake ∧ (inLake.atWork (q 2)).inLake = true ∧
      ∃ x, (inLake.atWork (q 2)).openLxn (reqKey (q 2)) = some x ∧ ∀ v ∈ x.writes, v.node = 0xFFFF ∨ v.node ∈ (inLake.atWork (q 2)).lake.members :=
  ⟨mayCommand_of (by decide), by decide, by decide, mayCommand_of (by decide), by decide,
    ⟨7, sessionKey 5 1, 0, 1, false, [⟨2, 0x2222, 1, [1]⟩], [], [], []⟩, by decide, by decide⟩

/-- Each acting object may be written with a value of its range. -/
theorem witness_acting : ∀ x ∈ [(0x210F, 0, [31], ObjTy.u8), (0x2220, 6, [1, 0], .u16), (0x5204, 0, [0, 0, 0, 0], .u32), (0x410E, 0, [0], .u8),
      (0x4108, 0, [255, 1], .u16), (0x4108, 0, [0, 2], .u16), (0x5100, 0, [255, 15], .u16), (0x5012, 0, [1], .bool),
      (0x6007, 0, [1, 0, 0, 0], .u32), (0x600E, 0, [255, 3], .u16), (0x6404, 0, [0, 0, 0, 0], .u32),
      (0xA001, 0, leBytes 4 0x534F4654, .u32), (0xA001, 0, leBytes 4 0x534F4655, .u32), (0xA002, 0, [1], .u8), (0xA003, 0, [4, 1], .u16),
      (0xA005, 0, [1], .bool), (0xA00E, 0, [1], .bool), (0x410B, 0, [1], .domain 14668), (0x640F, 8, [1], .domain 128),
      (0x6409, 0, List.replicate 36 0, .domain 36)],
    MayCommand (reqFor ask x.1 x.2.1 x.2.2.1) x.2.2.2 ready := by
  intro x hx
  apply mayCommand_of
  revert x
  decide

theorem witness_gives : Gives [31] 1 31 ∧ Gives (leBytes 2 4095) 2 4095 ∧ Gives (leBytes 4 7 ++ zeros 3) 4 7 :=
  ⟨⟨by decide, 0, by decide⟩, ⟨by decide, 0, by decide⟩, ⟨by decide, 3, by decide⟩⟩

/-- The settings that act as implicit commits, outside a transaction and inside one. -/
theorem witness_settings : let q := fun n => reqFor ask 0x2220 1 [n];
    ∀ s ∈ [ready, inTxn], s.answers = true ∧ (s.atWork (q 3)).fullTxn (reqKey (q 3)) 0x2220 1 = false := by decide

/-! ### What statements assume is met: inflow lanes, messages and takes -/

/-- Lane 0 of die 0 in a state, alone in its port, which is up; spring 0 maps its band 0 to that port. -/
def onLane (x : Lane) : State :=
  let s := ((((ready.setObj 0x2200 1 1).setObj 0x2200 3 1).setObj 0x2200 0x10 0).setObj 0x2120 1 1).setObj 0x2128 1 1
  { s with inflow := { s.inflow with lanes := [(0, x)], ports := [(0, { Port.down [0] with up := true })] } }

/-- A lane up with version 1. -/
def laneUp : Lane := { Lane.off with state := 7, version := 1 }

theorem witness_lanes : IsLane ready 0 3 ∧ ready.usable 0 7 = true ∧
    (∀ st ∈ [1, 2, 3, 4, 5, 6, 7, 8], ((onLane { Lane.off with state := st }).lane 0 0).state = st) ∧
    ((onLane { Lane.off with state := 6 }).allBonded 0 = true ∧
      (onLane { Lane.off with state := 6 }).bonding 0 = [0] ∧ 10000000 ≤ ready.time.now) ∧
    (∀ st ∈ [2, 3, 4, 5], ((onLane Lane.off).stepBound { Lane.off with state := st }).any (· ≤ ready.time.now) = true) ∧
    (onLane laneUp).inUpPort 0 0 = true ∧ ready.inUpPort 0 0 = false :=
  ⟨⟨by decide, by decide⟩, by decide, by decide, by decide, by decide, by decide, by decide⟩

theorem witness_control_retry : ∃ s : State, ∃ p c, s.port 0 = some p ∧ tget p.unacked 5 = some c ∧
    c.sent + s.obj 0x2105 1 * 1000 ≤ s.time.now ∧ c.retries < s.obj 0x2105 2 :=
  ⟨{ ready with inflow := { ready.inflow with ports := [(0, { Port.down [0] with unacked := [(5, ⟨1, [], [0], 0, 0⟩)] })] } },
    _, _, rfl, rfl, by decide, by decide⟩

/-- The band-start cell of frame 9 that lane 0 waits for. -/
def cell : Cell := ⟨0, 0, 1, 1, 0, 0, 0, 0, 0, 9, []⟩

theorem witness_cell : CellNext 1 cell (onLane laneUp) ∧ (((onLane laneUp).cellState cell).lane 0 0).waiting = [] ∧
    (((onLane laneUp).cellAlone cell).bandStarts (((onLane laneUp).cellAlone cell).portKeyOf 0 0) cell 0).1 = true :=
  ⟨⟨⟨by decide, by decide⟩, by decide, by decide, by decide, by decide⟩, by decide, by decide⟩

theorem witness_control : ControlTaken ⟨0, 0, 1, 0, 0⟩ (onLane laneUp) ∧
    ((onLane laneUp).controlFresh ⟨0, 0, 1, 0, 0⟩).pathServed (requestOf 2 0 (zeros 64)) = true ∧
    (((onLane laneUp).controlFresh ⟨0, 0, 1, 0, 0⟩).runBody (requestOf 2 0 (zeros 64)) 1).1.isSome = true :=
  ⟨⟨⟨by decide, by decide⟩, by decide, by decide, by decide, by decide⟩, by decide, by decide⟩

/-- An open take of namespace 1 with one frame of spring 0. -/
def frame : Frame :=
  { spring := 0, frame := 9, epoch := 0, phase := 0, aEpoch := 0, aPhase := 0, cEpoch := 0, cPhase := 0, starts := [], stamped := true
    replaced := false, nbands := 1, timecode := 0, since := 0, bands := [], segs := [], missing := [0], complete := false, waiting := [], late := false
    filterSkipped := false, filtersOpen := 0, ringHeld := [], deviceTimed := false, committed := none, offered := 0 }

def take : Take :=
  { nsid := 1, num := 1, slot := 0, state := 1, springs := [⟨0, 1, 0, 1, 0, 0, 0, 0, [0], []⟩], openEpoch := 0, closeEpoch := 0, reason := 0
    frames := [frame], recorded := [], records := [], written := 0, extents := [], extFill := 0, closeNs := 0, ringBytes := 0
    duration := 0, coverage := 0, minDuration := 0, minima := [], lakeTake := 0, sealTag := [], sealFlags := 0, firstTc := 0, lastTc := 0, flagged := 0
    custodyOrdinal := 0 }

/-- A device with that take. -/
def inTake (t : Take) : State :=
  { onLane laneUp with take := { ready.take with takes := [t] } }

theorem witness_takes : let s := inTake take; let f := { frame with complete := true };
    (s.take.takes.any fun t => t.state = 1 && (Take.ports t).contains 0) = true ∧
      s.findFrame 0 9 = some (take, frame) ∧ frame.complete = false ∧ frame.since + s.bandLimit frame.epoch ≤ s.time.now ∧
      (∀ n ∈ [0, 2], let t := { take with frames := [f], lakeTake := n };
        (inTake t).takeOf 1 1 = some t ∧ (t.frames.find? fun f => f.spring = 0 && f.frame = 9) = some f ∧ f.settled = true ∧ f.offered = 0) ∧
      (let t := { take with state := 4, frames := [] }; (inTake t).takeOf 1 1 = some t ∧ (inTake t).sealable t = true) ∧
      s.fault.safeHold = false := by decide

theorem witness_band_end : let b : Band := ⟨0, 9, 0, true, 0, 0, 0, 0, 1, 0, [], none, 0, 0⟩;
    let s : State := { inTake take with inflow := { (inTake take).inflow with ports := [(0, { Port.down [0] with bands := [b] })] } };
    ((s.port 0).bind fun p => Port.band p 0 9 0) = some b ∧ b.since + s.frameLimit 0 9 ≤ s.time.now := by decide

/-! ### What statements assume is met: the pond, the media and the flash -/

/-- Die 0 at a phase. -/
def atPhase (p : Nat) (s : State) : State := { s with time := { s.time with clocks := [(0, { DieClock.reset with phase := p })] } }

/-- Pool 4 of die 0, of 8 buffers, 2 of them reserved by the controller of die 0; buffer 0 is held by the owner `o`. -/
def pool (o : Nat) : Pool :=
  { Pool.off with cfg := ⟨0, 8, 8, 1, 0⟩, state := 1, owners := [⟨o, 2, 2, 1, false⟩, ⟨9, 0, 0, 0, false⟩]
                  bufs := [(0, ⟨1, [o], false, false, false⟩)] }

def inPond (dies : Nat) (q : Pool) : State :=
  { ready with cfg := ⟨dies, 0⟩, pond := { ready.pond with pools := [(poolKey 0 4, q)], walked := [7] } }

def handle : Nat := handleOf 1 0 4 0

theorem witness_pond : Grants (inPond 2 (pool 5)) 5 0 0 4 (pool 5) ∧ Shares (inPond 2 (pool 5)) 5 handle 9 (pool 5) ∧
    Passes (inPond 8 { pool 5 with cfg := ⟨0, 8, 8, 2, 0⟩ }) 5 handle 9 { pool 5 with cfg := ⟨0, 8, 8, 2, 0⟩ } ∧
    Returns (inPond 2 (pool 5)) 5 handle (pool 5) ∧ Names (inPond 2 (pool 5)) handle (pool 5) ∧ 7 ∈ (inPond 2 (pool 5)).pond.walked ∧
    (atPhase (ready.obj 0xA013 0) ready).auditDue 0 = true ∧ (pool 5).judge handle 5 = none ∧ ((pool 5).buf (handleIndex handle)).holders = [5] :=
  ⟨⟨by decide, by decide, by decide, ⟨⟨5, 2, 2, 1, false⟩, by decide, by decide, by decide⟩, by decide, by decide, by decide⟩,
    ⟨by decide, by decide, by decide, by decide, by decide, by decide, by decide⟩,
    ⟨by decide, by decide, by decide, by decide, by decide, by decide⟩, ⟨by decide, by decide, by decide⟩,
    ⟨by decide, by decide, by decide, by decide, by decide⟩, by decide, by decide, by decide, by decide⟩

/-- A flash of one channel with one target per channel. -/
def flash : Population :=
  { interface := 2, counts := List.replicate 16 1, samePart := true, parameterOk := true, profile := some 0, eraseSuspend := true, planes := 4
    pageBytes := 16384, spareBytes := 2208
    pagesPerBlock := 1024, blocksPerPlane := 256, cellType := 3, ratedNative := 3000, ratedSlc := 30000, programUs := 700, eraseUs := 5000
    readUs := 60, maxProgramUs := 2000, maxEraseUs := 15000, maxReadUs := 100, resetUs := 500, factoryBad := [], maxBad := 10, rates := []
    slcRate := 0, present := List.range 16, manufacturer := 0x2C, model := ascii "HK", luns := 1, operations := true }

/-- Die 0 with running operations: 1 a map page, 2 an erase, 3 a read. -/
def inFlash : State :=
  let m := (ready.md 0)
  { ready with media := { ready.media with dies := [(0, { m with
      population := some flash, resetting := [(5, 0)], passRunning := true, passIssued := true, dieStripes := [(3, ⟨[0], 0, 0⟩)]
      pendingRecs := [⟨1, 0, 0, 0, 0, 0, 0, 0⟩], staged := [⟨1, 1, 2, [0], 0, 1000, 4, [], 0, false, false, [], 0, false⟩]
      ops := [(1, ⟨.parityChunk 2 none, 0, 0, 16384, 2, 0, 0, false, false⟩), (2, ⟨.erase 4, 0, 0, 0, 4, 0, 0, false, false⟩),
        (3, ⟨.read 1 0 0 1 1 1, 1, 0, 4096, 2, 0, 0, false, false⟩)] })] } }

theorem witness_media : ((inFlash.md (inFlash.unitDie 1 2)).staged.find? fun u => u.nsid = 1 && u.unit = 2 && u.phase = 0).isSome = true ∧
    0 + 1000 ≤ inFlash.time.now ∧ (inFlash.md 0).pendingRecs ≠ [] ∧ (inFlash.md 0).passRunning = true ∧
    (inFlash.md 0).pagesDone = true ∧ inFlash.inSeep 0 = true ∧ (inFlash.md 0).halted = false ∧ inFlash.media.commitRunning = false ∧
    (inFlash.dies.find? fun d => (tget (inFlash.md d).dieStripes 3).isSome) = some 0 ∧
    (tgetD (inFlash.md 0).dieStripes 3 ⟨[], 0, 0⟩).hold ≤ inFlash.time.now := by decide

theorem witness_heat : let s : State := { inFlash with media := { inFlash.media with devTimePs := 10 ^ 24 } };
    (s.md 0).halvedAt + s.obj 0x3004 0 ≤ s.dtimeS ∧ tgetD (s.md 0).checked 0 0 + s.obj 0x3406 0 ≤ s.dtimeS := by decide

theorem witness_flash : (∃ o, tget (inFlash.md 0).ops 1 = some o ∧ o.waits = false ∧ o.kind.isRead = false ∧ o.kind.isErase = false ∧
      o.kind.isCommit = false) ∧
    (∃ o, tget (inFlash.md 0).ops 2 = some o ∧ o.kind = .erase 4 ∧ o.suspended = false ∧ o.waits = false) ∧
    (∃ o, tget (inFlash.md 0).ops 3 = some o ∧ o.waits = false ∧ o.kind.isRead = true ∧ inFlash.outcomeOk 0 o (.decoded 1 0 3) = true) ∧
    tget (inFlash.md 0).resetting 0 = none ∧ inFlash.timedOut 0 0 0 = true ∧ tget (inFlash.md 0).resetting 5 = some 0 ∧
    0 + ((inFlash.md 0).population.map (·.resetUs)).getD 0 * 1000 ≤ inFlash.time.now :=
  ⟨⟨_, rfl, by decide⟩, ⟨_, rfl, by decide⟩, ⟨_, rfl, by decide⟩, by decide, by decide, by decide, by decide⟩

/-! ### What statements assume is met: the host interface -/

/-- Controller 1 with an I/O queue pair 1 and one command there that has not started, two asynchronous events wanted and one pending. -/
def ctrl : Ctrl :=
  { Ctrl.fresh 129 true with
    en := true, rdy := true, cmds := [⟨1, 7, false, none, 4096, 0, 1⟩, ⟨0, 8, false, none, 0, 0, 2⟩]
    sqs := [(0, ⟨32, 0, 0, 0, false, false, 0, 0, [], none, 0⟩), (1, ⟨16, 0, 1, 0, false, false, 0, 1, [], none, 0⟩)]
    cqs := [(0, ⟨32, 0, 0, true, 0, 0, true, []⟩), (1, ⟨16, 0, 1, true, 0, 0, true, []⟩), (2, ⟨16, 0, 1, true, 0, 0, true, []⟩)] }

/-- A host with that controller, a VF of it (controller 2, offline), and namespaces 1 (general) and 2 (capture). -/
def inHost (c : Ctrl) : State :=
  let s := ((((((ready.setObj 0x4040 0 4).setObj 0x2120 1 2).setObj 0x2120 2 2).setObj 0x2120 3 2).setObj 0x2120 4 2).setObj 0x3100 0
    (2 ^ 40)).setObj 0x3101 0 (2 ^ 40)
  { s with host := { s.host with
    ctrls := [(1, c), (2, Ctrl.fresh 0 false)]
    nss := [(1, ⟨0, 1024, [1], false, 0, 0, [], 0, 0⟩), (2, ⟨1, 32768, [1], false, 0, 0, [], 0, 0⟩)]
    linkUp := [0] } }

/-- The I/O command and the admin command of that controller. -/
def io : CmdRef := ⟨1, 1, 7⟩
def admin : CmdRef := ⟨1, 0, 8⟩

theorem witness_links : (inHost ctrl).portFormed 0 = true ∧ 0 ∈ (inHost ctrl).host.linkUp ∧ 1 ∉ (inHost ctrl).host.linkUp ∧
    (inHost ctrl).usable 0 7 = true ∧ (inHost ctrl).fetched io = true ∧ (inHost ctrl).ctrl 1 = some ctrl ∧
    (tget ctrl.sqs 1).map (·.size) = some 16 ∧ (tget ctrl.cqs 1).map (·.size) = some 16 ∧ ((inHost ctrl).nextFetch 0).isSome = true ∧
    (inHost ctrl).boot.restricted = false ∧ tgetD (inHost ctrl).host.retrainAt 1 0 ≤ (inHost ctrl).time.now ∧
    ((inHost ctrl).pciOf 0).power = 0 ∧ (inHost ctrl).deviceReady = true := by decide

theorem witness_started : Started io (inHost ctrl) ∧ Started admin (inHost ctrl) ∧ isVf admin.cntl = false :=
  ⟨show _ = true by decide, show _ = true by decide, by decide⟩

theorem witness_admin : tget ctrl.cqs 1 ≠ none ∧ 128 ≤ (inHost ctrl).queueLimit 1 ∧ tget ctrl.sqs 128 = none ∧ tget ctrl.cqs 128 = none ∧
    (ctrl.sqs.filter fun k => k.2.ordered).length < ((inHost ctrl).countVendor true 0xC5).obj 0x4008 0 ∧
    (ctrl.sqs.any fun k => k.2.cqid = 2) = false ∧ ((inHost ctrl).logPage 1 5).isSome = true ∧
    ((inHost ctrl).identifyData admin 2 0 0).isLeft = true ∧ featureKnown 7 = true ∧ featureKnown 4 = true ∧ 0 < msixVectors ∧ ctrl.aers.length < 16 := by
  decide

theorem witness_namespaces : let s := inHost ctrl;
    s.fault.safeHold = false ∧ ceilDiv 32768 512 * cuBytes ≤ s.unvmcap ∧ s.freeNsid.isSome = true ∧ s.inUse 1 = false ∧ s.ctrlsOk [2] = true ∧
      ([2].any [1].contains) = false ∧ ([1].any fun c => !([1].contains c)) = false ∧ s.obj 0x2226 0 = 0 ∧ s.slotValid 1 = true ∧
      s.activationAllowed = true ∧ s.host.activating = none ∧ s.ownVf admin 2 = true ∧ s.vqUsed (portOf 2) + 129 ≤ 2048 ∧
      (∀ p, s.program 9 = some p → p.state = 1) := by
  refine ⟨by decide, by decide, List.find?_isSome.mpr ⟨3, List.mem_map.mpr ⟨2, List.mem_range.mpr (by decide), rfl⟩, by decide⟩, by decide,
    by decide, by decide, by decide, by decide, by decide, by decide, by decide, by decide, by decide, nofun⟩

theorem witness_vf : let s : State := { inHost ctrl with host := { (inHost ctrl).host with ctrls := [(1, ctrl), (2, Ctrl.fresh 2 true)] } };
    s.ownVf admin 2 = true ∧ 2 ≤ s.vqOf 2 := by decide

/-- Program 9 is loaded and may run near the data. -/
def withProgram (s : State) : State :=
  { s with comp := { s.comp with programs := [(9, { Program.loading with state := 2, use := 1 })] } }

theorem witness_programs : (withProgram (inHost ctrl)).program 9 = some { Program.loading with state := 2, use := 1 } ∧
    bitOf (1 : Nat) 0 = true ∧ bitOf ((withProgram (inHost ctrl)).share 0 7) 15 = true ∧
    (withProgram (inHost ctrl)).slotsHeld 0 < (withProgram (inHost ctrl)).share 0 8 := by decide

theorem witness_lake_commands : let s1 := ((inHost ctrl).setObj 0x9000 0 5).countVendor true 0xD0;
    let w : List Staged := [⟨0x9001, 0, leBytes 2 3, false, []⟩, ⟨0x9002, 1, [1], false, []⟩]; let l : List Staged := [⟨0x9002, 1, [2], false, []⟩];
    s1.obj 0x9000 0 = 5 ∧ s1.lake.state = 0 ∧ s1.lake.join = none ∧ s1.fault.safeHold = false ∧ s1.holdsLake = false ∧
      Acceptable s1 ⟨sessionKey 1 1, 1, 0, w, none, none⟩ 1 false ∧ Acceptable s1 ⟨sessionKey 1 1, 1, 0, l, none, none⟩ 1 false :=
  ⟨by decide, by decide, by decide, by decide, by decide, ⟨by decide, by decide, by decide, by decide⟩,
    ⟨by decide, by decide, by decide, by decide⟩⟩

theorem witness_dictionary_commands : let s0 := (inHost ctrl).countVendor true 0xC2; let r : DictReq := ⟨1, 1, 0, 0, 0, 0x1101, 0, [3, 0, 0, 0]⟩;
    let w := s0.atWork r; let a : CommitAsk := ⟨reqKey r, s0.clsOf r, 0, [⟨0x1101, 0, [3], false, r.data⟩], none, none⟩;
    Admits r s0 ∧ MayRead w (s0.clsOf r) 0x1101 0 .u8 ∧ MayWrite w (s0.clsOf r) 0x1101 0 .u8 .rw (w.openTxn (reqKey r)) ∧
      w.openTxn (reqKey r) = false ∧ w.overlapsNow (reqKey r) (s0.clsOf r) 0x1101 0 .u8 r.data = false ∧
      w.holdWrite (w.judgedAgainst (reqKey r)) 0x1101 0 r.data = (0, [3], false) ∧ Acceptable w a 1 false :=
  ⟨⟨by decide, by decide, Or.inl rfl, nofun, nofun, (by intro h; rcases h with h | h <;> cases h), by decide⟩,
    mayRead_of .rw (by decide) (by decide), mayWrite_of (by decide) (by decide), by decide, by decide, by decide,
    ⟨by decide, by decide, by decide, by decide⟩⟩

/-- Namespace 1 as its controller sees it. -/
def ns1 : Ns := ⟨0, 1024, [1], false, 0, 0, [], 0, 0⟩

theorem witness_io : (inHost ctrl).seen io 1 = some ns1 ∧ MayChange (inHost ctrl) io 1 [(512, 512)] ∧
    SeesRange (inHost ctrl) io 1 512 512 ∧ (inHost ctrl).tooFull 1 512 512 = false :=
  ⟨by decide, ⟨by decide, ns1, by decide, by decide, by decide, by decide⟩, ⟨ns1, by decide, by decide⟩, by decide⟩

/-- A device with search table 1 of a width. -/
def inSearch (width : Nat) : State :=
  { ready with search := { ready.search with tables := [(1, ⟨width, 0, 15, 0, 4, 1, none, [⟨0, 0, 0, 0, none⟩], some ⟨3, 5, true⟩, 0⟩)] } }

theorem witness_search_commands : ∀ w ∈ [1, 2, 3], (((inSearch w).countVendor false 0x80).table 1).map (fun t => (t.width, bitOf t.access 0)) =
    some (w, true) := by decide

/-! ### What statements assume is met: takes, functions and instructions -/

/-- A take of namespace 2 that ended, sealed, with the entry of frame 9 of spring 0. -/
def ended : Take := { take with nsid := 2, state := 2, frames := [], sealFlags := 1, records := [fit 64 [1, 0, 0, 0, 0, 0, 0, 0, 9]] }

theorem witness_take_commands : let s0 := ({ inHost ctrl with take := { ready.take with takes := [ended] } } : State).countIo io 0x88 3;
    SeesTake s0 io 2 1 ended ∧ (ended.frameEntry 0 9).isSome = true ∧ bandNamed (fit 64 [1, 0, 0, 0, 0, 0, 0, 0, 9]) 255 = none ∧
      bitOf ended.sealFlags 0 = true ∧ SeesRange s0 io 1 512 512 ∧ [0, 1, 2].map rangeDigestBytes = [32, 48, 64] :=
  ⟨⟨⟨⟨1, 32768, [1], false, 0, 0, [], 0, 0⟩, by decide, by decide⟩, by decide, by decide, by decide⟩, by decide, by decide, by decide,
    ⟨ns1, by decide, by decide⟩, by decide⟩

theorem witness_functions : let off := Ctrl.fresh 129 true;
    (off.en = false ∧ off.online = true ∧ off.flr = false) ∧ ctrl.en = true ∧ (inHost ctrl).ctrl (0 + 1) = some ctrl ∧
      (let c := { ctrl with quiesce := 1 }; c.quiesceAt + (inHost c).obj 0x4107 0 * 1000000 ≤ (inHost c).time.now) ∧
      (inHost ctrl).host.refilled + (inHost ctrl).refillNs ≤ (inHost ctrl).time.now ∧ (inHost ctrl).obj 0x4106 0 * 1000000 ≤ ready.time.now ∧
      (inHost { ctrl with cmds := [] }).drained admin = true := by decide

/-- Core 0 of die 0 runs a task of program 9 whose first word is `w`. -/
def onCore (t : Task) (w : Nat) : State :=
  let s := withProgram ready
  { s with comp := { s.comp with
    programs := [(9, { Program.loading with state := 2, use := 1, text := [w], segLen := 4096 })]
    dies := [(0, { ComputeDie.empty with tasks := [(0, t)] })] } }

def task0 : Task :=
  { Task.create { Program.loading with segLen := 4096 } 9 0 1 0 false 0 0 0 0 with state := 3, core := some 0 }

/-- The plainest instruction of an operation. -/
def plain (op : Op) (ew : Nat) : Dec := ⟨op, 0, 0, 0, false, 0, ew, 0, 0, 0, false, false⟩

/-- A word of every operation but COP3, with its mode; those of the coprocessors are major and CFUNC (R363 to R365). -/
def words : List (Op × Bool × Nat) :=
  ([Op.add, .sub, .and, .or, .xor, .andn, .slt, .sltu, .min, .max, .minu, .maxu, .neg, .abs, .sll, .srl, .sra, .slli, .srli, .srai, .clz,
      .popc, .sextb, .sexth, .bswap, .packl, .packh, .mul, .mulh, .mulhu, .mulhsu, .div, .divu, .rem, .remu, .qmul, .qrshr, .qrshri,
      .qnarrow, .qsat16, .amul, .amac, .amsu, .amacq, .amsuq, .aclr, .aset, .aext, .agetl, .ageth, .agetg, .addi, .andi, .ori, .xori,
      .slti, .sltiu, .lui, .lb, .lbu, .lh, .lhu, .lw, .sb, .sh, .sw, .beq, .bne, .blt, .bge, .bltu, .bgeu, .j, .jal, .jalr, .crd, .cwr,
      .cset, .cclr, .trap, .eret, .wait, .fence, .exit, .vadd, .vsub, .vand, .vor, .vxor, .vmin, .vmax, .vminu, .vmaxu, .vneg, .vabs,
      .vsll, .vsrl, .vsra, .vqrshr, .vcmpeq, .vcmplt, .vcmpltu, .vsel, .vmul, .vpopc, .vmac, .vmsu, .vmacq, .vmula, .vaclr, .vld, .vst,
      .vbcast, .vget, .vput, .vredadd, .vredmin, .vredmax, .vperm, .vzipl, .vziph].map fun o => (o, false, encodeWord false (plain o 0))) ++
    ([Op.vqmul, .vwidenl, .vwidenh, .vaccout, .vaccin].map fun o => (o, false, encodeWord false (plain o 1))) ++
    ([Op.b, .bl, .br].map fun o => (o, true, encodeWord true (plain o 0))) ++
    ([(Op.srch, 0x3C, 0), (.srch288, 0x3C, 1), (.srch576, 0x3C, 2), (.sins, 0x3C, 16), (.sput, 0x3C, 17), (.swr, 0x3C, 18),
      (.sdel, 0x3C, 19), (.srd, 0x3C, 20), (.sclr, 0x3C, 21), (.sstat, 0x3C, 22), (.pget, 0x3D, 0), (.paddref, 0x3D, 1),
      (.ppass, 0x3D, 2), (.pput, 0x3D, 3), (.pquery, 0x3D, 4), (.pmap, 0x3D, 16), (.punmap, 0x3D, 24), (.jsubCipher, 0x3E, 0),
      (.jsubDigest, 0x3E, 1), (.jsubCodec, 0x3E, 2), (.jpoll, 0x3E, 16)].map fun o => (o.1, false, o.2.1 * 2 ^ 26 + o.2.2))

set_option maxRecDepth 8000 in
theorem words_all : words.length = 150 ∧ (words.map (·.1)).Nodup := by decide

/-- A core runs an operation, as a test. -/
theorem runs_of {op : Op} {die core : Nat} {s : State} (h : s.hasDie die && (s.running die core).any fun p =>
    (s.fetchWord p.2.settle).any fun w => (decodeWord p.2.settle.selkel1 w).any fun x =>
      decide (x.op = op) && decide (op = .eret → p.2.settle.inTrap = true) && !x.bad && decide (op ≠ .cop3) && condHolds x.cond (p.2.settle.reg rPs)) : ∃ c, Runs op die core s c := by
  simp only [Bool.and_eq_true, Option.any_eq_true, decide_eq_true_eq, Bool.not_eq_true'] at h
  obtain ⟨h0, p, h1, w, h2, x, h3, ⟨⟨⟨h4, he⟩, h5⟩, h6⟩, h7⟩ := h
  exact ⟨_, h0, p.1, p.2, w, x, h1, h2, h3, h4, he, h5, h6, h7, rfl⟩

set_option maxRecDepth 8000 in
/-- Each of them runs where a core's task stands at it. -/
theorem witness_runs : ∀ x ∈ words, ∃ c, Runs x.1 0 0 (onCore { task0 with selkel1 := x.2.1, inTrap := true } x.2.2) c := by
  intro x h
  apply runs_of
  revert x
  decide

/-- A word load, a word store and a division on core 0, at the address and with the divisor in G1. -/
def atWord (w : Nat) (g1 : Nat) : State := onCore { task0 with regs := [(1, g1)] } w

/-- The word of an operation with D = G3, S = G1 and T = G2. -/
def dst (op : Op) : Nat := encodeWord false ⟨op, 3, 1, 2, false, 0, 0, 0, 0, 0, false, false⟩

/-- What the instruction at the pc sees. -/
def sees (s : State) (w : Nat) (t : Task) : Ctx := ⟨s.setTask 0 0 t.settle, 0, 0, 0, t.settle, w, (decodeWord t.settle.selkel1 w).getD (plain .add 0)⟩

theorem witness_memory_rows : (∀ op ∈ [Op.lb, .lbu, .lh, .lhu, .lw, .sb, .sh, .sw],
      let c := sees (atWord (dst op) 8) (dst op) { task0 with regs := [(1, 8)] };
      c.ea = 8 ∧ c.s.place 0 0 c.t c.ea 4 = some (.seg (taskAddr 0 0 8)) ∧ c.s.placePoisoned (.seg (taskAddr 0 0 8)) 4 = false) ∧
    (let c := sees (atWord (dst .lw) 4095) (dst .lw) { task0 with regs := [(1, 4095)] }; c.ea % 4 ≠ 0) ∧
    (let c := sees (atWord (dst .lw) 4096) (dst .lw) { task0 with regs := [(1, 4096)] };
      c.ea % 4 = 0 ∧ c.s.place 0 0 c.t c.ea 4 = none) := by decide

/-- A task with a handler and one in a trap; a divisor of 0, and DZTE 1. -/
theorem witness_traps : (let t := { task0 with regs := [(rC 0x10, 64)] }; (onCore t 0).task 0 0 = some t ∧ t.inTrap = false ∧ t.settleAll.reg (rC 0x10) ≠ 0) ∧
    (let c := sees (atWord (dst .div) 8) (dst .div) { task0 with regs := [(1, 8)] }; c.tv = 0 ∧ c.sv = 8 ∧ bitOf (c.t.reg rFx) 8 = false) ∧
    bitOf ({ task0 with regs := [(rFx, 256)] }.reg rFx) 8 = true ∧ ctlNumbers.contains 0x032 = true ∧ task0.ctlWritable 0x012 = true ∧
    task0.ctlWritable 0x013 = false ∧ decodeWord false 0 = none ∧ (decodeWord false 0xFFFFFFFF).map (·.op) = some .cop3 ∧
    (decodeWord true 0x0FC00000).map (·.op) = some .cop3 := by decide

theorem witness_sees : Sees 0 0 (atWord (dst .add) 8) (sees (atWord (dst .add) 8) (dst .add) { task0 with regs := [(1, 8)] }) :=
  ⟨by decide, 0, { task0 with regs := [(1, 8)] }, dst .add, ⟨.add, 3, 1, 2, false, 0, 0, 0, 0, 0, false, false⟩, by decide, by decide, by decide, rfl⟩

theorem witness_eret : let w := encodeWord false (plain .eret 0); Sees 0 0 (atWord w 8) (sees (atWord w 8) w { task0 with regs := [(1, 8)] }) ∧
    (sees (atWord w 8) w { task0 with regs := [(1, 8)] }).x.op = .eret ∧ (sees (atWord w 8) w { task0 with regs := [(1, 8)] }).t.inTrap = false :=
  ⟨⟨by decide, 0, { task0 with regs := [(1, 8)] }, encodeWord false (plain .eret 0), plain .eret 0, by decide, by decide, by decide, rfl⟩,
    by decide, by decide⟩

/-! ### What statements assume is met: coprocessors, dispatcher and engines -/

/-- The same device in which core 0 runs a task, which holds buffer 0 of pool 4. -/
def busy (s : State) (w : Nat) (regs : Tab Nat) : State :=
  let c := onCore { task0 with regs := regs } w
  { s with comp := c.comp }

theorem witness_pond_rows : let s := inPond 2 (pool (taskOwner 0 0)); let c := sees (busy s 0xF4000000 [(1, 4)]) 0xF4000000 { task0 with regs := [(1, 4)] };
    Grants c.s c.me 3 0 4 (pool (taskOwner 0 0)) ∧ Shares c.s c.me handle 9 (pool (taskOwner 0 0)) ∧
      Returns c.s c.me handle (pool (taskOwner 0 0)) ∧ Names c.s handle (pool (taskOwner 0 0)) :=
  ⟨⟨by decide, by decide, by decide, ⟨⟨taskOwner 0 0, 2, 2, 1, false⟩, by decide, by decide, by decide⟩, by decide, by decide, by decide⟩,
    ⟨by decide, by decide, by decide, by decide, by decide, by decide, by decide⟩, ⟨by decide, by decide, by decide⟩,
    ⟨by decide, by decide, by decide, by decide, by decide⟩⟩

theorem witness_search_rows : let s := inSearch 1;
    ((s.table 1).map fun t => (t.state, t.width, bitOf t.access 2, t.queue.length, (s.freePlaces t).length)) = some (1, 1, true, 1, 8) ∧
      ((s.placeOf 0).map fun p => (p.1, p.2.2)) = some (1, 0) ∧ (s.usable 0 3 = true) ∧
      (((s.drainTable 1 16).table 1).map fun t => ((s.drainTable 1 16).entryAt t 1).isNone) = some true := by decide

theorem witness_job_rows : let s : State := busy ready 0xF8000000 [];
    (∀ e ∈ [0, 1, 2], s.waitingJobs 0 e 3 < queueLimit) ∧
      (sees s 0xF8000000 task0).s.place 0 0 task0 0 64 = some (.seg (taskAddr 0 0 0)) := by decide

/-- A cipher job that waits, of a class, and one that runs on core 0. -/
def job (state cls : Nat) : Job := ⟨0, 0, 0, cls, 0, 0, zeros 52, state, 0, 0, 0, cls = 0, false, false, 0, [], 0, 0⟩

/-- A device with jobs of an engine: 1 waits, urgent, of the capture class, 2 runs; one key slot; register set 0 busy. -/
def inEngine (e : Nat) : State :=
  { ready with
    comp := { ready.comp with dies := [(0, { ComputeDie.empty with
      jobs := [(1, { job 0 0 with engine := e }), (2, { job 1 3 with engine := e })] })] }
    secure := { ready.secure with
      slots := [(5, ⟨1, 1, 0, 0, 0, 0, [], 0, 0⟩)]
      dies := [(0, { SecureDie.empty with sets := [(0, { RegSet.reset with job := true, busy := true })] })] } }

theorem witness_engines : (∀ e ∈ [0, 1, 2], let s := inEngine e;
      (tget (s.cd 0).jobs 1 = some { job 0 0 with engine := e } ∧ (job 0 0).since + (job 0 0).limit ≤ s.time.now) ∧
      s.jobOn 0 e 0 = some (2, { job 1 3 with engine := e }) ∧ s.engineStalled 0 e = false) ∧
    ((((inEngine 0).cd 0).queue 0).find? fun j => j.2.urgent) = some (1, job 0 0) ∧
    ((inEngine 0).cd 0).victim 0 = some (2, job 1 3) ∧ ((inEngine 0).sd 0).aesContexts < 16 ∧ (inEngine 0).keySlot 0 5 ≠ none ∧
    3 ∈ (inEngine 0).engineCores 0 0 ∧ 1 ∈ (inEngine 0).engineCores 0 1 ∧ ((inEngine 0).regSet 0 0).job = true ∧
    ((inEngine 0).regSet 0 0).active = false ∧ ((inEngine 0).regSet 0 0).done = false ∧ ((inEngine 0).regSet 0 0).busy = true := by decide

/-- A job and a lake message that wait for a counter block. -/
theorem witness_counter_block : (∃ j ∈ ({ ComputeDie.empty with jobs := [(2, { job 1 3 with status := waitBlock })] } : ComputeDie).active 0,
      j.2.status = waitBlock) ∧ (∃ s : State, ∃ m ∈ s.lake.held, m.lane / 4 = 0) :=
  ⟨⟨(2, { job 1 3 with status := waitBlock }), by decide, rfl⟩,
    { ready with lake := { ready.lake with held := [⟨0, 1, 1, 4, false, []⟩] } }, _, List.mem_singleton.mpr rfl, by decide⟩

/-- A device whose die 0 has a task ready in group 0, of class 3, and another on core 0. -/
def inQueue : State :=
  let t := { task0 with state := 2, core := none }
  let s := withProgram (ready.setObj 0x5048 1 0xFFFF)
  { s with comp := { s.comp with dies := [(0, { ComputeDie.empty with ready := [(0, [1])], tasks := [(0, task0), (1, t)] })] } }

theorem witness_dispatch : (inQueue.winner 0).isSome = true ∧ inQueue.running 0 0 = some (0, task0) ∧ task0.cls ≠ 0 ∧
    task0.startedAt + task0.slice * 1000 ≤ inQueue.time.now ∧ 1 ∈ inQueue.readyList 0 0 ∧
    ((inQueue.task 0 1).map fun t => (inQueue.coresFor 0 t).contains 0) = some true ∧ inQueue.coreUp 0 15 = true ∧ ready.running 0 0 = none := by decide

theorem witness_filter : let w : FilterWork := ⟨0, 0, 0, 0, 0, 0, 0, [⟨9, some 0, 0⟩], [], []⟩;
    let s := onCore { task0 with filter := some w } 0;
    ((s.task 0 0).bind (·.filter)) = some w ∧ (w.frames.find? fun x => x.state = 0) = some ⟨9, some 0, 0⟩ ∧ isBefore (s.instant 0) 0 = false := by
  decide

theorem witness_cascade : let s := ready.setObj 0x7002 2 2; let one := ready.setObj 0x7002 2 1;
    s.obj 0x7002 2 ≠ 1 ∧ s.search.tokenAt.any (s.time.now < · + 1000) = false ∧ one.obj 0x7002 2 = 1 ∧
      (atPhase (ready.obj 0xA013 0) ready).searchScrubDue 0 = true ∧
      (let t : State := { ready with search := { ready.search with dies := [(0, [(4, { SRow.make 0 0 0 with rewrite := true })])] } };
        (tget (t.rowsOf 0) 4).map (·.rewrite) = some true) ∧
      ((tget (inSearch 1).search.tables 1).map fun t => (t.queue.isEmpty, t.move.map fun m => decide (m.gap = m.goal))) =
        some (false, some false) := by decide

/-! ### What statements assume is met: the lake, faults, power and boot -/

/-- Member 1 of a lake of two; node 2 was heard long ago; lane 3 of die 0 carries the lake, and pool 7 has buffers for it. -/
def member : State :=
  let q : Pool := { Pool.off with cfg := ⟨0, 8, 8, 1, 2⟩, state := 1, owners := [⟨ownerId 5 0 2, 2, 2, 0, false⟩] }
  let s := (((ready.setObj 0x2120 4 3).setObj 0x9003 0 8).setObj 0x9000 0 5)
  { s with
    pond := { s.pond with pools := [(poolKey 0 7, q)] }
    lake := { s.lake with
      state := 2, ident := 5, node := 1, level := 2, leader := 1, members := [1, 2]
      unacked := [⟨2, 0x10, 3, [], 0, 0⟩], searches := [⟨4, io, 1, 1, 0, [2], [], 0⟩], parts := [⟨3, 0, 9, 2, 1, 0⟩]
      lxns := [⟨7, 0, 0, 2, false, [], [], [], []⟩], votes := [⟨8, 2, 0, []⟩]
      peers := [(2, ⟨0, 2, 1, 2, true, 1, 0, 0, 0, 0⟩)] } }

def hdr : LakeHdr := ⟨0, 3, 3, 1, 2, false, 5, 2, 1, 9, 0, 0, true⟩

theorem witness_messages : ∀ ty ∈ [1, 2, 3, 4, 5, 0x10, 0x11, 0x20, 0x21, 0x22, 0x23, 0x24, 0x30, 0x31, 0x40, 0x41, 0x50],
    MsgTaken hdr ty 0 member := by
  intro ty h
  refine ⟨⟨by decide, by decide⟩, by decide, by decide, by decide, by decide, by decide, by decide, by decide, by decide, ?_, by decide⟩
  revert ty
  decide

theorem witness_lake_timers : member.nodeSilent 2 = true ∧ 2 ∈ member.lake.members ∧
    (member.lake.unacked.find? fun m => m.dst = 2 && m.seq = 3) = some ⟨2, 0x10, 3, [], 0, 0⟩ ∧ 1000 * member.obj 0x9009 1 ≤ member.time.now ∧
    0 < member.obj 0x9009 2 ∧ (member.lxn 7).map (·.state) = some 2 ∧ member.reached 0 (member.obj 0x900C 0) = true ∧
    member.reached 0 4096 = true ∧ (member.lake.votes.find? fun v => v.ident = 8) = some ⟨8, 2, 0, []⟩ ∧
    (member.lake.searches.find? fun x => x.ident = 4).isSome = true ∧ 4500000 ≤ member.time.now ∧ member.laneMode 0 3 = 3 ∧
    member.usable 0 7 = true := by decide

theorem witness_heartbeat : ∃ s : State, s.lake.state ≠ 0 ∧ s.beatDue 0 = true :=
  ⟨{ atPhase 60000 member with lake := { member.lake with beat := none } }, by decide, by decide⟩

theorem witness_joining : let s := fun (l a : Bool) =>
      ({ member with lake := { member.lake with state := 1, level := 0, join := some ⟨none, l, a, 0⟩, peers := [(2, ⟨0, 2, 1, 2, true, 1, 0, 0, 0, 0⟩)] } } : State);
    3 * (s true false).beatNs ≤ ready.time.now ∧ tget (s true false).lake.peers (s true false).lake.node = none ∧
      ((s true false).lake.peers.find? fun p => p.2.state = 2).isSome = true ∧ (s false true).lake.level = 0 ∧ 1000000000 ≤ ready.time.now := by
  decide

theorem witness_lake_take : let s : State := { member with take := { ready.take with takes := [{ take with lakeTake := 3 }] } };
    ((s.lakeTakes.find? fun t => t.lakeTake = 3).map (·.num)) = some 1 ∧
      (∃ p ∈ s.partsOf 3 0 9, p.since + 1000000 * s.obj 0x900B 0 ≤ s.time.now) := ⟨by decide, ⟨3, 0, 9, 2, 1, 0⟩, by decide, by decide⟩

theorem witness_recovery : let s : State := { ready with fault := { ready.fault with halted := [1], resetting := [1], standbySynced := false } };
    0 ∉ s.fault.failed ∧ 0 ∉ s.fault.halted ∧ 0 ∉ s.fault.resetting ∧ 1 ∈ s.fault.halted ∧ 1 ∈ s.fault.resetting ∧ (inEngine 0).engineHolds 0 1 = true ∧
      (atPhase (ready.obj 0xA013 0) ready).inScrub 0 = true ∧ s.fault.safeHold = false ∧ s.cfg.dies = 2 ∧ s.fault.standby = some 1 ∧
      s.fault.standbySynced = false ∧ (0, 1) ∉ s.fault.linksDown := by decide

theorem witness_repeat : ∃ s : State, ∃ r, tget s.fault.can 9 = some r ∧ r.last + s.obj 0xA009 0 * 1000000 ≤ s.time.now :=
  ⟨{ ready with fault := { ready.fault with can := [(9, ⟨0, 1, 0, 0, 0⟩)] } }, ⟨0, 1, 0, 0, 0⟩, by decide, by decide⟩

theorem witness_power : ((ready.pd 0).working [20, 1180]).find? (fun k => 1180 ≤ k.2) = some (1, 1180) ∧ ready.power.tripped = false ∧
    ready.boot.porst = false := by decide

theorem witness_waking : let s : State := { ready with power := { ready.power with grace := some 0, dies := [(0, { PowerDie.fresh with waking := [(9, 0)] })] } };
    tget (s.pd 0).waking 9 = some 0 ∧ 0 + 1000 * 50 ≤ s.time.now ∧ 50 ≤ wakeMostUs.getD 9 0 ∧ s.power.grace = some 0 ∧ 0 ≤ s.time.now := by
  decide

/-- The boot images of a good boot flash. -/
def images : BootImages := ⟨true, true, [(0, 0, 1)], [], 0, 0, 0, [], [], 0, 0⟩

theorem witness_boot : let s := fun (b : BootState) => ({ ready with boot := b } : State); let b := ready.boot;
    (State.reset.boot.porst = true ∧ State.reset.boot.powered = true) ∧ b.porst = false ∧ b.halted = false ∧ (images.copyA || images.copyB) = true ∧
      (s { b with step := 5, image := some images }).boot.image = some images ∧ b.restricted = false ∧
      (let t := s { b with sectionsOut := [0] }; 0 ∈ t.boot.sectionsOut ∧ 0 ∉ t.boot.dramUp ∧ 0 ∉ t.boot.flashUp ∧ t.healthy 0 = true ∧
        t.boot.sectionsAt + 100000000 ≤ t.time.now) ∧
      (let t := s { b with dramUp := [0], flashUp := [0] }; 0 ∉ t.fault.resetting ∧ 0 ∈ t.boot.dramUp ∧ 0 ∈ t.boot.flashUp ∧ 0 ∉ t.boot.restored) ∧
      (ready.setObj 0x1800 0 4).obj 0x1800 0 = 4 := by decide

/-! ### What statements assume is met: rules over all states -/

theorem witness_invariants : ready.memOk ∧ step { ready with pending := [.query 0] } = exec (.query 0) ready ∧ storesNothing (.query 0) = true ∧
    Memory.wf [(3, 7)] = true ∧ ready.pending = [] :=
  ⟨rfl, rfl, rfl, rfl, rfl⟩

theorem witness_refused : let r := reqFor ask 0x1000 0 [1]; Admits r ready ∧
    (ready.atWork r).judge (ready.clsOf r) r.idx r.sub true ((ready.atWork r).openTxn (reqKey r)) ≠ 0 ∧ Served ready 0x1102 true :=
  ⟨admitted_of (by decide), by decide, served_of (by decide)⟩

theorem witness_duplicate : let r : DictReq := ⟨3, 1, 4, 0, 0, 0x1102, 0, []⟩;
    let s : State := { ready with dict := { ready.dict with sessions := [(reqKey r, { Session.fresh with dupSeq := some 4, dupAt := 10 ^ 12 })] } };
    r.path = 3 ∧ s.pathServed r = true ∧ s.clientOk r = true ∧ (s.session (reqKey r)).dupSeq = some r.seq ∧
      s.time.now ≤ (s.session (reqKey r)).dupAt + 100000000 := by decide

theorem witness_staged : let r := reqFor ask 0x1101 0 [3]; let w := inTxn.atWork r;
    Admits r inTxn ∧ MayWrite w (inTxn.clsOf r) r.idx r.sub .u8 .rw true ∧ w.openTxn (reqKey r) = true ∧ w.fullTxn (reqKey r) r.idx r.sub = false ∧
      (w.staged (reqKey r)).length ≤ 256 ∧ w.holdWrite (w.judgedAgainst (reqKey r)) r.idx r.sub r.data = (0, [3], false) :=
  ⟨admitted_of (by decide), mayWrite_of (by decide) (by decide), by decide, by decide, by decide, by decide⟩

theorem witness_sum : let c := sees (atWord (dst .add) 8) (dst .add) { task0 with regs := [(1, 8)] };
    c.x.ew = 0 ∧ c.x.sat = false ∧ c.x.d = 3 ∧ c.sv = 8 ∧ c.tv = 0 := by decide

/-! ### Ill-formed commands are refused -/

theorem test_wf_ok : ([Instr.read ask, .bandStartCell cell, .ptpSyncMessage ptpHdr 3 true 0 0, .flush io 1, .lakeAck hdr 0 0,
    .echo ⟨7, 3, 3, 65535, 255⟩ 0, .add 7 17, .query 0].all Instr.wf) = true := by decide

set_option maxRecDepth 4000 in
/-- One ill-formed term for each check. -/
theorem test_wf : ([Instr.read { ask with idx := 65536 }, .read { ask with sub := 256 }, .read { ask with bus := 2 }, .read { ask with ident := 2048 },
    .read { ask with data := [256] },
    .ptpSyncMessage { ptpHdr with lane := 32 } 3 true 0 0, .ptpSyncMessage { ptpHdr with dom := 256 } 3 true 0 0,
    .ptpSyncMessage { ptpHdr with src := 2 ^ 64 } 3 true 0 0, .ptpSyncMessage ptpHdr 65536 true 0 0, .ptpFollowUpMessage ptpHdr 65536 0,
    .ptpDelayRespMessage ptpHdr 65536 0 0,
    .bandStartCell { cell with die := 8 }, .bandStartCell { cell with lane := 4 }, .bandStartCell { cell with type := 16 },
    .bandStartCell { cell with ver := 4 }, .bandStartCell { cell with spring := 32 }, .bandStartCell { cell with band := 64 },
    .bandStartCell { cell with len := 241, payload := List.replicate 241 0 }, .bandStartCell { cell with cidx := 2 ^ 21 },
    .bandStartCell { cell with lseq := 65536 }, .bandStartCell { cell with frame := 2 ^ 32 }, .bandStartCell { cell with len := 1 },
    .bandStartCell { cell with len := 1, payload := [256] },
    .echo ⟨8, 0, 0, 0, 0⟩ 0, .echo ⟨0, 4, 0, 0, 0⟩ 0, .echo ⟨0, 0, 4, 0, 0⟩ 0, .echo ⟨0, 0, 0, 65536, 0⟩ 0, .echo ⟨0, 0, 0, 0, 256⟩ 0,
    .flush { io with sqid := 65536 } 1, .flush { io with cid := 65536 } 1,
    .lakeAck { hdr with die := 8 } 0 0, .lakeAck { hdr with lane := 4 } 0 0, .lakeAck { hdr with srcLane := 32 } 0 0,
    .lakeAck { hdr with src := 512 } 0 0,
    .phaseAdvance 8, .udpDatagram 32 ⟨0, 0, 0, 0⟩ [], .txnTimeout 4096, .signalDetect 0 4,
    .codewordReceived 8 0 true 0, .cellInError 0 0 ⟨true, []⟩, .cellInError 0 0 ⟨true, List.replicate 256 256⟩, .functionLevelReset 256,
    .add 8 0, .add 0 18, .filterDeadline 0 4096, .dieHeartbeat ⟨[], [⟨8, 0, 0, 0, 0⟩]⟩].any Instr.wf) = false := by decide

/-! ### Values of the public standards and of the tables -/

set_option maxRecDepth 20000 in
/-- SHA-256 of the empty message, as FIPS 180-4's test vectors give it. -/
theorem test_sha256 : (sha256 []).take 4 = [0xE3, 0xB0, 0xC4, 0x42] := by decide

set_option maxRecDepth 20000 in
/-- The CRC-32C of "123456789". -/
theorem test_crc32c : crc32c (ascii "123456789") = 0xE3069283 := by decide

/-- A word of the command table spells no command: the table gives no bits. -/
theorem test_table_word : decodeTableWord 32 0 = none ∧ (ready.withFetchWord 32 0).pending = [] := by decide

/-- A write that the memory form keeps: writing 0 takes the byte out of the list. -/
theorem test_memory : memWrite [(3, 7)] 2 [1, 0, 5] = [(2, 1), (4, 5)] := by decide

/-- ADD with carry out: FFFFFFFF + 1 is 0. -/
theorem test_add : laneInt 32 false (· + ·) 0xFFFFFFFF 1 = .plain 0 := by decide

/-- SAT: 7FFFFFFF + 1 saturates and says so. -/
theorem test_add_sat : (laneInt 32 true (· + ·) 0x7FFFFFFF 1).val = 0x7FFFFFFF := by decide

end Sys2Proof.Machine.Test
end

/-!
PROOFS. The rows of die supervision (chapter 17): what each answers where its guard holds, one lemma a row.
-/

namespace Sys2Proof.Machine

section DieSupervision

variable {s : State} {die : Nat}

/-! ### Dies and their stewards (R525, R526, R532, R542) -/

theorem exec_dieSilenceTimeout (hd : s.hasDie die = true) (hf : die ∉ s.fault.failed) :
    exec (.dieSilenceTimeout die) s = .next (s.loseDie die) := by
  change execDieSilenceTimeout die s = _
  rw [execDieSilenceTimeout, onDie_pos hd, if_neg (by simpa using hf)]

theorem exec_lockstepMismatch (hd : s.hasDie die = true) (hf : die ∉ s.fault.failed) (hh : die ∉ s.fault.halted) :
    exec (.lockstepMismatch die) s = .next (s.stewardHalts die) := by
  change execLockstepMismatch die s = _
  rw [execLockstepMismatch, onDie_pos hd, if_neg (by simp [hf, hh])]

/-- A halted steward runs again, its restart is counted, and what its die held is routed (R526). -/
theorem exec_stewardRestartComplete (hd : s.hasDie die = true) (hh : die ∈ s.fault.halted) :
    let s1 : State := { s with fault := { s.fault with halted := s.fault.halted.erase die } }
    exec (.stewardRestartComplete die) s = .next (((s1.bump (0xA160 + die) 2).setObj (0xA168 + die) 0 0).routeHeld die) := by
  change execStewardRestartComplete die s = _
  rw [execStewardRestartComplete, onDie_pos hd, if_neg (by simpa using hh)]

theorem exec_dieResetTimeout (hd : s.hasDie die = true) (hr : die ∈ s.fault.resetting) :
    exec (.dieResetTimeout die) s = .next (s.loseDie die) := by
  change execDieResetTimeout die s = _
  rw [execDieResetTimeout, onDie_pos hd, if_pos (by simpa using hr)]

theorem exec_engineStallTimeout {engine : Nat} (hd : s.hasDie die = true) (h1 : 1 ≤ engine) (h4 : engine ≤ 4)
    (hj : s.engineHolds die engine = true) (hr : die ∉ s.fault.resetting) :
    exec (.engineStallTimeout die engine) s = .next (s.resetEngine die engine) := by
  change execEngineStallTimeout die engine s = _
  rw [execEngineStallTimeout, onDie_pos hd, if_neg (by omega), if_neg (by simp [hj, hr])]

theorem exec_scrubWindowStart {found : ScrubFindings} (hd : s.hasDie die = true) (hw : s.inScrub die = true) :
    exec (.scrubWindowStart die found) s = .next (s.scrubbed die found) := by
  change execScrubWindowStart die found s = _
  rw [execScrubWindowStart, onDie_pos hd, if_pos hw]

/-! ### The lead and its standby (R22, R527) -/

/-- The standby takes over when no die hears the lead; on the HK7-2 it decides alone (R527). -/
theorem exec_leadSilenceTimeout {heardBy : List Nat} {leadHealthy : Bool} {us : Nat} (hs : s.fault.safeHold = false)
    (hq : s.cfg.dies = 2 ∨ heardBy = []) :
    exec (.leadSilenceTimeout heardBy leadHealthy us) s = .next (s.leadLost leadHealthy us) := by
  have heard : ¬(s.cfg.dies ≠ 2 ∧ heardBy ≠ []) := fun ⟨h2, h⟩ => hq.elim h2 h
  change execLeadSilenceTimeout heardBy leadHealthy us s = _
  rw [execLeadSilenceTimeout, if_neg (by simp [hs]), if_neg heard]

theorem exec_standbySyncComplete {d : Nat} (hb : s.fault.standby = some d) (hn : s.fault.standbySynced = false) :
    exec .standbySyncComplete s =
      .next (({ s with fault := { s.fault with standbySynced := true } } : State).raise (evPkg 34) d) := by
  change execStandbySyncComplete s = _
  rw [execStandbySyncComplete, if_neg (by simp [hb, hn]), hb]
  rfl

/-! ### Emergency repeats (R537) and die links (R17) -/

/-- At the end of an event's interval one frame carries the repeats counted; where none was, the event is forgotten (R537). -/
theorem exec_emergencyRepeatExpiry {event : Nat} {r : CanRepeat} (hr : tget s.fault.can event = some r)
    (ht : r.last + s.obj 0xA009 0 * 1000000 ≤ s.time.now) :
    exec (.emergencyRepeatExpiry event) s = .next (if r.repeats = 0 then
        { s with fault := { s.fault with can := tdel s.fault.can event } }
      else (s.setCan event ⟨s.time.now, 0, r.epoch, r.phase, r.detail⟩).emitCan 1
        (emergencyBody ⟨event, evClass event, 0, r.epoch, r.phase, r.detail, 0, 0xFFFF, 0⟩ r.repeats)) := by
  change execEmergencyRepeatExpiry event s = _
  simp only [execEmergencyRepeatExpiry, hr, if_neg (Nat.not_lt.mpr ht)]
  exact (apply_ite Host.Outcome.next _ _ _).symm

/-- A link that the part has (on the HK7-8 within a quad or over the bridge) goes down between its two dies (R17). -/
theorem exec_dieLinkFailure {a b : Nat} (ha : s.hasDie a = true) (hb : s.hasDie b = true) (hab : a ≠ b)
    (hl : s.cfg.dies ≠ 8 ∨ a / 4 = b / 4 ∨ a % 4 = b % 4) (hu : (min a b, max a b) ∉ s.fault.linksDown) :
    let s1 : State := { s with fault := { s.fault with linksDown := s.fault.linksDown ++ [(min a b, max a b)] } }
    exec (.dieLinkFailure a b) s =
      .next (((s1.bump (0xA158 + a) 2).bump (0xA158 + b) 2).raise (evDie (min a b) 3) (max a b)) := by
  have linked : ¬(!s.hasDie a ∨ !s.hasDie b ∨ a = b ∨ (s.cfg.dies = 8 ∧ a / 4 ≠ b / 4 ∧ a % 4 ≠ b % 4)) := by
    simp only [ha, hb]
    tauto
  change execDieLinkFailure a b s = _
  rw [execDieLinkFailure, if_neg linked, if_neg (by simpa using hu)]

end DieSupervision

/-- Settles O33: each row's own lemma, under the guards the statement gives it; a heartbeat round has no guard. -/
theorem recoveryRowsComplete : Obligations.RecoveryRowsComplete := by
  intro s
  refine ⟨fun _ => rfl, fun die hd => ?dies, fun _ _ _ => exec_leadSilenceTimeout, fun _ => exec_standbySyncComplete,
    fun _ _ => exec_emergencyRepeatExpiry, fun _ _ => exec_dieLinkFailure⟩
  case dies =>
    exact ⟨exec_dieSilenceTimeout hd, exec_lockstepMismatch hd, exec_stewardRestartComplete hd, exec_dieResetTimeout hd,
      fun _ => exec_engineStallTimeout hd, fun _ => exec_scrubWindowStart hd⟩

end Sys2Proof.Machine

/-!
PROOFS. The rows of the time base (chapter 2): what each answers where its guard holds, one lemma a row.
-/

namespace Sys2Proof.Machine

section TimeBase

variable {s : State}

/-! ### The epoch clock (R34) and the boundaries of its sources (R38, R41) -/

/-- A phase below its last value advances, and the interrupts that waited for it are released. -/
theorem exec_phaseAdvance {die : Nat} (hd : s.hasDie die = true) (hp : s.boot.porst = false) (hc : (s.clock die).phase < 65535) :
    exec (.phaseAdvance die) s = .next (s.advancePhase die (s.clock die)).releaseInterrupts := by
  have runs : ¬(s.boot.porst = true ∨ 65535 ≤ (s.clock die).phase) := by simp [hp, hc]
  change execPhaseAdvance die s = _
  simp only [execPhaseAdvance, onDie_pos hd, if_neg runs]

theorem exec_epochBoundary {offs : List Int} (hp : s.boot.porst = false) :
    exec (.epochBoundary offs) s = .next (s.crossBoundary offs) := by
  change execEpochBoundary offs s = _
  rw [execEpochBoundary, if_neg (by simp [hp])]

/-- FRAME_SYNC moves; the edge that object 0x1107 selects is a boundary of source 2. -/
theorem exec_frameSyncEdge {rising : Bool} :
    let s1 : State := { s with pins := { s.pins with frameSync := rising } }
    (b2n (!rising) = s.obj 0x1107 0 → exec (.frameSyncEdge rising) s = .next (s1.useFree.sourceBoundary 2 s.edgeAt true)) ∧
      (b2n (!rising) ≠ s.obj 0x1107 0 → exec (.frameSyncEdge rising) s = .next s1) := by
  exact ⟨fun selected => if_pos selected, fun other => if_neg other⟩

/-- An LTC frame is a boundary of source 4; the timecode is taken over only where that source is qualified. -/
theorem exec_ltcFrame {rate tc ub : Nat} :
    let s1 := (s.setObj 0x1140 2 (ub % 2 ^ 32)).useFree.sourceBoundary 4 s.edgeAt (rate = s.obj 0x1140 1)
    ((s1.source 4).qualified = true → exec (.ltcFrame rate tc ub) s = .next { s1 with time := { s1.time with
      timecode := clearBit (clearBit (tc % 2 ^ 32) 6) 7 + 64, tcAt := s.time.now, tcRem := 0 } }) ∧
    ((s1.source 4).qualified = false → exec (.ltcFrame rate tc ub) s = .next s1) := by
  exact ⟨fun qualified => if_pos qualified, fun unqualified => if_neg (by simpa using unqualified)⟩

/-! ### PTP (R40) -/

@[simp] theorem State.modPtp_ptp (s : State) (f : Ptp → Ptp) : (s.modPtp f).time.ptp = f s.time.ptp := rfl
@[simp] theorem Ptp.follow_master (p : Ptp) (src gm : Nat) (x : AnnounceData) : (p.follow src gm x).master = some src := by
  unfold Ptp.follow; split <;> simp_all
@[simp] theorem Ptp.follow_best (p : Ptp) (src gm : Nat) (x : AnnounceData) : (p.follow src gm x).best = x := by
  unfold Ptp.follow; split <;> rfl
@[simp] theorem Ptp.follow_announceAt (p : Ptp) (src gm : Nat) (x : AnnounceData) : (p.follow src gm x).announceAt = p.announceAt := by
  unfold Ptp.follow; split <;> rfl

/-- A one-step Sync of the master is measured; a two-step one waits for its Follow_Up. -/
theorem exec_ptpSyncMessage {h : PtpHdr} {seq origin arrival : Nat} (hm : s.fromMaster h = true) :
    exec (.ptpSyncMessage h seq false origin arrival) s = .next ((s.heardSync h.intervalNs).ptpMeasured seq origin arrival) ∧
      ∃ t, exec (.ptpSyncMessage h seq true origin arrival) s = .next t ∧ t.time.ptp.sync = some (seq, arrival) := by
  have heard (twoStep : Bool) : exec (.ptpSyncMessage h seq twoStep origin arrival) s =
      if twoStep then .next ((s.heardSync h.intervalNs).modPtp fun p => { p with sync := some (seq, arrival) })
      else .next ((s.heardSync h.intervalNs).ptpMeasured seq origin arrival) := if_neg (by simp [hm])
  exact ⟨heard false, _, heard true, rfl⟩

theorem exec_ptpFollowUpMessage {h : PtpHdr} {seq origin arrival : Nat} (hm : s.fromMaster h = true)
    (hs : s.time.ptp.sync = some (seq, arrival)) :
    exec (.ptpFollowUpMessage h seq origin) s = .next (s.ptpMeasured seq origin arrival) := by
  change execPtpFollowUpMessage h seq origin s = _
  simp only [execPtpFollowUpMessage, hs, hm, and_self, if_true]

/-- An Announce of the best clock heard makes its sender the master. -/
theorem exec_ptpAnnounceMessage {h : PtpHdr} {data : AnnounceData} {gm : Nat} {utc : Option Int} (ht : s.ptpTakes h = true)
    (hf : s.follows h data gm = true) :
    ∃ t, exec (.ptpAnnounceMessage h data gm utc) s = .next t ∧ t.time.ptp.master = some h.src ∧ t.time.ptp.best = data ∧
      t.time.ptp.announceAt = s.time.now ∧ t.obj 0x1130 4 = gm % 2 ^ 64 := by
  change ∃ t, execPtpAnnounceMessage h data gm utc s = _ ∧ _
  rw [execPtpAnnounceMessage, if_neg (by simp [ht]), if_neg (by simp [hf])]
  exact ⟨_, rfl, by simp, by simp, by simp, obj_setObj _ _ _ _⟩

/-- The answer awaited ends the exchange, and object 0x1130:6 gives the mean path delay, cut to 32 bits. -/
theorem exec_ptpDelayRespMessage {h : PtpHdr} {seq sent received : Nat} (hm : s.fromMaster h = true)
    (hw : s.time.ptp.delayWaiting = true) (hq : s.time.ptp.delaySeq = seq) :
    ∃ t, exec (.ptpDelayRespMessage h seq sent received) s = .next t ∧ t.time.ptp.delayWaiting = false ∧
      t.obj 0x1130 6 = (clampInt 0 0xFFFFFFFF ((((s.time.ptp.t2 : Int) - s.time.ptp.t1) + ((received : Int) - sent)) / 2)).toNat := by
  have awaited : ¬((!s.fromMaster h) = true ∨ (!s.time.ptp.delayWaiting) = true ∨ s.time.ptp.delaySeq ≠ seq) := by simp [hm, hw, hq]
  change ∃ t, execPtpDelayRespMessage h seq sent received s = _ ∧ _
  rw [execPtpDelayRespMessage, if_neg awaited]
  exact ⟨_, rfl, rfl, obj_setObj _ _ _ _⟩

/-! ### Loss of a source, holdover and return (R42) -/

/-- A source that is lost; the loss of PTP forgets its master too. -/
theorem exec_sourceLost {src : Nat} (h1 : 1 ≤ src) (h5 : src < 5) (hl : s.lossDue src = true) :
    exec (.sourceLost src) s =
      .next ((if src = 3 then s.modPtp fun p => { p with haveTime := false, master := none } else s).loseSource src) := by
  change execSourceLost src s = _
  rw [execSourceLost, if_neg (by omega), if_neg (by simp [hl])]

/-- Holdover ends in free run where no source is qualified. -/
theorem exec_holdoverExpiry_none (hd : s.holdoverDue = true) (hq : s.firstQualified = none) :
    exec .holdoverExpiry s = .next ((s.enterTime 3).raise (evPkg 4) s.time.active) := by
  change execHoldoverExpiry s = _
  rw [execHoldoverExpiry, if_neg (by simp [hd]), hq]

theorem exec_holdoverExpiry_some {k : Nat} (hd : s.holdoverDue = true) (hq : s.firstQualified = some k) :
    exec .holdoverExpiry s = .next (s.adopt k) := by
  change execHoldoverExpiry s = _
  rw [execHoldoverExpiry, if_neg (by simp [hd]), hq]

theorem exec_returnTimeExpiry {src : Nat} (hd : s.returnDue src = true) : exec (.returnTimeExpiry src) s = .next (s.adopt src) :=
  if_pos hd

end TimeBase

/-- Settles O2: each row's own lemma, under the guards the statement gives it. -/
theorem timeRowsComplete : Obligations.TimeRowsComplete := by
  intro s
  refine ⟨fun _ => exec_phaseAdvance, fun _ => exec_epochBoundary, fun _ => exec_frameSyncEdge, fun _ _ _ => exec_ltcFrame,
    fun _ _ _ _ => exec_ptpSyncMessage, fun _ _ _ _ => exec_ptpFollowUpMessage, fun _ _ _ _ => exec_ptpAnnounceMessage,
    fun _ _ _ _ => exec_ptpDelayRespMessage, fun src h1 h5 h3 hl => ?others, fun hl => ?ptp, exec_holdoverExpiry_none,
    fun _ => exec_holdoverExpiry_some, fun _ => exec_returnTimeExpiry⟩
  case others => rw [exec_sourceLost h1 h5 hl, if_neg h3]
  case ptp => rw [exec_sourceLost (by decide) (by decide) hl, if_pos rfl]

end Sys2Proof.Machine

/-!
PROOFS. The rows of transactions (R81 to R89) and of a lake's transactions (R507, R508): what each command does to its session's
transaction, and what its row answers.
-/

namespace Sys2Proof.Machine

/-! ### What a transaction command does -/

section Commands

variable {w : State} {k cls : Nat}

theorem txnCheck_begin {n : Nat} (ho : w.openTxn k = false) (hn : w.freeSlotNo = some n) : w.txnCheck k 1 = 0 := by
  simp [State.txnCheck, ho, hn]

theorem txnCheck_open {v : Nat} (hv : v ≠ 1) (ho : w.openTxn k = true) : w.txnCheck k v = 0 := by
  simp [State.txnCheck, hv, ho]

theorem txnCommand_begin {n : Nat} (ho : w.openTxn k = false) (hn : w.freeSlotNo = some n) :
    w.txnCommand k cls 1 = w.acted ((w.setSlot n ⟨k, 1, [], 0, 0, 0, w.time.now, w.obj 0x1F10 1 * 1000000000⟩).setSession k
      { w.session k with slot := n, state := 1, count := 0 }) := by
  simp [State.txnCommand, State.beginTxn, State.acted, ho, hn]

/-- A commit that may be accepted is, for its boundary. -/
theorem commitTxn_accepted {named : Option Nat} {b : Nat} {late : Bool} (ho : w.openTxn k = true)
    (ha : Acceptable w ⟨k, cls, (w.session k).slot, (w.slot (w.session k).slot).staged, named, none⟩ b late) :
    w.commitTxn k cls named =
      (0, late, b, w.accepted ⟨k, cls, (w.session k).slot, (w.slot (w.session k).slot).staged, named, none⟩) := by
  rw [State.commitTxn, if_neg (by simp [ho])]
  exact acceptCommit_acceptable ha

theorem txnCommand_next : w.txnCommand k cls 2 = w.commitTxn k cls none := by
  simp [State.txnCommand]

theorem txnCommand_atEpoch : w.txnCommand k cls 3 = w.commitTxn k cls (some (w.session k).named) := by
  simp [State.txnCommand]

theorem txnCommand_rollback (ho : w.openTxn k = true) : w.txnCommand k cls 4 = w.acted (w.rollBack k 7) := by
  simp [State.txnCommand, ho]

/-! ### What a lake transaction command does -/

theorem lxnCommand_begin (ho : w.openLxn k = none) (hl : w.lake.lxns.length < 2) :
    w.lxnCommand k 1 = w.acted (w.beginLxn k).2 := by
  have status : (w.beginLxn k).1 = 0 := by rw [State.beginLxn, if_neg (by simp [ho]), if_neg (by omega)]
  simp [State.lxnCommand, State.acted, status]

theorem lxnCommand_next : w.lxnCommand k 2 = w.startLxn k none := by simp [State.lxnCommand]

theorem lxnCommand_atEpoch : w.lxnCommand k 3 = w.startLxn k (some (w.session k).lakeNamed) := by
  simp [State.lxnCommand]

theorem lxnCommand_rollback {x : Lxn} (hx : w.openLxn k = some x) : w.lxnCommand k 4 =
    w.acted (({ w with lake := { w.lake with lxns := w.lake.lxns.erase x } } : State).lxnState x 7) := by
  simp [State.lxnCommand, State.rollBackLxn, State.acted, hx]

theorem mem_of_mem_nodeSet {l : List Nat} {n : Nat} (h : n ∈ nodeSet l) : n ∈ l := by
  simpa using (List.mem_filter.1 h).2

/-- The participants of a lake transaction whose writes name members, or every member, are members. -/
theorem participants_are_members {x : Lxn} (hm : ∀ v ∈ x.writes, v.node = 0xFFFF ∨ v.node ∈ w.lake.members) :
    ((nodeSet (x.writes.flatMap fun v => if v.node = 0xFFFF then w.lake.members else [v.node])).any
      fun n => !w.lake.members.contains n) = false := by
  simp only [List.any_eq_false, Bool.not_eq_true', Bool.not_eq_false, List.contains_iff_mem]
  intro n hn
  obtain ⟨v, hv, hnv⟩ := List.mem_flatMap.1 (mem_of_mem_nodeSet hn)
  split at hnv
  · exact hnv
  case isFalse hnode =>
    rw [List.mem_singleton.1 hnv]
    exact (hm v hv).resolve_left hnode

/-- The boundary for which the lead starts a lake transaction: the first that the lead time leaves, or a later one that is named (R508). -/
def State.lxnTarget (w : State) : Option Nat → Nat
  | none => w.leadBoundary
  | some e => if isAhead e w.epoch then w.laterOf w.leadBoundary e else w.leadBoundary

/-- A lake transaction is late when it is started for another boundary than the one named. -/
def State.lxnLate (w : State) : Option Nat → Bool
  | none => false
  | some e => decide (w.lxnTarget (some e) ≠ wrap48 e)

/-- A named boundary is at most 2 ^ 32 epochs ahead, or already passed. -/
def State.lxnNear (w : State) : Option Nat → Prop
  | none => True
  | some e => ¬(2 ^ 32 < aheadOf e w.epoch ∧ aheadOf e w.epoch < 2 ^ 47)

/-- A lake transaction of members starts with status 0, for its boundary. -/
theorem startLxn_led {x : Lxn} {named : Option Nat} (hx : w.openLxn k = some x) (hl : w.inLake = true)
    (hm : ∀ v ∈ x.writes, v.node = 0xFFFF ∨ v.node ∈ w.lake.members) (hn : w.lxnNear named) :
    w.startLxn k named = (0, w.lxnLate named, w.lxnTarget named, (w.startLxn k named).2.2.2) := by
  have joined : ¬((!w.inLake) = true ∨ ((nodeSet (x.writes.flatMap fun v => if v.node = 0xFFFF then w.lake.members else [v.node])).any
      fun n => !w.lake.members.contains n) = true) := by
    rw [participants_are_members hm, hl]; simp
  have started : ∃ t, w.startLxn k named = (0, w.lxnLate named, w.lxnTarget named, t) := by
    unfold State.startLxn
    rw [hx]
    cases named with
    | none =>
      dsimp only
      rw [if_neg Bool.false_ne_true, if_neg joined]
      exact ⟨_, rfl⟩
    | some e =>
      have near : decide (2 ^ 32 < aheadOf e w.epoch ∧ aheadOf e w.epoch < 2 ^ 47) = false := decide_eq_false hn
      dsimp only
      rw [near, if_neg Bool.false_ne_true, if_neg joined]
      exact ⟨_, rfl⟩
  obtain ⟨t, ht⟩ := started
  rw [ht]

end Commands

/-! ### Answers of the commands -/

section Answers

variable {q : DictReq} {s t : State} {b v : Nat} {late : Bool}

/-- An act with status 0 is answered with its epoch, and the flag of a late commit. -/
theorem writeDone_status_zero (cmd cls idx sub : Nat) :
    answerOf (State.writeDone cmd cls idx sub false (0, late, b, t)) = (some ⟨cmd, idx, sub, 0, 8 * b2n late, b, []⟩, t) := by
  simp [State.writeDone, answerOf, b2n]

/-- A request answered with status 0, no flags and this epoch is done. -/
theorem told_status_zero : s.told q (some ⟨2, q.idx, q.sub, 0, 8 * b2n false, (s.atWork q).epoch, []⟩) t = s.done q 2 t := by
  simp [State.done, b2n]

/-- A transaction command with status 0 is answered so. -/
theorem writeOn_txn_told (h : MayCommand q .enum8 s) (hi : q.idx = 0x1F00) (hsub : q.sub = 1) (hd : q.data = [v]) (h1 : 1 ≤ v)
    (h4 : v ≤ 4) (hc : (s.atWork q).txnCheck (reqKey q) v = 0)
    (ha : (s.atWork q).txnCommand (reqKey q) (s.clsOf q) v = (0, late, b, t)) :
    writeOn q s = .next (s.told q (some ⟨2, 0x1F00, 1, 0, 8 * b2n late, b, []⟩) t) := by
  rw [writeOn_txn h hi hsub hd h1 h4 hc, ha, writeDone_status_zero]

/-- A lake transaction command with status 0 is answered so. -/
theorem writeOn_lxn_told (h : MayCommand q .enum8 s) (hi : q.idx = 0x900D) (hsub : q.sub = 1) (hd : q.data = [v]) (h1 : 1 ≤ v)
    (h4 : v ≤ 4) (ha : (s.atWork q).lxnCommand (reqKey q) v = (0, late, b, t)) :
    writeOn q s = .next (s.told q (some ⟨2, 0x900D, 1, 0, 8 * b2n late, b, []⟩) t) := by
  rw [writeOn_lxn h hi hsub hd h1 h4, ha, writeDone_status_zero]

/-- A transaction command that acts at once is done. -/
theorem writeOn_txn_done (h : MayCommand q .enum8 s) (hi : q.idx = 0x1F00) (hsub : q.sub = 1) (hd : q.data = [v]) (h1 : 1 ≤ v)
    (h4 : v ≤ 4) (hc : (s.atWork q).txnCheck (reqKey q) v = 0)
    (ha : (s.atWork q).txnCommand (reqKey q) (s.clsOf q) v = (s.atWork q).acted t) : writeOn q s = .next (s.done q 2 t) := by
  rw [writeOn_txn_told h hi hsub hd h1 h4 hc ha, ← told_status_zero, hi, hsub]

/-- A lake transaction command that acts at once is done. -/
theorem writeOn_lxn_done (h : MayCommand q .enum8 s) (hi : q.idx = 0x900D) (hsub : q.sub = 1) (hd : q.data = [v]) (h1 : 1 ≤ v)
    (h4 : v ≤ 4) (ha : (s.atWork q).lxnCommand (reqKey q) v = (s.atWork q).acted t) : writeOn q s = .next (s.done q 2 t) := by
  rw [writeOn_lxn_told h hi hsub hd h1 h4 ha, ← told_status_zero, hi, hsub]

end Answers

/-! ### The rows of transactions -/

section TransactionRows

variable {s : State} {r : DictReq} {b : Nat} {late : Bool}

theorem exec_txnBegin {n : Nat} : let q := reqFor r 0x1F00 1 [1]
    let w := s.atWork q
    MayCommand q .enum8 s → w.openTxn (reqKey q) = false → w.freeSlotNo = some n →
    exec (.txnBegin r) s = .next (s.done q 2
      ((w.setSlot n ⟨reqKey q, 1, [], 0, 0, 0, s.time.now, w.obj 0x1F10 1 * 1000000000⟩).setSession (reqKey q)
        { w.session (reqKey q) with slot := n, state := 1, count := 0 })) := by
  intro q w h ho hn
  have begun := txnCommand_begin (cls := s.clsOf q) ho hn
  rw [State.atWork_time] at begun
  exact writeOn_txn_done h rfl rfl rfl le_rfl (by decide) (txnCheck_begin ho hn) begun

theorem exec_txnCommitNext : let q := reqFor r 0x1F00 1 [2]
    let w := s.atWork q
    let x := w.session (reqKey q)
    let a : CommitAsk := ⟨reqKey q, s.clsOf q, x.slot, (w.slot x.slot).staged, none, none⟩
    MayCommand q .enum8 s → w.openTxn (reqKey q) = true → Acceptable w a b late →
    exec (.txnCommitNext r) s = .next (s.told q (some ⟨2, 0x1F00, 1, 0, 8 * b2n late, b, []⟩) (w.accepted a)) := by
  intro q w x a h ho ha
  have taken := (txnCommand_next (cls := s.clsOf q)).trans (commitTxn_accepted ho ha)
  exact writeOn_txn_told h rfl rfl rfl (by decide) (by decide) (txnCheck_open (by decide) ho) taken

theorem exec_txnCommitAtEpoch : let q := reqFor r 0x1F00 1 [3]
    let w := s.atWork q
    let x := w.session (reqKey q)
    let a : CommitAsk := ⟨reqKey q, s.clsOf q, x.slot, (w.slot x.slot).staged, some x.named, none⟩
    MayCommand q .enum8 s → w.openTxn (reqKey q) = true → Acceptable w a b late →
    exec (.txnCommitAtEpoch r) s = .next (s.told q (some ⟨2, 0x1F00, 1, 0, 8 * b2n late, b, []⟩) (w.accepted a)) := by
  intro q w x a h ho ha
  have taken := (txnCommand_atEpoch (cls := s.clsOf q)).trans (commitTxn_accepted ho ha)
  exact writeOn_txn_told h rfl rfl rfl (by decide) (by decide) (txnCheck_open (by decide) ho) taken

theorem exec_txnRollback : let q := reqFor r 0x1F00 1 [4]
    MayCommand q .enum8 s → (s.atWork q).openTxn (reqKey q) = true →
    exec (.txnRollback r) s = .next (s.done q 2 ((s.atWork q).rollBack (reqKey q) 7)) := by
  intro q h ho
  exact writeOn_txn_done h rfl rfl rfl (by decide) le_rfl (txnCheck_open (by decide) ho) (txnCommand_rollback ho)

/-- A transaction whose time has passed is rolled back (R86). -/
theorem exec_txnTimeout {slot k : Nat} (h1 : 1 ≤ slot) (h8 : slot ≤ 8) (hk : (s.slot slot).session = k)
    (hs : (s.session k).slot = slot) (ho : s.openTxn k = true) (ht : (s.slot slot).begun + (s.slot slot).limit ≤ s.time.now) :
    exec (.txnTimeout slot) s = .next (s.rollBack k 8) := by
  subst hk
  change execTxnTimeout slot s = _
  rw [execTxnTimeout, if_neg (by omega)]
  exact if_pos ⟨hs, ho, ht⟩

theorem exec_canSessionTimeout {node : Nat} (ho : s.openTxn (sessionKey 0 node) = true)
    (ht : (s.session (sessionKey 0 node)).lastFrame + 10000000000 ≤ s.time.now) :
    exec (.canSessionTimeout node) s = .next (s.endSession (sessionKey 0 node)) := if_pos ⟨ho, ht⟩

theorem exec_limitedChangeFuseBlow {commit : Nat} {outcome : FuseOutcome} {c : Commit}
    (hc : (s.dict.commits.find? fun c => c.ident = commit && c.fuse && !c.blown) = some c) :
    exec (.limitedChangeFuseBlow commit outcome) s = .next (s.blowFuses c outcome) := by
  change execLimitedChangeFuseBlow commit outcome s = _
  rw [execLimitedChangeFuseBlow, hc]

/-! ### The rows of a lake's transactions -/

theorem exec_lxnBegin : let q := reqFor r 0x900D 1 [1]
    MayCommand q .enum8 s → (s.atWork q).openLxn (reqKey q) = none → (s.atWork q).lake.lxns.length < 2 →
    exec (.lxnBegin r) s = .next (s.done q 2 ((s.atWork q).beginLxn (reqKey q)).2) := by
  intro q h ho hl
  exact writeOn_lxn_done h rfl rfl rfl le_rfl (by decide) (lxnCommand_begin ho hl)

theorem exec_lxnCommitNext {x : Lxn} : let q := reqFor r 0x900D 1 [2]
    let w := s.atWork q
    MayCommand q .enum8 s → w.openLxn (reqKey q) = some x → w.inLake = true →
    (∀ v ∈ x.writes, v.node = 0xFFFF ∨ v.node ∈ w.lake.members) → exec (.lxnCommitNext r) s =
      .next (s.told q (some ⟨2, 0x900D, 1, 0, 0, w.leadBoundary, []⟩) (w.startLxn (reqKey q) none).2.2.2) := by
  intro q w h hx hl hm
  have started := lxnCommand_next.trans (startLxn_led (named := none) hx hl hm trivial)
  exact writeOn_lxn_told (late := false) h rfl rfl rfl (by decide) (by decide) started

theorem exec_lxnCommitAtEpoch {x : Lxn} : let q := reqFor r 0x900D 1 [3]
    let w := s.atWork q
    let e := (w.session (reqKey q)).lakeNamed
    let target := if isAhead e w.epoch then w.laterOf w.leadBoundary e else w.leadBoundary
    MayCommand q .enum8 s → w.openLxn (reqKey q) = some x → w.inLake = true →
    (∀ v ∈ x.writes, v.node = 0xFFFF ∨ v.node ∈ w.lake.members) → ¬(2 ^ 32 < aheadOf e w.epoch ∧ aheadOf e w.epoch < 2 ^ 47) →
    exec (.lxnCommitAtEpoch r) s = .next (s.told q (some ⟨2, 0x900D, 1, 0, 8 * b2n (decide (target ≠ wrap48 e)), target, []⟩)
      (w.startLxn (reqKey q) (some e)).2.2.2) := by
  intro q w e target h hx hl hm near
  have started := lxnCommand_atEpoch.trans (startLxn_led (named := some e) hx hl hm near)
  exact writeOn_lxn_told h rfl rfl rfl (by decide) (by decide) started

theorem exec_lxnRollback {x : Lxn} : let q := reqFor r 0x900D 1 [4]
    let w := s.atWork q
    MayCommand q .enum8 s → w.openLxn (reqKey q) = some x → exec (.lxnRollback r) s =
      .next (s.done q 2 (({ w with lake := { w.lake with lxns := w.lake.lxns.erase x } } : State).lxnState x 7)) := by
  intro q w h hx
  exact writeOn_lxn_done h rfl rfl rfl (by decide) le_rfl (lxnCommand_rollback hx)

end TransactionRows

/-- Settles O4: each row's own lemma, under the guards the statement gives it. -/
theorem transactionRowsComplete : Obligations.TransactionRowsComplete := by
  intro s r
  exact ⟨fun _ => exec_txnBegin, fun _ _ => exec_txnCommitNext, fun _ _ => exec_txnCommitAtEpoch, exec_txnRollback,
    fun _ _ => exec_txnTimeout, fun _ => exec_canSessionTimeout, fun _ _ _ => exec_limitedChangeFuseBlow, exec_lxnBegin,
    fun _ => exec_lxnCommitNext, fun _ => exec_lxnCommitAtEpoch, fun _ => exec_lxnRollback⟩

end Sys2Proof.Machine

/-!
PROOFS. The rows of the media and of the power that holds it (chapter 7): what each answers where its guard holds, one lemma a row.
-/

namespace Sys2Proof.Machine

section MediaAndPower

variable {s : State}

/-! ### Staged units, heat and the journal -/

/-- A unit whose merge window has passed is placed as it is (R203). -/
theorem exec_mergeWindowExpiry {nsid unit : Nat} {u : StagedUnit}
    (hu : ((s.md (s.unitDie nsid unit)).staged.find? fun u => u.nsid = nsid && u.unit = unit && u.phase = 0) = some u)
    (ht : u.since + u.window ≤ s.time.now) :
    exec (.mergeWindowExpiry nsid unit) s = .next (s.placeStaged (s.unitDie nsid unit) u.id) := by
  change execMergeWindowExpiry nsid unit s = _
  simp only [execMergeWindowExpiry, hu, if_neg (Nat.not_lt.mpr ht)]

theorem exec_heatHalving {die : Nat} (hd : s.hasDie die = true) (ht : (s.md die).halvedAt + s.obj 0x3004 0 ≤ s.dtimeS) :
    exec (.heatHalving die) s = .next (s.halveHeat die) := by
  change execHeatHalving die s = _
  rw [execHeatHalving, onDie_pos hd, if_neg (Nat.not_lt.mpr ht)]

theorem exec_journalFlush {die : Nat} (hd : s.hasDie die = true) (hr : (s.md die).pendingRecs ≠ []) :
    exec (.journalFlush die) s = .next (s.flushJournal die) := by
  change execJournalFlush die s = _
  rw [execJournalFlush, onDie_pos hd, if_neg (by simpa using hr)]

theorem exec_checkpointPassComplete {die : Nat} (hd : s.hasDie die = true) (hr : (s.md die).passRunning = true)
    (hp : (s.md die).pagesDone = true) : exec (.checkpointPassComplete die) s = .next (s.passEnds die (s.md die)) := by
  change execCheckpointPassComplete die s = _
  simp only [execCheckpointPassComplete, onDie_pos hd, hr, hp, Bool.not_true, Bool.false_eq_true, or_self, if_false]

/-- A seep window moves data of a die that is neither halted nor held by a power-loss commit (R227). -/
theorem exec_seepWindowStart {die : Nat} (hd : s.hasDie die = true) (hw : s.inSeep die = true) (hh : (s.md die).halted = false)
    (hc : s.media.commitRunning = false) : exec (.seepWindowStart die) s = .next (s.seep die) := by
  change execSeepWindowStart die s = _
  rw [execSeepWindowStart, onDie_pos hd, if_neg (by simp [hw]), if_neg (by simp [hh, hc])]

/-- A die stripe whose hold has passed is closed on the die that has it (R216). -/
theorem exec_dieStripeHoldExpiry {stripe d : Nat} (hd : (s.dies.find? fun d => (tget (s.md d).dieStripes stripe).isSome) = some d)
    (ht : (tgetD (s.md d).dieStripes stripe ⟨[], 0, 0⟩).since + (tgetD (s.md d).dieStripes stripe ⟨[], 0, 0⟩).hold ≤ s.time.now) :
    exec (.dieStripeHoldExpiry stripe) s = .next (s.closeDieStripe stripe d) := by
  change execDieStripeHoldExpiry stripe s = _
  simp only [execDieStripeHoldExpiry, hd, if_neg (Nat.not_lt.mpr ht)]

/-! ### Power loss (R240, R595) -/

/-- PLW_N acts after 200 ns, and after 50 ns where the part recognises it. -/
theorem exec_plwNAssert {lowNs : Nat} {recognised : Bool} (h : 200 ≤ lowNs ∨ (50 < lowNs ∧ recognised = true)) :
    exec (.plwNAssert lowNs recognised) s = .next s.plwFalls := by
  have long : ¬(lowNs < 200 ∧ (!recognised) = true) := by
    rintro ⟨hshort, hunknown⟩
    rcases h with h | ⟨-, h⟩
    · omega
    · simp [h] at hunknown
  change execPlwNAssert lowNs recognised s = _
  rw [execPlwNAssert, if_neg (by omega), if_neg long]

theorem exec_holdupOkChange {level : Bool} {stableNs : Nat} (ht : 100000 ≤ stableNs) :
    exec (.holdupOkChange level stableNs) s = .next (s.holdupMoves level) :=
  if_neg (Nat.not_lt.mpr ht)

/-- Power that returns during a power-loss commit lets the commit finish and starts the part again; otherwise only the pin moves. -/
theorem exec_plwNRelease : let s1 : State := { s with pins := { s.pins with plw := true } }
    exec .plwNRelease s = .next (if s.media.commitRunning then ((s1.finishCommit).clearVolatile 0).startRom else s1) := by
  intro s1
  change execPlwNRelease s = _
  cases hc : s.media.commitRunning <;> simp [execPlwNRelease, hc, s1]

end MediaAndPower

/-- Settles O11: each row's own lemma, under the guards the statement gives it. -/
theorem mediaRowsComplete : Obligations.MediaRowsComplete := by
  intro s
  refine ⟨fun _ _ _ => exec_mergeWindowExpiry, fun die hd => ?dies, fun _ _ => exec_dieStripeHoldExpiry,
    fun _ _ => exec_plwNAssert, fun _ _ => exec_holdupOkChange, exec_plwNRelease⟩
  case dies =>
    exact ⟨exec_heatHalving hd, exec_journalFlush hd, exec_checkpointPassComplete hd, exec_seepWindowStart hd⟩

end Sys2Proof.Machine

/-!
PROOFS. The dictionary's checks of a request (R601, checks 2 to 7): their order and their statuses, and what safe hold does to them (R529).
-/

namespace Sys2Proof.Machine

section Checks

variable {s : State} {cls idx sub : Nat} {ty : ObjTy} {acc : Acc} {inTxn : Bool}

/-! ### The checks of a served request, in their order -/

theorem judge_unknown_index {write : Bool} (hs : Served s idx write) (ho : objExists s.cfg.dies idx = false) :
    s.judge cls idx sub write inTxn = 0x0101 := by
  simp [State.judge, notServed_none hs, ho]

theorem judge_unknown_sub {write : Bool} (hs : Served s idx write) (ho : objExists s.cfg.dies idx = true)
    (he : objAccess s.cfg.dies idx sub = none) : s.judge cls idx sub write inTxn = 0x0102 := by
  simp [State.judge, notServed_none hs, ho, he]

/-- A read of an object that exists is judged by the class's right to read, and then by its access code (R64, R68). -/
theorem judge_read_entry (hs : Served s idx false) (ho : objExists s.cfg.dies idx = true)
    (he : objAccess s.cfg.dies idx sub = some (ty, acc)) :
    s.judge cls idx sub false inTxn =
      if mayRead cls idx = false then 0x0201 else if acc = .wo ∨ idx = 0x600A then 0x0204 else 0 := by
  simp [State.judge, notServed_none hs, ho, he]

/-- A write of an object that exists is judged by the class's right to write, its access code, its counts and safe hold. -/
theorem judge_write_entry (hs : Served s idx true) (ho : objExists s.cfg.dies idx = true)
    (he : objAccess s.cfg.dies idx sub = some (ty, acc)) :
    s.judge cls idx sub true inTxn =
      if mayWrite cls idx = false then 0x0202 else if acc = .ro then 0x0203
      else if acc = .rwt ∧ inTxn = false then 0x0206 else if s.spent idx sub = true then 0x0205
      else if s.fault.safeHold = true then 0x0601 else 0 := by
  simp [State.judge, notServed_none hs, ho, he]

/-! ### Safe hold -/

/-- A device out of safe hold, and otherwise as it is. -/
def State.outOfHold (s : State) : State := { s with fault := { s.fault with safeHold := false } }

theorem notServed_ne_zero {write : Bool} {st : Nat} (h : s.notServed idx write = some st) : st ≠ 0 := by
  rintro rfl
  unfold State.notServed at h
  split at h
  · split at h <;> simp at h
  · split at h <;> simp at h

theorem judge_read_outOfHold : s.outOfHold.judge cls idx sub false inTxn = s.judge cls idx sub false inTxn := by
  have served : s.outOfHold.notServed idx false = s.notServed idx false := rfl
  have part : s.outOfHold.cfg = s.cfg := rfl
  simp [State.judge, served, part]

/-- In safe hold a write that would pass outside it is answered 0x0601, and any other as outside it (R529). -/
theorem judge_write_inHold (hh : s.fault.safeHold = true) : s.judge cls idx sub true inTxn =
    if s.outOfHold.judge cls idx sub true inTxn = 0 then 0x0601 else s.outOfHold.judge cls idx sub true inTxn := by
  have served : s.outOfHold.notServed idx true = s.notServed idx true := rfl
  have part : s.outOfHold.cfg = s.cfg := rfl
  have counts : s.outOfHold.spent idx sub = s.spent idx sub := rfl
  have hold : s.outOfHold.fault.safeHold = false := rfl
  unfold State.judge
  rw [served, part]
  cases hn : s.notServed idx true with
  | some st => simp [notServed_ne_zero hn]
  | none =>
    cases ho : objExists s.cfg.dies idx with
    | false => rfl
    | true =>
      cases he : objAccess s.cfg.dies idx sub with
      | none => rfl
      | some e =>
        simp only [counts, hold, hh]
        split_ifs <;> simp_all

end Checks

/-- Settles O53: each check's own lemma, by whether the index, the sub-index and the right are there. -/
theorem checksAnswerTheirStatus : Obligations.ChecksAnswerTheirStatus := by
  intro s cls idx sub write inTxn hs
  refine ⟨judge_unknown_index hs, fun ho => ⟨judge_unknown_sub hs ho, fun ty acc he => ?entry⟩⟩
  case entry =>
    cases write with
    | false =>
      rw [judge_read_entry hs ho he]
      refine ⟨fun _ hr => ?_, nofun, fun _ hr hw => ?_, fun _ hr hw h6 => ?_, nofun⟩
      · rw [if_pos hr]
      · rw [if_neg (by simp [hr]), if_pos hw]
      · rw [if_neg (by simp [hr]), if_neg (by simp [hw, h6])]
    | true =>
      rw [judge_write_entry hs ho he]
      refine ⟨nofun, fun _ hr => if_pos hr, nofun, nofun, fun _ hr => ⟨?_, ?_, ?_, ?_⟩⟩
      · rintro rfl
        simp [hr]
      · rintro rfl ht
        simp [hr, ht]
      · rintro rfl hc
        simp [hr, hc]
      · intro hro ht hc
        have inside : ¬(acc = .rwt ∧ inTxn = false) := fun ⟨h, h'⟩ => by simp [ht h] at h'
        simp [hr, hro, inside, hc]

/-- Settles O54: a write in safe hold is judged by what it would be outside it. -/
theorem safeHoldRefusesWrites : Obligations.SafeHoldRefusesWrites := by
  intro s cls idx sub inTxn hh
  have write := judge_write_inHold (cls := cls) (idx := idx) (sub := sub) (inTxn := inTxn) hh
  refine ⟨?refused, fun passes => ?held, judge_read_outOfHold.symm⟩
  case refused =>
    rw [write]
    split
    · decide
    · assumption
  case held => exact write.trans (if_pos passes)

end Sys2Proof.Machine

/-!
PROOFS. Requests that are not executed (R64, R75, R601): what a check before the value refuses, and what a duplicate is answered with.
-/

namespace Sys2Proof.Machine

/-! ### What a check before the value refuses -/

section Refusals

variable {s : State} {k cls st : Nat} {r : DictReq}

theorem serveRead_refused (hj : s.judge cls r.idx r.sub false (s.openTxn k) = st) (h0 : st ≠ 0) :
    s.serveRead k cls r = (plainAnswer 1 r.idx r.sub st s.epoch, s) := by
  simp [State.serveRead, hj, h0]

theorem serveDomainRead_refused (hj : s.judge cls r.idx r.sub false (s.openTxn k) = st) (h0 : st ≠ 0) :
    s.serveDomainRead k cls r = (plainAnswer 3 r.idx r.sub st s.epoch, s) := by
  simp [State.serveDomainRead, hj, h0]

theorem serveSegmentAck_refused {count : Nat} (hj : s.judge cls r.idx r.sub false (s.openTxn k) = st) (h0 : st ≠ 0) :
    s.serveSegmentAck k cls r count = (some (plainAnswer 7 r.idx r.sub st s.epoch), s) := by
  simp [State.serveSegmentAck, hj, h0]

theorem serveWrite_refused {cmd idx sub : Nat} {data : List Nat} {dom : Bool} (hj : s.judge cls idx sub true (s.openTxn k) = st)
    (h0 : st ≠ 0) : s.serveWrite k cls cmd idx sub data dom = (plainAnswer cmd idx sub st s.epoch, s) := by
  simp [State.serveWrite, hj, h0]

theorem serveDomainWrite_refused (hj : s.judge cls r.idx r.sub true (s.openTxn k) = st) (h0 : st ≠ 0) :
    s.serveDomainWrite k cls r = (plainAnswer 4 r.idx r.sub st s.epoch, s) := by
  simp [State.serveDomainWrite, hj, h0]

theorem serveSegment_refused {counter : Nat} (hj : s.judge cls r.idx r.sub true (s.openTxn k) = st) (h0 : st ≠ 0) :
    s.serveSegment k cls r counter = (some (plainAnswer 5 r.idx r.sub st s.epoch), s) := by
  simp [State.serveSegment, hj, h0]

end Refusals

/-! ### The requests of R74, where they are executed -/

section Admitted

variable {s t : State} {r : DictReq} {a : Answer}

/-- An admitted request is told the answer of its service. -/
theorem onPath_answers {cmd : Nat} {f : Nat → Nat → State → Option Answer × State} {o : Option Answer} (h : Admits r s)
    (hf : f (reqKey r) (s.clsOf r) (s.atWork r) = (o, t)) : onPath r s (fun s => s.handle r cmd f) = .next (s.told r o t) := by
  rw [onPath_handle h, hf]

theorem exec_read_answers (h : Admits r s) (ha : (s.atWork r).serveRead (reqKey r) (s.clsOf r) r = (a, t)) :
    exec (.read r) s = .next (s.told r (some a) t) :=
  onPath_answers h (congrArg answerOf ha)

theorem exec_write_answers (h : Admits r s) (ha : (s.atWork r).serveWrite (reqKey r) (s.clsOf r) 2 r.idx r.sub r.data false = (a, t)) :
    exec (.write r) s = .next (s.told r (some a) t) :=
  onPath_answers h (congrArg answerOf ha)

theorem exec_domainRead_answers (h : Admits r s) (ha : (s.atWork r).serveDomainRead (reqKey r) (s.clsOf r) r = (a, t)) :
    exec (.domainRead r) s = .next (s.told r (some a) t) :=
  onPath_answers h (congrArg answerOf ha)

theorem exec_domainWrite_answers (h : Admits r s) (ha : (s.atWork r).serveDomainWrite (reqKey r) (s.clsOf r) r = (a, t)) :
    exec (.domainWrite r) s = .next (s.told r (some a) t) :=
  onPath_answers h (congrArg answerOf ha)

theorem exec_segment_answers {counter : Nat} {o : Option Answer} (h : Admits r s)
    (ha : (s.atWork r).serveSegment (reqKey r) (s.clsOf r) r counter = (o, t)) : exec (.segment r counter) s = .next (s.told r o t) :=
  onPath_answers h ha

theorem exec_domainAbort_answers (h : Admits r s) (ha : (s.atWork r).serveAbort (reqKey r) r = (a, t)) :
    exec (.domainAbort r) s = .next (s.told r (some a) t) :=
  onPath_answers h (congrArg answerOf ha)

theorem exec_segmentAck_answers {counter : Nat} {o : Option Answer} (h : Admits r s)
    (ha : (s.atWork r).serveSegmentAck (reqKey r) (s.clsOf r) r counter = (o, t)) : exec (.segmentAck r counter) s = .next (s.told r o t) :=
  onPath_answers h ha

end Admitted

/-! ### Duplicates (R75) -/

section Duplicates

variable {s : State} {r : DictReq}

/-- A request on CAN or UDP that repeats its session's last sequence number within 100 ms is a duplicate. -/
theorem isDuplicate_of_repeat (hp : r.path = 0 ∨ r.path = 3) (hq : (s.session (reqKey r)).dupSeq = some r.seq)
    (ht : s.time.now ≤ (s.session (reqKey r)).dupAt + 100000000) : s.isDuplicate (reqKey r) r = true := by
  simp [State.isDuplicate, hp, hq, ht]

/-- A duplicate is answered from its session, whatever its command would have done. -/
theorem onPath_duplicate {cmd : Nat} {f : Nat → Nat → State → Option Answer × State} (hp : r.path = 0 ∨ r.path = 3)
    (hv : s.pathServed r = true) (hc : s.clientOk r = true) (hq : (s.session (reqKey r)).dupSeq = some r.seq)
    (ht : s.time.now ≤ (s.session (reqKey r)).dupAt + 100000000) :
    onPath r s (fun s => s.handle r cmd f) =
      .next (((s.heard r).visit (reqKey r) (s.clsOf r)).sendAnswer r (s.session (reqKey r)).kept) := by
  have repeated : (s.heard r).isDuplicate (sessionKey r.path r.who) r = true :=
    isDuplicate_of_repeat hp (by simpa using hq) (by simpa using ht)
  rw [onPath, if_neg (by omega), if_neg (by simp [hv]), if_neg (by simp [hc])]
  simp only [State.handle, repeated, if_true, State.heard_session]
  rfl

end Duplicates

/-- Settles O52: the refusal of each request, in the state that serves it. -/
theorem refusedRequestChangesNothing : Obligations.RefusedRequestChangesNothing := by
  intro s r st h h0
  rw [← s.atWork_epoch r]
  exact ⟨fun hj => ⟨exec_write_answers h (serveWrite_refused hj h0), exec_domainWrite_answers h (serveDomainWrite_refused hj h0),
      fun _ => exec_segment_answers h (serveSegment_refused hj h0)⟩,
    fun hj => ⟨exec_read_answers h (serveRead_refused hj h0), exec_domainRead_answers h (serveDomainRead_refused hj h0),
      fun _ => exec_segmentAck_answers h (serveSegmentAck_refused hj h0)⟩⟩

/-- Settles O55: each of the seven commands is handled on its path, where a duplicate is answered. -/
theorem duplicateIsNotExecuted : Obligations.DuplicateIsNotExecuted := by
  intro s r counter i hi hp hv hc hq ht
  simp only [List.mem_cons, List.not_mem_nil, or_false] at hi
  rcases hi with rfl | rfl | rfl | rfl | rfl | rfl | rfl
  all_goals exact onPath_duplicate hp hv hc hq ht

end Sys2Proof.Machine

/-!
PROOFS. Writes of settings (R81 to R83, R601): inside a transaction the value is staged, outside one it is an implicit commit.
-/

namespace Sys2Proof.Machine

/-! ### A setting that may be written -/

section Settings

variable {s : State} {k cls cmd b : Nat} {ty : ObjTy} {acc : Acc} {v : Staged} {dom late : Bool}

/-- Every check of R601 lets a session write a setting, and the value that the device holds of it is the one of `v`. -/
structure SettingWrite (s : State) (k cls : Nat) (ty : ObjTy) (acc : Acc) (v : Staged) : Prop where
  may : MayWrite s cls v.idx v.sub ty acc (s.openTxn k)
  stored : acc ≠ .wo
  plain : sessionObject v.idx v.sub = false
  ofDevice : v.idx ≠ 0x900E
  room : s.fullTxn k v.idx v.sub = false
  apart : s.openTxn k = false → s.overlapsNow k cls v.idx v.sub ty v.written = false
  held : s.holdWrite (s.judgedAgainst k) v.idx v.sub v.written = (0, v.bytes, v.adj)

/-- Adjusted, a write is counted for its class (R63). -/
def State.countedFor (s : State) (cls : Nat) (v : Staged) : State := if v.adj then s.countAdjusted cls v.idx v.sub else s

theorem fullTxn_closed {idx sub : Nat} (ho : s.openTxn k = false) : s.fullTxn k idx sub = false := by
  simp [State.fullTxn, ho]

/-- The transaction command is no setting. -/
theorem SettingWrite.not_txnCommand (h : SettingWrite s k cls ty acc v) : ¬(v.idx = 0x1F00 ∧ v.sub = 1) := by
  rintro ⟨hi, hs⟩
  have entry := h.may.entry
  rw [hi, hs] at entry
  have command : objAccess s.cfg.dies 0x1F00 1 = some (.enum8, .wo) := rfl
  rw [command] at entry
  simp only [Option.some.injEq, Prod.mk.injEq] at entry
  exact h.stored entry.2.symm

theorem SettingWrite.writeCheck_eq (h : SettingWrite s k cls ty acc v) :
    s.writeCheck k cls v.idx v.sub ty acc v.written = 0 := by
  have apart : (!s.openTxn k && s.overlapsNow k cls v.idx v.sub ty v.written) = false := by
    cases ho : s.openTxn k with
    | true => rfl
    | false => simp [h.apart ho]
  rw [State.writeCheck, if_neg h.not_txnCommand, if_neg (by simp [h.stored, h.plain, h.ofDevice]), if_neg (by simp [h.room]),
    if_neg (by simp [apart])]

/-- A setting that may be written is staged where its session has a transaction open, and committed implicitly where it has none. -/
theorem SettingWrite.serveWrite_eq (h : SettingWrite s k cls ty acc v) (hd : isDomain ty = dom) :
    s.serveWrite k cls cmd v.idx v.sub v.written dom =
      if s.openTxn k then (⟨cmd, v.idx, v.sub, 0, b2n v.adj + 2, 0, []⟩, (s.stageInto k v).2.countedFor cls v)
      else State.writeDone cmd cls v.idx v.sub v.adj (s.acceptCommit ⟨k, cls, 0, [v], none, none⟩) := by
  simp [State.serveWrite, State.countedFor, judge_write h.may, h.may.entry, hd, h.writeCheck_eq, h.stored, h.plain, h.ofDevice,
    h.held]

theorem SettingWrite.staged (h : SettingWrite s k cls ty acc v) (hd : isDomain ty = dom) (ho : s.openTxn k = true) :
    s.serveWrite k cls cmd v.idx v.sub v.written dom =
      (⟨cmd, v.idx, v.sub, 0, b2n v.adj + 2, 0, []⟩, (s.stageInto k v).2.countedFor cls v) := by
  rw [h.serveWrite_eq hd, if_pos ho]

theorem SettingWrite.committed (h : SettingWrite s k cls ty acc v) (hd : isDomain ty = dom) (ho : s.openTxn k = false)
    (ha : Acceptable s ⟨k, cls, 0, [v], none, none⟩ b late) :
    s.serveWrite k cls cmd v.idx v.sub v.written dom =
      (⟨cmd, v.idx, v.sub, 0, b2n v.adj + 8 * b2n late, b, []⟩,
        (s.accepted ⟨k, cls, 0, [v], none, none⟩).countedFor cls v) := by
  rw [h.serveWrite_eq hd, if_neg (by simp [ho]), acceptCommit_acceptable ha]
  simp [State.writeDone, State.countedFor]

end Settings

/-! ### The values that a transaction holds (R82) -/

section Staging

variable {s : State} {k : Nat} {v : Staged}

theorem mem_stage (l : List Staged) (v : Staged) : v ∈ stage l v := by
  induction l with
  | nil => simp [stage]
  | cons x t ih =>
    simp only [stage]
    split
    · simp
    · simp [ih]

/-- A staged value takes the place of an earlier one of its object, or a place of its own. -/
theorem length_stage (l : List Staged) (v : Staged) :
    (stage l v).length = if l.any (fun w => w.idx = v.idx && w.sub = v.sub) then l.length else l.length + 1 := by
  induction l with
  | nil => rfl
  | cons x t ih =>
    by_cases hx : x.idx = v.idx ∧ x.sub = v.sub
    · simp [stage, hx]
    · have other : (decide (x.idx = v.idx) && decide (x.sub = v.sub)) = false := by simpa using hx
      rw [stage, if_neg hx, List.length_cons, ih, List.any_cons, other, Bool.false_or]
      split <;> rfl

/-- A transaction that is not full for an object holds at most 256 values with it. -/
theorem length_stage_le (ho : s.openTxn k = true) (hf : s.fullTxn k v.idx v.sub = false) (hl : (s.staged k).length ≤ 256) :
    (stage (s.staged k) v).length ≤ 256 := by
  rw [length_stage]
  split
  · exact hl
  case isFalse new =>
    simp only [State.fullTxn, ho, Bool.true_and, Bool.and_eq_false_iff, Bool.not_eq_false', decide_eq_false_iff_not] at hf
    have := hf.resolve_left new
    omega

/-- Where a transaction has room for a value, the value is staged, and nothing but the transaction and its session changes. -/
theorem stageInto_room (ho : s.openTxn k = true) (hf : s.fullTxn k v.idx v.sub = false) (hl : (s.staged k).length ≤ 256) :
    let x := s.session k
    let l := stage (s.staged k) v
    (s.stageInto k v).2 = (s.setSlot x.slot { s.slot x.slot with staged := l }).setSession k { x with count := l.length } := by
  have held : s.staged k = (s.slot (s.session k).slot).staged := if_pos ho
  have fits := length_stage_le ho hf hl
  rw [held] at fits ⊢
  rw [State.stageInto, if_neg (by omega)]

/-- The staged values of a session whose transaction is set. -/
theorem staged_setSlot_setSession {x : Session} {sl : Slot} (h : x.slot ≠ 0) (h1 : x.state = 1) :
    ((s.setSlot x.slot sl).setSession k x).staged k = sl.staged := by
  have session : ((s.setSlot x.slot sl).setSession k x).session k = x := by
    simp [State.session, State.setSession, tgetD]
  have slot : ((s.setSlot x.slot sl).setSession k x).slot x.slot = sl := by
    simp [State.slot, State.setSession, State.setSlot, tgetD]
  simp [State.staged, State.openTxn, session, slot, h, h1]

end Staging

/-- Settles O56: the write is staged, and its transaction has room for it. -/
theorem stagedWriteLeavesActiveValues : Obligations.StagedWriteLeavesActiveValues := by
  intro s r ty acc v w h hm ho hw hd hp h9 hf hl hh
  let a : Staged := ⟨r.idx, r.sub, v, false, r.data⟩
  have setting : SettingWrite w (reqKey r) (s.clsOf r) ty acc a :=
    ⟨by rwa [ho], hw, hp, h9, hf, by simp [ho], hh⟩
  have room : (w.stageInto (reqKey r) a).2 = _ := stageInto_room ho hf hl
  have live : (w.session (reqKey r)).slot ≠ 0 ∧ (w.session (reqKey r)).state = 1 := by simpa [State.openTxn] using ho
  refine ⟨(w.stageInto (reqKey r) a).2, ?answer, ?store, ?domains, ?staged⟩
  case answer => exact exec_write_answers h (setting.staged hd ho)
  case store => rw [room]; rfl
  case domains => rw [room]; rfl
  case staged =>
    rw [room]
    have values := staged_setSlot_setSession (s := w) (k := reqKey r)
      (x := { w.session (reqKey r) with count := (stage (w.staged (reqKey r)) a).length })
      (sl := { w.slot (w.session (reqKey r)).slot with staged := stage (w.staged (reqKey r)) a }) live.1 live.2
    exact values ▸ mem_stage _ a

end Sys2Proof.Machine

/-!
PROOFS. The rows of requests (chapter 3): reads, writes, the transfers of a DOMAIN (R76) and what the paths send of themselves (R74, R77,
R79, R80), each answered where its guard holds.
-/

namespace Sys2Proof.Machine

/-! ### A number among the data of a request -/

theorem Gives.length_le {data : List Nat} {n v : Nat} (h : Gives data n v) : n ≤ data.length := by
  obtain ⟨-, k, rfl⟩ := h
  simp [length_leBytes]

theorem Gives.field_eq {data : List Nat} {n v : Nat} (h : Gives data n v) : field data 0 n = v := by
  have long : n - data.length = 0 := by have := h.length_le; omega
  rw [field, slice, List.drop_zero, fit, h.take_eq, long]
  simpa [zeros] using ofLe_leBytes n v h.1

/-! ### Transfers of a DOMAIN (R76) -/

section Transfers

variable {s : State} {k cls counter : Nat} {r : DictReq} {ty : ObjTy} {acc : Acc} {x : Xfer}

/-- A DOMAIN READ of no bytes is answered at once. -/
theorem serveDomainRead_empty (h : MayRead s cls r.idx r.sub ty) (hd : isDomain ty = true) (hx : (s.session k).xfer = none)
    (hb : s.readBytes k cls r.idx r.sub = []) :
    s.serveDomainRead k cls r = (⟨3, r.idx, r.sub, 0, 0, s.epoch, []⟩, s.afterRead r.idx r.sub) := by
  obtain ⟨acc, he, -⟩ := h.entry
  simp [State.serveDomainRead, judge_read h, he, hd, hx, hb, plainAnswer]

/-- A DOMAIN READ of some bytes starts the transfer. -/
theorem serveDomainRead_starts (h : MayRead s cls r.idx r.sub ty) (hd : isDomain ty = true) (hx : (s.session k).xfer = none)
    (hb : s.readBytes k cls r.idx r.sub ≠ []) :
    let b := s.readBytes k cls r.idx r.sub
    let s1 := s.afterRead r.idx r.sub
    s.serveDomainRead k cls r = (⟨3, r.idx, r.sub, 0, 4, s.epoch, []⟩, s1.setSession k { s1.session k with
      xfer := some ⟨false, r.idx, r.sub, b.length, b, 0, 0, s.time.now, r.bus, r.seq, clientByte r⟩ }) := by
  obtain ⟨acc, he, -⟩ := h.entry
  simp [State.serveDomainRead, judge_read h, he, hd, hx, hb]

/-- A DOMAIN WRITE of a length that the object and a transfer can have opens the transfer. -/
theorem serveDomainWrite_opens {m n : Nat} (h : MayWrite s cls r.idx r.sub (.domain m) acc (s.openTxn k))
    (hx : (s.session k).xfer = none) (hf : acc ≠ .wo → r.idx ≠ 0x900E → s.fullTxn k r.idx r.sub = false) (hg : Gives r.data 4 n)
    (h1 : 1 ≤ n) (hm : n ≤ m) (ht : n ≤ maxTransfer) :
    s.serveDomainWrite k cls r = (⟨4, r.idx, r.sub, 0, 0, s.epoch, []⟩, s.setSession k { s.session k with
      xfer := some ⟨true, r.idx, r.sub, n, [], 0, 0, s.time.now, r.bus, r.seq, clientByte r⟩ }) := by
  have room : ¬(acc ≠ .wo ∧ r.idx ≠ 0x900E ∧ s.fullTxn k r.idx r.sub = true) := fun ⟨hw, h9, h⟩ => by simp [hf hw h9] at h
  have data := hg.length_le
  simp only [State.serveDomainWrite, judge_write h, h.entry, hx, hg.field_eq]
  rw [if_neg (by simp), if_neg (by simp), if_neg room, if_neg (by omega), if_neg (by omega), if_neg (by omega)]
  rfl

/-- The next segment in order, short of the whole length, joins the transfer; each sixteenth is acknowledged. -/
theorem serveSegment_appends (h : MayWrite s cls r.idx r.sub ty acc (s.openTxn k)) (hx : (s.session k).xfer = some x)
    (hw : x.write = true) (hi : x.idx = r.idx) (hs : x.sub = r.sub) (hc : counter = x.next) (h1 : 1 ≤ r.data.length)
    (h52 : r.data.length ≤ 52) (ht : x.bytes.length + r.data.length < x.total) :
    s.serveSegment k cls r counter =
      (if (counter + 1) % 16 = 0 then some ⟨5, r.idx, r.sub, 0, 0, s.epoch, leBytes 2 (counter + 1)⟩ else none,
        s.setSession k { s.session k with
          xfer := some { x with bytes := x.bytes ++ r.data, next := counter + 1, last := s.time.now } }) := by
  have more : (x.bytes ++ r.data).length ≠ x.total := by rw [List.length_append]; omega
  simp only [State.serveSegment, judge_write h, hx]
  rw [if_neg (by simp), if_neg (by simp [hw, hi, hs]), if_neg (by omega), if_neg (by omega), if_neg (by omega), if_neg more]

/-- An acknowledgement of the segments sent ends the transfer where it is of the last one, and lets it go on elsewhere. -/
theorem serveSegmentAck_sent (h : MayRead s cls r.idx r.sub ty) (hx : (s.session k).xfer = some x) (hw : x.write = false)
    (hi : x.idx = r.idx) (hs : x.sub = r.sub) (h1 : 1 ≤ counter) (ha : x.acked ≤ counter) (hn : counter ≤ x.next) :
    s.serveSegmentAck k cls r counter = (none, if counter = segments x.total then s.endTransfer k
      else s.setSession k { s.session k with xfer := some { x with acked := counter, next := counter, last := s.time.now } }) := by
  have unwrapped : (if counter = 0 ∧ x.next = 65536 ∧ 65520 ≤ x.acked then 65536 else counter) = counter := if_neg (by omega)
  simp only [State.serveSegmentAck, judge_read h, hx, unwrapped]
  rw [if_neg (by simp), if_neg (by simp [hw, hi, hs, hn]), if_neg (by omega)]
  split <;> rfl

end Transfers

/-! ### The rows of requests -/

section RequestRows

variable {s : State} {r : DictReq} {counter : Nat}

theorem heard_epoch : (s.heard r).epoch = s.epoch := by
  unfold State.heard
  split <;> rfl

/-- A command that R74 does not list is answered at once, and no repeat of it is kept. -/
theorem exec_unknownCommand {cmd : Nat} (hp : r.path ≤ 5) (hv : s.pathServed r = true) (hc : s.clientOk r = true) :
    let w := (s.heard r).visit (reqKey r) (s.clsOf r)
    exec (.unknownCommand r cmd) s =
      .next (((w.setSession (reqKey r) { w.session (reqKey r) with dupSeq := none }).bump 0x1003 (r.path + 1)).sendAnswer r
        (some ⟨cmd, r.idx, r.sub, 0x0101, 0, s.epoch, []⟩)) := by
  intro w
  change execUnknownCommand r cmd s = _
  rw [execUnknownCommand, onPath, if_neg (by omega), if_neg (by simp [hv]), if_neg (by simp [hc])]
  simp only [State.unknownCmd, heard_epoch]
  rfl

/-- A datagram for the device, of a listed source, well formed, with its tag and a new nonce, is served. -/
theorem exec_udpDatagram {lane e : Nat} {h : UdpHdr} {bytes : List Nat} (hu : s.answers = true) (hr : s.boot.restricted = false)
    (hf : s.udpForUs lane h.destIp h.destPort = true) (he : s.udpEntry h.sourceIp = some e) (h1 : 1 ≤ field bytes 1 1)
    (h16 : field bytes 1 1 ≤ 16) (hl : bytes.length = 24 + 64 * field bytes 1 1) (hv : field bytes 0 1 = 1)
    (ht : s.udpTag h.sourceIp (bytes.take (8 + 64 * field bytes 1 1)) = some (bytes.drop (8 + 64 * field bytes 1 1)))
    (hn : tgetD s.dict.nonces h.sourceIp 0 < field bytes 4 4) :
    exec (.udpDatagram lane h bytes) s = .next (s.serveDatagram e h.sourceIp h.sourcePort bytes) := by
  change execUdpDatagram lane h bytes s = _
  rw [execUdpDatagram, if_neg (by simp [hu, hr, hf])]
  simp only [he]
  rw [if_neg (by omega), if_neg (by simp [ht]), if_neg (by omega)]

/-- A transfer that has heard nothing for 100 ms ends, and its session is told so. -/
theorem exec_domainTransferTimeout {k : Nat} {x : Xfer} (hx : (s.session k).xfer = some x) (ht : x.last + 100000000 ≤ s.time.now) :
    exec (.domainTransferTimeout k) s =
      .next ((s.endTransfer k).tellSession k x ⟨if x.write then 5 else 3, x.idx, x.sub, 0x0303, 0, s.epoch, []⟩) := by
  change execDomainTransferTimeout k s = _
  simp only [execDomainTransferTimeout, hx, if_neg (Nat.not_lt.mpr ht)]
  rfl

theorem exec_canHeartbeat (hu : s.answers = true) : exec .canHeartbeat s = .next (s.canErrors.heartbeat s.heartbeatState) := by
  change execCanHeartbeat s = _
  rw [execCanHeartbeat, if_neg (by simp [hu])]

end RequestRows

/-- Settles O3: what the service does with each request, in the state that serves it. -/
theorem requestRowsComplete : Obligations.RequestRowsComplete := by
  intro s r
  rw [← s.atWork_epoch r]
  refine ⟨?read, ?write, ?domainRead, ?domainWrite, ?segment, fun h => exec_domainAbort_answers h rfl, ?segmentAck,
    ?unknown, ?datagram, ?timeout, ?heartbeat⟩
  case read => exact fun ty h hm hd => exec_read_answers h (serveRead_ok hm hd)
  case write =>
    intro ty acc held adj b late w a h hm hd hw hp h9 ho hv hh ha
    have setting : SettingWrite w (reqKey r) (s.clsOf r) ty acc ⟨r.idx, r.sub, held, adj, r.data⟩ :=
      ⟨hm, hw, hp, h9, fullTxn_closed ho, fun _ => hv, hh⟩
    exact exec_write_answers h (setting.committed hd ho ha)
  case domainRead =>
    intro ty w b w1 h hm hd hx
    rw [← s.atWork_time r]
    exact ⟨fun hb => exec_domainRead_answers h (serveDomainRead_empty hm hd hx hb),
      fun hb => exec_domainRead_answers h (serveDomainRead_starts hm hd hx hb)⟩
  case domainWrite =>
    intro m acc n w h hm hx hf hg h1 hn ht
    rw [State.done, ← s.atWork_epoch r, ← s.atWork_time r]
    exact exec_domainWrite_answers h (serveDomainWrite_opens hm hx hf hg h1 hn ht)
  case segment =>
    intro counter ty acc x w h hm hx hw hi hs hc h1 h52 ht
    rw [← s.atWork_time r]
    exact exec_segment_answers h (serveSegment_appends hm hx hw hi hs hc h1 h52 ht)
  case segmentAck =>
    intro counter ty x w h hm hx hw hi hs h1 ha hn
    have sent := exec_segmentAck_answers h (serveSegmentAck_sent hm hx hw hi hs h1 ha hn)
    rw [s.atWork_time r] at sent
    exact ⟨fun hl => by rw [sent, if_pos hl], fun hl => by rw [sent, if_neg hl]⟩
  case unknown =>
    intro cmd w hp hv hc
    rw [s.atWork_epoch r]
    exact exec_unknownCommand hp hv hc
  case datagram => exact fun _ _ _ _ => exec_udpDatagram
  case timeout =>
    intro k x hx ht
    rw [s.atWork_epoch r]
    exact exec_domainTransferTimeout hx ht
  case heartbeat => exact exec_canHeartbeat

end Sys2Proof.Machine

/-!
PROOFS. The rows that write a setting (R137, R139, R141, R182): the values that the device holds of them, and the service of their writes.
-/

namespace Sys2Proof.Machine

section SettingRows

variable {s : State} {r q : DictReq} {i : Instr} {cmd n : Nat} {ty : ObjTy} {held : List Nat}

/-- A row writes a setting: its answer is the one of the write that the service makes of it, and the device holds its value as `held`. -/
structure SettingRow (s : State) (i : Instr) (q : DictReq) (cmd : Nat) (ty : ObjTy) (held : List Nat) : Prop where
  answers : Admits q s → ∀ {a : Answer} {t : State},
    (s.atWork q).serveWrite (reqKey q) (s.clsOf q) cmd q.idx q.sub q.data (isDomain ty) = (a, t) → exec i s = .next (s.told q (some a) t)
  plain : sessionObject q.idx q.sub = false
  ofDevice : q.idx ≠ 0x900E
  holds : (s.atWork q).holdWrite ((s.atWork q).judgedAgainst (reqKey q)) q.idx q.sub q.data = (0, held, decide (held ≠ q.data))

/-- The take commands are held as given. -/
theorem holdWrite_takeCommand (s c : State) (h : n ≤ 3) : s.holdWrite c 0x2220 1 [n] = (0, [n], false) := by
  have bytes : leBytes 1 n = [n] := by simp [leBytes]; omega
  have given : Gives [n] 1 n := ⟨by omega, 0, by simp [bytes, zeros]⟩
  rw [holdWrite_num (row := ⟨0x2220, 0x2220, false, 1, 1, .enum8, .rw, 0, .enum 0 3 0⟩) rfl rfl nofun nofun nofun given
    (by simp [heldInRange, h]) (heldIn_any (by simp))]
  exact congrArg (fun l => (0, l, false)) bytes

/-- A load of reservations that is not refused is held within the pool's count (R182). -/
theorem holdWrite_reservations (s c : State) {data : List Nat} (hl : data.length ≤ 2052) (hb : s.reservationsBad data = false) :
    s.holdWrite c 0x5203 0 data = (0, s.heldReservations c data, decide (s.heldReservations c data ≠ data)) := by
  have row : findRow s.cfg.dies 0x5203 0 = some ⟨0x5203, 0x5203, false, 0, 0, .domain 2052, .rw, 0, .any⟩ := rfl
  have unlimited : s.isLimited 0x5203 0 = false := by simp [State.isLimited, row]
  simp [State.holdWrite, State.holdValue, State.fuses, row, unlimited, hb, Nat.not_lt.mpr hl]

/-- A take command writes 0x2220:01. -/
theorem settingRow_takeCommand (hi : exec i s = writeOn (reqFor r 0x2220 1 [n]) s) (hn : n ≤ 3) :
    SettingRow s i (reqFor r 0x2220 1 [n]) 2 .enum8 [n] where
  answers h _ _ ha := hi.trans (onPath_answers h (congrArg answerOf ha))
  plain := rfl
  ofDevice := nofun
  holds := by simpa [reqFor] using holdWrite_takeCommand _ _ hn

/-- RESERVATIONS_LOAD writes the DOMAIN 0x5203 whole. -/
theorem settingRow_reservationsLoad : let q := reqFor r 0x5203 0 r.data
    r.data.length ≤ 2052 → (s.atWork q).reservationsBad r.data = false →
    SettingRow s (.reservationsLoad r) q 4 (.domain 2052)
      ((s.atWork q).heldReservations ((s.atWork q).judgedAgainst (reqKey q)) r.data) := by
  intro q hl hb
  exact ⟨fun h _ _ ha => onPath_answers h (congrArg answerOf ha), rfl, nofun, holdWrite_reservations _ _ hl hb⟩

end SettingRows

/-- Settles O6: each row writes a setting, which is committed implicitly outside a transaction and staged inside one. -/
theorem settingRowsComplete : Obligations.SettingRowsComplete := by
  intro s r q i cmd ty held w hrow h hm hload adj counted
  have row : SettingRow s i q cmd ty held := by
    simp only [List.mem_cons, List.not_mem_nil, or_false, Prod.mk.injEq] at hrow
    rcases hrow with ⟨rfl, rfl, rfl, rfl, rfl⟩ | ⟨rfl, rfl, rfl, rfl, rfl⟩ | ⟨rfl, rfl, rfl, rfl, rfl⟩ | ⟨rfl, rfl, rfl, rfl, rfl⟩
    · exact settingRow_takeCommand rfl (by decide)
    · exact settingRow_takeCommand rfl (by decide)
    · exact settingRow_takeCommand rfl (by decide)
    · exact settingRow_reservationsLoad (hload rfl).1 (hload rfl).2
  have setting (hf : w.fullTxn (reqKey q) q.idx q.sub = false)
      (hv : w.openTxn (reqKey q) = false → w.overlapsNow (reqKey q) (s.clsOf q) q.idx q.sub ty q.data = false) :
      SettingWrite w (reqKey q) (s.clsOf q) ty .rw ⟨q.idx, q.sub, held, adj, q.data⟩ :=
    ⟨hm, nofun, row.plain, row.ofDevice, hf, hv, row.holds⟩
  refine ⟨?committed, fun ho hf => ?staged⟩
  case committed =>
    intro b late a ho hv ha
    exact row.answers h ((setting (fullTxn_closed ho) fun _ => hv).committed rfl ho ha)
  case staged => exact row.answers h ((setting hf (by simp [ho])).staged rfl ho)

end Sys2Proof.Machine

/-!
PROOFS. DICTIONARY_READ and DICTIONARY_WRITE (R295): a request of the controller's session, served without a path of its own and answered in
the command's completion.
-/

namespace Sys2Proof.Machine

section DictionaryCommands

variable {s w : State} {q : CmdRef} {r : DictReq} {cls index sub ndt offset : Nat} {ty : ObjTy} {acc : Acc} {inTxn : Bool}

/-- A request that is no CAN frame is executed once, and its answer is kept. -/
theorem handle_answers {cmd : Nat} {f : Nat → Nat → State → Option Answer × State} {o : Option Answer} {t : State} (h : Admits r s)
    (hp : r.path ≠ 0) (hf : f (reqKey r) (s.clsOf r) (s.atWork r) = (o, t)) :
    s.handle r cmd f = (o, t.keepAnswer r s.time.now o) := by
  have handled := handle_pos (cmd := cmd) h f
  rwa [show s.heard r = s from if_neg hp, hf] at handled

theorem MayRead.namesDomain_eq (h : MayRead w cls index sub ty) : w.namesDomain index sub = isDomain ty := by
  obtain ⟨acc, he, -⟩ := h.entry
  simp [State.namesDomain, he]

theorem MayWrite.namesDomain_eq (h : MayWrite w cls index sub ty acc inTxn) : w.namesDomain index sub = isDomain ty := by
  simp [State.namesDomain, h.entry]

theorem atWork_namesDomain (s : State) (r : DictReq) (index sub : Nat) :
    (s.atWork r).namesDomain index sub = s.namesDomain index sub := by
  rw [State.namesDomain, State.atWork_cfg]
  rfl

/-- The request of a dictionary command (R295). -/
abbrev dictAsk (q : CmdRef) (index sub : Nat) (data : List Nat) : DictReq := ⟨1, q.cntl, 0, 0, 0, index, sub, data⟩

/-- An admitted Dictionary Read that the checks pass returns the piece that fits, with MORE where bytes of a DOMAIN remain. -/
theorem exec_dictionaryRead (hs : Started q s) : let s0 := s.countVendor true 0xC2
    let r := dictAsk q index sub []
    let whole := s0.readBytes (reqKey r) (s0.clsOf r) index sub
    let x : Answer := ⟨1, index, sub, 0, if isDomain ty && decide (offset + 4 * ndt < whole.length) then 4 else 0, s0.epoch, []⟩
    Admits r s0 → MayRead (s0.atWork r) (s0.clsOf r) index sub ty →
    exec (.dictionaryRead q ndt index sub offset) s = .next (((((s0.atWork r).afterRead index sub).keepAnswer r s0.time.now
      (some x)).dataOut q ((if isDomain ty then whole.drop offset else whole).take (4 * ndt))).dictDone q x whole.length) := by
  intro s0 r whole x h hm
  have dom : s0.namesDomain index sub = isDomain ty := by rw [← atWork_namesDomain s0 r, hm.namesDomain_eq]
  have served : s0.pathServed r = true := h.served
  change execDictionaryRead q ndt index sub offset s = _
  rw [execDictionaryRead, startCmd_pos hs]
  dsimp only
  rw [dom, if_neg (by rw [served]; decide), handle_answers (t := (s0.atWork r).afterRead index sub)
    (o := some x) h nofun ?served]
  case served => simp [judge_read hm, x, whole]; rfl
  rfl

/-- An admitted Dictionary Write of a value that is no DOMAIN is answered as the service answers the write. -/
theorem exec_dictionaryWrite {total : Nat} {last : Bool} {data : List Nat} {x : Answer} {t : State} (hs : Started q s) :
    let s0 := s.countVendor true 0xC1
    let r := dictAsk q index sub (fit (4 * ndt) data)
    let w := s0.atWork r
    Admits r s0 → MayWrite w (s0.clsOf r) index sub ty acc inTxn → isDomain ty = false →
    w.serveWrite (reqKey r) (s0.clsOf r) 2 index sub r.data false = (x, t) →
    exec (.dictionaryWrite q ndt index sub offset last total data) s =
      .next ((t.keepAnswer r s0.time.now (some x)).dictDone q x x.epoch) := by
  intro s0 r w h hm hd hw
  have dom : w.namesDomain index sub = false := hm.namesDomain_eq.trans hd
  have free : s.fault.safeHold = false := by
    have := hm.free
    rwa [State.atWork_fault] at this
  have served : s0.pathServed r = true := h.served
  change execDictionaryWrite q ndt index sub offset last total data s = _
  rw [execDictionaryWrite, startCmd_pos hs]
  dsimp only
  rw [if_neg (by rw [served]; decide), if_neg (by simp [free]), handle_answers (t := t) (o := some x)
    h nofun ?served]
  case served =>
    rw [if_pos (by simpa using dom)]
    exact congrArg answerOf hw
  rfl

end DictionaryCommands

/-- Settles O16: the two commands, in the state that has counted them. -/
theorem dictionaryCommandsComplete : Obligations.DictionaryCommandsComplete := by
  intro s q index sub ndt ty hs
  refine ⟨?read, ?write⟩
  case read =>
    intro offset s0 r whole read h hm
    have answered := exec_dictionaryRead (ndt := ndt) (offset := offset) hs h hm
    refine ⟨fun hd => ?_, fun hd => ?_⟩
    · simp only [hd, Bool.false_and, Bool.false_eq_true, if_false] at answered
      exact answered
    · simp only [hd, Bool.true_and, decide_eq_true_eq, if_true] at answered
      exact answered
  case write =>
    intro data offset total last held adj b late acc s0 r w a x h hm hd hw hp h9 ho hv hh ha
    have setting : SettingWrite w (reqKey r) (s0.clsOf r) ty acc ⟨index, sub, held, adj, r.data⟩ :=
      ⟨hm, hw, hp, h9, fullTxn_closed ho, fun _ => hv, hh⟩
    exact exec_dictionaryWrite hs h hm hd (setting.committed hd ho ha)

end Sys2Proof.Machine

/-!
PROOFS. The rows that write an object which acts at once (R82): an engine reset that reaches a die whose own reset runs is absorbed (R533), so
that the object does not act there.
-/

namespace Sys2Proof.Machine

section EngineReset

variable {s : State} {r : DictReq} {d code : Nat}

/-- An engine reset of a die under its own reset leaves the state as it is (R533). -/
theorem engineCommand_absorbed (h1 : 1 ≤ code) (h4 : code ≤ 4) (hd : d < 8) (hp : s.hasDie d = true)
    (hr : s.fault.resetting.contains d = true) : s.engineCommand (code + 256 * d) = s.acted s := by
  have engine : (code + 256 * d) % 16 = code := by omega
  have die : (code + 256 * d) / 256 % 8 = d := by omega
  simp only [State.engineCommand, engine, die, hp, hr]
  rw [if_neg (by simp; omega), if_pos (Or.inl trivial)]

/-- The row of an absorbed engine reset is answered with status 0, and nothing is reset. -/
theorem writeOn_engineReset_absorbed (h1 : 1 ≤ code) (h4 : code ≤ 4) (hd : d < 8) (hp : s.hasDie d = true)
    (hr : s.fault.resetting.contains d = true) : let q := reqFor r 0xA003 0 [code, d]
    MayCommand q .u16 s → writeOn q s = .next (s.done q 2 (s.atWork q)) := by
  intro q h
  have given : Gives [code, d] 2 (code + 256 * d) := by
    refine ⟨by omega, 0, ?_⟩
    have low : (code + 256 * d) % 256 = code := by omega
    have high : (code + 256 * d) / 256 % 256 = d := by omega
    simp [leBytes, zeros, low, high]
  have absorbed : (s.atWork q).engineCommand (code + 256 * d) = (s.atWork q).acted (s.atWork q) :=
    engineCommand_absorbed h1 h4 hd (by simpa [State.hasDie] using hp) (by simpa using hr)
  exact writeOn_command (row := ⟨0xA003, 0xA003, false, 0, 0, .u16, .wo, 0, .any⟩) h rfl rfl nofun nofun nofun given rfl
    (fun _ _ => heldIn_any (by simp [q, reqFor])) rfl nofun rfl nofun absorbed

end EngineReset

/-! ### A device whose die 0 is in a die reset -/

/-- A device in service, whose die 0 is in a die reset. -/
def dieZeroResetting : State :=
  { State.reset with
    boot := { State.reset.boot with porst := false, running := true, step := 11 }
    fault := { State.reset.fault with resetting := [0] } }

/-- A client of the test port asks for a reset of die 0's cipher engine. -/
def cipherResetAsk : DictReq := reqFor ⟨5, 1, 0, 0, 0, 0, 0, []⟩ 0xA003 0 [1, 0]

theorem cipherResetAsk_mayCommand : MayCommand cipherResetAsk .u16 dieZeroResetting where
  left :=
    { path := by decide
      up := by decide
      mode := Or.inl rfl
      frame := nofun
      client := nofun
      fresh := by decide
      room := by decide }
  right :=
    { served := by rw [Served, if_neg (by decide)]; exact Or.inl (by decide)
      object := by decide
      entry := by decide
      right := by decide
      code := nofun
      txn := nofun
      counts := by decide
      free := by decide }

/-- An engine reset is counted in 0xA190 of its die (R532); an absorbed one is not. -/
theorem resetEngine_counted : let s := dieZeroResetting
    let q := cipherResetAsk
    (s.done q 2 (s.atWork q)).obj 0xA190 1 = 0 ∧ (s.done q 2 ((s.atWork q).resetEngine 0 1)).obj 0xA190 1 = 1 := by
  decide

/-- Refutes O5: a reset of the cipher engine of die 0 is absorbed while the die itself is reset (R533), and the engine is not reset. -/
theorem not_actingRowsComplete : ¬ Obligations.ActingRowsComplete := by
  intro h
  obtain ⟨-, -, -, -, -, -, -, -, -, -, -, -, -, -, engines, -⟩ := h dieZeroResetting cipherResetAsk
  have claimed := engines 1 0 (by decide) (by decide) rfl (by decide) cipherResetAsk_mayCommand
  have absorbed := writeOn_engineReset_absorbed (r := cipherResetAsk) (code := 1) (d := 0) (by decide) (by decide) (by decide)
    (by decide : dieZeroResetting.hasDie 0 = true) rfl cipherResetAsk_mayCommand
  have same : dieZeroResetting.done cipherResetAsk 2 (dieZeroResetting.atWork cipherResetAsk) =
      dieZeroResetting.done cipherResetAsk 2 ((dieZeroResetting.atWork cipherResetAsk).resetEngine 0 1) :=
    Host.Outcome.next.inj (absorbed.symm.trans claimed)
  obtain ⟨uncounted, counted⟩ := resetEngine_counted
  rw [← same, uncounted] at counted
  exact absurd counted (by decide)

end Sys2Proof.Machine

/-!
PROOFS. The rows of the inflow lanes and their training (chapter 4): what each answers where its guard holds, one lemma a row.
-/

namespace Sys2Proof.Machine

section InflowLanes

variable {s : State} {die lane : Nat}

/-! ### Training and bonding (R96, R109, R110) -/

theorem exec_signalDetect (hl : IsLane s die lane) (hs : (s.lane die lane).state = 1)
    (ht : max (s.lane die lane).since (s.lane die lane).idleTill + 100000 ≤ s.time.now) (hu : s.usable die 7 = true) :
    exec (.signalDetect die lane) s = .next (s.enterStep die lane 2) := by
  change execSignalDetect die lane s = _
  rw [execSignalDetect, onLane_pos hl]
  dsimp only
  rw [if_neg (by omega), if_neg (by simp [hu, ht])]

/-- TRAINING_STEP_COMPLETE, by the step that the lane is at. -/
theorem exec_trainingStepComplete (hl : IsLane s die lane) :
    let x := s.lane die lane
    let k := s.portKeyOf die lane
    (x.state = 2 → exec (.trainingStepComplete die lane) s =
      .next ((s.setLane die lane { x with stored := true, signal := true }).enterStep die lane 3)) ∧
    (x.state = 3 → exec (.trainingStepComplete die lane) s =
      .next ((s.setLane die lane { x with lock := true, badCw := 0 }).enterStep die lane 4)) ∧
    (x.state = 4 → exec (.trainingStepComplete die lane) s = .next (s.delineated die lane)) ∧
    (x.state = 5 → x.version ≠ 0 → 3 ≤ x.echoes.length → exec (.trainingStepComplete die lane) s = .next (s.reachBond die lane)) ∧
    (x.state = 6 → s.allBonded k = true → exec (.trainingStepComplete die lane) s = .next (s.bringUp k (s.bonding k))) := by
  have row : exec (.trainingStepComplete die lane) s = execTrainingStepComplete die lane s := rfl
  rw [row, execTrainingStepComplete, onLane_pos hl]
  refine ⟨fun h2 => ?_, fun h3 => ?_, fun h4 => ?_, fun h5 hv he => ?_, fun h6 hb => ?_⟩
  · rw [if_pos h2]
  · rw [if_neg (by omega), if_pos h3]
  · rw [if_neg (by omega), if_neg (by omega), if_pos h4]
  · rw [if_neg (by omega), if_neg (by omega), if_neg (by omega), if_pos ⟨h5, hv, he⟩]
  · rw [if_neg (by omega), if_neg (by omega), if_neg (by omega), if_neg (by omega), if_pos ⟨h6, hb⟩]

theorem exec_trainingStepTimeout {b : Nat} (hl : IsLane s die lane) (hb : s.stepBound (s.lane die lane) = some b)
    (ht : (s.lane die lane).since + b ≤ s.time.now) :
    exec (.trainingStepTimeout die lane) s = .next (s.stepTimesOut die lane (s.lane die lane)) := by
  change execTrainingStepTimeout die lane s = _
  simp only [execTrainingStepTimeout, onLane_pos hl, hb, if_neg (Nat.not_lt.mpr ht)]

/-- The lanes at step 6 come up once one of them has stood there for 10 ms (R109). -/
theorem exec_bondDeadline (hl : IsLane s die lane)
    (ht : ∃ l ∈ s.bonding (4 * die + lane), (s.lane die l).since + 10000000 ≤ s.time.now) :
    exec (.bondDeadline die lane) s = .next (s.bringUp (4 * die + lane) (s.bonding (4 * die + lane))) := by
  have due : ((s.bonding (4 * die + lane)).any fun l => (s.lane die l).since + 10000000 ≤ s.time.now) = true := by simpa using ht
  change execBondDeadline die lane s = _
  rw [execBondDeadline, onLane_pos hl]
  dsimp only
  cases hb : s.bonding (4 * die + lane) with
  | nil => simp [hb] at due
  | cons l t =>
    rw [hb] at due
    exact if_pos due

/-! ### Lanes that are lost, and their return (R125, R126) -/

/-- A lane between steps 2 and 7 that loses its signal has failed in a port that is up, and trains again in another. -/
theorem exec_signalLoss (hl : IsLane s die lane) (h2 : 2 ≤ (s.lane die lane).state) (h7 : (s.lane die lane).state ≤ 7) :
    let x := s.lane die lane
    let s1 := s.setLane die lane { x with signal := false }
    (s.inUpPort die lane = true → exec (.signalLoss die lane) s = .next (s1.failLane die lane)) ∧
    (s.inUpPort die lane = false → exec (.signalLoss die lane) s =
      .next ((s1.setLane die lane ({ x with signal := false }.restart false)).enterStep die lane 1)) := by
  intro x s1
  have lost : exec (.signalLoss die lane) s = if s.inUpPort die lane then .next (s1.failLane die lane)
      else .next ((s1.setLane die lane ({ x with signal := false }.restart false)).enterStep die lane 1) := by
    change execSignalLoss die lane s = _
    rw [execSignalLoss, onLane_pos hl]
    exact if_pos ⟨h2, h7⟩
  exact ⟨fun hu => by rw [lost, if_pos hu], fun hu => by rw [lost, if_neg (by simp [hu])]⟩

theorem exec_laneRetrainTimer (hl : IsLane s die lane) (hs : (s.lane die lane).state = 8)
    (ht : (s.lane die lane).since + 1000000000 ≤ s.time.now) : exec (.laneRetrainTimer die lane) s = .next (s.retrain die lane) := by
  change execLaneRetrainTimer die lane s = _
  rw [execLaneRetrainTimer, onLane_pos hl]
  dsimp only
  rw [if_neg (by omega), if_neg (Nat.not_lt.mpr ht)]

/-! ### Codewords, cells in error and replay (R98, R102, R111, R112) -/

theorem exec_codewordReceived {correctable : Bool} {corrected : Nat} (hl : IsLane s die lane) (h3 : 3 ≤ (s.lane die lane).state)
    (h7 : (s.lane die lane).state ≤ 7) : exec (.codewordReceived die lane correctable corrected) s =
      .next (s.takeCodeword die lane correctable corrected (s.lane die lane)) := by
  change execCodewordReceived die lane correctable corrected s = _
  rw [execCodewordReceived, onLane_pos hl]
  dsimp only
  rw [if_neg (by omega)]

/-- A cell is in error by its codeword, its HCRC or its PCRC. -/
theorem exec_cellInError {c : BadCell} (hl : IsLane s die lane) (h4 : 4 ≤ (s.lane die lane).state) (h7 : (s.lane die lane).state ≤ 7)
    (hc : c.codeword = true ∨ hcrcOk c.bytes = false ∨ pcrcOk c.bytes = false) :
    exec (.cellInError die lane c) s = .next (s.takeBadCell die lane c.bytes) := by
  have inError : ¬((!c.codeword) = true ∧ hcrcOk c.bytes = true ∧ pcrcOk c.bytes = true) := by
    rintro ⟨hw, hh, hp⟩
    simp [hh, hp] at hc
    simp [hc] at hw
  change execCellInError die lane c s = _
  rw [execCellInError, onLane_pos hl, if_neg inError, if_neg (by omega)]

theorem exec_nakTimeout (hl : IsLane s die lane) (h7 : (s.lane die lane).state = 7) (he : (s.lane die lane).inError = true)
    (ht : (s.lane die lane).nakAt + 8000 ≤ s.time.now) : exec (.nakTimeout die lane) s = .next (s.nak die lane) := by
  change execNakTimeout die lane s = _
  rw [execNakTimeout, onLane_pos hl]
  dsimp only
  rw [if_neg (by simp [h7, he]), if_neg (Nat.not_lt.mpr ht)]

/-! ### What a port sends again (R118, R119) -/

theorem exec_creditRefresh {p : Port} (hl : IsLane s die lane) (hp : s.port (4 * die + lane) = some p) (hu : p.up = true) :
    exec (.creditRefresh die lane) s =
      .next (((s.retryPort (4 * die + lane)).returnCredits (4 * die + lane)).sendCredits (4 * die + lane)) := by
  change execCreditRefresh die lane s = _
  simp only [execCreditRefresh, onLane_pos hl, hp, if_pos hu]

/-- A message that is not acknowledged in time is repeated as often as 0x2105:02 says, and then the port is reset. -/
theorem exec_controlRetryExpiry {mseq : Nat} {p : Port} {c : CtlMsg} (hl : IsLane s die lane)
    (hp : s.port (4 * die + lane) = some p) (hc : tget p.unacked mseq = some c) (ht : c.sent + s.obj 0x2105 1 * 1000 ≤ s.time.now) :
    (c.retries < s.obj 0x2105 2 → exec (.controlRetryExpiry die lane mseq) s =
      .next ((s.setPort (4 * die + lane) { p with unacked := tset p.unacked mseq { c with
        retries := c.retries + 1, sent := s.time.now } }).emitAll (c.lanes.map fun l => controlCell die l c.msg mseq c.body))) ∧
    (s.obj 0x2105 2 ≤ c.retries → exec (.controlRetryExpiry die lane mseq) s =
      .next ((s.raise (evDie die 25) lane).resetPort (4 * die + lane) 1)) := by
  have row : exec (.controlRetryExpiry die lane mseq) s = execControlRetryExpiry die lane mseq s := rfl
  simp only [row, execControlRetryExpiry, onLane_pos hl, hp, hc, if_neg (Nat.not_lt.mpr ht)]
  exact ⟨fun again => if_pos again, fun spent => if_neg (Nat.not_lt.mpr spent)⟩

end InflowLanes

/-- Settles O7: each row's own lemma, on the lane and under the guards that the statement gives it. -/
theorem inflowLaneRowsComplete : Obligations.InflowLaneRowsComplete := by
  intro s die lane hl x k
  obtain ⟨second, third, fourth, fifth, sixth⟩ := exec_trainingStepComplete hl
  exact ⟨exec_signalDetect hl, second, third, fourth, fifth, sixth, fun _ => exec_trainingStepTimeout hl, exec_bondDeadline hl,
    exec_signalLoss hl, exec_laneRetrainTimer hl, fun _ _ => exec_codewordReceived hl, fun _ => exec_cellInError hl,
    exec_nakTimeout hl, fun _ => exec_creditRefresh hl, fun _ _ _ => exec_controlRetryExpiry hl⟩

end Sys2Proof.Machine

/-!
PROOFS. The cells of a band and the messages of the inflow control channel (chapter 4): a cell that its lane holds alone is taken by its
TYPE, and a new message is executed once.
-/

namespace Sys2Proof.Machine

/-! ### A cell that its lane holds alone (R185) -/

section Cells

variable {s t : State} {c : Cell}

@[simp] theorem State.setLane_lane_self (s : State) (d l : Nat) (x : Lane) : (s.setLane d l x).lane d l = x := by
  simp [State.setLane, State.lane, tgetD]

/-- A charged cell as it arrives in a state (R107). -/
def State.arrival (s : State) (c : Cell) : Arrival := ⟨c, (s.clock c.die).epoch, (s.clock c.die).phase, s.time.now⟩

/-- The one cell of a lane asks for a buffer once; taken, it leaves the lane with no cell waiting. -/
theorem retryCells_one {a : Arrival} (hw : (s.lane c.die c.lane).waiting = [a])
    (ht : s.takeCharged (s.portKeyOf c.die c.lane) a = (true, t)) : s.retryCells c.die c.lane 1 = State.cellGone c t := by
  simp only [State.retryCells, hw, ht]
  rfl

/-- A cell that joins no other on its lane, and that is taken there, leaves no cell waiting. -/
theorem queueCell_alone (hw : ((s.cellState c).lane c.die c.lane).waiting = [])
    (ht : (s.cellAlone c).takeCharged ((s.cellAlone c).portKeyOf c.die c.lane) ((s.cellState c).arrival c) = (true, t)) :
    (s.cellState c).queueCell c = State.cellGone c t := by
  have queued : (s.cellState c).queueCell c = (s.cellAlone c).retryCells c.die c.lane 1 := by
    simp [State.queueCell, State.cellAlone, hw]
  rw [queued]
  exact retryCells_one (by simp [State.cellAlone, State.arrival]) ht

/-- The next cell of a row's TYPE joins those of its lane; alone, it is handled as its TYPE says, and gone once it is taken. -/
theorem recvCell_next {type : Nat} (h : CellNext type c s) (h1 : 1 ≤ type) (h4 : type ≤ 4) :
    let r := (s.cellAlone c).takeCharged ((s.cellAlone c).portKeyOf c.die c.lane) ((s.cellState c).arrival c)
    recvCell type c s = .next ((s.cellState c).queueCell c) ∧
    (((s.cellState c).lane c.die c.lane).waiting = [] → r.1 = true → recvCell type c s = .next (State.cellGone c r.2)) := by
  intro r
  have joined := recvCell_pos h (by omega) (by omega)
  exact ⟨joined, fun hw hr => by rw [joined, queueCell_alone hw (Prod.ext hr rfl)]⟩

end Cells

/-! ### New messages of the control channel (R119, R120) -/

section Messages

variable {s : State} {m : CtlHdr}

/-- A request of the camera that its port's session executes is answered by a DICT RESPONSE, and acknowledged. -/
theorem exec_dictRequest {body : List Nat} {x : Answer} (h : ControlTaken m s) :
    let k := s.portKeyOf m.die m.lane
    let q := requestOf 2 k body
    let a := (s.controlFresh m).runBody q (field body 0 1)
    let b := fit 64 (x.body (field body 1 1) (clientByte q))
    (s.controlFresh m).pathServed q = true → a.1 = some x → exec (.dictRequest m body) s =
      .next (State.controlOut k m.lane m.mseq true ((a.2.sendControl k 0x11 b).sendWindow (sessionKey 2 k) 2 k, 0, b)) := by
  intro k q a b served hx
  change execDictRequest m body s = _
  rw [execDictRequest, control_pos h]
  dsimp only
  rw [if_neg (by simpa using served), show ((s.controlFresh m).runBody (requestOf 2 k body) (field body 0 1)).1 = some x from hx]
  rfl

end Messages

/-- Settles O8: each cell is one of its row's TYPE that is next on its lane, and each message is new. -/
theorem inflowMessageRowsComplete : Obligations.InflowMessageRowsComplete := by
  intro s
  refine ⟨?cells, fun m h => ?messages⟩
  case cells =>
    intro type c i f hrow h
    simp only [List.mem_cons, List.not_mem_nil, or_false, Prod.mk.injEq] at hrow
    rcases hrow with ⟨rfl, rfl, rfl⟩ | ⟨rfl, rfl, rfl⟩ | ⟨rfl, rfl, rfl⟩ | ⟨rfl, rfl, rfl⟩
    all_goals
      have row := recvCell_next h (by decide) (by decide)
      simp only [State.takeCharged, State.arrival, h.kind] at row
      exact row
  case messages =>
    refine ⟨fun low high index width replay camera => ?hello, fun sent => ?echo, fun sent held now => ?echoReply,
      fun acked status => ?ack, fun _ => ?portReset, fun _ => ?unknown, fun _ _ => exec_dictRequest h⟩
    case hello => exact control_pos (act := fun k t => t.hello k m low high index width replay camera) h
    case echo =>
      exact control_pos (act := fun k t =>
        ((t.useFree).sendOn k [m.lane] 3 (leBytes 8 sent ++ leBytes 8 (t.freeValue % 2 ^ 64)), 0, [])) h
    case echoReply => exact control_pos (act := fun _ t => t.echoReply m sent held now) h
    case ack => exact control_pos (act := fun k t => t.controlAcked k acked status) h
    case portReset => exact control_pos (act := fun k t => (t.resetPort k 0, 0, [])) h
    case unknown => exact control_pos (act := fun _ t => (t, 1, [])) h

end Sys2Proof.Machine

/-!
PROOFS. The rows by which bands, frames and takes end (chapter 5): what each answers where its guard holds, one lemma a row.
-/

namespace Sys2Proof.Machine

section TakeRows

variable {s : State} {die first nsid take spring frame band : Nat} {t : Take} {f : Frame} {b : Band}

/-- RESERVE goes to a port that an open take uses (R122). -/
theorem exec_reserveSend (hl : IsLane s die first)
    (ho : (s.take.takes.any fun t => t.state = 1 && (Take.ports t).contains (4 * die + first)) = true) :
    exec (.reserveSend die first) s = .next (s.sendReserve (4 * die + first)) := by
  change execReserveSend die first s = _
  rw [execReserveSend, onLane_pos hl, if_pos ho]

theorem exec_bandEndTimeout (hl : IsLane s die first)
    (hb : ((s.port (4 * die + first)).bind fun p => Port.band p spring frame band) = some b)
    (ht : b.since + s.frameLimit spring frame ≤ s.time.now) :
    exec (.bandEndTimeout die first spring frame band) s = .next (s.completeBand (4 * die + first) b true) := by
  change execBandEndTimeout die first spring frame band s = _
  simp only [execBandEndTimeout, onLane_pos hl, hb, if_neg (Nat.not_lt.mpr ht)]

theorem exec_frameCompletionTimeout (hf : s.findFrame spring frame = some (t, f)) (hc : f.complete = false)
    (ht : f.since + s.bandLimit f.epoch ≤ s.time.now) :
    exec (.frameCompletionTimeout spring frame) s = .next (s.closeFrame t spring frame) := by
  change execFrameCompletionTimeout spring frame s = _
  simp only [execFrameCompletionTimeout, hf, hc, Bool.false_eq_true, if_false, if_neg (Nat.not_lt.mpr ht)]

/-- A settled frame enters the manifest of its take; of a lake take, its part is offered to the anchor, once (R153, R514). -/
theorem exec_frameRecord (hk : s.takeOf nsid take = some t) (hs : t.state = 1 ∨ t.state = 4)
    (hf : (t.frames.find? fun f => f.spring = spring && f.frame = frame) = some f) (hd : f.settled = true) :
    (t.lakeTake = 0 → exec (.frameRecord nsid take spring frame) s =
      .next (s.recordFrame nsid take f (2 ^ 64 - 1)).settleRings) ∧
    (t.lakeTake ≠ 0 → f.offered = 0 → exec (.frameRecord nsid take spring frame) s = .next (s.offerPart t f).settleRings) := by
  have due (h : ¬(t.lakeTake ≠ 0 ∧ f.offered ≠ 0)) : exec (.frameRecord nsid take spring frame) s = if t.lakeTake = 0 then
      .next (s.recordFrame nsid take f (2 ^ 64 - 1)).settleRings else .next (s.offerPart t f).settleRings := by
    change execFrameRecord nsid take spring frame s = _
    have ready : ¬((!(t.state = 1 || t.state = 4)) = true ∨ (!f.settled) = true ∨ t.lakeTake ≠ 0 ∧ f.offered ≠ 0) := by
      simp only [hs, hd, h, ← Bool.decide_or, decide_true]
      decide
    simp only [execFrameRecord, hk, hf]
    rw [if_neg ready]
  refine ⟨fun own => ?_, fun lake unoffered => ?_⟩
  · rw [due fun h => h.1 own, if_pos own]
  · rw [due fun h => h.2 unoffered, if_neg lake]

/-- A take that may be sealed is, unless the device is in safe hold (R158). -/
theorem exec_takeSeal (hk : s.takeOf nsid take = some t) (hs : s.sealable t = true) (hh : s.fault.safeHold = false) :
    exec (.takeSeal nsid take) s = .next ((s.sealTake nsid take).settleRings).settleResets := by
  change execTakeSeal nsid take s = _
  simp only [execTakeSeal, hk]
  rw [if_pos (by simp [hs, hh])]

end TakeRows

/-- Settles O9: each row's own lemma, under the guards that the statement gives it. -/
theorem takeRowsComplete : Obligations.TakeRowsComplete := by
  intro s
  exact ⟨fun _ _ => exec_reserveSend, fun _ _ _ _ _ _ => exec_bandEndTimeout, fun _ _ _ _ => exec_frameCompletionTimeout,
    fun _ _ _ _ _ _ => exec_frameRecord, fun _ _ _ => exec_takeSeal⟩

end Sys2Proof.Machine

/-!
PROOFS. The pond (chapter 6): what a pool answers to the holder of a handle, what a handle is worth once its last reference is returned, and
what each row of the pond answers where its guard holds.
-/

namespace Sys2Proof.Machine

/-! ### Buffers and handles of a pool (R179, R186) -/

@[simp] theorem Pool.setBuf_buf_self (q : Pool) (i : Nat) (b : Buf) : (q.setBuf i b).buf i = b := by
  simp [Pool.setBuf, Pool.buf, tgetD]
@[simp] theorem Pool.setBuf_count (q : Pool) (i : Nat) (b : Buf) : (q.setBuf i b).count = q.count := rfl
@[simp] theorem Pool.modOwner_buf (q : Pool) (o i : Nat) (f : Owner → Owner) : (q.modOwner o f).buf i = q.buf i := rfl
@[simp] theorem Pool.modOwner_count (q : Pool) (o : Nat) (f : Owner → Owner) : (q.modOwner o f).count = q.count := rfl

section Handles

variable {q : Pool} {h holder other i : Nat}

/-- An operation goes on for exactly the holders of the buffer whose generation the handle carries. -/
theorem Pool.judge_eq_none_iff : q.judge h holder = none ↔
    h ≠ 0 ∧ (q.buf (handleIndex h)).gen = handleGen h ∧ holder ∈ (q.buf (handleIndex h)).holders := by
  by_cases free : (q.buf (handleIndex h)).holders = []
  · have refused : q.judge h holder ≠ none := by
      simp only [Pool.judge, free, List.isEmpty_nil, if_true]
      split_ifs <;> simp
    simp [refused, free]
  · simp only [Pool.judge, List.isEmpty_iff, free, and_false, if_false, List.contains_iff_mem]
    split_ifs <;> simp_all

/-- On a buffer that is free, the handle of the generation before is a double free, whoever uses it. -/
theorem Pool.judge_freed (h0 : h ≠ 0) (hc : handleIndex h < q.count) (free : (q.buf (handleIndex h)).holders = [])
    (last : (q.buf (handleIndex h)).gen = nextGen (handleGen h)) : q.judge h other = some 5 := by
  have offered : ¬(q.count ≤ handleIndex h) := Nat.not_le.mpr hc
  simp [Pool.judge, h0, offered, free, last]

/-! ### The last reference is returned (R187) -/

theorem Pool.release_count : (q.release i holder).count = q.count := by
  unfold Pool.release
  dsimp only
  split_ifs <;> rfl

/-- The last reference frees the buffer of a pool that still offers it, and the generation advances. -/
theorem Pool.release_last_buf (hh : (q.buf i).holders = [holder]) (hc : i < q.count) :
    (q.release i holder).buf i = { q.buf i with holders := [], gen := nextGen (q.buf i).gen } := by
  have none_left : ((q.buf i).holders.erase holder).isEmpty = true := by simp [hh]
  simp only [Pool.release]
  rw [if_pos none_left, if_neg (Nat.not_le.mpr hc), Pool.setBuf_buf_self]

end Handles

/-- Settles O57: the freed buffer is one generation past the handle. -/
theorem releasedHandleIsStale : Obligations.ReleasedHandleIsStale := by
  intro q h holder other hj hh hc
  obtain ⟨h0, hg, -⟩ := Pool.judge_eq_none_iff.mp hj
  have freed := Pool.release_last_buf hh hc
  exact ⟨by rw [freed], Pool.judge_freed h0 (by rwa [Pool.release_count]) (by rw [freed]) (by rw [freed, hg])⟩

/-! ### The rows of the pond -/

section PondRows

variable {s : State} {q : Pool} {h holder owner cls die pool next newHolder : Nat}

/-- Only an owner that uses its reservation up needs a fill below W2 and a buffer that no reservation claims (R184). -/
theorem pondGet_granted (g : Grants s owner cls die pool q) :
    s.pondGet owner cls die pool = (⟨0, grantedHandle die pool q⟩, s.granted owner die pool q) := by
  obtain ⟨healthy, present, active, ⟨o, known, stays, spare⟩, here, share, free⟩ := g
  have judged : ¬(o.departing = true ∨ s.pond.walked.contains owner = true) := by simp [stays, here]
  have shared : ¬((s.marks die pool q).2.2 ≤ q.fill ∧ cls ≠ 0) := by omega
  have below : ¬(o.unused = 0 ∧ (s.marks die pool q).2.1 ≤ q.fill) := by omega
  have unclaimed : ¬(o.unused = 0 ∧ q.free ≤ q.unusedAll) := by omega
  simp only [State.pondGet, healthy, present, active, known, Bool.not_true, Bool.false_eq_true, if_false, ne_eq, not_true_eq_false]
  rw [if_neg judged, if_neg shared, if_neg below, if_neg unclaimed, if_neg (Nat.not_le.mpr free)]
  rfl

theorem pondAddref_shared (g : Shares s holder h newHolder q) : s.pondAddref holder h newHolder = (⟨0, 0⟩, s.shared h newHolder q) := by
  obtain ⟨healthy, present, named, kind, held, room, known⟩ := g
  obtain ⟨o, known⟩ := Option.isSome_iff_exists.mp known
  simp only [State.pondAddref, healthy, present, named, kind, held, known, Option.getD_some, Bool.not_true, Bool.false_eq_true, if_false]
  exact if_neg (Nat.not_le.mpr room)

theorem pondPass_passed (g : Passes s holder h next q) : s.pondPass holder h next = (⟨0, 0⟩, s.passed holder h next q) := by
  obtain ⟨healthy, present, named, kind, held, known⟩ := g
  obtain ⟨o, known⟩ := Option.isSome_iff_exists.mp known
  simp only [State.pondPass, healthy, present, named, kind, held, known, Option.getD_some, Bool.not_true, Bool.false_eq_true, if_false]
  rfl

theorem pondPut_returned (g : Returns s holder h q) : s.pondPut holder h = (⟨0, 0⟩, s.returned holder h q) := by
  obtain ⟨healthy, present, held⟩ := g
  simp only [State.pondPut, healthy, present, held, Option.getD_some, Bool.not_true, Bool.false_eq_true, if_false]
  rfl

theorem pondQuery_named (g : Names s h q) : s.pondQuery h = (0, q.buf (handleIndex h)) := by
  obtain ⟨healthy, present, notNull, held, gen⟩ := g
  simp [State.pondQuery, healthy, present, notNull, held, gen]

theorem exec_get_granted {fromDie : Nat} (hd : s.hasDie die = true) (hf : s.hasDie fromDie = true) (hp : pool < 64)
    (g : Grants s owner cls die pool q) : exec (.get owner cls fromDie die pool) s =
      .next ((s.granted owner die pool q).emit (.pondAnswer owner 0 0 (grantedHandle die pool q))) := by
  change execGet owner cls fromDie die pool s = _
  rw [execGet, if_pos ⟨hd, hf, hp⟩, pondGet_granted g]

theorem exec_addref_shared (g : Shares s holder h newHolder q) :
    exec (.addref holder h newHolder) s = .next ((s.shared h newHolder q).emit (.pondAnswer holder 1 0 0)) := by
  change execAddref holder h newHolder s = _
  rw [execAddref, pondAddref_shared g]

theorem exec_pass_passed (g : Passes s holder h next q) :
    exec (.pass holder h next) s = .next ((s.passed holder h next q).emit (.pondAnswer holder 2 0 0)) := by
  change execPass holder h next s = _
  rw [execPass, pondPass_passed g]

theorem exec_put_returned (g : Returns s holder h q) :
    exec (.put holder h) s = .next ((s.returned holder h q).retryWaiting.emit (.pondAnswer holder 3 0 0)) := by
  change execPut holder h s = _
  rw [execPut, pondPut_returned g]

theorem exec_query_named (g : Names s h q) : exec (.query h) s =
    .next (s.emit (.pondQuery h 0 (handleGen h) (q.buf (handleIndex h)).holders (q.buf (handleIndex h)).quar)) := by
  change execQuery h s = _
  rw [execQuery, pondQuery_named g, g.gen]

/-- The next owner's die hears that the buffer was passed (R188). -/
theorem exec_passedNotice (hd : s.hasDie (ownerDie owner) = true) :
    exec (.passedNotice h owner) s = .next (s.emit (.internalNotice (ownerDie owner) owner h)) := by
  change execPassedNotice h owner s = _
  rw [execPassedNotice, onDie_pos hd]

/-- A walk that runs ends, and the cells that wait for a buffer ask again (R185, R193). -/
theorem exec_ownerWalkComplete (hw : owner ∈ s.pond.walked) :
    exec (.ownerWalkComplete owner) s = .next (s.walkEnds owner).retryWaiting :=
  if_pos (by simpa using hw)

theorem exec_pondAudit (hd : s.hasDie die = true) (due : s.auditDue die = true) :
    exec (.pondAudit die) s = .next (s.auditDie die).retryWaiting := by
  change execPondAudit die s = _
  rw [execPondAudit, onDie_pos hd, if_pos due]

end PondRows

/-- Settles O10: each row's own lemma, under the guards that the statement gives it. -/
theorem pondRowsComplete : Obligations.PondRowsComplete := by
  intro s
  exact ⟨fun _ _ _ _ _ _ => exec_get_granted, fun _ _ _ _ => exec_addref_shared, fun _ _ _ _ => exec_pass_passed,
    fun _ _ _ => exec_put_returned, fun _ _ => exec_query_named, fun _ _ => exec_passedNotice, fun _ => exec_ownerWalkComplete,
    fun _ => exec_pondAudit⟩

end Sys2Proof.Machine

/-!
PROOFS. The rows of the flash operations (chapter 8) and of a media core that fails (R523): what each answers where its guard holds, one
lemma a row.
-/

namespace Sys2Proof.Machine

section FlashRows

variable {s : State} {die op channel ce : Nat} {o : FlashOp}

/-! ### Operations that run and end (R209, R223, R229) -/

/-- A program that was issued ends; the one of a power-loss commit does so after those before it (R240). -/
theorem exec_flashProgramComplete {outcome : ProgramOutcome} (hd : s.hasDie die = true) (ho : tget (s.md die).ops op = some o)
    (hw : o.waits = false) (hr : o.kind.isRead = false) (he : o.kind.isErase = false)
    (hc : o.kind.isCommit = false ∨ ((s.md die).ops.any fun x => !x.2.kind.isCommit && !x.2.kind.isRead) = false) :
    exec (.flashProgramComplete die op outcome) s = .next (s.programEnds die op o outcome) := by
  have inTurn : ¬(o.kind.isCommit = true ∧ ((s.md die).ops.any fun x => !x.2.kind.isCommit && !x.2.kind.isRead) = true) :=
    fun ⟨commit, earlier⟩ => hc.elim (by simp [commit]) (by simp [earlier])
  change execFlashProgramComplete die op outcome s = _
  rw [execFlashProgramComplete, onDie_pos hd]
  simp only [ho]
  rw [if_neg (by simp [hw, hr, he]), if_neg inTurn]

theorem exec_flashEraseComplete {k : Nat} {failed : Option Nat} (hd : s.hasDie die = true) (ho : tget (s.md die).ops op = some o)
    (hk : o.kind = .erase k) (hs : o.suspended = false) (hw : o.waits = false) :
    exec (.flashEraseComplete die op failed) s = .next (s.eraseEnds die op k o failed) := by
  change execFlashEraseComplete die op failed s = _
  rw [execFlashEraseComplete, onDie_pos hd]
  simp only [ho, hk]
  rw [if_neg (by simp [hs, hw])]

/-- A read ends with an outcome that its codewords allow (R217, R223). -/
theorem exec_flashReadComplete {outcome : ReadOutcome} (hd : s.hasDie die = true) (ho : tget (s.md die).ops op = some o)
    (hw : o.waits = false) (hr : o.kind.isRead = true) (ha : s.outcomeOk die o outcome = true) :
    exec (.flashReadComplete die op outcome) s = .next ((s.endOp die op).readEnds die o outcome) := by
  change execFlashReadComplete die op outcome s = _
  rw [execFlashReadComplete, onDie_pos hd]
  simp only [ho]
  rw [if_neg (by simp [hw, hr, ha])]

/-! ### Channels, targets and media cores (R257, R264, R523) -/

theorem exec_channelCheck {margin : Nat} (hd : s.hasDie die = true) (hc : channel < 16) (hw : s.inSeep die = true)
    (ht : tgetD (s.md die).checked channel 0 + s.obj 0x3406 0 ≤ s.dtimeS) :
    exec (.channelCheck die channel margin) s =
      .next ((s.setMd die { s.md die with checked := tset (s.md die).checked channel s.dtimeS }).checkChannel die channel margin) := by
  change execChannelCheck die channel margin s = _
  rw [execChannelCheck, if_neg (by simp [hd, hc])]
  exact if_neg (by simp [hw, Nat.not_lt.mpr ht])

/-- The die has the channel and its target. -/
theorem target_present (hd : s.hasDie die = true) (hc : channel < 16) (he : ce < 16) :
    ¬((!s.hasDie die) = true ∨ 16 ≤ channel ∨ 16 ≤ ce) := by
  simp [hd, hc, he]

theorem exec_flashOperationTimeout {retrainOk : Bool} (hd : s.hasDie die = true) (hc : channel < 16) (he : ce < 16)
    (hr : tget (s.md die).resetting (16 * channel + ce) = none) (ht : s.timedOut die channel ce = true) :
    exec (.flashOperationTimeout die channel ce retrainOk) s = .next (s.opTimesOut die channel ce retrainOk) := by
  change execFlashOperationTimeout die channel ce retrainOk s = _
  rw [execFlashOperationTimeout, if_neg (target_present hd hc he), if_neg (by simp [hr]), if_neg (by simp [ht])]

/-- A target whose reset wait is over is judged by what it answers. -/
theorem exec_targetResetWaitExpiry {idOk retryOk : Bool} {since : Nat} (hd : s.hasDie die = true) (hc : channel < 16) (he : ce < 16)
    (hr : tget (s.md die).resetting (16 * channel + ce) = some since)
    (ht : since + ((s.md die).population.map (·.resetUs)).getD 0 * 1000 ≤ s.time.now) :
    exec (.targetResetWaitExpiry die channel ce idOk retryOk) s = .next (s.targetBack die channel ce (s.md die) idOk retryOk) := by
  change execTargetResetWaitExpiry die channel ce idOk retryOk s = _
  rw [execTargetResetWaitExpiry, if_neg (target_present hd hc he)]
  simp only [hr]
  rw [if_neg (Nat.not_lt.mpr ht)]

theorem exec_mediaCoreFailure {core : Nat} (hd : s.hasDie die = true) (hc : core < 4) :
    exec (.mediaCoreFailure die core) s = .next (s.mediaCoreFails die core (s.obj (0x3230 + die) 1)) := by
  change execMediaCoreFailure die core s = _
  rw [execMediaCoreFailure, onDie_pos hd]
  exact if_neg (Nat.not_le.mpr hc)

end FlashRows

/-- Settles O12: each row's own lemma, under the guards that the statement gives it. -/
theorem flashRowsComplete : Obligations.FlashRowsComplete := by
  intro s die hd
  exact ⟨fun _ _ _ => exec_flashProgramComplete hd, fun _ _ _ _ => exec_flashEraseComplete hd,
    fun _ _ _ => exec_flashReadComplete hd, fun _ _ => exec_channelCheck hd, fun _ _ _ => exec_flashOperationTimeout hd,
    fun _ _ _ _ _ => exec_targetResetWaitExpiry hd, fun _ => exec_mediaCoreFailure hd⟩

end Sys2Proof.Machine

/-!
PROOFS. The I/O commands of conventional namespaces, the searches and RUN_PROGRAM (chapters 9, 12 and 13): a command passes the checks of
what it names, and goes on.
-/

namespace Sys2Proof.Machine

section IoRows

variable {s : State} {q : CmdRef} {nsid slba nlb blocks : Nat}

/-! ### The checks of a namespace and of a take (R278, R286, R298, R310) -/

theorem readRange_seen {t : State} (h : SeesRange s q nsid slba blocks) : s.readRange q nsid slba blocks (fun _ => t) = t := by
  obtain ⟨n, seen, fits⟩ := h
  simp only [State.readRange, seen, if_neg (Nat.not_lt.mpr fits)]

theorem onTake_seen {op take : Nat} {t : Take} {k : Take → State} (h : SeesTake s q nsid take t) : s.onTake q op nsid take k = k t := by
  obtain ⟨⟨n, seen, capture⟩, present, written, undeleted⟩ := h
  simp [State.onTake, seen, capture, present, written, undeleted]

theorem judgeChange_mayChange {op : Nat} {ranges : List (Nat × Nat)} (h : MayChange s q nsid ranges) :
    ∃ n, s.judgeChange q op nsid ranges = .inr n := by
  obtain ⟨free, n, seen, conventional, unprotected, fits⟩ := h
  exact ⟨n, by simp only [State.judgeChange, free, seen, conventional, unprotected, fits, Bool.false_eq_true, if_false]⟩

/-! ### Flush and changes (R202, R278, R283, R290) -/

/-- FLUSH of all namespaces, or of one that the command sees. -/
theorem exec_flush (hs : Started q s) (h : nsid = 2 ^ 32 - 1 ∨ (s.seen q nsid).isSome = true) :
    exec (.flush q nsid) s = .next (if ((tget s.host.nss nsid).map (·.kind)).getD 0 = 1 then (s.bump 0x401C 1).succeed q 0
      else (s.bump 0x401C 1).flushNs q nsid) := by
  have known : ¬((!decide (nsid = 2 ^ 32 - 1)) = true ∧ (s.seen q nsid).isNone = true) := by
    rintro ⟨one, unseen⟩
    rcases h with all | seen
    · simp [all] at one
    · simp [Option.isNone_iff_eq_none.mp unseen] at seen
  change execFlush q nsid s = _
  rw [execFlush, startCmd_pos hs]
  dsimp only
  rw [if_neg known]
  exact (apply_ite Host.Outcome.next _ _ _).symm

theorem exec_nvmWrite {data : List Nat} (hs : Started q s) (h : MayChange s q nsid [(slba, nlb + 1)]) (h512 : nlb < 512)
    (hl : data.length = 4096 * (nlb + 1)) (hf : s.tooFull nsid slba (nlb + 1) = false) :
    exec (.nvmWrite q nsid slba nlb data) s =
      .next ((((s.addSmart 2 1).addSmart 15 (4096 * (nlb + 1))).addObj (0x40A8 + portOf q.cntl) 0 (4096 * (nlb + 1))).acceptWrite
        ⟨q, nsid, slba, nlb + 1, data, [], none, 0⟩) := by
  obtain ⟨n, judged⟩ := judgeChange_mayChange (op := 1) h
  change execNvmWrite q nsid slba nlb data s = _
  rw [execNvmWrite, startCmd_pos hs]
  simp only [judged]
  rw [if_neg (by omega), if_neg (by simp [hl]), if_neg (by simp [hf])]

theorem exec_writeZeroes (hs : Started q s) (h : MayChange s q nsid [(slba, nlb + 1)])
    (hf : s.tooFull nsid slba (nlb + 1) = false) :
    exec (.writeZeroes q nsid slba nlb) s = .next (s.acceptWrite ⟨q, nsid, slba, nlb + 1, [], [], none, 0⟩) := by
  obtain ⟨n, judged⟩ := judgeChange_mayChange (op := 8) h
  change execWriteZeroes q nsid slba nlb s = _
  rw [execWriteZeroes, startCmd_pos hs]
  simp only [judged]
  rw [if_neg (by simp [hf])]

theorem exec_datasetManagementDeallocate {ranges : List (Nat × Nat)} (hs : Started q s) (h : MayChange s q nsid ranges)
    (h0 : ranges ≠ []) (h256 : ranges.length ≤ 256) :
    exec (.datasetManagementDeallocate q nsid ranges) s = .next (s.acceptWrite ⟨q, nsid, 0, 0, [], ranges, none, 0⟩) := by
  obtain ⟨n, judged⟩ := judgeChange_mayChange (op := 9) h
  change execDatasetManagementDeallocate q nsid ranges s = _
  rw [execDatasetManagementDeallocate, startCmd_pos hs]
  simp only [judged]
  rw [if_neg (by simp [h0, h256])]

/-! ### Reads (R274, R278, R283) -/

theorem exec_nvmRead (hs : Started q s) (h : SeesRange s q nsid slba (nlb + 1)) (h512 : nlb < 512) :
    exec (.nvmRead q nsid slba nlb (4096 * (nlb + 1))) s =
      .next (s.startRead ⟨q, nsid, slba, nlb + 1, 0, [], 0, 0, []⟩ (rangeLbas slba (nlb + 1))) := by
  change execNvmRead q nsid slba nlb (4096 * (nlb + 1)) s = _
  rw [execNvmRead, startCmd_pos hs]
  dsimp only
  rw [readRange_seen h, if_neg (by omega), if_neg (by simp)]

theorem exec_compare {data : List Nat} (hs : Started q s) (h : SeesRange s q nsid slba (nlb + 1)) (h512 : nlb < 512)
    (hl : data.length = 4096 * (nlb + 1)) : exec (.compare q nsid slba nlb data) s =
      .next (s.startRead ⟨q, nsid, slba, nlb + 1, 1, data, 0, 0, []⟩ (rangeLbas slba (nlb + 1))) := by
  change execCompare q nsid slba nlb data s = _
  rw [execCompare, startCmd_pos hs]
  dsimp only
  rw [readRange_seen h, if_neg (by omega), if_neg (by simp [hl])]

theorem exec_verify (hs : Started q s) (h : SeesRange s q nsid slba (nlb + 1)) : exec (.verify q nsid slba nlb) s =
    .next (s.startRead ⟨q, nsid, slba, nlb + 1, 2, [], 0, 0, []⟩ (rangeLbas slba (nlb + 1))) := by
  change execVerify q nsid slba nlb s = _
  rw [execVerify, startCmd_pos hs, readRange_seen h]

/-! ### Searches (R436) -/

theorem exec_search {key table scope : Nat} {t : STable} (hs : Started q s) (ht : (s.countIo q 0x80 2).table table = some t)
    (hw : t.width = 1) (ha : bitOf t.access 0 = true) (hc : scope < 3) :
    exec (.search q key table scope) s = .next ((s.countIo q 0x80 2).hostSearch q t key table scope) := by
  change execSearch q key table scope s = _
  rw [execSearch, startCmd_pos hs]
  simp only [ht]
  rw [if_neg (by simp [hw, ha, hc])]

/-- A wide key has 9 Dwords in a table of width 288, and 18 in one of width 576. -/
theorem exec_searchWide {ndt key table scope : Nat} {t : STable} (hs : Started q s)
    (ht : (s.countIo q 0x85 2).table table = some t) (ha : bitOf t.access 0 = true) (hc : scope < 3)
    (hw : (t.width = 2 ∧ ndt = 9) ∨ (t.width = 3 ∧ ndt = 18)) :
    exec (.searchWide q ndt key table scope) s = .next ((s.countIo q 0x85 2).hostSearch q t key table scope) := by
  have fits : (t.width = 2 && ndt = 9 || t.width = 3 && ndt = 18) = true := by simpa using hw
  change execSearchWide q ndt key table scope s = _
  rw [execSearchWide, startCmd_pos hs]
  simp only [ht]
  rw [if_neg (by simp [fits, ha, hc])]

/-! ### RUN_PROGRAM (R399) -/

section RunProgram

variable {source take : Nat} {t : Take}

/-- What a program works on is there: a range, a take, or a namespace alone. -/
theorem source_seen {u : State} (h : (source = 0 ∧ SeesRange s q nsid slba blocks) ∨ (source = 1 ∧ SeesTake s q nsid take t) ∨
      (source = 2 ∧ SeesRange s q nsid 0 0)) :
    (if source = 1 then s.onTake q 0x82 nsid take fun _ => u
      else s.readRange q nsid (if source = 0 then slba else 0) (if source = 0 then blocks else 0) fun _ => u) = u := by
  rcases h with ⟨rfl, range⟩ | ⟨rfl, seen⟩ | ⟨rfl, seen⟩
  · exact readRange_seen range
  · exact onTake_seen seen
  · exact readRange_seen seen

/-- A ready program that the host may run starts in a group of the function's share, while a slot is left. -/
theorem exec_runProgram {ndt handle group arg : Nat} {p : Program} (hs : Started q s) : let s0 := s.countIo q 0x82 1
    (source = 0 ∧ SeesRange s0 q nsid slba blocks) ∨ (source = 1 ∧ SeesTake s0 q nsid take t) ∨
      (source = 2 ∧ SeesRange s0 q nsid 0 0) →
    s0.program handle = some p → p.state = 2 → bitOf p.use 0 = true → group ≤ 15 →
    bitOf (s0.share (q.cntl - 1) 7) group = true → s0.slotsHeld (q.cntl - 1) < s0.share (q.cntl - 1) 8 →
    exec (.runProgram q nsid ndt handle group arg source take slba blocks) s =
      .next ((s0.started q).startNear ⟨q, nsid, ndt, handle, group, arg, source, take, slba, blocks, s.time.now⟩) := by
  intro s0 seen present ready hostUse inRange inShare slotLeft
  have known : source ≤ 2 := by omega
  have allowed : ¬((!bitOf p.use 0) = true ∨ 15 < group ∨ (!bitOf (s0.share (q.cntl - 1) 7) group) = true ∨ 2 < source) := by
    simp [hostUse, inRange, inShare, known]
  change execRunProgram q nsid ndt handle group arg source take slba blocks s = _
  rw [execRunProgram, startCmd_pos hs]
  dsimp only
  rw [source_seen seen]
  simp only [s0, present]
  rw [if_neg (by simp [ready]), if_neg allowed, if_neg (Nat.not_le.mpr slotLeft)]

end RunProgram

end IoRows

/-- Settles O17: each command's own lemma, under the guards that the statement gives it. -/
theorem ioRowsComplete : Obligations.IoRowsComplete := by
  intro s q nsid hs
  exact ⟨exec_flush hs, fun _ _ _ => exec_nvmWrite hs, fun _ _ => exec_writeZeroes hs,
    fun _ => exec_datasetManagementDeallocate hs,
    fun _ _ seen => ⟨exec_nvmRead hs seen, fun _ => exec_compare hs seen, exec_verify hs seen⟩,
    fun _ _ _ _ => exec_search hs, fun _ _ _ _ _ => exec_searchWide hs, fun _ _ _ _ _ _ _ _ _ _ => exec_runProgram hs⟩

end Sys2Proof.Machine

/-!
PROOFS. The rows of the supplies, of PORST_N, of the bring-up steps and of the test access port (chapters 19 and 20): what each answers
where its guard holds, one lemma a row. POWER_ON and AON_POWER_FAIL have no guard, and need no lemma.
-/

namespace Sys2Proof.Machine

section BootRows

variable {s : State} {die ms : Nat}

/-! ### PORST_N (R530, R567) -/

/-- PORST_N low for at least 10 µs resets the package (R567). -/
theorem exec_porstNAssert {lowNs : Nat} (hl : 10000 ≤ lowNs) :
    exec (.porstNAssert lowNs) s = .next { s.clearVolatile 1 with boot := { (s.clearVolatile 1).boot with porst := true } } :=
  if_neg (Nat.not_lt.mpr hl)

theorem exec_porstNRelease {gpio : Nat} (hr : s.boot.porst = true) (hp : s.boot.powered = true) :
    exec (.porstNRelease gpio) s = .next ({ s with pins := { s.pins with gpio := gpio } } : State).startRom :=
  if_neg (by simp [hr, hp])

/-! ### The package's bring-up steps (R572) -/

/-- A ROM that runs at step 1 loads the first stage where it finds a copy of it (R573). -/
theorem exec_firstStageLoaded {image : BootImages} (hr : s.boot.porst = false) (hh : s.boot.halted = false) (hs : s.boot.step = 1)
    (hc : (image.copyA || image.copyB) = true) : exec (.firstStageLoaded image) s = .next (s.loadFirstStage image) := by
  have found : ¬((!image.copyA) = true ∧ (!image.copyB) = true) := by simpa [or_iff_not_imp_left] using hc
  change execFirstStageLoaded image s = _
  rw [execFirstStageLoaded, if_neg (by simp [hr, hh, hs]), if_neg found]

theorem exec_dictionaryReady (hs : s.boot.step = 4) (hh : s.boot.halted = false) :
    exec (.dictionaryReady ms) s = .next (s.dictionaryUp ms) :=
  if_neg (by simp [hs, hh])

/-- The body verified is that of the image loaded; a restricted bring-up ends before it (R563). -/
theorem exec_firmwareVerified {im : BootImages} (hi : s.boot.image = some im) (hs : s.boot.step = 5) (hr : s.boot.restricted = false) :
    exec (.firmwareVerified true) s = .next (s.firmwareRuns im) := by
  change execFirmwareVerified true s = _
  simp only [execFirmwareVerified, hi]
  rw [if_neg (by simp [hs, hr]), if_neg (by simp)]

theorem exec_deviceReady (hb : s.obj 0x1800 0 = 4) : exec (.deviceReady ms) s = .next (s.becomeReady ms) :=
  if_neg (not_not.mpr hb)

/-! ### The dies' bring-up steps (R256, R572, R573, R575) -/

theorem exec_dramTrainingComplete {gib rate : Nat} (hd : s.hasDie die = true) (hs : die ∈ s.boot.sectionsOut)
    (hu : die ∉ s.boot.dramUp) (hh : s.healthy die = true) :
    exec (.dramTrainingComplete die true ms gib rate) s = .next (s.dramTrained die ms gib rate) := by
  change execDramTrainingComplete die true ms gib rate s = _
  rw [execDramTrainingComplete, onDie_pos hd, if_neg (by simp [hs, hu, hh]), if_neg (by simp)]

/-- A die has failed that brought neither DRAM nor flash up within 100 ms of its section (R573). -/
theorem exec_dieSectionTimeout (hd : s.hasDie die = true) (hs : die ∈ s.boot.sectionsOut) (hu : die ∉ s.boot.dramUp)
    (hf : die ∉ s.boot.flashUp) (hh : s.healthy die = true) (ht : s.boot.sectionsAt + 100000000 ≤ s.time.now) :
    exec (.dieSectionTimeout die) s = .next ((s.raise (evDie die 139) 0).bootFails die) := by
  change execDieSectionTimeout die s = _
  rw [execDieSectionTimeout, onDie_pos hd, if_neg (by simp [hs, hu, hf, hh]), if_neg (Nat.not_lt.mpr ht)]

theorem exec_flashDiscoveryComplete {p : Population} (hd : s.hasDie die = true) (hs : die ∈ s.boot.sectionsOut)
    (hf : die ∉ s.boot.flashUp) (hh : s.healthy die = true) :
    exec (.flashDiscoveryComplete die p) s = .next (s.flashFound die p) := by
  change execFlashDiscoveryComplete die p s = _
  rw [execFlashDiscoveryComplete, onDie_pos hd, if_neg (by simp [hs, hf, hh])]

/-- At bring-up a die restores its maps once, when its DRAM and its flash are up (R575). -/
theorem exec_mapRestoreComplete_bringUp {marker records off : Nat} (hd : s.hasDie die = true) (hr : die ∉ s.fault.resetting)
    (hu : die ∈ s.boot.dramUp) (hf : die ∈ s.boot.flashUp) (hn : die ∉ s.boot.restored) (hh : s.healthy die = true) :
    exec (.mapRestoreComplete die marker records ms off) s = .next (s.mapsRestored die marker records ms off) := by
  change execMapRestoreComplete die marker records ms off s = _
  rw [execMapRestoreComplete, onDie_pos hd, if_neg (by simpa using hr), if_neg (by simp [hu, hf, hn, hh])]

/-- The restore of a die that is being reset ends its reset (R532). -/
theorem exec_mapRestoreComplete_reset {marker readable off : Nat} (hd : s.hasDie die = true) (hr : die ∈ s.fault.resetting) :
    exec (.mapRestoreComplete die marker readable ms off) s = .next (s.dieResetDone die readable) := by
  change execMapRestoreComplete die marker readable ms off s = _
  rw [execMapRestoreComplete, onDie_pos hd, if_pos (by simpa using hr)]

/-! ### The test access port (R590) -/

theorem exec_idcode (hd : s.hasDie die = true) : exec (.idcode die) s = .next (s.scan die 1 idcodeValue) := by
  change execIdcode die s = _
  rw [execIdcode, onDie_pos hd]

theorem exec_bypass {opcode : Nat} (hd : s.hasDie die = true) (ho : opcode ∉ [0, 1, 2, 0x10]) :
    exec (.bypass die opcode) s = .next (s.scan die 0xFF 0) := by
  change execBypass die opcode s = _
  rw [execBypass, onDie_pos hd, if_neg (by simpa using ho)]

theorem exec_samplePreload (hd : s.hasDie die = true) :
    exec (.samplePreload die) s = .next ((s.scan die 2 s.freeValue).useFree) := by
  change execSamplePreload die s = _
  rw [execSamplePreload, onDie_pos hd]

/-- EXTEST drives the balls while PORST_N is asserted. -/
theorem exec_extest_inReset (hd : s.hasDie die = true) (hr : s.boot.porst = true) :
    exec (.extest die) s = .next ((s.scan die 0 s.freeValue).useFree) := by
  change execExtest die s = _
  rw [execExtest, onDie_pos hd, if_pos hr]

/-- EXTEST acts as BYPASS once PORST_N is released. -/
theorem exec_extest_released (hd : s.hasDie die = true) (hr : s.boot.porst = false) :
    exec (.extest die) s = .next (s.scan die 0xFF 0) := by
  change execExtest die s = _
  rw [execExtest, onDie_pos hd, if_neg (by simp [hr])]

theorem exec_bootstat (hd : s.hasDie die = true) : exec (.bootstat die) s = .next (s.scan die 0x10 s.bootStatus) := by
  change execBootstat die s = _
  rw [execBootstat, onDie_pos hd]

end BootRows

/-- Settles O35: each row's own lemma, under the guards that the statement gives it; the two rows of the supplies have no guard. -/
theorem bootRowsComplete : Obligations.BootRowsComplete := by
  intro s
  refine ⟨rfl, rfl, fun _ => exec_porstNAssert, fun _ => exec_porstNRelease, fun _ => exec_firstStageLoaded,
    fun _ => exec_dictionaryReady, fun _ => exec_firmwareVerified, fun die hd => ?dies, fun _ => exec_deviceReady⟩
  case dies =>
    exact ⟨fun hs hu hh => ⟨fun _ _ _ => exec_dramTrainingComplete hd hs hu hh, fun hf => exec_dieSectionTimeout hd hs hu hf hh⟩,
      fun _ => exec_flashDiscoveryComplete hd, fun _ _ _ _ => exec_mapRestoreComplete_bringUp hd,
      fun _ _ _ _ => exec_mapRestoreComplete_reset hd, exec_idcode hd, fun _ => exec_bypass hd, exec_samplePreload hd,
      exec_extest_inReset hd, exec_extest_released hd, exec_bootstat hd⟩

end Sys2Proof.Machine

/-!
PROOFS. The rows of the host links, the doorbells, the fetch of commands and configuration space (chapter 9): what each answers where its
guard holds, one lemma a row.
-/

namespace Sys2Proof.Machine

section HostLinkRows

variable {s : State} {q : CmdRef} {c : Ctrl} {port cntl qid fn : Nat}

/-! ### The links (R268, R271) -/

theorem exec_linkUp {speed width : Nat} (hd : s.hasDie port = true) (hf : s.portFormed port = true) (hu : port ∉ s.host.linkUp)
    (ht : tgetD s.host.retrainAt port 0 ≤ s.time.now) (hp : s.usable port 7 = true) :
    exec (.linkUp port speed width) s = .next (s.linkComesUp port speed width) := by
  change execLinkUp port speed width s = _
  rw [execLinkUp, onDie_pos hd, if_neg (by simp [hf, hu, ht]), if_neg (by simp [hp])]

theorem exec_linkDown (hd : s.hasDie port = true) (hu : port ∈ s.host.linkUp) :
    exec (.linkDown port) s = .next (s.hostPortDown port) := by
  change execLinkDown port s = _
  rw [execLinkDown, onDie_pos hd, if_pos (by simpa using hu)]

theorem exec_completionTimeout {uncorrectable : Bool} (hf : s.fetched q = true) :
    exec (.completionTimeout q uncorrectable) s = .next (s.dmaLost q uncorrectable) :=
  if_pos hf

/-! ### The doorbells of a function in D0 (R270, R287) -/

theorem exec_sqTailDoorbell {tail : Nat} {k : Sq} (hc : s.ctrl cntl = some c) (hp : (s.pciOf (cntl - 1)).power = 0)
    (hk : tget c.sqs qid = some k) (ht : tail < k.size) : exec (.sqTailDoorbell cntl qid tail) s =
      .next (s.modSq cntl qid fun k => { k with tail := tail, rung := s.time.now }) := by
  change execSqTailDoorbell cntl qid tail s = _
  simp only [execSqTailDoorbell, hc, hk]
  rw [if_neg (not_not.mpr hp), if_pos ht]

/-- Room in a completion queue lets the entries that wait for it be posted, and deletions that wait for those end. -/
theorem exec_cqHeadDoorbell {head : Nat} {k : Cq} (hc : s.ctrl cntl = some c) (hp : (s.pciOf (cntl - 1)).power = 0)
    (hk : tget c.cqs qid = some k) (ht : head < k.size) : exec (.cqHeadDoorbell cntl qid head) s =
      .next (((s.modCtrl cntl fun c => { c with cqs := tmod c.cqs qid fun q => { q with head := head } }).postWaiting cntl
        qid).endDeletes cntl) := by
  change execCqHeadDoorbell cntl qid head s = _
  simp only [execCqHeadDoorbell, hc, hk]
  rw [if_neg (not_not.mpr hp), if_pos ht]

/-! ### The fetch of commands (R282) -/

theorem exec_commandFetch {cid toHost fromHost cls served : Nat} {fresh : Bool} (hd : s.hasDie port = true)
    (hn : s.nextFetch port = some (cntl, cls, qid, served, fresh)) : exec (.commandFetch port cid toHost fromHost) s =
      .next (s.fetchFrom port cid toHost fromHost cntl cls qid served fresh (tgetD s.host.round port [])) := by
  change execCommandFetch port cid toHost fromHost s = _
  simp only [execCommandFetch, onDie_pos hd, hn]

/-! ### Configuration space (R269, R270) -/

/-- A served configuration request writes a register that its row does not name, or none. -/
def State.configWritten (s : State) (fn : Nat) : State :=
  if s.freeValue % 4 = 0 then s.useFree else s.useFree.modPci fn fun x => x.write s.freeValue

/-- It changes the registers of configuration space alone, and uses up one free value. -/
theorem configWritten_undone (s : State) (fn : Nat) : let t := s.configWritten fn
    { t with host := { t.host with pci := s.host.pci }, freeCtr := s.freeCtr } = s := by
  unfold State.configWritten
  split <;> rfl

/-- A function that is reset, or a device that is not ready, answers with a retry; else the registers are given. -/
theorem exec_configurationRequest (hp : s.boot.porst = false) (hr : s.boot.restricted = false)
    (ht : (if fn % 32 = 0 then s.hasDie (fn / 32) && s.portFormed (fn / 32) else (s.ctrl (fn + 1)).isSome) = true) :
    exec (.configurationRequest fn) s =
      if ((s.ctrl (fn + 1)).map (·.flr)).getD false || !s.deviceReady then .next (s.emit (.configReply fn none))
      else .next ((s.configWritten fn).emit (.configReply fn (some ((s.configWritten fn).pciView fn)))) := by
  change execConfigurationRequest fn s = _
  rw [execConfigurationRequest]
  dsimp only
  rw [if_neg (by simp [hp, hr]), if_neg (by simp only [ht]; decide)]
  rfl

end HostLinkRows

/-- Settles O13: each row's own lemma, under the guards that the statement gives it. -/
theorem hostLinkRowsComplete : Obligations.HostLinkRowsComplete := by
  intro s
  refine ⟨fun _ _ _ => exec_linkUp, fun _ => exec_linkDown, fun _ _ => exec_completionTimeout, fun _ _ _ _ _ => exec_sqTailDoorbell,
    fun _ _ _ _ _ => exec_cqHeadDoorbell, fun _ _ _ _ _ _ _ _ _ => exec_commandFetch, fun fn hp hr ht => ?config⟩
  case config =>
    intro flr
    have row := exec_configurationRequest hp hr ht
    exact ⟨fun retry => row.trans (if_pos retry),
      fun ready => ⟨s.configWritten fn, configWritten_undone s fn, row.trans (if_neg (by simpa using ready))⟩⟩

end Sys2Proof.Machine

/-!
PROOFS. The admin commands on queues, logs, features and events (chapter 9): what each answers to a started command with legal operands,
one lemma a row.
-/

namespace Sys2Proof.Machine

section AdminRows

variable {s : State} {q : CmdRef} {c : Ctrl} {qid size : Nat}

/-! ### Queues (R274, R281, R287, R288) -/

/-- The operands of a submission queue that may be created: the completion queue is there, the identifier is free and within the function's
limit, and the size fits CAP.MQES. -/
structure SqLegal (s : State) (q : CmdRef) (c : Ctrl) (qid size cqid : Nat) : Prop where
  completion : tget c.cqs cqid ≠ none
  ioQueue : cqid ≠ 0
  named : 1 ≤ qid
  within : qid ≤ s.queueLimit q.cntl
  unused : tget c.sqs qid = none
  entries : 1 ≤ size
  fits : size ≤ 4095

/-- A legal submission queue is made; an ordered one while the controller may hold another (R281). -/
theorem makeSq_legal {cqid prio base : Nat} {ordered : Bool} (hc : s.ctrl q.cntl = some c) (h : SqLegal s q c qid size cqid)
    (ho : ordered = true → (c.sqs.filter fun k => k.2.ordered).length < s.obj 0x4008 0) :
    s.makeSq q qid size cqid prio base ordered =
      (s.modCtrl q.cntl fun c =>
        { c with sqs := tset c.sqs qid ⟨size + 1, base, cqid, prio % 4, ordered, false, 0, 0, [], none, 0⟩ }).succeed q 0 := by
  obtain ⟨completion, ioQueue, named, within, unused, entries, fits⟩ := h
  simp only [State.makeSq, hc]
  rw [if_neg (by simp [completion, ioQueue]), if_neg (by simp [unused]; omega),
    if_neg (fun full => absurd (ho full.1) (Nat.not_lt.mpr full.2)), if_neg (by omega)]

theorem exec_createIoSq {cqid prio base : Nat} (hs : Started q s) (hc : s.ctrl q.cntl = some c) (h : SqLegal s q c qid size cqid) :
    exec (.createIoSq q qid size cqid prio base) s =
      .next ((s.modCtrl q.cntl fun c =>
        { c with sqs := tset c.sqs qid ⟨size + 1, base, cqid, prio % 4, false, false, 0, 0, [], none, 0⟩ }).succeed q 0) := by
  change execCreateIoSq q qid size cqid prio base s = _
  rw [execCreateIoSq, startCmd_pos hs, makeSq_legal hc h (by simp)]

theorem exec_createOrderedIoSq {cqid prio base : Nat} (hs : Started q s) (hc : s.ctrl q.cntl = some c)
    (h : SqLegal s q c qid size cqid) : let s1 := s.countVendor true 0xC5
    (c.sqs.filter fun k => k.2.ordered).length < s1.obj 0x4008 0 →
    exec (.createOrderedIoSq q qid size cqid prio base true) s =
      .next ((s1.modCtrl q.cntl fun c =>
        { c with sqs := tset c.sqs qid ⟨size + 1, base, cqid, prio % 4, true, false, 0, 0, [], none, 0⟩ }).succeed q 0) := by
  intro s1 ho
  have counted : SqLegal s1 q c qid size cqid := { h with within := h.within }
  change execCreateOrderedIoSq q qid size cqid prio base true s = _
  rw [execCreateOrderedIoSq, startCmd_pos hs]
  dsimp only
  rw [if_pos rfl, makeSq_legal (s := s1) hc counted fun _ => ho]

theorem exec_createIoCq {vector base : Nat} {interrupts : Bool} (hs : Started q s) (hc : s.ctrl q.cntl = some c) (h1 : 1 ≤ qid)
    (hl : qid ≤ s.queueLimit q.cntl) (hn : tget c.cqs qid = none) (hz : 1 ≤ size) (hf : size ≤ 4095) (hv : vector ≤ 128) :
    exec (.createIoCq q qid size vector base interrupts) s =
      .next ((s.modCtrl q.cntl fun c =>
        { c with cqs := tset c.cqs qid ⟨size + 1, base, vector, interrupts, 0, 0, true, []⟩ }).succeed q 0) := by
  have vectors : ¬msixVectors ≤ vector := Nat.not_le.mpr (Nat.lt_succ_of_le hv)
  change execCreateIoCq q qid size vector base interrupts s = _
  simp only [execCreateIoCq, startCmd_pos hs, hc]
  rw [if_neg (by simp [hn]; omega), if_neg (by omega), if_neg vectors]

theorem exec_deleteIoSq {k : Sq} (hs : Started q s) (hc : s.ctrl q.cntl = some c) (h0 : qid ≠ 0) (hk : tget c.sqs qid = some k) :
    exec (.deleteIoSq q qid) s = .next (s.deleteSq q qid c k) := by
  change execDeleteIoSq q qid s = _
  simp only [execDeleteIoSq, startCmd_pos hs, hc, hk, Option.bind_some, Option.map_some]
  rw [if_neg h0]

/-- A completion queue is deleted while no submission queue uses it (R288). -/
theorem exec_deleteIoCq {k : Cq} (hs : Started q s) (hc : s.ctrl q.cntl = some c) (h0 : qid ≠ 0) (hk : tget c.cqs qid = some k)
    (hu : (c.sqs.any fun k => k.2.cqid = qid) = false) :
    exec (.deleteIoCq q qid) s = .next ((s.modCtrl q.cntl fun c => { c with cqs := tdel c.cqs qid }).succeed q 0) := by
  change execDeleteIoCq q qid s = _
  simp only [execDeleteIoCq, startCmd_pos hs, hc]
  rw [if_neg (by simp [h0, hk]), if_neg (by simp [hu])]

/-! ### Log pages, Identify and Abort (R274, R287) -/

theorem exec_getLogPage {lid bytes offset : Nat} {retain : Bool} {b : List Nat} (hs : Started q s)
    (hb : s.logPage q.cntl lid = some b) (ho : offset ≤ b.length) :
    exec (.getLogPage q lid bytes offset retain) s = .next (s.giveLog q lid bytes offset retain b) := by
  change execGetLogPage q lid bytes offset retain s = _
  simp only [execGetLogPage, startCmd_pos hs, hb, if_neg (Nat.not_lt.mpr ho)]

theorem exec_identify {cns nsid cntl : Nat} {b : List Nat} (hs : Started q s) (hb : s.identifyData q cns nsid cntl = .inl b) :
    exec (.identify q cns nsid cntl) s = .next ((s.dataOut q b).succeed q 0) := by
  change execIdentify q cns nsid cntl s = _
  simp only [execIdentify, startCmd_pos hs, hb]

theorem exec_abortCommand {sqid cid : Nat} (hs : Started q s) :
    exec (.abortCommand q sqid cid) s = .next ((s.bump 0x4009 0).succeed q 1) := by
  change execAbortCommand q sqid cid s = _
  rw [execAbortCommand, startCmd_pos hs]

/-! ### Features (R274, R275) -/

/-- Number of Queues is granted up to the function's limit. -/
theorem exec_setFeatures_queues {value : Nat} (hs : Started q s) : let n := s.queueLimit q.cntl - 1
    let v := min n (value % 65536) + 65536 * min n (value / 65536)
    exec (.setFeatures q 7 value) s =
      .next ((s.modCtrl q.cntl fun c => { c with feats := tset c.feats 7 v }).succeed q v) := by
  change execSetFeatures q 7 value s = _
  rw [execSetFeatures, startCmd_pos hs, if_neg (by simp [featureKnown]), if_pos rfl]

/-- Another known feature takes a legal value: under its own key, or that of every sensor where the value selects all nine. -/
theorem exec_setFeatures {fid value : Nat} (hs : Started q s) (hk : featureKnown fid = true) (h7 : fid ≠ 7)
    (h2 : fid = 2 → value % 32 = 0) (h5 : fid = 5 → bitOf value 16 = false)
    (h4 : fid = 4 → (value / 65536 % 16 ≤ 8 ∨ value / 65536 % 16 = 15) ∧ value / 1048576 % 4 ≤ 1) :
    let keys := if fid = 4 ∧ value / 65536 % 16 = 15 then (List.range 9).map fun k => featureKey 4 (value - 15 * 65536 + k * 65536)
      else [featureKey fid value]
    exec (.setFeatures q fid value) s =
      .next ((s.modCtrl q.cntl fun c => { c with feats := keys.foldl (fun t k => tset t k value) c.feats }).succeed q 0) := by
  have legal : ¬((!featureKnown fid) = true ∨ (fid = 2 ∧ value % 32 ≠ 0) ∨
      (fid = 4 ∧ ((8 < value / 65536 % 16 ∧ value / 65536 % 16 ≠ 15) ∨ 1 < value / 1048576 % 4)) ∨
      (fid = 5 ∧ bitOf value 16 = true)) := by
    rintro (unknown | ⟨power, other⟩ | ⟨threshold, sensor⟩ | ⟨recovery, dulbe⟩)
    · simp [hk] at unknown
    · exact other (h2 power)
    · obtain ⟨selected, kind⟩ := h4 threshold
      omega
    · simp [h5 recovery] at dulbe
  change execSetFeatures q fid value s = _
  rw [execSetFeatures, startCmd_pos hs, if_neg legal, if_neg h7]

/-- A known feature is read by what SEL asks for: its value now, its default, its saved value (the default), or its capabilities. -/
theorem exec_getFeatures {fid d11 select : Nat} (hs : Started q s) (hc : s.ctrl q.cntl = some c) (hf : fid < 256)
    (hk : featureKnown fid = true) (h4 : fid = 4 → d11 / 65536 % 16 ≤ 8 ∧ d11 / 1048576 % 4 ≤ 1)
    (h9 : fid = 9 → d11 % 65536 < msixVectors) (h3 : select ≤ 3) :
    exec (.getFeatures q (fid + 256 * d11) select) s = .next (s.succeed q
      (if select = 0 then c.feature (featureKey fid d11) else if select = 3 then 4 else featureDefault (featureKey fid d11))) := by
  have low : (fid + 256 * d11) % 256 = fid := by omega
  have high : (fid + 256 * d11) / 256 = d11 := by omega
  have legal : ¬((!featureKnown fid) = true ∨ 3 < select ∨ (fid = 4 ∧ (8 < d11 / 65536 % 16 ∨ 1 < d11 / 1048576 % 4)) ∨
      (fid = 9 ∧ msixVectors ≤ d11 % 65536)) := by
    rintro (unknown | reserved | ⟨threshold, sensor⟩ | ⟨vector, absent⟩)
    · simp [hk] at unknown
    · omega
    · obtain ⟨selected, kind⟩ := h4 threshold
      omega
    · exact absurd (h9 vector) (Nat.not_lt.mpr absent)
  change execGetFeatures q (fid + 256 * d11) select s = _
  rw [execGetFeatures, startCmd_pos hs]
  dsimp only
  rw [low, high, if_neg legal, hc]
  rfl

/-! ### Asynchronous events (R274, R535) -/

/-- With no event that waits, the command stays outstanding. -/
theorem exec_asyncEventRequest_waits (hs : Started q s) (hc : s.ctrl q.cntl = some c) (hp : c.aePending = [])
    (hl : c.aers.length < 16) : exec (.asyncEventRequest q) s =
      .next ((s.modCtrl q.cntl fun c => { c with aers := c.aers ++ [q.cid] }).started q) := by
  change execAsyncEventRequest q s = _
  simp only [execAsyncEventRequest, startCmd_pos hs, hc, hp, if_neg (Nat.not_le.mpr hl)]

/-- The first event that waits is taken; an event of type 7h masks the next ones. -/
theorem exec_asyncEventRequest_takes {e : Nat × Nat} {rest : List (Nat × Nat)} (hs : Started q s) (hc : s.ctrl q.cntl = some c)
    (hp : c.aePending = e :: rest) : exec (.asyncEventRequest q) s =
      .next ((s.modCtrl q.cntl fun c => { c with aePending := rest, aeMasked := c.aeMasked || e.1 == 7 }).succeed q e.2) := by
  change execAsyncEventRequest q s = _
  simp only [execAsyncEventRequest, startCmd_pos hs, hc, hp]

end AdminRows

/-- Settles O14: each command's own lemma, under the operands that the statement gives it. -/
theorem adminRowsComplete : Obligations.AdminRowsComplete := by
  intro s q c hs hc
  refine ⟨fun qid size cqid prio base completion ioQueue named within unused entries fits => ?submission,
    fun _ _ _ _ _ => exec_createIoCq hs hc, fun _ _ => exec_deleteIoSq hs hc, fun _ _ => exec_deleteIoCq hs hc,
    fun _ _ _ _ _ => exec_getLogPage hs, fun _ _ _ _ => exec_identify hs, fun _ _ => exec_abortCommand hs,
    fun _ => exec_setFeatures_queues hs, fun _ _ => exec_setFeatures hs, fun fid d11 hf hk h4 h9 => ?features,
    exec_asyncEventRequest_waits hs hc, fun _ _ => exec_asyncEventRequest_takes hs hc⟩
  case submission =>
    have legal : SqLegal s q c qid size cqid := ⟨completion, ioQueue, named, within, unused, entries, fits⟩
    exact ⟨exec_createIoSq hs hc legal, exec_createOrderedIoSq hs hc legal⟩
  case features =>
    have read {select : Nat} := exec_getFeatures (select := select) hs hc hf hk h4 h9
    exact ⟨read (by decide), read (by decide), read (by decide), read (by decide)⟩

end Sys2Proof.Machine

/-!
PROOFS. The lake rows of the admin commands (R297): a join or leave that is accepted stays outstanding until it is settled, so that its
command counts as started.
-/

namespace Sys2Proof.Machine

section LakeCommands

variable {s : State} {q : CmdRef} {b : Nat} {late : Bool}

/-- What a lake command asks to be committed, in its controller's session (R297). -/
abbrev lakeAsk (q : CmdRef) (writes : List Staged) : CommitAsk := ⟨sessionKey 1 q.cntl, 1, 0, writes, none, none⟩

/-- The state that holds a join or leave of a command, not yet settled. -/
def State.lakeAwaits (s : State) (q : CmdRef) (now : Nat) : State :=
  { s with lake := { s.lake with join := some ⟨some q, false, false, now⟩ } }

theorem lakeControl_acceptable {writes : List Staged} (ha : Acceptable s (lakeAsk q writes) b late) :
    s.lakeControl q writes = ((s.accepted (lakeAsk q writes)).lakeAwaits q s.time.now).started q := by
  rw [State.lakeControl, acceptCommit_acceptable ha]
  rfl

/-- A leave that is accepted starts its command, which is not completed yet. -/
theorem exec_lakeLeave (hs : Started q s) (hv : isVf q.cntl = false) : let s1 := s.countVendor true 0xD0
    let a := lakeAsk q [⟨0x9002, 1, [2], false, []⟩]
    s1.holdsLake = false → s1.lake.join = none → s1.lake.state ≠ 1 → s1.fault.safeHold = false → Acceptable s1 a b late →
    exec (.lakeLeave q) s = .next (((s1.accepted a).lakeAwaits q s1.time.now).started q) := by
  intro s1 a notHeld noJoin member free ha
  have idle : ¬(s1.lake.join.isSome = true ∨ s1.lake.state = 1) := by simp [noJoin, member]
  change execLakeLeave q s = _
  rw [execLakeLeave, startCmd_pos hs]
  dsimp only
  rw [if_neg (by simp [hv]), if_neg (by rw [free]; decide), if_neg (by rw [notHeld]; decide),
    if_neg idle, lakeControl_acceptable ha]

end LakeCommands

/-! ### A leave that is accepted -/

/-- A device that is alone in lake 5, as its leader, and whose controller 1 has fetched command 8 of its admin queue. -/
def lakeLeaveFetched : State :=
  { State.reset with
    boot := { State.reset.boot with porst := false, running := true, step := 11 }
    host := { State.reset.host with ctrls := [(1, { Ctrl.fresh 129 true with
      en := true, rdy := true
      sqs := [(0, ⟨32, 0, 0, 0, false, false, 0, 0, [], none, 0⟩)]
      cqs := [(0, ⟨32, 0, 0, true, 0, 0, true, []⟩)]
      cmds := [⟨0, 8, false, none, 0, 0, 0⟩] })] }
    lake := { State.reset.lake with state := 3, ident := 5, node := 3, leader := 3, members := [3] } }

/-- Its command, a Lake Control that leaves (R504). -/
abbrev lakeLeaveCmd : CmdRef := ⟨1, 0, 8⟩

/-- What the leave asks to be committed. -/
abbrev leaveAsk : CommitAsk := lakeAsk lakeLeaveCmd [⟨0x9002, 1, [2], false, []⟩]

/-- The leave may be accepted, for the boundary that the next commit has. -/
theorem leaveAsk_acceptable : Acceptable (lakeLeaveFetched.countVendor true 0xD0) leaveAsk lakeLeaveFetched.permitted false where
  counts := by decide
  boundary := by decide
  apart := by decide
  supply := by decide

/-- The state that the statement gives for the leave: its command is still to start. -/
def leaveAccepted : State :=
  let s1 := lakeLeaveFetched.countVendor true 0xD0
  (s1.accepted leaveAsk).lakeAwaits lakeLeaveCmd s1.time.now

theorem leaveAccepted_unstarted :
    leaveAccepted.unstarted lakeLeaveCmd = true ∧ (leaveAccepted.started lakeLeaveCmd).unstarted lakeLeaveCmd = false := by
  decide

/-- Refutes O15: an accepted leave stays outstanding with its command started (R297), where the statement gives a state in which the
command is still to start, and would run a second time. -/
theorem not_namespaceRowsComplete : ¬ Obligations.NamespaceRowsComplete := by
  intro h
  have started : Started lakeLeaveCmd lakeLeaveFetched := by
    rw [Started]
    decide
  obtain ⟨-, -, -, -, -, -, -, -, -, -, -, -, claims⟩ := h lakeLeaveFetched lakeLeaveCmd started rfl
  have claimed := claims _ false rfl rfl (by decide) rfl leaveAsk_acceptable
  have answered := exec_lakeLeave started rfl rfl rfl (by decide) rfl leaveAsk_acceptable
  have same : leaveAccepted.started lakeLeaveCmd = leaveAccepted := Host.Outcome.next.inj (answered.symm.trans claimed)
  obtain ⟨waits, begun⟩ := leaveAccepted_unstarted
  rw [same, waits] at begun
  exact absurd begun (by decide)

end Sys2Proof.Machine

/-!
PROOFS. The vendor commands on takes and ranges (R298 to R300): what each starts or answers, on a take, frame or range that the function
may read, one lemma a command.
-/

namespace Sys2Proof.Machine

section TakeCommands

variable {s : State} {q : CmdRef} {nsid take spring frame band : Nat} {t : Take} {r : List Nat}

/-- A recorded frame of a take that the command sees (R298, R300). -/
theorem onFrame_seen {op : Nat} {k : List Nat → State} (h : SeesTake s q nsid take t) (hr : t.frameEntry spring frame = some r) :
    s.onFrame q op nsid take spring frame k = k r := by
  rw [State.onFrame, onTake_seen h]
  simp only [hr]

/-! ### Verification (R299) -/

theorem exec_verifyFrame (hs : Started q s) : let s0 := s.countIo q 0x88 3
    SeesTake s0 q nsid take t → t.frameEntry spring frame = some r → bandNamed r band = none →
    exec (.verifyFrame q nsid take spring frame band) s =
      .next (s0.startRead ⟨q, nsid, 0, 0, 3, [take, spring, frame, band], 0, 0, []⟩ (bandLbas (entryBands r band))) := by
  intro s0 seen recorded named
  change execVerifyFrame q nsid take spring frame band s = _
  rw [execVerifyFrame, startCmd_pos hs]
  dsimp only
  rw [onFrame_seen seen recorded, named]

/-- The seal of a sealed take is compared with the HMAC of its records under the take's key. -/
theorem exec_verifyTakeSeal (hs : Started q s) : let s0 := s.countIo q 0x8C 3
    SeesTake s0 q nsid take t → bitOf t.sealFlags 0 = true → exec (.verifyTakeSeal q nsid take) s =
      .next (s0.endVerify q 0x8C ((s0.takeKey nsid take t.openEpoch).map (fun k => hmac384 k t.records.flatten) = some t.sealTag)) := by
  intro s0 seen isSealed
  change execVerifyTakeSeal q nsid take s = _
  rw [execVerifyTakeSeal, startCmd_pos hs]
  dsimp only
  rw [onTake_seen seen, if_neg (by simp [isSealed])]

section Ranges

variable {slba blocks alg : Nat}

theorem exec_verifyRangeDigest {expected : List Nat} (hs : Started q s) : let s0 := s.countIo q 0x8D 3
    SeesRange s0 q nsid slba blocks → alg ≤ 2 → expected.length = rangeDigestBytes alg →
    exec (.verifyRangeDigest q nsid slba blocks alg expected) s =
      .next (s0.startRead ⟨q, nsid, slba, blocks, 4, alg :: expected, 0, 0, []⟩ (rangeLbas slba blocks)) := by
  intro s0 seen known length
  change execVerifyRangeDigest q nsid slba blocks alg expected s = _
  rw [execVerifyRangeDigest, startCmd_pos hs]
  dsimp only
  rw [readRange_seen seen, if_neg (Nat.not_lt.mpr known), if_neg (not_not.mpr length)]

theorem exec_computeRangeDigest (hs : Started q s) : let s0 := s.countIo q 0x8E 3
    SeesRange s0 q nsid slba blocks → alg ≤ 2 → exec (.computeRangeDigest q nsid slba blocks alg) s =
      .next (s0.startRead ⟨q, nsid, slba, blocks, 5, [alg], 0, 0, []⟩ (rangeLbas slba blocks)) := by
  intro s0 seen known
  change execComputeRangeDigest q nsid slba blocks alg s = _
  rw [execComputeRangeDigest, startCmd_pos hs]
  dsimp only
  rw [readRange_seen seen, if_neg (Nat.not_lt.mpr known)]

end Ranges

/-! ### Reads of a frame (R300) -/

theorem exec_readFrame {offset bytes : Nat} (hs : Started q s) : let s0 := s.countIo q 0x92 0
    SeesTake s0 q nsid take t → t.frameEntry spring frame = some r → bandNamed r band = none → bytes ≤ 2097152 →
    exec (.readFrame q nsid take spring frame band offset bytes) s =
      .next (s0.startRead ⟨q, nsid, 0, 0, 6, [take, spring, frame, band, offset, bytes], 0, 0, []⟩ (bandLbas (entryBands r band))) := by
  intro s0 seen recorded named fits
  change execReadFrame q nsid take spring frame band offset bytes s = _
  rw [execReadFrame, startCmd_pos hs]
  dsimp only
  rw [onFrame_seen seen recorded, if_neg (Nat.not_lt.mpr fits), named]

/-- The entry of a recorded frame is sent at once, cut or filled up to the command's Dwords. -/
theorem exec_readFrameEntry {ndt : Nat} (hs : Started q s) : let s0 := s.countIo q 0x96 0
    SeesTake s0 q nsid take t → t.frameEntry spring frame = some r →
    exec (.readFrameEntry q nsid take spring frame ndt) s =
      .next (((s0.sendBytes q (fit (4 * ndt) r)).bump (0x40C0 + portOf q.cntl) 0).succeed q r.length) := by
  intro s0 seen recorded
  change execReadFrameEntry q nsid take spring frame ndt s = _
  rw [execReadFrameEntry, startCmd_pos hs]
  dsimp only
  rw [onFrame_seen seen recorded]

end TakeCommands

/-- Settles O18: each command's own lemma, on what it names in the state that has counted it. -/
theorem takeCommandRowsComplete : Obligations.TakeCommandRowsComplete := by
  intro s q nsid hs
  exact ⟨fun _ _ _ _ _ _ => exec_verifyFrame hs, fun _ _ => exec_verifyTakeSeal hs, fun _ _ _ _ => exec_verifyRangeDigest hs,
    fun _ _ _ => exec_computeRangeDigest hs, fun _ _ _ _ _ _ _ _ => exec_readFrame hs,
    fun _ _ _ _ _ _ => exec_readFrameEntry hs⟩

end Sys2Proof.Machine

/-!
PROOFS. The rows of the controllers' states, the functions and their shares (chapters 9 and 10): what each answers where its guard holds,
one lemma a row.
-/

namespace Sys2Proof.Machine

section FunctionRows

variable {s : State} {q : CmdRef} {c : Ctrl} {cntl port fn us : Nat}

/-! ### Controllers and the subsystem (R274, R291) -/

/-- A controller is enabled that is online, in D0 and in no function-level reset. -/
theorem exec_controllerEnable (hc : s.ctrl cntl = some c) (he : c.en = false) (ho : c.online = true) (hf : c.flr = false)
    (hp : (s.pciOf (cntl - 1)).power = 0) : exec (.controllerEnable cntl) s = .next (s.enableCtrl cntl) := by
  change execControllerEnable cntl s = _
  simp only [execControllerEnable, hc]
  rw [if_neg (by simp [he, ho, hf, hp])]

theorem exec_controllerDisable (hc : s.ctrl cntl = some c) (he : c.en = true) :
    exec (.controllerDisable cntl) s = .next ((s.resetCtrl cntl).countReset 6 cntl).allQuiet := by
  change execControllerDisable cntl s = _
  simp only [execControllerDisable, hc, if_pos he]

theorem exec_shutdownNotification (hc : s.ctrl cntl = some c) (he : c.en = true) :
    exec (.shutdownNotification cntl) s = .next (s.shutCtrl cntl) := by
  change execShutdownNotification cntl s = _
  simp only [execShutdownNotification, hc]
  rw [if_neg (by simp [he])]

/-- NSSR takes the value "NVMe" alone. -/
theorem exec_nvmSubsystemReset :
    exec (.nvmSubsystemReset 0x4E564D65) s = .next (s.subsystemReset.countReset 5 0).allQuiet := by
  change execNvmSubsystemReset 0x4E564D65 s = _
  rw [execNvmSubsystemReset, if_pos rfl]

/-! ### Functions and their resets (R306, R315) -/

theorem exec_vfEnableChange {enable : Bool} {numVfs : Nat} (hd : s.hasDie port = true) :
    exec (.vfEnableChange port enable numVfs) s = .next (s.setVfs port enable numVfs) := by
  change execVfEnableChange port enable numVfs s = _
  rw [execVfEnableChange, onDie_pos hd]

theorem exec_functionLevelReset (hc : s.ctrl (fn + 1) = some c) (hf : c.flr = false) :
    exec (.functionLevelReset fn) s = .next (((s.flrSet fn).foldl State.flrOne s).countReset 7 fn).allQuiet := by
  change execFunctionLevelReset fn s = _
  simp only [execFunctionLevelReset, hc]
  rw [if_neg (by simp [hf])]

theorem exec_functionLevelResetComplete (hc : s.ctrl (fn + 1) = some c) (hf : c.flr = true) (hu : us ≤ 1000) :
    exec (.functionLevelResetComplete fn us) s = .next (s.flrDone fn us) := by
  change execFunctionLevelResetComplete fn us s = _
  simp only [execFunctionLevelResetComplete, hc]
  rw [if_neg (by simp [hf]), if_neg (Nat.not_lt.mpr hu)]

/-! ### Limits of time (R293, R311, R313, R321) -/

/-- A quiesce that has not ended within the limit of 0x4107 stops with its running commands left. -/
theorem exec_quiesceLimitExpiry (hc : s.ctrl (fn + 1) = some c) (hq : c.quiesce = 1)
    (ht : c.quiesceAt + s.obj 0x4107 0 * 1000000 ≤ s.time.now) : exec (.quiesceLimitExpiry fn) s =
      .next ((s.modCtrl (fn + 1) fun c => { c with quiesce := 3, quiesceLeft := c.running }).raiseFn (evDie (fn / 32) 82) fn fn) := by
  change execQuiesceLimitExpiry fn s = _
  simp only [execQuiesceLimitExpiry, hc]
  rw [if_neg (not_not.mpr hq), if_neg (Nat.not_lt.mpr ht)]

theorem exec_bucketRefill (ht : s.host.refilled + s.refillNs ≤ s.time.now) : exec .bucketRefill s =
    .next { s.refillBuckets with host := { s.refillBuckets.host with refilled := s.time.now } } :=
  if_neg (Nat.not_lt.mpr ht)

theorem exec_programHoldExpiry {r : HeldRun} (hr : (s.host.heldRuns.find? fun r => r.q = q) = some r)
    (ht : r.since + s.obj 0x4106 0 * 1000000 ≤ s.time.now) : exec (.programHoldExpiry q) s = .next (s.runHoldEnds q) := by
  change execProgramHoldExpiry q s = _
  simp only [execProgramHoldExpiry, hr, if_neg (Nat.not_lt.mpr ht)]

/-- An activation ends within 400 ms, once its controllers have drained (R293). -/
theorem exec_firmwareActivationResume {slot x : Nat} (ha : s.host.activating = some (q, slot, x)) (hd : s.drained q = true)
    (hu : us ≤ 400000) : exec (.firmwareActivationResume us) s = .next (s.activationEnds q slot us) := by
  change execFirmwareActivationResume us s = _
  simp only [execFirmwareActivationResume, ha]
  rw [if_neg (by simp [hd, hu])]

end FunctionRows

/-- Settles O19: each row's own lemma, under the guards that the statement gives it; a subsystem reset has no guard. -/
theorem functionRowsComplete : Obligations.FunctionRowsComplete := by
  intro s
  exact ⟨fun _ _ => exec_controllerEnable, fun _ _ hc he => ⟨exec_controllerDisable hc he, exec_shutdownNotification hc he⟩,
    exec_nvmSubsystemReset, fun _ _ _ => exec_vfEnableChange,
    fun _ _ hc => ⟨exec_functionLevelReset hc, fun _ => exec_functionLevelResetComplete hc, exec_quiesceLimitExpiry hc⟩,
    exec_bucketRefill, fun _ _ => exec_programHoldExpiry, fun _ _ _ _ => exec_firmwareActivationResume⟩

end Sys2Proof.Machine

/-!
PROOFS. The words of instructions: encoding gives back every bit of a word that decodes (R335 to R339, R352, R362 to R369).
-/

namespace Sys2Proof.Machine

/-! ### Fields of a word -/

/-- The fields of a format, each by its highest and lowest bit, follow one another from below bit n down to bit 0. -/
def tiles : List (Nat × Nat) → Nat → Bool
  | [], n => n == 0
  | (hi, lo) :: l, n => n == hi + 1 && lo ≤ hi && tiles l lo

theorem ofFields_foldl (l : List (Nat × Nat)) (n : Nat) :
    l.foldl (fun n f => n + f.1 * 2 ^ f.2) n = n + ofFields l := by
  induction l generalizing n with
  | nil => rfl
  | cons f l ih => simp [ofFields, ih (n + f.1 * 2 ^ f.2), ih (f.1 * 2 ^ f.2), Nat.add_assoc]

theorem ofFields_cons (f : Nat × Nat) (l : List (Nat × Nat)) : ofFields (f :: l) = f.1 * 2 ^ f.2 + ofFields l := by
  rw [← ofFields_foldl l (f.1 * 2 ^ f.2)]
  simp [ofFields]

/-- The bits below a field's end are its own bits and those below it. -/
theorem bits_add_mod (w : Nat) {hi lo : Nat} (h : lo ≤ hi) : bits w hi lo * 2 ^ lo + w % 2 ^ lo = w % 2 ^ (hi + 1) := by
  have hp : 2 ^ (hi + 1) = 2 ^ lo * 2 ^ (hi + 1 - lo) := by rw [← pow_add]; congr 1; omega
  rw [hp, Nat.mod_mul, bits]
  ring

/-- Fields that follow one another, put together again. -/
theorem ofFields_bits (w : Nat) (l : List (Nat × Nat)) {n : Nat} (h : tiles l n = true) :
    ofFields (l.map fun f => (bits w f.1 f.2, f.2)) = w % 2 ^ n := by
  induction l generalizing n with
  | nil =>
    obtain rfl : n = 0 := by simpa [tiles] using h
    simp [ofFields, Nat.mod_one]
  | cons f l ih =>
    obtain ⟨hi, lo⟩ := f
    simp only [tiles, Bool.and_eq_true, beq_iff_eq, decide_eq_true_eq] at h
    obtain ⟨⟨rfl, hlo⟩, hl⟩ := h
    rw [List.map_cons, ofFields_cons, ih hl]
    exact bits_add_mod w hlo

/-- The fields of a whole word. -/
theorem ofFields_word {w : Nat} (hw : w < 2 ^ 32) (l : List (Nat × Nat)) (h : tiles l 32 = true) :
    ofFields (l.map fun f => (bits w f.1 f.2, f.2)) = w := by
  rw [ofFields_bits w l h, Nat.mod_eq_of_lt hw]

theorem bits_lt (w hi lo : Nat) : bits w hi lo < 2 ^ (hi + 1 - lo) := Nat.mod_lt _ (by positivity)

/-- A field of one bit, kept as a Bool. -/
theorem b2n_bits (w k : Nat) : b2n (decide (bits w k k = 1)) = bits w k k := by
  have h : bits w k k < 2 := by simpa using bits_lt w k k
  unfold b2n
  split <;> rename_i h1 <;> simp only [decide_eq_true_eq] at h1 <;> omega

/-- An immediate, sign-extended and cut again. -/
theorem twos_signed (k w : Nat) : twos (k + 1) (signed (k + 1) w) = bits w k 0 := by
  have hm : ((w % 2 ^ (k + 1) : Nat) : Int) % 2 ^ (k + 1) = (w % 2 ^ (k + 1) : Nat) := by
    exact_mod_cast Nat.mod_mod w (2 ^ (k + 1))
  have hs : signed (k + 1) w % 2 ^ (k + 1) = (w % 2 ^ (k + 1) : Nat) := by
    simp only [signed]
    split
    · exact hm
    · rw [Int.sub_emod_right, hm]
  rw [twos, hs, Int.toNat_natCast]
  simp [bits]

/-! ### The tables of operations -/

theorem findFunc_some {l : List FuncRow} {major func : Nat} {r : FuncRow} (h : findFunc l major func = some r) :
    r ∈ l ∧ r.major = major ∧ r.func = func := by
  have hp := List.find?_some h
  simp only [Bool.and_eq_true, decide_eq_true_eq] at hp
  exact ⟨List.mem_of_find?_eq_some h, hp⟩

/-- An operation is in one row of the tables of majors 0x00 to 0x03 and 0x38 to 0x3B. -/
theorem row_of_op : ∀ r ∈ scalarRows ++ vectorRows, ((scalarRows ++ vectorRows).find? fun q => q.op = r.op) = some r := by decide

theorem scalarRow_of_op : ∀ r ∈ scalarRows, (scalarRows.find? fun q => q.op = r.op) = some r := by decide

theorem scalarRows_major : ∀ r ∈ scalarRows, r.major ≤ 3 := by decide

theorem vectorRows_major : ∀ r ∈ vectorRows, 3 < r.major := by decide

/-- No row of the function tables has the operation. -/
def noRow (op : Op) : Bool :=
  ((scalarRows ++ vectorRows).find? fun r => r.op = op).isNone && (scalarRows.find? fun r => r.op = op).isNone

/-- No table at all has the operation, and it is none of the jumps: its word has the coprocessors' format. -/
def copFormat (op : Op) : Bool :=
  noRow op && (immOps.find? fun r => r.2 = op).isNone && (branchOps.idxOf? op).isNone && (sysOps.idxOf? op).isNone &&
    !([Op.jalr, .j, .jal, .b, .bl, .br].contains op)

theorem immOps_only : ∀ r ∈ immOps, noRow r.2 = true ∧ (immOps.find? fun q => q.2 = r.2) = some r := by decide

theorem branchOps_only : ∀ e ∈ branchOps.zipIdx, noRow e.1 = true ∧ (immOps.find? fun q => q.2 = e.1) = none ∧
    branchOps.idxOf? e.1 = some e.2 := by decide

theorem sysOps_only : ∀ e ∈ sysOps.zipIdx, noRow e.1 = true ∧ (immOps.find? fun q => q.2 = e.1) = none ∧
    branchOps.idxOf? e.1 = none ∧ sysOps.idxOf? e.1 = some e.2 := by decide

/-- The operations of a coprocessor's major. -/
def copOps (major : Nat) : List Op :=
  if major = 0x3C then [.srch, .srch288, .srch576, .sins, .sput, .swr, .sdel, .srd, .sclr, .sstat]
  else if major = 0x3D then [.pget, .paddref, .ppass, .pput, .pquery, .pmap, .punmap]
  else if major = 0x3E then [.jsubCipher, .jsubDigest, .jsubCodec, .jpoll] else [.cop3]

theorem copOps_only : ∀ major ∈ [0x3C, 0x3D, 0x3E, 0x3F], ∀ op ∈ copOps major, copFormat op = true ∧ copMajor op = major := by decide

theorem copOp_mem {major c : Nat} {op : Op} {e : Bool × Bool × Bool} (h : copOp major c = some (op, e)) (h3 : 0x3C ≤ major)
    (hm : major < 0x3F) : op ∈ copOps major := by
  have hmaj : major = 0x3C ∨ major = 0x3D ∨ major = 0x3E := by omega
  rcases hmaj with rfl | rfl | rfl
  · rw [copOp, if_pos rfl] at h
    split_ifs at h <;> cases h <;> decide
  · rw [copOp, if_neg (by decide), if_pos rfl] at h
    split_ifs at h <;> cases h <;> decide
  · rw [copOp, if_neg (by decide), if_neg (by decide)] at h
    split_ifs at h <;> cases h <;> decide

theorem noRow_iff {op : Op} : noRow op = true ↔ ((scalarRows ++ vectorRows).find? fun r => r.op = op) = none ∧
    (scalarRows.find? fun r => r.op = op) = none := by simp [noRow]

/-! ### The encoders, an equation for each format -/

theorem encode2_row {x : Dec} {r : FuncRow} (hr : r ∈ scalarRows ++ vectorRows) (hx : x.op = r.op) : encode2 x =
    if r.major = 3 then
      ofFields [(3, 26), (x.ctl, 23), (x.s, 18), (x.t, 13), (b2n x.sat, 12), (x.rnd, 10), (x.ew, 6), (r.func, 0)]
    else if r.major ≤ 2 then
      ofFields [(r.major, 26), (x.d, 21), (x.s, 16), (x.t, 11), (b2n x.sat, 10), (x.rnd, 8), (x.ew, 6), (r.func, 0)]
    else ofFields [(r.major, 26), (x.d, 21), (x.s, 16), (x.t, 11), (x.ew, 9), (b2n x.sat, 8), (x.rnd, 6), (r.func, 0)] := by
  simp only [encode2, hx, row_of_op r hr]

theorem encode2_imm {x : Dec} {r : Nat × Op} (hr : r ∈ immOps) (hx : x.op = r.2) :
    encode2 x = ofFields [(r.1, 26), (x.d, 21), (x.s, 16), (twos 16 x.imm, 0)] := by
  obtain ⟨hn, hi⟩ := immOps_only r hr
  simp only [encode2, hx, (noRow_iff.1 hn).1, hi]

theorem encode2_branch {x : Dec} {k : Nat} (hk : branchOps[k]? = some x.op) :
    encode2 x = ofFields [(0x20 + k, 26), (x.s, 21), (x.t, 16), (twos 16 x.imm, 0)] := by
  obtain ⟨hn, hi, hb⟩ := branchOps_only (x.op, k) (List.mem_zipIdx_iff_getElem?.2 hk)
  simp only [encode2, (noRow_iff.1 hn).1, hi, hb]

theorem encode2_sys {x : Dec} {k : Nat} (hk : sysOps[k]? = some x.op) :
    encode2 x = ofFields [(0x30, 26), (x.d, 21), (x.s, 16), (x.ctl, 4), (k, 0)] := by
  obtain ⟨hn, hi, hb, hs⟩ := sysOps_only (x.op, k) (List.mem_zipIdx_iff_getElem?.2 hk)
  simp only [encode2, (noRow_iff.1 hn).1, hi, hb, hs]

/-- An operation of the coprocessors' format, by what its absence from every table says. -/
theorem copFormat_iff {op : Op} : copFormat op = true ↔ (noRow op = true ∧ (immOps.find? fun r => r.2 = op) = none ∧
    branchOps.idxOf? op = none ∧ sysOps.idxOf? op = none ∧ op ∉ [Op.jalr, .j, .jal, .b, .bl, .br]) := by
  simp only [copFormat, Bool.and_eq_true, Option.isNone_iff_eq_none, Bool.not_eq_true', List.contains_eq_mem, decide_eq_false_iff_not, and_assoc]

theorem encode2_cop {x : Dec} (h : copFormat x.op = true) :
    encode2 x = ofFields [(copMajor x.op, 26), (x.d, 21), (x.s, 16), (x.t, 11), (x.ctl, 0)] := by
  obtain ⟨hn, hi, hb, hs, hj⟩ := copFormat_iff.1 h
  simp only [List.mem_cons, not_or] at hj
  simp only [encode2, (noRow_iff.1 hn).1, hi, hb, hs, hj, if_false]

theorem encode1_row {x : Dec} {r : FuncRow} (hr : r ∈ scalarRows) (hx : x.op = r.op) : encode1 x =
    if r.major = 3 then
      ofFields [(x.cond, 28), (3, 22), (x.ctl, 19), (x.s, 15), (x.t, 11), (b2n x.sat, 10), (x.rnd, 8), (x.ew, 6), (r.func, 0)]
    else ofFields [(x.cond, 28), (r.major, 22), (b2n x.setF, 21), (x.d, 17), (x.s, 13), (x.t, 9), (b2n x.sat, 8), (x.rnd, 6),
      (r.func, 0)] := by
  simp only [encode1, hx, scalarRow_of_op r hr]

theorem encode1_imm {x : Dec} {r : Nat × Op} (hr : r ∈ immOps) (hx : x.op = r.2) :
    encode1 x = ofFields [(x.cond, 28), (r.1, 22), (b2n x.setF, 21), (x.d, 17), (x.s, 13), (twos 13 x.imm, 0)] := by
  obtain ⟨hn, hi⟩ := immOps_only r hr
  simp only [encode1, hx, (noRow_iff.1 hn).2, hi]

theorem encode1_sys {x : Dec} {k : Nat} (hk : sysOps[k]? = some x.op) :
    encode1 x = ofFields [(x.cond, 28), (0x30, 22), (x.d, 18), (x.s, 14), (x.ctl, 4), (k, 0)] := by
  obtain ⟨hn, hi, hb, hs⟩ := sysOps_only (x.op, k) (List.mem_zipIdx_iff_getElem?.2 hk)
  simp only [encode1, (noRow_iff.1 hn).2, hi, hs]

theorem encode1_cop {x : Dec} (h : copFormat x.op = true) :
    encode1 x = ofFields [(x.cond, 28), (copMajor x.op, 22), (x.d, 18), (x.s, 14), (x.t, 10), (x.ctl, 0)] := by
  obtain ⟨hn, hi, hb, hs, hj⟩ := copFormat_iff.1 h
  simp only [List.mem_cons, not_or] at hj
  simp only [encode1, (noRow_iff.1 hn).2, hi, hs, hj, if_false]

/-- The jumps, each with a format of its own. -/
theorem encode2_jalr {x : Dec} (h : x.op = .jalr) : encode2 x = ofFields [(0x28, 26), (x.d, 21), (x.s, 16), (twos 16 x.imm, 0)] := by
  rw [encode2, h]; rfl
theorem encode2_j {x : Dec} (h : x.op = .j) : encode2 x = ofFields [(0x26, 26), (twos 26 x.imm, 0)] := by rw [encode2, h]; rfl
theorem encode2_jal {x : Dec} (h : x.op = .jal) : encode2 x = ofFields [(0x27, 26), (twos 26 x.imm, 0)] := by rw [encode2, h]; rfl
theorem encode1_b {x : Dec} (h : x.op = .b) : encode1 x = ofFields [(x.cond, 28), (0x20, 22), (twos 22 x.imm, 0)] := by
  rw [encode1, h]; rfl
theorem encode1_bl {x : Dec} (h : x.op = .bl) : encode1 x = ofFields [(x.cond, 28), (0x21, 22), (twos 22 x.imm, 0)] := by
  rw [encode1, h]; rfl
theorem encode1_br {x : Dec} (h : x.op = .br) :
    encode1 x = ofFields [(x.cond, 28), (0x22, 22), (x.d, 17), (x.s, 13), (twos 13 x.imm, 0)] := by rw [encode1, h]; rfl

/-! ### Decoded instructions -/

theorem decSys_some {d s ctl func cond : Nat} {x : Dec} (h : decSys d s ctl func cond = some x) :
    sysOps[func]? = some x.op ∧ x.d = d ∧ x.s = s ∧ x.ctl = ctl ∧ x.cond = cond := by
  unfold decSys at h
  split at h
  · cases h
  · rename_i op hop
    cases h
    exact ⟨hop, rfl, rfl, rfl, rfl⟩

theorem decCop_some {major d s t c cond : Nat} {x : Dec} (h3 : 0x3C ≤ major) (hm : major ≤ 0x3F)
    (h : decCop major d s t c cond = some x) :
    copFormat x.op = true ∧ copMajor x.op = major ∧ x.d = d ∧ x.s = s ∧ x.t = t ∧ x.ctl = c ∧ x.cond = cond := by
  unfold decCop at h
  split at h
  · rename_i h3F
    cases h
    obtain ⟨h1, h2⟩ := copOps_only 0x3F (by decide) .cop3 (by decide)
    exact ⟨h1, h2.trans h3F.symm, rfl, rfl, rfl, rfl, rfl⟩
  · rename_i h3F
    split at h
    · cases h
    · rename_i op nd ns nt hop
      cases h
      have hlt : major < 0x3F := by omega
      have hmem : major ∈ [0x3C, 0x3D, 0x3E, 0x3F] := by simp; omega
      obtain ⟨h1, h2⟩ := copOps_only major hmem op (copOp_mem hop h3 hlt)
      exact ⟨h1, h2, rfl, rfl, rfl, rfl, rfl⟩

/-! ### The two modes -/

/-- A Selkel-2 word with no reserved field set is the word of its instruction. -/
theorem encode2_decode2 {w : Nat} {x : Dec} (hw : w < 2 ^ 32) (h : decode2 w = some x) (hb : x.bad = false) : encode2 x = w := by
  have h16 : twos 16 (signed 16 w) = bits w 15 0 := twos_signed 15 w
  have h26 : twos 26 (signed 26 w) = bits w 25 0 := twos_signed 25 w
  have hmax : bits w 31 26 < 64 := bits_lt w 31 26
  simp only [decode2] at h
  split_ifs at h with hlow hacc hjalr hbr hj hjal hsys hvec hcop
  · obtain ⟨r, hr, rfl⟩ := Option.map_eq_some_iff.1 h
    obtain ⟨hmem, hmaj, hfunc⟩ := findFunc_some hr
    rw [encode2_row (r := r) (List.mem_append_left _ hmem) rfl, if_neg (by omega), if_pos (by omega), hmaj, hfunc]
    simp only [decScalar, b2n_bits]
    exact ofFields_word hw [(31, 26), (25, 21), (20, 16), (15, 11), (10, 10), (9, 8), (7, 6), (5, 0)] rfl
  · obtain ⟨r, hr, rfl⟩ := Option.map_eq_some_iff.1 h
    obtain ⟨hmem, hmaj, hfunc⟩ := findFunc_some hr
    have h98 : bits w 9 8 = 0 := by by_contra hne; simp [decScalar, hne] at hb
    rw [encode2_row (r := r) (List.mem_append_left _ hmem) rfl, if_pos (by omega), hfunc]
    simp only [decScalar, b2n_bits]
    rw [← hacc]
    refine Eq.trans ?_ (ofFields_word hw [(31, 26), (25, 23), (22, 18), (17, 13), (12, 12), (11, 10), (9, 8), (7, 6), (5, 0)] rfl)
    simp [ofFields, h98]
  · cases h
    rw [encode2_jalr rfl]
    simp only [h16]
    rw [← hjalr]
    exact ofFields_word hw [(31, 26), (25, 21), (20, 16), (15, 0)] rfl
  · obtain ⟨op, hop, rfl⟩ := Option.map_eq_some_iff.1 h
    refine (encode2_branch hop).trans ?_
    simp only [h16]
    rw [show 0x20 + (bits w 31 26 - 0x20) = bits w 31 26 by omega]
    exact ofFields_word hw [(31, 26), (25, 21), (20, 16), (15, 0)] rfl
  · cases h
    rw [encode2_j rfl]
    simp only [h26]
    rw [← hj]
    exact ofFields_word hw [(31, 26), (25, 0)] rfl
  · cases h
    rw [encode2_jal rfl]
    simp only [h26]
    rw [← hjal]
    exact ofFields_word hw [(31, 26), (25, 0)] rfl
  · obtain ⟨hop, hd, hs, hctl, -⟩ := decSys_some h
    rw [encode2_sys hop, hd, hs, hctl, ← hsys]
    exact ofFields_word hw [(31, 26), (25, 21), (20, 16), (15, 4), (3, 0)] rfl
  · obtain ⟨r, hr, rfl⟩ := Option.map_eq_some_iff.1 h
    obtain ⟨hmem, hmaj, hfunc⟩ := findFunc_some hr
    rw [encode2_row (r := r) (List.mem_append_right _ hmem) rfl, if_neg (by omega), if_neg (by omega), hmaj, hfunc]
    simp only [decScalar, b2n_bits]
    exact ofFields_word hw [(31, 26), (25, 21), (20, 16), (15, 11), (10, 9), (8, 8), (7, 6), (5, 0)] rfl
  · obtain ⟨hop, hmaj, hd, hs, ht, hctl, -⟩ := decCop_some hcop (by omega) h
    rw [encode2_cop hop, hmaj, hd, hs, ht, hctl]
    exact ofFields_word hw [(31, 26), (25, 21), (20, 16), (15, 11), (10, 0)] rfl
  · split at h
    · rename_i r hr
      cases h
      have hmaj : r.1 = bits w 31 26 := by simpa using List.find?_some hr
      rw [encode2_imm (List.mem_of_find?_eq_some hr) rfl, hmaj]
      simp only [h16]
      exact ofFields_word hw [(31, 26), (25, 21), (20, 16), (15, 0)] rfl
    · cases h

/-- A Selkel-1 word with no reserved field set is the word of its instruction. -/
theorem encode1_decode1 {w : Nat} {x : Dec} (hw : w < 2 ^ 32) (h : decode1 w = some x) (hb : x.bad = false) : encode1 x = w := by
  have h13 : twos 13 (signed 13 w) = bits w 12 0 := twos_signed 12 w
  have h22 : twos 22 (signed 22 w) = bits w 21 0 := twos_signed 21 w
  have hmax : bits w 27 22 < 64 := bits_lt w 27 22
  have hf : bits w 21 21 < 2 := bits_lt w 21 21
  simp only [decode1] at h
  split_ifs at h with hlow hacc hB hbl hbr hsys hcop
  · obtain ⟨r, hr, rfl⟩ := Option.map_eq_some_iff.1 h
    obtain ⟨hmem, hmaj, hfunc⟩ := findFunc_some hr
    rw [encode1_row (r := r) hmem rfl, if_neg (by omega), hmaj, hfunc]
    simp only [decScalar, b2n_bits]
    exact ofFields_word hw [(31, 28), (27, 22), (21, 21), (20, 17), (16, 13), (12, 9), (8, 8), (7, 6), (5, 0)] rfl
  · obtain ⟨r, hr, rfl⟩ := Option.map_eq_some_iff.1 h
    obtain ⟨hmem, hmaj, hfunc⟩ := findFunc_some hr
    have hjunk : bits w 21 21 ≠ 1 ∧ bits w 7 6 = 0 := by
      by_contra hne
      simp only [not_and_or, not_not] at hne
      rcases hne with hne | hne <;> simp [decScalar, hne] at hb
    have h21 : bits w 21 21 = 0 := by omega
    rw [encode1_row (r := r) hmem rfl, if_pos (by omega), hfunc]
    simp only [decScalar, b2n_bits]
    rw [← hacc]
    refine Eq.trans ?_ (ofFields_word hw [(31, 28), (27, 22), (21, 21), (20, 19), (18, 15), (14, 11), (10, 10), (9, 8), (7, 6), (5, 0)] rfl)
    simp [ofFields, h21]
  · cases h
    rw [encode1_b rfl]
    simp only [h22]
    rw [← hB]
    exact ofFields_word hw [(31, 28), (27, 22), (21, 0)] rfl
  · cases h
    rw [encode1_bl rfl]
    simp only [h22]
    rw [← hbl]
    exact ofFields_word hw [(31, 28), (27, 22), (21, 0)] rfl
  · cases h
    have h21 : bits w 21 21 = 0 := by simp only [decide_eq_false_iff_not] at hb; omega
    rw [encode1_br rfl]
    simp only [h13]
    rw [← hbr]
    refine Eq.trans ?_ (ofFields_word hw [(31, 28), (27, 22), (21, 21), (20, 17), (16, 13), (12, 0)] rfl)
    simp [ofFields, h21]
  · obtain ⟨hop, hd, hs, hctl, hcond⟩ := decSys_some h
    rw [encode1_sys hop, hd, hs, hctl, hcond, ← hsys]
    exact ofFields_word hw [(31, 28), (27, 22), (21, 18), (17, 14), (13, 4), (3, 0)] rfl
  · obtain ⟨hop, hmaj, hd, hs, ht, hctl, hcond⟩ := decCop_some (by omega) (by omega) h
    rw [encode1_cop hop, hmaj, hd, hs, ht, hctl, hcond]
    exact ofFields_word hw [(31, 28), (27, 22), (21, 18), (17, 14), (13, 10), (9, 0)] rfl
  · split at h
    · rename_i r hr
      cases h
      have hmaj : r.1 = bits w 27 22 := by simpa using List.find?_some hr
      have hset : b2n (decide (bits w 21 21 = 1) && !(decide (bits w 21 21 = 1) && (bits w 27 22 = 0x0A || 0x10 ≤ bits w 27 22))) =
          bits w 21 21 := by
        simp only [Bool.or_eq_false_iff] at hb
        rw [hb.1, Bool.not_false, Bool.and_true, b2n_bits]
      rw [encode1_imm (List.mem_of_find?_eq_some hr) rfl, hmaj]
      simp only [h13, hset]
      exact ofFields_word hw [(31, 28), (27, 22), (21, 21), (20, 17), (16, 13), (12, 0)] rfl
    · cases h

/-- Settles O38: in either mode no bit of a word is dropped. -/
theorem wordsRoundTrip : Obligations.WordsRoundTrip := by
  intro selkel1 w x hw h hb
  have hx : encodeWord selkel1 x = w := by
    cases selkel1
    · exact encode2_decode2 hw h hb
    · exact encode1_decode1 hw h hb
  exact ⟨hx, hx.symm ▸ h⟩

end Sys2Proof.Machine

/-!
PROOFS. The rows of the instruction set (R335 to R372): which act each row does where its operation runs, and which trap it takes where the
word, the operands or the place do not let it.
-/

namespace Sys2Proof.Machine

section InstructionRows

variable {op : Op} {i : Nat → Nat → Instr} {f : Ctx → Act}

/-! ### A row and its act -/

/-- A row that executes its operation's word by an act does that act. -/
theorem does_row (h : ∀ die core s, exec (i die core) s = execOp op die core s f) : Does op i f :=
  fun s die core _ hr => (h die core s).trans (execOp_runs hr f)

theorem doesWhen_row {ok : Ctx → Prop} {g : Ctx → Effect} (h : ∀ die core s, exec (i die core) s = execOp op die core s f)
    (hf : ∀ c, ok c → f c = .done (g c)) : DoesWhen op i ok g :=
  fun s die core c hr hc => (h die core s).trans (execOp_done hr (hf c hc))

theorem trapsWhen_row {ok : Ctx → Prop} {k : Nat} {v : Ctx → Nat} (h : ∀ die core s, exec (i die core) s = execOp op die core s f)
    (hf : ∀ c, ok c → f c = .trap k (v c)) : TrapsWhen op i ok k v :=
  fun s die core c hr hc => (h die core s).trans (execOp_trap hr (hf c hc))

/-- Every row of an operation executes that operation's word. -/
theorem exec_row {i : Instr} {die core : Nat} (h : rowOp i = some (op, die, core)) :
    ∃ f, ∀ s, exec i s = execOp op die core s f := by
  unfold rowOp at h
  split at h <;> cases h <;> exact ⟨_, fun _ => rfl⟩

/-- The row of each operation, in the order of `Op`. -/
noncomputable def rowOf (op : Op) : Nat → Nat → Instr :=
  [.add, .sub, .and, .or, .xor, .andn, .slt, .sltu, .min, .max, .minu, .maxu, .neg, .abs, .sll, .srl, .sra, .slli, .srli, .srai, .clz, .popc,
    .sextb, .sexth, .bswap, .packl, .packh, .mul, .mulh, .mulhu, .mulhsu, .div, .divu, .rem, .remu, .qmul, .qrshr, .qrshri, .qnarrow, .qsat16,
    .amul, .amac, .amsu, .amacq, .amsuq, .aclr, .aset, .aext, .agetl, .ageth, .agetg, .addi, .andi, .ori, .xori, .slti, .sltiu, .lui, .lb,
    .lbu, .lh, .lhu, .lw, .sb, .sh, .sw, .beq, .bne, .blt, .bge, .bltu, .bgeu, .j, .jal, .jalr, .b, .bl, .br, .crd, .cwr, .cset, .cclr, .trap,
    .eret, .wait, .fence, .exit, .vadd, .vsub, .vand, .vor, .vxor, .vmin, .vmax, .vminu, .vmaxu, .vneg, .vabs, .vsll, .vsrl, .vsra, .vqmul,
    .vqrshr, .vcmpeq, .vcmplt, .vcmpltu, .vsel, .vmul, .vpopc, .vmac, .vmsu, .vmacq, .vmula, .vaclr, .vld, .vst, .vbcast, .vget, .vput,
    .vredadd, .vredmin, .vredmax, .vperm, .vzipl, .vziph, .vwidenl, .vwidenh, .vaccout, .vaccin, .srch, .srch288, .srch576, .sins, .sput,
    .swr, .sdel, .srd, .sclr, .sstat, .pget, .paddref, .ppass, .pput, .pquery, .pmap, .punmap, .jsubCipher, .jsubDigest, .jsubCodec,
    .jpoll].getD op.ctorIdx Instr.cop3Instruction

/-- An operation has one row. -/
theorem rowOp_eq {i : Instr} {op : Op} {die core : Nat} (h : rowOp i = some (op, die, core)) : i = rowOf op die core := by
  unfold rowOp at h
  split at h <;> cases h <;> rfl

/-! ### What a row does with a word that its task sees -/

/-- A row of the operation at the pc runs it. -/
theorem execOp_sees {die core : Nat} {s : State} {c : Ctx} (h : Sees die core s c) (hop : c.x.op = op) :
    execOp op die core s f = .next (c.run f) := by
  obtain ⟨hd, slot, t0, w, x, hr, hw, hx, rfl⟩ := h
  have hop' : x.op = op := hop
  simp only [execOp, onDie_pos hd, hr, hw, hx, hop', ne_eq, not_true_eq_false, if_false]

theorem Ctx.run_eretOutside {c : Ctx} (hop : c.x.op = .eret) (hi : c.t.inTrap = false) :
    c.run f = c.s.takeTrap c.die c.slot c.t.pc 1 c.w := if_pos ⟨hop, by rw [hi]; rfl⟩

section Conditions

variable {c : Ctx} (hi : c.x.op = .eret → c.t.inTrap = true)
include hi

/-- An operation other than an ERET outside a trap passes the first check. -/
theorem Ctx.not_eretOutside : ¬(c.x.op = .eret ∧ (!c.t.inTrap) = true) := fun h => by simp [hi h.1] at h

theorem Ctx.run_bad (hb : c.x.bad = true) : c.run f = c.s.takeTrap c.die c.slot c.t.pc 2 c.w := by
  rw [Ctx.run, if_neg (c.not_eretOutside hi), if_pos hb]

theorem Ctx.run_cop3 (hb : c.x.bad = false) (h3 : c.x.op = .cop3) : c.run f = c.s.takeTrap c.die c.slot c.t.pc 7 c.w := by
  rw [Ctx.run, if_neg (c.not_eretOutside hi), if_neg (by simp [hb]), if_pos h3]

/-- A condition that fails moves the task on, after a wait for the flags in L mode (R371). -/
theorem Ctx.run_failed (hb : c.x.bad = false) (h3 : c.x.op ≠ .cop3) (hc : condHolds c.x.cond (c.t.reg rPs) = false) :
    c.run f = c.s.setTask c.die c.slot { c.t with
      pc := c.t.pc + 4, count := c.t.count + 1
      cycles := c.t.cycles + ((if c.t.nMode then 0 else tgetD c.t.avail rPs 0 - c.t.cycles) + 1) } := by
  rw [Ctx.run, if_neg (c.not_eretOutside hi), if_neg (by simp [hb]), if_neg h3, if_pos (by simp [hc]), ← Nat.add_assoc]

end Conditions

end InstructionRows

/-! ### Integer, immediate and fixed-point rows (R338, R342, R344, R348, R349) -/

/-- Settles O20: each row executes its operation's word by the act that the statement gives. -/
theorem integerRowsComplete : Obligations.IntegerRowsComplete := by
  unfold Obligations.IntegerRowsComplete
  and_intros <;> exact does_row fun _ _ _ => rfl

/-- Settles O21: each row executes its operation's word by the act that the statement gives. -/
theorem fixedPointRowsComplete : Obligations.FixedPointRowsComplete := by
  unfold Obligations.FixedPointRowsComplete
  and_intros <;> exact does_row fun _ _ _ => rfl

/-! ### Division, loads and stores (R343, R345, R403) -/

section MemoryRows

variable {c : Ctx} {n : Nat} {f : Nat → Nat} {b : List Nat} {p : Place} {m o onZero : Nat} {q : Fit}

theorem Ctx.divide_nonzero (h : c.tv ≠ 0) : c.divide onZero q = .done (c.resultOf q 12 (0, 0)) := if_pos h

theorem Ctx.divide_zero (h : c.tv = 0) (hz : bitOf (c.t.reg rFx) 8 = false) :
    c.divide onZero q = .done { c.resultOf (.plain onZero) 12 (0, 0) with sticky := 4 } := by
  have hs : Nat.lor (c.resultOf (.plain onZero) 12 (0, 0)).sticky 4 = 4 := Nat.zero_or 4
  rw [Ctx.divide, if_neg (not_not.mpr h), if_neg (by simp [hz])]
  simp only [hs]

theorem Ctx.divide_trap (h : c.tv = 0) (hz : bitOf (c.t.reg rFx) 8 = true) : c.divide onZero q = .trap 6 c.sv := by
  rw [Ctx.divide, if_neg (not_not.mpr h), if_pos hz]

theorem Ctx.load_finds (h : c.finds c.ea n p) :
    c.load n f = .done (c.loaded p { wr c.x.d (f (ofLe (c.s.placeRead c.t p n))) 3 with load := true }) := by
  obtain ⟨ha, hp, hz⟩ := h
  simp [Ctx.load, ha, hp, hz]

theorem Ctx.loadV_finds (h : c.finds c.sv 64 p) :
    c.loadV = .done (c.loaded p (wr (rV c.x.d) (ofLe (c.s.placeRead c.t p 64)) 4)) := by
  obtain ⟨ha, hp, hz⟩ := h
  simp [Ctx.loadV, ha, hp, hz]

theorem Ctx.store_seg (ha : c.ea % n = 0) (hp : c.s.place c.die c.slot c.t c.ea n = some (.seg m)) :
    c.store n b = .done (c.stored m b) := by simp [Ctx.store, ha, hp]

theorem Ctx.store_pond (ha : c.ea % n = 0) (hp : c.s.place c.die c.slot c.t c.ea n = some (.pond m)) :
    c.store n b = .done { c.stored m b with after := (c.s.write m b).useFree, wait := c.s.freeValue } := by
  simp [Ctx.store, ha, hp, Ctx.waits, Ctx.stored]

theorem Ctx.storeV_seg (ha : c.sv % 64 = 0) (hp : c.s.place c.die c.slot c.t c.sv 64 = some (.seg m)) :
    c.storeV = .done (c.stored m (leBytes 64 (c.t.reg (rV c.x.d)))) := by simp [Ctx.storeV, ha, hp]

theorem Ctx.storeV_pond (ha : c.sv % 64 = 0) (hp : c.s.place c.die c.slot c.t c.sv 64 = some (.pond m)) :
    let b := leBytes 64 (c.t.reg (rV c.x.d))
    c.storeV = .done { c.stored m b with after := (c.s.write m b).useFree, wait := c.s.freeValue } := by
  simp [Ctx.storeV, ha, hp, Ctx.waits, Ctx.stored]

end MemoryRows

/-- Settles O23: where a division, a load or a store does not trap its act is the effect given. -/
theorem memoryRowsComplete : Obligations.MemoryRowsComplete := by
  unfold Obligations.MemoryRowsComplete
  refine ⟨doesWhen_row (fun _ _ _ => rfl) fun _ => Ctx.divide_nonzero, doesWhen_row (fun _ _ _ => rfl) fun _ => Ctx.divide_nonzero,
    doesWhen_row (fun _ _ _ => rfl) fun _ => Ctx.divide_nonzero, doesWhen_row (fun _ _ _ => rfl) fun _ => Ctx.divide_nonzero,
    ?zero, fun _ => doesWhen_row (fun _ _ _ => rfl) fun _ => Ctx.load_finds, fun _ => doesWhen_row (fun _ _ _ => rfl) fun _ => Ctx.load_finds,
    fun _ => doesWhen_row (fun _ _ _ => rfl) fun _ => Ctx.load_finds, fun _ => doesWhen_row (fun _ _ _ => rfl) fun _ => Ctx.load_finds,
    fun _ => doesWhen_row (fun _ _ _ => rfl) fun _ => Ctx.load_finds, fun _ => doesWhen_row (fun _ _ _ => rfl) fun _ => Ctx.loadV_finds,
    ?store, fun _ => ⟨doesWhen_row (fun _ _ _ => rfl) fun _ h => Ctx.storeV_seg h.1 h.2,
      doesWhen_row (fun _ _ _ => rfl) fun _ h => Ctx.storeV_pond h.1 h.2⟩⟩
  case zero =>
    simp only [List.mem_cons, Prod.mk.injEq, List.not_mem_nil, or_false]
    rintro op i onZero (⟨rfl, rfl, rfl⟩ | ⟨rfl, rfl, rfl⟩ | ⟨rfl, rfl, rfl⟩ | ⟨rfl, rfl, rfl⟩) <;>
      exact ⟨doesWhen_row (fun _ _ _ => rfl) fun _ h => Ctx.divide_zero h.1 h.2,
        trapsWhen_row (fun _ _ _ => rfl) fun _ h => Ctx.divide_trap h.1 h.2⟩
  case store =>
    simp only [List.mem_cons, Prod.mk.injEq, List.not_mem_nil, or_false]
    rintro op i n b (⟨rfl, rfl, rfl, rfl⟩ | ⟨rfl, rfl, rfl, rfl⟩ | ⟨rfl, rfl, rfl, rfl⟩) m <;>
      exact ⟨doesWhen_row (fun _ _ _ => rfl) fun _ h => Ctx.store_seg h.1 h.2,
        doesWhen_row (fun _ _ _ => rfl) fun _ h => Ctx.store_pond h.1 h.2⟩

/-! ### Where loads and stores trap (R343, R354, R375, R403) -/

section MemoryTraps

/-- The traps of a row that reads or writes n bytes at an address: misaligned, without a place, over poison for a load, in the ring window
for a store. -/
def PlaceTraps (op : Op) (i : Nat → Nat → Instr) (n : Nat) (a : Ctx → Nat) : Prop :=
  TrapsWhen op i (fun c => a c % n ≠ 0) 3 a ∧
  TrapsWhen op i (fun c => a c % n = 0 ∧ c.s.place c.die c.slot c.t (a c) n = none) 4 a ∧
  (∀ p, op ∉ [Op.sb, Op.sh, Op.sw, Op.vst] → TrapsWhen op i (fun c => a c % n = 0 ∧
    c.s.place c.die c.slot c.t (a c) n = some p ∧ c.s.placePoisoned p n = true) 0x0A a) ∧
  (∀ o, op ∈ [Op.sb, Op.sh, Op.sw, Op.vst] → TrapsWhen op i (fun c => a c % n = 0 ∧
    c.s.place c.die c.slot c.t (a c) n = some (.ring o)) 4 a)

variable {op : Op} {i : Nat → Nat → Instr} {n : Nat}

theorem load_traps {f : Nat → Nat} (hop : op ∉ [Op.sb, Op.sh, Op.sw, Op.vst])
    (h : ∀ die core s, exec (i die core) s = execOp op die core s fun c => c.load n f) : PlaceTraps op i n Ctx.ea := by
  refine ⟨trapsWhen_row h fun c ha => ?_, trapsWhen_row h fun c ⟨ha, hp⟩ => ?_, fun p _ => trapsWhen_row h fun c ⟨ha, hp, hz⟩ => ?_, fun _ hs => absurd hs hop⟩
  · exact if_pos ha
  · simp [Ctx.load, ha, hp]
  · simp [Ctx.load, ha, hp, hz]

theorem loadV_traps (hop : op ∉ [Op.sb, Op.sh, Op.sw, Op.vst])
    (h : ∀ die core s, exec (i die core) s = execOp op die core s Ctx.loadV) : PlaceTraps op i 64 Ctx.sv := by
  refine ⟨trapsWhen_row h fun c ha => ?_, trapsWhen_row h fun c ⟨ha, hp⟩ => ?_, fun p _ => trapsWhen_row h fun c ⟨ha, hp, hz⟩ => ?_, fun _ hs => absurd hs hop⟩
  · exact if_pos ha
  · simp [Ctx.loadV, ha, hp]
  · simp [Ctx.loadV, ha, hp, hz]

theorem store_traps {b : Ctx → List Nat} (hop : op ∈ [Op.sb, Op.sh, Op.sw, Op.vst])
    (h : ∀ die core s, exec (i die core) s = execOp op die core s fun c => c.store n (b c)) : PlaceTraps op i n Ctx.ea := by
  refine ⟨trapsWhen_row h fun c ha => ?_, trapsWhen_row h fun c ⟨ha, hp⟩ => ?_, fun _ hs => absurd hop hs, fun o _ => trapsWhen_row h fun c ⟨ha, hp⟩ => ?_⟩
  · exact if_pos ha
  · simp [Ctx.store, ha, hp]
  · simp [Ctx.store, ha, hp]

theorem storeV_traps (hop : op ∈ [Op.sb, Op.sh, Op.sw, Op.vst])
    (h : ∀ die core s, exec (i die core) s = execOp op die core s Ctx.storeV) : PlaceTraps op i 64 Ctx.sv := by
  refine ⟨trapsWhen_row h fun c ha => ?_, trapsWhen_row h fun c ⟨ha, hp⟩ => ?_, fun _ hs => absurd hop hs, fun o _ => trapsWhen_row h fun c ⟨ha, hp⟩ => ?_⟩
  · exact if_pos ha
  · simp [Ctx.storeV, ha, hp]
  · simp [Ctx.storeV, ha, hp]

end MemoryTraps

/-- Settles O24: the traps of the five loads, of VLD, of the three stores and of VST. -/
theorem memoryRowsTrap : Obligations.MemoryRowsTrap := by
  intro op i n a h
  change PlaceTraps op i n a
  simp only [List.mem_cons, Prod.mk.injEq, List.not_mem_nil, or_false] at h
  rcases h with h | h | h | h | h | h | h | h | h | h <;> obtain ⟨rfl, rfl, rfl, rfl⟩ := h
  case inr.inr.inr.inr.inr.inl => exact loadV_traps (by decide) fun _ _ _ => rfl
  case inr.inr.inr.inr.inr.inr.inr.inr.inr => exact storeV_traps (by decide) fun _ _ _ => rfl
  iterate 5 exact load_traps (by decide) fun _ _ _ => rfl
  all_goals exact store_traps (by decide) fun _ _ _ => rfl

/-! ### Branches, jumps and system rows (R330 to R334, R346, R352, R356) -/

section ControlRows

variable {c : Ctx} {link : Option Nat}

/-- The writes of a jump: its link register, where it has one. -/
def linkWrites (pc : Nat) (link : Option Nat) : List RegWrite := (link.map fun r => wr r (pc + 4) 1).toList

theorem Ctx.jump_inside {target : Int} (h4 : target % 4 = 0) (h0 : 0 ≤ target) (h1 : target < 65536) :
    c.jump target link = .done { c.plain with next := target.toNat, cost := 3, writes := linkWrites c.t.pc link } := by
  refine (if_neg (by omega)).trans ?_
  cases link <;> rfl

theorem Ctx.jump_outside {target : Int} (h : target % 4 ≠ 0 ∨ target < 0 ∨ 65536 ≤ target) :
    c.jump target link = .trap 5 (twos 32 target) := if_pos h

/-- A jump by an immediate lands in the instruction space. -/
theorem Ctx.jump_near (h : 0 ≤ (c.t.pc : Int) + c.x.imm * 4 ∧ (c.t.pc : Int) + c.x.imm * 4 < 65536 ∧ c.t.pc % 4 = 0) :
    c.jump (c.t.pc + c.x.imm * 4) link =
      .done { c.plain with next := ((c.t.pc : Int) + c.x.imm * 4).toNat, cost := 3, writes := linkWrites c.t.pc link } := by
  obtain ⟨h0, h1, h4⟩ := h
  exact c.jump_inside (by omega) h0 h1

theorem Ctx.jump_ea (h : c.ea % 4 = 0 ∧ c.ea < 65536) :
    c.jump c.ea link = .done { c.plain with next := c.ea, cost := 3, writes := linkWrites c.t.pc link } := by
  obtain ⟨h4, h1⟩ := h
  exact c.jump_inside (by omega) (by omega) (by omega)

theorem Ctx.branch_taken {b : Bool} (h : b = true) : c.branch b = c.jump (c.t.pc + c.x.imm * 4) none := if_pos h

theorem Ctx.branch_not {b : Bool} (h : b = false) : c.branch b = .done c.plain := if_neg (by simp [h])

theorem Ctx.readControl_known (h : ctlNumbers.contains c.x.ctl = true) : c.readControl =
    let cycles := c.t.cycles + c.t.waitCycles c.x
    let k := c.s.clock c.die
    .done { c.plain with
      writes := wr c.x.d (c.s.ctlRead c.die c.slot c.core { c.t with cycles := cycles } c.x.ctl) 1 ::
        if c.x.ctl = 0x020 then [wr (rC 0x021) (cycles / 2 ^ 32) 1]
        else if c.x.ctl = 0x022 then [wr (rC 0x023) (k.epoch / 2 ^ 32 % 65536) 1, wr (rC 0x024) k.phase 1]
        else [] } := if_neg (by rw [h]; decide)

theorem Ctx.readControl_unknown (h : ctlNumbers.contains c.x.ctl = false) : c.readControl = .trap 8 c.x.ctl :=
  if_pos (by rw [h]; rfl)

theorem Ctx.writeControl_writable {mask val : Nat} (h : c.t.ctlWritable c.x.ctl = true) : c.writeControl mask val =
    .done { c.plain with
      writes := ⟨rC c.x.ctl, Nat.land mask (ctlMask c.x.ctl), val, 2, false⟩ ::
        if c.x.ctl = 0x002 then [⟨rDzte, 0, 0, 2, false⟩] else [] } := if_neg (by simp [h])

theorem Ctx.waitFlags_yield {t : Task} (ht : (c.s.consumeOutput c.die c.slot).task c.die c.slot = some t) (h0 : c.sv = 0) :
    c.waitFlags = .done { c.plain with
      after := (c.s.consumeOutput c.die c.slot).yieldCore c.die c.slot, writes := [wr c.x.d 0 1] } := by
  simp only [Ctx.waitFlags, ht, if_pos h0]

/-- The task of a WAIT with its mask, condition and destination. -/
def Ctx.waiting (c : Ctx) (t : Task) : Task := { t with waitMask := c.sv, waitAll := bitOf c.x.ctl 0, waitReg := c.x.d }

theorem Ctx.waitFlags_holds {t : Task} (ht : (c.s.consumeOutput c.die c.slot).task c.die c.slot = some t) (h0 : c.sv ≠ 0)
    (hw : (c.waiting t).waitHolds = true) : c.waitFlags = .done { c.plain with
      after := (c.s.consumeOutput c.die c.slot).setTask c.die c.slot { t with flags := t.flags - Nat.land t.flags c.sv }
      writes := [wr c.x.d (Nat.land t.flags c.sv) 1] } := by
  simp only [Ctx.waitFlags, ht, if_neg h0]
  exact if_pos hw

theorem Ctx.waitFlags_blocks {t : Task} (ht : (c.s.consumeOutput c.die c.slot).task c.die c.slot = some t) (h0 : c.sv ≠ 0)
    (hw : (c.waiting t).waitHolds = false) : c.waitFlags = .done { c.plain with
      after := (c.s.consumeOutput c.die c.slot).setTask c.die c.slot { c.waiting t with state := 1 }
      writes := [wr c.x.d 0 1] } := by
  simp only [Ctx.waitFlags, ht, if_neg h0]
  exact if_neg (by rw [Bool.not_eq_true]; exact hw)

theorem Ctx.writeControl_fixed {mask val : Nat} (h : c.t.ctlWritable c.x.ctl = false) : c.writeControl mask val = .trap 8 c.x.ctl :=
  if_pos (by simp [h])

end ControlRows

/-- Settles O25: the act of each row, by where its target, its number or its mask leads. -/
theorem controlRowsComplete : Obligations.ControlRowsComplete := by
  unfold Obligations.ControlRowsComplete
  refine ⟨?branches, doesWhen_row (fun _ _ _ => rfl) fun _ h => Ctx.jump_near h, doesWhen_row (fun _ _ _ => rfl) fun _ h => Ctx.jump_near h,
    doesWhen_row (fun _ _ _ => rfl) fun _ h => Ctx.jump_near h, doesWhen_row (fun _ _ _ => rfl) fun _ h => Ctx.jump_near h,
    doesWhen_row (fun _ _ _ => rfl) fun _ h => Ctx.jump_ea h, doesWhen_row (fun _ _ _ => rfl) fun _ h => Ctx.jump_ea h,
    ?far, ?outside, doesWhen_row (fun _ _ _ => rfl) fun _ h => Ctx.readControl_known h,
    trapsWhen_row (fun _ _ _ => rfl) fun _ h => Ctx.readControl_unknown h, ?controls,
    trapsWhen_row (fun _ _ _ => rfl) fun _ _ => rfl, doesWhen_row (fun _ _ _ => rfl) fun _ _ => rfl, ?eret, ?wait,
    doesWhen_row (fun _ _ _ => rfl) fun _ _ => rfl, doesWhen_row (fun _ _ _ => rfl) fun _ _ => rfl⟩
  case branches =>
    simp only [List.mem_cons, Prod.mk.injEq, List.not_mem_nil, or_false]
    rintro op i take h
    have row : ∀ die core s, exec (i die core) s = execOp op die core s fun c => c.branch (take c) := by
      rcases h with h | h | h | h | h | h <;> obtain ⟨rfl, rfl, rfl⟩ := h <;> exact fun _ _ _ => rfl
    exact ⟨doesWhen_row row fun _ h => (Ctx.branch_taken h.1).trans (Ctx.jump_near h.2), doesWhen_row row fun _ => Ctx.branch_not,
      trapsWhen_row row fun _ h => (Ctx.branch_taken h.1).trans (Ctx.jump_outside (Or.inr h.2))⟩
  case far =>
    simp only [List.mem_cons, Prod.mk.injEq, List.not_mem_nil, or_false]
    rintro op i (⟨rfl, rfl⟩ | ⟨rfl, rfl⟩) <;>
      exact trapsWhen_row (fun _ _ _ => rfl) fun c h => Ctx.jump_outside (by omega)
  case outside =>
    simp only [List.mem_cons, Prod.mk.injEq, List.not_mem_nil, or_false]
    rintro op i (⟨rfl, rfl⟩ | ⟨rfl, rfl⟩ | ⟨rfl, rfl⟩ | ⟨rfl, rfl⟩) <;>
      exact trapsWhen_row (fun _ _ _ => rfl) fun _ h => Ctx.jump_outside (Or.inr h)
  case controls =>
    simp only [List.mem_cons, Prod.mk.injEq, List.not_mem_nil, or_false]
    rintro op i mask val (⟨rfl, rfl, rfl, rfl⟩ | ⟨rfl, rfl, rfl, rfl⟩ | ⟨rfl, rfl, rfl, rfl⟩) <;>
      exact ⟨doesWhen_row (fun _ _ _ => rfl) fun _ h => Ctx.writeControl_writable h,
        trapsWhen_row (fun _ _ _ => rfl) fun _ h => Ctx.writeControl_fixed h⟩
  case eret =>
    intro s die core c hs hop hi
    exact (execOp_sees hs hop).trans (congrArg _ (Ctx.run_eretOutside hop hi))
  case wait =>
    exact fun _ => ⟨doesWhen_row (fun _ _ _ => rfl) fun _ h => Ctx.waitFlags_yield h.1 h.2,
      doesWhen_row (fun _ _ _ => rfl) fun _ h => Ctx.waitFlags_holds h.1 h.2.1 h.2.2,
      doesWhen_row (fun _ _ _ => rfl) fun _ h => Ctx.waitFlags_blocks h.1 h.2.1 h.2.2⟩

/-! ### Undefined words, major 0x3F and conditions that fail (R339, R346, R353, R367, R371) -/

section Undefined

variable {s : State} {die core slot w : Nat} {t0 : Task}

theorem exec_undefinedInstruction_unfetched (hd : s.hasDie die = true) (hr : s.running die core = some (slot, t0))
    (hw : s.fetchWord t0.settle = none) : exec (.undefinedInstruction die core) s =
      .next ((s.setTask die slot t0.settle).takeTrap die slot t0.settle.pc 5 t0.settle.pc) := by
  change execUndefinedInstruction die core s = _
  simp only [execUndefinedInstruction, onDie_pos hd, hr, hw]

theorem exec_undefinedInstruction_undefined (hd : s.hasDie die = true) (hr : s.running die core = some (slot, t0))
    (hw : s.fetchWord t0.settle = some w) (hx : decodeWord t0.settle.selkel1 w = none) :
    exec (.undefinedInstruction die core) s = .next ((s.setTask die slot t0.settle).takeTrap die slot t0.settle.pc 1 w) := by
  change execUndefinedInstruction die core s = _
  simp only [execUndefinedInstruction, onDie_pos hd, hr, hw, hx]

theorem exec_cop3Instruction {x : Dec} (hd : s.hasDie die = true) (hr : s.running die core = some (slot, t0))
    (hw : s.fetchWord t0.settle = some w) (hx : decodeWord t0.settle.selkel1 w = some x) (hop : x.op = .cop3) (hb : x.bad = false) :
    exec (.cop3Instruction die core) s = .next ((s.setTask die slot t0.settle).takeTrap die slot t0.settle.pc 7 w) := by
  have sees : Sees die core s ⟨s.setTask die slot t0.settle, die, core, slot, t0.settle, w, x⟩ := ⟨hd, slot, t0, w, x, hr, hw, hx, rfl⟩
  refine (execOp_sees sees hop).trans (congrArg _ (Ctx.run_cop3 (fun h => ?_) hb hop))
  rw [hop] at h
  cases h

/-- Every word of major 0x3F is a COP3 instruction without reserved fields. -/
theorem decCop_cop3 (d s t c cond : Nat) : ∃ x, decCop 0x3F d s t c cond = some x ∧ x.op = .cop3 ∧ x.bad = false :=
  ⟨_, if_pos rfl, rfl, rfl⟩

theorem decode2_cop3 (h : bits w 31 26 = 0x3F) : ∃ x, decode2 w = some x ∧ x.op = .cop3 ∧ x.bad = false := by
  simp only [decode2, h]
  exact decCop_cop3 ..

theorem decode1_cop3 (h : bits w 27 22 = 0x3F) : ∃ x, decode1 w = some x ∧ x.op = .cop3 ∧ x.bad = false := by
  simp only [decode1, h]
  exact decCop_cop3 ..

end Undefined

/-- Settles O26: the two traps of an undefined word and the trap of a COP3 word. -/
theorem undefinedRowsTrap : Obligations.UndefinedRowsTrap := by
  intro s die core slot t0 hd hr
  exact ⟨exec_undefinedInstruction_unfetched hd hr, fun _ => exec_undefinedInstruction_undefined hd hr,
    fun _ _ => exec_cop3Instruction hd hr⟩

/-- Settles O47: every word of major 0x3F is a COP3 instruction in its mode, and ISAVER is a constant. -/
theorem coprocessorThreeTraps : Obligations.CoprocessorThreeTraps := by
  refine ⟨fun s die core slot w t0 hd hr hw _ h3 hm => ?selkel2, fun s die core slot w t0 hd hr hw _ h3 hm => ?selkel1, ?isaver⟩
  case selkel2 =>
    obtain ⟨x, hx, hop, hb⟩ := decode2_cop3 h3
    exact exec_cop3Instruction hd hr hw (by rw [decodeWord, hm]; exact hx) hop hb
  case selkel1 =>
    obtain ⟨x, hx, hop, hb⟩ := decode1_cop3 h3
    exact exec_cop3Instruction hd hr hw (by rw [decodeWord, hm]; exact hx) hop hb
  case isaver =>
    have reads (s : State) (d slot core : Nat) (t : Task) : s.ctlRead d slot core t 0x000 = isaver := if_pos rfl
    intro s d slot core t
    rw [reads]
    decide

/-- Settles O46: the checks of a word in their order, and an undefined word. -/
theorem failedConditionChangesNothing : Obligations.FailedConditionChangesNothing := by
  intro s die core
  refine ⟨fun i c hi hs => ?_, fun slot t0 w hd hr hw hx => exec_undefinedInstruction_undefined hd hr hw hx⟩
  obtain ⟨f, hf⟩ := exec_row hi
  have hrun : exec i s = .next (c.run f) := (hf s).trans (execOp_sees hs rfl)
  have hdie : c.die = die := by
    obtain ⟨-, _, _, _, _, -, -, -, rfl⟩ := hs
    rfl
  subst hdie
  refine ⟨fun hop ht => hrun.trans (congrArg _ (Ctx.run_eretOutside hop ht)), fun he => ⟨fun hb => ?_, fun hb h3 => ?_, fun hb h3 hc => ?_⟩⟩
  · exact hrun.trans (congrArg _ (Ctx.run_bad he hb))
  · exact hrun.trans (congrArg _ (Ctx.run_cop3 he hb h3))
  · exact ⟨_, hrun.trans (congrArg _ (Ctx.run_failed he hb h3 hc))⟩

/-! ### Words written out from the tables -/

/-- Settles O37: the five words, decoded. -/
theorem writtenWordsDecode : Obligations.WrittenWordsDecode := by
  unfold Obligations.WrittenWordsDecode
  decide

end Sys2Proof.Machine

/-!
PROOFS. Memory: what a byte reads after a write and after a clear, and what the loads and stores of the instruction set leave of it
(R343, R375).
-/

namespace Sys2Proof.Machine

section Memory

variable {m : List Host.Cell}

/-! ### One byte -/

/-- Below the first cell nothing is listed. -/
theorem memByte_above {k : Nat} (h : cellsAbove k m) : memByte m k = 0 := by
  cases m with
  | nil => rfl
  | cons c m =>
    have hc : k < c.1 := h c List.mem_cons_self
    simp only [memByte]
    rw [if_neg (by omega), if_pos hc]

/-- A first cell below all others gives its own byte. -/
theorem memByte_cons {c : Host.Cell} (hc : cellsAbove c.1 m) (k : Nat) : memByte (c :: m) k = if k = c.1 then c.2 else memByte m k := by
  simp only [memByte]
  by_cases h : k = c.1
  · rw [if_pos h, if_pos h.symm]
  · rw [if_neg h, if_neg (Ne.symm h)]
    split
    · next hk => exact (memByte_above fun x hx => lt_trans hk (hc x hx)).symm
    · rfl

/-- One byte is written and every other stays. -/
theorem memByte_memSet (h : Memory.wf m = true) (a : Nat) (b : BitVec 8) (k : Nat) :
    memByte (memSet m a b) k = if k = a then b else memByte m k := by
  induction m with
  | nil =>
    simp only [memSet]
    split
    · next hb => rw [hb]; simp [memByte]
    · simp [memByte, eq_comm]
  | cons c m ih =>
    obtain ⟨-, hc, hm⟩ := (wf_cons_iff c m).1 h
    obtain ⟨a', b'⟩ := c
    change cellsAbove a' m at hc
    simp only [memSet]
    rcases lt_trichotomy a a' with hlt | rfl | hgt
    · have above : cellsAbove a ((a', b') :: m) := List.forall_mem_cons.2 ⟨hlt, fun x hx => lt_trans hlt (hc x hx)⟩
      rw [if_pos hlt]
      split
      · next hb =>
        split
        · next hk => rw [hk, hb, memByte_above above]
        · rfl
      · exact memByte_cons above k
    · rw [if_neg (lt_irrefl a), if_pos rfl, memByte_cons hc]
      split
      · next hb =>
        split
        · next hk => rw [hk, hb, memByte_above hc]
        · rfl
      · rw [memByte_cons hc]
        split <;> rfl
    · rw [if_neg hgt.not_gt, if_neg hgt.ne', memByte_cons (memSet_above hc hgt), memByte_cons hc, ih hm]
      by_cases hk : k = a'
      · rw [if_pos hk, if_pos hk, if_neg (by omega)]
      · rw [if_neg hk, if_neg hk]

/-! ### Bytes in a row -/

/-- The bytes written are read where they were written, and every other byte stays. -/
theorem memByte_memWrite (h : Memory.wf m = true) (a : Nat) (b : List Nat) (k : Nat) : memByte (memWrite m a b) k =
    if a ≤ k ∧ k < a + b.length then BitVec.ofNat 8 (b.getD (k - a) 0) else memByte m k := by
  induction b generalizing m a with
  | nil => rw [if_neg (by simp)]; rfl
  | cons x b ih =>
    rw [memWrite, ih (memSet_wf a _ h), memByte_memSet h, List.length_cons]
    by_cases hk : k = a
    · subst hk
      rw [if_neg (by omega), if_pos rfl, if_pos (by omega), Nat.sub_self]
      rfl
    · rw [if_neg hk]
      by_cases hr : a + 1 ≤ k ∧ k < a + 1 + b.length
      · rw [if_pos hr, if_pos (by omega), show k - a = (k - (a + 1)) + 1 by omega]
        rfl
      · rw [if_neg hr, if_neg (by omega)]

theorem memRead_memWrite (h : Memory.wf m = true) (a : Nat) (b : List Nat) :
    memRead (memWrite m a b) a b.length = b.map (· % 256) := by
  refine List.ext_getElem (by simp [memRead]) fun k hk _ => ?_
  have hb : k < b.length := by simpa [memRead] using hk
  simp [memRead, memByte_memWrite h, hb]

/-- Cells left out by their address read 0, the others as before. -/
theorem memByte_filter (h : Memory.wf m = true) (p : Nat → Bool) (k : Nat) :
    memByte (m.filter fun c => p c.1) k = if p k = true then memByte m k else 0 := by
  induction m with
  | nil => simp [memByte]
  | cons c m ih =>
    obtain ⟨-, hc, hm⟩ := (wf_cons_iff c m).1 h
    have hf : cellsAbove c.1 (m.filter fun c => p c.1) := fun x hx => hc x (List.mem_filter.1 hx).1
    rw [List.filter_cons, memByte_cons hc]
    by_cases hk : k = c.1
    · subst hk
      split
      · rw [memByte_cons hf, if_pos rfl, if_pos rfl]
      · exact memByte_above hf
    · rw [if_neg hk, ← ih hm]
      split
      · rw [memByte_cons hf, if_neg hk]
      · rfl

theorem memByte_memClear (h : Memory.wf m = true) (a n k : Nat) :
    memByte (memClear m a n) k = if a ≤ k ∧ k < a + n then 0 else memByte m k := by
  rw [memClear, memByte_filter h fun k => decide (k < a) || decide (a + n ≤ k)]
  simp only [Bool.or_eq_true, decide_eq_true_eq]
  by_cases hk : k < a ∨ a + n ≤ k
  · rw [if_pos hk, if_neg (by omega)]
  · rw [if_neg hk, if_pos (by omega)]

end Memory

/-- Settles O42: a byte, the bytes in a row and a clear. -/
theorem memoryReadsBack : Obligations.MemoryReadsBack :=
  fun _ h => ⟨memByte_memWrite h, memRead_memWrite h, memByte_memClear h⟩

/-! ### Loads and stores -/

section LoadsAndStores

variable {c : Ctx}

/-- Byte k of a number's bytes. -/
theorem leBytes_getD {n k : Nat} (v : Nat) (h : k < n) : (leBytes n v).getD k 0 = v / 256 ^ k % 256 := by
  induction n generalizing v k with
  | zero => omega
  | succ n ih =>
    cases k with
    | zero => simp [leBytes]
    | succ k =>
      rw [leBytes, List.getD_cons_succ, ih _ (by omega), Nat.div_div_eq_div_mul, Nat.pow_succ']

/-- A task's registers, pc and counts are no memory. -/
@[simp] theorem Ctx.commit_mem (c : Ctx) (e : Effect) : (c.commit e).mem = e.after.mem := by
  unfold Ctx.commit
  split
  · rfl
  · split <;> rfl

@[simp] theorem Ctx.loaded_mem (c : Ctx) (p : Place) (w : RegWrite) : (c.loaded p w).after.mem = c.s.mem := by cases p <;> rfl

theorem Runs.mem {op : Op} {die core : Nat} {s : State} (h : Runs op die core s c) : c.s.mem = s.mem := by
  obtain ⟨-, _, _, _, _, -, -, -, -, -, -, -, -, rfl⟩ := h
  rfl

theorem Runs.die_eq {op : Op} {die core : Nat} {s : State} (h : Runs op die core s c) : c.die = die := by
  obtain ⟨-, _, _, _, _, -, -, -, -, -, -, -, -, rfl⟩ := h
  rfl

/-- The bytes of a number, written to memory. -/
theorem memByte_write_leBytes {m : List Host.Cell} (h : Memory.wf m = true) (a n v k : Nat) : memByte (memWrite m a (leBytes n v)) k =
    if a ≤ k ∧ k < a + n then BitVec.ofNat 8 (v / 256 ^ (k - a)) else memByte m k := by
  rw [memByte_memWrite h, length_leBytes]
  split
  · rw [leBytes_getD v (by omega)]
    exact BitVec.eq_of_toNat_eq (by simp)
  · rfl

end LoadsAndStores

theorem exec_store {op : Op} {n : Nat} (h : (op, n) ∈ [(Op.sb, 1), (Op.sh, 2), (Op.sw, 4)]) (die core : Nat) (s : State) :
    exec (rowOf op die core) s = execOp op die core s fun c => c.store n (leBytes n c.dv) := by
  simp only [List.mem_cons, Prod.mk.injEq, List.not_mem_nil, or_false] at h
  rcases h with h | h | h <;> obtain ⟨rfl, rfl⟩ := h <;> rfl

theorem exec_load {op : Op} {n : Nat} (h : (op, n) ∈ [(Op.lb, 1), (Op.lbu, 1), (Op.lh, 2), (Op.lhu, 2), (Op.lw, 4)]) :
    ∃ f, ∀ die core s, exec (rowOf op die core) s = execOp op die core s fun c => c.load n f := by
  simp only [List.mem_cons, Prod.mk.injEq, List.not_mem_nil, or_false] at h
  rcases h with h | h | h | h | h <;> obtain ⟨rfl, rfl⟩ := h <;> exact ⟨_, fun _ _ _ => rfl⟩

/-- Settles O50: the store's effect is the write of its bytes, in a segment and through a window. -/
theorem storesWriteTheirBytes : Obligations.StoresWriteTheirBytes := by
  intro i op n die core m s c hi hop hr hm ha hp
  obtain rfl := rowOp_eq hi
  obtain rfl := hr.die_eq
  have bytes (e : Effect) (he : e.after.mem = memWrite c.s.mem m (leBytes n c.dv)) (a : Nat) : memByte (c.commit e).mem a =
      if m ≤ a ∧ a < m + n then BitVec.ofNat 8 (c.dv / 256 ^ (a - m)) else memByte s.mem a := by
    rw [Ctx.commit_mem, he, hr.mem, memByte_write_leBytes hm]
  rw [exec_store hop]
  rcases hp with hp | hp
  · exact ⟨_, execOp_done hr (Ctx.store_seg ha hp), bytes _ rfl⟩
  · exact ⟨_, execOp_done hr (Ctx.store_pond ha hp), bytes _ rfl⟩

/-- Settles O51: a load's effect is a register write. -/
theorem loadsLeaveMemory : Obligations.LoadsLeaveMemory := by
  intro i op n die core p s c hi hop hr hf
  obtain rfl := rowOp_eq hi
  obtain ⟨f, row⟩ := exec_load hop
  rw [row]
  exact ⟨_, execOp_done hr (Ctx.load_finds hf), by rw [Ctx.commit_mem, Ctx.loaded_mem, hr.mem]⟩

end Sys2Proof.Machine

/-!
PROOFS. The registers of a task: reads after a write, pending writes that fall due, and what the commit of an instruction and a trap leave of
a task (R328, R329, R340, R345, R355 to R361).
-/

namespace Sys2Proof.Machine

section Registers

variable {t u v : Task} {r mask val issue : Nat} {p : PendWrite} {w : RegWrite}

/-! ### The parts of a register write -/

/-- The distance at which a task reads a write: the instruction's own in N mode; in L mode 3 for a load, else 1. -/
def Task.readDist (t : Task) (w : RegWrite) : Nat := if t.nMode then w.dist else if w.load then 3 else 1

/-- In L mode a write notes when its register may be read. -/
def Task.noted (t : Task) (issue : Nat) (w : RegWrite) : Task :=
  if !t.nMode ∧ !w.load then { t with avail := tset t.avail w.reg (issue + w.dist) } else t

/-- The bits that a write takes over are discarded from the pending writes of its register (R360). -/
def Task.overrides (t : Task) (r mask : Nat) : Task :=
  { t with pend := t.pend.map fun q => if q.reg = r then { q with mask := q.mask - Nat.land q.mask mask } else q }

/-- A write joins those that wait. -/
def Task.queues (t : Task) (p : PendWrite) : Task := { t with pend := t.pend ++ [p] }

theorem Task.write_zero (h : w.reg = 0) : t.write issue w = t := if_pos h

theorem Task.write_now (h : w.reg ≠ 0) (hd : t.readDist w = 1) :
    t.write issue w = ((t.noted issue w).overrides w.reg w.mask).setReg w.reg w.mask w.val := (if_neg h).trans (if_pos hd)

theorem Task.write_later (h : w.reg ≠ 0) (hd : t.readDist w ≠ 1) :
    t.write issue w = (t.noted issue w).queues ⟨w.reg, w.mask, w.val, t.count, t.count + t.readDist w⟩ := (if_neg h).trans (if_neg hd)

/-- A write is none, takes effect at once, or waits. -/
theorem Task.write_cases (t : Task) (issue : Nat) (w : RegWrite) : (w.reg = 0 ∧ t.write issue w = t) ∨
    (w.reg ≠ 0 ∧ t.write issue w = ((t.noted issue w).overrides w.reg w.mask).setReg w.reg w.mask w.val) ∨
    (w.reg ≠ 0 ∧ t.write issue w = (t.noted issue w).queues ⟨w.reg, w.mask, w.val, t.count, t.count + t.readDist w⟩) := by
  by_cases h : w.reg = 0
  · exact .inl ⟨h, Task.write_zero h⟩
  · by_cases hd : t.readDist w = 1
    · exact .inr (.inl ⟨h, Task.write_now h hd⟩)
    · exact .inr (.inr ⟨h, Task.write_later h hd⟩)

@[simp] theorem Task.noted_reg (k : Nat) : (t.noted issue w).reg k = t.reg k := by unfold Task.noted; split <;> rfl
@[simp] theorem Task.noted_pend : (t.noted issue w).pend = t.pend := by unfold Task.noted; split <;> rfl
@[simp] theorem Task.overrides_reg (k : Nat) : (t.overrides r mask).reg k = t.reg k := rfl
@[simp] theorem Task.queues_reg (k : Nat) : (t.queues p).reg k = t.reg k := rfl

/-! ### A task but for its registers and times -/

/-- The same task but for its registers, its pending writes, its interlock times and its cycles. -/
def Task.Advances (t u : Task) : Prop := u = { t with regs := u.regs, pend := u.pend, avail := u.avail, cycles := u.cycles }

theorem Task.Advances.refl (t : Task) : t.Advances t := rfl

theorem Task.Advances.trans (h : t.Advances u) (h' : u.Advances v) : t.Advances v := by
  unfold Task.Advances at *
  rw [h', h]

theorem Task.setReg_advances : t.Advances (t.setReg r mask val) := by unfold Task.setReg; split <;> rfl

theorem Task.land_advances : t.Advances (t.land p) := by
  unfold Task.land
  split
  · rfl
  · exact Task.Advances.trans (u := { t with avail := tdel t.avail p.reg }) rfl
      (Task.Advances.trans Task.setReg_advances rfl)

theorem Task.noted_advances : t.Advances (t.noted issue w) := by unfold Task.noted; split <;> rfl

theorem Task.overrides_advances : t.Advances (t.overrides r mask) := rfl

theorem Task.queues_advances : t.Advances (t.queues p) := rfl

theorem Task.write_advances : t.Advances (t.write issue w) := by
  rcases t.write_cases issue w with ⟨-, h⟩ | ⟨-, h⟩ | ⟨-, h⟩ <;> rw [h]
  · exact Task.Advances.refl t
  · exact (Task.noted_advances.trans Task.overrides_advances).trans Task.setReg_advances
  · exact Task.noted_advances.trans Task.queues_advances

/-- What holds of a task and is kept as each pending write becomes visible holds after any of them did. -/
theorem Task.settleList_keeps {P : Task → Prop}
    (step : ∀ t q, q ∈ t.pend → P t → P (({ t with pend := t.pend.erase q } : Task).land q)) (l : List PendWrite) (h : P t) :
    P (t.settleList l) := by
  induction l generalizing t with
  | nil => exact h
  | cons p l ih =>
    rw [Task.settleList]
    split
    · next q hq => exact ih (step t q (List.mem_of_find?_eq_some hq) h)
    · exact ih h

theorem Task.settleList_advances (l : List PendWrite) : t.Advances (t.settleList l) :=
  Task.settleList_keeps (P := t.Advances)
    (fun u q _ h => h.trans (Task.Advances.trans (u := { u with pend := u.pend.erase q }) rfl Task.land_advances)) l (Task.Advances.refl t)

theorem Task.Advances.state_eq (h : t.Advances u) : u.state = t.state := by rw [h]
theorem Task.Advances.inTrap_eq (h : t.Advances u) : u.inTrap = t.inTrap := by rw [h]
theorem Task.Advances.selkel1_eq (h : t.Advances u) : u.selkel1 = t.selkel1 := by rw [h]
theorem Task.Advances.nMode_eq (h : t.Advances u) : u.nMode = t.nMode := by rw [h]
theorem Task.Advances.count_eq (h : t.Advances u) : u.count = t.count := by rw [h]

/-! ### Reads after writes -/

@[simp] theorem Task.setReg_pend : (t.setReg r mask val).pend = t.pend := by unfold Task.setReg; split <;> rfl
@[simp] theorem Task.setReg_cycles : (t.setReg r mask val).cycles = t.cycles := by unfold Task.setReg; split <;> rfl

@[simp] theorem Task.setReg_zero : t.setReg 0 mask val = t := if_pos rfl

theorem Task.reg_setReg_other {k : Nat} (h : k ≠ r) : (t.setReg r mask val).reg k = t.reg k := by
  unfold Task.setReg Task.reg
  split
  · rfl
  · dsimp only
    split
    · rw [tgetD, tget_tdel_other _ _ _ h, tgetD]
    · rw [tgetD, tget_tset_other _ _ _ _ h, tgetD]

theorem Task.reg_setReg (h : r ≠ 0) : (t.setReg r mask val).reg r = putBits (t.reg r) mask val := by
  unfold Task.setReg
  rw [if_neg h]
  dsimp only
  unfold Task.reg
  dsimp only
  split
  · next hz => rw [tgetD, tget_tdel_self]; exact hz.symm
  · rw [tgetD, tget_tset_self]; rfl

theorem Task.reg_zero_setReg : (t.setReg r mask val).reg 0 = t.reg 0 := by
  by_cases h : r = 0
  · rw [h, Task.setReg_zero]
  · exact Task.reg_setReg_other (Ne.symm h)

/-- A write that falls due changes its own register only. -/
theorem Task.reg_land_other {k : Nat} (h : k ≠ p.reg) : (t.land p).reg k = t.reg k := by
  unfold Task.land
  split
  · rfl
  · exact Task.reg_setReg_other h

theorem Task.reg_zero_land : (t.land p).reg 0 = t.reg 0 := by
  unfold Task.land
  split
  · rfl
  · exact Task.reg_zero_setReg

theorem Task.reg_zero_settleList (l : List PendWrite) : (t.settleList l).reg 0 = t.reg 0 :=
  Task.settleList_keeps (P := fun u => u.reg 0 = t.reg 0) (fun _ _ _ h => Task.reg_zero_land.trans h) l rfl

theorem Task.reg_write_other {k : Nat} (h : k ≠ w.reg) : (t.write issue w).reg k = t.reg k := by
  rcases t.write_cases issue w with ⟨-, e⟩ | ⟨-, e⟩ | ⟨-, e⟩ <;> rw [e]
  · rw [Task.reg_setReg_other h, Task.overrides_reg, Task.noted_reg]
  · rw [Task.queues_reg, Task.noted_reg]

theorem Task.reg_zero_write : (t.write issue w).reg 0 = t.reg 0 := by
  by_cases h : w.reg = 0
  · rw [Task.write_zero h]
  · exact Task.reg_write_other (Ne.symm h)

theorem Task.mem_pend_overrides (h : p.reg ≠ r) : p ∈ (t.overrides r mask).pend ↔ p ∈ t.pend := by
  simp only [Task.overrides, List.mem_map]
  constructor
  · rintro ⟨q, hq, rfl⟩
    by_cases hr : q.reg = r
    · rw [if_pos hr] at h
      exact absurd hr h
    · rwa [if_neg hr]
  · exact fun hp => ⟨p, hp, if_neg h⟩

/-- A write touches no pending write of another register. -/
theorem Task.mem_pend_write (h : p.reg ≠ w.reg) : p ∈ (t.write issue w).pend ↔ p ∈ t.pend := by
  rcases t.write_cases issue w with ⟨-, e⟩ | ⟨-, e⟩ | ⟨-, e⟩ <;> rw [e]
  · rw [Task.setReg_pend, Task.mem_pend_overrides h, Task.noted_pend]
  · have hp (s d : Nat) : p ≠ ⟨w.reg, w.mask, w.val, s, d⟩ := fun he => h (congrArg PendWrite.reg he)
    simp [Task.queues, hp]

/-! ### Several writes -/

theorem Task.writes_advances (l : List RegWrite) : t.Advances (l.foldl (fun t w => t.write issue w) t) := by
  induction l generalizing t with
  | nil => exact Task.Advances.refl t
  | cons w l ih => exact Task.write_advances.trans ih

theorem Task.reg_writes_other {k : Nat} {l : List RegWrite} (h : ∀ w ∈ l, k ≠ w.reg) :
    (l.foldl (fun t w => t.write issue w) t).reg k = t.reg k := by
  induction l generalizing t with
  | nil => rfl
  | cons w l ih =>
    obtain ⟨hw, hl⟩ := List.forall_mem_cons.1 h
    exact (ih hl).trans (Task.reg_write_other hw)

theorem Task.reg_zero_writes {l : List RegWrite} : (l.foldl (fun t w => t.write issue w) t).reg 0 = t.reg 0 := by
  induction l generalizing t with
  | nil => rfl
  | cons w l ih => exact ih.trans Task.reg_zero_write

theorem Task.mem_pend_writes {l : List RegWrite} (h : ∀ w ∈ l, p.reg ≠ w.reg) :
    p ∈ (l.foldl (fun t w => t.write issue w) t).pend ↔ p ∈ t.pend := by
  induction l generalizing t with
  | nil => rfl
  | cons w l ih =>
    obtain ⟨hw, hl⟩ := List.forall_mem_cons.1 h
    exact (ih hl).trans (Task.mem_pend_write hw)

end Registers

/-- Settles O45: a write of G0 is none, and no other write reaches it. -/
theorem gZeroStaysZero : Obligations.GZeroStaysZero := by
  intro t h
  exact ⟨fun _ _ => Task.setReg_zero, fun _ _ _ => Task.reg_zero_setReg.trans h, fun _ _ => Task.reg_zero_write.trans h,
    (Task.reg_zero_settleList _).trans h, (Task.reg_zero_settleList _).trans h⟩

/-! ### What the commit of an instruction leaves -/

section Commit

variable {c : Ctx} {e : Effect} {op : Op} {die core : Nat} {s : State}

/-- The register writes of an effect, in order: its own, the Selkel-1 flags, the sticky bits of FXCTL and Q (R340, R372). -/
def Ctx.allWrites (c : Ctx) (e : Effect) : List RegWrite :=
  e.writes ++ (if e.flags.1 = 0 then [] else [⟨rPs, e.flags.1, e.flags.2, 2, false⟩]) ++
    (if e.sticky = 0 then [] else [⟨rFx, e.sticky, e.sticky, 3, false⟩]) ++
    (if e.q ∧ c.t.selkel1 then [⟨rPs, 16, 16, 3, false⟩] else [])

/-- A task once an effect is committed to it. -/
def Ctx.committed (c : Ctx) (e : Effect) (t : Task) : Task :=
  let issue := c.t.cycles + c.t.waitCycles c.x
  let t1 := (c.allWrites e).foldl (fun t w => t.write issue w) t
  { t1 with pc := e.next, count := t1.count + 1, cycles := issue + e.cost + e.wait }

theorem Ctx.commit_task {t : Task} (ht : e.after.task c.die c.slot = some t) (h4 : t.state ≠ 4) :
    c.commit e = e.after.setTask c.die c.slot (c.committed e t) := by
  rw [Ctx.commit, ht]
  exact if_neg h4

/-- Beside its own registers an effect writes FXCTL and PSTAT only. -/
theorem Ctx.allWrites_reg {w : RegWrite} (h : w ∈ c.allWrites e) : w ∈ e.writes ∨ w.reg = rPs ∨ w.reg = rFx := by
  simp only [Ctx.allWrites, List.mem_append, List.mem_ite_nil_left, List.mem_ite_nil_right, List.mem_singleton] at h
  rcases h with ((h | ⟨-, rfl⟩) | ⟨-, rfl⟩) | ⟨-, rfl⟩
  · exact .inl h
  · exact .inr (.inl rfl)
  · exact .inr (.inr rfl)
  · exact .inr (.inl rfl)

/-- A committed task differs from the task before in its registers, its pending writes, its times, its pc and its count. -/
theorem Ctx.committed_eq (c : Ctx) (e : Effect) (t : Task) : c.committed e t =
    { t with
      regs := (c.committed e t).regs, pend := (c.committed e t).pend, avail := (c.committed e t).avail, pc := e.next, count := t.count + 1
      cycles := (c.committed e t).cycles } := by
  have h : t.Advances _ := Task.writes_advances (issue := c.t.cycles + c.t.waitCycles c.x) (c.allWrites e)
  unfold Ctx.committed
  dsimp only
  rw [h]

theorem Runs.task_eq (h : Runs op die core s c) : c.s.task c.die c.slot = some c.t := by
  obtain ⟨-, _, _, _, _, -, -, -, -, -, -, -, -, rfl⟩ := h
  exact State.setTask_task ..

/-- The task that a core runs is neither blocked nor ended. -/
theorem Runs.state_eq (h : Runs op die core s c) : c.t.state = 3 := by
  obtain ⟨-, slot, t0, _, _, hr, -, -, -, -, -, -, -, rfl⟩ := h
  have h0 := List.find?_some hr
  simp only [Bool.and_eq_true, decide_eq_true_eq] at h0
  exact (Task.Advances.state_eq (Task.settleList_advances _)).trans h0.1

/-- An effect that leaves the state alone is committed to the running task. -/
theorem Runs.commit_eq (h : Runs op die core s c) (he : e.after = c.s) : c.commit e = c.s.setTask die c.slot (c.committed e c.t) := by
  rw [Ctx.commit_task (t := c.t) (by rw [he]; exact h.task_eq) (by rw [h.state_eq]; decide), he, h.die_eq]

/-- Every row of `resultOps` only has a result. -/
theorem resultOps_does : ∀ op ∈ resultOps, ∃ (F : Ctx → Fit) (dist : Nat) (more : Ctx → Nat × Nat),
    Does op (rowOf op) fun c => c.result (F c) dist (more c) := by
  have row {op : Op} {F : Ctx → Fit} {dist : Nat} {more : Ctx → Nat × Nat}
      (h : ∀ die core s, exec (rowOf op die core) s = execOp op die core s fun c => c.result (F c) dist (more c)) :
      ∃ (F : Ctx → Fit) (dist : Nat) (more : Ctx → Nat × Nat), Does op (rowOf op) fun c => c.result (F c) dist (more c) :=
    ⟨F, dist, more, does_row h⟩
  simp only [resultOps, List.forall_mem_cons, List.not_mem_nil, false_imp_iff, implies_true, and_true]
  and_intros <;> exact row fun _ _ _ => rfl

end Commit

/-- Settles O43: the row's one result is committed to its task. -/
theorem resultRowsFrame : Obligations.ResultRowsFrame := by
  intro i op die core s c hi hop hr
  obtain rfl := rowOp_eq hi
  obtain ⟨F, dist, more, hd⟩ := resultOps_does op hop
  have ours : ∀ w ∈ c.allWrites (c.resultOf (F c) dist (more c)), w.reg = c.x.d ∨ w.reg = rPs ∨ w.reg = rFx := by
    intro w hw
    refine (Ctx.allWrites_reg hw).imp_left fun h => ?_
    rw [List.mem_singleton.1 h]
    rfl
  have other {k : Nat} (hk : k ≠ c.x.d) (hf : k ≠ rFx) (hp : k ≠ rPs) :
      ∀ w ∈ c.allWrites (c.resultOf (F c) dist (more c)), k ≠ w.reg := by
    intro w hw he
    rcases ours w hw with h | h | h
    · exact hk (he.trans h)
    · exact hp (he.trans h)
    · exact hf (he.trans h)
  refine ⟨c.committed (c.resultOf (F c) dist (more c)) c.t, ?_, Ctx.committed_eq .., fun r hd hf hp => Task.reg_writes_other (other hd hf hp),
    fun p hd hf hp => Task.mem_pend_writes (other hd hf hp)⟩
  rw [hd s die core c hr]
  exact congrArg _ (hr.commit_eq rfl)

end Sys2Proof.Machine

/-!
PROOFS. Values that registers take: bits replaced under a mask, the entry of a trap, the low word that the next instruction reads, and the
results of additions and divisions (R338, R340, R345, R355 to R361).
-/

namespace Sys2Proof.Machine

section Bits

variable {old mask val : Nat}

theorem land_le (a b : Nat) : Nat.land a b ≤ a := Nat.and_le_left

/-- Bits above the low word stay above it. -/
theorem land_mod_word (a : Nat) (h : mask % 2 ^ 32 = 0) : Nat.land a mask % 2 ^ 32 = 0 := by
  change (a &&& mask) % 2 ^ 32 = 0
  rw [Nat.and_mod_two_pow, h, Nat.and_zero]

/-- A mask of the low word takes it. -/
theorem land_word (a : Nat) : Nat.land a 0xFFFFFFFF = a % 2 ^ 32 := Nat.and_two_pow_sub_one_eq_mod a 32

/-- The low word after all its bits were replaced. -/
theorem putBits_word : putBits old 0xFFFFFFFF val % 2 ^ 32 = val % 2 ^ 32 := by
  rw [putBits, land_word, land_word]
  omega

/-- The low word after bits above it were replaced. -/
theorem putBits_high (h : mask % 2 ^ 32 = 0) : putBits old mask val % 2 ^ 32 = old % 2 ^ 32 := by
  have h1 := land_mod_word old h
  have h2 := land_mod_word val h
  have h3 := land_le old mask
  rw [putBits]
  omega

/-- A bit that is set by its mask is set. -/
theorem bitOf_putBits_four : bitOf (putBits old 4 4) 2 = true := by
  have h : Nat.land old 4 = (old / 4 % 2) * 4 := by
    change old &&& 2 ^ 2 = _
    rw [Nat.and_two_pow, Nat.testBit_eq_decide_div_mod_eq]
    rcases Nat.mod_two_eq_zero_or_one (old / 4) with h | h <;> simp [h]
  have h4 : Nat.land 4 4 = 4 := by decide
  rw [putBits, h, h4, bitOf, decide_eq_true_eq]
  omega

end Bits

/-! ### The entry of a trap (R355, R356) -/

section Traps

variable {s : State} {d slot pc cause val : Nat} {t0 : Task}

/-- A task whose earlier writes are visible, and which cause 6 has set DZ of. -/
def Task.caught (t0 : Task) (cause : Nat) : Task := if cause = 6 then t0.settleAll.setReg rFx 4 4 else t0.settleAll

/-- A task at the entry of a trap. -/
def Task.enters (t0 : Task) (cause : Nat) : Task :=
  { t0.caught cause with cycles := (t0.caught cause).cycles + 3, count := (t0.caught cause).count + 1, avail := [] }

/-- A task with the trap's registers written. -/
def Task.trapped (t : Task) (pc code shown : Nat) : Task :=
  ((t.setReg (rC 0x11) 0xFFFFFFFF pc).setReg (rC 0x12) 0xFFFFFFFF code).setReg (rC 0x13) 0xFFFFFFFF shown

theorem Task.caught_advances : t0.Advances (t0.caught cause) := by
  have h : t0.Advances t0.settleAll := Task.settleList_advances t0.pend
  unfold Task.caught
  split
  · exact h.trans Task.setReg_advances
  · exact h

theorem Task.caught_cycles : (t0.caught cause).cycles = t0.settleAll.cycles := by
  unfold Task.caught
  split
  · exact Task.setReg_cycles
  · rfl

theorem Task.enters_reg {k : Nat} (h : cause = 6 → k ≠ rFx) : (t0.enters cause).reg k = t0.settleAll.reg k := by
  change (t0.caught cause).reg k = _
  unfold Task.caught
  split
  · next h6 => exact Task.reg_setReg_other (h h6)
  · rfl

theorem Task.trapped_advances {t : Task} {code shown : Nat} : t.Advances (t.trapped pc code shown) :=
  (Task.setReg_advances.trans Task.setReg_advances).trans Task.setReg_advances

/-- Each of the trap's registers has its value, and the others what they had. -/
theorem Task.trapped_epc {t : Task} {code shown : Nat} : (t.trapped pc code shown).reg (rC 0x11) % 2 ^ 32 = pc % 2 ^ 32 := by
  rw [Task.trapped, Task.reg_setReg_other (by decide), Task.reg_setReg_other (by decide), Task.reg_setReg (by decide), putBits_word]

theorem Task.trapped_cause {t : Task} {code shown : Nat} : (t.trapped pc code shown).reg (rC 0x12) % 2 ^ 32 = code % 2 ^ 32 := by
  rw [Task.trapped, Task.reg_setReg_other (by decide), Task.reg_setReg (by decide), putBits_word]

theorem Task.trapped_val {t : Task} {code shown : Nat} : (t.trapped pc code shown).reg (rC 0x13) % 2 ^ 32 = shown % 2 ^ 32 := by
  rw [Task.trapped, Task.reg_setReg (by decide), putBits_word]

theorem Task.trapped_reg {t : Task} {code shown k : Nat} (h1 : k ≠ rC 0x11) (h2 : k ≠ rC 0x12) (h3 : k ≠ rC 0x13) :
    (t.trapped pc code shown).reg k = t.reg k := by
  rw [Task.trapped, Task.reg_setReg_other h3, Task.reg_setReg_other h2, Task.reg_setReg_other h1]

theorem Task.trapped_cycles {t : Task} {code shown : Nat} : (t.trapped pc code shown).cycles = t.cycles := by
  simp only [Task.trapped, Task.setReg_cycles]

/-- Cause 6 has set DZ. -/
theorem Task.enters_dz (h : cause = 6) : bitOf ((t0.enters cause).reg rFx) 2 = true := by
  change bitOf ((t0.caught cause).reg rFx) 2 = true
  rw [Task.caught, if_pos h, Task.reg_setReg (by decide), bitOf_putBits_four]

theorem State.takeTrap_eq (ht : s.task d slot = some t0) : s.takeTrap d slot pc cause val =
    let t := t0.enters cause
    let code := if t.inTrap then 0x0B else cause
    let t' := t.trapped pc code (if t.inTrap then cause else val)
    let s1 := (s.setTask d slot { t' with inTrap := true }).bump (0x50A8 + d) code
    if t.inTrap ∨ t.reg (rC 0x10) = 0 then s1.stopTask d slot 1 0 code
    else s1.setTask d slot { t' with inTrap := true, pc := t.reg (rC 0x10) } := by
  rw [State.takeTrap, ht]
  rfl

/-- Outside a trap and with a handler the task goes on at TRAPBASE. -/
theorem State.takeTrap_handler (ht : s.task d slot = some t0) (hi : t0.inTrap = false) (hb : t0.settleAll.reg (rC 0x10) ≠ 0) :
    (s.takeTrap d slot pc cause val).task d slot =
      some { (t0.enters cause).trapped pc cause val with inTrap := true, pc := t0.settleAll.reg (rC 0x10) } := by
  have hin : (t0.enters cause).inTrap = false := (Task.caught_advances (cause := cause)).inTrap_eq.trans hi
  have hbase : (t0.enters cause).reg (rC 0x10) = t0.settleAll.reg (rC 0x10) := Task.enters_reg fun _ => by decide
  rw [State.takeTrap_eq ht]
  simp only [hin, hbase, Bool.false_eq_true, false_or, if_false, if_neg hb, State.setTask_task]

end Traps

/-- Settles O49: the task in its handler, register by register. -/
theorem trapGoesToHandler : Obligations.TrapGoesToHandler := by
  intro s d slot pc cause val t0 ht hi hb
  have hand := State.takeTrap_handler (pc := pc) (cause := cause) (val := val) ht hi hb
  have kept := Task.caught_advances (t0 := t0) (cause := cause)
  have moved := Task.trapped_advances (t := t0.enters cause) (pc := pc) (code := cause) (shown := val)
  have epc := Task.trapped_epc (t := t0.enters cause) (pc := pc) (code := cause) (shown := val)
  have code := Task.trapped_cause (t := t0.enters cause) (pc := pc) (code := cause) (shown := val)
  have shown := Task.trapped_val (t := t0.enters cause) (pc := pc) (code := cause) (shown := val)
  have cycles : ((t0.enters cause).trapped pc cause val).cycles = t0.settleAll.cycles + 3 :=
    Task.trapped_cycles.trans (congrArg (· + 3) Task.caught_cycles)
  have selkel1 : ((t0.enters cause).trapped pc cause val).selkel1 = t0.selkel1 := moved.selkel1_eq.trans kept.selkel1_eq
  have nMode : ((t0.enters cause).trapped pc cause val).nMode = t0.nMode := moved.nMode_eq.trans kept.nMode_eq
  have dz : cause = 6 → bitOf (((t0.enters cause).trapped pc cause val).reg rFx) 2 = true := by
    intro h6
    rw [Task.trapped_reg (by decide) (by decide) (by decide)]
    exact Task.enters_dz h6
  have others (r : Nat) (h1 : r ≠ rC 0x11) (h2 : r ≠ rC 0x12) (h3 : r ≠ rC 0x13) (h6 : cause = 6 → r ≠ rFx) :
      ((t0.enters cause).trapped pc cause val).reg r = t0.settleAll.reg r := (Task.trapped_reg h1 h2 h3).trans (Task.enters_reg h6)
  generalize (t0.enters cause).trapped pc cause val = u at *
  exact ⟨_, hand, rfl, rfl, epc, code, shown, cycles, selkel1, nMode, dz, others⟩

/-! ### What the next instruction reads (R357, R358, R360) -/

section NextReads

variable {t : Task} {r n issue : Nat} {p : PendWrite} {w : RegWrite}

/-- A register's low word is n, and no pending write changes it. -/
def Task.LowWord (t : Task) (r n : Nat) : Prop := t.reg r % 2 ^ 32 = n ∧ ∀ p ∈ t.pend, p.reg = r → p.mask % 2 ^ 32 = 0

theorem sub_land_mod_word {a b : Nat} (h : a % 2 ^ 32 = 0) : (a - Nat.land a b) % 2 ^ 32 = 0 := by
  have h1 : Nat.land a b % 2 ^ 32 = 0 := by
    change (a &&& b) % 2 ^ 32 = 0
    rw [Nat.and_mod_two_pow, h, Nat.zero_and]
  have h2 := land_le a b
  omega

theorem Task.reg_land (hs : p.reg ≠ rStall) (h0 : p.reg ≠ 0) : (t.land p).reg p.reg = putBits (t.reg p.reg) p.mask p.val := by
  rw [Task.land, if_neg hs]
  exact Task.reg_setReg h0

/-- What waits after a write fell due waited before, with bits taken away where the write was of its register. -/
theorem Task.mem_pend_land {q : PendWrite} (h : q ∈ (t.land p).pend) :
    ∃ q' ∈ t.pend, q.reg = q'.reg ∧ (q.mask = q'.mask ∨ q.mask = q'.mask - Nat.land q'.mask p.mask) := by
  unfold Task.land at h
  split at h
  · exact ⟨q, h, rfl, .inl rfl⟩
  · dsimp only at h
    rw [Task.setReg_pend] at h
    obtain ⟨q', hq, rfl⟩ := List.mem_map.1 h
    refine ⟨q', hq, ?_⟩
    split
    · exact ⟨rfl, .inr rfl⟩
    · exact ⟨rfl, .inl rfl⟩

/-- A pending write that leaves the low word alone falls due. -/
theorem Task.LowWord.land (h : t.LowWord r n) (hp : p.reg = r → p.mask % 2 ^ 32 = 0) : (t.land p).LowWord r n := by
  obtain ⟨hn, hpend⟩ := h
  refine ⟨?_, fun q hq hr => ?_⟩
  · by_cases hr : r = p.reg
    · by_cases hs : p.reg = rStall
      · rw [Task.land, if_pos hs]
        exact hn
      · by_cases h0 : p.reg = 0
        · rw [hr, h0, Task.reg_zero_land, ← h0, ← hr, hn]
        · rw [hr, Task.reg_land hs h0, putBits_high (hp hr.symm), ← hr, hn]
    · rw [Task.reg_land_other hr, hn]
  · obtain ⟨q', hq', hreg, hmask⟩ := Task.mem_pend_land hq
    have h0 := hpend q' hq' (hreg ▸ hr)
    rcases hmask with h | h <;> rw [h]
    · exact h0
    · exact sub_land_mod_word h0

theorem Task.LowWord.settleList (h : t.LowWord r n) (l : List PendWrite) : (t.settleList l).LowWord r n :=
  Task.settleList_keeps (P := fun t => t.LowWord r n)
    (fun _ q hq h => Task.LowWord.land ⟨h.1, fun p hp => h.2 p (List.mem_of_mem_erase hp)⟩ (h.2 q hq)) l h

/-- A write of another register. -/
theorem Task.LowWord.write_other (h : t.LowWord r n) (hw : r ≠ w.reg) : (t.write issue w).LowWord r n := by
  refine ⟨(congrArg (· % 2 ^ 32) (Task.reg_write_other hw)).trans h.1, fun p hp hr => ?_⟩
  exact h.2 p ((Task.mem_pend_write (hr ▸ hw)).1 hp) hr

/-- The bits that a write of the whole low word takes over are gone from the pending writes. -/
theorem Task.overrides_pend_word (r : Nat) : ∀ p ∈ (t.overrides r 0xFFFFFFFF).pend, p.reg = r → p.mask % 2 ^ 32 = 0 := by
  intro p hp hr
  obtain ⟨q, -, rfl⟩ := List.mem_map.1 hp
  by_cases hq : q.reg = r
  · rw [if_pos hq]
    have h := land_word q.mask
    change (q.mask - Nat.land q.mask 0xFFFFFFFF) % 2 ^ 32 = 0
    omega
  · rw [if_neg hq] at hr
    exact absurd hr hq

/-- The result of an instruction at distance 1 is read by the next one. -/
theorem Task.lowWord_write (h0 : r ≠ 0) (h32 : r < 32) (v : Nat) : (t.write issue (wr r v 1)).LowWord r (v % 2 ^ 32) := by
  have hbits : regBits r = 32 := if_pos h32
  have hw : wr r v 1 = ⟨r, 0xFFFFFFFF, v % 2 ^ 32, 1, false⟩ := by rw [wr, regMask, hbits]; rfl
  have hd : t.readDist (wr r v 1) = 1 := by
    rw [hw, Task.readDist]
    split <;> rfl
  rw [Task.write_now h0 hd, hw]
  refine ⟨?_, fun p hp => ?_⟩
  · rw [Task.reg_setReg h0, putBits_word, Nat.mod_mod]
  · rw [Task.setReg_pend] at hp
    exact Task.overrides_pend_word r p hp

theorem Task.LowWord.writes {l : List RegWrite} (h : t.LowWord r n) (hw : ∀ w ∈ l, r ≠ w.reg) :
    (l.foldl (fun t w => t.write issue w) t).LowWord r n := by
  induction l generalizing t with
  | nil => exact h
  | cons w l ih =>
    obtain ⟨h1, h2⟩ := List.forall_mem_cons.1 hw
    exact ih (h.write_other h1) h2

/-- The instruction after a result at distance 1 reads its low word in D. -/
theorem Ctx.committed_result_reads {c : Ctx} {f : Fit} {more : Nat × Nat} (h0 : c.x.d ≠ 0) (h32 : c.x.d < 32) (t : Task) :
    (c.committed (c.resultOf f 1 more) t).settle.reg c.x.d % 2 ^ 32 = f.val % 2 ^ 32 := by
  have low : (c.committed (c.resultOf f 1 more) t).LowWord c.x.d (f.val % 2 ^ 32) := by
    have hrest : ∀ w ∈ c.allWrites { c.resultOf f 1 more with writes := [] }, c.x.d ≠ w.reg := by
      intro w hw he
      rcases Ctx.allWrites_reg hw with h | h | h
      · cases h
      · rw [he, h] at h32
        exact absurd h32 (by decide)
      · rw [he, h] at h32
        exact absurd h32 (by decide)
    exact (Task.lowWord_write (issue := c.t.cycles + c.t.waitCycles c.x) h0 h32 f.val).writes hrest
  exact (low.settleList _).1

end NextReads

/-! ### The results of additions, subtractions and logic (R338, R340) -/

section Results

/-- One lane of 32 bits is the whole register. -/
theorem lanewise_word (f : Nat → Nat → Fit) (a b : Nat) : (lanewise 32 1 f a b).val % 2 ^ 32 = (f (a % 2 ^ 32) (b % 2 ^ 32)).val % 2 ^ 32 := by
  simp [lanewise, lanesOf, joinFits, ofLanes]

theorem fitSigned_wraps (w : Nat) (x : Int) : (fitSigned w false x).val = twos w x := by
  unfold fitSigned
  split <;> rfl

/-- A word as a signed number is the word, or lies 2^32 below it. -/
theorem signed_word {a : Nat} (h : a < 2 ^ 32) : signed 32 a = a ∨ signed 32 a = (a : Int) - 2 ^ 32 := by
  simp only [signed, Nat.mod_eq_of_lt h]
  split
  · exact .inl rfl
  · exact .inr rfl

/-- Two's complement of an integer that a natural number is congruent to. -/
theorem twos_word {x : Int} {n : Nat} (h : x % 2 ^ 32 = n) : twos 32 x = n := by rw [twos, h, Int.toNat_natCast]

theorem laneInt_add_word {a b : Nat} (ha : a < 2 ^ 32) (hb : b < 2 ^ 32) : (laneInt 32 false (· + ·) a b).val = (a + b) % 2 ^ 32 := by
  rw [laneInt, fitSigned_wraps]
  refine twos_word ?_
  rcases signed_word ha with h1 | h1 <;> rcases signed_word hb with h2 | h2 <;> rw [h1, h2] <;> omega

theorem laneInt_sub_word {a b : Nat} (ha : a < 2 ^ 32) (hb : b < 2 ^ 32) :
    (laneInt 32 false (· - ·) a b).val = (a + 2 ^ 32 - b) % 2 ^ 32 := by
  rw [laneInt, fitSigned_wraps]
  refine twos_word ?_
  rcases signed_word ha with h1 | h1 <;> rcases signed_word hb with h2 | h2 <;> rw [h1, h2] <;> omega

/-- Whole words are one lane. -/
theorem Ctx.packed_word {c : Ctx} (f : Nat → Bool → Nat → Nat → Fit) (he : c.x.ew = 0) (hs : c.x.sat = false) (h1 : c.sv < 2 ^ 32)
    (h2 : c.tv < 2 ^ 32) : (c.packed f).val % 2 ^ 32 = (f 32 false c.sv c.tv).val % 2 ^ 32 := by
  have hw : ewWidth c.x.ew = 32 := by rw [he]; rfl
  have hl : ewLanes c.x.ew = 1 := by rw [he]; rfl
  simp only [Ctx.packed, hw, hl, hs]
  rw [lanewise_word, Nat.mod_eq_of_lt h1, Nat.mod_eq_of_lt h2]

/-- The rows of whole words at distance 1, with the low word of their result. -/
theorem word_rows {c : Ctx} {op : Op} {n : Nat} (he : c.x.ew = 0) (hs : c.x.sat = false) (h1 : c.sv < 2 ^ 32) (h2 : c.tv < 2 ^ 32)
    (h : (op, n) ∈ [(Op.add, (c.sv + c.tv) % 2 ^ 32), (Op.sub, (c.sv + 2 ^ 32 - c.tv) % 2 ^ 32), (Op.and, Nat.land c.sv c.tv),
      (Op.or, Nat.lor c.sv c.tv), (Op.xor, Nat.xor c.sv c.tv)]) :
    ∃ (F : Ctx → Fit) (more : Ctx → Nat × Nat), Does op (rowOf op) (fun c => c.result (F c) 1 (more c)) ∧ (F c).val % 2 ^ 32 = n := by
  simp only [List.mem_cons, Prod.mk.injEq, List.not_mem_nil, or_false] at h
  rcases h with h | h | h | h | h <;> obtain ⟨rfl, rfl⟩ := h <;> refine ⟨_, _, does_row fun _ _ _ => rfl, ?_⟩
  · rw [Ctx.packed_word _ he hs h1 h2, laneInt_add_word h1 h2, Nat.mod_mod]
  · rw [Ctx.packed_word _ he hs h1 h2, laneInt_sub_word h1 h2, Nat.mod_mod]
  · exact Nat.mod_eq_of_lt (Nat.and_lt_two_pow _ h2)
  · exact Nat.mod_eq_of_lt (Nat.or_lt_two_pow h1 h2)
  · exact Nat.mod_eq_of_lt (Nat.xor_lt_two_pow h1 h2)

end Results

/-- Settles O44: the result at distance 1 overrides every earlier pending write of D. -/
theorem nextInstructionReadsResult : Obligations.NextInstructionReadsResult := by
  intro i op die core s c n hi hr he hs h32 h1 h2 hop
  obtain rfl := rowOp_eq hi
  obtain ⟨F, more, hd, hn⟩ := word_rows he hs h1 h2 hop
  refine ⟨c.committed (c.resultOf (F c) 1 (more c)) c.t, ?_, fun h0 => ?_, fun h0 => Task.reg_zero_writes⟩
  · rw [hd s die core c hr]
    exact congrArg _ (hr.commit_eq rfl)
  · exact (Ctx.committed_result_reads h0 h32 c.t).trans hn

/-! ### Division by 0, and of −2^31 by −1 (R340, R345) -/

/-- Bit 31 of a word is its sign. -/
theorem bitOf_sign {a : Nat} (h : a < 2 ^ 32) : bitOf a 31 = !decide (a < 2 ^ 31) := by
  rw [bitOf, ← decide_not, decide_eq_decide]
  omega

/-- The four divisions, each with its result for a divisor of 0. -/
theorem divide_rows {op : Op} {c : Ctx} {n : Nat} (h1 : c.sv < 2 ^ 32) (h : (op, n) ∈ [(Op.div, if c.sv < 2 ^ 31 then 0x7FFFFFFF else 0x80000000),
      (Op.divu, 0xFFFFFFFF), (Op.rem, c.sv), (Op.remu, c.sv)]) : ∃ (onZero : Ctx → Nat) (q : Ctx → Fit),
    (∀ die core s, exec (rowOf op die core) s = execOp op die core s fun c => c.divide (onZero c) (q c)) ∧ onZero c = n := by
  simp only [List.mem_cons, Prod.mk.injEq, List.not_mem_nil, or_false] at h
  rcases h with h | h | h | h <;> obtain ⟨rfl, rfl⟩ := h <;> refine ⟨_, _, fun _ _ _ => rfl, ?_⟩
  case inl =>
    rw [bitOf_sign h1]
    split <;> simp_all
  all_goals rfl

/-- −2^31 divided by −1 does not fit in 32 bits. -/
theorem fitSigned_quotient (sat : Bool) : fitSigned 32 sat (Int.tdiv (signed 32 0x80000000) (signed 32 0xFFFFFFFF)) =
    ⟨if sat then 0x7FFFFFFF else 0x80000000, !sat, sat, false⟩ := by cases sat <;> decide

/-- Settles O48: the result for a divisor of 0 by the operation, and the quotient that does not fit. -/
theorem divisionCorners : Obligations.DivisionCorners := by
  intro i op die core s c hi hr h1 h2
  obtain rfl := rowOp_eq hi
  refine ⟨fun n hop h0 => ?zero, fun hs ht => ⟨?div, ?rem⟩⟩
  case zero =>
    obtain ⟨onZero, q, row, hn⟩ := divide_rows h1 hop
    rw [row]
    exact ⟨fun hz => ⟨_, execOp_done hr (Ctx.divide_zero h0 hz), by rw [← hn]; rfl, rfl, rfl, rfl⟩,
      fun hz => execOp_trap hr (Ctx.divide_trap h0 hz)⟩
  case div =>
    rintro rfl
    refine ⟨_, execOp_done hr (Ctx.divide_nonzero (by rw [ht]; decide)), ?_, ?_⟩
    · rw [hs, ht, fitSigned_quotient]
      rfl
    · rw [hs, ht, fitSigned_quotient]
      cases c.x.sat <;> rfl
  case rem =>
    rintro rfl
    have h0 : twos 32 (Int.tmod (signed 32 c.sv) (signed 32 c.tv)) = 0 := by
      rw [hs, ht]
      decide
    refine ⟨_, execOp_done hr (Ctx.divide_nonzero (by rw [ht]; decide)), ?_, rfl⟩
    rw [h0]
    rfl

end Sys2Proof.Machine

/-!
PROOFS. Family 11: the coprocessor rows. PPUT does more than the statement gives it: cells that wait for a buffer ask again (R185) and a
near-data task's own input goes on (R399), so the statement of the rows fails for a near-data task that puts a buffer.
-/

namespace Sys2Proof.Machine

open Sys2Proof Test

/-- A near-data task on core 0 that puts its buffer of pool 4 while a chunk of its input waits. -/
def puttingTask : Task :=
  { task0 with regs := [(7, handle)], near := some ⟨⟨1, 1, 1⟩, 0, 0, 1, [⟨1, 0, 16, 0, 0, 0, 0⟩], false, 0⟩ }

/-- The device on which that task stands at the word of PPUT G7; pool 4 is the INPOOL of its program. -/
def putting : State :=
  let c := (onCore puttingTask 0xF4070003).comp
  { inPond 2 (pool (taskOwner 0 0)) with
    comp := { c with programs := c.programs.map fun p => (p.1, { p.2 with inPool := 4 }) } }

/-- What the PPUT of that task sees. -/
def putter : Ctx := sees putting 0xF4070003 puttingTask

/-- Chunks of near-data input that task 0 of die 0 still waits for. -/
def chunksLeft (s : State) : Option Nat := ((s.task 0 0).bind (·.near)).map (·.input.length)

theorem putting_runs : Runs .pput 0 0 putting putter :=
  ⟨by decide, 0, puttingTask, 0xF4070003, ⟨.pput, 0, 7, 0, false, 0, 0, 0, 3, 0, false, false⟩, by decide, by decide, by decide,
    rfl, nofun, rfl, by decide, by decide, rfl⟩

theorem putter_returns : Returns putter.s putter.me putter.sv (pool (taskOwner 0 0)) := ⟨by decide, by decide, by decide⟩

/-- The row feeds the chunk into the buffer that has come free. -/
theorem putter_feeds : chunksLeft (putter.after putter.pondPut) = some 0 := by decide

/-- Refutes O27: a PPUT also lets the task's near-data input go on (R399), which the state in the statement leaves waiting. -/
theorem not_coprocessorRowsComplete : ¬ Obligations.CoprocessorRowsComplete := by
  rintro ⟨-, -, -, -, -, pond, -⟩
  obtain ⟨-, -, -, put, -⟩ := pond putting 0 0 putter (pool (taskOwner 0 0))
  have given := put putting_runs putter_returns
  have row : exec (.pput 0 0) putting = .next (putter.after putter.pondPut) := execOp_runs putting_runs _
  rw [row, Host.Outcome.next.injEq] at given
  have fed := putter_feeds
  rw [given] at fed
  exact absurd fed (by decide)

end Sys2Proof.Machine

/-!
PROOFS. The rows that store nothing: a PUT lets the cells that wait for a pond buffer ask again (R185), and one of them can be a frame marker
whose stamp lies in no take. Its frame is dropped then (R138), and the staged writes of the frame's units go with it: their bytes are cleared.
-/

namespace Sys2Proof.Machine

open Sys2Proof Test

/-- The marker of frame 9 of spring 0, stamped with epoch 0, that waits on lane 0 for a pond buffer. -/
def waitingMarker : Arrival := ⟨⟨0, 0, 4, 1, 0, 0, 0, 0, 0, 9, []⟩, 0, 0, 0⟩

/-- The first byte that the writes staged for coarse unit 2 of namespace 1 hold outside the pond. -/
def stagedByte : Nat := stageAddr 0 1 0

/-- A device in a take that opened with epoch 5, whose frame 9 has coarse unit 2 on die 0, for which a write is staged; the frame's marker
waits on lane 0, and owner 5 holds a buffer of pool 4. -/
def markerWaits : State :=
  let t := { take with openEpoch := 5, frames := [{ frame with segs := [⟨0, 2, 1, 0, 0, 0⟩] }] }
  let s := inTake t
  { s with
    inflow := { s.inflow with lanes := [(0, { laneUp with waiting := [waitingMarker] })] }
    pond := (inPond 2 (pool 5)).pond
    media := { s.media with dies := [(0, { s.md 0 with staged := [⟨1, 1, 2, [0], 0, 0, 0, [], 0, false, false, [], 0, false⟩] })] }
    mem := [(stagedByte, 1)] }

/-- The state after owner 5 has put its buffer. -/
def markerDropped : State := (markerWaits.returned 5 handle (pool 5)).retryWaiting.emit (.pondAnswer 5 3 0 0)

theorem exec_put_markerWaits : exec (.put 5 handle) markerWaits = .next markerDropped :=
  exec_put_returned ⟨by decide, by decide, by decide⟩

theorem markerWaits_byte : memByte markerWaits.mem stagedByte = 1 := by decide

theorem markerDropped_byte : memByte markerDropped.mem stagedByte = 0 := by decide

/-- Refutes O41: the PUT that frees a buffer lets a waiting marker drop its frame, and the staged bytes of the frame's unit are cleared. -/
theorem not_rowsStoreNothing : ¬ Obligations.RowsStoreNothing := by
  intro stores
  obtain ⟨same, -, -⟩ := stores (.put 5 handle) markerWaits markerDropped rfl exec_put_markerWaits
  have kept := same stagedByte
  rw [markerWaits_byte, markerDropped_byte] at kept
  exact absurd kept (by decide)

end Sys2Proof.Machine

/-!
PROOFS. Family 12: the vector rows, and the rows of the dispatcher, the filters, the compute cores and the codec, one lemma a row: what each
answers where its guard holds.
-/

namespace Sys2Proof.Machine

/-! ### Vector rows (R366, R401 to R403) -/

/-- Settles O22: each row executes its operation's word by the act that the statement gives. -/
theorem vectorRowsComplete : Obligations.VectorRowsComplete := by
  unfold Obligations.VectorRowsComplete
  and_intros <;> exact does_row fun _ _ _ => rfl

section DispatcherRows

variable {s : State} {die core slot : Nat} {t : Task}

/-! ### The dispatcher (R387 to R389) -/

/-- The arbiter's winner starts on a core that runs no task. -/
theorem exec_dispatch_free {g : Nat} (hd : s.hasDie die = true) (hw : s.winner die = some (g, slot, t, core))
    (hr : s.running die core = none) : exec (.dispatch die) s = .next (s.startTask die g slot t core) := by
  change execDispatch die s = _
  rw [execDispatch, onDie_pos hd]
  simp only [hw, hr]

/-- On a core that runs a task, the winner takes over, and that task joins its ready list again (R388). -/
theorem exec_dispatch_preempts {g other : Nat} {o : Task} (hd : s.hasDie die = true) (hw : s.winner die = some (g, slot, t, core))
    (hr : s.running die core = some (other, o)) :
    exec (.dispatch die) s = .next (((s.startTask die g slot t core).enqueue die other o).bump (0x5090 + die) 2) := by
  change execDispatch die s = _
  rw [execDispatch, onDie_pos hd]
  simp only [hw, hr]

/-- Some ready task of the die may use the core. -/
def State.coreAwaited (s : State) (die core : Nat) : Bool :=
  (List.range 16).any fun g => (s.readyList die g).any fun o =>
    match s.task die o with
    | some u => (s.coresFor die u).contains core
    | none => false

theorem State.coreAwaited_of_ready {g o : Nat} {u : Task} (hg : g < 16) (ho : o ∈ s.readyList die g) (hu : s.task die o = some u)
    (hc : core ∈ s.coresFor die u) : s.coreAwaited die core = true :=
  List.any_eq_true.mpr ⟨g, List.mem_range.mpr hg, List.any_eq_true.mpr ⟨o, ho, by simpa only [hu] using List.contains_iff_mem.mpr hc⟩⟩

/-- A compute-class task yields an awaited core at the end of its slice (R388). -/
theorem exec_timeSliceExpiry (hd : s.hasDie die = true) (hr : s.running die core = some (slot, t)) (hcls : t.cls ≠ 0)
    (hover : t.startedAt + t.slice * 1000 ≤ s.time.now) (hwait : s.coreAwaited die core = true) :
    exec (.timeSliceExpiry die core) s = .next ((s.yieldCore die slot).bump (0x5090 + die) 1) := by
  change execTimeSliceExpiry die core s = _
  rw [execTimeSliceExpiry, onDie_pos hd]
  simp only [hr]
  exact if_pos ⟨hcls, hwait, hover⟩

theorem exec_heldPostLands (hd : s.hasDie die = true) :
    exec (.heldPostLands die) s =
      .next ([0, 1, 2].foldl (fun s e => s.startJobs die e 4) ((s.cd die).tasks.foldl (fun s t => s.landPost die t.1) s)) := by
  change execHeldPostLands die s = _
  rw [execHeldPostLands, onDie_pos hd]

/-! ### Filters, cores and the codec (R393, R406, R407) -/

/-- The oldest frame that a filter has not retired misses once its deadline has begun (R393). -/
theorem exec_filterDeadline {w : FilterWork} {frame n st : Nat} (hd : s.hasDie die = true)
    (hw : ((s.task die slot).bind (·.filter)) = some w)
    (hf : (w.frames.find? fun x => x.state = 0) = some ⟨frame, some n, st⟩) (hl : isBefore (s.instant die) n = false) :
    exec (.filterDeadline die slot) s = .next (s.missFrame die slot frame true).endFilters := by
  change execFilterDeadline die slot s = _
  rw [execFilterDeadline, onDie_pos hd]
  simp only [hw, hf]
  exact if_pos (by rw [hl]; rfl)

theorem exec_computeCoreFailure (hd : s.hasDie die = true) (hc : core < 16) (hu : s.coreUp die core = true) :
    exec (.computeCoreFailure die core) s = .next (s.computeCoreFails die core) := by
  change execComputeCoreFailure die core s = _
  rw [execComputeCoreFailure, onDie_pos hd]
  exact if_neg (by simp [hc, hu])

/-- A codec job that runs, with a descriptor without fault and a task that still waits for it, is carried out (R406). -/
theorem exec_codecJobComplete {ticket : Nat} {poisoned : Bool} {j : Job} (hd : s.hasDie die = true)
    (hj : tget (s.cd die).jobs ticket = some j) (he : j.engine = 2) (hs : j.state = 1) (ha : j.abandoned = false)
    (hb : j.codecBad = false) (hst : s.engineStalled die 2 = false) :
    exec (.codecJobComplete die ticket poisoned) s = .next (s.runCodec die ticket j poisoned) := by
  change execCodecJobComplete die ticket poisoned s = _
  rw [execCodecJobComplete, onDie_pos hd]
  simp only [hj]
  rw [if_neg (by simp [he, hs]), if_neg (by simp [hst]), if_neg (by simp [ha]), if_neg (by simp [hb])]

end DispatcherRows

/-- Settles O28: each row's own lemma, under the guards that the statement gives it. -/
theorem dispatcherRowsComplete : Obligations.DispatcherRowsComplete := by
  intro s die hd
  exact ⟨fun _ _ _ _ hw => ⟨exec_dispatch_free hd hw, fun _ _ => exec_dispatch_preempts hd hw⟩,
    fun _ _ _ _ _ _ hr hcls hover hg ho hu hc => exec_timeSliceExpiry hd hr hcls hover (State.coreAwaited_of_ready hg ho hu hc),
    exec_heldPostLands hd, fun _ _ _ _ _ => exec_filterDeadline hd, fun _ => exec_computeCoreFailure hd,
    fun _ _ _ => exec_codecJobComplete hd⟩

end Sys2Proof.Machine

/-!
PROOFS. Family 13: when a row of the search array matches, and the rows of the cascade, of the arrays' upkeep and of a table's maintenance, one
lemma a row: what each answers where its guard holds.
-/

namespace Sys2Proof.Machine

/-! ### A row under its mask (R412) -/

theorem SRow.matches_iff {e : SRow} {key : Nat} :
    e.matches key = true ↔ e.suspect = false ∧ Nat.land (Nat.xor key e.arrValue) e.arrMask = 0 := by
  simp [SRow.matches]

section Written

variable {value mask data key : Nat}

@[simp] theorem SRow.make_value : (SRow.make value mask data).value = Nat.land value mask := rfl
@[simp] theorem SRow.make_mask : (SRow.make value mask data).mask = mask := rfl
@[simp] theorem SRow.make_arrValue : (SRow.make value mask data).arrValue = Nat.land value mask := rfl
@[simp] theorem SRow.make_arrMask : (SRow.make value mask data).arrMask = mask := rfl
@[simp] theorem SRow.make_suspect : (SRow.make value mask data).suspect = false := rfl

/-- No masked bit differs exactly where both words have the same bit at each place that the mask holds. -/
theorem land_xor_eq_zero_iff {a b : Nat} :
    Nat.land (Nat.xor a b) mask = 0 ↔ ∀ k, mask.testBit k = true → a.testBit k = b.testBit k := by
  have bit (k : Nat) : (Nat.land (Nat.xor a b) mask).testBit k = ((a.testBit k ^^ b.testBit k) && mask.testBit k) :=
    (Nat.testBit_and _ _ k).trans (by rw [← Nat.testBit_xor]; rfl)
  constructor
  · intro none_left k held
    have same := bit k
    rw [none_left, held, Nat.zero_testBit, Bool.and_true] at same
    exact bne_eq_false_iff_eq.mp same.symm
  · intro agree
    refine Nat.eq_of_testBit_eq fun k => ?_
    rw [bit, Nat.zero_testBit]
    cases held : mask.testBit k with
    | false => exact Bool.and_false _
    | true => rw [agree k held, Bool.xor_self, Bool.false_and]

/-- At a place that the mask holds, a VALUE stored under the mask keeps its bit. -/
theorem testBit_land_of_held {k : Nat} (held : mask.testBit k = true) : (Nat.land value mask).testBit k = value.testBit k :=
  (Nat.testBit_and value mask k).trans (by rw [held, Bool.and_true])

theorem SRow.matches_make_iff :
    (SRow.make value mask data).matches key = true ↔ ∀ k, mask.testBit k = true → key.testBit k = value.testBit k := by
  rw [SRow.matches_iff, SRow.make_suspect, SRow.make_arrValue, SRow.make_arrMask, land_xor_eq_zero_iff, and_iff_right rfl]
  exact forall₂_congr fun k held => by rw [testBit_land_of_held held]

end Written

/-- Settles O58: a row that is written holds VALUE under its MASK in the array, so the bits under the MASK decide the match. -/
theorem rowMatchesUnderMask : Obligations.RowMatchesUnderMask :=
  ⟨fun _ _ => SRow.matches_iff, fun _ _ _ _ => ⟨SRow.make_value, SRow.make_mask, SRow.matches_make_iff⟩⟩

section SearchRows

variable {s : State} {die row table : Nat}

/-! ### The cascade (R422, R423) -/

theorem exec_cascadeKey {issuer width key count : Nat} {carried : Option Nat} :
    exec (.cascadeKey issuer width table key carried count) s = .next (s.cascadeKey issuer width table key carried count) := rfl

theorem exec_cascadeIdleToken_alone (h : s.obj 0x7002 2 = 1) : exec .cascadeIdleToken s = .next s := by
  change execCascadeIdleToken s = _
  rw [execCascadeIdleToken, if_pos h]

/-- In a cascade, die 0 sends a token once 1 µs has passed since the last. -/
theorem exec_cascadeIdleToken_due (h : s.obj 0x7002 2 ≠ 1) (due : s.search.tokenAt.any (s.time.now < · + 1000) = false) :
    exec .cascadeIdleToken s = .next (s.useFree.sendToken (s.freeValue % 2 = 1)) := by
  change execCascadeIdleToken s = _
  rw [execCascadeIdleToken, if_neg h, if_neg (Bool.eq_false_iff.mp due)]

theorem exec_cascadeSilenceTimeout_alone {conflict : Bool} (h : s.obj 0x7002 2 = 1) :
    exec (.cascadeSilenceTimeout conflict) s = .next s := by
  change execCascadeSilenceTimeout conflict s = _
  rw [execCascadeSilenceTimeout, if_pos h]

/-- Two packages at one position, or 10 µs without ring traffic, break the ring. -/
theorem exec_cascadeSilenceTimeout_breaks {conflict : Bool} (h : s.obj 0x7002 2 ≠ 1)
    (broken : conflict = true ∨ s.search.heardAt.any (s.time.now < · + 10000) = false) :
    exec (.cascadeSilenceTimeout conflict) s = .next (s.ringBreaks conflict) := by
  change execCascadeSilenceTimeout conflict s = _
  rw [execCascadeSilenceTimeout, if_neg h]
  refine if_neg fun ⟨single, heard⟩ => ?_
  rcases broken with twice | silent
  · rw [twice] at single
    exact absurd single (by decide)
  · exact absurd heard (Bool.eq_false_iff.mp silent)

/-! ### Rewrites and scrubs (R427, R428) -/

theorem exec_rowRewriteComplete {e : SRow} {agrees poisoned : Bool} (hd : s.hasDie die = true)
    (he : tget (s.rowsOf die) row = some e) (waits : e.rewrite = true) :
    exec (.rowRewriteComplete die row agrees poisoned) s = .next (s.rowRewritten die row e agrees poisoned) := by
  change execRowRewriteComplete die row agrees poisoned s = _
  rw [execRowRewriteComplete, onDie_pos hd]
  simp only [he]
  exact if_pos waits

theorem exec_searchArrayScrub {mismatched : List Nat} (hd : s.hasDie die = true) (due : s.searchScrubDue die = true) :
    exec (.searchArrayScrub die mismatched) s = .next (s.scrubRows die mismatched) := by
  change execSearchArrayScrub die mismatched s = _
  rw [execSearchArrayScrub, onDie_pos hd, if_pos due]

/-! ### Maintenance of a table (R430, R431) -/

/-- The operation at the head of a table's queue runs what is left of its move, and ends. -/
theorem exec_maintenanceOperationComplete {t : STable} (ht : tget s.search.tables table = some t) (work : t.queue ≠ []) :
    exec (.maintenanceOperationComplete table) s = .next ((s.runMove table (s.places t)).endMaint table) := by
  change execMaintenanceOperationComplete table s = _
  simp only [execMaintenanceOperationComplete, ht]
  exact if_neg (mt List.isEmpty_iff.mp work)

theorem exec_entryMove {t : STable} {m : Move} (ht : tget s.search.tables table = some t) (hm : t.move = some m) (short : m.gap ≠ m.goal) :
    exec (.entryMove table) s = .next (s.moveStep table t m) := by
  change execEntryMove table s = _
  simp only [execEntryMove, ht, hm]
  exact if_neg short

end SearchRows

/-- Settles O29: each row's own lemma, under the guards that the statement gives it. -/
theorem searchRowsComplete : Obligations.SearchRowsComplete := by
  intro s
  exact ⟨fun _ _ _ _ _ _ => exec_cascadeKey,
    fun cascaded => ⟨exec_cascadeIdleToken_due cascaded, fun _ => exec_cascadeSilenceTimeout_breaks cascaded⟩,
    fun alone => ⟨exec_cascadeIdleToken_alone alone, fun _ => exec_cascadeSilenceTimeout_alone alone⟩,
    fun _ hd => ⟨fun _ _ _ _ => exec_rowRewriteComplete hd, fun _ => exec_searchArrayScrub hd⟩,
    fun _ _ ht => ⟨exec_maintenanceOperationComplete ht, fun _ => exec_entryMove ht⟩⟩

end Sys2Proof.Machine

/-!
PROOFS. What every step keeps: each row's own law of `Kept`, in one table over the commands, and what holds of a step at its queue's front.
-/

namespace Sys2Proof.Machine

/-- Whatever a command answers has the part and the queue of the state it ran on, and a memory in canonical form where that state's was. -/
theorem exec_kept {a s : State} (h : Kept true a s) : ∀ i : Instr, Res.kept true a (exec i s)
  -- Time (chapter 2)
  | .phaseAdvance .. => execPhaseAdvance_kept h
  | .epochBoundary .. => execEpochBoundary_kept h
  | .frameSyncEdge .. => execFrameSyncEdge_kept h
  | .ltcFrame .. => execLtcFrame_kept h
  | .ptpSyncMessage .. => execPtpSyncMessage_kept h
  | .ptpFollowUpMessage .. => execPtpFollowUpMessage_kept h
  | .ptpAnnounceMessage .. => execPtpAnnounceMessage_kept h
  | .ptpDelayRespMessage .. => execPtpDelayRespMessage_kept h
  | .sourceLost .. => execSourceLost_kept h
  | .holdoverExpiry => execHoldoverExpiry_kept h
  | .returnTimeExpiry .. => execReturnTimeExpiry_kept h
  -- The dictionary (chapter 3)
  | .read .. => execRead_kept h
  | .write .. => execWrite_kept h
  | .domainRead .. => execDomainRead_kept h
  | .domainWrite .. => execDomainWrite_kept h
  | .segment .. => execSegment_kept h
  | .domainAbort .. => execDomainAbort_kept h
  | .segmentAck .. => execSegmentAck_kept h
  | .unknownCommand .. => execUnknownCommand_kept h
  | .domainTransferTimeout .. => execDomainTransferTimeout_kept h
  | .canHeartbeat => execCanHeartbeat_kept h
  | .udpDatagram .. => execUdpDatagram_kept h
  | .txnBegin .. => execTxnBegin_kept h
  | .txnCommitNext .. => execTxnCommitNext_kept h
  | .txnCommitAtEpoch .. => execTxnCommitAtEpoch_kept h
  | .txnRollback .. => execTxnRollback_kept h
  | .txnTimeout .. => execTxnTimeout_kept h
  | .canSessionTimeout .. => execCanSessionTimeout_kept h
  | .limitedChangeFuseBlow .. => execLimitedChangeFuseBlow_kept h
  -- The inflow link (chapter 4)
  | .codewordReceived .. => execCodewordReceived_kept h
  | .bandStartCell .. => execBandStartCell_kept h
  | .bandDataCell .. => execBandDataCell_kept h
  | .bandEndCell .. => execBandEndCell_kept h
  | .frameMarker .. => execFrameMarker_kept h
  | .cellInError .. => execCellInError_kept h
  | .nakTimeout .. => execNakTimeout_kept h
  | .creditRefresh .. => execCreditRefresh_kept h
  | .signalDetect .. => execSignalDetect_kept h
  | .trainingStepComplete .. => execTrainingStepComplete_kept h
  | .trainingStepTimeout .. => execTrainingStepTimeout_kept h
  | .bondDeadline .. => execBondDeadline_kept h
  | .hello .. => execHello_kept h
  | .echo .. => execEcho_kept h
  | .echoReply .. => execEchoReply_kept h
  | .controlAck .. => execControlAck_kept h
  | .dictRequest .. => execDictRequest_kept h
  | .portResetMessage _ cause => execPortResetMessage_kept (y2 := cause) h
  | .unknownControlMessage _ msg => execUnknownControlMessage_kept (y2 := msg) h
  | .controlRetryExpiry .. => execControlRetryExpiry_kept h
  | .reserveSend .. => execReserveSend_kept h
  | .bandEndTimeout .. => execBandEndTimeout_kept h
  | .signalLoss .. => execSignalLoss_kept h
  | .laneRetrainTimer .. => execLaneRetrainTimer_kept h
  | .inflowPortReset .. => execInflowPortReset_kept h
  -- Takes (chapter 5)
  | .takeOpen .. => execTakeOpen_kept h
  | .takeClose .. => execTakeClose_kept h
  | .takeDelete .. => execTakeDelete_kept h
  | .takeAbort .. => execTakeAbort_kept h
  | .frameRecord .. => execFrameRecord_kept h
  | .takeSeal .. => execTakeSeal_kept h
  -- Ponds (chapter 6)
  | .get .. => execGet_kept h
  | .addref .. => execAddref_kept h
  | .pass .. => execPass_kept h
  | .put .. => execPut_kept h
  | .query .. => execQuery_kept h
  | .passedNotice .. => execPassedNotice_kept h
  | .pondQueryRegister .. => execPondQueryRegister_kept h
  | .reservationsLoad .. => execReservationsLoad_kept h
  | .ownerWalkComplete .. => execOwnerWalkComplete_kept h
  | .pondAudit .. => execPondAudit_kept h
  -- Media and flash (chapters 7 and 8)
  | .mergeWindowExpiry .. => execMergeWindowExpiry_kept h
  | .heatHalving .. => execHeatHalving_kept h
  | .journalFlush .. => execJournalFlush_kept h
  | .checkpointPassComplete .. => execCheckpointPassComplete_kept h
  | .dieStripeHoldExpiry .. => execDieStripeHoldExpiry_kept h
  | .flashProgramComplete .. => execFlashProgramComplete_kept h
  | .flashEraseComplete .. => execFlashEraseComplete_kept h
  | .flashReadComplete .. => execFlashReadComplete_kept h
  | .seepWindowStart .. => execSeepWindowStart_kept h
  | .plwNAssert .. => execPlwNAssert_kept h
  | .holdupOkChange .. => execHoldupOkChange_kept h
  | .channelCheck .. => execChannelCheck_kept h
  | .flashOperationTimeout .. => execFlashOperationTimeout_kept h
  | .targetResetWaitExpiry .. => execTargetResetWaitExpiry_kept h
  -- The host interface (chapters 9 and 10)
  | .linkUp .. => execLinkUp_kept h
  | .linkDown .. => execLinkDown_kept h
  | .completionTimeout .. => execCompletionTimeout_kept h
  | .sqTailDoorbell .. => execSqTailDoorbell_kept h
  | .cqHeadDoorbell .. => execCqHeadDoorbell_kept h
  | .commandFetch .. => execCommandFetch_kept h
  | .createIoSq .. => execCreateIoSq_kept h
  | .createIoCq .. => execCreateIoCq_kept h
  | .deleteIoSq .. => execDeleteIoSq_kept h
  | .deleteIoCq .. => execDeleteIoCq_kept h
  | .getLogPage .. => execGetLogPage_kept h
  | .identify .. => execIdentify_kept h
  | .abortCommand _ sqid cid => execAbortCommand_kept (y2 := sqid) (y3 := cid) h
  | .setFeatures .. => execSetFeatures_kept h
  | .getFeatures .. => execGetFeatures_kept h
  | .asyncEventRequest .. => execAsyncEventRequest_kept h
  | .namespaceCreate .. => execNamespaceCreate_kept h
  | .namespaceDelete .. => execNamespaceDelete_kept h
  | .namespaceAttach .. => execNamespaceAttach_kept h
  | .namespaceDetach .. => execNamespaceDetach_kept h
  | .formatNvm .. => execFormatNvm_kept h
  | .formatNvmCryptoErase .. => execFormatNvmCryptoErase_kept h
  | .firmwareImageDownload .. => execFirmwareImageDownload_kept h
  | .fwCommitReplace .. => execFwCommitReplace_kept h
  | .fwCommitReplaceActivateReset .. => execFwCommitReplaceActivateReset_kept h
  | .fwCommitActivateReset .. => execFwCommitActivateReset_kept h
  | .fwCommitActivateNow .. => execFwCommitActivateNow_kept h
  | .firmwareActivationResume .. => execFirmwareActivationResume_kept h
  | .vqResourceAssign .. => execVqResourceAssign_kept h
  | .secondaryOnline .. => execSecondaryOnline_kept h
  | .secondaryOffline .. => execSecondaryOffline_kept h
  | .dictionaryWrite .. => execDictionaryWrite_kept h
  | .dictionaryRead .. => execDictionaryRead_kept h
  | .createOrderedIoSq .. => execCreateOrderedIoSq_kept h
  | .programLoad .. => execProgramLoad_kept h
  | .programUnload .. => execProgramUnload_kept h
  | .lakeJoin .. => execLakeJoin_kept h
  | .lakeLeave .. => execLakeLeave_kept h
  | .lakeStatus .. => execLakeStatus_kept h
  | .flush .. => execFlush_kept h
  | .nvmWrite .. => execNvmWrite_kept h
  | .nvmRead .. => execNvmRead_kept h
  | .compare .. => execCompare_kept h
  | .writeZeroes .. => execWriteZeroes_kept h
  | .datasetManagementDeallocate .. => execDatasetManagementDeallocate_kept h
  | .verify .. => execVerify_kept h
  | .search .. => execSearch_kept h
  | .searchWide .. => execSearchWide_kept h
  | .runProgram .. => execRunProgram_kept h
  | .verifyFrame .. => execVerifyFrame_kept h
  | .verifyTakeSeal .. => execVerifyTakeSeal_kept h
  | .verifyRangeDigest .. => execVerifyRangeDigest_kept h
  | .computeRangeDigest .. => execComputeRangeDigest_kept h
  | .readFrame .. => execReadFrame_kept h
  | .readFrameEntry .. => execReadFrameEntry_kept h
  | .controllerEnable .. => execControllerEnable_kept h
  | .controllerDisable .. => execControllerDisable_kept h
  | .shutdownNotification .. => execShutdownNotification_kept h
  | .nvmSubsystemReset .. => execNvmSubsystemReset_kept h
  | .vfEnableChange .. => execVfEnableChange_kept h
  | .functionLevelReset .. => execFunctionLevelReset_kept h
  | .bucketRefill => execBucketRefill_kept h
  | .programHoldExpiry .. => execProgramHoldExpiry_kept h
  | .dirtyLogHarvest .. => execDirtyLogHarvest_kept h
  | .quiesce .. => execQuiesce_kept h
  | .quiesceResume .. => execQuiesceResume_kept h
  | .quiesceLimitExpiry .. => execQuiesceLimitExpiry_kept h
  | .stateRestore .. => execStateRestore_kept h
  -- The instruction set (chapter 11)
  | .undefinedInstruction .. => execUndefinedInstruction_kept h
  | .add .. => execAdd_kept h
  | .sub .. => execSub_kept h
  | .and .. => execAnd_kept h
  | .or .. => execOr_kept h
  | .xor .. => execXor_kept h
  | .andn .. => execAndn_kept h
  | .slt .. => execSlt_kept h
  | .sltu .. => execSltu_kept h
  | .min .. => execMin_kept h
  | .max .. => execMax_kept h
  | .minu .. => execMinu_kept h
  | .maxu .. => execMaxu_kept h
  | .neg .. => execNeg_kept h
  | .abs .. => execAbs_kept h
  | .sll .. => execSll_kept h
  | .srl .. => execSrl_kept h
  | .sra .. => execSra_kept h
  | .slli .. => execSlli_kept h
  | .srli .. => execSrli_kept h
  | .srai .. => execSrai_kept h
  | .clz .. => execClz_kept h
  | .popc .. => execPopc_kept h
  | .sextb .. => execSextb_kept h
  | .sexth .. => execSexth_kept h
  | .bswap .. => execBswap_kept h
  | .packl .. => execPackl_kept h
  | .packh .. => execPackh_kept h
  | .mul .. => execMul_kept h
  | .mulh .. => execMulh_kept h
  | .mulhu .. => execMulhu_kept h
  | .mulhsu .. => execMulhsu_kept h
  | .div .. => execDiv_kept h
  | .divu .. => execDivu_kept h
  | .rem .. => execRem_kept h
  | .remu .. => execRemu_kept h
  | .qmul .. => execQmul_kept h
  | .qrshr .. => execQrshr_kept h
  | .qrshri .. => execQrshri_kept h
  | .qnarrow .. => execQnarrow_kept h
  | .qsat16 .. => execQsat16_kept h
  | .amul .. => execAmul_kept h
  | .amac .. => execAmac_kept h
  | .amsu .. => execAmsu_kept h
  | .amacq .. => execAmacq_kept h
  | .amsuq .. => execAmsuq_kept h
  | .aclr .. => execAclr_kept h
  | .aset .. => execAset_kept h
  | .aext .. => execAext_kept h
  | .agetl .. => execAgetl_kept h
  | .ageth .. => execAgeth_kept h
  | .agetg .. => execAgetg_kept h
  | .addi .. => execAddi_kept h
  | .andi .. => execAndi_kept h
  | .ori .. => execOri_kept h
  | .xori .. => execXori_kept h
  | .slti .. => execSlti_kept h
  | .sltiu .. => execSltiu_kept h
  | .lui .. => execLui_kept h
  | .lb .. => execLb_kept h
  | .lbu .. => execLbu_kept h
  | .lh .. => execLh_kept h
  | .lhu .. => execLhu_kept h
  | .lw .. => execLw_kept h
  | .sb .. => execSb_kept h
  | .sh .. => execSh_kept h
  | .sw .. => execSw_kept h
  | .beq .. => execBeq_kept h
  | .bne .. => execBne_kept h
  | .blt .. => execBlt_kept h
  | .bge .. => execBge_kept h
  | .bltu .. => execBltu_kept h
  | .bgeu .. => execBgeu_kept h
  | .j .. => execJ_kept h
  | .jal .. => execJal_kept h
  | .jalr .. => execJalr_kept h
  | .b .. => execB_kept h
  | .bl .. => execBl_kept h
  | .br .. => execBr_kept h
  | .crd .. => execCrd_kept h
  | .cwr .. => execCwr_kept h
  | .cset .. => execCset_kept h
  | .cclr .. => execCclr_kept h
  | .trap .. => execTrap_kept h
  | .eret .. => execEret_kept h
  | .wait .. => execWait_kept h
  | .fence .. => execFence_kept h
  | .exit .. => execExit_kept h
  | .vadd .. => execVadd_kept h
  | .vsub .. => execVsub_kept h
  | .vand .. => execVand_kept h
  | .vor .. => execVor_kept h
  | .vxor .. => execVxor_kept h
  | .vmin .. => execVmin_kept h
  | .vmax .. => execVmax_kept h
  | .vminu .. => execVminu_kept h
  | .vmaxu .. => execVmaxu_kept h
  | .vneg .. => execVneg_kept h
  | .vabs .. => execVabs_kept h
  | .vsll .. => execVsll_kept h
  | .vsrl .. => execVsrl_kept h
  | .vsra .. => execVsra_kept h
  | .vqmul .. => execVqmul_kept h
  | .vqrshr .. => execVqrshr_kept h
  | .vcmpeq .. => execVcmpeq_kept h
  | .vcmplt .. => execVcmplt_kept h
  | .vcmpltu .. => execVcmpltu_kept h
  | .vsel .. => execVsel_kept h
  | .vmul .. => execVmul_kept h
  | .vpopc .. => execVpopc_kept h
  | .vmac .. => execVmac_kept h
  | .vmsu .. => execVmsu_kept h
  | .vmacq .. => execVmacq_kept h
  | .vmula .. => execVmula_kept h
  | .vaclr .. => execVaclr_kept h
  | .vld .. => execVld_kept h
  | .vst .. => execVst_kept h
  | .vbcast .. => execVbcast_kept h
  | .vget .. => execVget_kept h
  | .vput .. => execVput_kept h
  | .vredadd .. => execVredadd_kept h
  | .vredmin .. => execVredmin_kept h
  | .vredmax .. => execVredmax_kept h
  | .vperm .. => execVperm_kept h
  | .vzipl .. => execVzipl_kept h
  | .vziph .. => execVziph_kept h
  | .vwidenl .. => execVwidenl_kept h
  | .vwidenh .. => execVwidenh_kept h
  | .vaccout .. => execVaccout_kept h
  | .vaccin .. => execVaccin_kept h
  | .srch .. => execSrch_kept h
  | .srch288 .. => execSrch288_kept h
  | .srch576 .. => execSrch576_kept h
  | .sins .. => execSins_kept h
  | .sput .. => execSput_kept h
  | .swr .. => execSwr_kept h
  | .sdel .. => execSdel_kept h
  | .srd .. => execSrd_kept h
  | .sclr .. => execSclr_kept h
  | .sstat .. => execSstat_kept h
  | .pget .. => execPget_kept h
  | .paddref .. => execPaddref_kept h
  | .ppass .. => execPpass_kept h
  | .pput .. => execPput_kept h
  | .pquery .. => execPquery_kept h
  | .pmap .. => execPmap_kept h
  | .punmap .. => execPunmap_kept h
  | .jsubCipher .. => execJsubCipher_kept h
  | .jsubDigest .. => execJsubDigest_kept h
  | .jsubCodec .. => execJsubCodec_kept h
  | .jpoll .. => execJpoll_kept h
  | .cop3Instruction .. => execCop3Instruction_kept h
  -- Dispatch and compute (chapter 12)
  | .dispatch .. => execDispatch_kept h
  | .timeSliceExpiry .. => execTimeSliceExpiry_kept h
  | .heldPostLands .. => execHeldPostLands_kept h
  | .filterDeadline .. => execFilterDeadline_kept h
  | .computeCoreFailure .. => execComputeCoreFailure_kept h
  | .taskResetRegister .. => execTaskResetRegister_kept h
  | .clearDispatcherHistograms .. => execClearDispatcherHistograms_kept h
  | .codecJobComplete .. => execCodecJobComplete_kept h
  -- The search unit (chapter 13)
  | .cascadeKey .. => execCascadeKey_kept h
  | .cascadeIdleToken => execCascadeIdleToken_kept h
  | .cascadeSilenceTimeout .. => execCascadeSilenceTimeout_kept h
  | .rowRewriteComplete .. => execRowRewriteComplete_kept h
  | .maintenanceOperationComplete .. => execMaintenanceOperationComplete_kept h
  | .searchArrayScrub .. => execSearchArrayScrub_kept h
  -- The cipher and digest engines (chapters 14 and 15)
  | .clearKeySlot .. => execClearKeySlot_kept h
  | .removeStoredKey .. => execRemoveStoredKey_kept h
  | .counterBlockJournalled .. => execCounterBlockJournalled_kept h
  | .cipherUrgencyExpiry .. => execCipherUrgencyExpiry_kept h
  | .cipherPreemptAtBoundary .. => execCipherPreemptAtBoundary_kept h
  | .cipherJobComplete .. => execCipherJobComplete_kept h
  | .aesCoreTimeout .. => execAesCoreTimeout_kept h
  | .emptyKeyStateSlot .. => execEmptyKeyStateSlot_kept h
  | .digestUrgencyExpiry .. => execDigestUrgencyExpiry_kept h
  | .digestJobComplete .. => execDigestJobComplete_kept h
  | .shaCoreTimeout .. => execShaCoreTimeout_kept h
  | .dctlStart .. => execDctlStart_kept h
  | .dctlAbort .. => execDctlAbort_kept h
  | .ddataWrite .. => execDdataWrite_kept h
  | .dresRead .. => execDresRead_kept h
  | .registerJobDone .. => execRegisterJobDone_kept h
  | .measurementExtend .. => execMeasurementExtend_kept h
  | .reportRequest .. => execReportRequest_kept h
  -- The lake (chapter 16)
  | .lakeHeartbeat .. => execLakeHeartbeat_kept h
  | .heartbeatSend .. => execHeartbeatSend_kept h
  | .nodeLost .. => execNodeLost_kept h
  | .joinListenExpiry => execJoinListenExpiry_kept h
  | .joinRequest _ _ _ serial _ _ => execJoinRequest_kept (y4 := serial) h
  | .joinAnswer _ _ _ _ _ members => execJoinAnswer_kept (y6 := members) h
  | .joinAnswerTimeout => execJoinAnswerTimeout_kept h
  | .leave _ cause => execLeave_kept (y2 := cause) h
  | .lakeAck _ _ status => execLakeAck_kept (y3 := status) h
  | .lakeRetryExpiry .. => execLakeRetryExpiry_kept h
  | .lakeDictRequest .. => execLakeDictRequest_kept h
  | .lakeDictResponse _ body => execLakeDictResponse_kept (y2 := body) h
  | .lxnBegin .. => execLxnBegin_kept h
  | .lxnCommitNext .. => execLxnCommitNext_kept h
  | .lxnCommitAtEpoch .. => execLxnCommitAtEpoch_kept h
  | .lxnRollback .. => execLxnRollback_kept h
  | .lxnPrepare _ _ _ participants _ => execLxnPrepare_kept (y4 := participants) h
  | .lxnVote _ _ _ admission status index sub => execLxnVote_kept (y4 := admission) (y5 := status) (y6 := index) (y7 := sub) h
  | .lxnCommit _ _ epoch => execLxnCommit_kept (y3 := epoch) h
  | .lxnAbort _ _ cause => execLxnAbort_kept (y3 := cause) h
  | .lxnQuery .. => execLxnQuery_kept h
  | .lxnVoteDeadline .. => execLxnVoteDeadline_kept h
  | .lxnQueryDeadline .. => execLxnQueryDeadline_kept h
  | .lxnOutcomeDeadline .. => execLxnOutcomeDeadline_kept h
  | .searchRequest .. => execSearchRequest_kept h
  | .searchResult .. => execSearchResult_kept h
  | .lakeSearchResend .. => execLakeSearchResend_kept h
  | .lakeSearchTimeout .. => execLakeSearchTimeout_kept h
  | .partReady .. => execPartReady_kept h
  | .frameCommit .. => execFrameCommit_kept h
  | .frameCommitTimeout .. => execFrameCommitTimeout_kept h
  | .eventMessage _ body => execEventMessage_kept (y2 := body) h
  -- Faults, resets and events (chapter 17)
  | .dieHeartbeat .. => execDieHeartbeat_kept h
  | .dieSilenceTimeout .. => execDieSilenceTimeout_kept h
  | .lockstepMismatch .. => execLockstepMismatch_kept h
  | .stewardRestartComplete .. => execStewardRestartComplete_kept h
  | .leadSilenceTimeout .. => execLeadSilenceTimeout_kept h
  | .standbySyncComplete => execStandbySyncComplete_kept h
  | .packageSoftReset .. => execPackageSoftReset_kept h
  | .packageSoftResetForced .. => execPackageSoftResetForced_kept h
  | .dieReset .. => execDieReset_kept h
  | .dieResetTimeout .. => execDieResetTimeout_kept h
  | .cipherEngineReset .. => execCipherEngineReset_kept h
  | .digestEngineReset .. => execDigestEngineReset_kept h
  | .codecEngineReset .. => execCodecEngineReset_kept h
  | .searchEngineReset .. => execSearchEngineReset_kept h
  | .engineStallTimeout .. => execEngineStallTimeout_kept h
  | .emergencyRepeatExpiry .. => execEmergencyRepeatExpiry_kept h
  | .clearEventLog .. => execClearEventLog_kept h
  | .acknowledgeEvents .. => execAcknowledgeEvents_kept h
  | .scrubWindowStart .. => execScrubWindowStart_kept h
  -- Power and heat (chapter 18)
  | .housekeepingRound .. => execHousekeepingRound_kept h
  | .housekeepingReadout .. => execHousekeepingReadout_kept h
  | .graceExpiry => execGraceExpiry_kept h
  | .tripCheck .. => execTripCheck_kept h
  | .domainWakeComplete .. => execDomainWakeComplete_kept h
  -- Start-up and test access (chapters 19 and 20)
  | .powerOn => execPowerOn_kept h
  | .aonPowerFail => execAonPowerFail_kept h
  | .porstNAssert .. => execPorstNAssert_kept h
  | .porstNRelease .. => execPorstNRelease_kept h
  | .firstStageLoaded .. => execFirstStageLoaded_kept h
  | .dictionaryReady .. => execDictionaryReady_kept h
  | .firmwareVerified .. => execFirmwareVerified_kept h
  | .dramTrainingComplete .. => execDramTrainingComplete_kept h
  | .flashDiscoveryComplete .. => execFlashDiscoveryComplete_kept h
  | .dieSectionTimeout .. => execDieSectionTimeout_kept h
  | .mapRestoreComplete .. => execMapRestoreComplete_kept h
  | .deviceReady .. => execDeviceReady_kept h
  | .idcode .. => execIdcode_kept h
  | .bypass .. => execBypass_kept h
  | .samplePreload .. => execSamplePreload_kept h
  | .extest .. => execExtest_kept h
  | .bootstat .. => execBootstat_kept h
  -- Rows that close the table, of several chapters
  | .plwNRelease => execPlwNRelease_kept h
  | .mediaCoreFailure .. => execMediaCoreFailure_kept h
  | .dieLinkFailure .. => execDieLinkFailure_kept h
  | .ethernetLinkUp .. => execEthernetLinkUp_kept h
  | .ethernetLinkDown .. => execEthernetLinkDown_kept h
  | .functionLevelResetComplete .. => execFunctionLevelResetComplete_kept h
  | .configurationRequest .. => execConfigurationRequest_kept h
  | .frameCompletionTimeout .. => execFrameCompletionTimeout_kept h
  | .digestBlockCompressed .. => execDigestBlockCompressed_kept h
  | .entryMove .. => execEntryMove_kept h

/-! ### The two cases of a step -/

theorem step_of_pending {s : State} {c : Instr} {rest : List Instr} (front : s.pending = c :: rest) :
    step s = exec c { s with pending := rest } := by
  rw [step, front]

theorem step_of_idle {s : State} (idle : s.pending = []) : step s = .next s := by
  rw [step, idle]

/-- Settles O1: the front of the queue is the command, and the queue of the record is replaced by the rest. -/
theorem stepRunsFront : Obligations.StepRunsFront := fun _ _ _ => step_of_pending rfl

/-- Settles O36: a step on an empty queue answers its own state. -/
theorem emptyQueueIdles : Obligations.EmptyQueueIdles := fun _ => step_of_idle

/-- Settles O39: an idle step changes nothing; any other runs its command on the state with the queue's rest, which the command keeps. -/
theorem stepKeepsWellKept : Obligations.StepKeepsWellKept := by
  intro s t canonical stepped
  cases waiting : s.pending with
  | nil =>
    rw [step_of_idle waiting, Host.Outcome.next.injEq] at stepped
    subst stepped
    exact ⟨canonical, rfl, waiting⟩
  | cons c rest =>
    rw [step_of_pending waiting] at stepped
    have kept : Kept true { s with pending := rest } t := exec_kept .rfl c t stepped
    exact ⟨kept.canon canonical, kept.part, kept.queue⟩

/-! ### Reset -/

theorem resetOf_memOk (cfg : PartCfg) : (State.resetOf cfg).memOk := rfl
theorem resetOf_cfg (cfg : PartCfg) : (State.resetOf cfg).cfg = cfg := rfl
theorem resetOf_pending (cfg : PartCfg) : (State.resetOf cfg).pending = [] := rfl

/-- Settles O40: reset of any part, of which `State.reset` is the HK7-2's. -/
theorem resetWellKept : Obligations.ResetWellKept :=
  ⟨fun cfg => ⟨resetOf_memOk cfg, resetOf_cfg cfg, resetOf_pending cfg⟩, resetOf_memOk _, resetOf_pending _⟩

end Sys2Proof.Machine

/-!
PROOFS. Family 14: the rows of the cipher and digest engines, of a die's register sets, and of power and heat, one lemma a row: what each
answers where its guard holds.
-/

namespace Sys2Proof.Machine

section EngineRows

variable {s : State} {die : Nat}

/-! ### The cipher engine (R454, R459, R462, R463) -/

/-- A counter block is marked where a job of the die or a message of the lake waits for it. -/
theorem exec_counterBlockJournalled {slot : Nat} {k : KeySlot} (hd : s.hasDie die = true) (hk : s.keySlot die slot = some k)
    (waits : (∃ j ∈ (s.cd die).active 0, j.2.status = waitBlock ∧ j.2.cslot = slot) ∨
      (slot = s.obj 0x9006 0 ∧ ∃ m ∈ s.lake.held, m.lane / 4 = die)) :
    exec (.counterBlockJournalled die slot) s = .next (s.counterMarked die slot k) := by
  change execCounterBlockJournalled die slot s = _
  rw [execCounterBlockJournalled, onDie_pos hd]
  simp only [hk]
  refine if_neg (by simpa [or_iff_not_imp_left] using waits)

/-- A waiting class 0 job turns urgent at its limit, or once the ring is over its mark (R459). -/
theorem exec_cipherUrgencyExpiry {ticket : Nat} {j : Job} (hd : s.hasDie die = true) (hj : tget (s.cd die).jobs ticket = some j)
    (he : j.engine = 0) (hs : j.state = 0) (hc : j.cls = 0)
    (due : j.since + j.limit ≤ s.time.now ∨ 67108864 * s.obj 0x2222 5 < s.ringUsed die * 100) :
    exec (.cipherUrgencyExpiry die ticket) s = .next (s.setJob die ticket { j with urgent := true }) := by
  change execCipherUrgencyExpiry die ticket s = _
  rw [execCipherUrgencyExpiry, onDie_pos hd]
  simp only [hj]
  exact if_pos ⟨he, hs, hc, due⟩

/-- An urgent job takes the core of the running job that gives way, while a context is left for that one (R459). -/
theorem exec_cipherPreemptAtBoundary {core ticket vt : Nat} {j v : Job} (hd : s.hasDie die = true)
    (hq : ((s.cd die).queue 0).find? (fun j => j.2.urgent) = some (ticket, j)) (hv : (s.cd die).victim 0 = some (vt, v))
    (hc : v.core = core) (room : (s.sd die).aesContexts < 16) :
    exec (.cipherPreemptAtBoundary die core) s = .next (s.preemptCipher die core ticket vt j v (s.sd die)) := by
  change execCipherPreemptAtBoundary die core s = _
  rw [execCipherPreemptAtBoundary, onDie_pos hd]
  simp only [hq, hv]
  exact if_neg (by omega)

theorem exec_cipherJobComplete {core ticket : Nat} {poisoned : Bool} {j : Job} (hd : s.hasDie die = true)
    (hj : s.jobOn die 0 core = some (ticket, j)) (runs : s.engineStalled die 0 = false) (wanted : j.abandoned = false)
    (sound : j.status = 0) :
    exec (.cipherJobComplete die core poisoned) s = .next (s.runCipher die ticket core j poisoned) := by
  change execCipherJobComplete die core poisoned s = _
  rw [execCipherJobComplete, onDie_pos hd]
  simp [hj, runs, wanted, sound, waitBlock]

theorem exec_aesCoreTimeout {core : Nat} (hd : s.hasDie die = true) (hc : core ∈ s.engineCores die 0) :
    exec (.aesCoreTimeout die core) s = .next (s.aesCoreLost die core) := by
  change execAesCoreTimeout die core s = _
  rw [execAesCoreTimeout, onDie_pos hd]
  exact if_neg (by simp [hc])

/-! ### The digest engine (R472, R477, R484) -/

theorem exec_digestUrgencyExpiry {ticket : Nat} {j : Job} (hd : s.hasDie die = true) (hj : tget (s.cd die).jobs ticket = some j)
    (he : j.engine = 1) (hs : j.state = 0) (hc : j.cls = 0) (due : j.since + j.limit ≤ s.time.now) :
    exec (.digestUrgencyExpiry die ticket) s = .next (s.digestUrgent die ticket j) := by
  change execDigestUrgencyExpiry die ticket s = _
  rw [execDigestUrgencyExpiry, onDie_pos hd]
  simp only [hj]
  exact if_pos ⟨he, hs, hc, due⟩

theorem exec_digestJobComplete {core ticket : Nat} {poisoned : Bool} {cmp : Option (Bool × Bool × Bool × Bool)} {j : Job}
    (hd : s.hasDie die = true) (hj : s.jobOn die 1 core = some (ticket, j)) (runs : s.engineStalled die 1 = false)
    (wanted : j.abandoned = false) (sound : j.status = 0) :
    exec (.digestJobComplete die core poisoned cmp) s = .next (s.runDigest die ticket core j poisoned cmp) := by
  change execDigestJobComplete die core poisoned cmp s = _
  rw [execDigestJobComplete, onDie_pos hd]
  simp [hj, runs, wanted, sound]

theorem exec_shaCoreTimeout {core : Nat} (hd : s.hasDie die = true) (hc : core ∈ s.engineCores die 1) :
    exec (.shaCoreTimeout die core) s = .next (s.shaCoreLost die core) := by
  change execShaCoreTimeout die core s = _
  rw [execShaCoreTimeout, onDie_pos hd]
  exact if_neg (by simp [hc])

/-! ### The register sets of a die (R479, R482, R483) -/

section Sets

variable {set : Nat} (hd : s.hasDie die = true) (hk : set < 2)
include hd hk

theorem exec_dctlStart {dctl dlen : Nat} {dexp : List Nat} :
    exec (.dctlStart die set dctl dlen dexp) s = .next (s.startSet die set dctl dlen dexp) := by
  change execDctlStart die set dctl dlen dexp s = _
  exact onSet_pos hd hk

theorem exec_dctlAbort :
    exec (.dctlAbort die set) s = .next (s.setRegSet die set { RegSet.reset with
      dctl := (s.regSet die set).dctl, dlen := (s.regSet die set).dlen, dexp := (s.regSet die set).dexp }) := by
  change execDctlAbort die set s = _
  exact onSet_pos hd hk

theorem exec_ddataWrite {word : Nat} : exec (.ddataWrite die set word) s = .next (s.feedSet die set word) := by
  change execDdataWrite die set word s = _
  exact onSet_pos hd hk

/-- DRES is read where no job of the set is under way. -/
theorem exec_dresRead {index : Nat} (settled : ((s.regSet die set).job && !(s.regSet die set).done) = false) :
    exec (.dresRead die set index) s = .next (s.emit (.digestWord die set index (field (s.regSet die set).digest (4 * index) 4))) := by
  change execDresRead die set index s = _
  rw [execDresRead, onSet_pos hd hk]
  exact if_neg (by simpa using settled)

theorem exec_registerJobDone (hj : (s.regSet die set).job = true) (fed : (s.regSet die set).active = false)
    (hr : (s.regSet die set).done = false) :
    exec (.registerJobDone die set) s = .next (s.finishSet die set (s.regSet die set)) := by
  change execRegisterJobDone die set s = _
  rw [execRegisterJobDone, onSet_pos hd hk]
  exact if_pos (by simp [hj, fed, hr])

theorem exec_digestBlockCompressed (hb : (s.regSet die set).busy = true) :
    exec (.digestBlockCompressed die set) s = .next (s.setRegSet die set { s.regSet die set with busy := false }) := by
  change execDigestBlockCompressed die set s = _
  rw [execDigestBlockCompressed, onSet_pos hd hk]
  exact if_pos hb

end Sets

end EngineRows

/-- Settles O30: each row's own lemma, under the guards that the statement gives it. -/
theorem engineRowsComplete : Obligations.EngineRowsComplete := by
  intro s die hd
  exact ⟨fun _ _ => exec_counterBlockJournalled hd,
    fun _ _ hj hs hc => ⟨fun he => exec_cipherUrgencyExpiry hd hj he hs hc, fun he => exec_digestUrgencyExpiry hd hj he hs hc⟩,
    fun _ _ _ _ _ => exec_cipherPreemptAtBoundary hd, fun _ _ _ _ => exec_cipherJobComplete hd,
    fun _ _ _ _ _ => exec_digestJobComplete hd, fun _ => exec_aesCoreTimeout hd, fun _ => exec_shaCoreTimeout hd,
    fun _ hk => ⟨fun _ _ _ => exec_dctlStart hd hk, exec_dctlAbort hd hk, fun _ => exec_ddataWrite hd hk,
      fun _ => exec_dresRead hd hk, exec_registerJobDone hd hk, exec_digestBlockCompressed hd hk⟩⟩

section PowerRows

variable {s : State} {die : Nat}

/-! ### Power and heat (R546, R551, R557, R562) -/

theorem exec_housekeepingRound {round : Round} (hd : s.hasDie die = true) (up : s.boot.porst = false) :
    exec (.housekeepingRound die round) s = .next (s.houseRound die round) := by
  change execHousekeepingRound die round s = _
  rw [execHousekeepingRound, onDie_pos hd]
  exact if_neg (Bool.eq_false_iff.mp up)

theorem exec_housekeepingReadout (hd : s.hasDie die = true) (due : s.readoutDue die = true) :
    exec (.housekeepingReadout die) s = .next (s.houseReadout die) := by
  change execHousekeepingReadout die s = _
  rw [execHousekeepingReadout, onDie_pos hd]
  exact if_pos due

/-- The first working sensor at 118.0 °C or above trips a device that has not tripped (R562). -/
theorem exec_tripCheck {readings : List Int} {sensor : Nat} {t : Int} (hd : s.hasDie die = true)
    (hot : (((s.pd die).working readings).find? fun k => 1180 ≤ k.2) = some (sensor, t)) (untripped : s.power.tripped = false) :
    exec (.tripCheck die readings) s = .next (s.trip die sensor t) := by
  change execTripCheck die readings s = _
  rw [execTripCheck, onDie_pos hd]
  simp only [hot]
  exact if_neg (Bool.eq_false_iff.mp untripped)

theorem exec_domainWakeComplete {domain us since : Nat} (hd : s.hasDie die = true) (hw : tget (s.pd die).waking domain = some since)
    (passed : since + 1000 * us ≤ s.time.now) (within : us ≤ wakeMostUs.getD domain 0) :
    exec (.domainWakeComplete die domain us) s = .next (s.domainWakes die domain us (s.pd die)) := by
  change execDomainWakeComplete die domain us s = _
  rw [execDomainWakeComplete, onDie_pos hd]
  simp only [hw]
  exact if_neg (by omega)

/-- The end of the grace waits while a take is open or closing, and is due otherwise (R557, R559). -/
theorem exec_graceExpiry {until' : Nat} (hg : s.power.grace = some until') (passed : until' ≤ s.time.now) :
    exec .graceExpiry s = .next (let s1 : State := { s with power := { s.power with grace := none } };
      if s.anyOpenOrClosing then { s1 with power := { s1.power with waiting := true } }
      else { s1 with power := { s1.power with due := true } }) := by
  change execGraceExpiry s = _
  simp only [execGraceExpiry, hg]
  rw [if_neg (Nat.not_lt.mpr passed)]
  split <;> rfl

end PowerRows

/-- Settles O34: each row's own lemma, under the guards that the statement gives it. -/
theorem powerRowsComplete : Obligations.PowerRowsComplete := by
  intro s
  exact ⟨fun _ hd => ⟨fun _ => exec_housekeepingRound hd, exec_housekeepingReadout hd, fun _ _ _ => exec_tripCheck hd,
    fun _ _ _ => exec_domainWakeComplete hd⟩, fun _ => exec_graceExpiry⟩

end Sys2Proof.Machine

/-!
PROOFS. Family 16: the messages of a lake, which act on the state of their acceptance, and its timers and Ethernet lanes, one lemma a row: what
each answers where its guard holds.
-/

namespace Sys2Proof.Machine

section LakeRows

variable {s : State}

/-! ### Messages (R497, R499) -/

/-- A row that hands an effect to the receiver has it, on the state of the message's acceptance, where the message is accepted. -/
theorem exec_of_onMsg {i : Instr} {h : LakeHdr} {ty width : Nat} (f : State → State) (row : exec i s = onMsg s h ty width f)
    (m : MsgTaken h ty width s) : exec i s = .next (f (s.msgState h ty width)) := row.trans (onMsg_pos m)

/-- A heartbeat from another node is a message like any other; only a joining node takes note of one that bears its own number (R503). -/
theorem exec_lakeHeartbeat {h : LakeHdr} {b : HeartbeatBody} (m : MsgTaken h 1 0 s) :
    exec (.lakeHeartbeat h b) s = .next (let t := s.msgState h 1 0;
      if t.inLake then ((t.heardHeartbeat h b).afterDrop t).settleRings else t.heardHeartbeat h b) := by
  change execLakeHeartbeat h b s = _
  have other : (s.lake.state = 1 && h.src = s.lake.node && h.tagOk && h.lake = s.obj 0x9000 0 && s.lakeLane h.die h.lane) = false := by
    simp [m.src]
  simp only [execLakeHeartbeat, other, Bool.false_eq_true, if_false]
  exact onMsg_pos m

/-! ### Heartbeats and the loss of a node (R501, R502) -/

theorem exec_heartbeatSend {k : Nat} (on : s.lake.state ≠ 0) (due : s.beatDue k = true) :
    exec (.heartbeatSend k) s = .next (({ s.takeLead with lake := { s.takeLead.lake with beat := some (s.epoch, k) } } : State).lakeEmit
      0x1FF 1 false s.takeLead.heartbeatBody) := by
  change execHeartbeatSend k s = _
  rw [execHeartbeatSend, if_neg on]
  exact if_neg (by simp [due])

theorem exec_nodeLost {node : Nat} (other : node ≠ s.lake.node)
    (known : node ∈ s.lake.members ∨ (tget s.lake.peers node).isSome = true) (silent : s.nodeSilent node = true) :
    exec (.nodeLost node) s = .next (if s.inLake then ((s.dropNode node true).afterDrop s).settleRings
      else { s with lake := { s.lake with peers := tdel s.lake.peers node } }) := by
  change execNodeLost node s = _
  have heeded : ¬((tget s.lake.peers node).isNone = true ∧ (!s.lake.members.contains node) = true ∨ node = s.lake.node) := by
    rintro (⟨noPeer, noMember⟩ | own)
    · rcases known with member | peer
      · simp [member] at noMember
      · simp [Option.isNone_iff_eq_none.mp noPeer] at peer
    · exact other own
  rw [execNodeLost, if_neg heeded, if_neg (by simp [silent])]
  split <;> rfl

/-! ### Joining (R503) -/

section Join

variable {j : LakeJoin} (hj : s.lake.join = some j) (joins : s.lake.state = 1)
include hj joins

/-- A listener that has heard no node begins a lake of its own. -/
theorem exec_joinListenExpiry_alone (hl : j.listening = true) (passed : j.since + 3 * s.beatNs ≤ s.time.now) (none_heard : s.lake.peers = []) :
    exec .joinListenExpiry s = .next (s.becomeMember s.lake.node 1 (s.obj 0x9007 1) [s.lake.node]) := by
  change execJoinListenExpiry s = _
  simp [execJoinListenExpiry, hj, joins, hl, Nat.not_lt.mpr passed, none_heard, tget]

/-- A listener that has heard a leader asks it. -/
theorem exec_joinListenExpiry_asks {p : Nat × Peer} (hl : j.listening = true) (passed : j.since + 3 * s.beatNs ≤ s.time.now)
    (unused : tget s.lake.peers s.lake.node = none) (hp : (s.lake.peers.find? fun p => p.2.state = 2) = some p) :
    exec .joinListenExpiry s = .next (({ s with lake := { s.lake with join := some ⟨j.q, false, true, s.time.now⟩ } } : State).lakeSend p.1 2
      ([1, 2] ++ zeros 6 ++ leBytes 8 Config.packageSerial ++ leBytes 8 (s.obj 0x1130 4) ++ leBytes 8 (s.obj 0x1102 0))) := by
  change execJoinListenExpiry s = _
  simp only [execJoinListenExpiry, hj]
  rw [if_neg (by simp [joins, hl]), if_neg (Nat.not_lt.mpr passed), if_neg (by simp [unused])]
  simp only [hp]

theorem exec_joinAnswerTimeout (ha : j.asked = true) (outside : s.lake.level = 0) (passed : j.since + 1000000000 ≤ s.time.now) :
    exec .joinAnswerTimeout s = .next (s.refuseLake 0x0B) := by
  change execJoinAnswerTimeout s = _
  simp only [execJoinAnswerTimeout, hj]
  rw [if_neg (by simp [joins, ha, outside])]
  exact if_neg (Nat.not_lt.mpr passed)

end Join

/-! ### Retries (R498) -/

/-- A message that nobody has acknowledged is sent again, or given up after its last retry. -/
theorem exec_lakeRetryExpiry {node seq : Nat} {m : LakeMsg} (hm : (s.lake.unacked.find? fun m => m.dst = node && m.seq = seq) = some m)
    (passed : m.sent + 1000 * s.obj 0x9009 1 ≤ s.time.now) :
    let s1 : State := { s with lake := { s.lake with unacked := s.lake.unacked.erase m } }
    let s2 := (s1.lakeEmit node m.ty true m.body).bump 0x901A 4
    let m' := { m with seq := tgetD s2.lake.seqOut node 0, retries := m.retries + 1, sent := s.time.now }
    exec (.lakeRetryExpiry node seq) s = .next (if m.retries < s.obj 0x9009 2 then
      { s2 with lake := { s2.lake with unacked := s2.lake.unacked ++ [m'] } } else s1) := by
  intro s1 s2 m'
  change execLakeRetryExpiry node seq s = _
  simp only [execLakeRetryExpiry, hm]
  rw [if_neg (Nat.not_lt.mpr passed)]
  by_cases left : m.retries < s.obj 0x9009 2
  · rw [if_neg (Nat.not_le.mpr left), if_pos left]
  · rw [if_pos (Nat.not_lt.mp left), if_neg left]

/-! ### Deadlines of a lake's transactions (R509, R510) -/

theorem exec_lxnVoteDeadline {ident : Nat} {x : Lxn} (hx : s.lxn ident = some x) (voting : x.state = 2)
    (passed : s.reached x.target (s.obj 0x900C 0) = true) :
    exec (.lxnVoteDeadline ident) s = .next (s.abortLxn ident 1) := by
  change execLxnVoteDeadline ident s = _
  simp [execLxnVoteDeadline, hx, voting, passed]

section Votes

variable {ident : Nat} {v : LakeVote} (hv : (s.lake.votes.find? fun v => v.ident = ident) = some v)
include hv

theorem exec_lxnQueryDeadline (other : v.coord ≠ s.lake.node) (passed : s.reached v.target (s.obj 0x900C 0 / 2) = true) :
    exec (.lxnQueryDeadline ident) s = .next (s.lakeSend v.coord 0x24 (leBytes 4 ident)) := by
  change execLxnQueryDeadline ident s = _
  simp [execLxnQueryDeadline, hv, other, passed]

theorem exec_lxnOutcomeDeadline (passed : s.reached v.target 4096 = true) :
    exec (.lxnOutcomeDeadline ident) s = .next ((s.abortVote ident).raise (evPkg 30) ident) := by
  change execLxnOutcomeDeadline ident s = _
  simp [execLxnOutcomeDeadline, hv, passed]

end Votes

/-! ### Searches of a lake (R518) -/

section Searches

variable {ident : Nat} {x : LakeSearch} (hx : (s.lake.searches.find? fun x => x.ident = ident) = some x)
include hx

theorem exec_lakeSearchResend (passed : x.since + 2000000 ≤ s.time.now) :
    exec (.lakeSearchResend ident) s = .next ((x.asked.filter fun n => (tget x.answers n).isNone).foldl
      (fun s n => (s.lakeEmit n 0x30 true (searchBody ident x.table x.width x.key)).bump 0x901A 4) s) := by
  change execLakeSearchResend ident s = _
  simp only [execLakeSearchResend, hx]
  exact if_neg (Nat.not_lt.mpr passed)

/-- Where every node that is still silent has left the lake, the answers of the others are merged. -/
theorem exec_lakeSearchTimeout_merges (passed : x.since + 4500000 ≤ s.time.now)
    (complete : (x.asked.any fun n => (tget x.answers n).isNone && s.lake.members.contains n) = false) :
    exec (.lakeSearchTimeout ident) s = .next (s.mergeSearch { x with asked := x.asked.filter fun n => (tget x.answers n).isSome }) := by
  change execLakeSearchTimeout ident s = _
  simp only [execLakeSearchTimeout, hx]
  rw [if_neg (Nat.not_lt.mpr passed)]
  exact if_neg (Bool.eq_false_iff.mp complete)

/-- Where a member is still silent, the search's command fails. -/
theorem exec_lakeSearchTimeout_fails (passed : x.since + 4500000 ≤ s.time.now)
    (silent : (x.asked.any fun n => (tget x.answers n).isNone && s.lake.members.contains n) = true) :
    exec (.lakeSearchTimeout ident) s = .next ((({ s with lake := { s.lake with
      searches := s.lake.searches.erase x } } : State).failVendor x.q x.op 0xC8 0).raise (evPkg 31) ident) := by
  change execLakeSearchTimeout ident s = _
  simp only [execLakeSearchTimeout, hx]
  rw [if_neg (Nat.not_lt.mpr passed)]
  exact if_pos silent

end Searches

/-! ### Frames of a lake's takes, and Ethernet lanes (R493, R514) -/

/-- The anchor commits a frame once one of its parts has waited the time of 0x900B. -/
theorem exec_frameCommitTimeout {lakeTake spring frame : Nat} {t : Take}
    (ht : (s.lakeTakes.find? fun t => t.lakeTake = lakeTake) = some t) (anchor : s.anchorOf t = s.lake.node)
    (waited : ∃ p ∈ s.partsOf lakeTake spring frame, p.since + 1000000 * s.obj 0x900B 0 ≤ s.time.now) :
    exec (.frameCommitTimeout lakeTake spring frame) s = .next (s.sendCommit t spring frame (t.bandsOf spring frame)).settleRings := by
  change execFrameCommitTimeout lakeTake spring frame s = _
  obtain ⟨p, hp, passed⟩ := waited
  have present : ¬((s.partsOf lakeTake spring frame).isEmpty = true ∨ s.anchorOf t ≠ s.lake.node) := by
    rintro (empty | elsewhere)
    · exact List.ne_nil_of_mem hp (List.isEmpty_iff.mp empty)
    · exact elsewhere anchor
  have overdue : ¬((s.partsOf lakeTake spring frame).all fun p => s.time.now < p.since + 1000000 * s.obj 0x900B 0) = true :=
    fun early => Nat.not_lt.mpr passed (of_decide_eq_true (List.all_eq_true.mp early p hp))
  simp only [execFrameCommitTimeout, ht]
  rw [if_neg present]
  exact if_neg overdue

section Ethernet

variable {die lane : Nat} (hl : IsLane s die lane) (ethernet : s.laneMode die lane = 3)
include hl ethernet

theorem exec_ethernetLinkUp (powered : s.usable die 7 = true) :
    exec (.ethernetLinkUp die lane) s = .next (s.setLane die lane { s.lane die lane with signal := true }) := by
  change execEthernetLinkUp die lane s = _
  rw [execEthernetLinkUp, onLane_pos hl, if_neg (not_not.mpr ethernet)]
  exact if_neg (by simp [powered])

theorem exec_ethernetLinkDown :
    exec (.ethernetLinkDown die lane) s = .next (s.setLane die lane { s.lane die lane with signal := false }) := by
  change execEthernetLinkDown die lane s = _
  rw [execEthernetLinkDown, onLane_pos hl]
  exact if_pos ethernet

end Ethernet

end LakeRows

/-- Settles O31: a heartbeat by its own lemma; every other row hands its effect to the receiver, which an accepted message passes. -/
theorem lakeMessageRowsComplete : Obligations.LakeMessageRowsComplete := by
  intro s h
  exact ⟨fun _ => exec_lakeHeartbeat,
    fun low high _ gm rate => exec_of_onMsg (·.answerJoin h low high gm rate) rfl,
    fun result level leader gen _ => exec_of_onMsg (·.joinAnswered result level leader gen) rfl,
    fun _ => exec_of_onMsg (·.peerLeaves h) rfl,
    fun seq _ => exec_of_onMsg (·.lakeAcked h seq) rfl,
    fun body => exec_of_onMsg (·.servePeer h body) rfl,
    fun _ => exec_of_onMsg id rfl,
    fun ident epoch _ writes => exec_of_onMsg (·.votePrepare h ident epoch writes) rfl,
    fun ident vote _ _ _ _ => exec_of_onMsg (·.recordVote ident h.src vote) rfl,
    fun ident _ => exec_of_onMsg (·.commitVote ident) rfl,
    fun ident _ => exec_of_onMsg (·.lxnAborted ident) rfl,
    fun ident => exec_of_onMsg (·.answerQuery h ident) rfl,
    fun ident table width key => exec_of_onMsg (·.replySearch h ident table width key) rfl,
    fun ident result count status => exec_of_onMsg (·.searchAnswered h ident result count status) rfl,
    fun lakeTake spring frame bands => exec_of_onMsg (·.partHeard h lakeTake spring frame bands) rfl,
    fun lakeTake spring frame bands => exec_of_onMsg (fun s => (s.frameCommitted lakeTake spring frame bands).settleRings) rfl,
    fun _ => exec_of_onMsg id rfl⟩

/-- Settles O32: each row's own lemma, under the guards that the statement gives it. -/
theorem lakeTimerRowsComplete : Obligations.LakeTimerRowsComplete := by
  intro s
  exact ⟨fun _ => exec_heartbeatSend, fun _ => exec_nodeLost,
    fun _ hj joins => ⟨exec_joinListenExpiry_alone hj joins, fun hl passed unused _ => exec_joinListenExpiry_asks hj joins hl passed unused,
      exec_joinAnswerTimeout hj joins⟩,
    fun _ _ _ => exec_lakeRetryExpiry, fun _ _ => exec_lxnVoteDeadline,
    fun _ _ hv => ⟨exec_lxnQueryDeadline hv, exec_lxnOutcomeDeadline hv⟩,
    fun _ _ hx => ⟨exec_lakeSearchResend hx, fun passed => ⟨exec_lakeSearchTimeout_merges hx passed, exec_lakeSearchTimeout_fails hx passed⟩⟩,
    fun _ _ _ _ => exec_frameCommitTimeout, fun _ _ hl ethernet => ⟨exec_ethernetLinkUp hl ethernet, exec_ethernetLinkDown hl ethernet⟩⟩

end Sys2Proof.Machine
